-- ==== Sys2Proof/Word.lean ====
section
/-!
DEFINITION. The word types of the register fabric and the byte of the two memories (R28, R8).
-/
namespace Sys2Proof

/-- Every register is 32 bits wide (R28). -/
abbrev Word := BitVec 32

/-- One byte of scratch or deep memory. -/
abbrev Byte := BitVec 8

/-- A 64-bit word of an item, a token, a marker or a header (R266, R409). -/
abbrev Word64 := BitVec 64

end Sys2Proof
end

