-- ==== Sys2Proof/Machine/Types.lean ====
section
/-!
DEFINITION. The plain data that commands and the state are made of: requesters, tokens, items, chunks, banks, and what
the part sends out.
-/
namespace Sys2Proof.Machine

/-- Who makes a register access (R29): the host, the control complex, or another module's remote window. -/
inductive Requester where
  | host | cpx | remote
  deriving DecidableEq, Repr

/-- Module run states (table `Module run states`, R25). A record in progress is shown by ACQ_STAT.ARMED, which may stay 1
in `safe`. -/
inductive RunState where
  | standby | starting | ready | armed | safe
  deriving DecidableEq, Repr

/-- Ordering codes (R1). -/
inductive Variant where
  | a256 | a128 | s256
  deriving DecidableEq, Repr

/-- The Flepex ports (R427). -/
inductive Port where
  | east | west | twin
  deriving DecidableEq, Repr

/-- Register index of a port on the FLX page (R427). -/
def Port.idx : Port → Nat
  | .east => 0 | .west => 1 | .twin => 2

/-- A 32-byte token: four words (R408). -/
structure Token where
  w0 : Word64
  w1 : Word64
  w2 : Word64
  w3 : Word64
  deriving DecidableEq, Repr

/-- A whole item of a stream (R266, R267): its FIRST_SLOT quantity, its words (a sample word uses the low half of one), and
the ply it was derived from when it is a ladder effect that the commit point may still hold (R231). -/
structure Item where
  slot : Nat
  words : List Word64
  ply : Option Nat
  deriving DecidableEq, Repr

/-- A marker in a chunk's tail: the index it stands before and its words after the first (R273, R287). -/
structure TailMark where
  index : Nat
  words : List Word64
  deriving DecidableEq, Repr

/-- The chunk a producer is writing (R267 to R276): room in bytes for the whole chunk, age limit in µs when it was opened. -/
structure OpenChunk where
  items : List Item
  tail : List TailMark
  bytes : Nat
  tailWords : Nat
  exp : Nat
  thinned : Bool
  openedAt : Nat
  room : Nat
  ageMax : Nat
  deriving DecidableEq, Repr

/-- A closed chunk (R268 to R273). `stored` holds the bytes after the header; `flags` the pocket's FLAGS byte; `dataCrc`
a DATA_CRC kept as read although the bytes were not read right (R340). -/
structure Chunk where
  stream : Nat
  record : Nat
  segment : Nat
  seq : Nat
  kind : Nat
  exp : Nat
  items : List Item
  tail : List TailMark
  flags : Nat
  origin : Nat
  place : Nat
  payloadLen : Nat
  stored : List Byte
  dataCrc : Option Nat
  deriving DecidableEq, Repr

/-- One ping-pong bank (R278): code 0 free, 1 filling, 2 full and waiting, 3 draining (RFQ_BANK_STAT). -/
inductive Bank where
  | free | filling
  | full (c : Chunk)
  | draining (c : Chunk)
  deriving DecidableEq, Repr

/-- Code of a bank in RFQ_BANK_STAT. -/
def Bank.code : Bank → Nat
  | .free => 0 | .filling => 1 | .full _ => 2 | .draining _ => 3

/-- The chunk a bank holds. -/
def Bank.chunk? : Bank → Option Chunk
  | .full c => some c | .draining c => some c | _ => none

/-- A gap that is still open: its first slot not taken and its cause (R288, table `GAP causes`). -/
structure Gap where
  slot : Nat
  cause : Nat
  deriving DecidableEq, Repr

/-- A complete chunk in a ring (R240): its offset there. -/
structure RingChunk where
  pos : Nat
  chunk : Chunk
  deriving DecidableEq, Repr

/-- A stream of the part: its open chunk, the producer's two banks with the one it fills, items staged while it stalls, ring
write position, complete chunks in the ring oldest first, those of earlier segments, and whether one of the record was overwritten; on the store path the SEQ of
its next chunk, the SEQ of the ring chunk read next, ring chunks dealt to threads and ring chunks passed on whole (R294), and
the OFFLOAD that uses the path; whether the next chunk carries FLUSHED, first slots discarded by flushes (R282), and gaps still
open. -/
structure StreamQ where
  opened : Option OpenChunk
  bankA : Bank
  bankB : Bank
  current : Bool
  staging : List Item
  stagingBytes : Nat
  ringPos : Nat
  ring : List RingChunk
  older : List RingChunk
  lost : Bool
  storeSeq : Nat
  readSeq : Nat
  dealt : Nat
  passed : Nat
  pathOp : Option Nat
  flushed : Bool
  flushGap : List Nat
  gaps : List Gap
  deriving DecidableEq, Repr

/-- A stream with nothing in it. -/
def StreamQ.empty : StreamQ where
  opened := none
  bankA := .free
  bankB := .free
  current := false
  staging := []
  stagingBytes := 0
  ringPos := 0
  ring := []
  older := []
  lost := false
  storeSeq := 0
  readSeq := 0
  dealt := 0
  passed := 0
  pathOp := none
  flushed := false
  flushGap := []
  gaps := []

/-- NVMe commands the store writer issues on a drive (R351 to R365). -/
inductive NvmeOp where
  | write (lba : Nat) (blocks : Nat) (fua : Bool)
  | flush
  | read (lba : Nat) (blocks : Nat)
  | deallocate (lba : Nat) (blocks : Nat)
  | controllerReset
  deriving DecidableEq, Repr

/-- A UDP datagram (R395, R399): destination, port, MAC addresses, whether IPv6, IP addresses, UDP ports, and the UDP payload. -/
structure Datagram where
  dest : Nat
  port : Nat
  srcMac : Nat
  dstMac : Nat
  ipv6 : Bool
  srcIp : Nat
  dstIp : Nat
  srcUdp : Nat
  dstUdp : Nat
  bytes : List Byte
  deriving DecidableEq, Repr

/-- What the part sends out of itself, oldest first in `State.out`. -/
inductive Output where
  /-- Data of a read completion, or all ones where the spec gives that (R28, R31). -/
  | readData (req : Requester) (bytes : List Byte)
  /-- Completion with poisoned data (R326, R336, R340). -/
  | poisoned (req : Requester)
  /-- Completion with status Unsupported Request (R373). -/
  | unsupported
  /-- Completion with Configuration Request Retry Status (R484), and a normal configuration completion. -/
  | retryStatus
  | configDone
  /-- One MSI-X message on a vector (R387, R388). -/
  | msix (vector : Nat)
  /-- A token made by this module, or relayed, out of a port (R409). -/
  | token (port : Port) (t : Token)
  /-- A NAK carrying the last sequence number taken (R407). -/
  | nak (port : Port) (ack : Nat)
  /-- A CMD flit out of a port: a forwarded command or completion (R424). -/
  | cmdFlit (port : Port) (dst : Nat) (ring : Nat) (tag : Nat) (completion : Bool) (words : List Word64)
  /-- A completion entry written at a CQ slot (R376). -/
  | cqEntry (ring : Nat) (slot : Nat) (words : List Word64)
  /-- Data written to a host address (R381). -/
  | hostWrite (addr : Nat) (bytes : List Byte)
  /-- An NVMe command issued on a port (R351), on the I/O queue pair R353 gives it. -/
  | nvme (drive : Nat) (queue : Option Nat) (op : NvmeOp)
  /-- A UDP datagram of a destination (R395). -/
  | datagram (d : Datagram)
  /-- An ACT land takes a level: 0 low, 1 high, 2 high impedance, at a slot (R204, R206). -/
  | land (n : Nat) (level : Nat) (slot : Nat)
  /-- A converter takes a sample at a slot (R144). -/
  | sample (converter : Nat) (slot : Nat)
  /-- A value or image written to the flash (R490). -/
  | flash (offset : Nat) (bytes : List Byte)
  deriving DecidableEq, Repr

/-! ### Clock synthesis -/

/-- What a synthesizer keeps beside its registers (R53 to R61): the search bounds and step, whether the latest window
deviated by more than 100 ppm, whether a soft reset holds it on bypass, whether an attempt is due, and the latest measured REFCLK in kHz. -/
structure SynthState where
  lo : Nat
  hi : Nat
  step : Nat
  verifying : Bool
  deviated : Bool
  resetHold : Bool
  wanted : Bool
  refKhz : Nat
  bypassFrom : Option Nat
  deriving DecidableEq, Repr

/-! ### Angle loops -/

/-- From the ply start at `slot` the angle runs from `phase` (ANGLE × 2^32 + fraction) by `rate` (F_APP) per ply (R70). -/
structure Seg where
  slot : Nat
  phase : Nat
  rate : Nat
  deriving DecidableEq, Repr

/-- A line-tracking loop (R70 to R90). `segs` is the angle log, newest first; `lastEvent` the latest valid event; `first` the
first event of a qualification with its phase error; `crossing` a reference event found and not yet taken (slot, falling);
`coastFrom` the ply start a coast began at; `hold` the held angle; `refSlot` and `refPhase` the reference angle of the latest
event; the `enc` fields the quadrature decoder, `rev` the position and the error at a reversal; `lastCycle` and `period` the
latest cycle boundary and cycle length; `rawPrev`, `filt`, `side` the converter crossing detector (R73); `resume` the rate a
stopped page keeps (R513); `lossBase` where the loss interval is measured from; `tokGap` the interval of the ANGLE tokens and
`ownLoss` a coast the member declared itself (R417). -/
structure LoopState where
  segs : List Seg
  fInt : Nat
  lastEvent : Option Nat
  first : Option (Nat × Int)
  crossing : Option (Nat × Bool)
  coastFrom : Option Nat
  hold : Option Nat
  refSlot : Nat
  refPhase : Int
  passRun : Nat
  reverse : Bool
  encPos : Int
  encAB : Nat
  encUpd : Nat
  encOff : Int
  encIdx : Option Int
  revPos : Int
  revErr : Int
  lastCycle : Option Nat
  period : Option Nat
  failRun : Nat
  agreeRun : Nat
  rawPrev : Option (Nat × Int)
  filt : Int
  side : Int
  resume : Option Nat
  lossBase : Nat
  tokGap : Nat
  ownLoss : Bool
  deriving DecidableEq, Repr

/-! ### Action outputs -/

/-- What ends an output's activity (R204): nothing but a release, a slot, an angle of a loop (in 2^-32 pip), or, for a width
in pips started before its loop ran, the width still owed. -/
inductive PulseStop where
  | release
  | slot (n : Nat)
  | angle (loop : Nat) (phase : Nat)
  | owed (loop : Nat) (width : Nat)
  deriving DecidableEq, Repr

/-- An action output: what ends its activity, the slot its latest activation came from, and the level its land was last
driven to (0 low, 1 high, 2 high impedance). -/
structure ActOut where
  stop : PulseStop
  since : Nat
  level : Nat
  deriving DecidableEq, Repr

/-! ### Safety -/

/-- The safety monitor beside its registers (R445 to R448): the SAFE_FAULT pin, RESET_NEEDED, the slot of a first clearing
key still good, the ply start at which SAFE is left, the page the seal table shows, and the pages that failed their latest
seal check. -/
structure SafState where
  safeFault : Bool
  resetNeeded : Bool
  keyAt : Option Nat
  exitAt : Option Nat
  sel : Nat
  failing : List Nat
  deriving DecidableEq, Repr

/-! ### Digital inputs -/

/-- Logic levels of one ply before INVERT (R113): for each group the words of its 32 slots, and the levels of XTI3..XTI0 in
each slot. A shorter list holds its last value for the rest of the ply; an empty one reads 0. -/
structure PlyIn where
  words : List (List Word)
  xti : List (BitVec 4)
  deriving DecidableEq, Repr

/-- A group of inputs (R104 to R116): latest accepted state-clock edge, count of accepted state samples since the mode was
taken up, word of the last sample taken, slot the next DELTA counts from, comparator levels at the latest slot, slots holding
a STROBE, and the slot the latest channel left over-range. -/
structure DigState where
  lastEdge : Option Nat
  samples : Nat
  lastWord : Option Nat
  lastEntry : Nat
  levels : Nat
  strobes : List Nat
  ovrExit : Nat
  deriving DecidableEq, Repr

/-- Sums of one seam span of a stream (R438): stream, end of the span in aligned ticks, A, B, C, and whether it is marked
SKIP. -/
structure SeamSum where
  stream : Nat
  finish : Nat
  a : Nat
  b : Nat
  c : Int
  skip : Bool
  deriving DecidableEq, Repr

/-! ### Edge stamps, pairing and frequency units -/

/-- A stamp in a group (R119): channel within the group, S unwrapped, slope after INVERT, and its WRAP and MERGE bits. -/
structure Stamp where
  ch : Nat
  at_ : Nat
  rising : Bool
  wrapped : Bool
  merged : Bool
  deriving DecidableEq, Repr

/-- A drop span (R127): channel, first and last dropped coarse count (unwrapped), edges dropped, and, once closed, the start
slot of the window that carries its DROP entry. -/
structure DropSpan where
  ch : Nat
  first : Nat
  last : Nat
  count : Nat
  window : Option Nat
  deriving DecidableEq, Repr

/-- Stamping of a group (R121 to R129): stamps in the channel queues in order of arrival, stamps the merge took and has not
written, latest stamp of each channel as (channel, S, slope), when each channel's queue was last served and when the merge is free
again (in fifths of a slot), the channel last served, channels owed a WRAP bit, drop spans, group entries waiting as (window
start, words), and the ply start the present code-density tables took effect. -/
structure StpState where
  queued : List Stamp
  taken : List Stamp
  latest : List (Nat × Nat × Bool)
  served : List (Nat × Nat)
  free : Nat
  rr : Nat
  wrapDue : Nat
  spans : List DropSpan
  entries : List (Nat × List Word64)
  tableAt : Nat
  deriving DecidableEq, Repr

/-- A pairing unit (R130 to R133): armed start, or starts waiting for a later stop, each with the last stop before it; latest
stop; running statistics. -/
structure IpUnit where
  starts : List (Nat × Option Nat)
  lastStop : Option Nat
  cnt : Nat
  min : Int
  max : Int
  sum : Int
  sumSq : Nat
  ovfl : Bool
  deriving DecidableEq, Repr

/-- A gate in progress (R134): first tick, end tick (unwrapped), the unit's settings, the sums of R135 and flags so far. -/
structure FuGate where
  start : Nat
  finish : Nat
  cfg : Nat
  n : Nat
  s0 : Nat
  sumY : Nat
  sumIY : Nat
  flags : Nat
  deriving DecidableEq, Repr

/-- A frequency result (R135, R136): gate end tick, flags, n, PERIOD, FREQ, ANCHOR, and the settings of its gate. -/
structure FuResult where
  finish : Nat
  flags : Nat
  n : Nat
  period : Nat
  freq : Nat
  anchor : Nat
  cfg : Nat
  deriving DecidableEq, Repr

/-- A frequency unit: its gate, results not yet available, and results delivered, newest first. -/
structure FuUnit where
  gate : Option FuGate
  due : List FuResult
  results : List FuResult
  deriving DecidableEq, Repr

/-! ### Converters, windows and accumulation -/

/-- A conversion under way (R144, R150 to R155): its instant, whether it started late, whether it is injected, the INJECT slot
it still depends on (R153), the coefficient register of its instant, whether it falls in a disturbance span, and whether its
injection was withdrawn. -/
structure ConvJob where
  inst : Nat
  late : Bool
  inj : Bool
  origin : Option Nat
  coef : Nat
  disturbed : Bool
  dead : Bool
  deriving DecidableEq, Repr

/-- A calibrated result (R155, R158). -/
structure AdcRes where
  inst : Nat
  code : Int
  clip : Bool
  disturbed : Bool
  late : Bool
  inj : Bool
  deriving DecidableEq, Repr

/-- A converter (R142 to R159): latest instant, conversions under way, napping, waking, a start and an injected request that
wait for the wake-up (with the LATE of the start's firing, the INJECT slot of the request), the result held under R153 with its
INJECT slot, results the windows must not see before it, the slot its overload detector cleared, its latest results, and its latest instants,
newest first. -/
structure ConvState where
  last : Option Nat
  jobs : List ConvJob
  asleep : Bool
  waking : Bool
  startWait : Bool
  injWait : Option (Option Nat)
  hold : Option (AdcRes × Nat)
  behind : List AdcRes
  tail : Option Nat
  recent : List AdcRes
  instants : List Nat
  deriving DecidableEq, Repr

/-- An injected request on its way (R151): converter, INJECT slot, whether that slot was uncommitted. -/
structure InjReq where
  conv : Nat
  slot : Nat
  spec : Bool
  deriving DecidableEq, Repr

/-- A start owed by a PULSE source (R147): a slot, or an angle of a loop in 2^-32 pip. -/
inductive PulseDue where
  | slot (n : Nat)
  | angle (loop : Nat) (phase : Nat)
  deriving DecidableEq, Repr

/-- A window (R160): state, qualifying run, and its changes of state as (slot, OUT), newest first. -/
structure WinState where
  out : Bool
  run : Nat
  log : List (Nat × Bool)
  deriving DecidableEq, Repr

/-- Sums of a converter over an interval (R164). -/
structure AccSum where
  n : Nat
  sum : Int
  sumSq : Nat
  min : Int
  max : Int
  clip : Nat
  disturb : Nat
  late : Nat
  flags : Nat
  deriving DecidableEq, Repr

/-- Sums of a pair over an interval (R165). -/
structure PairSum where
  n : Nat
  sumXY : Int
  clip : Nat
  disturb : Nat
  late : Nat
  flags : Nat
  deriving DecidableEq, Repr

/-- Correlators of a converter over an interval (R167): HAR_CH_CFG in use, orders used, RE and IM of each, results, flags. -/
structure HarSum where
  cfg : Nat
  orders : List Nat
  re : List Int
  im : List Int
  n : Nat
  flags : Nat
  deriving DecidableEq, Repr

/-- An interval in progress (R162, R163): the timer's settings, first slot, angle there, next boundary (a slot, or pips on the
ANGLE basis), flags so far, the ply start a cut ends it at, and whether it is the first one. -/
structure IvState where
  cfg : Nat
  len : Nat
  start : Nat
  startAngle : Nat
  target : Nat
  flags : Nat
  cut : Option Nat
  deriving DecidableEq, Repr

/-- Interval values delivered to the ladder for a converter at a boundary slot (R166). -/
structure AccVal where
  conv : Nat
  slot : Nat
  valid : Bool
  mean : Int
  msq : Nat
  min : Int
  max : Int
  deriving DecidableEq, Repr

/-! ### The ladder and the gambit -/

/-- Where a timer or a tracker's span began: slot, and the angle of each loop there in 2^-32 pip (R187, R189). -/
structure SpanStart where
  slot : Nat
  phases : List Nat
  deriving DecidableEq, Repr

/-- A tracker of a WIDTH, INTERVAL or GLITCH condition (R187): the open span, or for GLITCH the latest edge of each direction,
and whether the span has already hit. -/
structure Tracker where
  open_ : Option SpanStart
  other : Option SpanStart
  done : Bool
  deriving DecidableEq, Repr

/-- What the ladder keeps of its inputs whatever the rung (R187, R191, R192): truths of the early-bound units and sample words
at the latest slot, WORD_RANGE truths held between strobes, trackers by unit, levels of XTI with the slot each took its level,
and SOFT bits written for the next ply. -/
structure LadderIn where
  before : Nat
  words : List Nat
  held : Nat
  trackers : List (Nat × Tracker)
  xti : Nat
  xtiSince : List Nat
  soft : Nat
  deriving DecidableEq, Repr

/-- The ladder's own state, which a checkpoint records (R220): rung, occurrence counts of its conditions, counters and the
values the slot before saw, timer starts, TIMER units that have hit since their timer's start, COUNTER units that have hit on
the rung, whether FIRE is placed in the record, and the occurrence counts that an inverted prediction of the latest slot would
have left, by unit (R216). -/
structure LadderState where
  rung : Nat
  occ : List Nat
  counters : List Nat
  prevCnt : List Nat
  timers : List SpanStart
  timerHit : Nat
  seen : Nat
  fired : Bool
  alts : List (Nat × List Nat)
  deriving DecidableEq, Repr

/-- One ply of the history with its annex (R217, R218), lanes by unit where they are not 0: known bits of the late-bound units,
predicted bits used, materiality, and units with a hit from a stepped angle window in slot 0 (R186). -/
structure HistPly where
  ply : Nat
  lanes : List (Nat × Nat)
  counts : List Nat
  known : List (Nat × Nat)
  used : List (Nat × Nat)
  material : Nat
  stepped : Nat
  deriving DecidableEq, Repr

/-- A checkpoint (R220). -/
structure Ckpt where
  ply : Nat
  ladder : LadderState
  deriving DecidableEq, Repr

/-- The effects of a slot (R196, R199, R229): what its actions apply, whether it was uncommitted when evaluated, the state of the
EARLY outputs it activated before that, and the SEQ of the tokens sent for it as (twin, MARK, SEQ). -/
structure Effect where
  slot : Nat
  rung : Nat
  hits : Nat
  place : Bool
  ignored : Bool
  suppressed : Bool
  desc : Nat
  mark : Bool
  inject : Bool
  outs : Nat
  abort : Bool
  snake : Bool
  spec : Bool
  saved : List (Nat × Bool × ActOut)
  tokens : List (Bool × Bool × Nat)
  deriving DecidableEq, Repr

/-- The gambit (chapter 9): whether the ladder evaluates, its state, unresolved checkpoints oldest first, history from the ply
before the commit point on, effects not yet committed, next ply to evaluate, first slot a replay derives afresh, and the first
ply not evaluated once the record has ended, ply at which a
re-arm restarts the ladder. -/
structure GmbState where
  running : Bool
  ladder : LadderState
  ckpts : List Ckpt
  hist : List HistPly
  effects : List Effect
  next : Nat
  fresh : Nat
  last : Option Nat
  restart : Option Nat
  deriving DecidableEq, Repr

/-! ### Links -/

/-- A Flepex port (R407): last SEQ taken, SEQ of the next flit, the replay store newest first as (SEQ, what the flit carries), failures
in a row, slots of the latest resends. -/
structure FlxPort where
  rx : Nat
  tx : Nat
  replay : List (Nat × Output)
  fails : Nat
  resends : List Nat
  deriving DecidableEq, Repr

/-- A port that has carried nothing: the first flit has SEQ 0. -/
def FlxPort.empty : FlxPort := { rx := 4095, tx := 0, replay := [], fails := 0, resends := [] }

/-- An access of the remote window that waits for its answer (R423): whether it reads, module, offset, slot it was issued at. -/
structure RwinAccess where
  read : Bool
  dest : Nat
  off : Nat
  issued : Nat
  deriving DecidableEq, Repr

/-- The cascade beside its registers (chapter 16). Of a root's enumeration: its step (0 none, 1 east wave, 2 west wave, 3 alignment,
4 waiting for the loops), the ENUMERATE command it serves, expected count, whether the east wave closed the ring, slot the wait
began at. Ports this module probes, exchanges made on each port with the sum of their θ; when each module was last heard; accesses of the
remote window that wait. -/
structure CasState where
  step : Nat
  op : Option Nat
  expect : Nat
  closed : Bool
  since : Nat
  probing : List Port
  sums : List (Nat × Int)
  heard : List (Nat × Nat)
  rwin : List RwinAccess
  deriving DecidableEq, Repr

def CasState.empty : CasState :=
  { step := 0, op := none, expect := 0, closed := false, since := 0, probing := [], sums := List.replicate 3 (0, 0), heard := [], rwin := [] }

/-- The pair beside its registers (R430 to R443): slot the 1 s of NO_LINK is counted from, whether the own PAIR token is sent, whether
the partner asked for DUPLEX, whether time agrees, whether the partner is in SAFE, a PAIR token received and not yet judged; what the next span boundary does: entry into DUPLEX,
detach, MASKED; the TWIN_RESYNC command under way; last span end handled. -/
structure TwinState where
  since : Nat
  sent : Bool
  asked : Bool
  timed : Bool
  partnerSafe : Bool
  kept : Option Token
  detach : Bool
  maskDue : Bool
  resync : Option Nat
  lastEnd : Nat
  deriving DecidableEq, Repr

def TwinState.empty : TwinState :=
  { since := 0, sent := false, asked := false, timed := false, partnerSafe := false, kept := none, detach := false, maskDue := false, resync := none,
    lastEnd := 0 }

/-! ### Power and start-up -/

/-- Power (chapter 19): whether the standby controller runs, whether a module reset is held, slot VIN was last valid; rails
enabled and slot the latest was; whether VIN lies in the dip of R469; whether a sag stretch is in force and the slot recovery began or
the latest trip; level of the cap stretch; readings in a row beyond a limit of TEMP; slot a stretch in force is counted from, slots not
yet counted as microseconds. -/
structure PowerState where
  stby : Bool
  inReset : Bool
  vinAt : Nat
  rails : Nat
  railAt : Nat
  dip : Bool
  sag : Bool
  heldFrom : Option Nat
  cap : Nat
  tempRun : Nat
  stretchFrom : Option Nat
  stretchRem : Nat
  deriving DecidableEq, Repr

def PowerState.empty : PowerState :=
  { stby := false, inReset := false, vinAt := 0, rails := 0, railAt := 0, dip := false, sag := false, heldFrom := none, cap := 0, tempRun := 0,
    stretchFrom := none, stretchRem := 0 }

/-- Start-up (chapter 20): its phase (0 rails, 1 boot ROM, 2 authentication, 3 waiting for an image, 4 firmware steps, 5 done), the
configuration in force, the header of the image read. -/
structure StartState where
  phase : Nat
  expect : Nat
  twin : Nat
  pairId : Nat
  header : List Byte
  deriving DecidableEq, Repr

/-- Nothing started. -/
def StartState.empty : StartState := { phase := 0, expect := 0, twin := 0, pairId := 0, header := [] }

/-- What the boot ROM finds in the boot flash (R479): JEDEC identifier, highest clock in MHz of quad, dual and single I/O (a mode the
table does not advertise has none), the configuration block, the header of the image, and whether its signature verifies. -/
structure FlashImage where
  id : Nat
  quad : Option Nat
  dual : Option Nat
  single : Nat
  config : List Byte
  header : List Byte
  signed : Bool
  deriving DecidableEq, Repr

/-- The mailbox command under way (R490): opcode, TAG, operands taken at the write. -/
structure Mbox where
  opcode : Nat
  tag : Nat
  args : List Nat
  deriving DecidableEq, Repr

/-! ### Time -/

/-- The TAI mapping in force (table `TAI mapping`) and what the PPS follower keeps: the second written for the next edge, the
slot and second of the latest accepted edge. -/
structure TimeState where
  anchor : Nat
  sec : Nat
  ns : Nat
  rate : Int
  source : Nat
  stepped : Bool
  isAligned : Bool
  seq : Nat
  nextSec : Option Nat
  lastEdge : Option Nat
  lastSec : Nat
  deriving DecidableEq, Repr

/-! ### The store path -/

/-- Coding state of a D thread (R300): the strings of codes 3, 4, … and PREV, empty when there is none. -/
structure Coder where
  dict : List (List Nat)
  prev : List Nat
  deriving DecidableEq, Repr

/-- A ring chunk a thread is taking (R294): its number among the stream's, the chunk, items and tail markers left (INDEX counted
from the items left), exponent of the next item, and whether it passes exactly as read (R340). -/
structure Feed where
  no : Nat
  src : Chunk
  items : List Item
  tail : List TailMark
  exp : Nat
  asRead : Bool
  deriving DecidableEq, Repr

/-- A thread of the store path (R293 to R311): the stream and its thread number; for a lane, whether a host command holds it;
ring chunk being taken; chunk in progress with the ring chunk its header follows; chunks made and waiting for a bank; code class
in use, settings in use, next BLOCK_SEQ, coding state, whether the next block begins with reset; its two banks, the one it fills,
their base in scratch, and whether it stalls. -/
structure Lane where
  stream : Option Nat
  thread : Nat
  threads : Nat
  host : Option Nat
  feed : Option Feed
  opened : Option OpenChunk
  src : Option Chunk
  owed : List Chunk
  cfg : Nat
  blockSeq : Nat
  coder : Coder
  reset : Bool
  bankA : Bank
  bankB : Bank
  current : Bool
  base : Nat
  stalled : Bool
  deriving DecidableEq, Repr

/-- An extent that is not FREE (R350, R352): drive, number, STATE, STREAM, INDEX, RECORD, SLOT, FILL, and the first block
not yet given to a chunk. -/
structure Extent where
  drive : Nat
  no : Nat
  state : Nat
  stream : Nat
  index : Nat
  record : Nat
  slot : Nat
  fill : Nat
  used : Nat
  deriving DecidableEq, Repr

/-- A chunk on its way into the store (R354): the OFFLOAD it belongs to (none for the record in progress), the thread whose bank
holds it (lane 0 to 15, or 16 + stream) and which bank, its place, and how far it is: 0 issued, 1 written, 2 in a commit batch.
`left` counts its Writes outstanding. -/
structure StoWrite where
  op : Option Nat
  chunk : Chunk
  lane : Nat
  bank : Bool
  drive : Nat
  ext : Nat
  block : Nat
  left : Nat
  phase : Nat
  retried : Bool
  deriving DecidableEq, Repr

/-- A record table entry (table `Record table entry`). -/
structure RecEntry where
  slot : Nat
  header : List Byte
  state : Nat
  extents : Nat
  bytes : Nat
  deriving DecidableEq, Repr

/-- A record being stored (R355, R358, R360): the OFFLOAD that stores it, record and segment number, table slot, allotment and
charge in blocks, streams whose FINAL chunk is committed, streams of the record, whether its entry stands as OPEN and whether its
COMPLETE entry is on its way, the final header once known, whether the store ran full, bytes committed, whether a chunk was lost,
and the last slot of each stream that is committed. -/
structure StoJob where
  op : Option Nat
  record : Nat
  segment : Nat
  slot : Nat
  allot : Nat
  charge : Nat
  finals : Nat
  streams : Nat
  opened : Bool
  closing : Bool
  header : Option (List Byte)
  full : Bool
  bytes : Nat
  broken : Bool
  last : List (Nat × Nat)
  deriving DecidableEq, Repr

/-- A write of a record table entry under way (R356): the entry, and whether copy A is done. -/
structure TabWrite where
  entry : RecEntry
  aDone : Bool
  deriving DecidableEq, Repr

/-- A superblock (table `Superblock`). -/
structure SuperBlock where
  storeId : Nat
  gen : Nat
  ports : Nat
  port : Nat
  extents : Nat
  deriving DecidableEq, Repr

/-- A drive as STO finds it (R348, R350, R362): namespace 1 in 4 KiB blocks, whether R348 accepts it, transfer limit in KiB, write
cache, PCIe generation and width, I/O queue pairs it offers; the superblock whose CRC checks, extents of its map that are not FREE,
and the entries of each record table copy it holds whose CRC checks. -/
structure DriveImage where
  blocks : Nat
  good : Bool
  mdtsKib : Nat
  vwc : Bool
  gen : Nat
  width : Nat
  queues : Nat
  super : Option SuperBlock
  map : List Extent
  tableA : List RecEntry
  tableB : List RecEntry
  deriving DecidableEq, Repr

/-- A drive in use: what it is, its superblock, whether it is lost, and the step of its commit batch: 0 none, 1 Flush, 2 map
block. -/
structure Drive where
  image : Option DriveImage
  lost : Bool
  batch : Nat
  deriving DecidableEq, Repr

/-- The store (chapter 14): drives by port, extents not FREE, record table entries not FREE, chunks on their way, records being
stored, table writes in order, stream served last among the round-robin ones, and the slot the catalogue registers show. -/
structure StoreState where
  drives : List Drive
  exts : List Extent
  table : List RecEntry
  writes : List StoWrite
  jobs : List StoJob
  tabs : List TabWrite
  last : Nat
  sel : Nat
  deriving DecidableEq, Repr

/-! ### Host commands -/

/-- A thread as a decompressor knows it (R312, R313). -/
structure DecThread where
  stream : Nat
  thread : Nat
  coder : Coder
  seq : Option Nat
  poisoned : Bool
  deriving DecidableEq, Repr

/-- How far a command is: admitted and waiting, running, or ended with a status. -/
inductive OpPhase where
  | waiting | running
  | ended (status : Nat)
  deriving DecidableEq, Repr

/-- A command in flight (R374 to R386): number of admission, ring, the module it came from (none: this one's host), its fields
(table `Command`), phase, RESULT so far, a status an ABORT or a DEADLINE gives it at the next boundary; and what its stitches
carry on: position, bytes written, chunks lost, coding state, BLOCK_SEQ, whether the next block begins with reset, threads. -/
structure HostOp where
  id : Nat
  ring : Nat
  from_ : Option Nat
  tag : Nat
  opcode : Nat
  flags : Nat
  target : Nat
  srcSpace : Nat
  dstSpace : Nat
  deadline : Nat
  length : Nat
  src : Nat
  dst : Nat
  param : List Byte
  phase : OpPhase
  result : Nat
  stop : Option Nat
  pos : Nat
  done_ : Nat
  lost : Bool
  coder : Coder
  blockSeq : Nat
  reset : Bool
  threads : List DecThread
  deriving DecidableEq, Repr

/-- Names a command in flight: the module it came from (none: this one's host), its ring, its TAG. -/
structure OpRef where
  from_ : Option (Fin 64)
  ring : Fin 16
  tag : BitVec 16
  deriving DecidableEq, Repr

/-- A ring (R374 to R377, R388): SQ tail, CQ head as the host returned it, phase of the entries written now, completions written
since its last message and the slot of the oldest of them. -/
structure RingState where
  sqTail : Nat
  cqHead : Nat
  phase : Bool
  unsignalled : Nat
  oldest : Option Nat
  deriving DecidableEq, Repr

/-- The command unit: commands in flight in order of admission, next number, ring served last, the stitch in progress with the
slot it began at, the command of the latest stitch. -/
structure HostState where
  rings : List RingState
  ops : List HostOp
  nextId : Nat
  lastRing : Nat
  stitch : Option (Nat × Nat)
  lastOp : Nat
  deriving DecidableEq, Repr

/-- An Ethernet destination (R394, R395): chunks queued with the bank a PACED one holds (thread index and bank), datagrams sent
since its group was committed. -/
structure EthDest where
  queue : List (Chunk × Option (Nat × Bool))
  dgrams : Nat
  deriving DecidableEq, Repr

/-! ### Memory tests -/

/-- A tile under test (R329 to R338): tile, whether DESTRUCTIVE, algorithm, FILL, the MARCH command it serves, whether it is to be
released at the end of its march stitch, and whether a word of it failed. -/
structure Borrow where
  tile : Nat
  destructive : Bool
  alg : Nat
  fill : Nat
  op : Option Nat
  release : Bool
  failed : Bool
  deriving DecidableEq, Repr

/-- What befalls one access to a scratch bank (R323 to R326): cycles it waits for its port, whether its update is lost to a port-A
write, whether it meets a corrected or an uncorrectable error. -/
structure ScrAccess where
  wait : Nat
  lost : Bool
  ce : Bool
  ue : Bool
  deriving DecidableEq, Repr

/-- Memory tests and repair (chapter 13): tile held; a yielded tile with its MARCH command and the slot of its retry (none: the
next rotation step); spare rows used in each scratch bank, bad rows of deep memory in the order listed, entry
shown; slot of the latest rotation step; next word of the sweep. -/
structure MarState where
  held : Option Borrow
  retry : Option (Nat × Option Nat × Option Nat)
  spares : List Nat
  badRows : List Nat
  sel : Nat
  rotAt : Option Nat
  sweepPos : Nat
  deriving DecidableEq, Repr

/-! ### Acquisition -/

/-- Thinning state of one thinnable stream (R250): present step, the step waiting for its grid point with the slot it takes
effect at, and since when the pressure has been at or above HI, or at or below LO. -/
structure ThinState where
  next : Option (Nat × Nat)
  seen : Nat
  maxStep : Nat
  deriving DecidableEq, Repr

/-- An interval record waiting in a merge group of stream 16 or 17 (R257): its source key, how many records it holds, and
the merged record's words. -/
structure MergeGroup where
  stream : Nat
  source : Nat
  count : Nat
  words : List Word64
  endSlot : Nat
  deriving DecidableEq, Repr

/-- Something the hem counts (R258), with the slot it belongs to: its kind (table `RN`), the unit, loop or group concerned, and its
value and a second one. -/
structure RecNote where
  slot : Nat
  kind : Nat
  unit : Nat
  val : Int
  extra : Nat
  deriving DecidableEq, Repr

/-- A FIRE or MARK token received and kept while it can matter (R410, R420): whether it came over the twin port, its ORIGIN,
whether it is a MARK, its slot in this module's numbering, SEQ, whether it is provisional, RUNG, HITS, COND and LATE in the
layout of TLD_FIRE_DESC, its origin stamp, the origin's segment and commit ply. -/
structure RemoteTok where
  twin : Bool
  origin : Nat
  mark : Bool
  slot : Nat
  seq : Nat
  prov : Bool
  desc : Nat
  stamp : Nat
  segment : Nat
  commitPly : Nat
  deriving DecidableEq, Repr

/-- A FIRE that may be the trigger of the present record (R235, R238, R260, R420): slot, whether it is the module's own, whether
it came over the twin port, ORIGIN, whether it is provisional, the descriptor word, the origin stamp and the commit ply. -/
structure Placed where
  slot : Nat
  own : Bool
  twin : Bool
  origin : Nat
  prov : Bool
  desc : Nat
  stamp : Nat
  commitPly : Nat
  deriving DecidableEq, Repr

/-- The record in progress (R233 to R260). `armAt` is the arm slot of an arming that waits. `ownFire` is the FIRE of the module's
own ladder, `placed` the chosen one, `committed` says that it committed in ACQ, `fullAt` is the slot the collar was full at,
`endAngle` the angle of a PIPS cuff's end, `closeNote` why the record ended early (codes of ACQ_CLOSE), `duplexAll` that the pair
has been in DUPLEX throughout, `notes` what the hem counts since the arming, `trigMap` the TAI mapping in force at the trigger, `settling` the ply the commit point must reach, `closed` the end slot and cause of a
record whose header is written and which the store has still to finish. -/
structure AcqState where
  armAt : Option Nat
  armSlot : Nat
  ownFire : Option Placed
  placed : Option Placed
  committed : Bool
  fullAt : Option Nat
  collarStart : Nat
  endSlot : Option Nat
  endAngle : Option Nat
  stopSlot : Option Nat
  stopPly : Option Nat
  settling : Option Nat
  closed : Option (Nat × Nat)
  flags : Nat
  shortMask : Nat
  thinMask : Nat
  thin : List ThinState
  protUntil : Nat
  protFires : List (Nat × Bool)
  merges : List MergeGroup
  notes : List RecNote
  readerFrom : Option Nat
  closeNote : Nat
  duplexAll : Bool
  trigMap : Option TimeState
  armStatus : Nat
  deriving DecidableEq, Repr

end Sys2Proof.Machine
end

