-- ==== Sys2Proof/Syntax.lean ====
section
/-!
DEFINITION. The commands of the block: one constructor for each row of spec/opcode_table.json, in the table's order.
A time `t` is a slot number counted from the start of the coarse counter (R4).
-/
namespace Sys2Proof

open Sys2Proof.Machine

/-- A command or event of the part. -/
inductive Instr where
  /-- REGISTER_WRITE (R28): A host or control-complex write reaches a register that has no row of its own and lands in the staged or active copy under the page's staging mode. -/
  | registerWrite (t : Nat) (req : Requester) (addr : Nat) (data : List Byte) (poisoned : Bool)
  /-- SET_ALIAS_WRITE (R30): A write through the set alias atomically sets the written 1 bits in the RW fields of the addressed register. -/
  | setAliasWrite (t : Nat) (req : Requester) (addr : Nat) (data : List Byte)
  /-- CLEAR_ALIAS_WRITE (R30): A write through the clear alias atomically clears the written 1 bits in the RW fields of the addressed register. -/
  | clearAliasWrite (t : Nat) (req : Requester) (addr : Nat) (data : List Byte)
  /-- PAIR_LOW_WORD_READ (R29): A 32-bit read of the low word of a register pair returns it and captures the pair's high word into the requester's holding register. -/
  | pairLowWordRead (t : Nat) (req : Requester) (addr : Nat)
  /-- PAIR_64_WRITE (R29): An aligned 64-bit write to a register pair is applied as one single write. -/
  | pair64Write (t : Nat) (req : Requester) (addr : Nat) (value : Word64)
  /-- REMOTE_WINDOW_READ (R423): A host read in the remote window becomes a REG READ token to the module named by CAS_RWIN_DEV and returns its response. -/
  | remoteWindowRead (t : Nat) (req : Requester) (offset : BitVec 20)
  /-- REMOTE_WINDOW_WRITE (R423): A host write in the remote window becomes a posted REG WRITE token to the module named by CAS_RWIN_DEV. -/
  | remoteWindowWrite (t : Nat) (req : Requester) (offset : BitVec 20) (value : Word)
  /-- RWIN_TIMEOUT (R423): A remote access whose answer has not arrived within RWIN_TIMEOUT ends with 0xFFFF_FFFF or a lost write, and RWIN_ERR latches. -/
  | rwinTimeout (t : Nat)
  /-- COMMIT (R37): A write to COMMIT marks the named agreement groups pending until their safe points. -/
  | commit (t : Nat) (page : Nat) (value : Word)
  /-- COMMIT_CANCEL (R38): A COMMIT with CANCEL set withdraws the named or all pending groups without copying anything. -/
  | commitCancel (t : Nat) (page : Nat) (value : Word)
  /-- SAFE_POINT (R37): At a group's safe point the block takes every pending group due there, checks it, and copies it to the active registers or rejects it. -/
  | safePoint (t : Nat) (page : Nat) (groups : BitVec 17)
  /-- STAGE_MODE_CHANGE (R43): A write changing STAGE_MODE loads the staged copies from the active registers or withdraws pending groups and discards staged copies. -/
  | stageModeChange (t : Nat) (page : Nat) (staged : Bool)
  /-- SOFT_RESET (R44): A write of 1 to SOFT_RESET starts resetting the page and its block to reset values. -/
  | softReset (t : Nat) (page : Nat)
  /-- SOFT_RESET_COMPLETE (R44): After 64 REG cycles the page reset completes and SOFT_RESET and BUSY clear. -/
  | softResetComplete (t : Nat) (page : Nat)
  /-- ENABLE_WRITE (R45): A write of PAGE_CTL.ENABLE starts or stops the block, with the stopped-block effects on other blocks. -/
  | enableWrite (t : Nat) (page : Nat) (enable : Bool)
  /-- EVT_PEND_CLEAR (R46): A W1C write to EVT_PEND clears the named pending event bits. -/
  | evtPendClear (t : Nat) (page : Nat) (value : Word)
  /-- EVT_EN_WRITE (R47): A write to EVT_EN enables event bits, raising the interrupt request at once for bits already pending. -/
  | evtEnWrite (t : Nat) (page : Nat) (value : Word)
  /-- EVT_FORCE (R48): A write of 1 to EVT_FORCE sets the named EVT_PEND bits as a rising edge would. -/
  | evtForce (t : Nat) (page : Nat) (value : Word)
  /-- MSIX_UNMASK (R387): Unmasking a vector or the function sends a single message for the requests that arrived while masked. -/
  | msixUnmask (vector : Option (Fin 512))
  /-- RELOCK (R60): A write of CKS_RELOCK.RELOCK starts a new lock attempt of the synthesizer. -/
  | relock (t : Nat) (n : Fin 4)
  /-- CLR_CNT (R68): A write of CKS_RELOCK.CLR_CNT clears the three CKS counters. -/
  | clrCnt (n : Fin 4)
  /-- LOCK_ATTEMPT (R59): A synthesizer goes to bypass and starts band selection, following a copied group 0, a relock write or AUTO_RELOCK with REFCLK present. -/
  | lockAttempt (t : Nat) (n : Fin 4) (refKhz : Nat)
  /-- BAND_SEARCH_STEP (R53): A band search step ends its 2 µs settle and count window, records the count and halves the search range. -/
  | bandSearchStep (t : Nat) (n : Fin 4) (count : BitVec 24)
  /-- BAND_VERIFY (R54): The verification window of the chosen band ends; a failed search falls back to the band table or to NO_BAND. -/
  | bandVerify (t : Nat) (n : Fin 4) (count : BitVec 24)
  /-- LOCK_WINDOW_END (R55): A lock window of 2^WIN_EXP REFCLK cycles ends and its VCO count is compared, extending the passing run or judging loss. -/
  | lockWindowEnd (t : Nat) (n : Fin 4) (count : BitVec 32)
  /-- PHASE_SLIP (R57): The phase detector slips a cycle; the tuning is frozen and loss of lock is declared. -/
  | phaseSlip (t : Nat) (n : Fin 4)
  /-- REF_LOSS (R57): No REFCLK edge arrives for 1 µs of bypass time; loss is declared and any lock attempt is abandoned. -/
  | refLoss (t : Nat)
  /-- REFCLK_RETURN (R60): REFCLK edges return, starting a new lock attempt when AUTO_RELOCK is 1. -/
  | refclkReturn (t : Nat) (refKhz : Nat)
  /-- DLG_LOCK (R63): A group delay-locked line locks after SP0 lock and its group produces valid samples again. -/
  | dlgLock (t : Nat) (g : Fin 8)
  /-- DLG_UNLOCK (R63): A group delay line loses lock while SP0 is locked; the group writes CLOCK_LOSS and GAP and DLG_UNLOCK latches. -/
  | dlgUnlock (t : Nat) (g : Fin 8)
  /-- LOOP_REFERENCE_EVENT (R80): A reference event of a loop arrives and, when valid, runs the loop update law or qualification. -/
  | loopReferenceEvent (t : Nat) (n : Fin 4)
  /-- HOLD_END (R88): At the first ply start at which the projected reference reaches the held angle, the hold ends and the angle runs at F_INT. -/
  | holdEnd (t : Nat) (n : Fin 4)
  /-- ENCODER_COUNT (R75): A quadrature transition on the encoder channels counts, is rejected if illegal, and every 2^UPDATE_EXP counts updates the loop. -/
  | encoderCount (t : Nat) (n : Fin 4) (a : Bool) (b : Bool)
  /-- ENCODER_INDEX (R75): A rising edge of the index channel checks the count since the last index and, with ALIGN_Z, aligns the angle. -/
  | encoderIndex (t : Nat) (n : Fin 4)
  /-- COAST_ON (R83): No valid event within LOSS_EIGHTHS/8 of the expected interval declares loss of reference and the loop coasts at frozen F_INT. -/
  | coastOn (t : Nat) (n : Fin 4)
  /-- COAST_LONG (R84): A coast reaching COAST_LONG cycles sets COAST_LONG and latches its event while coasting continues. -/
  | coastLong (t : Nat) (n : Fin 4)
  /-- LOOP_CYCLE_BOUNDARY (R95): A loop's angle crosses a cycle boundary, writing a stream 19 POINT and running the plausibility comparison. -/
  | loopCycleBoundary (t : Nat) (n : Fin 4)
  /-- MAP_PERIODIC_POINT (R95): Every 2^MAP_EXP plies a loop writes a POINT entry to stream 19. -/
  | mapPeriodicPoint (t : Nat) (n : Fin 4)
  /-- ANGLE_EVENT_FIRE (R92): An angle event fires in the first slot at or beyond its target, placing its strobe; a ONCE event clears its EN. -/
  | angleEventFire (t : Nat) (e : Fin 64)
  /-- ANGLE_TOKEN (R416): A member takes up a received ANGLE token at the next ply start, moving to or holding for the root's projected angle. -/
  | angleToken (t : Nat) (port : Port) (token : Token)
  /-- OVERRANGE_ENTRY (R114): A digital input stays beyond +6.5 V or −4.5 V for 1 ns, entering over-range and opening or extending the group's window. -/
  | overrangeEntry (t : Nat) (g : Fin 8) (c : Fin 32) (hi : Bool)
  /-- OVERRANGE_EXIT (R114): A channel leaves over-range and its OVR_HI or OVR_LO clears. -/
  | overrangeExit (t : Nat) (g : Fin 8) (c : Fin 32)
  /-- OVR_WINDOW_CLOSE (R116): 40 ns after the last channel leaves over-range the group's window closes and writes OVR_WINDOW. -/
  | ovrWindowClose (t : Nat) (g : Fin 8)
  /-- STATE_CLOCK_EDGE (R107): A state-clock edge is accepted and writes a state sample, or is rejected when under 4 slots after the previous one. -/
  | stateClockEdge (t : Nat) (g : Fin 8) (rising : Bool) (word : Word)
  /-- STATE_CLK_TIMEOUT (R108): No clock edge is accepted for TIMEOUT µs; STATE_CLK clears and its event goes raw. -/
  | stateClkTimeout (t : Nat) (g : Fin 8)
  /-- KEEP_ALIVE (R112): After 0xFFFF_FFFF slots without an entry a group writes a keep-alive entry. -/
  | keepAlive (t : Nat) (g : Fin 8)
  /-- DIG_BCAST (R117): A write to DIG_BCAST writes THR and HYST to every masked channel of the group. -/
  | digBcast (g : Fin 8) (value : Word)
  /-- DIG_CLR (R117): A write to DIG_CLR clears the page's counters and DIG_OVR_MASK. -/
  | digClr (g : Fin 8) (value : Word)
  /-- STAMP_EDGE (R123): An edge of a channel's comparator output is stamped or merged and passed to its queue, pairing units and frequency units. -/
  | stampEdge (stamp : Nat) (edges : List (Fin 256 × Bool))
  /-- MERGE_WINDOW_CLOSE (R125): The merge closes a window 64 ticks after its end once all its stamps are taken, writing its runs and entries. -/
  | mergeWindowClose (t : Nat) (g : Fin 8)
  /-- TABLE_REBUILD (R121): Every CAL_PERIOD seconds an interpolator rebuilds its code-density table and replaces it at a ply start. -/
  | tableRebuild (t : Nat) (g : Fin 8) (ready : Bool)
  /-- COARSE_WRAP (R128): The coarse counter wraps to 0, WRAP flags and entries are written and gates in progress end. -/
  | coarseWrap (t : Nat)
  /-- IP_SPAN_EXPIRY (R131): An armed start or SIGNED candidate exceeds IP_SPAN ticks and is discarded or its result is made. -/
  | ipSpanExpiry (t : Nat) (u : Fin 16)
  /-- STP_IP_SNAP (R133): A write to STP_IP_SNAP copies the running statistics into the snapshot and, with SNAP_CLR, restarts them. -/
  | stpIpSnap (g : Fin 8) (value : Word)
  /-- STP_CLR (R138): A write to STP_CLR clears the STP counters, drop mask and live IP counters. -/
  | stpClr (g : Fin 8) (value : Word)
  /-- FREQ_GATE_END (R134): A frequency unit's gate ends and the next gate begins with any new settings. -/
  | freqGateEnd (t : Nat) (u : Fin 32)
  /-- FREQ_RESULT (R137): The regression result is available within 256 ns of the gate end and goes to FRQ_NEW, the ladder, the hem and stream 20. -/
  | freqResult (t : Nat) (u : Fin 32)
  /-- FRQ_SNAP_SEL (R140): A write to FRQ_SNAP_SEL copies a unit's latest result into the snapshot registers. -/
  | frqSnapSel (value : Word)
  /-- FRQ_NEW_CLEAR (R140): A W1C write to FRQ_NEW clears the named units' new-result bits. -/
  | frqNewClear (value : Word)
  /-- FRQ_CLR (R140): A write to FRQ_CLR clears FRQ_INVALID_CNT. -/
  | frqClr (value : Word)
  /-- CONVERSION_START (R144): A sample set's start source fires and every enabled, awake and free member takes its sample in that slot. -/
  | conversionStart (t : Nat) (set : Fin 8)
  /-- CONVERSION_RESULT (R155): 420 ns after the instant the calibrated result is delivered to the window, accumulator, pairs and correlators. -/
  | conversionResult (t : Nat) (n : Fin 16) (raw : BitVec 18)
  /-- PULSE_SOURCE_PULSE (R147): A pulse on a PULSE source channel ends with a width in range, scheduling a start DELAY later. -/
  | pulseSourcePulse (t : Nat) (set : Fin 8) (width : Nat)
  /-- CONVERTER_WAKE_REQUEST (R149): A napping converter receives its wake request WAKE_NS before a predicted start. -/
  | converterWakeRequest (t : Nat) (n : Fin 16)
  /-- CONVERTER_READY (R150): A waking converter becomes ready and converts any start or injected request that arrived early, counting LATE_START. -/
  | converterReady (t : Nat) (n : Fin 16)
  /-- INJECTED_REQUEST (R151): An injected request reaches a named converter 40 ns after its slot and is converted, made pending, or dropped. -/
  | injectedRequest (t : Nat) (n : Fin 16) (slot : Nat)
  /-- CALIBRATE (R156): The stitched command CALIBRATE measures and updates the offset and gain coefficients of the named converters quad by quad. -/
  | calibrate (t : Nat) (r : OpRef) (means : List (Int × Int))
  /-- OVERLOAD_TRIP (R159): A converter's input overload detector trips at ±5.1 V, starting the disturbance span of its quad. -/
  | overloadTrip (t : Nat) (n : Fin 16)
  /-- DISTURB_SPAN_END (R159): 1 µs after the detector clears the quad's disturbance span ends. -/
  | disturbSpanEnd (t : Nat) (q : Fin 4)
  /-- INTERVAL_BOUNDARY (R162): An interval timer reaches a boundary, writes records to streams 16 and 17 and delivers ACC_BAND values. -/
  | intervalBoundary (t : Nat) (iv : Fin 4) (slot : Nat)
  /-- ADC_CLR (R172): A write to ADC_CLR clears every counter of the ADC page. -/
  | adcClr (value : Word)
  /-- ACC_SNAP_SEL (R174): A write to ACC_SNAP_SEL copies the latest record of a source into ACC_SNAP. -/
  | accSnapSel (value : Word)
  /-- HAR_SNAP_SEL (R175): A write to HAR_SNAP_SEL copies a converter order's latest result into the snapshot. -/
  | harSnapSel (value : Word)
  /-- HAR_CLR (R175): A write to HAR_CLR clears HAR_SAT_CNT. -/
  | harClr (value : Word)
  /-- LADDER_PLY (R178): The ladder evaluates the 32 slots of a ply on the present rung and applies the actions of satisfied conditions. -/
  | ladderPly (t : Nat) (x : PlyIn)
  /-- SOFT (R192): A write of TLD_SOFT gives one hit to SOFT conditions on the written bits in slot 0 of the next ply. -/
  | soft (t : Nat) (value : Word)
  /-- TLD_CLR (R210): A write to TLD_CLR clears the four TLD counters. -/
  | tldClr (value : Word)
  /-- TLD_TC_SNAP_SEL (R210): A write to TLD_TC_SNAP_SEL copies the committed value of a counter or timer into TLD_TC_SNAP. -/
  | tldTcSnapSel (t : Nat) (value : Word)
  /-- TLD_PT_SEL (R211): A write to TLD_PT_SEL sets the pattern table entry addressed by the data registers. -/
  | tldPtSel (value : Word)
  /-- TLD_PT_CTL_WRITE (R211): A write to TLD_PT_CTL updates the addressed entry and, with INC set, advances the pointer. -/
  | tldPtCtlWrite (t : Nat) (value : Word)
  /-- ACT_PULSE_END (R204): A PULSE output's width expires and the output returns inactive. -/
  | actPulseEnd (t : Nat) (n : Fin 16)
  /-- ACT_RELEASE (R212): A write to ACT_RELEASE ends LATCH and PULSE activity of the named outputs. -/
  | actRelease (t : Nat) (value : Word)
  /-- ACT_READBACK (R207): Every 50 µs the land levels are read back and compared, raising ACT_PATH on a mismatch. -/
  | actReadback (t : Nat) (levels : BitVec 16)
  /-- ACT_CLR (R212): A write to ACT_CLR clears ACT_RETRACT_CNT and ACT_RETRACT_MASK. -/
  | actClr (value : Word)
  /-- LATE_BIT_KNOWN (R214): A late-bound condition bit becomes known and is written into the history, confirming or contradicting its prediction. -/
  | lateBitKnown (t : Nat) (unit : Fin 128) (ply : Nat)
  /-- REPLAY_CATCH_UP (R224): Replay at 8 plies per clock reaches the live ply and live evaluation resumes. -/
  | replayCatchUp (t : Nat)
  /-- LADDER_OVERRUN (R227): The history writer would overwrite an unresolved ply; all speculative effects are withdrawn and the ladder restarts at rung 0. -/
  | ladderOverrun (t : Nat)
  /-- SETTLE_TIMEOUT (R514): After stop, a checkpoint still unresolved 64 × CKPT_PLIES plies later is withdrawn without a GAP. -/
  | settleTimeout (t : Nat)
  /-- GMB_CLR (R232): A write to GMB_CLR clears every gambit counter. -/
  | gmbClr (value : Word)
  /-- ARM (R233): A write of ARM to ACQ_ARM runs the arming checks and, when they pass, arms the module at the next ply. -/
  | arm (t : Nat) (value : Word)
  /-- ARMING_TAKES_EFFECT (R201): After pending TLD and ACT commits are copied the module becomes ARMED and the ladder starts at rung 0. -/
  | armingTakesEffect (t : Nat)
  /-- STOP (R234): A write of STOP to ACQ_ARM ends the record at the stop slot from the next ply start. -/
  | stop (t : Nat) (value : Word)
  /-- COLLAR_FULL (R237): The collar becomes full, COLLAR_FULL latches and the ladder is told for COLLAR_FILL. -/
  | collarFull (t : Nat)
  /-- RECORD_CLOSE (R248): A record closes, writing final chunks, the hem and the header, latching REC_DONE and re-arming a segment or leaving ARMED. -/
  | recordClose (t : Nat)
  /-- LIVE_CLIP (R242): A ring would overwrite a protected chunk, so the record ends at the last slot the ring holds. -/
  | liveClip (t : Nat)
  /-- THIN_STEP_UP (R250): Pressure at or above HI for DWELL_UP raises a stream's thinning step. -/
  | thinStepUp (t : Nat) (i : Fin 10) (press : BitVec 8)
  /-- THIN_STEP_DOWN (R250): Pressure at or below LO for DWELL_DOWN lowers a stream's thinning step. -/
  | thinStepDown (t : Nat) (i : Fin 10) (press : BitVec 8)
  /-- RATE (R251): A step change takes effect at the stream's next grid point and a RATE marker is written. -/
  | rate (t : Nat) (i : Fin 10)
  /-- OVERFLOW (R252): A full elastic store loses words and the stream carries a GAP with cause OVERFLOW. -/
  | overflow (t : Nat) (i : Fin 10) (lost : Bool)
  /-- PROT_WINDOW_CLOSE (R253): A protected window closes PROT_LEN ticks after its last opening. -/
  | protWindowClose (t : Nat)
  /-- ACQ_CLR (R261): A write to ACQ_CLR clears the four ACQ counters. -/
  | acqClr (value : Word)
  /-- ACQ_THIN_CLR (R263): A write to ACQ_THIN_CLR clears every counter of page 0x4A. -/
  | acqThinClr (value : Word)
  /-- CHUNK_AGE_CLOSE (R276): A chunk reaches CHUNK_AGE_MAX and is closed short once no uncommitted entry holds it. -/
  | chunkAgeClose (t : Nat) (sid : Fin 22)
  /-- CHUNK_CLOSE (R276): A chunk closes when the next item does not fit, writing its pocket last and handing its bank over. -/
  | chunkClose (t : Nat) (sid : Fin 22)
  /-- BANK_FREE (R278): A consumer has taken a whole chunk and its bank is free, ending any producer stall. -/
  | bankFree (t : Nat) (sid : Fin 22) (bank : Bool)
  /-- RFQ_FLUSH (R281): A write to RFQ_FLUSH discards the open and optionally banked chunks of the named streams. -/
  | rfqFlush (t : Nat) (value : Word)
  /-- FLUSH_DONE (R284): Every flushed stream has resumed, FLUSH_DONE pulses and RFQ_FLUSH_PEND clears. -/
  | flushDone (t : Nat)
  /-- RFQ_CLR (R291): A write to RFQ_CLR clears every counter of the RFQ page. -/
  | rfqClr (value : Word)
  /-- BLOCK_VERIFY (R310): A compression lane's decoder finishes checking a block, writing its pocket or falling back to raw. -/
  | blockVerify (t : Nat) (lane : Fin 16) (good : Bool) (bad : List Nat)
  /-- CMP_CLR (R316): A write to CMP_CLR clears the five CMP counters. -/
  | cmpClr (value : Word)
  /-- DCP_CLR (R317): A write to DCP_CLR clears every counter of the DCP page. -/
  | dcpClr (value : Word)
  /-- COMPRESS_BUF (R314): The command COMPRESS_BUF compresses a buffer of chunks into a destination buffer. -/
  | compressBuf (t : Nat) (r : OpRef) (host : Option (List Byte))
  /-- DECOMPRESS_BUF (R315): The command DECOMPRESS_BUF decodes a buffer of chunks into uncompressed chunks. -/
  | decompressBuf (t : Nat) (r : OpRef) (host : Option (List Byte))
  /-- BAR2_WRITE (R322): A host write to scratch through BAR2 lands, or is ignored in the protected regions. -/
  | bar2Write (t : Nat) (offset : BitVec 29) (data : List Byte) (poisoned : Bool) (x : ScrAccess)
  /-- BAR2_ALIAS_WRITE (R320): A host write through a BAR2 alias sets or clears bits of a scratch word by locked read-modify-write. -/
  | bar2AliasWrite (t : Nat) (offset : BitVec 29) (data : List Byte) (poisoned : Bool) (x : ScrAccess)
  /-- SCRATCH_SWEEP (R327): The sweep reads the next scratch word on its SWEEP_HOURS schedule and treats any error. -/
  | scratchSweep (t : Nat) (err : Option Bool)
  /-- ROTATION_TILE (R332): The rotation borrows the next non-NEVER tile for a preserving march test. -/
  | rotationTile (t : Nat)
  /-- MARCH_STITCH (R331): The march engine ends a march stitch, repairing failing rows or restoring the tile at the test's end. -/
  | marchStitch (t : Nat) (fails : List (Fin 8192 × Word64)) (ended : Bool)
  /-- LEND_COLLISION (R335): An access to a tile under a preserving test stalls while the engine restores and releases the tile. -/
  | lendCollision (t : Nat) (master : Fin 16) (offset : BitVec 27)
  /-- TEST_COLLIDE (R336): An access to a tile under a destructive test is refused. -/
  | testCollide (t : Nat) (offset : BitVec 27) (read host : Bool) (op : Option (Fin 16 × BitVec 16))
  /-- YIELD_RETRY (R335): YIELD_HOLD after a yield the tile's test is retried from its first element. -/
  | yieldRetry (t : Nat)
  /-- MARCH (R333): The stitched command MARCH tests a range of tiles with the named algorithm and mode. -/
  | march (t : Nat) (r : OpRef)
  /-- SCR_LEND_SEL (R344): A write to SCR_LEND_SEL selects the tile group reached by SCR_LEND_DATA. -/
  | scrLendSel (value : Word)
  /-- SCR_LEND_DATA_WRITE (R344): A write to SCR_LEND_DATA sets the flags of the selected tile group and, with INC, advances the pointer. -/
  | scrLendDataWrite (t : Nat) (value : Word)
  /-- SCR_CLR (R344): A write to SCR_CLR clears every SCR counter except SCR_REPAIR_CNT. -/
  | scrClr (value : Word)
  /-- MAR_CLR (R345): A write to MAR_CLR clears every MAR counter. -/
  | marClr (value : Word)
  /-- BAR4_WRITE (R341): A host write to deep memory through BAR4 lands, or is discarded inside the guarded allotment. -/
  | bar4Write (t : Nat) (offset : BitVec 38) (data : List Byte) (poisoned : Bool)
  /-- DM_SCRUB (R342): The patrol scrub reads the next deep-memory line on its SCRUB_MIN schedule and treats any error. -/
  | dmScrub (t : Nat) (err : Option Bool) (rewritten : Bool)
  /-- DMC_BADROW_SEL (R346): A write to DMC_BADROW_SEL selects the bad-row entry shown. -/
  | dmcBadrowSel (value : Word)
  /-- DMC_CLR (R346): A write to DMC_CLR clears the CE, UE, WPROT and REPAIR_FAIL counters. -/
  | dmcClr (value : Word)
  /-- STO_TAKE_CHUNK (R353): STO takes the next full bank in priority order and issues its NVMe Writes. -/
  | stoTakeChunk (t : Nat) (bad : List Nat)
  /-- NVME_WRITE_COMPLETE (R354): A chunk's Writes complete and the chunk counts as written, freeing its bank. -/
  | nvmeWriteComplete (t : Nat) (sid : Fin 22) (seq : Nat)
  /-- NVME_WRITE_ERROR (R363): A Write completes with error or times out; it is retried once, then its extent is made BAD. -/
  | nvmeWriteError (t : Nat) (sid : Fin 22) (seq : Nat) (timeout : Bool) (status : BitVec 15)
  /-- COMMIT_BATCH (R354): Every COMMIT_US STO starts a commit batch on each drive with new completions, issuing Flush if needed. -/
  | commitBatch (t : Nat)
  /-- NVME_FLUSH_COMPLETE (R354): A Flush completes and STO writes the map blocks with FUA. -/
  | nvmeFlushComplete (t : Nat) (d : Fin 4)
  /-- MAP_FUA_COMPLETE (R354): A map block FUA write completes and the chunks it covers are committed. -/
  | mapFuaComplete (t : Nat) (d : Fin 4)
  /-- RECORD_TABLE_WRITE (R356): A record table entry FUA write completes on copy A, then copy B, making the entry written. -/
  | recordTableWrite (t : Nat)
  /-- DRIVE_LOST (R364): A drive's link or controller fails; it is marked LOST and its uncommitted chunks are lost. -/
  | driveLost (t : Nat) (d : Fin 4)
  /-- STORE_RECOVERY (R357): STO reads the superblocks and tables, judges readiness, and recovers OPEN records and extents. -/
  | storeRecovery (t : Nat) (images : List (Option DriveImage))
  /-- STO_FREE_REC (R361): A write to STO_FREE_REC frees a COMPLETE or INCOMPLETE record slot and its extents. -/
  | stoFreeRec (t : Nat) (value : Word)
  /-- STO_CAT_SEL (R367): A write to STO_CAT_SEL selects the record table slot shown. -/
  | stoCatSel (value : Word)
  /-- STO_CLR (R367): A write to STO_CLR clears the four STO counters. -/
  | stoClr (value : Word)
  /-- NVQ_RESET (R368): A write to NVQ_RESET resets the named ports' NVMe controllers and rereads the store. -/
  | nvqReset (t : Nat) (value : Word)
  /-- NVQ_CLR (R368): A write to NVQ_CLR clears every NVQ counter. -/
  | nvqClr (value : Word)
  /-- STORE_FORMAT (R365): The stitched command STORE_FORMAT writes new superblocks, zeroes maps and tables and deallocates extents. -/
  | storeFormat (t : Nat) (r : OpRef) (storeId : Word)
  /-- STORE_SCRUB (R366): The stitched command STORE_SCRUB reads and checks every committed chunk of the named slots. -/
  | storeScrub (t : Nat) (r : OpRef) (store : Option (List Byte))
  /-- OFFLOAD (R366): The stitched command OFFLOAD copies a record from deep memory through compression into the store. -/
  | offload (t : Nat) (r : OpRef)
  /-- READ_RECORD (R381): The stitched command READ_RECORD delivers whole chunks of one stream to a host buffer. -/
  | readRecord (t : Nat) (r : OpRef) (store : Option (List Byte))
  /-- SQ_DOORBELL (R374): A write of SQ_TAIL to CMD_DB makes new commands available on a submission ring. -/
  | sqDoorbell (t : Nat) (n : Fin 16) (value : Word)
  /-- CQ_DOORBELL (R376): A write of CQ_HEAD to CMD_DB returns completion entries to the module. -/
  | cqDoorbell (t : Nat) (n : Fin 16) (value : Word)
  /-- COMMAND_FETCH (R375): The module fetches and admits a command from a ring when the pool has room, checking or forwarding it. -/
  | commandFetch (t : Nat) (data : Option (List Byte))
  /-- COMMAND_COMPLETION (R376): A completion is written at the CQ tail once the ring has room, releasing its operation. -/
  | commandCompletion (t : Nat) (r : OpRef) (failed : Bool)
  /-- STITCH_END (R383): A stitch reaches STITCH_US and ends at its next boundary, and the scheduler serves short commands and the next stitch. -/
  | stitchEnd (t : Nat)
  /-- DEADLINE (R385): The coarse counter reaches a command's DEADLINE and the command ends with status DEADLINE. -/
  | deadline (t : Nat) (r : OpRef)
  /-- COAL_TIMER (R388): COAL_US passes since the oldest unsignalled completion and the CQ sends its message. -/
  | coalTimer (t : Nat) (n : Fin 16)
  /-- NOP (R380): The command NOP completes with OK. -/
  | nop (t : Nat) (r : OpRef)
  /-- ABORT (R386): The command ABORT ends the named command with ABORTED. -/
  | abort (t : Nat) (r : OpRef)
  /-- ENUMERATE (R411): The command ENUMERATE makes the root enumerate, align and ready the cascade ring. -/
  | enumerate (t : Nat) (r : OpRef) (others : Bool)
  /-- TWIN_RESYNC (R443): The command TWIN_RESYNC repairs, realigns and returns a pair to DUPLEX. -/
  | twinResync (t : Nat) (r : OpRef)
  /-- OUT_OF_BAR_REQUEST (R373): A PCIe request outside every BAR is answered with Unsupported Request. -/
  | outOfBarRequest (t : Nat)
  /-- HIF_CLR (R396): A write to HIF_CLR clears the three HIF counters. -/
  | hifClr (value : Word)
  /-- PPS_EDGE (R391): A rising edge at PPS_IN is stamped and, unless rejected, makes a new TAI mapping. -/
  | ppsEdge (t : Nat)
  /-- PPS_TIMEOUT (R391): No PPS edge for 1.5 s sets HOLDOVER and clears LOCKED. -/
  | ppsTimeout (t : Nat)
  /-- PTP_MESSAGE (R392): A PTP message is received and time-stamped, and a synchronisation makes a new TAI mapping. -/
  | ptpMessage (t : Nat) (port : Fin 8) (domain : BitVec 8) (tai : Option Nat) (utc : Option (BitVec 16))
  /-- TIME_SET_SEC (R391): A write to TIME_SET_SEC sets the TAI second carried by the next PPS edge. -/
  | timeSetSec (high : Bool) (value : Word)
  /-- TIME_CLR (R400): A write to TIME_CLR clears the TIME counters. -/
  | timeClr (value : Word)
  /-- ETH_CHUNK_SEND (R395): A destination sends a store-path chunk as UDP datagrams, or drops it in LOSSY mode with a full queue. -/
  | ethChunkSend (t : Nat) (dest : Fin 4)
  /-- PAUSE_FRAME (R394): A received Ethernet PAUSE frame is honoured. -/
  | pauseFrame (t : Nat) (port : Fin 8) (slots : Nat)
  /-- ETH_LINK_CHANGE (R399): An Ethernet port's link goes up or down. -/
  | ethLinkChange (t : Nat) (port : Fin 8) (up : Bool)
  /-- ETH_CLR (R399): A write to ETH_CLR clears every ETH counter. -/
  | ethClr (value : Word)
  /-- SER_CLR (R401): A write to SER_CLR clears SER_LANE_ERR. -/
  | serClr (value : Word)
  /-- LANE_DOWN (R401): A lane in use loses lock. -/
  | laneDown (t : Nat) (lane : Fin 48) (errors : Nat) (eye : BitVec 16)
  /-- FLIT_RECEIVE (R407): A Flepex flit arrives and is taken in order, or answered with NAK for a resend. -/
  | flitReceive (t : Nat) (port : Port) (flit : List Byte) (corr uncorr : Nat)
  /-- LINK_LOSS (R407): A Flepex port declares link loss after repeated failures, lane lock loss or missing pair markers. -/
  | linkLoss (t : Nat) (port : Port)
  /-- PORT_RETRAIN (R407): A port with link loss completes retraining. -/
  | portRetrain (t : Nat) (port : Port) (standby : Bool)
  /-- FLX_RETRAIN (R427): A write to FLX_RETRAIN retrains the named ports. -/
  | flxRetrain (t : Nat) (value : Word)
  /-- FLX_CLR (R427): A write to FLX_CLR clears every FLX counter. -/
  | flxClr (value : Word)
  /-- ARM_TOKEN (R418): A member receives an ARM token, runs the arming checks and answers with an ACK. -/
  | armToken (t : Nat) (port : Port) (token : Token)
  /-- ARM_ACK (R418): The root receives an ARM ACK, setting the member's CAS_ARM_FAIL bit on refusal. -/
  | armAck (t : Nat) (port : Port) (token : Token)
  /-- STOP_TOKEN (R418): A module receives a STOP token and stops at its ply start. -/
  | stopToken (t : Nat) (port : Port) (token : Token)
  /-- FIRE_TOKEN (R420): A FIRE or MARK token arrives, becoming a CASCADE or TWIN hit and a trigger candidate. -/
  | fireToken (t : Nat) (port : Port) (token : Token)
  /-- RETRACT_TOKEN (R422): A RETRACT token withdraws a provisional FIRE and the trigger is chosen again. -/
  | retractToken (t : Nat) (port : Port) (token : Token)
  /-- PROGRESS_SEND (R410): Every 64 plies a module sends a PROGRESS token with its commit point. -/
  | progressSend (t : Nat)
  /-- PROGRESS_TOKEN (R410): A PROGRESS token arrives and may make CASCADE or TWIN bits known. -/
  | progressToken (t : Nat) (port : Port) (token : Token)
  /-- PROBE (R414): A TIME PROBE token arrives and is answered with a REPLY. -/
  | probe (stamp : Nat) (port : Port) (token : Token) (sent : Nat)
  /-- REPLY (R414): A TIME REPLY token arrives and the prober computes link delay and offset. -/
  | reply (stamp : Nat) (port : Port) (token : Token)
  /-- ALIGN_WINDOW_END (R414): ALIGN_MS of probing ends and the neighbour sets TIME_ALIGN_OFS and becomes aligned. -/
  | alignWindowEnd (t : Nat) (port : Port) (theta : Option Int) (last : Bool)
  /-- ALIGN_VERIFY (R415): Every VERIFY_MS a module compares its aligned time with its west neighbour, setting ALIGN_DEV beyond DEV_TOL. -/
  | alignVerify (t : Nat) (port : Port) (dev : Int)
  /-- REG_TOKEN (R423): A REG READ, WRITE or RESP token arrives and is performed or answered. -/
  | regToken (t : Nat) (port : Port) (token : Token)
  /-- ENUM (R411): An ENUM wave token arrives; the member takes an address and forwards it, or returns END. -/
  | enumWave (t : Nat) (port : Port) (token : Token)
  /-- END (R411): An END token returns an enumeration wave's counts toward the root. -/
  | endWave (t : Nat) (port : Port) (token : Token)
  /-- ENUM_VERIFY (R411): A VERIFY wave token arrives and assigns the west chain's addresses. -/
  | enumVerify (t : Nat) (port : Port) (token : Token)
  /-- ROOT_CONFLICT (R411): A ROOT_CONFLICT answer reaches the root and the run fails. -/
  | rootConflict (t : Nat) (port : Port) (token : Token)
  /-- READY (R413): A READY token arrives and the module sets CAS_READY and its role. -/
  | ready (t : Nat) (port : Port) (token : Token)
  /-- ENUM_READY_TIMEOUT (R413): 100 ms pass without every CASCADE loop running and the root sends READY anyway. -/
  | enumReadyTimeout (t : Nat) (ran : Bool)
  /-- LINK_LOSS_TOKEN (R425): A LINK_LOSS token arrives and the module switches to LINE forwarding with BROKEN set. -/
  | linkLossToken (t : Nat) (port : Port) (token : Token)
  /-- REACH_TIMEOUT (R425): No token of a module arrives for REACH_US and it leaves CAS_REACH. -/
  | reachTimeout (t : Nat) (m : Fin 64)
  /-- FORWARDED_COMMAND (R424): A CMD flit carrying a forwarded command or its completion arrives at its destination. -/
  | forwardedCommand (t : Nat) (port : Port) (dst src : BitVec 6) (ring : Fin 16) (tag : BitVec 16) (completion : Bool) (words : List Word64)
  /-- CAS_CLR (R426): A write to CAS_CLR clears the eight CAS counters. -/
  | casClr (value : Word)
  /-- PAIR (R430): A SEAM PAIR token arrives and pairing succeeds into PAIRED or fails into FAILED. -/
  | pair (t : Nat) (token : Token)
  /-- NO_LINK (R430): The twin port is not UP within 1 s and pairing fails with NO_LINK. -/
  | noLink (t : Nat)
  /-- SEAM_SPAN_END (R438): A seam span ends; each side sends its summaries and a pending DUPLEX entry or detach takes place. -/
  | seamSpanEnd (t : Nat)
  /-- SUMMARY (R439): A partner's SUMMARY token arrives and the span is compared, raising SEAM on divergence. -/
  | summary (t : Nat) (token : Token)
  /-- THIN (R437): A THIN token arrives and the secondary applies the step at the named slot or its next grid point. -/
  | thin (t : Nat) (token : Token)
  /-- SAFE_TOKEN (R442): A partner's SAFE token arrives; the module goes ALONE and raises TWIN_SAFE. -/
  | safeToken (t : Nat) (token : Token)
  /-- DETACH (R442): A DETACH token or a write of TWN_DETACH sends both sides ALONE at the next span boundary. -/
  | detach (t : Nat) (written : Option Word)
  /-- CLEAR_TOKEN (R442): A partner's CLEAR token reports that it left SAFE. -/
  | clearToken (t : Nat) (token : Token)
  /-- TWN_CLR (R452): A write to TWN_CLR clears the TWN counters and TWN_DIV_MASK. -/
  | twnClr (value : Word)
  /-- SEAL_CHECK (R445): Every 5 ms the seal compares each enabled page's ACTIVE_CRC and raises CONFIG after two failures. -/
  | sealCheck (t : Nat)
  /-- SAF_CLEAR (R448): A write of a clearing key to SAF_CLEAR advances or restarts the sequence for leaving SAFE. -/
  | safClear (t : Nat) (value : Word)
  /-- SAFE_EXIT (R448): At the first ply start after a valid second key the module leaves SAFE and sends CLEAR. -/
  | safeExit (t : Nat)
  /-- SAF_SEAL_SEL (R453): A write to SAF_SEAL_SEL selects the page addressed by the seal table. -/
  | safSealSel (value : Word)
  /-- SAF_CLR (R453): A write to SAF_CLR clears SAF_SAFE_CNT. -/
  | safClr (value : Word)
  /-- STANDBY_START (R495): 5 ms after V3A reaches 3.0 V the standby controller starts. -/
  | standbyStart (t : Nat)
  /-- VIN_VALID (R466): VIN stays at or above 10.8 V for 2 ms and the rail sequence begins. -/
  | vinValid (t : Nat) (root twinSel : Bool) (hint : BitVec 6)
  /-- RAIL_GOOD (R466): A rail reports power-good and the next is enabled, completing the sequence into STARTING. -/
  | railGood (t : Nat)
  /-- RAIL_GOOD_TIMEOUT (R466): A rail fails to become good within 0.4 ms and every rail is removed. -/
  | railGoodTimeout (t : Nat)
  /-- VIN_COLLAPSE (R467): VIN falls below 8.0 V and every rail except VSTB is removed. -/
  | vinCollapse (t : Nat) (mv : Nat)
  /-- V3A_LOSS (R468): V3A falls below 2.9 V, the standby controller stops and every rail is removed. -/
  | v3aLoss (t : Nat) (mv : Nat)
  /-- RAIL (R465): A rail stays outside its monitor window for 1 µs, setting RAIL_BAD and raising RAIL. -/
  | rail (t : Nat) (n : Fin 6) (tenths : Nat)
  /-- VIN_DIP (R469): VIN lies between 8.0 V and 9.0 V for 5 µs and raises RAIL. -/
  | vinDip (t : Nat) (mv : Nat)
  /-- VIN_LOW (R469): VIN falls below 10.8 V, setting VIN_LOW. -/
  | vinLow (t : Nat) (mv : Nat)
  /-- SAG (R470): A droop sensor or VIN below VIN_SAG trips the sag response and stretches the VPRC domains. -/
  | sag (t : Nat) (sensor : Option (Fin 16 × Nat)) (vin : Nat)
  /-- SAG_RELEASE (R470): HOLD_US passes with recovery held and the sag stretch ends. -/
  | sagRelease (t : Nat)
  /-- CAP_WINDOW_END (R472): A cap window ends and the cap stretch rises, falls or holds. -/
  | capWindowEnd (t : Nat) (avg pin iin : Nat)
  /-- THERMAL_READING (R473): Every 1 ms the temperature sensors are read, driving throttling, the TEMP fault and shutdown. -/
  | thermalReading (t : Nat) (lid : Int) (tj : List Int) (rails : List (Nat × Nat))
  /-- PWR_CLR (R476): A write to PWR_CLR clears the five PWR counters. -/
  | pwrClr (value : Word)
  /-- BOOT (R479): After the rails are good the boot ROM discovers the flash, reads the configuration, marches CPX and GEN tiles and loads the image. -/
  | boot (t : Nat) (flash : Option FlashImage) (repaired : List Nat) (unrepaired : Nat) (link : Option (Nat × Nat)) (us : List Nat)
  /-- IMAGE_AUTHENTICATED (R481): The image signature verifies and the firmware starts its start-up steps. -/
  | imageAuthenticated (t : Nat) (us : Nat)
  /-- START_DONE (R483): Once steps 6 to 8 end, step 9 writes the configuration, enters READY or SAFE and latches START_DONE. -/
  | startDone (t : Nat) (repaired : List Nat) (unrepaired : Nat) (deepRepaired : List Nat) (badRows : List (BitVec 38)) (coefs : List (Option Word)) (us : List Nat)
  /-- BOOT_IMAGE (R490): The mailbox command BOOT_IMAGE authenticates and runs an image staged in GEN. -/
  | bootImage (t : Nat) (tag : BitVec 16) (signed : Bool) (us : Nat)
  /-- FLASH_IMAGE (R490): The mailbox command FLASH_IMAGE authenticates an image and writes it to flash. -/
  | flashImage (t : Nat) (tag : BitVec 16) (signed : Bool) (same : Bool)
  /-- FLASH_CONFIG (R490): The mailbox command FLASH_CONFIG checks a configuration block and writes it to flash. -/
  | flashConfig (t : Nat) (tag : BitVec 16)
  /-- GLB_RESET (R485): A write of 0x0000_A55A to GLB_RESET causes a module reset. -/
  | glbReset (t : Nat) (value : Word)
  /-- MOD_RESET_N (R485): MOD_RESET_N low for 1 µs or more causes a module reset. -/
  | modResetN (t : Nat)
  /-- MODULE_RESET_END (R485): The cause of a module reset ends and sequencing restarts with VIN qualification. -/
  | moduleResetEnd (t : Nat)
  /-- PCIE_RESET (R486): PERST_N, hot reset or function-level reset resets the HIF, CMD and IRQ pages. -/
  | pcieReset (t : Nat) (link : Option (Nat × Nat))
  /-- GLB_CLR (R489): A write to GLB_CLR clears GLB_PCIE_RST_CNT. -/
  | glbClr (value : Word)
  /-- CPX_HEARTBEAT (R491): Every 1 ms while the firmware runs CPX_HEARTBEAT increments. -/
  | cpxHeartbeat (t : Nat) (busy : BitVec 7) (cores : List (BitVec 7))
  /-- CPX_CLR (R491): A write to CPX_CLR clears CPX_STITCH_MAX_US. -/
  | cpxClr (value : Word)
  /-- CORES (R446): A lockstep mismatch of a core pair raises CORES and sets RESET_NEEDED. -/
  | cores (t : Nat) (pair : Fin 2)
  /-- LTL_CLR (R96): A write to LTL_CLR clears the six loop counters. -/
  | ltlClr (n : Fin 4) (value : Word)
  /-- ANG_CLR (R98): A write to ANG_CLR clears the eight ANG counters. -/
  | angClr (value : Word)
  /-- OVERLOAD_CLEAR (R159): A converter's input overload detector clears, so ADC_OVR.CLIPPED drops and the 1 µs disturbance tail of its quad begins. -/
  | overloadClear (t : Nat) (n : Fin 16)
  /-- RAIL_IN_WINDOW (R465): A rail returns inside its monitor window, clearing its RAIL_BAD bit and the raw RAIL fault condition needed before SAFE can be cleared under R448. -/
  | railInWindow (t : Nat) (n : Fin 6) (tenths : Nat)
  /-- VIN_RECOVERY (R469): VIN rises back above 9.0 V or 10.8 V, clearing the raw RAIL condition of the dip or VIN_LOW. -/
  | vinRecovery (t : Nat) (mv : Nat)
  /-- BAR_MEMORY_READ (R326): A host read of scratch through BAR2 or of deep memory through BAR4 corrects and writes back, or returns poisoned data, counts HIF_POISON_TX_CNT and raises SCRATCH or DEEP_MEM on an uncorrectable error. -/
  | barMemoryRead (t : Nat) (deep : Bool) (offset : BitVec 38) (len : Nat) (ce ue : List Nat)
  /-- CONFIGURATION_REQUEST (R484): A PCIe configuration request arrives and is answered with Configuration Request Retry Status until step 3 completes or WAIT_IMAGE is entered, and is served normally after that. -/
  | configurationRequest (t : Nat) (mask : Option (Option (Fin 512)))
  deriving DecidableEq, Repr

end Sys2Proof
end

