-- ==== Sys2Proof/Decode.lean ====
section
/-!
DEFINITION. Decoding of table words. The rows of spec/opcode_table.json give no bits: a command of this part is an event with
operands, not a word, so no word spells one.
-/
namespace Sys2Proof

/-- The command a word spells by the bits of the table: none, as no row has bits. -/
def decodeTableWord (_nbits _w : Nat) : Option Instr := none

end Sys2Proof
end

