-- ==== Sys2Proof/Config.lean ====
section
/-!
DEFINITION. What the spec leaves to one manufactured part, and the values it leaves open.
Each constant has no body, so no proof can depend on a value of it (log entries 2 and 3).
-/
namespace Sys2Proof.Config

/-- The silicon step as the eight bits a PAIR token and TWN_PARTNER carry (R430, R452); the spec gives no coding (log entry 3). -/
opaque stepCode : BitVec 8

/-- Unit serial number of GLB_UNIT_ID (R489): fixed at manufacture, no value given. DESIGN CHOICE, safe. -/
opaque unitId : BitVec 64

/-- PAGE_ID.MINOR of a page (R32): the tables give "per block" and no value. DESIGN CHOICE, safe. -/
opaque minorVersion : Nat → BitVec 8

/-- CPX_ROM_VER (R491): version of the boot ROM, no value given. DESIGN CHOICE, safe. -/
opaque romVersion : BitVec 16

/-- A value the spec leaves undefined, one for each read of the counter `State.freeCtr` (log entry 3). -/
opaque freeWord : Nat → BitVec 64

end Sys2Proof.Config
end

