-- ==== Sys2Proof/Machine/RegMap.lean ====
section
/-!
DEFINITION. The register map of the part, one list of rows per page type, transcribed from the register summaries and
field tables of the chapters (R36, R49): offset, number and stride of the instances, access, the mask of the RW bits, the
reset value, and the agreement group (group `g + i / d` for instance `i`; `d = 0`: group `g` for every instance).
Then one name per register field (`F.<REGISTER>_<FIELD>`; a register of a single unnamed field keeps the bare name).
-/
namespace Sys2Proof.Machine

/-- Access types of `Access codes` (R10): RO, WO and W1C registers hold no RW field. -/
inductive Acc where
  | rw | ro | wo | w1c
  deriving DecidableEq, Repr

/-- One row of a register map. `grp = 99` marks a register in no agreement group (R36). -/
structure RegDef where
  off : Nat
  count : Nat
  stride : Nat
  acc : Acc
  rw : Nat
  rst : Nat
  grp : Nat
  gdiv : Nat
  deriving DecidableEq, Repr

/-- A field of a register: offset of instance 0, stride between instances, bits `[hi:lo]`. -/
structure Fld where
  off : Nat
  stride : Nat
  hi : Nat
  lo : Nat
  deriving DecidableEq, Repr

/-- Register map of page type GLB. -/
def mapGLB : List RegDef := [
  ⟨0x040, 1, 0x4, .ro, 0x0, 0x4300, 99, 0⟩, -- GLB_STEP
  ⟨0x044, 1, 0x4, .ro, 0x0, 0x0, 99, 0⟩, -- GLB_VARIANT
  ⟨0x048, 1, 0x4, .ro, 0x0, 0x0, 99, 0⟩, -- GLB_UNIT_ID_LO
  ⟨0x04C, 1, 0x4, .ro, 0x0, 0x0, 99, 0⟩, -- GLB_UNIT_ID_HI
  ⟨0x050, 1, 0x4, .ro, 0x0, 0x0, 99, 0⟩, -- GLB_STRAP
  ⟨0x054, 1, 0x4, .ro, 0x0, 0x0, 99, 0⟩, -- GLB_BOOT_STAT
  ⟨0x058, 1, 0x4, .ro, 0x0, 0x0, 99, 0⟩, -- GLB_BOOT_CFG
  ⟨0x05C, 1, 0x4, .ro, 0x0, 0x0, 99, 0⟩, -- GLB_IMAGE_OFS
  ⟨0x060, 1, 0x4, .ro, 0x0, 0x0, 99, 0⟩, -- GLB_FLASH_ID
  ⟨0x064, 1, 0x4, .ro, 0x0, 0x0, 99, 0⟩, -- GLB_FLASH_MODE
  ⟨0x068, 1, 0x4, .ro, 0x0, 0x0, 99, 0⟩, -- GLB_REPAIR_SUM
  ⟨0x06C, 1, 0x4, .rw, 0x1, 0x0, 0, 0⟩, -- GLB_CTL
  ⟨0x070, 1, 0x4, .wo, 0x0, 0x0, 99, 0⟩, -- GLB_RESET
  ⟨0x074, 1, 0x4, .ro, 0x0, 0x0, 99, 0⟩, -- GLB_PCIE_RST_CNT
  ⟨0x078, 1, 0x4, .wo, 0x0, 0x0, 99, 0⟩, -- GLB_CLR
  ⟨0x080, 10, 0x4, .ro, 0x0, 0x0, 99, 0⟩, -- GLB_STEP_US
  ⟨0x0C0, 16, 0x4, .rw, 0xFFFFFFFF, 0x0, 1, 0⟩ -- GLB_SCRATCHPAD
  ]

/-- Register map of page type PWR. -/
def mapPWR : List RegDef := [
  ⟨0x040, 1, 0x4, .rw, 0x83FFFFFF, 0x821E0064, 0, 0⟩, -- PWR_SAG_CFG
  ⟨0x044, 1, 0x4, .rw, 0xFFFF, 0x2904, 0, 0⟩, -- PWR_VIN_CFG
  ⟨0x048, 1, 0x4, .rw, 0x8FFF01FF, 0xA0100F5, 1, 0⟩, -- PWR_CAP_CFG
  ⟨0x04C, 1, 0x4, .rw, 0xFFFFFF00, 0x4B6E6400, 2, 0⟩, -- PWR_THERM_CFG
  ⟨0x050, 1, 0x4, .ro, 0x0, 0x0, 99, 0⟩, -- PWR_STAT
  ⟨0x054, 1, 0x4, .ro, 0x0, 0x0, 99, 0⟩, -- PWR_VIN
  ⟨0x058, 1, 0x4, .ro, 0x0, 0x0, 99, 0⟩, -- PWR_IIN
  ⟨0x05C, 1, 0x4, .ro, 0x0, 0x0, 99, 0⟩, -- PWR_PIN
  ⟨0x060, 1, 0x4, .ro, 0x0, 0x0, 99, 0⟩, -- PWR_PIN_AVG
  ⟨0x064, 1, 0x4, .ro, 0x0, 0x0, 99, 0⟩, -- PWR_LID_T
  ⟨0x068, 1, 0x4, .ro, 0x0, 0x0, 99, 0⟩, -- PWR_TJ_MAX
  ⟨0x080, 8, 0x4, .ro, 0x0, 0x0, 99, 0⟩, -- PWR_TJ
  ⟨0x0A0, 6, 0x4, .ro, 0x0, 0x0, 99, 0⟩, -- PWR_RAIL_MV
  ⟨0x0C0, 6, 0x4, .ro, 0x0, 0x0, 99, 0⟩, -- PWR_RAIL_MA
  ⟨0x0E0, 1, 0x4, .ro, 0x0, 0x0, 99, 0⟩, -- PWR_SAG_CNT
  ⟨0x0E4, 1, 0x4, .ro, 0x0, 0x0, 99, 0⟩, -- PWR_STRETCH_TIME
  ⟨0x0E8, 1, 0x4, .ro, 0x0, 0x0, 99, 0⟩, -- PWR_CAP_RAISE_CNT
  ⟨0x0EC, 1, 0x4, .ro, 0x0, 0x0, 99, 0⟩, -- PWR_THROT_CNT
  ⟨0x0F0, 1, 0x4, .ro, 0x0, 0x0, 99, 0⟩, -- PWR_VIN_LOW_CNT
  ⟨0x0F4, 1, 0x4, .wo, 0x0, 0x0, 99, 0⟩ -- PWR_CLR
  ]

/-- Register map of page type CKS. -/
def mapCKS : List RegDef := [
  ⟨0x040, 1, 0x4, .rw, 0x37, 0x3, 0, 0⟩, -- CKS_REF_CFG
  ⟨0x044, 1, 0x4, .rw, 0x3FF, 0x1, 0, 0⟩, -- CKS_DIV_REF
  ⟨0x048, 1, 0x4, .rw, 0xFFF, 0x0, 0, 0⟩, -- CKS_DIV_FB
  ⟨0x04C, 1, 0x4, .rw, 0xFFF1F, 0x3E800, 0, 0⟩, -- CKS_LOCK_CFG
  ⟨0x050, 1, 0x4, .rw, 0x101, 0x100, 0, 0⟩, -- CKS_BAND_CFG
  ⟨0x054, 1, 0x4, .wo, 0x0, 0x0, 99, 0⟩, -- CKS_RELOCK
  ⟨0x058, 1, 0x4, .ro, 0x0, 0x40000000, 99, 0⟩, -- CKS_LOCK_STAT
  ⟨0x05C, 1, 0x4, .ro, 0x0, 0x0, 99, 0⟩, -- CKS_BAND_STAT
  ⟨0x060, 1, 0x4, .ro, 0x0, 0x0, 99, 0⟩, -- CKS_CNT_EXP
  ⟨0x064, 1, 0x4, .ro, 0x0, 0x0, 99, 0⟩, -- CKS_CNT_LAST
  ⟨0x068, 1, 0x4, .ro, 0x0, 0x0, 99, 0⟩, -- CKS_VCO_KHZ
  ⟨0x06C, 1, 0x4, .ro, 0x0, 0x0, 99, 0⟩, -- CKS_TUNE
  ⟨0x070, 1, 0x4, .ro, 0x0, 0x0, 99, 0⟩, -- CKS_RELOCK_CNT
  ⟨0x074, 1, 0x4, .ro, 0x0, 0x0, 99, 0⟩, -- CKS_LOSS_CNT
  ⟨0x078, 1, 0x4, .ro, 0x0, 0x0, 99, 0⟩, -- CKS_SEARCH_FAIL_CNT
  ⟨0x07C, 1, 0x4, .ro, 0x0, 0x0, 99, 0⟩, -- CKS_LOSS_CAUSE
  ⟨0x080, 5, 0x4, .ro, 0x0, 0x0, 99, 0⟩, -- CKS_SEARCH_STEP
  ⟨0x0A0, 16, 0x4, .rw, 0x9F00FFFF, 0x0, 1, 0⟩, -- CKS_BAND_TAB
  ⟨0x0E0, 8, 0x4, .rw, 0x3FF, 0x0, 2, 0⟩ -- CKS_DLG_TRIM
  ]

/-- Register map of page type CKO. -/
def mapCKO : List RegDef := [
  ⟨0x040, 8, 0x4, .rw, 0xB7300000, 0x10000000, 0, 1⟩, -- CKO_CFG
  ⟨0x060, 8, 0x4, .rw, 0x7FF, 0x14, 0, 1⟩, -- CKO_DIV
  ⟨0x080, 8, 0x4, .rw, 0x3, 0x1, 0, 1⟩, -- CKO_LEVEL
  ⟨0x0A0, 8, 0x4, .rw, 0x1FF, 0x0, 0, 1⟩, -- CKO_DELAY
  ⟨0x0C0, 8, 0x4, .ro, 0x0, 0x0, 99, 0⟩ -- CKO_OSTAT
  ]

/-- Register map of page type LTL. -/
def mapLTL : List RegDef := [
  ⟨0x040, 1, 0x4, .rw, 0xF8FFFFFF, 0x0, 0, 0⟩, -- LTL_SRC_CFG
  ⟨0x044, 1, 0x4, .rw, 0xE0FFFFFF, 0x101000, 0, 0⟩, -- LTL_ENC_CFG
  ⟨0x048, 1, 0x4, .rw, 0x1FFFFFFF, 0x6000000, 0, 0⟩, -- LTL_ENC_Z
  ⟨0x04C, 1, 0x4, .rw, 0xFFFFFFFF, 0x4000000, 0, 0⟩, -- LTL_CROSS_CFG
  ⟨0x050, 1, 0x4, .rw, 0xFFFFFF, 0x0, 0, 0⟩, -- LTL_REF_PIP
  ⟨0x054, 1, 0x4, .rw, 0xFFFFFFFF, 0x2710, 0, 0⟩, -- LTL_FMIN
  ⟨0x058, 1, 0x4, .rw, 0xFFFFFFFF, 0xF4240, 0, 0⟩, -- LTL_FMAX
  ⟨0x05C, 1, 0x4, .rw, 0x1F1F1F, 0x140502, 0, 0⟩, -- LTL_GAIN
  ⟨0x060, 1, 0x4, .rw, 0xF0FFFFFF, 0x40010000, 1, 0⟩, -- LTL_LOCK_CFG
  ⟨0x064, 1, 0x4, .rw, 0x3F, 0x19, 1, 0⟩, -- LTL_VALID_CFG
  ⟨0x068, 1, 0x4, .rw, 0xC0FFFFFF, 0x40000, 1, 0⟩, -- LTL_JUMP_CFG
  ⟨0x06C, 1, 0x4, .rw, 0xFF00FFFF, 0xC000032, 1, 0⟩, -- LTL_COAST_CFG
  ⟨0x070, 1, 0x4, .rw, 0x3FF, 0x32, 0, 0⟩, -- LTL_NOM_CFG
  ⟨0x074, 1, 0x4, .rw, 0xF0FFFFFF, 0x1000A, 2, 0⟩, -- LTL_PLAUS_CFG
  ⟨0x078, 1, 0x4, .rw, 0x8000001F, 0x14, 1, 0⟩, -- LTL_MAP_CFG
  ⟨0x080, 1, 0x4, .ro, 0x0, 0x0, 99, 0⟩, -- LTL_STAT
  ⟨0x084, 1, 0x4, .ro, 0x0, 0x0, 99, 0⟩, -- LTL_ANGLE_LO
  ⟨0x088, 1, 0x4, .ro, 0x0, 0x0, 99, 0⟩, -- LTL_ANGLE_HI
  ⟨0x08C, 1, 0x4, .ro, 0x0, 0x0, 99, 0⟩, -- LTL_FREQ_LO
  ⟨0x090, 1, 0x4, .ro, 0x0, 0x0, 99, 0⟩, -- LTL_FREQ_HI
  ⟨0x094, 1, 0x4, .ro, 0x0, 0x0, 99, 0⟩, -- LTL_FINT_LO
  ⟨0x098, 1, 0x4, .ro, 0x0, 0x0, 99, 0⟩, -- LTL_FINT_HI
  ⟨0x09C, 1, 0x4, .ro, 0x0, 0x0, 99, 0⟩, -- LTL_PHASE_ERR
  ⟨0x0A0, 1, 0x4, .ro, 0x0, 0x0, 99, 0⟩, -- LTL_LAST_DELTA
  ⟨0x0A4, 1, 0x4, .ro, 0x0, 0x0, 99, 0⟩, -- LTL_COAST_CYC
  ⟨0x0A8, 1, 0x4, .ro, 0x0, 0x0, 99, 0⟩, -- LTL_HOLD_PIPS
  ⟨0x0B0, 1, 0x4, .ro, 0x0, 0x0, 99, 0⟩, -- LTL_LOCK_CNT
  ⟨0x0B4, 1, 0x4, .ro, 0x0, 0x0, 99, 0⟩, -- LTL_LOSS_CNT
  ⟨0x0B8, 1, 0x4, .ro, 0x0, 0x0, 99, 0⟩, -- LTL_JUMP_CNT
  ⟨0x0BC, 1, 0x4, .ro, 0x0, 0x0, 99, 0⟩, -- LTL_HOLD_CNT
  ⟨0x0C0, 1, 0x4, .ro, 0x0, 0x0, 99, 0⟩, -- LTL_REJECT_CNT
  ⟨0x0C4, 1, 0x4, .ro, 0x0, 0x0, 99, 0⟩, -- LTL_ZERR_CNT
  ⟨0x0C8, 1, 0x4, .wo, 0x0, 0x0, 99, 0⟩ -- LTL_CLR
  ]

/-- Register map of page type ANG. -/
def mapANG : List RegDef := [
  ⟨0x040, 1, 0x4, .rw, 0xF, 0xF, 0, 0⟩, -- ANG_CTL
  ⟨0x050, 4, 0x4, .ro, 0x0, 0x0, 99, 0⟩, -- ANG_LATE_CNT
  ⟨0x060, 4, 0x4, .ro, 0x0, 0x0, 99, 0⟩, -- ANG_SKIP_CNT
  ⟨0x070, 1, 0x4, .wo, 0x0, 0x0, 99, 0⟩, -- ANG_CLR
  ⟨0x100, 64, 0x4, .rw, 0xF8FFF000, 0x1000, 1, 8⟩, -- ANG_EVT_CFG
  ⟨0x200, 64, 0x4, .rw, 0xFFFFFF, 0x0, 1, 8⟩ -- ANG_EVT_PIP
  ]

/-- Register map of page type TIME. -/
def mapTIME : List RegDef := [
  ⟨0x040, 1, 0x4, .rw, 0xE7FFFFFF, 0x864, 0, 0⟩, -- TIME_CTL
  ⟨0x044, 1, 0x4, .ro, 0x0, 0x0, 99, 0⟩, -- TIME_NOW_LO
  ⟨0x048, 1, 0x4, .ro, 0x0, 0x0, 99, 0⟩, -- TIME_NOW_HI
  ⟨0x04C, 1, 0x4, .wo, 0x0, 0x0, 99, 0⟩, -- TIME_SET_SEC_LO
  ⟨0x050, 1, 0x4, .wo, 0x0, 0x0, 99, 0⟩, -- TIME_SET_SEC_HI
  ⟨0x054, 1, 0x4, .ro, 0x0, 0x0, 99, 0⟩, -- TIME_ALIGN_OFS_LO
  ⟨0x058, 1, 0x4, .ro, 0x0, 0x0, 99, 0⟩, -- TIME_ALIGN_OFS_HI
  ⟨0x05C, 1, 0x4, .ro, 0x0, 0x0, 99, 0⟩, -- TIME_STAT
  ⟨0x060, 1, 0x4, .ro, 0x0, 0x0, 99, 0⟩, -- TIME_OFFSET
  ⟨0x064, 1, 0x4, .ro, 0x0, 0x0, 99, 0⟩, -- TIME_UTC_OFS
  ⟨0x068, 1, 0x4, .ro, 0x0, 0x0, 99, 0⟩, -- TIME_STEP_CNT
  ⟨0x06C, 1, 0x4, .ro, 0x0, 0x0, 99, 0⟩, -- TIME_PPS_REJ_CNT
  ⟨0x070, 1, 0x4, .wo, 0x0, 0x0, 99, 0⟩, -- TIME_CLR
  ⟨0x080, 8, 0x4, .ro, 0x0, 0x0, 99, 0⟩ -- TIME_MAP
  ]

/-- Register map of page type DIG. -/
def mapDIG : List RegDef := [
  ⟨0x040, 1, 0x4, .rw, 0x1F13, 0x0, 0, 0⟩, -- DIG_MODE
  ⟨0x044, 1, 0x4, .rw, 0xFF07300F, 0xA000000, 0, 0⟩, -- DIG_STATE_CFG
  ⟨0x048, 1, 0x4, .rw, 0xFFFFFFFF, 0xFFFFFFFF, 0, 0⟩, -- DIG_TRNS_MASK
  ⟨0x04C, 1, 0x4, .rw, 0x1, 0x1, 3, 0⟩, -- DIG_OVR_CFG
  ⟨0x050, 1, 0x4, .rw, 0xFFFFFFFF, 0x0, 3, 0⟩, -- DIG_BCAST_MASK
  ⟨0x054, 1, 0x4, .wo, 0x0, 0x0, 99, 0⟩, -- DIG_BCAST
  ⟨0x058, 1, 0x4, .ro, 0x0, 0x0, 99, 0⟩, -- DIG_STAT
  ⟨0x05C, 1, 0x4, .ro, 0x0, 0x0, 99, 0⟩, -- DIG_LEVEL
  ⟨0x060, 1, 0x4, .ro, 0x0, 0x0, 99, 0⟩, -- DIG_OVR_MASK
  ⟨0x064, 1, 0x4, .ro, 0x0, 0x0, 99, 0⟩, -- DIG_OVR_WIN_CNT
  ⟨0x068, 1, 0x4, .ro, 0x0, 0x0, 99, 0⟩, -- DIG_STATE_REJ_CNT
  ⟨0x06C, 1, 0x4, .ro, 0x0, 0x0, 99, 0⟩, -- DIG_STATE_EDGE_CNT
  ⟨0x070, 1, 0x4, .wo, 0x0, 0x0, 99, 0⟩, -- DIG_CLR
  ⟨0x074, 1, 0x4, .ro, 0x0, 0x0, 99, 0⟩, -- DIG_OVR_FIRST
  ⟨0x078, 1, 0x4, .ro, 0x0, 0x0, 99, 0⟩, -- DIG_CHAN_BASE
  ⟨0x080, 32, 0x4, .rw, 0xFFF, 0x800, 1, 0⟩, -- DIG_THR
  ⟨0x100, 32, 0x4, .rw, 0xC0000003, 0x80000000, 1, 0⟩, -- DIG_CH_CFG
  ⟨0x180, 32, 0x4, .rw, 0xFFF, 0x0, 2, 0⟩, -- DIG_DESKEW
  ⟨0x200, 32, 0x4, .ro, 0x0, 0x0, 99, 0⟩, -- DIG_CH_STAT
  ⟨0x280, 32, 0x4, .ro, 0x0, 0x0, 99, 0⟩, -- DIG_OVR_CNT
  ⟨0x300, 32, 0x4, .ro, 0x0, 0x0, 99, 0⟩ -- DIG_EDGE_CNT
  ]

/-- Register map of page type STP. -/
def mapSTP : List RegDef := [
  ⟨0x040, 1, 0x4, .rw, 0xC000FF0F, 0x40000106, 0, 0⟩, -- STP_CTL
  ⟨0x044, 1, 0x4, .rw, 0xFFFFFFFF, 0x0, 0, 0⟩, -- STP_SLOPE_LO
  ⟨0x048, 1, 0x4, .rw, 0xFFFFFFFF, 0x0, 0, 0⟩, -- STP_SLOPE_HI
  ⟨0x04C, 1, 0x4, .ro, 0x0, 0x0, 99, 0⟩, -- STP_STAT
  ⟨0x050, 1, 0x4, .ro, 0x0, 0x0, 99, 0⟩, -- STP_DROP_MASK
  ⟨0x054, 1, 0x4, .ro, 0x0, 0x0, 99, 0⟩, -- STP_DROPPING
  ⟨0x058, 1, 0x4, .ro, 0x0, 0x0, 99, 0⟩, -- STP_DROP_CNT
  ⟨0x05C, 1, 0x4, .ro, 0x0, 0x0, 99, 0⟩, -- STP_MERGE_CNT
  ⟨0x060, 1, 0x4, .ro, 0x0, 0x0, 99, 0⟩, -- STP_STAMP_CNT_LO
  ⟨0x064, 1, 0x4, .ro, 0x0, 0x0, 99, 0⟩, -- STP_STAMP_CNT_HI
  ⟨0x068, 1, 0x4, .ro, 0x0, 0x0, 99, 0⟩, -- STP_BUF_LEVEL
  ⟨0x06C, 1, 0x4, .wo, 0x0, 0x0, 99, 0⟩, -- STP_CLR
  ⟨0x070, 1, 0x4, .wo, 0x0, 0x0, 99, 0⟩, -- STP_IP_SNAP
  ⟨0x080, 2, 0x60, .rw, 0xECFFFF00, 0x0, 1, 1⟩, -- IP_CFG
  ⟨0x084, 2, 0x60, .rw, 0xFFFFFFFF, 0x0, 1, 1⟩, -- IP_SPAN
  ⟨0x088, 2, 0x60, .ro, 0x0, 0x0, 99, 0⟩, -- IP_LAST_LO
  ⟨0x08C, 2, 0x60, .ro, 0x0, 0x0, 99, 0⟩, -- IP_LAST_HI
  ⟨0x090, 2, 0x60, .ro, 0x0, 0x0, 99, 0⟩, -- IP_CNT
  ⟨0x094, 2, 0x60, .ro, 0x0, 0x0, 99, 0⟩, -- IP_MIN_LO
  ⟨0x098, 2, 0x60, .ro, 0x0, 0x0, 99, 0⟩, -- IP_MIN_HI
  ⟨0x09C, 2, 0x60, .ro, 0x0, 0x0, 99, 0⟩, -- IP_MAX_LO
  ⟨0x0A0, 2, 0x60, .ro, 0x0, 0x0, 99, 0⟩, -- IP_MAX_HI
  ⟨0x0A4, 2, 0x60, .ro, 0x0, 0x0, 99, 0⟩, -- IP_SUM_LO
  ⟨0x0A8, 2, 0x60, .ro, 0x0, 0x0, 99, 0⟩, -- IP_SUM_HI
  ⟨0x0AC, 2, 0x60, .ro, 0x0, 0x0, 99, 0⟩, -- IP_SUMSQ0
  ⟨0x0B0, 2, 0x60, .ro, 0x0, 0x0, 99, 0⟩, -- IP_SUMSQ1
  ⟨0x0B4, 2, 0x60, .ro, 0x0, 0x0, 99, 0⟩, -- IP_SUMSQ2
  ⟨0x0B8, 2, 0x60, .ro, 0x0, 0x0, 99, 0⟩, -- IP_ORDER_SKIP_CNT
  ⟨0x0BC, 2, 0x60, .ro, 0x0, 0x0, 99, 0⟩, -- IP_TIE_CNT
  ⟨0x0C0, 2, 0x60, .ro, 0x0, 0x0, 99, 0⟩, -- IP_UNPAIRED_CNT
  ⟨0x0C4, 2, 0x60, .ro, 0x0, 0x0, 99, 0⟩ -- IP_STAT
  ]

/-- Register map of page type FRQ. -/
def mapFRQ : List RegDef := [
  ⟨0x040, 1, 0x4, .rw, 0xF, 0x2, 0, 0⟩, -- FRQ_CTL
  ⟨0x044, 1, 0x4, .wo, 0x0, 0x0, 99, 0⟩, -- FRQ_SNAP_SEL
  ⟨0x048, 1, 0x4, .w1c, 0x0, 0x0, 99, 0⟩, -- FRQ_NEW
  ⟨0x04C, 1, 0x4, .ro, 0x0, 0x0, 99, 0⟩, -- FRQ_VALID
  ⟨0x050, 1, 0x4, .wo, 0x0, 0x0, 99, 0⟩, -- FRQ_CLR
  ⟨0x054, 1, 0x4, .ro, 0x0, 0x0, 99, 0⟩, -- FRQ_INVALID_CNT
  ⟨0x060, 1, 0x4, .ro, 0x0, 0x0, 99, 0⟩, -- FRQ_RES_UNIT
  ⟨0x064, 1, 0x4, .ro, 0x0, 0x0, 99, 0⟩, -- FRQ_RES_END_LO
  ⟨0x068, 1, 0x4, .ro, 0x0, 0x0, 99, 0⟩, -- FRQ_RES_END_HI
  ⟨0x06C, 1, 0x4, .ro, 0x0, 0x0, 99, 0⟩, -- FRQ_RES_N_LO
  ⟨0x070, 1, 0x4, .ro, 0x0, 0x0, 99, 0⟩, -- FRQ_RES_N_HI
  ⟨0x074, 1, 0x4, .ro, 0x0, 0x0, 99, 0⟩, -- FRQ_RES_PERIOD_LO
  ⟨0x078, 1, 0x4, .ro, 0x0, 0x0, 99, 0⟩, -- FRQ_RES_PERIOD_HI
  ⟨0x07C, 1, 0x4, .ro, 0x0, 0x0, 99, 0⟩, -- FRQ_RES_FREQ_LO
  ⟨0x080, 1, 0x4, .ro, 0x0, 0x0, 99, 0⟩, -- FRQ_RES_FREQ_HI
  ⟨0x084, 1, 0x4, .ro, 0x0, 0x0, 99, 0⟩, -- FRQ_RES_ANCHOR_LO
  ⟨0x088, 1, 0x4, .ro, 0x0, 0x0, 99, 0⟩, -- FRQ_RES_ANCHOR_HI
  ⟨0x08C, 1, 0x4, .ro, 0x0, 0x0, 99, 0⟩, -- FRQ_RES_FLAGS
  ⟨0x100, 32, 0x4, .rw, 0xF9FFFFFF, 0x1, 1, 2⟩, -- FU_CFG
  ⟨0x180, 32, 0x4, .rw, 0xFFFFFFFF, 0x7D0, 1, 2⟩ -- FU_GATE
  ]

/-- Register map of page type ADC. -/
def mapADC : List RegDef := [
  ⟨0x040, 1, 0x4, .rw, 0xFFFF, 0x0, 0, 0⟩, -- ADC_CTL
  ⟨0x044, 1, 0x4, .ro, 0x0, 0x0, 99, 0⟩, -- ADC_STAT
  ⟨0x048, 1, 0x4, .ro, 0x0, 0x0, 99, 0⟩, -- ADC_OVR
  ⟨0x04C, 1, 0x4, .ro, 0x0, 0x0, 99, 0⟩, -- ADC_CAL_STAT
  ⟨0x050, 1, 0x4, .ro, 0x0, 0x0, 99, 0⟩, -- ADC_INJ_LAST
  ⟨0x054, 1, 0x4, .wo, 0x0, 0x0, 99, 0⟩, -- ADC_CLR
  ⟨0x060, 4, 0x4, .rw, 0x3FFF, 0x7D0, 0, 0⟩, -- ADC_WAKE
  ⟨0x070, 4, 0x4, .ro, 0x0, 0x0, 99, 0⟩, -- ADC_INJ_CAUSE_CNT
  ⟨0x080, 4, 0x4, .rw, 0xF7F7F7F7, 0x40404040, 9, 0⟩, -- ADC_CONV_CFG
  ⟨0x0A0, 8, 0x4, .rw, 0xFFFF803F, 0x1000000, 1, 1⟩, -- ADC_SET_CFG
  ⟨0x0C0, 8, 0x4, .rw, 0xFFFFFFFF, 0x3E8, 1, 1⟩, -- ADC_SET_P0
  ⟨0x0E0, 8, 0x4, .rw, 0xFFFFFFFF, 0x0, 1, 1⟩, -- ADC_SET_P1
  ⟨0x100, 16, 0x4, .rw, 0xFFFFFFFF, 0x80000, 10, 0⟩, -- ADC_COEF
  ⟨0x140, 16, 0x4, .ro, 0x0, 0x0, 99, 0⟩, -- ADC_CNT_A
  ⟨0x180, 16, 0x4, .ro, 0x0, 0x0, 99, 0⟩ -- ADC_CNT_B
  ]

/-- Register map of page type ACC. -/
def mapACC : List RegDef := [
  ⟨0x040, 4, 0x4, .rw, 0xEC000000, 0x0, 0, 1⟩, -- ACC_IV_CFG
  ⟨0x050, 4, 0x8, .rw, 0xFFFFFFFF, 0x17D78400, 0, 1⟩, -- ACC_IV_LEN_LO
  ⟨0x054, 4, 0x8, .rw, 0xFFFF, 0x0, 0, 1⟩, -- ACC_IV_LEN_HI
  ⟨0x070, 2, 0x4, .rw, 0xFFFFFFFF, 0x0, 4, 0⟩, -- ACC_CONV_CFG
  ⟨0x078, 1, 0x4, .ro, 0x0, 0x0, 99, 0⟩, -- ACC_STAT
  ⟨0x07C, 1, 0x4, .wo, 0x0, 0x0, 99, 0⟩, -- ACC_SNAP_SEL
  ⟨0x080, 24, 0x4, .rw, 0xC00000FF, 0x0, 4, 0⟩, -- ACC_PAIR_CFG
  ⟨0x100, 20, 0x4, .ro, 0x0, 0x0, 99, 0⟩ -- ACC_SNAP
  ]

/-- Register map of page type HAR. -/
def mapHAR : List RegDef := [
  ⟨0x040, 1, 0x4, .rw, 0x1, 0x0, 0, 0⟩, -- HAR_CTL
  ⟨0x044, 1, 0x4, .ro, 0x0, 0x0, 99, 0⟩, -- HAR_STAT
  ⟨0x048, 1, 0x4, .ro, 0x0, 0x0, 99, 0⟩, -- HAR_PROF_CNT
  ⟨0x04C, 1, 0x4, .wo, 0x0, 0x0, 99, 0⟩, -- HAR_SNAP_SEL
  ⟨0x050, 1, 0x4, .ro, 0x0, 0x0, 99, 0⟩, -- HAR_SAT_CNT
  ⟨0x054, 1, 0x4, .wo, 0x0, 0x0, 99, 0⟩, -- HAR_CLR
  ⟨0x080, 16, 0x4, .rw, 0xF00F007F, 0x10000, 0, 0⟩, -- HAR_CH_CFG
  ⟨0x0C0, 16, 0x4, .rw, 0xFFFFFFFF, 0x0, 0, 0⟩, -- HAR_PROF
  ⟨0x100, 1, 0x4, .ro, 0x0, 0x0, 99, 0⟩, -- HAR_SNAP_START_LO
  ⟨0x104, 1, 0x4, .ro, 0x0, 0x0, 99, 0⟩, -- HAR_SNAP_START_HI
  ⟨0x108, 1, 0x4, .ro, 0x0, 0x0, 99, 0⟩, -- HAR_SNAP_END_LO
  ⟨0x10C, 1, 0x4, .ro, 0x0, 0x0, 99, 0⟩, -- HAR_SNAP_END_HI
  ⟨0x110, 1, 0x4, .ro, 0x0, 0x0, 99, 0⟩, -- HAR_SNAP_ANGLE_LO
  ⟨0x114, 1, 0x4, .ro, 0x0, 0x0, 99, 0⟩, -- HAR_SNAP_ANGLE_HI
  ⟨0x118, 1, 0x4, .ro, 0x0, 0x0, 99, 0⟩, -- HAR_SNAP_N
  ⟨0x11C, 1, 0x4, .ro, 0x0, 0x0, 99, 0⟩, -- HAR_SNAP_FLAGS
  ⟨0x120, 1, 0x4, .ro, 0x0, 0x0, 99, 0⟩, -- HAR_SNAP_RE_LO
  ⟨0x124, 1, 0x4, .ro, 0x0, 0x0, 99, 0⟩, -- HAR_SNAP_RE_HI
  ⟨0x128, 1, 0x4, .ro, 0x0, 0x0, 99, 0⟩, -- HAR_SNAP_IM_LO
  ⟨0x12C, 1, 0x4, .ro, 0x0, 0x0, 99, 0⟩ -- HAR_SNAP_IM_HI
  ]

/-- Register map of page type WIN. -/
def mapWIN : List RegDef := [
  ⟨0x040, 1, 0x4, .ro, 0x0, 0x0, 99, 0⟩, -- WIN_STAT
  ⟨0x044, 1, 0x4, .ro, 0x0, 0x0, 99, 0⟩, -- WIN_LAT_MAX
  ⟨0x080, 16, 0x4, .rw, 0x8F0FFFFF, 0x20000, 0, 1⟩, -- WIN_CFG
  ⟨0x0C0, 16, 0x4, .rw, 0x3FFFF, 0x20000, 0, 1⟩, -- WIN_LO
  ⟨0x100, 16, 0x4, .rw, 0x3FFFF, 0x1FFFF, 0, 1⟩ -- WIN_HI
  ]

/-- Register map of page type TLD_40. -/
def mapTLD40 : List RegDef := [
  ⟨0x040, 1, 0x4, .rw, 0x31F, 0x1, 0, 0⟩, -- TLD_CTL
  ⟨0x044, 1, 0x4, .ro, 0x0, 0x0, 99, 0⟩, -- TLD_STAT
  ⟨0x048, 1, 0x4, .wo, 0x0, 0x0, 99, 0⟩, -- TLD_SOFT
  ⟨0x04C, 1, 0x4, .ro, 0x0, 0x0, 99, 0⟩, -- TLD_FIRE_DESC
  ⟨0x050, 1, 0x4, .ro, 0x0, 0x0, 99, 0⟩, -- TLD_FIRE_SLOT_LO
  ⟨0x054, 1, 0x4, .ro, 0x0, 0x0, 99, 0⟩, -- TLD_FIRE_SLOT_HI
  ⟨0x058, 1, 0x4, .ro, 0x0, 0x0, 99, 0⟩, -- TLD_FIRE_IGN_CNT
  ⟨0x05C, 1, 0x4, .ro, 0x0, 0x0, 99, 0⟩, -- TLD_FIRE_SUPP_CNT
  ⟨0x060, 1, 0x4, .ro, 0x0, 0x0, 99, 0⟩, -- TLD_ABORT_CNT
  ⟨0x064, 1, 0x4, .ro, 0x0, 0x0, 99, 0⟩, -- TLD_SNAKE_CNT
  ⟨0x068, 1, 0x4, .wo, 0x0, 0x0, 99, 0⟩, -- TLD_CLR
  ⟨0x080, 16, 0x4, .rw, 0xFFFFFFFF, 0x0, 0, 0⟩, -- TLD_RUNG_CFG
  ⟨0x200, 128, 0x4, .rw, 0xFFFEFFFF, 0x0, 0, 0⟩ -- TLD_COND_ACT
  ]

/-- Register map of page type TLD_41. -/
def mapTLD41 : List RegDef := [
  ⟨0x100, 128, 0x4, .rw, 0xFFFCFFFF, 0x1, 0, 0⟩, -- TLD_COND_CFG
  ⟨0x300, 128, 0x4, .rw, 0xFFFFFFFF, 0x0, 0, 0⟩ -- TLD_COND_OP
  ]

/-- Register map of page type TLD_42. -/
def mapTLD42 : List RegDef := [
  ⟨0x040, 1, 0x4, .wo, 0x0, 0x0, 99, 0⟩, -- TLD_PT_SEL
  ⟨0x044, 1, 0x4, .ro, 0x0, 0x0, 99, 0⟩, -- TLD_PT_PTR
  ⟨0x048, 1, 0x4, .rw, 0xFFFFFFFF, 0x0, 0, 0⟩, -- TLD_PT_MASK
  ⟨0x04C, 1, 0x4, .rw, 0xFFFFFFFF, 0x0, 0, 0⟩, -- TLD_PT_VALUE
  ⟨0x050, 1, 0x4, .rw, 0xC000000F, 0x0, 0, 0⟩ -- TLD_PT_CTL
  ]

/-- Register map of page type TLD_43. -/
def mapTLD43 : List RegDef := [
  ⟨0x040, 16, 0x4, .rw, 0xFFFFFFFF, 0x0, 0, 0⟩, -- TLD_CNT_CFG
  ⟨0x080, 16, 0x4, .rw, 0xFFFFFFFF, 0x40000000, 0, 0⟩, -- TLD_TMR_CFG
  ⟨0x0C0, 1, 0x4, .wo, 0x0, 0x0, 99, 0⟩, -- TLD_TC_SNAP_SEL
  ⟨0x0C4, 1, 0x4, .ro, 0x0, 0x0, 99, 0⟩ -- TLD_TC_SNAP
  ]

/-- Register map of page type GMB. -/
def mapGMB : List RegDef := [
  ⟨0x040, 1, 0x4, .rw, 0x8000000F, 0x80000006, 0, 0⟩, -- GMB_CTL
  ⟨0x044, 1, 0x4, .ro, 0x0, 0x0, 99, 0⟩, -- GMB_STAT
  ⟨0x048, 1, 0x4, .ro, 0x0, 0x0, 99, 0⟩, -- GMB_LIVE_PLY_LO
  ⟨0x04C, 1, 0x4, .ro, 0x0, 0x0, 99, 0⟩, -- GMB_LIVE_PLY_HI
  ⟨0x050, 1, 0x4, .ro, 0x0, 0x0, 99, 0⟩, -- GMB_COMMIT_PLY_LO
  ⟨0x054, 1, 0x4, .ro, 0x0, 0x0, 99, 0⟩, -- GMB_COMMIT_PLY_HI
  ⟨0x058, 1, 0x4, .ro, 0x0, 0x0, 99, 0⟩, -- GMB_EVAL_PLY_LO
  ⟨0x05C, 1, 0x4, .ro, 0x0, 0x0, 99, 0⟩, -- GMB_EVAL_PLY_HI
  ⟨0x060, 1, 0x4, .ro, 0x0, 0x0, 99, 0⟩, -- GMB_LEAD
  ⟨0x064, 1, 0x4, .ro, 0x0, 0x0, 99, 0⟩, -- GMB_REQ_LAT
  ⟨0x068, 1, 0x4, .ro, 0x0, 0x1000, 99, 0⟩, -- GMB_HORIZON
  ⟨0x06C, 1, 0x4, .ro, 0x0, 0x800000, 99, 0⟩, -- GMB_HIST_BASE
  ⟨0x070, 1, 0x4, .ro, 0x0, 0x2800000, 99, 0⟩, -- GMB_ANNEX_BASE
  ⟨0x074, 1, 0x4, .ro, 0x0, 0x0, 99, 0⟩, -- GMB_LAST_ROLL
  ⟨0x080, 1, 0x4, .ro, 0x0, 0x0, 99, 0⟩, -- GMB_CKPT_CNT
  ⟨0x084, 1, 0x4, .ro, 0x0, 0x0, 99, 0⟩, -- GMB_ROLLBACK_CNT
  ⟨0x088, 1, 0x4, .ro, 0x0, 0x0, 99, 0⟩, -- GMB_REPLAY_PLY_CNT_LO
  ⟨0x08C, 1, 0x4, .ro, 0x0, 0x0, 99, 0⟩, -- GMB_REPLAY_PLY_CNT_HI
  ⟨0x090, 1, 0x4, .ro, 0x0, 0x0, 99, 0⟩, -- GMB_PAUSE_CNT
  ⟨0x094, 1, 0x4, .ro, 0x0, 0x0, 99, 0⟩, -- GMB_PAUSE_PLY_CNT
  ⟨0x098, 1, 0x4, .ro, 0x0, 0x0, 99, 0⟩, -- GMB_CKPT_FULL_CNT
  ⟨0x09C, 1, 0x4, .ro, 0x0, 0x0, 99, 0⟩, -- GMB_OVERRUN_CNT
  ⟨0x0A0, 1, 0x4, .ro, 0x0, 0x0, 99, 0⟩, -- GMB_INJ_RETRACT_CNT
  ⟨0x0A4, 1, 0x4, .ro, 0x0, 0x0, 99, 0⟩, -- GMB_INJ_LOST_CNT
  ⟨0x0A8, 1, 0x4, .ro, 0x0, 0x0, 99, 0⟩, -- GMB_TOKEN_RETRACT_CNT
  ⟨0x0AC, 1, 0x4, .ro, 0x0, 0x0, 99, 0⟩, -- GMB_LATE_OUT_CNT
  ⟨0x0B0, 1, 0x4, .ro, 0x0, 0x0, 99, 0⟩, -- GMB_MISPRED_IDLE_CNT
  ⟨0x0C0, 5, 0x4, .ro, 0x0, 0x0, 99, 0⟩, -- GMB_MISPRED_CNT
  ⟨0x0E0, 1, 0x4, .wo, 0x0, 0x0, 99, 0⟩ -- GMB_CLR
  ]

/-- Register map of page type ACT. -/
def mapACT : List RegDef := [
  ⟨0x040, 1, 0x4, .rw, 0xFFFF, 0xFFFF, 8, 0⟩, -- ACT_CTL
  ⟨0x044, 1, 0x4, .rw, 0xF, 0x0, 8, 0⟩, -- ACT_XTI
  ⟨0x048, 1, 0x4, .ro, 0x0, 0x0, 99, 0⟩, -- ACT_STAT
  ⟨0x04C, 1, 0x4, .ro, 0x0, 0x0, 99, 0⟩, -- ACT_RB_ERR
  ⟨0x050, 1, 0x4, .wo, 0x0, 0x0, 99, 0⟩, -- ACT_RELEASE
  ⟨0x054, 1, 0x4, .ro, 0x0, 0x0, 99, 0⟩, -- ACT_RETRACT_CNT
  ⟨0x058, 1, 0x4, .ro, 0x0, 0x0, 99, 0⟩, -- ACT_RETRACT_MASK
  ⟨0x05C, 1, 0x4, .wo, 0x0, 0x0, 99, 0⟩, -- ACT_CLR
  ⟨0x080, 16, 0x4, .rw, 0xFFFC0000, 0x400000, 0, 2⟩, -- ACT_CFG
  ⟨0x0C0, 16, 0x4, .rw, 0xFFFFFFFF, 0x7D0, 0, 2⟩ -- ACT_WIDTH
  ]

/-- Register map of page type ACQ_48. -/
def mapACQ48 : List RegDef := [
  ⟨0x040, 1, 0x4, .rw, 0xFE000000, 0x10000000, 0, 0⟩, -- ACQ_CTL
  ⟨0x044, 1, 0x4, .rw, 0x3FFFFF, 0x0, 0, 0⟩, -- ACQ_STREAM_EN
  ⟨0x048, 1, 0x4, .rw, 0xFFFFFFFF, 0x0, 0, 0⟩, -- ACQ_COLLAR_LO
  ⟨0x04C, 1, 0x4, .rw, 0xFFFF, 0x0, 0, 0⟩, -- ACQ_COLLAR_HI
  ⟨0x050, 1, 0x4, .rw, 0xFFFFFFFF, 0x0, 0, 0⟩, -- ACQ_CUFF_LO
  ⟨0x054, 1, 0x4, .rw, 0xFFFF, 0x0, 0, 0⟩, -- ACQ_CUFF_HI
  ⟨0x058, 1, 0x4, .rw, 0xFFFFFFFF, 0x100001, 0, 0⟩, -- ACQ_SEG_CFG
  ⟨0x05C, 1, 0x4, .wo, 0x0, 0x0, 99, 0⟩, -- ACQ_ARM
  ⟨0x060, 1, 0x4, .ro, 0x0, 0xFF00, 99, 0⟩, -- ACQ_ARM_STATUS
  ⟨0x064, 1, 0x4, .ro, 0x0, 0x0, 99, 0⟩, -- ACQ_STAT
  ⟨0x068, 1, 0x4, .ro, 0x0, 0x0, 99, 0⟩, -- ACQ_CLOSE
  ⟨0x06C, 1, 0x4, .ro, 0x0, 0x0, 99, 0⟩, -- ACQ_REC_NUM
  ⟨0x070, 1, 0x4, .ro, 0x0, 0x0, 99, 0⟩, -- ACQ_SEG_NUM
  ⟨0x074, 1, 0x4, .ro, 0x0, 0x0, 99, 0⟩, -- ACQ_HEM_WORDS
  ⟨0x078, 1, 0x4, .ro, 0x0, 0x0, 99, 0⟩, -- ACQ_CAP_LO
  ⟨0x07C, 1, 0x4, .ro, 0x0, 0x0, 99, 0⟩, -- ACQ_CAP_HI
  ⟨0x080, 1, 0x4, .ro, 0x0, 0x0, 99, 0⟩, -- ACQ_GRANT_COLLAR_LO
  ⟨0x084, 1, 0x4, .ro, 0x0, 0x0, 99, 0⟩, -- ACQ_GRANT_COLLAR_HI
  ⟨0x088, 1, 0x4, .ro, 0x0, 0x0, 99, 0⟩, -- ACQ_GRANT_CUFF_LO
  ⟨0x08C, 1, 0x4, .ro, 0x0, 0x0, 99, 0⟩, -- ACQ_GRANT_CUFF_HI
  ⟨0x090, 1, 0x4, .ro, 0x0, 0x0, 99, 0⟩, -- ACQ_ARM_SLOT_LO
  ⟨0x094, 1, 0x4, .ro, 0x0, 0x0, 99, 0⟩, -- ACQ_ARM_SLOT_HI
  ⟨0x098, 1, 0x4, .ro, 0x0, 0x0, 99, 0⟩, -- ACQ_TRIG_SLOT_LO
  ⟨0x09C, 1, 0x4, .ro, 0x0, 0x0, 99, 0⟩, -- ACQ_TRIG_SLOT_HI
  ⟨0x0A0, 1, 0x4, .ro, 0x0, 0x0, 99, 0⟩, -- ACQ_END_SLOT_LO
  ⟨0x0A4, 1, 0x4, .ro, 0x0, 0x0, 99, 0⟩, -- ACQ_END_SLOT_HI
  ⟨0x0A8, 1, 0x4, .ro, 0x0, 0x0, 99, 0⟩, -- ACQ_TRIG_ANGLE_LO
  ⟨0x0AC, 1, 0x4, .ro, 0x0, 0x0, 99, 0⟩, -- ACQ_TRIG_ANGLE_HI
  ⟨0x0B0, 1, 0x4, .ro, 0x0, 0x0, 99, 0⟩, -- ACQ_SHORT_COLLAR_CNT
  ⟨0x0B4, 1, 0x4, .ro, 0x0, 0x0, 99, 0⟩, -- ACQ_LIVE_CLIP_CNT
  ⟨0x0B8, 1, 0x4, .ro, 0x0, 0x0, 99, 0⟩, -- ACQ_SEG_OVERWRITE_CNT
  ⟨0x0BC, 1, 0x4, .ro, 0x0, 0x0, 99, 0⟩, -- ACQ_WITHDRAW_CNT
  ⟨0x0C0, 1, 0x4, .wo, 0x0, 0x0, 99, 0⟩ -- ACQ_CLR
  ]

/-- Register map of page type ACQ_49. -/
def mapACQ49 : List RegDef := [
  ⟨0x040, 1, 0x4, .rw, 0x3FFFF, 0x0, 0, 0⟩, -- ACQ_DM_BASE
  ⟨0x044, 1, 0x4, .rw, 0x7FFFF, 0x0, 0, 0⟩, -- ACQ_DM_SIZE
  ⟨0x048, 1, 0x4, .rw, 0x1FFFFFF, 0x0, 0, 0⟩, -- ACQ_STO_ALLOT
  ⟨0x04C, 1, 0x4, .rw, 0xE0000000, 0x0, 1, 0⟩, -- ACQ_PROT_CFG
  ⟨0x050, 1, 0x4, .rw, 0xFFFFFFFF, 0x0, 1, 0⟩, -- ACQ_PROT_LEN_LO
  ⟨0x054, 1, 0x4, .rw, 0xFFFF, 0x0, 1, 0⟩, -- ACQ_PROT_LEN_HI
  ⟨0x058, 1, 0x4, .rw, 0xC000000F, 0x0, 0, 0⟩, -- ACQ_ANLG_CFG
  ⟨0x080, 14, 0x4, .rw, 0x3FFFF, 0x0, 0, 0⟩ -- ACQ_RING_MIB
  ]

/-- Register map of page type ACQ_4A. -/
def mapACQ4A : List RegDef := [
  ⟨0x040, 1, 0x4, .ro, 0x0, 0x0, 99, 0⟩, -- ACQ_THIN_MASK
  ⟨0x044, 1, 0x4, .wo, 0x0, 0x0, 99, 0⟩, -- ACQ_THIN_CLR
  ⟨0x080, 10, 0x4, .rw, 0xC000001F, 0xC0000014, 0, 1⟩, -- ACQ_THIN_CFG
  ⟨0x0C0, 10, 0x4, .rw, 0xFFFF, 0xC040, 0, 1⟩, -- ACQ_THIN_LVL
  ⟨0x100, 10, 0x4, .rw, 0xFFFFFFFF, 0x640064, 0, 1⟩, -- ACQ_THIN_DWELL
  ⟨0x140, 10, 0x4, .ro, 0x0, 0x0, 99, 0⟩, -- ACQ_THIN_STAT
  ⟨0x180, 10, 0x4, .ro, 0x0, 0x0, 99, 0⟩, -- ACQ_THIN_UP_CNT
  ⟨0x1C0, 10, 0x4, .ro, 0x0, 0x0, 99, 0⟩ -- ACQ_OVF_CNT
  ]

/-- Register map of page type ACQ_4B. -/
def mapACQ4B : List RegDef := [
  ⟨0x080, 22, 0x4, .ro, 0x0, 0x0, 99, 0⟩, -- ACQ_RING_BASE
  ⟨0x100, 22, 0x4, .ro, 0x0, 0x0, 99, 0⟩ -- ACQ_RING_FIRST
  ]

/-- Register map of page type RFQ. -/
def mapRFQ : List RegDef := [
  ⟨0x040, 1, 0x4, .rw, 0x800007FF, 0x3E8, 0, 0⟩, -- RFQ_CTL
  ⟨0x044, 1, 0x4, .ro, 0x0, 0x0, 99, 0⟩, -- RFQ_STAT
  ⟨0x048, 1, 0x4, .ro, 0x0, 0x0, 99, 0⟩, -- RFQ_SPLIT
  ⟨0x04C, 1, 0x4, .wo, 0x0, 0x0, 99, 0⟩, -- RFQ_FLUSH
  ⟨0x050, 1, 0x4, .ro, 0x0, 0x0, 99, 0⟩, -- RFQ_FLUSH_PEND
  ⟨0x054, 1, 0x4, .ro, 0x0, 0x0, 99, 0⟩, -- RFQ_LOST_CNT
  ⟨0x058, 1, 0x4, .wo, 0x0, 0x0, 99, 0⟩, -- RFQ_CLR
  ⟨0x080, 22, 0x4, .rw, 0x800003FF, 0x0, 1, 0⟩, -- RFQ_WM
  ⟨0x100, 22, 0x4, .ro, 0x0, 0x0, 99, 0⟩, -- RFQ_LEVEL
  ⟨0x180, 22, 0x4, .ro, 0x0, 0x0, 99, 0⟩, -- RFQ_SEQ
  ⟨0x200, 22, 0x4, .ro, 0x0, 0x0, 99, 0⟩, -- RFQ_BANK_STAT
  ⟨0x280, 22, 0x4, .ro, 0x0, 0x0, 99, 0⟩, -- RFQ_DISCARD_CNT
  ⟨0x300, 22, 0x4, .ro, 0x0, 0x0, 99, 0⟩ -- RFQ_AGE_CNT
  ]

/-- Register map of page type CMP. -/
def mapCMP : List RegDef := [
  ⟨0x040, 1, 0x4, .rw, 0x8000000F, 0x2, 0, 0⟩, -- CMP_CTL
  ⟨0x044, 1, 0x4, .ro, 0x0, 0x0, 99, 0⟩, -- CMP_STAT
  ⟨0x048, 1, 0x4, .ro, 0x0, 0x0, 99, 0⟩, -- CMP_NOLANE
  ⟨0x04C, 1, 0x4, .ro, 0x0, 0x0, 99, 0⟩, -- CMP_VERIFY_LAST
  ⟨0x050, 1, 0x4, .wo, 0x0, 0x0, 99, 0⟩, -- CMP_CLR
  ⟨0x054, 1, 0x4, .ro, 0x0, 0x0, 99, 0⟩, -- CMP_VERIFY_CNT
  ⟨0x058, 1, 0x4, .ro, 0x0, 0x0, 99, 0⟩, -- CMP_NOGAIN_CNT
  ⟨0x05C, 1, 0x4, .ro, 0x0, 0x0, 99, 0⟩, -- CMP_BANKFULL_CNT
  ⟨0x060, 1, 0x4, .ro, 0x0, 0x0, 99, 0⟩, -- CMP_RESET_CNT
  ⟨0x064, 1, 0x4, .ro, 0x0, 0x0, 99, 0⟩, -- CMP_STALL_CNT
  ⟨0x080, 11, 0x4, .rw, 0xE0FFE0FF, 0xC010C010, 1, 0⟩, -- CMP_STREAM_CFG
  ⟨0x0C0, 4, 0x4, .rw, 0x9F9F9F9F, 0x0, 0, 0⟩, -- CMP_LANE_CFG
  ⟨0x0D0, 4, 0x4, .ro, 0x0, 0x0, 99, 0⟩, -- CMP_LANE_MAP
  ⟨0x100, 11, 0x4, .ro, 0x0, 0x0, 99, 0⟩ -- CMP_RATIO
  ]

/-- Register map of page type DCP. -/
def mapDCP : List RegDef := [
  ⟨0x040, 1, 0x4, .rw, 0x1, 0x0, 0, 0⟩, -- DCP_CTL
  ⟨0x044, 1, 0x4, .ro, 0x0, 0x0, 99, 0⟩, -- DCP_STAT
  ⟨0x048, 1, 0x4, .ro, 0x0, 0x0, 99, 0⟩, -- DCP_POISON
  ⟨0x04C, 1, 0x4, .ro, 0x0, 0x0, 99, 0⟩, -- DCP_ERR_LAST
  ⟨0x050, 1, 0x4, .wo, 0x0, 0x0, 99, 0⟩, -- DCP_CLR
  ⟨0x054, 1, 0x4, .ro, 0x0, 0x0, 99, 0⟩, -- DCP_CHECK_FAIL_CNT
  ⟨0x058, 1, 0x4, .ro, 0x0, 0x0, 99, 0⟩, -- DCP_FORMAT_ERR_CNT
  ⟨0x05C, 1, 0x4, .ro, 0x0, 0x0, 99, 0⟩, -- DCP_SEQ_GAP_CNT
  ⟨0x060, 1, 0x4, .ro, 0x0, 0x0, 99, 0⟩, -- DCP_POISON_CNT
  ⟨0x064, 1, 0x4, .ro, 0x0, 0x0, 99, 0⟩, -- DCP_BLOCK_CNT
  ⟨0x068, 1, 0x4, .ro, 0x0, 0x0, 99, 0⟩, -- DCP_OUT_BYTES_LO
  ⟨0x06C, 1, 0x4, .ro, 0x0, 0x0, 99, 0⟩, -- DCP_OUT_BYTES_HI
  ⟨0x070, 1, 0x4, .ro, 0x0, 0x0, 99, 0⟩, -- DCP_IN_BYTES_LO
  ⟨0x074, 1, 0x4, .ro, 0x0, 0x0, 99, 0⟩, -- DCP_IN_BYTES_HI
  ⟨0x078, 1, 0x4, .ro, 0x0, 0x0, 99, 0⟩, -- DCP_ERR_SEQ
  ⟨0x07C, 1, 0x4, .ro, 0x0, 0x0, 99, 0⟩, -- DCP_RESYNC_CNT
  ⟨0x080, 4, 0x4, .ro, 0x0, 0x0, 99, 0⟩ -- DCP_LANE_STAT
  ]

/-- Register map of page type SCR. -/
def mapSCR : List RegDef := [
  ⟨0x040, 1, 0x4, .rw, 0xF, 0x8, 0, 0⟩, -- SCR_CTL
  ⟨0x044, 1, 0x4, .ro, 0x0, 0x0, 99, 0⟩, -- SCR_STAT
  ⟨0x048, 1, 0x4, .wo, 0x0, 0x0, 99, 0⟩, -- SCR_LEND_SEL
  ⟨0x04C, 1, 0x4, .ro, 0x0, 0x0, 99, 0⟩, -- SCR_LEND_PTR
  ⟨0x050, 1, 0x4, .rw, 0xFFFFFFFF, 0x0, 1, 0⟩, -- SCR_LEND_DATA
  ⟨0x054, 1, 0x4, .ro, 0x0, 0x0, 99, 0⟩, -- SCR_CE_CNT
  ⟨0x058, 1, 0x4, .ro, 0x0, 0x0, 99, 0⟩, -- SCR_UE_CNT
  ⟨0x05C, 1, 0x4, .ro, 0x0, 0x0, 99, 0⟩, -- SCR_ECC_LAST
  ⟨0x060, 1, 0x4, .ro, 0x0, 0x0, 99, 0⟩, -- SCR_TEST_COLLIDE_CNT
  ⟨0x064, 1, 0x4, .ro, 0x0, 0x0, 99, 0⟩, -- SCR_HOST_WPROT_CNT
  ⟨0x068, 1, 0x4, .ro, 0x0, 0x0, 99, 0⟩, -- SCR_REPAIR_CNT
  ⟨0x06C, 1, 0x4, .ro, 0x0, 0x0, 99, 0⟩, -- SCR_SPARE_MIN
  ⟨0x070, 1, 0x4, .wo, 0x0, 0x0, 99, 0⟩, -- SCR_CLR
  ⟨0x080, 16, 0x4, .ro, 0x0, 0x0, 99, 0⟩, -- SCR_CONFLICT_CNT
  ⟨0x0C0, 16, 0x4, .ro, 0x0, 0x0, 99, 0⟩, -- SCR_WRITE_COLLIDE_CNT
  ⟨0x100, 16, 0x4, .ro, 0x0, 0x0, 99, 0⟩ -- SCR_LEND_STALL_CNT
  ]

/-- Register map of page type MAR. -/
def mapMAR : List RegDef := [
  ⟨0x040, 1, 0x4, .rw, 0x8F03FFFF, 0x880103E8, 0, 0⟩, -- MAR_CTL
  ⟨0x044, 1, 0x4, .ro, 0x0, 0x0, 99, 0⟩, -- MAR_STAT
  ⟨0x048, 1, 0x4, .ro, 0x0, 0x0, 99, 0⟩, -- MAR_ROT_POS
  ⟨0x04C, 1, 0x4, .ro, 0x0, 0x0, 99, 0⟩, -- MAR_ROT_PASS_CNT
  ⟨0x050, 1, 0x4, .ro, 0x0, 0x0, 99, 0⟩, -- MAR_TILE_CNT
  ⟨0x054, 1, 0x4, .ro, 0x0, 0x0, 99, 0⟩, -- MAR_FAIL_CNT
  ⟨0x058, 1, 0x4, .ro, 0x0, 0x0, 99, 0⟩, -- MAR_FAIL_ADDR
  ⟨0x05C, 1, 0x4, .ro, 0x0, 0x0, 99, 0⟩, -- MAR_FAIL_BITS_LO
  ⟨0x060, 1, 0x4, .ro, 0x0, 0x0, 99, 0⟩, -- MAR_FAIL_BITS_HI
  ⟨0x064, 1, 0x4, .ro, 0x0, 0x0, 99, 0⟩, -- MAR_YIELD_CNT
  ⟨0x068, 1, 0x4, .ro, 0x0, 0x0, 99, 0⟩, -- MAR_UNREPAIRED_CNT
  ⟨0x06C, 1, 0x4, .wo, 0x0, 0x0, 99, 0⟩ -- MAR_CLR
  ]

/-- Register map of page type DMC. -/
def mapDMC : List RegDef := [
  ⟨0x040, 1, 0x4, .rw, 0x800000FF, 0x800000F0, 0, 0⟩, -- DMC_SCRUB_CFG
  ⟨0x044, 1, 0x4, .rw, 0x1, 0x1, 1, 0⟩, -- DMC_WPROT_CFG
  ⟨0x048, 1, 0x4, .ro, 0x0, 0x0, 99, 0⟩, -- DMC_STAT
  ⟨0x04C, 1, 0x4, .ro, 0x0, 0x0, 99, 0⟩, -- DMC_CAP
  ⟨0x050, 1, 0x4, .ro, 0x0, 0x0, 99, 0⟩, -- DMC_SCRUB_POS
  ⟨0x054, 1, 0x4, .ro, 0x0, 0x0, 99, 0⟩, -- DMC_SCRUB_PASS_CNT
  ⟨0x058, 1, 0x4, .ro, 0x0, 0x0, 99, 0⟩, -- DMC_CE_CNT
  ⟨0x05C, 1, 0x4, .ro, 0x0, 0x0, 99, 0⟩, -- DMC_UE_CNT
  ⟨0x060, 1, 0x4, .ro, 0x0, 0x0, 99, 0⟩, -- DMC_ECC_LAST_LO
  ⟨0x064, 1, 0x4, .ro, 0x0, 0x0, 99, 0⟩, -- DMC_ECC_LAST_HI
  ⟨0x068, 1, 0x4, .ro, 0x0, 0x0, 99, 0⟩, -- DMC_WPROT_CNT
  ⟨0x06C, 1, 0x4, .ro, 0x0, 0x0, 99, 0⟩, -- DMC_REPAIR_CNT
  ⟨0x070, 1, 0x4, .ro, 0x0, 0x0, 99, 0⟩, -- DMC_BADROW_CNT
  ⟨0x074, 1, 0x4, .wo, 0x0, 0x0, 99, 0⟩, -- DMC_BADROW_SEL
  ⟨0x078, 1, 0x4, .ro, 0x0, 0x0, 99, 0⟩, -- DMC_BADROW_LO
  ⟨0x07C, 1, 0x4, .ro, 0x0, 0x0, 99, 0⟩, -- DMC_BADROW_HI
  ⟨0x080, 1, 0x4, .ro, 0x0, 0x0, 99, 0⟩, -- DMC_REPAIR_FAIL_CNT
  ⟨0x084, 1, 0x4, .wo, 0x0, 0x0, 99, 0⟩, -- DMC_CLR
  ⟨0x0C0, 8, 0x4, .ro, 0x0, 0x0, 99, 0⟩, -- DMC_STACK_STAT
  ⟨0x0E0, 4, 0x4, .ro, 0x0, 0x0, 99, 0⟩ -- DMC_CTRL_STAT
  ]

/-- Register map of page type STO. -/
def mapSTO : List RegDef := [
  ⟨0x040, 1, 0x4, .rw, 0x103FF, 0x10032, 0, 0⟩, -- STO_CTL
  ⟨0x044, 1, 0x4, .ro, 0x0, 0x100000, 99, 0⟩, -- STO_STAT
  ⟨0x048, 1, 0x4, .ro, 0x0, 0x0, 99, 0⟩, -- STO_STORE_ID
  ⟨0x04C, 1, 0x4, .ro, 0x0, 0x0, 99, 0⟩, -- STO_GEN
  ⟨0x050, 1, 0x4, .ro, 0x0, 0x0, 99, 0⟩, -- STO_CAP_MIB
  ⟨0x054, 1, 0x4, .ro, 0x0, 0x0, 99, 0⟩, -- STO_FREE_MIB
  ⟨0x058, 1, 0x4, .ro, 0x0, 0x0, 99, 0⟩, -- STO_ALLOT_USED
  ⟨0x05C, 1, 0x4, .ro, 0x0, 0x0, 99, 0⟩, -- STO_REC_SLOT
  ⟨0x060, 1, 0x4, .wo, 0x0, 0x0, 99, 0⟩, -- STO_CAT_SEL
  ⟨0x064, 1, 0x4, .ro, 0x0, 0x0, 99, 0⟩, -- STO_CAT_STAT
  ⟨0x068, 1, 0x4, .ro, 0x0, 0x0, 99, 0⟩, -- STO_CAT_REC
  ⟨0x06C, 1, 0x4, .ro, 0x0, 0x0, 99, 0⟩, -- STO_CAT_SEG
  ⟨0x070, 1, 0x4, .ro, 0x0, 0x0, 99, 0⟩, -- STO_CAT_BYTES_LO
  ⟨0x074, 1, 0x4, .ro, 0x0, 0x0, 99, 0⟩, -- STO_CAT_BYTES_HI
  ⟨0x078, 1, 0x4, .wo, 0x0, 0x0, 99, 0⟩, -- STO_FREE_REC
  ⟨0x07C, 1, 0x4, .ro, 0x0, 0x0, 99, 0⟩, -- STO_REC_CNT
  ⟨0x080, 1, 0x4, .ro, 0x0, 0x0, 99, 0⟩, -- STO_UNCOMMITTED
  ⟨0x084, 1, 0x4, .ro, 0x0, 0x0, 99, 0⟩, -- STO_WRITE_ERR_CNT
  ⟨0x088, 1, 0x4, .ro, 0x0, 0x0, 99, 0⟩, -- STO_LOST_CHUNK_CNT
  ⟨0x08C, 1, 0x4, .ro, 0x0, 0x0, 99, 0⟩, -- STO_SCRUB_BAD_CNT
  ⟨0x090, 1, 0x4, .ro, 0x0, 0x0, 99, 0⟩, -- STO_FULL_CNT
  ⟨0x094, 1, 0x4, .wo, 0x0, 0x0, 99, 0⟩, -- STO_CLR
  ⟨0x0A0, 4, 0x4, .ro, 0x0, 0x0, 99, 0⟩, -- STO_DRIVE_STAT
  ⟨0x0B0, 4, 0x4, .ro, 0x0, 0x0, 99, 0⟩ -- STO_DRIVE_MIB
  ]

/-- Register map of page type NVQ. -/
def mapNVQ : List RegDef := [
  ⟨0x040, 1, 0x4, .rw, 0xFFF0007F, 0x10000020, 0, 0⟩, -- NVQ_CTL
  ⟨0x044, 1, 0x4, .rw, 0xFFFF, 0x7D0, 0, 0⟩, -- NVQ_TIMEOUT
  ⟨0x048, 1, 0x4, .wo, 0x0, 0x0, 99, 0⟩, -- NVQ_RESET
  ⟨0x04C, 1, 0x4, .wo, 0x0, 0x0, 99, 0⟩, -- NVQ_CLR
  ⟨0x080, 4, 0x20, .ro, 0x0, 0x0, 99, 0⟩, -- NVQ_PORT_STAT
  ⟨0x084, 4, 0x20, .ro, 0x0, 0x0, 99, 0⟩, -- NVQ_INFLIGHT
  ⟨0x088, 4, 0x20, .ro, 0x0, 0x0, 99, 0⟩, -- NVQ_ERR_CNT
  ⟨0x08C, 4, 0x20, .ro, 0x0, 0x0, 99, 0⟩, -- NVQ_TIMEOUT_CNT
  ⟨0x090, 4, 0x20, .ro, 0x0, 0x0, 99, 0⟩, -- NVQ_LAST_ERR
  ⟨0x094, 4, 0x20, .ro, 0x0, 0x0, 99, 0⟩, -- NVQ_MDTS_KIB
  ⟨0x098, 4, 0x20, .ro, 0x0, 0x0, 99, 0⟩, -- NVQ_NS_BLOCKS_LO
  ⟨0x09C, 4, 0x20, .ro, 0x0, 0x0, 99, 0⟩ -- NVQ_NS_BLOCKS_HI
  ]

/-- Register map of page type HIF. -/
def mapHIF : List RegDef := [
  ⟨0x040, 1, 0x4, .ro, 0x0, 0x0, 99, 0⟩, -- HIF_HOST_MODE
  ⟨0x044, 1, 0x4, .ro, 0x0, 0x0, 99, 0⟩, -- HIF_LINK_STAT
  ⟨0x048, 1, 0x4, .ro, 0x0, 0x0, 99, 0⟩, -- HIF_POISON_RX_CNT
  ⟨0x04C, 1, 0x4, .ro, 0x0, 0x0, 99, 0⟩, -- HIF_POISON_TX_CNT
  ⟨0x050, 1, 0x4, .ro, 0x0, 0x0, 99, 0⟩, -- HIF_DMA_ERR_CNT
  ⟨0x054, 1, 0x4, .wo, 0x0, 0x0, 99, 0⟩ -- HIF_CLR
  ]

/-- Register map of page type CMD. -/
def mapCMD : List RegDef := [
  ⟨0x040, 1, 0x4, .rw, 0x7F00FF, 0x100014, 16, 0⟩, -- CMD_CTL
  ⟨0x044, 1, 0x4, .rw, 0xFFFFF, 0x0, 16, 0⟩, -- CMD_RING_HI
  ⟨0x048, 1, 0x4, .ro, 0x0, 0x0, 99, 0⟩, -- CMD_STAT
  ⟨0x100, 16, 0x4, .rw, 0xFFFFFFFF, 0x0, 0, 1⟩, -- CMD_SQ_BASE
  ⟨0x140, 16, 0x4, .rw, 0xFFFFFFFF, 0x0, 0, 1⟩, -- CMD_CQ_BASE
  ⟨0x180, 16, 0x4, .rw, 0xFFFFFFFF, 0x19800000, 0, 1⟩, -- CMD_RING_CFG
  ⟨0x1C0, 16, 0x4, .wo, 0x0, 0x0, 99, 0⟩, -- CMD_DB
  ⟨0x200, 16, 0x4, .ro, 0x0, 0x0, 99, 0⟩ -- CMD_PTR
  ]

/-- Register map of page type IRQ. -/
def mapIRQ : List RegDef := [
  ⟨0x040, 1, 0x4, .rw, 0x1, 0x1, 0, 0⟩, -- IRQ_CTL
  ⟨0x050, 4, 0x4, .ro, 0x0, 0x0, 99, 0⟩, -- IRQ_REQ
  ⟨0x100, 64, 0x4, .rw, 0x81FF81FF, 0x0, 0, 0⟩ -- IRQ_MAP
  ]

/-- Register map of page type ETH. -/
def mapETH : List RegDef := [
  ⟨0x040, 1, 0x4, .rw, 0x80003FFF, 0x2328, 0, 0⟩, -- ETH_CTL
  ⟨0x044, 1, 0x4, .rw, 0xFFFFFFFF, 0x0, 0, 0⟩, -- ETH_MAC_LO
  ⟨0x048, 1, 0x4, .rw, 0xFFFF, 0x0, 0, 0⟩, -- ETH_MAC_HI
  ⟨0x04C, 1, 0x4, .rw, 0xFFFFFFFF, 0x0, 0, 0⟩, -- ETH_SRC_IP4
  ⟨0x050, 4, 0x4, .rw, 0xFFFFFFFF, 0x0, 0, 0⟩, -- ETH_SRC_IP6
  ⟨0x060, 1, 0x4, .ro, 0x0, 0x0, 99, 0⟩, -- ETH_PORT_STAT
  ⟨0x064, 1, 0x4, .wo, 0x0, 0x0, 99, 0⟩, -- ETH_CLR
  ⟨0x080, 16, 0x30, .rw, 0xE7000000, 0x0, 1, 1⟩, -- DEST_CFG
  ⟨0x084, 16, 0x30, .rw, 0xFFFFFFFF, 0x0, 1, 1⟩, -- DEST_IP0
  ⟨0x088, 16, 0x30, .rw, 0xFFFFFFFF, 0x0, 1, 1⟩, -- DEST_IP1
  ⟨0x08C, 16, 0x30, .rw, 0xFFFFFFFF, 0x0, 1, 1⟩, -- DEST_IP2
  ⟨0x090, 16, 0x30, .rw, 0xFFFFFFFF, 0x0, 1, 1⟩, -- DEST_IP3
  ⟨0x094, 16, 0x30, .rw, 0xFFFFFFFF, 0x0, 1, 1⟩, -- DEST_MAC_LO
  ⟨0x098, 16, 0x30, .rw, 0xFFFF, 0x0, 1, 1⟩, -- DEST_MAC_HI
  ⟨0x09C, 16, 0x30, .rw, 0xFFFFFFFF, 0x0, 1, 1⟩, -- DEST_UDP
  ⟨0x0A0, 16, 0x30, .rw, 0x3FFFFF, 0x0, 1, 1⟩, -- DEST_STREAMS
  ⟨0x0A4, 16, 0x30, .ro, 0x0, 0x0, 99, 0⟩, -- DEST_DROP_CNT
  ⟨0x0A8, 16, 0x30, .ro, 0x0, 0x0, 99, 0⟩ -- DEST_SENT_CNT
  ]

/-- Register map of page type CAS. -/
def mapCAS : List RegDef := [
  ⟨0x040, 1, 0x4, .rw, 0xF8FFFFFF, 0xF0040014, 0, 0⟩, -- CAS_CTL
  ⟨0x044, 1, 0x4, .rw, 0x7F, 0x0, 0, 0⟩, -- CAS_EXPECT
  ⟨0x048, 1, 0x4, .rw, 0x3F, 0x0, 1, 0⟩, -- CAS_RWIN_DEV
  ⟨0x04C, 1, 0x4, .rw, 0xFFFF, 0x32, 1, 0⟩, -- CAS_RWIN_CFG
  ⟨0x050, 1, 0x4, .ro, 0x0, 0x0, 99, 0⟩, -- CAS_STAT
  ⟨0x054, 1, 0x4, .ro, 0x0, 0x0, 99, 0⟩, -- CAS_ENUM_STAT
  ⟨0x058, 1, 0x4, .ro, 0x0, 0x0, 99, 0⟩, -- CAS_REACH_LO
  ⟨0x05C, 1, 0x4, .ro, 0x0, 0x0, 99, 0⟩, -- CAS_REACH_HI
  ⟨0x060, 1, 0x4, .ro, 0x0, 0x0, 99, 0⟩, -- CAS_ARM_FAIL_LO
  ⟨0x064, 1, 0x4, .ro, 0x0, 0x0, 99, 0⟩, -- CAS_ARM_FAIL_HI
  ⟨0x068, 1, 0x4, .ro, 0x0, 0x0, 99, 0⟩, -- CAS_ALIGN_RES
  ⟨0x06C, 1, 0x4, .ro, 0x0, 0x0, 99, 0⟩, -- CAS_ALIGN_DEV
  ⟨0x070, 1, 0x4, .rw, 0xFFFFFFFF, 0x10064014, 2, 0⟩, -- CAS_ALIGN_CFG
  ⟨0x074, 1, 0x4, .rw, 0xFFFFFFFF, 0x0, 2, 0⟩, -- CAS_ASYM_E
  ⟨0x078, 1, 0x4, .rw, 0xFFFFFFFF, 0x0, 2, 0⟩, -- CAS_ASYM_W
  ⟨0x07C, 1, 0x4, .rw, 0xF, 0x0, 3, 0⟩, -- CAS_ANG_CFG
  ⟨0x080, 1, 0x4, .ro, 0x0, 0x0, 99, 0⟩, -- CAS_FIRE_TX_CNT
  ⟨0x084, 1, 0x4, .ro, 0x0, 0x0, 99, 0⟩, -- CAS_FIRE_RX_CNT
  ⟨0x088, 1, 0x4, .ro, 0x0, 0x0, 99, 0⟩, -- CAS_FIRE_YIELD_CNT
  ⟨0x08C, 1, 0x4, .ro, 0x0, 0x0, 99, 0⟩, -- CAS_FIRE_IGN_CNT
  ⟨0x090, 1, 0x4, .ro, 0x0, 0x0, 99, 0⟩, -- CAS_RETRACT_RX_CNT
  ⟨0x094, 1, 0x4, .ro, 0x0, 0x0, 99, 0⟩, -- CAS_ARM_LATE_CNT
  ⟨0x098, 1, 0x4, .ro, 0x0, 0x0, 99, 0⟩, -- CAS_ANG_ADJ_CNT
  ⟨0x09C, 1, 0x4, .ro, 0x0, 0x0, 99, 0⟩, -- CAS_RWIN_ERR_CNT
  ⟨0x0A0, 1, 0x4, .wo, 0x0, 0x0, 99, 0⟩ -- CAS_CLR
  ]

/-- Register map of page type FLX. -/
def mapFLX : List RegDef := [
  ⟨0x040, 1, 0x4, .rw, 0xF00F0007, 0x400A0007, 0, 0⟩, -- FLX_CTL
  ⟨0x044, 1, 0x4, .wo, 0x0, 0x0, 99, 0⟩, -- FLX_RETRAIN
  ⟨0x048, 1, 0x4, .wo, 0x0, 0x0, 99, 0⟩, -- FLX_CLR
  ⟨0x080, 3, 0x20, .ro, 0x0, 0x0, 99, 0⟩, -- FLX_PORT_STAT
  ⟨0x084, 3, 0x20, .ro, 0x0, 0x0, 99, 0⟩, -- FLX_CRC_ERR_CNT
  ⟨0x088, 3, 0x20, .ro, 0x0, 0x0, 99, 0⟩, -- FLX_FEC_CORR_CNT
  ⟨0x08C, 3, 0x20, .ro, 0x0, 0x0, 99, 0⟩, -- FLX_FEC_UNCORR_CNT
  ⟨0x090, 3, 0x20, .ro, 0x0, 0x0, 99, 0⟩, -- FLX_RETRY_CNT
  ⟨0x094, 3, 0x20, .ro, 0x0, 0x0, 99, 0⟩, -- FLX_LOSS_CNT
  ⟨0x098, 3, 0x20, .ro, 0x0, 0x0, 99, 0⟩, -- FLX_TOKEN_TX_CNT
  ⟨0x09C, 3, 0x20, .ro, 0x0, 0x0, 99, 0⟩ -- FLX_TOKEN_RX_CNT
  ]

/-- Register map of page type TWN. -/
def mapTWN : List RegDef := [
  ⟨0x040, 1, 0x4, .rw, 0xDF03FFFF, 0x1403FFFF, 0, 0⟩, -- TWN_CTL
  ⟨0x044, 1, 0x4, .rw, 0xFFFFFFFF, 0x0, 0, 0⟩, -- TWN_PAIR_ID
  ⟨0x048, 1, 0x4, .rw, 0xFFFFFFFF, 0x8040040, 1, 0⟩, -- TWN_TOL
  ⟨0x04C, 1, 0x4, .rw, 0xFFFF, 0x40, 1, 0⟩, -- TWN_FIRE_TOL
  ⟨0x050, 1, 0x4, .ro, 0x0, 0x0, 99, 0⟩, -- TWN_STAT
  ⟨0x054, 1, 0x4, .ro, 0x0, 0x0, 99, 0⟩, -- TWN_PARTNER
  ⟨0x058, 1, 0x4, .wo, 0x0, 0x0, 99, 0⟩, -- TWN_DETACH
  ⟨0x05C, 1, 0x4, .ro, 0x0, 0x0, 99, 0⟩, -- TWN_DIV_LAST
  ⟨0x060, 1, 0x4, .ro, 0x0, 0x0, 99, 0⟩, -- TWN_DIV_MASK
  ⟨0x064, 1, 0x4, .ro, 0x0, 0x0, 99, 0⟩, -- TWN_ALIGN_DEV
  ⟨0x080, 1, 0x4, .ro, 0x0, 0x0, 99, 0⟩, -- TWN_SEAM_CNT
  ⟨0x084, 1, 0x4, .ro, 0x0, 0x0, 99, 0⟩, -- TWN_SEAM_SKIP_CNT
  ⟨0x088, 1, 0x4, .ro, 0x0, 0x0, 99, 0⟩, -- TWN_DIVERGE_CNT
  ⟨0x08C, 1, 0x4, .ro, 0x0, 0x0, 99, 0⟩, -- TWN_THIN_LATE_CNT
  ⟨0x090, 1, 0x4, .ro, 0x0, 0x0, 99, 0⟩, -- TWN_FIRE_MISMATCH_CNT
  ⟨0x094, 1, 0x4, .ro, 0x0, 0x0, 99, 0⟩, -- TWN_ARM_IGN_CNT
  ⟨0x098, 1, 0x4, .wo, 0x0, 0x0, 99, 0⟩ -- TWN_CLR
  ]

/-- Register map of page type SAF. -/
def mapSAF : List RegDef := [
  ⟨0x040, 1, 0x4, .rw, 0xFFFF, 0x2FFF, 0, 0⟩, -- SAF_CTL
  ⟨0x044, 1, 0x4, .ro, 0x0, 0x0, 99, 0⟩, -- SAF_STAT
  ⟨0x048, 1, 0x4, .ro, 0x0, 0x0, 99, 0⟩, -- SAF_FAULT_RAW
  ⟨0x04C, 1, 0x4, .ro, 0x0, 0x0, 99, 0⟩, -- SAF_FAULT_LATCH
  ⟨0x050, 1, 0x4, .ro, 0x0, 0x0, 99, 0⟩, -- SAF_FIRST
  ⟨0x054, 1, 0x4, .wo, 0x0, 0x0, 99, 0⟩, -- SAF_CLEAR
  ⟨0x058, 1, 0x4, .wo, 0x0, 0x0, 99, 0⟩, -- SAF_SEAL_SEL
  ⟨0x05C, 1, 0x4, .rw, 0xFFFFFFFF, 0x0, 1, 0⟩, -- SAF_SEAL_EXP
  ⟨0x060, 1, 0x4, .rw, 0xFFFFFFFF, 0x0, 1, 0⟩, -- SAF_SEAL_ALT
  ⟨0x064, 1, 0x4, .ro, 0x0, 0x0, 99, 0⟩, -- SAF_SAFE_CNT
  ⟨0x068, 1, 0x4, .ro, 0x0, 0x0, 99, 0⟩, -- SAF_SEAL_CHK_CNT
  ⟨0x06C, 1, 0x4, .wo, 0x0, 0x0, 99, 0⟩, -- SAF_CLR
  ⟨0x080, 4, 0x4, .rw, 0xFFFFFFFF, 0x0, 1, 0⟩, -- SAF_SEAL_EN
  ⟨0x090, 4, 0x4, .ro, 0x0, 0x0, 99, 0⟩ -- SAF_SEAL_FAIL
  ]

/-- Register map of page type SER. -/
def mapSER : List RegDef := [
  ⟨0x040, 1, 0x4, .rw, 0x3F, 0x0, 0, 0⟩, -- SER_TEST
  ⟨0x044, 1, 0x4, .wo, 0x0, 0x0, 99, 0⟩, -- SER_CLR
  ⟨0x080, 48, 0x4, .ro, 0x0, 0x0, 99, 0⟩, -- SER_LANE_STAT
  ⟨0x140, 48, 0x4, .ro, 0x0, 0x0, 99, 0⟩ -- SER_LANE_ERR
  ]

/-- Register map of page type CPX. -/
def mapCPX : List RegDef := [
  ⟨0x040, 1, 0x4, .ro, 0x0, 0x0, 99, 0⟩, -- CPX_FW_VER
  ⟨0x044, 1, 0x4, .ro, 0x0, 0x0, 99, 0⟩, -- CPX_FW_BUILD
  ⟨0x048, 1, 0x4, .ro, 0x0, 0x0, 99, 0⟩, -- CPX_ROM_VER
  ⟨0x04C, 1, 0x4, .ro, 0x0, 0x0, 99, 0⟩, -- CPX_STAT
  ⟨0x050, 1, 0x4, .ro, 0x0, 0x0, 99, 0⟩, -- CPX_HEARTBEAT
  ⟨0x054, 1, 0x4, .ro, 0x0, 0x0, 99, 0⟩, -- CPX_IMAGE_LEN
  ⟨0x058, 1, 0x4, .ro, 0x0, 0x0, 99, 0⟩, -- CPX_IMAGE_SRC
  ⟨0x05C, 1, 0x4, .wo, 0x0, 0x0, 99, 0⟩, -- CPX_MBOX_CMD
  ⟨0x060, 1, 0x4, .ro, 0x0, 0x0, 99, 0⟩, -- CPX_MBOX_STATUS
  ⟨0x064, 1, 0x4, .ro, 0x0, 0x0, 99, 0⟩, -- CPX_MBOX_RESULT_LO
  ⟨0x068, 1, 0x4, .ro, 0x0, 0x0, 99, 0⟩, -- CPX_MBOX_RESULT_HI
  ⟨0x06C, 1, 0x4, .ro, 0x0, 0x0, 99, 0⟩, -- CPX_FLASH_PCT
  ⟨0x070, 1, 0x4, .ro, 0x0, 0x0, 99, 0⟩, -- CPX_STITCH_CNT
  ⟨0x074, 1, 0x4, .ro, 0x0, 0x0, 99, 0⟩, -- CPX_CMD_DONE_CNT
  ⟨0x078, 1, 0x4, .ro, 0x0, 0x0, 99, 0⟩, -- CPX_STITCH_MAX_US
  ⟨0x07C, 1, 0x4, .wo, 0x0, 0x0, 99, 0⟩, -- CPX_CLR
  ⟨0x080, 8, 0x4, .rw, 0xFFFFFFFF, 0x0, 0, 0⟩, -- CPX_MBOX_ARG
  ⟨0x0A0, 4, 0x4, .ro, 0x0, 0x0, 99, 0⟩ -- CPX_CORE_UTIL
  ]

namespace F

def GLB_STEP_LETTER : Fld := ⟨0x040, 0x4, 15, 8⟩
def GLB_STEP_NUMBER : Fld := ⟨0x040, 0x4, 7, 0⟩
def GLB_STEP : Fld := ⟨0x040, 0x4, 31, 0⟩
def GLB_VARIANT : Fld := ⟨0x044, 0x4, 1, 0⟩
def GLB_UNIT_ID_LO : Fld := ⟨0x048, 0x4, 31, 0⟩
def GLB_UNIT_ID_HI : Fld := ⟨0x04C, 0x4, 31, 0⟩
def GLB_STRAP_ROOT : Fld := ⟨0x050, 0x4, 8, 8⟩
def GLB_STRAP_TWIN_SEL : Fld := ⟨0x050, 0x4, 7, 7⟩
def GLB_STRAP_ADDR_HINT : Fld := ⟨0x050, 0x4, 5, 0⟩
def GLB_STRAP : Fld := ⟨0x050, 0x4, 31, 0⟩
def GLB_BOOT_STAT_STEP : Fld := ⟨0x054, 0x4, 31, 28⟩
def GLB_BOOT_STAT_IMAGE_SRC : Fld := ⟨0x054, 0x4, 27, 26⟩
def GLB_BOOT_STAT_CFG_BAD : Fld := ⟨0x054, 0x4, 8, 8⟩
def GLB_BOOT_STAT_CAL_FAIL : Fld := ⟨0x054, 0x4, 6, 6⟩
def GLB_BOOT_STAT_DM_UNREPAIRED : Fld := ⟨0x054, 0x4, 5, 5⟩
def GLB_BOOT_STAT_SCR_UNREPAIRED : Fld := ⟨0x054, 0x4, 4, 4⟩
def GLB_BOOT_STAT_CLOCK_FAIL : Fld := ⟨0x054, 0x4, 3, 3⟩
def GLB_BOOT_STAT_AUTH_FAIL_FLASH : Fld := ⟨0x054, 0x4, 2, 2⟩
def GLB_BOOT_STAT_NO_FLASH : Fld := ⟨0x054, 0x4, 1, 1⟩
def GLB_BOOT_STAT : Fld := ⟨0x054, 0x4, 31, 0⟩
def GLB_BOOT_CFG_REF_FREQ : Fld := ⟨0x058, 0x4, 26, 24⟩
def GLB_BOOT_CFG_HOST_MODE : Fld := ⟨0x058, 0x4, 21, 20⟩
def GLB_BOOT_CFG_CAS_EXPECT : Fld := ⟨0x058, 0x4, 14, 8⟩
def GLB_BOOT_CFG_TWN_MODE : Fld := ⟨0x058, 0x4, 1, 1⟩
def GLB_BOOT_CFG_TWN_EN : Fld := ⟨0x058, 0x4, 0, 0⟩
def GLB_BOOT_CFG : Fld := ⟨0x058, 0x4, 31, 0⟩
def GLB_IMAGE_OFS : Fld := ⟨0x05C, 0x4, 31, 0⟩
def GLB_FLASH_ID : Fld := ⟨0x060, 0x4, 23, 0⟩
def GLB_FLASH_MODE_LINES : Fld := ⟨0x064, 0x4, 9, 8⟩
def GLB_FLASH_MODE_MHZ : Fld := ⟨0x064, 0x4, 7, 0⟩
def GLB_FLASH_MODE : Fld := ⟨0x064, 0x4, 31, 0⟩
def GLB_REPAIR_SUM_DM : Fld := ⟨0x068, 0x4, 31, 16⟩
def GLB_REPAIR_SUM_SCR : Fld := ⟨0x068, 0x4, 15, 0⟩
def GLB_REPAIR_SUM : Fld := ⟨0x068, 0x4, 31, 0⟩
def GLB_CTL_HOST_STOP : Fld := ⟨0x06C, 0x4, 0, 0⟩
def GLB_CTL : Fld := ⟨0x06C, 0x4, 31, 0⟩
def GLB_RESET : Fld := ⟨0x070, 0x4, 31, 0⟩
def GLB_PCIE_RST_CNT : Fld := ⟨0x074, 0x4, 31, 0⟩
def GLB_CLR : Fld := ⟨0x078, 0x4, 0, 0⟩
def GLB_STEP_US : Fld := ⟨0x080, 0x4, 31, 0⟩
def GLB_SCRATCHPAD : Fld := ⟨0x0C0, 0x4, 31, 0⟩
def PWR_SAG_CFG_EN : Fld := ⟨0x040, 0x4, 31, 31⟩
def PWR_SAG_CFG_STRETCH : Fld := ⟨0x040, 0x4, 25, 24⟩
def PWR_SAG_CFG_LVL : Fld := ⟨0x040, 0x4, 23, 16⟩
def PWR_SAG_CFG_HOLD_US : Fld := ⟨0x040, 0x4, 15, 0⟩
def PWR_SAG_CFG : Fld := ⟨0x040, 0x4, 31, 0⟩
def PWR_VIN_CFG_VIN_SAG : Fld := ⟨0x044, 0x4, 15, 0⟩
def PWR_VIN_CFG : Fld := ⟨0x044, 0x4, 31, 0⟩
def PWR_CAP_CFG_CAP_EN : Fld := ⟨0x048, 0x4, 31, 31⟩
def PWR_CAP_CFG_HYST_W : Fld := ⟨0x048, 0x4, 27, 24⟩
def PWR_CAP_CFG_WIN_MS : Fld := ⟨0x048, 0x4, 23, 16⟩
def PWR_CAP_CFG_CAP_W : Fld := ⟨0x048, 0x4, 8, 0⟩
def PWR_CAP_CFG : Fld := ⟨0x048, 0x4, 31, 0⟩
def PWR_THERM_CFG_LID_TRIP : Fld := ⟨0x04C, 0x4, 31, 24⟩
def PWR_THERM_CFG_TJ_TRIP : Fld := ⟨0x04C, 0x4, 23, 16⟩
def PWR_THERM_CFG_THROT_TJ : Fld := ⟨0x04C, 0x4, 15, 8⟩
def PWR_THERM_CFG : Fld := ⟨0x04C, 0x4, 31, 0⟩
def PWR_STAT_SAG : Fld := ⟨0x050, 0x4, 31, 31⟩
def PWR_STAT_VIN_LOW : Fld := ⟨0x050, 0x4, 30, 30⟩
def PWR_STAT_CAP_ACTIVE : Fld := ⟨0x050, 0x4, 29, 29⟩
def PWR_STAT_CAP_UNMET : Fld := ⟨0x050, 0x4, 28, 28⟩
def PWR_STAT_THROT : Fld := ⟨0x050, 0x4, 27, 27⟩
def PWR_STAT_STRETCH : Fld := ⟨0x050, 0x4, 26, 24⟩
def PWR_STAT_RAIL_BAD : Fld := ⟨0x050, 0x4, 13, 8⟩
def PWR_STAT : Fld := ⟨0x050, 0x4, 31, 0⟩
def PWR_VIN : Fld := ⟨0x054, 0x4, 15, 0⟩
def PWR_IIN : Fld := ⟨0x058, 0x4, 15, 0⟩
def PWR_PIN : Fld := ⟨0x05C, 0x4, 15, 0⟩
def PWR_PIN_AVG : Fld := ⟨0x060, 0x4, 15, 0⟩
def PWR_LID_T : Fld := ⟨0x064, 0x4, 15, 0⟩
def PWR_TJ_MAX : Fld := ⟨0x068, 0x4, 15, 0⟩
def PWR_TJ : Fld := ⟨0x080, 0x4, 15, 0⟩
def PWR_RAIL_MV : Fld := ⟨0x0A0, 0x4, 15, 0⟩
def PWR_RAIL_MA : Fld := ⟨0x0C0, 0x4, 15, 0⟩
def PWR_SAG_CNT : Fld := ⟨0x0E0, 0x4, 31, 0⟩
def PWR_STRETCH_TIME : Fld := ⟨0x0E4, 0x4, 31, 0⟩
def PWR_CAP_RAISE_CNT : Fld := ⟨0x0E8, 0x4, 31, 0⟩
def PWR_THROT_CNT : Fld := ⟨0x0EC, 0x4, 31, 0⟩
def PWR_VIN_LOW_CNT : Fld := ⟨0x0F0, 0x4, 31, 0⟩
def PWR_CLR : Fld := ⟨0x0F4, 0x4, 0, 0⟩
def CKS_REF_CFG_REF_MUL : Fld := ⟨0x040, 0x4, 5, 4⟩
def CKS_REF_CFG_REF_FREQ : Fld := ⟨0x040, 0x4, 2, 0⟩
def CKS_REF_CFG : Fld := ⟨0x040, 0x4, 31, 0⟩
def CKS_DIV_REF_R : Fld := ⟨0x044, 0x4, 9, 0⟩
def CKS_DIV_REF : Fld := ⟨0x044, 0x4, 31, 0⟩
def CKS_DIV_FB_N : Fld := ⟨0x048, 0x4, 11, 0⟩
def CKS_DIV_FB : Fld := ⟨0x048, 0x4, 31, 0⟩
def CKS_LOCK_CFG_LOSS_PPM : Fld := ⟨0x04C, 0x4, 19, 8⟩
def CKS_LOCK_CFG_WIN_EXP : Fld := ⟨0x04C, 0x4, 4, 0⟩
def CKS_LOCK_CFG : Fld := ⟨0x04C, 0x4, 31, 0⟩
def CKS_BAND_CFG_AUTO_RELOCK : Fld := ⟨0x050, 0x4, 8, 8⟩
def CKS_BAND_CFG_BAND_MODE : Fld := ⟨0x050, 0x4, 0, 0⟩
def CKS_BAND_CFG : Fld := ⟨0x050, 0x4, 31, 0⟩
def CKS_RELOCK_CLR_CNT : Fld := ⟨0x054, 0x4, 1, 1⟩
def CKS_RELOCK_RELOCK : Fld := ⟨0x054, 0x4, 0, 0⟩
def CKS_RELOCK : Fld := ⟨0x054, 0x4, 31, 0⟩
def CKS_LOCK_STAT_LOCKED : Fld := ⟨0x058, 0x4, 31, 31⟩
def CKS_LOCK_STAT_ON_BYPASS : Fld := ⟨0x058, 0x4, 30, 30⟩
def CKS_LOCK_STAT_REF_PRESENT : Fld := ⟨0x058, 0x4, 29, 29⟩
def CKS_LOCK_STAT_REF_MISMATCH : Fld := ⟨0x058, 0x4, 28, 28⟩
def CKS_LOCK_STAT_DLG_LOCK : Fld := ⟨0x058, 0x4, 23, 16⟩
def CKS_LOCK_STAT_PASS_RUN : Fld := ⟨0x058, 0x4, 2, 0⟩
def CKS_LOCK_STAT : Fld := ⟨0x058, 0x4, 31, 0⟩
def CKS_BAND_STAT_FROM_TABLE : Fld := ⟨0x05C, 0x4, 31, 31⟩
def CKS_BAND_STAT_ENTRY : Fld := ⟨0x05C, 0x4, 23, 20⟩
def CKS_BAND_STAT_BAND : Fld := ⟨0x05C, 0x4, 4, 0⟩
def CKS_BAND_STAT : Fld := ⟨0x05C, 0x4, 31, 0⟩
def CKS_CNT_EXP : Fld := ⟨0x060, 0x4, 31, 0⟩
def CKS_CNT_LAST : Fld := ⟨0x064, 0x4, 31, 0⟩
def CKS_VCO_KHZ : Fld := ⟨0x068, 0x4, 31, 0⟩
def CKS_TUNE : Fld := ⟨0x06C, 0x4, 11, 0⟩
def CKS_RELOCK_CNT : Fld := ⟨0x070, 0x4, 31, 0⟩
def CKS_LOSS_CNT : Fld := ⟨0x074, 0x4, 31, 0⟩
def CKS_SEARCH_FAIL_CNT : Fld := ⟨0x078, 0x4, 31, 0⟩
def CKS_LOSS_CAUSE_SLIP : Fld := ⟨0x07C, 0x4, 2, 2⟩
def CKS_LOSS_CAUSE_FREQ_DEV : Fld := ⟨0x07C, 0x4, 1, 1⟩
def CKS_LOSS_CAUSE_REF_ABSENT : Fld := ⟨0x07C, 0x4, 0, 0⟩
def CKS_LOSS_CAUSE : Fld := ⟨0x07C, 0x4, 31, 0⟩
def CKS_SEARCH_STEP_BAND : Fld := ⟨0x080, 0x4, 28, 24⟩
def CKS_SEARCH_STEP_COUNT : Fld := ⟨0x080, 0x4, 23, 0⟩
def CKS_SEARCH_STEP : Fld := ⟨0x080, 0x4, 31, 0⟩
def CKS_BAND_TAB_VALID : Fld := ⟨0x0A0, 0x4, 31, 31⟩
def CKS_BAND_TAB_BAND : Fld := ⟨0x0A0, 0x4, 28, 24⟩
def CKS_BAND_TAB_TEMP_MAX : Fld := ⟨0x0A0, 0x4, 15, 8⟩
def CKS_BAND_TAB_TEMP_MIN : Fld := ⟨0x0A0, 0x4, 7, 0⟩
def CKS_BAND_TAB : Fld := ⟨0x0A0, 0x4, 31, 0⟩
def CKS_DLG_TRIM_TRIM : Fld := ⟨0x0E0, 0x4, 9, 0⟩
def CKS_DLG_TRIM : Fld := ⟨0x0E0, 0x4, 31, 0⟩
def CKO_CFG_ENABLE : Fld := ⟨0x040, 0x4, 31, 31⟩
def CKO_CFG_POLICY : Fld := ⟨0x040, 0x4, 29, 28⟩
def CKO_CFG_SOURCE : Fld := ⟨0x040, 0x4, 26, 24⟩
def CKO_CFG_FORMAT : Fld := ⟨0x040, 0x4, 21, 20⟩
def CKO_CFG : Fld := ⟨0x040, 0x4, 31, 0⟩
def CKO_DIV : Fld := ⟨0x060, 0x4, 10, 0⟩
def CKO_LEVEL : Fld := ⟨0x080, 0x4, 1, 0⟩
def CKO_DELAY : Fld := ⟨0x0A0, 0x4, 8, 0⟩
def CKO_OSTAT_MODE : Fld := ⟨0x0C0, 0x4, 31, 30⟩
def CKO_OSTAT_DL_LOCKED : Fld := ⟨0x0C0, 0x4, 29, 29⟩
def CKO_OSTAT_MEAS_KHZ : Fld := ⟨0x0C0, 0x4, 21, 0⟩
def CKO_OSTAT : Fld := ⟨0x0C0, 0x4, 31, 0⟩
def LTL_SRC_CFG_SRC : Fld := ⟨0x040, 0x4, 31, 29⟩
def LTL_SRC_CFG_SLOPE : Fld := ⟨0x040, 0x4, 28, 27⟩
def LTL_SRC_CFG_CH_A : Fld := ⟨0x040, 0x4, 23, 16⟩
def LTL_SRC_CFG_CH_B : Fld := ⟨0x040, 0x4, 15, 8⟩
def LTL_SRC_CFG_CH_Z : Fld := ⟨0x040, 0x4, 7, 0⟩
def LTL_SRC_CFG : Fld := ⟨0x040, 0x4, 31, 0⟩
def LTL_ENC_CFG_Z_EN : Fld := ⟨0x044, 0x4, 31, 31⟩
def LTL_ENC_CFG_ALIGN_Z : Fld := ⟨0x044, 0x4, 30, 30⟩
def LTL_ENC_CFG_DIR_INV : Fld := ⟨0x044, 0x4, 29, 29⟩
def LTL_ENC_CFG_Z_EVERY : Fld := ⟨0x044, 0x4, 23, 20⟩
def LTL_ENC_CFG_COUNTS_PER_CYCLE : Fld := ⟨0x044, 0x4, 19, 0⟩
def LTL_ENC_CFG : Fld := ⟨0x044, 0x4, 31, 0⟩
def LTL_ENC_Z_UPDATE_EXP : Fld := ⟨0x048, 0x4, 28, 24⟩
def LTL_ENC_Z_Z_PIP : Fld := ⟨0x048, 0x4, 23, 0⟩
def LTL_ENC_Z : Fld := ⟨0x048, 0x4, 31, 0⟩
def LTL_CROSS_CFG_FILT_SHIFT : Fld := ⟨0x04C, 0x4, 31, 28⟩
def LTL_CROSS_CFG_HYST : Fld := ⟨0x04C, 0x4, 27, 18⟩
def LTL_CROSS_CFG_CROSS_LEVEL : Fld := ⟨0x04C, 0x4, 17, 0⟩
def LTL_CROSS_CFG : Fld := ⟨0x04C, 0x4, 31, 0⟩
def LTL_REF_PIP : Fld := ⟨0x050, 0x4, 23, 0⟩
def LTL_FMIN : Fld := ⟨0x054, 0x4, 31, 0⟩
def LTL_FMAX : Fld := ⟨0x058, 0x4, 31, 0⟩
def LTL_GAIN_DEV_CAP : Fld := ⟨0x05C, 0x4, 20, 16⟩
def LTL_GAIN_KI_SHIFT : Fld := ⟨0x05C, 0x4, 12, 8⟩
def LTL_GAIN_KP_SHIFT : Fld := ⟨0x05C, 0x4, 4, 0⟩
def LTL_GAIN : Fld := ⟨0x05C, 0x4, 31, 0⟩
def LTL_LOCK_CFG_LOCK_COUNT : Fld := ⟨0x060, 0x4, 31, 28⟩
def LTL_LOCK_CFG_LOCK_TOL : Fld := ⟨0x060, 0x4, 23, 0⟩
def LTL_LOCK_CFG : Fld := ⟨0x060, 0x4, 31, 0⟩
def LTL_VALID_CFG_WIN_PCT : Fld := ⟨0x064, 0x4, 5, 0⟩
def LTL_VALID_CFG : Fld := ⟨0x064, 0x4, 31, 0⟩
def LTL_JUMP_CFG_POLICY : Fld := ⟨0x068, 0x4, 31, 31⟩
def LTL_JUMP_CFG_CATCHUP : Fld := ⟨0x068, 0x4, 30, 30⟩
def LTL_JUMP_CFG_SLEW_LIMIT : Fld := ⟨0x068, 0x4, 23, 0⟩
def LTL_JUMP_CFG : Fld := ⟨0x068, 0x4, 31, 0⟩
def LTL_COAST_CFG_LOSS_EIGHTHS : Fld := ⟨0x06C, 0x4, 31, 24⟩
def LTL_COAST_CFG_COAST_LONG : Fld := ⟨0x06C, 0x4, 15, 0⟩
def LTL_COAST_CFG : Fld := ⟨0x06C, 0x4, 31, 0⟩
def LTL_NOM_CFG_NOM_HZ : Fld := ⟨0x070, 0x4, 9, 0⟩
def LTL_NOM_CFG : Fld := ⟨0x070, 0x4, 31, 0⟩
def LTL_PLAUS_CFG_PLAUS_EN : Fld := ⟨0x074, 0x4, 31, 31⟩
def LTL_PLAUS_CFG_PSRC : Fld := ⟨0x074, 0x4, 30, 28⟩
def LTL_PLAUS_CFG_RATIO : Fld := ⟨0x074, 0x4, 23, 8⟩
def LTL_PLAUS_CFG_TOL : Fld := ⟨0x074, 0x4, 7, 0⟩
def LTL_PLAUS_CFG : Fld := ⟨0x074, 0x4, 31, 0⟩
def LTL_MAP_CFG_MAP_EN : Fld := ⟨0x078, 0x4, 31, 31⟩
def LTL_MAP_CFG_MAP_EXP : Fld := ⟨0x078, 0x4, 4, 0⟩
def LTL_MAP_CFG : Fld := ⟨0x078, 0x4, 31, 0⟩
def LTL_STAT_RAN : Fld := ⟨0x080, 0x4, 9, 9⟩
def LTL_STAT_COASTING : Fld := ⟨0x080, 0x4, 8, 8⟩
def LTL_STAT_EVER_LOCKED : Fld := ⟨0x080, 0x4, 7, 7⟩
def LTL_STAT_COAST_LONG : Fld := ⟨0x080, 0x4, 6, 6⟩
def LTL_STAT_REVERSE : Fld := ⟨0x080, 0x4, 5, 5⟩
def LTL_STAT_PLAUS_FAIL : Fld := ⟨0x080, 0x4, 4, 4⟩
def LTL_STAT_LOCKED : Fld := ⟨0x080, 0x4, 3, 3⟩
def LTL_STAT_PASS_RUN : Fld := ⟨0x080, 0x4, 2, 0⟩
def LTL_STAT : Fld := ⟨0x080, 0x4, 31, 0⟩
def LTL_ANGLE_LO : Fld := ⟨0x084, 0x4, 31, 0⟩
def LTL_ANGLE_HI : Fld := ⟨0x088, 0x4, 31, 0⟩
def LTL_FREQ_LO : Fld := ⟨0x08C, 0x4, 31, 0⟩
def LTL_FREQ_HI : Fld := ⟨0x090, 0x4, 15, 0⟩
def LTL_FINT_LO : Fld := ⟨0x094, 0x4, 31, 0⟩
def LTL_FINT_HI : Fld := ⟨0x098, 0x4, 15, 0⟩
def LTL_PHASE_ERR : Fld := ⟨0x09C, 0x4, 23, 0⟩
def LTL_LAST_DELTA : Fld := ⟨0x0A0, 0x4, 23, 0⟩
def LTL_COAST_CYC : Fld := ⟨0x0A4, 0x4, 31, 0⟩
def LTL_HOLD_PIPS : Fld := ⟨0x0A8, 0x4, 23, 0⟩
def LTL_LOCK_CNT : Fld := ⟨0x0B0, 0x4, 31, 0⟩
def LTL_LOSS_CNT : Fld := ⟨0x0B4, 0x4, 31, 0⟩
def LTL_JUMP_CNT : Fld := ⟨0x0B8, 0x4, 31, 0⟩
def LTL_HOLD_CNT : Fld := ⟨0x0BC, 0x4, 31, 0⟩
def LTL_REJECT_CNT : Fld := ⟨0x0C0, 0x4, 31, 0⟩
def LTL_ZERR_CNT : Fld := ⟨0x0C4, 0x4, 31, 0⟩
def LTL_CLR : Fld := ⟨0x0C8, 0x4, 0, 0⟩
def ANG_CTL_LATE_MARK : Fld := ⟨0x040, 0x4, 3, 0⟩
def ANG_CTL : Fld := ⟨0x040, 0x4, 31, 0⟩
def ANG_LATE_CNT : Fld := ⟨0x050, 0x4, 31, 0⟩
def ANG_SKIP_CNT : Fld := ⟨0x060, 0x4, 31, 0⟩
def ANG_CLR : Fld := ⟨0x070, 0x4, 0, 0⟩
def ANG_EVT_CFG_EN : Fld := ⟨0x100, 0x4, 31, 31⟩
def ANG_EVT_CFG_LOOP : Fld := ⟨0x100, 0x4, 30, 29⟩
def ANG_EVT_CFG_KIND : Fld := ⟨0x100, 0x4, 28, 27⟩
def ANG_EVT_CFG_COUNT : Fld := ⟨0x100, 0x4, 23, 12⟩
def ANG_EVT_CFG : Fld := ⟨0x100, 0x4, 31, 0⟩
def ANG_EVT_PIP_PIP : Fld := ⟨0x200, 0x4, 23, 0⟩
def ANG_EVT_PIP : Fld := ⟨0x200, 0x4, 31, 0⟩
def TIME_CTL_SOURCE : Fld := ⟨0x040, 0x4, 31, 30⟩
def TIME_CTL_PROFILE : Fld := ⟨0x040, 0x4, 29, 29⟩
def TIME_CTL_PTP_PORT : Fld := ⟨0x040, 0x4, 26, 24⟩
def TIME_CTL_DOMAIN : Fld := ⟨0x040, 0x4, 23, 16⟩
def TIME_CTL_SLEW_S : Fld := ⟨0x040, 0x4, 15, 8⟩
def TIME_CTL_STEP_NS : Fld := ⟨0x040, 0x4, 7, 0⟩
def TIME_CTL : Fld := ⟨0x040, 0x4, 31, 0⟩
def TIME_NOW_LO : Fld := ⟨0x044, 0x4, 31, 0⟩
def TIME_NOW_HI : Fld := ⟨0x048, 0x4, 15, 0⟩
def TIME_SET_SEC_LO : Fld := ⟨0x04C, 0x4, 31, 0⟩
def TIME_SET_SEC_HI : Fld := ⟨0x050, 0x4, 15, 0⟩
def TIME_ALIGN_OFS_LO : Fld := ⟨0x054, 0x4, 31, 0⟩
def TIME_ALIGN_OFS_HI : Fld := ⟨0x058, 0x4, 15, 0⟩
def TIME_STAT_HOLDOVER : Fld := ⟨0x05C, 0x4, 1, 1⟩
def TIME_STAT_LOCKED : Fld := ⟨0x05C, 0x4, 0, 0⟩
def TIME_STAT : Fld := ⟨0x05C, 0x4, 31, 0⟩
def TIME_OFFSET : Fld := ⟨0x060, 0x4, 31, 0⟩
def TIME_UTC_OFS : Fld := ⟨0x064, 0x4, 15, 0⟩
def TIME_STEP_CNT : Fld := ⟨0x068, 0x4, 31, 0⟩
def TIME_PPS_REJ_CNT : Fld := ⟨0x06C, 0x4, 31, 0⟩
def TIME_CLR : Fld := ⟨0x070, 0x4, 0, 0⟩
def TIME_MAP : Fld := ⟨0x080, 0x4, 31, 0⟩
def DIG_MODE_RATE_K : Fld := ⟨0x040, 0x4, 12, 8⟩
def DIG_MODE_FORM : Fld := ⟨0x040, 0x4, 4, 4⟩
def DIG_MODE_MODE : Fld := ⟨0x040, 0x4, 1, 0⟩
def DIG_MODE : Fld := ⟨0x040, 0x4, 31, 0⟩
def DIG_STATE_CFG_TIMEOUT : Fld := ⟨0x044, 0x4, 31, 24⟩
def DIG_STATE_CFG_CLK_GROUP : Fld := ⟨0x044, 0x4, 18, 16⟩
def DIG_STATE_CFG_EDGE : Fld := ⟨0x044, 0x4, 13, 12⟩
def DIG_STATE_CFG_OFS : Fld := ⟨0x044, 0x4, 3, 0⟩
def DIG_STATE_CFG : Fld := ⟨0x044, 0x4, 31, 0⟩
def DIG_TRNS_MASK : Fld := ⟨0x048, 0x4, 31, 0⟩
def DIG_OVR_CFG_MARK_EN : Fld := ⟨0x04C, 0x4, 0, 0⟩
def DIG_OVR_CFG : Fld := ⟨0x04C, 0x4, 31, 0⟩
def DIG_BCAST_MASK : Fld := ⟨0x050, 0x4, 31, 0⟩
def DIG_BCAST_THR : Fld := ⟨0x054, 0x4, 27, 16⟩
def DIG_BCAST_HYST : Fld := ⟨0x054, 0x4, 1, 0⟩
def DIG_BCAST : Fld := ⟨0x054, 0x4, 31, 0⟩
def DIG_STAT_STATE_CLK : Fld := ⟨0x058, 0x4, 2, 2⟩
def DIG_STAT_WINDOW : Fld := ⟨0x058, 0x4, 1, 1⟩
def DIG_STAT_OVR : Fld := ⟨0x058, 0x4, 0, 0⟩
def DIG_STAT : Fld := ⟨0x058, 0x4, 31, 0⟩
def DIG_LEVEL : Fld := ⟨0x05C, 0x4, 31, 0⟩
def DIG_OVR_MASK : Fld := ⟨0x060, 0x4, 31, 0⟩
def DIG_OVR_WIN_CNT : Fld := ⟨0x064, 0x4, 31, 0⟩
def DIG_STATE_REJ_CNT : Fld := ⟨0x068, 0x4, 31, 0⟩
def DIG_STATE_EDGE_CNT : Fld := ⟨0x06C, 0x4, 31, 0⟩
def DIG_CLR : Fld := ⟨0x070, 0x4, 0, 0⟩
def DIG_OVR_FIRST : Fld := ⟨0x074, 0x4, 4, 0⟩
def DIG_CHAN_BASE : Fld := ⟨0x078, 0x4, 7, 0⟩
def DIG_THR_THR : Fld := ⟨0x080, 0x4, 11, 0⟩
def DIG_THR : Fld := ⟨0x080, 0x4, 31, 0⟩
def DIG_CH_CFG_EN : Fld := ⟨0x100, 0x4, 31, 31⟩
def DIG_CH_CFG_INVERT : Fld := ⟨0x100, 0x4, 30, 30⟩
def DIG_CH_CFG_HYST : Fld := ⟨0x100, 0x4, 1, 0⟩
def DIG_CH_CFG : Fld := ⟨0x100, 0x4, 31, 0⟩
def DIG_DESKEW_DESKEW : Fld := ⟨0x180, 0x4, 11, 0⟩
def DIG_DESKEW : Fld := ⟨0x180, 0x4, 31, 0⟩
def DIG_CH_STAT_OVR_HI : Fld := ⟨0x200, 0x4, 3, 3⟩
def DIG_CH_STAT_OVR_LO : Fld := ⟨0x200, 0x4, 2, 2⟩
def DIG_CH_STAT_LEVEL : Fld := ⟨0x200, 0x4, 1, 1⟩
def DIG_CH_STAT_ACTIVE : Fld := ⟨0x200, 0x4, 0, 0⟩
def DIG_CH_STAT : Fld := ⟨0x200, 0x4, 31, 0⟩
def DIG_OVR_CNT : Fld := ⟨0x280, 0x4, 31, 0⟩
def DIG_EDGE_CNT : Fld := ⟨0x300, 0x4, 31, 0⟩
def STP_CTL_STREAM_EN : Fld := ⟨0x040, 0x4, 31, 31⟩
def STP_CTL_DROP_MARK : Fld := ⟨0x040, 0x4, 30, 30⟩
def STP_CTL_CAL_PERIOD : Fld := ⟨0x040, 0x4, 15, 8⟩
def STP_CTL_WIN_EXP : Fld := ⟨0x040, 0x4, 3, 0⟩
def STP_CTL : Fld := ⟨0x040, 0x4, 31, 0⟩
def STP_SLOPE_LO : Fld := ⟨0x044, 0x4, 31, 0⟩
def STP_SLOPE_HI : Fld := ⟨0x048, 0x4, 31, 0⟩
def STP_STAT_CAL_BUSY : Fld := ⟨0x04C, 0x4, 2, 2⟩
def STP_STAT_BUF_HIGH : Fld := ⟨0x04C, 0x4, 1, 1⟩
def STP_STAT_DROPPING : Fld := ⟨0x04C, 0x4, 0, 0⟩
def STP_STAT : Fld := ⟨0x04C, 0x4, 31, 0⟩
def STP_DROP_MASK : Fld := ⟨0x050, 0x4, 31, 0⟩
def STP_DROPPING : Fld := ⟨0x054, 0x4, 31, 0⟩
def STP_DROP_CNT : Fld := ⟨0x058, 0x4, 31, 0⟩
def STP_MERGE_CNT : Fld := ⟨0x05C, 0x4, 31, 0⟩
def STP_STAMP_CNT_LO : Fld := ⟨0x060, 0x4, 31, 0⟩
def STP_STAMP_CNT_HI : Fld := ⟨0x064, 0x4, 31, 0⟩
def STP_BUF_LEVEL : Fld := ⟨0x068, 0x4, 17, 0⟩
def STP_CLR : Fld := ⟨0x06C, 0x4, 0, 0⟩
def STP_IP_SNAP_IP0 : Fld := ⟨0x070, 0x4, 0, 0⟩
def STP_IP_SNAP_IP1 : Fld := ⟨0x070, 0x4, 1, 1⟩
def STP_IP_SNAP_SNAP_CLR : Fld := ⟨0x070, 0x4, 2, 2⟩
def STP_IP_SNAP : Fld := ⟨0x070, 0x4, 31, 0⟩
def IP_CFG_EN : Fld := ⟨0x080, 0x60, 31, 31⟩
def IP_CFG_MODE : Fld := ⟨0x080, 0x60, 30, 30⟩
def IP_CFG_HEM_EN : Fld := ⟨0x080, 0x60, 29, 29⟩
def IP_CFG_START_SLOPE : Fld := ⟨0x080, 0x60, 27, 27⟩
def IP_CFG_STOP_SLOPE : Fld := ⟨0x080, 0x60, 26, 26⟩
def IP_CFG_START_CH : Fld := ⟨0x080, 0x60, 23, 16⟩
def IP_CFG_STOP_CH : Fld := ⟨0x080, 0x60, 15, 8⟩
def IP_CFG : Fld := ⟨0x080, 0x60, 31, 0⟩
def IP_SPAN : Fld := ⟨0x084, 0x60, 31, 0⟩
def IP_LAST_LO : Fld := ⟨0x088, 0x60, 31, 0⟩
def IP_LAST_HI : Fld := ⟨0x08C, 0x60, 31, 0⟩
def IP_CNT : Fld := ⟨0x090, 0x60, 31, 0⟩
def IP_MIN_LO : Fld := ⟨0x094, 0x60, 31, 0⟩
def IP_MIN_HI : Fld := ⟨0x098, 0x60, 31, 0⟩
def IP_MAX_LO : Fld := ⟨0x09C, 0x60, 31, 0⟩
def IP_MAX_HI : Fld := ⟨0x0A0, 0x60, 31, 0⟩
def IP_SUM_LO : Fld := ⟨0x0A4, 0x60, 31, 0⟩
def IP_SUM_HI : Fld := ⟨0x0A8, 0x60, 31, 0⟩
def IP_SUMSQ0 : Fld := ⟨0x0AC, 0x60, 31, 0⟩
def IP_SUMSQ1 : Fld := ⟨0x0B0, 0x60, 31, 0⟩
def IP_SUMSQ2 : Fld := ⟨0x0B4, 0x60, 31, 0⟩
def IP_ORDER_SKIP_CNT : Fld := ⟨0x0B8, 0x60, 31, 0⟩
def IP_TIE_CNT : Fld := ⟨0x0BC, 0x60, 31, 0⟩
def IP_UNPAIRED_CNT : Fld := ⟨0x0C0, 0x60, 31, 0⟩
def IP_STAT_OVFL : Fld := ⟨0x0C4, 0x60, 1, 1⟩
def IP_STAT_ARMED : Fld := ⟨0x0C4, 0x60, 0, 0⟩
def IP_STAT : Fld := ⟨0x0C4, 0x60, 31, 0⟩
def FRQ_CTL_MIN_STAMPS : Fld := ⟨0x040, 0x4, 3, 0⟩
def FRQ_CTL : Fld := ⟨0x040, 0x4, 31, 0⟩
def FRQ_SNAP_SEL : Fld := ⟨0x044, 0x4, 4, 0⟩
def FRQ_NEW : Fld := ⟨0x048, 0x4, 31, 0⟩
def FRQ_VALID : Fld := ⟨0x04C, 0x4, 31, 0⟩
def FRQ_CLR : Fld := ⟨0x050, 0x4, 0, 0⟩
def FRQ_INVALID_CNT : Fld := ⟨0x054, 0x4, 31, 0⟩
def FRQ_RES_UNIT : Fld := ⟨0x060, 0x4, 4, 0⟩
def FRQ_RES_END_LO : Fld := ⟨0x064, 0x4, 31, 0⟩
def FRQ_RES_END_HI : Fld := ⟨0x068, 0x4, 15, 0⟩
def FRQ_RES_N_LO : Fld := ⟨0x06C, 0x4, 31, 0⟩
def FRQ_RES_N_HI : Fld := ⟨0x070, 0x4, 7, 0⟩
def FRQ_RES_PERIOD_LO : Fld := ⟨0x074, 0x4, 31, 0⟩
def FRQ_RES_PERIOD_HI : Fld := ⟨0x078, 0x4, 31, 0⟩
def FRQ_RES_FREQ_LO : Fld := ⟨0x07C, 0x4, 31, 0⟩
def FRQ_RES_FREQ_HI : Fld := ⟨0x080, 0x4, 31, 0⟩
def FRQ_RES_ANCHOR_LO : Fld := ⟨0x084, 0x4, 31, 0⟩
def FRQ_RES_ANCHOR_HI : Fld := ⟨0x088, 0x4, 31, 0⟩
def FRQ_RES_FLAGS : Fld := ⟨0x08C, 0x4, 7, 0⟩
def FU_CFG_EN : Fld := ⟨0x100, 0x4, 31, 31⟩
def FU_CFG_REC_EN : Fld := ⟨0x100, 0x4, 30, 30⟩
def FU_CFG_ALIGN : Fld := ⟨0x100, 0x4, 29, 29⟩
def FU_CFG_SLOPE : Fld := ⟨0x100, 0x4, 28, 28⟩
def FU_CFG_HEM_EN : Fld := ⟨0x100, 0x4, 27, 27⟩
def FU_CFG_CHANNEL : Fld := ⟨0x100, 0x4, 24, 17⟩
def FU_CFG_EPC : Fld := ⟨0x100, 0x4, 16, 0⟩
def FU_CFG : Fld := ⟨0x100, 0x4, 31, 0⟩
def FU_GATE : Fld := ⟨0x180, 0x4, 31, 0⟩
def ADC_CTL_INJ_MASK : Fld := ⟨0x040, 0x4, 15, 0⟩
def ADC_CTL : Fld := ⟨0x040, 0x4, 31, 0⟩
def ADC_STAT_AWAKE : Fld := ⟨0x044, 0x4, 31, 16⟩
def ADC_STAT_BUSY : Fld := ⟨0x044, 0x4, 15, 0⟩
def ADC_STAT : Fld := ⟨0x044, 0x4, 31, 0⟩
def ADC_OVR_DISTURBED : Fld := ⟨0x048, 0x4, 31, 16⟩
def ADC_OVR_CLIPPED : Fld := ⟨0x048, 0x4, 15, 0⟩
def ADC_OVR : Fld := ⟨0x048, 0x4, 31, 0⟩
def ADC_CAL_STAT_BUSY : Fld := ⟨0x04C, 0x4, 31, 31⟩
def ADC_CAL_STAT_QUAD : Fld := ⟨0x04C, 0x4, 27, 24⟩
def ADC_CAL_STAT_DONE : Fld := ⟨0x04C, 0x4, 19, 16⟩
def ADC_CAL_STAT_FAIL : Fld := ⟨0x04C, 0x4, 15, 0⟩
def ADC_CAL_STAT : Fld := ⟨0x04C, 0x4, 31, 0⟩
def ADC_INJ_LAST_CAUSE : Fld := ⟨0x050, 0x4, 6, 4⟩
def ADC_INJ_LAST_CONV : Fld := ⟨0x050, 0x4, 3, 0⟩
def ADC_INJ_LAST : Fld := ⟨0x050, 0x4, 31, 0⟩
def ADC_CLR : Fld := ⟨0x054, 0x4, 0, 0⟩
def ADC_WAKE_WAKE_NS : Fld := ⟨0x060, 0x4, 13, 0⟩
def ADC_WAKE : Fld := ⟨0x060, 0x4, 31, 0⟩
def ADC_INJ_CAUSE_CNT : Fld := ⟨0x070, 0x4, 31, 0⟩
def ADC_CONV_CFG_EN0 : Fld := ⟨0x080, 0x4, 7, 7⟩
def ADC_CONV_CFG_INJ_ACC0 : Fld := ⟨0x080, 0x4, 6, 6⟩
def ADC_CONV_CFG_POWER0 : Fld := ⟨0x080, 0x4, 5, 4⟩
def ADC_CONV_CFG_SET0 : Fld := ⟨0x080, 0x4, 2, 0⟩
def ADC_CONV_CFG_EN1 : Fld := ⟨0x080, 0x4, 15, 15⟩
def ADC_CONV_CFG_INJ_ACC1 : Fld := ⟨0x080, 0x4, 14, 14⟩
def ADC_CONV_CFG_POWER1 : Fld := ⟨0x080, 0x4, 13, 12⟩
def ADC_CONV_CFG_SET1 : Fld := ⟨0x080, 0x4, 10, 8⟩
def ADC_CONV_CFG_EN2 : Fld := ⟨0x080, 0x4, 23, 23⟩
def ADC_CONV_CFG_INJ_ACC2 : Fld := ⟨0x080, 0x4, 22, 22⟩
def ADC_CONV_CFG_POWER2 : Fld := ⟨0x080, 0x4, 21, 20⟩
def ADC_CONV_CFG_SET2 : Fld := ⟨0x080, 0x4, 18, 16⟩
def ADC_CONV_CFG_EN3 : Fld := ⟨0x080, 0x4, 31, 31⟩
def ADC_CONV_CFG_INJ_ACC3 : Fld := ⟨0x080, 0x4, 30, 30⟩
def ADC_CONV_CFG_POWER3 : Fld := ⟨0x080, 0x4, 29, 28⟩
def ADC_CONV_CFG_SET3 : Fld := ⟨0x080, 0x4, 26, 24⟩
def ADC_CONV_CFG : Fld := ⟨0x080, 0x4, 31, 0⟩
def ADC_SET_CFG_EN : Fld := ⟨0x0A0, 0x4, 31, 31⟩
def ADC_SET_CFG_SRC : Fld := ⟨0x0A0, 0x4, 30, 28⟩
def ADC_SET_CFG_LOOP : Fld := ⟨0x0A0, 0x4, 27, 26⟩
def ADC_SET_CFG_UNIT : Fld := ⟨0x0A0, 0x4, 25, 24⟩
def ADC_SET_CFG_CHANNEL : Fld := ⟨0x0A0, 0x4, 23, 16⟩
def ADC_SET_CFG_POL : Fld := ⟨0x0A0, 0x4, 15, 15⟩
def ADC_SET_CFG_EVT : Fld := ⟨0x0A0, 0x4, 5, 0⟩
def ADC_SET_CFG : Fld := ⟨0x0A0, 0x4, 31, 0⟩
def ADC_SET_P0 : Fld := ⟨0x0C0, 0x4, 31, 0⟩
def ADC_SET_P1 : Fld := ⟨0x0E0, 0x4, 31, 0⟩
def ADC_COEF_OFS : Fld := ⟨0x100, 0x4, 31, 20⟩
def ADC_COEF_GAIN : Fld := ⟨0x100, 0x4, 19, 0⟩
def ADC_COEF : Fld := ⟨0x100, 0x4, 31, 0⟩
def ADC_CNT_A_LATE_START : Fld := ⟨0x140, 0x4, 31, 16⟩
def ADC_CNT_A_START_MISS : Fld := ⟨0x140, 0x4, 15, 0⟩
def ADC_CNT_A : Fld := ⟨0x140, 0x4, 31, 0⟩
def ADC_CNT_B_DISTURB : Fld := ⟨0x180, 0x4, 31, 16⟩
def ADC_CNT_B_INJ_DROP : Fld := ⟨0x180, 0x4, 15, 0⟩
def ADC_CNT_B : Fld := ⟨0x180, 0x4, 31, 0⟩
def ACC_IV_CFG_EN : Fld := ⟨0x040, 0x4, 31, 31⟩
def ACC_IV_CFG_BASIS : Fld := ⟨0x040, 0x4, 30, 30⟩
def ACC_IV_CFG_ALIGN : Fld := ⟨0x040, 0x4, 29, 29⟩
def ACC_IV_CFG_LOOP : Fld := ⟨0x040, 0x4, 27, 26⟩
def ACC_IV_CFG : Fld := ⟨0x040, 0x4, 31, 0⟩
def ACC_IV_LEN_LO : Fld := ⟨0x050, 0x8, 31, 0⟩
def ACC_IV_LEN_HI : Fld := ⟨0x054, 0x8, 15, 0⟩
def ACC_CONV_CFG_EN0 : Fld := ⟨0x070, 0x4, 3, 3⟩
def ACC_CONV_CFG_REC_EN0 : Fld := ⟨0x070, 0x4, 2, 2⟩
def ACC_CONV_CFG_IV0 : Fld := ⟨0x070, 0x4, 1, 0⟩
def ACC_CONV_CFG_EN1 : Fld := ⟨0x070, 0x4, 7, 7⟩
def ACC_CONV_CFG_REC_EN1 : Fld := ⟨0x070, 0x4, 6, 6⟩
def ACC_CONV_CFG_IV1 : Fld := ⟨0x070, 0x4, 5, 4⟩
def ACC_CONV_CFG_EN2 : Fld := ⟨0x070, 0x4, 11, 11⟩
def ACC_CONV_CFG_REC_EN2 : Fld := ⟨0x070, 0x4, 10, 10⟩
def ACC_CONV_CFG_IV2 : Fld := ⟨0x070, 0x4, 9, 8⟩
def ACC_CONV_CFG_EN3 : Fld := ⟨0x070, 0x4, 15, 15⟩
def ACC_CONV_CFG_REC_EN3 : Fld := ⟨0x070, 0x4, 14, 14⟩
def ACC_CONV_CFG_IV3 : Fld := ⟨0x070, 0x4, 13, 12⟩
def ACC_CONV_CFG_EN4 : Fld := ⟨0x070, 0x4, 19, 19⟩
def ACC_CONV_CFG_REC_EN4 : Fld := ⟨0x070, 0x4, 18, 18⟩
def ACC_CONV_CFG_IV4 : Fld := ⟨0x070, 0x4, 17, 16⟩
def ACC_CONV_CFG_EN5 : Fld := ⟨0x070, 0x4, 23, 23⟩
def ACC_CONV_CFG_REC_EN5 : Fld := ⟨0x070, 0x4, 22, 22⟩
def ACC_CONV_CFG_IV5 : Fld := ⟨0x070, 0x4, 21, 20⟩
def ACC_CONV_CFG_EN6 : Fld := ⟨0x070, 0x4, 27, 27⟩
def ACC_CONV_CFG_REC_EN6 : Fld := ⟨0x070, 0x4, 26, 26⟩
def ACC_CONV_CFG_IV6 : Fld := ⟨0x070, 0x4, 25, 24⟩
def ACC_CONV_CFG_EN7 : Fld := ⟨0x070, 0x4, 31, 31⟩
def ACC_CONV_CFG_REC_EN7 : Fld := ⟨0x070, 0x4, 30, 30⟩
def ACC_CONV_CFG_IV7 : Fld := ⟨0x070, 0x4, 29, 28⟩
def ACC_CONV_CFG : Fld := ⟨0x070, 0x4, 31, 0⟩
def ACC_STAT_SAT : Fld := ⟨0x078, 0x4, 4, 4⟩
def ACC_STAT_RUNNING : Fld := ⟨0x078, 0x4, 3, 0⟩
def ACC_STAT : Fld := ⟨0x078, 0x4, 31, 0⟩
def ACC_SNAP_SEL : Fld := ⟨0x07C, 0x4, 5, 0⟩
def ACC_PAIR_CFG_EN : Fld := ⟨0x080, 0x4, 31, 31⟩
def ACC_PAIR_CFG_REC_EN : Fld := ⟨0x080, 0x4, 30, 30⟩
def ACC_PAIR_CFG_B : Fld := ⟨0x080, 0x4, 7, 4⟩
def ACC_PAIR_CFG_A : Fld := ⟨0x080, 0x4, 3, 0⟩
def ACC_PAIR_CFG : Fld := ⟨0x080, 0x4, 31, 0⟩
def ACC_SNAP : Fld := ⟨0x100, 0x4, 31, 0⟩
def HAR_CTL_REC_EN : Fld := ⟨0x040, 0x4, 0, 0⟩
def HAR_CTL : Fld := ⟨0x040, 0x4, 31, 0⟩
def HAR_STAT_SAT : Fld := ⟨0x044, 0x4, 16, 16⟩
def HAR_STAT_NO_ANGLE : Fld := ⟨0x044, 0x4, 15, 0⟩
def HAR_STAT : Fld := ⟨0x044, 0x4, 31, 0⟩
def HAR_PROF_CNT_P3 : Fld := ⟨0x048, 0x4, 31, 24⟩
def HAR_PROF_CNT_P2 : Fld := ⟨0x048, 0x4, 23, 16⟩
def HAR_PROF_CNT_P1 : Fld := ⟨0x048, 0x4, 15, 8⟩
def HAR_PROF_CNT_P0 : Fld := ⟨0x048, 0x4, 7, 0⟩
def HAR_PROF_CNT : Fld := ⟨0x048, 0x4, 31, 0⟩
def HAR_SNAP_SEL_ORDER : Fld := ⟨0x04C, 0x4, 14, 8⟩
def HAR_SNAP_SEL_CONV : Fld := ⟨0x04C, 0x4, 3, 0⟩
def HAR_SNAP_SEL : Fld := ⟨0x04C, 0x4, 31, 0⟩
def HAR_SAT_CNT : Fld := ⟨0x050, 0x4, 31, 0⟩
def HAR_CLR : Fld := ⟨0x054, 0x4, 0, 0⟩
def HAR_CH_CFG_LOOP : Fld := ⟨0x080, 0x4, 31, 30⟩
def HAR_CH_CFG_PROFILE : Fld := ⟨0x080, 0x4, 29, 28⟩
def HAR_CH_CFG_SPAN_M : Fld := ⟨0x080, 0x4, 19, 16⟩
def HAR_CH_CFG_ORDERS : Fld := ⟨0x080, 0x4, 6, 0⟩
def HAR_CH_CFG : Fld := ⟨0x080, 0x4, 31, 0⟩
def HAR_PROF : Fld := ⟨0x0C0, 0x4, 31, 0⟩
def HAR_SNAP_START_LO : Fld := ⟨0x100, 0x4, 31, 0⟩
def HAR_SNAP_START_HI : Fld := ⟨0x104, 0x4, 31, 0⟩
def HAR_SNAP_END_LO : Fld := ⟨0x108, 0x4, 31, 0⟩
def HAR_SNAP_END_HI : Fld := ⟨0x10C, 0x4, 31, 0⟩
def HAR_SNAP_ANGLE_LO : Fld := ⟨0x110, 0x4, 31, 0⟩
def HAR_SNAP_ANGLE_HI : Fld := ⟨0x114, 0x4, 31, 0⟩
def HAR_SNAP_N : Fld := ⟨0x118, 0x4, 31, 0⟩
def HAR_SNAP_FLAGS : Fld := ⟨0x11C, 0x4, 31, 0⟩
def HAR_SNAP_RE_LO : Fld := ⟨0x120, 0x4, 31, 0⟩
def HAR_SNAP_RE_HI : Fld := ⟨0x124, 0x4, 31, 0⟩
def HAR_SNAP_IM_LO : Fld := ⟨0x128, 0x4, 31, 0⟩
def HAR_SNAP_IM_HI : Fld := ⟨0x12C, 0x4, 31, 0⟩
def WIN_STAT_OUT : Fld := ⟨0x040, 0x4, 15, 0⟩
def WIN_STAT : Fld := ⟨0x040, 0x4, 31, 0⟩
def WIN_LAT_MAX : Fld := ⟨0x044, 0x4, 23, 0⟩
def WIN_CFG_EN : Fld := ⟨0x080, 0x4, 31, 31⟩
def WIN_CFG_CONV : Fld := ⟨0x080, 0x4, 27, 24⟩
def WIN_CFG_QUAL : Fld := ⟨0x080, 0x4, 19, 16⟩
def WIN_CFG_HYST : Fld := ⟨0x080, 0x4, 15, 0⟩
def WIN_CFG : Fld := ⟨0x080, 0x4, 31, 0⟩
def WIN_LO : Fld := ⟨0x0C0, 0x4, 17, 0⟩
def WIN_HI : Fld := ⟨0x100, 0x4, 17, 0⟩
def TLD_CTL_MARK_TWIN : Fld := ⟨0x040, 0x4, 9, 9⟩
def TLD_CTL_MARK_CAS : Fld := ⟨0x040, 0x4, 8, 8⟩
def TLD_CTL_RUNGS : Fld := ⟨0x040, 0x4, 4, 0⟩
def TLD_CTL : Fld := ⟨0x040, 0x4, 31, 0⟩
def TLD_STAT_WAIT_COLLAR : Fld := ⟨0x044, 0x4, 6, 6⟩
def TLD_STAT_RUNNING : Fld := ⟨0x044, 0x4, 5, 5⟩
def TLD_STAT_FIRED : Fld := ⟨0x044, 0x4, 4, 4⟩
def TLD_STAT_RUNG : Fld := ⟨0x044, 0x4, 3, 0⟩
def TLD_STAT : Fld := ⟨0x044, 0x4, 31, 0⟩
def TLD_SOFT : Fld := ⟨0x048, 0x4, 15, 0⟩
def TLD_FIRE_DESC_RUNG : Fld := ⟨0x04C, 0x4, 31, 28⟩
def TLD_FIRE_DESC_HITS : Fld := ⟨0x04C, 0x4, 27, 20⟩
def TLD_FIRE_DESC_COND : Fld := ⟨0x04C, 0x4, 19, 17⟩
def TLD_FIRE_DESC_LATE : Fld := ⟨0x04C, 0x4, 16, 16⟩
def TLD_FIRE_DESC : Fld := ⟨0x04C, 0x4, 31, 0⟩
def TLD_FIRE_SLOT_LO : Fld := ⟨0x050, 0x4, 31, 0⟩
def TLD_FIRE_SLOT_HI : Fld := ⟨0x054, 0x4, 18, 0⟩
def TLD_FIRE_IGN_CNT : Fld := ⟨0x058, 0x4, 31, 0⟩
def TLD_FIRE_SUPP_CNT : Fld := ⟨0x05C, 0x4, 31, 0⟩
def TLD_ABORT_CNT : Fld := ⟨0x060, 0x4, 31, 0⟩
def TLD_SNAKE_CNT : Fld := ⟨0x064, 0x4, 31, 0⟩
def TLD_CLR : Fld := ⟨0x068, 0x4, 0, 0⟩
def TLD_RUNG_CFG_CNT_CLR : Fld := ⟨0x080, 0x4, 31, 16⟩
def TLD_RUNG_CFG_TMR_START : Fld := ⟨0x080, 0x4, 15, 0⟩
def TLD_RUNG_CFG : Fld := ⟨0x080, 0x4, 31, 0⟩
def TLD_COND_ACT_FLOW : Fld := ⟨0x200, 0x4, 31, 29⟩
def TLD_COND_ACT_TARGET : Fld := ⟨0x200, 0x4, 28, 25⟩
def TLD_COND_ACT_FIRE : Fld := ⟨0x200, 0x4, 24, 24⟩
def TLD_COND_ACT_MARK : Fld := ⟨0x200, 0x4, 23, 23⟩
def TLD_COND_ACT_INJECT : Fld := ⟨0x200, 0x4, 22, 22⟩
def TLD_COND_ACT_COUNT_EN : Fld := ⟨0x200, 0x4, 21, 21⟩
def TLD_COND_ACT_COUNT_SEL : Fld := ⟨0x200, 0x4, 20, 17⟩
def TLD_COND_ACT_OUT : Fld := ⟨0x200, 0x4, 15, 0⟩
def TLD_COND_ACT : Fld := ⟨0x200, 0x4, 31, 0⟩
def TLD_COND_CFG_TYPE : Fld := ⟨0x100, 0x4, 31, 27⟩
def TLD_COND_CFG_SENSE : Fld := ⟨0x100, 0x4, 26, 25⟩
def TLD_COND_CFG_NEG : Fld := ⟨0x100, 0x4, 24, 24⟩
def TLD_COND_CFG_PREDICT : Fld := ⟨0x100, 0x4, 23, 23⟩
def TLD_COND_CFG_QUAL_EN : Fld := ⟨0x100, 0x4, 22, 22⟩
def TLD_COND_CFG_QUAL_INV : Fld := ⟨0x100, 0x4, 21, 21⟩
def TLD_COND_CFG_QUAL_SEL : Fld := ⟨0x100, 0x4, 20, 18⟩
def TLD_COND_CFG_OCC : Fld := ⟨0x100, 0x4, 15, 0⟩
def TLD_COND_CFG : Fld := ⟨0x100, 0x4, 31, 0⟩
def TLD_COND_OP : Fld := ⟨0x300, 0x4, 31, 0⟩
def TLD_PT_SEL_INC : Fld := ⟨0x040, 0x4, 9, 9⟩
def TLD_PT_SEL_ENTRY : Fld := ⟨0x040, 0x4, 8, 0⟩
def TLD_PT_SEL : Fld := ⟨0x040, 0x4, 31, 0⟩
def TLD_PT_PTR_INC : Fld := ⟨0x044, 0x4, 9, 9⟩
def TLD_PT_PTR_ENTRY : Fld := ⟨0x044, 0x4, 8, 0⟩
def TLD_PT_PTR : Fld := ⟨0x044, 0x4, 31, 0⟩
def TLD_PT_MASK : Fld := ⟨0x048, 0x4, 31, 0⟩
def TLD_PT_VALUE : Fld := ⟨0x04C, 0x4, 31, 0⟩
def TLD_PT_CTL_KIND : Fld := ⟨0x050, 0x4, 31, 30⟩
def TLD_PT_CTL_STROBE_ONLY : Fld := ⟨0x050, 0x4, 3, 3⟩
def TLD_PT_CTL_GROUP : Fld := ⟨0x050, 0x4, 2, 0⟩
def TLD_PT_CTL : Fld := ⟨0x050, 0x4, 31, 0⟩
def TLD_CNT_CFG_SRC : Fld := ⟨0x040, 0x4, 31, 30⟩
def TLD_CNT_CFG_RESET_ON_SNAKE : Fld := ⟨0x040, 0x4, 29, 29⟩
def TLD_CNT_CFG_SLOPE : Fld := ⟨0x040, 0x4, 28, 28⟩
def TLD_CNT_CFG_SOURCE : Fld := ⟨0x040, 0x4, 27, 20⟩
def TLD_CNT_CFG_CMP : Fld := ⟨0x040, 0x4, 19, 0⟩
def TLD_CNT_CFG : Fld := ⟨0x040, 0x4, 31, 0⟩
def TLD_TMR_CFG_UNIT : Fld := ⟨0x080, 0x4, 31, 30⟩
def TLD_TMR_CFG_LOOP : Fld := ⟨0x080, 0x4, 29, 28⟩
def TLD_TMR_CFG_SCALE : Fld := ⟨0x080, 0x4, 27, 24⟩
def TLD_TMR_CFG_LEN : Fld := ⟨0x080, 0x4, 23, 0⟩
def TLD_TMR_CFG : Fld := ⟨0x080, 0x4, 31, 0⟩
def TLD_TC_SNAP_SEL_TIMER : Fld := ⟨0x0C0, 0x4, 4, 4⟩
def TLD_TC_SNAP_SEL_INDEX : Fld := ⟨0x0C0, 0x4, 3, 0⟩
def TLD_TC_SNAP_SEL : Fld := ⟨0x0C0, 0x4, 31, 0⟩
def TLD_TC_SNAP : Fld := ⟨0x0C4, 0x4, 31, 0⟩
def GMB_CTL_SPEC_EN : Fld := ⟨0x040, 0x4, 31, 31⟩
def GMB_CTL_CKPT_EXP : Fld := ⟨0x040, 0x4, 3, 0⟩
def GMB_CTL : Fld := ⟨0x040, 0x4, 31, 0⟩
def GMB_STAT_PAUSED : Fld := ⟨0x044, 0x4, 31, 31⟩
def GMB_STAT_REPLAYING : Fld := ⟨0x044, 0x4, 30, 30⟩
def GMB_STAT_HORIZON_SHORT : Fld := ⟨0x044, 0x4, 29, 29⟩
def GMB_STAT_CKPT_FULL : Fld := ⟨0x044, 0x4, 28, 28⟩
def GMB_STAT_CKPT_USED : Fld := ⟨0x044, 0x4, 6, 0⟩
def GMB_STAT : Fld := ⟨0x044, 0x4, 31, 0⟩
def GMB_LIVE_PLY_LO : Fld := ⟨0x048, 0x4, 31, 0⟩
def GMB_LIVE_PLY_HI : Fld := ⟨0x04C, 0x4, 13, 0⟩
def GMB_COMMIT_PLY_LO : Fld := ⟨0x050, 0x4, 31, 0⟩
def GMB_COMMIT_PLY_HI : Fld := ⟨0x054, 0x4, 13, 0⟩
def GMB_EVAL_PLY_LO : Fld := ⟨0x058, 0x4, 31, 0⟩
def GMB_EVAL_PLY_HI : Fld := ⟨0x05C, 0x4, 13, 0⟩
def GMB_LEAD : Fld := ⟨0x060, 0x4, 16, 0⟩
def GMB_REQ_LAT : Fld := ⟨0x064, 0x4, 23, 0⟩
def GMB_HORIZON : Fld := ⟨0x068, 0x4, 16, 0⟩
def GMB_HIST_BASE : Fld := ⟨0x06C, 0x4, 26, 0⟩
def GMB_ANNEX_BASE : Fld := ⟨0x070, 0x4, 26, 0⟩
def GMB_LAST_ROLL_UNIT : Fld := ⟨0x074, 0x4, 31, 25⟩
def GMB_LAST_ROLL_DIST : Fld := ⟨0x074, 0x4, 16, 0⟩
def GMB_LAST_ROLL : Fld := ⟨0x074, 0x4, 31, 0⟩
def GMB_CKPT_CNT : Fld := ⟨0x080, 0x4, 31, 0⟩
def GMB_ROLLBACK_CNT : Fld := ⟨0x084, 0x4, 31, 0⟩
def GMB_REPLAY_PLY_CNT_LO : Fld := ⟨0x088, 0x4, 31, 0⟩
def GMB_REPLAY_PLY_CNT_HI : Fld := ⟨0x08C, 0x4, 31, 0⟩
def GMB_PAUSE_CNT : Fld := ⟨0x090, 0x4, 31, 0⟩
def GMB_PAUSE_PLY_CNT : Fld := ⟨0x094, 0x4, 31, 0⟩
def GMB_CKPT_FULL_CNT : Fld := ⟨0x098, 0x4, 31, 0⟩
def GMB_OVERRUN_CNT : Fld := ⟨0x09C, 0x4, 31, 0⟩
def GMB_INJ_RETRACT_CNT : Fld := ⟨0x0A0, 0x4, 31, 0⟩
def GMB_INJ_LOST_CNT : Fld := ⟨0x0A4, 0x4, 31, 0⟩
def GMB_TOKEN_RETRACT_CNT : Fld := ⟨0x0A8, 0x4, 31, 0⟩
def GMB_LATE_OUT_CNT : Fld := ⟨0x0AC, 0x4, 31, 0⟩
def GMB_MISPRED_IDLE_CNT : Fld := ⟨0x0B0, 0x4, 31, 0⟩
def GMB_MISPRED_CNT : Fld := ⟨0x0C0, 0x4, 31, 0⟩
def GMB_CLR : Fld := ⟨0x0E0, 0x4, 0, 0⟩
def ACT_CTL_RB_EN : Fld := ⟨0x040, 0x4, 15, 0⟩
def ACT_CTL : Fld := ⟨0x040, 0x4, 31, 0⟩
def ACT_XTI_INVERT : Fld := ⟨0x044, 0x4, 3, 0⟩
def ACT_XTI : Fld := ⟨0x044, 0x4, 31, 0⟩
def ACT_STAT_LANDS : Fld := ⟨0x048, 0x4, 31, 16⟩
def ACT_STAT_CMD : Fld := ⟨0x048, 0x4, 15, 0⟩
def ACT_STAT : Fld := ⟨0x048, 0x4, 31, 0⟩
def ACT_RB_ERR : Fld := ⟨0x04C, 0x4, 15, 0⟩
def ACT_RELEASE : Fld := ⟨0x050, 0x4, 15, 0⟩
def ACT_RETRACT_CNT : Fld := ⟨0x054, 0x4, 31, 0⟩
def ACT_RETRACT_MASK : Fld := ⟨0x058, 0x4, 15, 0⟩
def ACT_CLR : Fld := ⟨0x05C, 0x4, 0, 0⟩
def ACT_CFG_EN : Fld := ⟨0x080, 0x4, 31, 31⟩
def ACT_CFG_DRIVE : Fld := ⟨0x080, 0x4, 30, 30⟩
def ACT_CFG_POL : Fld := ⟨0x080, 0x4, 29, 29⟩
def ACT_CFG_FUNC : Fld := ⟨0x080, 0x4, 28, 27⟩
def ACT_CFG_MODE : Fld := ⟨0x080, 0x4, 26, 26⟩
def ACT_CFG_SAFE : Fld := ⟨0x080, 0x4, 25, 24⟩
def ACT_CFG_UNIT : Fld := ⟨0x080, 0x4, 23, 22⟩
def ACT_CFG_LOOP : Fld := ⟨0x080, 0x4, 21, 20⟩
def ACT_CFG_RETRIG : Fld := ⟨0x080, 0x4, 19, 19⟩
def ACT_CFG_RB_OD : Fld := ⟨0x080, 0x4, 18, 18⟩
def ACT_CFG : Fld := ⟨0x080, 0x4, 31, 0⟩
def ACT_WIDTH : Fld := ⟨0x0C0, 0x4, 31, 0⟩
def ACQ_CTL_MODE : Fld := ⟨0x040, 0x4, 31, 30⟩
def ACQ_CTL_SPAN_UNIT : Fld := ⟨0x040, 0x4, 29, 28⟩
def ACQ_CTL_LOOP : Fld := ⟨0x040, 0x4, 27, 26⟩
def ACQ_CTL_COLLAR_FILL : Fld := ⟨0x040, 0x4, 25, 25⟩
def ACQ_CTL : Fld := ⟨0x040, 0x4, 31, 0⟩
def ACQ_STREAM_EN : Fld := ⟨0x044, 0x4, 21, 0⟩
def ACQ_COLLAR_LO : Fld := ⟨0x048, 0x4, 31, 0⟩
def ACQ_COLLAR_HI : Fld := ⟨0x04C, 0x4, 15, 0⟩
def ACQ_CUFF_LO : Fld := ⟨0x050, 0x4, 31, 0⟩
def ACQ_CUFF_HI : Fld := ⟨0x054, 0x4, 15, 0⟩
def ACQ_SEG_CFG_SEG_RING : Fld := ⟨0x058, 0x4, 31, 16⟩
def ACQ_SEG_CFG_SEG_COUNT : Fld := ⟨0x058, 0x4, 15, 0⟩
def ACQ_SEG_CFG : Fld := ⟨0x058, 0x4, 31, 0⟩
def ACQ_ARM_STOP : Fld := ⟨0x05C, 0x4, 1, 1⟩
def ACQ_ARM_ARM : Fld := ⟨0x05C, 0x4, 0, 0⟩
def ACQ_ARM : Fld := ⟨0x05C, 0x4, 31, 0⟩
def ACQ_ARM_STATUS_RESULT : Fld := ⟨0x060, 0x4, 31, 24⟩
def ACQ_ARM_STATUS_CAUSE : Fld := ⟨0x060, 0x4, 23, 16⟩
def ACQ_ARM_STATUS_WHICH : Fld := ⟨0x060, 0x4, 15, 8⟩
def ACQ_ARM_STATUS_CUFF_CLIP : Fld := ⟨0x060, 0x4, 1, 1⟩
def ACQ_ARM_STATUS_COLLAR_CUT : Fld := ⟨0x060, 0x4, 0, 0⟩
def ACQ_ARM_STATUS : Fld := ⟨0x060, 0x4, 31, 0⟩
def ACQ_STAT_ARMED : Fld := ⟨0x064, 0x4, 31, 31⟩
def ACQ_STAT_COLLAR_FULL : Fld := ⟨0x064, 0x4, 30, 30⟩
def ACQ_STAT_FIRE_HELD : Fld := ⟨0x064, 0x4, 29, 29⟩
def ACQ_STAT_FIRED : Fld := ⟨0x064, 0x4, 28, 28⟩
def ACQ_STAT_READER : Fld := ⟨0x064, 0x4, 27, 27⟩
def ACQ_STAT_PROTECTED : Fld := ⟨0x064, 0x4, 26, 26⟩
def ACQ_STAT : Fld := ⟨0x064, 0x4, 31, 0⟩
def ACQ_CLOSE_CAUSE : Fld := ⟨0x068, 0x4, 3, 0⟩
def ACQ_CLOSE : Fld := ⟨0x068, 0x4, 31, 0⟩
def ACQ_REC_NUM : Fld := ⟨0x06C, 0x4, 31, 0⟩
def ACQ_SEG_NUM : Fld := ⟨0x070, 0x4, 31, 0⟩
def ACQ_HEM_WORDS : Fld := ⟨0x074, 0x4, 15, 0⟩
def ACQ_CAP_LO : Fld := ⟨0x078, 0x4, 31, 0⟩
def ACQ_CAP_HI : Fld := ⟨0x07C, 0x4, 31, 0⟩
def ACQ_GRANT_COLLAR_LO : Fld := ⟨0x080, 0x4, 31, 0⟩
def ACQ_GRANT_COLLAR_HI : Fld := ⟨0x084, 0x4, 31, 0⟩
def ACQ_GRANT_CUFF_LO : Fld := ⟨0x088, 0x4, 31, 0⟩
def ACQ_GRANT_CUFF_HI : Fld := ⟨0x08C, 0x4, 31, 0⟩
def ACQ_ARM_SLOT_LO : Fld := ⟨0x090, 0x4, 31, 0⟩
def ACQ_ARM_SLOT_HI : Fld := ⟨0x094, 0x4, 18, 0⟩
def ACQ_TRIG_SLOT_LO : Fld := ⟨0x098, 0x4, 31, 0⟩
def ACQ_TRIG_SLOT_HI : Fld := ⟨0x09C, 0x4, 18, 0⟩
def ACQ_END_SLOT_LO : Fld := ⟨0x0A0, 0x4, 31, 0⟩
def ACQ_END_SLOT_HI : Fld := ⟨0x0A4, 0x4, 18, 0⟩
def ACQ_TRIG_ANGLE_LO : Fld := ⟨0x0A8, 0x4, 31, 0⟩
def ACQ_TRIG_ANGLE_HI : Fld := ⟨0x0AC, 0x4, 31, 0⟩
def ACQ_SHORT_COLLAR_CNT : Fld := ⟨0x0B0, 0x4, 31, 0⟩
def ACQ_LIVE_CLIP_CNT : Fld := ⟨0x0B4, 0x4, 31, 0⟩
def ACQ_SEG_OVERWRITE_CNT : Fld := ⟨0x0B8, 0x4, 31, 0⟩
def ACQ_WITHDRAW_CNT : Fld := ⟨0x0BC, 0x4, 31, 0⟩
def ACQ_CLR : Fld := ⟨0x0C0, 0x4, 0, 0⟩
def ACQ_DM_BASE : Fld := ⟨0x040, 0x4, 17, 0⟩
def ACQ_DM_SIZE : Fld := ⟨0x044, 0x4, 18, 0⟩
def ACQ_STO_ALLOT : Fld := ⟨0x048, 0x4, 24, 0⟩
def ACQ_PROT_CFG_EN : Fld := ⟨0x04C, 0x4, 31, 31⟩
def ACQ_PROT_CFG_PROT_MODE : Fld := ⟨0x04C, 0x4, 30, 30⟩
def ACQ_PROT_CFG_ON_MARK : Fld := ⟨0x04C, 0x4, 29, 29⟩
def ACQ_PROT_CFG : Fld := ⟨0x04C, 0x4, 31, 0⟩
def ACQ_PROT_LEN_LO : Fld := ⟨0x050, 0x4, 31, 0⟩
def ACQ_PROT_LEN_HI : Fld := ⟨0x054, 0x4, 15, 0⟩
def ACQ_ANLG_CFG_BASIS : Fld := ⟨0x058, 0x4, 31, 30⟩
def ACQ_ANLG_CFG_AVG_EXP : Fld := ⟨0x058, 0x4, 3, 0⟩
def ACQ_ANLG_CFG : Fld := ⟨0x058, 0x4, 31, 0⟩
def ACQ_RING_MIB : Fld := ⟨0x080, 0x4, 17, 0⟩
def ACQ_THIN_MASK : Fld := ⟨0x040, 0x4, 9, 0⟩
def ACQ_THIN_CLR : Fld := ⟨0x044, 0x4, 0, 0⟩
def ACQ_THIN_CFG_EN : Fld := ⟨0x080, 0x4, 31, 31⟩
def ACQ_THIN_CFG_PROT : Fld := ⟨0x080, 0x4, 30, 30⟩
def ACQ_THIN_CFG_KMAX : Fld := ⟨0x080, 0x4, 4, 0⟩
def ACQ_THIN_CFG : Fld := ⟨0x080, 0x4, 31, 0⟩
def ACQ_THIN_LVL_HI : Fld := ⟨0x0C0, 0x4, 15, 8⟩
def ACQ_THIN_LVL_LO : Fld := ⟨0x0C0, 0x4, 7, 0⟩
def ACQ_THIN_LVL : Fld := ⟨0x0C0, 0x4, 31, 0⟩
def ACQ_THIN_DWELL_DWELL_DOWN : Fld := ⟨0x100, 0x4, 31, 16⟩
def ACQ_THIN_DWELL_DWELL_UP : Fld := ⟨0x100, 0x4, 15, 0⟩
def ACQ_THIN_DWELL : Fld := ⟨0x100, 0x4, 31, 0⟩
def ACQ_THIN_STAT_PROTECTED : Fld := ⟨0x140, 0x4, 31, 31⟩
def ACQ_THIN_STAT_FROM_TWIN : Fld := ⟨0x140, 0x4, 30, 30⟩
def ACQ_THIN_STAT_K : Fld := ⟨0x140, 0x4, 28, 24⟩
def ACQ_THIN_STAT_KEFF_MAX : Fld := ⟨0x140, 0x4, 20, 16⟩
def ACQ_THIN_STAT_PRESS : Fld := ⟨0x140, 0x4, 7, 0⟩
def ACQ_THIN_STAT : Fld := ⟨0x140, 0x4, 31, 0⟩
def ACQ_THIN_UP_CNT : Fld := ⟨0x180, 0x4, 31, 0⟩
def ACQ_OVF_CNT : Fld := ⟨0x1C0, 0x4, 31, 0⟩
def ACQ_RING_BASE_VALID : Fld := ⟨0x080, 0x4, 31, 31⟩
def ACQ_RING_BASE_MIB : Fld := ⟨0x080, 0x4, 17, 0⟩
def ACQ_RING_BASE : Fld := ⟨0x080, 0x4, 31, 0⟩
def ACQ_RING_FIRST : Fld := ⟨0x100, 0x4, 31, 0⟩
def RFQ_CTL_SPLIT_ALL : Fld := ⟨0x040, 0x4, 31, 31⟩
def RFQ_CTL_CHUNK_AGE_MAX : Fld := ⟨0x040, 0x4, 10, 0⟩
def RFQ_CTL : Fld := ⟨0x040, 0x4, 31, 0⟩
def RFQ_STAT_FLUSH_BUSY : Fld := ⟨0x044, 0x4, 31, 31⟩
def RFQ_STAT_STALL : Fld := ⟨0x044, 0x4, 21, 0⟩
def RFQ_STAT : Fld := ⟨0x044, 0x4, 31, 0⟩
def RFQ_SPLIT : Fld := ⟨0x048, 0x4, 21, 0⟩
def RFQ_FLUSH_SCOPE : Fld := ⟨0x04C, 0x4, 31, 31⟩
def RFQ_FLUSH_STREAMS : Fld := ⟨0x04C, 0x4, 21, 0⟩
def RFQ_FLUSH : Fld := ⟨0x04C, 0x4, 31, 0⟩
def RFQ_FLUSH_PEND : Fld := ⟨0x050, 0x4, 21, 0⟩
def RFQ_LOST_CNT : Fld := ⟨0x054, 0x4, 31, 0⟩
def RFQ_CLR : Fld := ⟨0x058, 0x4, 0, 0⟩
def RFQ_WM_DIR : Fld := ⟨0x080, 0x4, 31, 31⟩
def RFQ_WM_MARK : Fld := ⟨0x080, 0x4, 9, 0⟩
def RFQ_WM : Fld := ⟨0x080, 0x4, 31, 0⟩
def RFQ_LEVEL : Fld := ⟨0x100, 0x4, 19, 0⟩
def RFQ_SEQ : Fld := ⟨0x180, 0x4, 31, 0⟩
def RFQ_BANK_STAT_BANK_A : Fld := ⟨0x200, 0x4, 31, 30⟩
def RFQ_BANK_STAT_BANK_B : Fld := ⟨0x200, 0x4, 29, 28⟩
def RFQ_BANK_STAT_CURRENT : Fld := ⟨0x200, 0x4, 27, 27⟩
def RFQ_BANK_STAT_SPLIT : Fld := ⟨0x200, 0x4, 26, 26⟩
def RFQ_BANK_STAT_OPEN_LEN : Fld := ⟨0x200, 0x4, 19, 0⟩
def RFQ_BANK_STAT : Fld := ⟨0x200, 0x4, 31, 0⟩
def RFQ_DISCARD_CNT : Fld := ⟨0x280, 0x4, 31, 0⟩
def RFQ_AGE_CNT : Fld := ⟨0x300, 0x4, 31, 0⟩
def CMP_CTL_LANE_MODE : Fld := ⟨0x040, 0x4, 31, 31⟩
def CMP_CTL_HOST_LANES : Fld := ⟨0x040, 0x4, 3, 0⟩
def CMP_CTL : Fld := ⟨0x040, 0x4, 31, 0⟩
def CMP_STAT_STALL : Fld := ⟨0x044, 0x4, 31, 16⟩
def CMP_STAT_BUSY : Fld := ⟨0x044, 0x4, 15, 0⟩
def CMP_STAT : Fld := ⟨0x044, 0x4, 31, 0⟩
def CMP_NOLANE : Fld := ⟨0x048, 0x4, 21, 0⟩
def CMP_VERIFY_LAST_STREAM : Fld := ⟨0x04C, 0x4, 20, 16⟩
def CMP_VERIFY_LAST_LANE : Fld := ⟨0x04C, 0x4, 3, 0⟩
def CMP_VERIFY_LAST : Fld := ⟨0x04C, 0x4, 31, 0⟩
def CMP_CLR : Fld := ⟨0x050, 0x4, 0, 0⟩
def CMP_VERIFY_CNT : Fld := ⟨0x054, 0x4, 31, 0⟩
def CMP_NOGAIN_CNT : Fld := ⟨0x058, 0x4, 31, 0⟩
def CMP_BANKFULL_CNT : Fld := ⟨0x05C, 0x4, 31, 0⟩
def CMP_RESET_CNT : Fld := ⟨0x060, 0x4, 31, 0⟩
def CMP_STALL_CNT : Fld := ⟨0x064, 0x4, 31, 0⟩
def CMP_STREAM_CFG_CLASS0 : Fld := ⟨0x080, 0x4, 15, 14⟩
def CMP_STREAM_CFG_POLICY0 : Fld := ⟨0x080, 0x4, 13, 13⟩
def CMP_STREAM_CFG_RESET_BLOCKS0 : Fld := ⟨0x080, 0x4, 7, 0⟩
def CMP_STREAM_CFG_CLASS1 : Fld := ⟨0x080, 0x4, 31, 30⟩
def CMP_STREAM_CFG_POLICY1 : Fld := ⟨0x080, 0x4, 29, 29⟩
def CMP_STREAM_CFG_RESET_BLOCKS1 : Fld := ⟨0x080, 0x4, 23, 16⟩
def CMP_STREAM_CFG : Fld := ⟨0x080, 0x4, 31, 0⟩
def CMP_LANE_CFG_EN0 : Fld := ⟨0x0C0, 0x4, 7, 7⟩
def CMP_LANE_CFG_STREAM0 : Fld := ⟨0x0C0, 0x4, 4, 0⟩
def CMP_LANE_CFG_EN1 : Fld := ⟨0x0C0, 0x4, 15, 15⟩
def CMP_LANE_CFG_STREAM1 : Fld := ⟨0x0C0, 0x4, 12, 8⟩
def CMP_LANE_CFG_EN2 : Fld := ⟨0x0C0, 0x4, 23, 23⟩
def CMP_LANE_CFG_STREAM2 : Fld := ⟨0x0C0, 0x4, 20, 16⟩
def CMP_LANE_CFG_EN3 : Fld := ⟨0x0C0, 0x4, 31, 31⟩
def CMP_LANE_CFG_STREAM3 : Fld := ⟨0x0C0, 0x4, 28, 24⟩
def CMP_LANE_CFG : Fld := ⟨0x0C0, 0x4, 31, 0⟩
def CMP_LANE_MAP_ACTIVE0 : Fld := ⟨0x0D0, 0x4, 7, 7⟩
def CMP_LANE_MAP_HOST0 : Fld := ⟨0x0D0, 0x4, 6, 6⟩
def CMP_LANE_MAP_STREAM0 : Fld := ⟨0x0D0, 0x4, 4, 0⟩
def CMP_LANE_MAP_ACTIVE1 : Fld := ⟨0x0D0, 0x4, 15, 15⟩
def CMP_LANE_MAP_HOST1 : Fld := ⟨0x0D0, 0x4, 14, 14⟩
def CMP_LANE_MAP_STREAM1 : Fld := ⟨0x0D0, 0x4, 12, 8⟩
def CMP_LANE_MAP_ACTIVE2 : Fld := ⟨0x0D0, 0x4, 23, 23⟩
def CMP_LANE_MAP_HOST2 : Fld := ⟨0x0D0, 0x4, 22, 22⟩
def CMP_LANE_MAP_STREAM2 : Fld := ⟨0x0D0, 0x4, 20, 16⟩
def CMP_LANE_MAP_ACTIVE3 : Fld := ⟨0x0D0, 0x4, 31, 31⟩
def CMP_LANE_MAP_HOST3 : Fld := ⟨0x0D0, 0x4, 30, 30⟩
def CMP_LANE_MAP_STREAM3 : Fld := ⟨0x0D0, 0x4, 28, 24⟩
def CMP_LANE_MAP : Fld := ⟨0x0D0, 0x4, 31, 0⟩
def CMP_RATIO_ODD : Fld := ⟨0x100, 0x4, 31, 16⟩
def CMP_RATIO_EVEN : Fld := ⟨0x100, 0x4, 15, 0⟩
def CMP_RATIO : Fld := ⟨0x100, 0x4, 31, 0⟩
def DCP_CTL_ON_FAIL : Fld := ⟨0x040, 0x4, 0, 0⟩
def DCP_CTL : Fld := ⟨0x040, 0x4, 31, 0⟩
def DCP_STAT : Fld := ⟨0x044, 0x4, 3, 0⟩
def DCP_POISON : Fld := ⟨0x048, 0x4, 21, 0⟩
def DCP_ERR_LAST_CAUSE : Fld := ⟨0x04C, 0x4, 31, 28⟩
def DCP_ERR_LAST_STREAM : Fld := ⟨0x04C, 0x4, 20, 16⟩
def DCP_ERR_LAST_THREAD : Fld := ⟨0x04C, 0x4, 3, 0⟩
def DCP_ERR_LAST : Fld := ⟨0x04C, 0x4, 31, 0⟩
def DCP_CLR : Fld := ⟨0x050, 0x4, 0, 0⟩
def DCP_CHECK_FAIL_CNT : Fld := ⟨0x054, 0x4, 31, 0⟩
def DCP_FORMAT_ERR_CNT : Fld := ⟨0x058, 0x4, 31, 0⟩
def DCP_SEQ_GAP_CNT : Fld := ⟨0x05C, 0x4, 31, 0⟩
def DCP_POISON_CNT : Fld := ⟨0x060, 0x4, 31, 0⟩
def DCP_BLOCK_CNT : Fld := ⟨0x064, 0x4, 31, 0⟩
def DCP_OUT_BYTES_LO : Fld := ⟨0x068, 0x4, 31, 0⟩
def DCP_OUT_BYTES_HI : Fld := ⟨0x06C, 0x4, 31, 0⟩
def DCP_IN_BYTES_LO : Fld := ⟨0x070, 0x4, 31, 0⟩
def DCP_IN_BYTES_HI : Fld := ⟨0x074, 0x4, 31, 0⟩
def DCP_ERR_SEQ : Fld := ⟨0x078, 0x4, 31, 0⟩
def DCP_RESYNC_CNT : Fld := ⟨0x07C, 0x4, 31, 0⟩
def DCP_LANE_STAT_BUSY : Fld := ⟨0x080, 0x4, 31, 31⟩
def DCP_LANE_STAT_STREAM : Fld := ⟨0x080, 0x4, 28, 24⟩
def DCP_LANE_STAT_THREAD : Fld := ⟨0x080, 0x4, 19, 16⟩
def DCP_LANE_STAT : Fld := ⟨0x080, 0x4, 31, 0⟩
def SCR_CTL_SWEEP_HOURS : Fld := ⟨0x040, 0x4, 3, 0⟩
def SCR_CTL : Fld := ⟨0x040, 0x4, 31, 0⟩
def SCR_STAT_SWEEP_BUSY : Fld := ⟨0x044, 0x4, 31, 31⟩
def SCR_STAT_TILE : Fld := ⟨0x044, 0x4, 10, 0⟩
def SCR_STAT : Fld := ⟨0x044, 0x4, 31, 0⟩
def SCR_LEND_SEL_INC : Fld := ⟨0x048, 0x4, 7, 7⟩
def SCR_LEND_SEL_GROUP : Fld := ⟨0x048, 0x4, 6, 0⟩
def SCR_LEND_SEL : Fld := ⟨0x048, 0x4, 31, 0⟩
def SCR_LEND_PTR_INC : Fld := ⟨0x04C, 0x4, 7, 7⟩
def SCR_LEND_PTR_GROUP : Fld := ⟨0x04C, 0x4, 6, 0⟩
def SCR_LEND_PTR : Fld := ⟨0x04C, 0x4, 31, 0⟩
def SCR_LEND_DATA : Fld := ⟨0x050, 0x4, 31, 0⟩
def SCR_CE_CNT : Fld := ⟨0x054, 0x4, 31, 0⟩
def SCR_UE_CNT : Fld := ⟨0x058, 0x4, 31, 0⟩
def SCR_ECC_LAST_UE : Fld := ⟨0x05C, 0x4, 31, 31⟩
def SCR_ECC_LAST_OFS : Fld := ⟨0x05C, 0x4, 26, 0⟩
def SCR_ECC_LAST : Fld := ⟨0x05C, 0x4, 31, 0⟩
def SCR_TEST_COLLIDE_CNT : Fld := ⟨0x060, 0x4, 31, 0⟩
def SCR_HOST_WPROT_CNT : Fld := ⟨0x064, 0x4, 31, 0⟩
def SCR_REPAIR_CNT : Fld := ⟨0x068, 0x4, 15, 0⟩
def SCR_SPARE_MIN : Fld := ⟨0x06C, 0x4, 3, 0⟩
def SCR_CLR : Fld := ⟨0x070, 0x4, 0, 0⟩
def SCR_CONFLICT_CNT : Fld := ⟨0x080, 0x4, 31, 0⟩
def SCR_WRITE_COLLIDE_CNT : Fld := ⟨0x0C0, 0x4, 31, 0⟩
def SCR_LEND_STALL_CNT : Fld := ⟨0x100, 0x4, 31, 0⟩
def MAR_CTL_ROT_EN : Fld := ⟨0x040, 0x4, 31, 31⟩
def MAR_CTL_ROT_HOURS : Fld := ⟨0x040, 0x4, 27, 24⟩
def MAR_CTL_ALG : Fld := ⟨0x040, 0x4, 17, 16⟩
def MAR_CTL_YIELD_HOLD : Fld := ⟨0x040, 0x4, 15, 0⟩
def MAR_CTL : Fld := ⟨0x040, 0x4, 31, 0⟩
def MAR_STAT_BUSY : Fld := ⟨0x044, 0x4, 31, 31⟩
def MAR_STAT_DESTRUCTIVE : Fld := ⟨0x044, 0x4, 30, 30⟩
def MAR_STAT_COMMAND : Fld := ⟨0x044, 0x4, 29, 29⟩
def MAR_STAT_TILE : Fld := ⟨0x044, 0x4, 10, 0⟩
def MAR_STAT : Fld := ⟨0x044, 0x4, 31, 0⟩
def MAR_ROT_POS : Fld := ⟨0x048, 0x4, 10, 0⟩
def MAR_ROT_PASS_CNT : Fld := ⟨0x04C, 0x4, 31, 0⟩
def MAR_TILE_CNT : Fld := ⟨0x050, 0x4, 31, 0⟩
def MAR_FAIL_CNT : Fld := ⟨0x054, 0x4, 31, 0⟩
def MAR_FAIL_ADDR : Fld := ⟨0x058, 0x4, 26, 0⟩
def MAR_FAIL_BITS_LO : Fld := ⟨0x05C, 0x4, 31, 0⟩
def MAR_FAIL_BITS_HI : Fld := ⟨0x060, 0x4, 31, 0⟩
def MAR_YIELD_CNT : Fld := ⟨0x064, 0x4, 31, 0⟩
def MAR_UNREPAIRED_CNT : Fld := ⟨0x068, 0x4, 31, 0⟩
def MAR_CLR : Fld := ⟨0x06C, 0x4, 0, 0⟩
def DMC_SCRUB_CFG_EN : Fld := ⟨0x040, 0x4, 31, 31⟩
def DMC_SCRUB_CFG_SCRUB_MIN : Fld := ⟨0x040, 0x4, 7, 0⟩
def DMC_SCRUB_CFG : Fld := ⟨0x040, 0x4, 31, 0⟩
def DMC_WPROT_CFG_WPROT_EN : Fld := ⟨0x044, 0x4, 0, 0⟩
def DMC_WPROT_CFG : Fld := ⟨0x044, 0x4, 31, 0⟩
def DMC_STAT_TRAINED : Fld := ⟨0x048, 0x4, 31, 31⟩
def DMC_STAT_REPAIR_DONE : Fld := ⟨0x048, 0x4, 30, 30⟩
def DMC_STAT_STACKS : Fld := ⟨0x048, 0x4, 7, 0⟩
def DMC_STAT : Fld := ⟨0x048, 0x4, 31, 0⟩
def DMC_CAP : Fld := ⟨0x04C, 0x4, 19, 0⟩
def DMC_SCRUB_POS : Fld := ⟨0x050, 0x4, 31, 0⟩
def DMC_SCRUB_PASS_CNT : Fld := ⟨0x054, 0x4, 31, 0⟩
def DMC_CE_CNT : Fld := ⟨0x058, 0x4, 31, 0⟩
def DMC_UE_CNT : Fld := ⟨0x05C, 0x4, 31, 0⟩
def DMC_ECC_LAST_LO : Fld := ⟨0x060, 0x4, 31, 0⟩
def DMC_ECC_LAST_HI : Fld := ⟨0x064, 0x4, 31, 0⟩
def DMC_WPROT_CNT : Fld := ⟨0x068, 0x4, 31, 0⟩
def DMC_REPAIR_CNT : Fld := ⟨0x06C, 0x4, 15, 0⟩
def DMC_BADROW_CNT : Fld := ⟨0x070, 0x4, 6, 0⟩
def DMC_BADROW_SEL : Fld := ⟨0x074, 0x4, 5, 0⟩
def DMC_BADROW_LO : Fld := ⟨0x078, 0x4, 31, 0⟩
def DMC_BADROW_HI : Fld := ⟨0x07C, 0x4, 5, 0⟩
def DMC_REPAIR_FAIL_CNT : Fld := ⟨0x080, 0x4, 31, 0⟩
def DMC_CLR : Fld := ⟨0x084, 0x4, 0, 0⟩
def DMC_STACK_STAT_PRESENT : Fld := ⟨0x0C0, 0x4, 31, 31⟩
def DMC_STACK_STAT_TRAINED : Fld := ⟨0x0C0, 0x4, 30, 30⟩
def DMC_STACK_STAT_REPAIRED : Fld := ⟨0x0C0, 0x4, 15, 8⟩
def DMC_STACK_STAT_LISTED : Fld := ⟨0x0C0, 0x4, 7, 0⟩
def DMC_STACK_STAT : Fld := ⟨0x0C0, 0x4, 31, 0⟩
def DMC_CTRL_STAT : Fld := ⟨0x0E0, 0x4, 7, 0⟩
def STO_CTL_DEALLOC_EN : Fld := ⟨0x040, 0x4, 16, 16⟩
def STO_CTL_COMMIT_US : Fld := ⟨0x040, 0x4, 9, 0⟩
def STO_CTL : Fld := ⟨0x040, 0x4, 31, 0⟩
def STO_STAT_READY : Fld := ⟨0x044, 0x4, 31, 31⟩
def STO_STAT_WRITING : Fld := ⟨0x044, 0x4, 30, 30⟩
def STO_STAT_SCRUB_BUSY : Fld := ⟨0x044, 0x4, 29, 29⟩
def STO_STAT_FORMAT_BUSY : Fld := ⟨0x044, 0x4, 28, 28⟩
def STO_STAT_TABLE_SINGLE : Fld := ⟨0x044, 0x4, 27, 27⟩
def STO_STAT_CAUSE : Fld := ⟨0x044, 0x4, 23, 20⟩
def STO_STAT_PORTS : Fld := ⟨0x044, 0x4, 3, 0⟩
def STO_STAT : Fld := ⟨0x044, 0x4, 31, 0⟩
def STO_STORE_ID : Fld := ⟨0x048, 0x4, 31, 0⟩
def STO_GEN : Fld := ⟨0x04C, 0x4, 31, 0⟩
def STO_CAP_MIB : Fld := ⟨0x050, 0x4, 24, 0⟩
def STO_FREE_MIB : Fld := ⟨0x054, 0x4, 24, 0⟩
def STO_ALLOT_USED : Fld := ⟨0x058, 0x4, 31, 0⟩
def STO_REC_SLOT_VALID : Fld := ⟨0x05C, 0x4, 31, 31⟩
def STO_REC_SLOT_SLOT : Fld := ⟨0x05C, 0x4, 15, 0⟩
def STO_REC_SLOT : Fld := ⟨0x05C, 0x4, 31, 0⟩
def STO_CAT_SEL : Fld := ⟨0x060, 0x4, 15, 0⟩
def STO_CAT_STAT_STATE : Fld := ⟨0x064, 0x4, 31, 28⟩
def STO_CAT_STAT : Fld := ⟨0x064, 0x4, 31, 0⟩
def STO_CAT_REC : Fld := ⟨0x068, 0x4, 31, 0⟩
def STO_CAT_SEG : Fld := ⟨0x06C, 0x4, 31, 0⟩
def STO_CAT_BYTES_LO : Fld := ⟨0x070, 0x4, 31, 0⟩
def STO_CAT_BYTES_HI : Fld := ⟨0x074, 0x4, 31, 0⟩
def STO_FREE_REC : Fld := ⟨0x078, 0x4, 15, 0⟩
def STO_REC_CNT : Fld := ⟨0x07C, 0x4, 16, 0⟩
def STO_UNCOMMITTED : Fld := ⟨0x080, 0x4, 15, 0⟩
def STO_WRITE_ERR_CNT : Fld := ⟨0x084, 0x4, 31, 0⟩
def STO_LOST_CHUNK_CNT : Fld := ⟨0x088, 0x4, 31, 0⟩
def STO_SCRUB_BAD_CNT : Fld := ⟨0x08C, 0x4, 31, 0⟩
def STO_FULL_CNT : Fld := ⟨0x090, 0x4, 31, 0⟩
def STO_CLR : Fld := ⟨0x094, 0x4, 0, 0⟩
def STO_DRIVE_STAT_PRESENT : Fld := ⟨0x0A0, 0x4, 31, 31⟩
def STO_DRIVE_STAT_IN_STORE : Fld := ⟨0x0A0, 0x4, 30, 30⟩
def STO_DRIVE_STAT_LOST : Fld := ⟨0x0A0, 0x4, 29, 29⟩
def STO_DRIVE_STAT_VWC : Fld := ⟨0x0A0, 0x4, 28, 28⟩
def STO_DRIVE_STAT_FREE_EXT : Fld := ⟨0x0A0, 0x4, 15, 0⟩
def STO_DRIVE_STAT : Fld := ⟨0x0A0, 0x4, 31, 0⟩
def STO_DRIVE_MIB : Fld := ⟨0x0B0, 0x4, 24, 0⟩
def NVQ_CTL_QDEPTH : Fld := ⟨0x040, 0x4, 31, 20⟩
def NVQ_CTL_IOQ_MAX : Fld := ⟨0x040, 0x4, 6, 0⟩
def NVQ_CTL : Fld := ⟨0x040, 0x4, 31, 0⟩
def NVQ_TIMEOUT : Fld := ⟨0x044, 0x4, 15, 0⟩
def NVQ_RESET : Fld := ⟨0x048, 0x4, 3, 0⟩
def NVQ_CLR : Fld := ⟨0x04C, 0x4, 0, 0⟩
def NVQ_PORT_STAT_LINK_UP : Fld := ⟨0x080, 0x20, 31, 31⟩
def NVQ_PORT_STAT_CTRL_READY : Fld := ⟨0x080, 0x20, 30, 30⟩
def NVQ_PORT_STAT_FATAL : Fld := ⟨0x080, 0x20, 29, 29⟩
def NVQ_PORT_STAT_GEN : Fld := ⟨0x080, 0x20, 27, 24⟩
def NVQ_PORT_STAT_WIDTH : Fld := ⟨0x080, 0x20, 23, 20⟩
def NVQ_PORT_STAT_IOQ : Fld := ⟨0x080, 0x20, 6, 0⟩
def NVQ_PORT_STAT : Fld := ⟨0x080, 0x20, 31, 0⟩
def NVQ_INFLIGHT : Fld := ⟨0x084, 0x20, 12, 0⟩
def NVQ_ERR_CNT : Fld := ⟨0x088, 0x20, 31, 0⟩
def NVQ_TIMEOUT_CNT : Fld := ⟨0x08C, 0x20, 31, 0⟩
def NVQ_LAST_ERR_OPC : Fld := ⟨0x090, 0x20, 23, 16⟩
def NVQ_LAST_ERR_STATUS : Fld := ⟨0x090, 0x20, 14, 0⟩
def NVQ_LAST_ERR : Fld := ⟨0x090, 0x20, 31, 0⟩
def NVQ_MDTS_KIB : Fld := ⟨0x094, 0x20, 15, 0⟩
def NVQ_NS_BLOCKS_LO : Fld := ⟨0x098, 0x20, 31, 0⟩
def NVQ_NS_BLOCKS_HI : Fld := ⟨0x09C, 0x20, 31, 0⟩
def HIF_HOST_MODE_MODE : Fld := ⟨0x040, 0x4, 1, 0⟩
def HIF_HOST_MODE : Fld := ⟨0x040, 0x4, 31, 0⟩
def HIF_LINK_STAT_UP : Fld := ⟨0x044, 0x4, 31, 31⟩
def HIF_LINK_STAT_GEN : Fld := ⟨0x044, 0x4, 27, 24⟩
def HIF_LINK_STAT_WIDTH : Fld := ⟨0x044, 0x4, 20, 16⟩
def HIF_LINK_STAT : Fld := ⟨0x044, 0x4, 31, 0⟩
def HIF_POISON_RX_CNT : Fld := ⟨0x048, 0x4, 31, 0⟩
def HIF_POISON_TX_CNT : Fld := ⟨0x04C, 0x4, 31, 0⟩
def HIF_DMA_ERR_CNT : Fld := ⟨0x050, 0x4, 31, 0⟩
def HIF_CLR : Fld := ⟨0x054, 0x4, 0, 0⟩
def CMD_CTL_RUN_MAX : Fld := ⟨0x040, 0x4, 22, 16⟩
def CMD_CTL_STITCH_US : Fld := ⟨0x040, 0x4, 7, 0⟩
def CMD_CTL : Fld := ⟨0x040, 0x4, 31, 0⟩
def CMD_RING_HI : Fld := ⟨0x044, 0x4, 19, 0⟩
def CMD_STAT_OPS : Fld := ⟨0x048, 0x4, 28, 16⟩
def CMD_STAT_STITCHES : Fld := ⟨0x048, 0x4, 6, 0⟩
def CMD_STAT : Fld := ⟨0x048, 0x4, 31, 0⟩
def CMD_SQ_BASE : Fld := ⟨0x100, 0x4, 31, 0⟩
def CMD_CQ_BASE : Fld := ⟨0x140, 0x4, 31, 0⟩
def CMD_RING_CFG_EN : Fld := ⟨0x180, 0x4, 31, 31⟩
def CMD_RING_CFG_PRIO : Fld := ⟨0x180, 0x4, 30, 30⟩
def CMD_RING_CFG_SQ_LOG : Fld := ⟨0x180, 0x4, 29, 26⟩
def CMD_RING_CFG_CQ_LOG : Fld := ⟨0x180, 0x4, 25, 22⟩
def CMD_RING_CFG_VEC : Fld := ⟨0x180, 0x4, 21, 13⟩
def CMD_RING_CFG_COAL_CNT : Fld := ⟨0x180, 0x4, 12, 8⟩
def CMD_RING_CFG_COAL_US : Fld := ⟨0x180, 0x4, 7, 0⟩
def CMD_RING_CFG : Fld := ⟨0x180, 0x4, 31, 0⟩
def CMD_DB_SQ_V : Fld := ⟨0x1C0, 0x4, 31, 31⟩
def CMD_DB_CQ_V : Fld := ⟨0x1C0, 0x4, 30, 30⟩
def CMD_DB_CQ_HEAD : Fld := ⟨0x1C0, 0x4, 27, 16⟩
def CMD_DB_SQ_TAIL : Fld := ⟨0x1C0, 0x4, 11, 0⟩
def CMD_DB : Fld := ⟨0x1C0, 0x4, 31, 0⟩
def CMD_PTR_SQ_ERR : Fld := ⟨0x200, 0x4, 31, 31⟩
def CMD_PTR_CQ_ERR : Fld := ⟨0x200, 0x4, 30, 30⟩
def CMD_PTR_CQ_TAIL : Fld := ⟨0x200, 0x4, 27, 16⟩
def CMD_PTR_SQ_HEAD : Fld := ⟨0x200, 0x4, 11, 0⟩
def CMD_PTR : Fld := ⟨0x200, 0x4, 31, 0⟩
def IRQ_CTL_EN : Fld := ⟨0x040, 0x4, 0, 0⟩
def IRQ_CTL : Fld := ⟨0x040, 0x4, 31, 0⟩
def IRQ_REQ : Fld := ⟨0x050, 0x4, 31, 0⟩
def IRQ_MAP_EN0 : Fld := ⟨0x100, 0x4, 15, 15⟩
def IRQ_MAP_VEC0 : Fld := ⟨0x100, 0x4, 8, 0⟩
def IRQ_MAP_EN1 : Fld := ⟨0x100, 0x4, 31, 31⟩
def IRQ_MAP_VEC1 : Fld := ⟨0x100, 0x4, 24, 16⟩
def IRQ_MAP : Fld := ⟨0x100, 0x4, 31, 0⟩
def ETH_CTL_EN : Fld := ⟨0x040, 0x4, 31, 31⟩
def ETH_CTL_MTU : Fld := ⟨0x040, 0x4, 13, 0⟩
def ETH_CTL : Fld := ⟨0x040, 0x4, 31, 0⟩
def ETH_MAC_LO : Fld := ⟨0x044, 0x4, 31, 0⟩
def ETH_MAC_HI : Fld := ⟨0x048, 0x4, 15, 0⟩
def ETH_SRC_IP4 : Fld := ⟨0x04C, 0x4, 31, 0⟩
def ETH_SRC_IP6 : Fld := ⟨0x050, 0x4, 31, 0⟩
def ETH_PORT_STAT : Fld := ⟨0x060, 0x4, 7, 0⟩
def ETH_CLR : Fld := ⟨0x064, 0x4, 0, 0⟩
def DEST_CFG_EN : Fld := ⟨0x080, 0x30, 31, 31⟩
def DEST_CFG_IPV6 : Fld := ⟨0x080, 0x30, 30, 30⟩
def DEST_CFG_PACED : Fld := ⟨0x080, 0x30, 29, 29⟩
def DEST_CFG_PORT : Fld := ⟨0x080, 0x30, 26, 24⟩
def DEST_CFG : Fld := ⟨0x080, 0x30, 31, 0⟩
def DEST_IP0 : Fld := ⟨0x084, 0x30, 31, 0⟩
def DEST_IP1 : Fld := ⟨0x088, 0x30, 31, 0⟩
def DEST_IP2 : Fld := ⟨0x08C, 0x30, 31, 0⟩
def DEST_IP3 : Fld := ⟨0x090, 0x30, 31, 0⟩
def DEST_MAC_LO : Fld := ⟨0x094, 0x30, 31, 0⟩
def DEST_MAC_HI : Fld := ⟨0x098, 0x30, 15, 0⟩
def DEST_UDP_SRC : Fld := ⟨0x09C, 0x30, 31, 16⟩
def DEST_UDP_DST : Fld := ⟨0x09C, 0x30, 15, 0⟩
def DEST_UDP : Fld := ⟨0x09C, 0x30, 31, 0⟩
def DEST_STREAMS : Fld := ⟨0x0A0, 0x30, 21, 0⟩
def DEST_DROP_CNT : Fld := ⟨0x0A4, 0x30, 31, 0⟩
def DEST_SENT_CNT : Fld := ⟨0x0A8, 0x30, 31, 0⟩
def CAS_CTL_FIRE_TX : Fld := ⟨0x040, 0x4, 31, 31⟩
def CAS_CTL_FIRE_RX : Fld := ⟨0x040, 0x4, 30, 30⟩
def CAS_CTL_ARM_ALL : Fld := ⟨0x040, 0x4, 29, 29⟩
def CAS_CTL_STOP_ALL : Fld := ⟨0x040, 0x4, 28, 28⟩
def CAS_CTL_HINT_CHK : Fld := ⟨0x040, 0x4, 27, 27⟩
def CAS_CTL_ARM_LEAD : Fld := ⟨0x040, 0x4, 23, 8⟩
def CAS_CTL_REACH_US : Fld := ⟨0x040, 0x4, 7, 0⟩
def CAS_CTL : Fld := ⟨0x040, 0x4, 31, 0⟩
def CAS_EXPECT : Fld := ⟨0x044, 0x4, 6, 0⟩
def CAS_RWIN_DEV : Fld := ⟨0x048, 0x4, 5, 0⟩
def CAS_RWIN_CFG_RWIN_TIMEOUT : Fld := ⟨0x04C, 0x4, 15, 0⟩
def CAS_RWIN_CFG : Fld := ⟨0x04C, 0x4, 31, 0⟩
def CAS_STAT_READY : Fld := ⟨0x050, 0x4, 31, 31⟩
def CAS_STAT_BROKEN : Fld := ⟨0x050, 0x4, 30, 30⟩
def CAS_STAT_ENUM_BUSY : Fld := ⟨0x050, 0x4, 29, 29⟩
def CAS_STAT_ALIGNED : Fld := ⟨0x050, 0x4, 28, 28⟩
def CAS_STAT_ROLE : Fld := ⟨0x050, 0x4, 27, 26⟩
def CAS_STAT_HINT_MISMATCH : Fld := ⟨0x050, 0x4, 25, 25⟩
def CAS_STAT_ROOT_CONFLICT : Fld := ⟨0x050, 0x4, 24, 24⟩
def CAS_STAT_COUNT : Fld := ⟨0x050, 0x4, 22, 16⟩
def CAS_STAT_ADDR : Fld := ⟨0x050, 0x4, 5, 0⟩
def CAS_STAT : Fld := ⟨0x050, 0x4, 31, 0⟩
def CAS_ENUM_STAT_CAUSE : Fld := ⟨0x054, 0x4, 31, 28⟩
def CAS_ENUM_STAT_EAST_COUNT : Fld := ⟨0x054, 0x4, 22, 16⟩
def CAS_ENUM_STAT_WEST_COUNT : Fld := ⟨0x054, 0x4, 14, 8⟩
def CAS_ENUM_STAT_FAR_HOPS : Fld := ⟨0x054, 0x4, 5, 0⟩
def CAS_ENUM_STAT : Fld := ⟨0x054, 0x4, 31, 0⟩
def CAS_REACH_LO : Fld := ⟨0x058, 0x4, 31, 0⟩
def CAS_REACH_HI : Fld := ⟨0x05C, 0x4, 31, 0⟩
def CAS_ARM_FAIL_LO : Fld := ⟨0x060, 0x4, 31, 0⟩
def CAS_ARM_FAIL_HI : Fld := ⟨0x064, 0x4, 31, 0⟩
def CAS_ALIGN_RES : Fld := ⟨0x068, 0x4, 8, 0⟩
def CAS_ALIGN_DEV : Fld := ⟨0x06C, 0x4, 31, 0⟩
def CAS_ALIGN_CFG_DEV_TOL : Fld := ⟨0x070, 0x4, 31, 24⟩
def CAS_ALIGN_CFG_VERIFY_MS : Fld := ⟨0x070, 0x4, 23, 12⟩
def CAS_ALIGN_CFG_ALIGN_MS : Fld := ⟨0x070, 0x4, 11, 0⟩
def CAS_ALIGN_CFG : Fld := ⟨0x070, 0x4, 31, 0⟩
def CAS_ASYM_E : Fld := ⟨0x074, 0x4, 31, 0⟩
def CAS_ASYM_W : Fld := ⟨0x078, 0x4, 31, 0⟩
def CAS_ANG_CFG_DIST : Fld := ⟨0x07C, 0x4, 3, 0⟩
def CAS_ANG_CFG : Fld := ⟨0x07C, 0x4, 31, 0⟩
def CAS_FIRE_TX_CNT : Fld := ⟨0x080, 0x4, 31, 0⟩
def CAS_FIRE_RX_CNT : Fld := ⟨0x084, 0x4, 31, 0⟩
def CAS_FIRE_YIELD_CNT : Fld := ⟨0x088, 0x4, 31, 0⟩
def CAS_FIRE_IGN_CNT : Fld := ⟨0x08C, 0x4, 31, 0⟩
def CAS_RETRACT_RX_CNT : Fld := ⟨0x090, 0x4, 31, 0⟩
def CAS_ARM_LATE_CNT : Fld := ⟨0x094, 0x4, 31, 0⟩
def CAS_ANG_ADJ_CNT : Fld := ⟨0x098, 0x4, 31, 0⟩
def CAS_RWIN_ERR_CNT : Fld := ⟨0x09C, 0x4, 31, 0⟩
def CAS_CLR : Fld := ⟨0x0A0, 0x4, 0, 0⟩
def FLX_CTL_RETRY_MAX : Fld := ⟨0x040, 0x4, 31, 28⟩
def FLX_CTL_LOSS_US : Fld := ⟨0x040, 0x4, 19, 16⟩
def FLX_CTL_PORT_EN : Fld := ⟨0x040, 0x4, 2, 0⟩
def FLX_CTL : Fld := ⟨0x040, 0x4, 31, 0⟩
def FLX_RETRAIN : Fld := ⟨0x044, 0x4, 2, 0⟩
def FLX_CLR : Fld := ⟨0x048, 0x4, 0, 0⟩
def FLX_PORT_STAT_STATE : Fld := ⟨0x080, 0x20, 31, 30⟩
def FLX_PORT_STAT_PAIR_LOCK : Fld := ⟨0x080, 0x20, 29, 29⟩
def FLX_PORT_STAT_LANES : Fld := ⟨0x080, 0x20, 19, 16⟩
def FLX_PORT_STAT_RESENDS : Fld := ⟨0x080, 0x20, 7, 0⟩
def FLX_PORT_STAT : Fld := ⟨0x080, 0x20, 31, 0⟩
def FLX_CRC_ERR_CNT : Fld := ⟨0x084, 0x20, 31, 0⟩
def FLX_FEC_CORR_CNT : Fld := ⟨0x088, 0x20, 31, 0⟩
def FLX_FEC_UNCORR_CNT : Fld := ⟨0x08C, 0x20, 31, 0⟩
def FLX_RETRY_CNT : Fld := ⟨0x090, 0x20, 31, 0⟩
def FLX_LOSS_CNT : Fld := ⟨0x094, 0x20, 31, 0⟩
def FLX_TOKEN_TX_CNT : Fld := ⟨0x098, 0x20, 31, 0⟩
def FLX_TOKEN_RX_CNT : Fld := ⟨0x09C, 0x20, 31, 0⟩
def TWN_CTL_EN : Fld := ⟨0x040, 0x4, 31, 31⟩
def TWN_CTL_MODE : Fld := ⟨0x040, 0x4, 30, 30⟩
def TWN_CTL_SEAM_EXP : Fld := ⟨0x040, 0x4, 28, 24⟩
def TWN_CTL_SEAMED : Fld := ⟨0x040, 0x4, 17, 0⟩
def TWN_CTL : Fld := ⟨0x040, 0x4, 31, 0⟩
def TWN_PAIR_ID : Fld := ⟨0x044, 0x4, 31, 0⟩
def TWN_TOL_TOL_EDGE : Fld := ⟨0x048, 0x4, 31, 24⟩
def TWN_TOL_TOL_SKEW : Fld := ⟨0x048, 0x4, 23, 16⟩
def TWN_TOL_TOL_CODE : Fld := ⟨0x048, 0x4, 15, 0⟩
def TWN_TOL : Fld := ⟨0x048, 0x4, 31, 0⟩
def TWN_FIRE_TOL_FIRE_TOL : Fld := ⟨0x04C, 0x4, 15, 0⟩
def TWN_FIRE_TOL : Fld := ⟨0x04C, 0x4, 31, 0⟩
def TWN_STAT_STATE : Fld := ⟨0x050, 0x4, 31, 29⟩
def TWN_STAT_PRIMARY : Fld := ⟨0x050, 0x4, 28, 28⟩
def TWN_STAT_CAUSE : Fld := ⟨0x050, 0x4, 27, 24⟩
def TWN_STAT_LINK_UP : Fld := ⟨0x050, 0x4, 23, 23⟩
def TWN_STAT_MASKED : Fld := ⟨0x050, 0x4, 22, 22⟩
def TWN_STAT_DIVERGED : Fld := ⟨0x050, 0x4, 21, 21⟩
def TWN_STAT_SPAN : Fld := ⟨0x050, 0x4, 15, 0⟩
def TWN_STAT : Fld := ⟨0x050, 0x4, 31, 0⟩
def TWN_PARTNER_VALID : Fld := ⟨0x054, 0x4, 31, 31⟩
def TWN_PARTNER_ADDR : Fld := ⟨0x054, 0x4, 29, 24⟩
def TWN_PARTNER_MAJOR : Fld := ⟨0x054, 0x4, 15, 8⟩
def TWN_PARTNER_STEP : Fld := ⟨0x054, 0x4, 7, 0⟩
def TWN_PARTNER : Fld := ⟨0x054, 0x4, 31, 0⟩
def TWN_DETACH : Fld := ⟨0x058, 0x4, 0, 0⟩
def TWN_DIV_LAST_FIRE : Fld := ⟨0x05C, 0x4, 24, 24⟩
def TWN_DIV_LAST_STREAM : Fld := ⟨0x05C, 0x4, 20, 16⟩
def TWN_DIV_LAST_SPAN : Fld := ⟨0x05C, 0x4, 15, 0⟩
def TWN_DIV_LAST : Fld := ⟨0x05C, 0x4, 31, 0⟩
def TWN_DIV_MASK_FIRE : Fld := ⟨0x060, 0x4, 18, 18⟩
def TWN_DIV_MASK_STREAMS : Fld := ⟨0x060, 0x4, 17, 0⟩
def TWN_DIV_MASK : Fld := ⟨0x060, 0x4, 31, 0⟩
def TWN_ALIGN_DEV : Fld := ⟨0x064, 0x4, 31, 0⟩
def TWN_SEAM_CNT : Fld := ⟨0x080, 0x4, 31, 0⟩
def TWN_SEAM_SKIP_CNT : Fld := ⟨0x084, 0x4, 31, 0⟩
def TWN_DIVERGE_CNT : Fld := ⟨0x088, 0x4, 31, 0⟩
def TWN_THIN_LATE_CNT : Fld := ⟨0x08C, 0x4, 31, 0⟩
def TWN_FIRE_MISMATCH_CNT : Fld := ⟨0x090, 0x4, 31, 0⟩
def TWN_ARM_IGN_CNT : Fld := ⟨0x094, 0x4, 31, 0⟩
def TWN_CLR : Fld := ⟨0x098, 0x4, 0, 0⟩
def SAF_CTL_REACT : Fld := ⟨0x040, 0x4, 15, 0⟩
def SAF_CTL : Fld := ⟨0x040, 0x4, 31, 0⟩
def SAF_STAT_SAFE : Fld := ⟨0x044, 0x4, 31, 31⟩
def SAF_STAT_SAFE_FAULT : Fld := ⟨0x044, 0x4, 30, 30⟩
def SAF_STAT_RESET_NEEDED : Fld := ⟨0x044, 0x4, 29, 29⟩
def SAF_STAT : Fld := ⟨0x044, 0x4, 31, 0⟩
def SAF_FAULT_RAW : Fld := ⟨0x048, 0x4, 14, 0⟩
def SAF_FAULT_LATCH : Fld := ⟨0x04C, 0x4, 14, 0⟩
def SAF_FIRST_VALID : Fld := ⟨0x050, 0x4, 31, 31⟩
def SAF_FIRST_BIT : Fld := ⟨0x050, 0x4, 3, 0⟩
def SAF_FIRST : Fld := ⟨0x050, 0x4, 31, 0⟩
def SAF_CLEAR : Fld := ⟨0x054, 0x4, 15, 0⟩
def SAF_SEAL_SEL : Fld := ⟨0x058, 0x4, 7, 0⟩
def SAF_SEAL_EXP : Fld := ⟨0x05C, 0x4, 31, 0⟩
def SAF_SEAL_ALT : Fld := ⟨0x060, 0x4, 31, 0⟩
def SAF_SAFE_CNT : Fld := ⟨0x064, 0x4, 31, 0⟩
def SAF_SEAL_CHK_CNT : Fld := ⟨0x068, 0x4, 31, 0⟩
def SAF_CLR : Fld := ⟨0x06C, 0x4, 0, 0⟩
def SAF_SEAL_EN : Fld := ⟨0x080, 0x4, 31, 0⟩
def SAF_SEAL_FAIL : Fld := ⟨0x090, 0x4, 31, 0⟩
def SER_TEST : Fld := ⟨0x040, 0x4, 5, 0⟩
def SER_CLR : Fld := ⟨0x044, 0x4, 0, 0⟩
def SER_LANE_STAT_SIGNAL : Fld := ⟨0x080, 0x4, 31, 31⟩
def SER_LANE_STAT_LOCKED : Fld := ⟨0x080, 0x4, 30, 30⟩
def SER_LANE_STAT_MODE : Fld := ⟨0x080, 0x4, 29, 28⟩
def SER_LANE_STAT_EYE : Fld := ⟨0x080, 0x4, 15, 0⟩
def SER_LANE_STAT : Fld := ⟨0x080, 0x4, 31, 0⟩
def SER_LANE_ERR : Fld := ⟨0x140, 0x4, 31, 0⟩
def CPX_FW_VER_MAJOR : Fld := ⟨0x040, 0x4, 31, 24⟩
def CPX_FW_VER_MINOR : Fld := ⟨0x040, 0x4, 23, 16⟩
def CPX_FW_VER_PATCH : Fld := ⟨0x040, 0x4, 15, 0⟩
def CPX_FW_VER : Fld := ⟨0x040, 0x4, 31, 0⟩
def CPX_FW_BUILD : Fld := ⟨0x044, 0x4, 31, 0⟩
def CPX_ROM_VER_MAJOR : Fld := ⟨0x048, 0x4, 15, 8⟩
def CPX_ROM_VER_MINOR : Fld := ⟨0x048, 0x4, 7, 0⟩
def CPX_ROM_VER : Fld := ⟨0x048, 0x4, 31, 0⟩
def CPX_STAT_RUNNING : Fld := ⟨0x04C, 0x4, 31, 31⟩
def CPX_STAT_PAIR0_OK : Fld := ⟨0x04C, 0x4, 30, 30⟩
def CPX_STAT_PAIR1_OK : Fld := ⟨0x04C, 0x4, 29, 29⟩
def CPX_STAT_WAIT_IMAGE : Fld := ⟨0x04C, 0x4, 28, 28⟩
def CPX_STAT_BUSY : Fld := ⟨0x04C, 0x4, 7, 0⟩
def CPX_STAT : Fld := ⟨0x04C, 0x4, 31, 0⟩
def CPX_HEARTBEAT : Fld := ⟨0x050, 0x4, 31, 0⟩
def CPX_IMAGE_LEN : Fld := ⟨0x054, 0x4, 31, 0⟩
def CPX_IMAGE_SRC : Fld := ⟨0x058, 0x4, 1, 0⟩
def CPX_MBOX_CMD_OPC : Fld := ⟨0x05C, 0x4, 31, 24⟩
def CPX_MBOX_CMD_TAG : Fld := ⟨0x05C, 0x4, 15, 0⟩
def CPX_MBOX_CMD : Fld := ⟨0x05C, 0x4, 31, 0⟩
def CPX_MBOX_STATUS_BUSY : Fld := ⟨0x060, 0x4, 31, 31⟩
def CPX_MBOX_STATUS_STATUS : Fld := ⟨0x060, 0x4, 23, 16⟩
def CPX_MBOX_STATUS_TAG : Fld := ⟨0x060, 0x4, 15, 0⟩
def CPX_MBOX_STATUS : Fld := ⟨0x060, 0x4, 31, 0⟩
def CPX_MBOX_RESULT_LO : Fld := ⟨0x064, 0x4, 31, 0⟩
def CPX_MBOX_RESULT_HI : Fld := ⟨0x068, 0x4, 31, 0⟩
def CPX_FLASH_PCT : Fld := ⟨0x06C, 0x4, 6, 0⟩
def CPX_STITCH_CNT : Fld := ⟨0x070, 0x4, 31, 0⟩
def CPX_CMD_DONE_CNT : Fld := ⟨0x074, 0x4, 31, 0⟩
def CPX_STITCH_MAX_US : Fld := ⟨0x078, 0x4, 15, 0⟩
def CPX_CLR : Fld := ⟨0x07C, 0x4, 0, 0⟩
def CPX_MBOX_ARG : Fld := ⟨0x080, 0x4, 31, 0⟩
def CPX_CORE_UTIL : Fld := ⟨0x0A0, 0x4, 6, 0⟩

end F

end Sys2Proof.Machine
end

