-- ==== Sys2Proof/Machine/Sparse.lean ====
section
/-!
DEFINITION. Sparse plain data: a list of key and value pairs with strictly rising keys that lists no key at its default
value, so that equal contents are equal lists. Register copies and both memories are held in this form.
-/
namespace Sys2Proof.Machine

/-- The value at key `k`; `d` gives what an unlisted key reads as. -/
def sget {α : Type} (d : Nat → α) : List (Nat × α) → Nat → α
  | [], k => d k
  | (a, v) :: r, k => if a = k then v else sget d r k

/-- Drop the entry at `k`. -/
def serase {α : Type} : List (Nat × α) → Nat → List (Nat × α)
  | [], _ => []
  | (a, v) :: r, k => if a = k then r else if k < a then (a, v) :: r else (a, v) :: serase r k

/-- List `k` with `v`, keeping the keys rising. -/
def sinsert {α : Type} : List (Nat × α) → Nat → α → List (Nat × α)
  | [], k, v => [(k, v)]
  | (a, w) :: r, k, v =>
    if k < a then (k, v) :: (a, w) :: r else if a = k then (k, v) :: r else (a, w) :: sinsert r k v

/-- Write `v` at `k`: writing the default removes the entry. -/
def sset {α : Type} [DecidableEq α] (d : Nat → α) (m : List (Nat × α)) (k : Nat) (v : α) : List (Nat × α) :=
  if v = d k then serase m k else sinsert m k v

/-- The canonical form: keys rise strictly and no entry holds the default of its key. -/
def swf {α : Type} [DecidableEq α] (d : Nat → α) : List (Nat × α) → Bool
  | [] => true
  | [(k, v)] => decide (v ≠ d k)
  | (k, v) :: (k', v') :: r => decide (v ≠ d k) && decide (k < k') && swf d ((k', v') :: r)

/-- Drop every entry whose key satisfies `p`: those keys return to their default. -/
def sdrop {α : Type} (p : Nat → Bool) (m : List (Nat × α)) : List (Nat × α) :=
  m.filter (fun e => !p e.1)

end Sys2Proof.Machine
end

