-- ==== Sys2Proof/Machine/RegFile.lean ====
section
/-!
DEFINITION. The page map (R33, R49), where a register lies, and what every register reads as after reset.
A key is `page * 0x1000 + offset`. Pages 0x100 and above are not pages of the part: they hold the tables reached through
window registers (R211, R344, R453): page 0x100 + e is entry e of the pattern table, 0x300 + g is tile group g of the lend
table, 0x400 + p is page p's entry of the seal table. Offsets in them are those of the window registers.
-/
namespace Sys2Proof.Machine

/-- Page indices of the page map (R49). -/
abbrev P.GLB : Nat := 0x00
abbrev P.PWR : Nat := 0x01
abbrev P.CKS (n : Nat) : Nat := 0x04 + n
abbrev P.CKO : Nat := 0x08
abbrev P.LTL (n : Nat) : Nat := 0x0C + n
abbrev P.ANG : Nat := 0x10
abbrev P.TIME : Nat := 0x11
abbrev P.DIG (g : Nat) : Nat := 0x20 + g
abbrev P.STP (g : Nat) : Nat := 0x28 + g
abbrev P.FRQ : Nat := 0x30
abbrev P.ADC : Nat := 0x38
abbrev P.ACC : Nat := 0x39
abbrev P.HAR : Nat := 0x3A
abbrev P.WIN : Nat := 0x3B
abbrev P.TLD : Nat := 0x40
abbrev P.TLDC : Nat := 0x41
abbrev P.TLDP : Nat := 0x42
abbrev P.TLDT : Nat := 0x43
abbrev P.GMB : Nat := 0x44
abbrev P.ACT : Nat := 0x45
abbrev P.ACQ : Nat := 0x48
abbrev P.ACQM : Nat := 0x49
abbrev P.ACQT : Nat := 0x4A
abbrev P.ACQX : Nat := 0x4B
abbrev P.RFQ : Nat := 0x50
abbrev P.CMP : Nat := 0x54
abbrev P.DCP : Nat := 0x55
abbrev P.SCR : Nat := 0x58
abbrev P.MAR : Nat := 0x59
abbrev P.DMC : Nat := 0x5A
abbrev P.STO : Nat := 0x5C
abbrev P.NVQ : Nat := 0x5D
abbrev P.HIF : Nat := 0x60
abbrev P.CMD : Nat := 0x61
abbrev P.IRQ : Nat := 0x62
abbrev P.ETH : Nat := 0x63
abbrev P.CAS : Nat := 0x68
abbrev P.FLX : Nat := 0x69
abbrev P.TWN : Nat := 0x6C
abbrev P.SAF : Nat := 0x6D
abbrev P.SER : Nat := 0x70
abbrev P.CPX : Nat := 0x78
/-- Entry `e` of the pattern table, tile group `g` of the lend table, page `p`'s entry of the seal table. -/
abbrev P.PT (e : Nat) : Nat := 0x100 + e
abbrev P.LEND (g : Nat) : Nat := 0x300 + g
abbrev P.SEAL (p : Nat) : Nat := 0x400 + p

/-- Every page of the page map with its type code (R49). -/
def pageMap : List (Nat × Nat) := [
  (0x00, 0x01), (0x01, 0x02), (0x04, 0x03), (0x05, 0x03), (0x06, 0x03), (0x07, 0x03), (0x08, 0x04),
  (0x0C, 0x05), (0x0D, 0x05), (0x0E, 0x05), (0x0F, 0x05), (0x10, 0x06), (0x11, 0x07),
  (0x20, 0x08), (0x21, 0x08), (0x22, 0x08), (0x23, 0x08), (0x24, 0x08), (0x25, 0x08), (0x26, 0x08), (0x27, 0x08),
  (0x28, 0x09), (0x29, 0x09), (0x2A, 0x09), (0x2B, 0x09), (0x2C, 0x09), (0x2D, 0x09), (0x2E, 0x09), (0x2F, 0x09),
  (0x30, 0x0A), (0x38, 0x0B), (0x39, 0x0C), (0x3A, 0x0D), (0x3B, 0x0E),
  (0x40, 0x0F), (0x41, 0x0F), (0x42, 0x0F), (0x43, 0x0F), (0x44, 0x10), (0x45, 0x11),
  (0x48, 0x12), (0x49, 0x12), (0x4A, 0x12), (0x4B, 0x12), (0x50, 0x13), (0x54, 0x14), (0x55, 0x15),
  (0x58, 0x16), (0x59, 0x17), (0x5A, 0x18), (0x5C, 0x19), (0x5D, 0x1A),
  (0x60, 0x1B), (0x61, 0x1C), (0x62, 0x1D), (0x63, 0x1E), (0x68, 0x1F), (0x69, 0x20), (0x6C, 0x21), (0x6D, 0x22),
  (0x70, 0x23), (0x78, 0x24)]

/-- The type code of a page; 0 for an index the page map does not list. -/
def pageType (p : Nat) : Nat := (pageMap.lookup p).getD 0

/-- Whether the page map lists the index (R28, R49). -/
def pageExists (p : Nat) : Bool := pageType p != 0

/-- The register map of a page: its block region 0x040 to 0x7FF (R36). -/
def pageRegs (p : Nat) : List RegDef :=
  match pageType p with
  | 0x01 => mapGLB | 0x02 => mapPWR | 0x03 => mapCKS | 0x04 => mapCKO | 0x05 => mapLTL | 0x06 => mapANG
  | 0x07 => mapTIME | 0x08 => mapDIG | 0x09 => mapSTP | 0x0A => mapFRQ | 0x0B => mapADC | 0x0C => mapACC
  | 0x0D => mapHAR | 0x0E => mapWIN
  | 0x0F => if p = 0x40 then mapTLD40 else if p = 0x41 then mapTLD41 else if p = 0x42 then mapTLD42 else mapTLD43
  | 0x10 => mapGMB | 0x11 => mapACT
  | 0x12 => if p = 0x48 then mapACQ48 else if p = 0x49 then mapACQ49 else if p = 0x4A then mapACQ4A else mapACQ4B
  | 0x13 => mapRFQ | 0x14 => mapCMP | 0x15 => mapDCP | 0x16 => mapSCR | 0x17 => mapMAR | 0x18 => mapDMC
  | 0x19 => mapSTO | 0x1A => mapNVQ | 0x1B => mapHIF | 0x1C => mapCMD | 0x1D => mapIRQ | 0x1E => mapETH
  | 0x1F => mapCAS | 0x20 => mapFLX | 0x21 => mapTWN | 0x22 => mapSAF | 0x23 => mapSER | 0x24 => mapCPX
  | _ => []

/-- The row of a map that holds offset `o`, with the instance number. CKS_DLG_TRIM stands on CKS0 only (R68). -/
def findReg : List RegDef → Nat → Option (RegDef × Nat)
  | [], _ => none
  | d :: r, o =>
    if d.off ≤ o ∧ (o - d.off) % d.stride = 0 ∧ (o - d.off) / d.stride < d.count
    then some (d, (o - d.off) / d.stride) else findReg r o

/-- The register at a page and offset. -/
def regAt (p o : Nat) : Option (RegDef × Nat) :=
  if pageType p = 0x03 ∧ p ≠ 0x04 ∧ 0x0E0 ≤ o ∧ o < 0x100 then none else findReg (pageRegs p) o

/-- The agreement group of instance `i` of a register (R36); none for a register in no group. -/
def RegDef.group (d : RegDef) (i : Nat) : Option Nat :=
  if d.grp = 99 then none else if d.gdiv = 0 then some d.grp else some (d.grp + i / d.gdiv)

/-- Agreement groups of a page type (PAGE_CAP.GROUPS, R32): one more than the highest group its map names. -/
def pageGroups (p : Nat) : Nat :=
  (pageRegs p).foldl (fun m d => if d.grp = 99 then m else
    Nat.max m (d.grp + (if d.gdiv = 0 then 0 else (d.count - 1) / d.gdiv) + 1)) 0

/-- Pages whose PAGE_CTL.ENABLE resets to 1 and ignores a write of 0 (R32, R45). -/
def alwaysEnabled (p : Nat) : Bool :=
  p ∈ [P.GLB, P.PWR, P.CKS 0, P.TIME, P.SCR, P.DMC, P.HIF, P.CMD, P.IRQ, P.SAF, P.SER, P.CPX]

/-- Pages whose PAGE_CAP.SUPERVISED reads 1 (R33). -/
def supervised (p : Nat) : Bool :=
  p ∈ [P.CKS 0, P.LTL 0, P.LTL 1, P.LTL 2, P.LTL 3, 0x40, 0x41, 0x42, 0x43, P.ACT, P.RFQ, P.CMP, P.SCR, P.MAR, P.DMC,
       P.PWR, P.FLX, P.TWN, P.CPX]

/-- Pages whose PAGE_CAP.SEALED reads 1 (R33). -/
def sealed_ (p : Nat) : Bool :=
  pageExists p && !(p ∈ [P.GLB, P.HIF, P.ACQX, P.TWN, P.SAF, P.CPX])

/-- PAGE_CAP.INSTANCE (R33). -/
def pageInstance (p : Nat) : Nat :=
  match pageType p with
  | 0x03 => p - 0x04 | 0x05 => p - 0x0C | 0x08 => p - 0x20 | 0x09 => p - 0x28 | 0x0F => p - 0x40 | 0x12 => p - 0x48
  | _ => 0

/-- Pages with block events in EVT bits [27:0] (PAGE_CAP.EVT): those whose chapter has a table of events. -/
def hasEvents (p : Nat) : Bool :=
  pageExists p && !(p ∈ [0x41, 0x42, 0x43, P.ACQM, P.ACQX, P.IRQ])

/-- Header register offsets (R32). -/
abbrev H.ID : Nat := 0x000
abbrev H.CAP : Nat := 0x004
abbrev H.CTL : Nat := 0x008
abbrev H.STAT : Nat := 0x00C
abbrev H.RAW : Nat := 0x010
abbrev H.PEND : Nat := 0x014
abbrev H.EN : Nat := 0x018
abbrev H.FORCE : Nat := 0x01C
abbrev H.COMMIT : Nat := 0x020
abbrev H.CSTAT : Nat := 0x024
abbrev H.CAUSE : Nat := 0x028
abbrev H.DIAG : Nat := 0x02C

/-- The key of a register. -/
def rkey (p o : Nat) : Nat := p * 0x1000 + o

/-- The lend flags of a tile group after reset, two bits a tile (R321, R344): tiles 0 to 735 and 1,320 to 1,335 NEVER (0),
736 to 1,319 PRESERVE_ONLY (1), 1,336 to 1,535 ANY (2). -/
def lendReset (g : Nat) : Nat :=
  if g < 46 then 0 else if g < 82 then 0x55555555 else if g = 82 then 0x00005555
  else if g = 83 then 0xAAAA0000 else if g < 96 then 0xAAAAAAAA else 0

/-- The reset value of the register at a page and offset. -/
def resetAt (p o : Nat) : Nat :=
  if 0x400 ≤ p then 0
  else if 0x300 ≤ p then (if o = 0x050 then lendReset (p - 0x300) else 0)
  else if 0x100 ≤ p then 0
  else if o < 0x040 then
    (if o = H.CTL then (if pageExists p then 4 + (if alwaysEnabled p then 1 else 0) else 0) else 0)
  else match regAt p o with
    | none => 0
    | some (d, _) =>
      if pageType p = 0x03 then
        (if o = 0x048 then [20, 16, 20, 24].getD (p - 4) 0
         else if o = 0x04C then 1000 * 256 + [9, 10, 9, 9].getD (p - 4) 0
         else d.rst)
      else d.rst

/-- What an unlisted key of a register copy reads as: the register's reset value. -/
def regReset (k : Nat) : Word := BitVec.ofNat 32 (resetAt (k / 0x1000) (k % 0x1000))

end Sys2Proof.Machine
end

