-- ==== Sys2Proof/Machine/Operands.lean ====
section
/-!
DEFINITION. Operand forms: bit fields of register and item words, signed fields, byte order (R8), slot and ply arithmetic
(R4), saturating and wrapping counters.
-/
namespace Sys2Proof.Machine

/-- Bits `[hi:lo]` of a value. -/
def bits (v hi lo : Nat) : Nat := v / 2 ^ lo % 2 ^ (hi + 1 - lo)

/-- One bit of a value. -/
def bitOf (v i : Nat) : Bool := v / 2 ^ i % 2 == 1

/-- A Bool as the value of a one-bit field. -/
def b2n (b : Bool) : Nat := if b then 1 else 0

/-- `v` with bits `[hi:lo]` replaced by the low bits of `x`. -/
def putBits (v hi lo x : Nat) : Nat :=
  v - bits v hi lo * 2 ^ lo + x % 2 ^ (hi + 1 - lo) * 2 ^ lo

/-- `v` with one bit replaced. -/
def putBit (v i : Nat) (b : Bool) : Nat := putBits v i i (b2n b)

/-- The `w`-bit field `v` read as a signed number. -/
def sx (w v : Nat) : Int := if v % 2 ^ w < 2 ^ (w - 1) then (v % 2 ^ w : Nat) else (v % 2 ^ w : Nat) - (2 ^ w : Nat)

/-- A signed number as a `w`-bit field (modulo 2^w). -/
def unsx (w : Nat) (i : Int) : Nat := (i % (2 ^ w : Nat)).toNat

/-- Number of bits set among the low `n`. -/
def popCount : Nat → Nat → Nat
  | 0, _ => 0
  | n + 1, v => v % 2 + popCount n (v / 2)

/-- Lowest bit set among the low `n`, if any. -/
def lowBit (n v : Nat) : Option Nat := (List.range n).find? (bitOf v)

/-- Little-endian bytes of a value (R8). -/
def leBytes : Nat → Nat → List Byte
  | 0, _ => []
  | n + 1, v => BitVec.ofNat 8 v :: leBytes n (v / 256)

/-- The value of little-endian bytes. -/
def fromLe : List Byte → Nat
  | [] => 0
  | b :: r => b.toNat + 256 * fromLe r

/-- A 64-bit word from a number. -/
def w64 (n : Nat) : Word64 := BitVec.ofNat 64 n

/-- A 64-bit word from a signed number. -/
def w64i (i : Int) : Word64 := BitVec.ofNat 64 (unsx 64 i)

/-- Slots of a ply and of a tick (R4). -/
abbrev plySlots : Nat := 32
abbrev tickSlots : Nat := 8

/-- First slot of the ply that holds a slot. -/
def plyStart (t : Nat) : Nat := t / 32 * 32

/-- First slot of the first ply that begins after a slot. -/
def nextPly (t : Nat) : Nat := (t / 32 + 1) * 32

/-- The coarse count at a slot: 48 bits, one tick for eight slots (R4, R5). -/
def coarseOf (t : Nat) : Nat := t / 8 % 2 ^ 48

/-- A slot number as items carry it: 51 bits (R290). -/
def slot51 (t : Nat) : Nat := t % 2 ^ 51

/-- A ply number as registers carry it: 46 bits (R232). -/
def ply46 (t : Nat) : Nat := t / 32 % 2 ^ 46

/-- Slots in a microsecond, a millisecond and a nanosecond count (a slot is 62.5 ps, R4). -/
def usSlots (n : Nat) : Nat := n * 16000
def msSlots (n : Nat) : Nat := n * 16000000
def nsSlots (n : Nat) : Nat := n * 16

/-- A 32-bit counter that stops at its top (the registers marked saturating). -/
def sat32 (v : Nat) : Nat := if v < 2 ^ 32 then v else 2 ^ 32 - 1

/-- Saturation of an unsigned value at `w` bits. -/
def satU (w v : Nat) : Nat := if v < 2 ^ w then v else 2 ^ w - 1

/-- Saturation of a signed value at `w` bits. -/
def satS (w : Nat) (v : Int) : Int :=
  if v < -(2 ^ (w - 1) : Nat) then -(2 ^ (w - 1) : Nat) else if v ≥ (2 ^ (w - 1) : Nat) then (2 ^ (w - 1) : Nat) - 1 else v

/-- Replace element `i` of a list by `f` of it. -/
def lmod {α : Type} : List α → Nat → (α → α) → List α
  | [], _, _ => []
  | a :: r, 0, f => f a :: r
  | a :: r, i + 1, f => a :: lmod r i f

/-- Integer division rounding toward minus infinity by a positive number. -/
def fdiv (a : Int) (b : Nat) : Int := a / (b : Int)

end Sys2Proof.Machine
end

