-- ==== Sys2Proof/Machine/State.lean ====
section
/-!
DEFINITION. The state of the part: the register copies of every page, the run state, both memories, every block's working
state, what the part has sent out, and the queue of commands waiting. Plain data throughout.
-/
namespace Sys2Proof.Machine

/-- Why a command stops the machine. -/
inductive Fault where
  /-- Raised by a meaning whose command's operands spell no command of the table's row (a list of the wrong length, an index
  past the part's own count; `WellFormed` says which). Safe: the part has no such event. -/
  | illFormed
  deriving DecidableEq, Repr

/-- Why a command has no meaning. -/
inductive Refusal where
  /-- Raised by `exec` alone, for a row that has no meaning yet. Safe. -/
  | notModelled (mnemonic : String)
  deriving DecidableEq, Repr

/-- The register copies of the page fabric (R36 to R42), one key a register: `active` and `staged` in the canonical form of
`swf`; `lastGood` lists, for groups in error in direct mode, the values the block goes on using (R42); `errs` the agreement
errors present as (page, group, cause); `holdH`, `holdC`, `holdR` the holding registers of R29 as (key of the low word,
captured high word). -/
structure Regs where
  active : List (Nat × Word)
  staged : List (Nat × Word)
  lastGood : List (Nat × Word)
  errs : List (Nat × Nat × Nat)
  holdH : Option (Nat × Word)
  holdC : Option (Nat × Word)
  holdR : Option (Nat × Word)
  resetting : List Nat
  deriving DecidableEq, Repr

/-- MSI-X state (R372, R387): vectors masked, function mask, vectors whose message waits for the unmask. -/
structure Msix where
  masked : List Nat
  funcMask : Bool
  waiting : List Nat
  deriving DecidableEq, Repr

/-- The FREE mapping: ANCHOR, SEC, NS and RATE 0 (R390). -/
def TimeState.empty : TimeState :=
  { anchor := 0, sec := 0, ns := 0, rate := 0, source := 0, stepped := false, isAligned := false, seq := 0,
    nextSec := none, lastEdge := none, lastSec := 0 }

/-- A group with nothing sampled. -/
def DigState.empty : DigState :=
  { lastEdge := none, samples := 0, lastWord := none, lastEntry := 0, levels := 0, strobes := [], ovrExit := 0 }


/-- A group with no stamp. -/
def StpState.empty : StpState :=
  { queued := [], taken := [], latest := [], served := [], free := 0, rr := 31, wrapDue := 0, spans := [], entries := [],
    tableAt := 0 }

/-- A pairing unit with nothing armed and no statistics. -/
def IpUnit.empty : IpUnit := { starts := [], lastStop := none, cnt := 0, min := 0, max := 0, sum := 0, sumSq := 0, ovfl := false }

/-- A frequency unit with no gate. -/
def FuUnit.empty : FuUnit := { gate := none, due := [], results := [] }

/-- A converter that has converted nothing. -/
def ConvState.empty : ConvState :=
  { last := none, jobs := [], asleep := false, waking := false, startWait := false, injWait := none, hold := none,
    behind := [], tail := none, recent := [], instants := [] }

/-- Empty sums (R164). -/
def AccSum.empty : AccSum :=
  { n := 0, sum := 0, sumSq := 0, min := 0, max := 0, clip := 0, disturb := 0, late := 0, flags := 0 }

def PairSum.empty : PairSum := { n := 0, sumXY := 0, clip := 0, disturb := 0, late := 0, flags := 0 }

/-- Correlators that are off. -/
def HarSum.empty : HarSum := { cfg := 0, orders := [], re := [], im := [], n := 0, flags := 0 }

/-- Inputs at rest. -/
def LadderIn.empty : LadderIn :=
  { before := 0, words := List.replicate 8 0, held := 0, trackers := [], xti := 0, xtiSince := [0, 0, 0, 0], soft := 0 }

/-- The ladder at rung 0 with every count clear (R201). -/
def LadderState.empty : LadderState :=
  { rung := 0, occ := List.replicate 8 0, counters := List.replicate 16 0, prevCnt := List.replicate 16 0,
    timers := List.replicate 16 { slot := 0, phases := [0, 0, 0, 0] }, timerHit := 0, seen := 0, fired := false, alts := [] }

/-- A gambit that does not run. -/
def GmbState.empty : GmbState :=
  { running := false, ladder := LadderState.empty, ckpts := [], hist := [], effects := [], next := 0, fresh := 0, last := none,
    restart := none }

/-- A dictionary right after reset (R300). -/
def Coder.empty : Coder := { dict := [], prev := [] }

/-- A thread that serves no stream. -/
def Lane.empty : Lane :=
  { stream := none, thread := 0, threads := 1, host := none, feed := none, opened := none, src := none, owed := [], cfg := 0,
    blockSeq := 0, coder := Coder.empty, reset := true, bankA := .free, bankB := .free, current := false, base := 0,
    stalled := false }

/-- A store with no drive (R362). -/
def StoreState.empty : StoreState :=
  { drives := List.replicate 4 { image := none, lost := false, batch := 0 }, exts := [], table := [], writes := [], jobs := [],
    tabs := [], last := 0, sel := 0 }

/-- A command unit with nothing in flight. -/
def HostState.empty : HostState :=
  { rings := List.replicate 16 { sqTail := 0, cqHead := 0, phase := true, unsignalled := 0, oldest := none }, ops := [],
    nextId := 1, lastRing := 15, stitch := none, lastOp := 0 }

/-- No test under way, no repair made (R13). -/
def MarState.empty : MarState :=
  { held := none, retry := none, spares := List.replicate 64 0, badRows := [], sel := 0, rotAt := none,
    sweepPos := 0 }

/-- Acquisition with no record (R233). -/
def AcqState.empty : AcqState :=
  { armAt := none, armSlot := 0, ownFire := none, placed := none, committed := false, fullAt := none,
    collarStart := 0, endSlot := none, endAngle := none, stopSlot := none, stopPly := none,
    settling := none, closed := none, flags := 0, shortMask := 0, thinMask := 0,
    thin := List.replicate 10 { next := none, seen := 0, maxStep := 0 },
    protUntil := 0, protFires := [], merges := [], notes := [], readerFrom := none, closeNote := 0,
    duplexAll := false, trigMap := none, armStatus := 0 }

/-- A synthesizer right after reset: on bypass, no attempt made (R58). -/
def SynthState.empty : SynthState :=
  { lo := 0, hi := 31, step := 0, verifying := false, deviated := false, resetHold := false, wanted := false, refKhz := 0,
    bypassFrom := some 0 }

/-- A loop right after reset: angle held at cycle 0, pip 0 (R81). -/
def LoopState.empty : LoopState :=
  { segs := [{ slot := 0, phase := 0, rate := 0 }], fInt := 0, lastEvent := none, first := none, crossing := none,
    coastFrom := none, hold := none, refSlot := 0, refPhase := 0, passRun := 0, reverse := false, encPos := 0, encAB := 0,
    encUpd := 0, encOff := 0, encIdx := none, revPos := 0, revErr := 0, lastCycle := none, period := none, failRun := 0,
    agreeRun := 0, rawPrev := none, filt := 0, side := 0, resume := none, lossBase := 0, tokGap := 0, ownLoss := false }

/-- The register copies at their reset values (R13, R44). -/
def Regs.empty : Regs :=
  { active := [], staged := [], lastGood := [], errs := [], holdH := none, holdC := none, holdR := none, resetting := [] }

/-- The whole part. -/
structure State where
  /-- Commands waiting, first in, first out (the model's own field: the block's command queue). -/
  pending : List Instr
  /-- Slots since the coarse counter started, unwrapped (R4, R128). -/
  now : Nat
  /-- The model's own counter of free values taken (log entry 3). -/
  freeCtr : Nat
  run : RunState
  variant : Variant
  regs : Regs
  msix : Msix
  out : List Output
  scratch : List Host.Cell
  deep : List Host.Cell
  streams : List StreamQ
  acq : AcqState
  clk : List SynthState
  loops : List LoopState
  act : List ActOut
  saf : SafState
  vcapGood : Bool
  txSeq : List Nat
  angFired : List (Nat × Bool)
  onceTarget : List Nat
  tm : TimeState
  digs : List DigState
  seams : List SeamSum
  stps : List StpState
  ips : List IpUnit
  fus : List FuUnit
  convs : List ConvState
  injDue : List InjReq
  pulseDue : List (List PulseDue)
  spcFired : List (Option (Nat × Bool))
  wins : List WinState
  ivs : List (Option IvState)
  accs : List AccSum
  pairs : List PairSum
  hars : List HarSum
  accLater : List (Nat × AdcRes)
  accVals : List AccVal
  accSnap : List (List Word64)
  harSnap : List (List Word64)
  remote : List RemoteTok
  casProg : List (Nat × Nat)
  twinProg : Nat
  twinSafeAt : List Nat
  lin : LadderIn
  gmb : GmbState
  actHeld : Option Nat
  tmOld : List (Nat × TimeState)
  seamAgreed : List (Nat × Nat)
  lanes : List Lane
  raws : List Lane
  store : StoreState
  host : HostState
  eths : List EthDest
  mar : MarState
  seamIn : List SeamSum
  ethPause : List Nat
  flxs : List FlxPort
  cas : CasState
  twin : TwinState
  power : PowerState
  start : StartState
  mbox : Option Mbox
  deriving DecidableEq, Repr

/-- The part right after reset: STANDBY, before the standby controller has started (R478, R485, R495). Every register is at
its reset value, both memories list nothing, and nothing waits. -/
def State.reset : State :=
  { pending := [], now := 0, freeCtr := 0, run := .standby, variant := .a256, regs := Regs.empty,
    msix := { masked := [], funcMask := false, waiting := [] }, out := [], scratch := [], deep := [],
    streams := List.replicate 22 StreamQ.empty, acq := AcqState.empty,
    clk := List.replicate 4 SynthState.empty,
    act := List.replicate 16 { stop := .release, since := 0, level := 2 },
    saf := { safeFault := true, resetNeeded := false, keyAt := none, exitAt := none, sel := 0, failing := [] },
    vcapGood := false,
    txSeq := List.replicate 9 0,
    angFired := List.replicate 64 (0, false),
    onceTarget := List.replicate 64 0,
    tm := TimeState.empty,
    digs := List.replicate 8 DigState.empty,
    seams := [],
    stps := List.replicate 8 StpState.empty,
    ips := List.replicate 16 IpUnit.empty,
    fus := List.replicate 32 FuUnit.empty,
    convs := List.replicate 16 ConvState.empty,
    injDue := [],
    pulseDue := List.replicate 8 [],
    spcFired := List.replicate 8 none,
    wins := List.replicate 16 { out := false, run := 0, log := [] },
    ivs := List.replicate 4 none,
    accs := List.replicate 16 AccSum.empty,
    pairs := List.replicate 24 PairSum.empty,
    hars := List.replicate 16 HarSum.empty,
    accLater := [],
    accVals := [],
    accSnap := List.replicate 40 [],
    harSnap := List.replicate 16 [],
    remote := [],
    casProg := [],
    twinProg := 0,
    twinSafeAt := [],
    lin := LadderIn.empty,
    gmb := GmbState.empty,
    actHeld := none,
    tmOld := [],
    seamAgreed := [],
    lanes := List.replicate 16 Lane.empty,
    raws := List.replicate 22 Lane.empty,
    store := StoreState.empty,
    host := HostState.empty,
    eths := List.replicate 4 { queue := [], dgrams := 0 },
    mar := MarState.empty,
    seamIn := [],
    ethPause := List.replicate 8 0,
    flxs := List.replicate 3 FlxPort.empty,
    cas := CasState.empty,
    twin := TwinState.empty,
    power := PowerState.empty,
    start := StartState.empty,
    mbox := none,
    loops := List.replicate 4 LoopState.empty }

end Sys2Proof.Machine
end

