-- ==== Sys2Proof/Machine/Ops.lean ====
section
/-!
DEFINITION. The named operations every meaning is written over: register copies, counters, events and interrupt requests,
outputs, free values, the two memories, time.
-/
namespace Sys2Proof.Machine

/-- What a meaning answers. -/
abbrev Res := Host.Outcome State Fault Refusal

/-! ### Register copies -/

/-- The active register at a page and offset (R36). -/
def State.reg (s : State) (p o : Nat) : Nat := (sget regReset s.regs.active (rkey p o)).toNat

/-- The staged copy of a register (R36, R37). -/
def State.stagedReg (s : State) (p o : Nat) : Nat := (sget regReset s.regs.staged (rkey p o)).toNat

/-- The value a block runs on: the last passing one while its group is in error in direct mode (R42), else the active one. -/
def State.useReg (s : State) (p o : Nat) : Nat :=
  match s.regs.lastGood.lookup (rkey p o) with
  | some v => v.toNat
  | none => s.reg p o

/-- Offset of instance `i` of a field's register. -/
def Fld.at (f : Fld) (i : Nat) : Nat := f.off + f.stride * i

/-- A field of the active copy. -/
def State.get (s : State) (p : Nat) (f : Fld) (i : Nat := 0) : Nat := bits (s.reg p (f.at i)) f.hi f.lo

/-- A field a block runs on (R42). -/
def State.use (s : State) (p : Nat) (f : Fld) (i : Nat := 0) : Nat := bits (s.useReg p (f.at i)) f.hi f.lo

/-- A one-bit field a block runs on. -/
def State.useB (s : State) (p : Nat) (f : Fld) (i : Nat := 0) : Bool := s.use p f i == 1

/-- A one-bit field of the active copy. -/
def State.getB (s : State) (p : Nat) (f : Fld) (i : Nat := 0) : Bool := s.get p f i == 1

/-- Write the active register at a page and offset. -/
def State.setReg (s : State) (p o v : Nat) : State :=
  { s with regs := { s.regs with active := sset regReset s.regs.active (rkey p o) (BitVec.ofNat 32 v) } }

/-- Write the staged copy of a register. -/
def State.setStaged (s : State) (p o v : Nat) : State :=
  { s with regs := { s.regs with staged := sset regReset s.regs.staged (rkey p o) (BitVec.ofNat 32 v) } }

/-- Write a field of the active copy: how a block sets its own status. -/
def State.put (s : State) (p : Nat) (f : Fld) (v : Nat) (i : Nat := 0) : State :=
  s.setReg p (f.at i) (putBits (s.reg p (f.at i)) f.hi f.lo v)

/-- Write a one-bit status field. -/
def State.putB (s : State) (p : Nat) (f : Fld) (b : Bool) (i : Nat := 0) : State := s.put p f (b2n b) i

/-- A register pair as one value, low word first (R29). -/
def State.get64 (s : State) (p : Nat) (lo hi : Fld) (i : Nat := 0) : Nat := s.get p lo i + s.get p hi i * 2 ^ 32

/-- The pair a block runs on. -/
def State.use64 (s : State) (p : Nat) (lo hi : Fld) (i : Nat := 0) : Nat := s.use p lo i + s.use p hi i * 2 ^ 32

/-- Write a register pair. -/
def State.put64 (s : State) (p : Nat) (lo hi : Fld) (v : Nat) (i : Nat := 0) : State :=
  (s.put p lo v i).put p hi (v / 2 ^ 32) i

/-- Add to a saturating counter field. -/
def State.sat (s : State) (p : Nat) (f : Fld) (n : Nat := 1) (i : Nat := 0) : State :=
  s.put p f (satU (f.hi + 1 - f.lo) (s.get p f i + n)) i

/-- Add to a wrapping counter field. -/
def State.wrap (s : State) (p : Nat) (f : Fld) (n : Nat := 1) (i : Nat := 0) : State := s.put p f (s.get p f i + n) i

/-- Add to a wrapping 64-bit counter pair. -/
def State.wrap64 (s : State) (p : Nat) (lo hi : Fld) (n : Nat := 1) : State :=
  s.put64 p lo hi ((s.get64 p lo hi + n) % 2 ^ 64)

/-- Clear the listed fields, every instance up to `n`. -/
def State.clearAll (s : State) (p : Nat) (fs : List (Fld × Nat)) : State :=
  fs.foldl (fun s e => (List.range e.2).foldl (fun s i => s.put p e.1 0 i) s) s

/-- PAGE_CTL.ENABLE (R45). -/
def State.enabled (s : State) (p : Nat) : Bool := bitOf (s.reg p H.CTL) 0

/-- PAGE_CTL.STAGE_MODE: staged (R37) or direct (R41). -/
def State.stagedMode (s : State) (p : Nat) : Bool := bitOf (s.reg p H.CTL) 2

/-- PAGE_STAT.STATE of a page (R32). -/
def State.blockState (s : State) (p : Nat) : Nat := bits (s.reg p H.STAT) 7 4

/-- Set PAGE_STAT.STATE. -/
def State.setBlockState (s : State) (p c : Nat) : State := s.setReg p H.STAT (putBits (s.reg p H.STAT) 7 4 c)

/-- Set PAGE_STAT.BUSY. -/
def State.setBusy (s : State) (p : Nat) (b : Bool) : State := s.setReg p H.STAT (putBit (s.reg p H.STAT) 1 b)

/-! ### Outputs, free values, time -/

/-- Send one thing out of the part. -/
def State.emit (s : State) (o : Output) : State := { s with out := s.out ++ [o] }

/-- Take a free value: a value the spec leaves undefined, of which nothing is known (log entry 3). -/
def State.takeFree (s : State) : Word64 × State := (Config.freeWord s.freeCtr, { s with freeCtr := s.freeCtr + 1 })

/-- Bring the present slot up to the slot a command names; time never runs backwards (log entry 1). -/
def State.at (s : State) (t : Nat) : State := { s with now := Nat.max s.now t }

/-- ACQ_STAT.ARMED: a record is in progress (table `Module run states`). -/
def State.isArmed (s : State) : Bool := s.getB P.ACQ F.ACQ_STAT_ARMED

/-- Whether the capture die is powered: any run state but STANDBY (table `Module run states`). -/
def State.powered (s : State) : Bool := s.run != .standby

/-- Whether start-up has completed: READY, ARMED or SAFE. -/
def State.started (s : State) : Bool := s.run == .ready || s.run == .armed || s.run == .safe

/-! ### Interrupts -/

/-- Send an MSI-X message, or hold it while its vector or the function is masked (R387). -/
def State.msixSend (s : State) (vec : Nat) : State :=
  if s.msix.funcMask || s.msix.masked.contains vec then
    (if s.msix.waiting.contains vec then s else { s with msix := { s.msix with waiting := s.msix.waiting ++ [vec] } })
  else s.emit (.msix vec)

/-- A page's interrupt request (R47): one message on the vector IRQ_MAP gives the page, unless IRQ_CTL.EN or the page's
mapping is off (R387, R398). -/
def State.irqRequest (s : State) (p : Nat) : State :=
  let m := s.useReg P.IRQ (F.IRQ_MAP_EN0.at (p / 2))
  let h := if p % 2 = 1 then 16 else 0
  if s.useB P.IRQ F.IRQ_CTL && bitOf m (h + 15) then s.msixSend (bits m (h + 8) h) else s

/-- Latch bits of EVT_PEND (R46): a bit already set adds nothing; each newly latched and enabled bit raises the page's
request once (R47). -/
def State.latch (s : State) (p bit : Nat) : State :=
  let pend := s.reg p H.PEND
  if bitOf pend bit then s
  else
    let s := s.setReg p H.PEND (putBit pend bit true)
    if bitOf (s.reg p H.EN) bit then s.irqRequest p else s

/-- A pulse event of a block: latches unless the block is stopped (R45, R46). -/
def State.pulse (s : State) (p bit : Nat) : State := if s.enabled p then s.latch p bit else s

/-- The present condition of a level event: EVT_RAW follows it and a rising edge latches (R46). -/
def State.level (s : State) (p bit : Nat) (b : Bool) : State :=
  let raw := s.reg p H.RAW
  let s' := s.setReg p H.RAW (putBit raw bit b)
  if b && !bitOf raw bit then s'.pulse p bit else s'

/-- A level event of the header, which a stopped block raises too (R32). -/
def State.levelHdr (s : State) (p bit : Nat) (b : Bool) : State :=
  let raw := s.reg p H.RAW
  let s' := s.setReg p H.RAW (putBit raw bit b)
  if b && !bitOf raw bit then s'.latch p bit else s'

/-! ### Memory -/

/-- What a byte of either memory that nothing has written reads as: 0. Scratch is filled with zero at start-up (R328); the
spec gives no content for deep memory (log entry 4). -/
def memDefault (_ : Nat) : Byte := 0

/-- Size of scratch in bytes: 96 MiB (R319). -/
def scratchSize : Nat := 96 * 2 ^ 20

/-- Installed deep memory in bytes (R1, R338): 256 GiB, or 128 GiB on CM256-A128. -/
def State.deepSize (s : State) : Nat := if s.variant = .a128 then 2 ^ 37 else 2 ^ 38

/-- The canonical form of a memory. -/
abbrev Memory.wf (m : List Host.Cell) : Bool := swf memDefault m

/-- One byte of a memory. -/
def Memory.read (m : List Host.Cell) (a : Nat) : Byte := sget memDefault m a

/-- Write one byte of a memory. -/
def Memory.write (m : List Host.Cell) (a : Nat) (b : Byte) : List Host.Cell := sset memDefault m a b

/-- `n` bytes from an address. -/
def Memory.readN (m : List Host.Cell) (a n : Nat) : List Byte := (List.range n).map (fun i => Memory.read m (a + i))

/-- Write bytes from an address, lowest first. -/
def Memory.writeN : List Host.Cell → Nat → List Byte → List Host.Cell
  | m, _, [] => m
  | m, a, b :: r => Memory.writeN (Memory.write m a b) (a + 1) r

/-- Bytes of scratch. -/
def State.scrRead (s : State) (a n : Nat) : List Byte := Memory.readN s.scratch a n
def State.scrWrite (s : State) (a : Nat) (bs : List Byte) : State := { s with scratch := Memory.writeN s.scratch a bs }

/-- Bytes of deep memory. -/
def State.dmRead (s : State) (a n : Nat) : List Byte := Memory.readN s.deep a n
def State.dmWrite (s : State) (a : Nat) (bs : List Byte) : State := { s with deep := Memory.writeN s.deep a bs }

/-! ### Lists of like things -/

def State.stream (s : State) (i : Nat) : StreamQ := s.streams.getD i StreamQ.empty
def State.modStream (s : State) (i : Nat) (f : StreamQ → StreamQ) : State := { s with streams := lmod s.streams i f }
def State.loop (s : State) (n : Nat) : LoopState := s.loops.getD n LoopState.empty
def State.modLoop (s : State) (n : Nat) (f : LoopState → LoopState) : State := { s with loops := lmod s.loops n f }
def State.synth (s : State) (n : Nat) : SynthState := s.clk.getD n SynthState.empty
def State.modSynth (s : State) (n : Nat) (f : SynthState → SynthState) : State := { s with clk := lmod s.clk n f }
def State.stp (s : State) (g : Nat) : StpState := s.stps.getD g StpState.empty
def State.modStp (s : State) (g : Nat) (f : StpState → StpState) : State := { s with stps := lmod s.stps g f }
def State.ip (s : State) (u : Nat) : IpUnit := s.ips.getD u IpUnit.empty
def State.modIp (s : State) (u : Nat) (f : IpUnit → IpUnit) : State := { s with ips := lmod s.ips u f }
def State.fu (s : State) (u : Nat) : FuUnit := s.fus.getD u FuUnit.empty
def State.modFu (s : State) (u : Nat) (f : FuUnit → FuUnit) : State := { s with fus := lmod s.fus u f }
def State.conv (s : State) (n : Nat) : ConvState := s.convs.getD n ConvState.empty
def State.modConv (s : State) (n : Nat) (f : ConvState → ConvState) : State := { s with convs := lmod s.convs n f }
def State.iv (s : State) (n : Nat) : Option IvState := s.ivs.getD n none
def State.modIv (s : State) (n : Nat) (f : IvState → IvState) : State := { s with ivs := lmod s.ivs n (fun v => v.map f) }
def State.modAcq (s : State) (f : AcqState → AcqState) : State := { s with acq := f s.acq }

/-! ### Agreement checks -/

/-- The register values an agreement check looks at: page and offset to value (R37, R42). A function used while checking; no
part of the state. -/
abbrev View := Nat → Nat → Nat

/-- A field in a view. -/
def View.f (v : View) (p : Nat) (fl : Fld) (i : Nat := 0) : Nat := bits (v p (fl.at i)) fl.hi fl.lo
def View.b (v : View) (p : Nat) (fl : Fld) (i : Nat := 0) : Bool := v.f p fl i == 1

/-- Causes of every page (table `Agreement error causes`). -/
abbrev E.NONE : Nat := 0
abbrev E.MISMATCH : Nat := 1
abbrev E.ZERO_GATE : Nat := 2
abbrev E.ZERO_INTERVAL : Nat := 3
abbrev E.ZERO_SPC : Nat := 4
abbrev E.RANGE : Nat := 5
abbrev E.RESERVED_CODE : Nat := 6

/-- The cause of the first condition that holds, in order; 0 when none does. -/
def firstCause : List (Bool × Nat) → Nat
  | [] => 0
  | (b, c) :: r => if b then c else firstCause r

/-- Do something for each element of a list in turn. -/
def State.each {α : Type} (s : State) (l : List α) (f : State → α → State) : State := l.foldl f s

end Sys2Proof.Machine
end

