-- ==== Sys2Proof/Machine/Angle.lean ====
section
/-!
DEFINITION. The angle of every slot (R70, R71) and the angle map entry (R95).
-/
namespace Sys2Proof.Machine

/-- The piece of the angle log in force at a slot: the newest that does not start after it, else the oldest kept. -/
def segAt : List Seg → Nat → Seg
  | [], _ => { slot := 0, phase := 0, rate := 0 }
  | [g], _ => g
  | g :: r, t => if g.slot ≤ t then g else segAt r t

/-- Angle at a slot in units of 2^-32 pip (R70): whole plies at F_APP, then floor(F_APP × s / 32) within the ply. -/
def Seg.phaseAt (g : Seg) (t : Nat) : Nat :=
  g.phase + g.rate * ((t - g.slot) / 32) + g.rate * ((t - g.slot) % 32) / 32

/-- Angle of a loop at a slot, in units of 2^-32 pip, not reduced. -/
def LoopState.phaseAt (l : LoopState) (t : Nat) : Nat := (segAt l.segs t).phaseAt t

/-- The rate in force at a slot: F_APP, 0 while holding. -/
def LoopState.rateAt (l : LoopState) (t : Nat) : Nat := (segAt l.segs t).rate

/-- Angle of a loop at a slot in pips, not reduced. -/
def LoopState.pipsAt (l : LoopState) (t : Nat) : Nat := l.phaseAt t / 2 ^ 32

/-- The ANGLE word at a slot: cycle count [63:24], pip [23:0] (R6, R71). -/
def LoopState.angleAt (l : LoopState) (t : Nat) : Nat := l.pipsAt t % 2 ^ 64

/-- Pieces of the angle log kept: enough for every ply the gambit can still reach (R218). -/
def segsKept : Nat := 256

/-- From the ply start `at_` on, the angle runs from `phase` by `rate`: pieces that would start later are replaced. -/
def LoopState.setSeg (l : LoopState) (at_ phase rate : Nat) : LoopState :=
  { l with segs := (({ slot := at_, phase := phase, rate := rate } : Seg) ::
      l.segs.filter (fun g => decide (g.slot < at_))).take segsKept }

/-- Change the rate from a ply start on, keeping the angle continuous (R71). -/
def LoopState.setRate (l : LoopState) (at_ rate : Nat) : LoopState := l.setSeg at_ (l.phaseAt at_) rate

/-- First slot at which a piece that runs on reaches a target angle (in 2^-32 pip), if its rate is not 0 (R92). -/
def Seg.slotOf (g : Seg) (target : Nat) : Option Nat :=
  if target ≤ g.phase then some g.slot
  else if g.rate = 0 then none
  else
    let q := (target - g.phase) / g.rate
    let rem := target - g.phase - q * g.rate
    some (g.slot + 32 * q + (rem * 32 + g.rate - 1) / g.rate)

/-- Slot at which the loop, running on as it does now, reaches a target angle given in pips. -/
def LoopState.slotOfPips (l : LoopState) (pips : Nat) : Option Nat :=
  match l.segs.head? with
  | some g => g.slotOf (pips * 2 ^ 32)
  | none => none

/-- LTL_STAT.RAN of a loop (R94). -/
def State.loopRan (s : State) (n : Nat) : Bool := s.getB (P.LTL n) F.LTL_STAT_RAN

/-- LTL_STAT.COASTING. -/
def State.coasting (s : State) (n : Nat) : Bool := s.getB (P.LTL n) F.LTL_STAT_COASTING

/-- States of a loop (table `Loop states`). -/
abbrev L.OFF : Nat := 0
abbrev L.ACQUIRE : Nat := 1
abbrev L.TRACK : Nat := 2
abbrev L.LOCKED : Nat := 3
abbrev L.COAST : Nat := 4
abbrev L.RETURN : Nat := 5
abbrev L.SLEW : Nat := 6
abbrev L.HOLD : Nat := 7

/-- The words of an angle map entry of a loop at a ply start (table `Angle map entry`, R95). -/
def State.mapWords (s : State) (n kind at_ : Nat) (delta : Int) : List Word64 :=
  let l := s.loop n
  let st := s.blockState (P.LTL n)
  let flags := putBit (putBit (putBit (putBit 0 3 (st == L.LOCKED)) 2 (s.coasting n))
    1 (st == L.HOLD || l.reverse)) 0 (st == L.SLEW)
  [w64 (kind * 2 ^ 56 + n * 2 ^ 54 + flags * 2 ^ 50 + coarseOf at_), w64 (l.angleAt at_), w64 (l.rateAt at_ % 2 ^ 48),
   w64 (unsx 32 delta * 2 ^ 32 + l.phaseAt at_ % 2 ^ 32)]

end Sys2Proof.Machine
end

