-- ==== Sys2Proof/Machine/Crc.lean ====
section
/-!
DEFINITION. The checks of the manual: CRC-8 of the pocket (R269), CRC-32C of chunks, headers and the seal (R270, R35), the
CRC-32 of flits (R406).
-/
namespace Sys2Proof.Machine

/-- One bit of a reflected 32-bit CRC. -/
def crc32Bit (poly c : Nat) : Nat := if c % 2 = 1 then (c / 2) ^^^ poly else c / 2

/-- One byte of a reflected 32-bit CRC. -/
def crc32Byte (poly c : Nat) (b : Byte) : Nat :=
  let x := c ^^^ b.toNat
  crc32Bit poly (crc32Bit poly (crc32Bit poly (crc32Bit poly
    (crc32Bit poly (crc32Bit poly (crc32Bit poly (crc32Bit poly x)))))))

/-- Reflected CRC-32 with initial value and final XOR 0xFFFF_FFFF. -/
def crc32r (poly : Nat) (bs : List Byte) : Nat := (bs.foldl (crc32Byte poly) 0xFFFFFFFF) ^^^ 0xFFFFFFFF

/-- CRC-32C: polynomial 0x1EDC_6F41, reflected (R270). -/
def crc32c (bs : List Byte) : Nat := crc32r 0x82F63B78 bs

/-- CRC-32 of a flit: polynomial 0x04C1_1DB7, reflected (R406). -/
def crc32 (bs : List Byte) : Nat := crc32r 0xEDB88320 bs

/-- One bit of the pocket CRC: x^8 + x^2 + x + 1, not reflected (R269). -/
def crc8Bit (c : Nat) : Nat := if c < 128 then c * 2 else (c * 2 % 256) ^^^ 0x07

/-- CRC-8 over bytes in address order, initial value 0 (R269). -/
def crc8 (bs : List Byte) : Nat :=
  bs.foldl (fun c b => crc8Bit (crc8Bit (crc8Bit (crc8Bit (crc8Bit (crc8Bit (crc8Bit (crc8Bit (c ^^^ b.toNat))))))))) 0

end Sys2Proof.Machine
end

