-- ==== Sys2Proof/Machine/Chunk.lean ====
section
/-!
DEFINITION. The bytes of a chunk: pocket, header, payload and marker tail (R268 to R273).
-/
namespace Sys2Proof.Machine

/-- Item kind of a stream (tables `Streams`, `Item kinds`); streams 0 to 7 hold sample words (1) or entry words (2). -/
def kindOf (stream : Nat) (fullTiming : Bool) : Nat :=
  if stream < 8 then (if fullTiming then 1 else 2) else if stream < 16 then 3 else stream - 12

/-- Bytes of an item: a sample word takes 4, any other item 8 for each word (table `Item kinds`). -/
def itemBytes (kind : Nat) (it : Item) : List Byte :=
  if kind = 1 then leBytes 4 ((it.words.headD 0).toNat) else it.words.flatMap (fun w => leBytes 8 w.toNat)

/-- Size of an item in bytes. -/
def itemSize (kind : Nat) (it : Item) : Nat := if kind = 1 then 4 else 8 * it.words.length

/-- Zero bytes up to a multiple of 8 (R272). -/
def padTo8 (bs : List Byte) : List Byte := bs ++ List.replicate ((8 - bs.length % 8) % 8) 0

/-- Bytes of a tail: its marker entries in the order they were written (R273, R287). -/
def tailBytes (ms : List TailMark) : List Byte := ms.flatMap (fun m => m.words.flatMap (fun w => leBytes 8 w.toNat))

/-- Bytes of the items of a chunk before padding. -/
def payloadBytes (kind : Nat) (items : List Item) : List Byte := items.flatMap (itemBytes kind)

/-- Payload, padding and tail of an uncompressed chunk (R272). -/
def uncompressedBody (kind : Nat) (items : List Item) (tail : List TailMark) : List Byte :=
  padTo8 (payloadBytes kind items) ++ tailBytes tail

/-- Length of the whole chunk (R268). -/
def Chunk.length (c : Chunk) : Nat := 64 + c.stored.length

/-- Bits [55:0] of the pocket word (table `Pocket word`). -/
def Chunk.pocketLow (c : Chunk) : Nat :=
  c.length % 2 ^ 32 + c.seq % 256 * 2 ^ 32 + c.stream * 2 ^ 40 + c.flags % 256 * 2 ^ 48

/-- The pocket word with its CRC over bytes 0 to 6 (R268, R269). -/
def Chunk.pocket (c : Chunk) : List Byte :=
  let low := leBytes 7 c.pocketLow
  low ++ [BitVec.ofNat 8 (crc8 low)]

/-- Header bytes 0x08 to 0x3B (table `Chunk header`, R270). -/
def Chunk.headerLow (c : Chunk) : List Byte :=
  leBytes 4 c.record ++ leBytes 4 c.segment ++ leBytes 4 c.seq ++ leBytes 1 c.kind ++ leBytes 1 c.exp ++
  leBytes 2 ((tailBytes c.tail).length / 8) ++
  leBytes 8 ((c.items.head?.map Item.slot).getD 0 % 2 ^ 51) ++ leBytes 8 ((c.items.getLast?.map Item.slot).getD 0 % 2 ^ 51) ++
  leBytes 4 c.items.length ++ leBytes 4 c.payloadLen ++ leBytes 4 c.stored.length ++
  leBytes 1 c.origin ++ leBytes 1 c.place ++ [0, 0] ++ leBytes 4 (c.dataCrc.getD (crc32c c.stored))

/-- The whole chunk. -/
def Chunk.bytes (c : Chunk) : List Byte :=
  c.pocket ++ c.headerLow ++ leBytes 4 (crc32c c.headerLow) ++ c.stored

/-- A filler over `space` bytes of a ring (R277). -/
def fillerBytes (space : Nat) : List Byte :=
  let low := leBytes 7 (space % 2 ^ 32 + 0xFF * 2 ^ 40)
  (low ++ [BitVec.ofNat 8 (crc8 low)]).take space ++ List.replicate (space - 8) 0

/-- Whether a pocket word checks (R269): not zero, and its CRC agrees. -/
def pocketGood (bs : List Byte) : Bool :=
  fromLe bs != 0 && crc8 (bs.take 7) == (bs.getD 7 0).toNat

end Sys2Proof.Machine
end

