-- ==== Sys2Proof/Machine/Streams.lean ====
section
/-!
DEFINITION. Streams, chunks and banks (chapter 11): appending items, closing and placing chunks, levels and watermarks,
markers and gaps. Rings lie in deep memory as page 0x4B shows them (R239, R264); the banks lie in scratch (R321).
-/
namespace Sys2Proof.Machine

/-- Whether a stream belongs to the record in progress and RFQ runs (R233, R45). -/
def State.recording (s : State) (sid : Nat) : Bool :=
  s.isArmed && bitOf (s.useReg P.ACQ F.ACQ_STREAM_EN.off) sid && s.enabled P.RFQ

/-- The enabled streams among 0 to 21, ascending. -/
def State.enabledStreams (s : State) : List Nat := (List.range 22).filter s.recording

/-- DIG mode codes (table of DIG_MODE, R104). -/
abbrev M.OFF : Nat := 0
abbrev M.TIMING : Nat := 1
abbrev M.STATE : Nat := 2
abbrev M.STAMP : Nat := 3

/-- Mode of a group; a stopped page acts as OFF (R45). -/
def State.digMode (s : State) (g : Nat) : Nat := if s.enabled (P.DIG g) then s.use (P.DIG g) F.DIG_MODE_MODE else M.OFF

/-- TIMING with FORM = FULL: the stream is fixed-rate (R239). -/
def State.fixedRate (s : State) (g : Nat) : Bool :=
  s.digMode g == M.TIMING && s.use (P.DIG g) F.DIG_MODE_FORM == 0

/-- The item kind a stream carries at present. -/
def State.kindNow (s : State) (sid : Nat) : Nat := kindOf sid (s.fixedRate sid)

/-- Thinning index of a stream (R249): 0 to 7, 16 → 8, 17 → 9. -/
def thinIndex (sid : Nat) : Option Nat := if sid < 8 then some sid else if sid = 16 then some 8 else if sid = 17 then some 9 else none

/-- Present thinning step of a stream; 0 for one that is never thinned. -/
def State.thinStep (s : State) (sid : Nat) : Nat :=
  match thinIndex sid with | some i => s.get P.ACQT F.ACQ_THIN_STAT_K i | none => 0

/-- EXP of a chunk (table `Chunk header`). -/
def State.expNow (s : State) (sid : Nat) : Nat :=
  if sid < 8 then
    (if s.digMode sid = M.TIMING then s.use (P.DIG sid) F.DIG_MODE_RATE_K + s.thinStep sid else s.thinStep sid)
  else if sid = 16 ∨ sid = 17 then s.use P.ACQM F.ACQ_ANLG_CFG_AVG_EXP + s.thinStep sid else 0

/-- Ring of a stream in deep memory: first byte, taken from ACQ_RING_BASE (R264), with the SEGMENTED part in use (R245). -/
def State.ringSpan (s : State) (sid : Nat) : Nat × Nat :=
  let base := s.get P.ACQX F.ACQ_RING_BASE_MIB sid
  let next := ((List.range 22).filter (fun j => decide (sid < j) && s.getB P.ACQX F.ACQ_RING_BASE_VALID j)).head?
  let top := match next with
    | some j => s.get P.ACQX F.ACQ_RING_BASE_MIB j
    | none => s.useReg P.ACQM F.ACQ_DM_BASE.off + s.useReg P.ACQM F.ACQ_DM_SIZE.off
  let mib := top - base
  if s.use P.ACQ F.ACQ_CTL_MODE = 1 then
    let n := s.use P.ACQ F.ACQ_SEG_CFG_SEG_COUNT
    let parts := if n = 0 then Nat.max 2 (s.use P.ACQ F.ACQ_SEG_CFG_SEG_RING) else n
    let part := mib / parts
    ((base + part * (s.get P.ACQ F.ACQ_SEG_NUM % parts)) * 2 ^ 20, part * 2 ^ 20)
  else (base * 2 ^ 20, mib * 2 ^ 20)

/-- Whether a stream runs half-banks (R279). -/
def State.splitBanks (s : State) (sid : Nat) : Bool := bitOf (s.get P.RFQ F.RFQ_SPLIT) sid

/-- Bytes of the producer's bank or half-bank, or of an ACQ chunk (R240, R268, R278, R279). -/
def State.bankSize (s : State) (sid : Nat) : Nat :=
  if sid < 8 then 2 ^ 20 else if s.splitBanks sid then 2 ^ 17 else 2 ^ 18

/-- Scratch offset of a bank (R321). -/
def bankBase (sid : Nat) (b : Bool) : Nat := 0x2E00000 + sid * 0x80000 + (if b then 0x40000 else 0)

/-- Bytes of items in the banks and not yet taken (R285); the chunks of streams 0 to 7 are filled in their ring (R240). -/
def StreamQ.level (q : StreamQ) (sid : Nat) : Nat :=
  (match q.opened with | some c => if sid < 8 then 0 else c.bytes | none => 0) +
  (match q.bankA.chunk? with | some c => c.payloadLen | none => 0) +
  (match q.bankB.chunk? with | some c => c.payloadLen | none => 0)

/-- Refresh RFQ_LEVEL, RFQ_BANK_STAT, the STALL event and the watermark of a stream (R285, R286). -/
def State.refreshRfq (s : State) (sid : Nat) : State :=
  let q := s.stream sid
  let s := s.put P.RFQ F.RFQ_LEVEL (q.level sid) sid
  let s := s.put P.RFQ F.RFQ_BANK_STAT_BANK_A q.bankA.code sid
  let s := s.put P.RFQ F.RFQ_BANK_STAT_BANK_B q.bankB.code sid
  let s := s.putB P.RFQ F.RFQ_BANK_STAT_CURRENT q.current sid
  let s := s.putB P.RFQ F.RFQ_BANK_STAT_SPLIT (s.splitBanks sid) sid
  let s := s.put P.RFQ F.RFQ_BANK_STAT_OPEN_LEN ((q.opened.map (fun c => 64 + c.bytes)).getD 0) sid
  let mark := s.use P.RFQ F.RFQ_WM_MARK sid * 1024
  let raw := mark != 0 &&
    (if s.use P.RFQ F.RFQ_WM_DIR sid = 0 then decide (q.level sid ≥ mark) else decide (q.level sid ≤ mark))
  let s := s.level P.RFQ sid raw
  s.level P.RFQ 23 (s.get P.RFQ F.RFQ_STAT_STALL != 0)

/-- Set or clear a stream's bit in RFQ_STAT.STALL (R280). -/
def State.setStall (s : State) (sid : Nat) (b : Bool) : State :=
  s.put P.RFQ F.RFQ_STAT_STALL (putBit (s.get P.RFQ F.RFQ_STAT_STALL) sid b)

/-- Address the streams name as their origin (R270): own cascade address, 0 in SOLO. -/
def State.ownAddr (s : State) : Nat := if s.get P.CAS F.CAS_STAT_ROLE = 0 then 0 else s.get P.CAS F.CAS_STAT_ADDR

/-- Twin states (R430). -/
abbrev T.OFF : Nat := 0
abbrev T.PAIRING : Nat := 1
abbrev T.PAIRED : Nat := 2
abbrev T.DUPLEX : Nat := 3
abbrev T.ALONE : Nat := 4
abbrev T.FAILED : Nat := 5

/-- Whether the pair runs in DUPLEX. -/
def State.duplex (s : State) : Bool := s.get P.TWN F.TWN_STAT_STATE == T.DUPLEX

/-- PLACE of a chunk header: [1] DUPLEX, [0] SECONDARY (R270). -/
def State.chunkPlace (s : State) : Nat :=
  if s.duplex then 2 + b2n (!s.getB P.TWN F.TWN_STAT_PRIMARY) else 0

/-- First ply not yet committed (R221). -/
def State.commitPly (s : State) : Nat := match s.gmb.ckpts with | c :: _ => c.ply | [] => s.gmb.next

/-- Whether an item is still held behind the commit point (R231). -/
def State.held (s : State) (it : Item) : Bool := match it.ply with | some p => decide (s.commitPly ≤ p) | none => false

/-- TIME_ALIGN_OFS: signed 48-bit ticks (R393, R414). -/
def State.alignOfs (s : State) : Int := sx 48 (s.get64 P.TIME F.TIME_ALIGN_OFS_LO F.TIME_ALIGN_OFS_HI)

/-- A local slot in aligned time, and back (R393, R420). -/
def State.aligned (s : State) (slot : Nat) : Nat := ((slot : Int) + 8 * s.alignOfs).toNat
def State.unaligned (s : State) (slot : Nat) : Nat := ((slot : Int) - 8 * s.alignOfs).toNat

/-- End of the seam span that holds a local slot, in aligned ticks (R438). -/
def State.spanEnd (s : State) (slot : Nat) : Nat :=
  let w := 2 ^ s.use P.TWN F.TWN_CTL_SEAM_EXP
  (s.aligned slot / 8 / w + 1) * w

/-- Whether every seam span that holds an item of a chunk has been compared and agreed (R440). -/
def State.seamChecked (s : State) (sid : Nat) (items : List Item) : Bool :=
  bitOf (s.use P.TWN F.TWN_CTL_SEAMED) sid && decide (sid < 18) && !items.isEmpty &&
  items.all (fun it => s.seamAgreed.contains (sid, s.spanEnd it.slot))

/-- Header of a closed chunk made from an open one (R270, R271, R272). -/
def State.makeChunk (s : State) (sid : Nat) (c : OpenChunk) (flags : Nat) : Chunk :=
  let q := s.stream sid
  let kind := s.kindNow sid
  let flags := putBit (putBit (putBit flags 3 c.thinned) 4 (s.seamChecked sid c.items)) 5 q.flushed
  { stream := sid, record := s.get P.ACQ F.ACQ_REC_NUM,
    segment := if s.use P.ACQ F.ACQ_CTL_MODE = 1 then s.get P.ACQ F.ACQ_SEG_NUM else 0,
    seq := s.get P.RFQ F.RFQ_SEQ sid, kind := kind, exp := c.exp, items := c.items, tail := c.tail,
    flags := flags, origin := s.ownAddr, place := s.chunkPlace,
    payloadLen := (payloadBytes kind c.items).length, stored := uncompressedBody kind c.items c.tail, dataCrc := none }

/-- Whether ring bytes `[a, a + n)` meet a chunk of the ring. -/
def overlaps (a n : Nat) (e : RingChunk) : Bool := decide (e.pos < a + n) && decide (a < e.pos + e.chunk.length)

/-- FIRST_SLOT of a chunk. -/
def Chunk.first (c : Chunk) : Nat := (c.items.head?.map Item.slot).getD 0

/-- Ring offset the next chunk takes: at the write position, or at 0 when `n` bytes do not fit before the end (R277). -/
def State.ringPlace (s : State) (sid n : Nat) : Nat :=
  let (_, size) := s.ringSpan sid
  if (s.stream sid).ringPos + n ≤ size then (s.stream sid).ringPos else 0

/-- The chunks of a ring from the one that holds a slot on: the last that begins at or before it, and those after; all of them
when none does (R242, R264). -/
def chunksFrom (slot : Nat) : List RingChunk → List RingChunk
  | [] => []
  | [e] => [e]
  | e :: f :: r => if f.chunk.first ≤ slot then chunksFrom slot (f :: r) else e :: f :: r

/-- Chunks of a ring that may not be overwritten (R242): once a FIRE is placed those from COLLAR_START on; for a streaming reader
those it has not read. -/
def State.ringKept (s : State) (sid : Nat) : List RingChunk :=
  let q := s.stream sid
  let mode := s.use P.ACQ F.ACQ_CTL_MODE
  if mode = 2 then q.ring.filter (fun e => decide (q.readSeq ≤ e.chunk.seq))
  else if mode = 3 ∧ s.acq.readerFrom.isSome then
    (chunksFrom (s.acq.readerFrom.getD 0) q.ring).filter (fun e => decide (q.readSeq ≤ e.chunk.seq))
  else if s.acq.placed.isSome then chunksFrom s.acq.collarStart q.ring else []

/-- Whether writing `n` bytes of a stream's ring next would overwrite a protected chunk (R242). -/
def State.ringProtected (s : State) (sid n : Nat) : Bool := (s.ringKept sid).any (overlaps (s.ringPlace sid n) n)

/-- Write a chunk into its ring (R240, R274, R275, R277): a filler over the rest when it does not fit, the pockets of the
chunks it reuses zeroed first, its own pocket last. Answers whether it was written. -/
def State.ringWrite (s : State) (sid : Nat) (c : Chunk) : State × Bool :=
  let (base, size) := s.ringSpan sid
  let q := s.stream sid
  let n := c.length
  if size < n ∨ s.ringProtected sid n then (s, false)
  else
    let pos := s.ringPlace sid n
    let s := if pos = q.ringPos then s else s.dmWrite (base + q.ringPos) (fillerBytes (size - q.ringPos))
    let gone := q.ring.filter (overlaps pos n)
    let s := s.each gone (fun s e => s.dmWrite (base + e.pos) (List.replicate 8 0))
    let bs := c.bytes
    let s := s.dmWrite (base + pos + 8) (bs.drop 8)
    let s := s.dmWrite (base + pos) (bs.take 8)
    (s.modStream sid (fun q => { q with
      ringPos := pos + n, lost := q.lost || !gone.isEmpty,
      ring := q.ring.filter (fun e => !overlaps pos n e) ++ [{ pos := pos, chunk := c }] }), true)

/-- Close the chunk in progress (R276, R278): number it, write streams 0 to 7 into their ring, hand the bank of any other
stream to its consumer. A chunk that still holds an entry behind the commit point does not close (R231). -/
def State.closeChunk (s : State) (sid : Nat) (flags : Nat) : State :=
  let q := s.stream sid
  match q.opened with
  | none => s
  | some c =>
    if c.items.any s.held then s
    else
      let ch := s.makeChunk sid c flags
      let s := s.wrap P.RFQ F.RFQ_SEQ 1 sid
      let s := s.modStream sid (fun q => { q with opened := none, flushed := false })
      let s := if c.thinned then s.modAcq (fun a => { a with thinMask := putBit a.thinMask sid true }) else s
      let s :=
        if sid < 8 then (s.ringWrite sid ch).1
        else
          let s := s.scrWrite (bankBase sid q.current) ch.bytes
          s.modStream sid (fun q =>
            if q.current then { q with bankB := .full ch, current := false } else { q with bankA := .full ch, current := true })
      s.refreshRfq sid

/-- Whether the bank the producer would fill next is free (R278); streams 0 to 7 need none. -/
def State.bankReady (s : State) (sid : Nat) : Bool :=
  let q := s.stream sid
  if sid < 8 then true else (if q.current then q.bankB else q.bankA) == .free

/-- Open a chunk whose first item stands at `slot`, with the room its bank and ring leave it. -/
def State.openChunk (s : State) (sid slot : Nat) : State :=
  let (_, size) := s.ringSpan sid
  let q := s.stream sid
  let left := size - q.ringPos
  let room := Nat.min (s.bankSize sid) (if left < 128 then size else left)
  s.modStream sid (fun q =>
    let c : OpenChunk :=
      { items := [], tail := [], bytes := 0, tailWords := 0, exp := s.expNow sid,
        thinned := decide (s.thinStep sid > 0), openedAt := slot, room := room,
        ageMax := s.use P.RFQ F.RFQ_CTL_CHUNK_AGE_MAX }
    let q := { q with opened := some c }
    if sid < 8 then q else if q.current then { q with bankB := .filling } else { q with bankA := .filling })

/-- Put an item into the open chunk. -/
def OpenChunk.add (c : OpenChunk) (kind : Nat) (thinned : Bool) (it : Item) : OpenChunk :=
  { c with items := c.items ++ [it], bytes := c.bytes + itemSize kind it, thinned := c.thinned || thinned }

/-- Whether an item fits (R267): pocket, header, padded payload and tail within the room. -/
def OpenChunk.fits (c : OpenChunk) (kind : Nat) (it : Item) : Bool :=
  decide (64 + (c.bytes + itemSize kind it + 7) / 8 * 8 + 8 * c.tailWords ≤ c.room)

/-- Bytes a stalled producer may stage: 64 KiB for streams 18 to 21 (R280), the merge buffer for streams 8 to 15 (R124), none
for the others. -/
def stageLimit (sid : Nat) : Nat := if 18 ≤ sid then 2 ^ 16 else if 8 ≤ sid ∧ sid < 16 then 2 ^ 20 else 0

/-- Kinds of what the hem counts (R258): unpaired starts, pairs and order skips of a pairing unit, gate results, over-range windows,
GAP markers, drop spans, stamps dropped, retractions, rollbacks, LATE firings, overflow spans; and what befalls a loop (kinds of
its ANGLE tokens, R416). -/
abbrev RN.UNPAIRED : Nat := 0
abbrev RN.PAIR : Nat := 1
abbrev RN.SKIP : Nat := 2
abbrev RN.GATE : Nat := 3
abbrev RN.WINDOW : Nat := 10
abbrev RN.GAP : Nat := 11
abbrev RN.DROP_SPAN : Nat := 12
abbrev RN.DROPPED : Nat := 13
abbrev RN.RETRACT : Nat := 14
abbrev RN.ROLLBACK : Nat := 15
abbrev RN.LATE : Nat := 16
abbrev RN.OVERFLOW : Nat := 17
abbrev RN.LOOP (tok : Nat) : Nat := 20 + tok

/-- Note something the hem may count, while ARMED (R258). -/
def State.note (s : State) (kind slot unit : Nat) (val : Int := 1) (extra : Nat := 0) : State :=
  if s.isArmed then
    { s with acq := { s.acq with notes := { slot := slot, kind := kind, unit := unit, val := val, extra := extra } :: s.acq.notes } }
  else s

/-- Hold an item of a stalled producer, or lose it (R280). The loss of an item of streams 18 to 21 counts and latches LOST;
`State.appendItem` raises its safety fault. -/
def State.stageItem (s : State) (sid : Nat) (it : Item) : State :=
  let q := s.stream sid
  let n := itemSize (s.kindNow sid) it
  let s := s.setStall sid true
  if q.stagingBytes + n ≤ stageLimit sid then
    (s.modStream sid (fun q => { q with staging := q.staging ++ [it], stagingBytes := q.stagingBytes + n })).refreshRfq sid
  else if 18 ≤ sid then ((s.sat P.RFQ F.RFQ_LOST_CNT).pulse P.RFQ 24).refreshRfq sid
  else if sid = 16 ∨ sid = 17 then
    let i := sid - 8
    let s := if q.gaps.any (fun g => g.cause = 3) then s
      else
        let s := (s.sat P.ACQT F.ACQ_OVF_CNT 1 i).pulse P.ACQT (16 + i)
        let s := s.note RN.OVERFLOW it.slot sid
        s.modStream sid (fun q => { q with gaps := q.gaps ++ [{ slot := it.slot, cause := 3 }] })
    s.refreshRfq sid
  else s.refreshRfq sid

/-- Put an item into a stream without the loss fault: into the open chunk, after closing one it does not fit (R267), or into
the stall's staging. What lies before ARM_SLOT belongs to no record (R245); a WRAP marker has slot 0. -/
def State.appendRaw (s : State) (sid : Nat) (it : Item) : State :=
  if !s.recording sid ∨ (it.slot ≠ 0 ∧ it.slot < s.acq.armSlot) then s
  else
    let kind := s.kindNow sid
    let put (s : State) : State :=
      let s := s.modStream sid (fun q => { q with
        opened := q.opened.map (fun c => c.add kind (decide (s.thinStep sid > 0)) it) })
      if sid < 8 then s else s.refreshRfq sid
    let fresh (s : State) : State := if s.bankReady sid then put (s.openChunk sid it.slot) else s.stageItem sid it
    if !(s.stream sid).staging.isEmpty then s.stageItem sid it
    else
      match (s.stream sid).opened with
      | some c =>
        if c.fits kind it then put s
        else
          let s := s.closeChunk sid 0
          if (s.stream sid).opened.isSome then s.stageItem sid it else fresh s
      | none => fresh s

/-! ### Marker words and record flags -/

/-- Words of a marker entry (table `Marker entry`, R287). -/
def markerWords (code subject index slot : Nat) (params : List Nat) : List Word64 :=
  w64 (code * 2 ^ 56 + subject * 2 ^ 48 + params.length * 2 ^ 40 + index) :: w64 (slot51 slot) :: params.map w64

/-- Marker codes (table `Marker codes`, R288). -/
abbrev K.TRIG : Nat := 0x01
abbrev K.MARK : Nat := 0x02
abbrev K.RATE : Nat := 0x03
abbrev K.GAP : Nat := 0x04
abbrev K.WRAP : Nat := 0x05
abbrev K.JUMP : Nat := 0x06
abbrev K.COAST_ON : Nat := 0x07
abbrev K.COAST_OFF : Nat := 0x08
abbrev K.CLIP : Nat := 0x09
abbrev K.SEG : Nat := 0x0A
abbrev K.DROP : Nat := 0x0B
abbrev K.CLOCK_LOSS : Nat := 0x0C
abbrev K.OVR_WINDOW : Nat := 0x0D
abbrev K.SHORT_COLLAR : Nat := 0x0E
abbrev K.FAULT : Nat := 0x10
abbrev K.SEAM : Nat := 0x11
abbrev K.LATE : Nat := 0x12

/-- Record flags (table `Record flags`, R259). -/
abbrev RF.FIRED : Nat := 0
abbrev RF.NO_TRIG : Nat := 1
abbrev RF.STOPPED : Nat := 2
abbrev RF.COLLAR_CUT : Nat := 3
abbrev RF.CUFF_CLIP : Nat := 4
abbrev RF.LIVE_CLIP : Nat := 5
abbrev RF.SHORT_COLLAR : Nat := 6
abbrev RF.THINNED : Nat := 7
abbrev RF.GAP : Nat := 8
abbrev RF.CLOCK_LOSS : Nat := 9
abbrev RF.LADDER_OVERRUN : Nat := 10
abbrev RF.FAULT : Nat := 11
abbrev RF.STORE_FULL : Nat := 12
abbrev RF.LATE : Nat := 13
abbrev RF.REMOTE : Nat := 14
abbrev RF.DUPLEX : Nat := 15
abbrev RF.COAST : Nat := 16
abbrev RF.JUMP : Nat := 17

/-- Set a flag of the record in progress. -/
def State.recFlag (s : State) (b : Nat) : State :=
  if s.isArmed then s.modAcq (fun a => { a with flags := putBit a.flags b true }) else s

end Sys2Proof.Machine
end

