-- ==== Sys2Proof/Machine/Links.lean ====
section
/-!
DEFINITION. Tokens (R408): building, sending and relaying them over the three Flepex ports (R403, R409, R432).
-/
namespace Sys2Proof.Machine

/-- Token types (table `Token word 0`). -/
abbrev TK.ARM : Nat := 1
abbrev TK.FIRE : Nat := 2
abbrev TK.RETRACT : Nat := 3
abbrev TK.STOP : Nat := 4
abbrev TK.ANGLE : Nat := 5
abbrev TK.TIME : Nat := 6
abbrev TK.REG : Nat := 7
abbrev TK.SEAM : Nat := 8

/-- Fields of word 0. -/
def Token.type (k : Token) : Nat := bits k.w0.toNat 63 59
def Token.origin (k : Token) : Nat := bits k.w0.toNat 58 53
def Token.dest (k : Token) : Nat := bits k.w0.toNat 52 47
def Token.bcast (k : Token) : Bool := bitOf k.w0.toNat 46
def Token.hops (k : Token) : Nat := bits k.w0.toNat 45 40
def Token.seq (k : Token) : Nat := bits k.w0.toNat 39 32

/-- Cascade roles (R404). -/
abbrev C.SOLO : Nat := 0
abbrev C.ROOT : Nat := 1
abbrev C.MEMBER : Nat := 2

def State.role (s : State) : Nat := s.get P.CAS F.CAS_STAT_ROLE
def State.casAddr (s : State) : Nat := s.get P.CAS F.CAS_STAT_ADDR
def State.broken (s : State) : Bool := s.getB P.CAS F.CAS_STAT_BROKEN

/-- Whether a Flepex port is UP (R427). -/
def State.portUp (s : State) (p : Port) : Bool := s.enabled P.FLX && s.get P.FLX F.FLX_PORT_STAT_STATE p.idx == 2

/-- Whether the twin port carries a pair's tokens. -/
def State.paired (s : State) : Bool :=
  s.get P.TWN F.TWN_STAT_STATE == T.PAIRED || s.get P.TWN F.TWN_STAT_STATE == T.DUPLEX

def State.flx (s : State) (p : Port) : FlxPort := s.flxs.getD p.idx FlxPort.empty
def State.modFlx (s : State) (p : Port) (f : FlxPort → FlxPort) : State := { s with flxs := lmod s.flxs p.idx f }
def State.modCas (s : State) (f : CasState → CasState) : State := { s with cas := f s.cas }
def State.modTwin (s : State) (f : TwinState → TwinState) : State := { s with twin := f s.twin }

/-- A flit leaves a port: it takes the next SEQ and enters the replay store of 128 flits (R407). Each thing sent has a flit of its own. -/
def State.sendFlit (s : State) (p : Port) (o : Output) : State :=
  (s.modFlx p (fun q => { q with tx := (q.tx + 1) % 4096, replay := ((q.tx, o) :: q.replay).take 128 })).emit o

/-- Send a token out of a port, whatever its state. -/
def State.putToken (s : State) (p : Port) (k : Token) : State :=
  (s.wrap P.FLX F.FLX_TOKEN_TX_CNT 1 p.idx).sendFlit p (.token p k)

/-- Send a token out of a port that is UP. -/
def State.sendPort (s : State) (p : Port) (k : Token) : State := if s.portUp p then s.putToken p k else s

/-- Send a CMD flit along the ring (R424), out of both ports in LINE forwarding. -/
def State.sendCmd (s : State) (dst ring tag : Nat) (completion : Bool) (words : List Word64) : State :=
  let out (s : State) (p : Port) : State := if s.portUp p then s.sendFlit p (.cmdFlit p dst ring tag completion words) else s
  if s.broken then out (out s .east) .west else out s .east

/-- Send a token this module made along the ring (R409): out of EAST, or out of both ports in LINE forwarding. -/
def State.sendRing (s : State) (k : Token) : State :=
  if !s.enabled P.CAS then s
  else if s.broken then (s.sendPort .east k).sendPort .west k else s.sendPort .east k

/-- Count a token of a type (SEQ of `Token word 0`). -/
def State.bumpSeq (s : State) (type : Nat) : State := { s with txSeq := lmod s.txSeq type (fun n => (n + 1) % 256) }

/-- Build a token of this module with the type's present SEQ. -/
def State.mkToken (s : State) (type dest : Nat) (bcast : Bool) (low w1 w2 w3 : Nat) : Token :=
  { w0 := w64 (type * 2 ^ 59 + s.ownAddr * 2 ^ 53 + dest * 2 ^ 47 + b2n bcast * 2 ^ 46 +
      s.txSeq.getD type 0 * 2 ^ 32 + low % 2 ^ 32),
    w1 := w64 w1, w2 := w64 w2, w3 := w64 w3 }

/-- A broadcast token along the ring; a SOLO module sends none, but a root that distributes angle before its first READY (R413). -/
def State.broadcast (s : State) (type low w1 w2 w3 : Nat) : State :=
  if s.role = C.SOLO ∧ s.cas.step ≠ 4 then s else (s.sendRing (s.mkToken type 0 true low w1 w2 w3)).bumpSeq type

/-- An addressed token along the ring. -/
def State.sendTo (s : State) (type dest low w1 w2 w3 : Nat) : State :=
  (s.sendRing (s.mkToken type dest false low w1 w2 w3)).bumpSeq type

/-- A token over the twin port (R432): DEST, BCAST and HOPS are 0. -/
def State.sendTwin (s : State) (type low w1 w2 w3 : Nat) : State :=
  if s.enabled P.TWN then (s.sendPort .twin (s.mkToken type 0 false low w1 w2 w3)).bumpSeq type else s

/-- A SEAM token (table `SEAM token`). -/
def State.sendSeam (s : State) (kind low w1 w2 w3 : Nat) : State := s.sendTwin TK.SEAM (kind * 2 ^ 28 + low) w1 w2 w3

/-- Relay a token received on a cascade port (R409): its own tokens and those addressed to it are removed; in RING forwarding
WEST goes on to EAST, in LINE forwarding a token leaves by the opposite port. PROBE, REPLY and VERIFY are never relayed. -/
def State.relay (s : State) (p : Port) (k : Token) : State :=
  let time := k.type == TK.TIME && bits k.w0.toNat 31 30 != 0
  if p = .twin ∨ s.role = C.SOLO ∨ time ∨ k.origin = s.casAddr ∨ (!k.bcast ∧ k.dest = s.casAddr) then s
  else
    let k := { k with w0 := w64 (putBits k.w0.toNat 45 40 (k.hops + 1)) }
    if s.broken then s.sendPort (if p = .east then .west else .east) k
    else if p = .west then s.sendPort .east k else s

end Sys2Proof.Machine
end

