-- ==== Sys2Proof/Machine/Safe.lean ====
section
/-!
DEFINITION. The land levels of the action outputs (R204, R206, R208), the safety faults and the entry into SAFE (R444, R446,
R447), the twin's ALONE state (R442), and appending an item with the fault its loss raises (R280).
-/
namespace Sys2Proof.Machine

/-! ### Action lands -/

def State.actOut (s : State) (n : Nat) : ActOut := s.act.getD n { stop := .release, since := 0, level := 2 }
def State.modAct (s : State) (n : Nat) (f : ActOut → ActOut) : State := { s with act := lmod s.act n f }

/-- Whether an output is commanded active (ACT_STAT). -/
def State.actActive (s : State) (n : Nat) : Bool := bitOf (s.get P.ACT F.ACT_STAT_CMD) n

/-- The level of a land as the driver sets it: 0 low, 1 high, 2 high impedance (R206, R208, table of ACT_CFG). A stopped ACT
page keeps the present level (R45). -/
def State.landLevel (s : State) (n : Nat) : Nat :=
  let high (b : Bool) := if b then (if s.useB P.ACT F.ACT_CFG_DRIVE n then 2 else 1) else 0
  if !s.vcapGood || !s.useB P.ACT F.ACT_CFG_EN n then 2
  else if s.run = .safe then
    (match s.use P.ACT F.ACT_CFG_SAFE n with | 0 => 0 | 1 => high true | _ => 2)
  else if !s.enabled P.ACT then (s.actOut n).level
  else high (s.actActive n != s.useB P.ACT F.ACT_CFG_POL n)

/-- Bring every land to its level; a land that changes takes its new level at `slot`. -/
def State.driveLands (s : State) (slot : Nat) : State :=
  s.each (List.range 16) (fun s n =>
    let l := s.landLevel n
    if (s.actOut n).level = l then s else (s.modAct n (fun o => { o with level := l })).emit (.land n l slot))

/-- PAGE_STAT.STATE of ACT (R212). -/
def State.actState (s : State) : State :=
  s.setBlockState P.ACT (if s.run = .safe then 2 else if s.get P.ACT F.ACT_STAT_CMD != 0 then 1 else 0)

/-- Set or clear an output's activity at a slot. -/
def State.setActive (s : State) (n : Nat) (b : Bool) (stop : PulseStop) (slot : Nat) : State :=
  let s := s.put P.ACT F.ACT_STAT_CMD (putBit (s.get P.ACT F.ACT_STAT_CMD) n b)
  let s := s.modAct n (fun o => { o with stop := stop, since := slot })
  ((s.level P.ACT (4 + n) b).actState).driveLands slot

/-- End the activity of the outputs in a mask. -/
def State.endActivity (s : State) (mask slot : Nat) : State :=
  s.each ((List.range 16).filter (bitOf mask)) (fun s n => if s.actActive n then s.setActive n false .release slot else s)

/-! ### Twin state -/

/-- Enter a twin state with the levels of its events (R430, table `TWN events`). -/
def State.setTwin (s : State) (st : Nat) : State :=
  let s := (s.put P.TWN F.TWN_STAT_STATE st).setBlockState P.TWN st
  let s := if st = T.DUPLEX then s else s.modAcq (fun a => { a with duplexAll := false })
  let s := s.level P.TWN 0 (st == T.PAIRED || st == T.DUPLEX)
  let s := s.level P.TWN 1 (st == T.DUPLEX)
  s.level P.TWN 2 (st == T.ALONE)

/-- A module that is PAIRED or DUPLEX goes ALONE (R442): thinning steps come from its own pressure again. -/
def State.goAlone (s : State) : State :=
  if s.paired then
    (s.setTwin T.ALONE).each (List.range 10) (fun s i => s.putB P.ACQT F.ACQ_THIN_STAT_FROM_TWIN false i)
  else s

/-! ### Safety faults -/

/-- Fault bits (table `Safety faults`). -/
abbrev Q.ACT_PATH : Nat := 0
abbrev Q.LADDER : Nat := 1
abbrev Q.CAPTURE : Nat := 2
abbrev Q.SEAM : Nat := 3
abbrev Q.SAMPLE_CLOCK : Nat := 4
abbrev Q.ANGLE : Nat := 5
abbrev Q.DEEP_MEM : Nat := 6
abbrev Q.SCRATCH : Nat := 7
abbrev Q.CORES : Nat := 8
abbrev Q.CONFIG : Nat := 9
abbrev Q.RAIL : Nat := 10
abbrev Q.TEMP : Nat := 11
abbrev Q.LINK : Nat := 12
abbrev Q.COMPRESS : Nat := 13
abbrev Q.TWIN_SAFE : Nat := 14

def State.modSaf (s : State) (f : SafState → SafState) : State := { s with saf := f s.saf }

/-- Whether a fault's reaction is SAFE: bits 0, 1, 4, 8 and 10 are fixed (R446, R453). -/
def State.reactSafe (s : State) (f : Nat) : Bool :=
  f == 0 || f == 1 || f == 4 || f == 8 || f == 10 || bitOf (s.useReg P.SAF F.SAF_CTL.off) f

/-- The streams that carry their markers in a tail (R273). -/
def tailStreams : List Nat := [0, 1, 2, 3, 4, 5, 6, 7, 16, 17, 20, 21]

/-- A marker in the tail of a stream: it stands before the next item (R273). -/
def State.tailMarker (s : State) (sid code subject slot : Nat) (params : List Nat) : State :=
  if !s.recording sid then s
  else
    let s := if (s.stream sid).opened.isNone ∧ s.bankReady sid then s.openChunk sid slot else s
    s.modStream sid (fun q => { q with opened := q.opened.map (fun c =>
      let ws := markerWords code subject c.items.length slot params
      { c with tail := c.tail ++ [{ index := c.items.length, words := ws }], tailWords := c.tailWords + ws.length }) })

/-- Entry into SAFE (R447) at the first slot after a SAFE reaction, from READY or ARMED, or from the end of start-up. -/
def State.safeEntry (s : State) (first : Nat) : State :=
  let slot := s.now + 1
  let latched := s.get P.SAF F.SAF_FAULT_LATCH
  let s := s.modSaf (fun q => { q with safeFault := true, exitAt := none, keyAt := none })
  let s : State := { s with run := .safe }
  let s := s.endActivity 0xFFFF slot
  let s := (s.driveLands slot).actState
  let params := [first * 2 ^ 16 + latched]
  let s := s.appendRaw 18 { slot := slot, words := markerWords K.FAULT 0xFF 0 slot params, ply := none }
  let s := s.each tailStreams (fun s i => s.tailMarker i K.FAULT 0xFF slot params)
  let s := s.recFlag RF.FAULT
  let s := if s.paired then (s.sendSeam 2 latched (slot51 (s.aligned slot)) 0 0).goAlone else s
  let s := (s.sat P.SAF F.SAF_SAFE_CNT).setBlockState P.SAF 1
  s.level P.SAF 0 true

/-- A safety fault (R446): it latches, names itself first if none was latched, and takes its reaction. LADDER and CORES set
RESET_NEEDED. During start-up the reaction waits for its end (R447). -/
def State.raiseFault (s : State) (f : Nat) : State :=
  let s := if s.getB P.SAF F.SAF_FIRST_VALID then s else s.setReg P.SAF F.SAF_FIRST.off (2 ^ 31 + f)
  let s := s.put P.SAF F.SAF_FAULT_LATCH (putBit (s.get P.SAF F.SAF_FAULT_LATCH) f true)
  let s := s.pulse P.SAF 1
  let s := if f = Q.LADDER ∨ f = Q.CORES then (s.modSaf (fun q => { q with resetNeeded := true })).level P.SAF 3 true else s
  let s := s.modSaf (fun q => { q with exitAt := none, keyAt := none })
  if s.reactSafe f && (s.run == .ready || s.run == .armed) then s.safeEntry f else s

/-- The present condition of a fault: SAF_FAULT_RAW follows it and a rising edge raises the fault. -/
def State.faultLevel (s : State) (f : Nat) (b : Bool) : State :=
  let raw := s.get P.SAF F.SAF_FAULT_RAW
  let s := s.put P.SAF F.SAF_FAULT_RAW (putBit raw f b)
  if b && !bitOf raw f then s.raiseFault f else s

/-- Put an item into a stream (R267, R280): the loss of an item of streams 18 to 21 raises the capture-data-path fault. -/
def State.appendItem (s : State) (sid : Nat) (it : Item) : State :=
  let lost := s.get P.RFQ F.RFQ_LOST_CNT
  let s := s.appendRaw sid it
  if s.get P.RFQ F.RFQ_LOST_CNT = lost then s else s.raiseFault Q.CAPTURE

end Sys2Proof.Machine
end

