-- ==== Sys2Proof/Machine/Markers.lean ====
section
/-!
DEFINITION. Markers and gaps (R287 to R289): entries of stream 18, in-band copies in the streams affected; and the seam sums taken at
the producers (R438).
-/
namespace Sys2Proof.Machine

/-- A marker in stream 18 (R288); `ply` is the ply of a ladder marker that the commit point may hold (R231). -/
def State.marker (s : State) (code subject slot : Nat) (params : List Nat) (ply : Option Nat := none) : State :=
  s.appendItem 18 { slot := slot, words := markerWords code subject 0 slot params, ply := ply }

/-- Start slot of the merge window of a slot in a group (R125). -/
def State.windowOf (s : State) (g slot : Nat) : Nat :=
  let w := 8 * 2 ^ s.use (P.STP g) F.STP_CTL_WIN_EXP
  slot / w * w

/-- A marker in-band (R273): tail entry, group entry of a stamp stream, or an entry of each loop of stream 19. A group entry
waits for its merge window (R125); GAP stands in the window that holds RESUME (R129). -/
def State.inband (s : State) (sid code subject slot : Nat) (params : List Nat) : State :=
  if 8 ≤ sid ∧ sid < 16 then
    let head := 0xFF * 2 ^ 56 + code * 2 ^ 48
    let ws := if code = K.WRAP then [w64 head]
      else w64 (head + (1 + params.length) * 2 ^ 40) :: w64 (slot51 slot) :: params.map w64
    let place := if code = K.GAP then params.headD slot else slot
    if s.recording sid then
      s.modStp (sid - 8) (fun q => { q with entries := q.entries ++ [(s.windowOf (sid - 8) place, ws)] })
    else s
  else if sid = 18 then s
  else if sid = 19 then
    s.each (List.range 4) (fun s n =>
      if s.useB (P.LTL n) F.LTL_MAP_CFG_MAP_EN && s.enabled (P.LTL n)
      then s.appendItem 19 { slot := plyStart slot, words := s.mapWords n code (plyStart slot) 0, ply := none } else s)
  else s.tailMarker sid code subject slot params

/-- A marker in stream 18 and in-band in each of the streams named (R288). -/
def State.markBoth (s : State) (code subject slot : Nat) (params : List Nat) (sids : List Nat) : State :=
  (s.marker code subject slot params).each sids (fun s i => s.inband i code subject slot params)

/-! ### Seam sums -/

/-- Whether a stream's spans are summed: DUPLEX, seamed, enabled (R438, R439). -/
def State.seamed (s : State) (sid : Nat) : Bool :=
  s.duplex && bitOf (s.use P.TWN F.TWN_CTL_SEAMED) sid && s.recording sid

/-- Change a stream's sums for the span of a slot. -/
def State.seamWith (s : State) (sid slot : Nat) (f : SeamSum → SeamSum) : State :=
  if !s.seamed sid then s
  else
    let e := s.spanEnd slot
    if s.seams.any (fun q => q.stream == sid && q.finish == e) then
      { s with seams := s.seams.map (fun q => if q.stream == sid && q.finish == e then f q else q) }
    else { s with seams := s.seams ++ [f { stream := sid, finish := e, a := 0, b := 0, c := 0, skip := false }] }

/-- Add to a stream's sums for the span of a slot. -/
def State.seamAdd (s : State) (sid slot a b : Nat) (c : Int) : State :=
  s.seamWith sid slot (fun q => { q with a := q.a + a, b := q.b + b, c := q.c + c })

/-- Mark a span SKIP (R439). -/
def State.seamSkip (s : State) (sid slot : Nat) : State := s.seamWith sid slot (fun q => { q with skip := true })

/-! ### Pairing units that lose their starts -/

/-- Whether the unit's hem section counts (R258). -/
def State.ipHem (s : State) (u : Nat) : Bool := s.useB (P.STP (u / 2)) F.IP_CFG_HEM_EN (u % 2)

/-- Count unpaired starts of a unit (IP_UNPAIRED_CNT, and the hem's count over the record). -/
def State.unpaired (s : State) (u n : Nat) : State :=
  let s := s.sat (P.STP (u / 2)) F.IP_UNPAIRED_CNT n (u % 2)
  if s.ipHem u then s.note RN.UNPAIRED s.now u (n : Int) else s

/-- Discard a unit's armed start or waiting candidates, each counted (R129, R138). -/
def State.dropStarts (s : State) (u : Nat) : State :=
  let n := (s.ip u).starts.length
  let s := s.modIp u (fun q => { q with starts := [], lastStop := none })
  (if n = 0 then s else s.unpaired u n).putB (P.STP (u / 2)) F.IP_STAT_ARMED false (u % 2)

/-! ### Gaps -/

/-- Open a gap in each stream named, from its first slot not taken (R288); one of the same cause already open stays. -/
def State.gapOpen (s : State) (sids : List Nat) (slot cause : Nat) : State :=
  s.each sids (fun s i => s.modStream i (fun q =>
    if q.gaps.any (fun g => g.cause = cause) then q else { q with gaps := q.gaps ++ [{ slot := slot, cause := cause }] }))

/-- Close the gaps of one cause in the streams named: the GAP marker carries RESUME and CAUSE (R288, R289). One marker with
SUBJECT 0xFF stands in stream 18 when the gap is the whole part's. -/
def State.gapClose (s : State) (sids : List Nat) (resume cause : Nat) (whole : Bool) : State :=
  let hit := sids.filter (fun i => (s.stream i).gaps.any (fun g => g.cause = cause))
  let first := hit.foldl (fun m i => Nat.min m
    (((s.stream i).gaps.find? (fun g => g.cause = cause)).map Gap.slot |>.getD m)) resume
  let s := if whole ∧ !hit.isEmpty then s.marker K.GAP 0xFF first [slot51 resume, cause] else s
  let s := s.each hit (fun s i =>
    match (s.stream i).gaps.find? (fun g => g.cause = cause) with
    | none => s
    | some g =>
      let s := (s.modStream i (fun q => { q with gaps := q.gaps.filter (fun g => g.cause ≠ cause) })).seamSkip i resume
      let s := if whole then s else s.marker K.GAP i g.slot [slot51 resume, cause]
      s.inband i K.GAP i g.slot [slot51 resume, cause])
  if hit.isEmpty then s
  else
    let s := s.recFlag RF.GAP
    if whole then s.note RN.GAP first 0xFF else s.each hit (fun s i => s.note RN.GAP first i)

/-! ### Interval flags -/

/-- Interval flags (table `Interval flags`). -/
abbrev IF.PARTIAL : Nat := 0
abbrev IF.GAP : Nat := 1
abbrev IF.COAST : Nat := 2
abbrev IF.JUMP : Nat := 3
abbrev IF.HOLD : Nat := 4
abbrev IF.CAL : Nat := 5
abbrev IF.COEF : Nat := 6
abbrev IF.SAT : Nat := 7
abbrev IF.EMPTY : Nat := 8
abbrev IF.NO_ANGLE : Nat := 9
abbrev IF.CLIP : Nat := 10
abbrev IF.DISTURB : Nat := 11
abbrev IF.LATE : Nat := 12
abbrev IF.INJ : Nat := 13

/-- Flag every interval in progress (R163: GAP). -/
def State.ivFlagAll (s : State) (b : Nat) : State :=
  s.each (List.range 4) (fun s i => s.modIv i (fun v => { v with flags := putBit v.flags b true }))

/-- Flag the ANGLE intervals of a loop (R163: COAST, HOLD). -/
def State.ivFlagLoop (s : State) (n b : Nat) : State :=
  s.each (List.range 4) (fun s i => s.modIv i (fun v =>
    if bitOf v.cfg 30 ∧ bits v.cfg 27 26 = n then { v with flags := putBit v.flags b true } else v))

/-- A change of a loop's source cuts its ANGLE intervals at a ply start (R163). -/
def State.ivCutLoop (s : State) (n slot : Nat) : State :=
  s.each (List.range 4) (fun s i => s.modIv i (fun v =>
    if bitOf v.cfg 30 ∧ bits v.cfg 27 26 = n then { v with cut := some slot } else v))

/-! ### Gaps in stamping -/

/-- A GAP begins in the groups of a mask (R129): the pairing units that take a channel of them discard their starts, each
counted; gates in progress on their channels get the GAP flag. -/
def State.stampGap (s : State) (groups : Nat) : State :=
  let hitGroup (ch : Nat) : Bool := bitOf groups (ch / 32)
  let s := s.each (List.range 16) (fun s u =>
    let p := P.STP (u / 2)
    if hitGroup (s.use p F.IP_CFG_START_CH (u % 2)) || hitGroup (s.use p F.IP_CFG_STOP_CH (u % 2)) then s.dropStarts u else s)
  s.each (List.range 32) (fun s u => s.modFu u (fun q => { q with
    gate := q.gate.map (fun k => if hitGroup (bits k.cfg 24 17) then { k with flags := putBit k.flags 2 true } else k) }))

end Sys2Proof.Machine
end

