-- ==== Sys2Proof/Machine/Loops.lean ====
section
/-!
DEFINITION. Line tracking and the angle scheduler (chapter 4): reference events, the update law, loss, return, holds, the
encoder, plausibility, angle events and the angle map. Arithmetic in units of 2^-32 pip rounds toward minus infinity, which
the chapter leaves open (log entry 10).
-/
namespace Sys2Proof.Machine

/-- Source kinds (table `Source kinds`). -/
abbrev S.OFF : Nat := 0
abbrev S.ANALOG : Nat := 1
abbrev S.DIGITAL : Nat := 2
abbrev S.ENCODER : Nat := 3
abbrev S.NOMINAL : Nat := 4
abbrev S.CASCADE : Nat := 5

def State.loopSrc (s : State) (n : Nat) : Nat := s.use (P.LTL n) F.LTL_SRC_CFG_SRC
def State.loopState (s : State) (n : Nat) : Nat := s.blockState (P.LTL n)

/-- Whether SP0 runs locked: capture domains produce valid samples (R19, R62). -/
def State.sp0Good (s : State) : Bool := !s.getB (P.CKS 0) F.CKS_LOCK_STAT_ON_BYPASS

/-- Enter a loop state, with the status bits and event levels it shows (R96). -/
def State.setLoopState (s : State) (n st : Nat) : State :=
  let p := P.LTL n
  let s := s.setBlockState p st
  let coasting := st == L.COAST || st == L.RETURN
  let s := (s.putB p F.LTL_STAT_COASTING coasting).putB p F.LTL_STAT_LOCKED (st == L.LOCKED)
  let s := if coasting then s
    else ((s.modLoop n (fun l => { l with coastFrom := none })).putB p F.LTL_STAT_COAST_LONG false).level p 3 false
  let s := s.level p 0 (st == L.LOCKED)
  let s := s.level p 2 coasting
  s.level p 5 (st == L.HOLD)

/-- Kinds of an ANGLE token (table `Token layouts`). -/
abbrev AK.POINT : Nat := 0
abbrev AK.JUMP : Nat := 1
abbrev AK.COAST_ON : Nat := 2
abbrev AK.COAST_OFF : Nat := 3
abbrev AK.HOLD_START : Nat := 4
abbrev AK.HOLD_END : Nat := 5

/-- An entry of R95 at a ply start: into stream 19 when MAP_EN is set, and as an ANGLE token when the root distributes the
loop (R416). The record's header notes steps, holds and coasts (R259). -/
def State.mapEntry (s : State) (n kind tok at_ : Nat) (delta : Int) : State :=
  let ws := s.mapWords n kind at_ delta
  let s := if tok = AK.POINT then s else s.note (RN.LOOP tok) at_ n
  let s := if s.useB (P.LTL n) F.LTL_MAP_CFG_MAP_EN then s.appendItem 19 { slot := at_, words := ws, ply := none } else s
  if (s.role = C.ROOT ∨ s.cas.step = 4) ∧ bitOf (s.use P.CAS F.CAS_ANG_CFG_DIST) n then
    let w (i : Nat) := (ws.getD i 0).toNat
    s.broadcast TK.ANGLE (w 3 % 2 ^ 32) (w 1)
      (tok * 2 ^ 61 + n * 2 ^ 59 + bits (w 0) 53 50 * 2 ^ 55 + w 2 % 2 ^ 48)
      (s.aligned at_ / 32 % 2 ^ 32 * 2 ^ 32 + unsx 24 delta * 2 ^ 8)
  else s

/-- Set the rate from a ply start; a changed rate writes a POINT entry (R71, R95). -/
def State.setLoopRate (s : State) (n at_ rate : Nat) : State :=
  if (s.loop n).rateAt at_ = rate then s
  else (s.modLoop n (fun l => l.setRate at_ rate)).mapEntry n 0 AK.POINT at_ 0

/-! ### Intervals and the phase error -/

/-- Angle between two reference events as a fraction (num, den) of pips: a cycle, half a cycle with SLOPE = both, NOM_HZ cycles
for whole seconds, 2^UPDATE_EXP counts for an encoder (R72 to R77). -/
def State.eventSpan (s : State) (n : Nat) : Nat × Nat :=
  let p := P.LTL n
  match s.loopSrc n with
  | 3 => (2 ^ (24 + s.use p F.LTL_ENC_Z_UPDATE_EXP), Nat.max 1 (s.use p F.LTL_ENC_CFG_COUNTS_PER_CYCLE))
  | 4 => (s.use p F.LTL_NOM_CFG_NOM_HZ * 2 ^ 24, 1)
  | _ => (if s.use p F.LTL_SRC_CFG_SLOPE = 2 then 2 ^ 23 else 2 ^ 24, 1)

/-- F word implied by one event span in `dt` slots. -/
def rateOf (span : Nat × Nat) (dt : Nat) : Nat := span.1 * 2 ^ 37 / (span.2 * dt)

/-- Whether an interval implies a loop frequency within FMIN to FMAX (R79). -/
def State.freqGood (s : State) (n dt : Nat) : Bool :=
  let (a, b) := s.eventSpan n
  let f := a * 16000000000000
  let d := b * 2 ^ 24 * dt
  decide (0 < dt) && decide (s.useReg (P.LTL n) F.LTL_FMIN.off * d ≤ f) && decide (f ≤ s.useReg (P.LTL n) F.LTL_FMAX.off * d)

/-- Whether an interval lies within ±WIN_PCT % of the one expected from F_INT (R79). -/
def State.windowGood (s : State) (n dt : Nat) : Bool :=
  let (a, b) := s.eventSpan n
  let e : Int := (a * 2 ^ 37 : Nat)
  let d : Int := (b * dt * (s.loop n).fInt : Nat)
  decide (0 < dt) && decide ((d - e).natAbs * 100 ≤ s.use (P.LTL n) F.LTL_VALID_CFG_WIN_PCT * e.natAbs)

/-- The reference angle of an event in pips (R74, R77, R80). -/
def State.refAngle (s : State) (n : Nat) (falling : Bool) : Int :=
  let p := P.LTL n
  let l := s.loop n
  match s.loopSrc n with
  | 3 => fdiv (l.encPos * 2 ^ 24) (Nat.max 1 (s.use p F.LTL_ENC_CFG_COUNTS_PER_CYCLE)) + l.encOff
  | 4 => 0
  | _ => (s.use p F.LTL_REF_PIP : Int) + (if falling ∧ s.use p F.LTL_SRC_CFG_SLOPE = 2 then 2 ^ 23 else 0)

/-- Wrap a difference of pips into −2^23 to 2^23 − 1 (R80). -/
def wrapPips (d : Int) : Int := (d + 2 ^ 23) % 2 ^ 24 - 2 ^ 23

/-- Phase error of a reference angle at a slot (R80). -/
def State.phaseErr (s : State) (n : Nat) (ref : Int) (t : Nat) : Int :=
  wrapPips (ref - ((s.loop n).pipsAt t : Int))

/-- Count a rejected event (R79). -/
def State.rejectEvent (s : State) (n : Nat) : State := (s.sat (P.LTL n) F.LTL_REJECT_CNT).pulse (P.LTL n) 9

/-! ### Loss of reference -/

/-- Declare loss of reference (R83): from the next ply start the loop coasts at F_INT. A loop that is not running, or already
coasts, declares none. -/
def State.coastStart (s : State) (n t : Nat) : State :=
  let st := s.loopState n
  if !(st == L.TRACK || st == L.LOCKED || st == L.SLEW || st == L.HOLD) then s
  else
    let a := nextPly t
    let s := s.modLoop n (fun l => { (l.setRate a l.fInt) with
      coastFrom := some a, hold := none, reverse := false, first := none, passRun := 0, lastCycle := none })
    let s := (s.putB (P.LTL n) F.LTL_STAT_REVERSE false).level (P.LTL n) 8 false
    let s := (s.setLoopState n L.COAST).put (P.LTL n) F.LTL_STAT_PASS_RUN 0
    let s := (s.sat (P.LTL n) F.LTL_LOSS_CNT).pulse (P.LTL n) 1
    let s := (s.marker K.COAST_ON 19 a [n * 2 ^ 62]).ivFlagLoop n IF.COAST
    let s := s.mapEntry n K.COAST_ON AK.COAST_ON a 0
    if s.use (P.LTL n) F.LTL_COAST_CFG_COAST_LONG = 0 then
      (s.putB (P.LTL n) F.LTL_STAT_COAST_LONG true).level (P.LTL n) 3 true
    else s

/-- Whether the loss interval of R83 has run out at a slot: LOSS_EIGHTHS / 8 of the interval expected from F_INT, or of the
root's entry interval on a CASCADE loop (R417). -/
def State.lossDue (s : State) (n t : Nat) : Bool :=
  let l := s.loop n
  let from_ := Nat.max (l.lastEvent.getD 0) l.lossBase
  let k := s.use (P.LTL n) F.LTL_COAST_CFG_LOSS_EIGHTHS
  if s.loopSrc n = S.CASCADE then decide (l.tokGap * k ≤ (t - from_) * 8)
  else
    let (a, b) := s.eventSpan n
    decide (a * 2 ^ 37 * k ≤ (t - from_) * 8 * (b * l.fInt))

/-- COAST_ON: no valid event arrived in time. Reverse rotation is not a loss (R76), nor is a stopped page (R513). -/
def execCoastOn (t : Nat) (n : Fin 4) (s : State) : Res :=
  let s := s.at t
  .next (if s.enabled (P.LTL n) ∧ !(s.loop n).reverse ∧ s.lossDue n t then s.coastStart n t else s)

/-- Cycles in the present coast (LTL_COAST_CYC). -/
def State.coastCycles (s : State) (n t : Nat) : Nat :=
  match (s.loop n).coastFrom with
  | some a => sat32 (((s.loop n).phaseAt t - (s.loop n).phaseAt a) / 2 ^ 56)
  | none => 0

/-- COAST_LONG (R84): the bit and its event; coasting goes on. -/
def execCoastLong (t : Nat) (n : Fin 4) (s : State) : Res :=
  let s := s.at t
  .next (if s.coasting n ∧ s.use (P.LTL n) F.LTL_COAST_CFG_COAST_LONG ≤ s.coastCycles n t
    then (s.putB (P.LTL n) F.LTL_STAT_COAST_LONG true).level (P.LTL n) 3 true else s)

/-! ### Angle events -/

/-- Targets of an angle event in pips among the cycles `c0` to `c1` (R91). -/
def State.evtTargets (s : State) (e c0 c1 : Nat) : List Nat :=
  let cnt := Nat.max 1 (s.use P.ANG F.ANG_EVT_CFG_COUNT e)
  let pip := s.use P.ANG F.ANG_EVT_PIP_PIP e
  let cycles := (List.range (c1 + 1 - c0)).map (c0 + ·)
  match s.use P.ANG F.ANG_EVT_CFG_KIND e with
  | 0 => (cycles.filter (fun c => c % 2 ^ 40 % cnt == 0)).map (fun c => c * 2 ^ 24 + pip)
  | 1 => cycles.flatMap (fun c => (List.range cnt).map (fun k => c * 2 ^ 24 + (pip + k * 2 ^ 24 / cnt) % 2 ^ 24))
  | _ => [s.onceTarget.getD e 0 * 2 ^ 24 + pip]

/-- Place an angle event's strobe on a slot; a ONCE event clears its EN (R91, R92). -/
def State.fireAngle (s : State) (e t : Nat) (late : Bool) : State :=
  let s : State := { s with angFired := lmod s.angFired e (fun _ => (t, late)) }
  if s.use P.ANG F.ANG_EVT_CFG_KIND e = 2 then s.putB P.ANG F.ANG_EVT_CFG_EN false e else s

/-- Whether events of a loop can fire (R92). -/
def State.angleRuns (s : State) (n : Nat) : Bool :=
  s.enabled (P.LTL n) && s.enabled P.ANG && s.loopRan n && s.loopState n != L.OFF && s.loopState n != L.HOLD &&
  !(s.loop n).reverse

/-- Targets of an SPC schedule at or below an angle in pips, counted from a fixed origin (R145): pips OFFSET + floor(k × 2^24 /
SPC) for every k. -/
def spcCount (off spc p : Nat) : Nat := ((p + 2 ^ 24 + 1 - off) * spc - 1) / 2 ^ 24 + 1

/-- SPC schedules passed by a forward step at ply start `a` (R89, R146): one LATE start, or every occurrence skipped. -/
def State.passSpc (s : State) (n a old new : Nat) : State :=
  if !s.enabled P.ADC then s
  else
  s.each ((List.range 8).filter (fun i => s.useB P.ADC F.ADC_SET_CFG_EN i && s.use P.ADC F.ADC_SET_CFG_SRC i == 1 &&
      s.use P.ADC F.ADC_SET_CFG_LOOP i == n)) (fun s i =>
    let spc := bits (s.useReg P.ADC (F.ADC_SET_P0.at i)) 15 0
    let off := bits (s.useReg P.ADC (F.ADC_SET_P1.at i)) 23 0
    let hits := spcCount off spc (new - 1) - spcCount off spc old
    if hits = 0 then s
    else if s.useB (P.LTL n) F.LTL_JUMP_CFG_CATCHUP then (s.sat P.ANG F.ANG_SKIP_CNT hits n).pulse P.ANG (4 + n)
    else
      let s := (s.sat P.ANG F.ANG_LATE_CNT 1 n).pulse P.ANG n
      { s with spcFired := lmod s.spcFired i (fun _ => some (a, true)) })

/-- Events passed by a forward step from `old` to `new` (pips) at ply start `a` (R89, R91). -/
def State.passEvents (s : State) (n a old new : Nat) : State :=
  let s := s.passSpc n a old new
  if !s.enabled P.ANG then s
  else
  let skip := s.useB (P.LTL n) F.LTL_JUMP_CFG_CATCHUP
  s.each ((List.range 64).filter (fun e => s.useB P.ANG F.ANG_EVT_CFG_EN e && s.use P.ANG F.ANG_EVT_CFG_LOOP e == n))
    (fun s e =>
      let hits := (s.evtTargets e (old / 2 ^ 24) (new / 2 ^ 24)).filter (fun x => decide (old < x) && decide (x < new))
      if hits.isEmpty then s
      else if skip then
        let s := s.sat P.ANG F.ANG_SKIP_CNT hits.length n
        let s := s.pulse P.ANG (4 + n)
        if s.use P.ANG F.ANG_EVT_CFG_KIND e = 2 then s.putB P.ANG F.ANG_EVT_CFG_EN false e else s
      else
        let s := (s.sat P.ANG F.ANG_LATE_CNT 1 n).pulse P.ANG n
        let s := s.note RN.LATE a n
        let s := s.fireAngle e a true
        if bitOf (s.use P.ANG F.ANG_CTL_LATE_MARK) n then s.marker K.LATE 19 a [n * 2 ^ 8 + e] else s)

/-- Angle just before a slot's own advance: what the pieces of the log in force before it give at that slot. -/
def LoopState.beforeStep (l : LoopState) (t : Nat) : Nat :=
  (segAt (l.segs.filter (fun g => decide (g.slot < t))) t).phaseAt t / 2 ^ 32

/-- Whether an angle event fires at a slot (R92): its target lies after the slot before and at or before this slot; of the
targets a forward step passed, only the angle stepped to counts (R89). -/
def State.evtCrosses (s : State) (e t : Nat) : Bool :=
  let n := s.use P.ANG F.ANG_EVT_CFG_LOOP e
  let l := s.loop n
  let a0 := l.pipsAt (t - 1)
  let mid := l.beforeStep t
  let a1 := l.pipsAt t
  0 < t && (s.evtTargets e (a0 / 2 ^ 24) (a1 / 2 ^ 24)).any (fun x =>
    (decide (a0 < x) && decide (x ≤ Nat.min mid a1)) || (decide (a0 < x) && x == a1))

/-- ANGLE_EVENT_FIRE (R92): the strobe goes on the slot whose angle first reaches the target. -/
def execAngleEventFire (t : Nat) (e : Fin 64) (s : State) : Res :=
  let s := s.at t
  .next (if s.useB P.ANG F.ANG_EVT_CFG_EN e ∧ s.angleRuns (s.use P.ANG F.ANG_EVT_CFG_LOOP e) ∧ s.evtCrosses e t
    then s.fireAngle e t false else s)

/-! ### Return of the reference -/

/-- Start a hold at ply start `a` until the reference reaches the angle held (R87, R88). -/
def State.holdStart (s : State) (n a : Nat) : State :=
  let s := s.modLoop n (fun l => { (l.setRate a 0) with hold := some (l.phaseAt a) })
  ((s.sat (P.LTL n) F.LTL_HOLD_CNT).setLoopState n L.HOLD).ivFlagLoop n IF.HOLD

/-- Apply Δ at ply start `a`, with the rate F_INT (table `Handling of Δ`, R87). -/
def State.applyDelta (s : State) (n a : Nat) (d : Int) : State :=
  let p := P.LTL n
  let lim := s.use p F.LTL_JUMP_CFG_SLEW_LIMIT
  let tol := s.use p F.LTL_LOCK_CFG_LOCK_TOL
  let f := (s.loop n).fInt
  if d < -(lim : Int) then
    let s := s.marker K.JUMP 19 a [n * 2 ^ 62 + unsx 32 d]
    (s.holdStart n a).mapEntry n K.JUMP AK.HOLD_START a d
  else if (lim : Int) < d ∧ !s.useB p F.LTL_JUMP_CFG_POLICY then
    let old := (s.loop n).pipsAt a
    let s := s.modLoop n (fun l => l.setSeg a (l.phaseAt a + d.toNat * 2 ^ 32) f)
    let s := (s.sat p F.LTL_JUMP_CNT).pulse p 4
    let s := s.setLoopState n L.TRACK
    let s := (s.marker K.JUMP 19 a [n * 2 ^ 62 + unsx 32 d]).mapEntry n K.JUMP AK.JUMP a d
    s.passEvents n a old ((s.loop n).pipsAt a)
  else
    let s := s.setLoopState n (if d.natAbs ≤ tol then L.TRACK else L.SLEW)
    s.setLoopRate n a f

/-- Store Δ and where the reference stands (LTL_LAST_DELTA). -/
def State.noteDelta (s : State) (n t : Nat) (d : Int) : State :=
  (s.put (P.LTL n) F.LTL_LAST_DELTA (unsx 24 d)).modLoop n (fun l =>
    { l with refSlot := t, refPhase := (l.phaseAt t : Int) + d * 2 ^ 32 })

/-- A qualified return (R86): F_INT from the pair's interval, COAST_OFF, Δ at the next ply start. -/
def State.returned (s : State) (n t f : Nat) (d : Int) : State :=
  let a := nextPly t
  let s := s.noteDelta n t d
  let s := s.modLoop n (fun l => { l with fInt := f, lastEvent := some t, first := none, passRun := 0, ownLoss := false })
  let s := s.setLoopState n L.TRACK
  let s := s.marker K.COAST_OFF 19 a [n * 2 ^ 62]
  let s := s.mapEntry n K.COAST_OFF AK.COAST_OFF a 0
  s.applyDelta n a d

/-! ### Updates -/

/-- The update law at a valid event (R80): the new F_INT and F_APP for a phase error, `dt` slots after the previous update. -/
def updateLaw (fInt : Nat) (e : Int) (dt ki kp cap : Nat) : Nat × Nat :=
  let err := fdiv (e * 2 ^ 37) dt
  let f := ((fInt : Int) + fdiv err (2 ^ ki)).toNat % 2 ^ 48
  let c : Int := (f * cap / 1000 : Nat)
  let corr := fdiv err (2 ^ kp)
  let corr := if c < corr then c else if corr < -c then -c else corr
  (f, ((f : Int) + corr).toNat % 2 ^ 48)

/-- A valid update in TRACK, LOCKED or SLEW (R80, R82). -/
def State.loopUpdate (s : State) (n t : Nat) (e : Int) : State :=
  let p := P.LTL n
  let l := s.loop n
  let st := s.loopState n
  let cap := if st = L.SLEW then 20 else s.use p F.LTL_GAIN_DEV_CAP
  let (f, app) := updateLaw l.fInt e (t - l.lastEvent.getD 0) (s.use p F.LTL_GAIN_KI_SHIFT) (s.use p F.LTL_GAIN_KP_SHIFT) cap
  let s := s.modLoop n (fun l => { l with
    fInt := f, lastEvent := some t, lossBase := t,
    refSlot := t, refPhase := (l.phaseAt t : Int) + e * 2 ^ 32 })
  let s := s.put p F.LTL_PHASE_ERR (unsx 24 e)
  let s := s.setLoopRate n (nextPly t) app
  if e.natAbs ≤ s.use p F.LTL_LOCK_CFG_LOCK_TOL then
    let run := l.passRun + 1
    let s := (s.modLoop n (fun l => { l with passRun := run })).put p F.LTL_STAT_PASS_RUN (Nat.min run 7)
    let s := if st = L.SLEW then s.setLoopState n L.TRACK else s
    if s.loopState n = L.TRACK ∧ Nat.max 1 (s.use p F.LTL_LOCK_CFG_LOCK_COUNT) ≤ run then
      ((s.sat p F.LTL_LOCK_CNT).putB p F.LTL_STAT_EVER_LOCKED true).setLoopState n L.LOCKED
    else s
  else
    let s := (s.modLoop n (fun l => { l with passRun := 0 })).put p F.LTL_STAT_PASS_RUN 0
    if st = L.LOCKED then s.setLoopState n L.TRACK else s

/-- First placement (R81): cycle 0, pip a_ref at the second event's slot, carried on to the next ply start. -/
def State.firstPlace (s : State) (n t dt : Nat) (ref : Int) : State :=
  let f := rateOf (s.eventSpan n) dt % 2 ^ 48
  let a := nextPly t
  let pip := (ref % 2 ^ 24).toNat
  let s := s.modLoop n (fun l => { (l.setSeg a (pip * 2 ^ 32 + f * (a - t) / 32) f) with
    fInt := f, lastEvent := some t, lossBase := t, first := none, refSlot := t, refPhase := ((pip * 2 ^ 32 : Nat) : Int),
    passRun := 0, lastCycle := none })
  let s := (s.putB (P.LTL n) F.LTL_STAT_RAN true).setLoopState n L.TRACK
  s.mapEntry n 0 AK.POINT a 0

/-- An event in ACQUIRE, COAST or RETURN (R79, R81, R86). -/
def State.qualify (s : State) (n t : Nat) (ref : Int) : State :=
  let e := s.phaseErr n ref t
  let restart (s : State) : State := s.modLoop n (fun l => { l with first := some (t, e), lastEvent := some t })
  let s := if s.loopState n = L.COAST then s.setLoopState n L.RETURN else s
  match (s.loop n).first with
  | none => restart s
  | some (t0, e0) =>
    if !s.freqGood n (t - t0) then restart (s.rejectEvent n)
    else if !s.loopRan n then s.firstPlace n t (t - t0) ref
    else if (s.use (P.LTL n) F.LTL_LOCK_CFG_LOCK_TOL : Int) < (e - e0).natAbs then restart s
    else s.returned n t (rateOf (s.eventSpan n) (t - t0) % 2 ^ 48) e

/-- A valid event during a hold (R88): F_INT from the interval; the reference is measured again. -/
def State.holdEvent (s : State) (n t : Nat) (ref : Int) : State :=
  let dt := t - (s.loop n).lastEvent.getD 0
  if !s.freqGood n dt then s.rejectEvent n
  else
    let e := s.phaseErr n ref t
    let f := rateOf (s.eventSpan n) dt % 2 ^ 48
    s.modLoop n (fun l => { l with
      fInt := f, lastEvent := some t, lossBase := t,
      refSlot := t, refPhase := (l.phaseAt t : Int) + e * 2 ^ 32 })

/-- A reference event of a loop at its slot (R79 to R88). Events while SP0 is on bypass are not valid (R85); a stopped page
takes none (R513). -/
def State.refEvent (s : State) (n t : Nat) (falling : Bool) : State :=
  if !s.enabled (P.LTL n) || !s.sp0Good then s
  else
    let ref := s.refAngle n falling
    match s.loopState n with
    | 0 => s
    | 1 => s.qualify n t ref
    | 4 => s.qualify n t ref
    | 5 => s.qualify n t ref
    | 7 => s.holdEvent n t ref
    | _ =>
      if s.windowGood n (t - (s.loop n).lastEvent.getD 0) then s.loopUpdate n t (s.phaseErr n ref t) else s.rejectEvent n

/-- Whether a slot is a whole second for a NOMINAL loop: with the time source FREE, a multiple of 2 × 10^9 ticks (R77). With a
time source the command's own slot is the whole TAI second. -/
def State.wholeSecond (s : State) (t : Nat) : Bool :=
  s.use P.TIME F.TIME_CTL_SOURCE != 0 || t % 16000000000 == 0

/-- LOOP_REFERENCE_EVENT: the crossing or stamp found for the loop's channel, or the whole second of a NOMINAL loop. -/
def execLoopReferenceEvent (t : Nat) (n : Fin 4) (s : State) : Res :=
  let s := s.at t
  .next (match s.loopSrc n with
    | 1 | 2 => (match (s.loop n).crossing with
      | some (c, fall) => (s.modLoop n (fun l => { l with crossing := none })).refEvent n c fall
      | none => s)
    | 4 => if s.wholeSecond t then s.refEvent n t false else s
    | _ => s)

/-- The reference angle projected from the latest event at F_INT (R88). -/
def LoopState.projected (l : LoopState) (t : Nat) : Int := l.refPhase + ((l.fInt * (t - l.refSlot) / 32 : Nat) : Int)

/-- HOLD_END (R88): at the first ply start at which the projected reference has reached the held angle. -/
def execHoldEnd (t : Nat) (n : Fin 4) (s : State) : Res :=
  let s := s.at t
  let l := s.loop n
  .next (match l.hold with
    | some h =>
      if s.enabled (P.LTL n) ∧ s.loopState n = L.HOLD ∧ t % 32 = 0 ∧ (h : Int) ≤ l.projected t then
        let s := s.modLoop n (fun l => { (l.setSeg t h l.fInt) with hold := none })
        (s.setLoopState n L.TRACK).mapEntry n 0 AK.HOLD_END t 0
      else s
    | none => s)

/-! ### Encoder -/

/-- Quadrature position of a pair of levels, A leading B when forward (log entry 11). -/
def quad (a b : Bool) : Nat := match a, b with
  | false, false => 0 | true, false => 1 | true, true => 2 | false, true => 3

/-- Pips of the encoder position relative to the held angle (R76). -/
def State.revOffset (s : State) (n : Nat) : Int :=
  let l := s.loop n
  l.revErr + fdiv ((l.encPos - l.revPos) * 2 ^ 24) (Nat.max 1 (s.use (P.LTL n) F.LTL_ENC_CFG_COUNTS_PER_CYCLE))

/-- One legal count forward or backward (R75, R76). -/
def State.encStep (s : State) (n t : Nat) (fwd : Bool) : State :=
  let p := P.LTL n
  let l := s.loop n
  let running := s.loopRan n && s.loopState n != L.OFF
  let s := s.modLoop n (fun l => { l with encPos := if fwd then l.encPos + 1 else l.encPos - 1 })
  if !fwd ∧ running ∧ !l.reverse then
    let a := nextPly t
    let s := s.modLoop n (fun l' => { l' with
      reverse := true, revPos := l.encPos,
      revErr := wrapPips (fdiv (l.encPos * 2 ^ 24) (Nat.max 1 (s.use p F.LTL_ENC_CFG_COUNTS_PER_CYCLE)) + l.encOff -
        (l.pipsAt a : Int)) })
    let s := (s.putB p F.LTL_STAT_REVERSE true).level p 8 true
    ((s.modLoop n (fun l => l.setRate a 0)).ivFlagLoop n IF.HOLD).mapEntry n 0 AK.HOLD_START a 0
  else if l.reverse then
    if fwd ∧ 0 ≤ s.revOffset n then
      let a := nextPly t
      let s := s.modLoop n (fun l => { (l.setRate a l.fInt) with
        reverse := false, lastEvent := some t, lossBase := t, encUpd := 0 })
      let s := (s.putB p F.LTL_STAT_REVERSE false).level p 8 false
      s.mapEntry n 0 AK.HOLD_END a 0
    else s
  else
    let k := l.encUpd + 1
    if 2 ^ s.use p F.LTL_ENC_Z_UPDATE_EXP ≤ k then
      (s.modLoop n (fun l => { l with encUpd := 0 })).refEvent n t false
    else s.modLoop n (fun l => { l with encUpd := k })

/-- ENCODER_COUNT (R75): levels of A and B after a transition; both changing at once is illegal. -/
def execEncoderCount (t : Nat) (n : Fin 4) (a b : Bool) (s : State) : Res :=
  let s := s.at t
  if s.loopSrc n ≠ S.ENCODER ∨ !s.enabled (P.LTL n) ∨ !s.sp0Good then .next s
  else
    let old := (s.loop n).encAB
    let new := quad a b
    let s := s.modLoop n (fun l => { l with encAB := new })
    .next (match (new + 4 - old) % 4 with
      | 0 => s
      | 2 => s.rejectEvent n
      | d => s.encStep n t ((d == 1) != s.useB (P.LTL n) F.LTL_ENC_CFG_DIR_INV))

/-- ENCODER_INDEX (R75, R86): the count since the last index, and the alignment of an index mismatch. -/
def execEncoderIndex (t : Nat) (n : Fin 4) (s : State) : Res :=
  let s : State := s.at t
  let p : Nat := P.LTL n
  let l : LoopState := s.loop n
  if s.loopSrc n ≠ S.ENCODER ∨ !s.enabled p ∨ !s.sp0Good ∨ !s.useB p F.LTL_ENC_CFG_Z_EN then .next s
  else
    let want : Int := (Nat.max 1 (s.use p F.LTL_ENC_CFG_Z_EVERY) * s.use p F.LTL_ENC_CFG_COUNTS_PER_CYCLE : Nat)
    let s : State := match l.encIdx with
      | some i => if l.encPos - i = want then s else (s.sat p F.LTL_ZERR_CNT).pulse p 7
      | none => s
    let s : State := s.modLoop n (fun l => { l with encIdx := some l.encPos })
    let z : Int := s.use p F.LTL_ENC_Z_Z_PIP
    let d : Int := s.phaseErr n z t
    let st : Nat := s.loopState n
    if s.useB p F.LTL_ENC_CFG_ALIGN_Z ∧ s.loopRan n ∧ (st = L.TRACK ∨ st = L.LOCKED ∨ st = L.SLEW) ∧ !l.reverse ∧
        (s.use p F.LTL_LOCK_CFG_LOCK_TOL : Int) < d.natAbs then
      let s : State := s.modLoop n (fun l => { l with
        encOff := z - fdiv (l.encPos * 2 ^ 24) (Nat.max 1 (s.use p F.LTL_ENC_CFG_COUNTS_PER_CYCLE)) })
      .next ((s.noteDelta n t d).applyDelta n (nextPly t) d)
    else .next s

/-! ### Cycles -/

/-- Compare a cycle period with the expected one (R90): two cycles that differ raise the ANGLE fault, two that agree clear it. -/
def State.plausibility (s : State) (n period : Nat) : State :=
  let p := P.LTL n
  let src := s.use p F.LTL_PLAUS_CFG_PSRC
  let steady (m : Nat) : Bool := !s.coasting m && s.loopState m != L.HOLD && !(s.loop m).reverse &&
    s.getB (P.LTL m) F.LTL_STAT_EVER_LOCKED
  let tp : Option Nat := if src = 4 then some (16000000000 / Nat.max 1 (s.use p F.LTL_NOM_CFG_NOM_HZ))
    else if src < 4 ∧ steady src then (s.loop src).period else none
  match tp with
  | none => s
  | some tp =>
    if !s.useB p F.LTL_PLAUS_CFG_PLAUS_EN || !steady n then s
    else
      let want := s.use p F.LTL_PLAUS_CFG_RATIO * tp
      if s.use p F.LTL_PLAUS_CFG_TOL * want < ((period * 256 : Int) - want).natAbs * 1000 then
        let run := (s.loop n).failRun + 1
        let s := s.modLoop n (fun l => { l with failRun := run, agreeRun := 0 })
        if 2 ≤ run then ((s.putB p F.LTL_STAT_PLAUS_FAIL true).level p 6 true).faultLevel Q.ANGLE true else s
      else
        let run := (s.loop n).agreeRun + 1
        let s := s.modLoop n (fun l => { l with agreeRun := run, failRun := 0 })
        if 2 ≤ run ∧ s.getB p F.LTL_STAT_PLAUS_FAIL then
          let s := (s.putB p F.LTL_STAT_PLAUS_FAIL false).level p 6 false
          s.faultLevel Q.ANGLE ((List.range 4).any (fun m => s.getB (P.LTL m) F.LTL_STAT_PLAUS_FAIL))
        else s

/-- LOOP_CYCLE_BOUNDARY (R90, R95): the angle enters a new cycle at slot `t`. -/
def execLoopCycleBoundary (t : Nat) (n : Fin 4) (s : State) : Res :=
  let s := s.at t
  let l := s.loop n
  if !s.enabled (P.LTL n) ∨ !s.loopRan n ∨ t = 0 ∨ l.pipsAt t / 2 ^ 24 = l.pipsAt (t - 1) / 2 ^ 24 then .next s
  else
    let s := s.mapEntry n 0 AK.POINT ((t + 31) / 32 * 32) 0
    let period := l.lastCycle.map (fun c => t - c)
    let s := s.modLoop n (fun l => { l with lastCycle := some t, period := period <|> l.period })
    .next (match period with | some d => s.plausibility n d | none => s)

/-- MAP_PERIODIC_POINT (R95, R97): every 2^MAP_EXP plies; 0 turns the periodic points off. -/
def execMapPeriodicPoint (t : Nat) (n : Fin 4) (s : State) : Res :=
  let s := s.at t
  let e := s.use (P.LTL n) F.LTL_MAP_CFG_MAP_EXP
  .next (if s.enabled (P.LTL n) ∧ e ≠ 0 ∧ t % (32 * 2 ^ e) = 0 then s.mapEntry n 0 AK.POINT t 0 else s)

/-! ### ANGLE tokens -/

/-- A member's loop takes up an ANGLE token at ply start `a` (R416, R417). -/
def State.takeAngle (s : State) (n a : Nat) (k : Token) : State :=
  let w2 := k.w2.toNat
  let w3 := k.w3.toNat
  let kind := bits w2 63 61
  let f := bits w2 47 0
  let flags := bits w2 58 55
  let plies := (s.aligned a / 32 % 2 ^ 32 + 2 ^ 32 - bits w3 63 32) % 2 ^ 32
  let low := k.w1.toNat * 2 ^ 32 + bits k.w0.toNat 31 0 + f * plies
  let l := s.loop n
  let ran := s.loopRan n
  let s := s.modLoop n (fun l => { l with tokGap := a - l.lastEvent.getD a, lossBase := a })
  let st := if bitOf flags 1 then L.HOLD else if bitOf flags 2 then L.COAST else if bitOf flags 0 then L.SLEW
    else if bitOf flags 3 then L.LOCKED else L.TRACK
  if l.ownLoss then
    let e := wrapPips ((low / 2 ^ 32 : Nat) - (l.pipsAt a : Int))
    match l.first with
    | none => (s.setLoopState n L.RETURN).modLoop n (fun l => { l with first := some (a, e), lastEvent := some a })
    | some (_, e0) =>
      if (s.use (P.LTL n) F.LTL_LOCK_CFG_LOCK_TOL : Int) < (e - e0).natAbs then
        s.modLoop n (fun l => { l with first := some (a, e), lastEvent := some a })
      else s.returned n (a - 1) f e
  else
    let s := s.modLoop n (fun l => { l with
      fInt := if f = 0 then l.fInt else f, lastEvent := some a,
      refSlot := a, refPhase := (low : Int), coastFrom := if bitOf flags 2 then l.coastFrom <|> some a else none })
    let s := if bitOf flags 3 then s.putB (P.LTL n) F.LTL_STAT_EVER_LOCKED true else s
    let s := s.putB (P.LTL n) F.LTL_STAT_RAN true
    let old := l.phaseAt a
    if !ran then
      ((s.modLoop n (fun l => l.setSeg a low f)).setLoopState n st).mapEntry n 0 AK.POINT a 0
    else if low < old then
      let s := (s.holdStart n a)
      let s := if kind = AK.JUMP then s else s.sat P.CAS F.CAS_ANG_ADJ_CNT
      s.mapEntry n 0 AK.HOLD_START a 0
    else
      let s := s.modLoop n (fun l => { (l.setSeg a low f) with hold := if bitOf flags 1 then some low else none })
      let s := s.setLoopState n st
      let d : Int := (low / 2 ^ 32 : Nat) - (old / 2 ^ 32 : Nat)
      let s := match kind with
        | 1 =>
          let s := (s.sat (P.LTL n) F.LTL_JUMP_CNT).pulse (P.LTL n) 4
          let s := (s.marker K.JUMP 19 a [n * 2 ^ 62 + unsx 32 d]).mapEntry n K.JUMP AK.JUMP a d
          s.passEvents n a (old / 2 ^ 32) (low / 2 ^ 32)
        | 2 => (s.marker K.COAST_ON 19 a [n * 2 ^ 62]).mapEntry n K.COAST_ON AK.COAST_ON a 0
        | 3 => (s.marker K.COAST_OFF 19 a [n * 2 ^ 62]).mapEntry n K.COAST_OFF AK.COAST_OFF a 0
        | _ => s
      if low = old ∨ kind = AK.JUMP then
        (if l.rateAt a = f then s else s.mapEntry n 0 AK.POINT a 0)
      else
        ((s.sat P.CAS F.CAS_ANG_ADJ_CNT).mapEntry n 0 AK.POINT a 0).passEvents n a (old / 2 ^ 32) (low / 2 ^ 32)

/-- A received ANGLE token: relayed, and taken up by a MEMBER's CASCADE loop at the next ply start (R409, R416). -/
def State.angleTok (s : State) (t : Nat) (p : Port) (k : Token) : State :=
  let s := s.relay p k
  let n := bits k.w2.toNat 60 59
  if s.role = C.MEMBER ∧ s.loopSrc n = S.CASCADE ∧ s.enabled (P.LTL n) ∧ k.origin ≠ s.casAddr
  then s.takeAngle n (nextPly t) k else s

/-! ### Clears -/

/-- LTL_CLR (R96): clears the six counters. -/
def execLtlClr (n : Fin 4) (value : Word) (s : State) : Res :=
  .next (if bitOf value.toNat 0 then s.clearAll (P.LTL n) [(F.LTL_LOCK_CNT, 1), (F.LTL_LOSS_CNT, 1), (F.LTL_JUMP_CNT, 1),
    (F.LTL_HOLD_CNT, 1), (F.LTL_REJECT_CNT, 1), (F.LTL_ZERR_CNT, 1)] else s)

/-- ANG_CLR (R98): clears the eight counters. -/
def execAngClr (value : Word) (s : State) : Res :=
  .next (if bitOf value.toNat 0 then s.clearAll P.ANG [(F.ANG_LATE_CNT, 4), (F.ANG_SKIP_CNT, 4)] else s)

/-! ### Agreement checks and copies -/

/-- Whether the set a converter's active settings place it in has source TIMER (R73, R146); `setOf` gives its set, `srcOf` the
set's source. -/
def timerSet (v : View) (c : Nat) : Bool :=
  let set := v P.ADC (F.ADC_CONV_CFG.off + 4 * (c / 4)) / 2 ^ (8 * (c % 4)) % 8
  v.f P.ADC F.ADC_SET_CFG_SRC set == 0

/-- Agreement check of an LTL group (R72, R73, R75, R78, R96, R97). -/
def checkLTL (v : View) (p g : Nat) : Nat :=
  let src := v.f p F.LTL_SRC_CFG_SRC
  let fmin := v p F.LTL_FMIN.off
  let fmax := v p F.LTL_FMAX.off
  let cpc := v.f p F.LTL_ENC_CFG_COUNTS_PER_CYCLE
  let ue := v.f p F.LTL_ENC_Z_UPDATE_EXP
  let cap := v.f p F.LTL_GAIN_DEV_CAP
  let hz := v.f p F.LTL_NOM_CFG_NOM_HZ
  let outside (a b : Nat) : Bool := decide (fmin < a) || decide (b < fmin) || decide (fmax < a) || decide (b < fmax)
  let tol := v.f p F.LTL_LOCK_CFG_LOCK_TOL
  let win := v.f p F.LTL_VALID_CFG_WIN_PCT
  match g with
  | 0 => firstCause [
      (decide (6 ≤ src), E.RESERVED_CODE), (v.f p F.LTL_SRC_CFG_SLOPE == 3, E.RESERVED_CODE),
      (decide (fmax < fmin), E.RANGE),
      (src == 1 && outside 10000 1000000, E.RANGE), (src == 2 && outside 50 2000000, E.RANGE),
      (src == 3 && outside 50 8000000, E.RANGE), (src == 4 && outside 10000 1000000, E.RANGE),
      (src == 1 && v.f p F.LTL_SRC_CFG_CH_A / 16 != 0, E.RANGE),
      (cpc == 0 || decide (262144 < cpc), E.RANGE), (decide (16 < ue), E.RANGE),
      (src == 3 && decide (1000000000 * 2 ^ ue < fmax * cpc), E.RANGE),
      (decide (24 < v.f p F.LTL_GAIN_KI_SHIFT) || decide (24 < v.f p F.LTL_GAIN_KP_SHIFT), E.RANGE),
      (cap == 0 || decide (20 < cap), E.RANGE),
      (src == 4 && (decide (hz < 10) || decide (1000 < hz)), E.RANGE),
      (src == 1 && !timerSet v (v.f p F.LTL_SRC_CFG_CH_A % 16), 0x0120),
      (src == 5 && v.f P.CAS F.CAS_STAT_ROLE != C.MEMBER, 0x0121)]
  | 1 => firstCause [
      (decide (2 ^ 23 < tol), E.RANGE), (win == 0 || decide (50 < win), E.RANGE),
      (decide (2 ^ 23 < v.f p F.LTL_JUMP_CFG_SLEW_LIMIT), E.RANGE),
      (decide (v.f p F.LTL_COAST_CFG_LOSS_EIGHTHS < 8), E.RANGE)]
  | _ => firstCause [(decide (4 < v.f p F.LTL_PLAUS_CFG_PSRC), E.RANGE)]

/-- Agreement check of an ANG group (R98). -/
def checkANG (v : View) (g : Nat) : Nat :=
  if g = 0 then 0
  else firstCause ((List.range 8).flatMap (fun i =>
    let e := (g - 1) * 8 + i
    [(v.f P.ANG F.ANG_EVT_CFG_COUNT e == 0, E.RANGE), (v.f P.ANG F.ANG_EVT_CFG_KIND e == 3, E.RESERVED_CODE)]))

/-- What a new group 0 does to a loop (R83, R96): a changed source or channel of a running loop is a loss; OFF holds the angle;
a source after OFF starts ACQUIRE. `old` is the source register before. -/
def State.loopSourceChanged (s : State) (n t old : Nat) : State :=
  let p := P.LTL n
  let new := s.useReg p F.LTL_SRC_CFG.off
  if new = old then s
  else
    let s := (s.coastStart n t).ivCutLoop n ((t + 31) / 32 * 32)
    let s := s.modLoop n (fun l => { l with crossing := none, rawPrev := none, side := 0, first := none, ownLoss := false })
    let src := bits new 31 29
    if src = S.OFF then (s.setLoopRate n (nextPly t) 0).setLoopState n L.OFF
    else if bits old 31 29 = S.OFF then
      let s := s.setLoopState n L.ACQUIRE
      if s.loopRan n then s.setLoopRate n (nextPly t) (s.loop n).fInt else s
    else s

/-- New ONCE events count their cycles from the safe point (R91). -/
def State.armOnce (s : State) (g t : Nat) : State :=
  s.each ((List.range 8).map (fun i => (g - 1) * 8 + i)) (fun s e =>
    if s.useB P.ANG F.ANG_EVT_CFG_EN e ∧ s.use P.ANG F.ANG_EVT_CFG_KIND e = 2 then
      let l := s.loop (s.use P.ANG F.ANG_EVT_CFG_LOOP e)
      { s with onceTarget := lmod s.onceTarget e (fun _ => l.pipsAt t / 2 ^ 24 + s.use P.ANG F.ANG_EVT_CFG_COUNT e) }
    else s)

/-- Stop or start a loop's page (R513). -/
def State.loopEnable (s : State) (n t : Nat) (on : Bool) : State :=
  let a := nextPly t
  if on then
    s.modLoop n (fun l => match l.resume with
      | some f => { (l.setRate a f) with resume := none, lossBase := a }
      | none => l)
  else s.modLoop n (fun l => match l.resume with
      | some _ => l
      | none => { (l.setRate a 0) with resume := some (l.rateAt t) })

/-! ### The converter crossing detector -/

/-- A result of the loop's converter (R73): filter, hysteresis, and the crossing interpolated to the slot. -/
def State.loopResult (s : State) (n slot : Nat) (code : Int) : State :=
  let p := P.LTL n
  let l := s.loop n
  let y : Int := match l.rawPrev with
    | some _ => l.filt + fdiv (code * 2 ^ 16 - l.filt) (2 ^ s.use p F.LTL_CROSS_CFG_FILT_SHIFT)
    | none => code * 2 ^ 16
  let lev := sx 18 (s.use p F.LTL_CROSS_CFG_CROSS_LEVEL) * 2 ^ 16
  let hyst : Int := (s.use p F.LTL_CROSS_CFG_HYST * 2 ^ 16 : Nat)
  let slope := s.use p F.LTL_SRC_CFG_SLOPE
  let hit : Option (Nat × Bool) := match l.rawPrev with
    | some (s0, y0) =>
      let at_ := s0 + ((fdiv ((lev - y0) * ((slot - s0 : Nat) : Int)) (Nat.max 1 (y - y0).natAbs)).natAbs)
      if l.side = -1 ∧ y0 < lev ∧ lev ≤ y ∧ slope ≠ 1 then some (at_, false)
      else if l.side = 1 ∧ lev < y0 ∧ y ≤ lev ∧ slope ≠ 0 then some (at_, true)
      else none
    | none => none
  let side := if y < lev - hyst then -1 else if lev + hyst < y then 1
    else if (l.side = -1 ∧ lev ≤ y) ∨ (l.side = 1 ∧ y ≤ lev) then 0 else l.side
  s.modLoop n (fun l => { l with rawPrev := some (slot, y), filt := y, side := side, crossing := hit <|> l.crossing })

/-- A stamp of a loop's DIGITAL channel (R74). -/
def State.loopStamp (s : State) (n slot : Nat) (falling : Bool) : State :=
  let slope := s.use (P.LTL n) F.LTL_SRC_CFG_SLOPE
  if (slope = 0 ∧ falling) ∨ (slope = 1 ∧ !falling) then s
  else s.modLoop n (fun l => { l with crossing := some (slot, falling) })

end Sys2Proof.Machine
end

