-- ==== Sys2Proof/Machine/Time.lean ====
section
/-!
DEFINITION. Time (R389 to R393, R400): the TAI mapping, the PPS follower and PTP synchronisations.
-/
namespace Sys2Proof.Machine

def State.modTime (s : State) (f : TimeState → TimeState) : State := { s with tm := f s.tm }

/-- Whether the mapping's ANCHOR is in aligned time: on an aligned member of a cascade (R393). -/
def State.anchorAligned (s : State) : Bool := s.role == C.MEMBER && s.getB P.CAS F.CAS_STAT_ALIGNED

/-- The coarse count a mapping is read at, for a local slot. -/
def State.mapCount (s : State) (al : Bool) (slot : Nat) : Nat := coarseOf (if al then s.aligned slot else slot)

/-- TAI time of a local slot in nanoseconds under the mapping in force (R389), to the nearest nanosecond (log entry 10). -/
def State.taiNs (s : State) (slot : Nat) : Int :=
  let m := s.tm
  let d := sx 48 ((s.mapCount m.isAligned slot + 2 ^ 48 - m.anchor) % 2 ^ 48)
  ((m.sec * 1000000000 + m.ns : Nat) : Int) + fdiv (d * (2 ^ 40 + m.rate) + 2 ^ 40) (2 ^ 41)

/-- FLAGS of the mapping (table `TAI mapping`). -/
def State.mapFlags (s : State) : Nat :=
  putBit (putBit (putBit (putBit 0 0 (s.getB P.TIME F.TIME_STAT_LOCKED)) 1 (s.getB P.TIME F.TIME_STAT_HOLDOVER))
    2 s.tm.stepped) 3 s.tm.isAligned

/-- The 32 bytes of the mapping in force (TIME_MAP, record headers). -/
def State.mapBytes (s : State) : List Byte :=
  let m := s.tm
  leBytes 8 m.anchor ++ leBytes 8 m.sec ++ leBytes 4 m.ns ++ leBytes 4 (unsx 32 m.rate) ++ leBytes 1 m.source ++
  leBytes 1 s.mapFlags ++ [0, 0] ++ leBytes 4 m.seq

def State.setLocked (s : State) (b : Bool) : State := (s.putB P.TIME F.TIME_STAT_LOCKED b).level P.TIME 0 b
def State.setHoldover (s : State) (b : Bool) : State := (s.putB P.TIME F.TIME_STAT_HOLDOVER b).level P.TIME 2 b

/-- Largest RATE magnitude: 100 ppm (table `TAI mapping`). -/
def rateMax : Int := 109951163

/-- A synchronisation at a slot with a measured TAI time in nanoseconds makes a new mapping (R390); a large offset steps. While
SP0 is on bypass the mapping is frozen. -/
def State.synchronise (s : State) (slot measured : Nat) : State :=
  if s.getB (P.CKS 0) F.CKS_LOCK_STAT_ON_BYPASS then s
  else
    let old := s.taiNs slot
    let off := (measured : Int) - old
    let s := s.put P.TIME F.TIME_OFFSET (unsx 32 off)
    let al := s.anchorAligned
    let stepping := decide (s.use P.TIME F.TIME_CTL_STEP_NS * 1000 < off.natAbs)
    let tai := if stepping then measured else old.toNat
    let rate := if stepping then 0 else fdiv (off * 2 ^ 40) (Nat.max 1 (s.use P.TIME F.TIME_CTL_SLEW_S) * 1000000000)
    let rate := if rateMax < rate then rateMax else if rate < -rateMax then -rateMax else rate
    let s : State := { s with tmOld := ((slot, s.tm) :: s.tmOld).take 16 }
    let s := s.modTime (fun m => { m with
      anchor := s.mapCount al slot, sec := tai / 1000000000 % 2 ^ 48, ns := tai % 1000000000, rate := rate,
      source := s.use P.TIME F.TIME_CTL_SOURCE, stepped := stepping, isAligned := al, seq := (m.seq + 1) % 2 ^ 32 })
    let s := if stepping then (s.sat P.TIME F.TIME_STEP_CNT).pulse P.TIME 1 else s
    (s.setHoldover false).setLocked true

/-- PPS_EDGE (R391): stamped to the tick; an edge more than 100 µs from where it is predicted is rejected. -/
def execPpsEdge (t : Nat) (s : State) : Res :=
  let s := s.at t
  let slot := t / 8 * 8
  if s.use P.TIME F.TIME_CTL_SOURCE ≠ 1 then .next s
  else
    let k := match s.tm.lastEdge with | some e => Nat.max 1 ((slot - e + 8000000000) / 16000000000) | none => 1
    let good := match s.tm.lastEdge with
      | some e => decide (((slot : Int) - (e + k * 16000000000 : Nat)).natAbs ≤ usSlots 100)
      | none => true
    if !good then .next (s.sat P.TIME F.TIME_PPS_REJ_CNT)
    else
      let sec := match s.tm.nextSec with
        | some x => x
        | none => if s.tm.lastEdge.isSome then (s.tm.lastSec + k) % 2 ^ 48 else (s.taiNs slot + 500000000).toNat / 1000000000
      let s := s.modTime (fun m => { m with nextSec := none, lastEdge := some slot, lastSec := sec })
      .next (s.synchronise slot (sec * 1000000000))

/-- PPS_TIMEOUT (R391): no edge for 1.5 s. -/
def execPpsTimeout (t : Nat) (s : State) : Res :=
  let s := s.at t
  .next (if s.use P.TIME F.TIME_CTL_SOURCE = 1 ∧ 24000000000 ≤ t - s.tm.lastEdge.getD 0
    then (s.setHoldover true).setLocked false else s)

/-- PTP_MESSAGE (R392): a message for the selected port and domain; one that completes a synchronisation carries the TAI time
the IEEE 1588 slave measured, one of the master's announcements its currentUtcOffset. -/
def execPtpMessage (t : Nat) (port : Fin 8) (domain : BitVec 8) (tai : Option Nat) (utc : Option (BitVec 16))
    (s : State) : Res :=
  let s := s.at t
  if s.use P.TIME F.TIME_CTL_SOURCE ≠ 2 ∨ s.use P.TIME F.TIME_CTL_PTP_PORT ≠ port.val ∨
      s.use P.TIME F.TIME_CTL_DOMAIN ≠ domain.toNat ∨ s.get P.HIF F.HIF_HOST_MODE_MODE = 0 then .next s
  else
    let s := match utc with | some u => s.put P.TIME F.TIME_UTC_OFS u.toNat | none => s
    .next (match tai with | some x => s.synchronise (t / 8 * 8) x | none => s)

/-- TIME_SET_SEC (R391): the second the next edge carries; the low half or the high half. -/
def execTimeSetSec (high : Bool) (value : Word) (s : State) : Res :=
  let v := s.tm.nextSec.getD 0
  .next (s.modTime (fun m => { m with nextSec := some (if high then putBits v 47 32 value.toNat else putBits v 31 0 value.toNat) }))

/-- TIME_CLR (R400): clears both counters. -/
def execTimeClr (value : Word) (s : State) : Res :=
  .next (if bitOf value.toNat 0 then s.clearAll P.TIME [(F.TIME_STEP_CNT, 1), (F.TIME_PPS_REJ_CNT, 1)] else s)

/-- SP0 goes on bypass: the mapping is frozen and HOLDOVER set; SP0 locks again: with SOURCE = FREE nothing is left to hold. -/
def State.timeBypass (s : State) (on : Bool) : State :=
  if on then s.setHoldover true else if s.use P.TIME F.TIME_CTL_SOURCE = 0 then s.setHoldover false else s

/-- Agreement check of TIME group 0 (R400). -/
def checkTIME (v : View) : Nat :=
  let src := v.f P.TIME F.TIME_CTL_SOURCE
  firstCause [(src == 3, E.RESERVED_CODE),
    (v.f P.TIME F.TIME_CTL_STEP_NS == 0 || v.f P.TIME F.TIME_CTL_SLEW_S == 0, E.RANGE),
    (src == 2 && v.f P.HIF F.HIF_HOST_MODE_MODE == 0, E.RANGE)]

/-- A copied SOURCE of FREE makes the FREE mapping; another source waits for its first synchronisation (R390, R400). -/
def State.timeSourceChanged (s : State) (old : Nat) : State :=
  if old ≠ 0 ∧ s.use P.TIME F.TIME_CTL_SOURCE = 0 then
    { s with tm := { TimeState.empty with seq := (s.tm.seq + 1) % 2 ^ 32, lastEdge := none } }
  else s

end Sys2Proof.Machine
end

