-- ==== Sys2Proof/Machine/Clock.lean ====
section
/-!
DEFINITION. Clock synthesis (chapter 3): lock attempts, band selection, lock windows, loss, bypass and its effects on streams,
group delay lines, clock outputs.
-/
namespace Sys2Proof.Machine

/-- States of a synthesizer (R68). -/
abbrev Y.IDLE : Nat := 0
abbrev Y.SEARCH : Nat := 1
abbrev Y.TABLE : Nat := 2
abbrev Y.LOCK_CHECK : Nat := 3
abbrev Y.LOCKED : Nat := 4
abbrev Y.NO_BAND : Nat := 5
abbrev Y.NO_REF : Nat := 6

/-- Nominal VCO frequency of SPn in kHz. -/
def nominalKhz (n : Nat) : Nat := [2000000, 1600000, 2000000, 2400000].getD n 0

/-- REFCLK named by REF_FREQ in kHz; 0 for a reserved code. -/
def refKhzOf (c : Nat) : Nat := [10000, 25000, 50000, 100000, 156250].getD c 0

/-- REF_MUL as a fraction; ×1 for the reserved code. -/
def mulOf (c : Nat) : Nat × Nat := match c with | 1 => (2, 1) | 2 => (1, 2) | _ => (1, 1)

/-- f_VCO of an active group 0 in kHz (CKS_VCO_KHZ, R51). -/
def State.vcoKhz (s : State) (n : Nat) : Nat :=
  let p := P.CKS n
  let (a, b) := mulOf (s.use p F.CKS_REF_CFG_REF_MUL)
  refKhzOf (s.use p F.CKS_REF_CFG_REF_FREQ) * a * s.use p F.CKS_DIV_FB_N / (b * Nat.max 1 (s.use p F.CKS_DIV_REF_R))

/-- Expected window count in units of 1/256 (CKS_CNT_EXP). -/
def State.cntExp (s : State) (n : Nat) : Nat :=
  let p := P.CKS n
  2 ^ s.use p F.CKS_LOCK_CFG_WIN_EXP * s.vcoKhz n * 256 / Nat.max 1 (refKhzOf (s.use p F.CKS_REF_CFG_REF_FREQ))

/-- Deviation of a window's count from the expected one as a fraction: |count × f_REF − 2^WIN_EXP × f_VCO| over the second. -/
def State.deviation (s : State) (n count : Nat) : Nat × Nat :=
  let p := P.CKS n
  let e := 2 ^ s.use p F.CKS_LOCK_CFG_WIN_EXP * s.vcoKhz n
  (((count * refKhzOf (s.use p F.CKS_REF_CFG_REF_FREQ) : Nat) - (e : Int)).natAbs, e)

/-- Whether a count lies within `ppm` of the expected one. -/
def State.withinPpm (s : State) (n count ppm : Nat) : Bool :=
  let (d, e) := s.deviation n count
  decide (d * 1000000 ≤ ppm * e)

def State.onBypass (s : State) (n : Nat) : Bool := s.getB (P.CKS n) F.CKS_LOCK_STAT_ON_BYPASS
def State.spLocked (s : State) (n : Nat) : Bool := s.getB (P.CKS n) F.CKS_LOCK_STAT_LOCKED

/-! ### Clock outputs -/

/-- Present mode and frequency of an output: 0 off or held low, 1 nominal, 2 bypass, 3 free-running (R64, R65); a frequency the
spec does not fix is none. -/
def State.ckoNow (s : State) (n : Nat) : Nat × Option Nat :=
  let src := s.use P.CKO F.CKO_CFG_SOURCE n
  let div := Nat.max 1 (s.use P.CKO F.CKO_DIV n)
  if !s.useB P.CKO F.CKO_CFG_ENABLE n then (0, some 0)
  else if src = 5 then (1, none)
  else if src = 4 then
    (if s.getB (P.CKS 0) F.CKS_LOCK_STAT_REF_PRESENT then (1, some ((s.synth 0).refKhz / div)) else (0, some 0))
  else if 4 < src then (0, some 0)
  else if s.spLocked src then (1, some (s.vcoKhz src / div))
  else match s.use P.CKO F.CKO_CFG_POLICY n with
    | 0 => (0, some 0)
    | 2 => (3, none)
    | _ => (2, none)

/-- Refresh the outputs' status and events (R65, R69). A frequency that follows the bypass or an unlocked oscillator is a free
value. -/
def State.refreshCko (s : State) : State :=
  if !s.enabled P.CKO then s
  else s.each (List.range 8) (fun s n =>
    let (mode, khz) := s.ckoNow n
    let (khz, s) := match khz with
      | some k => (k, s)
      | none => let (w, s) := s.takeFree; (w.toNat % 2 ^ 22, s)
    let s := (s.put P.CKO F.CKO_OSTAT_MODE mode n).put P.CKO F.CKO_OSTAT_MEAS_KHZ khz n
    let on := s.useB P.CKO F.CKO_CFG_ENABLE n
    let dl := on && (s.spLocked 0 || s.getB P.CKO F.CKO_OSTAT_DL_LOCKED n)
    let s := s.putB P.CKO F.CKO_OSTAT_DL_LOCKED dl n
    let s := s.level P.CKO n (mode == 3)
    let src := s.use P.CKO F.CKO_CFG_SOURCE n
    let s := s.level P.CKO (8 + n) (on && decide (src < 4) && !s.spLocked src && mode != 3)
    s.level P.CKO (16 + n) (on && !dl))

/-- Agreement check of a CKO group (R64, R67, R69). -/
def checkCKO (v : View) (n : Nat) : Nat :=
  let fmt := v.f P.CKO F.CKO_CFG_FORMAT n
  let src := v.f P.CKO F.CKO_CFG_SOURCE n
  let div := v.f P.CKO F.CKO_DIV n
  let khz := if src < 4 then nominalKhz src else if src = 4 then refKhzOf (v.f (P.CKS 0) F.CKS_REF_CFG_REF_FREQ) else 200000
  firstCause [(v.f P.CKO F.CKO_CFG_POLICY n == 3 || decide (5 < src), E.RESERVED_CODE),
    (v.f P.CKO F.CKO_LEVEL n == 3 && decide (fmt < 2), E.RESERVED_CODE),
    (div == 0 || decide (1024 < div), E.RANGE),
    (decide ([1200000, 400000, 2400000, 250000].getD fmt 0 * div < khz), 0x0110)]

/-! ### Bypass -/

/-- SOURCE of a CLOCK_LOSS marker and the streams a synthesizer's bypass touches (table `Effects of bypass on streams`). -/
def bypassStreams (n : Nat) : List Nat := if n = 0 then List.range 22 else if n = 1 then [16, 17] else []

/-- Switch a synthesizer's domains to bypass at a slot (R58, R62): CLOCK_LOSS goes to the streams it feeds and their gap opens;
SP0 makes the loops coast and freezes the TAI mapping. -/
def State.toBypass (s : State) (n t : Nat) : State :=
  let p := P.CKS n
  let s := ((s.putB p F.CKS_LOCK_STAT_LOCKED false).putB p F.CKS_LOCK_STAT_ON_BYPASS true).put p F.CKS_LOCK_STAT_PASS_RUN 0
  let s := s.level p 0 false
  match (s.synth n).bypassFrom with
  | some _ => s.refreshCko
  | none =>
    let s := s.modSynth n (fun y => { y with bypassFrom := some t, deviated := false })
    let en := (bypassStreams n).filter s.recording
    let s := if n = 1 then s.each en (fun s i => (s.marker K.CLOCK_LOSS i t [n]).inband i K.CLOCK_LOSS i t [n])
      else s.markBoth K.CLOCK_LOSS 0xFF t [n] en
    let s := if n < 2 then s.recFlag RF.CLOCK_LOSS else s
    let s := s.gapOpen en t 1
    let s := if n < 2 then s.ivFlagAll IF.GAP else s
    let s := if n = 0 then
        let s := (s.put p F.CKS_LOCK_STAT_DLG_LOCK 0).stampGap 0xFF
        ((s.each (List.range 4) (fun s m => s.coastStart m t)).timeBypass true).level p 6 false
      else s
    s.refreshCko

/-- Declare loss of lock (R57, R61): cause bit 0 REF_ABSENT, 1 FREQ_DEV, 2 SLIP. Loss on SP0 is the sample-clock fault. -/
def State.lockLoss (s : State) (n t cause : Nat) : State :=
  let p := P.CKS n
  let s := s.toBypass n t
  let s := (s.sat p F.CKS_LOSS_CNT).pulse p 1
  let s := s.setReg p F.CKS_LOSS_CAUSE.off (2 ^ cause)
  let s := s.setBlockState p (if cause = 0 then Y.NO_REF else Y.IDLE)
  let s := s.modSynth n (fun y => { y with wanted := s.useB p F.CKS_BAND_CFG_AUTO_RELOCK })
  if n = 0 then s.faultLevel Q.SAMPLE_CLOCK true else s

/-- Whether a measured REFCLK lies within 6 % of the one REF_FREQ names (R52). -/
def State.refMatches (s : State) (n khz : Nat) : Bool :=
  let f := refKhzOf (s.use (P.CKS n) F.CKS_REF_CFG_REF_FREQ)
  decide (((khz : Int) - f).natAbs * 100 ≤ 6 * f)

/-- Highest junction temperature in °C (PWR_TJ_MAX, R54). -/
def State.junction (s : State) : Int := sx 16 (s.get P.PWR F.PWR_TJ_MAX)

/-- First valid band table entry whose range holds the junction temperature (R54). -/
def State.bandEntry (s : State) (n : Nat) : Option Nat :=
  let p := P.CKS n
  (List.range 16).find? (fun i => s.useB p F.CKS_BAND_TAB_VALID i &&
    decide (sx 8 (s.use p F.CKS_BAND_TAB_TEMP_MIN i) ≤ s.junction) && decide (s.junction ≤ sx 8 (s.use p F.CKS_BAND_TAB_TEMP_MAX i)))

/-- Enter NO_BAND (R54). -/
def State.noBand (s : State) (n : Nat) : State := (s.setBlockState (P.CKS n) Y.NO_BAND).level (P.CKS n) 4 true

/-- Go to the band table (R54). -/
def State.useTable (s : State) (n : Nat) : State :=
  let p := P.CKS n
  match s.bandEntry n with
  | none => s.noBand n
  | some i =>
    let s := s.setBlockState p Y.TABLE
    let s := (s.putB p F.CKS_BAND_STAT_FROM_TABLE true).put p F.CKS_BAND_STAT_ENTRY i
    let s := s.put p F.CKS_BAND_STAT_BAND (s.use p F.CKS_BAND_TAB_BAND i)
    s.modSynth n (fun y => { y with verifying := true })

/-- Start a lock attempt (R52, R59, R60): the domains go to bypass and band selection starts, unless REFCLK is absent or does
not match. -/
def State.lockAttempt (s : State) (n t : Nat) : State :=
  let p := P.CKS n
  let s := (s.toBypass n t).level p 4 false
  let s := s.modSynth n (fun y => { y with
                                           wanted := true, resetHold := false, lo := 0, hi := 31, step := 0, verifying := false,
                                           deviated := false })
  let khz := (s.synth n).refKhz
  let mism := khz != 0 && !s.refMatches n khz
  let s := (s.putB p F.CKS_LOCK_STAT_REF_MISMATCH mism).level p 5 mism
  if khz = 0 ∨ mism then s.setBlockState p Y.NO_REF
  else
    let s := (s.putB p F.CKS_BAND_STAT_FROM_TABLE false).put p F.CKS_BAND_STAT_ENTRY 0
    if s.useB p F.CKS_BAND_CFG_BAND_MODE then s.useTable n
    else (s.setBlockState p Y.SEARCH).put p F.CKS_TUNE 2048

/-- LOCK_ATTEMPT (R59, R60) with the REFCLK the module measures, 0 when absent. -/
def execLockAttempt (t : Nat) (n : Fin 4) (refKhz : Nat) (s : State) : Res :=
  let s := s.at t
  .next (if (s.synth n).wanted ∧ !(s.synth n).resetHold ∧ s.enabled (P.CKS n)
    then (s.modSynth n (fun y => { y with refKhz := refKhz })).lockAttempt n t else s)

/-- A write of CKS_RELOCK.RELOCK (R60, R61): on CKS1 to CKS3 the attempt needs ENABLE. -/
def State.relockWrite (s : State) (n t : Nat) : State := if s.enabled (P.CKS n) then s.lockAttempt n t else s

def execRelock (t : Nat) (n : Fin 4) (s : State) : Res := .next ((s.at t).relockWrite n t)

/-- CLR_CNT (R68): clears the three counters. -/
def execClrCnt (n : Fin 4) (s : State) : Res :=
  .next (s.clearAll (P.CKS n) [(F.CKS_RELOCK_CNT, 1), (F.CKS_LOSS_CNT, 1), (F.CKS_SEARCH_FAIL_CNT, 1)])

/-- BAND_SEARCH_STEP (R53): record the band tried and its count, halve the range. -/
def execBandSearchStep (t : Nat) (n : Fin 4) (count : BitVec 24) (s : State) : Res :=
  let s := s.at t
  let p := P.CKS n
  let y := s.synth n
  if s.blockState p ≠ Y.SEARCH ∨ y.verifying ∨ !s.enabled p then .next s
  else
    let mid := (y.lo + y.hi + 1) / 2
    let s := (s.put p F.CKS_SEARCH_STEP_BAND mid y.step).put p F.CKS_SEARCH_STEP_COUNT count.toNat y.step
    let high := decide (s.cntExp n < count.toNat * 256)
    let lo := if high then y.lo else mid
    let hi := if high then mid - 1 else y.hi
    let last := y.step == 4
    let s := s.modSynth n (fun y => { y with lo := lo, hi := hi, step := y.step + 1, verifying := last, wanted := false })
    .next (if last then s.put p F.CKS_BAND_STAT_BAND lo else s)

/-- BAND_VERIFY (R53, R54): the verification window; beyond 2 % the search falls back to the table, the table to NO_BAND. The
loop is closed, so the tuning code is whatever it settles to: a free value. -/
def execBandVerify (t : Nat) (n : Fin 4) (count : BitVec 24) (s : State) : Res :=
  let s := s.at t
  let p := P.CKS n
  if !(s.synth n).verifying ∨ !s.enabled p then .next s
  else
    let s := s.modSynth n (fun y => { y with verifying := false, wanted := false })
    if s.withinPpm n count.toNat 20000 then
      let (w, s) := s.takeFree
      .next ((s.setBlockState p Y.LOCK_CHECK).put p F.CKS_TUNE w.toNat)
    else if s.blockState p = Y.SEARCH then
      .next (((s.sat p F.CKS_SEARCH_FAIL_CNT).pulse p 3).useTable n)
    else .next (s.noBand n)

/-- Declare lock (R55): the domains leave bypass and the gaps end; on SP0 the groups wait for their delay lines. -/
def State.lockDeclared (s : State) (n t : Nat) : State :=
  let p := P.CKS n
  let s := ((s.putB p F.CKS_LOCK_STAT_LOCKED true).putB p F.CKS_LOCK_STAT_ON_BYPASS false).setBlockState p Y.LOCKED
  let s := (s.sat p F.CKS_RELOCK_CNT).setReg p F.CKS_LOSS_CAUSE.off 0
  let s := s.modSynth n (fun y => { y with bypassFrom := none, deviated := false })
  let s := s.level p 0 true
  let s := if n = 0 then
      let s := (s.timeBypass false).faultLevel Q.SAMPLE_CLOCK false
      let s := s.gapClose [16, 17, 18, 19, 20, 21] t 1 true
      s.level p 6 (s.get p F.CKS_LOCK_STAT_DLG_LOCK != 0xFF)
    else if n = 1 then s.gapClose [16, 17] t 1 false
    else s
  s.refreshCko

/-- LOCK_WINDOW_END (R55 to R57): four windows within 100 ppm lock; a locked synthesizer is judged by each window. -/
def execLockWindowEnd (t : Nat) (n : Fin 4) (count : BitVec 32) (s : State) : Res :=
  let s := s.at t
  let p := P.CKS n
  if !s.enabled p then .next s
  else
    let c := count.toNat
    let s := s.setReg p F.CKS_CNT_LAST.off c
    let good := s.withinPpm n c 100
    if s.blockState p = Y.LOCK_CHECK then
      let run := if good then s.get p F.CKS_LOCK_STAT_PASS_RUN + 1 else 0
      let s := s.put p F.CKS_LOCK_STAT_PASS_RUN run
      .next (if run = 4 then s.lockDeclared n t else s)
    else if s.blockState p = Y.LOCKED then
      .next (if !s.withinPpm n c (s.use p F.CKS_LOCK_CFG_LOSS_PPM) ∨ (!good ∧ (s.synth n).deviated) then s.lockLoss n t 1
        else s.modSynth n (fun y => { y with deviated := !good }))
    else .next s

/-- PHASE_SLIP (R57). -/
def execPhaseSlip (t : Nat) (n : Fin 4) (s : State) : Res :=
  let s := s.at t
  .next (if s.spLocked n then s.lockLoss n t 2 else s)

/-- REF_LOSS (R57, R60): no REFCLK edge for 1 µs; locked synthesizers lose lock, attempts are abandoned. -/
def execRefLoss (t : Nat) (s : State) : Res :=
  let s := s.at t
  .next (s.each (List.range 4) (fun s n =>
    let p := P.CKS n
    let s := (s.putB p F.CKS_LOCK_STAT_REF_PRESENT false).level p 2 true
    let s := (s.putB p F.CKS_LOCK_STAT_REF_MISMATCH false).level p 5 false
    let s := s.modSynth n (fun y => { y with refKhz := 0, verifying := false })
    if s.spLocked n then s.lockLoss n t 0
    else ((s.setBlockState p Y.NO_REF).put p F.CKS_LOCK_STAT_PASS_RUN 0).level p 4 false)
    |>.refreshCko)

/-- REFCLK_RETURN (R52, R60): edges return with a measured frequency; AUTO_RELOCK starts new attempts. -/
def execRefclkReturn (t : Nat) (refKhz : Nat) (s : State) : Res :=
  let s := s.at t
  .next (s.each (List.range 4) (fun s n =>
    let p := P.CKS n
    let s := (s.putB p F.CKS_LOCK_STAT_REF_PRESENT true).level p 2 false
    let s := s.modSynth n (fun y => { y with refKhz := refKhz })
    if s.useB p F.CKS_BAND_CFG_AUTO_RELOCK ∧ !(s.synth n).resetHold ∧ s.enabled p ∧ s.blockState p = Y.NO_REF
    then s.lockAttempt n t else s)
    |>.refreshCko)

/-! ### Group delay lines -/

/-- DLG_LOCK (R63): a group's line locks after SP0; its streams' gap ends. -/
def execDlgLock (t : Nat) (g : Fin 8) (s : State) : Res :=
  let s := s.at t
  let p := P.CKS 0
  if !s.spLocked 0 then .next s
  else
    let s := s.put p F.CKS_LOCK_STAT_DLG_LOCK (putBit (s.get p F.CKS_LOCK_STAT_DLG_LOCK) g true)
    let s := s.gapClose [g, 8 + g] t 1 false
    let s := s.gapClose [g, 8 + g] t 2 false
    .next (s.level p 6 (s.get p F.CKS_LOCK_STAT_DLG_LOCK != 0xFF))

/-- DLG_UNLOCK (R63): CLOCK_LOSS and GAP for the group's streams; not a safety fault. -/
def execDlgUnlock (t : Nat) (g : Fin 8) (s : State) : Res :=
  let s := s.at t
  let p := P.CKS 0
  if !s.spLocked 0 ∨ !bitOf (s.get p F.CKS_LOCK_STAT_DLG_LOCK) g then .next s
  else
    let s := s.put p F.CKS_LOCK_STAT_DLG_LOCK (putBit (s.get p F.CKS_LOCK_STAT_DLG_LOCK) g false)
    let en := [g.val, 8 + g.val].filter s.recording
    let s := s.each en (fun s i => (s.marker K.CLOCK_LOSS i t [0x10 + g]).inband i K.CLOCK_LOSS i t [0x10 + g])
    let s := ((s.gapOpen en t 2).recFlag RF.CLOCK_LOSS).stampGap (2 ^ g.val)
    .next (s.level p 6 true)

/-- Whether a group's samplers produce valid samples (R62, R63). -/
def State.groupValid (s : State) (g : Nat) : Bool := s.sp0Good && bitOf (s.get (P.CKS 0) F.CKS_LOCK_STAT_DLG_LOCK) g

/-! ### Checks and copies -/

/-- Agreement check of a CKS group (R51, R56, R67, R68). -/
def checkCKS (v : View) (p g : Nat) : Nat :=
  let n := p - P.CKS 0
  let mul := v.f p F.CKS_REF_CFG_REF_MUL
  let rf := v.f p F.CKS_REF_CFG_REF_FREQ
  let f := refKhzOf rf
  let (a, b) := mulOf mul
  let r := v.f p F.CKS_DIV_REF_R
  let nn := v.f p F.CKS_DIV_FB_N
  let ppm := v.f p F.CKS_LOCK_CFG_LOSS_PPM
  let w := v.f p F.CKS_LOCK_CFG_WIN_EXP
  if g ≠ 0 then 0
  else firstCause [
    (mul == 3 || decide (4 < rf), E.RESERVED_CODE),
    (r == 0 || decide (nn < 8) || decide (ppm < 100), E.RANGE),
    (f * a * nn != nominalKhz n * b * r, 0x0101),
    (decide (320000 * b < f * a) || decide (f * a < 10000 * b * r) || decide (100000 * b * r < f * a), 0x0102),
    (decide (2 ^ w * nominalKhz n < 10000 * f), 0x0103),
    (n == 0 && decide (8 * f < 2 ^ w * 1000), 0x0104)]

/-- A copied group 0 starts a relock (R59). -/
def State.cksCopied (s : State) (n t g : Nat) : State := if g = 0 then s.lockAttempt n t else s

/-- A soft reset puts the synthesizer on bypass without a loss (R61); REFCLK stays what it is. -/
def State.cksReset (s : State) (n t : Nat) : State :=
  let khz := (s.synth n).refKhz
  let s := s.toBypass n t
  let s := s.modSynth n (fun y => { SynthState.empty with refKhz := khz, resetHold := true, bypassFrom := y.bypassFrom })
  let s := s.setReg (P.CKS n) F.CKS_LOCK_STAT.off (2 ^ 30 + b2n (khz != 0) * 2 ^ 29)
  let s := if n = 0 then s.faultLevel Q.SAMPLE_CLOCK false else s
  s.refreshCko

/-- A stopped CKS1 to CKS3 holds its synthesizer on bypass (R45, R62). -/
def State.cksEnable (s : State) (n t : Nat) (on : Bool) : State :=
  if on then s
  else ((s.toBypass n t).setBlockState (P.CKS n) Y.IDLE).modSynth n (fun y =>
    { y with wanted := s.useB (P.CKS n) F.CKS_BAND_CFG_AUTO_RELOCK, verifying := false })

end Sys2Proof.Machine
end

