-- ==== Sys2Proof/Machine/Pages.lean ====
section
/-!
DEFINITION. The page fabric (chapter 2): where a write of RW fields lands, mode changes, pending groups, events and interrupt
masks. The parts that depend on a page's block stand in Bus.lean.
-/
namespace Sys2Proof.Machine

/-- Put the RW bits `mask` of a value into a 32-bit register value. -/
def mergeBits (old mask v : Nat) : Nat := (old &&& (0xFFFFFFFF ^^^ mask)) ||| (v &&& mask)

/-- A write of the RW fields of a register (R10, R37, R41): into the staged copy, or into the active register. -/
def State.storeRW (s : State) (staged : Bool) (p o mask v : Nat) : State :=
  if staged then s.setStaged p o (mergeBits (s.stagedReg p o) mask v)
  else s.setReg p o (mergeBits (s.reg p o) mask v)

/-- A write of one field under the page's staging mode. -/
def State.storeField (s : State) (p : Nat) (f : Fld) (v : Nat) (i : Nat := 0) : State :=
  let mask := (2 ^ (f.hi + 1 - f.lo) - 1) * 2 ^ f.lo
  s.storeRW (s.stagedMode p) p (f.at i) mask (v * 2 ^ f.lo)

/-! ### Commit status -/

/-- Pending groups of a page (COMMIT_STAT.PEND_GROUPS). -/
def State.pendGroups (s : State) (p : Nat) : Nat := bits (s.reg p H.CSTAT) 16 0

/-- Set the pending groups and STAGE_PENDING with them (R37). -/
def State.setPendGroups (s : State) (p m : Nat) : State :=
  let s := s.setReg p H.CSTAT (putBits (s.reg p H.CSTAT) 16 0 m)
  s.setReg p H.STAT (putBit (s.reg p H.STAT) 3 (m % 2 ^ 17 != 0))

/-- A commit has finished, copied or rejected: DONE_COUNT, REJECTED and the pulse of R37. -/
def State.commitFinished (s : State) (p : Nat) (rejected : Bool) : State :=
  let v := s.reg p H.CSTAT
  let s := s.setReg p H.CSTAT (putBit (putBits v 31 24 (bits v 31 24 + 1)) 23 rejected)
  s.latch p (if rejected then 29 else 30)

/-! ### Agreement errors -/

/-- Show the agreement errors present on a page: AGREE_ERR, its event, and the lowest group's cause (R32, R42). -/
def State.showErrs (s : State) (p : Nat) : State :=
  let es := s.regs.errs.filter (fun e => e.1 == p)
  let low := es.foldl (fun m e => if e.2.1 < m.1 then (e.2.1, e.2.2) else m) (99, 0)
  let b := !es.isEmpty
  let s := s.setReg p H.STAT (putBit (s.reg p H.STAT) 2 b)
  let s := s.setReg p H.CAUSE (if b then low.1 * 2 ^ 24 + low.2 else 0)
  s.levelHdr p 31 b

/-- An agreement error of a group appears, or goes. -/
def State.setErr (s : State) (p g cause : Nat) : State :=
  let es := s.regs.errs.filter (fun e => !(e.1 == p && e.2.1 == g))
  { s with regs := { s.regs with errs := if cause = 0 then es else (p, g, cause) :: es } }

/-! ### Groups -/

/-- Offsets of the registers of a page that belong to a group (R36), every instance. -/
def groupOffsets (p g : Nat) : List Nat :=
  (pageRegs p).flatMap (fun d => (List.range d.count).filterMap (fun i =>
    if d.group i = some g ∧ (regAt p (d.off + d.stride * i)).isSome then some (d.off + d.stride * i) else none))

/-- Pages whose copies a group of page `p` holds: itself, or the entries of its window table for the registers that address
one (R211, R344, R453). -/
def tablePages (p : Nat) : List Nat :=
  if p = P.TLDP then (List.range 512).map P.PT
  else if p = P.SCR then (List.range 96).map P.LEND
  else if p = P.SAF then (List.range 256).map P.SEAL
  else []

/-- Whether a register of a page addresses a table entry. -/
def isWindow (p o : Nat) : Bool :=
  (p == P.TLDP && (o == 0x048 || o == 0x04C || o == 0x050)) || (p == P.SCR && o == F.SCR_LEND_DATA.off) ||
  (p == P.SAF && (o == 0x05C || o == 0x060))

/-- Whether an active or staged key belongs to a group of a page: the register itself, or an entry of its table. -/
def keyInGroup (p g k : Nat) : Bool :=
  let pg := k / 0x1000
  let o := k % 0x1000
  let base := if 0x400 ≤ pg then P.SAF else if 0x300 ≤ pg then P.SCR else if 0x100 ≤ pg then P.TLDP else pg
  base == p && (if 0x100 ≤ pg then isWindow p o else !isWindow p o) &&
  (match regAt p o with | some (d, i) => d.group i == some g | none => false)

/-- The keys of a group at which the staged or the active copy differs from its reset value. -/
def State.groupKeys (s : State) (p g : Nat) : List Nat :=
  ((s.regs.staged.map Prod.fst) ++ (s.regs.active.map Prod.fst)).filter (keyInGroup p g) |>.eraseDups

/-- Copy a group from the staged copy to the active registers (R37): every RW field of every member. -/
def State.copyGroup (s : State) (p g : Nat) : State :=
  s.each (s.groupKeys p g) (fun s k =>
    match regAt p (k % 0x1000) with
    | some (d, _) => s.setReg (k / 0x1000) (k % 0x1000)
        (mergeBits (s.reg (k / 0x1000) (k % 0x1000)) d.rw (s.stagedReg (k / 0x1000) (k % 0x1000)))
    | none => s)

/-- Load a group's staged copies from the active registers. -/
def State.loadGroup (s : State) (p g : Nat) : State :=
  s.each (s.groupKeys p g) (fun s k => s.setStaged (k / 0x1000) (k % 0x1000) (s.reg (k / 0x1000) (k % 0x1000)))

/-- The active registers of a page forget the values kept for a group in error (R42). -/
def State.dropLastGood (s : State) (p g : Nat) : State :=
  { s with regs := { s.regs with lastGood := s.regs.lastGood.filter (fun e => !keyInGroup p g e.1) } }

/-- Whether a page is in soft reset (R44). -/
def State.inReset (s : State) (p : Nat) : Bool := s.regs.resetting.contains p

/-- MSIX_UNMASK (R387): a vector, or the function, is unmasked; held messages are sent once. -/
def execMsixUnmask (vector : Option (Fin 512)) (s : State) : Res :=
  let m := s.msix
  let s := match vector with
    | some v => { s with msix := { m with masked := m.masked.filter (fun x => x != v.val) } }
    | none => { s with msix := { m with funcMask := false } }
  let due := s.msix.waiting.filter (fun v => !s.msix.funcMask && !s.msix.masked.contains v)
  let s : State := { s with msix := { s.msix with waiting := s.msix.waiting.filter (fun v => !due.contains v) } }
  .next (s.each due (fun s v => s.emit (.msix v)))

end Sys2Proof.Machine
end

