-- ==== Sys2Proof/Machine/Dig.lean ====
section
/-!
DEFINITION. Digital inputs and sampling modes (chapter 5).
-/
namespace Sys2Proof.Machine

/-! ### Groups -/

def State.dig (s : State) (g : Nat) : DigState := s.digs.getD g DigState.empty
def State.modDig (s : State) (g : Nat) (f : DigState → DigState) : State := { s with digs := lmod s.digs g f }

/-- Channels that are powered and used (R104). -/
def State.chanMask (s : State) (g : Nat) : Nat :=
  (List.range 32).foldl (fun m c => if s.useB (P.DIG g) F.DIG_CH_CFG_EN c then m + 2 ^ c else m) 0

/-- Channels inverted after the comparator. -/
def State.invMask (s : State) (g : Nat) : Nat :=
  (List.range 32).foldl (fun m c => if s.useB (P.DIG g) F.DIG_CH_CFG_INVERT c then m + 2 ^ c else m) 0

/-- A sample word from comparator levels (R109): INVERT applied, channels not in use read 0. -/
def sampleWord (inv en raw : Nat) : Nat := (raw ^^^ inv) &&& en

/-- Value of a shortened list of slots at a slot: its last value holds on. -/
def slotVal {α : Type} (d : α) (l : List α) (i : Nat) : α := l.getD i (l.getLastD d)

/-- Sample words of a group's ply, 0 in OFF (R104, R113). -/
def State.groupWords (s : State) (g : Nat) (x : PlyIn) : List Nat :=
  if s.digMode g = M.OFF then List.replicate 32 0
  else
    let inv := s.invMask g
    let en := s.chanMask g
    let ws := x.words.getD g []
    (List.range 32).map (fun i => sampleWord inv en (slotVal 0 ws i).toNat)

/-- PAGE_STAT.STATE of a DIG page (R117) and the STATE_CLK condition. -/
def State.digState (s : State) (g : Nat) : State :=
  let p := P.DIG g
  let m := s.digMode g
  let clk := s.getB p F.DIG_STAT_STATE_CLK
  let s := s.setBlockState p (if m = M.STATE ∧ !clk then 4 else m)
  s.level p 2 (m == M.STATE && !clk)

/-- Whether a slot belongs to the record in progress as far as it is known (R457). -/
def State.inRecord (s : State) (slot : Nat) : Bool :=
  decide (s.acq.armSlot ≤ slot) && (match s.acq.endSlot with | some e => decide (slot ≤ e) | none => true) &&
  (match s.acq.stopSlot with | some e => decide (slot ≤ e) | none => true)

/-- Whether stream `sid` has a gap open: its items are not taken (R62, R252). -/
def State.inGap (s : State) (sid : Nat) : Bool := !(s.stream sid).gaps.isEmpty

/-- Write an entry word (R110). -/
def State.entry (s : State) (g slot word : Nat) : State :=
  let d := (slot - (s.dig g).lastEntry) % 2 ^ 32
  let s := s.appendItem g { slot := slot, words := [w64 (word * 2 ^ 32 + d)], ply := none }
  s.modDig g (fun q => { q with lastEntry := slot })

/-- Take a word into stream `g` (R105, R109 to R111): as a sample word, as an entry in STATE FULL, or as an entry when a bit
under DIG_TRNS_MASK changed. The seam sums are taken before that choice. -/
def State.takeWord (s : State) (g slot word : Nat) : State :=
  if !s.recording g ∨ !s.inRecord slot ∨ s.inGap g then s
  else
    let prev := (s.dig g).lastWord
    let s := s.seamAdd g slot (popCount 32 (word ^^^ prev.getD word)) 1 (popCount 32 word)
    let m := s.use (P.DIG g) F.DIG_TRNS_MASK
    let m := if m = 0 then 0xFFFFFFFF else m
    let full := s.use (P.DIG g) F.DIG_MODE_FORM == 0
    let s := if s.fixedRate g then s.appendItem g { slot := slot, words := [w64 word], ply := none }
      else if full || (match prev with | some w => (w ^^^ word) &&& m != 0 | none => true) then s.entry g slot word
      else s
    s.modDig g (fun q => { q with lastWord := some word })

/-- Thinning step of a stream at a slot: a step change decided takes effect at its grid point (R251). -/
def State.stepAt (s : State) (sid slot : Nat) : Nat :=
  match thinIndex sid with
  | some i =>
    (match (s.acq.thin.getD i { next := none, seen := 0, maxStep := 0 }).next with
      | some (k, at_) => if at_ ≤ slot then k else s.thinStep sid
      | none => s.thinStep sid)
  | none => 0

/-- A step change takes effect at a slot (R251): the new step, and a RATE marker with both exponents in stream 18 and in the stream's
tail. -/
def State.applyStep (s : State) (i slot : Nat) : State :=
  match (s.acq.thin.getD i { next := none, seen := 0, maxStep := 0 }).next with
  | none => s
  | some (k, _) =>
    let sid := if i < 8 then i else 8 + i
    let old := s.expNow sid
    let s := s.put P.ACQT F.ACQ_THIN_STAT_K k i
    let s := s.modAcq (fun a => { a with thin := lmod a.thin i (fun q => { q with next := none, maxStep := Nat.max q.maxStep k }) })
    if s.recording sid then s.markBoth K.RATE sid slot [old * 2 ^ 8 + s.expNow sid] [sid] else s

/-- Store a TIMING group's words of a ply (R105, R249). -/
def State.timingPly (s : State) (g t0 : Nat) (ws : List Nat) : State :=
  if s.digMode g ≠ M.TIMING ∨ !s.groupValid g ∨ !s.recording g then s
  else
    let rk := s.use (P.DIG g) F.DIG_MODE_RATE_K
    (List.range 32).foldl (fun s i =>
      let due : Bool := match (s.acq.thin.getD g { next := none, seen := 0, maxStep := 0 }).next with
        | some (_, at_) => decide (at_ ≤ t0 + i)
        | none => false
      let s := if due then s.applyStep g (t0 + i) else s
      if (t0 + i) % 2 ^ (rk + s.stepAt g (t0 + i)) = 0 then s.takeWord g (t0 + i) (ws.getD i 0) else s) s

/-- Count comparator transitions of a ply and keep the latest levels (DIG_EDGE_CNT, DIG_LEVEL). -/
def State.countEdges (s : State) (g : Nat) (x : PlyIn) : State :=
  if !s.enabled (P.DIG g) ∨ s.digMode g = M.OFF then s
  else
    let ws := (List.range 32).map (fun i => (slotVal 0 (x.words.getD g []) i).toNat)
    let xs := ((s.dig g).levels :: ws).zipWith (fun a b => a ^^^ b) ws
    let s := s.modDig g (fun q => { q with levels := ws.getLastD 0 })
    if xs.all (· == 0) then s
    else s.each ((List.range 32).filter (fun c => xs.any (fun v => bitOf v c))) (fun s c =>
      s.wrap (P.DIG g) F.DIG_EDGE_CNT (xs.foldl (fun n v => n + b2n (bitOf v c)) 0) c)

/-! ### STATE mode -/

/-- STATE_CLOCK_EDGE (R106 to R108): an edge of the clock group's C0 at slot `t` before INVERT, with the group's levels at
slot `t` + OFS. -/
def execStateClockEdge (t : Nat) (g : Fin 8) (rising : Bool) (word : Word) (s : State) : Res :=
  let s := s.at t
  let p := P.DIG g
  let cg := s.use p F.DIG_STATE_CFG_CLK_GROUP
  let up := rising != s.useB (P.DIG cg) F.DIG_CH_CFG_INVERT 0
  let e := s.use p F.DIG_STATE_CFG_EDGE
  let wanted := e == 2 || (e == 0 && up) || (e == 1 && !up)
  if s.digMode g ≠ M.STATE ∨ !s.groupValid g ∨ !s.groupValid cg ∨ !wanted then .next s
  else if (match (s.dig g).lastEdge with | some l => decide (t < l + 4) | none => false) then
    .next ((s.sat p F.DIG_STATE_REJ_CNT).pulse p 3)
  else
    let ofs := sx 4 (s.use p F.DIG_STATE_CFG_OFS)
    let w := sampleWord (s.invMask g) (s.chanMask g) word.toNat
    let w := if cg = g.val then putBit w 0 up else w
    let n := (s.dig g).samples
    let s := s.modDig g (fun q => { q with
      lastEdge := some t, samples := n + 1, strobes := q.strobes ++ [((t : Int) + ofs).toNat] })
    let s := (s.wrap p F.DIG_STATE_EDGE_CNT).putB p F.DIG_STAT_STATE_CLK true
    let s := s.digState g
    .next (if n % 2 ^ s.stepAt g t = 0 then s.takeWord g t w else s)

/-- STATE_CLK_TIMEOUT (R108, R118): no edge accepted for TIMEOUT µs. -/
def execStateClkTimeout (t : Nat) (g : Fin 8) (s : State) : Res :=
  let s := s.at t
  let p := P.DIG g
  let us := s.use p F.DIG_STATE_CFG_TIMEOUT
  .next (if s.digMode g = M.STATE ∧ us ≠ 0 ∧ usSlots us ≤ t - (s.dig g).lastEdge.getD 0
    then (s.putB p F.DIG_STAT_STATE_CLK false).digState g else s)

/-- KEEP_ALIVE (R112): 0xFFFF_FFFF slots without an entry. -/
def execKeepAlive (t : Nat) (g : Fin 8) (s : State) : Res :=
  let s := s.at t
  let q := s.dig g
  let m := s.digMode g
  let slot := q.lastEntry + 0xFFFFFFFF
  if !s.recording g ∨ !(m = M.STATE ∨ (m = M.TIMING ∧ !s.fixedRate g)) ∨ t < slot then .next s
  else
    let s := s.appendItem g { slot := slot, words := [w64 (q.lastWord.getD 0 * 2 ^ 32 + 0xFFFFFFFF)], ply := none }
    .next (s.modDig g (fun q => { q with lastEntry := slot }))

/-! ### Over-range -/

/-- Channels of a group in over-range. -/
def State.overCount (s : State) (g : Nat) : Nat :=
  ((List.range 32).filter (fun c => s.getB (P.DIG g) F.DIG_CH_STAT_OVR_HI c || s.getB (P.DIG g) F.DIG_CH_STAT_OVR_LO c)).length

/-- An OVR_WINDOW marker (R116, table `Marker codes`): in stream 18, and in stream g unless it carries nothing. -/
def State.ovrMark (s : State) (g slot : Nat) (opened : Bool) (first : Nat) : State :=
  if !s.useB (P.DIG g) F.DIG_OVR_CFG then s
  else
    let params := [g * 2 ^ 16 + b2n opened * 2 ^ 8 + first]
    let s := s.marker K.OVR_WINDOW g slot params
    if s.digMode g = M.TIMING ∨ s.digMode g = M.STATE then s.tailMarker g K.OVR_WINDOW g slot params else s

/-- OVERRANGE_ENTRY (R114, R116). -/
def execOverrangeEntry (t : Nat) (g : Fin 8) (c : Fin 32) (hi : Bool) (s : State) : Res :=
  let s := s.at t
  let p := P.DIG g
  if !s.enabled p then .next s
  else
    let s := s.putB p (if hi then F.DIG_CH_STAT_OVR_HI else F.DIG_CH_STAT_OVR_LO) true c
    let s := s.sat p F.DIG_OVR_CNT 1 c
    let s := s.put p F.DIG_OVR_MASK (putBit (s.get p F.DIG_OVR_MASK) c true)
    let s := (s.putB p F.DIG_STAT_OVR true).level p 0 true
    if s.getB p F.DIG_STAT_WINDOW then .next s
    else
      let s := (s.putB p F.DIG_STAT_WINDOW true).put p F.DIG_OVR_FIRST c
      let s := (s.sat p F.DIG_OVR_WIN_CNT).level p 1 true
      let s := s.note RN.WINDOW t g
      .next (s.ovrMark g t true c)

/-- OVERRANGE_EXIT (R114). -/
def execOverrangeExit (t : Nat) (g : Fin 8) (c : Fin 32) (s : State) : Res :=
  let s := s.at t
  let p := P.DIG g
  if !s.enabled p then .next s
  else
    let s := (s.putB p F.DIG_CH_STAT_OVR_HI false c).putB p F.DIG_CH_STAT_OVR_LO false c
    let s := s.modDig g (fun q => { q with ovrExit := t })
    let any := s.overCount g != 0
    .next ((s.putB p F.DIG_STAT_OVR any).level p 0 any)

/-- OVR_WINDOW_CLOSE (R116): 640 slots after the last channel left over-range. -/
def execOvrWindowClose (t : Nat) (g : Fin 8) (s : State) : Res :=
  let s := s.at t
  let p := P.DIG g
  .next (if s.enabled p ∧ s.getB p F.DIG_STAT_WINDOW ∧ s.overCount g = 0 ∧ (s.dig g).ovrExit + 640 ≤ t then
    let s := (s.putB p F.DIG_STAT_WINDOW false).level p 1 false
    s.ovrMark g t false (s.get p F.DIG_OVR_FIRST)
  else s)

/-! ### Registers -/

/-- DIG_BCAST (R117): THR and HYST of every masked channel, under the page's staging mode. -/
def execDigBcast (g : Fin 8) (value : Word) (s : State) : Res :=
  let p := P.DIG g
  let mask := s.use p F.DIG_BCAST_MASK
  .next (s.each ((List.range 32).filter (bitOf mask)) (fun s c =>
    (s.storeField p F.DIG_THR_THR (bits value.toNat 27 16) c).storeField p F.DIG_CH_CFG_HYST (bits value.toNat 1 0) c))

/-- DIG_CLR (R117): every counter and DIG_OVR_MASK of the page. -/
def execDigClr (g : Fin 8) (value : Word) (s : State) : Res :=
  .next (if bitOf value.toNat 0 then s.clearAll (P.DIG g) [(F.DIG_OVR_MASK, 1), (F.DIG_OVR_WIN_CNT, 1),
    (F.DIG_STATE_REJ_CNT, 1), (F.DIG_STATE_EDGE_CNT, 1), (F.DIG_OVR_CNT, 32), (F.DIG_EDGE_CNT, 32)] else s)

/-- Agreement check of a DIG group (R117). -/
def checkDIG (v : View) (p g : Nat) : Nat :=
  if g ≠ 0 then 0
  else firstCause [(decide (20 < v.f p F.DIG_MODE_RATE_K), E.RANGE), (v.f p F.DIG_STATE_CFG_EDGE == 3, E.RESERVED_CODE)]

/-- A copied group 0 takes the mode up afresh (R108, R118). -/
def State.digModeCopied (s : State) (g : Nat) : State :=
  let s := s.modDig g (fun q => { q with lastEdge := none, samples := 0, lastWord := none, strobes := [] })
  (s.putB (P.DIG g) F.DIG_STAT_STATE_CLK false).digState g

end Sys2Proof.Machine
end

