-- ==== Sys2Proof/Machine/Stp.lean ====
section
/-!
DEFINITION. Edge stamps, interval pairing and regression frequency (chapter 6). Stamp positions count stamp steps from the
start of the coarse counter, unwrapped, so that no difference of two stamps meets the wrap (R128).
-/
namespace Sys2Proof.Machine

/-! ### Interval pairing -/

/-- Settings of pairing unit `u` of the module: unit u mod 2 of page STP(u / 2). -/
def State.ipUse (s : State) (u : Nat) (f : Fld) : Nat := s.use (P.STP (u / 2)) f (u % 2)

/-- The unit's span limit in stamp steps; none when IP_SPAN is 0 (R131, R139). -/
def State.ipSpan (s : State) (u : Nat) : Option Nat :=
  let v := s.useReg (P.STP (u / 2)) (F.IP_SPAN.at (u % 2))
  if v = 0 then none else some (v * 512)

/-- Whether a difference lies within the span limit. -/
def withinSpan (span : Option Nat) (d : Nat) : Bool := match span with | some m => decide (d ≤ m) | none => true

/-- Show IP_STAT of a unit and the level IP_OVFL of its page. -/
def State.ipShow (s : State) (u : Nat) : State :=
  let p := P.STP (u / 2)
  let s := s.putB p F.IP_STAT_ARMED (!(s.ip u).starts.isEmpty) (u % 2)
  let s := s.putB p F.IP_STAT_OVFL (s.ip u).ovfl (u % 2)
  s.level p 4 ((s.ip (u / 2 * 2)).ovfl || (s.ip (u / 2 * 2 + 1)).ovfl)

/-- Add a pair to running statistics (R133): sums saturate and set OVFL. -/
def IpUnit.add (q : IpUnit) (d : Int) : IpUnit :=
  let sum := satS 64 (q.sum + d)
  let sq := satU 96 (q.sumSq + d.natAbs * d.natAbs)
  { q with
    cnt := satU 32 (q.cnt + 1), min := if q.cnt = 0 ∨ d < q.min then d else q.min,
    max := if q.cnt = 0 ∨ q.max < d then d else q.max, sum := sum, sumSq := sq,
    ovfl := q.ovfl || sum != q.sum + d || sq != q.sumSq + d.natAbs * d.natAbs }

/-- A pair with interval `d` (R130, R133), made by an edge in `slot` (R255). -/
def State.ipPair (s : State) (u : Nat) (d : Int) (slot : Nat) : State :=
  let p := P.STP (u / 2)
  let s := s.put64 p F.IP_LAST_LO F.IP_LAST_HI (unsx 64 d) (u % 2)
  let s := if d = 0 then s.sat p F.IP_TIE_CNT 1 (u % 2) else s
  let s := s.modIp u (fun q => q.add d)
  if s.ipHem u then s.note RN.PAIR slot u d else s

/-- Discard starts of an unsigned unit that have waited longer than the span at stamp `x` (R131), or make the results of
signed starts whose later candidate can no longer come (R132). -/
def State.ipExpire (s : State) (u x : Nat) : State :=
  let span := s.ipSpan u
  let late := (s.ip u).starts.filter (fun e => !withinSpan span (x - e.1))
  if late.isEmpty then s
  else
    let s := s.modIp u (fun q => { q with starts := q.starts.filter (fun e => withinSpan span (x - e.1)) })
    s.each late (fun s e =>
      if s.ipUse u F.IP_CFG_MODE = 0 then s.unpaired u 1
      else match e.2 with
        | some b => if withinSpan span (e.1 - b) then s.ipPair u ((b : Int) - e.1) (e.1 / 64) else s.unpaired u 1
        | none => s.unpaired u 1)

/-- A start edge at stamp `x` (R131, R132). -/
def State.ipStart (s : State) (u x : Nat) : State :=
  if s.ipUse u F.IP_CFG_MODE = 0 then
    let s := if (s.ip u).starts.isEmpty then s else s.unpaired u 1
    s.modIp u (fun q => { q with starts := [(x, none)] })
  else s.modIp u (fun q => { q with starts := q.starts ++ [(x, q.lastStop)] })

/-- A stop edge at stamp `x` (R131, R132): in SIGNED mode the nearer of the two candidates, an exact tie to the later. -/
def State.ipStop (s : State) (u x : Nat) : State :=
  if s.ipUse u F.IP_CFG_MODE = 0 then
    match (s.ip u).starts with
    | e :: _ => (s.modIp u (fun q => { q with starts := [] })).ipPair u ((x : Int) - e.1) (x / 64)
    | [] =>
      let s := s.sat (P.STP (u / 2)) F.IP_ORDER_SKIP_CNT 1 (u % 2)
      if s.ipHem u then s.note RN.SKIP (x / 64) u else s
  else
    let es := (s.ip u).starts
    let span := s.ipSpan u
    let s := s.modIp u (fun q => { q with starts := [], lastStop := some x })
    s.each es (fun s e =>
      match e.2 with
      | some b => if withinSpan span (e.1 - b) ∧ e.1 - b < x - e.1 then s.ipPair u ((b : Int) - e.1) (x / 64)
        else s.ipPair u ((x : Int) - e.1) (x / 64)
      | none => s.ipPair u ((x : Int) - e.1) (x / 64))

/-- A unit takes the edges stamped at one instant, each a global channel and its slope: starts first (R131), except that with
one source for both each edge closes the interval opened before it (R130). -/
def State.ipEdges (s : State) (u x : Nat) (es : List (Nat × Bool)) : State :=
  if s.ipUse u F.IP_CFG_EN = 0 ∨ !s.enabled (P.STP (u / 2)) then s
  else
    let a := es.contains (s.ipUse u F.IP_CFG_START_CH, s.ipUse u F.IP_CFG_START_SLOPE == 0)
    let b := es.contains (s.ipUse u F.IP_CFG_STOP_CH, s.ipUse u F.IP_CFG_STOP_SLOPE == 0)
    let same := s.ipUse u F.IP_CFG_START_CH == s.ipUse u F.IP_CFG_STOP_CH &&
      s.ipUse u F.IP_CFG_START_SLOPE == s.ipUse u F.IP_CFG_STOP_SLOPE
    if !a && !b then s
    else
      let s := s.ipExpire u x
      let s := if same then
          let s := if (s.ip u).starts.isEmpty then s else s.ipStop u x
          s.ipStart u x
        else
          let s := if a then s.ipStart u x else s
          if b then s.ipStop u x else s
      s.ipShow u

/-- IP_SPAN_EXPIRY (R131, R132). -/
def execIpSpanExpiry (t : Nat) (u : Fin 16) (s : State) : Res :=
  let s := s.at t
  .next (if s.ipUse u F.IP_CFG_EN = 1 ∧ s.enabled (P.STP (u / 2)) then (s.ipExpire u (t * 64)).ipShow u else s)

/-- STP_IP_SNAP (R133): the running statistics are copied into the snapshot and, with SNAP_CLR, restart in the same cycle. -/
def execStpIpSnap (g : Fin 8) (value : Word) (s : State) : Res :=
  let v := value.toNat
  let p := P.STP g
  .next (s.each [0, 1] (fun s k =>
    if !bitOf v k then s
    else
      let u := 2 * g.val + k
      let q := s.ip u
      let s := s.put p F.IP_CNT q.cnt k
      let s := s.put64 p F.IP_MIN_LO F.IP_MIN_HI (unsx 64 q.min) k
      let s := s.put64 p F.IP_MAX_LO F.IP_MAX_HI (unsx 64 q.max) k
      let s := s.put64 p F.IP_SUM_LO F.IP_SUM_HI (unsx 64 q.sum) k
      let s := s.put p F.IP_SUMSQ0 q.sumSq k
      let s := s.put p F.IP_SUMSQ1 (q.sumSq / 2 ^ 32) k
      let s := s.put p F.IP_SUMSQ2 (q.sumSq / 2 ^ 64) k
      let s := if bitOf v 2 then
          s.modIp u (fun q => { q with cnt := 0, min := 0, max := 0, sum := 0, sumSq := 0, ovfl := false })
        else s
      s.ipShow u))

/-! ### Frequency units -/

/-- Ticks of a unit's gate (FU_GATE × 1,000). -/
def State.gateLen (s : State) (u : Nat) : Nat := s.use P.FRQ F.FU_GATE u * 1000

/-- First tick at or after `k` whose coarse count is a multiple of `len`; the wrap is one (R134). -/
def nextAligned (k len : Nat) : Nat :=
  let c := k % 2 ^ 48
  k - c + Nat.min (2 ^ 48) ((c + len - 1) / len * len)

/-- Start a gate at or after tick `k` with the settings in force (R134, R140): it ends at its length or at the coarse wrap,
whichever is first. -/
def State.gateStart (s : State) (u k : Nat) : State :=
  let cfg := s.useReg P.FRQ (F.FU_CFG.at u)
  let len := s.gateLen u
  if !s.enabled P.FRQ ∨ !bitOf cfg 31 ∨ len = 0 then s.modFu u (fun q => { q with gate := none })
  else
    let start := if bitOf cfg 29 then nextAligned k len else k
    let wrapAt := (start / 2 ^ 48 + 1) * 2 ^ 48
    let cut := decide (wrapAt < start + len)
    let flags := (if cut then 0x60 else 0) + (if s.groupValid (bits cfg 24 17 / 32) then 0 else 4)
    let k : FuGate :=
      { start := start, finish := if cut then wrapAt else start + len, cfg := cfg, n := 0, s0 := 0, sumY := 0,
        sumIY := 0, flags := flags }
    s.modFu u (fun q => { q with gate := some k })

/-- Quotient rounded to nearest. -/
def roundDiv (a b : Int) : Int := if b = 0 then 0 else (2 * a + b) / (2 * b)

/-- The result of a gate (R135, R136), given a free value for the ANCHOR of a gate of fewer than two stamps, to which the
formula assigns none (log entry 3). -/
def FuGate.result (k : FuGate) (minStamps : Nat) (open_ : Nat) : FuResult :=
  let n := k.n
  let few := decide (n < Nat.max 2 minStamps)
  let num : Int := 12 * (k.sumIY : Int) - 6 * ((n : Int) - 1) * k.sumY
  let den : Int := (n : Int) * ((n : Int) * n - 1)
  let epc : Int := (bits k.cfg 16 0 : Nat)
  let period := if few then 0 else (roundDiv (num * epc * 2 ^ 16) den).toNat
  let freq := if few then 0 else (roundDiv (2 ^ 32 * 1024000000000 * den) (num * epc)).toNat
  let anchor := if n < 2 then open_
    else ((k.s0 * 2 ^ 7 : Nat) + roundDiv ((2 * (k.sumY : Int) * den - num * ((n : Int) - 1) * n) * 2 ^ 7)
      (2 * n * den)).toNat % 2 ^ 64
  let ovfl := decide (2 ^ 64 ≤ period) || decide (2 ^ 64 ≤ freq)
  let fl := putBit (putBit k.flags 1 few) 4 ovfl
  let valid := !few && !bitOf fl 2 && !ovfl
  { finish := k.finish, flags := putBit fl 0 valid, n := n, period := satU 64 period, freq := satU 64 freq,
    anchor := anchor, cfg := k.cfg }

/-- End a unit's gate, and begin the next at its boundary with any new settings (R134, R140). -/
def State.gateEnd (s : State) (u : Nat) : State :=
  match (s.fu u).gate with
  | none => s
  | some k =>
    let (x, s) := s.takeFree
    let r := k.result (s.use P.FRQ F.FRQ_CTL_MIN_STAMPS) x.toNat
    (s.modFu u (fun q => { q with due := q.due ++ [r] })).gateStart u k.finish

/-- End every gate of a unit whose end tick is not after `k`; `fuel` bounds their number. -/
def State.gatesTo (s : State) (u k : Nat) : Nat → State
  | 0 => s
  | fuel + 1 =>
    match (s.fu u).gate with
    | some g => if g.finish ≤ k then (s.gateEnd u).gatesTo u k fuel else s
    | none => s

/-- Gates that can end between a unit's present gate and tick `k`. -/
def State.gatesDue (s : State) (u k : Nat) : Nat :=
  match (s.fu u).gate with
  | some g => if k < g.finish then 0 else (k - g.finish) / Nat.max 1 (s.gateLen u) + 2
  | none => 0

/-- A unit takes a stamp of its channel and slope: a stamp on a boundary belongs to the gate that begins there (R134). -/
def State.fuStamp (s : State) (u x : Nat) (merged : Bool) : State :=
  let k := x / 512
  let s := s.gatesTo u k (s.gatesDue u k)
  s.modFu u (fun q => { q with gate := q.gate.map (fun g =>
    if k < g.start then g
    else
      let s0 := if g.n = 0 then x else g.s0
      let y := x - s0
      { g with
               n := g.n + 1, s0 := s0, sumY := g.sumY + y, sumIY := g.sumIY + g.n * y,
               flags := if merged then putBit g.flags 3 true else g.flags }) })

/-- The frequency units whose gate takes a channel and slope. -/
def State.fusOf (s : State) (ch : Nat) (rising : Bool) : List Nat :=
  (List.range 32).filter (fun u => match (s.fu u).gate with
    | some g => bits g.cfg 24 17 == ch && (bits g.cfg 28 28 == 0) == rising
    | none => false)

/-- FREQ_GATE_END (R134). -/
def execFreqGateEnd (t : Nat) (u : Fin 32) (s : State) : Res :=
  let s := s.at t
  .next (s.gatesTo u (t / 8) 1)

/-- FREQ_RESULT (R137): the oldest result not yet delivered becomes the unit's latest, and goes to FRQ_NEW, the hem and stream
20; the ladder reads it from there (R194). -/
def execFreqResult (t : Nat) (u : Fin 32) (s : State) : Res :=
  let s := s.at t
  match (s.fu u).due with
  | [] => .next s
  | r :: rest =>
    let s := s.modFu u (fun q => { q with due := rest, results := (r :: q.results).take 64 })
    let valid := bitOf r.flags 0
    let s := s.put P.FRQ F.FRQ_NEW (putBit (s.get P.FRQ F.FRQ_NEW) u true)
    let s := s.put P.FRQ F.FRQ_VALID (putBit (s.get P.FRQ F.FRQ_VALID) u valid)
    let s := s.pulse P.FRQ 0
    let s := if valid then s else (s.sat P.FRQ F.FRQ_INVALID_CNT).pulse P.FRQ 1
    let s := if bitOf r.flags 4 then s.pulse P.FRQ 2 else s
    let s := if bitOf r.cfg 27 then s.note RN.GATE (8 * r.finish) u (r.freq : Nat) (r.anchor * 2 + b2n valid) else s
    let ws := [w64 (u.val * 2 ^ 48 + r.finish % 2 ^ 48), w64 (r.flags * 2 ^ 56 + r.n % 2 ^ 40), w64 r.period, w64 r.freq,
      w64 r.anchor]
    .next (if bitOf r.cfg 30 then s.appendItem 20 { slot := r.finish * 8, words := ws, ply := none } else s)

/-- FRQ_SNAP_SEL (R140): the unit's latest result, all zero before its first. -/
def execFrqSnapSel (value : Word) (s : State) : Res :=
  let u := bits value.toNat 4 0
  let p := P.FRQ
  let r := (s.fu u).results.headD
    { finish := 0, flags := 0, n := 0, period := 0, freq := 0, anchor := 0, cfg := 0 }
  let s := s.put p F.FRQ_RES_UNIT u
  let s := s.put64 p F.FRQ_RES_END_LO F.FRQ_RES_END_HI (r.finish % 2 ^ 48)
  let s := s.put64 p F.FRQ_RES_N_LO F.FRQ_RES_N_HI (r.n % 2 ^ 40)
  let s := s.put64 p F.FRQ_RES_PERIOD_LO F.FRQ_RES_PERIOD_HI r.period
  let s := s.put64 p F.FRQ_RES_FREQ_LO F.FRQ_RES_FREQ_HI r.freq
  let s := s.put64 p F.FRQ_RES_ANCHOR_LO F.FRQ_RES_ANCHOR_HI r.anchor
  .next (s.put p F.FRQ_RES_FLAGS r.flags)

/-- FRQ_NEW_CLEAR (R140): W1C. -/
def execFrqNewClear (value : Word) (s : State) : Res :=
  let n := s.get P.FRQ F.FRQ_NEW
  .next (s.put P.FRQ F.FRQ_NEW (n &&& (0xFFFFFFFF ^^^ value.toNat)))

/-- FRQ_CLR (R140). -/
def execFrqClr (value : Word) (s : State) : Res :=
  .next (if bitOf value.toNat 0 then s.put P.FRQ F.FRQ_INVALID_CNT 0 else s)

/-- What a copied group of FRQ does (R134, R140): a unit turned off abandons its gate at once; one turned on starts at the ply
start `t`; a gate in progress keeps its settings. -/
def State.fuSettings (s : State) (t u : Nat) : State :=
  if !s.useB P.FRQ F.FU_CFG_EN u ∨ !s.enabled P.FRQ then s.modFu u (fun q => { q with gate := none })
  else match (s.fu u).gate with
    | some _ => s
    | none => s.gateStart u (t / 8)

/-! ### Stamps -/

/-- Slope selection code of a channel: 0 NONE, 1 RISE, 2 FALL, 3 BOTH (R122). -/
def State.slopeSel (s : State) (g c : Nat) : Nat :=
  bits (s.useReg (P.STP g) (if c < 16 then F.STP_SLOPE_LO.off else F.STP_SLOPE_HI.off)) (2 * (c % 16) + 1) (2 * (c % 16))

/-- Whether the group makes stamps of a channel (R122, R129). -/
def State.stamps (s : State) (g c : Nat) : Bool :=
  s.enabled (P.STP g) && s.digMode g != M.OFF && s.useB (P.DIG g) F.DIG_CH_CFG_EN c && s.groupValid g

/-- Words in a group's merge buffer (R124): taken by the merge, and waiting for the stream. -/
def State.mergeWords (s : State) (g : Nat) : Nat := (s.stp g).taken.length + (s.stream (8 + g)).stagingBytes / 8

/-- STP status: buffer level, BUF_HIGH and the drop spans (R138). -/
def State.stpShow (s : State) (g : Nat) : State :=
  let p := P.STP g
  let n := s.mergeWords g
  let open_ := ((s.stp g).spans.filter (fun d => d.window.isNone)).foldl (fun m d => putBit m d.ch true) 0
  let s := (s.put p F.STP_BUF_LEVEL n).putB p F.STP_STAT_BUF_HIGH (decide (98304 < n))
  let s := (s.put p F.STP_DROPPING open_).putB p F.STP_STAT_DROPPING (open_ != 0)
  (s.level p 0 (open_ != 0)).level p 2 (decide (98304 < n))

/-- Head stamp of each non-empty queue with the time, in fifths of a slot, at which the merge can take it: a channel drains at
625 M stamps/s and the group at 5 G stamps/s (R124). -/
def StpState.heads (q : StpState) : List (Nat × Stamp) :=
  (List.range 32).filterMap (fun c => (q.queued.find? (fun x => x.ch == c)).map (fun x =>
    (Nat.max q.free (Nat.max (x.at_ * 5 / 64) (match q.served.lookup c with | some l => l + 128 | none => 0)), x)))

/-- The queue served next: the earliest that can be, the one after the last served first among equals (round robin). -/
def StpState.nextHead (q : StpState) : Option (Nat × Stamp) :=
  q.heads.foldl (fun m h => match m with
    | none => some h
    | some b =>
      let turn (x : Nat) : Nat := (x + 31 - q.rr) % 32
      if h.1 < b.1 ∨ (h.1 = b.1 ∧ turn h.2.ch < turn b.2.ch) then some h else some b) none

/-- Drain the queues of a group into the merge up to a time in fifths of a slot; `fuel` is the number of stamps queued and
`room` the words left in the merge buffer. -/
def StpState.drain (q : StpState) (now : Nat) : Nat → Nat → StpState
  | fuel + 1, room + 1 =>
    match q.nextHead with
    | some (at_, x) =>
      if now < at_ then q
      else
        StpState.drain { q with
          queued := q.queued.erase x, taken := q.taken ++ [x], free := at_ + 16, rr := x.ch,
          served := (x.ch, at_) :: q.served.filter (fun e => e.1 != x.ch) } now fuel room
    | none => q
  | _, _ => q

/-- Drain a group up to a slot. -/
def State.stpDrain (s : State) (g slot : Nat) : State :=
  let room := 131072 - s.mergeWords g
  s.modStp g (fun q => q.drain (slot * 5) q.queued.length room)

/-- A stamp of a selected slope enters its channel's queue, or is dropped (R124, R127); the first accepted after a wrap carries
WRAP (R128). -/
def State.queueStamp (s : State) (g c x : Nat) (rising : Bool) : State :=
  let p := P.STP g
  let s := s.stpDrain g (x / 64)
  let s := s.seamAdd (8 + g) (x / 64) 1 0 ((coarseOf (x / 64) : Nat) : Int)
  let q := s.stp g
  if (q.queued.filter (fun y => y.ch == c)).length < 64 then
    let w := s.windowOf g (x / 64)
    let s := s.wrap64 p F.STP_STAMP_CNT_LO F.STP_STAMP_CNT_HI
    let s := s.modStp g (fun q => { q with
      queued := q.queued ++ [{ ch := c, at_ := x, rising := rising, wrapped := bitOf q.wrapDue c, merged := false }],
      wrapDue := putBit q.wrapDue c false,
      spans := q.spans.map (fun d => if d.ch = c ∧ d.window.isNone then { d with window := some w } else d) })
    (s.stpDrain g (x / 64)).stpShow g
  else
    let s := (s.sat p F.STP_DROP_CNT).put p F.STP_DROP_MASK (putBit (s.get p F.STP_DROP_MASK) c true)
    let k := x / 512
    let had := q.spans.any (fun d => d.ch == c && d.window.isNone)
    let s := s.modStp g (fun q => { q with
      spans := if had then q.spans.map (fun d =>
          if d.ch = c ∧ d.window.isNone then { d with last := k, count := satU 32 (d.count + 1) } else d)
        else q.spans ++ [{ ch := c, first := k, last := k, count := 1, window := none }] })
    let s := if s.recording (8 + g) then s.note RN.DROPPED (x / 64) (8 + g) else s
    let s := if s.recording (8 + g) && !had then s.note RN.DROP_SPAN (x / 64) (8 + g) else s
    (s.seamSkip (8 + g) (x / 64)).stpShow g

/-- Fold an edge into the latest stamp of its channel (R123). -/
def State.mergeEdge (s : State) (g c x : Nat) : State :=
  let p := P.STP g
  let (last, up) := ((s.stp g).latest.lookup c).getD (0, false)
  let mark (y : Stamp) : Stamp := if y.ch = c ∧ y.at_ = last then { y with merged := true } else y
  let s := s.modStp g (fun q => { q with queued := q.queued.map mark, taken := q.taken.map mark })
  let s := s.each (s.fusOf (32 * g + c) up) (fun s u => s.modFu u (fun q => { q with
    gate := q.gate.map (fun k => if k.start * 512 ≤ last then { k with flags := putBit k.flags 3 true } else k) }))
  let s := (s.sat p F.STP_MERGE_CNT).pulse p 1
  s.seamAdd (8 + g) (x / 64) 0 1 0

/-- Stamp or merge one edge (R119, R123): answers the stamp that was made, as global channel and slope after INVERT. -/
def State.stampOne (s : State) (x : Nat) (ch : Nat) (rising : Bool) : State × Option (Nat × Bool) :=
  let g := ch / 32
  let c := ch % 32
  if !s.stamps g c then (s, none)
  else
    let up := rising != s.useB (P.DIG g) F.DIG_CH_CFG_INVERT c
    match (s.stp g).latest.lookup c with
    | some (l, _) => if x < l + 82 then (s.mergeEdge g c x, none)
      else (s.modStp g (fun q => { q with latest := (c, x, up) :: q.latest.filter (fun e => e.1 != c) }), some (ch, up))
    | none => (s.modStp g (fun q => { q with latest := (c, x, up) :: q.latest }), some (ch, up))

/-- Stamp or merge the edges of one instant. -/
def State.stampAll (s : State) (x : Nat) : List (Fin 256 × Bool) → State × List (Nat × Bool)
  | [] => (s, [])
  | e :: r =>
    let (s, m) := s.stampOne x e.1.val e.2
    let (s, ms) := s.stampAll x r
    (s, m.toList ++ ms)

/-- STAMP_EDGE (R119 to R127): the edges that cross at one instant, `stamp` steps after the start of the coarse counter, each a
global channel and whether its comparator rises before INVERT. Stamps go to the pairing units, the frequency units, the loops
that track them, and the channel queues. -/
def execStampEdge (stamp : Nat) (edges : List (Fin 256 × Bool)) (s : State) : Res :=
  let s := s.at (stamp / 64)
  let (s, es) := s.stampAll stamp edges
  let s := s.each (List.range 16) (fun s u => s.ipEdges u stamp es)
  let s := s.each es (fun s e => s.each (s.fusOf e.1 e.2) (fun s u => s.fuStamp u stamp false))
  let s := s.each es (fun s e => s.each (List.range 4) (fun s n =>
    if s.loopSrc n = S.DIGITAL ∧ s.use (P.LTL n) F.LTL_SRC_CFG_CH_A = e.1 then s.loopStamp n (stamp / 64) (!e.2) else s))
  .next (s.each es (fun s e =>
    let sel := s.slopeSel (e.1 / 32) (e.1 % 32)
    if (e.2 ∧ bitOf sel 0) ∨ (!e.2 ∧ bitOf sel 1) then s.queueStamp (e.1 / 32) (e.1 % 32) stamp e.2 else s))

/-! ### The merge -/

/-- The stamp word (table `Stamp word`). -/
def Stamp.word (x : Stamp) : Word64 :=
  w64 (b2n x.rising * 2 ^ 63 + b2n x.wrapped * 2 ^ 62 + b2n x.merged * 2 ^ 61 + x.at_ % 2 ^ 57)

/-- The three parameter words of a drop span (table `DROP parameter words`). -/
def DropSpan.params (d : DropSpan) : List Nat := [d.first % 2 ^ 48, d.last % 2 ^ 48, d.count]

/-- Runs of at most 255 stamps (R126); `fuel` bounds their number. -/
def runsOf (ch : Nat) : Nat → List Stamp → List (List Word64)
  | 0, _ => []
  | fuel + 1, xs =>
    if xs.isEmpty then []
    else (w64 (ch * 2 ^ 56 + (xs.take 255).length * 2 ^ 40) :: (xs.take 255).map Stamp.word) :: runsOf ch fuel (xs.drop 255)

/-- The window entries of a group for the window that starts at slot `w` (R125): group entries, then for each channel its DROP
entries and its runs. -/
def StpState.windowItems (q : StpState) (g w len : Nat) (keep : Nat → Bool) : List (List Word64) :=
  let inW (slot : Nat) : Bool := decide (w ≤ slot) && decide (slot < w + len)
  (q.entries.filter (fun e => e.1 == w)).map Prod.snd ++
  (List.range 32).flatMap (fun c =>
    let ds := q.spans.filter (fun d => d.ch == c && d.window == some w)
    let xs := q.taken.filter (fun x => x.ch == c && inW (x.at_ / 64) && keep (x.at_ / 64))
    ds.map (fun d => w64 ((32 * g + c) * 2 ^ 56 + K.DROP * 2 ^ 48 + 3 * 2 ^ 40) :: d.params.map w64) ++
    runsOf (32 * g + c) xs.length xs)

/-- Write a window of a group, with its DROP entries copied to stream 18 (R125 to R127). -/
def State.writeWindow (s : State) (g w : Nat) : State :=
  let p := P.STP g
  let len := 8 * 2 ^ s.use p F.STP_CTL_WIN_EXP
  let q := s.stp g
  let items := q.windowItems g w len s.inRecord
  let ds := q.spans.filter (fun d => d.window == some w)
  let s := s.modStp g (fun q => { q with
    entries := q.entries.filter (fun e => e.1 != w), spans := q.spans.filter (fun d => d.window != some w),
    taken := q.taken.filter (fun x => !(decide (w ≤ x.at_ / 64) && decide (x.at_ / 64 < w + len))) })
  let s := if s.useB p F.STP_CTL_STREAM_EN then
      s.each items (fun s ws => s.appendItem (8 + g) { slot := w, words := ws, ply := none })
    else s
  if s.useB p F.STP_CTL_DROP_MARK then
    s.each ds (fun s d => s.marker K.DROP (8 + g) (d.first * 8) ((32 * g + d.ch) :: d.params))
  else s

/-- Start slots of the windows a group has something for, ascending. -/
def State.windowStarts (s : State) (g : Nat) : List Nat :=
  let q := s.stp g
  let all := q.entries.map Prod.fst ++ q.spans.filterMap (fun d => d.window) ++
    (q.taken ++ q.queued).map (fun x => s.windowOf g (x.at_ / 64))
  all.mergeSort.eraseDups

/-- Close the windows of a group that end at or before a slot, while their stamps have all been taken (R125). -/
def State.closeWindows (s : State) (g upTo : Nat) : State :=
  let len := 8 * 2 ^ s.use (P.STP g) F.STP_CTL_WIN_EXP
  let due := (s.windowStarts g).filter (fun w => decide (w + len ≤ upTo))
  let blocked := (s.stp g).queued.map (fun x => s.windowOf g (x.at_ / 64))
  let due := due.takeWhile (fun w => blocked.all (fun b => decide (w < b)))
  (s.each due (fun s w => s.writeWindow g w)).stpShow g

/-- MERGE_WINDOW_CLOSE (R125): windows whose end is passed by 64 ticks. -/
def execMergeWindowClose (t : Nat) (g : Fin 8) (s : State) : Res :=
  let s := s.at t
  .next (if s.enabled (P.STP g) then (s.stpDrain g t).closeWindows g (t - 512) else s)

/-- The stream stops at a slot (R127): open spans close in the last window, and every window up to it is written. -/
def State.finishStamps (s : State) (g slot : Nat) : State :=
  let s := s.modStp g (fun q => { q with taken := q.taken ++ q.queued, queued := [] })
  let w := s.windowOf g slot
  let s := s.modStp g (fun q => { q with spans := q.spans.map (fun d => if d.window.isNone then { d with window := some w } else d) })
  (s.each (s.windowStarts g) (fun s w => s.writeWindow g w)).stpShow g

/-! ### Tables and wrap -/

/-- TABLE_REBUILD (R121): a rebuild begins, or its table is ready and replaces the old one at the next ply start. With
CAL_PERIOD 0 tables are built at start-up only. -/
def execTableRebuild (t : Nat) (g : Fin 8) (ready : Bool) (s : State) : Res :=
  let s := s.at t
  let p := P.STP g
  if ready then
    .next (if s.getB p F.STP_STAT_CAL_BUSY then (s.putB p F.STP_STAT_CAL_BUSY false).modStp g (fun q => { q with tableAt := nextPly t })
      else s)
  else .next (if s.enabled p ∧ s.use p F.STP_CTL_CAL_PERIOD ≠ 0 then s.putB p F.STP_STAT_CAL_BUSY true else s)

/-- COARSE_WRAP (R128, R134): at a slot whose coarse count is 0 after the first: WRAP entries and markers, every channel owes a
WRAP bit, gates in progress end, the event WRAP of each stamping page. -/
def execCoarseWrap (t : Nat) (s : State) : Res :=
  let s := s.at t
  if t = 0 ∨ t % 2 ^ 51 ≠ 0 then .next s
  else
    let s := s.each (List.range 8) (fun s g =>
      let s := s.modStp g (fun q => { q with wrapDue := 0xFFFFFFFF })
      s.pulse (P.STP g) 3)
    let s := s.marker K.WRAP 0xFF 0 []
    let s := s.each (s.enabledStreams.filter (fun i => i != 18)) (fun s i =>
      if (8 ≤ i ∧ i < 16) ∨ i = 19 then s.inband i K.WRAP 0xFF t [] else s.inband i K.WRAP 0xFF 0 [])
    .next (s.each (List.range 32) (fun s u => s.gatesTo u (t / 8) (s.gatesDue u (t / 8))))

/-! ### Clears, checks and copies -/

/-- STP_CLR (R138): the counters, STP_DROP_MASK and the three live counters of both units. -/
def execStpClr (g : Fin 8) (value : Word) (s : State) : Res :=
  .next (if bitOf value.toNat 0 then s.clearAll (P.STP g) [(F.STP_DROP_MASK, 1), (F.STP_DROP_CNT, 1), (F.STP_MERGE_CNT, 1),
    (F.STP_STAMP_CNT_LO, 1), (F.STP_STAMP_CNT_HI, 1), (F.IP_ORDER_SKIP_CNT, 2), (F.IP_TIE_CNT, 2), (F.IP_UNPAIRED_CNT, 2)] else s)

/-- Agreement check of an STP group (R138). -/
def checkSTP (v : View) (p g : Nat) : Nat :=
  if g = 0 then firstCause [(decide (12 < v.f p F.STP_CTL_WIN_EXP), E.RANGE)]
  else
    let k := g - 1
    firstCause [(v.f p F.IP_CFG_MODE k == 1 && v.f p F.IP_CFG_START_CH k == v.f p F.IP_CFG_STOP_CH k &&
      v.f p F.IP_CFG_START_SLOPE k == v.f p F.IP_CFG_STOP_SLOPE k, E.RANGE)]

/-- Agreement check of an FRQ group (R140, R141). -/
def checkFRQ (v : View) (g : Nat) : Nat :=
  if g = 0 then 0
  else
    let us := [2 * (g - 1), 2 * (g - 1) + 1]
    firstCause (us.flatMap (fun u =>
      let n := v P.FRQ (F.FU_GATE.at u)
      let e := v.f P.FRQ F.FU_CFG_EPC u
      [(n == 0, E.ZERO_GATE), (n == 1 || decide (2000000000 < n), E.RANGE), (e == 0 || decide (65536 < e), E.RANGE)]))

/-- PAGE_STAT.STATE of an STP page: 0x1 while the group stamps (R138). -/
def State.stpState (s : State) (g : Nat) : State :=
  s.setBlockState (P.STP g) (b2n (s.enabled (P.STP g) && s.digMode g != M.OFF))

end Sys2Proof.Machine
end

