-- ==== Sys2Proof/Machine/Accum.lean ====
section
/-!
DEFINITION. What consumes conversion results (chapter 7): window comparators, accumulators, pairs, harmonic correlators, the
interval timers, and the records they write to streams 16 and 17 (R160 to R171), merged under R257.
-/
namespace Sys2Proof.Machine

/-! ### Sines and cosines -/

/-- 2^100 × π, and terms of the cosine series in units of 2^-100. -/
def piFix : Nat := 0x3243f6a8885a308d313198a2e0

/-- Sum of the cosine series from one of its terms on: `x2` is the square of the argument. -/
def cosSeries (x2 : Nat) : Nat → Nat → Bool → Nat → Int
  | 0, _, _, _ => 0
  | fuel + 1, t, neg, i =>
    (if neg then -(t : Int) else t) + cosSeries x2 fuel (t * x2 / 2 ^ 100 / ((2 * i + 1) * (2 * i + 2))) (!neg) (i + 1)

/-- round(2^17 × cos(2π × r / 2^14)) for r from 0 to 4096. -/
def cosQuarter (r : Nat) : Int :=
  let x := piFix * r / 8192
  fdiv (cosSeries (x * x / 2 ^ 100) 20 (2 ^ 100) false 0 * 2 ^ 18 + 2 ^ 100) (2 ^ 101)

/-- round(2^17 × cos(2π × idx / 2^14)) (R167). -/
def cosTable (idx : Nat) : Int :=
  let r := idx % 4096
  match idx / 4096 % 4 with
  | 0 => cosQuarter r
  | 1 => -cosQuarter (4096 - r)
  | 2 => -cosQuarter r
  | _ => cosQuarter (4096 - r)

/-- round(2^17 × sin(2π × idx / 2^14)). -/
def sinTable (idx : Nat) : Int := cosTable (idx + 3 * 4096)

/-! ### Window comparators -/

def State.win (s : State) (w : Nat) : WinState := s.wins.getD w { out := false, run := 0, log := [] }

/-- Set a window's state at an instant, with WIN_STAT and its event (R160, R161). -/
def State.setWin (s : State) (w slot : Nat) (out : Bool) : State :=
  let s : State := { s with wins := lmod s.wins w (fun q => { q with out := out, run := 0, log := ((slot, out) :: q.log).take 64 }) }
  let v := s.get P.WIN F.WIN_STAT_OUT
  (s.put P.WIN F.WIN_STAT_OUT (putBit v w out)).level P.WIN w out

/-- A window takes a result of its converter (R158, R160). -/
def State.windowTakes (s : State) (w : Nat) (r : AdcRes) : State :=
  let q := s.win w
  let lo := sx 18 (s.useReg P.WIN (F.WIN_LO.at w))
  let hi := sx 18 (s.useReg P.WIN (F.WIN_HI.at w))
  let hyst : Int := s.use P.WIN F.WIN_CFG_HYST w
  let outside := r.clip || decide (r.code < lo) || decide (hi < r.code)
  let back := !r.clip && decide (lo + hyst ≤ r.code) && decide (r.code ≤ hi - hyst)
  let hit := if q.out then back else outside
  let run := if hit then q.run + 1 else 0
  if hit ∧ Nat.max 1 (s.use P.WIN F.WIN_CFG_QUAL w) ≤ run then s.setWin w r.inst (!q.out)
  else { s with wins := lmod s.wins w (fun q => { q with run := run }) }

/-- Every window of a converter takes a result. -/
def State.windowsTake (s : State) (n : Nat) (r : AdcRes) : State :=
  if !s.enabled P.WIN then s
  else s.each ((List.range 16).filter (fun w => s.useB P.WIN F.WIN_CFG_EN w && s.use P.WIN F.WIN_CFG_CONV w == n))
    (fun s w => s.windowTakes w r)

/-- A copied change to a window keeps its state and restarts its counts; EN = 0 makes OUT read 0 (R160, R176). -/
def State.winCopied (s : State) (w slot : Nat) : State :=
  let s : State := { s with wins := lmod s.wins w (fun q => { q with run := 0 }) }
  let s := if !s.useB P.WIN F.WIN_CFG_EN w ∧ (s.win w).out then s.setWin w slot false else s
  s.put P.WIN F.WIN_LAT_MAX (if (List.range 16).any (fun w => s.useB P.WIN F.WIN_CFG_EN w) then 1080 else 0)

/-- OUT of a window at a slot (R161). -/
def State.winTruth (s : State) (w slot : Nat) : Bool :=
  match (s.win w).log.find? (fun e => decide (e.1 ≤ slot)) with | some e => e.2 | none => false

/-! ### Sums -/

/-- A result enters a converter's sums (R164). -/
def AccSum.add (a : AccSum) (r : AdcRes) : AccSum :=
  if a.n = 2 ^ 32 - 1 then { a with flags := putBit a.flags IF.SAT true }
  else
    { a with
      n := a.n + 1, sum := a.sum + r.code, sumSq := a.sumSq + r.code.natAbs * r.code.natAbs,
      min := if a.n = 0 ∨ r.code < a.min then r.code else a.min,
      max := if a.n = 0 ∨ a.max < r.code then r.code else a.max,
      clip := a.clip + b2n r.clip, disturb := a.disturb + b2n r.disturbed, late := a.late + b2n r.late,
      flags := if r.inj then putBit a.flags IF.INJ true else a.flags }

/-- A joint result enters a pair's sums (R165). -/
def PairSum.add (a : PairSum) (x y : AdcRes) : PairSum :=
  if a.n = 2 ^ 32 - 1 then { a with flags := putBit a.flags IF.SAT true }
  else
    { a with
      n := a.n + 1, sumXY := a.sumXY + x.code * y.code, clip := a.clip + b2n (x.clip || y.clip),
      disturb := a.disturb + b2n (x.disturbed || y.disturbed), late := a.late + b2n (x.late || y.late),
      flags := if x.inj then putBit a.flags IF.INJ true else a.flags }

/-- Table index of order `h` at an angle in pips with a span of `m` cycles (R167). -/
def harIndex (h m pips : Nat) : Nat :=
  let num := pips / 2 ^ 24 % m * 2 ^ 24 + pips % 2 ^ 24
  h * num % (m * 2 ^ 24) / (m * 2 ^ 10)

/-- A result enters a converter's correlators at an angle (R167). -/
def HarSum.add (a : HarSum) (pips : Nat) (x : Int) : HarSum :=
  let m := Nat.max 1 (bits a.cfg 19 16)
  let re := (a.orders.zip a.re).map (fun e => e.2 + x * cosTable (harIndex e.1 m pips))
  let im := (a.orders.zip a.im).map (fun e => e.2 + x * sinTable (harIndex e.1 m pips))
  let beyond := re.any (fun v => satS 64 v != v) || im.any (fun v => satS 64 v != v)
  { a with
    re := re.map (satS 64), im := im.map (satS 64), n := satU 32 (a.n + 1),
    flags := if beyond then putBit a.flags IF.SAT true else a.flags }

/-- Orders of a profile that are set, ascending (R169). -/
def State.profileOrders (s : State) (p : Nat) : List Nat :=
  (List.range 128).filter (fun h => bitOf (s.useReg P.HAR (F.HAR_PROF.at (4 * p + h / 32))) (h % 32))

/-- Correlators of a converter as its settings have them now (R169, R175). -/
def State.harFresh (s : State) (c : Nat) : HarSum :=
  let cfg := s.useReg P.HAR (F.HAR_CH_CFG.at c)
  let os := if s.enabled P.HAR then (s.profileOrders (bits cfg 29 28)).take (bits cfg 6 0) else []
  { cfg := cfg, orders := os, re := os.map (fun _ => 0), im := os.map (fun _ => 0), n := 0, flags := 0 }

/-! ### Assignment -/

/-- Nibble of a converter in ACC_CONV_CFG: EN, REC_EN, IV (R174). -/
def State.accNibble (s : State) (c : Nat) : Nat := s.useReg P.ACC (F.ACC_CONV_CFG.off + 4 * (c / 8)) / 2 ^ (4 * (c % 8)) % 16
def State.accEn (s : State) (c : Nat) : Bool := bitOf (s.accNibble c) 3
def State.accRec (s : State) (c : Nat) : Bool := bitOf (s.accNibble c) 2
def State.accIv (s : State) (c : Nat) : Nat := s.accNibble c % 4

/-- Byte of a converter in ADC_CONV_CFG: EN, INJ_ACC, POWER, SET (R172). -/
def State.convByte (s : State) (c : Nat) : Nat := s.useReg P.ADC (F.ADC_CONV_CFG.off + 4 * (c / 4)) / 2 ^ (8 * (c % 4)) % 256
def State.convEn (s : State) (c : Nat) : Bool := s.enabled P.ADC && bitOf (s.convByte c) 7
def State.injAcc (s : State) (c : Nat) : Bool := bitOf (s.convByte c) 6
def State.convNap (s : State) (c : Nat) : Bool := bits (s.convByte c) 5 4 == 1
def State.convSet (s : State) (c : Nat) : Nat := s.convByte c % 8

/-- Converters of an interval timer, and its pairs: those whose A it has (R165). -/
def State.ivConvs (s : State) (i : Nat) : List Nat := (List.range 16).filter (fun c => s.accIv c == i)
def State.ivPairs (s : State) (i : Nat) : List Nat :=
  (List.range 24).filter (fun p => s.useB P.ACC F.ACC_PAIR_CFG_EN p && s.accIv (s.use P.ACC F.ACC_PAIR_CFG_A p) == i)

/-- Whether a quad is under calibration (R157). -/
def State.quadCal (s : State) (q : Nat) : Bool := bitOf (s.get P.ADC F.ADC_CAL_STAT_QUAD) q

/-! ### Taking results -/

/-- Whether an instant lies at or beyond the end of an interval in progress (R162). -/
def State.ivPast (s : State) (v : IvState) (slot : Nat) : Bool :=
  match v.cut with
  | some c => decide (c ≤ slot)
  | none =>
    if bitOf v.cfg 30 then decide (v.target ≤ (s.loop (bits v.cfg 27 26)).pipsAt slot) else decide (v.target ≤ slot)

/-- A result enters the accumulator, the pairs and the correlators of its converter (R152, R162 to R167); one past the boundary
of the interval in progress waits for the next. -/
def State.accumulate (s : State) (c : Nat) (r : AdcRes) : State :=
  let i := s.accIv c
  match s.iv i with
  | none => s
  | some v =>
    if r.inst < v.start then s
    else if s.ivPast v r.inst then { s with accLater := s.accLater ++ [(c, r)] }
    else
      let inAcc (k : Nat) : Bool := s.accEn k && (!r.inj || s.injAcc k)
      let s := if inAcc c then { s with accs := lmod s.accs c (fun a => a.add r) } else s
      let s := s.modConv c (fun q => { q with recent := (r :: q.recent).take 4 })
      let s := s.each ((s.ivPairs i).filter (fun p =>
          s.use P.ACC F.ACC_PAIR_CFG_A p == c || s.use P.ACC F.ACC_PAIR_CFG_B p == c)) (fun s p =>
        let a := s.use P.ACC F.ACC_PAIR_CFG_A p
        let o := if a = c then s.use P.ACC F.ACC_PAIR_CFG_B p else a
        match (s.conv o).recent.find? (fun y => y.inst == r.inst && y.inj == r.inj) with
        | some y => if inAcc c ∧ inAcc o then { s with pairs := lmod s.pairs p (fun q => q.add r y) } else s
        | none => s)
      let h := s.hars.getD c HarSum.empty
      if r.inj ∨ h.orders.isEmpty then s
      else
        let l := bits h.cfg 31 30
        if s.loopRan l then { s with hars := lmod s.hars c (fun h => h.add ((s.loop l).pipsAt r.inst) r.code) }
        else { s with hars := lmod s.hars c (fun h => { h with flags := putBit h.flags IF.NO_ANGLE true }) }

/-- A result reaches its consumers (R152 to R154): windows wait behind a held result. -/
def State.deliver (s : State) (c : Nat) (r : AdcRes) : State :=
  let s := if (s.conv c).hold.isSome then s.modConv c (fun q => { q with behind := q.behind ++ [r] }) else s.windowsTake c r
  let s := if s.enabled P.ACC then s.accumulate c r else s
  s.each (List.range 4) (fun s n =>
    if s.loopSrc n = S.ANALOG ∧ s.enabled (P.LTL n) ∧ s.use (P.LTL n) F.LTL_SRC_CFG_CH_A % 16 = c
    then s.loopResult n r.inst r.code else s)

/-! ### Records -/

/-- The interval record of a converter or pair (table `Interval record`). -/
def intervalWords (kind src i : Nat) (v : IvState) (finish flags n clip disturb late mn mx sum hi128 : Nat) : List Word64 :=
  [w64 (kind * 2 ^ 56 + src * 2 ^ 50 + i * 2 ^ 48 + b2n (bitOf v.cfg 30) * 2 ^ 47 + flags), w64 (slot51 v.start),
   w64 (slot51 finish), w64 v.startAngle, w64 (clip * 2 ^ 32 + n), w64 (late * 2 ^ 32 + disturb), w64 (mx * 2 ^ 32 + mn),
   w64 sum, w64 hi128, w64 (hi128 / 2 ^ 64)]

/-- FLAGS of a record from the interval's, the source's and its counts (table `Interval flags`). -/
def flagsOf (iv own n clip disturb late : Nat) : Nat :=
  let f := iv ||| own
  let f := putBit f IF.EMPTY (n == 0)
  let f := if clip = 0 then f else putBit f IF.CLIP true
  let f := if disturb = 0 then f else putBit f IF.DISTURB true
  if late = 0 then f else putBit f IF.LATE true

/-- The record of a converter. -/
def State.convWords (s : State) (v : IvState) (i c finish : Nat) : List Word64 :=
  let a := s.accs.getD c AccSum.empty
  intervalWords 1 c i v finish (flagsOf v.flags a.flags a.n a.clip a.disturb a.late) a.n a.clip a.disturb a.late
    (unsx 18 a.min) (unsx 18 a.max) (unsx 64 a.sum) a.sumSq

/-- The record of a pair. -/
def State.pairWords (s : State) (v : IvState) (i p finish : Nat) : List Word64 :=
  let a := s.pairs.getD p PairSum.empty
  intervalWords 2 p i v finish (flagsOf v.flags a.flags a.n a.clip a.disturb a.late) a.n a.clip a.disturb a.late
    0 0 0 (unsx 128 a.sumXY)

/-- The harmonic record of a converter (table `Harmonic record`). -/
def State.harWords (s : State) (v : IvState) (i c finish : Nat) : List Word64 :=
  let a := s.hars.getD c HarSum.empty
  let mask := a.orders.foldl (fun m h => m + 2 ^ h) 0
  [w64 (3 * 2 ^ 56 + c * 2 ^ 52 + i * 2 ^ 50 + Nat.max 1 (bits a.cfg 19 16) * 2 ^ 46 + a.orders.length * 2 ^ 39 +
      flagsOf v.flags a.flags a.n 0 0 0), w64 (slot51 v.start), w64 (slot51 finish), w64 v.startAngle, w64 a.n, w64 mask,
   w64 (mask / 2 ^ 64)] ++ (a.re.zip a.im).flatMap (fun e => [w64i e.1, w64i e.2])

/-! ### Merging (R257) -/

/-- Add two unsigned fields of `w` bits, saturating; answers whether it did. -/
def addSatU (w a b : Nat) : Nat × Bool := (satU w (a + b), decide (2 ^ w ≤ a + b))

/-- Add two signed fields of `w` bits, saturating. -/
def addSatS (w a b : Nat) : Nat × Bool :=
  let v := sx w a + sx w b
  (unsx w (satS w v), satS w v != v)

/-- Merge the words after the seventh of two harmonic records: RE and IM. -/
def mergeSums : List Word64 → List Word64 → List Word64 × Bool
  | a :: r, b :: q =>
    let (v, o) := addSatS 64 a.toNat b.toNat
    let (vs, os) := mergeSums r q
    (w64 v :: vs, o || os)
  | _, _ => ([], false)

/-- Merge two consecutive records of one source (R257): `a` the first, `b` the next. -/
def mergeRecords (a b : List Word64) : List Word64 :=
  let x (i : Nat) : Nat := (a.getD i 0).toNat
  let y (i : Nat) : Nat := (b.getD i 0).toNat
  let kind := bits (x 0) 63 56
  let fl := bits (x 0 ||| y 0) 31 0
  let (n, o1) := addSatU 32 (x 4 % 2 ^ 32) (y 4 % 2 ^ 32)
  let head (sat : Bool) : Word64 :=
    let f := if sat then putBit fl IF.SAT true else fl
    w64 (putBits (x 0) 31 0 (putBit f IF.EMPTY (n == 0)))
  if kind = 3 then
    let (sums, o2) := mergeSums (a.drop 7) (b.drop 7)
    [head (o1 || o2), w64 (x 1), w64 (y 2), w64 (x 3), w64 n, w64 (x 5), w64 (x 6)] ++ sums
  else
    let (clip, o2) := addSatU 32 (x 4 / 2 ^ 32) (y 4 / 2 ^ 32)
    let (late, o3) := addSatU 32 (x 5 / 2 ^ 32) (y 5 / 2 ^ 32)
    let (dist, o4) := addSatU 32 (x 5 % 2 ^ 32) (y 5 % 2 ^ 32)
    let mn := if sx 18 (y 6) < sx 18 (x 6) then y 6 else x 6
    let mx := if sx 18 (x 6 / 2 ^ 32) < sx 18 (y 6 / 2 ^ 32) then y 6 / 2 ^ 32 else x 6 / 2 ^ 32
    let (sum, o5) := addSatS 64 (x 7) (y 7)
    let big (z : Nat → Nat) : Nat := z 8 + z 9 * 2 ^ 64
    let (sq, o6) := if kind = 1 then addSatU 128 (big x) (big y) else addSatS 128 (big x) (big y)
    [head (o1 || o2 || o3 || o4 || o5 || o6), w64 (x 1), w64 (y 2), w64 (x 3), w64 (clip * 2 ^ 32 + n),
     w64 (late * 2 ^ 32 + dist), w64 (if kind = 2 then 0 else bits mx 17 0 * 2 ^ 32 + bits mn 17 0), w64 sum, w64 sq,
     w64 (sq / 2 ^ 64)]

/-- Source key of a record: kind and source or converter. -/
def recordKey (ws : List Word64) : Nat :=
  let w := (ws.getD 0 0).toNat
  bits w 63 56 * 64 + (if bits w 63 56 = 3 then bits w 55 52 else bits w 55 50)

/-- Put a finished record into its stream; the first one taken again ends an overflow (R252). -/
def State.emitRecord (s : State) (sid : Nat) (ws : List Word64) (finish : Nat) : State :=
  let s := if (s.stream sid).gaps.any (fun g => g.cause = 3) && ((s.stream sid).opened.isSome || s.bankReady sid)
    then s.gapClose [sid] finish 3 false else s
  s.appendItem sid { slot := finish, words := ws, ply := none }

/-- Close a source's merge group, if one is open. -/
def State.closeMerge (s : State) (sid key : Nat) : State :=
  match s.acq.merges.find? (fun g => g.stream == sid && g.source == key) with
  | some g =>
    (s.modAcq (fun a => { a with merges := a.merges.filter (fun g => !(g.stream == sid && g.source == key)) })).emitRecord
      sid g.words g.endSlot
  | none => s

/-- Close every merge group of a stream: at a change of step and at the end of the record (R257). -/
def State.closeMerges (s : State) (sid : Nat) : State :=
  s.each ((s.acq.merges.filter (fun g => g.stream == sid)).map MergeGroup.source) (fun s k => s.closeMerge sid k)

/-- Whether two harmonic records have the same K, SPAN_M and mask; other records always agree. -/
def sameShape (a b : List Word64) : Bool :=
  let x := (a.getD 0 0).toNat
  bits x 63 56 != 3 || (bits x 49 39 == bits (b.getD 0 0).toNat 49 39 && a.getD 5 0 == b.getD 5 0 && a.getD 6 0 == b.getD 6 0)

/-- A record of stream 16 or 17 reaches ACQ (R257): groups of 2^(AVG_EXP + step), closed early after PARTIAL, GAP, JUMP, HOLD
or CAL. -/
def State.mergeRecord (s : State) (sid : Nat) (ws : List Word64) (finish : Nat) : State :=
  if !s.recording sid ∨ !s.inRecord finish then s
  else
    let key := recordKey ws
    let e := s.use P.ACQM F.ACQ_ANLG_CFG_AVG_EXP + s.stepAt sid finish
    let s := match s.acq.merges.find? (fun g => g.stream == sid && g.source == key) with
      | some g => if sameShape g.words ws then s else s.closeMerge sid key
      | none => s
    let g : MergeGroup := match s.acq.merges.find? (fun g => g.stream == sid && g.source == key) with
      | some g => { g with count := g.count + 1, words := mergeRecords g.words ws, endSlot := finish }
      | none => { stream := sid, source := key, count := 1, words := ws, endSlot := finish }
    let early := (bits (ws.getD 0 0).toNat 31 0) &&& 0x3B != 0
    let s := s.modAcq (fun a => { a with merges := a.merges.filter (fun g => !(g.stream == sid && g.source == key)) ++ [g] })
    if early ∨ 2 ^ e ≤ g.count then s.closeMerge sid key else s

/-! ### Interval timers -/

/-- Show ACC_STAT.RUNNING. -/
def State.ivShow (s : State) : State :=
  s.put P.ACC F.ACC_STAT_RUNNING ((List.range 4).foldl (fun m i => if (s.iv i).isSome then m + 2 ^ i else m) 0)

/-- LEN of an interval timer. -/
def State.ivLen (s : State) (i : Nat) : Nat := s.use64 P.ACC F.ACC_IV_LEN_LO F.ACC_IV_LEN_HI i

/-- Begin an interval of a timer at a slot (R162, R163, R174). `prev` is the interval that ended there; `fresh` says that the
timer starts. The sums of its converters and pairs begin at zero. -/
def State.ivBegin (s : State) (i slot : Nat) (prev : Option IvState) (fresh : Bool) : State :=
  let cfg := s.useReg P.ACC (F.ACC_IV_CFG.at i)
  let len := s.ivLen i
  if !s.enabled P.ACC ∨ !bitOf cfg 31 ∨ len = 0 then { s with ivs := lmod s.ivs i (fun _ => none) }.ivShow
  else
    let l := bits cfg 27 26
    let angle := bitOf cfg 30
    let align := bitOf cfg 29
    let ran := s.loopRan l
    let p := (s.loop l).pipsAt slot
    let on := match prev with | some v => v.cfg == cfg && v.len == len && v.cut.isNone | none => false
    let old := (prev.map IvState.target).getD 0
    let target :=
      if angle then
        (if align then (p / len + 1) * len else if on then old + ((p - old) / len + 1) * len else p + len)
      else if align then nextAligned (slot / 8 + 1) len * 8
      else if on then old + 8 * len
      else slot + 8 * len
    let cutShort := (prev.map (fun v => v.cut.isSome)).getD false && angle && decide (target < p + len)
    let f := putBit 0 IF.PARTIAL ((fresh && !align) || cutShort)
    let f := putBit f IF.NO_ANGLE (!ran)
    let f := if angle then putBit (putBit f IF.COAST (s.coasting l)) IF.HOLD (s.loopState l == L.HOLD || (s.loop l).reverse) else f
    let f := putBit f IF.GAP (!s.sp0Good || s.getB (P.CKS 1) F.CKS_LOCK_STAT_ON_BYPASS)
    let v : IvState :=
      { cfg := cfg, len := len, start := slot, startAngle := if ran then (s.loop l).angleAt slot else 0, target := target,
        flags := f, cut := none }
    let s : State := { s with ivs := lmod s.ivs i (fun _ => some v) }
    let s := s.each (s.ivConvs i) (fun s c =>
      let cal := putBit 0 IF.CAL (s.quadCal (c / 4))
      let h := s.harFresh c
      { s with accs := lmod s.accs c (fun _ => { AccSum.empty with flags := cal }),
               hars := lmod s.hars c (fun _ => { h with flags := cal }) })
    (s.each (s.ivPairs i) (fun s p => { s with pairs := lmod s.pairs p (fun _ => PairSum.empty) })).ivShow

/-- Whether the slot named is the interval's boundary (R162, R163): the cut, the slot on the TIME basis, or the first slot at or
beyond the boundary angle. -/
def State.ivBoundary (s : State) (v : IvState) (slot : Nat) : Bool :=
  match v.cut with
  | some c => slot == c
  | none =>
    if bitOf v.cfg 30 then
      let l := s.loop (bits v.cfg 27 26)
      decide (v.start < slot) && decide (v.target ≤ l.pipsAt slot) && decide (l.pipsAt (slot - 1) < v.target)
    else slot == v.target

/-- Whether a forward step at the slot passed the interval's boundary angle (R163). -/
def State.ivJumped (s : State) (v : IvState) (slot : Nat) : Bool :=
  let l := s.loop (bits v.cfg 27 26)
  bitOf v.cfg 30 && v.cut.isNone && decide (l.beforeStep slot < v.target) && decide (v.target < l.pipsAt slot)

/-- Whether every result with an instant before the boundary has been delivered: none under way, none held (R154). -/
def State.ivSettled (s : State) (i slot : Nat) : Bool :=
  (s.ivConvs i ++ (s.ivPairs i).map (fun p => s.use P.ACC F.ACC_PAIR_CFG_B p)).all (fun c =>
    let q := s.conv c
    q.jobs.all (fun j => j.dead || decide (slot ≤ j.inst)) &&
    (match q.hold with | some (r, _) => !s.injAcc c || decide (slot ≤ r.inst) | none => true))

/-- The values a converter's interval gives the ladder (R166). -/
def State.accValue (s : State) (c slot : Nat) : AccVal :=
  let a := s.accs.getD c AccSum.empty
  { conv := c, slot := slot, valid := a.n != 0, mean := roundDiv (a.sum * 256) a.n, msq := (roundDiv (a.sumSq : Int) a.n).toNat,
    min := a.min, max := a.max }

/-- End an interval at a boundary: records in the order of R170, values for the ladder, snapshots, events. -/
def State.ivEnd (s : State) (i slot : Nat) (v : IvState) : State :=
  let cs := (s.ivConvs i).filter s.accEn
  let ps := s.ivPairs i
  let hs := (s.ivConvs i).filter (fun c => !(s.hars.getD c HarSum.empty).orders.isEmpty)
  let cw := cs.map (fun c => (c, s.convWords v i c slot))
  let pw := ps.map (fun p => (p, s.pairWords v i p slot))
  let hw := hs.map (fun c => (c, s.harWords v i c slot))
  let s : State := { s with accVals := (cs.map (fun c => s.accValue c slot) ++ s.accVals).take 256 }
  let s := s.each cw (fun s e =>
    let s : State := { s with accSnap := lmod s.accSnap e.1 (fun _ => e.2) }
    let a := s.accs.getD e.1 AccSum.empty
    if s.accRec e.1 then (s.seamAdd 16 slot a.n 1 a.sum).mergeRecord 16 e.2 slot else s)
  let s := s.each pw (fun s e =>
    let s : State := { s with accSnap := lmod s.accSnap (16 + e.1) (fun _ => e.2) }
    if s.useB P.ACC F.ACC_PAIR_CFG_REC_EN e.1 then s.mergeRecord 16 e.2 slot else s)
  let s := s.each hw (fun s e =>
    let a := s.hars.getD e.1 HarSum.empty
    let s : State := { s with harSnap := lmod s.harSnap e.1 (fun _ => e.2) }
    let fl := bits (e.2.getD 0 0).toNat 31 0
    let s := s.pulse P.HAR 0
    let s := if bitOf fl IF.SAT then (s.sat P.HAR F.HAR_SAT_CNT).pulse P.HAR 1 else s
    let s := s.put P.HAR F.HAR_STAT_NO_ANGLE (putBit (s.get P.HAR F.HAR_STAT_NO_ANGLE) e.1 (bitOf fl IF.NO_ANGLE))
    if s.useB P.HAR F.HAR_CTL_REC_EN then (s.seamAdd 17 slot a.n 1 0).mergeRecord 17 e.2 slot else s)
  let flag (b : Nat) (ws : List Word64) : Bool := bitOf (ws.getD 0 0).toNat b
  let s := s.putB P.HAR F.HAR_STAT_SAT (s.harSnap.any (flag IF.SAT))
  let s := s.level P.HAR 2 (s.get P.HAR F.HAR_STAT_NO_ANGLE != 0)
  let s := s.putB P.ACC F.ACC_STAT_SAT (s.accSnap.any (flag IF.SAT))
  let s := s.pulse P.ACC i
  let all := (cw ++ pw).map Prod.snd
  let s := if all.any (flag IF.SAT) then s.pulse P.ACC 4 else s
  if all.any (flag IF.EMPTY) then s.pulse P.ACC 5 else s

/-- INTERVAL_BOUNDARY (R162 to R170): the boundary of an interval timer at `slot`, once every result before it has been
delivered. -/
def execIntervalBoundary (t : Nat) (iv : Fin 4) (slot : Nat) (s : State) : Res :=
  let s := s.at t
  match s.iv iv with
  | none => .next s
  | some v =>
    if t < slot ∨ !s.ivBoundary v slot ∨ !s.ivSettled iv slot then .next s
    else
      let v := if v.cut.isSome then { v with flags := putBit v.flags IF.PARTIAL true } else v
      let v := if s.ivJumped v slot then { v with flags := putBit v.flags IF.JUMP true } else v
      let s := (s.ivEnd iv slot v).ivBegin iv slot (some v) false
      let later := s.accLater.filter (fun e => s.accIv e.1 == iv.val)
      let s : State := { s with accLater := s.accLater.filter (fun e => s.accIv e.1 != iv.val) }
      .next (s.each later (fun s e => s.accumulate e.1 e.2))

/-- A group 0 to 3 of ACC was copied, or written directly (R174): EN on a stopped timer starts it at the next ply start; EN = 0
written directly cuts the interval at the next ply start. -/
def State.ivSettings (s : State) (i t : Nat) (direct : Bool) : State :=
  match s.iv i with
  | none => s.ivBegin i (nextPly t) none true
  | some _ => if direct && !s.useB P.ACC F.ACC_IV_CFG_EN i then s.modIv i (fun v => { v with cut := some (nextPly t) }) else s

/-- HAR_PROF_CNT follows the active profiles (R175). -/
def State.harCopied (s : State) : State :=
  s.each [(0, F.HAR_PROF_CNT_P0), (1, F.HAR_PROF_CNT_P1), (2, F.HAR_PROF_CNT_P2), (3, F.HAR_PROF_CNT_P3)] (fun s e =>
    s.put P.HAR e.2 (s.profileOrders e.1).length)

/-! ### Snapshots and clears -/

/-- ACC_SNAP_SEL (R174): the latest record of a source, low halves first. -/
def execAccSnapSel (value : Word) (s : State) : Res :=
  let ws := s.accSnap.getD (bits value.toNat 5 0) []
  .next (s.each (List.range 10) (fun s k =>
    let w := (ws.getD k 0).toNat
    (s.put P.ACC F.ACC_SNAP w (2 * k)).put P.ACC F.ACC_SNAP (w / 2 ^ 32) (2 * k + 1)))

/-- HAR_SNAP_SEL (R175): the latest result of one order; an order not selected reads 0. -/
def execHarSnapSel (value : Word) (s : State) : Res :=
  let c := bits value.toNat 3 0
  let h := bits value.toNat 14 8
  let p := P.HAR
  let ws := s.harSnap.getD c []
  let w (k : Nat) : Nat := (ws.getD k 0).toNat
  let mask := w 5 + w 6 * 2 ^ 64
  let at_ := ((List.range h).filter (fun k => bitOf mask k)).length
  let on := bitOf mask h
  let v (x : Nat) : Nat := if on then x else 0
  let s := s.put64 p F.HAR_SNAP_START_LO F.HAR_SNAP_START_HI (v (w 1))
  let s := s.put64 p F.HAR_SNAP_END_LO F.HAR_SNAP_END_HI (v (w 2))
  let s := s.put64 p F.HAR_SNAP_ANGLE_LO F.HAR_SNAP_ANGLE_HI (v (w 3))
  let s := (s.put p F.HAR_SNAP_N (v (w 4))).put p F.HAR_SNAP_FLAGS (v (w 0 % 2 ^ 32))
  let s := s.put64 p F.HAR_SNAP_RE_LO F.HAR_SNAP_RE_HI (v (w (7 + 2 * at_)))
  .next (s.put64 p F.HAR_SNAP_IM_LO F.HAR_SNAP_IM_HI (v (w (8 + 2 * at_))))

/-- HAR_CLR (R175). -/
def execHarClr (value : Word) (s : State) : Res :=
  .next (if bitOf value.toNat 0 then s.put P.HAR F.HAR_SAT_CNT 0 else s)

/-! ### Checks -/

/-- Agreement check of an ACC group (R174). -/
def checkACC (v : View) (g : Nat) : Nat :=
  if g < 4 then
    let len := v.f P.ACC F.ACC_IV_LEN_LO g + v.f P.ACC F.ACC_IV_LEN_HI g * 2 ^ 32
    firstCause [(len == 0, E.ZERO_INTERVAL)]
  else
    let iv (c : Nat) : Nat := v P.ACC (F.ACC_CONV_CFG.off + 4 * (c / 8)) / 2 ^ (4 * (c % 8)) % 4
    firstCause ((List.range 24).flatMap (fun p =>
      let a := v.f P.ACC F.ACC_PAIR_CFG_A p
      let b := v.f P.ACC F.ACC_PAIR_CFG_B p
      let en := v.b P.ACC F.ACC_PAIR_CFG_EN p
      [(en && a == b, E.RANGE), (en && iv a != iv b, 0x0140)]))

/-- Agreement check of HAR group 0 (R169). -/
def checkHAR (v : View) : Nat :=
  let setIn (p : Nat) : Nat := ((List.range 128).filter (fun h => bitOf (v P.HAR (F.HAR_PROF.at (4 * p + h / 32))) (h % 32))).length
  firstCause ((List.range 16).map (fun c =>
    let n := v.f P.HAR F.HAR_CH_CFG_ORDERS c
    (decide (64 < n) || decide (setIn (v.f P.HAR F.HAR_CH_CFG_PROFILE c) < n), E.RANGE)))

/-- Agreement check of a WIN group (R176). -/
def checkWIN (v : View) (w : Nat) : Nat :=
  let lo := sx 18 (v P.WIN (F.WIN_LO.at w))
  let hi := sx 18 (v P.WIN (F.WIN_HI.at w))
  firstCause [(decide (hi < lo) || decide (hi - lo < 2 * (v.f P.WIN F.WIN_CFG_HYST w : Int)), E.RANGE)]

end Sys2Proof.Machine
end

