-- ==== Sys2Proof/Machine/Adc.lean ====
section
/-!
DEFINITION. Converters and sample sets (R142 to R159): starts, wake-up, injected requests, results, calibration, overload.
-/
namespace Sys2Proof.Machine

/-- Slots of the 500 ns between instants, and of the 420 ns to a result (R144). -/
abbrev convGap : Nat := 8000
abbrev convDelay : Nat := 6720

/-- Causes of a dropped injection (table `Injected drop causes`). -/
abbrev D.CAL : Nat := 1
abbrev D.HELD : Nat := 2
abbrev D.BUSY : Nat := 3
abbrev D.SCHED : Nat := 4

/-- ADC_STAT and PAGE_STAT.STATE of the ADC page (R172). -/
def State.adcShow (s : State) : State :=
  let f (b : Nat → Bool) : Nat := (List.range 16).foldl (fun m c => if s.convEn c && b c then m + 2 ^ c else m) 0
  let s := s.put P.ADC F.ADC_STAT_AWAKE (f (fun c => !(s.conv c).asleep && !(s.conv c).waking))
  let s := s.put P.ADC F.ADC_STAT_BUSY (f (fun c => !(s.conv c).jobs.isEmpty || (s.conv c).waking))
  let any := (List.range 16).any s.convEn
  let cal := s.getB P.ADC F.ADC_CAL_STAT_BUSY
  (s.setBlockState P.ADC (if cal then 2 else if any then 1 else 0)).level P.ADC 5 cal

/-- Whether the converters have a sample clock (R62). -/
def State.adcClocked (s : State) : Bool := s.sp0Good && !s.getB (P.CKS 1) F.CKS_LOCK_STAT_ON_BYPASS

/-- A start that is not converted (R148). -/
def State.startMiss (s : State) (n : Nat) : State := (s.sat P.ADC F.ADC_CNT_A_START_MISS 1 n).pulse P.ADC 1

/-- An injected request that is not converted (R151). -/
def State.injDrop (s : State) (n cause : Nat) : State :=
  let s := s.sat P.ADC F.ADC_CNT_B_INJ_DROP 1 n
  let s := s.sat P.ADC F.ADC_INJ_CAUSE_CNT 1 (cause - 1)
  let s := (s.put P.ADC F.ADC_INJ_LAST_CAUSE cause).put P.ADC F.ADC_INJ_LAST_CONV n
  s.pulse P.ADC 2

/-- A converter takes its sample at a slot (R144). -/
def State.convert (s : State) (n slot : Nat) (late inj : Bool) (origin : Option Nat) : State :=
  let dist := bitOf (s.get P.ADC F.ADC_OVR_DISTURBED) n
  let job : ConvJob :=
    { inst := slot, late := late, inj := inj, origin := origin, coef := s.useReg P.ADC (F.ADC_COEF.at n),
      disturbed := dist, dead := false }
  let s := s.modConv n (fun q => { q with
    last := some slot, jobs := q.jobs ++ [job], instants := (slot :: q.instants).take 300 })
  let s := if dist then s.sat P.ADC F.ADC_CNT_B_DISTURB 1 n else s
  (s.emit (.sample n slot)).adcShow

/-- Whether a converter is inside the 500 ns after its previous instant (R144). -/
def State.convBusy (s : State) (n slot : Nat) : Bool :=
  match (s.conv n).last with | some l => decide (slot < l + convGap) | none => false

/-- A scheduled start reaches a converter (R148 to R151, R157). -/
def State.startConv (s : State) (n slot : Nat) (late : Bool) : State :=
  let q := s.conv n
  if s.quadCal (n / 4) then s.startMiss n
  else if q.asleep || q.waking then
    if q.startWait then s.startMiss n
    else
      let s := if q.injWait.isSome then s.injDrop n D.SCHED else s
      (s.modConv n (fun q => { q with injWait := none, startWait := true, waking := true })).adcShow
  else if s.convBusy n slot then s.startMiss n
  else s.convert n slot late false none

/-! ### Predictions -/

/-- Whether an SPC schedule of a loop can fire (R146). -/
def State.spcRuns (s : State) (n : Nat) : Bool :=
  s.enabled (P.LTL n) && s.loopRan n && s.loopState n != L.OFF && s.loopState n != L.HOLD && !(s.loop n).reverse

/-- Next target of an angle event beyond an angle in pips (R91). -/
def State.evtNext (s : State) (e p : Nat) : Nat :=
  let c := p / 2 ^ 24
  let n := Nat.max 1 (s.use P.ANG F.ANG_EVT_CFG_COUNT e)
  let pip := s.use P.ANG F.ANG_EVT_PIP_PIP e
  match s.use P.ANG F.ANG_EVT_CFG_KIND e with
  | 0 =>
    let at_ := (c + n - 1) / n * n * 2 ^ 24 + pip
    if p < at_ then at_ else at_ + n * 2 ^ 24
  | 1 => ((s.evtTargets e c (c + 1)).filter (fun x => decide (p < x))).foldl (fun m x => if m = 0 then x else Nat.min m x) 0
  | _ => s.onceTarget.getD e 0 * 2 ^ 24 + pip

/-- The first start of a set predicted at or after a slot (R93, R149); a PULSE start is known once its delay runs. -/
def State.nextStart (s : State) (i slot : Nat) : Option Nat :=
  let p := P.ADC
  if !s.enabled p ∨ !s.useB p F.ADC_SET_CFG_EN i then none
  else
    let p0 := s.useReg p (F.ADC_SET_P0.at i)
    let p1 := s.useReg p (F.ADC_SET_P1.at i)
    let n := s.use p F.ADC_SET_CFG_LOOP i
    match s.use p F.ADC_SET_CFG_SRC i with
    | 0 =>
      let k := (slot + 7) / 8
      let c := k % 2 ^ 48
      let per := Nat.max 1 p0
      let next := (c + per - 1 - p1 % per) / per * per + p1 % per
      some (8 * (k - c + (if next < 2 ^ 48 then next else 2 ^ 48 + p1)))
    | 1 =>
      if !s.spcRuns n then none
      else
        let spc := Nat.max 1 (bits p0 15 0)
        let off := bits p1 23 0
        let j := spcCount off spc ((s.loop n).pipsAt (slot - 1))
        (s.loop n).slotOfPips (off + j * 2 ^ 24 / spc - 2 ^ 24)
    | 2 =>
      let e := s.use p F.ADC_SET_CFG_EVT i
      let n := s.use P.ANG F.ANG_EVT_CFG_LOOP e
      if !s.angleRuns n ∨ !s.useB P.ANG F.ANG_EVT_CFG_EN e then none
      else (s.loop n).slotOfPips (s.evtNext e ((s.loop n).pipsAt (slot - 1)))
    | _ =>
      (s.pulseDue.getD i []).foldl (fun m d =>
        let at_ : Option Nat := match d with
          | .slot x => if slot ≤ x then some x else none
          | .angle l ph => (s.loop l).segs.head?.bind (fun g => g.slotOf ph)
        match m, at_ with
        | some a, some b => some (Nat.min a b)
        | none, x => x
        | x, none => x) none

/-- Whether a scheduled start of a converter is due within 500 ns after a slot (R151). -/
def State.schedDue (s : State) (n slot : Nat) : Bool :=
  match s.nextStart (s.convSet n) slot with | some x => decide (x ≤ slot + convGap) | none => false

/-- WAKE_NS of a converter in slots. -/
def State.wakeSlots (s : State) (n : Nat) : Nat := nsSlots (s.use P.ADC F.ADC_WAKE_WAKE_NS (n / 4))

/-! ### Starts -/

/-- Whether a set's start source fires in a slot, and whether that firing is LATE (R145, R146). -/
def State.setFires (s : State) (i t : Nat) : Option Bool :=
  let p := P.ADC
  let p0 := s.useReg p (F.ADC_SET_P0.at i)
  let p1 := s.useReg p (F.ADC_SET_P1.at i)
  let n := s.use p F.ADC_SET_CFG_LOOP i
  match s.use p F.ADC_SET_CFG_SRC i with
  | 0 => if t % 8 = 0 ∧ coarseOf t % Nat.max 1 p0 = p1 then some false else none
  | 1 =>
    if t = 0 ∨ !s.spcRuns n then none
    else if s.spcFired.getD i none = some (t, true) then some true
    else
      let spc := Nat.max 1 (bits p0 15 0)
      let off := bits p1 23 0
      let l := s.loop n
      let a0 := l.pipsAt (t - 1)
      let a1 := l.pipsAt t
      let mid := Nat.min (l.beforeStep t) a1
      let hit (a b : Nat) : Bool := decide (spcCount off spc a < spcCount off spc b)
      if hit a0 mid || (decide (a0 < a1) && hit (a1 - 1) a1) then some false else none
  | 2 =>
    let (slot, late) := s.angFired.getD (s.use p F.ADC_SET_CFG_EVT i) (0, false)
    if slot = t ∧ 0 < t then some late else none
  | _ =>
    if (s.pulseDue.getD i []).any (fun d => match d with
        | .slot x => x == t
        | .angle l ph => decide (ph ≤ (s.loop l).phaseAt t) && decide ((s.loop l).phaseAt (t - 1) < ph)) then some false
    else none

/-- Enabled members of a set (R143). -/
def State.members (s : State) (i : Nat) : List Nat := (List.range 16).filter (fun c => s.convEn c && s.convSet c == i)

/-- CONVERSION_START (R143, R145 to R150). -/
def execConversionStart (t : Nat) (set : Fin 8) (s : State) : Res :=
  let s := s.at t
  if !s.enabled P.ADC ∨ !s.useB P.ADC F.ADC_SET_CFG_EN set ∨ !s.adcClocked then .next s
  else match s.setFires set t with
  | none => .next s
  | some late =>
    let s : State := { s with pulseDue := lmod s.pulseDue set (fun ds => ds.filter (fun d => match d with
      | .slot x => x != t
      | .angle l ph => decide ((s.loop l).phaseAt t < ph))) }
    .next (s.each (s.members set) (fun s c => s.startConv c t late))

/-- PULSE_SOURCE_PULSE (R147, R150): a pulse of `width` slots ends at slot `t`. -/
def execPulseSourcePulse (t : Nat) (set : Fin 8) (width : Nat) (s : State) : Res :=
  let s := s.at t
  let p := P.ADC
  let i := set.val
  let p0 := s.useReg p (F.ADC_SET_P0.at i)
  let delay := s.useReg p (F.ADC_SET_P1.at i)
  let wmax := bits p0 31 16
  let n := s.use p F.ADC_SET_CFG_LOOP i
  let ch := s.use p F.ADC_SET_CFG_CHANNEL i
  if !s.enabled p ∨ !s.useB p F.ADC_SET_CFG_EN i ∨ s.use p F.ADC_SET_CFG_SRC i ≠ 3 ∨ s.digMode (ch / 32) = M.OFF ∨
      width < 8 * bits p0 15 0 ∨ (wmax ≠ 0 ∧ 8 * wmax < width) then .next s
  else
    let pips := s.use p F.ADC_SET_CFG_UNIT i == 2
    if pips && !s.loopRan n then .next (s.each (s.members i) (fun s c => s.startMiss c))
    else
      let due : PulseDue := match s.use p F.ADC_SET_CFG_UNIT i with
        | 0 => .slot (t + delay)
        | 1 => .slot (t + 8 * delay)
        | _ => .angle n ((s.loop n).phaseAt t + delay * 2 ^ 32)
      let s : State := { s with pulseDue := lmod s.pulseDue i (fun ds => ds ++ [due]) }
      .next ((s.each (s.members i) (fun s c =>
        if (s.conv c).asleep then s.modConv c (fun q => { q with waking := true }) else s)).adcShow)

/-! ### Wake-up -/

/-- CONVERTER_WAKE_REQUEST (R149): WAKE_NS before the predicted start of a napping converter. -/
def execConverterWakeRequest (t : Nat) (n : Fin 16) (s : State) : Res :=
  let s := s.at t
  let due := match s.nextStart (s.convSet n) t with | some x => decide (x ≤ t + s.wakeSlots n) | none => false
  .next (if s.convEn n && (s.conv n).asleep && due then (s.modConv n (fun q => { q with waking := true })).adcShow else s)

/-- CONVERTER_READY (R150, R151): a waking converter is ready at slot `t`. -/
def execConverterReady (t : Nat) (n : Fin 16) (s : State) : Res :=
  let s := s.at t
  let q := s.conv n
  if !q.waking then .next s
  else
    let s := (s.modConv n (fun q => { q with asleep := false, waking := false, startWait := false, injWait := none })).adcShow
    let lateStart (s : State) : State := (s.sat P.ADC F.ADC_CNT_A_LATE_START 1 n).pulse P.ADC 0
    .next (
      if q.startWait then
        (if s.quadCal (n / 4) || !s.adcClocked then s.startMiss n else (lateStart s).convert n t true false none)
      else match q.injWait with
        | some origin =>
          if s.schedDue n t then s.injDrop n D.SCHED else (lateStart s).convert n t true true origin
        | none => s)

/-! ### Injected requests -/

/-- INJECTED_REQUEST (R151): a request of the ladder reaches an enabled converter. -/
def execInjectedRequest (t : Nat) (n : Fin 16) (slot : Nat) (s : State) : Res :=
  let s := s.at t
  match s.injDue.find? (fun r => r.conv == n.val && r.slot == slot) with
  | none => .next s
  | some r =>
    let s : State := { s with injDue := s.injDue.erase r }
    let q := s.conv n
    if !s.convEn n ∨ t < slot then .next s
    else if s.quadCal (n / 4) then .next (s.injDrop n D.CAL)
    else if q.hold.isSome then .next (s.injDrop n D.HELD)
    else if s.convBusy n t || q.injWait.isSome then .next (s.injDrop n D.BUSY)
    else if q.startWait then .next (s.injDrop n D.SCHED)
    else
      let origin := if r.spec then some slot else none
      if q.asleep || q.waking then
        .next (s.modConv n (fun q => { q with injWait := some origin, waking := true })).adcShow
      else if s.schedDue n t || !s.adcClocked then .next (s.injDrop n D.SCHED)
      else .next (s.convert n t false true origin)

/-- A held result is released to its consumers with its original instant, or discarded (R153, R215). -/
def State.resolveHold (s : State) (n : Nat) (release : Bool) : State :=
  let q := s.conv n
  match q.hold with
  | none => s
  | some (r, _) =>
    let s := s.modConv n (fun q => { q with hold := none, behind := [] })
    let s := if release then (s.windowsTake n r).accumulate n r else s
    s.each q.behind (fun s r => s.windowsTake n r)

/-! ### Results -/

/-- The calibrated result of a raw code (R155, R158): the code, and whether it is clipped. -/
def calibrated (coef : Nat) (raw : Int) : Int × Bool :=
  let x := roundDiv ((raw - sx 12 (bits coef 31 20)) * (bits coef 19 0 : Nat)) (2 ^ 19)
  if x < -131072 ∨ raw = -131072 then (-131072, true)
  else if 131071 < x ∨ raw = 131071 then (131071, true)
  else (x, false)

/-- CONVERSION_RESULT (R144, R152 to R158): 420 ns after the instant of the oldest conversion under way. -/
def execConversionResult (t : Nat) (n : Fin 16) (raw : BitVec 18) (s : State) : Res :=
  let s := s.at t
  match (s.conv n).jobs with
  | [] => .next s
  | j :: rest =>
    if t < j.inst + convDelay then .next s
    else
      let s := s.modConv n (fun q => { q with jobs := rest })
      let (x, clip) := calibrated j.coef (sx 18 raw.toNat)
      let r : AdcRes := { inst := j.inst, code := x, clip := clip, disturbed := j.disturbed, late := j.late, inj := j.inj }
      let s :=
        if j.dead || s.quadCal (n / 4) then s
        else match j.origin with
          | some o => s.modConv n (fun q => { q with hold := some (r, o) })
          | none => s.deliver n r
      let far := match s.nextStart (s.convSet n) t with | some x => decide (t + 2 * s.wakeSlots n < x) | none => true
      let q := s.conv n
      let nap := s.convNap n && far && q.jobs.isEmpty && !q.startWait && q.injWait.isNone
      .next (if nap then s.modConv n (fun q => { q with asleep := true }) else s).adcShow

/-! ### Overload (R159) -/

/-- ADC_OVR and its events: a converter is disturbed while the span of another of its quad lasts. -/
def State.showOverload (s : State) : State :=
  let clipped (c : Nat) : Bool := bitOf (s.get P.ADC F.ADC_OVR_CLIPPED) c
  let spans (c : Nat) : Bool := clipped c || (s.conv c).tail.isSome
  let dist := (List.range 16).foldl (fun m c =>
    if s.convEn c && (List.range 4).any (fun k => 4 * (c / 4) + k != c && spans (4 * (c / 4) + k)) then m + 2 ^ c else m) 0
  let s := s.put P.ADC F.ADC_OVR_DISTURBED dist
  (s.level P.ADC 3 (s.get P.ADC F.ADC_OVR_CLIPPED != 0)).level P.ADC 4 (dist != 0)

/-- OVERLOAD_TRIP (R159): the detector of an enabled converter trips. -/
def execOverloadTrip (t : Nat) (n : Fin 16) (s : State) : Res :=
  let s := s.at t
  .next (if s.convEn n then
    (s.put P.ADC F.ADC_OVR_CLIPPED (putBit (s.get P.ADC F.ADC_OVR_CLIPPED) n true)).showOverload
  else s)

/-- OVERLOAD_CLEAR (R159): the detector clears and its span's last microsecond begins. -/
def execOverloadClear (t : Nat) (n : Fin 16) (s : State) : Res :=
  let s := s.at t
  .next (if bitOf (s.get P.ADC F.ADC_OVR_CLIPPED) n then
    let s := s.put P.ADC F.ADC_OVR_CLIPPED (putBit (s.get P.ADC F.ADC_OVR_CLIPPED) n false)
    (s.modConv n (fun q => { q with tail := some t })).showOverload
  else s)

/-- DISTURB_SPAN_END (R159): 1 µs after a detector of the quad cleared. -/
def execDisturbSpanEnd (t : Nat) (q : Fin 4) (s : State) : Res :=
  let s := s.at t
  .next (s.each (List.range 4) (fun s k =>
    let c := 4 * q.val + k
    match (s.conv c).tail with
    | some x => if x + usSlots 1 ≤ t then s.modConv c (fun y => { y with tail := none }) else s
    | none => s)).showOverload

/-! ### Calibration (R156, R157) -/

/-- Flag the present intervals of a converter: CAL, COEF. -/
def State.convFlag (s : State) (c b : Nat) : State :=
  { s with accs := lmod s.accs c (fun a => { a with flags := putBit a.flags b true }),
           hars := lmod s.hars c (fun a => { a with flags := putBit a.flags b true }) }

/-- Calibration of a quad begins, unless an injected request is pending in it. -/
def State.calBegin (s : State) (q : Nat) : State :=
  let cs := (List.range 4).map (fun k => 4 * q + k)
  if cs.any (fun c => (s.conv c).injWait.isSome) then s
  else
    let s := (s.putB P.ADC F.ADC_CAL_STAT_BUSY true).put P.ADC F.ADC_CAL_STAT_QUAD
      (putBit (s.get P.ADC F.ADC_CAL_STAT_QUAD) q true)
    (s.each cs (fun s c => s.convFlag c IF.CAL)).adcShow

/-- New coefficients of a converter from the means of 1,024 conversions in 1/1,024 code (R156); none when the calibration
failed. Modes: 0 INTERNAL, 1 SYS_OFFSET, 2 SYS_GAIN. -/
def newCoef (mode : Nat) (expect z h : Int) (coef : Nat) : Option Nat :=
  let ofs : Int := sx 12 (bits coef 31 20)
  let gain : Int := (bits coef 19 0 : Nat)
  let newOfs : Int := if mode = 2 then ofs else roundDiv z 1024
  let ratio (num den : Int) : Int := if den = 0 then 0 else if den < 0 then roundDiv (-num) (-den) else roundDiv num den
  let newGain : Int := match mode with
    | 0 => ratio (104858 * 2 ^ 29) (h - z)
    | 1 => gain
    | _ => ratio (expect * 2 ^ 29) (z - ofs * 1024)
  if 2047 < newOfs.natAbs ∨ newGain < 471860 ∨ 576716 < newGain then none
  else some (unsx 12 newOfs * 2 ^ 20 + newGain.toNat)

/-- Calibration of a quad ends: coefficients written to both copies, COEF in the current intervals, starts unblocked. -/
def State.calFinish (s : State) (q convs mode : Nat) (expect : Int) (means : List (Int × Int)) : State :=
  let s := s.each ((List.range 4).filter (fun k => bitOf convs (4 * q + k))) (fun s k =>
    let c := 4 * q + k
    let (z, h) := means.getD k (0, 0)
    match newCoef mode expect z h (s.reg P.ADC (F.ADC_COEF.at c)) with
    | none => s.put P.ADC F.ADC_CAL_STAT_FAIL (putBit (s.get P.ADC F.ADC_CAL_STAT_FAIL) c true)
    | some v => ((s.setReg P.ADC (F.ADC_COEF.at c) v).setStaged P.ADC (F.ADC_COEF.at c) v).convFlag c IF.COEF)
  let quads := putBit (s.get P.ADC F.ADC_CAL_STAT_QUAD) q false
  let s := (s.put P.ADC F.ADC_CAL_STAT_QUAD quads).putB P.ADC F.ADC_CAL_STAT_BUSY (quads != 0)
  let s := s.put P.ADC F.ADC_CAL_STAT_DONE (putBit (s.get P.ADC F.ADC_CAL_STAT_DONE) q true)
  s.adcShow

/-! ### Clears, checks and copies -/

/-- ADC_CLR (R172): every counter of the page. -/
def execAdcClr (value : Word) (s : State) : Res :=
  .next (if bitOf value.toNat 0 then s.clearAll P.ADC [(F.ADC_INJ_CAUSE_CNT, 4), (F.ADC_CNT_A, 16), (F.ADC_CNT_B, 16)] else s)

/-- Agreement check of an ADC group (R146, R148, R172, R173). -/
def checkADC (v : View) (g : Nat) : Nat :=
  let byte (c : Nat) : Nat := v P.ADC (F.ADC_CONV_CFG.off + 4 * (c / 4)) / 2 ^ (8 * (c % 4)) % 256
  let src (i : Nat) : Nat := v.f P.ADC F.ADC_SET_CFG_SRC i
  let analog : List Nat := (List.range 4).filterMap (fun n =>
    if v.f (P.LTL n) F.LTL_SRC_CFG_SRC = 1 then some (v.f (P.LTL n) F.LTL_SRC_CFG_CH_A % 16) else none)
  if g = 0 then
    firstCause ((List.range 4).map (fun q =>
      let w := v.f P.ADC F.ADC_WAKE_WAKE_NS q
      (decide (w < 1000) || decide (10000 < w), 0x0131)))
  else if g ≤ 8 then
    let i := g - 1
    let p0 := v P.ADC (F.ADC_SET_P0.at i)
    let p1 := v P.ADC (F.ADC_SET_P1.at i)
    firstCause [
      (decide (3 < src i), E.RESERVED_CODE), (v.f P.ADC F.ADC_SET_CFG_UNIT i == 3, E.RESERVED_CODE),
      (src i == 0 && (decide (p0 < 1000) || decide (p0 ≤ p1)), E.RANGE),
      (src i == 1 && bits p0 15 0 == 0, E.ZERO_SPC),
      (src i != 0 && analog.any (fun c => byte c % 8 == i), 0x0130)]
  else if g = 9 then
    firstCause ((List.range 16).flatMap (fun c =>
      [(decide (1 < bits (byte c) 5 4), E.RESERVED_CODE), (analog.contains c && src (byte c % 8) != 0, 0x0130)]))
  else 0

/-- A copied group 9 (R149, R159): a disabled converter stops; one that is no longer allowed to nap wakes. -/
def State.convsCopied (s : State) : State :=
  (s.each (List.range 16) (fun s c =>
    if !s.convEn c then
      (s.modConv c (fun q => { q with asleep := false, waking := false, startWait := false, injWait := none, tail := none })).put
        P.ADC F.ADC_OVR_CLIPPED (putBit (s.get P.ADC F.ADC_OVR_CLIPPED) c false)
    else if (s.conv c).asleep && !s.convNap c then s.modConv c (fun q => { q with waking := true })
    else s)).showOverload.adcShow

/-- A copied set (R147, R172): starts owed by an earlier PULSE source are forgotten. -/
def State.setCopied (s : State) (i : Nat) : State := { s with pulseDue := lmod s.pulseDue i (fun _ => []) }

end Sys2Proof.Machine
end

