-- ==== Sys2Proof/Machine/Codec.lean ====
section
/-!
DEFINITION. Chunks read back from their bytes, and the two code formats of blocks: dictionary (R299 to R302) and prediction
(R303 to R306), with the block that carries them (R296, R297) and the checks of decompression (R312).
-/
namespace Sys2Proof.Machine

/-! ### Bits of a code stream (R298) -/

/-- Bits written so far, bit 0 first. -/
structure BitsOut where
  acc : Nat
  len : Nat
  deriving DecidableEq, Repr

def BitsOut.empty : BitsOut := { acc := 0, len := 0 }

/-- Write the low `w` bits of a value. -/
def BitsOut.put (b : BitsOut) (v w : Nat) : BitsOut := { acc := b.acc + v % 2 ^ w * 2 ^ b.len, len := b.len + w }

/-- Whole bytes of a code stream, padded with 0 bits (R297). -/
def BitsOut.bytes (b : BitsOut) : List Byte := leBytes ((b.len + 7) / 8) b.acc

/-- Bits still to be read: their value, how many are left, how many were read. -/
structure BitsIn where
  acc : Nat
  left : Nat
  used : Nat
  deriving DecidableEq, Repr

def BitsIn.of (bs : List Byte) : BitsIn := { acc := fromLe bs, left := 8 * bs.length, used := 0 }

/-- Read `w` bits; none beyond the end. -/
def BitsIn.get (b : BitsIn) (w : Nat) : Option (Nat × BitsIn) :=
  if b.left < w then none else some (b.acc % 2 ^ w, { acc := b.acc / 2 ^ w, left := b.left - w, used := b.used + w })

/-! ### Items and words -/

/-- Bits of a symbol or word of a kind (R293, R303). -/
def symBits (kind : Nat) : Nat := if kind = 1 then 32 else 64

/-- Words of an item of a kind, known from its first two words (table `Item kinds`). -/
def itemWords (kind w0 w1 : Nat) : Nat :=
  match kind with
  | 3 => 1 + bits w0 47 40
  | 4 => 10
  | 5 => 7 + 2 * bits w0 45 39
  | 6 => 2 + bits w0 47 40
  | 7 => 4
  | 8 => 5
  | 9 => Nat.max 2 (bits w1 31 0)
  | _ => 1

/-- Cut words into items of a kind; none when they do not come out even. `n` bounds the number of items. -/
def cutItems (kind : Nat) : Nat → List Nat → Option (List (List Nat))
  | _, [] => some []
  | 0, _ :: _ => none
  | n + 1, w0 :: r =>
    let k := itemWords kind w0 (r.headD 0)
    if r.length + 1 < k then none
    else match cutItems kind n ((w0 :: r).drop k) with
      | some rest => some ((w0 :: r).take k :: rest)
      | none => none

/-- The words of a byte string, `n` of them. -/
def wordsOf (kind : Nat) : Nat → List Byte → List Nat
  | 0, _ => []
  | n + 1, bs => fromLe (bs.take (symBits kind / 8)) :: wordsOf kind n (bs.drop (symBits kind / 8))

/-- Tail markers of a chunk read back: `n` bounds their number (R273, R287). -/
def cutTail : Nat → List Nat → List TailMark
  | 0, _ => []
  | _, [] => []
  | n + 1, w0 :: r =>
    let k := 2 + bits w0 47 40
    { index := bits w0 31 0, words := ((w0 :: r).take k).map w64 } :: cutTail n ((w0 :: r).drop k)

/-- Unwrap a slot number against an earlier slot (R290). -/
def unwrapSlot (slot prev : Nat) : Nat :=
  let x := prev / 2 ^ 51 * 2 ^ 51 + slot
  if x + 2 ^ 50 < prev then x + 2 ^ 51 else x

/-- Word `i` of a tail marker. -/
def TailMark.word (m : TailMark) (i : Nat) : Nat := ((m.words.getD i 0)).toNat

/-- Marker code of a tail entry. -/
def TailMark.code (m : TailMark) : Nat := bits (m.word 0) 63 56

/-- The FIRST_SLOT quantity of an item of kinds 3 to 9 (table `Streams`); a stamp run names the merge window (of `win` slots) of
its first stamp. -/
def ownSlot (kind win prev : Nat) (ws : List Nat) : Nat :=
  let at_ (i : Nat) : Nat := ws.getD i 0
  match kind with
  | 3 =>
    let x := if bits (at_ 0) 63 56 = 0xFF then (if bits (at_ 0) 55 48 = 0x0B then bits (at_ 1) 47 0 * 8 else bits (at_ 1) 50 0)
      else bits (at_ 1) 56 6
    if ws.length ≤ 1 then prev else x / win * win
  | 4 | 5 => bits (at_ 1) 50 0
  | 6 => bits (at_ 1) 50 0
  | 7 => bits (at_ 0) 47 0 * 8
  | 8 => bits (at_ 0) 47 0 * 8
  | _ => prev

/-- Slots of the items of a chunk (R290): `i` counts the items done, `slot` is where the next one stands. -/
def placeItems (kind win : Nat) (tail : List TailMark) : Nat → Nat → Nat → List (List Nat) → List Item
  | _, _, _, [] => []
  | i, slot, e, ws :: r =>
    let ms := tail.filter (fun m => m.index = i ∧ (m.code = 3 ∨ m.code = 4))
    let (slot, e) := ms.foldl (fun (q : Nat × Nat) m =>
      if m.code = 3 then (unwrapSlot (m.word 1 % 2 ^ 51) q.1, m.word 2 % 32) else (unwrapSlot (m.word 2 % 2 ^ 51) q.1, q.2)) (slot, e)
    let here := if kind = 1 then slot
      else if kind = 2 then (if i = 0 then slot else slot + bits (ws.headD 0) 63 32)
      else unwrapSlot (ownSlot kind win slot ws % 2 ^ 51) slot
    let next := if kind = 1 then slot + 2 ^ e else here
    { slot := here, words := ws.map w64, ply := none } :: placeItems kind win tail (i + 1) next e r

/-! ### Chunks read back -/

/-- A pocket and header read back (R268 to R272): the chunk without its items, with the ITEMS, TAIL_LEN, FIRST_SLOT, LAST_SLOT
and STORED_LEN its header claims, and its bytes. -/
structure ReadChunk where
  chunk : Chunk
  count : Nat
  tailLen : Nat
  first : Nat
  last : Nat
  storedLen : Nat
  raw : List Byte
  deriving DecidableEq, Repr

/-- The field of `n` bytes at an offset. -/
def fieldAt (bs : List Byte) (off n : Nat) : Nat := fromLe ((bs.drop off).take n)

/-- LENGTH of the pocket at the head of bytes. -/
def pocketLength (bs : List Byte) : Nat := fieldAt bs 0 4

/-- Read a chunk's pocket and header; none when the pocket is zero or fails R269 or HDR_CRC fails (check 1 of R312). -/
def readChunk (bs : List Byte) : Option ReadChunk :=
  let n := pocketLength bs
  if !pocketGood (bs.take 8) ∨ n < 64 ∨ bs.length < n then none
  else if fieldAt bs 0x3C 4 ≠ crc32c ((bs.drop 8).take 52) then none
  else
    let stored := (bs.take n).drop 64
    let c : Chunk :=
      { stream := fieldAt bs 5 1, record := fieldAt bs 8 4, segment := fieldAt bs 0xC 4, seq := fieldAt bs 0x10 4,
        kind := fieldAt bs 0x14 1, exp := fieldAt bs 0x15 1, items := [], tail := [], flags := fieldAt bs 6 1,
        origin := fieldAt bs 0x34 1, place := fieldAt bs 0x35 1, payloadLen := fieldAt bs 0x2C 4, stored := stored,
        dataCrc := some (fieldAt bs 0x38 4) }
    some
      { chunk := c, count := fieldAt bs 0x28 4, tailLen := fieldAt bs 0x16 2, first := fieldAt bs 0x18 8,
        last := fieldAt bs 0x20 8, storedLen := fieldAt bs 0x30 4, raw := bs.take n }

/-- DATA_CRC over the stored bytes (check 2). -/
def ReadChunk.dataGood (r : ReadChunk) : Bool := fieldAt r.raw 0x38 4 == crc32c r.chunk.stored && r.storedLen == r.chunk.stored.length

/-- COMPRESSED and class bits of a pocket's FLAGS. -/
def Chunk.compressed (c : Chunk) : Bool := bitOf c.flags 0
def Chunk.cls (c : Chunk) : Nat := bits c.flags 7 6

/-- The chunk with the items and tail that its decoded bytes hold; none when they are not ITEMS whole items of PAYLOAD_LEN
bytes. `win` is the length of a stamp merge window in slots, `prev` the slot unwrapping starts from. -/
def ReadChunk.fill (r : ReadChunk) (win prev : Nat) (body : List Byte) : Option Chunk :=
  let c := r.chunk
  let size := symBits c.kind / 8
  let tail := cutTail r.tailLen (wordsOf 2 r.tailLen (body.drop ((c.payloadLen + 7) / 8 * 8)))
  if c.payloadLen % size ≠ 0 ∨ body.length < c.payloadLen then none
  else match cutItems c.kind r.count (wordsOf c.kind (c.payloadLen / size) (body.take c.payloadLen)) with
    | none => none
    | some ws =>
      if ws.length ≠ r.count then none
      else
        let items := placeItems c.kind win tail 0 (unwrapSlot (r.first % 2 ^ 51) prev) (c.exp % 32) ws
        some { c with items := items, tail := tail }

/-! ### Dictionary class (R299 to R302) -/

/-- NEXT of R300. -/
def Coder.next (c : Coder) : Nat := 3 + c.dict.length

/-- Width of the next code (table `Code widths`). -/
def Coder.width (c : Coder) : Nat := Nat.min 16 (Nat.max 9 (Nat.log2 c.next + 1))

/-- Whether no further string can be added. -/
def Coder.full (c : Coder) : Bool := decide (65536 ≤ c.next)

/-- The lowest code that names a string (log entry 20). -/
def Coder.code (c : Coder) (s : List Nat) : Option Nat := (c.dict.findIdx? (· == s)).map (· + 3)

/-- What a code for string `s` does to the state (R300). -/
def Coder.sent (c : Coder) (s : List Nat) : Coder :=
  { dict := if c.prev ≠ [] ∧ c.next < 65536 then c.dict ++ [c.prev ++ [s.headD 0]] else c.dict, prev := s }

/-- An encoder of D: bits so far, state, string matched and not yet sent. -/
structure DEnc where
  bits : BitsOut
  coder : Coder
  pend : List Nat
  deriving DecidableEq, Repr

/-- Send the pending string: its code, or a literal. -/
def DEnc.flush (w : Nat) (e : DEnc) : DEnc :=
  if e.pend = [] then e
  else
    let wd := e.coder.width
    let b := match e.coder.code e.pend with
      | some c => e.bits.put c wd
      | none => (e.bits.put 0 wd).put (e.pend.headD 0) w
    { bits := b, coder := e.coder.sent e.pend, pend := [] }

/-- Take one symbol: lengthen the pending string while it holds a code (R300). -/
def DEnc.sym (w : Nat) (e : DEnc) (x : Nat) : DEnc :=
  if e.pend ≠ [] ∧ (e.coder.code (e.pend ++ [x])).isSome then { e with pend := e.pend ++ [x] }
  else { e.flush w with pend := [x] }

/-- Start a block, with the reset code when it begins with reset (R299). -/
def DEnc.start (c : Coder) (reset : Bool) : DEnc :=
  if reset then { bits := BitsOut.empty.put 2 c.width, coder := Coder.empty, pend := [] }
  else { bits := BitsOut.empty, coder := c, pend := [] }

/-- Close a block: pending string, then code 1 (R307). -/
def DEnc.close (w : Nat) (e : DEnc) : DEnc :=
  let e := e.flush w
  { e with bits := e.bits.put 1 e.coder.width }

/-- Decode D codes up to code 1 (R302); none is a format error. `n` bounds the number of codes. Symbols come out newest first. -/
def dCodes (w : Nat) : Nat → BitsIn → Coder → List Nat → Option (List Nat × Coder × BitsIn)
  | 0, _, _, _ => none
  | n + 1, b, c, out =>
    match b.get c.width with
    | none => none
    | some (code, b) =>
      if code = 1 then some (out, c, b)
      else if code = 0 then
        match b.get w with
        | none => none
        | some (x, b) => dCodes w n b (c.sent [x]) (x :: out)
      else if code = 2 ∨ c.next ≤ code then none
      else
        let s := c.dict.getD (code - 3) []
        dCodes w n b (c.sent s) (s.reverse ++ out)

/-- Decode a D code stream. -/
def dDecode (w : Nat) (reset : Bool) (c : Coder) (bs : List Byte) : Option (List Nat × Coder × Nat) :=
  let b := BitsIn.of bs
  let go (b : BitsIn) (c : Coder) : Option (List Nat × Coder × Nat) :=
    match dCodes w (b.left + 1) b c [] with
    | some (out, c, b) => some (out.reverse, c, b.used)
    | none => none
  if reset then
    match b.get c.width with
    | some (2, b) => go b Coder.empty
    | _ => none
  else go b c

/-! ### Prediction class (R303 to R306) -/

/-- A context: its key, A and N (R305). -/
structure RiceCtx where
  key : Nat
  a : Nat
  n : Nat
  deriving DecidableEq, Repr

/-- State of a P block: contexts, word 0 of the previous item, the last two items of each key, newest first, and the stamps of
the block, newest first, as (channel, slope, T). -/
structure PState where
  ctxs : List RiceCtx
  prev : Nat
  items : List (Nat × List Nat × List Nat)
  stamps : List (Nat × Nat × Nat)
  deriving DecidableEq, Repr

def PState.empty : PState := { ctxs := [], prev := 0, items := [], stamps := [] }

/-- A context, fresh when not met before: A = 16, N = 1. -/
def PState.ctx (p : PState) (key : Nat) : RiceCtx := (p.ctxs.find? (fun c => c.key = key)).getD { key := key, a := 16, n := 1 }

/-- The Rice parameter: the smallest k from 0 to W − 4 with N × 2^k ≥ A (R305). -/
def RiceCtx.k (c : RiceCtx) (w : Nat) : Nat := ((List.range (w - 3)).find? (fun k => decide (c.a ≤ c.n * 2 ^ k))).getD (w - 4)

/-- A context after a word (R305). -/
def RiceCtx.after (c : RiceCtx) (u : Nat) : RiceCtx :=
  let a := Nat.min (c.a + u) (2 ^ 48 - 1)
  if c.n + 1 = 64 then { c with a := a / 2, n := 32 } else { c with a := a, n := c.n + 1 }

/-- Keep a context. -/
def PState.keep (p : PState) (c : RiceCtx) : PState := { p with ctxs := c :: p.ctxs.filter (fun d => d.key ≠ c.key) }

/-- Map a residue modulo 2^w to u, and back (R304). -/
def foldRes (w r : Nat) : Nat := if r < 2 ^ (w - 1) then 2 * r else 2 * (2 ^ w - r) - 1
def unfoldRes (w u : Nat) : Nat := if u % 2 = 0 then u / 2 % 2 ^ w else (2 ^ w - (u + 1) / 2) % 2 ^ w

/-- Write u with parameter k (R304). -/
def BitsOut.rice (b : BitsOut) (w k u : Nat) : BitsOut :=
  let q := u / 2 ^ k
  if q < 24 then ((b.put (2 ^ q - 1) q).put 0 1).put u k else (b.put (2 ^ 24 - 1) 24).put u w

/-- Count 1-bits up to `n`, and the 0-bit that ends a shorter run. -/
def BitsIn.ones : Nat → BitsIn → Option (Nat × BitsIn)
  | 0, b => some (0, b)
  | n + 1, b => match b.get 1 with
    | none => none
    | some (0, b) => some (0, b)
    | some (_, b) => match BitsIn.ones n b with
      | some (q, b) => some (q + 1, b)
      | none => none

/-- Read u with parameter k. -/
def BitsIn.rice (b : BitsIn) (w k : Nat) : Option (Nat × BitsIn) :=
  match b.ones 24 with
  | none => none
  | some (q, b) =>
    if q < 24 then (match b.get k with | some (x, b) => some (q * 2 ^ k + x, b) | none => none) else b.get w

/-- Context key of an item, from word 0 (table `P predictors`). -/
def predKey (kind w0 : Nat) : Nat :=
  match kind with
  | 3 => bits w0 63 56
  | 4 | 5 => bits w0 55 48
  | 7 => bits w0 55 54
  | 8 => bits w0 52 48
  | _ => 0

/-- Words predicted with P2. -/
def isP2 (kind i : Nat) : Bool :=
  match kind with
  | 4 | 5 => i == 1 || i == 2 || i == 3
  | 6 | 7 => i == 1
  | 8 => i == 4
  | _ => false

/-- Prediction of word `i` (from 1) of an item (R303). -/
def PState.predict (p : PState) (kind key i : Nat) : Nat :=
  match (p.items.find? (fun e => e.1 = key)).map Prod.snd with
  | none => 0
  | some (a, b) =>
    let x := a.getD i 0
    if isP2 kind i && decide (i < b.length) then (x + (2 ^ 64 + x - b.getD i 0)) % 2 ^ 64 else x

/-- Keep an item as the latest of its key. -/
def PState.keepItem (p : PState) (key : Nat) (ws : List Nat) : PState :=
  let before := ((p.items.find? (fun e => e.1 = key)).map (fun e => e.2.1)).getD []
  { p with prev := ws.headD 0, items := (key, ws, before) :: p.items.filter (fun e => e.1 ≠ key) }

/-- Context of a word position (R305). -/
def posKey (i : Nat) : Nat := Nat.min i 15

/-- Context of a channel and slope. -/
def stampKey (ch slope : Nat) : Nat := 16 + 2 * ch + slope

/-- Bits [63:57] predicted for a stamp (R306): SLOPE opposite to the channel's previous stamp. -/
def PState.predTop (p : PState) (ch : Nat) : Nat :=
  match p.stamps.find? (fun e => e.1 = ch) with
  | some (_, sl, _) => if sl = 0 then 64 else 0
  | none => 64

/-- Predicted T of a stamp (R306). -/
def PState.predTime (p : PState) (ch slope : Nat) : Nat :=
  match p.stamps.filter (fun e => e.1 = ch ∧ e.2.1 = slope) with
  | (_, _, t1) :: (_, _, t2) :: _ => (t1 + (2 ^ 57 + t1 - t2)) % 2 ^ 57
  | [(_, _, t1)] => t1
  | [] => match p.stamps.find? (fun e => e.1 = ch) with
    | some (_, _, t) => t
    | none => ((p.stamps.head?.map (fun e => e.2.2)).getD 0)

/-- Write one word of `w` bits. -/
def pWord (w key pred v : Nat) (q : BitsOut × PState) : BitsOut × PState :=
  let u := foldRes w ((v + 2 ^ w - pred % 2 ^ w) % 2 ^ w)
  let c := q.2.ctx key
  (q.1.rice w (c.k w) u, q.2.keep (c.after u))

/-- The residue of a stamp time modulo 2^57, sign-extended, as u (R306). -/
def stampRes (t pred : Nat) : Nat := foldRes 57 ((t + 2 ^ 57 - pred) % 2 ^ 57)

/-- Write one stamp of a run (R306). -/
def pStamp (ch v : Nat) (q : BitsOut × PState) : BitsOut × PState :=
  let top := bits v 63 57
  let b := if top = q.2.predTop ch then q.1.put 0 1 else (q.1.put 1 1).put top 7
  let slope := bits v 63 63
  let t := bits v 56 0
  let u := stampRes t (q.2.predTime ch slope)
  let c := q.2.ctx (stampKey ch slope)
  let p := q.2.keep (c.after u)
  (b.rice 64 (c.k 64) u, { p with stamps := (ch, slope, t) :: p.stamps })

/-- Whether an item is a stamp run. -/
def isRun (kind w0 : Nat) : Bool := kind == 3 && bits w0 63 56 != 0xFF && bits w0 55 48 == 0

/-- Write one item (R303). -/
def pItem (kind : Nat) (ws : List Nat) (q : BitsOut × PState) : BitsOut × PState :=
  let w := symBits kind
  let w0 := ws.headD 0
  let key := predKey kind w0
  let q0 := pWord w 0 q.2.prev w0 q
  let q1 := if isRun kind w0 then (ws.drop 1).foldl (fun q v => pStamp (bits w0 63 56) v q) q0
    else (List.range (ws.length - 1)).foldl (fun (r : BitsOut × PState) i =>
      pWord w (posKey (i + 1)) (q.2.predict kind key (i + 1)) (ws.getD (i + 1) 0) r) q0
  (q1.1, q1.2.keepItem key ws)

/-- Read one word. -/
def pReadWord (w key pred : Nat) (b : BitsIn) (p : PState) : Option (Nat × BitsIn × PState) :=
  let c := p.ctx key
  match b.rice w (c.k w) with
  | none => none
  | some (u, b) => some ((pred + unfoldRes w u) % 2 ^ w, b, p.keep (c.after u))

/-- Read one stamp. -/
def pReadStamp (ch : Nat) (b : BitsIn) (p : PState) : Option (Nat × BitsIn × PState) :=
  let top : Option (Nat × BitsIn) := match b.get 1 with
    | none => none
    | some (0, b) => some (p.predTop ch, b)
    | some (_, b) => b.get 7
  match top with
  | none => none
  | some (top, b) =>
    let slope := top / 64
    let c := p.ctx (stampKey ch slope)
    match b.rice 64 (c.k 64) with
    | none => none
    | some (u, b) =>
      let t := (p.predTime ch slope + unfoldRes 57 u) % 2 ^ 57
      let p := p.keep (c.after u)
      some (top * 2 ^ 57 + t, b, { p with stamps := (ch, slope, t) :: p.stamps })

/-- Read words `i`, `i + 1`, … of an item, `n` of them at most, newest first; `old` is the state before the item. -/
def pReadWords (kind : Nat) (old : PState) : Nat → List Nat → BitsIn → PState → Option (List Nat × BitsIn × PState)
  | 0, ws, b, p => some (ws, b, p)
  | n + 1, ws, b, p =>
    let i := ws.length
    let w0 := ws.getLast?.getD 0
    let w1 := if i < 2 then 0 else ws.getD (i - 2) 0
    if (if kind = 9 ∧ i < 2 then 2 else itemWords kind w0 w1) ≤ i then some (ws, b, p)
    else
      let r := if isRun kind w0 then pReadStamp (bits w0 63 56) b p
        else pReadWord (symBits kind) (posKey i) (old.predict kind (predKey kind w0) i) b p
      match r with
      | none => none
      | some (v, b, p) => pReadWords kind old n (v :: ws) b p

/-- Read `n` items (R303). -/
def pDecode (kind : Nat) : Nat → BitsIn → PState → List (List Nat) → Option (List (List Nat) × BitsIn)
  | 0, b, _, out => some (out.reverse, b)
  | n + 1, b, p, out =>
    match pReadWord (symBits kind) 0 p.prev b p with
    | none => none
    | some (w0, b, p') =>
      match pReadWords kind p (b.left + 1) [w0] b p' with
      | none => none
      | some (ws, b, p') =>
        let ws := ws.reverse
        pDecode kind n b (p'.keepItem (predKey kind w0) ws) (ws :: out)

/-! ### Blocks (R296, R297) -/

/-- Classes of CMP_STREAM_CFG and of the pocket (R293). -/
abbrev CL.NONE : Nat := 0
abbrev CL.D : Nat := 1
abbrev CL.P : Nat := 2

/-- Words of an item as numbers. -/
def Item.nums (it : Item) : List Nat := it.words.map (fun w => w.toNat)

/-- What a block is made of: class, number, threads, thread, whether it begins with reset, and the coding state before it. -/
structure BlockHead where
  cls : Nat
  seq : Nat
  threads : Nat
  thread : Nat
  reset : Bool
  coder : Coder
  deriving DecidableEq, Repr

/-- The block header (table `Block header`). -/
def BlockHead.bytes (h : BlockHead) (kind : Nat) : List Byte :=
  let low := h.cls + (if h.reset ∨ h.cls = CL.P then 2 ^ 8 else 0) + (if h.cls = CL.D ∧ !h.reset ∧ h.coder.full then 2 ^ 9 else 0) +
    kind * 2 ^ 16 + h.thread * 2 ^ 24 + (h.threads - 1) * 2 ^ 28
  leBytes 4 low ++ leBytes 4 h.seq

/-- The D encoder after a list of items. -/
def dEncode (h : BlockHead) (kind : Nat) (items : List Item) : DEnc :=
  items.foldl (fun e it => it.nums.foldl (DEnc.sym (symBits kind)) e) (DEnc.start h.coder h.reset)

/-- The P encoder after a list of items. -/
def pEncode (kind : Nat) (items : List Item) : BitsOut × PState :=
  items.foldl (fun q it => pItem kind it.nums q) (BitsOut.empty, PState.empty)

/-- The stored bytes of a block, and the coding state after it. -/
def encodeBlock (h : BlockHead) (kind : Nat) (items : List Item) (tail : List TailMark) : List Byte × Coder :=
  let (code, coder) := if h.cls = CL.D then
      let e := (dEncode h kind items).close (symBits kind)
      (e.bits.bytes, e.coder)
    else ((pEncode kind items).1.bytes, h.coder)
  (padTo8 (h.bytes kind ++ code ++ tailBytes tail ++ leBytes 4 (crc32c (uncompressedBody kind items tail))), coder)

/-- Causes of decompression checks (table `Decompression checks`, R313). -/
abbrev DC.POCKET : Nat := 1
abbrev DC.DATA_CRC : Nat := 2
abbrev DC.HEADER : Nat := 3
abbrev DC.FORMAT : Nat := 4
abbrev DC.CHECK : Nat := 5
abbrev DC.SEQ_GAP : Nat := 6
abbrev DC.POISONED : Nat := 7

/-- Fields of the block header of stored bytes. -/
def blockLow (st : List Byte) : Nat := fieldAt st 0 4
def blockSeqOf (st : List Byte) : Nat := fieldAt st 4 4
def blockReset (st : List Byte) : Bool := bitOf (blockLow st) 8
def blockThread (st : List Byte) : Nat := bits (blockLow st) 27 24

/-- Check 3 of R312. -/
def blockHeadGood (c : Chunk) : Bool :=
  let low := blockLow c.stored
  decide (8 ≤ c.stored.length) && bits low 7 0 == c.cls && bits low 23 16 == c.kind && decide (bits low 27 24 ≤ bits low 31 28) &&
  bits low 15 10 == 0 && (c.cls == CL.D || (c.cls == CL.P && bitOf low 8))

/-- Decode the block of a chunk (checks 5 and 6 of R312): the chunk uncompressed with its items, and the coding state after it, or the
cause of the failure. -/
def decodeBlock (r : ReadChunk) (win prev : Nat) (coder : Coder) : Except Nat (Chunk × Coder) :=
  let c := r.chunk
  let code := c.stored.drop 8
  let out : Option (List Nat × Coder × Nat) :=
    if c.cls = CL.D then dDecode (symBits c.kind) (blockReset c.stored) coder code
    else match pDecode c.kind r.count (BitsIn.of code) PState.empty [] with
      | some (ws, b) => some (ws.flatten, coder, b.used)
      | none => none
  match out with
  | none => .error DC.FORMAT
  | some (ws, coder, used) =>
    let n := (used + 7) / 8
    let body := padTo8 (ws.flatMap (leBytes (symBits c.kind / 8))) ++ (code.drop n).take (8 * r.tailLen)
    let rest := code.drop (n + 8 * r.tailLen)
    let pads := rest.drop 4
    if fromLe (code.take n) / 2 ^ used ≠ 0 ∨ rest.length < 4 ∨ pads.length > 7 ∨ fromLe pads ≠ 0 ∨
        ws.length * (symBits c.kind / 8) ≠ c.payloadLen then .error DC.FORMAT
    else match r.fill win prev body with
      | none => .error DC.FORMAT
      | some c' =>
        if fieldAt rest 0 4 ≠ crc32c body then .error DC.CHECK
        else .ok ({ c' with flags := putBit c'.flags 0 false, stored := body, dataCrc := none }, coder)

end Sys2Proof.Machine
end

