-- ==== Sys2Proof/Machine/Path.lean ====
section
/-!
DEFINITION. The store path (R271, R276 to R279, R293 to R311): ring chunks dealt to threads, chunks and blocks made in the
store-path banks, copies for the Ethernet destinations (R394), the store's extents and free space (R349, R352, R359), and errors
of deep memory (R340).
-/
namespace Sys2Proof.Machine

/-! ### Errors of deep memory (R340, R343) -/

/-- Offset of the first line of the row that holds a deep-memory offset (R339): bits [16:15] and [7:0] cleared. -/
def rowOf (o : Nat) : Nat := o / 2 ^ 17 * 2 ^ 17 + o % 2 ^ 15 / 2 ^ 8 * 2 ^ 8

/-- DMC_BADROW_LO and _HI follow the list and the entry selected (R346). -/
def State.showBadRow (s : State) : State :=
  s.put64 P.DMC F.DMC_BADROW_LO F.DMC_BADROW_HI (s.mar.badRows.getD s.mar.sel 0)

/-- A row enters the bad-row list, once; beyond 64 entries it is only counted (R343). -/
def State.addBadRow (s : State) (o : Nat) : State :=
  let row := rowOf o
  if s.mar.badRows.contains row then s
  else if 64 ≤ s.mar.badRows.length then s.sat P.DMC F.DMC_REPAIR_FAIL_CNT
  else
    let s : State := { s with mar := { s.mar with badRows := s.mar.badRows ++ [row] } }
    let stack := o / 2 ^ 8 % 8
    let s := s.put P.DMC F.DMC_STACK_STAT_LISTED (s.get P.DMC F.DMC_STACK_STAT_LISTED stack + 1) stack
    let s := s.put P.DMC F.DMC_BADROW_CNT s.mar.badRows.length
    (s.showBadRow).level P.DMC 3 true

/-- A corrected error of deep memory (R340). -/
def State.dmCorrected (s : State) (o : Nat) : State :=
  ((s.sat P.DMC F.DMC_CE_CNT).put64 P.DMC F.DMC_ECC_LAST_LO F.DMC_ECC_LAST_HI (o % 2 ^ 38)).pulse P.DMC 0

/-- An uncorrectable error of deep memory (R340). -/
def State.dmUncorrectable (s : State) (o : Nat) : State :=
  let s := (s.sat P.DMC F.DMC_UE_CNT).put64 P.DMC F.DMC_ECC_LAST_LO F.DMC_ECC_LAST_HI (o % 2 ^ 38 + 2 ^ 63)
  ((s.pulse P.DMC 1).addBadRow o).raiseFault Q.DEEP_MEM

/-! ### Threads of the store path -/

/-- Threads are numbered here: lane n is n, the uncompressed path of stream i is 16 + i. -/
def State.thread (s : State) (i : Nat) : Lane := if i < 16 then s.lanes.getD i Lane.empty else s.raws.getD (i - 16) Lane.empty
def State.modThread (s : State) (i : Nat) (f : Lane → Lane) : State :=
  if i < 16 then { s with lanes := lmod s.lanes i f } else { s with raws := lmod s.raws (i - 16) f }

/-- First scratch offset of the spare bank pairs (R294): those of streams 22 to 31. -/
def spareBase : Nat := bankBase 22 false

/-- Scratch offset of a stream's own store-path banks (R279, R321). -/
def State.storeBase (s : State) (sid : Nat) : Nat := bankBase sid false + (if s.splitBanks sid then 0x20000 else 0)

/-- Size of a thread's banks (R278, R279): 256 KiB, or half-banks. -/
def State.threadBank (s : State) (q : Lane) (sid : Nat) : Nat :=
  if 8 ≤ sid ∧ s.splitBanks sid ∧ q.base < spareBase then 2 ^ 17 else 2 ^ 18

/-- ACQ_CTL.MODE in use. -/
def State.acqModeNow (s : State) : Nat := s.use P.ACQ F.ACQ_CTL_MODE

/-- Settings of a stream: CLASS, POLICY and RESET_BLOCKS (table of CMP_STREAM_CFG). -/
def State.streamCfg (s : State) (sid : Nat) : Nat := bits (s.useReg P.CMP (F.CMP_STREAM_CFG.at (sid / 2))) (16 * (sid % 2) + 15) (16 * (sid % 2))

/-- The class a setting selects for a stream (R293). -/
def classOf (sid cfg : Nat) : Nat := if bits cfg 15 14 = 3 then (if sid < 8 then CL.D else CL.P) else bits cfg 15 14

/-- Class of a stream at present. -/
def State.streamClass (s : State) (sid : Nat) : Nat := classOf sid (s.streamCfg sid)

/-- The threads of a stream, in order (R294): its lanes, or its uncompressed path. -/
def State.threadsOf (s : State) (sid : Nat) : List Nat :=
  let ls := (List.range 16).filter (fun i => (s.thread i).stream = some sid && (s.thread i).host.isNone)
  if ls.isEmpty then [16 + sid] else ls

/-- Field of `n` bytes of a record header (table `Record header`). -/
def headField (h : List Byte) (off n : Nat) : Nat := fieldAt h off n

/-- Ring chunks of a stream that belong to a record a header describes, from the one that holds COLLAR_START (R264). -/
def State.recordChunks (s : State) (sid : Nat) (h : List Byte) : List RingChunk :=
  let q := s.stream sid
  chunksFrom (headField h 0x18 8) ((q.older ++ q.ring).filter (fun e =>
    e.chunk.record = headField h 0 4 ∧ e.chunk.segment = headField h 4 4))

/-- First byte in deep memory of the ring, or of the part of it, that holds a segment (R245, R264). -/
def State.ringBase (s : State) (sid segment : Nat) : Nat :=
  if s.acqModeNow = 1 then
    let here := s.ringSpan sid
    let n := s.use P.ACQ F.ACQ_SEG_CFG_SEG_COUNT
    let parts := if n = 0 then Nat.max 2 (s.use P.ACQ F.ACQ_SEG_CFG_SEG_RING) else n
    s.get P.ACQX F.ACQ_RING_BASE_MIB sid * 2 ^ 20 + here.2 * (segment % parts)
  else (s.ringSpan sid).1

/-- Ring chunks still to be read of a stream: those of the OFFLOAD that has its path, or those of the streaming reader (R246, R247)
from the one that holds the reader's first slot. -/
def State.readable (s : State) (sid : Nat) : List RingChunk :=
  let q := s.stream sid
  let all := match q.pathOp with
    | some id => match (s.store.jobs.find? (fun (j : StoJob) => j.op = some id)).bind StoJob.header with
      | some h => s.recordChunks sid h
      | none => []
    | none => match s.acq.readerFrom with
      | some f => chunksFrom f q.ring
      | none => []
  all.filter (fun e => decide (q.readSeq ≤ e.chunk.seq))

/-- A ring chunk as an OFFLOAD reads it from deep memory: as it stands there, exactly as read when it does not check (R340). -/
def State.asStored (s : State) (e : RingChunk) (base : Nat) : Chunk × Bool :=
  match readChunk (s.dmRead base e.chunk.length) with
  | none => (e.chunk, true)
  | some r =>
    let win := 8 * 2 ^ s.use (P.STP ((e.chunk.stream - 8) % 8)) F.STP_CTL_WIN_EXP
    match (if r.dataGood then r.fill win e.chunk.first r.chunk.stored else none) with
    | some c => (c, false)
    | none => (r.chunk, true)

/-- Replace the bytes of a chunk that a line with an uncorrectable error covers by free values; DATA_CRC stays as written (R340). -/
def State.spoil (s : State) (c : Chunk) (base off : Nat) : State × Chunk :=
  let at_ := off / 64 * 64
  let free := (List.range 8).foldl (fun (q : State × List Byte) _ =>
    let (w, s) := q.1.takeFree
    (s, q.2 ++ leBytes 8 w.toNat)) (s, [])
  let bytes := (List.range c.stored.length).map (fun i =>
    let a := base + 64 + i
    if at_ ≤ a ∧ a < at_ + 64 then free.2.getD (a - at_) 0 else c.stored.getD i 0)
  (free.1, { c with stored := bytes, dataCrc := some (c.dataCrc.getD (crc32c c.stored)) })

/-- Deal ring chunks of a stream to its threads in turn (R294), while the next thread has none and no thread stalls (R309).
`bad` lists deep-memory offsets of lines that the reader cannot read right. -/
def State.deal (bad : List Nat) (sid : Nat) : Nat → State → State
  | 0, s => s
  | n + 1, s =>
    match s.readable sid with
    | [] => s
    | e :: _ =>
      let ts := s.threadsOf sid
      let no := (s.stream sid).dealt
      let i := ts.getD (no % ts.length) 0
      if (s.thread i).feed.isSome ∨ ts.any (fun j => (s.thread j).stalled) then s
      else
        let base := s.ringBase sid e.chunk.segment + e.pos
        let hits := bad.filter (fun o => decide (base ≤ o) && decide (o < base + e.chunk.length))
        let s := s.each hits (fun s o => s.dmUncorrectable o)
        let (stored, broken) := if (s.stream sid).pathOp.isSome then s.asStored e base else (e.chunk, false)
        let (s, c) := hits.foldl (fun (q : State × Chunk) o => q.1.spoil q.2 base o) (s, stored)
        let f : Feed :=
          { no := no, src := c, items := c.items, tail := c.tail, exp := c.exp, asRead := broken || !hits.isEmpty }
        let s := s.modThread i (fun q => { q with feed := some f })
        State.deal bad sid n (s.modStream sid (fun q => { q with readSeq := e.chunk.seq + 1, dealt := no + 1 }))

/-! ### Room in a bank (R267, R307, R308) -/

/-- The encoders of a chunk in progress. -/
structure PathEnc where
  d : DEnc
  p : BitsOut × PState
  deriving DecidableEq, Repr

/-- Take an item into the encoder of a class. -/
def PathEnc.item (e : PathEnc) (cls kind : Nat) (it : Item) : PathEnc :=
  if cls = CL.D then { e with d := it.nums.foldl (DEnc.sym (symBits kind)) e.d }
  else if cls = CL.P then { e with p := pItem kind it.nums e.p } else e

/-- R of R307: bytes that remain for further codes. -/
def PathEnc.room (e : PathEnc) (cls kind bank : Nat) (c : OpenChunk) : Int :=
  let code := if cls = CL.D then (e.d.bits.len + 7) / 8 else (e.p.1.len + 7) / 8
  let cost : Nat := match e.d.pend with | [] => 0 | [_] => 2 + symBits kind / 8 | _ => 2
  let pend : Nat := if cls ≠ CL.D then 0 else 2 + cost
  (bank : Int) - (72 + code + 8 * c.tailWords + 11 + pend : Nat)

/-- Whether the next item fits (R307, R267). -/
def PathEnc.fits (e : PathEnc) (cls kind bank : Nat) (c : OpenChunk) (it : Item) : Bool :=
  let n : Int := it.words.length
  if cls = CL.D then decide (e.room cls kind bank c ≥ 16 + (if kind = 1 then 6 else 10) * (n - 1))
  else if cls = CL.P then decide (e.room cls kind bank c ≥ (if kind = 1 then 7 else 12) * n)
  else c.fits kind it

/-- Whether a tail marker of `n` words fits (R308). -/
def PathEnc.fitsMark (e : PathEnc) (cls kind bank : Nat) (c : OpenChunk) (n : Nat) : Bool :=
  if cls = CL.NONE then decide (64 + (c.bytes + 7) / 8 * 8 + 8 * (c.tailWords + n) ≤ c.room)
  else decide (e.room cls kind bank c - 8 * n ≥ 0)

/-- Take the tail markers that stand before item `i`; answers those left over when one does not fit. -/
def takeMarks (cls kind bank i : Nat) (e : PathEnc) : List TailMark → OpenChunk → Nat → OpenChunk × List TailMark × Nat
  | [], c, x => (c, [], x)
  | m :: r, c, x =>
    if m.index ≠ i then (c, m :: r, x)
    else if e.fitsMark cls kind bank c m.words.length then
      let c := { c with tail := c.tail ++ [{ m with index := c.items.length }], tailWords := c.tailWords + m.words.length }
      takeMarks cls kind bank i e r c (if m.code = K.RATE then m.word 2 % 32 else x)
    else (c, m :: r, x)

/-- What taking items leaves: the chunk, items and markers left over, the number of items taken, the exponent reached, and
whether the chunk is full. -/
structure Taken where
  chunk : OpenChunk
  items : List Item
  tail : List TailMark
  count : Nat
  exp : Nat
  full : Bool
  deriving DecidableEq, Repr

/-- Take items and the markers before them while they fit. -/
def takeItems (cls kind bank : Nat) (thin : Bool) : List Item → Nat → List TailMark → Nat → OpenChunk → PathEnc → Taken
  | [], i, ms, x, c, e =>
    let (c, left, x) := takeMarks cls kind bank i e ms c x
    { chunk := c, items := [], tail := left, count := i, exp := x, full := !left.isEmpty }
  | it :: r, i, ms, x, c, e =>
    let (c, left, x) := takeMarks cls kind bank i e ms c x
    let blocked : Bool := match left with | m :: _ => m.index == i | [] => false
    if blocked ∨ !e.fits cls kind bank c it then
      { chunk := c, items := it :: r, tail := left, count := i, exp := x, full := true }
    else
      let c := if c.items.isEmpty then { c with exp := x } else c
      takeItems cls kind bank thin r (i + 1) left x (c.add kind thin it) (e.item cls kind it)

/-! ### Chunks made on the store path -/

/-- Reset conditions of a block of class D (R301). -/
def Lane.startsReset (q : Lane) (cfg : Nat) : Bool :=
  let n := bits cfg 7 0
  q.blockSeq == 0 || q.reset || (n != 0 && q.blockSeq % n == 0) || (q.coder.full && bitOf cfg 13) || q.cfg != cfg

/-- The block a thread would make next. -/
def Lane.head (q : Lane) (sid cfg : Nat) : BlockHead :=
  let cls := classOf sid cfg
  { cls := cls, seq := q.blockSeq, threads := q.threads, thread := q.thread, reset := cls == CL.P || q.startsReset cfg,
    coder := q.coder }

/-- A chunk of the store path (R271, R296) made of a chunk in progress. -/
def State.pathChunk (s : State) (sid : Nat) (src : Chunk) (c : OpenChunk) (final : Bool) (flags : Nat) (stored : List Byte) : Chunk :=
  let flags := putBit (putBit (putBit flags 2 final) 3 c.thinned) 4 (s.seamChecked sid c.items)
  { stream := sid, record := src.record, segment := src.segment, seq := (s.stream sid).storeSeq, kind := src.kind, exp := c.exp,
    items := c.items, tail := c.tail, flags := flags, origin := src.origin, place := src.place, payloadLen := c.bytes,
    stored := stored, dataCrc := none }

/-- Offer a chunk of the store path to the Ethernet destinations (R394): a LOSSY queue of 16 that is full drops it; a PACED one
holds the bank. -/
def State.ethOffer (s : State) (c : Chunk) (i : Nat) (bank : Bool) : State :=
  s.each (List.range 4) (fun s d =>
    if s.enabled P.ETH && s.useB P.ETH F.ETH_CTL_EN && s.useB P.ETH F.DEST_CFG_EN d && bitOf (s.use P.ETH F.DEST_STREAMS d) c.stream then
      let q := s.eths.getD d { queue := [], dgrams := 0 }
      let paced := s.useB P.ETH F.DEST_CFG_PACED d
      if !paced ∧ 16 ≤ q.queue.length then (s.sat P.ETH F.DEST_DROP_CNT 1 d).pulse P.ETH (8 + d)
      else { s with eths := lmod s.eths d (fun q => { q with queue := q.queue ++ [(c, if paced then some (i, bank) else none)] }) }
    else s)

/-- CMP_STAT and the STALL event follow the lanes (R309, R316). -/
def State.cmpShow (s : State) : State :=
  let stall := (List.range 16).foldl (fun m i => if (s.thread i).stalled then m + 2 ^ i else m) 0
  let busy := (List.range 16).foldl (fun m i =>
    let q := s.thread i
    if q.host.isSome ∨ (q.stream.isSome ∧ (q.feed.isSome ∨ q.opened.isSome ∨ !q.owed.isEmpty)) then m + 2 ^ i else m) 0
  let s := (s.put P.CMP F.CMP_STAT_STALL stall).put P.CMP F.CMP_STAT_BUSY busy
  (s.setBlockState P.CMP (b2n (busy != 0))).level P.CMP 3 (stall != 0)

/-- Place chunks a thread owes into its free banks (R278); a thread that finds its bank not free stalls (R309). `n` bounds the
number placed. -/
def State.placeOwed (i : Nat) : Nat → State → State
  | 0, s => s
  | n + 1, s =>
    let q := s.thread i
    match q.owed with
    | [] => s
    | c :: r =>
      let free := (if q.current then q.bankB else q.bankA) == .free
      if !free then s
      else
        let s := s.scrWrite (q.base + (if q.current then 0x40000 else 0)) c.bytes
        let s := s.modThread i (fun q =>
          let q := { q with owed := r, current := !q.current }
          if !q.current then { q with bankB := .full c } else { q with bankA := .full c })
        State.placeOwed i n (s.ethOffer c i q.current)

/-- A thread stalls while it owes a chunk or has none of its banks free (R309); a new stall counts. -/
def State.settleStall (s : State) (i : Nat) : State :=
  let q := s.thread i
  let stall := !q.owed.isEmpty || (q.stream.isSome && (if q.current then q.bankB else q.bankA) != .free)
  let s := s.modThread i (fun q => { q with stalled := stall })
  if 16 ≤ i then s
  else (if stall && !q.stalled then s.sat P.CMP F.CMP_STALL_CNT else s).cmpShow

/-- Hand a thread's chunks to its banks, numbered in their order (R271, R278). -/
def State.handOver (s : State) (i sid : Nat) (cs : List Chunk) : State :=
  let n := (s.stream sid).storeSeq
  let cs := (cs.zipIdx).map (fun e => { e.1 with seq := n + e.2 })
  let s := s.modStream sid (fun q => { q with storeSeq := n + cs.length })
  let s := s.modThread i (fun q => { q with owed := q.owed ++ cs })
  (State.placeOwed i 3 s).settleStall i

/-- Cut items into uncompressed chunks for banks of a size (R310, R267). `n` bounds their number. -/
def cutRaw (kind bank : Nat) (thin : Bool) : Nat → List Item → List TailMark → Nat → List OpenChunk
  | 0, _, _, _ => []
  | n + 1, items, tail, x =>
    let c : OpenChunk :=
      { items := [], tail := [], bytes := 0, tailWords := 0, exp := x, thinned := thin, openedAt := 0, room := bank, ageMax := 0 }
    let t := takeItems CL.NONE kind bank thin items 0 tail x c
      { d := DEnc.start Coder.empty false, p := (BitsOut.empty, PState.empty) }
    let shift := t.tail.map (fun m => { m with index := m.index - t.count })
    if t.items.isEmpty ∧ t.tail.isEmpty then [t.chunk]
    else if t.count = 0 ∧ t.chunk.tail.isEmpty then [t.chunk]
    else t.chunk :: cutRaw kind bank thin n t.items shift t.exp

/-- CMP_RATIO of a stream after a chunk (R316). -/
def State.putRatio (s : State) (sid stored plain : Nat) : State :=
  let r := if plain ≤ stored ∨ plain = 0 then 0xFFFF else stored * 65536 / plain
  s.put P.CMP (if sid % 2 = 1 then F.CMP_RATIO_ODD else F.CMP_RATIO_EVEN) r (sid / 2)

/-- Close the chunk a thread has in progress (R296, R301, R307, R310, R311). `good` says that the lane's decoder agrees. -/
def State.closeThread (s : State) (i sid : Nat) (final good : Bool) : State :=
  let q := s.thread i
  match q.opened, q.src with
  | some c, some src =>
    let cfg := s.streamCfg sid
    let cls := if i < 16 then classOf sid cfg else CL.NONE
    let plain := uncompressedBody src.kind c.items c.tail
    let s := s.modThread i (fun q => { q with opened := none, src := none })
    if cls = CL.NONE then
      (s.handOver i sid [s.pathChunk sid src c final 0 plain]).putRatio sid 1 1
    else
      let h := q.head sid cfg
      let (block, coder) := encodeBlock h src.kind c.items c.tail
      let s := if cls = CL.D ∧ h.reset then s.sat P.CMP F.CMP_RESET_CNT else s
      let s := s.modThread i (fun q => { q with cfg := cfg })
      if !good then
        let s := ((s.sat P.CMP F.CMP_VERIFY_CNT).setReg P.CMP F.CMP_VERIFY_LAST.off (sid * 2 ^ 16 + i)).pulse P.CMP 0
        let s := s.raiseFault Q.COMPRESS
        let parts := cutRaw src.kind (s.threadBank q sid) c.thinned (c.items.length + c.tail.length + 1) c.items c.tail c.exp
        let last := parts.length - 1
        let cs := parts.zipIdx.map (fun e =>
          s.pathChunk sid src e.1 (final && e.2 == last) (2 + cls * 2 ^ 6) (uncompressedBody src.kind e.1.items e.1.tail))
        ((s.modThread i (fun q => { q with reset := true })).handOver i sid cs).putRatio sid 1 1
      else if plain.length ≤ block.length then
        let s := (s.sat P.CMP F.CMP_NOGAIN_CNT).pulse P.CMP 1
        ((s.modThread i (fun q => { q with reset := true })).handOver i sid
          [s.pathChunk sid src c final (2 + cls * 2 ^ 6) plain]).putRatio sid 1 1
      else
        let s := s.modThread i (fun q => { q with reset := false, blockSeq := q.blockSeq + 1, coder := coder })
        (s.handOver i sid [s.pathChunk sid src c final (1 + cls * 2 ^ 6) block]).putRatio sid (64 + block.length) (64 + plain.length)
  | _, _ => s

/-- The encoders as they stand after the items of a chunk in progress. -/
def Lane.enc (q : Lane) (sid cfg kind : Nat) (c : OpenChunk) : PathEnc :=
  { d := dEncode (q.head sid cfg) kind c.items, p := pEncode kind c.items }

/-- A thread takes what it can of its ring chunk, and closes its chunk when it is full, holds the last item of a ring chunk that
carries FINAL, ends a ring chunk of a stream with several threads (R294), or is as old as CHUNK_AGE_MAX (R276). -/
def State.runThread (s : State) (i sid t : Nat) (good : Bool) : State :=
  let q := s.thread i
  if q.stalled then s
  else
    let age := s.use P.RFQ F.RFQ_CTL_CHUNK_AGE_MAX
    match q.feed with
    | none =>
      match q.opened with
      | some c => if c.openedAt + usSlots c.ageMax ≤ t then s.closeThread i sid false good else s
      | none => s
    | some f =>
      if q.threads > 1 ∧ (s.stream sid).passed ≠ f.no then s
      else if f.asRead then
        let s := if q.opened.isSome then s.closeThread i sid false good else s
        let s := s.modThread i (fun q => { q with feed := none, owed := q.owed ++ [f.src] })
        ((State.placeOwed i 3 s).settleStall i).modStream sid (fun q => { q with passed := q.passed + 1 })
      else
        let cfg := s.streamCfg sid
        let cls := if i < 16 then classOf sid cfg else CL.NONE
        let bank := s.threadBank q sid
        let thin := bitOf f.src.flags 3
        let c := q.opened.getD
          { items := [], tail := [], bytes := 0, tailWords := 0, exp := f.exp, thinned := thin, openedAt := t, room := bank, ageMax := age }
        let e := q.enc sid cfg f.src.kind c
        let r := takeItems cls f.src.kind bank thin f.items 0 f.tail f.exp c e
        let shift := r.tail.map (fun m => { m with index := m.index - r.count })
        let ended := r.items.isEmpty && r.tail.isEmpty
        let left : Feed :=
          { f with items := r.items, tail := shift, exp := r.exp }
        let feed := if ended then none else some left
        let final := ended && bitOf f.src.flags 2
        let s := s.modThread i (fun q => { q with opened := some r.chunk, src := some (q.src.getD f.src), feed := feed })
        let s := if r.full ∧ i < 16 then (s.sat P.CMP F.CMP_BANKFULL_CNT).pulse P.CMP 2 else s
        let s := if r.full ∨ final ∨ (ended ∧ q.threads > 1) ∨ r.chunk.openedAt + usSlots r.chunk.ageMax ≤ t then
            s.closeThread i sid final good else s
        if ended then s.modStream sid (fun q => { q with passed := q.passed + 1 }) else s

/-- Run a thread until its ring chunk is taken or it stalls; `n` bounds the chunks made. `good` holds for the first block closed. -/
def State.runPath (i sid t : Nat) (bad : List Nat) : Nat → Bool → State → State
  | 0, _, s => s
  | n + 1, good, s =>
    let s := State.deal bad sid ((s.stream sid).ring.length + 1) s
    let before := (s.thread i).feed
    let s' := s.runThread i sid t good
    let closed := (s'.thread i).opened.isNone && (s.thread i).opened.isSome
    if (s'.thread i).feed = before ∨ (s'.thread i).stalled then s'
    else State.runPath i sid t bad n (good || closed) s'

/-- A bank of the store path is free again once its chunk is written and no PACED destination holds it (R278, R354, R394). -/
def State.freePath (s : State) (i : Nat) (bank : Bool) : State :=
  let held := s.eths.any (fun d => d.queue.any (fun e => e.2 == some (i, bank)))
  let inStore := s.store.writes.any (fun w => w.phase == 0 && w.lane == i && w.bank == bank)
  let full : Bool := match (if bank then (s.thread i).bankB else (s.thread i).bankA) with | .full _ => true | _ => false
  if held ∨ inStore ∨ full then s
  else
    let s := s.modThread i (fun q => if bank then { q with bankB := .free } else { q with bankA := .free })
    (State.placeOwed i 3 s).settleStall i

/-! ### Lanes (R295) -/

/-- Lanes a stream of class D or P asks for under AUTO. -/
def State.lanesWanted (s : State) (sid : Nat) : Nat :=
  if sid < 8 ∧ s.fixedRate sid then (64 / 2 ^ s.use (P.DIG sid) F.DIG_MODE_RATE_K + 7) / 8 else 1

/-- Lanes that serve nothing. -/
def State.freeLanes (s : State) : List Nat := (List.range 16).filter (fun i => (s.thread i).stream.isNone && (s.thread i).host.isNone)

/-- Spare bank pairs not lent, by their base. -/
def State.freePairs (s : State) : List Nat :=
  ((List.range 10).map (fun j => spareBase + j * 0x80000)).filter (fun b => !s.lanes.any (fun q => q.stream.isSome && q.base == b))

/-- Give a stream the lanes listed: the first writes into the stream's own banks, each further one into a spare pair (R294). -/
def State.giveLanes (s : State) (sid : Nat) (ls : List Nat) : State :=
  let pairs := s.freePairs
  let ls := ls.take (pairs.length + 1)
  s.each ls.zipIdx (fun s e =>
    let base := if e.2 = 0 then s.storeBase sid else pairs.getD (e.2 - 1) spareBase
    s.modThread e.1 (fun _ =>
      { Lane.empty with stream := some sid, thread := e.2, threads := ls.length, base := base, cfg := s.streamCfg sid }))

/-- CMP_LANE_MAP, CMP_NOLANE and their events (R295, R316). -/
def State.showLanes (s : State) (streams : List Nat) : State :=
  let s := s.each (List.range 4) (fun s j =>
    s.setReg P.CMP (F.CMP_LANE_MAP.at j) ((List.range 4).foldl (fun m b =>
      let q := s.thread (4 * j + b)
      m + 2 ^ (8 * b) * (match q.host, q.stream with
        | some _, _ => 0xC0
        | none, some sid => 0x80 + sid
        | none, none => 0)) 0))
  let none_ := streams.foldl (fun m sid =>
    if s.streamClass sid ≠ CL.NONE ∧ s.threadsOf sid = [16 + sid] then m + 2 ^ sid else m) 0
  ((s.put P.CMP F.CMP_NOLANE none_).level P.CMP 4 (none_ != 0)).cmpShow

/-- Assign lanes to streams in ascending order (R295); the streams begin with fresh threads. A stopped CMP page gives none. -/
def State.dealLanes (s : State) (streams : List Nat) : State :=
  let s := s.each streams (fun s sid =>
    let s := s.each (s.threadsOf sid) (fun s i => s.modThread i (fun _ => Lane.empty))
    let s := s.modThread (16 + sid) (fun _ => { Lane.empty with stream := some sid, base := s.storeBase sid })
    s.modStream sid (fun q => { q with storeSeq := 0, readSeq := 0, dealt := 0, passed := 0 }))
  let s := if !s.enabled P.CMP then s
    else if s.useB P.CMP F.CMP_CTL_LANE_MODE then
      s.each streams (fun s sid =>
        let ls := (List.range 16).filter (fun i =>
          let c := bits (s.useReg P.CMP (F.CMP_LANE_CFG.at (i / 4))) (8 * (i % 4) + 7) (8 * (i % 4))
          bitOf c 7 && bits c 4 0 == sid && s.freeLanes.contains i)
        if s.streamClass sid = CL.NONE then s else s.giveLanes sid ls)
    else
      s.each streams (fun s sid =>
        let free := s.freeLanes
        let n := Nat.min (s.lanesWanted sid) (free.length - s.use P.CMP F.CMP_CTL_HOST_LANES)
        if s.streamClass sid = CL.NONE then s else s.giveLanes sid (free.take n))
  s.showLanes streams

/-! ### Extents and free space of the store -/

def State.modStore (s : State) (f : StoreState → StoreState) : State := { s with store := f s.store }
def State.drive (s : State) (d : Nat) : Drive := s.store.drives.getD d { image := none, lost := false, batch := 0 }

/-- Drives of the store that are present and not lost, in port order (R352). -/
def State.liveDrives (s : State) : List Nat :=
  (List.range 4).filter (fun d => s.getB P.STO F.STO_DRIVE_STAT_IN_STORE d && (s.drive d).image.isSome && !(s.drive d).lost)

/-- Namespace size a drive counts with (R349): none for a drive that R348 rejects. -/
def Drive.mib (d : Drive) : Nat := match d.image with | some m => if m.good then m.blocks / 256 else 0 | none => 0

/-- Managed MiB of each drive, ports ascending (R349). -/
def managedMib : List Drive → Nat → List Nat
  | [], _ => []
  | d :: r, used =>
    let n := Nat.min d.mib (16777216 - used) / 256 * 256
    n :: managedMib r (used + n)

/-- Extents of a drive (R350). -/
def State.extentsOf (s : State) (d : Nat) : Nat := (managedMib s.store.drives 0).getD d 0 / 256 - 1

/-- FREE extents of a drive. -/
def State.freeExtents (s : State) (d : Nat) : Nat := s.extentsOf d - (s.store.exts.filter (fun e => e.drive = d)).length

/-- First LBA of an extent (R350), in blocks of 4 KiB. -/
def extentLba (i : Nat) : Nat := 65536 * (i + 1)

/-- Space and catalogue registers of STO (R359, R367). -/
def State.storeShow (s : State) : State :=
  let live := s.liveDrives
  let s := s.each (List.range 4) (fun s d =>
    let q := s.drive d
    let s := s.putB P.STO F.STO_DRIVE_STAT_LOST q.lost d
    let s := s.put P.STO F.STO_DRIVE_STAT_FREE_EXT (if live.contains d then s.freeExtents d else 0) d
    let s := s.put P.STO F.STO_DRIVE_MIB ((managedMib s.store.drives 0).getD d 0) d
    let n := (s.store.writes.filter (fun w => w.drive = d ∧ w.phase = 0)).foldl (fun n w => n + w.left) 0 +
      (if q.batch = 0 then 0 else 1)
    s.put P.NVQ F.NVQ_INFLIGHT n d)
  let s := s.put P.STO F.STO_CAP_MIB (live.foldl (fun n d => n + 256 * s.extentsOf d) 0)
  let s := s.put P.STO F.STO_FREE_MIB (live.foldl (fun n d => n + 256 * s.freeExtents d) 0)
  let s := s.put P.STO F.STO_REC_CNT s.store.table.length
  let s := s.put P.STO F.STO_UNCOMMITTED (s.store.writes.filter (fun w => 1 ≤ w.phase)).length
  let s := s.putB P.STO F.STO_STAT_WRITING (!s.store.jobs.isEmpty || !s.store.writes.isEmpty)
  let job := s.store.jobs.find? (fun j => j.op.isNone)
  let s := s.put P.STO F.STO_ALLOT_USED ((job.map StoJob.charge).getD 0)
  let s := s.put P.STO F.STO_REC_SLOT_SLOT ((job.map StoJob.slot).getD (s.get P.STO F.STO_REC_SLOT_SLOT))
  let s := s.putB P.STO F.STO_REC_SLOT_VALID ((job.map StoJob.opened).getD (s.getB P.STO F.STO_REC_SLOT_VALID))
  let r := s.store.table.find? (fun e => e.slot = s.store.sel)
  let field (off n : Nat) : Nat := (r.map (fun e => fieldAt e.header off n)).getD 0
  let s := s.put P.STO F.STO_CAT_STAT_STATE ((r.map RecEntry.state).getD 0)
  let s := (s.put P.STO F.STO_CAT_REC (field 0 4)).put P.STO F.STO_CAT_SEG (field 4 4)
  let s := s.put64 P.STO F.STO_CAT_BYTES_LO F.STO_CAT_BYTES_HI ((r.map RecEntry.bytes).getD 0)
  let ready := s.getB P.STO F.STO_STAT_READY
  (s.setBlockState P.STO (if s.getB P.STO F.STO_STAT_FORMAT_BUSY then 2 else b2n ready)).level P.STO 0 ready

/-- Return extents to FREE (R358, R361), with Dataset Management when DEALLOC_EN = 1. BAD extents stay BAD. -/
def State.releaseExtents (s : State) (sel : Extent → Bool) : State :=
  let gone := s.store.exts.filter (fun e => sel e && e.state != 3)
  let s := if s.useB P.STO F.STO_CTL_DEALLOC_EN then
      s.each gone (fun s e => s.emit (.nvme e.drive none (.deallocate (extentLba e.no) 65536))) else s
  s.modStore (fun q => { q with exts := q.exts.filter (fun e => !(sel e && e.state != 3)) })

/-! ### Records being stored (R355, R356, R358) -/

def State.jobOf (s : State) (op : Option Nat) : Option StoJob := s.store.jobs.find? (fun j => j.op = op)
def State.modJob (s : State) (op : Option Nat) (f : StoJob → StoJob) : State :=
  s.modStore (fun q => { q with jobs := q.jobs.map (fun j => if j.op = op then f j else j) })

/-- Where the copies of the record table lie and are still kept (R356): drive and first block, copy A first. -/
def State.tableCopies (s : State) : List (Nat × Nat) :=
  let ds := (List.range 4).filter (fun d => s.getB P.STO F.STO_DRIVE_STAT_IN_STORE d)
  let all := match ds with
    | [] => []
    | [a] => [(a, 512), (a, 8704)]
    | a :: b :: _ => [(a, 512), (b, 512)]
  let kept := all.filter (fun c => !(s.drive c.1).lost)
  if s.getB P.STO F.STO_STAT_TABLE_SINGLE then kept.take 1 else kept

/-- Issue the write of a table entry on one copy, a Flush before it where the drive has a write cache. -/
def State.issueTable (s : State) (slot : Nat) (c : Nat × Nat) : State :=
  let vwc : Bool := match (s.drive c.1).image with | some m => m.vwc | none => false
  let s := if vwc then s.emit (.nvme c.1 none .flush) else s
  s.emit (.nvme c.1 none (.write (c.2 + slot / 8) 1 true))

/-- Issue the next step of the table write at the head of the queue. -/
def State.startTable (s : State) : State :=
  match s.store.tabs with
  | [] => s
  | w :: _ => match (if w.aDone then s.tableCopies.drop 1 else s.tableCopies) with
    | c :: _ => s.issueTable w.entry.slot c
    | [] => s

/-- Queue a write of a record table entry. -/
def State.tableWrite (s : State) (e : RecEntry) : State :=
  let idle := s.store.tabs.isEmpty
  let s := s.modStore (fun q => { q with tabs := q.tabs ++ [{ entry := e, aDone := false }] })
  if idle then s.startTable else s

/-- A record header with VALID cleared. -/
def invalidHeader (h : List Byte) : List Byte := (h.take 0x0F) ++ [(h.getD 0x0F 0) &&& 0x7F] ++ h.drop 0x10

/-- The record table entry of a job. -/
def State.jobEntry (s : State) (j : StoJob) (state : Nat) (h : List Byte) : RecEntry :=
  { slot := j.slot, header := h, state := state,
    extents := (s.store.exts.filter (fun e => e.slot = j.slot ∧ e.record = j.record)).length, bytes := j.bytes }

/-- Where the header of the present record stands in deep memory (R259). -/
def State.headerAt (s : State) (index : Nat) : Nat := s.useReg P.ACQM F.ACQ_DM_BASE.off * 2 ^ 20 + 256 * (index % 65536)

/-- Whether everything of a record has gone through the store path: nothing left to read, to code or to write. -/
def State.pathDrained (s : State) (op : Option Nat) : Bool :=
  (List.range 22).all (fun sid =>
    (s.stream sid).pathOp != op || (s.readable sid).isEmpty && (s.threadsOf sid).all (fun i =>
      let q := s.thread i
      q.feed.isNone && q.opened.isNone && q.owed.isEmpty && q.bankA.chunk?.isNone && q.bankB.chunk?.isNone)) &&
  !s.store.writes.any (fun w => w.op == op)

/-- Write the entries of a job that are due (R355, R358): as OPEN once its first chunk is committed and its FIRE too, as COMPLETE once
every FINAL chunk and the final header are there; INCOMPLETE when a FINAL chunk was lost. -/
def State.settleJob (s : State) (j : StoJob) : State :=
  let sure := j.op.isSome || s.acqModeNow != 3 || s.acq.committed || !s.isArmed
  let s := if j.opened ∨ j.bytes = 0 ∨ !sure then s
    else
      let h := invalidHeader (j.header.getD (s.dmRead (s.headerAt j.segment) 256))
      (s.modJob j.op (fun j => { j with opened := true })).tableWrite (s.jobEntry j 1 h)
  match s.jobOf j.op with
  | none => s
  | some j =>
    let all := j.full || ((List.range 22).all (fun i => !bitOf j.streams i || bitOf j.finals i) && s.pathDrained j.op)
    match j.header with
    | none => s
    | some h =>
      if !j.opened ∨ j.closing ∨ !all then s
      else
        let s := s.modJob j.op (fun j => { j with closing := true })
        let s := s.modStore (fun q => { q with exts := q.exts.map (fun e =>
          if e.slot = j.slot ∧ e.record = j.record ∧ e.state = 1 then { e with state := 2 } else e) })
        s.tableWrite (s.jobEntry j (if j.broken then 3 else 2) (if j.broken then invalidHeader h else h))

def State.settleJobs (s : State) : State := (s.each s.store.jobs State.settleJob).storeShow

/-- What the streaming reader has sent for the record is discarded (R247, R358, R361): threads, banks, writes, extents and the
reserved table slot. -/
def State.discardSent (s : State) : State :=
  let sids := (List.range 22).filter (fun i => (s.stream i).pathOp.isNone)
  let s := s.each sids (fun s sid =>
    let s := s.each (s.threadsOf sid) (fun s i => s.modThread i (fun q =>
      { Lane.empty with stream := q.stream, thread := q.thread, threads := q.threads, base := q.base, cfg := q.cfg }))
    s.modStream sid (fun q => { q with storeSeq := 0, readSeq := 0, dealt := 0, passed := 0 }))
  match s.store.jobs.find? (fun j => j.op.isNone) with
  | none => s
  | some j =>
    let s := s.releaseExtents (fun e => e.slot == j.slot && e.record == j.record)
    let s := s.modStore (fun q => { q with
      writes := q.writes.filter (fun w => w.op.isSome), jobs := q.jobs.filter (fun j => j.op.isSome),
      tabs := q.tabs.filter (fun w => w.entry.slot ≠ j.slot), table := q.table.filter (fun e => e.slot ≠ j.slot) })
    s.storeShow

end Sys2Proof.Machine
end

