-- ==== Sys2Proof/Machine/Trigger.lean ====
section
/-!
DEFINITION. The trigger of a record (R235, R237, R238, R246, R253, R420 to R422): candidates, the choice among them, retention,
commit and withdrawal, protected windows, and step changes of thinning at their grid point (R251).
-/
namespace Sys2Proof.Machine

/-! ### Slots of an angle -/

/-- First slot at which the logged angle is at or beyond a target (in 2^-32 pip), searched in the pieces oldest first; `next` is
the start of the piece after. -/
def reachIn (target : Nat) : List Seg → Option Nat
  | [] => none
  | [g] => g.slotOf target
  | g :: h :: r => match g.slotOf target with
    | some x => if x < h.slot then some x else reachIn target (h :: r)
    | none => reachIn target (h :: r)

/-- First slot of a loop at or beyond a target angle in 2^-32 pip (R92, R235). -/
def LoopState.reach (l : LoopState) (target : Nat) : Option Nat := reachIn target l.segs.reverse

/-! ### Record state -/

/-- Record modes (R244) and states (table `Record states`). -/
abbrev AM.SINGLE : Nat := 0
abbrev AM.SEGMENTED : Nat := 1
abbrev AM.CONTINUOUS : Nat := 2
abbrev AM.STREAMING : Nat := 3

def State.acqMode (s : State) : Nat := s.use P.ACQ F.ACQ_CTL_MODE

/-- PAGE_STAT.STATE and the status bits of page 0x48 (R261). -/
def State.acqShow (s : State) : State :=
  let a := s.acq
  let held := match a.placed with | some p => p.prov && !a.committed | none => false
  let st := if !s.isArmed then 0
    else if s.acqMode = AM.CONTINUOUS then 6
    else if a.committed then (if a.settling.isSome || a.closed.isSome then 5 else 4)
    else if a.placed.isSome then 3
    else if a.fullAt.isSome then 2 else 1
  let s := s.setBlockState P.ACQ st
  let s := (s.putB P.ACQ F.ACQ_STAT_FIRE_HELD held).putB P.ACQ F.ACQ_STAT_FIRED a.committed
  let s := s.putB P.ACQ F.ACQ_STAT_COLLAR_FULL a.fullAt.isSome
  let s := s.putB P.ACQ F.ACQ_STAT_READER a.readerFrom.isSome
  s.level P.ACQ 0 s.isArmed

/-- Granted collar and cuff in slots (R241). -/
def State.grantCollar (s : State) : Nat := s.get64 P.ACQ F.ACQ_GRANT_COLLAR_LO F.ACQ_GRANT_COLLAR_HI
def State.grantCuff (s : State) : Nat := s.get64 P.ACQ F.ACQ_GRANT_CUFF_LO F.ACQ_GRANT_CUFF_HI

/-- Requested collar and cuff in SPAN_UNIT. -/
def State.collarReq (s : State) : Nat := s.use64 P.ACQ F.ACQ_COLLAR_LO F.ACQ_COLLAR_HI
def State.cuffReq (s : State) : Nat := s.use64 P.ACQ F.ACQ_CUFF_LO F.ACQ_CUFF_HI

/-- Whether spans are angle spans. -/
def State.spanPips (s : State) : Bool := s.use P.ACQ F.ACQ_CTL_SPAN_UNIT == 2

/-- The loop of the record's spans and angle. -/
def State.recLoopState (s : State) : LoopState := s.loop (s.use P.ACQ F.ACQ_CTL_LOOP)

/-- Where the granted collar measured back from a slot would begin, before ARM_SLOT limits it (R235, R237). -/
def State.collarBack (s : State) (slot : Nat) : Nat :=
  if s.spanPips then
    let l := s.recLoopState
    let a := l.phaseAt slot
    if a < s.collarReq * 2 ^ 32 then 0 else Nat.min slot ((l.reach (a - s.collarReq * 2 ^ 32)).getD 0)
  else slot - s.grantCollar

/-- Whether the granted collar lies wholly after ARM_SLOT at a slot (R237): counted in slots, or in the loop's angle. -/
def State.collarFullAt (s : State) (slot : Nat) : Bool :=
  if s.spanPips then
    let l := s.recLoopState
    decide (l.phaseAt s.acq.armSlot + s.collarReq * 2 ^ 32 ≤ l.phaseAt slot)
  else decide (s.acq.armSlot + s.grantCollar ≤ slot)

/-! ### Protected windows and thinning steps -/

/-- Largest effective step of a thinnable stream (table `Thinning by stream`). -/
def State.kEffMax (s : State) (i : Nat) : Nat :=
  let k := s.use P.ACQT F.ACQ_THIN_CFG_KMAX i
  if i < 8 then
    (if s.digMode i = M.TIMING then Nat.min k (20 - s.use (P.DIG i) F.DIG_MODE_RATE_K)
    else if s.digMode i = M.STATE then k else 0)
  else Nat.min k (16 - s.use P.ACQM F.ACQ_ANLG_CFG_AVG_EXP)

/-- Stream of a thinning index (R249). -/
def thinStream (i : Nat) : Nat := if i < 8 then i else 8 + i

/-- First slot after `slot` on the grid of a step change of a stream (R251): known in advance for TIMING; for the other streams
the change waits for its RATE command, 2^80 plus the earliest slot of it. -/
def State.gridPoint (s : State) (i k slot : Nat) : Nat :=
  if i < 8 ∧ s.digMode i = M.TIMING then
    let g := 2 ^ (s.use (P.DIG i) F.DIG_MODE_RATE_K + Nat.max k (s.thinStep (thinStream i)))
    (slot / g + 1) * g
  else 2 ^ 80 + (slot + 1)

/-- A step change of a stream is decided at a slot: in DUPLEX the primary leaves 256 plies and tells the secondary (R251, R437). -/
def State.decideStep (s : State) (i k slot : Nat) : State :=
  let lead := s.duplex && s.getB P.TWN F.TWN_STAT_PRIMARY
  let at_ := s.gridPoint i k (if lead then slot + 256 * 32 - 1 else slot)
  let s := s.modAcq (fun a => { a with thin := lmod a.thin i (fun q => { q with next := some (k, at_), seen := slot }) })
  if lead then s.sendSeam 1 (i * 2 ^ 16 + k * 2 ^ 8) (slot51 (s.aligned (at_ % 2 ^ 80))) 0 0 else s

/-- PROT_LEN of the present settings, in slots; none when windows do not open (R253, R265). -/
def State.protLen (s : State) : Option Nat :=
  let n := s.use64 P.ACQM F.ACQ_PROT_LEN_LO F.ACQ_PROT_LEN_HI
  if s.useB P.ACQM F.ACQ_PROT_CFG_EN ∧ n ≠ 0 then some (8 * n) else none

/-- Show whether a protected window is open (R253). -/
def State.protShow (s : State) (on : Bool) : State :=
  let s := s.putB P.ACQ F.ACQ_STAT_PROTECTED on
  s.each (List.range 10) (fun s i => s.putB P.ACQT F.ACQ_THIN_STAT_PROTECTED (on && s.useB P.ACQT F.ACQ_THIN_CFG_PROT i) i)

/-- A protected window opens on a slot, for a FIRE or for a MARK (R253); PROT_MODE = FULL takes every protected step to 0. -/
def State.protOpen (s : State) (slot : Nat) (fire : Bool) : State :=
  match s.protLen with
  | none => s
  | some n =>
    let s := s.modAcq (fun a => { a with protFires := a.protFires ++ [(slot, fire)], protUntil := Nat.max a.protUntil (slot + n) })
    let s := s.protShow true
    if s.use P.ACQM F.ACQ_PROT_CFG_PROT_MODE = 1 then
      s.each (List.range 10) (fun s i =>
        if s.useB P.ACQT F.ACQ_THIN_CFG_PROT i ∧ s.thinStep (thinStream i) ≠ 0 ∧ !s.getB P.ACQT F.ACQ_THIN_STAT_FROM_TWIN i
        then s.decideStep i 0 slot else s)
    else s

/-- The opening of a withdrawn FIRE is taken back (R253). -/
def State.protWithdraw (s : State) (slot now : Nat) : State :=
  let s := s.modAcq (fun a => { a with protFires := a.protFires.erase (slot, true) })
  match s.protLen with
  | none => s
  | some n =>
    let until_ := s.acq.protFires.foldl (fun m e => Nat.max m (e.1 + n)) 0
    let s := s.modAcq (fun a => { a with protUntil := until_ })
    if until_ ≤ now then s.protShow false else s

/-! ### Candidates -/

/-- Whether this side is the secondary of a pair in DUPLEX. -/
def State.secondary (s : State) : Bool := s.duplex && !s.getB P.TWN F.TWN_STAT_PRIMARY

/-- A received FIRE as a candidate (R420, R421). -/
def RemoteTok.placed (k : RemoteTok) : Placed :=
  { slot := k.slot, own := false, twin := k.twin, origin := k.origin, prov := k.prov, desc := k.desc, stamp := k.stamp,
    commitPly := k.commitPly }

/-- Every FIRE that may be the trigger of the record in progress (R420, R435). -/
def State.candidates (s : State) : List Placed :=
  let a := s.acq
  let before (e : Option Nat) (x : Nat) : Bool := match e with | some y => decide (x < y) | none => true
  (if s.secondary then [] else a.ownFire.toList) ++
  (s.remote.filter (fun k => !k.mark && (if k.twin then s.secondary else s.useB P.CAS F.CAS_CTL_FIRE_RX && s.role != C.SOLO) &&
    decide (a.armSlot ≤ k.slot) && before a.stopSlot k.slot)).map RemoteTok.placed

/-- The earlier of two candidates; equal slots go to the lower ORIGIN (R420). -/
def Placed.better (x y : Placed) : Bool := decide (x.slot < y.slot) || (x.slot == y.slot && decide (x.origin < y.origin))

/-- The chosen candidate. -/
def bestPlaced (ps : List Placed) : Option Placed :=
  ps.foldl (fun m p => match m with | none => some p | some q => if p.better q then some p else some q) none

/-- Modules this one hears, as a mask (CAS_REACH). -/
def State.reachMask (s : State) : Nat := s.get64 P.CAS F.CAS_REACH_LO F.CAS_REACH_HI

/-- Whether the CASCADE bits of a slot are known (R410, R425). -/
def State.cascadeKnown (s : State) (slot : Nat) : Bool :=
  s.role == C.SOLO ||
  ((List.range 64).all (fun m => m == s.casAddr || !bitOf s.reachMask m ||
      (match s.casProg.lookup m with | some x => decide (slot < x) | none => false)) &&
    s.remote.all (fun k => k.twin || !k.prov || decide (slot < k.slot)))

/-- Whether the TWIN bits of a slot are known (R433). -/
def State.twinKnown (s : State) (slot : Nat) : Bool :=
  !s.paired || (decide (slot < s.twinProg) && s.remote.all (fun k => !k.twin || !k.prov || decide (slot < k.slot)))

/-- Offset, in units of 64 bytes, of the chunk in a ring that holds a slot (R264). -/
def StreamQ.chunkOf (q : StreamQ) (slot : Nat) : Nat := (((chunksFrom slot q.ring).head?.map RingChunk.pos).getD 0) / 64

/-- ACQ_RING_FIRST of a stream (R264): the chunk that holds a slot, from the ring's first byte. -/
def State.ringFirst (s : State) (sid slot : Nat) : Nat :=
  ((s.ringSpan sid).1 - s.get P.ACQX F.ACQ_RING_BASE_MIB sid * 2 ^ 20) / 64 + (s.stream sid).chunkOf slot

/-- Choose the trigger afresh (R238, R420): retention from the chosen one's COLLAR_START, the streaming reader with it; a reader
that starts elsewhere discards what it has sent (R247). A chosen FIRE that is gone counts as withdrawn. -/
def State.chooseTrigger (s : State) : State :=
  if !s.isArmed ∨ s.acq.committed then s
  else
    let best := bestPlaced s.candidates
    let old := s.acq.placed
    let start := match best with
      | some p => Nat.max s.acq.armSlot (s.collarBack p.slot)
      | none => s.acq.armSlot
    let reader := if s.acqMode = AM.STREAMING then best.map (fun _ => start)
      else s.acq.readerFrom
    let moved := s.acqMode == AM.STREAMING && s.acq.readerFrom.isSome && s.acq.readerFrom != reader
    let s := s.modAcq (fun a => { a with placed := best, collarStart := start, readerFrom := reader })
    let s := if moved then s.discardSent else s
    let s := match old, best with
      | some o, none =>
        let s := s.modAcq (fun a => if a.closeNote = 3 ∨ s.acqMode = AM.STREAMING then { a with closeNote := 0, endSlot := none } else a)
        ((s.sat P.ACQ F.ACQ_WITHDRAW_CNT).pulse P.ACQ 7).protWithdraw o.slot s.now
      | none, some p => s.protOpen p.slot true
      | some o, some p => if o.slot = p.slot then s else (s.protWithdraw o.slot s.now).protOpen p.slot true
      | none, none => s
    s.acqShow

/-! ### Commit -/

/-- The trigger descriptor (R260) as its four words. -/
def State.trigWords (s : State) (p : Placed) : List Nat :=
  [p.desc + p.origin * 2 ^ 32 + (b2n (!p.own && !p.twin) + 2 * b2n (!p.own && p.twin)) * 2 ^ 40,
   slot51 (if p.own then s.aligned p.slot else p.stamp / 64), p.stamp % 2 ^ 57, p.commitPly % 2 ^ 46]

/-- Items after a slot are dropped from the open chunks: they belong to no record (R238, R248). -/
def State.dropAfter (s : State) (slot : Nat) : State :=
  s.each (List.range 21) (fun s i => s.modStream i (fun q => { q with
    opened := q.opened.map (fun c =>
      let kept := c.items.filter (fun it => decide (it.slot ≤ slot))
      { c with items := kept, bytes := (kept.map (itemSize (s.kindNow i))).foldl (· + ·) 0 }) }))

/-- The TAI mapping in force at a slot (R259). -/
def State.mapAt (s : State) (slot : Nat) : TimeState :=
  (s.tmOld.foldl (fun (m : Option (Nat × TimeState)) e =>
    if e.1 ≤ slot then m else match m with
      | none => some e
      | some x => if e.1 < x.1 then some e else some x) none).elim s.tm Prod.snd

/-- A PIPS collar that its fixed-rate rings no longer hold begins at the oldest slot every one of them holds (R242). -/
def State.collarHeld (s : State) : State :=
  let oldest := (List.range 8).foldl (fun m i =>
    if s.recording i ∧ s.fixedRate i then Nat.max m (((s.stream i).ring.head?.map (fun e => e.chunk.first)).getD 0) else m) 0
  if oldest ≤ s.acq.collarStart then s
  else ((s.modAcq (fun a => { a with collarStart := oldest })).recFlag RF.COLLAR_CUT).recFlag RF.LIVE_CLIP

/-- A live limit ends a record with a committed FIRE (R242): the CLIP marker, the counter, the CUFF_CLIP event. -/
def State.liveClipped (s : State) (last : Nat) : State :=
  let s := ((s.recFlag RF.CUFF_CLIP).recFlag RF.LIVE_CLIP).marker K.CLIP 0xFF last []
  let s := (s.sat P.ACQ F.ACQ_LIVE_CLIP_CNT).pulse P.ACQ 5
  s.put64 P.ACQ F.ACQ_END_SLOT_LO F.ACQ_END_SLOT_HI (slot51 last)

/-- Streams that are not fixed-rate and whose ring does not reach back to COLLAR_START (R243). -/
def State.shortStreams (s : State) : Nat :=
  s.enabledStreams.foldl (fun m i =>
    let q := s.stream i
    let first := ((chunksFrom s.acq.collarStart q.ring).head?.map (fun e => e.chunk.first)).getD 0
    if !(decide (i < 8) && s.fixedRate i) && q.lost && decide (s.acq.collarStart < first) then m + 2 ^ i else m) 0

/-- The chosen FIRE commits in ACQ (R237, R238, R246, R420): the record's slots are fixed, TRIG and SHORT_COLLAR are written, the
FIRE event latches; an own FIRE that lost is counted. -/
def State.commitTrigger (s : State) (p : Placed) : State :=
  let l : Nat := s.use P.ACQ F.ACQ_CTL_LOOP
  let cont : Bool := s.acqMode == AM.CONTINUOUS
  let full : Bool := cont || s.collarFullAt p.slot
  let back : Nat := s.collarBack p.slot
  let start : Nat := if cont then s.acq.armSlot else Nat.max s.acq.armSlot back
  let cuff : Option Nat := if cont ∨ s.spanPips then none else some (p.slot + s.grantCuff)
  let finish : Option Nat := if s.acq.closeNote ≠ 0 then s.acq.endSlot else cuff
  let angle : Option Nat := if !cont ∧ s.spanPips ∧ s.acq.closeNote = 0 then some ((s.loop l).phaseAt p.slot + s.cuffReq * 2 ^ 32) else none
  let s : State := s.modAcq (fun a => { a with placed := some p, committed := true, collarStart := start, endSlot := finish, endAngle := angle })
  let s : State := s.put64 P.ACQ F.ACQ_TRIG_SLOT_LO F.ACQ_TRIG_SLOT_HI (slot51 p.slot)
  let s : State := s.put64 P.ACQ F.ACQ_TRIG_ANGLE_LO F.ACQ_TRIG_ANGLE_HI (if s.loopRan l then (s.loop l).angleAt p.slot else 0)
  let s : State := match finish with
    | some e => (s.put64 P.ACQ F.ACQ_END_SLOT_LO F.ACQ_END_SLOT_HI (slot51 e)).dropAfter e
    | none => s
  let s : State := s.recFlag RF.FIRED
  let s : State := if bitOf p.desc 16 then s.recFlag RF.LATE else s
  let s : State := if p.own then s else s.recFlag RF.REMOTE
  let s : State := s.marker K.TRIG 0xFF p.slot (s.trigWords p)
  let s : State := if full then s
    else ((s.recFlag RF.SHORT_COLLAR).marker K.SHORT_COLLAR 0xFF s.acq.armSlot []).sat P.ACQ F.ACQ_SHORT_COLLAR_CNT
  let s : State := s.modAcq (fun a => { a with trigMap := some (s.mapAt p.slot) })
  let s : State := if s.spanPips ∧ !cont then s.collarHeld else s
  let s : State := match s.acq.closeNote, finish with | 3, some e => s.liveClipped e | _, _ => s
  let s : State := s.modAcq (fun a => { a with shortMask := if cont then 0 else s.shortStreams })
  let start : Nat := s.acq.collarStart
  let s : State := s.each s.enabledStreams (fun s i => s.put P.ACQX F.ACQ_RING_FIRST (s.ringFirst i start) i)
  let s : State := if p.own ∨ s.acq.ownFire.isNone ∨ s.secondary then s else s.sat P.CAS F.CAS_FIRE_YIELD_CNT
  let s : State := if p.own then
      let s : State := (s.put P.TLD F.TLD_FIRE_DESC p.desc).put64 P.TLD F.TLD_FIRE_SLOT_LO F.TLD_FIRE_SLOT_HI (slot51 p.slot)
      (s.putB P.TLD F.TLD_STAT_FIRED true).setBlockState P.TLD 2
    else s
  (s.pulse P.TLD 0).acqShow.settleJobs

/-- Commit the chosen FIRE when it is committed itself and the CASCADE and TWIN bits of its slot are known (R420, R435). -/
def State.settleTrigger (s : State) : State :=
  if s.acq.committed ∨ !s.isArmed then s
  else match s.acq.placed with
  | none => s
  | some p =>
    let ring := !(s.useB P.CAS F.CAS_CTL_FIRE_RX && s.role != C.SOLO) || s.cascadeKnown p.slot
    let twin := !s.secondary || s.twinKnown p.slot
    if p.prov || !ring || !twin then s else s.commitTrigger p

/-- The module's own ladder places a FIRE on a slot (R198, R238). -/
def State.ownFirePlaced (s : State) (slot : Nat) (prov : Bool) (desc commitPly : Nat) : State :=
  let p : Placed :=
    { slot := slot, own := true, twin := false, origin := s.ownAddr, prov := prov, desc := desc,
      stamp := s.aligned slot * 64, commitPly := commitPly }
  ((s.modAcq (fun a => { a with ownFire := some p })).chooseTrigger).settleTrigger

/-- The ply of the own FIRE commits (R229): COMMIT_PLY is the first ply not yet committed. -/
def State.ownFireCommitted (s : State) (slot commitPly : Nat) : State :=
  let s := s.modAcq (fun a => { a with ownFire := a.ownFire.map (fun p =>
    if p.slot = slot then { p with prov := false, commitPly := commitPly } else p) })
  (s.chooseTrigger).settleTrigger

/-- The own FIRE is withdrawn by a rollback (R229, R238). -/
def State.ownFireWithdrawn (s : State) : State :=
  ((s.modAcq (fun a => { a with ownFire := none })).chooseTrigger).settleTrigger

end Sys2Proof.Machine
end

