-- ==== Sys2Proof/Machine/Act.lean ====
section
/-!
DEFINITION. Action outputs (R204 to R208, R212): activation, the end of pulses, release, readback, checks.
-/
namespace Sys2Proof.Machine

/-- Slots of a REG cycle: 250 MHz (table `Clock domains`). -/
abbrev regCycle : Nat := 64

/-- An activation of an output from a slot (R204): ignored in SAFE (R206) and while ACT is stopped (R45); a PULSE ends after
ACT_WIDTH in its UNIT, a LATCH at a release. -/
def State.activate (s : State) (n slot : Nat) : State :=
  if s.run = .safe ∨ !s.enabled P.ACT then s
  else if s.use P.ACT F.ACT_CFG_FUNC n = 1 then s.setActive n true .release slot
  else if s.actActive n && s.useB P.ACT F.ACT_CFG_RETRIG n then s
  else
    let w := s.use P.ACT F.ACT_WIDTH n
    let l := s.use P.ACT F.ACT_CFG_LOOP n
    let stop : PulseStop := match s.use P.ACT F.ACT_CFG_UNIT n with
      | 0 => .slot (slot + w)
      | 1 => .slot (slot + 8 * w)
      | _ => if s.loopRan l then .angle l ((s.loop l).phaseAt slot + w * 2 ^ 32) else .owed l w
    s.setActive n true stop slot

/-- Activate the outputs of a mask. -/
def State.activateMask (s : State) (mask slot : Nat) : State :=
  s.each ((List.range 16).filter (bitOf mask)) (fun s n => s.activate n slot)

/-- Angle at which a loop was first placed: the oldest piece of its log that moves. -/
def LoopState.firstPhase (l : LoopState) : Nat :=
  match l.segs.reverse.find? (fun g => g.rate != 0) with | some g => g.phase | none => 0

/-- Whether the width of a pulse is complete at a slot (R204, R84, R89). -/
def State.pulseDone (s : State) (n t : Nat) : Bool :=
  match (s.actOut n).stop with
  | .release => false
  | .slot x => decide (x ≤ t)
  | .angle l ph => decide (ph ≤ (s.loop l).phaseAt t)
  | .owed l w => s.loopRan l && decide ((s.loop l).firstPhase + w * 2 ^ 32 ≤ (s.loop l).phaseAt t)

/-- ACT_PULSE_END (R204): a pulse's width is complete; a stopped ACT page holds it where it stands (R45). -/
def execActPulseEnd (t : Nat) (n : Fin 16) (s : State) : Res :=
  let s := s.at t
  .next (if s.enabled P.ACT ∧ s.actActive n ∧ s.pulseDone n t then s.setActive n false .release t else s)

/-- ACT_RELEASE (R204, R212): ends the activity of the named outputs; one activated in the same REG cycle stays active. -/
def execActRelease (t : Nat) (value : Word) (s : State) : Res :=
  let s := s.at t
  .next (s.each ((List.range 16).filter (bitOf value.toNat)) (fun s n =>
    if s.actActive n && !decide ((s.actOut n).since / regCycle = t / regCycle) then s.setActive n false .release t else s))

/-- Whether the readback of an output is compared, and the level expected at its land (R207). -/
def State.readbackLevel (s : State) (n : Nat) : Option Bool :=
  if !bitOf (s.use P.ACT F.ACT_CTL_RB_EN) n ∨ !s.useB P.ACT F.ACT_CFG_EN n then none
  else
    match s.landLevel n with
    | 0 => some false
    | 1 => some true
    | _ =>
      if !s.vcapGood ∨ (s.run = .safe ∧ s.use P.ACT F.ACT_CFG_SAFE n = 2) then none
      else if s.useB P.ACT F.ACT_CFG_RB_OD n then some true else none

/-- ACT_READBACK (R207): the land levels are read and compared; a mismatch raises the action-path fault. -/
def execActReadback (t : Nat) (levels : BitVec 16) (s : State) : Res :=
  let s := (s.at t).put P.ACT F.ACT_STAT_LANDS levels.toNat
  let bad := (List.range 16).foldl (fun m n =>
    match s.readbackLevel n with
    | some b => if b != bitOf levels.toNat n then m + 2 ^ n else m
    | none => m) 0
  let s := (s.put P.ACT F.ACT_RB_ERR bad).level P.ACT 1 (bad != 0)
  .next (s.faultLevel Q.ACT_PATH (bad != 0))

/-- ACT_CLR (R212). -/
def execActClr (value : Word) (s : State) : Res :=
  .next (if bitOf value.toNat 0 then s.clearAll P.ACT [(F.ACT_RETRACT_CNT, 1), (F.ACT_RETRACT_MASK, 1)] else s)

/-- Stopping ACT: pulse widths stand still from a slot on (R45). -/
def State.actStopped (s : State) (t : Nat) : State := { s with actHeld := some (s.actHeld.getD t) }

/-- Starting ACT again: widths go on from where they stood (R45), and the lands follow the commands. -/
def State.actStarted (s : State) (t : Nat) : State :=
  match s.actHeld with
  | none => s.driveLands t
  | some h =>
    let s := s.each (List.range 16) (fun s n =>
      match (s.actOut n).stop with
      | .slot x => s.modAct n (fun o => { o with stop := .slot (x + (t - h)) })
      | .angle l ph =>
        s.modAct n (fun o => { o with stop := .angle l (ph + ((s.loop l).phaseAt t - (s.loop l).phaseAt h)) })
      | _ => s)
    ({ s with actHeld := none }).driveLands t

/-- Agreement check of an ACT group (R212, table of ACT_CFG). -/
def checkACT (v : View) (g : Nat) : Nat :=
  if g = 8 then 0
  else firstCause ([2 * g, 2 * g + 1].flatMap (fun n =>
    [(decide (2 ≤ v.f P.ACT F.ACT_CFG_FUNC n), E.RESERVED_CODE), (v.f P.ACT F.ACT_CFG_SAFE n == 3, E.RESERVED_CODE),
     (v.f P.ACT F.ACT_CFG_UNIT n == 3, E.RESERVED_CODE),
     (v.f P.ACT F.ACT_CFG_FUNC n == 0 && v.f P.ACT F.ACT_WIDTH n == 0, E.RANGE)]))

/-- Both outputs of group `g` inactive: its safe point (R212). -/
def State.actIdle (s : State) (g : Nat) : Bool := !s.actActive (2 * g) && !s.actActive (2 * g + 1)

end Sys2Proof.Machine
end

