-- ==== Sys2Proof/Machine/Ladder.lean ====
section
/-!
DEFINITION. The trigger ladder (chapter 8): inputs of a ply by condition unit, and the evaluation of its slots on the present
rung. What predicted bits do with it stands in Gambit.lean.
-/
namespace Sys2Proof.Machine

/-! ### Settings -/

/-- Condition types (table `Condition operands`). -/
abbrev CT.PATTERN : Nat := 0x01
abbrev CT.EDGE : Nat := 0x02
abbrev CT.WORD_RANGE : Nat := 0x03
abbrev CT.WIDTH : Nat := 0x04
abbrev CT.INTERVAL : Nat := 0x05
abbrev CT.GLITCH : Nat := 0x06
abbrev CT.COUNTER : Nat := 0x07
abbrev CT.TIMER : Nat := 0x08
abbrev CT.ANGLE_WINDOW : Nat := 0x09
abbrev CT.EXT_IN : Nat := 0x0A
abbrev CT.SOFT : Nat := 0x0B
abbrev CT.ANALOG_WINDOW : Nat := 0x10
abbrev CT.ACC_BAND : Nat := 0x11
abbrev CT.FREQ_BAND : Nat := 0x12
abbrev CT.CASCADE : Nat := 0x13
abbrev CT.TWIN : Nat := 0x14

/-- Whether a type is a level type, and whether it is late-bound. -/
def isLevel (t : Nat) : Bool := t == 1 || t == 3 || t == 9 || t == 10 || t == 16
def isLate (t : Nat) : Bool := decide (16 ≤ t) && decide (t ≤ 20)

/-- Settings of a condition unit. -/
def State.cCfg (s : State) (u : Nat) : Nat := s.useReg P.TLDC (F.TLD_COND_CFG.at u)
def State.cOp (s : State) (u : Nat) : Nat := s.useReg P.TLDC (F.TLD_COND_OP.at u)
def State.cAct (s : State) (u : Nat) : Nat := s.useReg P.TLD (F.TLD_COND_ACT.at u)
def State.cType (s : State) (u : Nat) : Nat := bits (s.cCfg u) 31 27

/-- Rungs in use (R177, R213). -/
def State.rungs (s : State) : Nat := s.use P.TLD F.TLD_CTL_RUNGS

/-- Length of timer `n` in the units of `spanOf`: LEN × 8^SCALE slots, ticks or pips (R189). -/
def State.tmrLimit (s : State) (n : Nat) : Nat :=
  let c := s.useReg P.TLDT (F.TLD_TMR_CFG.at n)
  bits c 23 0 * 8 ^ bits c 27 24 * (match bits c 31 30 with | 0 => 1 | 1 => 8 | _ => 2 ^ 32)

/-- Where a span begins: the slot, and each loop's angle there. -/
def State.spanFrom (s : State) (slot : Nat) : SpanStart :=
  { slot := slot, phases := (List.range 4).map (fun l => (s.loop l).phaseAt slot) }

/-- A span up to a slot in the unit and loop of timer `n`: slots for SLOTS and TICKS, 2^-32 pip for PIPS (R187, R189). -/
def State.spanOf (s : State) (n : Nat) (b : SpanStart) (slot : Nat) : Nat :=
  let c := s.useReg P.TLDT (F.TLD_TMR_CFG.at n)
  if 2 ≤ bits c 31 30 then (s.loop (bits c 29 28)).phaseAt slot - b.phases.getD (bits c 29 28) 0 else slot - b.slot

/-! ### Inputs of a ply -/

/-- The bits of 32 slots as a lane. -/
def laneOf (f : Nat → Bool) : Nat := (List.range 32).foldl (fun m i => if f i then m + 2 ^ i else m) 0

/-- Sample words of a ply with those of the slot before. -/
structure PlyWords where
  t0 : Nat
  prev : List Nat
  words : List (List Nat)
  xti : List Nat

/-- Word of a group in slot `i` of the ply. -/
def PlyWords.at_ (w : PlyWords) (g i : Nat) : Nat := (w.words.getD g []).getD i 0

/-- Level of a channel in slot `i`, and whether it rises or falls there. -/
def PlyWords.ch (w : PlyWords) (c i : Nat) : Bool := bitOf (w.at_ (c / 32) i) (c % 32)
def PlyWords.was (w : PlyWords) (c i : Nat) : Bool :=
  if i = 0 then bitOf (w.prev.getD (c / 32) 0) (c % 32) else w.ch c (i - 1)
def PlyWords.rise (w : PlyWords) (c i : Nat) : Bool := w.ch c i && !w.was c i
def PlyWords.fall (w : PlyWords) (c i : Nat) : Bool := !w.ch c i && w.was c i

/-- An edge of a slope: 0 rise, 1 fall, 2 either. -/
def PlyWords.edge (w : PlyWords) (c slope i : Nat) : Bool :=
  match slope with | 0 => w.rise c i | 1 => w.fall c i | _ => w.rise c i || w.fall c i

/-- Whether a slot is a STROBE slot of a group (R113). -/
def State.strobe (s : State) (g slot : Nat) : Bool := (s.dig g).strobes.contains slot

/-- Whether an entry of kind PATTERN matches in slot `i` (R184). -/
def State.entryMatches (s : State) (w : PlyWords) (e i : Nat) : Bool :=
  let c := s.useReg (P.PT e) F.TLD_PT_CTL.off
  let g := bits c 2 0
  ((w.at_ g i) ^^^ s.useReg (P.PT e) F.TLD_PT_VALUE.off) &&& s.useReg (P.PT e) F.TLD_PT_MASK.off == 0 &&
  (!bitOf c 3 || s.strobe g (w.t0 + i))

/-- Truth of a PATTERN condition in slot `i` (R184). -/
def State.patternTruth (s : State) (w : PlyWords) (op i : Nat) : Bool :=
  let es := (List.range (bits op 12 9 + 1)).map (fun k => bits op 8 0 + k)
  if bitOf op 13 then es.any (fun e => s.entryMatches w e i) else es.all (fun e => s.entryMatches w e i)

/-- Truth of a WORD_RANGE condition on a word (R185). -/
def State.rangeTruth (s : State) (op word : Nat) : Bool :=
  let width := bits op 21 17 + 1
  let e := P.PT (bits op 8 0)
  let rd (v : Nat) : Int := if bitOf op 22 then sx width v else (v % 2 ^ width : Nat)
  let f := rd (word / 2 ^ bits op 16 12)
  decide (rd (s.useReg e F.TLD_PT_MASK.off) ≤ f) && decide (f ≤ rd (s.useReg e F.TLD_PT_VALUE.off))

/-- Truth of an ANGLE_WINDOW condition at a slot (R186). -/
def State.angleTruth (s : State) (op slot : Nat) : Bool :=
  let l : Nat := bits op 10 9
  let e : Nat := P.PT (bits op 8 0)
  let a : Nat := s.useReg e F.TLD_PT_MASK.off % 2 ^ 24
  let b : Nat := s.useReg e F.TLD_PT_VALUE.off % 2 ^ 24
  let p : Nat := (s.loop l).pipsAt slot % 2 ^ 24
  s.loopRan l && (!bitOf op 11 || s.blockState (P.LTL l) == L.LOCKED) &&
  (a == b || (if a < b then decide (a ≤ p) && decide (p < b) else decide (a ≤ p) || decide (p < b)))

/-- Whether a forward step at the ply start `t0` passed the start of a window whose loop has CATCHUP = FIRE_ONCE (R186). -/
def State.angleStepped (s : State) (op t0 : Nat) : Bool :=
  let l := bits op 10 9
  let a := s.useReg (P.PT (bits op 8 0)) F.TLD_PT_MASK.off % 2 ^ 24
  let lo := (s.loop l).beforeStep t0
  let hi := (s.loop l).pipsAt t0
  let c := lo / 2 ^ 24
  s.loopRan l && (!bitOf op 11 || s.blockState (P.LTL l) == L.LOCKED) && !s.useB (P.LTL l) F.LTL_JUMP_CFG_CATCHUP &&
  [c, c + 1].any (fun k => decide (lo < k * 2 ^ 24 + a) && decide (k * 2 ^ 24 + a < hi))

/-! ### Trackers (R187) -/

/-- One slot of a WIDTH or INTERVAL tracker: relation `rel` against timer `n`; answers the tracker and whether it hits. -/
def State.track (s : State) (rel n slot : Nat) (start stop : Bool) (k : Tracker) : Tracker × Bool :=
  let k := if start then { k with open_ := some (s.spanFrom slot), done := false } else k
  match k.open_ with
  | none => (k, false)
  | some b =>
    let below := decide (s.spanOf n b slot < s.tmrLimit n)
    let passed := match rel with
      | 1 => decide (s.tmrLimit n < s.spanOf n b slot)
      | 3 => decide (s.tmrLimit (n + 1) < s.spanOf (n + 1) b slot)
      | _ => false
    let closing := match rel with
      | 0 => below
      | 2 => !below && decide (s.spanOf (n + 1) b slot ≤ s.tmrLimit (n + 1))
      | 3 => below
      | _ => false
    let hit := !k.done && (passed || (stop && closing))
    ({ k with open_ := if stop then none else k.open_, done := k.done || hit }, hit)

/-- One slot of a GLITCH tracker: pulses of the polarities watched, shorter than timer `n`. -/
def State.trackGlitch (s : State) (pol n slot : Nat) (rise fall : Bool) (k : Tracker) : Tracker × Bool :=
  let short (b : Option SpanStart) : Bool :=
    match b with | some x => decide (s.spanOf n x slot < s.tmrLimit n) | none => false
  let hit := (pol != 1 && fall && short k.open_) || (pol != 0 && rise && short k.other)
  ({ k with
      open_ := if rise then some (s.spanFrom slot) else if fall then none else k.open_,
      other := if fall then some (s.spanFrom slot) else if rise then none else k.other }, hit)

/-- Lane of a tracker over a ply. -/
def trackLane (f : Nat → Tracker → Tracker × Bool) (k : Tracker) : Tracker × Nat :=
  (List.range 32).foldl (fun a i => let (k, hit) := f i a.1; (k, if hit then a.2 + 2 ^ i else a.2)) (k, 0)

/-- Lane and tracker of a tracking unit. -/
def State.trackUnit (s : State) (w : PlyWords) (u : Nat) (k : Tracker) : Tracker × Nat :=
  let op := s.cOp u
  match s.cType u with
  | 0x04 =>
    let c := bits op 7 0
    trackLane (fun i k => s.track (bits op 14 13) (bits op 12 9) (w.t0 + i)
      (if bitOf op 8 then w.fall c i else w.rise c i) (if bitOf op 8 then w.rise c i else w.fall c i) k) k
  | 0x05 =>
    trackLane (fun i k => s.track (bits op 23 22) (bits op 21 18) (w.t0 + i)
      (w.edge (bits op 7 0) (bits op 16 16) i) (w.edge (bits op 15 8) (bits op 17 17) i) k) k
  | _ =>
    let c := bits op 7 0
    trackLane (fun i k => s.trackGlitch (bits op 9 8) (bits op 13 10) (w.t0 + i) (w.rise c i) (w.fall c i) k) k

/-! ### Lanes -/

/-- Truth held from slot to slot: it changes only in slots where `f` gives a value. -/
def holdLane (before : Bool) (f : Nat → Option Bool) : Nat × Bool :=
  (List.range 32).foldl (fun a i =>
    let b := (f i).getD a.2
    (if b then a.1 + 2 ^ i else a.1, b)) (0, before)

/-- Slot since which XTI `n` has held its level in slot `i` of the ply. -/
def PlyWords.xtiHeld (w : PlyWords) (last since n i : Nat) : Nat :=
  ((List.range (i + 1)).foldl (fun (a : Bool × Nat) j =>
    let b := bitOf (w.xti.getD j 0) n
    (b, if b == a.1 then a.2 else w.t0 + j)) (bitOf last n, since)).2

/-- Lane of an early-bound unit that needs no tracker, and its truth held on for WORD_RANGE (table `Lane contents`). -/
def State.unitLane (s : State) (w : PlyWords) (u : Nat) : Nat × Bool :=
  let op := s.cOp u
  let n := s.lin
  match s.cType u with
  | 0x01 => (laneOf (s.patternTruth w op), false)
  | 0x02 => (laneOf (w.edge (bits op 7 0) (bits op 9 8)), false)
  | 0x03 =>
    let g := bits op 11 9
    holdLane (bitOf n.held u) (fun i =>
      if bitOf op 23 && !s.strobe g (w.t0 + i) then none else some (s.rangeTruth op (w.at_ g i)))
  | 0x09 => (laneOf (fun i => s.angleTruth op (w.t0 + i)), false)
  | 0x0A =>
    let x := bits op 1 0
    let since := n.xtiSince.getD x 0
    holdLane (bitOf n.before u) (fun i =>
      if w.xtiHeld n.xti since x i + 32 * bits op 9 2 ≤ w.t0 + i then some (bitOf (w.xti.getD i 0) x) else none)
  | 0x0B => (if bitOf n.soft (bits op 3 0) then 1 else 0, false)
  | _ => (0, false)

/-- Event lane of counter `n` (R188, R218). -/
def State.countLane (s : State) (w : PlyWords) (n : Nat) : Nat :=
  let c := s.useReg P.TLDT (F.TLD_CNT_CFG.at n)
  match bits c 31 30 with
  | 1 => laneOf (w.edge (bits c 27 20) (bits c 28 28))
  | 2 =>
    let (slot, _) := s.angFired.getD (bits c 25 20) (0, false)
    if w.t0 ≤ slot ∧ slot < w.t0 + 32 ∧ 0 < slot then 2 ^ (slot - w.t0) else 0
  | _ => 0

/-- Inputs of a ply: the early-bound lanes, count lanes and stepped windows of every unit in use, with what the ladder keeps for
the next ply. -/
def State.ladderInputs (s : State) (w : PlyWords) : State × HistPly :=
  let n := s.lin
  let us := List.range (8 * s.rungs)
  let tracked := us.filterMap (fun u =>
    let t := s.cType u
    if t = CT.WIDTH ∨ t = CT.INTERVAL ∨ t = CT.GLITCH then
      let k := (n.trackers.lookup u).getD { open_ := none, other := none, done := false }
      some (u, s.trackUnit w u k)
    else none)
  let plain := us.filterMap (fun u => let t := s.cType u; if t = 0 ∨ isLate t then none else some (u, s.unitLane w u))
  let lanes := (us.map (fun u => (u, match tracked.lookup u with
    | some k => k.2
    | none => match plain.lookup u with | some e => e.1 | none => 0))).filter (fun e => e.2 != 0)
  let lin : LadderIn :=
    { before := lanes.foldl (fun m e => if bitOf e.2 31 then m + 2 ^ e.1 else m) 0,
      words := (List.range 8).map (fun g => w.at_ g 31),
      held := plain.foldl (fun m e => if e.2.2 then m + 2 ^ e.1 else m) 0,
      trackers := tracked.map (fun e => (e.1, e.2.1)),
      xti := w.xti.getD 31 0,
      xtiSince := (List.range 4).map (fun x => w.xtiHeld n.xti (n.xtiSince.getD x 0) x 31),
      soft := 0 }
  let h : HistPly :=
    { ply := w.t0 / 32, lanes := lanes, counts := (List.range 16).map (s.countLane w), known := [], used := [], material := 0,
      stepped := us.foldl (fun m u =>
        if s.cType u = CT.ANGLE_WINDOW ∧ s.angleStepped (s.cOp u) w.t0 then m + 2 ^ u else m) 0 }
  ({ s with lin := lin }, h)

/-! ### Bits of a slot -/

/-- PREDICT of a unit (R182). -/
def State.cPredict (s : State) (u : Nat) : Bool := bitOf (s.cCfg u) 23

/-- Whether the bit of a unit in slot `i` of a ply is known. -/
def State.bitKnown (s : State) (h : HistPly) (u i : Nat) : Bool :=
  !isLate (s.cType u) || bitOf ((h.known.lookup u).getD 0) i

/-- The input bit of a unit in slot `i` of a ply: known, or predicted (R214). -/
def State.bitAt (s : State) (h : HistPly) (u i : Nat) : Bool :=
  if s.bitKnown h u i then bitOf ((h.lanes.lookup u).getD 0) i else s.cPredict u

/-! ### Hits, occurrence, actions -/

/-- What the eight conditions of a rung give in a slot: satisfied mask, raw hits, occurrence counts after the slot. -/
structure Hits where
  sat : Nat
  hit : Nat
  occ : List Nat

/-- Truth of a condition (R179, R180): after NEG for a level type, the hit itself for a hit type. -/
def truthOf (t cfg : Nat) (b : Bool) : Bool := if isLevel t then b != bitOf cfg 24 else b

/-- A COUNTER condition's hit (R190). -/
def State.counterHit (s : State) (l : LadderState) (k op : Nat) : Bool :=
  let n := bits op 3 0
  let v := l.counters.getD n 0
  decide (s.use P.TLDT F.TLD_CNT_CFG_CMP n ≤ v) && (!bitOf l.seen k || v != l.prevCnt.getD n 0)

/-- A TIMER condition's hit (R190). -/
def State.timerHits (s : State) (l : LadderState) (u op slot : Nat) : Bool :=
  let n := bits op 3 0
  !bitOf l.timerHit u &&
    decide (s.tmrLimit n ≤ s.spanOf n (l.timers.getD n { slot := slot, phases := [] }) slot)

/-- The eight conditions of the present rung in a slot (R179 to R181): `bit` and `before` give the input bits of the slot and of
the slot before. -/
def State.evalConds (s : State) (l : LadderState) (slot stepped : Nat) (bit before : Nat → Bool) (occ : List Nat) : Hits :=
  let u (k : Nat) : Nat := 8 * l.rung + k
  let raw (k : Nat) : Bool := match s.cType (u k) with
    | 0 => false
    | 0x07 => s.counterHit l k (s.cOp (u k))
    | 0x08 => s.timerHits l (u k) (s.cOp (u k)) slot
    | _ => bit (u k)
  let truths := (List.range 8).map (fun k => truthOf (s.cType (u k)) (s.cCfg (u k)) (raw k))
  let truth (k : Nat) : Bool := truths.getD k false
  let hit (k : Nat) : Bool :=
    let t := s.cType (u k)
    let c := s.cCfg (u k)
    if t = 0 then false
    else if isLevel t then
      let p := truthOf t c (before (u k))
      match bits c 26 25 with
      | 0 => (truth k && !p) || (t == CT.ANGLE_WINDOW && bitOf stepped (u k))
      | 1 => !truth k && p
      | _ => truth k
    else truth k
  let counted (k : Nat) : Bool :=
    let c := s.cCfg (u k)
    hit k && (!bitOf c 22 || truth (bits c 20 18) != bitOf c 21)
  let occ' := (List.range 8).map (fun k =>
    let c := s.cCfg (u k)
    let o := if isLevel (s.cType (u k)) && bits c 26 25 == 2 && !truth k then 0 else occ.getD k 0
    if counted k then o + 1 else o)
  { sat := (List.range 8).foldl (fun m k =>
      if counted k && decide (Nat.max 1 (bits (s.cCfg (u k)) 15 0) ≤ occ'.getD k 0) then m + 2 ^ k else m) 0,
    hit := (List.range 8).foldl (fun m k => if hit k then m + 2 ^ k else m) 0,
    occ := occ' }

/-- Actions applied together in a slot (R199): flow code and target, and the flag actions. -/
structure Applied where
  flow : Nat
  target : Nat
  fire : Bool
  mark : Bool
  inject : Bool
  counts : Nat
  outs : Nat
  deriving DecidableEq, Repr

/-- Flow codes (table of TLD_COND_ACT). -/
abbrev FL.STAY : Nat := 0
abbrev FL.NEXT : Nat := 1
abbrev FL.JUMP : Nat := 2
abbrev FL.SNAKE : Nat := 3
abbrev FL.ABORT : Nat := 4

/-- The actions of the satisfied conditions of a rung (R199). -/
def State.appliedBy (s : State) (rung sat : Nat) : Applied :=
  let acts := ((List.range 8).filter (bitOf sat)).map (fun k => s.cAct (8 * rung + k))
  let flows := acts.map (fun a => (bits a 31 29, bits a 28 25))
  let flow := if flows.any (fun f => f.1 == FL.ABORT) then (FL.ABORT, 0) else flows.headD (FL.STAY, 0)
  let target := match flow.1 with | 1 => rung + 1 | 2 => flow.2 | 3 => flow.2 | _ => 0
  { flow := flow.1, target := target, fire := acts.any (bitOf · 24), mark := acts.any (bitOf · 23),
    inject := acts.any (bitOf · 22),
    counts := acts.foldl (fun m a => if bitOf a 21 then m ||| 2 ^ bits a 20 17 else m) 0,
    outs := acts.foldl (fun m a => m ||| bits a 15 0) 0 }

/-- An empty action (R216). -/
def actEmpty (a : Nat) : Bool := bits a 31 29 == 0 && bits a 24 21 == 0 && bits a 15 0 == 0

/-- Whether two outcomes of a slot on one rung differ materially (R216). -/
def State.differs (s : State) (rung : Nat) (a b : Hits) : Bool :=
  let x := s.appliedBy rung a.sat
  let y := s.appliedBy rung b.sat
  x != y || ((x.fire || x.mark) && a.sat != b.sat) ||
  (List.range 8).any (fun k => !actEmpty (s.cAct (8 * rung + k)) && a.occ.getD k 0 != b.occ.getD k 0)

/-- Whether a condition is late-bound, itself or through its qualifiers (R180); `fuel` bounds the chain by the eight of a
rung. -/
def State.lateCond (s : State) (rung : Nat) : Nat → Nat → Bool
  | 0, _ => false
  | fuel + 1, k =>
    let c := s.cCfg (8 * rung + k)
    isLate (bits c 31 27) || (bitOf c 22 && s.lateCond rung fuel (bits c 20 18))

/-- The descriptor of a firing slot (table of TLD_FIRE_DESC). -/
def State.fireDesc (s : State) (rung sat : Nat) : Nat :=
  let fires := (List.range 8).filter (fun k => bitOf sat k && bitOf (s.cAct (8 * rung + k)) 24)
  rung * 2 ^ 28 + sat * 2 ^ 20 + fires.headD 0 * 2 ^ 17 + b2n (fires.any (s.lateCond rung 8)) * 2 ^ 16

/-! ### The ladder's state -/

/-- Enter a rung (R181, R188, R189): occurrence counts restart; at its entry slot the masked counters clear and the masked
timers start. -/
def State.enterRung (s : State) (l : LadderState) (rung slot clear start : Nat) : LadderState :=
  let restarts (u : Nat) : Bool := bitOf start (bits (s.cOp u) 3 0)
  { l with
    rung := rung, occ := List.replicate 8 0, seen := 0, alts := [],
    counters := (List.range 16).map (fun n => if bitOf clear n then 0 else l.counters.getD n 0),
    timers := (List.range 16).map (fun n =>
      if bitOf start n then s.spanFrom slot else l.timers.getD n { slot := slot, phases := [] }),
    timerHit := (List.range 128).foldl (fun m u => if bitOf l.timerHit u && !restarts u then m + 2 ^ u else m) 0 }

/-- The ladder at the start of an arming, at its first slot (R201). -/
def State.ladderFresh (s : State) (slot : Nat) : LadderState :=
  { LadderState.empty with timers := List.replicate 16 (s.spanFrom slot) }

/-- Whether a FIRE in a slot is suppressed under COLLAR_FILL = WAIT (R203). -/
def State.fireWaits (s : State) (slot : Nat) : Bool :=
  s.use P.ACQ F.ACQ_CTL_COLLAR_FILL == 1 && s.acqMode != AM.CONTINUOUS && !s.collarFullAt slot

/-- What evaluating a slot gives: the ladder after it, its effect, the late-bound units whose predicted bits it used, and those
material in this slot and in the slot before. -/
structure SlotOut where
  ladder : LadderState
  effect : Option Effect
  used : List Nat
  material : List Nat
  prevMaterial : List Nat

/-- Late-bound units of a rung with a bit not known in slot `i`; `levels` keeps those whose next slot looks back. -/
def State.unknownOf (s : State) (h : HistPly) (rung i : Nat) (levels : Bool) : List Nat :=
  ((List.range 8).map (fun k => 8 * rung + k)).filter (fun u =>
    !s.bitKnown h u i && (!levels || (isLevel (s.cType u) && bits (s.cCfg u) 26 25 != 2)))

/-- Evaluate slot `i` of a ply (R178 to R203, R216). -/
def State.evalSlot (s : State) (prev h : HistPly) (i : Nat) (l : LadderState) : SlotOut :=
  let slot := 32 * h.ply + i
  let bit (u : Nat) : Bool := s.bitAt h u i
  let before (u : Nat) : Bool := if i = 0 then s.bitAt prev u 31 else s.bitAt h u (i - 1)
  let stepped := if i = 0 then h.stepped else 0
  let r := l.rung
  let e := s.evalConds l slot stepped bit before l.occ
  let a := s.appliedBy r e.sat
  let prevMat := (l.alts.filter (fun x =>
    s.differs r e (s.evalConds l slot stepped bit (fun u => if u = x.1 then !before u else before u) x.2))).map Prod.fst
  let here := s.unknownOf h r i false
  let flips := here.map (fun v => (v, s.evalConds l slot stepped (fun u => if u = v then !bit u else bit u) before l.occ))
  let mat := (flips.filter (fun x => s.differs r e x.2)).map Prod.fst
  let typ (k : Nat) : Nat := s.cType (8 * r + k)
  let hits (t : Nat) : Nat := (List.range 8).foldl (fun m k => if bitOf e.hit k && typ k == t then m + 2 ^ k else m) 0
  let counters := (List.range 16).map (fun n =>
    let c := s.useReg P.TLDT (F.TLD_CNT_CFG.at n)
    let ev := if bits c 31 30 = 0 then bitOf a.counts n else bitOf (h.counts.getD n 0) i
    sat32 (l.counters.getD n 0 + b2n ev))
  let waits := a.fire && !l.fired && s.fireWaits slot
  let place := a.fire && !l.fired && !waits
  let l' : LadderState :=
    { l with
      occ := e.occ, counters := counters, prevCnt := l.counters, seen := l.seen ||| hits CT.COUNTER,
      timerHit := l.timerHit ||| hits CT.TIMER * 2 ^ (8 * r), fired := l.fired || place,
      alts := flips.map (fun x => (x.1, x.2.occ)) }
  let cfg (r : Nat) : Nat := s.useReg P.TLD (F.TLD_RUNG_CFG.at r)
  let snakeClear := (List.range 16).foldl (fun m n => if s.useB P.TLDT F.TLD_CNT_CFG_RESET_ON_SNAKE n then m + 2 ^ n else m) 0
  let entered := a.flow != FL.STAY
  let extra : Nat × Nat := match a.flow with | 3 => (snakeClear, 0) | 4 => (0xFFFF, 0xFFFF) | _ => (0, 0)
  let l' := if entered then
      s.enterRung l' a.target (slot + 1) (bits (cfg a.target) 31 16 ||| extra.1) (bits (cfg a.target) 15 0 ||| extra.2)
    else l'
  let ahead := if entered then s.unknownOf h a.target i true else []
  let l' := if entered then { l' with alts := ahead.map (fun u => (u, List.replicate 8 0)) } else l'
  let eff : Effect :=
    { slot := slot, rung := r, hits := e.sat, place := place, ignored := a.fire && l.fired, suppressed := waits,
      desc := s.fireDesc r e.sat, mark := a.mark, inject := a.inject, outs := a.outs, abort := a.flow == FL.ABORT,
      snake := a.flow == FL.SNAKE, spec := false, saved := [], tokens := [] }
  { ladder := l', effect := if a.fire || a.mark || a.inject || a.outs != 0 || eff.abort || eff.snake then some eff else none,
    used := here ++ ahead.filter (fun u => !here.contains u), material := mat, prevMaterial := prevMat }

/-- What evaluating a ply gives. -/
structure PlyOut where
  ladder : LadderState
  effects : List Effect
  used : List (Nat × Nat)
  material : List Nat
  prevMaterial : List Nat

/-- Add slot `i` to the used lanes of the units listed. -/
def addUsed (us : List Nat) (i : Nat) (m : List (Nat × Nat)) : List (Nat × Nat) :=
  us.foldl (fun m u => if m.any (fun e => e.1 == u) then m.map (fun e => if e.1 == u then (u, putBit e.2 i true) else e)
    else m ++ [(u, 2 ^ i)]) m

/-- Evaluate the slots listed of a ply in order (R178, R200); `spec` says that an unresolved checkpoint covers what came
before, so that every effect is uncommitted (R198, R229). -/
def State.evalSlots (s : State) (prev h : HistPly) (spec : Bool) : List Nat → LadderState → PlyOut
  | [], l => { ladder := l, effects := [], used := [], material := [], prevMaterial := [] }
  | i :: r, l =>
    let o := s.evalSlot prev h i l
    let sp := spec || !o.used.isEmpty
    let rest := s.evalSlots prev h sp r o.ladder
    { ladder := rest.ladder,
      effects := (o.effect.map (fun e => { e with
      spec := sp })).toList ++ rest.effects,
      used := addUsed o.used i rest.used,
      material := o.material ++ (if i = 0 then [] else o.prevMaterial) ++ rest.material,
      prevMaterial := (if i = 0 then o.prevMaterial else []) ++ rest.prevMaterial }

/-- Evaluate a ply. -/
def State.evalPly (s : State) (prev h : HistPly) (spec : Bool) (l : LadderState) : PlyOut :=
  s.evalSlots prev h spec (List.range 32) l

/-! ### Clears, selects, checks -/

/-- SOFT (R192): hits in slot 0 of the next ply; discarded while the ladder does not run. -/
def execSoft (t : Nat) (value : Word) (s : State) : Res :=
  let s := s.at t
  .next (if s.gmb.running && s.gmb.last.isNone then { s with lin := { s.lin with soft := s.lin.soft ||| value.toNat % 2 ^ 16 } } else s)

/-- TLD_CLR (R210): the four counters. -/
def execTldClr (value : Word) (s : State) : Res :=
  .next (if bitOf value.toNat 0 then s.clearAll P.TLD [(F.TLD_FIRE_IGN_CNT, 1), (F.TLD_FIRE_SUPP_CNT, 1), (F.TLD_ABORT_CNT, 1),
    (F.TLD_SNAKE_CNT, 1)] else s)

/-- TLD_PT_SEL (R211). -/
def execTldPtSel (value : Word) (s : State) : Res := .next (s.put P.TLDP F.TLD_PT_PTR (bits value.toNat 9 0))

/-- Check of a condition (R183, R185, R187, table of TLD_COND_CFG). -/
def checkCond (cfg op : Nat) : Nat :=
  let t := bits cfg 31 27
  let res (lo : Nat) : Bool := op / 2 ^ lo != 0
  firstCause [
    (!(decide (t ≤ 11) || isLate t), E.RESERVED_CODE), (bits cfg 26 25 == 3, E.RESERVED_CODE),
    (t == 1 && res 14, E.RESERVED_CODE), (t == 2 && (res 10 || bits op 9 8 == 3), E.RESERVED_CODE),
    (t == 3 && res 24, E.RESERVED_CODE), (t == 3 && decide (32 < bits op 16 12 + bits op 21 17 + 1), E.RANGE),
    (t == 4 && res 15, E.RESERVED_CODE), (t == 4 && decide (2 ≤ bits op 14 13) && bits op 12 9 == 15, E.RANGE),
    (t == 5 && res 24, E.RESERVED_CODE), (t == 5 && decide (2 ≤ bits op 23 22) && bits op 21 18 == 15, E.RANGE),
    (t == 6 && (res 14 || bits op 9 8 == 3), E.RESERVED_CODE), (t == 7 && res 4, E.RESERVED_CODE),
    (t == 8 && res 4, E.RESERVED_CODE), (t == 9 && res 12, E.RESERVED_CODE), (t == 10 && res 10, E.RESERVED_CODE),
    (t == 11 && res 4, E.RESERVED_CODE), (t == 16 && res 4, E.RESERVED_CODE), (t == 17 && res 17, E.RESERVED_CODE),
    (t == 18 && res 20, E.RESERVED_CODE), (t == 19 && (res 8 || decide (2 ≤ bits op 1 0)), E.RESERVED_CODE),
    (t == 20 && (res 2 || bits op 1 0 == 3), E.RESERVED_CODE)]

/-- Agreement check of a TLD page (R197, R210, R213): the view holds what will be in force, RUNGS with it. -/
def checkTLD (v : View) (p : Nat) : Nat :=
  let rungs := v.f P.TLD F.TLD_CTL_RUNGS
  let n := Nat.min rungs 16
  let us := List.range (8 * n)
  let acts := us.map (fun u =>
    let a := v P.TLD (F.TLD_COND_ACT.at u)
    let f := bits a 31 29
    let tg := bits a 28 25
    firstCause [(decide (5 ≤ f), E.RESERVED_CODE), (f == 3 && decide (u / 8 ≤ tg), 0x0150), (f == 1 && u / 8 + 1 == n, 0x0151),
      ((f == 2 || f == 3) && decide (n ≤ tg), E.RANGE)])
  let conds := us.map (fun u =>
    let c := v P.TLDC (F.TLD_COND_CFG.at u)
    firstCause [(bits c 20 18 == u % 8 && bitOf c 22, E.RANGE), (true, checkCond c (v P.TLDC (F.TLD_COND_OP.at u)))])
  let tmrs := (List.range 16).map (fun k =>
    firstCause [(v.f P.TLDT F.TLD_TMR_CFG_UNIT k == 3, E.RESERVED_CODE), (decide (8 ≤ v.f P.TLDT F.TLD_TMR_CFG_SCALE k), E.RESERVED_CODE),
      (v.f P.TLDT F.TLD_CNT_CFG_SRC k == 3, E.RESERVED_CODE)])
  let first (l : List Nat) : Nat := (l.find? (· != 0)).getD 0
  if p = P.TLD then
    firstCause [(rungs == 0 || decide (16 < rungs), E.RANGE), (true, first (acts ++ conds))]
  else if p = P.TLDC then first conds
  else if p = P.TLDT then first tmrs
  else 0

end Sys2Proof.Machine
end

