-- ==== Sys2Proof/Machine/Gambit.lean ====
section
/-!
DEFINITION. The gambit (chapter 9): known bits, history, checkpoints, the commit point, effects held and undone, rollback,
replay, pauses, overrun, settling.
-/
namespace Sys2Proof.Machine

/-! ### Late-bound bits (R193 to R195, R214, R215) -/

/-- 540 ns, 0.6 µs and 256 ns in slots. -/
abbrev winDelay : Nat := 8640
abbrev accDelay : Nat := 9600
abbrev freqDelay : Nat := 4096

/-- Bit of an ANALOG_WINDOW condition at a slot, once known: every instant at or before the slot delivered 540 ns after it, none
held (R161, R214, R215). -/
def State.windowBit (s : State) (op slot t : Nat) : Option Bool :=
  let w := bits op 3 0
  let c := s.use P.WIN F.WIN_CFG_CONV w
  let q := s.conv c
  let due := match q.instants.find? (fun x => decide (x ≤ slot)) with | some x => x + winDelay | none => 0
  let idle := !s.convEn c || s.quadCal (c / 4)
  let due := if idle then slot + winDelay else due
  let waits := q.jobs.any (fun j => !j.dead && decide (j.inst ≤ slot)) ||
    (match q.hold with | some (r, _) => decide (r.inst ≤ slot) | none => false)
  if waits ∨ t < due then none else some (s.winTruth w slot)

/-- Whether a BAND entry holds a value (R194). -/
def State.inBand (s : State) (e : Nat) (signed : Bool) (v : Int) : Bool :=
  let rd (x : Nat) : Int := if signed then sx 32 x else (x : Nat)
  decide (rd (s.useReg (P.PT e) F.TLD_PT_MASK.off) ≤ v) && decide (v ≤ rd (s.useReg (P.PT e) F.TLD_PT_VALUE.off))

/-- Bit of an ACC_BAND condition (R194, R214). -/
def State.accBit (s : State) (op slot t : Nat) : Option Bool :=
  let c := bits op 12 9
  match s.accVals.find? (fun v => v.conv == c && v.slot == slot) with
  | some v =>
    if t < slot + accDelay then none
    else if !v.valid then some (bitOf op 16)
    else
      let k := bits op 14 13
      let x : Int := match k with | 0 => v.mean | 1 => ((v.msq / 16 : Nat) : Int) | 2 => v.min | _ => v.max
      some (s.inBand (bits op 8 0) (k != 1) x != bitOf op 15)
  | none =>
    match s.iv (s.accIv c) with
    | none => some false
    | some v => if t < slot + accDelay ∨ s.ivPast v slot then none else some false

/-- Bit of a FREQ_BAND condition (R194, R214). -/
def State.freqBit (s : State) (op slot t : Nat) : Option Bool :=
  let u := bits op 13 9
  let q := s.fu u
  match q.results.find? (fun r => 8 * r.finish == slot) with
  | some r =>
    if !bitOf r.flags 0 then some (bitOf op 19)
    else
      let x := r.freq / 2 ^ (8 + 8 * bits op 17 16)
      some (s.inBand (bits op 8 0) false (x : Nat) != bitOf op 18)
  | none =>
    let pending := q.due.any (fun r => 8 * r.finish == slot) ||
      (match q.gate with | some k => decide (8 * k.finish ≤ slot) | none => false)
    if q.gate.isNone ∧ q.due.isEmpty then some false else if pending ∨ t < slot + freqDelay then none else some false

/-- Bit of a CASCADE condition (R195, R410, R425). -/
def State.cascadeBit (s : State) (op slot : Nat) : Option Bool :=
  if s.role = C.SOLO then some false
  else if !s.cascadeKnown slot then none
  else some (s.remote.any (fun k => !k.twin && k.slot == slot && k.mark == bitOf op 0 &&
    (bits op 7 2 == 0 || k.origin == bits op 7 2)))

/-- Bit of a TWIN condition (R195, R433). -/
def State.twinBit (s : State) (op slot : Nat) : Option Bool :=
  if !s.twinKnown slot then none
  else if bits op 1 0 = 2 then some (s.twinSafeAt.contains slot)
  else some (s.remote.any (fun k => k.twin && k.slot == slot && k.mark == bitOf op 0))

/-- The bit of a late-bound unit at a slot, if it is known at slot `t` (R214). -/
def State.lateKnown (s : State) (u slot t : Nat) : Option Bool :=
  let op := s.cOp u
  match s.cType u with
  | 0x10 => s.windowBit op slot t
  | 0x11 => s.accBit op slot t
  | 0x12 => s.freqBit op slot t
  | 0x13 => s.cascadeBit op slot
  | 0x14 => s.twinBit op slot
  | _ => none

/-! ### History (R217, R218) -/

/-- Set a lane of a list of lanes. -/
def putLane (m : List (Nat × Nat)) (u v : Nat) : List (Nat × Nat) :=
  let rest := m.filter (fun e => e.1 != u)
  if v = 0 then rest else (u, v) :: rest

/-- Late-bound units in use. -/
def State.lateUnits (s : State) : List Nat := (List.range (8 * s.rungs)).filter (fun u => isLate (s.cType u))

/-- Bits of a unit in a ply that are known at slot `t` and were not before: the mask, and their values. -/
def State.newlyKnown (s : State) (h : HistPly) (u t : Nat) : Nat × Nat :=
  (List.range 32).foldl (fun (m : Nat × Nat) i =>
    if bitOf ((h.known.lookup u).getD 0) i then m
    else match s.lateKnown u (32 * h.ply + i) t with
      | some b => (m.1 + 2 ^ i, if b then m.2 + 2 ^ i else m.2)
      | none => m) (0, 0)

/-- Write the bits known at slot `t` into a history entry. -/
def State.fillKnown (s : State) (h : HistPly) (t : Nat) : HistPly :=
  s.lateUnits.foldl (fun h u =>
    let m := s.newlyKnown h u t
    { h with
      known := putLane h.known u (((h.known.lookup u).getD 0) ||| m.1),
      lanes := putLane h.lanes u (((h.lanes.lookup u).getD 0) ||| m.2) }) h

/-- Store a ply's entry and annex in scratch. -/
def State.histStore (s : State) (h : HistPly) : State :=
  let i := h.ply % 65536
  let s := s.scrWrite (s.get P.GMB F.GMB_HIST_BASE + i * 512)
    ((List.range 128).flatMap (fun u => leBytes 4 ((h.lanes.lookup u).getD 0)))
  s.scrWrite (s.get P.GMB F.GMB_ANNEX_BASE + i * 80) (h.counts.flatMap (leBytes 4) ++ leBytes 16 h.material)

/-- The entry evaluated next, and the latest one before it. -/
def GmbState.nextPly (g : GmbState) : Option HistPly := g.hist.find? (fun h => decide (g.next ≤ h.ply))
def GmbState.prevPly (g : GmbState) (p : Nat) : HistPly :=
  ((g.hist.filter (fun h => decide (h.ply < p))).getLast?).getD
    { ply := p - 1, lanes := [], counts := [], known := [], used := [], material := 0, stepped := 0 }

def State.modGmb (s : State) (f : GmbState → GmbState) : State := { s with gmb := f s.gmb }

/-- Replace the entry of a ply. -/
def State.setHist (s : State) (h : HistPly) : State :=
  (s.modGmb (fun g => { g with hist := g.hist.map (fun x => if x.ply = h.ply then h else x) })).histStore h

/-! ### Registers -/

/-- GMB status, the commit point and the ladder as software sees it: committed (R232, R229). -/
def State.gmbShow (s : State) : State :=
  let g := s.gmb
  let n := g.ckpts.length
  let paused := s.getB P.GMB F.GMB_STAT_PAUSED
  let replay := s.getB P.GMB F.GMB_STAT_REPLAYING
  let st := if !g.running then 0 else if paused then 4 else if replay then 3 else if n = 0 then 1 else 2
  let live := s.get64 P.GMB F.GMB_LIVE_PLY_LO F.GMB_LIVE_PLY_HI
  let s := s.put P.GMB F.GMB_STAT_CKPT_USED n
  let s := s.putB P.GMB F.GMB_STAT_CKPT_FULL (n == 64)
  let s := s.put64 P.GMB F.GMB_COMMIT_PLY_LO F.GMB_COMMIT_PLY_HI (s.commitPly % 2 ^ 46)
  let s := s.put64 P.GMB F.GMB_EVAL_PLY_LO F.GMB_EVAL_PLY_HI (g.next % 2 ^ 46)
  let s := s.put P.GMB F.GMB_LEAD (satU 17 ((live + 2 ^ 46 - s.commitPly % 2 ^ 46) % 2 ^ 46))
  let s := (s.level P.GMB 1 paused).level P.GMB 2 (n == 64)
  let s := s.setBlockState P.GMB st
  let shown := match g.ckpts with | c :: _ => c.ladder | [] => g.ladder
  let s := s.put P.TLD F.TLD_STAT_RUNG shown.rung
  let s := s.putB P.TLD F.TLD_STAT_RUNNING (g.running && g.last.isNone && !paused)
  let waitC := g.running && s.use P.ACQ F.ACQ_CTL_COLLAR_FILL == 1 && s.acqMode != AM.CONTINUOUS && s.acq.fullAt.isNone
  let s := s.putB P.TLD F.TLD_STAT_WAIT_COLLAR waitC
  s.setBlockState P.TLD (if !g.running then 0 else if paused then 3 else if s.getB P.TLD F.TLD_STAT_FIRED then 2 else 1)

/-- Show or end a pause (R226). -/
def State.setPaused (s : State) (b full : Bool) : State :=
  let was := s.getB P.GMB F.GMB_STAT_PAUSED
  let s := s.putB P.GMB F.GMB_STAT_PAUSED b
  if b && !was then
    let s := s.sat P.GMB F.GMB_PAUSE_CNT
    if full then s.sat P.GMB F.GMB_CKPT_FULL_CNT else s
  else s

/-! ### Effects (R229) -/

/-- A FIRE or MARK token for a slot (table `Token layouts`): provisional, or a confirmation with the commit ply. -/
def State.fireToken (s : State) (e : Effect) (mark prov : Bool) (seq commit : Nat) : Token :=
  let low := b2n prov * 2 ^ 31 + b2n mark * 2 ^ 29 + bits e.desc 31 28 * 2 ^ 25 + bits e.desc 27 20 * 2 ^ 17 +
    bits e.desc 19 17 * 2 ^ 14 + bits e.desc 16 16 * 2 ^ 13
  let seg := if s.acqMode = AM.SEGMENTED then s.get P.ACQ F.ACQ_SEG_NUM else 0
  let k := s.mkToken TK.FIRE 0 true low (s.aligned e.slot * 64 % 2 ^ 57) seg (if prov then 0 else commit % 2 ^ 46)
  { k with w0 := w64 (putBits k.w0.toNat 39 32 seq) }

/-- Send a token of a slot along the ring or over the twin port. -/
def State.sendFire (s : State) (e : Effect) (twin mark prov : Bool) (seq commit : Nat) : State :=
  let k := s.fireToken e mark prov seq commit
  if twin then s.sendPort .twin { k with w0 := w64 (putBits k.w0.toNat 46 46 0) }
  else (s.sendRing k).wrap P.CAS F.CAS_FIRE_TX_CNT

/-- Tokens a slot owes (R195, R419, R432), as (twin, MARK). -/
def State.tokensOf (s : State) (e : Effect) : List (Bool × Bool) :=
  let ring := s.useB P.CAS F.CAS_CTL_FIRE_TX && s.role != C.SOLO
  (if ring && e.place then [(false, false)] else []) ++
  (if ring && e.mark && s.useB P.TLD F.TLD_CTL_MARK_CAS then [(false, true)] else []) ++
  (if s.paired && e.place then [(true, false)] else []) ++
  (if s.paired && e.mark && s.useB P.TLD F.TLD_CTL_MARK_TWIN then [(true, true)] else [])

/-- Send the tokens of a slot; answers the SEQ of each. -/
def State.sendTokens (s : State) (e : Effect) : State × List (Bool × Bool × Nat) :=
  (s.tokensOf e).foldl (fun (a : State × List (Bool × Bool × Nat)) k =>
    let seq := a.1.txSeq.getD TK.FIRE 0
    ((a.1.sendFire e k.1 k.2 e.spec seq (e.slot / 32 + 1)).bumpSeq TK.FIRE, a.2 ++ [(k.1, k.2, seq)])) (s, [])

/-- Injected requests of a slot (R151, R229): one for each converter of INJ_MASK. A slot derived afresh in the past converts
nothing: a conversion of that slot still under way is taken up again, any other request is lost. -/
def State.injectAt (s : State) (e : Effect) (past : Bool) : State :=
  let cs := (List.range 16).filter (bitOf (s.use P.ADC F.ADC_CTL_INJ_MASK))
  if !past then { s with injDue := s.injDue ++ cs.map (fun c => { conv := c, slot := e.slot, spec := e.spec }) }
  else
    s.each cs (fun s c =>
      let mine (j : ConvJob) : Bool := j.dead && j.origin == some e.slot
      if (s.conv c).jobs.any mine then
        s.modConv c (fun q => { q with jobs := q.jobs.map (fun j =>
          if mine j then { j with dead := false, origin := if e.spec then j.origin else none } else j) })
      else s.sat P.GMB F.GMB_INJ_LOST_CNT)

/-- Outputs of a slot whose MODE is EARLY. -/
def State.earlyOuts (s : State) (mask : Nat) : Nat :=
  (List.range 16).foldl (fun m n => if bitOf mask n && s.useB P.ACT F.ACT_CFG_MODE n then m + 2 ^ n else m) 0

/-- Activate outputs that land later than the fixed delay: full width from now, counted (R230). -/
def State.activateLate (s : State) (mask : Nat) : State :=
  (if popCount 16 mask = 0 then s else s.sat P.GMB F.GMB_LATE_OUT_CNT (popCount 16 mask)).activateMask mask s.now

/-- TLD counters and events of a committed slot (R198, R203, R210). -/
def State.countEffect (s : State) (e : Effect) : State :=
  let s := if e.ignored then (s.sat P.TLD F.TLD_FIRE_IGN_CNT).pulse P.TLD 1 else s
  let s := if e.suppressed then (s.sat P.TLD F.TLD_FIRE_SUPP_CNT).pulse P.TLD 2 else s
  let s := if e.abort then (s.sat P.TLD F.TLD_ABORT_CNT).pulse P.TLD 3 else s
  if e.snake then s.sat P.TLD F.TLD_SNAKE_CNT else s

/-- Apply the effect of a slot just evaluated (table `Effects and their undo`); `past` says that its ply is not the live one. -/
def State.issue (s : State) (e : Effect) (past : Bool) : State :=
  let s := if e.place then s.ownFirePlaced e.slot e.spec e.desc (e.slot / 32 + 1) else s
  let s := if e.mark then s.marker K.MARK 0xFF e.slot [e.rung * 2 ^ 8 + e.hits] (some (e.slot / 32)) else s
  let s := if e.mark && s.useB P.ACQM F.ACQ_PROT_CFG_ON_MARK then s.protOpen e.slot false else s
  let s := if e.inject then s.injectAt e past else s
  let early := s.earlyOuts e.outs
  let now := if e.spec then early else e.outs
  let saved := ((List.range 16).filter (bitOf now)).map (fun n => (n, s.actActive n, s.actOut n))
  let s := if past then s.activateLate now else s.activateMask now e.slot
  let (s, toks) := s.sendTokens e
  if e.spec then s.modGmb (fun g => { g with effects := g.effects ++ [{ e with saved := saved, tokens := toks }] })
  else s.countEffect e

/-- A held effect is confirmed: its ply is committed (R229); `commit` is the commit point then. -/
def State.confirm (s : State) (e : Effect) (commit : Nat) : State :=
  let s := s.countEffect e
  let s := if e.place then s.ownFireCommitted e.slot commit else s
  let s := s.activateLate (e.outs - s.earlyOuts e.outs)
  s.each e.tokens (fun s k => s.sendFire e k.1 k.2.1 false k.2.2 commit)

/-- Discard a withdrawn injection (R153, R229): the request, the conversion under way, or the result held. -/
def State.withdrawInject (s : State) (from_ : Nat) : State :=
  let gone (o : Option Nat) : Bool := match o with | some x => decide (from_ ≤ x) | none => false
  let s : State := { s with injDue := s.injDue.filter (fun r => !(r.spec && decide (from_ ≤ r.slot))) }
  s.each (List.range 16) (fun s c =>
    let q := s.conv c
    let n := (q.jobs.filter (fun j => !j.dead && gone j.origin)).length
    let held := match q.hold with | some (_, o) => decide (from_ ≤ o) | none => false
    let s := s.modConv c (fun q => { q with
      jobs := q.jobs.map (fun j => if gone j.origin then { j with
      dead := true } else j),
      injWait := match q.injWait with | some o => if gone o then none else some o | none => none })
    let s := if held then s.resolveHold c false else s
    let k := n + b2n held
    if k = 0 then s else (s.sat P.GMB F.GMB_INJ_RETRACT_CNT k).pulse P.GMB 5)

/-- Retract the EARLY activations of an effect (R205): each output returns to what it was before, inactive if a pulse then under
way is over. -/
def State.retractOuts (s : State) (e : Effect) : State :=
  s.each e.saved (fun s x =>
    let (n, on, o) := x
    let s := (s.sat P.ACT F.ACT_RETRACT_CNT).put P.ACT F.ACT_RETRACT_MASK (putBit (s.get P.ACT F.ACT_RETRACT_MASK) n true)
    let s := s.pulse P.ACT 0
    let s := s.note RN.RETRACT e.slot n
    if !s.actActive n then s
    else if on then
      let s := s.setActive n true o.stop o.since
      if s.pulseDone n s.now then s.setActive n false .release s.now else s
    else s.setActive n false .release s.now)

/-- Withdraw every held effect from slot `m` on (R223, table `Effects and their undo`), the latest first. -/
def State.withdraw (s : State) (m : Nat) : State :=
  let gone := s.gmb.effects.filter (fun e => decide (m ≤ e.slot))
  let s := s.modGmb (fun g => { g with effects := g.effects.filter (fun e => decide (e.slot < m)) })
  let s := s.each gone.reverse (fun s e => s.retractOuts e)
  let s := if gone.any Effect.place then s.ownFireWithdrawn else s
  let s := s.each gone (fun s e => s.each e.tokens (fun s k =>
    let r := s.mkToken TK.RETRACT 0 (!k.1) (b2n k.2.1 * 2 ^ 8 + k.2.2) (s.aligned e.slot * 64 % 2 ^ 57) 0 0
    let s := if k.1 then s.sendPort .twin r else s.sendRing r
    (s.bumpSeq TK.RETRACT).sat P.GMB F.GMB_TOKEN_RETRACT_CNT))
  let drop (it : Item) : Bool := it.ply.isSome && gone.any (fun e => e.mark && e.slot == it.slot)
  let s := s.modStream 18 (fun q => { q with
    staging := q.staging.filter (fun it => !drop it),
    stagingBytes := ((q.staging.filter (fun it => !drop it)).map (itemSize 6)).foldl (· + ·) 0,
    opened := q.opened.map (fun c =>
      let kept := c.items.filter (fun it => !drop it)
      { c with items := kept, bytes := (kept.map (itemSize 6)).foldl (· + ·) 0 }) })
  s.withdrawInject m

/-! ### Checkpoints and the commit point -/

/-- Whether every predicted bit used in a ply is known. -/
def plySettled (h : HistPly) : Bool :=
  h.used.all (fun e => e.2 &&& ((h.known.lookup e.1).getD 0) == e.2)

/-- Whether the plies from `a` to before `b` are settled. -/
def GmbState.settled (g : GmbState) (a b : Nat) : Bool :=
  g.hist.all (fun h => decide (h.ply < a) || decide (b ≤ h.ply) || plySettled h)

/-- Unresolved checkpoints left after the oldest ones that resolve (R221). -/
def GmbState.unresolved (g : GmbState) : List Ckpt → List Ckpt
  | [] => []
  | c :: r =>
    let finish := match r with | d :: _ => d.ply | [] => g.next
    if c.ply < finish && g.settled c.ply finish then g.unresolved r else c :: r

/-- Injections of a slot whose predicted bits, and all earlier ones, are known are no longer held (R215). -/
def State.releaseInjections (s : State) : State :=
  let g := s.gmb
  let sure (o : Nat) : Bool := decide (o < 32 * g.next) &&
    g.hist.all (fun h => h.used.all (fun e => (List.range 32).all (fun i =>
      !bitOf e.2 i || bitOf ((h.known.lookup e.1).getD 0) i || decide (o < 32 * h.ply + i))))
  let s : State := { s with injDue := s.injDue.map (fun (r : InjReq) => if r.spec && sure r.slot then { r with spec := false } else r) }
  s.each (List.range 16) (fun s c =>
    let s := s.modConv c (fun q => { q with
      jobs := q.jobs.map (fun (j : ConvJob) => match j.origin with
        | some o => if !j.dead && sure o then { j with origin := none } else j
        | none => j),
      injWait := q.injWait.map (fun o => match o with | some x => if sure x then none else some x | none => none) })
    match (s.conv c).hold with
    | some (_, o) => if sure o then s.resolveHold c true else s
    | none => s)

/-- Leave ARMED (R248, R514): the ladder stops; a module that is not in SAFE is READY. The reader of a CONTINUOUS record goes on until
its record is stored. -/
def State.leaveArmed (s : State) : State :=
  let s := s.modAcq (fun a => { a with settling := none, closed := none, readerFrom := if s.acqMode = AM.CONTINUOUS then a.readerFrom else none })
  let s := s.putB P.ACQ F.ACQ_STAT_ARMED false
  let s := if s.run = .armed then { s with run := .ready } else s
  let s := (s.modGmb (fun g => { g with running := false, ckpts := [], effects := [] })).setPaused false false
  let s := s.put P.RFQ F.RFQ_SPLIT 0
  ((s.putB P.GMB F.GMB_STAT_REPLAYING false).gmbShow).acqShow

/-- Whether every ply before `p` is committed: the commit point has reached it, or no checkpoint is unresolved and no ply before
it is left to evaluate (R221, R228). -/
def State.commitReached (s : State) (p : Nat) : Bool :=
  decide (p ≤ s.commitPly) ||
  (s.gmb.ckpts.isEmpty && !s.gmb.hist.any (fun h => decide (s.gmb.next ≤ h.ply) && decide (h.ply < p)) && decide (32 * p ≤ s.now))

/-- Leave ARMED once the record is closed and the commit point has reached the first ply not evaluated (R514). -/
def State.settleArmed (s : State) : State :=
  match s.acq.settling with
  | some p => if s.commitReached p then s.leaveArmed else s
  | none => s

/-- Resolve checkpoints (R221), confirm the effects of plies now committed, trim the history, show the result. -/
def State.advanceCommit (s : State) : State :=
  let s := s.modGmb (fun g => { g with ckpts := g.unresolved g.ckpts })
  let p := s.commitPly
  let due := s.gmb.effects.filter (fun e => decide (e.slot < 32 * p))
  let s := s.modGmb (fun g => { g with
    effects := g.effects.filter (fun e => !decide (e.slot < 32 * p)),
    hist := g.hist.filter (fun h => decide (p ≤ h.ply + 1)) })
  let s := s.each due (fun s e => s.confirm e p)
  (s.releaseInjections.gmbShow).settleArmed

/-! ### Evaluation -/

/-- Whether a further segment follows the one in progress (R245). -/
def State.moreSegments (s : State) : Bool :=
  s.acqMode == AM.SEGMENTED && s.acq.stopSlot.isNone &&
  (s.use P.ACQ F.ACQ_SEG_CFG_SEG_COUNT == 0 || decide (s.get P.ACQ F.ACQ_SEG_NUM + 1 < s.use P.ACQ F.ACQ_SEG_CFG_SEG_COUNT))

/-- Whether a ply begins after the end slot of the last record of the arming (R201, R514). -/
def State.plyBeyond (s : State) (p : Nat) : Bool :=
  s.acq.committed && !s.moreSegments &&
  (match s.acq.endSlot, s.acq.endAngle with
    | some e, _ => decide (e < 32 * p)
    | none, some a => decide (a ≤ (s.recLoopState).phaseAt (32 * p - 1))
    | none, none => false)

/-- Evaluate the next ply, unless the ladder must pause (R220, R226). Answers whether it did. -/
def State.evalNext (s : State) : State × Bool :=
  let g := s.gmb
  match g.nextPly with
  | none => (s, false)
  | some h =>
    if (match g.last with | some p => decide (p ≤ h.ply) | none => false) || s.plyBeyond h.ply then (s, false)
    else
      let prev := g.prevPly h.ply
      let lad := if g.restart = some h.ply then s.ladderFresh (32 * h.ply) else g.ladder
      let o := s.evalPly prev h (!g.ckpts.isEmpty) lad
      let predicted := !o.used.isEmpty
      let due := if g.ckpts.isEmpty then predicted else h.ply % 2 ^ s.use P.GMB F.GMB_CTL_CKPT_EXP == 0
      if !s.useB P.GMB F.GMB_CTL_SPEC_EN && predicted then (s.setPaused true false, false)
      else if due && decide (64 ≤ g.ckpts.length) then (s.setPaused true true, false)
      else
        let past := h.ply % 2 ^ 46 != s.get64 P.GMB F.GMB_LIVE_PLY_LO F.GMB_LIVE_PLY_HI
        let s := s.setPaused false false
        let s := if due then s.wrap P.GMB F.GMB_CKPT_CNT else s
        let s := if past then s.wrap64 P.GMB F.GMB_REPLAY_PLY_CNT_LO F.GMB_REPLAY_PLY_CNT_HI else s
        let mask (us : List Nat) : Nat := us.foldl (fun m u => m ||| 2 ^ u) 0
        let s := s.modGmb (fun g => { g with
          ladder := o.ladder, next := h.ply + 1,
          ckpts := if due then g.ckpts ++ [{ ply := h.ply, ladder := lad }] else g.ckpts })
        let s := if o.prevMaterial.isEmpty then s else s.setHist { prev with material := prev.material ||| mask o.prevMaterial }
        let s := s.setHist { h with used := o.used, material := h.material ||| mask o.material }
        let fresh := o.effects.filter (fun e => decide (g.fresh ≤ e.slot))
        (s.each fresh (fun s e => s.issue e past), true)

/-- Evaluate up to `n` plies (R224). -/
def State.evalMany : Nat → State → State
  | 0, s => s
  | n + 1, s => let (s, more) := s.evalNext; if more then State.evalMany n s else s

/-! ### Rollback (R223) -/

/-- Roll back to the checkpoint that covers slot `m`, because of unit `u`. -/
def State.rollback (s : State) (m u : Nat) : State :=
  let p := m / 32
  let kept := s.gmb.ckpts.filter (fun c => decide (c.ply ≤ p))
  match kept.getLast? with
  | none => s
  | some c =>
    let live := s.get64 P.GMB F.GMB_LIVE_PLY_LO F.GMB_LIVE_PLY_HI
    let dist := satU 17 ((live + 1 + 2 ^ 46 - c.ply % 2 ^ 46) % 2 ^ 46)
    let s := (s.modGmb (fun g => { g with ckpts := kept })).withdraw m
    let s := s.modGmb (fun g => { g with
      ladder := c.ladder, next := c.ply, fresh := m,
      hist := g.hist.map (fun h => if h.ply < c.ply then h else { h with used := [], material := 0 }) })
    let s := (s.sat P.GMB F.GMB_ROLLBACK_CNT).pulse P.GMB 0
    let s := s.sat P.GMB F.GMB_MISPRED_CNT 1 (s.cType u - 0x10)
    let s := s.setReg P.GMB F.GMB_LAST_ROLL.off (u * 2 ^ 25 + dist)
    let s := s.note RN.ROLLBACK m u
    (s.setPaused false false).putB P.GMB F.GMB_STAT_REPLAYING true

/-- Contradicted predictions of a ply by unit: mask of slots where a bit now known differs from PREDICT (R216). -/
def State.contradicted (s : State) (old new : HistPly) : List (Nat × Nat) :=
  old.used.map (fun e =>
    let fresh := (List.range 32).filter (fun i => bitOf e.2 i && !bitOf ((old.known.lookup e.1).getD 0) i &&
      bitOf ((new.known.lookup e.1).getD 0) i && (bitOf ((new.lanes.lookup e.1).getD 0) i != s.cPredict e.1))
    (e.1, fresh.foldl (fun m i => m + 2 ^ i) 0))

/-- The bits known at slot `t` enter the history (R217); material contradictions of plies already evaluated roll back from the
earliest of them (R216, R223). -/
def State.learn (s : State) (t : Nat) : State :=
  let old := s.gmb.hist
  let new := old.map (fun h => s.fillKnown h t)
  let pairs := (old.zip new).filter (fun e => decide (e.1.ply < s.gmb.next))
  let all := pairs.flatMap (fun e => (s.contradicted e.1 e.2).map (fun c => (e.1, c.1, c.2)))
  let idle := (all.filter (fun c => !bitOf c.1.material c.2.1)).foldl (fun n c => n + popCount 32 c.2.2) 0
  let hits := (all.filter (fun c => bitOf c.1.material c.2.1 && c.2.2 != 0)).map (fun c =>
    (32 * c.1.ply + (lowBit 32 c.2.2).getD 0, c.2.1))
  let first := hits.foldl (fun (m : Option (Nat × Nat)) h =>
    match m with | none => some h | some k => if h.1 < k.1 then some h else m) none
  let s := (old.zip new).foldl (fun s e => if e.1 = e.2 then s else s.setHist e.2) s
  let s := if idle = 0 then s else s.sat P.GMB F.GMB_MISPRED_IDLE_CNT idle
  match first with
  | some (m, u) => s.rollback m u
  | none => s

/-! ### Overrun and settling -/

/-- Withdraw every effect of every unresolved checkpoint and restart the ladder at rung 0 at the ply `restart` (R227); the
record and its collar stay. `gap` writes the GAP marker. -/
def State.withdrawAll (s : State) (restart : Nat) (gap : Bool) : State :=
  let from_ := s.commitPly
  let s := s.withdraw (32 * from_)
  let s := if gap then
      (((s.marker K.GAP 18 (32 * from_) [slot51 (32 * restart), 4]).note RN.GAP (32 * from_) 18).recFlag RF.GAP).recFlag RF.LADDER_OVERRUN
    else s
  let l := { s.ladderFresh (32 * restart) with fired := s.acq.committed || s.acq.ownFire.isSome }
  let s := s.modGmb (fun g => { g with
    ckpts := [], hist := [], effects := [], ladder := l, next := restart, fresh := 32 * restart })
  ({ s with lin := { s.lin with trackers := [], held := 0 } }.setPaused false false).putB P.GMB F.GMB_STAT_REPLAYING false

/-- Whether the writer of ply `p` would overwrite a ply the gambit still needs (R227). -/
def State.histFull (s : State) (p : Nat) : Bool :=
  s.gmb.running && decide (Nat.min s.commitPly s.gmb.next + 65536 ≤ p)

/-- A ladder overrun; `p` is the ply about to be written. -/
def State.overrun (s : State) (p : Nat) : State :=
  ((s.withdrawAll p true).sat P.GMB F.GMB_OVERRUN_CNT).pulse P.GMB 3

/-! ### Arming -/

/-- Longest resolution latency of the late-bound conditions in use, in ticks (R222): WIN_LAT_MAX for windows, 0.6 µs, 256 ns,
24 ns a hop to the farthest module, 40 ns for the twin. -/
def State.reqLat (s : State) : Nat :=
  s.lateUnits.foldl (fun m u => Nat.max m (match s.cType u with
    | 0x10 => s.get P.WIN F.WIN_LAT_MAX
    | 0x11 => 1200
    | 0x12 => 512
    | 0x13 => 48 * (s.get P.CAS F.CAS_STAT_COUNT - 1)
    | _ => 80)) 0

/-- The ladder starts at rung 0 at the ply start `slot` (R201, R222). -/
def State.ladderStart (s : State) (slot : Nat) : State :=
  let s : State := { s with lin := { s.lin with trackers := [], held := 0, soft := 0 } }
  let s := s.modGmb (fun _ =>
    { running := true, ladder := s.ladderFresh slot, ckpts := [], hist := [], effects := [], next := slot / 32, fresh := slot,
      last := none, restart := none })
  let lat : Nat := s.reqLat
  let short := decide (63 * 2 ^ s.use P.GMB F.GMB_CTL_CKPT_EXP * 4 < lat)
  let s := (s.put P.GMB F.GMB_REQ_LAT lat).putB P.GMB F.GMB_STAT_HORIZON_SHORT short
  ((s.level P.GMB 4 short).putB P.TLD F.TLD_STAT_FIRED false).gmbShow

/-- The ladder evaluates no live ply from `p` on (R201, R514). -/
def State.ladderEnd (s : State) (p : Nat) : State := (s.modGmb (fun g => { g with last := some (g.last.getD p) })).gmbShow

/-! ### Commands -/

/-- LADDER_PLY (R113, R178, R217, R220, R224, R226): the inputs of the ply that begins at slot `t` are known: counted, stored in
the TIMING streams, written to the history while ARMED, and evaluated; after a rollback or a pause up to 8 plies a clock. -/
def execLadderPly (t : Nat) (x : PlyIn) (s : State) : Res :=
  let s := s.at t
  let t0 := plyStart t
  if !s.sp0Good ∨ !s.powered then .next s
  else
    let words := (List.range 8).map (fun g => s.groupWords g x)
    let s := s.each (List.range 8) (fun s g => (s.countEdges g x).timingPly g t0 (words.getD g []))
    let inv := s.use P.ACT F.ACT_XTI_INVERT
    let w : PlyWords :=
      { t0 := t0, prev := s.lin.words, words := words,
        xti := (List.range 32).map (fun i => (slotVal 0 x.xti i).toNat ^^^ inv) }
    if !s.gmb.running ∨ t0 / 32 < s.gmb.next ∧ s.gmb.hist.isEmpty ∨ !s.enabled P.TLD ∨ !s.enabled P.GMB then
      let (s, _) := s.ladderInputs w
      .next s
    else
      let p := t0 / 32
      let s := if s.histFull p then s.overrun p else s
      let first : HistPly :=
        { ply := p - 1, lanes := ((List.range 128).filter (bitOf s.lin.before)).map (fun u => (u, 2 ^ 31)), counts := [],
          known := [], used := [], material := 0, stepped := 0 }
      let s := if s.gmb.hist.isEmpty && decide (0 < p) then s.modGmb (fun g => { g with hist := [s.fillKnown first t] }) else s
      let s := if s.gmb.restart = some p then { s with lin := { s.lin with trackers := [], held := 0 } } else s
      let (s, h) := s.ladderInputs w
      let h := s.fillKnown h t
      let s := s.put64 P.GMB F.GMB_LIVE_PLY_LO F.GMB_LIVE_PLY_HI (p % 2 ^ 46)
      let s := (s.modGmb (fun g => { g with hist := g.hist ++ [h] })).histStore h
      let s := State.evalMany 8 s
      let s := if s.getB P.GMB F.GMB_STAT_PAUSED then s.sat P.GMB F.GMB_PAUSE_PLY_CNT else s
      .next ((s.advanceCommit).chooseTrigger).settleTrigger

/-- LATE_BIT_KNOWN (R214, R217, R221, R223): a late-bound bit of a ply is known. Every other bit that is known in the same clock
is taken with it, so that the earliest contradiction decides. -/
def execLateBitKnown (t : Nat) (unit : Fin 128) (ply : Nat) (s : State) : Res :=
  let s := s.at t
  let known := match s.gmb.hist.find? (fun h => h.ply == ply) with
    | some h => (s.newlyKnown h unit t).1 != 0 && isLate (s.cType unit) && decide (unit.val < 8 * s.rungs)
    | none => false
  .next (if s.gmb.running && known then (s.learn t).advanceCommit else s)

/-- REPLAY_CATCH_UP (R224): no ply is left behind the live one. -/
def execReplayCatchUp (t : Nat) (s : State) : Res :=
  let s := s.at t
  .next (if s.getB P.GMB F.GMB_STAT_REPLAYING ∧ s.gmb.nextPly.isNone then (s.putB P.GMB F.GMB_STAT_REPLAYING false).gmbShow else s)

/-- LADDER_OVERRUN (R227). -/
def execLadderOverrun (t : Nat) (s : State) : Res :=
  let s := s.at t
  let p := s.gmb.hist.foldl (fun m h => Nat.max m (h.ply + 1)) (t / 32)
  .next (if s.histFull p then ((s.overrun p).gmbShow).settleArmed else s)

/-- SETTLE_TIMEOUT (R514): a checkpoint is still unresolved 64 × CKPT_PLIES plies after the first ply not evaluated. -/
def execSettleTimeout (t : Nat) (s : State) : Res :=
  let s := s.at t
  match s.gmb.last with
  | some p =>
    .next (if s.gmb.running ∧ !s.gmb.ckpts.isEmpty ∧ 32 * (p + 64 * 2 ^ s.use P.GMB F.GMB_CTL_CKPT_EXP) ≤ t then
      ((s.withdrawAll p false).gmbShow).settleArmed else s)
  | none => .next s

/-- TLD_TC_SNAP_SEL (R210): the committed value of a counter, or the elapsed span of a timer in its unit. -/
def execTldTcSnapSel (t : Nat) (value : Word) (s : State) : Res :=
  let s := s.at t
  let l := match s.gmb.ckpts with | c :: _ => c.ladder | [] => s.gmb.ladder
  let n := bits value.toNat 3 0
  let at_ := 32 * s.commitPly
  let v := if bitOf value.toNat 4 then
      s.spanOf n (l.timers.getD n { slot := at_, phases := [] }) at_ /
        (match s.use P.TLDT F.TLD_TMR_CFG_UNIT n with | 0 => 1 | 1 => 8 | _ => 2 ^ 32)
    else l.counters.getD n 0
  .next (s.put P.TLDT F.TLD_TC_SNAP (sat32 v))

/-- GMB_CLR (R232): every counter of the page. -/
def execGmbClr (value : Word) (s : State) : Res :=
  .next (if bitOf value.toNat 0 then s.clearAll P.GMB [(F.GMB_CKPT_CNT, 1), (F.GMB_ROLLBACK_CNT, 1), (F.GMB_REPLAY_PLY_CNT_LO, 1),
    (F.GMB_REPLAY_PLY_CNT_HI, 1), (F.GMB_PAUSE_CNT, 1), (F.GMB_PAUSE_PLY_CNT, 1), (F.GMB_CKPT_FULL_CNT, 1),
    (F.GMB_OVERRUN_CNT, 1), (F.GMB_INJ_RETRACT_CNT, 1), (F.GMB_INJ_LOST_CNT, 1), (F.GMB_TOKEN_RETRACT_CNT, 1),
    (F.GMB_LATE_OUT_CNT, 1), (F.GMB_MISPRED_IDLE_CNT, 1), (F.GMB_MISPRED_CNT, 5)] else s)

/-- Agreement check of GMB (R232), and HORIZON after a copy. -/
def checkGMB (v : View) : Nat :=
  let e := v.f P.GMB F.GMB_CTL_CKPT_EXP
  if e < 6 ∨ 10 < e then E.RANGE else 0
def State.gmbCopied (s : State) : State := s.put P.GMB F.GMB_HORIZON (64 * 2 ^ s.use P.GMB F.GMB_CTL_CKPT_EXP)

end Sys2Proof.Machine
end

