-- ==== Sys2Proof/Machine/Rfq.lean ====
section
/-!
DEFINITION. Commands of RFQ (chapter 11): chunk closes, banks taken, flushes.
-/
namespace Sys2Proof.Machine

/-- PAGE_STAT.STATE of RFQ (R291). -/
def State.rfqState (s : State) : State :=
  s.setBlockState P.RFQ (if s.get P.RFQ F.RFQ_FLUSH_PEND != 0 then 2 else if s.enabledStreams.isEmpty then 0 else 1)

/-- CHUNK_AGE_CLOSE (R276): the chunk's age limit has passed since its first item was written; it waits while the chunk holds an
entry behind the commit point. -/
def execChunkAgeClose (t : Nat) (sid : Fin 22) (s : State) : Res :=
  let s := s.at t
  match (s.stream sid).opened with
  | none => .next s
  | some c =>
    .next (if s.enabled P.RFQ ∧ !c.items.isEmpty ∧ c.openedAt + usSlots c.ageMax ≤ t ∧ !c.items.any s.held
      then (s.sat P.RFQ F.RFQ_AGE_CNT 1 sid).closeChunk sid 0 else s)

/-- CHUNK_CLOSE (R267, R276): an item like the latest one does not fit in the chunk any more. -/
def execChunkClose (t : Nat) (sid : Fin 22) (s : State) : Res :=
  let s := s.at t
  match (s.stream sid).opened with
  | none => .next s
  | some c =>
    match c.items.getLast? with
    | none => .next s
    | some it => .next (if s.enabled P.RFQ ∧ !c.fits (s.kindNow sid) it then s.closeChunk sid 0 else s)

/-- The items a stalled producer holds go on into a bank that is free again (R278, R280). -/
def State.drainStaging (s : State) (sid : Nat) : State :=
  let its := (s.stream sid).staging
  let s := (s.modStream sid (fun q => { q with staging := [], stagingBytes := 0 })).setStall sid false
  (its.foldl (fun s it => s.appendItem sid it) s).refreshRfq sid

/-- BANK_FREE (R240, R278): the ring writer has taken the whole chunk of a bank of streams 8 to 21; it stays where a protected
chunk would be overwritten (R242). Banks of the store path are freed by the store's own completions. -/
def execBankFree (t : Nat) (sid : Fin 22) (bank : Bool) (s : State) : Res :=
  let s := s.at t
  let q := s.stream sid
  match (if bank then q.bankB else q.bankA).chunk? with
  | none => .next s
  | some c =>
    if sid.val < 8 ∨ !s.enabled P.RFQ then .next s
    else
      let (s, done) := s.ringWrite sid c
      if !done then .next s
      else .next ((s.modStream sid (fun q =>
        if bank then { q with bankB := .free } else { q with bankA := .free })).drainStaging sid)

/-! ### Flush (R281 to R284) -/

/-- Discard the chunk in progress of a stream; entries of stream 18 behind the commit point stay (R282). Answers the first
slot discarded. -/
def State.discardOpen (s : State) (sid : Nat) : State × Option Nat :=
  match (s.stream sid).opened with
  | none => (s, none)
  | some c =>
    let kept := c.items.filter s.held
    let gone := c.items.filter (fun it => !s.held it)
    let s := s.sat P.RFQ F.RFQ_DISCARD_CNT 1 sid
    let s := s.modStream sid (fun q =>
      let q := if sid < 8 then q else if q.current then { q with bankB := .free } else { q with bankA := .free }
      { q with opened := none, flushed := true })
    let s := if kept.isEmpty then s
      else
        let s := s.openChunk sid ((kept.head?.map Item.slot).getD 0)
        s.modStream sid (fun q => { q with opened := q.opened.map (fun c =>
          { c with items := kept, bytes := (kept.map (itemSize (s.kindNow sid))).foldl (· + ·) 0 }) })
    (s, gone.head?.map Item.slot)

/-- Discard a complete chunk that waits in a bank. -/
def State.discardBank (s : State) (sid : Nat) (bank : Bool) : State × Option Nat :=
  match (if bank then (s.stream sid).bankB else (s.stream sid).bankA) with
  | .full c =>
    ((s.modStream sid (fun q =>
      if bank then { q with bankB := .free, flushed := true } else { q with bankA := .free, flushed := true })).sat
      P.RFQ F.RFQ_DISCARD_CNT 1 sid, c.items.head?.map Item.slot)
  | _ => (s, none)

/-- Flush one stream (R281). -/
def State.flushStream (s : State) (sid : Nat) (banked : Bool) : State :=
  let (s, a) := s.discardOpen sid
  let (s, b) := if banked then s.discardBank sid false else (s, none)
  let (s, c) := if banked then s.discardBank sid true else (s, none)
  let first := (a.toList ++ b.toList ++ c.toList).foldl (fun (m : Option Nat) x =>
    match m with | none => some x | some y => some (Nat.min x y)) none
  let s := s.modStream sid (fun q => { q with flushed := true, flushGap := q.flushGap ++ first.toList })
  let s := s.put P.RFQ F.RFQ_FLUSH_PEND (putBit (s.get P.RFQ F.RFQ_FLUSH_PEND) sid true)
  s.drainStaging sid

/-- RFQ_FLUSH (R281). Streams that do not produce have nothing in progress. -/
def execRfqFlush (t : Nat) (value : Word) (s : State) : Res :=
  let s := s.at t
  let v := value.toNat
  if !s.enabled P.RFQ then .next s
  else
    let s := s.each ((List.range 22).filter (fun i => bitOf v i && s.recording i)) (fun s i => s.flushStream i (bitOf v 31))
    .next (s.putB P.RFQ F.RFQ_STAT_FLUSH_BUSY (s.get P.RFQ F.RFQ_FLUSH_PEND != 0)).rfqState

/-- A GAP marker of a flush (R282): in stream 18, and before the first item of the stream's new chunk. -/
def State.flushGapMark (s : State) (sid first resume : Nat) : State :=
  let params := [slot51 resume, 6]
  let s := (s.marker K.GAP sid first params).recFlag RF.GAP
  let s := s.note RN.GAP first sid
  if tailStreams.contains sid then
    s.modStream sid (fun q => { q with opened := q.opened.map (fun c =>
      let ws := markerWords K.GAP sid 0 first params
      { c with tail := { index := 0, words := ws } :: c.tail, tailWords := c.tailWords + ws.length }) })
  else s.inband sid K.GAP sid first params

/-- FLUSH_DONE (R282, R284): every flushed stream has resumed at a new chunk. -/
def execFlushDone (t : Nat) (s : State) : Res :=
  let s := s.at t
  let pend := (List.range 22).filter (bitOf (s.get P.RFQ F.RFQ_FLUSH_PEND))
  let resumed := pend.all (fun i => match (s.stream i).opened with | some c => !c.items.isEmpty | none => false)
  if pend.isEmpty ∨ !resumed then .next s
  else
    let s := s.each pend (fun s i =>
      let q := s.stream i
      let resume := match q.opened with | some c => (c.items.head?.map Item.slot).getD 0 | none => 0
      (s.modStream i (fun q => { q with flushGap := [] })).each q.flushGap (fun s x => s.flushGapMark i x resume))
    let s := (s.put P.RFQ F.RFQ_FLUSH_PEND 0).putB P.RFQ F.RFQ_STAT_FLUSH_BUSY false
    .next (s.pulse P.RFQ 22).rfqState

/-- RFQ_CLR (R291): every counter of the page. -/
def execRfqClr (value : Word) (s : State) : Res :=
  .next (if bitOf value.toNat 0 then
    s.clearAll P.RFQ [(F.RFQ_LOST_CNT, 1), (F.RFQ_DISCARD_CNT, 22), (F.RFQ_AGE_CNT, 22)] else s)

/-- Agreement check of RFQ (R291, R292). -/
def checkRFQ (v : View) (g : Nat) : Nat :=
  if g ≠ 0 then 0
  else
    let a := v.f P.RFQ F.RFQ_CTL_CHUNK_AGE_MAX
    if a < 10 ∨ 1000 < a then E.RANGE else 0

/-- Streams that run half-banks from arming on (R279). -/
def State.splitMask (s : State) : Nat :=
  let m := s.use P.ACQ F.ACQ_CTL_MODE
  if m = 2 ∨ m = 3 ∨ s.useB P.RFQ F.RFQ_CTL_SPLIT_ALL then
    (List.range 22).foldl (fun k i => if 8 ≤ i && bitOf (s.useReg P.ACQ F.ACQ_STREAM_EN.off) i then k + 2 ^ i else k) 0
  else 0

end Sys2Proof.Machine
end

