-- ==== Sys2Proof/Machine/Cmp.lean ====
section
/-!
DEFINITION. Commands of CMP and DCP (chapter 12).
-/
namespace Sys2Proof.Machine

/-- BLOCK_VERIFY (R294, R309, R310): a lane takes what it can of its ring chunk; where that closes a block, its decoder has
checked it, `good` saying whether it agreed, and the pocket is written or the items go raw. `bad` lists deep-memory offsets of
lines the reader met an uncorrectable error in (R340). -/
def execBlockVerify (t : Nat) (lane : Fin 16) (good : Bool) (bad : List Nat) (s : State) : Res :=
  let s := s.at t
  match (s.thread lane.val).stream with
  | none => .next s
  | some sid => .next (if s.enabled P.CMP then (State.runPath lane.val sid t bad 8 good s).cmpShow else s)

/-- CMP_CLR (R316): the five counters. -/
def execCmpClr (value : Word) (s : State) : Res :=
  .next (if bitOf value.toNat 0 then
    s.clearAll P.CMP [(F.CMP_VERIFY_CNT, 1), (F.CMP_NOGAIN_CNT, 1), (F.CMP_BANKFULL_CNT, 1), (F.CMP_RESET_CNT, 1),
      (F.CMP_STALL_CNT, 1)] else s)

/-- DCP_CLR (R317): every counter of the page. -/
def execDcpClr (value : Word) (s : State) : Res :=
  .next (if bitOf value.toNat 0 then
    s.clearAll P.DCP [(F.DCP_CHECK_FAIL_CNT, 1), (F.DCP_FORMAT_ERR_CNT, 1), (F.DCP_SEQ_GAP_CNT, 1), (F.DCP_POISON_CNT, 1),
      (F.DCP_BLOCK_CNT, 1), (F.DCP_OUT_BYTES_LO, 1), (F.DCP_OUT_BYTES_HI, 1), (F.DCP_IN_BYTES_LO, 1),
      (F.DCP_IN_BYTES_HI, 1), (F.DCP_RESYNC_CNT, 1)] else s)

/-- Agreement check of CMP (R316): the manual lane map. -/
def checkCMP (v : View) (g : Nat) : Nat :=
  if g ≠ 0 then 0
  else
    let lane (i : Nat) : Nat := bits (v P.CMP (F.CMP_LANE_CFG.at (i / 4))) (8 * (i % 4) + 7) (8 * (i % 4))
    let on := ((List.range 16).filter (fun i => bitOf (lane i) 7)).map (fun i => bits (lane i) 4 0)
    let spare := (List.range 22).foldl (fun n sid => n + ((on.filter (· == sid)).length - 1)) 0
    firstCause [(v.b P.CMP F.CMP_CTL_LANE_MODE && decide (10 < spare), 0x0160), (on.any (fun x => decide (21 < x)), 0x0161)]

end Sys2Proof.Machine
end

