-- ==== Sys2Proof/Machine/Mem.lean ====
section
/-!
DEFINITION. Scratch and deep memory (chapter 13): host accesses through BAR2 and BAR4, errors, sweep and scrub, the march engine
and lending.
-/
namespace Sys2Proof.Machine

/-! ### Commands in flight -/

def State.modHost (s : State) (f : HostState → HostState) : State := { s with host := f s.host }

/-- Change one command in flight. -/
def State.modOp (s : State) (id : Nat) (f : HostOp → HostOp) : State :=
  s.modHost (fun h => { h with ops := h.ops.map (fun o => if o.id = id then f o else o) })

/-- A command by its number. -/
def State.opById (s : State) (id : Nat) : Option HostOp := s.host.ops.find? (fun o => o.id = id)

/-- A command of this module by ring and TAG that has not ended (R386). -/
def State.opByTag (s : State) (ring tag : Nat) : Option HostOp :=
  s.host.ops.find? (fun o => o.from_.isNone && o.ring == ring && o.tag == tag && (match o.phase with | .ended _ => false | _ => true))

/-! ### Reach of the host (R484) -/

/-- Whether the endpoint serves memory requests: the link is up and step 3 is over, or WAIT_IMAGE is entered. -/
def State.hostServed (s : State) : Bool :=
  s.powered && s.getB P.HIF F.HIF_LINK_STAT_UP && decide (4 ≤ s.get P.GLB F.GLB_BOOT_STAT_STEP)

/-- Scratch regions by offset (R321). -/
def inCpx (a : Nat) : Bool := decide (a < 0x800000)
def inGambit (a : Nat) : Bool := decide (0x800000 ≤ a) && decide (a < 0x2D00000)
def inStaging (a : Nat) : Bool := decide (0x5280000 ≤ a) && decide (a < 0x5380000)
def inGen (a : Nat) : Bool := decide (0x5380000 ≤ a) && decide (a < 0x6000000)

/-- Whether a BAR2 offset names a scratch byte, and which, in whichever window (R320). -/
def bar2Scratch (o : Nat) : Option Nat :=
  let a := o % 0x8000000
  if o < 0x18000000 ∧ a < 0x6000000 then some a else none

/-! ### Errors of scratch (R326) -/

def State.scrCorrected (s : State) (a : Nat) : State :=
  ((s.sat P.SCR F.SCR_CE_CNT).setReg P.SCR F.SCR_ECC_LAST.off a).pulse P.SCR 0

def State.scrUncorrectable (s : State) (a : Nat) : State :=
  (((s.sat P.SCR F.SCR_UE_CNT).setReg P.SCR F.SCR_ECC_LAST.off (a + 2 ^ 31)).pulse P.SCR 1).raiseFault Q.SCRATCH

/-! ### Lending (R334 to R336) -/

/-- Lending flag of a tile: 0 NEVER, 1 PRESERVE_ONLY, 2 ANY. -/
def State.lendFlag (s : State) (tile : Nat) : Nat :=
  bits (s.useReg (P.LEND (tile / 16)) F.SCR_LEND_DATA.off) (2 * (tile % 16) + 1) (2 * (tile % 16))

/-- Whether a flag permits a test (R333). -/
def permits (flag : Nat) (destructive : Bool) : Bool := if destructive then flag == 2 else flag == 1 || flag == 2

/-- MAR_STAT and PAGE_STAT.STATE of MAR (R345). -/
def State.marShow (s : State) : State :=
  let v := match s.mar.held with
    | some b => 2 ^ 31 + b2n b.destructive * 2 ^ 30 + b2n b.op.isSome * 2 ^ 29 + b.tile
    | none => 0
  let running := s.host.ops.any (fun o => o.opcode == 0x10 && o.phase == .running)
  let s := s.setReg P.MAR F.MAR_STAT.off v
  s.setBlockState P.MAR (if running then 2 else match s.mar.held with | some b => (if b.op.isNone then 1 else 2) | none => 0)

def State.modMar (s : State) (f : MarState → MarState) : State := { s with mar := f s.mar }

/-- The held tile is restored and released, to be retried YIELD_HOLD later (R335). -/
def State.yieldTile (s : State) (b : Borrow) (master : Nat) : State :=
  let hold := s.use P.MAR F.MAR_CTL_YIELD_HOLD
  let due := if hold = 0 then none else some (s.now + msSlots hold)
  let s := s.modMar (fun m => { m with held := none, retry := some (b.tile, b.op, due) })
  let s := (s.sat P.SCR F.SCR_LEND_STALL_CNT 1 master).sat P.MAR F.MAR_YIELD_CNT
  (s.pulse P.MAR 2).marShow

/-- A refusal under R336. -/
def State.refuseAccess (s : State) : State := (s.sat P.SCR F.SCR_TEST_COLLIDE_CNT).pulse P.SCR 2

/-- An access of a master to scratch meets the tile under test, if it does (R335, R336); answers whether it is refused. -/
def State.meetTest (s : State) (master a : Nat) : State × Bool :=
  match s.mar.held with
  | some b =>
    if b.tile ≠ a / 65536 then (s, false)
    else if b.destructive then (s.refuseAccess, true)
    else (s.yieldTile b master, false)
  | none => (s, false)

/-- LEND_COLLISION (R335): an access to the tile under a preserving test. -/
def execLendCollision (t : Nat) (master : Fin 16) (offset : BitVec 27) (s : State) : Res :=
  let s := s.at t
  match s.mar.held with
  | some b => .next (if b.tile = offset.toNat / 65536 ∧ !b.destructive then s.yieldTile b master.val else s)
  | none => .next s

/-- TEST_COLLIDE (R336): an access to the tile under a destructive test is refused; a host read gets poisoned data, a command whose
data access it was ends with TEST_COLLIDE. -/
def execTestCollide (t : Nat) (offset : BitVec 27) (read : Bool) (host : Bool) (op : Option (Fin 16 × BitVec 16)) (s : State) : Res :=
  let s := s.at t
  match s.mar.held with
  | some b =>
    if b.tile ≠ offset.toNat / 65536 ∨ !b.destructive then .next s
    else
      let s := s.refuseAccess
      let s := if host ∧ read then s.emit (.poisoned .host) else s
      match op.bind (fun x => s.opByTag x.1.val x.2.toNat) with
      | some o => .next (s.modOp o.id (fun o => { o with stop := some (o.stop.getD 7) }))
      | none => .next s
  | none => .next s

/-! ### BAR2 -/

/-- Whether the host may write an offset (R322, R484). -/
def State.hostWritable (s : State) (a : Nat) : Bool := s.started || inGen a

/-- Land a host write in scratch (R322 to R326, R335, R336): `f` makes the new bytes from the old ones; `narrow` says it is a locked
read-modify-write. -/
def State.hostScrWrite (s : State) (a n : Nat) (narrow : Bool) (x : ScrAccess) (f : List Byte → List Byte) : State :=
  if inCpx a || inGambit a || inStaging a then (s.sat P.SCR F.SCR_HOST_WPROT_CNT).pulse P.SCR 4
  else
    let (s, refused) := s.meetTest 9 a
    if refused then s
    else
      let s := s.sat P.SCR F.SCR_CONFLICT_CNT x.wait 9
      let s := if narrow ∧ x.ce then s.scrCorrected a else s
      if narrow ∧ x.ue then s.scrUncorrectable a
      else if x.lost then (s.sat P.SCR F.SCR_WRITE_COLLIDE_CNT 1 9).pulse P.SCR 3
      else s.scrWrite a (f (s.scrRead a n))

/-- An inbound write with poisoned data is discarded and counted (R373). -/
def State.poisonedRx (s : State) : State := s.sat P.HIF F.HIF_POISON_RX_CNT

/-- BAR2_WRITE (R320, R322, R324, R325): a host write to scratch, one bank access of at most a 64-bit word. -/
def execBar2Write (t : Nat) (offset : BitVec 29) (data : List Byte) (poisoned : Bool) (x : ScrAccess) (s : State) : Res :=
  let s := s.at t
  if data.isEmpty ∨ 8 < offset.toNat % 8 + data.length then .fault .illFormed
  else if !s.hostServed then .next s
  else if poisoned then .next s.poisonedRx
  else match bar2Scratch offset.toNat with
    | none => .next s
    | some a => .next (if 0x8000000 ≤ offset.toNat ∨ !s.hostWritable a then s
        else s.hostScrWrite a data.length (decide (data.length < 8)) x (fun _ => data))

/-- BAR2_ALIAS_WRITE (R320, R325): bits of a scratch word set or cleared by a locked read-modify-write. -/
def execBar2AliasWrite (t : Nat) (offset : BitVec 29) (data : List Byte) (poisoned : Bool) (x : ScrAccess) (s : State) : Res :=
  let s := s.at t
  if data.isEmpty ∨ 8 < offset.toNat % 8 + data.length then .fault .illFormed
  else if !s.hostServed then .next s
  else if poisoned then .next s.poisonedRx
  else match bar2Scratch offset.toNat with
    | none => .next s
    | some a => .next (if offset.toNat < 0x8000000 ∨ !s.hostWritable a then s
        else s.hostScrWrite a data.length true x (fun old =>
          if offset.toNat < 0x10000000 then List.zipWith (· ||| ·) old data
          else List.zipWith (fun o d => o &&& ~~~d) old data))

/-! ### BAR4 -/

/-- Whether a deep-memory offset lies in the allotment (R239). -/
def State.inAllotment (s : State) (o : Nat) : Bool :=
  let b := s.useReg P.ACQM F.ACQ_DM_BASE.off * 2 ^ 20
  decide (b ≤ o) && decide (o < b + s.useReg P.ACQM F.ACQ_DM_SIZE.off * 2 ^ 20)

/-- Whether R341 guards an offset now. -/
def State.guarded (s : State) (o : Nat) : Bool := s.isArmed && s.useB P.DMC F.DMC_WPROT_CFG_WPROT_EN && s.inAllotment o

/-- BAR4_WRITE (R339, R341): bytes at or above the installed capacity are ignored, bytes in the guarded allotment discarded. -/
def execBar4Write (t : Nat) (offset : BitVec 38) (data : List Byte) (poisoned : Bool) (s : State) : Res :=
  let s := s.at t
  let o := offset.toNat
  if !s.hostServed ∨ !s.started then .next s
  else if poisoned then .next s.poisonedRx
  else
    let idx := (List.range data.length).filter (fun i => decide (o + i < s.deepSize))
    let bad := idx.any (fun i => s.guarded (o + i))
    let s' := s.each (idx.filter (fun i => !s.guarded (o + i))) (fun s i => s.dmWrite (o + i) [data.getD i 0])
    .next (if bad then (s'.sat P.DMC F.DMC_WPROT_CNT).pulse P.DMC 4 else s')

/-- BAR_MEMORY_READ (R320, R322, R326, R335, R336, R339, R340): data of a host read of scratch or deep memory; `ce` and `ue` list
offsets in error among those read. -/
def execBarMemoryRead (t : Nat) (deep : Bool) (offset : BitVec 38) (len : Nat) (ce ue : List Nat) (s : State) : Res :=
  let s := s.at t
  let o := offset.toNat
  if !s.hostServed then .next s
  else if deep then
    let inside (x : Nat) : Bool := decide (o ≤ x) && decide (x < o + len) && decide (x < s.deepSize)
    if !s.started then .next (s.emit (.readData .host (List.replicate len 0)))
    else
      let hits := ue.filter inside
      let s := s.each (ce.filter inside) State.dmCorrected
      if hits.isEmpty then
        .next (s.emit (.readData .host ((List.range len).map (fun i =>
          if o + i < s.deepSize then Memory.read s.deep (o + i) else 0))))
      else .next (((s.each hits State.dmUncorrectable).sat P.HIF F.HIF_POISON_TX_CNT).emit (.poisoned .host))
  else
    let byteAt (s : State) (i : Nat) : Byte := match bar2Scratch (o + i) with
      | some a => if inCpx a || (!s.started && !inGen a) then 0 else Memory.read s.scratch a
      | none => 0
    match bar2Scratch o with
    | none => .next (s.emit (.readData .host ((List.range len).map (byteAt s))))
    | some a =>
      if inCpx a ∨ (!s.started ∧ !inGen a) then .next (s.emit (.readData .host ((List.range len).map (byteAt s))))
      else
        let inside (x : Nat) : Bool := decide (a ≤ x) && decide (x < a + len)
        let (s, refused) := s.meetTest 9 a
        if refused then .next (s.emit (.poisoned .host))
        else
          let hits := ue.filter inside
          let s := s.each (ce.filter inside) State.scrCorrected
          if hits.isEmpty then .next (s.emit (.readData .host ((List.range len).map (byteAt s))))
          else .next (((s.each hits State.scrUncorrectable).sat P.HIF F.HIF_POISON_TX_CNT).emit (.poisoned .host))

/-! ### Sweep and scrub -/

/-- SCRATCH_SWEEP (R327): the next word; `err` says whether it met an error, and whether an uncorrectable one. -/
def execScratchSweep (t : Nat) (err : Option Bool) (s : State) : Res :=
  let s := s.at t
  if !s.started then .next s
  else
    let a := s.mar.sweepPos
    let (s, refused) := s.meetTest 14 a
    let s := match err with
      | some ue => if refused then s else if ue then s.scrUncorrectable a else s.scrCorrected a
      | none => s
    let next := (a + 8) % scratchSize
    let s := s.modMar (fun m => { m with sweepPos := next })
    .next ((s.setReg P.SCR F.SCR_STAT.off (2 ^ 31 + next / 65536)).setBlockState P.SCR 1)

/-- DM_SCRUB (R342): the next line; when another write reached it between read and write-back it is read again. -/
def execDmScrub (t : Nat) (err : Option Bool) (rewritten : Bool) (s : State) : Res :=
  let s := s.at t
  if !s.started ∨ !s.useB P.DMC F.DMC_SCRUB_CFG_EN then .next (if s.started then s.setBlockState P.DMC 0 else s)
  else
    let line := s.get P.DMC F.DMC_SCRUB_POS
    let s := s.setBlockState P.DMC 1
    let s := match err with
      | some ue => if ue then s.dmUncorrectable (64 * line) else s.dmCorrected (64 * line)
      | none => s
    if rewritten then .next s
    else if 64 * (line + 1) < s.deepSize then .next (s.put P.DMC F.DMC_SCRUB_POS (line + 1))
    else .next (((s.put P.DMC F.DMC_SCRUB_POS 0).wrap P.DMC F.DMC_SCRUB_PASS_CNT).pulse P.DMC 2)

/-! ### The march engine -/

/-- Fill a tile (R330). -/
def State.fillTile (s : State) (tile fill : Nat) : State :=
  let bs := leBytes 8 fill
  s.each (List.range 8192) (fun s i => s.scrWrite (tile * 65536 + 8 * i) bs)

/-- Borrow a tile for a test. -/
def State.borrow (s : State) (b : Borrow) : State := (s.modMar (fun m => { m with held := some b })).marShow

/-- The rotation's next tile that is not NEVER, and whether the rotation wraps on the way (R332). -/
def State.rotNext (s : State) : Option (Nat × Bool) :=
  let pos := s.get P.MAR F.MAR_ROT_POS
  ((List.range 1536).find? (fun i => s.lendFlag ((pos + i) % 1536) != 0)).map (fun i => ((pos + i) % 1536, decide (1536 ≤ pos + i)))

/-- A MARCH command holds the engine. -/
def State.marchRuns (s : State) : Bool := s.host.ops.any (fun o => o.opcode == 0x10 && o.phase == .running)

/-- ROTATION_TILE (R332, R335): the rotation borrows its next tile, or the yielded one when YIELD_HOLD is 0. -/
def execRotationTile (t : Nat) (s : State) : Res :=
  let s := s.at t
  let period := s.use P.MAR F.MAR_CTL_ROT_HOURS * 37500000000
  let due : Bool := match s.mar.rotAt with | some x => decide (x + period ≤ t) | none => true
  if !s.started ∨ !s.enabled P.MAR ∨ !s.useB P.MAR F.MAR_CTL_ROT_EN ∨ s.mar.held.isSome ∨ s.marchRuns ∨ !due then .next s
  else
    let test (tile : Nat) : Borrow :=
      { tile := tile, destructive := false, alg := s.use P.MAR F.MAR_CTL_ALG, fill := 0, op := none, release := false, failed := false }
    let s := s.modMar (fun m => { m with rotAt := some t })
    match s.mar.retry with
    | some (tile, none, none) =>
      let s := s.modMar (fun m => { m with retry := none })
      .next (if s.lendFlag tile = 0 then s else s.borrow (test tile))
    | _ => match s.rotNext with
      | none => .next s
      | some (tile, wrapped) =>
        let s := s.put P.MAR F.MAR_ROT_POS ((tile + 1) % 1536)
        let s := if wrapped ∨ tile = 1535 then (s.wrap P.MAR F.MAR_ROT_PASS_CNT).pulse P.MAR 3 else s
        .next (s.borrow (test tile))

/-- Replace the row of a failing word by a spare of its bank, or count it unrepaired (R328, R331). -/
def State.repairRow (s : State) (a : Nat) : State :=
  let bank := a / 8 % 64
  let used := s.mar.spares.getD bank 0
  if used < 8 then
    let s := s.modMar (fun m => { m with spares := lmod m.spares bank (· + 1) })
    let s := s.put P.SCR F.SCR_REPAIR_CNT (satU 16 (s.get P.SCR F.SCR_REPAIR_CNT + 1))
    let s := s.put P.GLB F.GLB_REPAIR_SUM_SCR (s.get P.SCR F.SCR_REPAIR_CNT)
    s.put P.SCR F.SCR_SPARE_MIN (8 - s.mar.spares.foldl Nat.max 0)
  else ((s.sat P.MAR F.MAR_UNREPAIRED_CNT).pulse P.MAR 1).raiseFault Q.SCRATCH

/-- A failing word (R331). -/
def State.marchFail (s : State) (a : Nat) (diff : Word64) : State :=
  let s := (s.sat P.MAR F.MAR_FAIL_CNT).put P.MAR F.MAR_FAIL_ADDR a
  (s.put64 P.MAR F.MAR_FAIL_BITS_LO F.MAR_FAIL_BITS_HI diff.toNat).pulse P.MAR 0

/-- Rows of failing words, one address for each row. -/
def rowsOf : List Nat → List Nat
  | [] => []
  | a :: r =>
    let same (x y : Nat) : Bool := x / 8 % 64 == y / 8 % 64 && x / 512 / 256 == y / 512 / 256
    a :: (rowsOf r).filter (fun b => !same a b)

/-- The MARCH command of a tile whose test has ended goes on to the next tile. -/
def State.marchNext (s : State) (op : Option Nat) : State :=
  match op with
  | some id => s.modOp id (fun o => { o with pos := o.pos + 1 })
  | none => s

/-- MARCH_STITCH (R329 to R331, R338): a march stitch ends with the failing words it met, as (word of the tile, differing bits);
`ended` says that the tile's test is over. -/
def execMarchStitch (t : Nat) (fails : List (Fin 8192 × Word64)) (ended : Bool) (s : State) : Res :=
  let s := s.at t
  match s.mar.held with
  | none => .next s
  | some b =>
    let addr (x : Fin 8192 × Word64) : Nat := b.tile * 65536 + 8 * x.1.val
    let s := s.each fails (fun s x => s.marchFail (addr x) x.2)
    let s := if b.destructive then s else s.each (rowsOf (fails.map addr)) State.repairRow
    let failed := b.failed || !fails.isEmpty
    let s := match b.op with
      | some id => s.modOp id (fun o => { o with result := o.result + fails.length, lost := o.lost || !fails.isEmpty })
      | none => s
    if b.release then
      let s := if b.destructive then s.fillTile b.tile b.fill else s
      let s := match b.op with
        | some id => s.modOp id (fun o => { o with stop := some (o.stop.getD 6) })
        | none => s
      .next (s.modMar (fun m => { m with held := none })).marShow
    else if ended then
      let s := s.wrap P.MAR F.MAR_TILE_CNT
      let s := if b.destructive then s.fillTile b.tile b.fill else s
      .next ((s.modMar (fun m => { m with held := none })).marchNext b.op).marShow
    else .next (s.modMar (fun m => { m with held := m.held.map (fun b => { b with failed := failed }) }))

/-- YIELD_RETRY (R335): YIELD_HOLD has passed since a yield; the tile is tested again from its first element. -/
def execYieldRetry (t : Nat) (s : State) : Res :=
  let s := s.at t
  match s.mar.retry with
  | some (tile, op, some due) =>
    if t < due ∨ s.mar.held.isSome ∨ !s.enabled P.MAR then .next s
    else
      let s := s.modMar (fun m => { m with retry := none })
      match op with
      | none =>
        let b : Borrow :=
          { tile := tile, destructive := false, alg := s.use P.MAR F.MAR_CTL_ALG, fill := 0, op := none, release := false, failed := false }
        .next (if s.lendFlag tile = 0 ∨ !s.useB P.MAR F.MAR_CTL_ROT_EN then s.marShow else s.borrow b)
      | some id => match s.opById id with
        | none => .next s.marShow
        | some o =>
          let b : Borrow :=
            { tile := tile, destructive := false, alg := (fieldAt o.param 2 1) % 4, fill := 0, op := some id, release := false,
              failed := false }
          .next (if s.lendFlag tile = 0 then (s.modOp id (fun o => { o with stop := some (o.stop.getD 6) })).marShow else s.borrow b)
  | _ => .next s

/-- A new lend table is in force (R338): a held tile whose flag forbids its test is released at the end of the march stitch. -/
def State.lendCopied (s : State) : State :=
  match s.mar.held with
  | some b => if permits (s.lendFlag b.tile) b.destructive then s
      else s.modMar (fun m => { m with held := m.held.map (fun b => { b with release := true }) })
  | none => s

/-! ### Registers -/

/-- SCR_LEND_SEL (R344). -/
def execScrLendSel (value : Word) (s : State) : Res := .next (s.put P.SCR F.SCR_LEND_PTR (bits value.toNat 7 0))

/-- SCR_CLR (R344): every counter but SCR_REPAIR_CNT. -/
def execScrClr (value : Word) (s : State) : Res :=
  .next (if bitOf value.toNat 0 then
    s.clearAll P.SCR [(F.SCR_CE_CNT, 1), (F.SCR_UE_CNT, 1), (F.SCR_TEST_COLLIDE_CNT, 1), (F.SCR_HOST_WPROT_CNT, 1),
      (F.SCR_CONFLICT_CNT, 16), (F.SCR_WRITE_COLLIDE_CNT, 16), (F.SCR_LEND_STALL_CNT, 16)] else s)

/-- MAR_CLR (R345). -/
def execMarClr (value : Word) (s : State) : Res :=
  .next (if bitOf value.toNat 0 then
    s.clearAll P.MAR [(F.MAR_ROT_PASS_CNT, 1), (F.MAR_TILE_CNT, 1), (F.MAR_FAIL_CNT, 1), (F.MAR_YIELD_CNT, 1),
      (F.MAR_UNREPAIRED_CNT, 1)] else s)

/-- DMC_BADROW_SEL (R346). -/
def execDmcBadrowSel (value : Word) (s : State) : Res :=
  .next (s.modMar (fun m => { m with sel := bits value.toNat 5 0 })).showBadRow

/-- DMC_CLR (R346): the CE, UE, WPROT and REPAIR_FAIL counters. -/
def execDmcClr (value : Word) (s : State) : Res :=
  .next (if bitOf value.toNat 0 then
    s.clearAll P.DMC [(F.DMC_CE_CNT, 1), (F.DMC_UE_CNT, 1), (F.DMC_WPROT_CNT, 1), (F.DMC_REPAIR_FAIL_CNT, 1)] else s)

/-- Agreement checks of SCR, MAR and DMC (R344 to R347). -/
def checkSCR (v : View) (g : Nat) : Nat :=
  if g = 0 then (let h := v.f P.SCR F.SCR_CTL_SWEEP_HOURS; if h < 1 ∨ 8 < h then E.RANGE else 0)
  else if g = 1 then
    (if (List.range 96).any (fun q => (List.range 16).any (fun j =>
        bits (v (P.LEND q) F.SCR_LEND_DATA.off) (2 * j + 1) (2 * j) == 3)) then E.RESERVED_CODE else 0)
  else 0

def checkMAR (v : View) (g : Nat) : Nat :=
  if g ≠ 0 then 0
  else
    let h := v.f P.MAR F.MAR_CTL_ROT_HOURS
    firstCause [(decide (h < 1) || decide (8 < h), E.RANGE), (v.f P.MAR F.MAR_CTL_ALG == 3, E.RESERVED_CODE)]

def checkDMC (v : View) (g : Nat) : Nat :=
  if g ≠ 0 then 0
  else
    let m := v.f P.DMC F.DMC_SCRUB_CFG_SCRUB_MIN
    if m < 15 ∨ 240 < m then E.RANGE else 0

end Sys2Proof.Machine
end

