-- ==== Sys2Proof/Machine/Store.lean ====
section
/-!
DEFINITION. Commands of the store (chapter 14): chunks taken, written and committed, drives and their tables.
-/
namespace Sys2Proof.Machine

/-- Whether STO takes chunks. -/
def State.storeReady (s : State) : Bool := s.enabled P.STO && s.getB P.STO F.STO_STAT_READY

/-- Operations in flight, host commands and NVMe commands together (R23, R353). -/
def State.poolUsed (s : State) : Nat :=
  s.host.ops.length + s.store.writes.foldl (fun n w => if w.phase = 0 then n + w.left else n) 0 +
  (s.store.drives.filter (fun d => d.batch ≠ 0)).length

/-- I/O queue pair of a stream on a drive (R353): 1 + s, folded modulo the number created. -/
def State.queueOf (s : State) (d pair : Nat) : Option Nat :=
  let n := s.get P.NVQ F.NVQ_PORT_STAT_IOQ d
  if n = 0 then none else some ((pair - 1) % n + 1)

/-- Blocks of 4 KiB a chunk takes (R351, R360). -/
def Chunk.blocks (c : Chunk) : Nat := (c.length + 4095) / 4096

/-- Writes a chunk is split into by the drive's transfer limit (R348), as (first block, blocks). -/
def splitWrites (blocks limitKib : Nat) : List (Nat × Nat) :=
  let step := if limitKib < 4 then blocks else limitKib / 4
  if step = 0 then [] else (List.range ((blocks + step - 1) / step)).map (fun i => (i * step, Nat.min step (blocks - i * step)))

/-- Issue a chunk's Writes at its place (R354). -/
def State.issueWrites (s : State) (w : StoWrite) : State :=
  let limit := match (s.drive w.drive).image with | some m => m.mdtsKib | none => 0
  let parts := splitWrites w.chunk.blocks limit
  let s := s.each parts (fun s p =>
    s.emit (.nvme w.drive (s.queueOf w.drive (1 + w.chunk.stream)) (.write (extentLba w.ext + w.block + p.1) p.2 false)))
  s.modStore (fun q => { q with writes := q.writes.map (fun x =>
    if x.chunk.stream = w.chunk.stream ∧ x.chunk.seq = w.chunk.seq ∧ x.phase = 0 ∧ x.op = w.op then { x with left := parts.length } else x) })

/-- Lowest FREE extent of a drive. -/
def State.lowestFree (s : State) (d : Nat) : Option Nat :=
  (List.range (s.extentsOf d)).find? (fun i => !s.store.exts.any (fun e => e.drive == d && e.no == i))

/-- Open the next extent of a stream in a record (R352): its drive in rotation, else the next that has one. -/
def State.openExtent (s : State) (j : StoJob) (sid : Nat) : Option (Nat × Nat) × State :=
  let mine (e : Extent) : Bool := e.slot == j.slot && e.record == j.record && e.stream == sid
  let n := (s.store.exts.filter mine).length
  let ds := s.liveDrives
  let start := if ds.length = 0 then 0 else (sid + n) % ds.length
  match (ds.drop start ++ ds.take start).findSome? (fun d => (s.lowestFree d).map (fun i => (d, i))) with
  | none => (none, s)
  | some (d, i) =>
    let e : Extent :=
      { drive := d, no := i, state := 1, stream := sid, index := n, record := j.record, slot := j.slot, fill := 0, used := 0 }
    (some (d, i), s.modStore (fun q => { q with
      exts := q.exts.map (fun x => if mine x ∧ x.state = 1 then { x with state := 2 } else x) ++ [e] }))

/-- The place of a stream's next chunk: in its OPEN extent while it fits, else in a new one (R351, R352). -/
def State.placeChunk (s : State) (j : StoJob) (sid blocks : Nat) : Option (Nat × Nat × Nat) × State :=
  match s.store.exts.find? (fun e => e.slot = j.slot ∧ e.record = j.record ∧ e.stream = sid ∧ e.state = 1 ∧ e.used + blocks ≤ 65536) with
  | some e => (some (e.drive, e.no, e.used), s)
  | none => match s.openExtent j sid with
    | (some (d, i), s) => (some (d, i, 0), s)
    | (none, s) => (none, s)

/-- Advance the part of an extent given to chunks. -/
def State.useBlocks (s : State) (d i n : Nat) : State :=
  s.modStore (fun q => { q with exts := q.exts.map (fun e => if e.drive = d ∧ e.no = i then { e with used := e.used + n } else e) })

/-- Lowest record table slot that is FREE and not reserved. -/
def State.freeSlot (s : State) : Nat :=
  ((List.range 65536).find? (fun i => !s.store.table.any (fun e => e.slot == i) && !s.store.jobs.any (fun j => j.slot == i))).getD 0

/-- The job of the record in progress, begun when its first chunk is taken (R355, R358, R360); of a record that is closed the
header is known. -/
def State.ensureJob (s : State) (c : Chunk) : State :=
  if (s.jobOf none).isSome then s
  else
    let h := s.dmRead (s.headerAt c.segment) 256
    let finished := headField h 0 4 == c.record && bitOf (headField h 0xC 4) 31
    let finals := (List.range 22).foldl (fun m sid =>
      if (s.stream sid).ring.any (fun e => bitOf e.chunk.flags 2) then m + 2 ^ sid else m) 0
    let j : StoJob :=
      { op := none, record := c.record, segment := c.segment, slot := s.freeSlot, allot := s.useReg P.ACQM F.ACQ_STO_ALLOT.off * 256,
        charge := 0, finals := 0, streams := if finished then finals else s.useReg P.ACQ F.ACQ_STREAM_EN.off, opened := false,
        closing := false, header := if finished then some h else none, full := false, bytes := 0, broken := false, last := [] }
    s.modStore (fun q => { q with jobs := q.jobs ++ [j] })

/-- The store has no room for the next chunk of a record (R360): it takes no more of it, and the record ends at the last slot whose
data of every stream are stored; an OFFLOAD ends with STORE_FULL. -/
def State.storeFull (s : State) (j : StoJob) : State :=
  let s := (s.sat P.STO F.STO_FULL_CNT).pulse P.STO 2
  let s := s.modJob j.op (fun j => { j with full := true })
  match j.op with
  | some id => s.modOp id (fun o => { o with stop := some (o.stop.getD 8) })
  | none =>
    let last := j.last.foldl (fun (m : Option Nat) e => match m with | none => some e.2 | some x => some (Nat.min x e.2)) none
    let e := last.getD s.acq.collarStart
    let s := s.modAcq (fun a => { a with endSlot := some e, closeNote := 4 })
    s.put64 P.ACQ F.ACQ_END_SLOT_LO F.ACQ_END_SLOT_HI (slot51 e)

/-- A full bank of the store path: thread, bank, chunk. -/
structure FullBank where
  thread : Nat
  bank : Bool
  chunk : Chunk
  deriving DecidableEq, Repr

/-- Full banks, lowest SEQ of each stream first. -/
def State.fullBanks (s : State) : List FullBank :=
  (List.range 38).flatMap (fun i =>
    let q := s.thread i
    (match q.bankA with | .full c => [({ thread := i, bank := false, chunk := c } : FullBank)] | _ => []) ++
    (match q.bankB with | .full c => [({ thread := i, bank := true, chunk := c } : FullBank)] | _ => []))

/-- The bank STO takes next (R353): streams 18 to 21 first, else round-robin by id after the stream served last, each in SEQ order. -/
def State.nextBank (s : State) : Option FullBank :=
  let bs := s.fullBanks
  let order := [18, 19, 20, 21] ++ ((List.range 18).map (fun k => (s.store.last + 1 + k) % 18))
  (order.find? (fun sid => bs.any (fun b => b.chunk.stream == sid))).bind (fun sid =>
    (bs.filter (fun b => b.chunk.stream = sid)).foldl (fun (m : Option FullBank) b =>
      match m with | none => some b | some x => if b.chunk.seq < x.chunk.seq then some b else some x) none)

/-- Whether a stream's chunks go into the store for an OFFLOAD, and which. -/
def State.pathOpOf (s : State) (sid : Nat) : Option Nat := (s.stream sid).pathOp

/-- STO_TAKE_CHUNK (R352 to R354, R360): uncompressed paths fill their banks, and STO takes the next full one and issues its Writes.
`bad` lists deep-memory offsets of lines the reader met an uncorrectable error in. -/
def execStoTakeChunk (t : Nat) (bad : List Nat) (s : State) : Res :=
  let s := s.at t
  let raws := (List.range 22).filter (fun sid => s.threadsOf sid == [16 + sid] && (s.thread (16 + sid)).stream.isSome)
  let s := s.each raws (fun s sid => State.runPath (16 + sid) sid t bad 4 true s)
  if !s.storeReady ∨ 4096 ≤ s.poolUsed then .next s.storeShow
  else match s.nextBank with
    | none => .next s.storeShow
    | some b =>
      let c := b.chunk
      let op := s.pathOpOf c.stream
      let s := if op.isNone then s.ensureJob c else s
      let s := if c.stream < 18 then s.modStore (fun q => { q with last := c.stream }) else s
      let drain (s : State) : State := s.modThread b.thread (fun q =>
        if b.bank then { q with bankB := .draining c } else { q with bankA := .draining c })
      let drop (s : State) : State := ((drain s).freePath b.thread b.bank).storeShow
      match s.jobOf op with
      | none => .next (drop s)
      | some j =>
        if j.full then .next (drop s)
        else if j.allot < j.charge + c.blocks then .next (drop (s.storeFull j))
        else match s.placeChunk j c.stream c.blocks with
          | (none, s) => .next (drop (s.storeFull j))
          | (some (d, e, blk), s) =>
            let w : StoWrite :=
              { op := op, chunk := c, lane := b.thread, bank := b.bank, drive := d, ext := e, block := blk, left := 1, phase := 0,
                retried := false }
            let s := (drain (s.useBlocks d e c.blocks)).modStore (fun q => { q with writes := q.writes ++ [w] })
            let s := s.modJob op (fun j => { j with
              charge := j.charge + c.blocks,
              last := (c.stream, (c.items.getLast?.map Item.slot).getD 0) :: j.last.filter (fun x => x.1 ≠ c.stream) })
            .next (s.issueWrites w).storeShow

/-- A write under way by stream and SEQ. -/
def State.findWrite (s : State) (sid seq : Nat) : Option StoWrite :=
  s.store.writes.find? (fun w => w.chunk.stream = sid ∧ w.chunk.seq = seq ∧ w.phase = 0)

/-- Change one write. -/
def State.modWrite (s : State) (w : StoWrite) (f : StoWrite → StoWrite) : State :=
  s.modStore (fun q => { q with writes := q.writes.map (fun x => if x = w then f x else x) })

/-- NVME_WRITE_COMPLETE (R354): one Write of a chunk completes; with the last the chunk is written and its bank free. -/
def execNvmeWriteComplete (t : Nat) (sid : Fin 22) (seq : Nat) (s : State) : Res :=
  let s := s.at t
  match s.findWrite sid.val seq with
  | none => .next s
  | some w =>
    if 1 < w.left then .next (s.modWrite w (fun x => { x with left := x.left - 1 })).storeShow
    else
      let s := s.modWrite w (fun x => { x with left := 0, phase := 1 })
      .next (s.freePath w.lane w.bank).storeShow

/-- NVME_WRITE_ERROR (R363): a Write fails or times out. The first time it is issued again at the same place; the second its extent
becomes BAD and the chunk goes to the start of the stream's next extent. -/
def execNvmeWriteError (t : Nat) (sid : Fin 22) (seq : Nat) (timeout : Bool) (status : BitVec 15) (s : State) : Res :=
  let s := s.at t
  match s.findWrite sid.val seq with
  | none => .next s
  | some w =>
    let s := if timeout then (s.sat P.NVQ F.NVQ_TIMEOUT_CNT 1 w.drive).pulse P.NVQ 5
      else
        let s := (s.sat P.NVQ F.NVQ_ERR_CNT 1 w.drive).pulse P.NVQ 4
        s.setReg P.NVQ (F.NVQ_LAST_ERR.at w.drive) (2 ^ 16 + status.toNat)
    if !w.retried then
      let w' := { w with retried := true }
      .next ((s.modWrite w (fun _ => w')).issueWrites w').storeShow
    else
      let s := (s.sat P.STO F.STO_WRITE_ERR_CNT).pulse P.STO 4
      let s := s.modStore (fun q => { q with exts := q.exts.map (fun e =>
        if e.drive = w.drive ∧ e.no = w.ext then { e with state := 3 } else e) })
      match s.jobOf w.op with
      | none => .next s.storeShow
      | some j => match s.openExtent j sid.val with
        | (none, s) =>
          let s := (s.modStore (fun q => { q with writes := q.writes.filter (fun x => x ≠ w) })).storeFull j
          .next (s.freePath w.lane w.bank).storeShow
        | (some (d, e), s) =>
          let w' := { w with drive := d, ext := e, block := 0, retried := false }
          .next (((s.modWrite w (fun _ => w')).useBlocks d e w.chunk.blocks).issueWrites w').storeShow

/-! ### Commit (R354) -/

/-- Rewrite with FUA the map blocks of a drive whose entries gain FILL (R350, R354). -/
def State.issueMap (s : State) (d : Nat) : State :=
  let blocks := ((s.store.writes.filter (fun w => w.drive = d ∧ w.phase = 2)).map (fun w => 256 + w.ext / 256)).eraseDups
  s.each blocks (fun s b => s.emit (.nvme d none (.write b 1 true)))

def State.modDrive (s : State) (d : Nat) (f : Drive → Drive) : State := s.modStore (fun q => { q with drives := lmod q.drives d f })

/-- COMMIT_BATCH (R354): a commit batch begins on each drive with chunks written since the last. -/
def execCommitBatch (t : Nat) (s : State) : Res :=
  let s := s.at t
  if !s.storeReady then .next s
  else .next (s.each s.liveDrives (fun s d =>
    if (s.drive d).batch ≠ 0 ∨ !s.store.writes.any (fun w => w.drive == d && w.phase == 1) then s
    else
      let s := s.modStore (fun q => { q with writes := q.writes.map (fun w =>
        if w.drive = d ∧ w.phase = 1 then { w with phase := 2 } else w) })
      if s.getB P.STO F.STO_DRIVE_STAT_VWC d then (s.modDrive d (fun q => { q with batch := 1 })).emit (.nvme d none .flush)
      else (s.modDrive d (fun q => { q with batch := 2 })).issueMap d)).storeShow

/-- NVME_FLUSH_COMPLETE (R354): the batch's map block is written with FUA. -/
def execNvmeFlushComplete (t : Nat) (d : Fin 4) (s : State) : Res :=
  let s := s.at t
  if (s.drive d.val).batch = 1 then .next ((s.modDrive d.val (fun q => { q with batch := 2 })).issueMap d.val).storeShow else .next s

/-- FILL raised over the run of written chunks that starts there (R354); `n` bounds the run. Answers the new FILL and the chunks
covered. -/
def fillRun (ws : List StoWrite) : Nat → Nat → Nat × List StoWrite
  | 0, fill => (fill, [])
  | n + 1, fill => match ws.find? (fun w => w.block = fill) with
    | none => (fill, [])
    | some w =>
      let r := fillRun ws n (fill + w.chunk.blocks)
      (r.1, w :: r.2)

/-- A chunk is committed. -/
def State.chunkCommitted (s : State) (w : StoWrite) : State :=
  s.modJob w.op (fun j => { j with bytes := j.bytes + w.chunk.length, finals := if bitOf w.chunk.flags 2 then putBit j.finals w.chunk.stream true else j.finals })

/-- MAP_FUA_COMPLETE (R354, R355): the chunks that the new FILLs cover are committed; table entries due are written. -/
def execMapFuaComplete (t : Nat) (d : Fin 4) (s : State) : Res :=
  let s := s.at t
  if (s.drive d.val).batch ≠ 2 then .next s
  else
    let s := s.each (s.store.exts.filter (fun e => e.drive = d.val)) (fun s e =>
      let ws := s.store.writes.filter (fun w => w.drive = d.val ∧ w.ext = e.no ∧ w.phase = 2)
      let (fill, done) := fillRun ws (ws.length + 1) e.fill
      let s := s.modStore (fun q => { q with
        exts := q.exts.map (fun x => if x.drive = e.drive ∧ x.no = e.no then { x with fill := fill } else x),
        writes := q.writes.filter (fun w => !done.contains w) })
      s.each done State.chunkCommitted)
    let s := s.modStore (fun q => { q with writes := q.writes.map (fun w =>
      if w.drive = d.val ∧ w.phase = 2 then { w with phase := 1 } else w) })
    .next (s.modDrive d.val (fun q => { q with batch := 0 })).settleJobs

/-- An entry stands in the table as written; a COMPLETE or INCOMPLETE one ends its job (R355). -/
def State.entryWritten (s : State) (e : RecEntry) : State :=
  let s := s.modStore (fun q => { q with table := q.table.filter (fun x => x.slot ≠ e.slot) ++ [e] })
  if e.state = 1 then s
  else
    let s := if e.state = 2 then s.pulse P.STO 1 else s
    let s := match s.store.jobs.find? (fun j => j.slot = e.slot) with
      | some j => match j.op with
        | some id => s.modOp id (fun o => { o with result := e.slot, stop := some (o.stop.getD 0) })
        | none => (s.modAcq (fun a => { a with readerFrom := none })).acqShow
      | none => s
    s.modStore (fun q => { q with jobs := q.jobs.filter (fun j => j.slot ≠ e.slot) })

/-- When no record is OPEN, a store that has lost a drive is not READY (R364). -/
def State.reportLost (s : State) : State :=
  if s.getB P.STO F.STO_STAT_READY && s.store.drives.any (fun d => d.lost) && s.store.jobs.isEmpty then
    (s.putB P.STO F.STO_STAT_READY false).put P.STO F.STO_STAT_CAUSE 6
  else s

/-- RECORD_TABLE_WRITE (R356): the FUA write of the entry at the head completes on copy A, then on copy B, or on the one copy kept. -/
def execRecordTableWrite (t : Nat) (s : State) : Res :=
  let s := s.at t
  match s.store.tabs with
  | [] => .next s
  | w :: r =>
    if !w.aDone ∧ 1 < s.tableCopies.length then
      .next (s.modStore (fun q => { q with tabs := { w with aDone := true } :: r })).startTable
    else
      let s := (s.modStore (fun q => { q with tabs := r })).entryWritten w.entry
      .next (s.startTable.settleJobs.reportLost).storeShow

/-! ### Drives -/

/-- DRIVE_LOST (R356, R364): a drive's link or controller fails; its chunks not committed are lost. -/
def execDriveLost (t : Nat) (d : Fin 4) (s : State) : Res :=
  let s := s.at t
  if !s.getB P.STO F.STO_DRIVE_STAT_PRESENT d.val then .next s
  else
    let s := s.putB P.NVQ F.NVQ_PORT_STAT_LINK_UP false d.val
    let s := (s.putB P.NVQ F.NVQ_PORT_STAT_CTRL_READY false d.val).level P.NVQ d.val true
    if !s.getB P.STO F.STO_DRIVE_STAT_IN_STORE d.val ∨ (s.drive d.val).lost then .next s
    else
      let table := s.tableCopies.any (fun c => c.1 == d.val) && decide (1 < ((List.range 4).filter (fun x => s.getB P.STO F.STO_DRIVE_STAT_IN_STORE x)).length)
      let s := (s.modDrive d.val (fun q => { q with lost := true, batch := 0 })).pulse P.STO 3
      let s := if table then s.putB P.STO F.STO_STAT_TABLE_SINGLE true else s
      let gone := s.store.writes.filter (fun w => w.drive = d.val)
      let s := s.sat P.STO F.STO_LOST_CHUNK_CNT gone.length
      let s := s.modStore (fun q => { q with writes := q.writes.filter (fun w => w.drive ≠ d.val) })
      let s := s.each gone (fun s w =>
        let s := if w.phase = 0 then s.freePath w.lane w.bank else s
        if bitOf w.chunk.flags 2 then
          s.modJob w.op (fun j => { j with broken := true, finals := putBit j.finals w.chunk.stream true })
        else s)
      let s := s.modStore (fun q => { q with exts := q.exts.map (fun e => if e.drive = d.val ∧ e.state = 1 then { e with state := 2 } else e) })
      .next (s.settleJobs.reportLost).storeShow

/-- The entries of the record table as both copies give them (R356). -/
def readTable (ds : List (Nat × DriveImage)) : List RecEntry :=
  let (a, b) := match ds with
    | [] => ([], [])
    | [(_, x)] => (x.tableA, x.tableB)
    | (_, x) :: (_, y) :: _ => (x.tableA, y.tableB)
  a ++ b.filter (fun e => !a.any (fun x => x.slot == e.slot))

/-- Superblock of a port. -/
def superOf (ims : List (Option DriveImage)) (d : Nat) : Option SuperBlock := (ims.getD d none).bind DriveImage.super

/-- Whether a store named by a superblock is whole (R362). -/
def storeWhole (ims : List (Option DriveImage)) (b : SuperBlock) : Bool :=
  (List.range 4).all (fun d => !bitOf b.ports d ||
    (match superOf ims d with
      | some x => x.storeId == b.storeId && x.gen == b.gen && x.port == d && ((ims.getD d none).map DriveImage.good).getD false
      | none => false))

/-- Judge the store by what the drives hold (R362). -/
def State.judgeStore (s : State) (ims : List (Option DriveImage)) : State :=
  let present := (List.range 4).filter (fun d => (ims.getD d none).isSome)
  let first := (present.filterMap (superOf ims)).head?
  let whole := match first with | some b => storeWhole ims b | none => false
  let cause :=
    if whole then 0
    else if present.isEmpty then 1
    else if present.any (fun d => !((ims.getD d none).map DriveImage.good).getD true) then 2
    else if present.any (fun d => (superOf ims d).isNone) then 3
    else match first with
      | none => 3
      | some b =>
        if present.any (fun d => match superOf ims d with | some x => x.storeId != b.storeId || x.gen != b.gen | none => false) then 4
        else 5
  let inStore (d : Nat) : Bool := match superOf ims d, first with
    | some x, some b => x.storeId == b.storeId && x.gen == b.gen && bitOf b.ports d
    | _, _ => false
  let s := s.each (List.range 4) (fun s d => s.putB P.STO F.STO_DRIVE_STAT_IN_STORE (inStore d) d)
  let s := (s.putB P.STO F.STO_STAT_READY whole).put P.STO F.STO_STAT_CAUSE cause
  let s := s.put P.STO F.STO_STAT_PORTS ((first.map SuperBlock.ports).getD 0)
  (s.put P.STO F.STO_STORE_ID ((first.map SuperBlock.storeId).getD 0)).put P.STO F.STO_GEN ((first.map SuperBlock.gen).getD 0)

/-- Status of a port and its drive (R348, R368). -/
def State.showDrive (s : State) (d : Nat) (im : Option DriveImage) : State :=
  let n := match im with | some m => Nat.min (s.use P.NVQ F.NVQ_CTL_IOQ_MAX) m.queues | none => 0
  let up := im.isSome
  let s := (s.putB P.NVQ F.NVQ_PORT_STAT_LINK_UP up d).putB P.NVQ F.NVQ_PORT_STAT_CTRL_READY up d
  let s := (s.put P.NVQ F.NVQ_PORT_STAT_GEN ((im.map DriveImage.gen).getD 0) d).put P.NVQ F.NVQ_PORT_STAT_WIDTH ((im.map DriveImage.width).getD 0) d
  let s := (s.put P.NVQ F.NVQ_PORT_STAT_IOQ n d).put P.NVQ F.NVQ_MDTS_KIB ((im.map DriveImage.mdtsKib).getD 0) d
  let s := s.put64 P.NVQ F.NVQ_NS_BLOCKS_LO F.NVQ_NS_BLOCKS_HI ((im.map DriveImage.blocks).getD 0) d
  let s := s.putB P.STO F.STO_DRIVE_STAT_PRESENT up d
  let s := s.putB P.STO F.STO_DRIVE_STAT_VWC ((im.map DriveImage.vwc).getD false) d
  s.level P.NVQ d false

/-- NVQ reads 1 while any port has I/O queues (R368). -/
def State.nvqState (s : State) : State :=
  s.setBlockState P.NVQ (b2n ((List.range 4).any (fun d => s.get P.NVQ F.NVQ_PORT_STAT_IOQ d != 0)))

/-- STORE_RECOVERY (R356, R357, R358, R362): STO reads what the drives hold, judges readiness, ends OPEN records and extents, and
frees the extents that no entry names. -/
def execStoreRecovery (t : Nat) (images : List (Option DriveImage)) (s : State) : Res :=
  let s := s.at t
  if images.length ≠ 4 then .fault .illFormed
  else if !s.powered ∨ !s.store.jobs.isEmpty then .next s
  else
    let s := s.modStore (fun q => { q with drives := images.map (fun im => { image := im, lost := false, batch := 0 }), writes := [], tabs := [] })
    let s := (s.each (List.range 4) (fun s d => s.showDrive d (images.getD d none))).judgeStore images
    let mine := (List.range 4).filterMap (fun d =>
      if s.getB P.STO F.STO_DRIVE_STAT_IN_STORE d then (images.getD d none).map (fun m => (d, m)) else none)
    let table := (readTable mine).filter (fun e => e.state ≠ 0) |>.map (fun e => if e.state = 1 then { e with state := 3 } else e)
    let named (e : Extent) : Bool := e.state == 3 || table.any (fun r => r.slot == e.slot && fieldAt r.header 0 4 == e.record)
    let all := mine.flatMap (fun m => m.2.map.map (fun e => { e with drive := m.1, used := e.fill }))
    let s := s.each (all.filter (fun e => e.state = 1 && named e)) (fun s e =>
      s.emit (.nvme e.drive none (.deallocate (extentLba e.no + e.fill) (65536 - e.fill))))
    let exts := (all.filter named).map (fun e => if e.state = 1 then { e with state := 2 } else e)
    let s := s.putB P.STO F.STO_STAT_TABLE_SINGLE false
    .next ((s.modStore (fun q => { q with table := table, exts := exts })).nvqState).storeShow

/-! ### Register writes -/

/-- STO_FREE_REC (R361): a COMPLETE or INCOMPLETE record's slot and extents are freed. -/
def execStoFreeRec (t : Nat) (value : Word) (s : State) : Res :=
  let s := s.at t
  let slot := bits value.toNat 15 0
  match s.store.table.find? (fun e => e.slot = slot) with
  | some e =>
    if e.state = 2 ∨ e.state = 3 then
      let rec_ := fieldAt e.header 0 4
      let s := s.releaseExtents (fun x => x.slot == slot && x.record == rec_)
      .next (s.modStore (fun q => { q with table := q.table.filter (fun x => x.slot ≠ slot) })).storeShow
    else .next s
  | none => .next s

/-- STO_CAT_SEL (R367). -/
def execStoCatSel (value : Word) (s : State) : Res :=
  .next (s.modStore (fun q => { q with sel := bits value.toNat 15 0 })).storeShow

/-- STO_CLR (R367). -/
def execStoClr (value : Word) (s : State) : Res :=
  .next (if bitOf value.toNat 0 then
    s.clearAll P.STO [(F.STO_WRITE_ERR_CNT, 1), (F.STO_LOST_CHUNK_CNT, 1), (F.STO_SCRUB_BAD_CNT, 1), (F.STO_FULL_CNT, 1)] else s)

/-- NVQ_RESET (R362, R368): the controllers of the named ports are reset; STO then reads the store again (STORE_RECOVERY). Ignored
while chunks of a record are being stored. -/
def execNvqReset (t : Nat) (value : Word) (s : State) : Res :=
  let s := s.at t
  if s.getB P.STO F.STO_STAT_WRITING then .next s
  else
    let ports := (List.range 4).filter (fun d => bitOf value.toNat d && s.getB P.STO F.STO_DRIVE_STAT_PRESENT d)
    let used := ports.any (fun d => s.getB P.STO F.STO_DRIVE_STAT_IN_STORE d)
    let s := s.each ports (fun s d =>
      ((s.emit (.nvme d none .controllerReset)).putB P.NVQ F.NVQ_PORT_STAT_CTRL_READY false d).put P.NVQ F.NVQ_PORT_STAT_IOQ 0 d)
    let s := if used then (s.putB P.STO F.STO_STAT_READY false).put P.STO F.STO_STAT_CAUSE 5 else s
    .next s.nvqState.storeShow

/-- NVQ_CLR (R368). -/
def execNvqClr (value : Word) (s : State) : Res :=
  .next (if bitOf value.toNat 0 then s.clearAll P.NVQ [(F.NVQ_ERR_CNT, 4), (F.NVQ_TIMEOUT_CNT, 4)] else s)

/-- Agreement checks of STO and NVQ (R367, R368). -/
def checkSTO (v : View) (g : Nat) : Nat :=
  if g ≠ 0 then 0
  else
    let c := v.f P.STO F.STO_CTL_COMMIT_US
    if c = 0 ∨ 1000 < c then E.RANGE else 0

def checkNVQ (v : View) (g : Nat) : Nat :=
  if g ≠ 0 then 0
  else
    let m := v.f P.NVQ F.NVQ_CTL_IOQ_MAX
    if m = 0 ∨ 64 < m ∨ v.f P.NVQ F.NVQ_CTL_QDEPTH < 2 ∨ v.f P.NVQ F.NVQ_TIMEOUT = 0 then E.RANGE else 0

end Sys2Proof.Machine
end

