-- ==== Sys2Proof/Machine/Host.lean ====
section
/-!
DEFINITION. Rings, commands and stitches (chapter 15): doorbells, fetch and admission, scheduling, completion, and the commands
that run here. The engines the commands drive stand in their own files.
-/
namespace Sys2Proof.Machine

/-! ### Rings (R374 to R377) -/

/-- Completion status codes (table `Completion status`). -/
abbrev ST.OK : Nat := 0x00
abbrev ST.ZERO_LEN : Nat := 0x01
abbrev ST.NO_GAIN : Nat := 0x02
abbrev ST.CHECK_FAIL : Nat := 0x03
abbrev ST.BAD_PARAM : Nat := 0x04
abbrev ST.BUSY : Nat := 0x05
abbrev ST.ABORTED : Nat := 0x06
abbrev ST.TEST_COLLIDE : Nat := 0x07
abbrev ST.STORE_FULL : Nat := 0x08
abbrev ST.NOT_FOUND : Nat := 0x09
abbrev ST.UNREACHABLE : Nat := 0x0A
abbrev ST.AUTH_FAIL : Nat := 0x0B
abbrev ST.FLUSHED : Nat := 0x0C
abbrev ST.DEADLINE : Nat := 0x0D

/-- Opcodes (table `Opcodes`). -/
abbrev OP.NOP : Nat := 0x00
abbrev OP.ABORT : Nat := 0x01
abbrev OP.MARCH : Nat := 0x10
abbrev OP.CALIBRATE : Nat := 0x11
abbrev OP.OFFLOAD : Nat := 0x12
abbrev OP.READ_RECORD : Nat := 0x13
abbrev OP.COMPRESS : Nat := 0x14
abbrev OP.DECOMPRESS : Nat := 0x15
abbrev OP.FORMAT : Nat := 0x16
abbrev OP.SCRUB : Nat := 0x17
abbrev OP.ENUMERATE : Nat := 0x18
abbrev OP.RESYNC : Nat := 0x19

/-- Opcodes that exist. -/
def opListed (o : Nat) : Bool := o == 0 || o == 1 || (decide (0x10 ≤ o) && decide (o ≤ 0x19))

def State.ringState (s : State) (n : Nat) : RingState :=
  s.host.rings.getD n { sqTail := 0, cqHead := 0, phase := true, unsignalled := 0, oldest := none }
def State.modRing (s : State) (n : Nat) (f : RingState → RingState) : State :=
  s.modHost (fun h => { h with rings := lmod h.rings n f })

def State.sqSize (s : State) (n : Nat) : Nat := 2 ^ s.use P.CMD F.CMD_RING_CFG_SQ_LOG n
def State.cqSize (s : State) (n : Nat) : Nat := 2 ^ s.use P.CMD F.CMD_RING_CFG_CQ_LOG n

/-- CMD_STAT, POOL_FULL and PAGE_STAT.STATE follow the commands in flight (R397). -/
def State.cmdShow (s : State) : State :=
  let running := (s.host.ops.filter (fun o => o.phase = .running ∧ 0x10 ≤ o.opcode)).length
  let s := (s.put P.CMD F.CMD_STAT_OPS s.host.ops.length).put P.CMD F.CMD_STAT_STITCHES running
  s.level P.CMD 1 (decide (4096 ≤ s.poolUsed))

/-- SQ_DOORBELL (R374): a new tail; one not below the ring size is ignored and RING_ERR latches. -/
def execSqDoorbell (t : Nat) (n : Fin 16) (value : Word) (s : State) : Res :=
  let s := s.at t
  let v := value.toNat
  if !s.started ∨ !bitOf v 31 then .next s
  else if s.sqSize n.val ≤ bits v 11 0 then .next (s.pulse P.CMD 0)
  else .next (s.modRing n.val (fun r => { r with sqTail := bits v 11 0 }))

/-- CQ_DOORBELL (R374, R376): completion entries up to CQ_HEAD are returned. -/
def execCqDoorbell (t : Nat) (n : Fin 16) (value : Word) (s : State) : Res :=
  let s := s.at t
  let v := value.toNat
  if !s.started ∨ !bitOf v 30 then .next s
  else if s.cqSize n.val ≤ bits v 27 16 then .next (s.pulse P.CMD 0)
  else .next (s.modRing n.val (fun r => { r with cqHead := bits v 27 16 }))

/-- Whether a ring has a command to fetch. -/
def State.ringReady (s : State) (n : Nat) : Bool :=
  s.useB P.CMD F.CMD_RING_CFG_EN n && !s.getB P.CMD F.CMD_PTR_SQ_ERR n && s.get P.CMD F.CMD_PTR_SQ_HEAD n != (s.ringState n).sqTail

/-- The ring served next (R375): rings with PRIO first, in turn in ascending order after the one served last. -/
def State.nextRing (s : State) : Option Nat :=
  let order := (List.range 16).map (fun k => (s.host.lastRing + 1 + k) % 16)
  match order.find? (fun n => s.ringReady n && s.useB P.CMD F.CMD_RING_CFG_PRIO n) with
  | some n => some n
  | none => order.find? s.ringReady

/-! ### Operands (R379 to R381) -/

/-- A field of PARAM. -/
def HostOp.par (o : HostOp) (off n : Nat) : Nat := fieldAt o.param off n

/-- Whether the field whose 0 completes a command with ZERO_LEN is 0 (R380). -/
def HostOp.zeroLen (o : HostOp) : Bool :=
  match o.opcode with
  | 0x10 | 0x12 | 0x13 | 0x14 | 0x15 => o.length == 0
  | 0x11 => o.par 0 1 % 16 == 0
  | 0x17 => o.length == 0 && !bitOf (o.par 0 1) 0
  | _ => false

/-- Whether `n` bytes from an address stay within a space (R381). -/
def State.rangeOk (s : State) (space a n : Nat) : Bool :=
  match space with
  | 0 => decide (a + n ≤ 2 ^ 64)
  | 1 => decide (a + n ≤ scratchSize)
  | 2 => decide (a + n ≤ s.deepSize)
  | _ => false

/-- Whether two ranges meet. -/
def meets (a n b m : Nat) : Bool := decide (a < b + m) && decide (b < a + n) && n != 0 && m != 0

/-- Whether a command may write `n` bytes at an address of a space (R381). -/
def State.writeOk (s : State) (space a n : Nat) : Bool :=
  s.rangeOk space a n &&
  (match space with
    | 1 => !(meets a n 0 0x2D00000 || meets a n 0x5280000 0x100000)
    | 2 => !(s.isArmed && s.useB P.DMC F.DMC_WPROT_CFG_WPROT_EN &&
        meets a n (s.useReg P.ACQM F.ACQ_DM_BASE.off * 2 ^ 20) (s.useReg P.ACQM F.ACQ_DM_SIZE.off * 2 ^ 20))
    | _ => true)

/-- Whether the operands of a command are refused before its first stitch (R156, R314, R333, R381). -/
def State.operandBad (s : State) (o : HostOp) : Bool :=
  match o.opcode with
  | 0x10 =>
    let first := o.par 0 2 % 2 ^ 11
    let destructive := o.par 3 1 == 0
    decide (1536 < first + o.length) || decide (2 < o.par 2 1) || decide (1 < o.par 3 1) ||
      (List.range o.length).any (fun i => !permits (s.lendFlag (first + i)) destructive)
  | 0x11 => decide (2 < o.par 4 1) || (o.par 4 1 == 2 && decide ((sx 32 (o.par 8 4)).natAbs < 32768))
  | 0x13 => !(o.srcSpace == 2 || o.srcSpace == 3) || o.dstSpace != 0 || decide (21 < o.par 0 1) || !s.rangeOk 0 o.dst o.length
  | 0x14 => decide (2 < o.srcSpace) || decide (2 < o.dstSpace) || !s.rangeOk o.srcSpace o.src o.length ||
      !s.writeOk o.dstSpace o.dst (o.par 4 4) || o.par 0 1 == 0 || decide (3 < o.par 0 1) ||
      (o.srcSpace == o.dstSpace && meets o.src o.length o.dst (o.par 4 4))
  | 0x15 => decide (2 < o.srcSpace) || decide (2 < o.dstSpace) || !s.rangeOk o.srcSpace o.src o.length ||
      !s.writeOk o.dstSpace o.dst (o.par 4 4)
  | 0x16 => o.par 0 4 != 0x544D5246
  | 0x17 => !bitOf (o.par 0 1) 0 && decide (65536 < o.src + o.length)
  | 0x18 => !s.getB P.GLB F.GLB_STRAP_ROOT
  | _ => false

/-! ### Fetch and admission -/

/-- Words of bytes, eight bytes each. -/
def words8 : Nat → List Byte → List Word64
  | 0, _ => []
  | n + 1, bs => w64 (fromLe (bs.take 8)) :: words8 n (bs.drop 8)

/-- A command in flight made of its 64 bytes (table `Command`). -/
def mkOp (id ring : Nat) (from_ : Option Nat) (d : List Byte) : HostOp :=
  { id := id, ring := ring, from_ := from_, tag := fieldAt d 2 2, opcode := fieldAt d 0 1, flags := fieldAt d 1 1,
    target := fieldAt d 4 1, srcSpace := fieldAt d 5 1, dstSpace := fieldAt d 6 1, deadline := fieldAt d 8 6,
    length := fieldAt d 0x10 8, src := fieldAt d 0x18 8, dst := fieldAt d 0x20 8, param := d.drop 0x28, phase := .waiting,
    result := 0, stop := none, pos := 0, done_ := 0, lost := false, coder := Coder.empty, blockSeq := 0, reset := true,
    threads := [] }

/-- Whether a command runs here: TARGET 0, or the module's own address, or it was forwarded to this module (R378). -/
def State.runsHere (s : State) (o : HostOp) : Bool := o.from_.isSome || o.target == 0 || (s.role != C.SOLO && o.target == s.casAddr)

/-- The coarse count is at or beyond a command's DEADLINE (R385): as 48-bit counts, read as signed. -/
def State.pastDeadline (s : State) (o : HostOp) : Bool :=
  bitOf o.flags 0 && decide ((coarseOf s.now + 2 ^ 48 - o.deadline % 2 ^ 48) % 2 ^ 48 < 2 ^ 47)

/-- The status a command gets at admission, if it ends there (R378 to R381, R385). -/
def State.atAdmission (s : State) (o : HostOp) (reserved : Bool) : Option Nat :=
  if !opListed o.opcode ∨ reserved then some ST.BAD_PARAM
  else if !s.runsHere o then
    (if s.role = C.SOLO ∨ !bitOf s.reachMask (o.target % 64) ∨ 64 ≤ o.target then some ST.UNREACHABLE else none)
  else if o.zeroLen then some ST.ZERO_LEN
  else if s.pastDeadline o then some ST.DEADLINE
  else if s.operandBad o then some ST.BAD_PARAM
  else none

/-- Admit a command (R375, R378): it waits, ends at once, or goes to the module at TARGET. -/
def State.takeIn (s : State) (ring : Nat) (from_ : Option Nat) (d : List Byte) : State :=
  let o := mkOp s.host.nextId ring from_ d
  let s := s.modHost (fun h => { h with nextId := h.nextId + 1 })
  let add (o : HostOp) (s : State) : State := (s.modHost (fun h => { h with ops := h.ops ++ [o] })).cmdShow
  match s.atAdmission o (fieldAt d 7 1 != 0) with
  | some st => add { o with phase := .ended st } s
  | none =>
    if s.runsHere o then add o s
    else
      add { o with phase := .running } (s.sendCmd o.target ring o.tag false (words8 8 d))

/-- COMMAND_FETCH (R23, R374, R375, R377): the next ring's command at its head, if the pool has room; none is a failed transfer. -/
def execCommandFetch (t : Nat) (data : Option (List Byte)) (s : State) : Res :=
  if data.any (fun d => d.length != 64) then .fault .illFormed
  else
    let s := s.at t
    if !s.started ∨ 4096 ≤ s.poolUsed then .next s.cmdShow
    else match s.nextRing with
      | none => .next s
      | some n =>
        let s := s.modHost (fun h => { h with lastRing := n })
        match data with
        | none => .next (((s.putB P.CMD F.CMD_PTR_SQ_ERR true n).sat P.HIF F.HIF_DMA_ERR_CNT).pulse P.HIF 1)
        | some d =>
          let s := s.put P.CMD F.CMD_PTR_SQ_HEAD ((s.get P.CMD F.CMD_PTR_SQ_HEAD n + 1) % s.sqSize n) n
          .next (s.takeIn n none d)

/-! ### Scheduling (R375, R383) -/

/-- Whether two commands came by one ring. -/
def HostOp.sameRing (a b : HostOp) : Bool := a.ring == b.ring && a.from_ == b.from_

def HostOp.ended (o : HostOp) : Bool := match o.phase with | .ended _ => true | _ => false

/-- Whether a waiting command may start: ring order, and FENCE (R375). -/
def State.startable (s : State) (o : HostOp) : Bool :=
  o.phase == .waiting &&
  s.host.ops.all (fun p => !(p.sameRing o && decide (p.id < o.id)) || (p.phase != .waiting && (!bitOf o.flags 1 || p.ended)))

/-- Stitched commands running here. -/
def State.runningOps (s : State) : List HostOp := s.host.ops.filter (fun o => o.phase = .running ∧ 0x10 ≤ o.opcode ∧ s.runsHere o)

/-- Commands that wait start while fewer than RUN_MAX run, rings with PRIO first, then in order of arrival. `n` bounds the number. -/
def State.promote : Nat → State → State
  | 0, s => s
  | n + 1, s =>
    if s.use P.CMD F.CMD_CTL_RUN_MAX ≤ s.runningOps.length then s
    else
      let can := s.host.ops.filter (fun o => 0x10 ≤ o.opcode ∧ s.startable o)
      let first := can.find? (fun o => o.from_.isNone && s.useB P.CMD F.CMD_RING_CFG_PRIO o.ring)
      match (match first with | some o => some o | none => can.head?) with
      | none => s
      | some o => State.promote n (s.modOp o.id (fun o => { o with phase := .running }))

/-- Whether a NOP or ABORT waits to be served. -/
def State.shortWaits (s : State) : Bool := s.host.ops.any (fun o => decide (o.opcode < 0x10) && s.startable o)

/-- The command whose stitch comes next, in round-robin order. -/
def State.nextStitch (s : State) : Option Nat :=
  let ops := s.runningOps
  match ops.find? (fun o => decide (s.host.lastOp < o.id)) with
  | some o => some o.id
  | none => ops.head?.map HostOp.id

/-- The command a reference names, not yet ended. -/
def State.opNamed (s : State) (r : OpRef) : Option HostOp :=
  s.host.ops.find? (fun o => o.from_ == r.from_.map Fin.val && o.ring == r.ring.val && o.tag == r.tag.toNat && !o.ended)

/-- The stitch of a named command: the one in progress, or the next one, which begins now (R383). -/
def State.claim (s : State) (t opcode : Nat) (r : OpRef) : Option (State × HostOp) :=
  let s := State.promote 64 s
  match s.opNamed r with
  | none => none
  | some o =>
    if o.opcode ≠ opcode ∨ o.phase ≠ .running ∨ !s.runsHere o then none
    else match s.host.stitch with
      | some (id, _) => if id = o.id then some (s, o) else none
      | none =>
        if s.shortWaits ∨ s.nextStitch ≠ some o.id then none
        else some ((s.modHost (fun h => { h with stitch := some (o.id, t), lastOp := o.id })).wrap P.CPX F.CPX_STITCH_CNT, o)

/-! ### Ends of commands (R383 to R386) -/

/-- DCP_STAT, DCP_LANE_STAT and DCP_POISON follow the commands that decode (R317). -/
def State.dcpShow (s : State) : State :=
  let ops := (s.runningOps.filter (fun o => o.opcode = OP.DECOMPRESS ∨ (o.opcode = OP.READ_RECORD ∧ bitOf (o.par 1 1) 0) ∨ o.opcode = OP.SCRUB)).take 4
  let s := s.put P.DCP F.DCP_STAT (2 ^ ops.length - 1)
  let s := s.each (List.range 4) (fun s d =>
    let o := ops[d]?
    let s := s.putB P.DCP F.DCP_LANE_STAT_BUSY o.isSome d
    let th := (o.map HostOp.threads).bind List.head?
    (s.put P.DCP F.DCP_LANE_STAT_STREAM ((th.map DecThread.stream).getD 0) d).put P.DCP F.DCP_LANE_STAT_THREAD ((th.map DecThread.thread).getD 0) d)
  let m := s.runningOps.foldl (fun m o => o.threads.foldl (fun m q => if q.poisoned then putBit m q.stream true else m) m) 0
  let s := (s.put P.DCP F.DCP_POISON m).setBlockState P.DCP (b2n (!ops.isEmpty))
  s.level P.DCP 2 (m != 0)

/-- Leave the unit of a command that ends consistent (R384): a borrowed tile is restored or filled, a quad keeps its old coefficients,
an OFFLOAD leaves its record INCOMPLETE. -/
def State.cleanUp (s : State) (o : HostOp) : State :=
  match o.opcode with
  | 0x10 =>
    let s := match s.mar.held with
      | some b => if b.op ≠ some o.id then s
          else (if b.destructive then s.fillTile b.tile b.fill else s).modMar (fun m => { m with held := none })
      | none => s
    let mine : Bool := match s.mar.retry with | some (_, some id, _) => id == o.id | _ => false
    (if mine then s.modMar (fun m => { m with retry := none }) else s).marShow
  | 0x11 =>
    let quads := s.get P.ADC F.ADC_CAL_STAT_QUAD
    let mine := (List.range 4).filter (fun q => bitOf (o.par 0 1) q && bitOf quads q)
    let s := mine.foldl (fun s q => s.put P.ADC F.ADC_CAL_STAT_QUAD (putBit (s.get P.ADC F.ADC_CAL_STAT_QUAD) q false)) s
    (s.putB P.ADC F.ADC_CAL_STAT_BUSY (s.get P.ADC F.ADC_CAL_STAT_QUAD != 0)).adcShow
  | 0x12 =>
    let sids := (List.range 22).filter (fun i => (s.stream i).pathOp = some o.id)
    let s := s.each sids (fun s sid =>
      let s := s.each (s.threadsOf sid) (fun s i => s.modThread i (fun _ => Lane.empty))
      s.modStream sid (fun q => { q with pathOp := none }))
    let s := s.modStore (fun q => { q with writes := q.writes.filter (fun w => w.op ≠ some o.id) })
    let s := match s.jobOf (some o.id) with
      | some j =>
        let s := s.modStore (fun q => { q with
          jobs := q.jobs.filter (fun j => j.op ≠ some o.id),
          exts := q.exts.map (fun (e : Extent) => if e.slot = j.slot ∧ e.record = j.record ∧ e.state = 1 then { e with state := 2 } else e) })
        if j.opened ∧ !j.closing then s.tableWrite (s.jobEntry j 3 (invalidHeader (j.header.getD []))) else s
      | none => s
    (s.showLanes []).storeShow
  | 0x14 =>
    let s := (List.range 16).foldl (fun s i => if (s.thread i).host = some o.id then s.modThread i (fun _ => Lane.empty) else s) s
    s.showLanes []
  | 0x16 => (s.putB P.STO F.STO_STAT_FORMAT_BUSY false).judgeStore (s.store.drives.map Drive.image) |>.storeShow
  | 0x17 => s.putB P.STO F.STO_STAT_SCRUB_BUSY (s.runningOps.any (fun p => p.opcode == OP.SCRUB && p.id != o.id))
  | _ => s

/-- A command ends with a status; its stitch is over. -/
def State.endOp (s : State) (id status : Nat) : State :=
  match s.opById id with
  | none => s
  | some o =>
    let s := if o.phase = .running then s.cleanUp o else s
    let s := s.modOp id (fun o => { o with phase := .ended status })
    let s := match s.host.stitch with
      | some (i, _) => if i = id then s.modHost (fun h => { h with stitch := none }) else s
      | none => s
    ((State.promote 64 s).dcpShow).cmdShow

/-- STITCH_END (R383, R385, R386): the stitch in progress is over; a command that an ABORT, a DEADLINE or its unit has stopped
ends here, ABORTED before DEADLINE. -/
def execStitchEnd (t : Nat) (s : State) : Res :=
  let s := s.at t
  match s.host.stitch with
  | none => .next (State.promote 64 s).cmdShow
  | some (id, t0) =>
    let us := Nat.min 0xFFFF ((t - t0) / 16000)
    let s := s.put P.CPX F.CPX_STITCH_MAX_US (Nat.max us (s.get P.CPX F.CPX_STITCH_MAX_US))
    let s := s.modHost (fun h => { h with stitch := none })
    match s.opById id with
    | none => .next s
    | some o => match o.stop with
      | some st => .next (s.endOp id st)
      | none => .next (if s.pastDeadline o then s.endOp id ST.DEADLINE else (State.promote 64 s).cmdShow)

/-- End a command on request (R385, R386): at once when it has not started or none of its stitches is in progress, else at the end of
the stitch. ABORTED prevails over DEADLINE. -/
def State.stopOp (s : State) (o : HostOp) (status : Nat) : State :=
  let inStitch : Bool := match s.host.stitch with | some (i, _) => i == o.id | none => false
  if inStitch then s.modOp o.id (fun o => { o with stop := if status = ST.ABORTED then some status else some (o.stop.getD status) })
  else s.endOp o.id status

/-- DEADLINE (R385): the coarse counter has reached a command's DEADLINE. -/
def execDeadline (t : Nat) (r : OpRef) (s : State) : Res :=
  let s := s.at t
  match s.opNamed r with
  | none => .next s
  | some o => .next (if s.pastDeadline o ∧ s.runsHere o then s.stopOp o ST.DEADLINE else s)

/-- Whether a waiting NOP or ABORT is served now: between two stitches. -/
def State.shortTurn (s : State) (opcode : Nat) (r : OpRef) : Option HostOp :=
  if s.host.stitch.isSome then none
  else match s.opNamed r with
    | some o => if o.opcode = opcode ∧ s.runsHere o ∧ s.startable o then some o else none
    | none => none

/-- NOP (R380): completes with OK. -/
def execNop (t : Nat) (r : OpRef) (s : State) : Res :=
  let s := s.at t
  match s.shortTurn OP.NOP r with
  | some o => .next (s.endOp o.id ST.OK)
  | none => .next s

/-- ABORT (R386): the command it names by ring and TAG ends with ABORTED; NOT_FOUND when it is not in flight. -/
def execAbort (t : Nat) (r : OpRef) (s : State) : Res :=
  let s := s.at t
  match s.shortTurn OP.ABORT r with
  | none => .next s
  | some o =>
    match s.host.ops.find? (fun p => p.from_ == o.from_ && p.ring == o.par 0 1 % 16 && p.tag == o.par 2 2 && !p.ended && p.id != o.id) with
    | some p => .next ((s.stopOp p ST.ABORTED).endOp o.id ST.OK)
    | none => .next (s.endOp o.id ST.NOT_FOUND)

/-! ### Completions (R376, R377, R388) -/

/-- Send a CQ's message (R388). -/
def State.cqMessage (s : State) (n : Nat) : State :=
  (s.modRing n (fun r => { r with unsignalled := 0, oldest := none })).msixSend (s.use P.CMD F.CMD_RING_CFG_VEC n)

/-- The two words of a completion (table `Completion`). -/
def completionWords (o : HostOp) (status : Nat) (phase : Bool) (head : Nat) : List Word64 :=
  let remote := o.target != 0
  [w64 (o.tag + status * 2 ^ 16 + (b2n phase + 2 * b2n remote) * 2 ^ 24 + head * 2 ^ 32), w64 o.result]

/-- COMMAND_COMPLETION (R376, R377): the completion of an ended command is written at its CQ's tail once the ring has room; `failed`
says that the write fails. A command forwarded to this module completes to the module it came from (R424). -/
def execCommandCompletion (t : Nat) (r : OpRef) (failed : Bool) (s : State) : Res :=
  let s := s.at t
  match s.host.ops.find? (fun o => o.from_ == r.from_.map Fin.val && o.ring == r.ring.val && o.tag == r.tag.toNat && o.ended) with
  | none => .next s
  | some o =>
    let st := match o.phase with | .ended x => x | _ => 0
    let drop (s : State) : State :=
      ((s.modHost (fun h => { h with ops := h.ops.filter (fun p => p.id ≠ o.id) })).wrap P.CPX F.CPX_CMD_DONE_CNT).cmdShow
    match o.from_ with
    | some m => .next (drop (s.sendCmd m o.ring o.tag true (completionWords o st false 0)))
    | none =>
      let n := o.ring
      if s.getB P.CMD F.CMD_PTR_CQ_ERR n then .next (drop s)
      else
        let tail := s.get P.CMD F.CMD_PTR_CQ_TAIL n
        let next := (tail + 1) % s.cqSize n
        if next = (s.ringState n).cqHead then .next s
        else if failed then .next (drop (s.putB P.CMD F.CMD_PTR_CQ_ERR true n))
        else
          let ws := completionWords o st (s.ringState n).phase (s.get P.CMD F.CMD_PTR_SQ_HEAD n)
          let s := (s.emit (.cqEntry n tail ws)).put P.CMD F.CMD_PTR_CQ_TAIL next n
          let s := s.modRing n (fun r => { r with
            phase := if next = 0 then !r.phase else r.phase, unsignalled := r.unsignalled + 1, oldest := some (r.oldest.getD t) })
          let cnt := s.use P.CMD F.CMD_RING_CFG_COAL_CNT n
          let s := if cnt = 0 ∨ cnt ≤ (s.ringState n).unsignalled then s.cqMessage n else s
          .next (drop s)

/-- COAL_TIMER (R388): COAL_US has passed since the oldest completion not yet signalled. -/
def execCoalTimer (t : Nat) (n : Fin 16) (s : State) : Res :=
  let s := s.at t
  let us := s.use P.CMD F.CMD_RING_CFG_COAL_US n.val
  match (s.ringState n.val).oldest with
  | some x => .next (if us ≠ 0 ∧ x + usSlots us ≤ t then s.cqMessage n.val else s)
  | none => .next s

/-! ### MARCH and CALIBRATE -/

/-- MARCH (R333): the command borrows its next tile, or ends when every tile is tested. -/
def execMarch (t : Nat) (r : OpRef) (s : State) : Res :=
  let s := s.at t
  match s.claim t OP.MARCH r with
  | none => .next s
  | some (s, o) =>
    let first := o.par 0 2 % 2 ^ 11
    let destructive := o.par 3 1 == 0
    let b : Borrow :=
      { tile := first + o.pos, destructive := destructive, alg := o.par 2 1, fill := o.par 8 8, op := some o.id, release := false,
        failed := false }
    let others := s.runningOps.any (fun p => p.opcode == OP.MARCH && decide (p.id < o.id))
    match o.stop with
    | some st => .next (s.endOp o.id st)
    | none =>
      if s.mar.held.isSome ∨ others ∨ !s.enabled P.MAR then .next s
      else if o.length ≤ o.pos then .next ((s.endOp o.id (if o.lost then ST.CHECK_FAIL else ST.OK)).marShow)
      else if !permits (s.lendFlag b.tile) destructive then .next (s.endOp o.id ST.ABORTED)
      else match s.mar.retry with
        | some (_, some _, some _) => .next s
        | some (_, some _, none) => .next ((s.modMar (fun m => { m with retry := none })).borrow b)
        | _ => .next (s.borrow b)

/-- CALIBRATE (R156): the next quad's calibration begins, once no injected request is pending in it, or ends with the means of its
converters' 1,024 conversions in 1/1,024 code. -/
def execCalibrate (t : Nat) (r : OpRef) (means : List (Int × Int)) (s : State) : Res :=
  let s := s.at t
  match s.claim t OP.CALIBRATE r with
  | none => .next s
  | some (s, o) =>
    match o.stop with
    | some st => .next (s.endOp o.id st)
    | none =>
      let quads := (List.range 4).filter (bitOf (o.par 0 1))
      let convs := o.par 2 2
      match quads[o.pos]? with
      | none =>
        let fail := s.get P.ADC F.ADC_CAL_STAT_FAIL
        let mine := quads.any (fun q => (List.range 4).any (fun k => bitOf convs (4 * q + k) && bitOf fail (4 * q + k)))
        let s := s.modOp o.id (fun o => { o with result := fail })
        let s := s.pulse P.ADC (if mine then 7 else 6)
        .next (s.endOp o.id (if mine then ST.CHECK_FAIL else ST.OK))
      | some q =>
        if !o.lost then
          if bitOf (s.get P.ADC F.ADC_CAL_STAT_QUAD) q then .next s
          else
            let s := if o.pos = 0 then s.put P.ADC F.ADC_CAL_STAT_FAIL 0 else s
            let s' := s.calBegin q
            .next (if bitOf (s'.get P.ADC F.ADC_CAL_STAT_QUAD) q then s'.modOp o.id (fun o => { o with lost := true }) else s)
        else
          let s := s.calFinish q convs (o.par 4 1) (sx 32 (o.par 8 4)) means
          .next (s.modOp o.id (fun o => { o with lost := false, pos := o.pos + 1 }))

/-! ### Data of a command -/

/-- Bytes a command reads: from its memory, or as the host hands them. Answers none when a tile under a destructive test refuses it
(R336). -/
def State.opRead (s : State) (space a n : Nat) (host : List Byte) : State × Option (List Byte) :=
  match space with
  | 1 =>
    let (s, refused) := s.meetTest 11 a
    (s, if refused then none else some (s.scrRead a n))
  | 2 => (s, some (s.dmRead a n))
  | _ => (s, some (host.take n))

/-- Write a command's output. -/
def State.opWrite (s : State) (space a : Nat) (bs : List Byte) : State × Bool :=
  match space with
  | 1 =>
    let (s, refused) := s.meetTest 11 a
    if refused then (s, false) else (s.scrWrite a bs, true)
  | 2 => (s.dmWrite a bs, true)
  | _ => (s.emit (.hostWrite a bs), true)

/-- Undefined contents of a destination (R314): free values. -/
def State.freeRange (s : State) (space a : Nat) : Nat → State
  | 0 => s
  | n + 1 =>
    let (w, s) := (State.freeRange s space a n).takeFree
    (s.opWrite space (a + 8 * n) (leBytes 8 w.toNat)).1

/-! ### COMPRESS_BUF and DECOMPRESS_BUF -/

/-- Length of a stamp merge window of a stream, in slots (R125). -/
def State.mergeWindow (s : State) (sid : Nat) : Nat := 8 * 2 ^ s.use (P.STP ((sid - 8) % 8)) F.STP_CTL_WIN_EXP

/-- Take a free lane for a host command (R314). -/
def State.takeLane (s : State) (id : Nat) : Option State :=
  if (List.range 16).any (fun i => (s.thread i).host == some id) then some s
  else match s.freeLanes.head? with
    | none => none
    | some i => some ((s.modThread i (fun _ => { Lane.empty with host := some id })).showLanes [])

/-- COMPRESS_BUF (R314): the next chunk of the source is compressed, or copied when it is compressed already. `host` gives the bytes
of a source in host memory; none is a failed transfer. -/
def execCompressBuf (t : Nat) (r : OpRef) (host : Option (List Byte)) (s : State) : Res :=
  let s := s.at t
  match s.claim t OP.COMPRESS r with
  | none => .next s
  | some (s, o) =>
    match o.stop, s.takeLane o.id with
    | some st, _ => .next (s.endOp o.id st)
    | none, none => .next s
    | none, some s =>
      if !s.enabled P.CMP then .next s
      else if o.length ≤ o.pos then
        if o.length ≤ o.done_ then .next ((State.freeRange s o.dstSpace o.dst (o.par 4 4 / 8)).endOp o.id ST.NO_GAIN)
        else .next ((s.modOp o.id (fun o => { o with result := o.done_ })).endOp o.id ST.OK)
      else if o.srcSpace = 0 ∧ host.isNone then .next (s.endOp o.id ST.ABORTED)
      else
        match s.opRead o.srcSpace (o.src + o.pos) (o.length - o.pos) (host.getD []) with
        | (s, none) => .next (s.modOp o.id (fun o => { o with stop := some ST.TEST_COLLIDE }))
        | (s, some bs) =>
          match readChunk bs with
          | none => .next (s.endOp o.id ST.BAD_PARAM)
          | some k =>
            let n := k.raw.length
            let c := k.chunk
            let plain : Option Chunk := if c.compressed then none else k.fill (s.mergeWindow c.stream) k.first c.stored
            let cls := if o.par 0 1 = 3 then (if c.stream < 8 then CL.D else CL.P) else o.par 0 1
            let out : List Byte × Coder × Nat × Bool := match plain with
              | none => (k.raw, o.coder, o.blockSeq, o.reset)
              | some p =>
                let h : BlockHead :=
                  { cls := cls, seq := o.blockSeq, threads := 1, thread := 0, reset := cls == CL.P || o.reset, coder := o.coder }
                let (block, coder) := encodeBlock h p.kind p.items p.tail
                if c.stored.length ≤ block.length then
                  (({ p with flags := putBits (putBit p.flags 1 true) 7 6 cls, stored := c.stored, dataCrc := none } : Chunk).bytes,
                    o.coder, o.blockSeq, true)
                else
                  (({ p with flags := putBits (putBit p.flags 0 true) 7 6 cls, stored := block, dataCrc := none } : Chunk).bytes,
                    coder, o.blockSeq + 1, false)
            if o.par 4 4 < o.done_ + out.1.length then .next (s.endOp o.id ST.BAD_PARAM)
            else
              let raw := plain.isSome && out.2.2.1 == o.blockSeq
              let s := if raw then (s.sat P.CMP F.CMP_NOGAIN_CNT).pulse P.CMP 1 else s
              let s := if plain.isSome ∧ cls = CL.D ∧ o.reset then s.sat P.CMP F.CMP_RESET_CNT else s
              let (s, ok) := s.opWrite o.dstSpace (o.dst + o.done_) out.1
              if !ok then .next (s.modOp o.id (fun o => { o with stop := some ST.TEST_COLLIDE }))
              else
                let o' := { o with
                  pos := o.pos + n, done_ := o.done_ + out.1.length, result := o.done_ + out.1.length, coder := out.2.1,
                  blockSeq := out.2.2.1, reset := out.2.2.2 }
                .next (s.modOp o.id (fun _ => o'))

/-- A chunk fails a check of R312. -/
def State.dcpFail (s : State) (cause sid thread seq : Nat) : State :=
  let s := (s.setReg P.DCP F.DCP_ERR_LAST.off (cause * 2 ^ 28 + sid % 32 * 2 ^ 16 + thread)).put P.DCP F.DCP_ERR_SEQ seq
  if cause = DC.DATA_CRC ∨ cause = DC.CHECK then (s.sat P.DCP F.DCP_CHECK_FAIL_CNT).pulse P.DCP 0
  else if cause = DC.SEQ_GAP then s.sat P.DCP F.DCP_SEQ_GAP_CNT
  else if cause = DC.POISONED then s.sat P.DCP F.DCP_POISON_CNT
  else (s.sat P.DCP F.DCP_FORMAT_ERR_CNT).pulse P.DCP 1

/-- A thread's decoding state in an operation. -/
def decThread (ts : List DecThread) (sid th : Nat) : DecThread :=
  (ts.find? (fun q => q.stream = sid ∧ q.thread = th)).getD
    { stream := sid, thread := th, coder := Coder.empty, seq := none, poisoned := false }

/-- Keep a thread's state. -/
def keepThread (ts : List DecThread) (q : DecThread) : List DecThread :=
  q :: ts.filter (fun x => !(x.stream = q.stream ∧ x.thread = q.thread))

/-- Check and decode one chunk (R312, R313): the chunk decoded, or none when it is lost, and the threads after it. -/
def State.decodeChunk (s : State) (ts : List DecThread) (bs : List Byte) : State × Option (List Byte) × List DecThread :=
  match readChunk bs with
  | none => (s.dcpFail DC.POCKET (fieldAt bs 5 1) 0 (fieldAt bs 0x10 4), none, ts)
  | some k =>
    let c := k.chunk
    if !k.dataGood then (s.dcpFail DC.DATA_CRC c.stream 0 c.seq, none, ts)
    else if !c.compressed then (s, some k.raw, ts)
    else if !blockHeadGood c then (s.dcpFail DC.HEADER c.stream (blockThread c.stored) c.seq, none, ts)
    else
      let th := blockThread c.stored
      let q := decThread ts c.stream th
      let reset := blockReset c.stored
      let isGap : Bool := match q.seq with | some x => (x + 1) % 2 ^ 32 != blockSeqOf c.stored | none => !reset
      let s := if isGap then s.dcpFail DC.SEQ_GAP c.stream th c.seq else s
      let q := { q with seq := some (blockSeqOf c.stored), poisoned := q.poisoned || (isGap && !reset && c.cls == CL.D) }
      if q.poisoned ∧ !reset then
        ((if isGap then s else s.dcpFail DC.POISONED c.stream th c.seq), none, keepThread ts q)
      else match decodeBlock k (s.mergeWindow c.stream) k.first q.coder with
        | .error cause =>
          (s.dcpFail cause c.stream th c.seq, none, keepThread ts { q with poisoned := c.cls == CL.D })
        | .ok (p, coder) =>
          let s := s.wrap P.DCP F.DCP_BLOCK_CNT
          let s := if q.poisoned then s.sat P.DCP F.DCP_RESYNC_CNT else s
          (s, some p.bytes, keepThread ts { q with coder := coder, poisoned := false })

/-- Decode one chunk for an operation: what it delivers under ON_FAIL, and whether the chunk was lost (R313). -/
def State.deliverTo (s : State) (o : HostOp) (bs : List Byte) : State × List Byte × HostOp :=
  let (s, out, ts) := s.decodeChunk o.threads bs
  let bytes := match out with
    | some b => b
    | none => if s.useB P.DCP F.DCP_CTL_ON_FAIL then bs else []
  let s := s.wrap64 P.DCP F.DCP_IN_BYTES_LO F.DCP_IN_BYTES_HI bs.length
  let s := s.wrap64 P.DCP F.DCP_OUT_BYTES_LO F.DCP_OUT_BYTES_HI bytes.length
  (s, bytes, { o with threads := ts, lost := o.lost || out.isNone })

/-- Whether a decompression lane serves a command (R383): four lanes, in order of admission. -/
def State.hasDcp (s : State) (o : HostOp) : Bool :=
  s.enabled P.DCP &&
  ((s.runningOps.filter (fun p => p.opcode = OP.DECOMPRESS ∨ (p.opcode = OP.READ_RECORD ∧ bitOf (p.par 1 1) 0) ∨ p.opcode = OP.SCRUB)).take 4).any
    (fun p => p.id == o.id)

/-- DECOMPRESS_BUF (R315): the next chunk of the source is decoded. -/
def execDecompressBuf (t : Nat) (r : OpRef) (host : Option (List Byte)) (s : State) : Res :=
  let s := s.at t
  match s.claim t OP.DECOMPRESS r with
  | none => .next s
  | some (s, o) =>
    match o.stop with
    | some st => .next (s.endOp o.id st)
    | none =>
      if !s.hasDcp o then .next s
      else if o.length ≤ o.pos then .next (s.endOp o.id (if o.lost then ST.CHECK_FAIL else ST.OK))
      else if o.srcSpace = 0 ∧ host.isNone then .next (s.endOp o.id ST.ABORTED)
      else match s.opRead o.srcSpace (o.src + o.pos) (o.length - o.pos) (host.getD []) with
        | (s, none) => .next (s.modOp o.id (fun o => { o with stop := some ST.TEST_COLLIDE }))
        | (s, some bs) =>
          let n := if pocketGood (bs.take 8) ∧ 64 ≤ pocketLength bs then Nat.min (pocketLength bs) bs.length else bs.length
          let (s, out, o') := s.deliverTo o (bs.take n)
          if o.par 4 4 < o.done_ + out.length then .next (s.endOp o.id ST.BAD_PARAM)
          else
            let (s, ok) := if out.isEmpty then (s, true) else s.opWrite o.dstSpace (o.dst + o.done_) out
            if !ok then .next (s.modOp o.id (fun o => { o with stop := some ST.TEST_COLLIDE }))
            else
              let o'' := { o' with pos := o.pos + n, done_ := o.done_ + out.length, result := o.done_ + out.length }
              .next (s.modOp o.id (fun _ => o'')).dcpShow

/-! ### OFFLOAD, READ_RECORD, STORE_FORMAT, STORE_SCRUB -/

/-- Whether a header in deep memory is VALID (bit 31 of its FLAGS, R259). -/
def headerValid (h : List Byte) : Bool := bitOf (headField h 0xC 4) 31

/-- OFFLOAD (R279, R366): it takes the paths of its streams and begins; from then on the reader, the lanes and STO carry the record,
and its table entry ends it. -/
def execOffload (t : Nat) (r : OpRef) (s : State) : Res :=
  let s := s.at t
  match s.claim t OP.OFFLOAD r with
  | none => .next s
  | some (s, o) =>
    match o.stop with
    | some st => .next (s.endOp o.id st)
    | none =>
      if o.pos = 0 then
        let h := s.dmRead (s.headerAt o.src) 256
        let mask := if o.par 0 4 % 2 ^ 22 = 0 then headField h 0x64 4 else o.par 0 4 % 2 ^ 22 &&& headField h 0x64 4
        let sids := (List.range 22).filter (bitOf mask)
        let taken := sids.any (fun sid => (s.stream sid).pathOp.isSome ||
          (s.isArmed && bitOf (s.useReg P.ACQ F.ACQ_STREAM_EN.off) sid &&
            ((decide (8 ≤ sid) && !s.splitBanks sid) || s.acq.readerFrom.isSome)))
        if !headerValid h then .next (s.endOp o.id ST.NOT_FOUND)
        else if taken then .next (s.endOp o.id ST.BUSY)
        else
          let finals := sids.foldl (fun m sid => if (s.recordChunks sid h).any (fun e => bitOf e.chunk.flags 2) then m + 2 ^ sid else m) 0
          let j : StoJob :=
            { op := some o.id, record := headField h 0 4, segment := headField h 4 4, slot := s.freeSlot, allot := o.length * 256,
              charge := 0, finals := 0, streams := finals, opened := false, closing := false, header := some h, full := false,
              bytes := 0, broken := false, last := [] }
          let s := s.modStore (fun q => { q with jobs := q.jobs ++ [j] })
          let s := (if s.isArmed then s else s.each (List.range 16) (fun s i =>
            if ((s.thread i).stream.map (fun sid => (s.stream sid).pathOp.isNone && s.acq.readerFrom.isNone)).getD false
            then s.modThread i (fun _ => Lane.empty) else s))
          let s := (s.dealLanes sids).each sids (fun s sid => s.modStream sid (fun q => { q with pathOp := some o.id }))
          .next ((s.modOp o.id (fun o => { o with pos := 1, result := j.slot })).storeShow)
      else match s.jobOf (some o.id) with
        | some j => .next (if j.bytes = 0 ∧ s.pathDrained (some o.id) then s.endOp o.id ST.OK else s.settleJobs)
        | none => .next s

/-- READ_RECORD (R315, R381): the next whole chunk of the stream goes to the host buffer. `store` gives the next chunk's bytes as the
drives return them, none at the stream's end; it is not looked at for a record in deep memory. -/
def execReadRecord (t : Nat) (r : OpRef) (store : Option (List Byte)) (s : State) : Res :=
  let s := s.at t
  match s.claim t OP.READ_RECORD r with
  | none => .next s
  | some (s, o) =>
    match o.stop with
    | some st => .next (s.endOp o.id st)
    | none =>
      let sid := o.par 0 1
      let decomp := bitOf (o.par 1 1) 0
      let o := if o.blockSeq = 0 then { o with pos := o.par 4 4, blockSeq := 1 } else o
      let h := s.dmRead (s.headerAt o.src) 256
      let entry := s.store.table.find? (fun e => e.slot = o.src)
      let missing := if o.srcSpace = 2 then !headerValid h else entry.isNone
      let finish (s : State) (seq : Nat) : State :=
        let s := s.modOp o.id (fun p => { p with result := o.done_ + seq * 2 ^ 32 })
        s.endOp o.id (if o.lost then ST.CHECK_FAIL else ST.OK)
      let chunk : Option (List Byte × Nat) :=
        if o.srcSpace = 2 then ((s.recordChunks sid h).find? (fun e => decide (o.pos ≤ e.chunk.seq))).map (fun e =>
          (s.dmRead (s.ringBase sid e.chunk.segment + e.pos) e.chunk.length, e.chunk.seq))
        else store.map (fun b => (b, fieldAt b 0x10 4))
      if missing then .next (s.endOp o.id ST.NOT_FOUND)
      else if decomp ∧ !s.hasDcp o then .next s
      else match chunk with
        | none => .next (finish s 0xFFFFFFFF)
        | some (bs, seq) =>
          let (s, out, o') := if decomp then s.deliverTo o bs else (s, bs, o)
          if o.length < o.done_ + out.length then
            .next (if o.done_ = 0 then s.endOp o.id ST.BAD_PARAM else finish s seq)
          else
            let s := if out.isEmpty then s else s.emit (.hostWrite (o.dst + o.done_) out)
            let o'' := { o' with pos := seq + 1, done_ := o.done_ + out.length, result := o.done_ + out.length + (seq + 1) * 2 ^ 32 }
            .next (s.modOp o.id (fun _ => o'')).dcpShow

/-- STORE_FORMAT (R365): one drive a step; `storeId` is the random STORE_ID. -/
def execStoreFormat (t : Nat) (r : OpRef) (storeId : Word) (s : State) : Res :=
  let s := s.at t
  match s.claim t OP.FORMAT r with
  | none => .next s
  | some (s, o) =>
    match o.stop with
    | some st => .next (s.endOp o.id st)
    | none =>
      let busy := (s.isArmed && (s.acqModeNow == 2 || s.acqModeNow == 3)) ||
        s.runningOps.any (fun p => p.id != o.id && (p.opcode == OP.OFFLOAD || p.opcode == OP.READ_RECORD || p.opcode == OP.SCRUB))
      let good (d : Nat) : Bool := match (s.drive d).image with | some m => m.good | none => false
      if o.pos = 0 ∧ busy then .next (s.endOp o.id ST.BUSY)
      else
        let ports := (List.range 4).foldl (fun m d => if good d then m + 2 ^ d else m) 0
        let s := if o.pos ≠ 0 then s
          else
            let gen := s.store.drives.foldl (fun m d => match d.image.bind DriveImage.super with | some b => Nat.max m b.gen | none => m) 0
            let s := s.modOp o.id (fun p => { p with done_ := gen + 1, blockSeq := storeId.toNat })
            let s := s.modStore (fun q => { q with table := [], exts := [], writes := [], jobs := [], tabs := [] })
            ((s.putB P.STO F.STO_STAT_FORMAT_BUSY true).putB P.STO F.STO_STAT_READY false).storeShow
        let gen := ((s.opById o.id).map HostOp.done_).getD 0
        let id := ((s.opById o.id).map HostOp.blockSeq).getD 0
        if 4 ≤ o.pos then
          let s := s.putB P.STO F.STO_STAT_TABLE_SINGLE false
          .next (s.endOp o.id ST.OK)
        else
          let d := o.pos
          let s := s.modOp o.id (fun p => { p with pos := d + 1 })
          if !good d then .next s
          else
            let b : SuperBlock :=
              { storeId := id, gen := gen, ports := ports, port := d, extents := s.extentsOf d }
            let s := s.modDrive d (fun q => { q with
              lost := false, image := q.image.map (fun m => { m with super := some b, map := [], tableA := [], tableB := [] }) })
            let s := s.emit (.nvme d none (.write 0 2 false))
            let s := s.emit (.nvme d none (.write 256 (256 + 2 * 8192) false))
            .next (s.emit (.nvme d none (.deallocate 65536 (65536 * s.extentsOf d))))

/-- STORE_SCRUB (R366): the next committed chunk of the named records as the drives return it, none when all are read. -/
def execStoreScrub (t : Nat) (r : OpRef) (store : Option (List Byte)) (s : State) : Res :=
  let s := s.at t
  match s.claim t OP.SCRUB r with
  | none => .next s
  | some (s, o) =>
    match o.stop with
    | some st => .next (s.endOp o.id st)
    | none =>
      let slots := if bitOf (o.par 0 1) 0 then [] else (List.range o.length).map (o.src + ·)
      if slots.any (fun x => !s.store.table.any (fun e => e.slot == x)) then .next (s.endOp o.id ST.NOT_FOUND)
      else if !s.hasDcp o then .next s
      else
        let s := s.putB P.STO F.STO_STAT_SCRUB_BUSY true
        match store with
        | none => .next (s.endOp o.id (if o.lost then ST.CHECK_FAIL else ST.OK))
        | some bs =>
          let (s, out, ts) := s.decodeChunk o.threads bs
          let bad := out.isNone
          let s := if bad then (s.sat P.STO F.STO_SCRUB_BAD_CNT).pulse P.STO 5 else s
          .next (s.modOp o.id (fun o => { o with
            threads := ts, lost := o.lost || bad, result := o.result + b2n bad })).dcpShow

/-! ### Other events of the endpoint -/

/-- OUT_OF_BAR_REQUEST (R373). -/
def execOutOfBarRequest (t : Nat) (s : State) : Res :=
  let s := s.at t
  .next (if s.powered ∧ s.getB P.HIF F.HIF_LINK_STAT_UP then s.emit .unsupported else s)

/-- CONFIGURATION_REQUEST (R387, R484): answered with Configuration Request Retry Status until step 3 completes or WAIT_IMAGE is
entered; after that served. A request to the MSI-X capability may set the function mask. -/
def execConfigurationRequest (t : Nat) (mask : Option (Option (Fin 512))) (s : State) : Res :=
  let s := s.at t
  if !s.powered ∨ !s.getB P.HIF F.HIF_LINK_STAT_UP then .next s
  else if !s.hostServed then .next (s.emit .retryStatus)
  else
    let s := match mask with
      | some none => { s with msix := { s.msix with funcMask := true } }
      | some (some v) => { s with msix := { s.msix with masked := if s.msix.masked.contains v.val then s.msix.masked else v.val :: s.msix.masked } }
      | none => s
    .next (s.emit .configDone)

/-- HIF_CLR (R396). -/
def execHifClr (value : Word) (s : State) : Res :=
  .next (if bitOf value.toNat 0 then
    s.clearAll P.HIF [(F.HIF_POISON_RX_CNT, 1), (F.HIF_POISON_TX_CNT, 1), (F.HIF_DMA_ERR_CNT, 1)] else s)

/-- Agreement check of CMD (R397). -/
def checkCMD (v : View) (g : Nat) : Nat :=
  let log (x : Nat) : Bool := decide (x < 4) || decide (12 < x)
  if g < 16 then (if log (v.f P.CMD F.CMD_RING_CFG_SQ_LOG g) || log (v.f P.CMD F.CMD_RING_CFG_CQ_LOG g) then E.RANGE else 0)
  else if g = 16 then
    let m := v.f P.CMD F.CMD_CTL_RUN_MAX
    let u := v.f P.CMD F.CMD_CTL_STITCH_US
    if m < 1 ∨ 64 < m ∨ u < 5 ∨ 200 < u then E.RANGE else 0
  else 0

end Sys2Proof.Machine
end

