-- ==== Sys2Proof/Machine/Seam.lean ====
section
/-!
DEFINITION. Seam comparison (R436, R438 to R441): divergences, and the comparison of a span.
-/
namespace Sys2Proof.Machine

/-- Number of the span that ends at an aligned tick (R438). -/
def State.spanNumber (s : State) (finish : Nat) : Nat := finish / 2 ^ s.use P.TWN F.TWN_CTL_SEAM_EXP % 2 ^ 16

/-- What every divergence does (R439): the SEAM marker with its two words, TWN_DIVERGE_CNT, the DIVERGE event, the SEAM fault. -/
def State.diverge (s : State) (bit last slot w3 : Nat) : State :=
  let s := s.put P.TWN F.TWN_DIV_MASK (putBit (s.get P.TWN F.TWN_DIV_MASK) bit true)
  let s := s.setReg P.TWN F.TWN_DIV_LAST.off last
  let s := (s.sat P.TWN F.TWN_DIVERGE_CNT).pulse P.TWN 3
  (s.marker K.SEAM 0xFF slot [last, w3]).raiseFault Q.SEAM

/-- FIRE_MISMATCH (R436). The spec gives no stream, span or sums for it: free values (log entry 3). -/
def State.fireMismatch (s : State) (slot : Nat) : State :=
  let (a, s) := s.takeFree
  let (b, s) := s.takeFree
  (s.sat P.TWN F.TWN_FIRE_MISMATCH_CNT).diverge 18 (2 ^ 24 + a.toNat % 2 ^ 21) slot b.toNat

/-- Compare the first committed FIRE of the module's own ladder with the partner's at a record close (R436). -/
def State.compareFires (s : State) (finish : Nat) : State :=
  if !s.acq.duplexAll ∨ !s.duplex then s
  else
    let own : Option Nat := match s.acq.ownFire with | some p => if p.prov then none else some p.slot | none => none
    let theirs : Option Nat := (s.remote.filter (fun k => k.twin && !k.mark && !k.prov && decide (s.acq.armSlot ≤ k.slot) && decide (k.slot ≤ finish))).foldl
      (fun (m : Option Nat) k => match m with | none => some k.slot | some x => some (Nat.min x k.slot)) none
    let bad : Bool := match own, theirs with
      | some a, some b => decide (s.use P.TWN F.TWN_FIRE_TOL_FIRE_TOL < (if a < b then b - a else a - b))
      | none, none => false
      | _, _ => true
    if bad then s.fireMismatch ((s.acq.placed.map Placed.slot).getD 0) else s

/-- Difference of two counts. -/
def absDiff (a b : Nat) : Nat := if a < b then b - a else a - b

/-- Whether the sums of both sides agree (table `Summary contents`). -/
def State.seamAgrees (s : State) (x y : SeamSum) : Bool :=
  let te := s.use P.TWN F.TWN_TOL_TOL_EDGE
  let ts := s.use P.TWN F.TWN_TOL_TOL_SKEW
  let dc := (x.c - y.c).natAbs
  if x.stream < 8 then
    (if s.digMode x.stream = M.TIMING then x.b == y.b else decide (absDiff x.b y.b ≤ te)) &&
    decide (absDiff x.a y.a ≤ te) && decide (dc ≤ Nat.max x.a y.a * ts + te)
  else if x.stream < 16 then
    decide (absDiff x.a y.a ≤ te) && decide (absDiff x.b y.b ≤ te) &&
    (x.a != y.a || decide (dc ≤ x.a * ((ts + 7) / 8 + 1)))
  else if x.stream = 16 then x.a == y.a && x.b == y.b && decide (dc ≤ x.a * s.use P.TWN F.TWN_TOL_TOL_CODE)
  else x.a == y.a && x.b == y.b

/-- A module's own fault bits, SEAM and TWIN_SAFE left out (R441). -/
def State.ownFaults (s : State) : Bool :=
  s.run == .safe && putBit (putBit (s.get P.SAF F.SAF_FAULT_LATCH) Q.SEAM false) Q.TWIN_SAFE false != 0

/-- The module's own sums of a span; zero where no item fell in it. -/
def State.ownSum (s : State) (sid finish : Nat) : SeamSum :=
  (s.seams.find? (fun q => q.stream == sid && q.finish == finish)).getD
    { stream := sid, finish := finish, a := 0, b := 0, c := 0, skip := false }

/-- Whether the latest deviation of the pair's alignment is beyond DEV_TOL (R433). -/
def State.twinDeviates (s : State) : Bool :=
  decide (s.use P.CAS F.CAS_ALIGN_CFG_DEV_TOL < (sx 32 (s.get P.TWN F.TWN_ALIGN_DEV)).natAbs)

/-- Compare a span with the partner's summary (R439, R441): skipped, agreed, or a divergence. -/
def State.compareSpan (s : State) (y : SeamSum) : State :=
  let x := s.ownSum y.stream y.finish
  let s : State := { s with seams := s.seams.filter (fun q => !(q.stream == y.stream && q.finish == y.finish)) }
  if !s.duplex ∨ s.ownFaults then s
  else if x.skip ∨ y.skip then s.sat P.TWN F.TWN_SEAM_SKIP_CNT
  else
    let s := s.wrap P.TWN F.TWN_SEAM_CNT
    if s.seamAgrees x y then
      let s := s.putB P.TWN F.TWN_STAT_DIVERGED false
      { s with seamAgreed := ((y.stream, y.finish) :: s.seamAgreed).take 1024 }
    else
      let s := s.putB P.TWN F.TWN_STAT_DIVERGED true
      s.diverge y.stream (y.stream * 2 ^ 16 + s.spanNumber y.finish) (s.unaligned (8 * y.finish))
        (x.a % 2 ^ 32 * 2 ^ 32 + y.a % 2 ^ 32)

end Sys2Proof.Machine
end

