-- ==== Sys2Proof/Machine/Acq.lean ====
section
/-!
DEFINITION. Acquisition (chapter 10): the allotment and its rings, capacity, arming and its checks, the ends of a record, its hem
and header, thinning.
-/
namespace Sys2Proof.Machine

/-! ### Allotment and capacity (R239, R241) -/

/-- Streams ACQ_STREAM_EN names, ascending. -/
def State.armStreams (s : State) : List Nat := (List.range 22).filter (bitOf (s.useReg P.ACQ F.ACQ_STREAM_EN.off))

def State.dmBase (s : State) : Nat := s.useReg P.ACQM F.ACQ_DM_BASE.off
def State.dmSize (s : State) : Nat := s.useReg P.ACQM F.ACQ_DM_SIZE.off

/-- Ring of a stream of 8 to 21 in MiB. -/
def State.ringMib (s : State) (sid : Nat) : Nat := s.use P.ACQM F.ACQ_RING_MIB (sid - 8)

/-- Weight of a stream of 0 to 7 in sharing R_MiB: bytes per slot at its RATE_K, times 2^18; of one that is not fixed-rate, as at
RATE_K 0 (log entry 21). -/
def State.shareWeight (s : State) (sid : Nat) : Nat :=
  if s.fixedRate sid then 2 ^ (20 - s.use (P.DIG sid) F.DIG_MODE_RATE_K) else 2 ^ 20

/-- Size in MiB of the ring each enabled stream gets (R239). -/
def State.ringSizes (s : State) : List (Nat × Nat) :=
  let sids := s.armStreams
  let var := ((sids.filter (fun i => decide (8 ≤ i))).map s.ringMib).foldl (· + ·) 0
  let rest := s.dmSize - 16 - var
  let all := ((sids.filter (fun i => decide (i < 8))).map s.shareWeight).foldl (· + ·) 0
  sids.map (fun i => (i, if i < 8 then rest * s.shareWeight i / Nat.max 1 all else s.ringMib i))

/-- Parts a ring is divided into (R245). -/
def State.segParts (s : State) : Nat :=
  if s.acqMode ≠ AM.SEGMENTED then 1
  else
    let n := s.use P.ACQ F.ACQ_SEG_CFG_SEG_COUNT
    if n = 0 then Nat.max 2 (s.use P.ACQ F.ACQ_SEG_CFG_SEG_RING) else n

/-- Payload of a 1 MiB chunk (R241). -/
abbrev mibPayload : Nat := 1048512

/-- C_sto (R241): slots the store allotment holds at the fixed-rate streams' rates. -/
def State.capSto (s : State) : Nat :=
  let sum := ((s.armStreams.filter (fun i => i < 8 && s.fixedRate i)).map s.shareWeight).foldl (· + ·) 0
  s.useReg P.ACQM F.ACQ_STO_ALLOT.off * mibPayload * 2 ^ 20 / (4 * Nat.max 1 sum)

/-- Capacity C in slots (R241); none when no stream is fixed-rate. -/
def State.capacity (s : State) : Option Nat :=
  let fixed := s.ringSizes.filter (fun e => e.1 < 8 && s.fixedRate e.1)
  if fixed.isEmpty then none
  else if s.acqMode = AM.CONTINUOUS then some s.capSto
  else
    let each := fixed.map (fun e => e.2 / s.segParts * mibPayload * 2 ^ s.use (P.DIG e.1) F.DIG_MODE_RATE_K / 4)
    let dm := each.foldl (fun m x => Nat.min m x) (each.headD 0)
    some (dm + (if s.acqMode = AM.STREAMING then s.capSto else 0))

/-- A span in slots (R236); the rate of a loop that stands still gives none: a free value (log entry 3). -/
def State.spanSlots (s : State) (v : Nat) : Nat × State :=
  match s.use P.ACQ F.ACQ_CTL_SPAN_UNIT with
  | 0 => (v, s)
  | 1 => (8 * v, s)
  | _ =>
    let n := s.use P.ACQ F.ACQ_CTL_LOOP
    let l := s.loop n
    let f := if s.coasting n ∨ s.loopState n = L.HOLD then l.fInt else l.rateAt s.now
    if f = 0 then
      let (w, s) := s.takeFree
      (w.toNat % 2 ^ 51, s)
    else ((v * 2 ^ 37 + f - 1) / f, s)

/-! ### Arming checks (R233) -/

/-- Whether a tile that holds history, annex, angle logs or checkpoints may be lent (R219). -/
def State.gambitLent (s : State) : Bool := (List.range 608).any (fun k => s.lendFlag (128 + k) != 0)

/-- Loops named by a span in PIPS (check 6), in the order looked at: the record's, the timers', the outputs'. -/
def State.pipsLoops (s : State) : List Nat :=
  (if s.spanPips then [s.use P.ACQ F.ACQ_CTL_LOOP] else []) ++
  ((List.range 16).filter (fun n => s.use P.TLDT F.TLD_TMR_CFG_UNIT n == 2)).map (fun n => s.use P.TLDT F.TLD_TMR_CFG_LOOP n) ++
  ((List.range 16).filter (fun n => s.useB P.ACT F.ACT_CFG_EN n && s.use P.ACT F.ACT_CFG_UNIT n == 2)).map (fun n => s.use P.ACT F.ACT_CFG_LOOP n)

/-- Kind and entries of the pattern table a condition refers to (R202). -/
def State.tableRefs (s : State) (u : Nat) : Option (Nat × Nat × Nat) :=
  let op := s.cOp u
  match s.cType u with
  | 0x01 => some (0, bits op 8 0, bits op 12 9 + 1)
  | 0x03 => some (1, bits op 8 0, 1)
  | 0x09 => some (2, bits op 8 0, 1)
  | 0x11 => some (3, bits op 8 0, 1)
  | 0x12 => some (3, bits op 8 0, 1)
  | _ => none

/-- Whether a condition's references across pages are wrong (R202). -/
def State.badRef (s : State) (u : Nat) : Bool :=
  match s.tableRefs u with
  | none => false
  | some (kind, e, n) => decide (512 < e + n) || (List.range n).any (fun i => bits (s.useReg (P.PT (e + i)) F.TLD_PT_CTL.off) 31 30 != kind)

/-- Whether the interval-basis check fails (R256). -/
def State.basisBad (s : State) : Bool :=
  let basis := s.use P.ACQM F.ACQ_ANLG_CFG_BASIS
  (List.range 4).any (fun i =>
    let cfg := s.useReg P.ACC (F.ACC_IV_CFG.at i)
    let used := (s.ivConvs i).any (fun c => s.accRec c || !(s.harFresh c).orders.isEmpty) ||
      (s.ivPairs i).any (fun p => s.useB P.ACC F.ACC_PAIR_CFG_REC_EN p)
    let angle := bitOf cfg 30
    used && ((basis == 1 && angle) || (basis == 2 && !angle) ||
      (angle && s.role == C.MEMBER && s.loopSrc (bits cfg 27 26) != S.CASCADE)))

/-- The first arming check that fails: cause and WHICH (table `Arming checks`). -/
def State.armCheck (s : State) : Option (Nat × Nat) :=
  let sids := s.armStreams
  let sizes := s.ringSizes
  let stopped := [P.ACQ, P.TLD, P.GMB, P.RFQ].find? (fun p => !s.enabled p)
  let reads := s.host.ops.any (fun o => o.phase == .running && (o.opcode == OP.OFFLOAD || (o.opcode == OP.READ_RECORD && o.srcSpace == 2)))
  let small := sizes.find? (fun e => decide (e.2 < s.segParts) && (s.acqMode == AM.SEGMENTED || decide (e.1 < 8)))
  let outside := s.dmSize == 0 || decide (s.deepSize < (s.dmBase + s.dmSize) * 2 ^ 20) || decide (s.dmSize < 16 + sids.length) ||
    decide (s.dmSize < 16 + (sizes.map Prod.snd).foldl (· + ·) 0)
  let noRing := sids.find? (fun i => decide (8 ≤ i) && s.ringMib i == 0)
  let store := (s.acqMode == AM.CONTINUOUS || s.acqMode == AM.STREAMING) &&
    (s.useReg P.ACQM F.ACQ_STO_ALLOT.off == 0 || !s.getB P.STO F.STO_STAT_READY ||
      decide (s.get P.STO F.STO_FREE_MIB < s.useReg P.ACQM F.ACQ_STO_ALLOT.off + 256 * sids.length))
  let loops := s.pipsLoops.find? (fun n => !s.getB (P.LTL n) F.LTL_STAT_EVER_LOCKED)
  match stopped with
  | some p => some (0x0A, p)
  | none =>
    if reads then some (0x09, 0xFF)
    else if sids.isEmpty then some (0x01, 0xFF)
    else if outside then some (0x02, 0xFF)
    else match small with
      | some e => some (0x02, e.1)
      | none => match noRing with
        | some i => some (0x03, i)
        | none =>
          if store then some (0x04, 0xFF)
          else match loops with
            | some n => some (0x05, n)
            | none =>
              if (List.range (8 * s.rungs)).any s.badRef then some (0x06, 0xFF)
              else if s.gambitLent then some (0x07, 0xFF)
              else if s.basisBad then some (0x08, 0xFF) else none

/-- Show the outcome of an ARM (ACQ_ARM_STATUS). -/
def State.armResult (s : State) (result cause which : Nat) (clip cut : Bool) : State :=
  s.setReg P.ACQ F.ACQ_ARM_STATUS.off (result * 2 ^ 24 + cause * 2 ^ 16 + which * 2 ^ 8 + b2n clip * 2 + b2n cut)

/-- Capacity check and granted spans (R241). Answers collar, cuff, cut and clip with C. -/
def State.grants (s : State) : (Nat × Nat × Bool × Bool) × State :=
  let (lc, s) := s.spanSlots s.collarReq
  let (lu, s) := s.spanSlots s.cuffReq
  match s.capacity with
  | none => ((lc, lu, false, false), s)
  | some c =>
    if s.acqMode = AM.CONTINUOUS ∨ lc + 1 + lu ≤ c then ((lc, lu, false, false), s)
    else ((c - 1 - lu, Nat.min lu (c - 1), true, decide (c - 1 < lu)), s)

/-- ACQ_RING_BASE of every stream (R239, R264). -/
def State.layRings (s : State) : State :=
  let s := s.each (List.range 22) (fun s i => (s.setReg P.ACQX (F.ACQ_RING_BASE.at i) 0).setReg P.ACQX (F.ACQ_RING_FIRST.at i) 0)
  (s.ringSizes.foldl (fun (q : State × Nat) e => (q.1.setReg P.ACQX (F.ACQ_RING_BASE.at e.1) (2 ^ 31 + q.2), q.2 + e.2))
    (s, s.dmBase + 16)).1

/-- Arming passes at a write in slot `t`: it takes effect at `slot` (R201, R233). -/
def State.armPass (s : State) (slot : Nat) : State :=
  let (g, s) := s.grants
  let (lc, lu, cut, clip) := g
  let s := s.armResult 0 0 0xFF clip cut
  let s := (s.wrap P.ACQ F.ACQ_REC_NUM).layRings
  let s := s.put64 P.ACQ F.ACQ_CAP_LO F.ACQ_CAP_HI (s.capacity.getD (2 ^ 64 - 1))
  let s := s.put64 P.ACQ F.ACQ_GRANT_COLLAR_LO F.ACQ_GRANT_COLLAR_HI lc
  let s := s.put64 P.ACQ F.ACQ_GRANT_CUFF_LO F.ACQ_GRANT_CUFF_HI lu
  let s := if cut then s.pulse P.ACQ 4 else s
  let s := if clip then s.pulse P.ACQ 5 else s
  let groups := (List.range 8).filter (bitOf (s.pendGroups P.ACT))
  let s := s.endActivity (groups.foldl (fun m g => m + 3 * 4 ^ g) 0) s.now
  s.modAcq (fun a => { a with armAt := some slot })

/-- Run the checks and arm, or show why not (R233). -/
def State.tryArm (s : State) (slot : Nat) : State × Option (Nat × Nat) :=
  match s.armCheck with
  | some (c, w) => ((s.armResult 4 c w false false).pulse P.ACQ 1, some (c, w))
  | none => (s.armPass slot, none)

/-- First ply start at or after an aligned slot, in this module's numbering (R418). -/
def State.plyFromAligned (s : State) (slot : Nat) : Nat := (s.unaligned slot + 31) / 32 * 32

/-- Whether this side is the secondary of a pair in DUPLEX outside a cascade: its writes of ACQ_ARM are ignored and counted (R434). -/
def State.armIgnored (s : State) : Bool := s.secondary && s.role == C.SOLO

/-- ARM (R233, R418, R434). -/
def execArm (t : Nat) (value : Word) (s : State) : Res :=
  let s := s.at t
  let v := value.toNat
  if !bitOf v 0 ∨ bitOf v 1 then .next s
  else if s.armIgnored then .next (s.sat P.TWN F.TWN_ARM_IGN_CNT)
  else if s.isArmed ∨ s.acq.armAt.isSome then .next (s.put P.ACQ F.ACQ_ARM_STATUS_RESULT 5)
  else
    let root := s.role == C.ROOT && s.useB P.CAS F.CAS_CTL_ARM_ALL
    let pair := s.duplex && s.role == C.SOLO
    let al := if root then s.aligned (nextPly t + 32 * s.use P.CAS F.CAS_CTL_ARM_LEAD)
      else (s.aligned t + 32 * 1024 + 31) / 32 * 32
    let slot := if root ∨ pair then s.plyFromAligned al else nextPly t
    let (s, bad) := s.tryArm slot
    if bad.isSome then .next s
    else if root then
      let s := s.put64 P.CAS F.CAS_ARM_FAIL_LO F.CAS_ARM_FAIL_HI 0
      .next (s.broadcast TK.ARM 0 (slot51 al) 0 0)
    else .next (if pair then s.sendTwin TK.ARM 0 (slot51 al) 0 0 else s)

/-! ### The record begins -/

/-- Streams a producing block that is stopped or in reset leaves without data (R26, R45). -/
def streamsOf (p : Nat) : List Nat :=
  match pageType p with
  | 0x08 => [p - 0x20, p - 0x20 + 8, 20]
  | 0x09 => [p - 0x28 + 8, 20]
  | 0x0A => [20]
  | 0x0B => [16, 17]
  | 0x0C => [16, 17]
  | 0x0D => [17]
  | 0x05 => [19]
  | _ => []

/-- Gaps that are open from a record's first slot on: clocks on bypass, groups out of lock, producing blocks stopped (R62, R63, R45). -/
def State.gapsAtArm (s : State) (slot : Nat) : State :=
  let s := s.each [0, 1] (fun s n => if s.onBypass n then s.gapOpen ((bypassStreams n).filter s.recording) slot 1 else s)
  let s := s.each (List.range 8) (fun s g =>
    if s.digMode g ≠ M.OFF ∧ !s.groupValid g ∧ s.sp0Good then s.gapOpen ([g, 8 + g].filter s.recording) slot 2 else s)
  s.each ((pageMap.map Prod.fst).filter (fun p => !s.enabled p)) (fun s p => s.gapOpen ((streamsOf p).filter s.recording) slot 5)

/-- Clear VALID in a record header in deep memory. -/
def State.unvalid (s : State) (a : Nat) : State :=
  let b := (s.dmRead (a + 0x0F) 1).headD 0
  s.dmWrite (a + 0x0F) [b &&& 0x7F]

/-- A record whose store job is unfinished at a new arming stays INCOMPLETE (R355). -/
def State.dropRecordJob (s : State) : State :=
  let s := s.modStore (fun q => { q with writes := q.writes.filter (fun w => w.op.isSome) })
  match s.jobOf none with
  | none => s
  | some j =>
    let s := s.modStore (fun q => { q with
      jobs := q.jobs.filter (fun (j : StoJob) => j.op.isSome),
      exts := q.exts.map (fun (e : Extent) => if e.slot = j.slot ∧ e.record = j.record ∧ e.state = 1 then { e with state := 2 } else e) })
    if j.opened ∧ !j.closing then s.tableWrite (s.jobEntry j 3 (invalidHeader (j.header.getD []))) else s

/-- A record, or a segment of one, begins at the ply start `slot` (R201, R233, R245, R259, R264). -/
def State.beginRecord (s : State) (slot segment : Nat) (old : AcqState) : State :=
  let s := s.setReg P.ACQ F.ACQ_SEG_NUM.off segment
  let fresh : AcqState :=
    { AcqState.empty with
      armSlot := slot, armStatus := s.useReg P.ACQ F.ACQ_ARM_STATUS.off, duplexAll := s.duplex,
      readerFrom := if s.acqMode = AM.CONTINUOUS then some slot else none,
      thin := old.thin.zipIdx.map (fun e => { e.1 with maxStep := s.thinStep (thinStream e.2) }),
      protUntil := old.protUntil, protFires := old.protFires }
  let s := s.modAcq (fun _ => fresh)
  let s := s.put64 P.ACQ F.ACQ_ARM_SLOT_LO F.ACQ_ARM_SLOT_HI (slot51 slot)
  let s := s.put64 P.ACQ F.ACQ_TRIG_SLOT_LO F.ACQ_TRIG_SLOT_HI 0
  let s := s.put64 P.ACQ F.ACQ_END_SLOT_LO F.ACQ_END_SLOT_HI 0
  let s := s.put64 P.ACQ F.ACQ_TRIG_ANGLE_LO F.ACQ_TRIG_ANGLE_HI 0
  let s := s.each (List.range 22) (fun s i => (s.put P.RFQ F.RFQ_SEQ 0 i).put P.ACQX F.ACQ_RING_FIRST 0 i)
  let s := s.putB P.ACQ F.ACQ_STAT_ARMED true
  let st := s.useReg P.ACQ F.ACQ_ARM_STATUS.off
  let s := if bitOf st 0 then s.recFlag RF.COLLAR_CUT else s
  let s := if bitOf st 1 then s.recFlag RF.CUFF_CLIP else s
  let s := if s.run = .safe then s.recFlag RF.FAULT else s
  let n := s.use P.ACQ F.ACQ_CTL_LOOP
  let s := if s.coasting n then s.note (RN.LOOP AK.COAST_ON) slot n else s
  let s := if s.loopState n = L.HOLD then s.note (RN.LOOP AK.HOLD_START) slot n else s
  let s := s.unvalid (s.headerAt (if s.acqMode = AM.SEGMENTED then segment else 0))
  let s := s.each (List.range 8) (fun s g => s.modDig g (fun q => { q with lastWord := none, lastEntry := slot }))
  let s := s.gapsAtArm slot
  let latches := (List.range 16).filter (fun i => s.use P.ACT F.ACT_CFG_FUNC i == 1)
  let s := s.endActivity (latches.foldl (fun m i => m + 2 ^ i) 0) slot
  s.each (List.range 22) State.refreshRfq

/-- ARMING_TAKES_EFFECT (R201, R233): once no TLD or ACT commit is pending, the module is ARMED from the arm slot on, and the ladder
starts. -/
def execArmingTakesEffect (t : Nat) (s : State) : Res :=
  let s := s.at t
  match s.acq.armAt with
  | none => .next s
  | some a =>
    if t < a ∨ [P.TLD, P.TLDC, P.TLDP, P.TLDT, P.ACT].any (fun p => s.pendGroups p != 0) then .next s
    else
      let slot : Nat := Nat.max a (plyStart t)
      let s := s.dropRecordJob
      let s : State := { s with streams := List.replicate 22 StreamQ.empty }
      let s := if s.run = .ready then { s with run := .armed } else s
      let s := s.put P.RFQ F.RFQ_SPLIT s.splitMask
      let s := s.beginRecord slot 0 s.acq
      let s := (s.dealLanes s.enabledStreams).rfqState
      .next ((s.ladderStart slot).acqShow).storeShow

/-! ### Stop and full collar -/

/-- The record stops at the ply start `ply` (R234). -/
def State.stopAt (s : State) (ply : Nat) : State :=
  if !s.isArmed ∨ s.acq.stopPly.isSome then s
  else
    let s := s.modAcq (fun a => { a with stopSlot := some (ply - 1), stopPly := some ply })
    ((s.ladderEnd (ply / 32)).chooseTrigger).settleTrigger

/-- STOP (R234, R418, R434). -/
def execStop (t : Nat) (value : Word) (s : State) : Res :=
  let s := s.at t
  let v := value.toNat
  if !bitOf v 1 ∨ bitOf v 0 then .next s
  else if s.armIgnored then .next (s.sat P.TWN F.TWN_ARM_IGN_CNT)
  else if !s.isArmed then .next s
  else if s.role = C.ROOT ∧ s.useB P.CAS F.CAS_CTL_STOP_ALL then
    let al := s.aligned (nextPly t + 32 * s.use P.CAS F.CAS_CTL_ARM_LEAD)
    .next ((s.stopAt (s.plyFromAligned al)).broadcast TK.STOP 0 (slot51 al) 0 0)
  else if s.duplex ∧ s.role = C.SOLO then
    let al := (s.aligned t + 32 * 1024 + 31) / 32 * 32
    .next ((s.stopAt (s.plyFromAligned al)).sendTwin TK.STOP 0 (slot51 al) 0 0)
  else .next (s.stopAt (nextPly t))

/-- COLLAR_FULL (R237): the granted collar lies wholly after ARM_SLOT. -/
def execCollarFull (t : Nat) (s : State) : Res :=
  let s := s.at t
  .next (if s.isArmed ∧ s.acqMode ≠ AM.CONTINUOUS ∧ s.acq.fullAt.isNone ∧ s.collarFullAt t then
    (((s.modAcq (fun a => { a with fullAt := some t })).pulse P.ACQ 2).acqShow).gmbShow else s)

/-! ### Hem and header (R258 to R260) -/

/-- Notes of a kind with slots in a range. -/
def State.notesIn (s : State) (kind from_ upTo : Nat) : List RecNote :=
  s.acq.notes.reverse.filter (fun k => k.kind == kind && decide (from_ ≤ k.slot) && decide (k.slot ≤ upTo))

/-- Section of a pairing unit over the record (table `Hem sections`). -/
def State.ipSection (s : State) (u from_ upTo : Nat) : List Nat :=
  let of_ (k : Nat) := (s.notesIn k from_ upTo).filter (fun x => x.unit == u)
  let ds := (of_ RN.PAIR).map RecNote.val
  let unp := (of_ RN.UNPAIRED).foldl (fun n k => n + k.val.toNat) 0
  let mn := ds.foldl (fun m d => if d < m then d else m) (ds.headD 0)
  let mx := ds.foldl (fun m d => if m < d then d else m) (ds.headD 0)
  let sq := satU 96 (ds.foldl (fun n d => n + d.natAbs * d.natAbs) 0)
  [2 ^ 56 + u * 2 ^ 48 + 7 * 2 ^ 40, satU 32 unp * 2 ^ 32 + satU 32 ds.length,
   satU 32 (ds.filter (· == 0)).length * 2 ^ 32 + satU 32 (of_ RN.SKIP).length, unsx 64 mn, unsx 64 mx,
   unsx 64 (satS 64 (ds.foldl (· + ·) 0)), sq % 2 ^ 64, sq / 2 ^ 64]

/-- Section of a frequency unit over the record. -/
def State.fuSection (s : State) (u from_ upTo : Nat) : List Nat :=
  let all := (s.notesIn RN.GATE from_ upTo).filter (fun x => x.unit == u)
  let good := all.filter (fun x => x.extra % 2 == 1)
  let fs := good.map (fun x => x.val.toNat)
  [2 * 2 ^ 56 + u * 2 ^ 48 + 5 * 2 ^ 40, satU 32 good.length * 2 ^ 32 + satU 32 all.length,
   fs.foldl (fun m x => Nat.min m x) (fs.headD 0), fs.foldl (fun m x => Nat.max m x) 0, fs.getLastD 0,
   ((good.head?.map RecNote.extra).getD 0) / 2]

/-- The hem entry (table `Hem entry`): header flags, first and last slot of the record. -/
def State.hemWords (s : State) (flags from_ upTo mask : Nat) : List Nat :=
  let a := s.acq
  let cnt (k : Nat) : Nat := satU 32 ((s.notesIn k a.armSlot upTo).length)
  let ips := ((List.range 16).filter s.ipHem).flatMap (fun u => s.ipSection u from_ upTo)
  let fus := ((List.range 32).filter (fun u => s.useB P.FRQ F.FU_CFG_HEM_EN u)).flatMap (fun u => s.fuSection u from_ upTo)
  let steps := a.thin.zipIdx.foldl (fun m e => m + Nat.max e.1.maxStep (s.thinStep (thinStream e.2)) % 32 * 32 ^ e.2) 0
  let n := 8 + ips.length + fus.length
  [0x20 * 2 ^ 56 + s.get P.ACQ F.ACQ_SEG_NUM % 2 ^ 16 * 2 ^ 32 + s.get P.ACQ F.ACQ_REC_NUM, flags * 2 ^ 32 + n,
   a.thinMask * 2 ^ 32 + mask, steps, cnt RN.WINDOW * 2 ^ 32 + cnt RN.GAP, cnt RN.DROP_SPAN * 2 ^ 32 + cnt RN.DROPPED,
   cnt RN.RETRACT * 2 ^ 32 + cnt RN.ROLLBACK, cnt RN.LATE * 2 ^ 32 + cnt RN.OVERFLOW] ++ ips ++ fus

/-- Whether something that begins with one note of a loop and ends with others falls within a record (flags COAST and JUMP). -/
def State.spanMet (s : State) (n on from_ upTo : Nat) (offs : List Nat) : Bool :=
  let mine := s.acq.notes.filter (fun k => k.unit == n)
  mine.any (fun k => k.kind == RN.LOOP on && decide (k.slot ≤ upTo) &&
    !mine.any (fun o => offs.contains o.kind && decide (k.slot < o.slot) && decide (o.slot ≤ from_)))

/-- Flags of the record at its close (table `Record flags`), VALID among them. -/
def State.closeFlags (s : State) (from_ upTo : Nat) : Nat :=
  let a := s.acq
  let n := s.use P.ACQ F.ACQ_CTL_LOOP
  let put (b : Nat) (c : Bool) (m : Nat) : Nat := if c then putBit m b true else m
  let full := a.closeNote == 4
  put 31 true (put RF.NO_TRIG (!a.committed) (put RF.STORE_FULL full (put RF.CUFF_CLIP (full && s.acqMode != AM.CONTINUOUS) (put RF.THINNED (a.thinMask != 0)
    (put RF.DUPLEX (a.duplexAll && s.duplex) (put RF.COAST (s.spanMet n AK.COAST_ON from_ upTo [RN.LOOP AK.COAST_OFF])
      (put RF.JUMP (!((s.notesIn (RN.LOOP AK.JUMP) from_ upTo).filter (fun k => k.unit == n)).isEmpty ||
          s.spanMet n AK.HOLD_START from_ upTo [RN.LOOP AK.HOLD_END, RN.LOOP AK.COAST_ON])
        a.flags)))))))

/-- The record header (table `Record header`). -/
def State.headerBytes (s : State) (flags upTo mask hem : Nat) : List Byte :=
  let a := s.acq
  let trig := if a.committed then a.placed else none
  let slot := match trig with | some p => p.slot | none => 0
  let m := if trig.isSome then a.trigMap.getD s.tm else s.mapAt upTo
  let sm := { s with tm := m }
  let tai := (sm.taiNs (if trig.isSome then slot else upTo)).toNat
  let body := leBytes 4 (s.get P.ACQ F.ACQ_REC_NUM) ++ leBytes 4 (s.get P.ACQ F.ACQ_SEG_NUM) ++ leBytes 1 s.acqMode ++
    leBytes 1 (s.use P.ACQ F.ACQ_CTL_LOOP * 16 + s.use P.ACQ F.ACQ_CTL_SPAN_UNIT) ++ [0, 0] ++ leBytes 4 flags ++
    leBytes 8 (slot51 a.armSlot) ++ leBytes 8 (slot51 a.collarStart) ++ leBytes 8 (slot51 slot) ++ leBytes 8 (slot51 upTo) ++
    leBytes 8 s.collarReq ++ leBytes 8 s.cuffReq ++ leBytes 8 s.grantCollar ++ leBytes 8 s.grantCuff ++
    leBytes 8 (if trig.isSome then s.get64 P.ACQ F.ACQ_TRIG_ANGLE_LO F.ACQ_TRIG_ANGLE_HI else 0) ++
    leBytes 8 (tai / 1000000000 % 2 ^ 48) ++ leBytes 4 (tai % 1000000000) ++ leBytes 4 mask ++ leBytes 4 a.thinMask ++
    leBytes 4 a.shortMask ++ sm.mapBytes ++
    (match trig with | some p => (s.trigWords p).flatMap (leBytes 8) | none => List.replicate 32 0) ++
    leBytes 4 a.armStatus ++
    leBytes 4 (b2n (s.getB P.TWN F.TWN_STAT_PRIMARY) * 2 ^ 19 + b2n (a.duplexAll && s.duplex) * 2 ^ 18 + s.role * 2 ^ 16 +
      s.get P.CAS F.CAS_STAT_COUNT % 256 * 2 ^ 8 + s.ownAddr) ++
    leBytes 4 hem ++ List.replicate 64 0
  body ++ leBytes 4 (crc32c body)

/-! ### Closing (R238, R248) -/

/-- End slot and cause of a record that is to close, as far as they are known; none while it goes on (R234, R235, R244, R246). -/
def State.recordEnd (s : State) : Option (Nat × Nat) :=
  let a := s.acq
  let natural : Option Nat := match a.endSlot, a.endAngle with
    | some e, _ => some e
    | none, some x => (s.recLoopState).reach x
    | none, none => none
  let cont := s.acqMode == AM.CONTINUOUS
  let early : Option (Nat × Nat) :=
    if a.committed || (cont && a.closeNote == 4) then natural.map (fun e => (e, if a.closeNote = 0 then 1 else a.closeNote)) else none
  let open_ := a.placed.isSome && !a.committed
  match early, a.stopSlot with
  | some (e, c), some x => if x < e then some (x, 2) else some (e, c)
  | some r, none => some r
  | none, some x => if open_ && !cont then none else some (x, 2)
  | none, none => none

/-- Whether nothing can change any more before a slot: every ply is committed, and the FIREs of other modules are known (R238,
R410, R420, R514). -/
def State.recordSettled (s : State) (e : Nat) : Bool :=
  s.commitReached (e / 32 + 1) && decide (e < s.now) &&
  (s.acq.committed ||
    ((!(s.useB P.CAS F.CAS_CTL_FIRE_RX && s.role != C.SOLO) || s.cascadeKnown e) && (!s.secondary || s.twinKnown e)))

/-- Write what waits in the producer's banks of a stream into its ring, oldest first. -/
def State.drainBanks (s : State) (sid : Nat) : State :=
  if sid < 8 then s
  else
    let first := (s.stream sid).current
    s.each [first, !first] (fun s bank =>
      match (if bank then (s.stream sid).bankB else (s.stream sid).bankA).chunk? with
      | none => s
      | some c =>
        let (s, done) := s.ringWrite sid c
        if done then (s.modStream sid (fun q => if bank then { q with bankB := .free } else { q with bankA := .free })).refreshRfq sid
        else s)

/-- Close a stream's last chunk with FINAL (R248, R276). -/
def State.finalChunk (s : State) (sid : Nat) : State :=
  let empty : Bool := match (s.stream sid).opened with | some c => c.items.isEmpty && c.tail.isEmpty | none => true
  (if empty then s else s.closeChunk sid 4).drainBanks sid

/-- Streams whose last ring chunk carries FINAL. -/
def State.finalMask (s : State) : Nat :=
  (List.range 22).foldl (fun m i => if ((s.stream i).ring.getLast?.map (fun e => bitOf e.chunk.flags 2)).getD false then m + 2 ^ i else m) 0

/-- Close the record's data at END_SLOT `e` and write hem and header (R248 steps 1 to 3). -/
def State.writeRecord (s : State) (e : Nat) : State :=
  let sids := s.enabledStreams
  let mask := sids.foldl (fun m i => m + 2 ^ i) 0
  let s := s.put64 P.ACQ F.ACQ_END_SLOT_LO F.ACQ_END_SLOT_HI (slot51 e)
  let s := s.modAcq (fun a => { a with endSlot := some e })
  let s := if s.acq.committed then s
    else s.modAcq (fun a => { a with
      collarStart := if s.acqMode = AM.CONTINUOUS then a.armSlot else Nat.max a.armSlot (s.collarBack e) })
  let s := if s.acq.committed ∨ s.acqMode = AM.CONTINUOUS then s else s.modAcq (fun a => { a with shortMask := s.shortStreams })
  let s := if s.acq.committed ∧ s.acq.stopSlot = some e ∧ s.acqMode ≠ AM.CONTINUOUS then s.recFlag RF.STOPPED else s
  let causes := [1, 2, 3, 5]
  let s := s.each causes (fun s c => s.gapClose sids (e + 1) c false)
  let s := s.each (List.range 8) (fun s g => s.finishStamps g e)
  let s := (s.closeMerges 16).closeMerges 17
  let s := s.dropAfter e
  let s := s.compareFires e
  let s := s.each (sids.filter (fun i => decide (i < 21))) State.finalChunk
  let start := s.acq.collarStart
  let flags := s.closeFlags start e
  let hem := if sids.contains 21 then s.hemWords flags start e mask else []
  let s := if hem.isEmpty then s
    else (s.appendItem 21 { slot := e, words := hem.map w64, ply := none }).finalChunk 21
  let flags := s.closeFlags start e
  let s := s.setReg P.ACQ F.ACQ_HEM_WORDS.off hem.length
  let h := s.headerBytes flags e mask hem.length
  let s := s.dmWrite (s.headerAt (if s.acqMode = AM.SEGMENTED then s.get P.ACQ F.ACQ_SEG_NUM else 0)) h
  let finals := s.finalMask
  (s.modJob none (fun j => { j with header := some h, streams := finals })).settleJobs

/-- The next segment is armed at the first slot of the next ply (R245). -/
def State.nextSegment (s : State) : State :=
  let slot := nextPly s.now
  let n := s.get P.ACQ F.ACQ_SEG_NUM + 1
  let parts := s.segParts
  let s := if s.use P.ACQ F.ACQ_SEG_CFG_SEG_COUNT = 0 ∧ parts ≤ n then
      ((s.unvalid (s.headerAt (n - parts))).sat P.ACQ F.ACQ_SEG_OVERWRITE_CNT).pulse P.ACQ 6
    else s
  let s : State := { s with streams := s.streams.map (fun (q : StreamQ) =>
    { StreamQ.empty with
      older := (q.older.filter (fun (e : RingChunk) => decide (n < parts) || e.chunk.segment + parts != n)) ++ q.ring, pathOp := q.pathOp,
      storeSeq := q.storeSeq, readSeq := q.readSeq, dealt := q.dealt, passed := q.passed }) }
  let s := s.beginRecord slot n s.acq
  let s := s.modGmb (fun g => { g with restart := some (slot / 32), ladder := if g.ckpts.isEmpty then s.ladderFresh slot else g.ladder })
  let s := s.marker K.SEG 0xFF slot [n]
  ((s.putB P.TLD F.TLD_STAT_FIRED false).gmbShow).acqShow

/-- The record is complete (R248 step 4): REC_DONE, then the next segment or the end of ARMED once the gambit has settled. -/
def State.recordDone (s : State) (e cause : Nat) : State :=
  let more := s.moreSegments && cause != 2
  let s := (s.put P.ACQ F.ACQ_CLOSE_CAUSE cause).pulse P.ACQ 3
  if more then s.nextSegment
  else
    let p := Nat.max s.gmb.next (e / 32 + 1)
    let s := s.modGmb (fun g => { g with last := some (g.last.getD p) })
    let s := s.modAcq (fun a => { a with closed := none, settling := some (s.gmb.last.getD p) })
    (s.acqShow.gmbShow).settleArmed

/-- Whether a record bound for the store is stored: no job is left and nothing of it waits. -/
def State.recordStored (s : State) : Bool := s.acqMode != AM.STREAMING || ((s.jobOf none).isNone && s.pathDrained none)

/-- RECORD_CLOSE (R246, R248): END_SLOT is before the commit point, STOP has taken effect, or a limit is reached; a STREAMING_CUFF
record ends once it is stored. -/
def execRecordClose (t : Nat) (s : State) : Res :=
  let s := s.at t
  if !s.isArmed ∨ s.acq.settling.isSome then .next s
  else match s.acq.closed with
    | some (e, c) => .next (if s.recordStored then s.recordDone e c else s)
    | none => match s.recordEnd with
      | none => .next s
      | some (e, c) =>
        let busy := s.enabledStreams.any (fun i => !(s.stream i).staging.isEmpty)
        if !s.recordSettled e ∨ busy then .next s
        else
          let s := s.writeRecord e
          let s := (s.modAcq (fun a => { a with closed := some (e, c) })).acqShow
          .next (if s.recordStored then s.recordDone e c else s)

/-- Last slot a blocked ring holds, of a stream that would have to overwrite a protected chunk next (R242). -/
def State.ringBlocked (s : State) (sid : Nat) : Option Nat :=
  let q := s.stream sid
  let n := match q.bankA.chunk?, q.bankB.chunk?, q.opened with
    | some c, none, _ => some c.length
    | none, some c, _ => some c.length
    | some c, some d, _ => some (if c.seq < d.seq then c.length else d.length)
    | none, none, some c => some (64 + (c.bytes + 7) / 8 * 8 + 8 * c.tailWords)
    | none, none, none => none
  match n with
  | some n => if s.ringProtected sid n then (q.ring.getLast?.bind (fun e => e.chunk.items.getLast?)).map Item.slot else none
  | none => none

/-- LIVE_CLIP (R242): a ring would have to overwrite a protected chunk before END_SLOT; the record ends for every stream at the last
slot that ring holds. -/
def execLiveClip (t : Nat) (s : State) : Res :=
  let s := s.at t
  if !s.isArmed ∨ s.acq.closed.isSome ∨ s.acq.settling.isSome ∨ s.acq.closeNote ≠ 0 then .next s
  else
    let last := (s.enabledStreams.filterMap s.ringBlocked).foldl
      (fun (m : Option Nat) x => match m with | none => some x | some y => some (Nat.min x y)) none
    match last with
    | none => .next s
    | some e =>
      if (match s.acq.endSlot with | some x => decide (x ≤ e) | none => false) then .next s
      else
        let s := s.modAcq (fun a => { a with endSlot := some e, endAngle := none, closeNote := 3 })
        .next (if s.acq.committed then (s.liveClipped e).acqShow else s.acqShow)

/-! ### Thinning (R249 to R254) -/

/-- ACQ_THIN_MASK, THIN events, PAGE_STAT.STATE and KEFF_MAX of page 0x4A follow the steps (R263). -/
def State.thinShow (s : State) : State :=
  let m := (List.range 10).foldl (fun m i => if s.thinStep (thinStream i) = 0 then m else m + 2 ^ i) 0
  let s := (s.put P.ACQT F.ACQ_THIN_MASK m).setBlockState P.ACQT (b2n (m != 0))
  s.each (List.range 10) (fun s i => s.level P.ACQT i (bitOf m i))

/-- Whether a stream's steps may change by its own pressure (R250, R253, R254). -/
def State.thinFree (s : State) (i t dwell : Nat) : Bool :=
  let q := s.acq.thin.getD i { next := none, seen := 0, maxStep := 0 }
  s.enabled P.ACQT && s.useB P.ACQT F.ACQ_THIN_CFG_EN i && s.recording (thinStream i) &&
  !s.getB P.ACQT F.ACQ_THIN_STAT_FROM_TWIN i && q.next.isNone && decide (q.seen + dwell ≤ t)

/-- THIN_STEP_UP (R250): the pressure has stayed at or above HI for DWELL_UP. -/
def execThinStepUp (t : Nat) (i : Fin 10) (press : BitVec 8) (s : State) : Res :=
  let s := (s.at t).put P.ACQT F.ACQ_THIN_STAT_PRESS press.toNat i
  let k := s.thinStep (thinStream i)
  let dwell := 160 * s.use P.ACQT F.ACQ_THIN_DWELL_DWELL_UP i
  .next (if s.use P.ACQT F.ACQ_THIN_LVL_HI i ≤ press.toNat ∧ s.thinFree i t dwell ∧ k < s.kEffMax i ∧
      !s.getB P.ACQT F.ACQ_THIN_STAT_PROTECTED i then
    (s.sat P.ACQT F.ACQ_THIN_UP_CNT 1 i).decideStep i (k + 1) t else s)

/-- THIN_STEP_DOWN (R250): the pressure has stayed at or below LO for DWELL_DOWN. -/
def execThinStepDown (t : Nat) (i : Fin 10) (press : BitVec 8) (s : State) : Res :=
  let s := (s.at t).put P.ACQT F.ACQ_THIN_STAT_PRESS press.toNat i
  let k := s.thinStep (thinStream i)
  let dwell := usSlots (s.use P.ACQT F.ACQ_THIN_DWELL_DWELL_DOWN i)
  .next (if press.toNat ≤ s.use P.ACQT F.ACQ_THIN_LVL_LO i ∧ s.thinFree i t dwell ∧ 0 < k then s.decideStep i (k - 1) t else s)

/-- RATE (R251): a step change takes effect at the stream's grid point: at once for TIMING once it is reached, at the next kept
sample for STATE, at the merge-group boundary for streams 16 and 17. -/
def execRate (t : Nat) (i : Fin 10) (s : State) : Res :=
  let s := s.at t
  match (s.acq.thin.getD i { next := none, seen := 0, maxStep := 0 }).next with
  | none => .next s
  | some (_, at_) => .next (if t < at_ % 2 ^ 80 then s else (s.applyStep i (if at_ < 2 ^ 80 then at_ else t)).thinShow)

/-- OVERFLOW (R252): a full elastic store loses words from a slot on, or takes them again from a slot on. -/
def execOverflow (t : Nat) (i : Fin 10) (lost : Bool) (s : State) : Res :=
  let s := s.at t
  let sid := thinStream i
  let has := (s.stream sid).gaps.any (fun g => g.cause = 3)
  if !s.recording sid then .next s
  else if lost then
    if has then .next s
    else
      let s := (s.sat P.ACQT F.ACQ_OVF_CNT 1 i).pulse P.ACQT (16 + i)
      .next ((s.note RN.OVERFLOW t sid).gapOpen [sid] t 3)
  else .next (s.gapClose [sid] t 3 false)

/-- PROT_WINDOW_CLOSE (R253): the latest opening's length has passed. -/
def execProtWindowClose (t : Nat) (s : State) : Res :=
  let s := s.at t
  .next (if s.getB P.ACQ F.ACQ_STAT_PROTECTED ∧ s.acq.protUntil ≤ t then
    (s.modAcq (fun a => { a with protFires := [] })).protShow false else s)

/-- ACQ_CLR (R261): the four counters of page 0x48. -/
def execAcqClr (value : Word) (s : State) : Res :=
  .next (if bitOf value.toNat 0 then s.clearAll P.ACQ [(F.ACQ_SHORT_COLLAR_CNT, 1), (F.ACQ_LIVE_CLIP_CNT, 1),
    (F.ACQ_SEG_OVERWRITE_CNT, 1), (F.ACQ_WITHDRAW_CNT, 1)] else s)

/-- ACQ_THIN_CLR (R263). -/
def execAcqThinClr (value : Word) (s : State) : Res :=
  .next (if bitOf value.toNat 0 then s.clearAll P.ACQT [(F.ACQ_THIN_UP_CNT, 10), (F.ACQ_OVF_CNT, 10)] else s)

/-- A copied KMAX below the present step takes the step to the new limit (R263). -/
def State.kmaxCopied (s : State) (i : Nat) : State :=
  if s.kEffMax i < s.thinStep (thinStream i) then s.decideStep i (s.kEffMax i) s.now else s

/-! ### Agreement checks (R261 to R263) -/

def checkACQ (v : View) (p g : Nat) : Nat :=
  if p = P.ACQ then firstCause [(v.f P.ACQ F.ACQ_CTL_SPAN_UNIT == 3, E.RESERVED_CODE)]
  else if p = P.ACQM then
    (if g = 0 then firstCause [(v.f P.ACQM F.ACQ_ANLG_CFG_BASIS == 3, E.RESERVED_CODE), (decide (10 < v.f P.ACQM F.ACQ_ANLG_CFG_AVG_EXP), E.RANGE)]
    else 0)
  else if p = P.ACQT then
    firstCause [(v.f P.ACQT F.ACQ_THIN_LVL_HI g == 0, E.RANGE), (decide (v.f P.ACQT F.ACQ_THIN_LVL_HI g ≤ v.f P.ACQT F.ACQ_THIN_LVL_LO g), E.MISMATCH),
      (decide (20 < v.f P.ACQT F.ACQ_THIN_CFG_KMAX g), E.RANGE)]
  else 0

end Sys2Proof.Machine
end

