-- ==== Sys2Proof/Machine/Eth.lean ====
section
/-!
DEFINITION. Ethernet streaming (R394, R395, R399) and the SerDes lanes (R401).
-/
namespace Sys2Proof.Machine

/-! ### Lanes (R401) -/

/-- LANE_DOWN follows the lanes in use: those whose MODE is not off. -/
def State.serShow (s : State) : State :=
  s.level P.SER 0 ((List.range 48).any (fun l => s.get P.SER F.SER_LANE_STAT_MODE l != 0 && !s.getB P.SER F.SER_LANE_STAT_LOCKED l))

/-- Bring lanes `lo` to `lo + n - 1` to a mode (0 off, 1 NRZ, 2 PAM4), with signal and lock or without. -/
def State.setLanes (s : State) (lo n mode : Nat) (lock : Bool) : State :=
  (s.each ((List.range n).map (fun i => lo + i)) (fun s l =>
    ((s.put P.SER F.SER_LANE_STAT_MODE mode l).putB P.SER F.SER_LANE_STAT_LOCKED lock l).putB P.SER F.SER_LANE_STAT_SIGNAL lock l)).serShow

/-- LANE_DOWN (R401): a lane in use loses lock, having met `errors` errors since the last report; `eye` is its eye margin code. -/
def execLaneDown (t : Nat) (lane : Fin 48) (errors : Nat) (eye : BitVec 16) (s : State) : Res :=
  let s := s.at t
  let s := (s.sat P.SER F.SER_LANE_ERR errors lane).put P.SER F.SER_LANE_STAT_EYE eye.toNat lane
  .next ((s.putB P.SER F.SER_LANE_STAT_LOCKED false lane).serShow)

/-- SER_CLR (R401). -/
def execSerClr (value : Word) (s : State) : Res :=
  .next (if bitOf value.toNat 0 then s.clearAll P.SER [(F.SER_LANE_ERR, 48)] else s)

/-! ### Ports -/

/-- Host group mode (R370). -/
def State.hostMode (s : State) : Nat := s.get P.HIF F.HIF_HOST_MODE

/-- Ethernet ports of each host group mode (table `Host group modes`), with their first host lane and lane count. -/
def ethPorts (mode : Nat) : List (Nat × Nat × Nat) :=
  if mode = 1 then [(0, 8, 4), (4, 12, 4)]
  else if mode = 2 then [(0, 8, 4), (4, 12, 1), (5, 13, 1), (6, 14, 1), (7, 15, 1)]
  else if mode = 3 then (List.range 8).map (fun n => (n, 8 + n, 1))
  else []

/-- Whether a port exists in the host group mode. -/
def State.ethPort (s : State) (n : Nat) : Bool := (ethPorts s.hostMode).any (fun e => e.1 == n)

/-- Whether a port's link is up. -/
def State.ethUp (s : State) (n : Nat) : Bool := bitOf (s.get P.ETH F.ETH_PORT_STAT) n

/-- ETH_LINK_CHANGE (R399): ETH_PORT_STAT, LINK_DOWN of the port, its lanes. -/
def execEthLinkChange (t : Nat) (port : Fin 8) (up : Bool) (s : State) : Res :=
  let s := s.at t
  .next (match (ethPorts s.hostMode).find? (fun e => e.1 == port.val) with
  | none => s
  | some (n, lo, k) =>
    let s := s.put P.ETH F.ETH_PORT_STAT (putBit (s.get P.ETH F.ETH_PORT_STAT) n up)
    ((s.setLanes lo k 2 up).level P.ETH n (!up)))

/-- PAUSE_FRAME (R394): nothing is sent on the port for the time the frame asks for. -/
def execPauseFrame (t : Nat) (port : Fin 8) (slots : Nat) (s : State) : Res :=
  let s := s.at t
  .next (if s.ethPort port then { s with ethPause := lmod s.ethPause port (fun _ => t + slots) } else s)

/-! ### Sending -/

/-- Bytes of a chunk in a datagram (R395): the largest multiple of 8 within MTU less the IP header, 8 and 32 bytes. -/
def datagramRoom (mtu : Nat) (ipv6 : Bool) : Nat := (mtu - (if ipv6 then 40 else 20) - 8 - 32) / 8 * 8

/-- Table `Datagram header`. -/
def datagramHeader (flags module stream frag record seq dseq offset : Nat) : List Byte :=
  let h := leBytes 2 0x4358 ++ leBytes 1 1 ++ leBytes 1 flags ++ leBytes 1 module ++ leBytes 1 stream ++ leBytes 2 frag ++
    leBytes 4 record ++ leBytes 4 seq ++ leBytes 8 dseq ++ leBytes 4 offset
  h ++ leBytes 4 (crc32c h)

/-- An IP address in four registers, or in word 0 (R399). -/
def ipOf (ipv6 : Bool) (w : Nat → Nat) : Nat :=
  if ipv6 then w 0 + w 1 * 2 ^ 32 + w 2 * 2 ^ 64 + w 3 * 2 ^ 96 else w 0

/-- Send a chunk as datagrams (R395). `n` bounds the number of them. -/
def State.sendDatagrams (d : Nat) (c : Chunk) (bs : List Byte) : Nat → Nat → State → State
  | 0, _, s => s
  | n + 1, frag, s =>
    let v6 := s.useB P.ETH F.DEST_CFG_IPV6 d
    let room := datagramRoom (s.use P.ETH F.ETH_CTL_MTU) v6
    let off := frag * room
    let part := (bs.drop off).take room
    let last := decide (bs.length ≤ off + room)
    let port := s.use P.ETH F.DEST_CFG_PORT d
    let q := s.eths.getD d { queue := [], dgrams := 0 }
    let h := datagramHeader (b2n (frag == 0) + 2 * b2n last) s.ownAddr c.stream frag c.record c.seq q.dgrams off
    let s := s.emit (.datagram {
      dest := d, port := port, srcMac := (s.use64 P.ETH F.ETH_MAC_LO F.ETH_MAC_HI + port) % 2 ^ 48,
      dstMac := s.use64 P.ETH F.DEST_MAC_LO F.DEST_MAC_HI d, ipv6 := v6,
      srcIp := if v6 then ipOf true (fun i => s.use P.ETH F.ETH_SRC_IP6 i) else s.use P.ETH F.ETH_SRC_IP4,
      dstIp := ipOf v6 (fun i => s.useReg P.ETH (F.DEST_IP0.at d + 4 * i)),
      srcUdp := s.use P.ETH F.DEST_UDP_SRC d, dstUdp := s.use P.ETH F.DEST_UDP_DST d, bytes := h ++ part })
    let s : State := { s with eths := lmod s.eths d (fun (q : EthDest) => { q with dgrams := (q.dgrams + 1) % 2 ^ 64 }) }
    if last then s else State.sendDatagrams d c bs n (frag + 1) s

/-- Whether a destination may send its next chunk: the page runs, its port is up, and no PAUSE holds it. -/
def State.ethReady (s : State) (d t : Nat) : Bool :=
  let port := s.use P.ETH F.DEST_CFG_PORT d
  s.enabled P.ETH && s.useB P.ETH F.ETH_CTL_EN && s.ethPort port && s.ethUp port && decide (s.ethPause.getD port 0 ≤ t)

/-- ETH_CHUNK_SEND (R394, R395): a destination sends the chunk at the head of its queue; a PACED bank is held until then. -/
def execEthChunkSend (t : Nat) (dest : Fin 4) (s : State) : Res :=
  let s := s.at t
  let q := s.eths.getD dest { queue := [], dgrams := 0 }
  .next (match q.queue with
  | [] => s
  | (c, held) :: r =>
    if !s.ethReady dest t then s
    else
      let bs := c.bytes
      let s := State.sendDatagrams dest c bs (bs.length + 1) 0 s
      let s : State := { s with eths := lmod s.eths dest (fun (q : EthDest) => { q with queue := r }) }
      let s := s.wrap P.ETH F.DEST_SENT_CNT 1 dest
      match held with
      | some (i, bank) => s.freePath i bank
      | none => s)

/-- ETH_CLR (R399). -/
def execEthClr (value : Word) (s : State) : Res :=
  .next (if bitOf value.toNat 0 then s.clearAll P.ETH [(F.DEST_DROP_CNT, 4), (F.DEST_SENT_CNT, 4)] else s)

/-! ### Checks (R399) -/

/-- A check of the ETH page. -/
def checkETH (mode : Nat) (v : View) (p g : Nat) : Nat :=
  if g = 0 then
    let mtu := v.f p F.ETH_CTL_MTU
    if mtu < 1500 ∨ 9216 < mtu then E.RANGE else E.NONE
  else if (ethPorts mode).any (fun e => e.1 == v.f p F.DEST_CFG_PORT (g - 1)) then E.NONE else E.RANGE

end Sys2Proof.Machine
end

