-- ==== Sys2Proof/Machine/Flex.lean ====
section
/-!
DEFINITION. The Flepex ports (R406, R407, R427): flits, resends, link loss and retraining; BROKEN and the status of the cascade page.
-/
namespace Sys2Proof.Machine

/-! ### Status -/

/-- Addresses of the ring's modules, as a mask: all below the count, or on a broken ring the east chain and the west chain (R412). -/
def ringMask (count east : Nat) (broken : Bool) : Nat :=
  if !broken then 2 ^ count - 1
  else (2 ^ (east + 1) - 1) + ((List.range (count - 1 - east)).map (fun i => 2 ^ (63 - i))).foldl (· + ·) 0

def State.ringModules (s : State) : Nat :=
  ringMask (s.get P.CAS F.CAS_STAT_COUNT) (s.get P.CAS F.CAS_ENUM_STAT_EAST_COUNT) s.broken

/-- PAGE_STAT.STATE and the level events of the CAS page (R426). -/
def State.casShow (s : State) : State :=
  let ready := s.getB P.CAS F.CAS_STAT_READY
  let busy := s.getB P.CAS F.CAS_STAT_ENUM_BUSY
  let s := s.setBlockState P.CAS (if busy then 1 else if !ready then 0 else if s.broken then 3 else 2)
  let s := (s.level P.CAS 0 ready).level P.CAS 1 s.broken
  s.level P.CAS 7 (ready && s.ringModules &&& s.reachMask != s.ringModules)

/-- Whether FLX_CTL enables a port. -/
def State.portOn (s : State) (p : Port) : Bool := bitOf (s.use P.FLX F.FLX_CTL_PORT_EN) p.idx

/-- PAGE_STAT.STATE, LINK_DOWN and TWN_STAT.LINK_UP follow the port states (R427). -/
def State.flxShow (s : State) : State :=
  let ports := [Port.east, Port.west, Port.twin]
  let s := s.each ports (fun s p => s.level P.FLX p.idx (s.portOn p && s.get P.FLX F.FLX_PORT_STAT_STATE p.idx != 2))
  let s := s.setBlockState P.FLX (b2n (ports.any (fun p => s.portOn p && s.get P.FLX F.FLX_PORT_STAT_STATE p.idx == 2)))
  s.putB P.TWN F.TWN_STAT_LINK_UP (s.get P.FLX F.FLX_PORT_STAT_STATE 2 == 2)

/-- First SerDes lane of a port and its lanes (R401). -/
def Port.lanes : Port → Nat × Nat
  | .east => (40, 4) | .west => (44, 4) | .twin => (32, 8)

/-- The port opposite on the ring. -/
def Port.onward : Port → Port
  | .east => .west | .west => .east | .twin => .twin

/-- Bring a port to a state: 0 DOWN, 1 TRAINING, 2 UP, 3 STANDBY. -/
def State.setPort (s : State) (p : Port) (st : Nat) : State :=
  let on := decide (2 ≤ st)
  let s := s.put P.FLX F.FLX_PORT_STAT_STATE st p.idx
  let s := (s.putB P.FLX F.FLX_PORT_STAT_PAIR_LOCK on p.idx).put P.FLX F.FLX_PORT_STAT_LANES (if on then p.lanes.2 else 0) p.idx
  (s.setLanes p.lanes.1 p.lanes.2 (if st = 0 then 0 else 2) on).flxShow

/-! ### Link loss (R407, R425, R442) -/

/-- The choice of the trigger is made again, and committed when it can be (R420). -/
def State.retrigger (s : State) : State := (s.chooseTrigger).settleTrigger

/-- The ring is broken: LINE forwarding from here on (R425). -/
def State.setBroken (s : State) : State := (s.putB P.CAS F.CAS_STAT_BROKEN true).casShow

/-- A port declares link loss: it stops and trains again. A cascade port of a module in a ring broadcasts LINK_LOSS out of the other
port; the twin port of a pair sends the module ALONE. -/
def State.linkLoss (s : State) (p : Port) : State :=
  if s.get P.FLX F.FLX_PORT_STAT_STATE p.idx < 2 then s
  else
    let up := s.portUp p
    let s := ((s.sat P.FLX F.FLX_LOSS_CNT 1 p.idx).setPort p 1).raiseFault Q.LINK
    let s := s.modCas (fun c => { c with probing := c.probing.filter (fun q => q != p) })
    if p = .twin then
      let s := s.modTwin (fun q => { q with timed := false, sent := false })
      if s.paired then s.goAlone.retrigger else s
    else if s.role = C.SOLO ∨ !up then s
    else
      let s := s.setBroken
      (s.sendRing (s.mkToken TK.REG 0 true (7 * 2 ^ 28) 0 0 0)).bumpSeq TK.REG

/-- LINK_LOSS (R407): a port declares link loss after failures in a row, a loss of lane lock, or missing pair markers. -/
def execLinkLoss (t : Nat) (port : Port) (s : State) : Res :=
  let s := s.at t
  .next (if s.enabled P.FLX then s.linkLoss port else s)

/-! ### Flits (R406, R407) -/

/-- Resend from the flit after `ack` on: FLX_RETRY_CNT, RETRY, resends of the last 1 ms. -/
def State.resend (s : State) (t : Nat) (p : Port) (ack : Nat) : State :=
  let due := (s.flx p).replay.filter (fun e => decide ((e.1 + 4095 - ack) % 4096 < 2048))
  let s := s.each due.reverse (fun s e => s.emit e.2)
  let s := s.modFlx p (fun q => { q with resends := t :: q.resends.filter (fun x => decide (t < x + msSlots 1)) })
  let s := s.put P.FLX F.FLX_PORT_STAT_RESENDS (satU 8 (s.flx p).resends.length) p.idx
  (s.sat P.FLX F.FLX_RETRY_CNT 1 p.idx).pulse P.FLX 3

/-- Failures in a row that a port bears: RETRY_MAX, 0 counting as 1 (R428). -/
def State.retryMax (s : State) : Nat := Nat.max 1 (s.use P.FLX F.FLX_CTL_RETRY_MAX)

/-- Token slots of a TOKEN flit that are not empty. -/
def tokensIn (flit : List Byte) : Nat :=
  ((List.range 7).filter (fun i => bits (fieldAt flit (8 + 32 * i) 8) 63 59 != 0)).length

/-- FLIT_RECEIVE (R407): a flit of 256 bytes is taken when its CRC checks and its SEQ is one above the last; else NAK is returned, and
the failures in a row may end in link loss. A NAK it carries makes this side resend. `corr` and `uncorr` count codewords. The tokens and
commands a taken flit carries are commands of their own. -/
def execFlitReceive (t : Nat) (port : Port) (flit : List Byte) (corr uncorr : Nat) (s : State) : Res :=
  if flit.length ≠ 256 then .fault .illFormed
  else
    let s := s.at t
    if !s.enabled P.FLX ∨ s.get P.FLX F.FLX_PORT_STAT_STATE port.idx < 2 then .next s
    else
      let i := port.idx
      let s := (s.sat P.FLX F.FLX_FEC_CORR_CNT corr i).sat P.FLX F.FLX_FEC_UNCORR_CNT uncorr i
      let s := if uncorr = 0 then s else s.pulse P.FLX 4
      let good := crc32 (flit.take 252) == fieldAt flit 252 4
      let h := fieldAt flit 0 8
      let s := if good then s else s.sat P.FLX F.FLX_CRC_ERR_CNT 1 i
      let s := if good ∧ bitOf h 35 then s.resend t port (bits h 47 36) else s
      if good ∧ bits h 59 48 = ((s.flx port).rx + 1) % 4096 then
        let s := s.modFlx port (fun q => { q with rx := (q.rx + 1) % 4096, fails := 0 })
        .next (if bits h 63 60 = 1 then s.wrap P.FLX F.FLX_TOKEN_RX_CNT (tokensIn flit) i else s)
      else
        let s := s.modFlx port (fun q => { q with fails := q.fails + 1 })
        let s := s.emit (.nak port (s.flx port).rx)
        .next (if s.retryMax < (s.flx port).fails then s.linkLoss port else s)

/-- FLX_CLR (R427). -/
def execFlxClr (value : Word) (s : State) : Res :=
  .next (if bitOf value.toNat 0 then s.clearAll P.FLX [(F.FLX_CRC_ERR_CNT, 3), (F.FLX_FEC_CORR_CNT, 3), (F.FLX_FEC_UNCORR_CNT, 3),
    (F.FLX_RETRY_CNT, 3), (F.FLX_LOSS_CNT, 3), (F.FLX_TOKEN_TX_CNT, 3), (F.FLX_TOKEN_RX_CNT, 3)] else s)

/-- FLX_RETRAIN (R427): the named ports train again; a port in STANDBY, or one that is not enabled, ignores it. -/
def execFlxRetrain (t : Nat) (value : Word) (s : State) : Res :=
  let s := s.at t
  .next (s.each [Port.east, Port.west, Port.twin] (fun s p =>
    let st := s.get P.FLX F.FLX_PORT_STAT_STATE p.idx
    if s.enabled P.FLX && bitOf value.toNat p.idx && s.portOn p && st != 3 then
      let s := if st = 2 then s.linkLoss p else s
      s.setPort p 1
    else s))

/-! ### SEAM PAIR (R430) -/

/-- Firmware major version and silicon step of this module, as a PAIR token carries them. -/
def State.fwMajor (s : State) : Nat := s.get P.CPX F.CPX_FW_VER_MAJOR

/-- Send a PAIR token once the twin port is UP, a pairing waits, and it is not sent yet (R430). -/
def State.sendPair (s : State) : State :=
  if s.get P.TWN F.TWN_STAT_STATE = T.PAIRING ∧ s.portUp .twin ∧ !s.twin.sent ∧ s.enabled P.TWN ∧ s.started then
    let s := s.sendSeam 3 (s.get P.TWN F.TWN_STAT_PRIMARY * 2 ^ 27 + s.use P.TWN F.TWN_CTL_MODE * 2 ^ 26 + s.fwMajor * 2 ^ 8 +
      Config.stepCode.toNat) (s.useReg P.TWN F.TWN_PAIR_ID.off) 0 0
    { s with twin := { s.twin with sent := true } }
  else s

/-- Whether SER_TEST has a port's lanes under test (R401): groups host, store, twin, EAST, WEST. -/
def State.portTested (s : State) (p : Port) : Bool :=
  bitOf (s.use P.SER F.SER_TEST) (match p with | .twin => 2 | .east => 3 | .west => 4)

/-- PORT_RETRAIN (R407, R425, R488): a port that trains becomes UP, or STANDBY on a cascade port while the ring is in LINE forwarding or
the neighbour holds the link in STANDBY. A link that has trained counts its flits afresh. -/
def execPortRetrain (t : Nat) (port : Port) (standby : Bool) (s : State) : Res :=
  let s := s.at t
  if !s.enabled P.FLX ∨ !s.portOn port ∨ s.portTested port ∨ s.get P.FLX F.FLX_PORT_STAT_STATE port.idx ≠ 1 then .next s
  else
    let wait := port != .twin && (standby || (s.role != C.SOLO && s.broken))
    let s := s.modFlx port (fun _ => FlxPort.empty)
    let s := s.setPort port (if wait then 3 else 2)
    .next (if port = .twin then s.sendPair else s)

/-- A new FLX_CTL (R427, R428): a port enabled starts to train, one no longer enabled goes DOWN. -/
def State.flxCopied (s : State) : State :=
  s.each [Port.east, Port.west, Port.twin] (fun s p =>
    let st := s.get P.FLX F.FLX_PORT_STAT_STATE p.idx
    if s.portOn p then (if st = 0 then s.setPort p 1 else s)
    else if st = 0 then s else (s.linkLoss p).setPort p 0)

/-- A check of the FLX page (R427). -/
def checkFLX (v : View) (p : Nat) : Nat :=
  let us := v.f p F.FLX_CTL_LOSS_US
  if us < 1 ∨ 10 < us then E.RANGE else E.NONE

end Sys2Proof.Machine
end

