-- ==== Sys2Proof/Machine/Cascade.lean ====
section
/-!
DEFINITION. The cascade ring (chapter 16): enumeration, time alignment, arming and firing over the ring, forwarded commands, ring
faults.
-/
namespace Sys2Proof.Machine

/-! ### Numbers carried modulo a power of two -/

/-- The number nearest to `near` that equals `v` modulo `m`. -/
def unwrapNear (m near v : Nat) : Nat :=
  let d := (v % m + m - near % m) % m
  if 2 * d < m then near + d else near + d - m

/-- The slot of this module that a token's aligned slot names. -/
def State.slotOf51 (s : State) (v : Nat) : Nat := s.unaligned (unwrapNear (2 ^ 51) (s.aligned s.now) v)

/-- A local stamp in aligned time, modulo 2^57. -/
def State.alignedStamp (s : State) (x : Nat) : Nat := unsx 57 ((x : Int) + 512 * s.alignOfs)

/-! ### Who is heard -/

/-- A token of a module has arrived: the module is reachable, and heard at `t` (R425). -/
def State.hear (s : State) (t : Nat) (p : Port) (k : Token) : State :=
  if p = .twin ∨ s.role = C.SOLO ∨ k.origin = s.casAddr then s
  else
    let s := s.modCas (fun c => { c with heard := (k.origin, t) :: c.heard.filter (fun e => e.1 != k.origin) })
    if bitOf s.reachMask k.origin then s
    else (s.put64 P.CAS F.CAS_REACH_LO F.CAS_REACH_HI (putBit s.reachMask k.origin true)).casShow

/-- What every token of the ring meets first: it is relayed, and its origin is heard. -/
def State.ringToken (s : State) (t : Nat) (p : Port) (k : Token) : State := (s.relay p k).hear t p k

/-- Whether a token that arrived by a port counts here: a pair's token over the twin port, a ring's token of another module. -/
def State.tokenFor (s : State) (p : Port) (k : Token) : Bool :=
  if p = .twin then s.enabled P.TWN && s.paired
  else s.enabled P.CAS && s.role != C.SOLO && k.origin != s.casAddr && (k.bcast || k.dest == s.casAddr)

/-- ANGLE_TOKEN (R416, R417). -/
def execAngleToken (t : Nat) (port : Port) (token : Token) (s : State) : Res :=
  let s := s.at t
  .next (if token.type = TK.ANGLE ∧ port ≠ .twin ∧ s.enabled P.CAS then (s.angleTok t port token).hear t port token else s)

/-! ### FIRE, MARK and RETRACT (R419 to R422, R435) -/

/-- Forget tokens that can matter no more: not provisional, before the commit point, and no candidate of the record. -/
def State.pruneRemote (s : State) : State :=
  let old (k : RemoteTok) : Bool := !s.gmb.running || decide (k.slot < 32 * s.commitPly)
  let wanted (k : RemoteTok) : Bool := s.isArmed && decide (s.acq.armSlot ≤ k.slot) && (!s.acq.committed || (k.twin && s.duplex))
  { s with remote := s.remote.filter (fun k => k.prov || !old k || wanted k) }

/-- A FIRE token as it is kept. -/
def State.readFire (s : State) (p : Port) (k : Token) : RemoteTok :=
  let w0 := k.w0.toNat
  let stamp := bits k.w1.toNat 56 0
  { twin := p == .twin, origin := k.origin, mark := bits w0 30 29 == 1, slot := s.slotOf51 (stamp / 64), seq := k.seq,
    prov := bitOf w0 31, desc := bits w0 28 13 * 2 ^ 16, stamp := stamp, segment := bits k.w2.toNat 31 0,
    commitPly := bits k.w3.toNat 45 0 }

/-- Whether a kept provisional token is the one another names. -/
def RemoteTok.named (k : RemoteTok) (twin mark : Bool) (origin seq : Nat) : Bool :=
  k.prov && k.twin == twin && k.mark == mark && k.origin == origin && k.seq == seq

/-- FIRE_TOKEN (R410, R420, R435): kept as a CASCADE or TWIN hit and a candidate; a confirmation resolves its provisional token; a
FIRE that finds no record that could take it is counted. -/
def execFireToken (t : Nat) (port : Port) (token : Token) (s : State) : Res :=
  let s := s.at t
  if token.type ≠ TK.FIRE then .next s
  else
    let use := s.tokenFor port token
    let s := s.ringToken t port token
    if !use then .next s
    else
      let k := s.readFire port token
      let confirms := !k.prov && s.remote.any (fun (q : RemoteTok) => q.named k.twin k.mark k.origin k.seq)
      let s := if k.twin then s else s.wrap P.CAS F.CAS_FIRE_RX_CNT
      let lost := !k.twin && !k.mark && !confirms && s.useB P.CAS F.CAS_CTL_FIRE_RX && (!s.isArmed || s.acq.committed)
      let s := if lost then s.sat P.CAS F.CAS_FIRE_IGN_CNT else s
      let s : State := { s with remote := s.remote.filter (fun (q : RemoteTok) => !q.named k.twin k.mark k.origin k.seq) ++ [k] }
      .next (if k.mark then s else s.retrigger).pruneRemote

/-- Withdraw received provisional tokens: a FIRE of the ring is counted, and the trigger chosen again (R422). -/
def State.withdrawRemote (s : State) (gone : RemoteTok → Bool) : State :=
  let fires := (s.remote.filter (fun k => gone k && !k.mark && !k.twin)).length
  let s : State := { s with remote := s.remote.filter (fun k => !gone k) }
  (s.sat P.CAS F.CAS_RETRACT_RX_CNT fires).retrigger

/-- RETRACT_TOKEN (R422). -/
def execRetractToken (t : Nat) (port : Port) (token : Token) (s : State) : Res :=
  let s := s.at t
  if token.type ≠ TK.RETRACT then .next s
  else
    let use := s.tokenFor port token
    let s := s.ringToken t port token
    let w := token.w0.toNat
    .next (if use then (s.withdrawRemote (fun (q : RemoteTok) => q.named (port == .twin) (bits w 9 8 == 1) token.origin (bits w 7 0))).pruneRemote
      else s)

/-! ### PROGRESS (R410, R433) -/

/-- PROGRESS_SEND (R410, R433): every 64 plies, the commit point or the live ply if earlier, in aligned time. -/
def execProgressSend (t : Nat) (s : State) : Res :=
  let s := s.at t
  if t / 32 % 64 ≠ 0 then .next s
  else
    let live := t / 32
    let ply := if s.gmb.running then Nat.min s.commitPly live else live
    let t1 := s.aligned (32 * ply) * 64 % 2 ^ 57
    let s := s.broadcast TK.TIME 0 t1 0 0
    .next (if s.paired then s.sendTwin TK.TIME 0 t1 0 0 else s)

/-- PROGRESS_TOKEN (R410, R433): a module undertakes that no further token of it concerns a slot before T1. -/
def execProgressToken (t : Nat) (port : Port) (token : Token) (s : State) : Res :=
  let s := s.at t
  if token.type ≠ TK.TIME ∨ bits token.w0.toNat 31 30 ≠ 0 then .next s
  else
    let use := s.tokenFor port token
    let s := s.ringToken t port token
    if !use then .next s
    else
      let x := s.slotOf51 (bits token.w1.toNat 56 0 / 64)
      let s := if port = .twin then { s with twinProg := x }
        else { s with casProg := (token.origin, x) :: s.casProg.filter (fun e => e.1 != token.origin) }
      .next s.settleTrigger.pruneRemote

/-! ### Arming and stopping (R418, R434) -/

/-- ARM_TOKEN (R418, R434): a member, or the secondary of a pair outside a cascade, runs the arming checks and answers with an ACK. -/
def execArmToken (t : Nat) (port : Port) (token : Token) (s : State) : Res :=
  let s := s.at t
  if token.type ≠ TK.ARM ∨ bits token.w0.toNat 31 30 ≠ 0 then .next s
  else
    let use := if port = .twin then s.enabled P.TWN && s.armIgnored else s.tokenFor port token && s.role == C.MEMBER
    let s := s.ringToken t port token
    if !use ∨ !s.started then .next s
    else
      let named := s.plyFromAligned (unwrapNear (2 ^ 51) (s.aligned s.now) (bits token.w1.toNat 50 0))
      let late := decide (named ≤ t)
      let slot := if late then nextPly t else named
      let answer (s : State) (late : Bool) (result cause : Nat) : State :=
        let low := 2 ^ 30 + b2n late * 2 ^ 29 + result * 2 ^ 16 + cause * 2 ^ 8
        if port = .twin then s.sendTwin TK.ARM low (slot51 (s.aligned slot)) 0 0
        else s.sendTo TK.ARM token.origin low (slot51 (s.aligned slot)) 0 0
      if s.isArmed ∨ s.acq.armAt.isSome then
        .next (answer (s.put P.ACQ F.ACQ_ARM_STATUS_RESULT 5) false 5 0)
      else
        let (s, bad) := s.tryArm slot
        match bad with
        | some (c, _) => .next (answer s false 4 c)
        | none => .next (answer (if late ∧ port ≠ .twin then s.sat P.CAS F.CAS_ARM_LATE_CNT else s) late 0 0)

/-- ARM_ACK (R418): at the root, a member that refused is marked in CAS_ARM_FAIL. A twin's answer leaves the primary as it is (R434). -/
def execArmAck (t : Nat) (port : Port) (token : Token) (s : State) : Res :=
  let s := s.at t
  if token.type ≠ TK.ARM ∨ bits token.w0.toNat 31 30 ≠ 1 then .next s
  else
    let use := port != .twin && s.tokenFor port token && s.role == C.ROOT
    let s := s.ringToken t port token
    .next (if use ∧ bits token.w0.toNat 23 16 ≠ 0 then
      (s.put64 P.CAS F.CAS_ARM_FAIL_LO F.CAS_ARM_FAIL_HI
        (putBit (s.get64 P.CAS F.CAS_ARM_FAIL_LO F.CAS_ARM_FAIL_HI) token.origin true)).pulse P.CAS 4
    else s)

/-- STOP_TOKEN (R418, R434): the record stops at the ply start the token names, or at the next one. -/
def execStopToken (t : Nat) (port : Port) (token : Token) (s : State) : Res :=
  let s := s.at t
  if token.type ≠ TK.STOP then .next s
  else
    let use := if port = .twin then s.enabled P.TWN && s.armIgnored else s.tokenFor port token
    let s := s.ringToken t port token
    let named := s.plyFromAligned (unwrapNear (2 ^ 51) (s.aligned s.now) (bits token.w1.toNat 50 0))
    .next (if use then s.stopAt (Nat.max named (nextPly t)) else s)

/-! ### Enumeration (R411 to R413) -/

/-- Whether a port carries a wave: UP, or STANDBY until the enumeration completes. -/
def State.waveLink (s : State) (p : Port) : Bool :=
  s.enabled P.FLX && s.portOn p && decide (2 ≤ s.get P.FLX F.FLX_PORT_STAT_STATE p.idx)

/-- Kinds of a REG token that enumerate (table `Token layouts`). -/
abbrev RK.READ : Nat := 0
abbrev RK.WRITE : Nat := 1
abbrev RK.RESP : Nat := 2
abbrev RK.ENUM : Nat := 3
abbrev RK.VERIFY : Nat := 4
abbrev RK.END : Nat := 5
abbrev RK.READY : Nat := 6
abbrev RK.LINK_LOSS : Nat := 7

def Token.regKind (k : Token) : Nat := bits k.w0.toNat 31 28

/-- Fields of word 1 of a wave: NEXT, EAST_COUNT, WEST_COUNT, CONFLICT, OVER. -/
structure Wave where
  next : Nat
  east : Nat
  west : Nat
  conflict : Bool
  tooMany : Bool
  deriving DecidableEq, Repr

def Token.wave (k : Token) : Wave :=
  let w := k.w1.toNat
  { next := bits w 5 0, east := bits w 13 8, west := bits w 21 16, conflict := bitOf w 24, tooMany := bitOf w 25 }

/-- Send a wave token out of a port. -/
def State.sendWave (s : State) (p : Port) (kind : Nat) (w : Wave) : State :=
  if s.waveLink p then
    (s.putToken p (s.mkToken TK.REG 0 false (kind * 2 ^ 28)
      (w.next % 64 + w.east * 2 ^ 8 + w.west * 2 ^ 16 + b2n w.conflict * 2 ^ 24 + b2n w.tooMany * 2 ^ 25) 0 0)).bumpSeq TK.REG
  else s

/-- Whether the ROOT strap is high. -/
def State.rootStrap (s : State) : Bool := s.getB P.GLB F.GLB_STRAP_ROOT

/-- An enumeration's command ends (R411 to R413). -/
def State.enumOp (s : State) (status result : Nat) : State :=
  let s := match s.cas.op with
    | some id => (s.modOp id (fun o => { o with result := result })).endOp id status
    | none => s
  s.modCas (fun c => { c with op := none, step := 0, probing := [] })

/-- The run fails: every address is cleared, the root is SOLO (R412). -/
def State.enumFail (s : State) (cause count : Nat) : State :=
  let s := s.setReg P.CAS F.CAS_STAT.off (b2n (cause == 3) * 2 ^ 24)
  let s := s.put P.CAS F.CAS_ENUM_STAT_CAUSE cause
  let s := s.put64 P.CAS F.CAS_REACH_LO F.CAS_REACH_HI 0
  (((s.pulse P.CAS 3).enumOp ST.CHECK_FAIL count).casShow).retrigger

/-- Send PROBEs on a port (R414): T1 is this module's aligned time at sending. -/
def State.sendProbe (s : State) (p : Port) (stamp : Nat) : State :=
  if s.waveLink p then
    (s.putToken p (s.mkToken TK.TIME 0 false (2 ^ 30) (s.alignedStamp stamp) 0 0)).bumpSeq TK.TIME
  else s

/-- This module, aligned, begins to probe its neighbour on a port. -/
def State.startProbe (s : State) (p : Port) (t : Nat) : State :=
  if !s.waveLink p then s
  else
    let s := s.modCas (fun c => { c with
      probing := p :: c.probing.filter (fun q => q != p), sums := lmod c.sums p.idx (fun _ => (0, 0)) })
    s.sendProbe p (64 * t)

/-- Both waves are done: the count is checked, then the root aligns time outward (R411 to R414). -/
def State.wavesDone (s : State) (t west : Nat) (tooMany : Bool) : State :=
  let s := s.put P.CAS F.CAS_ENUM_STAT_WEST_COUNT west
  let count := 1 + s.get P.CAS F.CAS_ENUM_STAT_EAST_COUNT + west
  let c := s.cas
  if tooMany then s.enumFail 2 count
  else if c.closed ∧ west ≠ 0 then s.enumFail 4 count
  else if c.expect ≠ 0 ∧ c.expect ≠ count then s.enumFail 1 count
  else
    let s := (s.put P.CAS F.CAS_STAT_COUNT count).putB P.CAS F.CAS_STAT_BROKEN (!c.closed)
    let s := (s.putB P.CAS F.CAS_STAT_ALIGNED true).put P.CAS F.CAS_ALIGN_RES 0
    let s := s.put64 P.TIME F.TIME_ALIGN_OFS_LO F.TIME_ALIGN_OFS_HI 0
    let s := s.modCas (fun c => { c with step := 3 })
    ((s.startProbe .east t).startProbe .west t).casShow

/-- The west wave begins (R411 step 5), or there is no link for it. -/
def State.westWave (s : State) (t east : Nat) (closed tooMany : Bool) : State :=
  let s := s.put P.CAS F.CAS_ENUM_STAT_EAST_COUNT east
  let s := s.modCas (fun c => { c with closed := closed, step := 2 })
  if tooMany then s.enumFail 2 (1 + east)
  else if s.waveLink .west then s.sendWave .west RK.VERIFY { next := 63, east := east, west := 0, conflict := false, tooMany := false }
  else s.wavesDone t 0 false

/-- The root begins to enumerate (R404, R411): NO_PORT without a trained cascade port. -/
def State.enumStart (s : State) (t : Nat) (op : Option Nat) (expect : Nat) : State :=
  let s := s.modCas (fun c => { c with op := op, expect := expect, closed := false, since := t, probing := [], step := 1 })
  let s := s.setReg P.CAS F.CAS_ENUM_STAT.off 0
  if !s.waveLink .east ∧ !s.waveLink .west then s.enumFail 5 1
  else
    let s := (s.put P.CAS F.CAS_STAT_ADDR 0).putB P.CAS F.CAS_STAT_READY false
    let s := ((s.putB P.CAS F.CAS_STAT_ENUM_BUSY true).putB P.CAS F.CAS_STAT_ROOT_CONFLICT false).casShow
    if s.waveLink .east then s.sendWave .east RK.ENUM { next := 1, east := 0, west := 0, conflict := false, tooMany := false }
    else s.westWave t 0 false false

/-- Hops from this module to the farthest one (CAS_ENUM_STAT.FAR_HOPS). -/
def State.farHops (s : State) : Nat :=
  let count := s.get P.CAS F.CAS_STAT_COUNT
  if !s.broken then count - 1
  else
    let east := s.get P.CAS F.CAS_ENUM_STAT_EAST_COUNT
    let west := count - 1 - east
    let a := s.casAddr
    let pos := if a ≤ east then west + a else west - (64 - a)
    Nat.max pos (count - 1 - pos)

/-- CAS_READY here (R413): role, reach, ports that stood by; the count and BROKEN stand. -/
def State.beReady (s : State) (t role : Nat) : State :=
  let s := (s.putB P.CAS F.CAS_STAT_READY true).put P.CAS F.CAS_STAT_ROLE role
  let s := s.putB P.CAS F.CAS_STAT_ENUM_BUSY false
  let m := s.ringModules
  let s := s.put64 P.CAS F.CAS_REACH_LO F.CAS_REACH_HI m
  let s := s.modCas (fun c => { c with heard := ((List.range 64).filter (bitOf m)).map (fun a => (a, t)) })
  let s := s.put P.CAS F.CAS_ENUM_STAT_FAR_HOPS s.farHops
  let s := s.each [Port.east, Port.west] (fun s p => if s.get P.FLX F.FLX_PORT_STAT_STATE p.idx = 3 then s.setPort p 2 else s)
  s.casShow

/-- The root sends READY with the count, and is ready itself (R413). -/
def State.sendReady (s : State) (t : Nat) : State :=
  let count := s.get P.CAS F.CAS_STAT_COUNT
  let k := s.mkToken TK.REG 0 true (RK.READY * 2 ^ 28) (count + b2n s.broken * 2 ^ 8) 0 0
  let ports := if s.broken then [Port.east, Port.west] else [Port.east]
  let s := (s.each ports (fun s p => if s.waveLink p then s.putToken p k else s)).bumpSeq TK.REG
  (((s.beReady t C.ROOT).pulse P.CAS 2).enumOp ST.OK count).retrigger

/-- ENUMERATE (R381, R411): BAD_PARAM without the ROOT strap (at admission), BUSY while a module of the ring is ARMED (`others`: another
one is). The command completes when the run ends. -/
def execEnumerate (t : Nat) (r : OpRef) (others : Bool) (s : State) : Res :=
  match (s.at t).claim t OP.ENUMERATE r with
  | none => .next (s.at t)
  | some (s, o) =>
    if s.cas.op = some o.id then .next s
    else if s.isArmed ∨ others ∨ s.cas.step ≠ 0 then .next (s.endOp o.id ST.BUSY)
    else .next (s.enumStart t (some o.id) (o.par 0 1))

/-- A strapped root refuses a wave that is not its own (R404). -/
def State.refuseWave (s : State) (p : Port) (w : Wave) : State :=
  (s.putB P.CAS F.CAS_STAT_ROOT_CONFLICT true).sendWave p RK.END { w with conflict := true }

/-- A member takes an address (R405, R411). -/
def State.takeAddress (s : State) (a : Nat) : State :=
  let s := (s.put P.CAS F.CAS_STAT_ADDR a).putB P.CAS F.CAS_STAT_ALIGNED false
  s.putB P.CAS F.CAS_STAT_HINT_MISMATCH (s.useB P.CAS F.CAS_CTL_HINT_CHK && a != s.get P.GLB F.GLB_STRAP_ADDR_HINT)

/-- The counts a wave carries, as the latest enumeration shows them. -/
def State.waveCounts (s : State) (w : Wave) : State :=
  (s.put P.CAS F.CAS_ENUM_STAT_EAST_COUNT w.east).put P.CAS F.CAS_ENUM_STAT_WEST_COUNT w.west

/-- ENUM (R411): at the enumerating root's WEST port the ring is whole; another strapped root refuses; a member takes NEXT and sends the
wave on, or END back where its EAST link is down or addresses have run out. -/
def execEnumWave (t : Nat) (port : Port) (token : Token) (s : State) : Res :=
  let s := s.at t
  let w := token.wave
  if token.type ≠ TK.REG ∨ token.regKind ≠ RK.ENUM ∨ port = .twin ∨ !s.enabled P.CAS ∨ !s.started then .next s
  else if s.rootStrap then
    .next (if s.cas.step = 1 ∧ port = .west then s.westWave t w.east true false else s.refuseWave port w)
  else if port ≠ .west then .next s
  else if w.next = 0 then .next (s.sendWave .west RK.END { w with tooMany := true })
  else
    let w' := { w with next := w.next + 1, east := w.east + 1 }
    let s := (s.takeAddress w.next).waveCounts w'
    .next (if s.waveLink .east then s.sendWave .east RK.ENUM w' else s.sendWave .west RK.END w')

/-- ENUM_VERIFY (R411): back at the root's EAST port the west wave is done; a member that holds an address forwards it, one that holds
none takes NEXT; END goes back where its WEST link is down or an address is reached that the east wave gave. -/
def execEnumVerify (t : Nat) (port : Port) (token : Token) (s : State) : Res :=
  let s := s.at t
  let w := token.wave
  if token.type ≠ TK.REG ∨ token.regKind ≠ RK.VERIFY ∨ port = .twin ∨ !s.enabled P.CAS ∨ !s.started then .next s
  else if s.rootStrap then
    .next (if s.cas.step = 2 ∧ port = .east then s.wavesDone t w.west false else s.refuseWave port w)
  else if port ≠ .east then .next s
  else
    let holds := s.casAddr != 0 && decide (s.casAddr ≤ w.east)
    if !holds ∧ w.next ≤ w.east then .next (s.sendWave .east RK.END { w with tooMany := true })
    else
      let w' := if holds then w else { w with next := w.next - 1, west := w.west + 1 }
      let s := if holds then s else s.takeAddress w.next
      let s := s.waveCounts w'
      .next (if s.waveLink .west then s.sendWave .west RK.VERIFY w' else s.sendWave .east RK.END w')

/-- An END token (R411): at the root it ends a wave; elsewhere it goes on toward the root. -/
def State.endToken (s : State) (t : Nat) (port : Port) (token : Token) : State :=
  let w := token.wave
  if s.rootStrap then
    if w.conflict ∧ (s.cas.step = 1 ∨ s.cas.step = 2) then s.enumFail 3 (1 + w.east + w.west)
    else if s.cas.step = 1 ∧ port = .east then s.westWave t w.east false w.tooMany
    else if s.cas.step = 2 ∧ port = .west then s.wavesDone t w.west w.tooMany
    else s
  else (s.waveCounts w).sendWave port.onward RK.END w

/-- END (R411): a wave's counts travel back to the root. -/
def execEndWave (t : Nat) (port : Port) (token : Token) (s : State) : Res :=
  let s := s.at t
  .next (if token.type = TK.REG ∧ token.regKind = RK.END ∧ !token.wave.conflict ∧ port ≠ .twin ∧ s.enabled P.CAS ∧ s.started then
    s.endToken t port token else s)

/-- ROOT_CONFLICT (R411): the answer of another strapped root, an END with CONFLICT set, fails the run at the root. -/
def execRootConflict (t : Nat) (port : Port) (token : Token) (s : State) : Res :=
  let s := s.at t
  .next (if token.type = TK.REG ∧ token.regKind = RK.END ∧ token.wave.conflict ∧ port ≠ .twin ∧ s.enabled P.CAS ∧ s.started then
    s.endToken t port token else s)

/-- READY (R404, R413): a member whose ROOT strap is low takes its role; the token goes on. -/
def execReady (t : Nat) (port : Port) (token : Token) (s : State) : Res :=
  let s := s.at t
  if token.type ≠ TK.REG ∨ token.regKind ≠ RK.READY ∨ port = .twin ∨ !s.enabled P.CAS ∨ s.rootStrap ∨ !s.started then .next s
  else
    let w := token.w1.toNat
    let s := (s.put P.CAS F.CAS_STAT_COUNT (bits w 6 0)).putB P.CAS F.CAS_STAT_BROKEN (bitOf w 8)
    .next (((s.beReady t C.MEMBER).relay port token).retrigger)

/-- ENUM_READY_TIMEOUT (R413): every member's CASCADE loop runs (`ran`), or 100 ms have passed; the root sends READY. -/
def execEnumReadyTimeout (t : Nat) (ran : Bool) (s : State) : Res :=
  let s := s.at t
  .next (if s.cas.step = 4 ∧ (ran ∨ s.cas.since + msSlots 100 ≤ t) then s.sendReady t else s)

/-! ### Time alignment (R414, R415, R433) -/

/-- PROBE (R414): answered with T2, its arrival, and T3, the reply's sending, in this module's local time in stamp steps. -/
def execProbe (stamp : Nat) (port : Port) (token : Token) (sent : Nat) (s : State) : Res :=
  let s := s.at (stamp / 64)
  if token.type ≠ TK.TIME ∨ bits token.w0.toNat 31 30 ≠ 1 ∨ !s.waveLink port then .next s
  else
    .next ((s.putToken port (s.mkToken TK.TIME 0 false (2 ^ 31) (bits token.w1.toNat 56 0) (stamp % 2 ^ 57) (sent % 2 ^ 57))).bumpSeq TK.TIME)

/-- Link asymmetry of a port (R414); the twin link is symmetric (R433). -/
def State.asym (s : State) (p : Port) : Int :=
  match p with
  | .east => sx 32 (s.useReg P.CAS F.CAS_ASYM_E.off)
  | .west => sx 32 (s.useReg P.CAS F.CAS_ASYM_W.off)
  | .twin => 0

/-- REPLY (R414): `stamp` is its arrival in local time; the prober takes d and θ, and probes again. -/
def execReply (stamp : Nat) (port : Port) (token : Token) (s : State) : Res :=
  let s := s.at (stamp / 64)
  if token.type ≠ TK.TIME ∨ bits token.w0.toNat 31 30 ≠ 2 ∨ !s.cas.probing.contains port then .next s
  else
    let t1 := bits token.w1.toNat 56 0
    let t2 := bits token.w2.toNat 56 0
    let t3 := bits token.w3.toNat 56 0
    let t4 := s.alignedStamp stamp
    let span (a b : Nat) : Int := sx 57 ((b + 2 ^ 57 - a) % 2 ^ 57)
    let d := fdiv (span t1 t4 - span t2 t3) 2 + s.asym port
    let theta := sx 57 (unsx 57 ((t2 : Int) - (t1 + d)))
    let s := s.modCas (fun c => { c with sums := lmod c.sums port.idx (fun e => (e.1 + 1, e.2 + theta)) })
    .next (s.sendProbe port stamp)

/-- TIME_ALIGN_OFS and CAS_ALIGN_RES from the mean θ of a window (R414). -/
def alignFrom (theta : Int) : Int × Nat :=
  let ofs := -(fdiv theta 512)
  (ofs, (ofs * 512 + theta).toNat)

/-- ALIGN_WINDOW_END (R414, R433): with `theta`, the module that was probed on the port takes its offset and probes its own onward
neighbour; without, this module's own probing on the port ends, and with `last` the alignment of the ring is done. -/
def execAlignWindowEnd (t : Nat) (port : Port) (theta : Option Int) (last : Bool) (s : State) : Res :=
  let s := s.at t
  match theta with
  | none =>
    let s := s.modCas (fun c => { c with probing := c.probing.filter (fun q => q != port) })
    let s := if port = .twin then { s with twin := { s.twin with timed := true } } else s
    .next (if last ∧ s.cas.step = 3 then s.modCas (fun c => { c with step := 4, since := t }) else s)
  | some x =>
    let ring := port != .twin && !s.rootStrap && s.casAddr != 0 && !s.getB P.CAS F.CAS_STAT_ALIGNED
    let pair := port == .twin && s.paired && s.role == C.SOLO && !s.getB P.TWN F.TWN_STAT_PRIMARY
    if !ring ∧ !pair then .next s
    else
      let (ofs, res) := alignFrom x
      let s := s.put64 P.TIME F.TIME_ALIGN_OFS_LO F.TIME_ALIGN_OFS_HI (unsx 48 ofs)
      let s := (s.put P.CAS F.CAS_ALIGN_RES res).putB P.CAS F.CAS_STAT_ALIGNED true
      .next (if pair then { s with twin := { s.twin with timed := true } } else s.startProbe port.onward t)

/-- ALIGN_VERIFY (R415, R433): the deviation of the module's aligned time from its west neighbour's, or from its twin's. -/
def execAlignVerify (t : Nat) (port : Port) (dev : Int) (s : State) : Res :=
  let s := s.at t
  let on := s.use P.CAS F.CAS_ALIGN_CFG_VERIFY_MS != 0 && s.portUp port
  let dev := satS 32 dev
  let verify (s : State) : State :=
    (s.putToken port (s.mkToken TK.TIME 0 false (3 * 2 ^ 30) (s.alignedStamp (64 * t)) 0 0)).bumpSeq TK.TIME
  .next (match port with
  | .twin => if on ∧ s.paired then (verify s).setReg P.TWN F.TWN_ALIGN_DEV.off (unsx 32 dev) else s
  | .west =>
    if on ∧ s.getB P.CAS F.CAS_STAT_ALIGNED ∧ s.role ≠ C.SOLO then
      let s := (verify s).setReg P.CAS F.CAS_ALIGN_DEV.off (unsx 32 dev)
      s.level P.CAS 6 (decide (s.use P.CAS F.CAS_ALIGN_CFG_DEV_TOL < dev.natAbs))
    else s
  | .east => s)

/-! ### Ring faults (R425) -/

/-- LINK_LOSS_TOKEN (R425): LINE forwarding and BROKEN, then on out of the other port. -/
def execLinkLossToken (t : Nat) (port : Port) (token : Token) (s : State) : Res :=
  let s := s.at t
  .next (if token.type = TK.REG ∧ token.regKind = RK.LINK_LOSS ∧ s.tokenFor port token ∧ port ≠ .twin then
    s.setBroken.ringToken t port token else s)

/-- REACH_TIMEOUT (R422, R425): a module not heard for REACH_US leaves CAS_REACH; its unresolved FIREs are withdrawn, and commands
forwarded to it complete with REMOTE_UNREACHABLE (R378). -/
def execReachTimeout (t : Nat) (m : Fin 64) (s : State) : Res :=
  let s := s.at t
  let quiet : Bool := match s.cas.heard.lookup m.val with
    | some x => decide (x + usSlots (s.use P.CAS F.CAS_CTL_REACH_US) ≤ t)
    | none => true
  if s.role = C.SOLO ∨ !s.enabled P.CAS ∨ m.val = s.casAddr ∨ !bitOf s.reachMask m.val ∨ !quiet then .next s
  else
    let s := (s.put64 P.CAS F.CAS_REACH_LO F.CAS_REACH_HI (putBit s.reachMask m.val false)).casShow
    let s := s.withdrawRemote (fun k => k.prov && !k.twin && k.origin == m.val)
    let gone (o : HostOp) : Bool := o.from_.isNone && o.target == m.val && !s.runsHere o && !o.ended
    .next ((s.modHost (fun h => { h with
      ops := h.ops.map (fun o => if gone o then { o with phase := .ended ST.UNREACHABLE } else o) })).cmdShow)

/-! ### Forwarded commands (R424) -/

/-- FORWARDED_COMMAND (R424): a CMD flit for another module goes on along the ring; a command for this one is admitted while its pool
has room (R23); a completion ends the command that was sent. `words` are the flit's: eight of a command, two of a completion. -/
def execForwardedCommand (t : Nat) (port : Port) (dst src : BitVec 6) (ring : Fin 16) (tag : BitVec 16) (completion : Bool)
    (words : List Word64) (s : State) : Res :=
  if words.length ≠ (if completion then 2 else 8) then .fault .illFormed
  else
    let s := s.at t
    if s.role = C.SOLO ∨ port = .twin ∨ !s.enabled P.CAS then .next s
    else if dst.toNat ≠ s.casAddr then
      let on := if s.broken then port.onward else .east
      .next (if src.toNat ≠ s.casAddr ∧ s.portUp on then s.sendFlit on (.cmdFlit on dst.toNat ring.val tag.toNat completion words) else s)
    else if completion then
      match s.host.ops.find? (fun o => o.from_.isNone && o.ring == ring.val && o.tag == tag.toNat && o.target == src.toNat && !o.ended) with
      | none => .next s
      | some o =>
        let st := bits ((words.headD 0).toNat) 23 16
        .next ((s.modOp o.id (fun o => { o with result := (words.getD 1 0).toNat, phase := .ended st })).cmdShow)
    else if 4096 ≤ s.poolUsed then .next s
    else .next (State.promote 64 (s.takeIn ring.val (some src.toNat) (words.flatMap (fun w => leBytes 8 w.toNat)))).cmdShow

/-- CAS_CLR (R426): clears the eight counters. -/
def execCasClr (value : Word) (s : State) : Res :=
  .next (if bitOf value.toNat 0 then s.clearAll P.CAS [(F.CAS_FIRE_TX_CNT, 1), (F.CAS_FIRE_RX_CNT, 1), (F.CAS_FIRE_YIELD_CNT, 1),
    (F.CAS_FIRE_IGN_CNT, 1), (F.CAS_RETRACT_RX_CNT, 1), (F.CAS_ARM_LATE_CNT, 1), (F.CAS_ANG_ADJ_CNT, 1), (F.CAS_RWIN_ERR_CNT, 1)]
  else s)

/-- A check of the CAS page (R426, R428). -/
def checkCAS (v : View) (p g : Nat) : Nat :=
  match g with
  | 0 => if 64 < v.f p F.CAS_EXPECT ∨ v.f p F.CAS_CTL_ARM_LEAD < 8 ∨ v.f p F.CAS_CTL_REACH_US = 0 then E.RANGE else E.NONE
  | 1 => if v.f p F.CAS_RWIN_CFG_RWIN_TIMEOUT = 0 then E.RANGE else E.NONE
  | 2 => if v.f p F.CAS_ALIGN_CFG_ALIGN_MS = 0 then E.RANGE else E.NONE
  | _ => E.NONE

end Sys2Proof.Machine
end

