-- ==== Sys2Proof/Machine/Twin.lean ====
section
/-!
DEFINITION. The twin (R429 to R443): pairing, DUPLEX at a seam span boundary, summaries, thinning from the primary, SAFE and DETACH.
-/
namespace Sys2Proof.Machine

def State.twinState (s : State) : Nat := s.get P.TWN F.TWN_STAT_STATE
def State.primary (s : State) : Bool := s.getB P.TWN F.TWN_STAT_PRIMARY

/-- Kind of a SEAM token (table `SEAM token`). -/
def Token.seamKind (k : Token) : Nat := bits k.w0.toNat 31 28

/-- A TWIN_RESYNC under way ends (R443). -/
def State.resyncEnd (s : State) (status result : Nat) : State :=
  match s.twin.resync with
  | none => s
  | some id =>
    let s := (s.modOp id (fun o => { o with result := result })).endOp id status
    s.modTwin (fun q => { q with resync := none })

/-! ### Pairing (R430) -/

/-- Why pairing with a partner fails: the first cause of the table `Twin states and pairing causes`; 0 when it does not. -/
def State.pairCause (s : State) (k : Token) : Nat :=
  let w := k.w0.toNat
  if bitOf w 27 = s.primary then 1
  else if bits w 15 8 ≠ s.fwMajor ∨ bits w 7 0 ≠ Config.stepCode.toNat then 2
  else if bits k.w1.toNat 31 0 ≠ s.useReg P.TWN F.TWN_PAIR_ID.off then 3 else 0

/-- Pairing fails with a cause. -/
def State.pairFail (s : State) (cause : Nat) : State :=
  (((s.put P.TWN F.TWN_STAT_CAUSE cause).setTwin T.FAILED).pulse P.TWN 4).resyncEnd ST.CHECK_FAIL cause

/-- The partner's undertakings begin afresh. -/
def State.noProgress (s : State) : State := { s with twinProg := 0 }

/-- Nothing summed, received or agreed: comparison begins afresh (R439). -/
def State.noSums (s : State) : State := { s with seams := [], seamIn := [], seamAgreed := [] }

/-- Both sides pair (R430): TWN_PARTNER shows the other, whose undertakings begin afresh. -/
def State.pairOk (s : State) (origin w : Nat) : State :=
  let s := s.setReg P.TWN F.TWN_PARTNER.off (2 ^ 31 + origin * 2 ^ 24 + bits w 15 0)
  let s := (s.put P.TWN F.TWN_STAT_CAUSE 0).setTwin T.PAIRED
  s.noProgress.retrigger

/-- Judge the partner's PAIR token once this side's is sent (R430). In a pair outside a cascade that both want DUPLEX, the primary begins
to align the secondary (R433). -/
def State.pairUp (s : State) (t : Nat) : State :=
  match s.twin.kept with
  | none => s
  | some k =>
    if s.twinState ≠ T.PAIRING ∨ !s.twin.sent then s
    else
      let w := k.w0.toNat
      let s := s.modTwin (fun q => { q with kept := none, asked := bitOf w 26, timed := false, partnerSafe := false })
      let cause := s.pairCause k
      if cause ≠ 0 then s.pairFail cause
      else
        let s := s.pairOk k.origin w
        if s.useB P.TWN F.TWN_CTL_MODE ∧ s.twin.asked ∧ s.role = C.SOLO ∧ s.primary then s.startProbe .twin t else s

/-- Begin to pair (R430). -/
def State.startPairing (s : State) (t : Nat) : State :=
  let s := (s.put P.TWN F.TWN_STAT_CAUSE 0).setTwin T.PAIRING
  let s := s.modTwin (fun q => { q with since := t, sent := false, timed := false, detach := false, maskDue := false })
  s.sendPair.pairUp t

/-- PAIR (R430, R488): judged where a pairing waits; a side that is PAIRED, in DUPLEX or ALONE answers with its own and stays as it is. -/
def execPair (t : Nat) (token : Token) (s : State) : Res :=
  let s := s.at t
  if token.type ≠ TK.SEAM ∨ token.seamKind ≠ 3 ∨ !s.enabled P.TWN ∨ !s.useB P.TWN F.TWN_CTL_EN then .next s
  else
    let st := s.twinState
    if st = T.PAIRED ∨ st = T.DUPLEX ∨ st = T.ALONE then
      let low := b2n s.primary * 2 ^ 27 + s.use P.TWN F.TWN_CTL_MODE * 2 ^ 26 + s.fwMajor * 2 ^ 8 + Config.stepCode.toNat
      let s := s.modTwin (fun q => { q with asked := bitOf token.w0.toNat 26 })
      .next (s.sendSeam 3 low (s.useReg P.TWN F.TWN_PAIR_ID.off) 0 0)
    else
      let s := s.modTwin (fun q => { q with kept := some token })
      .next (s.sendPair.pairUp t)

/-- NO_LINK (R430): the twin port was not UP within 1 s. -/
def execNoLink (t : Nat) (s : State) : Res :=
  let s := s.at t
  .next (if s.enabled P.TWN ∧ s.twinState = T.PAIRING ∧ !s.portUp .twin ∧ s.twin.since + msSlots 1000 ≤ t then s.pairFail 4 else s)

/-- A new TWN_CTL (R430): EN = 0 leads to OFF, after DETACH from a pair; EN = 1 after 0 starts pairing afresh. -/
def State.twinCopied (s : State) (t : Nat) (was : Bool) : State :=
  let on := s.useB P.TWN F.TWN_CTL_EN
  if was && !on then
    let s := if s.paired then s.sendSeam 4 0 0 0 0 else s
    let s := (s.goAlone.setTwin T.OFF).put P.TWN F.TWN_STAT_CAUSE 0
    ((s.modTwin (fun _ => TwinState.empty)).resyncEnd ST.CHECK_FAIL 0).retrigger
  else if !was && on && s.started then s.startPairing t
  else s

/-! ### TWIN_RESYNC (R443) -/

/-- TWIN_RESYNC (R443): pairing is repeated, time realigned, the primary's steps named, and comparison resumes at the next seam span
boundary, where the command completes. A stitch that finds it under way lets it wait. -/
def execTwinResync (t : Nat) (r : OpRef) (s : State) : Res :=
  match (s.at t).claim t OP.RESYNC r with
  | none => .next (s.at t)
  | some (s, o) =>
    if s.twin.resync = some o.id then .next s
    else if !s.useB P.TWN F.TWN_CTL_EN ∨ !s.useB P.TWN F.TWN_CTL_MODE then .next (s.endOp o.id ST.BAD_PARAM)
    else if !s.portUp .twin ∨ s.run = .safe ∨ s.twin.partnerSafe ∨ s.twin.resync.isSome ∨ !s.enabled P.TWN then .next (s.endOp o.id ST.BUSY)
    else if s.twinState = T.DUPLEX then
      .next ((s.modOp o.id (fun o => { o with result := s.get P.TWN F.TWN_STAT_SPAN })).endOp o.id ST.OK)
    else
      let s := (s.putB P.TWN F.TWN_STAT_MASKED false).modTwin (fun q => { q with resync := some o.id })
      .next (s.startPairing t)

/-! ### Seam spans (R431, R438 to R442) -/

/-- Whether the pair's time agrees (R433): by its own alignment outside a cascade, by the ring's in one. -/
def State.timeAgrees (s : State) : Bool :=
  if s.role = C.SOLO then s.twin.timed else s.getB P.CAS F.CAS_STAT_ALIGNED

/-- Whether a pair enters DUPLEX at the next span boundary (R431). -/
def State.duplexDue (s : State) : Bool :=
  s.twinState == T.PAIRED && s.useB P.TWN F.TWN_CTL_MODE && s.twin.asked && s.timeAgrees && s.run != .safe && !s.twin.partnerSafe

/-- Enter DUPLEX (R431, R437, R443): the primary names its present thinning steps, which the secondary adopts; comparison begins. -/
def State.enterDuplex (s : State) (t : Nat) : State :=
  let s := s.setTwin T.DUPLEX
  let s := s.noSums
  let s := if s.primary then
      s.each (List.range 10) (fun s i =>
        let at_ := s.gridPoint i (s.thinStep (thinStream i)) t % 2 ^ 80
        s.sendSeam 1 (i * 2 ^ 16 + s.thinStep (thinStream i) * 2 ^ 8) (slot51 (s.aligned at_)) 0 0)
    else s.each (List.range 10) (fun s i => s.putB P.ACQT F.ACQ_THIN_STAT_FROM_TWIN true i)
  (s.resyncEnd ST.OK (s.get P.TWN F.TWN_STAT_SPAN)).retrigger

/-- Send the summary of a stream's span (R438), marked SKIP where R439 asks for it. -/
def State.sendSummary (s : State) (sid finish : Nat) : State :=
  let x := s.ownSum sid finish
  let skip := x.skip || !s.recording sid || !(s.stream sid).gaps.isEmpty || s.twinDeviates
  let x := { x with skip := skip }
  let s : State := { s with seams := x :: s.seams.filter (fun q => !(q.stream == sid && q.finish == finish)) }
  s.sendSeam 0 (b2n skip * 2 ^ 24 + sid * 2 ^ 16 + s.spanNumber finish) (x.a % 2 ^ 32 * 2 ^ 32 + x.b % 2 ^ 32) (unsx 64 x.c)
    (slot51 (8 * finish))

/-- SEAM_SPAN_END (R431, R438, R441, R442): the span that ended last is summed up and compared with what the partner has sent; then a
pending MASKED, detach or entry into DUPLEX takes place. -/
def execSeamSpanEnd (t : Nat) (s : State) : Res :=
  let s := s.at t
  let len := 2 ^ s.use P.TWN F.TWN_CTL_SEAM_EXP
  let finish := s.aligned t / 8 / len * len
  if !s.enabled P.TWN ∨ finish ≤ s.twin.lastEnd then .next s
  else
    let s := s.modTwin (fun q => { q with lastEnd := finish })
    let s := s.put P.TWN F.TWN_STAT_SPAN ((finish / len + 1) % 2 ^ 16)
    let s := if s.twinState = T.DUPLEX then
        let s := s.each ((List.range 18).filter (bitOf (s.use P.TWN F.TWN_CTL_SEAMED))) (fun s sid => s.sendSummary sid finish)
        let due := s.seamIn.filter (fun q => q.finish == finish)
        let s : State := { s with seamIn := s.seamIn.filter (fun q => decide (finish < q.finish)) }
        s.each due State.compareSpan
      else s
    let s := if s.twin.maskDue ∧ s.run ≠ .safe then (s.putB P.TWN F.TWN_STAT_MASKED true).pulse P.TWN 6 else s
    let detach := s.twin.detach
    let s := s.modTwin (fun q => { q with maskDue := false, detach := false })
    .next (if detach then s.goAlone.retrigger else if s.duplexDue then s.enterDuplex t else s)

/-- SUMMARY (R438, R439): compared at once when the module's own span has ended, else at its end. -/
def execSummary (t : Nat) (token : Token) (s : State) : Res :=
  let s := s.at t
  if token.type ≠ TK.SEAM ∨ token.seamKind ≠ 0 ∨ !s.enabled P.TWN ∨ s.twinState ≠ T.DUPLEX then .next s
  else
    let w := token.w0.toNat
    let v := token.w1.toNat
    let finish := unwrapNear (2 ^ 51) (s.aligned s.now) (bits token.w3.toNat 50 0) / 8
    let y : SeamSum :=
      { stream := bits w 20 16, finish := finish, a := v / 2 ^ 32, b := v % 2 ^ 32, c := sx 64 token.w2.toNat, skip := bitOf w 24 }
    .next (if 18 ≤ y.stream ∨ !bitOf (s.use P.TWN F.TWN_CTL_SEAMED) y.stream then s
      else if finish ≤ s.twin.lastEnd then s.compareSpan y
      else { s with seamIn := s.seamIn ++ [y] })

/-! ### Thinning from the primary (R254, R437) -/

/-- THIN (R437): the secondary applies the step at the named slot; a token that comes after it is applied at the next grid point, and
the spans between the two points are skipped. -/
def execThin (t : Nat) (token : Token) (s : State) : Res :=
  let s := s.at t
  let i := bits token.w0.toNat 19 16
  if token.type ≠ TK.SEAM ∨ token.seamKind ≠ 1 ∨ !s.enabled P.TWN ∨ !s.secondary ∨ 10 ≤ i then .next s
  else
    let k := bits token.w0.toNat 12 8
    let named := s.slotOf51 (bits token.w1.toNat 50 0)
    let timing := decide (i < 8) && s.digMode i == M.TIMING
    let late := decide (named ≤ t)
    let at_ := if late then s.gridPoint i k t else if timing then named else 2 ^ 80 + named
    let s := s.modAcq (fun a => { a with thin := lmod a.thin i (fun q => { q with next := some (k, at_), seen := t }) })
    .next (if late then
      let s := (s.sat P.TWN F.TWN_THIN_LATE_CNT).pulse P.TWN 5
      [named, t, at_ % 2 ^ 80].foldl (fun s x => s.seamSkip (thinStream i) x) s
    else s)

/-! ### SAFE, DETACH, CLEAR (R441, R442) -/

/-- SAFE_TOKEN (R441, R442): the partner has entered SAFE; this side goes ALONE and raises TWIN_SAFE. A fault of the partner's own makes
it MASKED at the next comparison. -/
def execSafeToken (t : Nat) (token : Token) (s : State) : Res :=
  let s := s.at t
  if token.type ≠ TK.SEAM ∨ token.seamKind ≠ 2 ∨ !s.enabled P.TWN ∨ s.twinState = T.OFF then .next s
  else
    let own := putBit (putBit (bits token.w0.toNat 15 0) Q.SEAM false) Q.TWIN_SAFE false
    let was := s.duplex && s.run != .safe
    let s : State := { s with twinSafeAt := (s.slotOf51 (bits token.w1.toNat 50 0) :: s.twinSafeAt).take 64 }
    let s := s.modTwin (fun q => { q with partnerSafe := true, maskDue := q.maskDue || (was && own != 0) })
    .next ((s.goAlone.raiseFault Q.TWIN_SAFE).retrigger)

/-- DETACH (R442): a DETACH token, or a write of 1 to TWN_DETACH (`written`), which sends one; both sides go ALONE at the next seam span
boundary. -/
def execDetach (t : Nat) (written : Option Word) (s : State) : Res :=
  let s := s.at t
  let go : Bool := match written with | some v => bitOf v.toNat 0 | none => true
  if !s.enabled P.TWN ∨ !s.paired ∨ !go then .next s
  else
    let s := if written.isSome then s.sendSeam 4 0 0 0 0 else s
    .next (s.modTwin (fun q => { q with detach := true }))

/-- CLEAR_TOKEN (R442): the partner has left SAFE; both stay ALONE. -/
def execClearToken (t : Nat) (token : Token) (s : State) : Res :=
  let s := s.at t
  .next (if token.type = TK.SEAM ∧ token.seamKind = 5 ∧ s.enabled P.TWN then s.modTwin (fun q => { q with partnerSafe := false }) else s)

/-- TWN_CLR (R452): the counters of 0x084 to 0x094 and TWN_DIV_MASK. -/
def execTwnClr (value : Word) (s : State) : Res :=
  .next (if bitOf value.toNat 0 then s.clearAll P.TWN [(F.TWN_SEAM_SKIP_CNT, 1), (F.TWN_DIVERGE_CNT, 1), (F.TWN_THIN_LATE_CNT, 1),
    (F.TWN_FIRE_MISMATCH_CNT, 1), (F.TWN_ARM_IGN_CNT, 1), (F.TWN_DIV_MASK, 1)] else s)

/-- A check of the TWN page (R452). -/
def checkTWN (v : View) (p g : Nat) : Nat :=
  let e := v.f p F.TWN_CTL_SEAM_EXP
  if g = 0 ∧ (e < 17 ∨ 21 < e) then E.RANGE else E.NONE

end Sys2Proof.Machine
end

