-- ==== Sys2Proof/Machine/Seal.lean ====
section
/-!
DEFINITION. The safety page (R35, R444 to R448, R453): the configuration seal, the sequence that leaves SAFE, lockstep.
-/
namespace Sys2Proof.Machine

/-! ### The seal (R35, R445) -/

/-- Offsets a page's map lists, ascending. -/
def listedOffsets (p : Nat) : List Nat :=
  ((List.range 496).map (fun i => 0x040 + 4 * i)).filter (fun o => (regAt p o).isSome)

/-- The RW bits of the register at an offset. -/
def rwMask (p o : Nat) : Nat := match regAt p o with | some (d, _) => d.rw | none => 0

/-- Byte sequence the seal covers on a page (R35): the registers, then the active entries of its window table. -/
def State.sealBytes (s : State) (p : Nat) : List Byte :=
  let offs := listedOffsets p
  (offs.filter (fun o => !isWindow p o)).flatMap (fun o => leBytes 4 (s.reg p o &&& rwMask p o)) ++
  (tablePages p).flatMap (fun e => (offs.filter (isWindow p)).flatMap (fun o => leBytes 4 (s.reg e o &&& rwMask p o)))

/-- PAGE_DIAG.ACTIVE_CRC (R35); 0 on a page that is not sealed. -/
def State.activeCrc (s : State) (p : Nat) : Nat := if sealed_ p then crc32c (s.sealBytes p) else 0

/-- Whether the seal covers a page: its bit of SAF_SEAL_EN, and PAGE_CAP.SEALED. -/
def State.sealOn (s : State) (p : Nat) : Bool := sealed_ p && bitOf (s.use P.SAF F.SAF_SEAL_EN (p / 32)) (p % 32)

/-- Whether a page passes the seal (R445). -/
def State.sealPass (s : State) (p : Nat) : Bool :=
  let crc := s.activeCrc p
  crc == s.reg (P.SEAL p) F.SAF_SEAL_EXP.off || crc == s.reg (P.SEAL p) F.SAF_SEAL_ALT.off

/-- SEAL_CHECK (R445): every 5 ms; a page that fails two checks in a row raises CONFIG. -/
def execSealCheck (t : Nat) (s : State) : Res :=
  let s := s.at t
  if !s.started then .next s
  else
    let fails := ((pageMap.map Prod.fst).filter (fun p => s.sealOn p && !s.sealPass p))
    let twice := fails.filter (fun p => s.saf.failing.contains p)
    let s := (s.wrap P.SAF F.SAF_SEAL_CHK_CNT).modSaf (fun q => { q with failing := fails })
    let s := s.each (List.range 4) (fun s w => s.put P.SAF F.SAF_SEAL_FAIL
      ((twice.filter (fun p => p / 32 == w)).foldl (fun m p => m + 2 ^ (p % 32)) 0) w)
    .next ((s.level P.SAF 2 (!twice.isEmpty)).faultLevel Q.CONFIG (!twice.isEmpty))

/-! ### Leaving SAFE (R448) -/

/-- SAF_CLEAR (R448): the first key starts the sequence; the second, as the next write to the page and within 1 ms, completes it while
no fault is present. -/
def execSafClear (t : Nat) (value : Word) (s : State) : Res :=
  let s := s.at t
  let key := value.toNat % 2 ^ 16
  let first := s.saf.keyAt
  let s := s.modSaf (fun q => { q with keyAt := none })
  .next (if s.run ≠ .safe then s
  else if key = 0xC1EA then s.modSaf (fun q => { q with keyAt := some t })
  else match first with
    | some x =>
      if key = 0x3E15 ∧ t ≤ x + msSlots 1 ∧ s.get P.SAF F.SAF_FAULT_RAW = 0 ∧ !s.saf.resetNeeded then
        s.modSaf (fun q => { q with exitAt := some (nextPly t) })
      else s
    | none => s)

/-- The module leaves SAFE (R448): SAFE_FAULT is released, the latch and SAF_FIRST clear, outputs start inactive, CLEAR is sent. -/
def State.leaveSafe (s : State) (slot : Nat) : State :=
  let s := s.modSaf (fun q => { q with safeFault := false, exitAt := none, keyAt := none })
  let s := (s.put P.SAF F.SAF_FAULT_LATCH 0).setReg P.SAF F.SAF_FIRST.off 0
  let s : State := { s with run := if s.isArmed then .armed else .ready }
  let s := ((s.setBlockState P.SAF 0).level P.SAF 0 false)
  let s := (s.driveLands slot).actState
  if s.twinState = T.OFF then s else s.sendSeam 5 0 (slot51 (s.aligned slot)) 0 0

/-- SAFE_EXIT (R448): the first ply start after the second key. -/
def execSafeExit (t : Nat) (s : State) : Res :=
  let s := s.at t
  .next (match s.saf.exitAt with
  | some p => if p ≤ t ∧ s.run = .safe then s.leaveSafe p else s
  | none => s)

/-- SAF_SEAL_SEL (R453): the page the seal table shows. -/
def execSafSealSel (value : Word) (s : State) : Res :=
  .next (s.modSaf (fun q => { q with sel := value.toNat % 256, keyAt := none }))

/-- SAF_CLR (R453). -/
def execSafClr (value : Word) (s : State) : Res :=
  let s := s.modSaf (fun q => { q with keyAt := none })
  .next (if bitOf value.toNat 0 then s.put P.SAF F.SAF_SAFE_CNT 0 else s)

/-- CORES (R17, R446): a lockstep mismatch of a core pair, in the boot ROM as in the firmware. -/
def execCores (t : Nat) (pair : Fin 2) (s : State) : Res :=
  let s := s.at t
  .next (if s.powered then
    (s.putB P.CPX (if pair.val = 0 then F.CPX_STAT_PAIR0_OK else F.CPX_STAT_PAIR1_OK) false).raiseFault Q.CORES else s)

end Sys2Proof.Machine
end

