-- ==== Sys2Proof/Machine/Blocks.lean ====
section
/-!
DEFINITION. Stopping, starting and resetting the block of a page (R26, R44, R45), with what each block's chapter adds.
-/
namespace Sys2Proof.Machine

/-! ### Stop and start (R45) -/

/-- Streams that receive data through a page's block: those it produces, or every one behind RFQ. -/
def gapStreams (p : Nat) : List Nat := if p = P.RFQ then List.range 22 else streamsOf p

/-- Write PAGE_CTL.ENABLE; PAGE_STAT.ACTIVE is read from it. -/
def State.setEnable (s : State) (p : Nat) (b : Bool) : State := s.setReg p H.CTL (putBit (s.reg p H.CTL) 0 b)

/-- A block stops: streams that receive its data open a gap. -/
def State.pageStop (s : State) (p t : Nat) : State :=
  let s := s.gapOpen ((gapStreams p).filter s.recording) t 5
  let s := s.setEnable p false
  match pageType p with
  | 0x03 => s.cksEnable (p - 0x04) t false
  | 0x05 => s.loopEnable (p - 0x0C) t false
  | 0x11 => s.actStopped t
  | 0x20 => s.flxShow
  | _ => s

/-- A block starts again: the gaps its stop opened end. -/
def State.pageStart (s : State) (p t : Nat) : State :=
  let s := s.setEnable p true
  let s := s.gapClose (gapStreams p) t 5 false
  match pageType p with
  | 0x03 => s.cksEnable (p - 0x04) t true
  | 0x05 => s.loopEnable (p - 0x0C) t true
  | 0x11 => s.actStarted t
  | 0x20 => s.flxCopied
  | 0x21 => s.sendPair.pairUp t
  | _ => s

/-! ### Soft reset (R26, R44) -/

/-- Registers that show what a page's reset does not change: identity and measurements, what start-up found, R453's own list. -/
def keptOnReset (p o : Nat) : Bool :=
  match pageType p with
  | 0x01 => decide (o < 0x06C) || (decide (0x080 ≤ o) && decide (o < 0x0C0))
  | 0x02 => decide (0x054 ≤ o) && decide (o < 0x0E0)
  | 0x07 => o == 0x054 || o == 0x058
  | 0x1B => o == 0x040 || o == 0x044
  | 0x1E => o == 0x060
  | 0x22 => decide (0x044 ≤ o) && decide (o < 0x054)
  | 0x23 => decide (0x080 ≤ o) && decide (o < 0x140)
  | 0x24 => decide (0x040 ≤ o) && (decide (o < 0x050) || o == 0x054 || o == 0x058)
  | _ => false

/-- Whether a key belongs to a page or to a table it reaches. -/
def ofPage (p k : Nat) : Bool :=
  let pg := k / 0x1000
  pg == p || (p == P.TLDP && decide (0x100 ≤ pg) && decide (pg < 0x300)) || (p == P.SCR && decide (0x300 ≤ pg) && decide (pg < 0x400)) ||
  (p == P.SAF && decide (0x400 ≤ pg))

/-- Every staged copy and active register of a page returns to its reset value, pending groups are withdrawn, events and counters
cleared (R44). -/
def State.resetRegs (s : State) (p : Nat) : State :=
  let gone (k : Nat) : Bool := ofPage p k && !(k / 0x1000 == p && keptOnReset p (k % 0x1000))
  { s with
    regs := { s.regs with
      active := s.regs.active.filter (fun e => !gone e.1), staged := s.regs.staged.filter (fun e => !gone e.1),
      lastGood := s.regs.lastGood.filter (fun e => !gone e.1), errs := s.regs.errs.filter (fun e => e.1 != p) } }

/-- The record in progress ends without a header, with ACQ's reset. -/
def State.dropRecord (s : State) : State :=
  let s := s.dropRecordJob
  let s : State := { s with acq := AcqState.empty, run := (if s.run = RunState.armed then RunState.ready else s.run) }
  (s.modGmb (fun _ => GmbState.empty)).gmbShow

/-- Commands in flight end consistent and write no completion (R384, R397, R486). -/
def State.dropOps (s : State) : State :=
  let s := s.host.ops.foldl (fun s o => if o.phase = .running ∧ s.runsHere o then s.cleanUp o else s) s
  { s with host := { HostState.empty with nextId := s.host.nextId } }

/-- What a page's reset does to its block. -/
def State.resetBlock (s : State) (p t : Nat) : State :=
  match pageType p with
  | 0x02 => { s with power := { s.power with sag := false, heldFrom := none, cap := 0, stretchFrom := none, stretchRem := 0, tempRun := 0 } }
  | 0x03 => s.cksReset (p - 0x04) t
  | 0x04 => s.refreshCko
  | 0x05 =>
    let n := p - 0x0C
    ((s.ivCutLoop n (nextPly t)).modLoop n (fun _ => { LoopState.empty with segs := [{ slot := nextPly t, phase := 0, rate := 0 }] }))
  | 0x06 => { s with angFired := List.replicate 64 (0, false), onceTarget := List.replicate 64 0 }
  | 0x07 => { s with tm := { TimeState.empty with seq := s.tm.seq } }
  | 0x08 => s.modDig (p - 0x20) (fun _ => DigState.empty)
  | 0x09 =>
    let g := p - 0x28
    let s := s.modStp g (fun _ => StpState.empty)
    (s.modIp (2 * g) (fun _ => IpUnit.empty)).modIp (2 * g + 1) (fun _ => IpUnit.empty)
  | 0x0A => { s with fus := List.replicate 32 FuUnit.empty }
  | 0x0B => { s with convs := List.replicate 16 ConvState.empty, injDue := [], pulseDue := List.replicate 8 [], spcFired := List.replicate 8 none }
  | 0x0C =>
    { s with
      ivs := List.replicate 4 none, accs := List.replicate 16 AccSum.empty, pairs := List.replicate 24 PairSum.empty,
      accLater := [], accVals := [], accSnap := List.replicate 40 [] }
  | 0x0D => { s with hars := List.replicate 16 HarSum.empty, harSnap := List.replicate 16 [] }
  | 0x0E => { s with wins := List.replicate 16 { out := false, run := 0, log := [] } }
  | 0x0F => if p = P.TLD then { s with lin := LadderIn.empty } else s
  | 0x10 => (s.modGmb (fun _ => GmbState.empty))
  | 0x11 => (s.endActivity 0xFFFF t).driveLands t
  | 0x12 => if p = P.ACQ then s.dropRecord
    else if p = P.ACQT then s.modAcq (fun a => { a with thin := List.replicate 10 { next := none, seen := 0, maxStep := 0 } }) else s
  | 0x13 =>
    { s with streams := s.streams.map (fun (q : StreamQ) =>
      { q with opened := none, bankA := .free, bankB := .free, current := false, staging := [], stagingBytes := 0, flushGap := [] }) }
  | 0x14 => { s with lanes := List.replicate 16 Lane.empty, raws := List.replicate 22 Lane.empty }
  | 0x17 => s.modMar (fun m => { m with held := none, retry := none, rotAt := none, sweepPos := 0 })
  | 0x19 => ((s.dropRecordJob).modStore (fun q => { q with writes := [], jobs := [], tabs := [], last := 0, sel := 0 }))
  | 0x1C => s.dropOps
  | 0x1E =>
    let held := s.eths.flatMap (fun (d : EthDest) => d.queue.filterMap Prod.snd)
    let s : State := { s with eths := List.replicate 4 { queue := [], dgrams := 0 }, ethPause := List.replicate 8 0 }
    s.each held (fun s e => s.freePath e.1 e.2)
  | 0x1F => ({ s with cas := CasState.empty, remote := s.remote.filter (fun k => k.twin), casProg := [] }).retrigger
  | 0x20 => { s with flxs := List.replicate 3 FlxPort.empty }
  | 0x21 =>
    let s : State := { s with twin := TwinState.empty, seams := [], seamIn := [], seamAgreed := [] }
    s.each (List.range 10) (fun s i => s.putB P.ACQT F.ACQ_THIN_STAT_FROM_TWIN false i)
  | 0x22 => s.modSaf (fun q => { q with sel := 0, failing := [] })
  | 0x24 => { s with mbox := none }
  | _ => s

/-- Bring a page and its block to their reset state (R44): the streams behind it open a gap, the lands and levels that depend on it follow. -/
def State.pageReset (s : State) (p t : Nat) : State :=
  let primary := s.primary
  let s := s.gapOpen ((gapStreams p).filter s.recording) t 5
  let s := (s.resetBlock p t).resetRegs p
  match pageType p with
  | 0x03 => s.cksReset (p - 0x04) t
  | 0x11 => (s.driveLands t).actState
  | 0x14 => s.cmpShow
  | 0x17 => s.marShow
  | 0x19 => s.storeShow
  | 0x1B => s.level P.HIF 0 (!s.getB P.HIF F.HIF_LINK_STAT_UP)
  | 0x1C => s.cmdShow
  | 0x1F => s.casShow
  | 0x20 => ((s.setLanes 40 8 0 false).setLanes 32 8 0 false).flxShow
  | 0x21 => (s.putB P.TWN F.TWN_STAT_PRIMARY primary).flxShow.retrigger
  | 0x22 => (s.setBlockState P.SAF (b2n (s.run == .safe)))
  | _ => s

end Sys2Proof.Machine
end

