-- ==== Sys2Proof/Machine/Power.lean ====
section
/-!
DEFINITION. Inputs and rails (R464 to R469), the sag response (R470, R471), the power cap (R472), thermal limits (R473), and the
return of the whole module to STANDBY.
-/
namespace Sys2Proof.Machine

/-! ### Whole-module reset (R467, R485) -/

/-- The rails are removed: the module is in STANDBY with every state lost (R13), but for the standby controller's own; every land
goes to high impedance, as VCAP is not good (R206). -/
def State.coldReset (s : State) : State :=
  let z : State :=
    { State.reset with
      variant := s.variant, out := s.out, pending := s.pending, freeCtr := s.freeCtr, now := s.now,
      power := { PowerState.empty with stby := s.power.stby, inReset := s.power.inReset } }
  z.each (List.range 16) (fun z n => if (s.actOut n).level = 2 then z else z.emit (.land n 2 s.now))

/-- Change the power state. -/
def State.modPower (s : State) (f : PowerState → PowerState) : State := { s with power := f s.power }

/-- A module reset begins, and holds until its cause ends (R467, R485). -/
def State.moduleReset (s : State) : State := (s.modPower (fun q => { q with inReset := true })).coldReset

/-- MOD_RESET_N (R485): the land is low for 1 µs or more. -/
def execModResetN (t : Nat) (s : State) : Res := .next (s.at t).moduleReset

/-- MODULE_RESET_END (R485): the cause ends; sequencing waits for VIN_VALID. -/
def execModuleResetEnd (t : Nat) (s : State) : Res :=
  let s := s.at t
  .next (s.modPower (fun q => { q with inReset := false }))

/-- GLB_RESET (R485): the key causes a module reset, any other value nothing. -/
def execGlbReset (t : Nat) (value : Word) (s : State) : Res :=
  let s := s.at t
  .next (if s.powered ∧ value.toNat = 0xA55A then s.moduleReset else s)

/-! ### Standby and rails (R466 to R468, R478, R495) -/

/-- STANDBY_START (R495): the standby controller starts and drives SAFE_FAULT asserted. -/
def execStandbyStart (t : Nat) (s : State) : Res :=
  let s := s.at t
  .next (s.modPower (fun q => { q with stby := true }))

/-- Slots within which a rail must report power-good: 0.4 ms (R466). -/
def railLimit : Nat := usSlots 400

/-- VIN_VALID (R466, R478): the straps are sampled and VPRC is enabled. The identity of the part stands in its registers from then on. -/
def execVinValid (t : Nat) (root twinSel : Bool) (hint : BitVec 6) (s : State) : Res :=
  let s := s.at t
  .next (if s.power.stby ∧ !s.power.inReset ∧ s.run = .standby ∧ s.power.rails = 0 then
      let s := ((s.putB P.GLB F.GLB_STRAP_ROOT root).putB P.GLB F.GLB_STRAP_TWIN_SEL twinSel).put P.GLB F.GLB_STRAP_ADDR_HINT hint.toNat
      let s := s.putB P.TWN F.TWN_STAT_PRIMARY twinSel
      let s := s.put P.GLB F.GLB_VARIANT (match s.variant with | .a256 => 0 | .a128 => 1 | .s256 => 2)
      let s := s.put64 P.GLB F.GLB_UNIT_ID_LO F.GLB_UNIT_ID_HI Config.unitId.toNat
      let s := s.put P.CPX F.CPX_ROM_VER Config.romVersion.toNat
      s.modPower (fun q => { q with rails := 1, vinAt := t, railAt := t })
    else s)

/-- Sequencing is complete: run state STARTING, with every domain on bypass and both core pairs in the boot ROM (R466, R479, R491). -/
def State.starting (s : State) : State :=
  let s : State := { s with run := .starting, start := { s.start with phase := 1 } }
  let s := (s.putB P.CPX F.CPX_STAT_PAIR0_OK true).putB P.CPX F.CPX_STAT_PAIR1_OK true
  (s.setBlockState P.CPX 1).setBlockState P.GLB 1

/-- RAIL_GOOD (R466): VPRC, VMEM, VCAP, VANA and VLNK report in this order. -/
def execRailGood (t : Nat) (s : State) : Res :=
  let s := s.at t
  let n := s.power.rails
  .next (if n = 0 ∨ 5 < n ∨ s.power.railAt + railLimit < t then s
  else
    let s : State := { s with power := { s.power with rails := n + 1, railAt := t }, vcapGood := s.vcapGood || n == 3 }
    let s := if n = 3 then s.driveLands t else s
    if n = 5 then s.starting else s)

/-- RAIL_GOOD_TIMEOUT (R466): a rail failed to become good; the module stays in STANDBY until VIN is next valid. -/
def execRailGoodTimeout (t : Nat) (s : State) : Res :=
  let s := s.at t
  let n := s.power.rails
  .next (if n = 0 ∨ 5 < n ∨ t < s.power.railAt + railLimit then s else s.coldReset)

/-- VIN_COLLAPSE (R467): below 8.0 V. -/
def execVinCollapse (t : Nat) (mv : Nat) (s : State) : Res :=
  let s := s.at t
  .next (if mv < 8000 then s.coldReset else s)

/-- V3A_LOSS (R468): below 2.9 V the standby controller stops and SAFE_FAULT is undriven. -/
def execV3aLoss (t : Nat) (mv : Nat) (s : State) : Res :=
  let s := s.at t
  .next (if mv < 2900 then (s.modPower (fun q => { q with stby := false, inReset := false })).coldReset else s)

/-! ### Status (R471, R476) -/

/-- The stretch asked for most strongly: sag, power cap or thermal throttle; codes of PWR_STAT.STRETCH (R471). -/
def State.stretchAsked (s : State) : Nat :=
  Nat.max (if s.power.sag then s.use P.PWR F.PWR_SAG_CFG_STRETCH + 1 else 0)
    (Nat.max s.power.cap (if s.getB P.PWR F.PWR_STAT_THROT then 3 else 0))

/-- Slots with a stretch in force that PWR_STRETCH_TIME does not count yet. -/
def State.stretchOwed (s : State) (t : Nat) : Nat :=
  s.power.stretchRem + (match s.power.stretchFrom with | some f => t - f | none => 0)

/-- PWR_STRETCH_TIME as a read shows it (R470). -/
def State.stretchTime (s : State) : Nat := satU 32 (s.get P.PWR F.PWR_STRETCH_TIME + s.stretchOwed s.now / 16000)

/-- Bring PWR_STRETCH_TIME up to a slot. -/
def State.stretchCount (s : State) (t : Nat) : State :=
  let owed := s.stretchOwed t
  let s := s.sat P.PWR F.PWR_STRETCH_TIME (owed / 16000)
  s.modPower (fun q => { q with stretchRem := owed % 16000, stretchFrom := if s.stretchAsked = 0 then none else some t })

/-- Bring the status, the stretch in force and the level events up to date. -/
def State.pwrShow (s : State) (t : Nat) : State :=
  let s := s.stretchCount t
  let k := s.stretchAsked
  let s := ((s.putB P.PWR F.PWR_STAT_SAG s.power.sag).putB P.PWR F.PWR_STAT_CAP_ACTIVE (s.power.cap != 0)).put P.PWR F.PWR_STAT_STRETCH k
  let s := s.setBlockState P.PWR (b2n (k != 0))
  let s := (s.level P.PWR 0 s.power.sag).level P.PWR 1 (s.getB P.PWR F.PWR_STAT_VIN_LOW)
  let s := (s.level P.PWR 2 (s.power.cap != 0)).level P.PWR 3 (s.getB P.PWR F.PWR_STAT_CAP_UNMET)
  (s.level P.PWR 4 (s.getB P.PWR F.PWR_STAT_THROT)).level P.PWR 5 (s.get P.PWR F.PWR_STAT_RAIL_BAD != 0)

/-- The RAIL safety fault: a rail outside its window, or VIN in the dip of R469. -/
def State.railFault (s : State) : State := s.faultLevel Q.RAIL (s.get P.PWR F.PWR_STAT_RAIL_BAD != 0 || s.power.dip)

/-! ### Monitors (R465, R469) -/

/-- Nominal voltages in 0.1 mV (table `Rail voltages`). -/
def railNominal (n : Nat) : Nat := [7500, 12000, 8500, 8000, 11000, 12000].getD n 0

/-- Whether a voltage in 0.1 mV lies inside a rail's window of ±6 %. -/
def railInside (n v : Nat) : Bool := decide (((v : Int) - railNominal n).natAbs * 100 ≤ 6 * railNominal n)

/-- A rail's monitor reports. -/
def State.railMonitor (s : State) (n v : Nat) : State :=
  let bad := putBit (s.get P.PWR F.PWR_STAT_RAIL_BAD) n (!railInside n v)
  ((((s.put P.PWR F.PWR_RAIL_MV v n).put P.PWR F.PWR_STAT_RAIL_BAD bad).pwrShow s.now).railFault)

/-- RAIL (R465): outside the window for 1 µs. -/
def execRail (t : Nat) (n : Fin 6) (tenths : Nat) (s : State) : Res :=
  let s := s.at t
  .next (if s.powered ∧ !railInside n tenths then s.railMonitor n tenths else s)

/-- RAIL_IN_WINDOW (R465, R448). -/
def execRailInWindow (t : Nat) (n : Fin 6) (tenths : Nat) (s : State) : Res :=
  let s := s.at t
  .next (if s.powered ∧ railInside n tenths then s.railMonitor n tenths else s)

/-- PWR_STAT.VIN_LOW, and PWR_VIN_LOW_CNT at each entry (R469). -/
def State.vinLevel (s : State) (mv : Nat) : State :=
  let low := decide (mv < 10800)
  let s := if low && !s.getB P.PWR F.PWR_STAT_VIN_LOW then s.sat P.PWR F.PWR_VIN_LOW_CNT else s
  ((s.put P.PWR F.PWR_VIN mv).putB P.PWR F.PWR_STAT_VIN_LOW low).pwrShow s.now

/-- VIN_LOW (R469). -/
def execVinLow (t : Nat) (mv : Nat) (s : State) : Res :=
  let s := s.at t
  .next (if s.powered ∧ mv < 10800 then s.vinLevel mv else s)

/-- VIN_DIP (R469): from 8.0 V up to, not including, 9.0 V for 5 µs. -/
def execVinDip (t : Nat) (mv : Nat) (s : State) : Res :=
  let s := s.at t
  .next (if s.powered ∧ 8000 ≤ mv ∧ mv < 9000 then
      let s := s.vinLevel mv
      (s.modPower (fun q => { q with dip := true })).railFault
    else s)

/-- VIN_RECOVERY (R469): back at or above 9.0 V, or 10.8 V. -/
def execVinRecovery (t : Nat) (mv : Nat) (s : State) : Res :=
  let s := s.at t
  .next (if s.powered ∧ 9000 ≤ mv then
      let s := s.vinLevel mv
      (s.modPower (fun q => { q with dip := false })).railFault
    else s)

/-! ### Sag response (R470) -/

/-- SAG (R470): a droop sensor reads below 0.80 V − LVL, or VIN lies below VIN_SAG. A trip in the hold restarts it. -/
def execSag (t : Nat) (sensor : Option (Fin 16 × Nat)) (vin : Nat) (s : State) : Res :=
  let s := s.at t
  let droop : Bool := match sensor with | some (_, mv) => decide (mv + s.use P.PWR F.PWR_SAG_CFG_LVL < 800) | none => false
  .next (if s.powered ∧ s.useB P.PWR F.PWR_SAG_CFG_EN ∧ (droop ∨ vin < s.use P.PWR F.PWR_VIN_CFG_VIN_SAG) then
      let s := ((s.put P.PWR F.PWR_VIN vin).stretchCount t).sat P.PWR F.PWR_SAG_CNT
      (s.modPower (fun q => { q with sag := true, heldFrom := some t })).pwrShow t
    else s)

/-- SAG_RELEASE (R470): HOLD_US has passed since the last trip with the recovery condition held; the stretch ends. -/
def execSagRelease (t : Nat) (s : State) : Res :=
  let s := s.at t
  .next (match s.power.heldFrom with
  | some f =>
    if f + usSlots (s.use P.PWR F.PWR_SAG_CFG_HOLD_US) ≤ t then
      let s := s.stretchCount t
      (s.modPower (fun q => { q with sag := false, heldFrom := none })).pwrShow t
    else s
  | none => s)

/-! ### Power cap (R472) -/

/-- CAP_WINDOW_END (R472): powers in 0.1 W, the current in 10 mA. -/
def execCapWindowEnd (t : Nat) (avg pin iin : Nat) (s : State) : Res :=
  let s := s.at t
  let w := 10 * s.use P.PWR F.PWR_CAP_CFG_CAP_W
  let h := 10 * s.use P.PWR F.PWR_CAP_CFG_HYST_W
  let k := s.power.cap
  .next (if !s.powered ∨ !s.useB P.PWR F.PWR_CAP_CFG_CAP_EN then s
  else
    let s := ((s.put P.PWR F.PWR_PIN_AVG avg).put P.PWR F.PWR_PIN pin).put P.PWR F.PWR_IIN iin
    let s := s.stretchCount t
    let s := if w < avg then
        if k = 4 then s.putB P.PWR F.PWR_STAT_CAP_UNMET true
        else (s.modPower (fun q => { q with cap := k + 1 })).sat P.PWR F.PWR_CAP_RAISE_CNT
      else
        let s := s.putB P.PWR F.PWR_STAT_CAP_UNMET false
        if avg + h < w then s.modPower (fun q => { q with cap := k - 1 }) else s
    s.pwrShow t)

/-! ### Thermal limits (R473) -/

/-- Hottest of the junction readings. -/
def hottest : List Int → Int
  | [] => 0
  | [a] => a
  | a :: r => max a (hottest r)

/-- The readings as the registers show them. -/
def State.showTemps (s : State) (lid : Int) (tj : List Int) (rails : List (Nat × Nat)) : State :=
  let s := (s.put P.PWR F.PWR_LID_T (unsx 16 lid)).put P.PWR F.PWR_TJ_MAX (unsx 16 (hottest tj))
  let s := s.each (List.range 8) (fun s i => s.put P.PWR F.PWR_TJ (unsx 16 (tj.getD i 0)) i)
  s.each (List.range 6) (fun s i =>
    (s.put P.PWR F.PWR_RAIL_MV (rails.getD i (0, 0)).1 i).put P.PWR F.PWR_RAIL_MA (rails.getD i (0, 0)).2 i)

/-- THERMAL_READING (R473): temperatures in 1/16 °C, rails as (0.1 mV, 10 mA). -/
def execThermalReading (t : Nat) (lid : Int) (tj : List Int) (rails : List (Nat × Nat)) (s : State) : Res :=
  if tj.length ≠ 8 ∨ rails.length ≠ 6 then .fault .illFormed
  else
    let s := s.at t
    let hot := hottest tj
    .next (if !s.powered then s
    else if 125 * 16 ≤ hot then s.moduleReset
    else
      let s := (s.showTemps lid tj rails).stretchCount t
      let onset := 16 * (s.use P.PWR F.PWR_THERM_CFG_THROT_TJ : Int)
      let s := if onset ≤ hot then
          (if s.getB P.PWR F.PWR_STAT_THROT then s else (s.putB P.PWR F.PWR_STAT_THROT true).sat P.PWR F.PWR_THROT_CNT)
        else if hot < onset - 80 then s.putB P.PWR F.PWR_STAT_THROT false
        else s
      let bad : Bool := decide (16 * (s.use P.PWR F.PWR_THERM_CFG_LID_TRIP : Int) < lid) || decide (lid < -80) ||
        decide (16 * (s.use P.PWR F.PWR_THERM_CFG_TJ_TRIP : Int) ≤ hot)
      let run := if bad then Nat.min 2 (s.power.tempRun + 1) else 0
      let s := (s.modPower (fun q => { q with tempRun := run })).pwrShow t
      s.faultLevel Q.TEMP (run == 2))

/-! ### Settings -/

/-- A copied power cap that is off asks for no stretch (R477). -/
def State.pwrCopied (s : State) (t : Nat) : State :=
  if s.useB P.PWR F.PWR_CAP_CFG_CAP_EN then s.pwrShow t
  else
    let s := s.stretchCount t
    ((s.modPower (fun q => { q with cap := 0 })).putB P.PWR F.PWR_STAT_CAP_UNMET false).pwrShow t

/-- Agreement check of a PWR group (R476, R477). -/
def checkPWR (v : View) (g : Nat) : Nat :=
  let lvl := v.f P.PWR F.PWR_SAG_CFG_LVL
  let sag := v.f P.PWR F.PWR_VIN_CFG_VIN_SAG
  let win := v.f P.PWR F.PWR_CAP_CFG_WIN_MS
  let cap := v.f P.PWR F.PWR_CAP_CFG_CAP_W
  let lid := v.f P.PWR F.PWR_THERM_CFG_LID_TRIP
  let tj := v.f P.PWR F.PWR_THERM_CFG_TJ_TRIP
  let thr := v.f P.PWR F.PWR_THERM_CFG_THROT_TJ
  let out (x a b : Nat) : Bool := decide (x < a) || decide (b < x)
  match g with
  | 0 => firstCause [(out lvl 10 45 || out sag 10000 10800, E.RANGE)]
  | 1 => firstCause [(out win 1 100 || out cap 100 245, E.RANGE)]
  | 2 => firstCause [(out lid 70 85 || out tj 100 120 || out thr 85 110, E.RANGE), (decide (tj ≤ thr), E.MISMATCH)]
  | _ => 0

/-- PWR_CLR (R476): clears the five counters. -/
def execPwrClr (value : Word) (s : State) : Res :=
  .next (if bitOf value.toNat 0 then
      let s := s.clearAll P.PWR [(F.PWR_SAG_CNT, 1), (F.PWR_STRETCH_TIME, 1), (F.PWR_CAP_RAISE_CNT, 1), (F.PWR_THROT_CNT, 1),
        (F.PWR_VIN_LOW_CNT, 1)]
      s.modPower (fun q => { q with stretchRem := 0, stretchFrom := s.power.stretchFrom.map (fun _ => s.now) })
    else s)

end Sys2Proof.Machine
end

