-- ==== Sys2Proof/Machine/Startup.lean ====
section
/-!
DEFINITION. Start-up (R479 to R483), the mailbox (R490), the PCIe reset (R486) and the GLB and CPX pages (R489, R491).
-/
namespace Sys2Proof.Machine

/-! ### The firmware image (R481) -/

/-- Whether an image header checks: MAGIC, LENGTH, and the major version of the boot ROM. -/
def State.headerOk (s : State) (h : List Byte) : Bool :=
  h.length == 256 && fieldAt h 0 4 == 0x494D4E4E && decide (1 ≤ fieldAt h 4 4) && decide (fieldAt h 4 4 ≤ 6291456) &&
  fieldAt h 11 1 == s.get P.CPX F.CPX_ROM_VER_MAJOR

/-! ### The configuration block (R479, R480) -/

/-- Whether a configuration block checks: MAGIC, VERSION, CRC, no reserved code. -/
def configOk (c : List Byte) : Bool :=
  c.length == 64 && fieldAt c 0 4 == 0x46434D43 && fieldAt c 4 1 == 1 && fieldAt c 0x3C 4 == crc32c (c.take 0x3C) &&
  decide (fieldAt c 5 1 ≤ 4) && decide (fieldAt c 7 1 ≤ 64)

/-- The configuration in force: REF_FREQ, HOST_MODE, CAS_EXPECT, TWIN, PAIR_ID, IMAGE_OFS; the defaults where the block does not check. -/
structure BootConfig where
  refFreq : Nat
  hostMode : Nat
  expect : Nat
  twin : Nat
  pairId : Nat
  imageOfs : Nat

def bootConfig (c : List Byte) : BootConfig :=
  if configOk c then
    { refFreq := fieldAt c 5 1, hostMode := fieldAt c 6 1 % 4, expect := fieldAt c 7 1, twin := fieldAt c 8 1 % 4,
      pairId := fieldAt c 0x0C 4, imageOfs := fieldAt c 0x10 4 }
  else { refFreq := 3, hostMode := 0, expect := 0, twin := 0, pairId := 0, imageOfs := 0x10000 }

/-- GLB_FLASH_MODE (R479): lines and clock in MHz. -/
def FlashImage.mode (f : FlashImage) : Nat × Nat :=
  match f.quad, f.dual with
  | some q, _ => (2, Nat.min 133 q)
  | none, some d => (1, Nat.min 133 d)
  | none, none => (0, Nat.min 133 f.single)

/-! ### Steps -/

/-- GLB_STEP_US of a step. -/
def State.stepUs (s : State) (n us : Nat) : State := s.put P.GLB F.GLB_STEP_US us n

/-- GLB_STEP_US of steps from `n` on. -/
def State.stepsUs (s : State) : Nat → List Nat → State
  | _, [] => s
  | n, u :: r => (s.stepUs n u).stepsUs (n + 1) r

/-- Change the progress of start-up. -/
def State.modStart (s : State) (f : StartState → StartState) : State := { s with start := f s.start }

/-- GLB_BOOT_STAT.STEP, with the WAIT_IMAGE events and status (R482, R489, R491). -/
def State.setStep (s : State) (n : Nat) : State :=
  let w := n == 4
  let s := (s.put P.GLB F.GLB_BOOT_STAT_STEP n).putB P.CPX F.CPX_STAT_WAIT_IMAGE w
  let s := if w then s.setBlockState P.CPX 2 else s
  (s.level P.GLB 2 w).level P.CPX 1 w

/-- The start-up march has repaired rows, counted for each bank, and left rows unrepaired (R328). -/
def State.marchedAtStart (s : State) (repaired : List Nat) (unrepaired : Nat) : State :=
  let s := s.modMar (fun m => { m with spares := (List.range 64).map (fun b => Nat.min 8 (m.spares.getD b 0 + repaired.getD b 0)) })
  let n := s.mar.spares.foldl (· + ·) 0
  let s := (s.put P.SCR F.SCR_REPAIR_CNT (satU 16 n)).put P.GLB F.GLB_REPAIR_SUM_SCR (satU 16 n)
  let s := s.put P.SCR F.SCR_SPARE_MIN (8 - s.mar.spares.foldl Nat.max 0)
  if unrepaired = 0 then s
  else
    let s := (s.sat P.MAR F.MAR_UNREPAIRED_CNT unrepaired).putB P.GLB F.GLB_BOOT_STAT_SCR_UNREPAIRED true
    (s.pulse P.MAR 1).raiseFault Q.SCRATCH

/-- The endpoint's link, and the lanes it uses (R370, R371): generation and width, or none while it is down. -/
def State.hostLink (s : State) (link : Option (Nat × Nat)) : State :=
  let lanes := if s.hostMode = 0 then 16 else 8
  let s := (s.putB P.HIF F.HIF_LINK_STAT_UP link.isSome).put P.HIF F.HIF_LINK_STAT_GEN ((link.map Prod.fst).getD 0)
  let s := s.put P.HIF F.HIF_LINK_STAT_WIDTH ((link.map Prod.snd).getD 0)
  let gen := (link.map Prod.fst).getD 6
  (s.setLanes 0 lanes (if gen = 6 then 2 else 1) link.isSome).level P.HIF 0 link.isNone

/-- WAIT_IMAGE is entered (R482); the AUTH step ended at `us`. -/
def State.waitImage (s : State) (us : Nat) : State :=
  let s := (s.stepUs 3 us).setStep 4
  s.modStart (fun q => { q with phase := 3 })

/-- The configuration in force, as GLB and HIF show it, and as step 9 will write it. -/
def State.takeConfig (s : State) (c : BootConfig) : State :=
  let s := (s.put P.GLB F.GLB_BOOT_CFG_REF_FREQ c.refFreq).put P.GLB F.GLB_BOOT_CFG_HOST_MODE c.hostMode
  let s := (s.put P.GLB F.GLB_BOOT_CFG_CAS_EXPECT c.expect).put P.GLB F.GLB_BOOT_CFG_TWN_MODE (c.twin / 2)
  let s := ((s.put P.GLB F.GLB_BOOT_CFG_TWN_EN c.twin).put P.GLB F.GLB_IMAGE_OFS c.imageOfs).put P.HIF F.HIF_HOST_MODE c.hostMode
  s.modStart (fun q => { q with expect := c.expect, twin := c.twin, pairId := c.pairId })

/-- BOOT (R479 to R482): the boot ROM's steps. `repaired` counts repaired rows by bank, `us` gives the ends of steps 0 to 3. A flash that
does not answer, or whose image does not verify, leads to WAIT_IMAGE. -/
def execBoot (t : Nat) (flash : Option FlashImage) (repaired : List Nat) (unrepaired : Nat) (link : Option (Nat × Nat)) (us : List Nat)
    (s : State) : Res :=
  if us.length ≠ 4 then .fault .illFormed
  else
    let s := s.at t
    .next (if s.run ≠ .starting ∨ s.start.phase ≠ 1 then s
    else
      let config := (flash.map FlashImage.config).getD []
      let s := (s.takeConfig (bootConfig config)).putB P.GLB F.GLB_BOOT_STAT_CFG_BAD (flash.isSome && !configOk config)
      let s := (s.hostLink link).marchedAtStart repaired unrepaired
      let s := s.stepsUs 0 (us.take 3)
      match flash with
      | none => (s.putB P.GLB F.GLB_BOOT_STAT_NO_FLASH true).waitImage (us.getD 3 0)
      | some f =>
        let s := (s.put P.GLB F.GLB_FLASH_ID f.id).put P.GLB F.GLB_FLASH_MODE_LINES f.mode.1
        let s := s.put P.GLB F.GLB_FLASH_MODE_MHZ f.mode.2
        if f.signed && s.headerOk f.header then
          let s := s.setStep 3
          s.modStart (fun q => { q with phase := 2, header := f.header })
        else (s.putB P.GLB F.GLB_BOOT_STAT_AUTH_FAIL_FLASH true).waitImage (us.getD 3 0))

/-! ### The firmware's steps 5 to 9 -/

/-- REF_FREQ code to D, R, the N of SP0 to SP3 and their WIN_EXP (table `Worked divider settings`); D is the code of REF_MUL. -/
def workedSettings (code : Nat) : Nat × Nat × List Nat × List Nat :=
  match code with
  | 0 => (1, 1, [100, 80, 100, 120], [6, 6, 6, 6])
  | 1 => (1, 1, [40, 32, 40, 48], [7, 8, 7, 7])
  | 2 => (0, 1, [40, 32, 40, 48], [8, 9, 8, 8])
  | 4 => (1, 25, [160, 128, 160, 192], [10, 10, 10, 10])
  | _ => (0, 1, [20, 16, 20, 24], [9, 10, 9, 9])

/-- Write a field of both copies, as a commit of the firmware leaves it. -/
def State.putBoth (s : State) (p : Nat) (f : Fld) (v : Nat) : State :=
  (s.put p f v).setStaged p f.off (putBits (s.stagedReg p f.off) f.hi f.lo v)

/-- Step 5 commits group 0 of a CKS page, which starts a lock attempt (R59). -/
def State.clockStep (s : State) (n : Nat) : State :=
  let code := s.get P.GLB F.GLB_BOOT_CFG_REF_FREQ
  let (d, r, ns, ws) := workedSettings code
  let p := P.CKS n
  let s := (s.putBoth p F.CKS_REF_CFG_REF_FREQ code).putBoth p F.CKS_REF_CFG_REF_MUL d
  let s := (s.putBoth p F.CKS_DIV_REF_R r).putBoth p F.CKS_DIV_FB_N (ns.getD n 20)
  (s.putBoth p F.CKS_LOCK_CFG_WIN_EXP (ws.getD n 9)).lockAttempt n 0

/-- Pages whose blocks steps 5 to 8 use first, in order (R45, R482). -/
def stepPages : List Nat := [P.CKS 1, P.CKS 2, P.CKS 3, P.CKO, P.MAR, P.ADC] ++ (List.range 8).map P.STP ++ [P.STO, P.NVQ, P.CAS, P.FLX, P.TWN]

/-- The firmware runs: what the header says of it, and step 5, at which the coarse counter starts from 0. -/
def State.runImage (s : State) (header : List Byte) (src : Nat) : State :=
  let s := ((s.setReg P.CPX F.CPX_FW_VER.off (fieldAt header 8 4)).setReg P.CPX F.CPX_FW_BUILD.off (fieldAt header 12 4))
  let s := (s.setReg P.CPX F.CPX_IMAGE_LEN.off (fieldAt header 4 4)).put P.CPX F.CPX_IMAGE_SRC src
  let s := ((s.put P.GLB F.GLB_BOOT_STAT_IMAGE_SRC src).putB P.CPX F.CPX_STAT_RUNNING true).setStep 5
  let s := (s.setBlockState P.CPX 0).stretchCount s.now
  let s :=
    { s with
      now := 0, start := { s.start with phase := 4, header := header },
      power := { s.power with heldFrom := s.power.heldFrom.map (fun _ => 0), stretchFrom := s.power.stretchFrom.map (fun _ => 0) } }
  let s := s.each stepPages (fun s p => s.pageStart p 0)
  s.each (List.range 4) State.clockStep

/-- IMAGE_AUTHENTICATED (R481, R482): the flash image's signature has verified; step 3 ended at `us`. -/
def execImageAuthenticated (t : Nat) (us : Nat) (s : State) : Res :=
  let s := s.at t
  .next (if s.start.phase = 2 then (s.stepUs 3 us).runImage s.start.header 1 else s)

/-- Results of step 6 in deep memory (R343): repaired rows by stack, rows that could not be repaired. -/
def State.deepTested (s : State) (repaired : List Nat) (badRows : List (BitVec 38)) : State :=
  let s := s.each (List.range 8) (fun s i =>
    let s := (s.putB P.DMC F.DMC_STACK_STAT_PRESENT true i).putB P.DMC F.DMC_STACK_STAT_TRAINED true i
    s.put P.DMC F.DMC_STACK_STAT_REPAIRED (satU 8 (repaired.getD i 0)) i)
  let n := satU 16 (repaired.foldl (· + ·) 0)
  let s := (s.put P.DMC F.DMC_REPAIR_CNT n).put P.GLB F.GLB_REPAIR_SUM_DM n
  let s := ((s.putB P.DMC F.DMC_STAT_TRAINED true).putB P.DMC F.DMC_STAT_REPAIR_DONE true).put P.DMC F.DMC_STAT_STACKS 0xFF
  let s := s.each badRows (fun s o => s.addBadRow o.toNat)
  s.putB P.GLB F.GLB_BOOT_STAT_DM_UNREPAIRED (!badRows.isEmpty)

/-- Results of step 7 (R156, R483): the coefficients of each converter; one that failed keeps its reset coefficients. -/
def State.calibratedAtStart (s : State) (coefs : List (Option Word)) : State :=
  let s := s.each (List.range 16) (fun s c =>
    match coefs.getD c none with
    | some v => (s.setReg P.ADC (F.ADC_COEF.at c) v.toNat).setStaged P.ADC (F.ADC_COEF.at c) v.toNat
    | none => s.put P.ADC F.ADC_CAL_STAT_FAIL (putBit (s.get P.ADC F.ADC_CAL_STAT_FAIL) c true))
  let s := s.put P.ADC F.ADC_CAL_STAT_DONE 0xF
  s.putB P.GLB F.GLB_BOOT_STAT_CAL_FAIL (s.get P.ADC F.ADC_CAL_STAT_FAIL != 0)

/-- Step 9 writes the configuration (R482). -/
def State.writeConfig (s : State) : State :=
  let s := (s.putBoth P.CAS F.CAS_EXPECT s.start.expect).putBoth P.TWN F.TWN_PAIR_ID s.start.pairId
  (s.putBoth P.TWN F.TWN_CTL_EN s.start.twin).putBoth P.TWN F.TWN_CTL_MODE (s.start.twin / 2)

/-- The module enters READY, or SAFE while a fault is present or its table says so (R447, R483). -/
def State.enterReady (s : State) : State :=
  let safe := s.get P.SAF F.SAF_FAULT_RAW != 0 || s.saf.resetNeeded || s.getB P.GLB F.GLB_BOOT_STAT_SCR_UNREPAIRED
  if safe then s.safeEntry (s.get P.SAF F.SAF_FIRST_BIT)
  else ({ s with run := .ready }).modSaf (fun q => { q with safeFault := false })

/-- Whether a synthesizer did not lock: CLOCK_FAIL; SP0 on bypass is the sample-clock fault (R61, R483). -/
def State.clocksChecked (s : State) : State :=
  let s := s.putB P.GLB F.GLB_BOOT_STAT_CLOCK_FAIL ((List.range 4).any s.onBypass)
  if s.onBypass 0 then s.faultLevel Q.SAMPLE_CLOCK true else s

/-- START_DONE (R483): steps 6 to 8 have ended with these results, `us` gives the ends of steps 5 to 9. Pairing and enumeration follow
(R411, R430). -/
def execStartDone (t : Nat) (repaired : List Nat) (unrepaired : Nat) (deepRepaired : List Nat) (badRows : List (BitVec 38))
    (coefs : List (Option Word)) (us : List Nat) (s : State) : Res :=
  if us.length ≠ 5 ∨ coefs.length ≠ 16 then .fault .illFormed
  else
    let s := s.at t
    .next (if s.run ≠ .starting ∨ s.start.phase ≠ 4 then s
    else
      let s := (s.marchedAtStart repaired unrepaired).deepTested deepRepaired badRows
      let s := (s.calibratedAtStart coefs).clocksChecked
      let s := s.each ((pageMap.map Prod.fst).filter (fun p => !s.enabled p)) (fun s p => s.pageStart p t)
      let s := ((s.writeConfig.stepsUs 5 us).setStep 9)
      let s := (s.modStart (fun q => { q with phase := 5 })).enterReady
      let s := s.pulse P.GLB 0
      let s := if s.useB P.TWN F.TWN_CTL_EN then s.startPairing t else s
      if s.rootStrap then s.enumStart t none s.start.expect else s)

/-! ### The mailbox (R490) -/

/-- CPX_MBOX_STATUS when a command has completed, and MBOX_DONE. -/
def State.mboxDone (s : State) (tag status : Nat) : State :=
  let s := (s.put P.CPX F.CPX_MBOX_STATUS_STATUS status).put P.CPX F.CPX_MBOX_STATUS_TAG tag
  (s.putB P.CPX F.CPX_MBOX_STATUS_BUSY s.mbox.isSome).pulse P.CPX 0

/-- The command under way completes. -/
def State.mboxEnd (s : State) (status bytes : Nat) : State :=
  match s.mbox with
  | none => s
  | some m =>
    let s := ({ s with mbox := none }).put64 P.CPX F.CPX_MBOX_RESULT_LO F.CPX_MBOX_RESULT_HI bytes
    s.mboxDone m.tag status

/-- Whether bytes of GEN named by an offset and a length lie inside it (R490). -/
def genRange (ofs len : Nat) : Bool := decide (ofs + len ≤ 0xC80000)

/-- Bytes of GEN. -/
def State.genRead (s : State) (ofs len : Nat) : List Byte := s.scrRead (0x5380000 + ofs) len

/-- Whether the flash may be written: the module is READY and not ARMED (R490). -/
def State.flashReady (s : State) : Bool := s.run == .ready && !s.isArmed

/-- A write of CPX_MBOX_CMD (R490): takes the operands. While another command runs, or when the flash may not be written,
it completes with BUSY, an unlisted opcode with BAD_PARAM; BOOT_IMAGE outside WAIT_IMAGE is not accepted. -/
def State.mboxWrite (s : State) (v : Nat) : State :=
  let opc := bits v 31 24
  let tag := bits v 15 0
  let args := (List.range 8).map (fun i => s.use P.CPX F.CPX_MBOX_ARG i)
  if s.mbox.isSome then s.mboxDone tag ST.BUSY
  else if opc = 0 ∨ 3 < opc then s.mboxDone tag ST.BAD_PARAM
  else if opc = 1 ∧ s.start.phase ≠ 3 then s
  else if opc ≠ 1 ∧ !s.flashReady then s.mboxDone tag ST.BUSY
  else
    let s : State := { s with mbox := some { opcode := opc, tag := tag, args := args } }
    let s := (s.put P.CPX F.CPX_MBOX_STATUS_TAG tag).putB P.CPX F.CPX_MBOX_STATUS_BUSY true
    if opc = 2 then s.put P.CPX F.CPX_FLASH_PCT 0 else s

/-- The command a row of the mailbox names: the one under way, or, with none, the one the row itself writes. -/
def State.mboxTake (s : State) (opc tag : Nat) : State × Option Mbox :=
  let s := if s.mbox.isSome then s else s.mboxWrite (opc * 2 ^ 24 + tag)
  (s, s.mbox.filter (fun (m : Mbox) => m.opcode == opc && m.tag == tag))

/-- BOOT_IMAGE (R482, R490): an image in GEN is authenticated and run; step 4 ends at `us`. -/
def execBootImage (t : Nat) (tag : BitVec 16) (signed : Bool) (us : Nat) (s : State) : Res :=
  let (s, m) := (s.at t).mboxTake 1 tag.toNat
  .next (match m with
  | none => s
  | some m =>
    let ofs := m.args.getD 0 0
    let len := m.args.getD 1 0
    let header := s.genRead ofs 256
    if len = 0 then s.mboxEnd ST.ZERO_LEN 0
    else if !genRange ofs len then s.mboxEnd ST.BAD_PARAM 0
    else if signed && decide (256 + fieldAt header 4 4 ≤ len) && s.headerOk header then
      ((s.mboxEnd ST.OK 0).stepUs 4 us).runImage header 2
    else s.mboxEnd ST.AUTH_FAIL 0)

/-- FLASH_IMAGE (R490): the image is authenticated, written at IMAGE_OFS and read back; `same` when the read shows no difference. -/
def execFlashImage (t : Nat) (tag : BitVec 16) (signed : Bool) (same : Bool) (s : State) : Res :=
  let (s, m) := (s.at t).mboxTake 2 tag.toNat
  .next (match m with
  | none => s
  | some m =>
    let ofs := m.args.getD 0 0
    let len := m.args.getD 1 0
    let header := s.genRead ofs 256
    if len = 0 then s.mboxEnd ST.ZERO_LEN 0
    else if !genRange ofs len then s.mboxEnd ST.BAD_PARAM 0
    else if signed && decide (256 + fieldAt header 4 4 ≤ len) && s.headerOk header then
      let s := (s.emit (.flash (s.get P.GLB F.GLB_IMAGE_OFS) (s.genRead ofs len))).put P.CPX F.CPX_FLASH_PCT 100
      s.mboxEnd (if same then ST.OK else ST.CHECK_FAIL) len
    else s.mboxEnd ST.AUTH_FAIL 0)

/-- FLASH_CONFIG (R490): a configuration block that checks is written at 0x1000. -/
def execFlashConfig (t : Nat) (tag : BitVec 16) (s : State) : Res :=
  let (s, m) := (s.at t).mboxTake 3 tag.toNat
  .next (match m with
  | none => s
  | some m =>
    let ofs := m.args.getD 0 0
    let block := s.genRead ofs 64
    if !genRange ofs 64 ∨ !configOk block then s.mboxEnd ST.BAD_PARAM 0
    else (s.emit (.flash 0x1000 block)).mboxEnd ST.OK 64)

/-! ### PCIe reset (R486) -/

/-- PCIE_RESET (R485, R486): the HIF, CMD and IRQ pages and MSI-X are reset and the host lanes train again, with this link. With
HOST_STOP the reset acts as a write of STOP too. -/
def execPcieReset (t : Nat) (link : Option (Nat × Nat)) (s : State) : Res :=
  let s := s.at t
  if !s.powered then .next s
  else
    let s := s.each [P.HIF, P.CMD, P.IRQ] (fun s p => s.pageReset p t)
    let s : State := { s with msix := { masked := [], funcMask := false, waiting := [] } }
    let s := (s.hostLink link).sat P.GLB F.GLB_PCIE_RST_CNT
    let s := s.pulse P.GLB 1
    if s.useB P.GLB F.GLB_CTL_HOST_STOP then execStop t 2 s else .next s

/-! ### Control complex (R489, R491) -/

/-- GLB_CLR (R489). -/
def execGlbClr (value : Word) (s : State) : Res :=
  .next (if bitOf value.toNat 0 then s.put P.GLB F.GLB_PCIE_RST_CNT 0 else s)

/-- CPX_HEARTBEAT (R491): every 1 ms while the firmware runs; busy shares of the complex and of each core in %. -/
def execCpxHeartbeat (t : Nat) (busy : BitVec 7) (cores : List (BitVec 7)) (s : State) : Res :=
  if cores.length ≠ 4 then .fault .illFormed
  else
    let s := s.at t
    .next (if s.getB P.CPX F.CPX_STAT_RUNNING then
        let s := (s.wrap P.CPX F.CPX_HEARTBEAT).put P.CPX F.CPX_STAT_BUSY busy.toNat
        s.each (List.range 4) (fun s i => s.put P.CPX F.CPX_CORE_UTIL (cores.getD i 0).toNat i)
      else s)

/-- CPX_CLR (R491). -/
def execCpxClr (value : Word) (s : State) : Res :=
  .next (if bitOf value.toNat 0 then s.put P.CPX F.CPX_STITCH_MAX_US 0 else s)

end Sys2Proof.Machine
end

