-- ==== Sys2Proof/Machine/Bus.lean ====
section
/-!
DEFINITION. The register fabric (chapter 2): reads of every register (R28, R29, R32, R36), writes under the staging mode (R37, R41) and
through the aliases (R30), commits and safe points (R37 to R40), direct mode (R42), changes of mode, soft reset, ENABLE, events, and
the remote window (R423).
-/
namespace Sys2Proof.Machine

/-! ### Who reaches what (R484) -/

/-- Whether accesses of a requester are answered. -/
def State.served (s : State) (req : Requester) : Bool :=
  match req with
  | .host => s.hostServed
  | .cpx => s.powered
  | .remote => s.started

/-- Whether a requester reaches a page: before READY the host reaches GLB, HIF and CPX alone. -/
def State.pageReach (s : State) (req : Requester) (p : Nat) : Bool :=
  pageExists p && (s.started || req != .host || p == P.GLB || p == P.HIF || p == P.CPX)

/-! ### Registers that are read from what they describe -/

/-- Pips left to the end of a hold or reverse (LTL_HOLD_PIPS). -/
def State.holdPips (s : State) (n : Nat) : Nat :=
  let l := s.loop n
  if l.reverse then (-(s.revOffset n)).toNat
  else match l.hold with
    | some h => (((h : Int) - l.projected s.now + 2 ^ 32 - 1) / 2 ^ 32).toNat
    | none => 0

/-- Whether a channel is in use (DIG_CH_STAT.ACTIVE). -/
def State.chanActive (s : State) (g c : Nat) : Bool := s.useB (P.DIG g) F.DIG_CH_CFG_EN c && s.digMode g != M.OFF

/-- Whether a page has a request present (R47, IRQ_REQ). -/
def State.requestPresent (s : State) (p : Nat) : Bool := s.reg p H.PEND &&& s.reg p H.EN != 0

/-- The present value of a register of the block region. -/
def State.liveReg (s : State) (p o : Nat) : Nat :=
  let v := s.reg p o
  match pageType p with
  | 0x02 => if o = 0x0E4 then s.stretchTime else v
  | 0x03 => if o = 0x060 then s.cntExp (p - 0x04) else if o = 0x068 then s.vcoKhz (p - 0x04) else v
  | 0x05 =>
    let n := p - 0x0C
    let l := s.loop n
    match o with
    | 0x084 => l.angleAt s.now % 2 ^ 32
    | 0x088 => l.angleAt s.now / 2 ^ 32
    | 0x08C => l.rateAt s.now % 2 ^ 32
    | 0x090 => l.rateAt s.now / 2 ^ 32
    | 0x094 => l.fInt % 2 ^ 32
    | 0x098 => l.fInt / 2 ^ 32
    | 0x0A4 => s.coastCycles n s.now
    | 0x0A8 => s.holdPips n % 2 ^ 24
    | _ => v
  | 0x07 =>
    let c := if s.start.phase < 4 then 0 else coarseOf s.now
    if o = 0x044 then c % 2 ^ 32
    else if o = 0x048 then c / 2 ^ 32
    else if 0x080 ≤ o ∧ o < 0x0A0 then fieldAt s.mapBytes (o - 0x080) 4
    else v
  | 0x08 =>
    let g := p - 0x20
    if o = 0x05C then (s.dig g).levels
    else if o = 0x078 then 32 * g
    else if 0x200 ≤ o ∧ o < 0x280 then
      let c := (o - 0x200) / 4
      putBit (putBit v 1 (bitOf ((s.dig g).levels ^^^ s.invMask g) c)) 0 (s.chanActive g c)
    else v
  | 0x12 => if p = P.ACQT ∧ 0x140 ≤ o ∧ o < 0x168 then putBits v 20 16 (s.kEffMax ((o - 0x140) / 4)) else v
  | 0x18 => if o = 0x04C then s.deepSize / 2 ^ 20 else v
  | 0x1D =>
    if 0x050 ≤ o ∧ o < 0x060 then
      (List.range 32).foldl (fun m b => if s.requestPresent (32 * ((o - 0x050) / 4) + b) then m + 2 ^ b else m) 0
    else v
  | 0x22 =>
    if o = 0x044 then b2n (s.run == .safe) * 2 ^ 31 + b2n s.saf.safeFault * 2 ^ 30 + b2n s.saf.resetNeeded * 2 ^ 29
    else if o = 0x040 then v ||| 0x513
    else v
  | _ => v

/-- Header registers (R32). -/
def State.readHeader (s : State) (p o : Nat) : Nat :=
  match o with
  | 0x000 => p * 2 ^ 24 + pageType p * 2 ^ 16 + 4 * 2 ^ 8 + (Config.minorVersion p).toNat
  | 0x004 =>
    pageInstance p * 2 ^ 17 + b2n (supervised p) * 2 ^ 16 + pageGroups p * 2 ^ 8 + 2 ^ 3 + b2n (sealed_ p) * 2 ^ 2 +
      b2n (pageGroups p != 0) * 2 + b2n (hasEvents p)
  | 0x008 => s.reg p H.CTL
  | 0x00C =>
    let v := putBit (s.reg p H.STAT) 0 (s.enabled p && !s.inReset p)
    if p = P.GLB then putBits v 7 4 (match s.run with | .ready => 0 | .armed => 2 | .safe => 3 | _ => 1) else v
  | 0x010 => s.reg p H.RAW
  | 0x014 => s.reg p H.PEND
  | 0x018 => s.reg p H.EN
  | 0x024 => s.reg p H.CSTAT
  | 0x028 => s.reg p H.CAUSE
  | 0x02C => s.activeCrc p
  | _ => 0

/-- The page whose copies a register addresses: its own, or the entry its window selects (R211, R344, R453); none past the lend table. -/
def State.copyPage (s : State) (p o : Nat) : Option Nat :=
  if !isWindow p o then some p
  else if p = P.TLDP then some (P.PT (s.get P.TLDP F.TLD_PT_PTR_ENTRY))
  else if p = P.SCR then
    (let g := s.get P.SCR F.SCR_LEND_PTR_GROUP
    if g < 96 then some (P.LEND g) else none)
  else some (P.SEAL s.saf.sel)

/-- A base-offset read of the block region: WO registers read 0 (R10). -/
def State.readBlock (s : State) (p o : Nat) : Nat :=
  match regAt p o with
  | none => 0
  | some (d, _) =>
    if d.acc = .wo then 0
    else match s.copyPage p o with
      | none => 0
      | some q => if q = p then s.liveReg p o else s.reg q o

/-- A mirror read (R36): the staged copy of RW fields, which in direct mode is the active one (R43). -/
def State.readMirror (s : State) (p o : Nat) : Nat :=
  match regAt p o with
  | none => 0
  | some (d, _) =>
    match s.copyPage p o with
    | none => 0
    | some q => if s.stagedMode p then mergeBits (s.readBlock p o) d.rw (s.stagedReg q o) else s.readBlock p o

/-- The value of the register at an aligned offset of a page (R28, R36). -/
def State.readReg (s : State) (p o : Nat) : Nat :=
  if !pageExists p then 0
  else if o < 0x040 then s.readHeader p o
  else if o < 0x800 then s.readBlock p o
  else if o < 0x840 then 0
  else s.readMirror p (o - 0x800)

/-! ### Register pairs (R29) -/

/-- Low words of the pairs of a page: offset, count, stride. -/
def pairRows (p : Nat) : List (Nat × Nat × Nat) :=
  match pageType p with
  | 0x01 => [(0x048, 1, 4)]
  | 0x05 => [(0x084, 1, 4), (0x08C, 1, 4), (0x094, 1, 4)]
  | 0x07 => [(0x044, 1, 4), (0x04C, 1, 4), (0x054, 1, 4)]
  | 0x09 => [(0x060, 1, 4), (0x088, 2, 0x60), (0x094, 2, 0x60), (0x09C, 2, 0x60), (0x0A4, 2, 0x60)]
  | 0x0A => [(0x064, 5, 8)]
  | 0x0C => [(0x050, 4, 8)]
  | 0x0D => [(0x100, 3, 8), (0x120, 2, 8)]
  | 0x0F => if p = P.TLD then [(0x050, 1, 4)] else []
  | 0x10 => [(0x048, 3, 8), (0x088, 1, 4)]
  | 0x12 => if p = P.ACQ then [(0x048, 2, 8), (0x078, 7, 8)] else if p = P.ACQM then [(0x050, 1, 4)] else []
  | 0x15 => [(0x068, 2, 8)]
  | 0x17 => [(0x05C, 1, 4)]
  | 0x18 => [(0x060, 1, 4), (0x078, 1, 4)]
  | 0x19 => [(0x070, 1, 4)]
  | 0x1A => [(0x098, 4, 0x20)]
  | 0x1E => [(0x044, 1, 4), (0x094, 16, 0x30)]
  | 0x1F => [(0x058, 2, 8)]
  | 0x24 => [(0x064, 1, 4)]
  | _ => []

/-- Whether an offset, at the base or in the mirror, is the low word of a pair. -/
def pairLow (p o : Nat) : Bool :=
  let o := if 0x840 ≤ o then o - 0x800 else o
  (pairRows p).any (fun r => decide (r.1 ≤ o) && (o - r.1) % r.2.2 == 0 && decide ((o - r.1) / r.2.2 < r.2.1))

/-- The holding register of a requester. -/
def State.holding (s : State) (req : Requester) : Option (Nat × Word) :=
  match req with | .host => s.regs.holdH | .cpx => s.regs.holdC | .remote => s.regs.holdR

def State.setHolding (s : State) (req : Requester) (h : Option (Nat × Word)) : State :=
  match req with
  | .host => { s with regs := { s.regs with holdH := h } }
  | .cpx => { s with regs := { s.regs with holdC := h } }
  | .remote => { s with regs := { s.regs with holdR := h } }

/-- A 32-bit read by a requester (R29): a low word captures its high word; a high word answers the captured value of the same pair. -/
def State.readWord (s : State) (req : Requester) (p o : Nat) : State × Nat :=
  let v := s.readReg p o
  if pairLow p o then (s.setHolding req (some (rkey p o, BitVec.ofNat 32 (s.readReg p (o + 4)))), v)
  else if decide (4 ≤ o) && pairLow p (o - 4) then
    match s.holding req with
    | some (k, h) => if k = rkey p (o - 4) then (s, h.toNat) else (s, v)
    | none => (s, v)
  else (s, v)

/-! ### Agreement checks -/

/-- The block's agreement check of a group (R37, R42); 0 when the members agree. -/
def State.checkGroup (s : State) (v : View) (p g : Nat) : Nat :=
  match pageType p with
  | 0x02 => checkPWR v g
  | 0x03 => checkCKS v p g
  | 0x04 => checkCKO v g
  | 0x05 => checkLTL v p g
  | 0x06 => checkANG v g
  | 0x07 => checkTIME v
  | 0x08 => checkDIG v p g
  | 0x09 => checkSTP v p g
  | 0x0A => checkFRQ v g
  | 0x0B => checkADC v g
  | 0x0C => checkACC v g
  | 0x0D => checkHAR v
  | 0x0E => checkWIN v g
  | 0x0F => checkTLD v p
  | 0x10 => checkGMB v
  | 0x11 => checkACT v g
  | 0x12 => checkACQ v p g
  | 0x13 => checkRFQ v g
  | 0x14 => checkCMP v g
  | 0x16 => checkSCR v g
  | 0x17 => checkMAR v g
  | 0x18 => checkDMC v g
  | 0x19 => checkSTO v g
  | 0x1A => checkNVQ v g
  | 0x1C => checkCMD v g
  | 0x1E => checkETH s.hostMode v p g
  | 0x1F => checkCAS v p g
  | 0x20 => checkFLX v p
  | 0x21 => checkTWN v p g
  | _ => 0

/-- What a check at a safe point looks at: staged values of the groups taken, active values otherwise (R37, R210). -/
def State.takenView (s : State) (taken : List (Nat × Nat)) : View := fun p o =>
  if taken.any (fun e => keyInGroup e.1 e.2 (rkey p o)) then s.stagedReg p o else s.reg p o

/-! ### What a block does with new settings -/

/-- Lanes newly under test, or no longer (R401): their links drop, Flepex ports train again. -/
def State.serTested (s : State) (old t : Nat) : State :=
  let new := s.use P.SER F.SER_TEST
  let began (i : Nat) : Bool := bitOf new i && !bitOf old i
  let s := if began 0 then
      (s.hostLink none).each (List.range 8) (fun s n =>
        if s.ethPort n then (s.put P.ETH F.ETH_PORT_STAT (putBit (s.get P.ETH F.ETH_PORT_STAT) n false)).level P.ETH n true else s)
    else s
  let drop (s : State) (d : Fin 4) : State := match execDriveLost t d s with | .next x => x | _ => s
  let s := if began 1 then s.each [0, 1, 2, 3] drop else s
  s.each [(2, Port.twin), (3, Port.east), (4, Port.west)] (fun s e => if began e.1 && s.portOn e.2 then (s.linkLoss e.2).setPort e.2 1 else s)

/-- A group of a page has new values in force: `s0` is the state before, `direct` a write in direct mode. -/
def State.settled (s : State) (s0 : State) (t p g : Nat) (direct : Bool) : State :=
  match pageType p with
  | 0x02 => s.pwrCopied t
  | 0x03 => if direct then s else s.cksCopied (p - 0x04) t g
  | 0x04 => s.refreshCko
  | 0x05 => if g = 0 then s.loopSourceChanged (p - 0x0C) t (s0.useReg p F.LTL_SRC_CFG.off) else s
  | 0x06 => if g = 0 then s else s.armOnce g t
  | 0x07 => s.timeSourceChanged (s0.use P.TIME F.TIME_CTL_SOURCE)
  | 0x08 => if g = 0 then s.digModeCopied (p - 0x20) else s
  | 0x09 => if g = 0 then s.stpState (p - 0x28) else s.dropStarts (2 * (p - 0x28) + (g - 1))
  | 0x0A => if g = 0 then s else (s.fuSettings (nextPly t) (2 * (g - 1))).fuSettings (nextPly t) (2 * (g - 1) + 1)
  | 0x0B => if g = 9 then s.convsCopied else if 1 ≤ g ∧ g ≤ 8 then s.setCopied (g - 1) else s
  | 0x0C => if g < 4 then s.ivSettings g t direct else s
  | 0x0D => s.harCopied
  | 0x0E => s.winCopied g t
  | 0x10 => s.gmbCopied
  | 0x11 => (s.driveLands t).actState
  | 0x12 => if p = P.ACQT then s.kmaxCopied g else s
  | 0x13 => s.each (List.range 22) State.refreshRfq
  | 0x16 => if g = 1 then s.lendCopied else s
  | 0x1C =>
    if g < 16 ∧ s.useB P.CMD F.CMD_RING_CFG_EN g then
      (s.putB P.CMD F.CMD_PTR_SQ_ERR false g).putB P.CMD F.CMD_PTR_CQ_ERR false g
    else s
  | 0x1E => if g = 0 ∨ direct then s else { s with eths := lmod s.eths (g - 1) (fun (d : EthDest) => { d with dgrams := 0 }) }
  | 0x20 => s.flxCopied
  | 0x21 => if g = 0 then s.twinCopied t (s0.useB P.TWN F.TWN_CTL_EN) else s
  | 0x23 => s.serTested (s0.use P.SER F.SER_TEST) t
  | _ => s

/-! ### Commit and safe points (R37 to R40) -/

/-- Every group of a page, as a mask. -/
def allGroups (p : Nat) : Nat := 2 ^ pageGroups p - 1

/-- A write of COMMIT (R37, R38). -/
def State.commitWrite (s : State) (p v : Nat) : State :=
  let named := if bitOf v 31 then allGroups p else bits v 16 0 &&& allGroups p
  let pend := s.pendGroups p
  if bitOf v 30 then
    (if bits v 16 0 = 0 ∧ !bitOf v 31 then s.setPendGroups p 0
    else s.setPendGroups p (pend &&& (0x1FFFF ^^^ named)))
  else s.setPendGroups p (pend ||| named)

/-- Whether a write reaches a page: it exists, the module is powered, and the page is not in soft reset (R44). -/
def State.writable (s : State) (p : Nat) : Bool := s.powered && pageExists p && !s.inReset p

/-- Any write to the SAF page but SAF_CLEAR breaks the clearing sequence (R448). -/
def State.breakKey (s : State) (p o : Nat) : State :=
  if p = P.SAF ∧ o ≠ F.SAF_CLEAR.off then s.modSaf (fun q => { q with keyAt := none }) else s

/-- COMMIT (R37). -/
def execCommit (t : Nat) (page : Nat) (value : Word) (s : State) : Res :=
  let s := s.at t
  .next (if s.writable page then (s.breakKey page 0).commitWrite page value.toNat else s)

/-- COMMIT_CANCEL (R38). -/
def execCommitCancel (t : Nat) (page : Nat) (value : Word) (s : State) : Res :=
  let s := s.at t
  .next (if s.writable page then (s.breakKey page 0).commitWrite page (putBit value.toNat 30 true) else s)

/-- Whether no command that uses the compression lanes runs (R316). -/
def State.lanesQuiet (s : State) : Bool := !s.runningOps.any (fun o => o.opcode == OP.OFFLOAD || o.opcode == OP.READ_RECORD || o.opcode == OP.COMPRESS)

/-- What the safe point of a group waits for, as the chapters name it; what they name by the next event, ply or cycle is the time of
the SAFE_POINT command itself. -/
def State.safeNow (s : State) (p g t : Nat) : Bool :=
  let idle := !s.isArmed
  match pageType p with
  | 0x02 => g != 0 || !s.power.sag
  | 0x03 => g == 1 || p == P.CKS 2 || p == P.CKS 3 || idle
  | 0x08 => !(g == 0 || g == 2) || idle
  | 0x09 => g != 0 || idle
  | 0x0B => g != 9 || idle
  | 0x0C => g != 4 || idle
  | 0x0F | 0x10 => idle
  | 0x11 => g == 8 || s.actIdle g
  | 0x12 =>
    if p = P.ACQ then idle
    else if p = P.ACQM then (if g = 0 then idle else decide (s.acq.protUntil ≤ t))
    else true
  | 0x14 => g != 0 || (idle && s.lanesQuiet)
  | 0x15 => !s.runningOps.any (fun o => s.hasDcp o)
  | 0x17 => s.mar.held.isNone
  | 0x18 => g != 1 || idle
  | 0x1C =>
    if g = 16 then s.runningOps.isEmpty
    else !s.useB P.CMD F.CMD_RING_CFG_EN g ||
      (s.get P.CMD F.CMD_PTR_SQ_HEAD g == (s.ringState g).sqTail &&
        !s.host.ops.any (fun o => o.from_.isNone && o.ring == g && o.ended))
  | 0x1E | 0x1F | 0x21 => g != 0 || idle
  | _ => true

/-- Groups taken at a safe point: those named that are pending and may be taken. The TLD pages are taken together (R210). -/
def State.takenAt (s : State) (p : Nat) (groups t : Nat) : List (Nat × Nat) :=
  let pages := if pageType p = 0x0F then [P.TLD, P.TLDC, P.TLDP, P.TLDT] else [p]
  let named := if pageType p = 0x0F then 1 else groups
  pages.flatMap (fun q => ((List.range 17).filter (fun g =>
    bitOf named g && bitOf (s.pendGroups q) g && (!s.enabled q || s.safeNow q g t))).map (fun g => (q, g)))

/-- Groups cease to be pending. -/
def State.unpend (s : State) (taken : List (Nat × Nat)) : State :=
  s.each taken (fun s e => s.setPendGroups e.1 (putBit (s.pendGroups e.1) e.2 false))

/-- The groups taken are copied (R37): the errors of each are gone (R40), and the blocks take the new settings up. -/
def State.copyTaken (s : State) (t : Nat) (taken : List (Nat × Nat)) : State :=
  let s0 := s
  let s := s.each taken (fun s e =>
    let s := if s.stagedMode e.1 then s.copyGroup e.1 e.2 else s
    ((s.setErr e.1 e.2 0).dropLastGood e.1 e.2).showErrs e.1)
  let s := s.each (taken.map Prod.fst).eraseDups (fun s p => s.commitFinished p false)
  s.each taken (fun s e => s.settled s0 t e.1 e.2 false)

/-- The groups taken are rejected (R37): none is copied, the failing ones are named. -/
def State.rejectTaken (s : State) (taken : List (Nat × Nat)) (causes : List ((Nat × Nat) × Nat)) : State :=
  let s := s.each (taken.map Prod.fst).eraseDups (fun s p => s.commitFinished p true)
  s.each causes (fun s e => (s.setErr e.1.1 e.1.2 e.2).showErrs e.1.1)

/-- SAFE_POINT (R37 to R39). -/
def execSafePoint (t : Nat) (page : Nat) (groups : BitVec 17) (s : State) : Res :=
  let s := s.at t
  let taken := s.takenAt page groups.toNat t
  .next (if !s.writable page ∨ taken.isEmpty then s
  else
    let view := s.takenView taken
    let causes := (taken.map (fun e => (e, s.checkGroup view e.1 e.2))).filter (fun e => e.2 != 0)
    let s := s.unpend taken
    if causes.isEmpty then s.copyTaken t taken else s.rejectTaken taken causes)

/-! ### Mode, reset, ENABLE (R43 to R45) -/

/-- Forget the staged copies of a page. -/
def State.dropStaged (s : State) (p : Nat) : State :=
  { s with regs := { s.regs with staged := s.regs.staged.filter (fun e => !ofPage p e.1) } }

/-- A write that changes STAGE_MODE (R43). -/
def State.stageModeWrite (s : State) (p : Nat) (staged : Bool) : State :=
  if staged == s.stagedMode p then s
  else
    let s := s.setReg p H.CTL (putBit (s.reg p H.CTL) 2 staged)
    if staged then
      let s := s.dropStaged p
      s.each (s.regs.active.filter (fun e => ofPage p e.1 && decide (0x040 ≤ e.1 % 0x1000))) (fun s e =>
        s.setStaged (e.1 / 0x1000) (e.1 % 0x1000) e.2.toNat)
    else (s.setPendGroups p 0).dropStaged p

/-- STAGE_MODE_CHANGE (R43). -/
def execStageModeChange (t : Nat) (page : Nat) (staged : Bool) (s : State) : Res :=
  let s := s.at t
  .next (if s.writable page then (s.breakKey page 0).stageModeWrite page staged else s)

/-- Set the pages whose soft reset is under way. -/
def State.setResetting (s : State) (l : List Nat) : State := { s with regs := { s.regs with resetting := l } }

/-- A write of 1 to SOFT_RESET (R44): the page and its block are reset; BUSY and SOFT_RESET read 1. -/
def State.softResetWrite (s : State) (p t : Nat) : State :=
  let s := s.pageReset p t
  let s := s.setResetting (p :: s.regs.resetting)
  (s.setReg p H.CTL (putBit (s.reg p H.CTL) 1 true)).setBusy p true

/-- SOFT_RESET (R26, R44). -/
def execSoftReset (t : Nat) (page : Nat) (s : State) : Res :=
  let s := s.at t
  .next (if s.writable page then (s.breakKey page 0).softResetWrite page t else s)

/-- SOFT_RESET_COMPLETE (R44): the page takes writes again; a page whose ENABLE resets to 1 runs again, and its gaps end. -/
def execSoftResetComplete (t : Nat) (page : Nat) (s : State) : Res :=
  let s := s.at t
  .next (if s.inReset page then
      let s := s.setResetting (s.regs.resetting.filter (fun x => x != page))
      let s := (s.setReg page H.CTL (putBit (s.reg page H.CTL) 1 false)).setBusy page false
      if alwaysEnabled page then s.gapClose (gapStreams page) t 5 false else s
    else s)

/-- A write of ENABLE (R45): ignored where it is 0 on a page that always runs. -/
def State.enableBit (s : State) (p t : Nat) (b : Bool) : State :=
  if b == s.enabled p ∨ (!b ∧ alwaysEnabled p) then s
  else if b then s.pageStart p t else s.pageStop p t

/-- ENABLE_WRITE (R45). -/
def execEnableWrite (t : Nat) (page : Nat) (enable : Bool) (s : State) : Res :=
  let s := s.at t
  .next (if s.writable page then (s.breakKey page 0).enableBit page t enable else s)

/-! ### Events (R46 to R48) -/

/-- A W1C write of EVT_PEND (R46). -/
def State.pendClear (s : State) (p v : Nat) : State := s.setReg p H.PEND (s.reg p H.PEND &&& (0xFFFFFFFF ^^^ v))

/-- A write of EVT_EN (R47): a bit already pending raises the request at once when it becomes enabled. -/
def State.enWrite (s : State) (p v : Nat) : State :=
  let old := s.reg p H.EN
  let new := v &&& 0xEFFFFFFF
  let s := s.setReg p H.EN new
  if new &&& (0xFFFFFFFF ^^^ old) &&& s.reg p H.PEND = 0 then s else s.irqRequest p

/-- A write of EVT_FORCE (R48). -/
def State.forceWrite (s : State) (p v : Nat) : State :=
  s.each ((List.range 32).filter (fun b => bitOf v b && b != 28)) (fun s b => s.latch p b)

/-- EVT_PEND_CLEAR (R46). -/
def execEvtPendClear (t : Nat) (page : Nat) (value : Word) (s : State) : Res :=
  let s := s.at t
  .next (if s.writable page then (s.breakKey page 0).pendClear page value.toNat else s)

/-- EVT_EN_WRITE (R47). -/
def execEvtEnWrite (t : Nat) (page : Nat) (value : Word) (s : State) : Res :=
  let s := s.at t
  .next (if s.writable page then (s.breakKey page 0).enWrite page value.toNat else s)

/-- EVT_FORCE (R48). -/
def execEvtForce (t : Nat) (page : Nat) (value : Word) (s : State) : Res :=
  let s := s.at t
  .next (if s.writable page then (s.breakKey page 0).forceWrite page value.toNat else s)

/-! ### Writes of RW fields (R37, R41, R42) -/

/-- The ways a write meets the old value: a plain write, the set alias, the clear alias (R27, R30). -/
inductive WriteMode where
  | plain | set | clear
  deriving DecidableEq, Repr

def WriteMode.apply (m : WriteMode) (old v : Nat) : Nat :=
  match m with
  | .plain => v
  | .set => old ||| v
  | .clear => old &&& (0xFFFFFFFF ^^^ v)

/-- Set the values groups in error go on using (R42). -/
def State.setLastGood (s : State) (l : List (Nat × Word)) : State := { s with regs := { s.regs with lastGood := l } }

/-- In direct mode the block checks the group a write changed (R42): it takes a passing set up, or keeps the last passing values. -/
def State.directTaken (s : State) (s0 : State) (t p g : Nat) (changed : List (Nat × Word)) : State :=
  let cause := s.checkGroup (fun q o => s.reg q o) p g
  if cause = 0 then
    let s := ((s.setErr p g 0).dropLastGood p g).showErrs p
    s.settled s0 t p g true
  else
    let keep := changed.filter (fun e => (s.regs.lastGood.lookup e.1).isNone)
    let s := s.setLastGood (keep ++ s.regs.lastGood)
    (s.setErr p g cause).showErrs p

/-- Pointers that advance with a write of their window's last data register (R211, R344). -/
def State.advanceWindow (s : State) (p o : Nat) : State :=
  if p = P.TLDP ∧ o = F.TLD_PT_CTL.off ∧ s.getB P.TLDP F.TLD_PT_PTR_INC then
    s.put P.TLDP F.TLD_PT_PTR_ENTRY (s.get P.TLDP F.TLD_PT_PTR_ENTRY + 1)
  else if p = P.SCR ∧ o = F.SCR_LEND_DATA.off ∧ s.getB P.SCR F.SCR_LEND_PTR_INC then
    s.put P.SCR F.SCR_LEND_PTR_GROUP ((s.get P.SCR F.SCR_LEND_PTR_GROUP + 1) % 96)
  else s

/-- RW bits of a register that a write reaches: the lend flags of groups 0 to 7 stay NEVER (R344). -/
def State.writeMask (s : State) (p o rw : Nat) : Nat :=
  if p = P.SCR ∧ o = F.SCR_LEND_DATA.off ∧ s.get P.SCR F.SCR_LEND_PTR_GROUP < 8 then 0 else rw

/-- Write RW fields of the block region: (offset, value) pairs as one single write (R29). -/
def State.writeRW (s : State) (t p : Nat) (m : WriteMode) (ws : List (Nat × Nat)) : State :=
  let s0 := s
  let staged := s.stagedMode p
  let hits := ws.filterMap (fun w =>
    match regAt p w.1, s.copyPage p w.1 with
    | some (d, i), some q =>
      if d.rw = 0 then none
      else
        let old := if staged then s.stagedReg q w.1 else s.reg q w.1
        some (q, w.1, s.writeMask p w.1 d.rw, m.apply old w.2, (d.group i).getD 99)
    | _, _ => none)
  let s := s.each hits (fun s h => s.storeRW staged h.1 h.2.1 h.2.2.1 h.2.2.2.1)
  let s := if staged then s
    else
      let groups := (hits.map (fun h => h.2.2.2.2)).eraseDups
      s.each groups (fun s g => s.directTaken s0 t p g ((hits.filter (fun h => h.2.2.2.2 == g)).map (fun h =>
        (rkey h.1 h.2.1, BitVec.ofNat 32 (s0.reg h.1 h.2.1)))))
  s.each hits (fun s h => s.advanceWindow p h.2.1)

/-- SCR_LEND_DATA_WRITE (R344). -/
def execScrLendDataWrite (t : Nat) (value : Word) (s : State) : Res :=
  let s := s.at t
  .next (if s.writable P.SCR then s.writeRW t P.SCR .plain [(F.SCR_LEND_DATA.off, value.toNat)] else s)

/-- TLD_PT_CTL_WRITE (R211): the addressed entry, under the page's staging mode; with INC the pointer advances. -/
def execTldPtCtlWrite (t : Nat) (value : Word) (s : State) : Res :=
  let s := s.at t
  .next (if s.writable P.TLDP then s.writeRW t P.TLDP .plain [(F.TLD_PT_CTL.off, value.toNat)] else s)

/-! ### Writes that act at once (R10) -/

/-- The state a meaning answers. -/
def Res.keep (s : State) (r : Res) : State := match r with | .next x => x | _ => s

/-- Writes of WO and W1C registers of the capture pages. -/
def State.actWrite1 (s : State) (t p o : Nat) (w : Word) : State :=
  let v := w.toNat
  match pageType p with
  | 0x01 => if o = 0x070 then Res.keep s (execGlbReset t w s) else if o = 0x078 then Res.keep s (execGlbClr w s) else s
  | 0x02 => if o = 0x0F4 then Res.keep s (execPwrClr w s) else s
  | 0x03 =>
    if o = F.CKS_RELOCK.off then
      let n : Fin 4 := Fin.ofNat 4 (p - 0x04)
      let s := if bitOf v F.CKS_RELOCK_RELOCK.lo then Res.keep s (execRelock t n s) else s
      if bitOf v F.CKS_RELOCK_CLR_CNT.lo then Res.keep s (execClrCnt n s) else s
    else s
  | 0x05 => if o = 0x0C8 then Res.keep s (execLtlClr (Fin.ofNat 4 (p - 0x0C)) w s) else s
  | 0x06 => if o = 0x070 then Res.keep s (execAngClr w s) else s
  | 0x07 =>
    if o = 0x04C then Res.keep s (execTimeSetSec false w s)
    else if o = 0x050 then Res.keep s (execTimeSetSec true w s)
    else if o = 0x070 then Res.keep s (execTimeClr w s)
    else s
  | 0x08 =>
    let g : Fin 8 := Fin.ofNat 8 (p - 0x20)
    if o = F.DIG_BCAST.off then Res.keep s (execDigBcast g w s) else if o = 0x070 then Res.keep s (execDigClr g w s) else s
  | 0x09 =>
    let g : Fin 8 := Fin.ofNat 8 (p - 0x28)
    if o = 0x06C then Res.keep s (execStpClr g w s) else if o = 0x070 then Res.keep s (execStpIpSnap g w s) else s
  | 0x0A =>
    if o = 0x044 then Res.keep s (execFrqSnapSel w s)
    else if o = 0x048 then Res.keep s (execFrqNewClear w s)
    else if o = 0x050 then Res.keep s (execFrqClr w s)
    else s
  | 0x0B => if o = 0x054 then Res.keep s (execAdcClr w s) else s
  | 0x0C => if o = 0x07C then Res.keep s (execAccSnapSel w s) else s
  | 0x0D => if o = 0x04C then Res.keep s (execHarSnapSel w s) else if o = 0x054 then Res.keep s (execHarClr w s) else s
  | 0x0F =>
    if p = P.TLD ∧ o = 0x048 then Res.keep s (execSoft t w s)
    else if p = P.TLD ∧ o = 0x068 then Res.keep s (execTldClr w s)
    else if p = P.TLDP ∧ o = 0x040 then Res.keep s (execTldPtSel w s)
    else if p = P.TLDT ∧ o = F.TLD_TC_SNAP_SEL.off then Res.keep s (execTldTcSnapSel t w s)
    else s
  | 0x10 => if o = 0x0E0 then Res.keep s (execGmbClr w s) else s
  | 0x11 => if o = 0x050 then Res.keep s (execActRelease t w s) else if o = 0x05C then Res.keep s (execActClr w s) else s
  | 0x12 =>
    if p = P.ACQ ∧ o = F.ACQ_ARM.off then
      (if bitOf v F.ACQ_ARM_ARM.lo then Res.keep s (execArm t w s) else Res.keep s (execStop t w s))
    else if p = P.ACQ ∧ o = F.ACQ_CLR.off then Res.keep s (execAcqClr w s)
    else if p = P.ACQT ∧ o = F.ACQ_THIN_CLR.off then Res.keep s (execAcqThinClr w s)
    else s
  | _ => s

/-- The same of the other pages. -/
def State.actWrite2 (s : State) (t p o : Nat) (w : Word) : State :=
  let v := w.toNat
  match pageType p with
  | 0x13 => if o = F.RFQ_FLUSH.off then Res.keep s (execRfqFlush t w s) else if o = F.RFQ_CLR.off then Res.keep s (execRfqClr w s) else s
  | 0x14 => if o = F.CMP_CLR.off then Res.keep s (execCmpClr w s) else s
  | 0x15 => if o = F.DCP_CLR.off then Res.keep s (execDcpClr w s) else s
  | 0x16 => if o = 0x048 then Res.keep s (execScrLendSel w s) else if o = 0x070 then Res.keep s (execScrClr w s) else s
  | 0x17 => if o = 0x06C then Res.keep s (execMarClr w s) else s
  | 0x18 => if o = 0x074 then Res.keep s (execDmcBadrowSel w s) else if o = 0x084 then Res.keep s (execDmcClr w s) else s
  | 0x19 =>
    if o = 0x060 then Res.keep s (execStoCatSel w s)
    else if o = 0x078 then Res.keep s (execStoFreeRec t w s)
    else if o = 0x094 then Res.keep s (execStoClr w s)
    else s
  | 0x1A => if o = 0x048 then Res.keep s (execNvqReset t w s) else if o = 0x04C then Res.keep s (execNvqClr w s) else s
  | 0x1B => if o = 0x054 then Res.keep s (execHifClr w s) else s
  | 0x1C =>
    if 0x1C0 ≤ o ∧ o < 0x200 then
      let n : Fin 16 := Fin.ofNat 16 ((o - 0x1C0) / 4)
      let s := Res.keep s (execSqDoorbell t n w s)
      Res.keep s (execCqDoorbell t n w s)
    else s
  | 0x1E => if o = 0x064 then Res.keep s (execEthClr w s) else s
  | 0x1F => if o = 0x0A0 then Res.keep s (execCasClr w s) else s
  | 0x20 => if o = 0x044 then Res.keep s (execFlxRetrain t w s) else if o = 0x048 then Res.keep s (execFlxClr w s) else s
  | 0x21 => if o = 0x058 then Res.keep s (execDetach t (some w) s) else if o = 0x098 then Res.keep s (execTwnClr w s) else s
  | 0x22 =>
    if o = 0x054 then Res.keep s (execSafClear t w s)
    else if o = 0x058 then Res.keep s (execSafSealSel w s)
    else if o = 0x06C then Res.keep s (execSafClr w s)
    else s
  | 0x23 => if o = 0x044 then Res.keep s (execSerClr w s) else s
  | 0x24 => if o = 0x05C then s.mboxWrite v else if o = 0x07C then Res.keep s (execCpxClr w s) else s
  | _ => s

/-- A write of a WO or W1C register. -/
def State.actWrite (s : State) (t p o : Nat) (w : Word) : State :=
  if pageType p ≤ 0x12 then s.actWrite1 t p o w else s.actWrite2 t p o w

/-! ### A 32-bit write (R28, R30, R32) -/

/-- A write of a header register; only RW fields are reached through an alias. -/
def State.writeHeader (s : State) (t p o : Nat) (m : WriteMode) (v : Nat) : State :=
  match o with
  | 0x008 =>
    let v := m.apply (s.reg p H.CTL) v
    if bitOf v 1 then s.softResetWrite p t else (s.stageModeWrite p (bitOf v 2)).enableBit p t (bitOf v 0)
  | 0x014 => if m = .plain then s.pendClear p v else s
  | 0x018 => s.enWrite p (m.apply (s.reg p H.EN) v)
  | 0x01C => if m = .plain then s.forceWrite p v else s
  | 0x020 => if m = .plain then s.commitWrite p v else s
  | _ => s

/-- The base offset a write addresses: a mirror write acts as one at the base (R36). -/
def baseOffset (o : Nat) : Option Nat := if o < 0x800 then some o else if o < 0x840 then none else some (o - 0x800)

/-- A 32-bit write to a page. -/
def State.writeReg (s : State) (t p o : Nat) (m : WriteMode) (v : Nat) : State :=
  match baseOffset o with
  | none => s
  | some o =>
    if !s.writable p then s
    else
      let s := s.breakKey p o
      if o < 0x040 then s.writeHeader t p o m v
      else match regAt p o with
        | none => s
        | some (d, _) =>
          match d.acc with
          | .rw => s.writeRW t p m [(o, v)]
          | .ro => s
          | _ => if m = .plain then s.actWrite t p o (BitVec.ofNat 32 v) else s

/-- A 64-bit write aligned to 8 bytes (R29): a pair of RW registers takes it as one single write, else each register takes its half. -/
def State.writeReg64 (s : State) (t p o : Nat) (m : WriteMode) (v : Nat) : State :=
  let lo := v % 2 ^ 32
  let hi := v / 2 ^ 32
  match baseOffset o with
  | none => s
  | some b =>
    if pairLow p b ∧ 0x040 ≤ b then
      (if s.writable p then (s.breakKey p b).writeRW t p m [(b, lo), (b + 4, hi)] else s)
    else (s.writeReg t p o m lo).writeReg t p (o + 4) m hi

/-! ### The remote window (R31, R423) -/

/-- An access of the window that fails: RWIN_ERR and its counter. -/
def State.rwinError (s : State) : State := (s.sat P.CAS F.CAS_RWIN_ERR_CNT).pulse P.CAS 5

/-- Issue an access of the remote window to the module CAS_RWIN_DEV names; a SOLO module fails it at once. -/
def State.rwinIssue (s : State) (t : Nat) (read : Bool) (off value : Nat) : State :=
  if s.role = C.SOLO then
    let s := if read then s.emit (.readData .host (leBytes 4 0xFFFFFFFF)) else s
    s.rwinError
  else
    let dest := s.use P.CAS F.CAS_RWIN_DEV
    let s := s.sendTo TK.REG dest ((if read then RK.READ else RK.WRITE) * 2 ^ 28 + off) value 0 0
    s.modCas (fun c => { c with rwin := c.rwin ++ [{ read := read, dest := dest, off := off, issued := t }] })

/-- REMOTE_WINDOW_READ (R423). -/
def execRemoteWindowRead (t : Nat) (req : Requester) (offset : BitVec 20) (s : State) : Res :=
  let s := s.at t
  .next (if s.served req ∧ s.started then s.rwinIssue t true (offset.toNat / 4 * 4) 0 else s)

/-- REMOTE_WINDOW_WRITE (R423). -/
def execRemoteWindowWrite (t : Nat) (req : Requester) (offset : BitVec 20) (value : Word) (s : State) : Res :=
  let s := s.at t
  .next (if s.served req ∧ s.started ∧ offset.toNat % 4 = 0 then s.rwinIssue t false offset.toNat value.toNat else s)

/-- An access of the window ends: a read is answered, a failure reported. -/
def State.rwinEnd (s : State) (a : RwinAccess) (value : Option Nat) : State :=
  let s := if a.read then s.emit (.readData .host (leBytes 4 (value.getD 0xFFFFFFFF))) else s
  if value.isNone then s.rwinError else s

/-- RWIN_TIMEOUT (R423): the oldest access whose time is over. -/
def execRwinTimeout (t : Nat) (s : State) : Res :=
  let s := s.at t
  let limit := usSlots (s.use P.CAS F.CAS_RWIN_CFG_RWIN_TIMEOUT)
  .next (match s.cas.rwin.find? (fun a => decide (a.issued + limit ≤ t)) with
  | none => s
  | some a => (s.modCas (fun c => { c with rwin := c.rwin.erase a })).rwinEnd a none)

/-- REG_TOKEN (R409, R423): a READ or WRITE of another module's window is performed and answered by RESP; a RESP ends this window's oldest
access of that register there. -/
def execRegToken (t : Nat) (port : Port) (token : Token) (s : State) : Res :=
  let s := s.at t
  if token.type ≠ TK.REG ∨ RK.RESP < token.regKind then .next s
  else
    let use := s.tokenFor port token && port != .twin
    let s := s.ringToken t port token
    let w0 := token.w0.toNat
    let off := bits w0 19 0 / 4 * 4
    let p := off / 0x1000
    let o := off % 0x1000
    let v := bits token.w1.toNat 31 0
    .next (if !use then s
    else
      let answer (s : State) (v : Nat) : State :=
        s.sendTo TK.REG token.origin (RK.RESP * 2 ^ 28 + b2n (!pageExists p) * 2 ^ 27 + off) v 0 0
      if token.regKind = RK.READ then
        let r := s.readWord .remote p o
        answer r.1 r.2
      else if token.regKind = RK.WRITE then answer (s.writeReg t p o .plain v) 0
      else match s.cas.rwin.find? (fun a => a.dest == token.origin && a.off == off) with
        | none => s
        | some a => (s.modCas (fun c => { c with rwin := c.rwin.erase a })).rwinEnd a (if bitOf w0 27 then none else some v))

/-! ### BAR0 (R27 to R31) -/

/-- Size of BAR0. -/
def bar0Size : Nat := 0x400000

/-- Region of a BAR0 offset: 0 local pages, 1 set alias, 2 clear alias, 3 remote window. -/
def bar0Region (a : Nat) : Nat := a / 0x100000

/-- One 32-bit write into BAR0. -/
def State.bar0Word (s : State) (t : Nat) (req : Requester) (a v : Nat) : State :=
  let off := a % 0x100000
  let p := off / 0x1000
  match bar0Region a with
  | 0 => if s.pageReach req p then s.writeReg t p (off % 0x1000) .plain v else s
  | 1 => if s.pageReach req p then s.writeReg t p (off % 0x1000) .set v else s
  | 2 => if s.pageReach req p then s.writeReg t p (off % 0x1000) .clear v else s
  | 3 => if s.started then s.rwinIssue t false off v else s
  | _ => s

/-- One aligned 64-bit write into BAR0. -/
def State.bar0Long (s : State) (t : Nat) (req : Requester) (a v : Nat) : State :=
  let off := a % 0x100000
  let p := off / 0x1000
  match bar0Region a with
  | 0 => if s.pageReach req p then s.writeReg64 t p (off % 0x1000) .plain v else s
  | 1 => if s.pageReach req p then s.writeReg64 t p (off % 0x1000) .set v else s
  | 2 => if s.pageReach req p then s.writeReg64 t p (off % 0x1000) .clear v else s
  | _ => (s.bar0Word t req a (v % 2 ^ 32)).bar0Word t req (a + 4) (v / 2 ^ 32)

/-- The words of a write (R28): only registers it writes in full, in ascending order. A write that does not start on a 4-byte
boundary is at least 8 bytes long if it covers a register. -/
def fullWords (a : Nat) (data : List Byte) : List (Nat × Nat) :=
  let skip := (4 - a % 4) % 4
  (List.range ((data.length - skip) / 4)).map (fun i => (a + skip + 4 * i, fieldAt data (skip + 4 * i) 4))

/-- A write of any width into BAR0. -/
def State.bar0Write (s : State) (t : Nat) (req : Requester) (a : Nat) (data : List Byte) : State :=
  if data.length = 8 ∧ a % 8 = 0 then s.bar0Long t req a (fromLe data)
  else s.each (fullWords a data) (fun s w => s.bar0Word t req w.1 w.2)

/-- REGISTER_WRITE (R28, R31): a write into BAR0; one that carries poisoned data is discarded (R373). -/
def execRegisterWrite (t : Nat) (req : Requester) (addr : Nat) (data : List Byte) (poisoned : Bool) (s : State) : Res :=
  if bar0Size < addr + data.length then .fault .illFormed
  else
    let s := s.at t
    .next (if !s.served req then s
    else if poisoned ∧ req = .host then s.poisonedRx
    else s.bar0Write t req addr data)

/-- SET_ALIAS_WRITE (R30): a write whose offset lies in the set alias. -/
def execSetAliasWrite (t : Nat) (req : Requester) (addr : Nat) (data : List Byte) (s : State) : Res :=
  if bar0Region addr ≠ 1 ∨ 0x200000 < addr + data.length then .fault .illFormed
  else
    let s := s.at t
    .next (if s.served req then s.bar0Write t req addr data else s)

/-- CLEAR_ALIAS_WRITE (R30). -/
def execClearAliasWrite (t : Nat) (req : Requester) (addr : Nat) (data : List Byte) (s : State) : Res :=
  if bar0Region addr ≠ 2 ∨ 0x300000 < addr + data.length then .fault .illFormed
  else
    let s := s.at t
    .next (if s.served req then s.bar0Write t req addr data else s)

/-- PAIR_LOW_WORD_READ (R29): a 32-bit read. It answers any register; the low word of a pair captures its high word. -/
def execPairLowWordRead (t : Nat) (req : Requester) (addr : Nat) (s : State) : Res :=
  if bar0Size ≤ addr ∨ addr % 4 ≠ 0 then .fault .illFormed
  else
    let s := s.at t
    let off := addr % 0x100000
    let p := off / 0x1000
    .next (if !s.served req then s
    else if bar0Region addr = 3 then
      (if s.started then s.rwinIssue t true off 0 else s.emit (.readData req (leBytes 4 0)))
    else if !s.pageReach req p then s.emit (.readData req (leBytes 4 0))
    else
      let r := s.readWord req p (off % 0x1000)
      r.1.emit (.readData req (leBytes 4 r.2)))

/-- PAIR_64_WRITE (R29): an aligned 64-bit write. -/
def execPair64Write (t : Nat) (req : Requester) (addr : Nat) (value : Word64) (s : State) : Res :=
  if bar0Size ≤ addr ∨ addr % 8 ≠ 0 then .fault .illFormed
  else
    let s := s.at t
    .next (if s.served req then s.bar0Long t req addr value.toNat else s)

end Sys2Proof.Machine
end

