-- ==== Sys2Proof/Machine/Dispatch.lean ====
section
/-!
DEFINITION. One arm for each command of the table.
-/
namespace Sys2Proof.Machine

def exec (i : Instr) (s : State) : Host.Outcome State Fault Refusal :=
  match i with
  | .registerWrite t req addr data poisoned => Sys2Proof.Machine.execRegisterWrite t req addr data poisoned s
  | .setAliasWrite t req addr data => Sys2Proof.Machine.execSetAliasWrite t req addr data s
  | .clearAliasWrite t req addr data => Sys2Proof.Machine.execClearAliasWrite t req addr data s
  | .pairLowWordRead t req addr => Sys2Proof.Machine.execPairLowWordRead t req addr s
  | .pair64Write t req addr value => Sys2Proof.Machine.execPair64Write t req addr value s
  | .remoteWindowRead t req offset => Sys2Proof.Machine.execRemoteWindowRead t req offset s
  | .remoteWindowWrite t req offset value => Sys2Proof.Machine.execRemoteWindowWrite t req offset value s
  | .rwinTimeout t => Sys2Proof.Machine.execRwinTimeout t s
  | .commit t page value => Sys2Proof.Machine.execCommit t page value s
  | .commitCancel t page value => Sys2Proof.Machine.execCommitCancel t page value s
  | .safePoint t page groups => Sys2Proof.Machine.execSafePoint t page groups s
  | .stageModeChange t page staged => Sys2Proof.Machine.execStageModeChange t page staged s
  | .softReset t page => Sys2Proof.Machine.execSoftReset t page s
  | .softResetComplete t page => Sys2Proof.Machine.execSoftResetComplete t page s
  | .enableWrite t page enable => Sys2Proof.Machine.execEnableWrite t page enable s
  | .evtPendClear t page value => Sys2Proof.Machine.execEvtPendClear t page value s
  | .evtEnWrite t page value => Sys2Proof.Machine.execEvtEnWrite t page value s
  | .evtForce t page value => Sys2Proof.Machine.execEvtForce t page value s
  | .msixUnmask vector => Sys2Proof.Machine.execMsixUnmask vector s
  | .relock t n => Sys2Proof.Machine.execRelock t n s
  | .clrCnt n => Sys2Proof.Machine.execClrCnt n s
  | .lockAttempt t n refKhz => Sys2Proof.Machine.execLockAttempt t n refKhz s
  | .bandSearchStep t n count => Sys2Proof.Machine.execBandSearchStep t n count s
  | .bandVerify t n count => Sys2Proof.Machine.execBandVerify t n count s
  | .lockWindowEnd t n count => Sys2Proof.Machine.execLockWindowEnd t n count s
  | .phaseSlip t n => Sys2Proof.Machine.execPhaseSlip t n s
  | .refLoss t => Sys2Proof.Machine.execRefLoss t s
  | .refclkReturn t refKhz => Sys2Proof.Machine.execRefclkReturn t refKhz s
  | .dlgLock t g => Sys2Proof.Machine.execDlgLock t g s
  | .dlgUnlock t g => Sys2Proof.Machine.execDlgUnlock t g s
  | .loopReferenceEvent t n => Sys2Proof.Machine.execLoopReferenceEvent t n s
  | .holdEnd t n => Sys2Proof.Machine.execHoldEnd t n s
  | .encoderCount t n a b => Sys2Proof.Machine.execEncoderCount t n a b s
  | .encoderIndex t n => Sys2Proof.Machine.execEncoderIndex t n s
  | .coastOn t n => Sys2Proof.Machine.execCoastOn t n s
  | .coastLong t n => Sys2Proof.Machine.execCoastLong t n s
  | .loopCycleBoundary t n => Sys2Proof.Machine.execLoopCycleBoundary t n s
  | .mapPeriodicPoint t n => Sys2Proof.Machine.execMapPeriodicPoint t n s
  | .angleEventFire t e => Sys2Proof.Machine.execAngleEventFire t e s
  | .angleToken t port token => Sys2Proof.Machine.execAngleToken t port token s
  | .overrangeEntry t g c hi => Sys2Proof.Machine.execOverrangeEntry t g c hi s
  | .overrangeExit t g c => Sys2Proof.Machine.execOverrangeExit t g c s
  | .ovrWindowClose t g => Sys2Proof.Machine.execOvrWindowClose t g s
  | .stateClockEdge t g rising word => Sys2Proof.Machine.execStateClockEdge t g rising word s
  | .stateClkTimeout t g => Sys2Proof.Machine.execStateClkTimeout t g s
  | .keepAlive t g => Sys2Proof.Machine.execKeepAlive t g s
  | .digBcast g value => Sys2Proof.Machine.execDigBcast g value s
  | .digClr g value => Sys2Proof.Machine.execDigClr g value s
  | .stampEdge stamp edges => Sys2Proof.Machine.execStampEdge stamp edges s
  | .mergeWindowClose t g => Sys2Proof.Machine.execMergeWindowClose t g s
  | .tableRebuild t g ready => Sys2Proof.Machine.execTableRebuild t g ready s
  | .coarseWrap t => Sys2Proof.Machine.execCoarseWrap t s
  | .ipSpanExpiry t u => Sys2Proof.Machine.execIpSpanExpiry t u s
  | .stpIpSnap g value => Sys2Proof.Machine.execStpIpSnap g value s
  | .stpClr g value => Sys2Proof.Machine.execStpClr g value s
  | .freqGateEnd t u => Sys2Proof.Machine.execFreqGateEnd t u s
  | .freqResult t u => Sys2Proof.Machine.execFreqResult t u s
  | .frqSnapSel value => Sys2Proof.Machine.execFrqSnapSel value s
  | .frqNewClear value => Sys2Proof.Machine.execFrqNewClear value s
  | .frqClr value => Sys2Proof.Machine.execFrqClr value s
  | .conversionStart t set => Sys2Proof.Machine.execConversionStart t set s
  | .conversionResult t n raw => Sys2Proof.Machine.execConversionResult t n raw s
  | .pulseSourcePulse t set width => Sys2Proof.Machine.execPulseSourcePulse t set width s
  | .converterWakeRequest t n => Sys2Proof.Machine.execConverterWakeRequest t n s
  | .converterReady t n => Sys2Proof.Machine.execConverterReady t n s
  | .injectedRequest t n slot => Sys2Proof.Machine.execInjectedRequest t n slot s
  | .calibrate t r means => Sys2Proof.Machine.execCalibrate t r means s
  | .overloadTrip t n => Sys2Proof.Machine.execOverloadTrip t n s
  | .disturbSpanEnd t q => Sys2Proof.Machine.execDisturbSpanEnd t q s
  | .intervalBoundary t iv slot => Sys2Proof.Machine.execIntervalBoundary t iv slot s
  | .adcClr value => Sys2Proof.Machine.execAdcClr value s
  | .accSnapSel value => Sys2Proof.Machine.execAccSnapSel value s
  | .harSnapSel value => Sys2Proof.Machine.execHarSnapSel value s
  | .harClr value => Sys2Proof.Machine.execHarClr value s
  | .ladderPly t x => Sys2Proof.Machine.execLadderPly t x s
  | .soft t value => Sys2Proof.Machine.execSoft t value s
  | .tldClr value => Sys2Proof.Machine.execTldClr value s
  | .tldTcSnapSel t value => Sys2Proof.Machine.execTldTcSnapSel t value s
  | .tldPtSel value => Sys2Proof.Machine.execTldPtSel value s
  | .tldPtCtlWrite t value => Sys2Proof.Machine.execTldPtCtlWrite t value s
  | .actPulseEnd t n => Sys2Proof.Machine.execActPulseEnd t n s
  | .actRelease t value => Sys2Proof.Machine.execActRelease t value s
  | .actReadback t levels => Sys2Proof.Machine.execActReadback t levels s
  | .actClr value => Sys2Proof.Machine.execActClr value s
  | .lateBitKnown t unit ply => Sys2Proof.Machine.execLateBitKnown t unit ply s
  | .replayCatchUp t => Sys2Proof.Machine.execReplayCatchUp t s
  | .ladderOverrun t => Sys2Proof.Machine.execLadderOverrun t s
  | .settleTimeout t => Sys2Proof.Machine.execSettleTimeout t s
  | .gmbClr value => Sys2Proof.Machine.execGmbClr value s
  | .arm t value => Sys2Proof.Machine.execArm t value s
  | .armingTakesEffect t => Sys2Proof.Machine.execArmingTakesEffect t s
  | .stop t value => Sys2Proof.Machine.execStop t value s
  | .collarFull t => Sys2Proof.Machine.execCollarFull t s
  | .recordClose t => Sys2Proof.Machine.execRecordClose t s
  | .liveClip t => Sys2Proof.Machine.execLiveClip t s
  | .thinStepUp t idx press => Sys2Proof.Machine.execThinStepUp t idx press s
  | .thinStepDown t idx press => Sys2Proof.Machine.execThinStepDown t idx press s
  | .rate t idx => Sys2Proof.Machine.execRate t idx s
  | .overflow t idx lost => Sys2Proof.Machine.execOverflow t idx lost s
  | .protWindowClose t => Sys2Proof.Machine.execProtWindowClose t s
  | .acqClr value => Sys2Proof.Machine.execAcqClr value s
  | .acqThinClr value => Sys2Proof.Machine.execAcqThinClr value s
  | .chunkAgeClose t sid => Sys2Proof.Machine.execChunkAgeClose t sid s
  | .chunkClose t sid => Sys2Proof.Machine.execChunkClose t sid s
  | .bankFree t sid bank => Sys2Proof.Machine.execBankFree t sid bank s
  | .rfqFlush t value => Sys2Proof.Machine.execRfqFlush t value s
  | .flushDone t => Sys2Proof.Machine.execFlushDone t s
  | .rfqClr value => Sys2Proof.Machine.execRfqClr value s
  | .blockVerify t lane good bad => Sys2Proof.Machine.execBlockVerify t lane good bad s
  | .cmpClr value => Sys2Proof.Machine.execCmpClr value s
  | .dcpClr value => Sys2Proof.Machine.execDcpClr value s
  | .compressBuf t r host => Sys2Proof.Machine.execCompressBuf t r host s
  | .decompressBuf t r host => Sys2Proof.Machine.execDecompressBuf t r host s
  | .bar2Write t offset data poisoned x => Sys2Proof.Machine.execBar2Write t offset data poisoned x s
  | .bar2AliasWrite t offset data poisoned x => Sys2Proof.Machine.execBar2AliasWrite t offset data poisoned x s
  | .scratchSweep t err => Sys2Proof.Machine.execScratchSweep t err s
  | .rotationTile t => Sys2Proof.Machine.execRotationTile t s
  | .marchStitch t fails ended => Sys2Proof.Machine.execMarchStitch t fails ended s
  | .lendCollision t master offset => Sys2Proof.Machine.execLendCollision t master offset s
  | .testCollide t offset read host op => Sys2Proof.Machine.execTestCollide t offset read host op s
  | .yieldRetry t => Sys2Proof.Machine.execYieldRetry t s
  | .march t r => Sys2Proof.Machine.execMarch t r s
  | .scrLendSel value => Sys2Proof.Machine.execScrLendSel value s
  | .scrLendDataWrite t value => Sys2Proof.Machine.execScrLendDataWrite t value s
  | .scrClr value => Sys2Proof.Machine.execScrClr value s
  | .marClr value => Sys2Proof.Machine.execMarClr value s
  | .bar4Write t offset data poisoned => Sys2Proof.Machine.execBar4Write t offset data poisoned s
  | .dmScrub t err rewritten => Sys2Proof.Machine.execDmScrub t err rewritten s
  | .dmcBadrowSel value => Sys2Proof.Machine.execDmcBadrowSel value s
  | .dmcClr value => Sys2Proof.Machine.execDmcClr value s
  | .stoTakeChunk t bad => Sys2Proof.Machine.execStoTakeChunk t bad s
  | .nvmeWriteComplete t sid seq => Sys2Proof.Machine.execNvmeWriteComplete t sid seq s
  | .nvmeWriteError t sid seq timeout status => Sys2Proof.Machine.execNvmeWriteError t sid seq timeout status s
  | .commitBatch t => Sys2Proof.Machine.execCommitBatch t s
  | .nvmeFlushComplete t d => Sys2Proof.Machine.execNvmeFlushComplete t d s
  | .mapFuaComplete t d => Sys2Proof.Machine.execMapFuaComplete t d s
  | .recordTableWrite t => Sys2Proof.Machine.execRecordTableWrite t s
  | .driveLost t d => Sys2Proof.Machine.execDriveLost t d s
  | .storeRecovery t images => Sys2Proof.Machine.execStoreRecovery t images s
  | .stoFreeRec t value => Sys2Proof.Machine.execStoFreeRec t value s
  | .stoCatSel value => Sys2Proof.Machine.execStoCatSel value s
  | .stoClr value => Sys2Proof.Machine.execStoClr value s
  | .nvqReset t value => Sys2Proof.Machine.execNvqReset t value s
  | .nvqClr value => Sys2Proof.Machine.execNvqClr value s
  | .storeFormat t r storeId => Sys2Proof.Machine.execStoreFormat t r storeId s
  | .storeScrub t r store => Sys2Proof.Machine.execStoreScrub t r store s
  | .offload t r => Sys2Proof.Machine.execOffload t r s
  | .readRecord t r store => Sys2Proof.Machine.execReadRecord t r store s
  | .sqDoorbell t n value => Sys2Proof.Machine.execSqDoorbell t n value s
  | .cqDoorbell t n value => Sys2Proof.Machine.execCqDoorbell t n value s
  | .commandFetch t data => Sys2Proof.Machine.execCommandFetch t data s
  | .commandCompletion t r failed => Sys2Proof.Machine.execCommandCompletion t r failed s
  | .stitchEnd t => Sys2Proof.Machine.execStitchEnd t s
  | .deadline t r => Sys2Proof.Machine.execDeadline t r s
  | .coalTimer t n => Sys2Proof.Machine.execCoalTimer t n s
  | .nop t r => Sys2Proof.Machine.execNop t r s
  | .abort t r => Sys2Proof.Machine.execAbort t r s
  | .enumerate t r others => Sys2Proof.Machine.execEnumerate t r others s
  | .twinResync t r => Sys2Proof.Machine.execTwinResync t r s
  | .outOfBarRequest t => Sys2Proof.Machine.execOutOfBarRequest t s
  | .hifClr value => Sys2Proof.Machine.execHifClr value s
  | .ppsEdge t => Sys2Proof.Machine.execPpsEdge t s
  | .ppsTimeout t => Sys2Proof.Machine.execPpsTimeout t s
  | .ptpMessage t port domain tai utc => Sys2Proof.Machine.execPtpMessage t port domain tai utc s
  | .timeSetSec high value => Sys2Proof.Machine.execTimeSetSec high value s
  | .timeClr value => Sys2Proof.Machine.execTimeClr value s
  | .ethChunkSend t dest => Sys2Proof.Machine.execEthChunkSend t dest s
  | .pauseFrame t port slots => Sys2Proof.Machine.execPauseFrame t port slots s
  | .ethLinkChange t port up => Sys2Proof.Machine.execEthLinkChange t port up s
  | .ethClr value => Sys2Proof.Machine.execEthClr value s
  | .serClr value => Sys2Proof.Machine.execSerClr value s
  | .laneDown t lane errors eye => Sys2Proof.Machine.execLaneDown t lane errors eye s
  | .flitReceive t port flit corr uncorr => Sys2Proof.Machine.execFlitReceive t port flit corr uncorr s
  | .linkLoss t port => Sys2Proof.Machine.execLinkLoss t port s
  | .portRetrain t port standby => Sys2Proof.Machine.execPortRetrain t port standby s
  | .flxRetrain t value => Sys2Proof.Machine.execFlxRetrain t value s
  | .flxClr value => Sys2Proof.Machine.execFlxClr value s
  | .armToken t port token => Sys2Proof.Machine.execArmToken t port token s
  | .armAck t port token => Sys2Proof.Machine.execArmAck t port token s
  | .stopToken t port token => Sys2Proof.Machine.execStopToken t port token s
  | .fireToken t port token => Sys2Proof.Machine.execFireToken t port token s
  | .retractToken t port token => Sys2Proof.Machine.execRetractToken t port token s
  | .progressSend t => Sys2Proof.Machine.execProgressSend t s
  | .progressToken t port token => Sys2Proof.Machine.execProgressToken t port token s
  | .probe stamp port token sent => Sys2Proof.Machine.execProbe stamp port token sent s
  | .reply stamp port token => Sys2Proof.Machine.execReply stamp port token s
  | .alignWindowEnd t port theta last => Sys2Proof.Machine.execAlignWindowEnd t port theta last s
  | .alignVerify t port dev => Sys2Proof.Machine.execAlignVerify t port dev s
  | .regToken t port token => Sys2Proof.Machine.execRegToken t port token s
  | .enumWave t port token => Sys2Proof.Machine.execEnumWave t port token s
  | .endWave t port token => Sys2Proof.Machine.execEndWave t port token s
  | .enumVerify t port token => Sys2Proof.Machine.execEnumVerify t port token s
  | .rootConflict t port token => Sys2Proof.Machine.execRootConflict t port token s
  | .ready t port token => Sys2Proof.Machine.execReady t port token s
  | .enumReadyTimeout t ran => Sys2Proof.Machine.execEnumReadyTimeout t ran s
  | .linkLossToken t port token => Sys2Proof.Machine.execLinkLossToken t port token s
  | .reachTimeout t m => Sys2Proof.Machine.execReachTimeout t m s
  | .forwardedCommand t port dst src ring tag completion words => Sys2Proof.Machine.execForwardedCommand t port dst src ring tag completion words s
  | .casClr value => Sys2Proof.Machine.execCasClr value s
  | .pair t token => Sys2Proof.Machine.execPair t token s
  | .noLink t => Sys2Proof.Machine.execNoLink t s
  | .seamSpanEnd t => Sys2Proof.Machine.execSeamSpanEnd t s
  | .summary t token => Sys2Proof.Machine.execSummary t token s
  | .thin t token => Sys2Proof.Machine.execThin t token s
  | .safeToken t token => Sys2Proof.Machine.execSafeToken t token s
  | .detach t written => Sys2Proof.Machine.execDetach t written s
  | .clearToken t token => Sys2Proof.Machine.execClearToken t token s
  | .twnClr value => Sys2Proof.Machine.execTwnClr value s
  | .sealCheck t => Sys2Proof.Machine.execSealCheck t s
  | .safClear t value => Sys2Proof.Machine.execSafClear t value s
  | .safeExit t => Sys2Proof.Machine.execSafeExit t s
  | .safSealSel value => Sys2Proof.Machine.execSafSealSel value s
  | .safClr value => Sys2Proof.Machine.execSafClr value s
  | .standbyStart t => Sys2Proof.Machine.execStandbyStart t s
  | .vinValid t root twinSel hint => Sys2Proof.Machine.execVinValid t root twinSel hint s
  | .railGood t => Sys2Proof.Machine.execRailGood t s
  | .railGoodTimeout t => Sys2Proof.Machine.execRailGoodTimeout t s
  | .vinCollapse t mv => Sys2Proof.Machine.execVinCollapse t mv s
  | .v3aLoss t mv => Sys2Proof.Machine.execV3aLoss t mv s
  | .rail t n tenths => Sys2Proof.Machine.execRail t n tenths s
  | .vinDip t mv => Sys2Proof.Machine.execVinDip t mv s
  | .vinLow t mv => Sys2Proof.Machine.execVinLow t mv s
  | .sag t sensor vin => Sys2Proof.Machine.execSag t sensor vin s
  | .sagRelease t => Sys2Proof.Machine.execSagRelease t s
  | .capWindowEnd t avg pin iin => Sys2Proof.Machine.execCapWindowEnd t avg pin iin s
  | .thermalReading t lid tj rails => Sys2Proof.Machine.execThermalReading t lid tj rails s
  | .pwrClr value => Sys2Proof.Machine.execPwrClr value s
  | .boot t flash repaired unrepaired link us => Sys2Proof.Machine.execBoot t flash repaired unrepaired link us s
  | .imageAuthenticated t us => Sys2Proof.Machine.execImageAuthenticated t us s
  | .startDone t repaired unrepaired deepRepaired badRows coefs us => Sys2Proof.Machine.execStartDone t repaired unrepaired deepRepaired badRows coefs us s
  | .bootImage t tag signed us => Sys2Proof.Machine.execBootImage t tag signed us s
  | .flashImage t tag signed same => Sys2Proof.Machine.execFlashImage t tag signed same s
  | .flashConfig t tag => Sys2Proof.Machine.execFlashConfig t tag s
  | .glbReset t value => Sys2Proof.Machine.execGlbReset t value s
  | .modResetN t => Sys2Proof.Machine.execModResetN t s
  | .moduleResetEnd t => Sys2Proof.Machine.execModuleResetEnd t s
  | .pcieReset t link => Sys2Proof.Machine.execPcieReset t link s
  | .glbClr value => Sys2Proof.Machine.execGlbClr value s
  | .cpxHeartbeat t busy cores => Sys2Proof.Machine.execCpxHeartbeat t busy cores s
  | .cpxClr value => Sys2Proof.Machine.execCpxClr value s
  | .cores t pair => Sys2Proof.Machine.execCores t pair s
  | .ltlClr n value => Sys2Proof.Machine.execLtlClr n value s
  | .angClr value => Sys2Proof.Machine.execAngClr value s
  | .overloadClear t n => Sys2Proof.Machine.execOverloadClear t n s
  | .railInWindow t n tenths => Sys2Proof.Machine.execRailInWindow t n tenths s
  | .vinRecovery t mv => Sys2Proof.Machine.execVinRecovery t mv s
  | .barMemoryRead t deep offset len ce ue => Sys2Proof.Machine.execBarMemoryRead t deep offset len ce ue s
  | .configurationRequest t mask => Sys2Proof.Machine.execConfigurationRequest t mask s

end Sys2Proof.Machine
end

