-- ==== Sys2Proof/WellFormed.lean ====
section
/-!
DEFINITION. Which operands spell a command: register addresses inside BAR0 and the alias a command names (R28 to R30), a bank access
inside one 64-bit word (R320), and the lengths of the part's own lists. `exec` stops on the others with `illFormed`.
-/
namespace Sys2Proof

/-- Whether the operands of a command are of the sizes its row of the table has. -/
def Instr.wf : Instr → Bool
  | .registerWrite _ _ addr data _ => decide (addr + data.length ≤ 0x400000)
  | .setAliasWrite _ _ addr data => decide (0x100000 ≤ addr) && decide (addr < 0x200000) && decide (addr + data.length ≤ 0x200000)
  | .clearAliasWrite _ _ addr data => decide (0x200000 ≤ addr) && decide (addr < 0x300000) && decide (addr + data.length ≤ 0x300000)
  | .pairLowWordRead _ _ addr => decide (addr < 0x400000) && addr % 4 == 0
  | .pair64Write _ _ addr _ => decide (addr < 0x400000) && addr % 8 == 0
  | .bar2Write _ offset data _ _ => !data.isEmpty && decide (offset.toNat % 8 + data.length ≤ 8)
  | .bar2AliasWrite _ offset data _ _ => !data.isEmpty && decide (offset.toNat % 8 + data.length ≤ 8)
  | .storeRecovery _ images => images.length == 4
  | .commandFetch _ data => data.all (fun d => d.length == 64)
  | .flitReceive _ _ flit _ _ => flit.length == 256
  | .forwardedCommand _ _ _ _ _ _ completion words => words.length == (if completion then 2 else 8)
  | .thermalReading _ _ tj rails => tj.length == 8 && rails.length == 6
  | .boot _ _ _ _ _ us => us.length == 4
  | .startDone _ _ _ _ _ coefs us => us.length == 5 && coefs.length == 16
  | .cpxHeartbeat _ _ cs => cs.length == 4
  | .remoteWindowRead .. | .remoteWindowWrite .. | .rwinTimeout .. | .commit .. | .commitCancel .. | .safePoint ..
  | .stageModeChange .. | .softReset .. | .softResetComplete .. | .enableWrite .. | .evtPendClear .. | .evtEnWrite ..
  | .evtForce .. | .msixUnmask .. | .relock .. | .clrCnt .. | .lockAttempt .. | .bandSearchStep ..
  | .bandVerify .. | .lockWindowEnd .. | .phaseSlip .. | .refLoss .. | .refclkReturn .. | .dlgLock ..
  | .dlgUnlock .. | .loopReferenceEvent .. | .holdEnd .. | .encoderCount .. | .encoderIndex .. | .coastOn ..
  | .coastLong .. | .loopCycleBoundary .. | .mapPeriodicPoint .. | .angleEventFire .. | .angleToken .. | .overrangeEntry ..
  | .overrangeExit .. | .ovrWindowClose .. | .stateClockEdge .. | .stateClkTimeout .. | .keepAlive .. | .digBcast ..
  | .digClr .. | .stampEdge .. | .mergeWindowClose .. | .tableRebuild .. | .coarseWrap .. | .ipSpanExpiry ..
  | .stpIpSnap .. | .stpClr .. | .freqGateEnd .. | .freqResult .. | .frqSnapSel .. | .frqNewClear ..
  | .frqClr .. | .conversionStart .. | .conversionResult .. | .pulseSourcePulse .. | .converterWakeRequest .. | .converterReady ..
  | .injectedRequest .. | .calibrate .. | .overloadTrip .. | .disturbSpanEnd .. | .intervalBoundary .. | .adcClr ..
  | .accSnapSel .. | .harSnapSel .. | .harClr .. | .ladderPly .. | .soft .. | .tldClr ..
  | .tldTcSnapSel .. | .tldPtSel .. | .tldPtCtlWrite .. | .actPulseEnd .. | .actRelease .. | .actReadback ..
  | .actClr .. | .lateBitKnown .. | .replayCatchUp .. | .ladderOverrun .. | .settleTimeout .. | .gmbClr ..
  | .arm .. | .armingTakesEffect .. | .stop .. | .collarFull .. | .recordClose .. | .liveClip ..
  | .thinStepUp .. | .thinStepDown .. | .rate .. | .overflow .. | .protWindowClose .. | .acqClr ..
  | .acqThinClr .. | .chunkAgeClose .. | .chunkClose .. | .bankFree .. | .rfqFlush .. | .flushDone ..
  | .rfqClr .. | .blockVerify .. | .cmpClr .. | .dcpClr .. | .compressBuf .. | .decompressBuf ..
  | .scratchSweep .. | .rotationTile .. | .marchStitch .. | .lendCollision .. | .testCollide .. | .yieldRetry ..
  | .march .. | .scrLendSel .. | .scrLendDataWrite .. | .scrClr .. | .marClr .. | .bar4Write ..
  | .dmScrub .. | .dmcBadrowSel .. | .dmcClr .. | .stoTakeChunk .. | .nvmeWriteComplete .. | .nvmeWriteError ..
  | .commitBatch .. | .nvmeFlushComplete .. | .mapFuaComplete .. | .recordTableWrite .. | .driveLost .. | .stoFreeRec ..
  | .stoCatSel .. | .stoClr .. | .nvqReset .. | .nvqClr .. | .storeFormat .. | .storeScrub ..
  | .offload .. | .readRecord .. | .sqDoorbell .. | .cqDoorbell .. | .commandCompletion .. | .stitchEnd ..
  | .deadline .. | .coalTimer .. | .nop .. | .abort .. | .enumerate .. | .twinResync ..
  | .outOfBarRequest .. | .hifClr .. | .ppsEdge .. | .ppsTimeout .. | .ptpMessage .. | .timeSetSec ..
  | .timeClr .. | .ethChunkSend .. | .pauseFrame .. | .ethLinkChange .. | .ethClr .. | .serClr ..
  | .laneDown .. | .linkLoss .. | .portRetrain .. | .flxRetrain .. | .flxClr .. | .armToken ..
  | .armAck .. | .stopToken .. | .fireToken .. | .retractToken .. | .progressSend .. | .progressToken ..
  | .probe .. | .reply .. | .alignWindowEnd .. | .alignVerify .. | .regToken .. | .enumWave ..
  | .endWave .. | .enumVerify .. | .rootConflict .. | .ready .. | .enumReadyTimeout .. | .linkLossToken ..
  | .reachTimeout .. | .casClr .. | .pair .. | .noLink .. | .seamSpanEnd .. | .summary ..
  | .thin .. | .safeToken .. | .detach .. | .clearToken .. | .twnClr .. | .sealCheck ..
  | .safClear .. | .safeExit .. | .safSealSel .. | .safClr .. | .standbyStart .. | .vinValid ..
  | .railGood .. | .railGoodTimeout .. | .vinCollapse .. | .v3aLoss .. | .rail .. | .vinDip ..
  | .vinLow .. | .sag .. | .sagRelease .. | .capWindowEnd .. | .pwrClr .. | .imageAuthenticated ..
  | .bootImage .. | .flashImage .. | .flashConfig .. | .glbReset .. | .modResetN .. | .moduleResetEnd ..
  | .pcieReset .. | .glbClr .. | .cpxClr .. | .cores .. | .ltlClr .. | .angClr ..
  | .overloadClear .. | .railInWindow .. | .vinRecovery .. | .barMemoryRead .. | .configurationRequest .. => true

end Sys2Proof
end

