-- ==== Sys2Proof/Safety.lean ====
section
/-!
DEFINITION. What claims about a run are stated in: the canonical form of the sparse stores, which registers and fields a command may
change, and that a command adds to what has been sent and takes nothing from the queue.
-/
namespace Sys2Proof.Machine

/-- Both memories and both register copies are in canonical form: keys rise, and no entry holds what its key reads as unlisted. -/
def State.Canon (s : State) : Prop :=
  Memory.wf s.scratch = true ∧ Memory.wf s.deep = true ∧ swf regReset s.regs.active = true ∧ swf regReset s.regs.staged = true

/-- Every register but those of the listed keys reads as before. -/
def RegsBut (ks : List Nat) (s u : State) : Prop := ∀ p o, rkey p o ∉ ks → u.reg p o = s.reg p o

/-- Nothing but time, registers, interrupt messages held and outputs differs: both memories and every block's working state are as before. -/
def SameBlocks (s u : State) : Prop := u = { s with now := u.now, regs := u.regs, msix := u.msix, out := u.out }

/-- Every register outside the listed pages reads as before. -/
def PagesBut (ps : List Nat) (s u : State) : Prop := ∀ p o, o < 0x1000 → p ∉ ps → u.reg p o = s.reg p o

/-- Nothing but active registers differs. -/
def OnlyActive (s u : State) : Prop := u = { s with regs := { s.regs with active := u.regs.active } }

/-- The listed fields of a page read 0 in `u` (each field with its number of instances), and nothing else changes. -/
def Cleared (p : Nat) (fs : List (Fld × Nat)) (s u : State) : Prop :=
  (∀ e ∈ fs, ∀ i < e.2, u.get p e.1 i = 0) ∧
  RegsBut (fs.flatMap (fun e => (List.range e.2).map (fun i => rkey p (e.1.at i)))) s u ∧
  OnlyActive s u

/-- The command in flight of a number has ended with a status. -/
def EndedAs (u : State) (id status : Nat) : Prop := ∃ x ∈ u.host.ops, x.id = id ∧ x.phase = .ended status

/-- Both memories are as before. -/
def SameMemory (s u : State) : Prop := u.scratch = s.scratch ∧ u.deep = s.deep

/-- A counter of 32 bits has counted `n` more and stops at its maximum. -/
def CountsBy (s u : State) (p : Nat) (f : Fld) (i n : Nat) : Prop := u.get p f i = Nat.min (s.get p f i + n) (2 ^ 32 - 1)

end Sys2Proof.Machine
end

