-- ==== Sys2Proof/Certificates/Slice0/Obligations.lean ====
section
/-!
DEFINITION. The statements for the provers, one definition each, in the order of OBLIGATIONS.json.
-/
open Sys2Proof Sys2Proof.Machine

/-- O1 (opcode table (spec/opcode_table.json); log entry 1). For every state whose queue begins with a command, a step is the effect of
that command on the state with the rest of the queue: its next state or its fault. With an empty queue a step leaves the state as it
is, which is the model's own choice (log entry 1): no rule of the manual gives the block a tick. -/
def Obligations.StepRunsTheFrontCommand : Prop :=
  ∀ (s : State) (c : Instr) (rest : List Instr),
    (s.pending = c :: rest → step s = exec c { s with pending := rest }) ∧
    (s.pending = [] → step s = .next s)

/-- O2 (R13; R466). State.reset satisfies the canonical form of the sparse stores, waits for no command, has sent nothing, is in STANDBY,
and every register of every page reads its reset value in both copies; both memories list nothing. That an unlisted byte reads 0 is
the model's own choice (log entry 4). -/
def Obligations.ResetIsCanonicalAndIdle : Prop :=
  State.reset.Canon ∧ State.reset.pending = [] ∧ State.reset.out = [] ∧ State.reset.run = .standby ∧ State.reset.powered = false ∧
    (∀ p o, State.reset.reg p o = (regReset (rkey p o)).toNat ∧ State.reset.stagedReg p o = (regReset (rkey p o)).toNat) ∧
    (∀ a, Memory.read State.reset.scratch a = 0 ∧ Memory.read State.reset.deep a = 0)

/-- O3 (R28; R320; R338). For every state whose two memories and two register copies are in canonical form (keys strictly rising, no entry
equal to what an unlisted key reads as), whatever command is at the front of its queue: the state a step leads to has all four in
canonical form, so that equal memories and equal registers are equal data in every state a run reaches. -/
def Obligations.CanonicalFormIsKeptByEveryStep : Prop :=
  ∀ s t : State, s.Canon → step s = .next t → t.Canon

/-- O4 (R1; R13). For every command and state: when the command answers a next state, the queue is the same, what had been sent stands at
the beginning of what has been sent, and the count of free values taken is not lower. The module's variant stays as it is. -/
def Obligations.CommandsOnlyAddOutputs : Prop :=
  ∀ (c : Instr) (s u : State), exec c s = .next u →
    u.pending = s.pending ∧ s.out <+: u.out ∧ s.freeCtr ≤ u.freeCtr ∧ u.variant = s.variant

/-- O5 (R28; R30; R320; R379; R407; R490). For every command and every state: if its operands have the sizes of its row, exec answers a
next state; otherwise exec answers the fault illFormed. No command is refused, and no state or data makes a well-formed one stop. -/
def Obligations.EveryWellFormedCommandCompletes : Prop :=
  ∀ (c : Instr) (s : State), (c.wf = true → ∃ u, exec c s = .next u) ∧ (c.wf = false → exec c s = .fault .illFormed)

/-- O6 (R68; R96; R98; R117; R138; R140; R172; R175). In every state in canonical form, a write with bit 0 set to LTL_CLR, ANG_CLR,
DIG_CLR, STP_CLR, FRQ_CLR, ADC_CLR or HAR_CLR answers a next state in which the counters (and masks) the spec lists for that register
read 0 and nothing else has changed; with bit 0 clear nothing changes. CLR_CNT, a write of CKS_RELOCK.CLR_CNT, clears the three CKS
counters likewise. -/
def Obligations.ClearsOfClockAndCapture : Prop :=
  ∀ (s : State) (v : Word) (n : Fin 4) (g : Fin 8), s.Canon →
  (bitOf v.toNat 0 = true → ∃ u, exec (.ltlClr n v) s = .next u ∧ Cleared (P.LTL n) [(F.LTL_LOCK_CNT, 1), (F.LTL_LOSS_CNT, 1),
      (F.LTL_JUMP_CNT, 1), (F.LTL_HOLD_CNT, 1), (F.LTL_REJECT_CNT, 1), (F.LTL_ZERR_CNT, 1)] s u) ∧
  (bitOf v.toNat 0 = false → exec (.ltlClr n v) s = .next s) ∧
  (bitOf v.toNat 0 = true → ∃ u, exec (.angClr v) s = .next u ∧ Cleared (P.ANG) [(F.ANG_LATE_CNT, 4), (F.ANG_SKIP_CNT, 4)] s u) ∧
  (bitOf v.toNat 0 = false → exec (.angClr v) s = .next s) ∧
  (bitOf v.toNat 0 = true → ∃ u, exec (.digClr g v) s = .next u ∧ Cleared (P.DIG g) [(F.DIG_OVR_MASK, 1), (F.DIG_OVR_WIN_CNT, 1),
      (F.DIG_STATE_REJ_CNT, 1), (F.DIG_STATE_EDGE_CNT, 1), (F.DIG_OVR_CNT, 32), (F.DIG_EDGE_CNT, 32)] s u) ∧
  (bitOf v.toNat 0 = false → exec (.digClr g v) s = .next s) ∧
  (bitOf v.toNat 0 = true → ∃ u, exec (.stpClr g v) s = .next u ∧ Cleared (P.STP g) [(F.STP_DROP_MASK, 1), (F.STP_DROP_CNT, 1),
      (F.STP_MERGE_CNT, 1), (F.STP_STAMP_CNT_LO, 1), (F.STP_STAMP_CNT_HI, 1), (F.IP_ORDER_SKIP_CNT, 2), (F.IP_TIE_CNT, 2),
      (F.IP_UNPAIRED_CNT, 2)] s u) ∧
  (bitOf v.toNat 0 = false → exec (.stpClr g v) s = .next s) ∧
  (bitOf v.toNat 0 = true → ∃ u, exec (.frqClr v) s = .next u ∧ Cleared (P.FRQ) [(F.FRQ_INVALID_CNT, 1)] s u) ∧
  (bitOf v.toNat 0 = false → exec (.frqClr v) s = .next s) ∧
  (bitOf v.toNat 0 = true → ∃ u, exec (.adcClr v) s = .next u ∧ Cleared (P.ADC) [(F.ADC_INJ_CAUSE_CNT, 4), (F.ADC_CNT_A, 16),
      (F.ADC_CNT_B, 16)] s u) ∧
  (bitOf v.toNat 0 = false → exec (.adcClr v) s = .next s) ∧
  (bitOf v.toNat 0 = true → ∃ u, exec (.harClr v) s = .next u ∧ Cleared (P.HAR) [(F.HAR_SAT_CNT, 1)] s u) ∧
  (bitOf v.toNat 0 = false → exec (.harClr v) s = .next s) ∧
  (∃ u, exec (.clrCnt n) s = .next u ∧
    Cleared (P.CKS n) [(F.CKS_RELOCK_CNT, 1), (F.CKS_LOSS_CNT, 1), (F.CKS_SEARCH_FAIL_CNT, 1)] s u)

/-- O7 (R210; R212; R232; R261; R263). In every state in canonical form, a write with bit 0 set to TLD_CLR, ACT_CLR, GMB_CLR, ACQ_CLR or
ACQ_THIN_CLR answers a next state in which the counters the spec lists for that register read 0 and nothing else has changed; with bit
0 clear nothing changes. -/
def Obligations.ClearsOfTriggerAndRecord : Prop :=
  ∀ (s : State) (v : Word), s.Canon →
  (bitOf v.toNat 0 = true → ∃ u, exec (.tldClr v) s = .next u ∧ Cleared (P.TLD) [(F.TLD_FIRE_IGN_CNT, 1), (F.TLD_FIRE_SUPP_CNT,
      1), (F.TLD_ABORT_CNT, 1), (F.TLD_SNAKE_CNT, 1)] s u) ∧
  (bitOf v.toNat 0 = false → exec (.tldClr v) s = .next s) ∧
  (bitOf v.toNat 0 = true → ∃ u, exec (.actClr v) s = .next u ∧ Cleared (P.ACT) [(F.ACT_RETRACT_CNT, 1), (F.ACT_RETRACT_MASK, 1)]
      s u) ∧
  (bitOf v.toNat 0 = false → exec (.actClr v) s = .next s) ∧
  (bitOf v.toNat 0 = true → ∃ u, exec (.gmbClr v) s = .next u ∧ Cleared (P.GMB) [(F.GMB_CKPT_CNT, 1), (F.GMB_ROLLBACK_CNT, 1),
      (F.GMB_REPLAY_PLY_CNT_LO, 1), (F.GMB_REPLAY_PLY_CNT_HI, 1), (F.GMB_PAUSE_CNT, 1), (F.GMB_PAUSE_PLY_CNT, 1),
      (F.GMB_CKPT_FULL_CNT, 1), (F.GMB_OVERRUN_CNT, 1), (F.GMB_INJ_RETRACT_CNT, 1), (F.GMB_INJ_LOST_CNT, 1),
      (F.GMB_TOKEN_RETRACT_CNT, 1), (F.GMB_LATE_OUT_CNT, 1), (F.GMB_MISPRED_IDLE_CNT, 1), (F.GMB_MISPRED_CNT, 5)] s u) ∧
  (bitOf v.toNat 0 = false → exec (.gmbClr v) s = .next s) ∧
  (bitOf v.toNat 0 = true → ∃ u, exec (.acqClr v) s = .next u ∧ Cleared (P.ACQ) [(F.ACQ_SHORT_COLLAR_CNT, 1),
      (F.ACQ_LIVE_CLIP_CNT, 1), (F.ACQ_SEG_OVERWRITE_CNT, 1), (F.ACQ_WITHDRAW_CNT, 1)] s u) ∧
  (bitOf v.toNat 0 = false → exec (.acqClr v) s = .next s) ∧
  (bitOf v.toNat 0 = true → ∃ u, exec (.acqThinClr v) s = .next u ∧ Cleared (P.ACQT) [(F.ACQ_THIN_UP_CNT, 10), (F.ACQ_OVF_CNT,
      10)] s u) ∧
  (bitOf v.toNat 0 = false → exec (.acqThinClr v) s = .next s)

/-- O8 (R291; R316; R317; R344; R345; R346; R367; R368). In every state in canonical form, a write with bit 0 set to RFQ_CLR, CMP_CLR,
DCP_CLR, SCR_CLR, MAR_CLR, DMC_CLR, STO_CLR or NVQ_CLR answers a next state in which the counters the spec lists for that register
read 0 and nothing else has changed; with bit 0 clear nothing changes. -/
def Obligations.ClearsOfPathAndStore : Prop :=
  ∀ (s : State) (v : Word), s.Canon →
  (bitOf v.toNat 0 = true → ∃ u, exec (.rfqClr v) s = .next u ∧ Cleared (P.RFQ) [(F.RFQ_LOST_CNT, 1), (F.RFQ_DISCARD_CNT, 22),
      (F.RFQ_AGE_CNT, 22)] s u) ∧
  (bitOf v.toNat 0 = false → exec (.rfqClr v) s = .next s) ∧
  (bitOf v.toNat 0 = true → ∃ u, exec (.cmpClr v) s = .next u ∧ Cleared (P.CMP) [(F.CMP_VERIFY_CNT, 1), (F.CMP_NOGAIN_CNT, 1),
      (F.CMP_BANKFULL_CNT, 1), (F.CMP_RESET_CNT, 1), (F.CMP_STALL_CNT, 1)] s u) ∧
  (bitOf v.toNat 0 = false → exec (.cmpClr v) s = .next s) ∧
  (bitOf v.toNat 0 = true → ∃ u, exec (.dcpClr v) s = .next u ∧ Cleared (P.DCP) [(F.DCP_CHECK_FAIL_CNT, 1), (F.DCP_FORMAT_ERR_CNT,
      1), (F.DCP_SEQ_GAP_CNT, 1), (F.DCP_POISON_CNT, 1), (F.DCP_BLOCK_CNT, 1), (F.DCP_OUT_BYTES_LO, 1), (F.DCP_OUT_BYTES_HI, 1),
      (F.DCP_IN_BYTES_LO, 1), (F.DCP_IN_BYTES_HI, 1), (F.DCP_RESYNC_CNT, 1)] s u) ∧
  (bitOf v.toNat 0 = false → exec (.dcpClr v) s = .next s) ∧
  (bitOf v.toNat 0 = true → ∃ u, exec (.scrClr v) s = .next u ∧ Cleared (P.SCR) [(F.SCR_CE_CNT, 1), (F.SCR_UE_CNT, 1),
      (F.SCR_TEST_COLLIDE_CNT, 1), (F.SCR_HOST_WPROT_CNT, 1), (F.SCR_CONFLICT_CNT, 16), (F.SCR_WRITE_COLLIDE_CNT, 16),
      (F.SCR_LEND_STALL_CNT, 16)] s u) ∧
  (bitOf v.toNat 0 = false → exec (.scrClr v) s = .next s) ∧
  (bitOf v.toNat 0 = true → ∃ u, exec (.marClr v) s = .next u ∧ Cleared (P.MAR) [(F.MAR_ROT_PASS_CNT, 1), (F.MAR_TILE_CNT, 1),
      (F.MAR_FAIL_CNT, 1), (F.MAR_YIELD_CNT, 1), (F.MAR_UNREPAIRED_CNT, 1)] s u) ∧
  (bitOf v.toNat 0 = false → exec (.marClr v) s = .next s) ∧
  (bitOf v.toNat 0 = true → ∃ u, exec (.dmcClr v) s = .next u ∧ Cleared (P.DMC) [(F.DMC_CE_CNT, 1), (F.DMC_UE_CNT, 1),
      (F.DMC_WPROT_CNT, 1), (F.DMC_REPAIR_FAIL_CNT, 1)] s u) ∧
  (bitOf v.toNat 0 = false → exec (.dmcClr v) s = .next s) ∧
  (bitOf v.toNat 0 = true → ∃ u, exec (.stoClr v) s = .next u ∧ Cleared (P.STO) [(F.STO_WRITE_ERR_CNT, 1), (F.STO_LOST_CHUNK_CNT,
      1), (F.STO_SCRUB_BAD_CNT, 1), (F.STO_FULL_CNT, 1)] s u) ∧
  (bitOf v.toNat 0 = false → exec (.stoClr v) s = .next s) ∧
  (bitOf v.toNat 0 = true → ∃ u, exec (.nvqClr v) s = .next u ∧ Cleared (P.NVQ) [(F.NVQ_ERR_CNT, 4), (F.NVQ_TIMEOUT_CNT, 4)] s u)
      ∧
  (bitOf v.toNat 0 = false → exec (.nvqClr v) s = .next s)

/-- O9 (R396; R400; R399; R401; R427; R426; R452; R489; R491; R476; R453). In every state in canonical form, a write with bit 0 set to
HIF_CLR, TIME_CLR, ETH_CLR, SER_CLR, FLX_CLR, CAS_CLR, TWN_CLR, GLB_CLR or CPX_CLR answers a next state in which the counters the spec
lists for that register read 0 and nothing else has changed; with bit 0 clear nothing changes. PWR_CLR also discards time in a stretch
not yet counted, and SAF_CLR clears SAF_SAFE_CNT after any write of it has restarted the sequence of SAF_CLEAR. -/
def Obligations.ClearsOfLinksAndModule : Prop :=
  ∀ (s : State) (v : Word), s.Canon →
  (bitOf v.toNat 0 = true → ∃ u, exec (.hifClr v) s = .next u ∧ Cleared (P.HIF) [(F.HIF_POISON_RX_CNT, 1), (F.HIF_POISON_TX_CNT,
      1), (F.HIF_DMA_ERR_CNT, 1)] s u) ∧
  (bitOf v.toNat 0 = false → exec (.hifClr v) s = .next s) ∧
  (bitOf v.toNat 0 = true → ∃ u, exec (.timeClr v) s = .next u ∧ Cleared (P.TIME) [(F.TIME_STEP_CNT, 1), (F.TIME_PPS_REJ_CNT, 1)]
      s u) ∧
  (bitOf v.toNat 0 = false → exec (.timeClr v) s = .next s) ∧
  (bitOf v.toNat 0 = true → ∃ u, exec (.ethClr v) s = .next u ∧ Cleared (P.ETH) [(F.DEST_DROP_CNT, 4), (F.DEST_SENT_CNT, 4)] s u)
      ∧
  (bitOf v.toNat 0 = false → exec (.ethClr v) s = .next s) ∧
  (bitOf v.toNat 0 = true → ∃ u, exec (.serClr v) s = .next u ∧ Cleared (P.SER) [(F.SER_LANE_ERR, 48)] s u) ∧
  (bitOf v.toNat 0 = false → exec (.serClr v) s = .next s) ∧
  (bitOf v.toNat 0 = true → ∃ u, exec (.flxClr v) s = .next u ∧ Cleared (P.FLX) [(F.FLX_CRC_ERR_CNT, 3), (F.FLX_FEC_CORR_CNT, 3),
      (F.FLX_FEC_UNCORR_CNT, 3), (F.FLX_RETRY_CNT, 3), (F.FLX_LOSS_CNT, 3), (F.FLX_TOKEN_TX_CNT, 3), (F.FLX_TOKEN_RX_CNT, 3)] s u)
      ∧
  (bitOf v.toNat 0 = false → exec (.flxClr v) s = .next s) ∧
  (bitOf v.toNat 0 = true → ∃ u, exec (.casClr v) s = .next u ∧ Cleared (P.CAS) [(F.CAS_FIRE_TX_CNT, 1), (F.CAS_FIRE_RX_CNT, 1),
      (F.CAS_FIRE_YIELD_CNT, 1), (F.CAS_FIRE_IGN_CNT, 1), (F.CAS_RETRACT_RX_CNT, 1), (F.CAS_ARM_LATE_CNT, 1), (F.CAS_ANG_ADJ_CNT,
      1), (F.CAS_RWIN_ERR_CNT, 1)] s u) ∧
  (bitOf v.toNat 0 = false → exec (.casClr v) s = .next s) ∧
  (bitOf v.toNat 0 = true → ∃ u, exec (.twnClr v) s = .next u ∧ Cleared (P.TWN) [(F.TWN_SEAM_SKIP_CNT, 1), (F.TWN_DIVERGE_CNT, 1),
      (F.TWN_THIN_LATE_CNT, 1), (F.TWN_FIRE_MISMATCH_CNT, 1), (F.TWN_ARM_IGN_CNT, 1), (F.TWN_DIV_MASK, 1)] s u) ∧
  (bitOf v.toNat 0 = false → exec (.twnClr v) s = .next s) ∧
  (bitOf v.toNat 0 = true → ∃ u, exec (.glbClr v) s = .next u ∧ Cleared (P.GLB) [(F.GLB_PCIE_RST_CNT, 1)] s u) ∧
  (bitOf v.toNat 0 = false → exec (.glbClr v) s = .next s) ∧
  (bitOf v.toNat 0 = true → ∃ u, exec (.cpxClr v) s = .next u ∧ Cleared (P.CPX) [(F.CPX_STITCH_MAX_US, 1)] s u) ∧
  (bitOf v.toNat 0 = false → exec (.cpxClr v) s = .next s) ∧
  (bitOf v.toNat 0 = true → ∃ w, exec (.pwrClr v) s =
      .next (w.modPower (fun q => { q with stretchRem := 0, stretchFrom := s.power.stretchFrom.map (fun _ => s.now) })) ∧
    Cleared P.PWR [(F.PWR_SAG_CNT, 1), (F.PWR_STRETCH_TIME, 1), (F.PWR_CAP_RAISE_CNT, 1), (F.PWR_THROT_CNT, 1),
      (F.PWR_VIN_LOW_CNT, 1)] s w) ∧
  (bitOf v.toNat 0 = false → exec (.pwrClr v) s = .next s) ∧
  (bitOf v.toNat 0 = true → ∃ u, exec (.safClr v) s = .next u ∧
    Cleared P.SAF [(F.SAF_SAFE_CNT, 1)] (s.modSaf (fun q => { q with keyAt := none })) u) ∧
  (bitOf v.toNat 0 = false → exec (.safClr v) s = .next (s.modSaf (fun q => { q with keyAt := none })))

/-- O10 (R28; R30; R37; R36). For every page but the three with window tables (TLD pattern, SCR, SAF), every RW register of its block
region, every value and requester that is served and reaches the page: while the page is in staged mode and not in soft reset,
REGISTER_WRITE, SET_ALIAS_WRITE and CLEAR_ALIAS_WRITE of the four bytes answer a next state in which the RW bits of the register's
staged copy are the value written, the old value with the written 1 bits set, or with them cleared; every other staged register, every
active register, both memories, every block's state and the outputs are as before. -/
def Obligations.StagedWriteLandsInStagedCopy : Prop :=
  ∀ (s : State) (t : Nat) (req : Requester) (p o : Nat) (d : RegDef) (i : Nat) (v : Word), s.Canon →
    pageExists p = true → p ∉ [P.TLDP, P.SCR, P.SAF] → o % 4 = 0 → 0x040 ≤ o → o < 0x800 →
    regAt p o = some (d, i) → d.acc = .rw → d.rw ≠ 0 →
    s.served req = true → s.pageReach req p = true → s.writable p = true → s.stagedMode p = true →
    let after (x : Nat) (u : State) : Prop :=
      u.stagedReg p o = mergeBits (s.stagedReg p o) d.rw x ∧ (∀ q w, rkey q w ≠ rkey p o → u.stagedReg q w = s.stagedReg q w) ∧
      u = { s with now := u.now, regs := { s.regs with staged := u.regs.staged } }
    (∃ u, exec (.registerWrite t req (p * 0x1000 + o) (leBytes 4 v.toNat) false) s = .next u ∧ after v.toNat u) ∧
    (∃ u, exec (.setAliasWrite t req (0x100000 + p * 0x1000 + o) (leBytes 4 v.toNat)) s = .next u ∧
      after (s.stagedReg p o ||| v.toNat) u) ∧
    (∃ u, exec (.clearAliasWrite t req (0x200000 + p * 0x1000 + o) (leBytes 4 v.toNat)) s = .next u ∧
      after (s.stagedReg p o &&& (0xFFFFFFFF ^^^ v.toNat)) u)

/-- O11 (R29; R37). For every pair of RW registers of a page other than those with window tables, in staged mode and not in soft reset:
PAIR_64_WRITE answers a next state in which the RW bits of both staged words are the two halves of the value; every other staged
register, the active registers, both memories, every block's state and the outputs are as before. For every register pair a requester
reaches: PAIR_LOW_WORD_READ of the low word answers a next state that has sent the low word's value, holds the high word's value of
that moment for that requester alone, and has changed nothing else; a read of the high word by the same requester from any state that
still holds it and answers the requester returns the held value. -/
def Obligations.PairsReadAndWriteAsOne : Prop :=
  (∀ (s : State) (t : Nat) (req : Requester) (p o : Nat) (d e : RegDef) (i j : Nat) (v : Word64), s.Canon →
    pageExists p = true → p ∉ [P.TLDP, P.SCR, P.SAF] → o % 8 = 0 → 0x040 ≤ o → o + 4 < 0x800 → pairLow p o = true →
    regAt p o = some (d, i) → d.rw ≠ 0 → regAt p (o + 4) = some (e, j) → e.rw ≠ 0 →
    s.served req = true → s.pageReach req p = true → s.writable p = true → s.stagedMode p = true →
    ∃ u, exec (.pair64Write t req (p * 0x1000 + o) v) s = .next u ∧
      u.stagedReg p o = mergeBits (s.stagedReg p o) d.rw (v.toNat % 2 ^ 32) ∧
      u.stagedReg p (o + 4) = mergeBits (s.stagedReg p (o + 4)) e.rw (v.toNat / 2 ^ 32) ∧
      (∀ q w, rkey q w ≠ rkey p o → rkey q w ≠ rkey p (o + 4) → u.stagedReg q w = s.stagedReg q w) ∧
      u = { s with now := u.now, regs := { s.regs with staged := u.regs.staged } }) ∧
  (∀ (s : State) (t : Nat) (req : Requester) (p o : Nat), pageExists p = true → o % 4 = 0 → o + 4 < 0x1000 → pairLow p o = true →
    s.served req = true → s.pageReach req p = true →
    (∃ u, exec (.pairLowWordRead t req (p * 0x1000 + o)) s = .next u ∧
      u.out = s.out ++ [.readData req (leBytes 4 ((s.at t).readReg p o))] ∧
      u.holding req = some (rkey p o, BitVec.ofNat 32 ((s.at t).readReg p (o + 4))) ∧
      (∀ r, r ≠ req → u.holding r = s.holding r) ∧
      u = { s with now := u.now, out := u.out,
                   regs := { s.regs with holdH := u.regs.holdH, holdC := u.regs.holdC, holdR := u.regs.holdR } }) ∧
    (∀ h, s.holding req = some (rkey p o, h) → pairLow p (o + 4) = false →
      exec (.pairLowWordRead t req (p * 0x1000 + (o + 4))) s =
        .next ((s.at t).emit (.readData req (leBytes 4 h.toNat)))))

/-- O12 (R423). REMOTE_WINDOW_READ and REMOTE_WINDOW_WRITE of a started module with a ring answer a next state in which the access waits
in the window, last in order, with the module CAS_RWIN_DEV named. A SOLO module answers a read with 0xFFFF_FFFF at once and leaves
nothing waiting. RWIN_TIMEOUT ends the oldest overdue access: it waits no more, and a read is answered with 0xFFFF_FFFF. -/
def Obligations.RemoteWindowAccess : Prop :=
  ∀ (s : State) (t : Nat) (req : Requester) (off : BitVec 20) (v : Word), s.started = true → s.served req = true →
    (s.role ≠ C.SOLO →
      (∃ u, exec (.remoteWindowRead t req off) s = .next u ∧
        u.cas.rwin = s.cas.rwin ++ [{ read := true, dest := s.use P.CAS F.CAS_RWIN_DEV, off := off.toNat / 4 * 4, issued := t }]) ∧
      (off.toNat % 4 = 0 → ∃ u, exec (.remoteWindowWrite t req off v) s = .next u ∧
        u.cas.rwin = s.cas.rwin ++ [{ read := false, dest := s.use P.CAS F.CAS_RWIN_DEV, off := off.toNat, issued := t }])) ∧
    (s.role = C.SOLO → ∃ u, exec (.remoteWindowRead t req off) s = .next u ∧ u.cas = s.cas ∧
      .readData .host (leBytes 4 0xFFFFFFFF) ∈ u.out) ∧
    (∀ a, s.cas.rwin.find? (fun x => decide (x.issued + usSlots (s.use P.CAS F.CAS_RWIN_CFG_RWIN_TIMEOUT) ≤ t)) = some a →
      ∃ u, exec (.rwinTimeout t) s = .next u ∧ u.cas.rwin = s.cas.rwin.erase a ∧
        (a.read = true → .readData .host (leBytes 4 0xFFFFFFFF) ∈ u.out))

/-- O13 (R37; R38; R448). On a page that takes writes: COMMIT without CANCEL makes the groups it names (all with bit 31) pending beside
those already pending; with CANCEL and no group named every group ceases to be pending, else those named do. Only COMMIT_STAT and
PAGE_STAT of the page change: no register of a block region, no block's state (but a clearing sequence begun, on the SAF page) and no
output. -/
def Obligations.CommitMarksGroupsPending : Prop :=
  ∀ (s : State) (t p : Nat) (v : Word), s.Canon → s.writable p = true →
    let named := if bitOf v.toNat 31 then allGroups p else bits v.toNat 16 0 &&& allGroups p
    let frame (u : State) : Prop := RegsBut [rkey p H.CSTAT, rkey p H.STAT] s u ∧
      u = { s.breakKey p 0 with now := u.now, regs := { s.regs with active := u.regs.active } }
    (bitOf v.toNat 30 = false → ∃ u, exec (.commit t p v) s = .next u ∧ u.pendGroups p = s.pendGroups p ||| named ∧ frame u) ∧
    (bits v.toNat 16 0 ≠ 0 ∨ bitOf v.toNat 31 = true →
      ∃ u, exec (.commitCancel t p v) s = .next u ∧ u.pendGroups p = s.pendGroups p &&& (0x1FFFF ^^^ named) ∧ frame u) ∧
    (bits v.toNat 16 0 = 0 → bitOf v.toNat 31 = false →
      ∃ u, exec (.commitCancel t p v) s = .next u ∧ u.pendGroups p = 0 ∧ frame u)

/-- O14 (R37; R40). On a page whose settings take effect by the copy alone (COMPRESS, MARCH, deep memory, store, queue, host, vector and
cascade pages), with at least one named group pending and due: SAFE_POINT answers a next state in which none of the groups taken is
pending. If every check passes, every register of a group taken has its staged RW bits in the active register; if one fails, no
register of the block region of any page has changed. -/
def Obligations.SafePointTakesOrRejects : Prop :=
  ∀ (s : State) (t p : Nat) (gs : BitVec 17), s.Canon → s.writable p = true → s.stagedMode p = true →
    pageType p ∈ [0x14, 0x17, 0x18, 0x19, 0x1A, 0x1B, 0x1D, 0x1F] →
    let taken := (s.at t).takenAt p gs.toNat t
    taken ≠ [] →
    ∃ u, exec (.safePoint t p gs) s = .next u ∧ (∀ e ∈ taken, bitOf (u.pendGroups p) e.2 = false) ∧
      ((∀ e ∈ taken, (s.at t).checkGroup ((s.at t).takenView taken) e.1 e.2 = 0) →
        ∀ e ∈ taken, ∀ o d i, 0x040 ≤ o → o < 0x800 → regAt p o = some (d, i) → d.group i = some e.2 →
          u.reg p o = mergeBits (s.reg p o) d.rw (s.stagedReg p o)) ∧
      ((∃ e ∈ taken, (s.at t).checkGroup ((s.at t).takenView taken) e.1 e.2 ≠ 0) →
        ∀ q o, 0x040 ≤ o → o < 0x1000 → u.reg q o = s.reg q o)

/-- O15 (R43; R44; R45). STAGE_MODE_CHANGE on a page that takes writes gives the page that mode; on entering staged mode the staged copy
of every register of its block region is its active value. SOFT_RESET puts the page in reset; its completion ends the reset and clears
SOFT_RESET, and a page that always runs then ends its gaps. ENABLE_WRITE of 0 stops a running page that may be stopped, and changes
nothing on one that always runs. -/
def Obligations.PageModes : Prop :=
  ∀ (s : State) (t p : Nat) (b : Bool), s.Canon → p < 0x100 →
    (s.writable p = true → ∃ u, exec (.stageModeChange t p b) s = .next u ∧ u.stagedMode p = b ∧
      (b = true → s.stagedMode p = false → ∀ o, 0x040 ≤ o → o < 0x1000 → u.stagedReg p o = s.reg p o)) ∧
    (s.writable p = true → ∃ u, exec (.softReset t p) s = .next u ∧ u.inReset p = true ∧ bitOf (u.reg p H.CTL) 1 = true) ∧
    (s.inReset p = true → ∃ w, w.inReset p = false ∧ bitOf (w.reg p H.CTL) 1 = false ∧
      exec (.softResetComplete t p) s = .next (if alwaysEnabled p then w.gapClose (gapStreams p) t 5 false else w)) ∧
    (s.writable p = true → alwaysEnabled p = false → s.enabled p = true → pageType p ∉ [0x03, 0x05, 0x11, 0x20, 0x21] →
      ∃ u, exec (.enableWrite t p false) s = .next u ∧ u.enabled p = false) ∧
    (s.writable p = true → alwaysEnabled p = true → exec (.enableWrite t p false) s = .next ((s.at t).breakKey p 0))

/-- O16 (R46; R47; R48; R448; R387). On a page that takes writes: EVT_PEND_CLEAR clears exactly the bits written as 1; EVT_EN_WRITE leaves
the written value without bit 28 in EVT_EN and EVT_PEND as it was; EVT_FORCE leaves in EVT_PEND the bits it had and those written but
28. No other register, no memory and no block's state changes, but that a write to the SAF page ends a clearing sequence begun.
MSIX_UNMASK of a vector, with the function unmasked and a message of that vector held: the next state has sent that message once,
holds it no more, and the vector is unmasked; other vectors' masks and held messages are as before. With the function mask set,
unmasking the function sends every held message whose vector is unmasked. -/
def Obligations.EventsAndMessages : Prop :=
  (∀ (s : State) (t p : Nat) (v : Word), s.Canon → s.writable p = true →
    (∃ u, exec (.evtPendClear t p v) s = .next u ∧ u.reg p H.PEND = s.reg p H.PEND &&& (0xFFFFFFFF ^^^ v.toNat) ∧
      RegsBut [rkey p H.PEND] s u ∧ SameBlocks (s.breakKey p 0) u ∧ u.out = s.out) ∧
    (∃ u, exec (.evtEnWrite t p v) s = .next u ∧ u.reg p H.EN = v.toNat &&& 0xEFFFFFFF ∧ RegsBut [rkey p H.EN] s u ∧ SameBlocks (s.breakKey p 0) u) ∧
    (∃ u, exec (.evtForce t p v) s = .next u ∧ (∀ i, i < 32 → bitOf (u.reg p H.PEND) i = (bitOf (s.reg p H.PEND) i || (bitOf v.toNat i && i != 28))) ∧
      RegsBut [rkey p H.PEND] s u ∧ SameBlocks (s.breakKey p 0) u)) ∧
  (∀ (s : State) (v : Fin 512), s.msix.waiting.Nodup →
    (s.msix.funcMask = false → v.val ∈ s.msix.waiting → (∀ w ∈ s.msix.waiting, w = v.val ∨ w ∈ s.msix.masked) →
      exec (.msixUnmask (some v)) s = .next { s with
        out := s.out ++ [.msix v.val],
        msix := { s.msix with masked := s.msix.masked.filter (fun x => x != v.val), waiting := s.msix.waiting.filter (fun x => x != v.val) } }) ∧
    (∃ u, exec (.msixUnmask none) s = .next u ∧ u.msix.funcMask = false ∧ (∀ w, w ∈ u.msix.waiting ↔ w ∈ s.msix.waiting ∧ w ∈ s.msix.masked) ∧
      u.out = s.out ++ (s.msix.waiting.filter (fun w => !s.msix.masked.contains w)).map Output.msix))

/-- O17 (R140; R174; R175). FRQ_SNAP_SEL shows the selected unit's latest result (zeros before its first) in FRQ_RES_*; ACC_SNAP_SEL the
ten words of the selected source's latest record, low halves first; HAR_SNAP_SEL the selected converter's start, end, angle and count
with the real and imaginary sums of the selected order, or zeros where the order is not selected. Each changes registers of its own
page alone; FRQ_NEW_CLEAR clears exactly the bits of FRQ_NEW written as 1. -/
def Obligations.SnapshotSelectsShowMeasurements : Prop :=
  ∀ (s : State) (v : Word), s.Canon →
    (∃ u, exec (.frqSnapSel v) s = .next u ∧ u.get P.FRQ F.FRQ_RES_UNIT = v.toNat % 32 ∧
      (∀ r, (s.fu (v.toNat % 32)).results.head? = some r →
        u.get64 P.FRQ F.FRQ_RES_END_LO F.FRQ_RES_END_HI = r.finish % 2 ^ 48 ∧ u.get64 P.FRQ F.FRQ_RES_N_LO F.FRQ_RES_N_HI = r.n % 2 ^ 40 ∧
        u.get64 P.FRQ F.FRQ_RES_PERIOD_LO F.FRQ_RES_PERIOD_HI = r.period % 2 ^ 64 ∧
        u.get64 P.FRQ F.FRQ_RES_FREQ_LO F.FRQ_RES_FREQ_HI = r.freq % 2 ^ 64) ∧
      ((s.fu (v.toNat % 32)).results = [] →
        u.get64 P.FRQ F.FRQ_RES_N_LO F.FRQ_RES_N_HI = 0 ∧ u.get64 P.FRQ F.FRQ_RES_PERIOD_LO F.FRQ_RES_PERIOD_HI = 0) ∧
      PagesBut [P.FRQ] s u ∧ OnlyActive s u) ∧
    (∃ u, exec (.frqNewClear v) s = .next u ∧ u.get P.FRQ F.FRQ_NEW = s.get P.FRQ F.FRQ_NEW &&& (0xFFFFFFFF ^^^ v.toNat) ∧
      RegsBut [rkey P.FRQ F.FRQ_NEW.off] s u ∧ OnlyActive s u) ∧
    (∃ u, exec (.accSnapSel v) s = .next u ∧
      (∀ k < 10, u.get P.ACC F.ACC_SNAP (2 * k) + u.get P.ACC F.ACC_SNAP (2 * k + 1) * 2 ^ 32 =
        ((s.accSnap.getD (v.toNat % 64) []).getD k 0).toNat) ∧ PagesBut [P.ACC] s u ∧ OnlyActive s u) ∧
    (∃ u, exec (.harSnapSel v) s = .next u ∧
      (let w (k : Nat) : Nat := ((s.harSnap.getD (v.toNat % 16) []).getD k 0).toNat
       let orders := w 5 + w 6 * 2 ^ 64
       let h := bits v.toNat 14 8
       let below := ((List.range h).filter (bitOf orders)).length
       (bitOf orders h = true →
         u.get64 P.HAR F.HAR_SNAP_START_LO F.HAR_SNAP_START_HI = w 1 ∧ u.get64 P.HAR F.HAR_SNAP_END_LO F.HAR_SNAP_END_HI = w 2 ∧
         u.get64 P.HAR F.HAR_SNAP_RE_LO F.HAR_SNAP_RE_HI = w (7 + 2 * below) ∧
         u.get64 P.HAR F.HAR_SNAP_IM_LO F.HAR_SNAP_IM_HI = w (8 + 2 * below)) ∧
       (bitOf orders h = false →
         u.get64 P.HAR F.HAR_SNAP_RE_LO F.HAR_SNAP_RE_HI = 0 ∧ u.get64 P.HAR F.HAR_SNAP_IM_LO F.HAR_SNAP_IM_HI = 0 ∧
         u.get P.HAR F.HAR_SNAP_N = 0)) ∧
      PagesBut [P.HAR] s u ∧ OnlyActive s u)

/-- O18 (R210; R211; R344; R346; R367; R453; R448). TLD_TC_SNAP_SEL shows the committed value of the selected counter, saturated to 32
bits. TLD_PT_SEL and SCR_LEND_SEL set their page's pointer. DMC_BADROW_SEL shows the selected bad row, or 0 past the list. STO_CAT_SEL
selects a record-table slot and shows the catalogue of that slot. SAF_SEAL_SEL selects the page whose seal is shown, and ends a
clearing sequence begun. With the page in staged mode and not in soft reset: TLD_PT_CTL_WRITE lands in the staged copy of the pattern-
table entry TLD_PT_PTR names, and SCR_LEND_DATA_WRITE in the lend-table group SCR_LEND_PTR names, but for groups 0 to 7, whose flags
no write changes. No other staged register changes. With INC the pointer then names the next entry (the lend table's wraps at 96),
else it stays. -/
def Obligations.SelectsAndWindowTableWrites : Prop :=
  (∀ (s : State) (t : Nat) (v : Word), s.Canon →
    (bitOf v.toNat 4 = false → ∃ u, exec (.tldTcSnapSel t v) s = .next u ∧
      (∀ c r, s.gmb.ckpts = c :: r → u.get P.TLDT F.TLD_TC_SNAP = Nat.min (c.ladder.counters.getD (v.toNat % 16) 0) (2 ^ 32 - 1)) ∧
      (s.gmb.ckpts = [] → u.get P.TLDT F.TLD_TC_SNAP = Nat.min (s.gmb.ladder.counters.getD (v.toNat % 16) 0) (2 ^ 32 - 1)) ∧
      RegsBut [rkey P.TLDT F.TLD_TC_SNAP.off] s u ∧ OnlyActive (s.at t) u) ∧
    (∃ u, exec (.tldPtSel v) s = .next u ∧ u.get P.TLDP F.TLD_PT_PTR = v.toNat % 1024 ∧
      RegsBut [rkey P.TLDP F.TLD_PT_PTR.off] s u ∧ OnlyActive s u) ∧
    (∃ u, exec (.scrLendSel v) s = .next u ∧ u.get P.SCR F.SCR_LEND_PTR = v.toNat % 256 ∧
      RegsBut [rkey P.SCR F.SCR_LEND_PTR.off] s u ∧ OnlyActive s u) ∧
    (∃ u, exec (.dmcBadrowSel v) s = .next u ∧ u.mar = { s.mar with sel := v.toNat % 64 } ∧
      u.get64 P.DMC F.DMC_BADROW_LO F.DMC_BADROW_HI = s.mar.badRows.getD (v.toNat % 64) 0 % 2 ^ 38 ∧
      RegsBut [rkey P.DMC F.DMC_BADROW_LO.off, rkey P.DMC F.DMC_BADROW_HI.off] s u) ∧
    (∃ u, exec (.stoCatSel v) s = .next u ∧ u.store = { s.store with sel := v.toNat % 65536 } ∧
      (s.store.table.find? (fun e => e.slot = v.toNat % 65536) = none →
        u.get P.STO F.STO_CAT_STAT_STATE = 0 ∧ u.get P.STO F.STO_CAT_REC = 0) ∧
      (∀ e, s.store.table.find? (fun e => e.slot = v.toNat % 65536) = some e →
        u.get P.STO F.STO_CAT_REC = fieldAt e.header 0 4 % 2 ^ 32 ∧ u.get P.STO F.STO_CAT_SEG = fieldAt e.header 4 4 % 2 ^ 32) ∧
      PagesBut [P.STO, P.NVQ] s u) ∧
    exec (.safSealSel v) s = .next { s with saf := { s.saf with sel := v.toNat % 256, keyAt := none } }) ∧
  (∀ (s : State) (t : Nat) (v : Word), s.Canon →
    (s.writable P.TLDP = true → s.stagedMode P.TLDP = true →
      let e := s.get P.TLDP F.TLD_PT_PTR_ENTRY
      ∃ u, exec (.tldPtCtlWrite t v) s = .next u ∧
        u.stagedReg (P.PT e) F.TLD_PT_CTL.off = mergeBits (s.stagedReg (P.PT e) F.TLD_PT_CTL.off) 0xC000000F v.toNat ∧
        (∀ q o, rkey q o ≠ rkey (P.PT e) F.TLD_PT_CTL.off → u.stagedReg q o = s.stagedReg q o) ∧
        (s.getB P.TLDP F.TLD_PT_PTR_INC = true → u.get P.TLDP F.TLD_PT_PTR_ENTRY = (e + 1) % 512) ∧
        (s.getB P.TLDP F.TLD_PT_PTR_INC = false → u.get P.TLDP F.TLD_PT_PTR_ENTRY = e) ∧
        RegsBut [rkey P.TLDP F.TLD_PT_PTR.off] s u ∧ SameBlocks s u) ∧
    (s.writable P.SCR = true → s.stagedMode P.SCR = true → s.get P.SCR F.SCR_LEND_PTR_GROUP < 96 →
      let g := s.get P.SCR F.SCR_LEND_PTR_GROUP
      ∃ u, exec (.scrLendDataWrite t v) s = .next u ∧
        (8 ≤ g → u.stagedReg (P.LEND g) F.SCR_LEND_DATA.off = v.toNat) ∧
        (g < 8 → u.stagedReg (P.LEND g) F.SCR_LEND_DATA.off = s.stagedReg (P.LEND g) F.SCR_LEND_DATA.off) ∧
        (∀ q o, rkey q o ≠ rkey (P.LEND g) F.SCR_LEND_DATA.off → u.stagedReg q o = s.stagedReg q o) ∧
        (s.getB P.SCR F.SCR_LEND_PTR_INC = true → u.get P.SCR F.SCR_LEND_PTR_GROUP = (g + 1) % 96) ∧
        (s.getB P.SCR F.SCR_LEND_PTR_INC = false → u.get P.SCR F.SCR_LEND_PTR_GROUP = g) ∧
        RegsBut [rkey P.SCR F.SCR_LEND_PTR.off] s u ∧ SameBlocks s u))

/-- O19 (R133; R117). STP_IP_SNAP of a group, for each of its two pairing units named in the write: IP_CNT shows the unit's count and
IP_SUM its sum; with SNAP_CLR the unit's statistics are zero afterwards, without it they are unchanged. A unit not named keeps its
statistics. DIG_BCAST in staged mode writes THR and HYST of the staged copy of every masked channel, and of no other. -/
def Obligations.SnapshotOfIntervalStatistics : Prop :=
  ∀ (s : State) (g : Fin 8) (v : Word), s.Canon → s.ips.length = 16 →
    (∃ u, exec (.stpIpSnap g v) s = .next u ∧
      (∀ k < 2, bitOf v.toNat k = true →
        u.get (P.STP g) F.IP_CNT k = (s.ip (2 * g + k)).cnt % 2 ^ 32 ∧
        u.get (P.STP g) F.IP_SUM_LO k + u.get (P.STP g) F.IP_SUM_HI k * 2 ^ 32 = unsx 64 (s.ip (2 * g + k)).sum ∧
        (bitOf v.toNat 2 = true → (u.ip (2 * g + k)).cnt = 0 ∧ (u.ip (2 * g + k)).sum = 0 ∧ (u.ip (2 * g + k)).sumSq = 0 ∧
          (u.ip (2 * g + k)).starts = (s.ip (2 * g + k)).starts) ∧
        (bitOf v.toNat 2 = false → u.ip (2 * g + k) = s.ip (2 * g + k))) ∧
      (∀ n, (∀ k < 2, bitOf v.toNat k = true → n ≠ 2 * g.val + k) → u.ip n = s.ip n) ∧ PagesBut [P.STP g] s u) ∧
    (s.stagedMode (P.DIG g) = true → ∃ u, exec (.digBcast g v) s = .next u ∧
      (∀ c < 32, bitOf (s.use (P.DIG g) F.DIG_BCAST_MASK) c = true →
        u.stagedReg (P.DIG g) (F.DIG_THR.at c) = mergeBits (s.stagedReg (P.DIG g) (F.DIG_THR.at c)) 0xFFF (bits v.toNat 27 16) ∧
        u.stagedReg (P.DIG g) (F.DIG_CH_CFG.at c) = mergeBits (s.stagedReg (P.DIG g) (F.DIG_CH_CFG.at c)) 3 (bits v.toNat 1 0)) ∧
      (∀ q o, (∀ c < 32, bitOf (s.use (P.DIG g) F.DIG_BCAST_MASK) c = true →
          rkey q o ≠ rkey (P.DIG g) (F.DIG_THR.at c) ∧ rkey q o ≠ rkey (P.DIG g) (F.DIG_CH_CFG.at c)) → u.stagedReg q o = s.stagedReg q o) ∧
      u = { s with regs := { s.regs with staged := u.regs.staged } })

/-- O20 (R391; R192; R204; R212). TIME_SET_SEC sets the named half of the second the next edge carries and keeps the other half (zero when
none was set). SOFT while the ladder runs sets the written software hits beside those set; while it does not run the write is
discarded. After ACT_RELEASE an output it names is inactive unless it was activated in the REG cycle of the write, which leaves it
active; an output it does not name keeps its activity. -/
def Obligations.SetSecSoftAndRelease : Prop :=
  ∀ (s : State) (t : Nat) (v : Word), s.Canon → s.act.length = 16 →
    exec (.timeSetSec true v) s = .next { s with tm := { s.tm with nextSec := some (s.tm.nextSec.getD 0 % 2 ^ 32 + v.toNat % 2 ^ 16 * 2 ^ 32 +
      s.tm.nextSec.getD 0 / 2 ^ 48 * 2 ^ 48) } } ∧
    exec (.timeSetSec false v) s = .next { s with tm := { s.tm with nextSec := some (s.tm.nextSec.getD 0 / 2 ^ 32 * 2 ^ 32 + v.toNat) } } ∧
    (s.gmb.running = true → s.gmb.last = none →
      exec (.soft t v) s = .next { s with now := Nat.max s.now t, lin := { s.lin with soft := s.lin.soft ||| v.toNat % 2 ^ 16 } }) ∧
    (s.gmb.running = false → exec (.soft t v) s = .next { s with now := Nat.max s.now t }) ∧
    (∃ u, exec (.actRelease t v) s = .next u ∧
      (∀ n < 16, bitOf v.toNat n = true → s.actActive n = true → (s.actOut n).since / regCycle = t / regCycle → u.actActive n = true) ∧
      (∀ n < 16, bitOf v.toNat n = true → s.actActive n = true → (s.actOut n).since / regCycle ≠ t / regCycle → u.actActive n = false) ∧
      (∀ n < 16, bitOf v.toNat n = false ∨ s.actActive n = false → u.actActive n = s.actActive n))

/-- O21 (R52; R53; R58; R59; R60). On an enabled page with REFCLK present and within 6 % of the one REF_FREQ names, and BAND_MODE 0:
RELOCK, and LOCK_ATTEMPT where an attempt is wanted and the page is not held after a soft reset, answer a next state with the
synthesizer on bypass and not locked, in SEARCH with tuning code 2048 and the whole range of bands before it. With REFCLK absent the
state is NO_REF. LOCK_ATTEMPT where none is wanted has no effect. -/
def Obligations.LockAttempts : Prop :=
  ∀ (s : State) (t : Nat) (n : Fin 4) (khz : Nat), s.Canon → s.clk.length = 4 → s.enabled (P.CKS n) = true →
    let searching (u : State) : Prop := u.blockState (P.CKS n) = Y.SEARCH ∧ u.get (P.CKS n) F.CKS_TUNE = 2048 ∧ u.spLocked n = false ∧
      u.onBypass n = true ∧ (u.synth n).lo = 0 ∧ (u.synth n).hi = 31 ∧ (u.synth n).step = 0 ∧ (u.synth n).verifying = false
    (s.useB (P.CKS n) F.CKS_BAND_CFG_BAND_MODE = false → (s.synth n).refKhz ≠ 0 → s.refMatches n (s.synth n).refKhz = true →
      ∃ u, exec (.relock t n) s = .next u ∧ searching u) ∧
    ((s.synth n).refKhz = 0 → ∃ u, exec (.relock t n) s = .next u ∧ u.blockState (P.CKS n) = Y.NO_REF ∧ u.spLocked n = false ∧
      u.onBypass n = true) ∧
    ((s.synth n).wanted = true → (s.synth n).resetHold = false →
      (s.useB (P.CKS n) F.CKS_BAND_CFG_BAND_MODE = false → khz ≠ 0 → s.refMatches n khz = true →
        ∃ u, exec (.lockAttempt t n khz) s = .next u ∧ searching u ∧ (u.synth n).refKhz = khz) ∧
      (khz = 0 → ∃ u, exec (.lockAttempt t n 0) s = .next u ∧ u.blockState (P.CKS n) = Y.NO_REF)) ∧
    ((s.synth n).wanted = false → exec (.lockAttempt t n khz) s = .next (s.at t))

/-- O22 (R53; R54). BAND_SEARCH_STEP in SEARCH tries the middle band of the range, records it with its count, and keeps the lower bands
when the count is above the expected one, else the middle and the higher; the fifth step shows the band left and starts the
verification. BAND_VERIFY within 2 % enters LOCK_CHECK with the tuning code a free value (log entry 3); beyond it a search counts a
failure and takes the first valid table entry for the present temperature, or NO_BAND. -/
def Obligations.BandSelection : Prop :=
  ∀ (s : State) (t : Nat) (n : Fin 4) (count : BitVec 24), s.Canon → s.clk.length = 4 → s.enabled (P.CKS n) = true →
    let y := s.synth n
    let mid := (y.lo + y.hi + 1) / 2
    (s.blockState (P.CKS n) = Y.SEARCH → y.verifying = false → y.step < 5 →
      ∃ u, exec (.bandSearchStep t n count) s = .next u ∧
        u.get (P.CKS n) F.CKS_SEARCH_STEP_BAND y.step = mid % 32 ∧ u.get (P.CKS n) F.CKS_SEARCH_STEP_COUNT y.step = count.toNat ∧
        (s.cntExp n < count.toNat * 256 → (u.synth n).lo = y.lo ∧ (u.synth n).hi = mid - 1) ∧
        (count.toNat * 256 ≤ s.cntExp n → (u.synth n).lo = mid ∧ (u.synth n).hi = y.hi) ∧
        (u.synth n).step = y.step + 1 ∧ ((u.synth n).verifying = true ↔ y.step = 4) ∧
        (y.step = 4 → u.get (P.CKS n) F.CKS_BAND_STAT_BAND = (u.synth n).lo % 32) ∧
        RegsBut [rkey (P.CKS n) (F.CKS_SEARCH_STEP.at y.step), rkey (P.CKS n) F.CKS_BAND_STAT.off] s u ∧
        u = { s with now := u.now, clk := u.clk, regs := { s.regs with active := u.regs.active } }) ∧
    (y.verifying = true →
      (s.withinPpm n count.toNat 20000 = true → ∃ u, exec (.bandVerify t n count) s = .next u ∧ u.blockState (P.CKS n) = Y.LOCK_CHECK ∧
        u.get (P.CKS n) F.CKS_TUNE = (Config.freeWord s.freeCtr).toNat % 4096 ∧ u.freeCtr = s.freeCtr + 1 ∧ (u.synth n).verifying = false) ∧
      (s.withinPpm n count.toNat 20000 = false → s.blockState (P.CKS n) = Y.SEARCH →
        ∃ u, exec (.bandVerify t n count) s = .next u ∧
          u.get (P.CKS n) F.CKS_SEARCH_FAIL_CNT = Nat.min (s.get (P.CKS n) F.CKS_SEARCH_FAIL_CNT + 1) (2 ^ 32 - 1) ∧
          (s.bandEntry n = none → u.blockState (P.CKS n) = Y.NO_BAND) ∧
          (∀ i, s.bandEntry n = some i → u.blockState (P.CKS n) = Y.TABLE ∧ u.get (P.CKS n) F.CKS_BAND_STAT_ENTRY = i ∧
            u.get (P.CKS n) F.CKS_BAND_STAT_BAND = s.use (P.CKS n) F.CKS_BAND_TAB_BAND i ∧ (u.synth n).verifying = true)) ∧
      (s.withinPpm n count.toNat 20000 = false → s.blockState (P.CKS n) ≠ Y.SEARCH →
        ∃ u, exec (.bandVerify t n count) s = .next u ∧ u.blockState (P.CKS n) = Y.NO_BAND)) ∧
    (y.verifying = false → exec (.bandVerify t n count) s = .next (s.at t))

/-- O23 (R55; R56; R57; R58; R60; R446). LOCK_WINDOW_END shows its count. In LOCK_CHECK a window within 100 ppm adds to the run and any
other clears it, and the fourth in a row declares lock and ends the bypass. A locked synthesizer beyond LOSS_PPM in one window loses
lock with cause FREQ_DEV; PHASE_SLIP on a locked one does with cause SLIP; on SP0 that is the sample-clock fault, which takes a READY
or ARMED module to SAFE. REF_LOSS leaves no synthesizer locked and none with a reference; REFCLK_RETURN gives all four the measured
reference. -/
def Obligations.LockAndLoss : Prop :=
  ∀ (s : State) (t : Nat) (n : Fin 4) (count : BitVec 32) (khz : Nat), s.Canon → s.clk.length = 4 →
    let p := P.CKS n
    let c := count.toNat
    let run := s.get p F.CKS_LOCK_STAT_PASS_RUN
    (s.enabled p = true → s.blockState p = Y.LOCK_CHECK →
      (s.withinPpm n c 100 = true → run < 3 → ∃ u, exec (.lockWindowEnd t n count) s = .next u ∧ u.get p F.CKS_CNT_LAST = c ∧
        u.get p F.CKS_LOCK_STAT_PASS_RUN = run + 1 ∧ RegsBut [rkey p F.CKS_CNT_LAST.off, rkey p F.CKS_LOCK_STAT.off] s u ∧
        OnlyActive (s.at t) u) ∧
      (s.withinPpm n c 100 = true → run = 3 → ∃ u, exec (.lockWindowEnd t n count) s = .next u ∧ u.get p F.CKS_CNT_LAST = c ∧
        u.spLocked n = true ∧ u.onBypass n = false ∧ u.blockState p = Y.LOCKED ∧ u.reg p F.CKS_LOSS_CAUSE.off = 0) ∧
      (s.withinPpm n c 100 = false → ∃ u, exec (.lockWindowEnd t n count) s = .next u ∧ u.get p F.CKS_LOCK_STAT_PASS_RUN = 0 ∧
        u.blockState p = Y.LOCK_CHECK)) ∧
    (s.enabled p = true → s.blockState p = Y.LOCKED →
      (s.withinPpm n c (s.use p F.CKS_LOCK_CFG_LOSS_PPM) = false → ∃ u, exec (.lockWindowEnd t n count) s = .next u ∧
        u.spLocked n = false ∧ u.onBypass n = true ∧ u.reg p F.CKS_LOSS_CAUSE.off = 2) ∧
      (s.withinPpm n c (s.use p F.CKS_LOCK_CFG_LOSS_PPM) = true → s.withinPpm n c 100 = true →
        ∃ u, exec (.lockWindowEnd t n count) s = .next u ∧ (u.synth n).deviated = false ∧ RegsBut [rkey p F.CKS_CNT_LAST.off] s u)) ∧
    (s.spLocked n = true → ∃ u, exec (.phaseSlip t n) s = .next u ∧ u.spLocked n = false ∧ u.onBypass n = true ∧
      u.reg p F.CKS_LOSS_CAUSE.off = 4 ∧ u.blockState p = Y.IDLE ∧
      (n = 0 → bitOf (u.get P.SAF F.SAF_FAULT_RAW) 4 = true ∧
        (bitOf (s.get P.SAF F.SAF_FAULT_RAW) 4 = false → s.run = .ready ∨ s.run = .armed → u.run = .safe))) ∧
    (s.spLocked n = false → exec (.phaseSlip t n) s = .next (s.at t)) ∧
    (∃ u, exec (.refLoss t) s = .next u ∧ ∀ k < 4, u.spLocked k = false ∧ u.getB (P.CKS k) F.CKS_LOCK_STAT_REF_PRESENT = false ∧
      (u.synth k).refKhz = 0) ∧
    (∃ u, exec (.refclkReturn t khz) s = .next u ∧ ∀ k < 4, u.getB (P.CKS k) F.CKS_LOCK_STAT_REF_PRESENT = true ∧
      (u.synth k).refKhz = khz)

/-- O24 (R63). With SP0 locked, DLG_LOCK sets the group's bit of DLG_LOCK and DLG_UNLOCK of a locked group clears it, every other group's
bit staying, and an unlocked group raises the level event that not all groups are locked. While SP0 is not locked, or for a group not
locked, DLG_UNLOCK has no effect; DLG_LOCK has none while SP0 is not locked. -/
def Obligations.GroupDelayLines : Prop :=
  ∀ (s : State) (t : Nat) (g : Fin 8), s.Canon →
    let now := s.get (P.CKS 0) F.CKS_LOCK_STAT_DLG_LOCK
    (s.spLocked 0 = true → ∃ u, exec (.dlgLock t g) s = .next u ∧ ∀ k < 8,
      bitOf (u.get (P.CKS 0) F.CKS_LOCK_STAT_DLG_LOCK) k = (bitOf now k || k == g.val)) ∧
    (s.spLocked 0 = false → exec (.dlgLock t g) s = .next (s.at t)) ∧
    (s.spLocked 0 = true → bitOf now g = true → ∃ u, exec (.dlgUnlock t g) s = .next u ∧ bitOf (u.reg (P.CKS 0) H.RAW) 6 = true ∧
      ∀ k < 8, bitOf (u.get (P.CKS 0) F.CKS_LOCK_STAT_DLG_LOCK) k = (bitOf now k && k != g.val)) ∧
    (s.spLocked 0 = false ∨ bitOf now g = false → exec (.dlgUnlock t g) s = .next (s.at t))

/-- O25 (R74; R79; R80). For a DIGITAL loop of an enabled page in TRACK, LOCKED or SLEW with SP0 locked and a crossing found:
LOOP_REFERENCE_EVENT within the validity window sets F_INT by the update law from the phase error at the crossing, which LTL_PHASE_ERR
shows, and the crossing becomes the latest valid event; outside the window the event is rejected and counted and F_INT stays. The
crossing is taken either way, and no other loop changes. With none found there is no effect. -/
def Obligations.LoopReferenceEvents : Prop :=
  ∀ (s : State) (t : Nat) (n : Fin 4), s.Canon → s.loops.length = 4 → s.enabled (P.LTL n) = true → s.sp0Good = true →
    s.loopSrc n = S.DIGITAL → s.loopState n ∈ [L.TRACK, L.LOCKED, L.SLEW] →
    (∀ c fall, (s.loop n).crossing = some (c, fall) →
      let e := s.phaseErr n (s.refAngle n fall) c
      let dt := c - (s.loop n).lastEvent.getD 0
      let cap := if s.loopState n = L.SLEW then 20 else s.use (P.LTL n) F.LTL_GAIN_DEV_CAP
      ∃ u, exec (.loopReferenceEvent t n) s = .next u ∧ (u.loop n).crossing = none ∧ (∀ m, m ≠ n.val → u.loop m = s.loop m) ∧
        (s.windowGood n dt = true →
          (u.loop n).fInt = (updateLaw (s.loop n).fInt e dt (s.use (P.LTL n) F.LTL_GAIN_KI_SHIFT) (s.use (P.LTL n) F.LTL_GAIN_KP_SHIFT) cap).1 ∧
          (u.loop n).lastEvent = some c ∧ u.get (P.LTL n) F.LTL_PHASE_ERR = unsx 24 e) ∧
        (s.windowGood n dt = false → u.loop n = { s.loop n with crossing := none } ∧
          u.get (P.LTL n) F.LTL_REJECT_CNT = Nat.min (s.get (P.LTL n) F.LTL_REJECT_CNT + 1) (2 ^ 32 - 1) ∧
          RegsBut [rkey (P.LTL n) F.LTL_REJECT_CNT.off, rkey (P.LTL n) H.PEND] s u)) ∧
    ((s.loop n).crossing = none → exec (.loopReferenceEvent t n) s = .next (s.at t))

/-- O26 (R83; R84; R88). On an enabled page, with the loss interval run out and no reverse rotation, COAST_ON takes a running loop to
COAST: from the next ply start its angle advances at F_INT without a step, the loss is counted and the loop's state and coast start
are shown. COAST_LONG after that many cycles sets the bit and its event. HOLD_END at a ply start where the projected reference has
reached the held angle takes the loop to TRACK at exactly that angle, at F_INT; earlier it has no effect. -/
def Obligations.LossAndCoast : Prop :=
  ∀ (s : State) (t : Nat) (n : Fin 4), s.Canon → s.loops.length = 4 → s.enabled (P.LTL n) = true →
    (s.loopState n ∈ [L.TRACK, L.LOCKED, L.SLEW, L.HOLD] → (s.loop n).reverse = false → s.lossDue n t = true →
      ∃ u, exec (.coastOn t n) s = .next u ∧ u.loopState n = L.COAST ∧ u.coasting n = true ∧ (u.loop n).coastFrom = some (nextPly t) ∧
        (u.loop n).phaseAt (nextPly t) = (s.loop n).phaseAt (nextPly t) ∧ (u.loop n).rateAt (nextPly t) = (s.loop n).fInt ∧
        u.get (P.LTL n) F.LTL_LOSS_CNT = Nat.min (s.get (P.LTL n) F.LTL_LOSS_CNT + 1) (2 ^ 32 - 1) ∧
        (∀ m, m ≠ n.val → u.loop m = s.loop m)) ∧
    (s.lossDue n t = false → exec (.coastOn t n) s = .next (s.at t)) ∧
    (s.coasting n = true → s.use (P.LTL n) F.LTL_COAST_CFG_COAST_LONG ≤ s.coastCycles n t →
      ∃ u, exec (.coastLong t n) s = .next u ∧ u.getB (P.LTL n) F.LTL_STAT_COAST_LONG = true ∧ bitOf (u.reg (P.LTL n) H.RAW) 3 = true ∧
        RegsBut [rkey (P.LTL n) F.LTL_STAT.off, rkey (P.LTL n) H.RAW, rkey (P.LTL n) H.PEND] s u ∧ SameBlocks s u) ∧
    (s.coasting n = false → exec (.coastLong t n) s = .next (s.at t)) ∧
    (∀ h, (s.loop n).hold = some h → s.loopState n = L.HOLD → t % 32 = 0 →
      ((h : Int) ≤ (s.loop n).projected t → ∃ u, exec (.holdEnd t n) s = .next u ∧ u.loopState n = L.TRACK ∧ (u.loop n).hold = none ∧
        (u.loop n).phaseAt t = h ∧ (u.loop n).rateAt t = (s.loop n).fInt ∧ (∀ m, m ≠ n.val → u.loop m = s.loop m)) ∧
      ((s.loop n).projected t < (h : Int) → exec (.holdEnd t n) s = .next (s.at t)))

/-- O27 (R75; R76). For an ENCODER loop of an enabled page with SP0 locked: a forward transition short of an update moves the position by
one; both lines changing at once is a rejected event and leaves the position; a backward transition of a running loop sets REVERSE and
holds the angle from the next ply. ENCODER_INDEX with Z enabled and no alignment notes the position, and counts an index error where
the count since the last index is not the one set. -/
def Obligations.EncoderCounts : Prop :=
  ∀ (s : State) (t : Nat) (n : Fin 4) (a b : Bool), s.Canon → s.loops.length = 4 → s.enabled (P.LTL n) = true → s.sp0Good = true →
    s.loopSrc n = S.ENCODER → (s.loop n).encAB < 4 → (s.loop n).reverse = false →
    let turn := (quad a b + 4 - (s.loop n).encAB) % 4
    let inv := s.useB (P.LTL n) F.LTL_ENC_CFG_DIR_INV
    (turn = 0 → exec (.encoderCount t n a b) s = .next (s.at t)) ∧
    (turn = 2 → ∃ u, exec (.encoderCount t n a b) s = .next u ∧ u.loop n = { s.loop n with encAB := quad a b } ∧
      u.get (P.LTL n) F.LTL_REJECT_CNT = Nat.min (s.get (P.LTL n) F.LTL_REJECT_CNT + 1) (2 ^ 32 - 1)) ∧
    ((turn = 1 ∧ inv = false ∨ turn = 3 ∧ inv = true) → (s.loop n).encUpd + 1 < 2 ^ s.use (P.LTL n) F.LTL_ENC_Z_UPDATE_EXP →
      ∃ u, exec (.encoderCount t n a b) s = .next u ∧
        u.loop n = { s.loop n with encAB := quad a b, encPos := (s.loop n).encPos + 1, encUpd := (s.loop n).encUpd + 1 } ∧
        (∀ m, m ≠ n.val → u.loop m = s.loop m) ∧ u = { s with now := u.now, loops := u.loops }) ∧
    ((turn = 1 ∧ inv = true ∨ turn = 3 ∧ inv = false) → s.loopRan n = true → s.loopState n ≠ L.OFF →
      ∃ u, exec (.encoderCount t n a b) s = .next u ∧ (u.loop n).encPos = (s.loop n).encPos - 1 ∧ (u.loop n).reverse = true ∧
        u.getB (P.LTL n) F.LTL_STAT_REVERSE = true ∧ (u.loop n).rateAt (nextPly t) = 0) ∧
    (s.useB (P.LTL n) F.LTL_ENC_CFG_Z_EN = true → s.useB (P.LTL n) F.LTL_ENC_CFG_ALIGN_Z = false →
      ∃ u, exec (.encoderIndex t n) s = .next u ∧ u.loop n = { s.loop n with encIdx := some (s.loop n).encPos } ∧
        (∀ i, (s.loop n).encIdx = some i →
          ((s.loop n).encPos - i = (Nat.max 1 (s.use (P.LTL n) F.LTL_ENC_CFG_Z_EVERY) * s.use (P.LTL n) F.LTL_ENC_CFG_COUNTS_PER_CYCLE : Nat) →
            u.get (P.LTL n) F.LTL_ZERR_CNT = s.get (P.LTL n) F.LTL_ZERR_CNT) ∧
          ((s.loop n).encPos - i ≠ (Nat.max 1 (s.use (P.LTL n) F.LTL_ENC_CFG_Z_EVERY) * s.use (P.LTL n) F.LTL_ENC_CFG_COUNTS_PER_CYCLE : Nat) →
            u.get (P.LTL n) F.LTL_ZERR_CNT = Nat.min (s.get (P.LTL n) F.LTL_ZERR_CNT + 1) (2 ^ 32 - 1))))

/-- O28 (R90; R91; R92; R95; R97; R416). ANGLE_EVENT_FIRE of an enabled event whose target this slot first reaches places its strobe on
the slot, and a ONCE event is then disabled; at any other slot it has no effect. LOOP_CYCLE_BOUNDARY at a slot of a new cycle notes it
and the cycle's length. MAP_PERIODIC_POINT on its grid adds a map entry to stream 19 when the map is on. ANGLE_TOKEN places the angle
of a member's CASCADE loop that has not run, at the next ply start, by the token. -/
def Obligations.AngleEventsAndCycles : Prop :=
  ∀ (s : State) (t : Nat) (n : Fin 4) (e : Fin 64), s.Canon → s.loops.length = 4 → s.angFired.length = 64 →
    (s.useB P.ANG F.ANG_EVT_CFG_EN e = true → s.angleRuns (s.use P.ANG F.ANG_EVT_CFG_LOOP e) = true →
      (s.evtCrosses e t = true → ∃ u, exec (.angleEventFire t e) s = .next u ∧ u.angFired.getD e (0, false) = (t, false) ∧
        (∀ k, k ≠ e.val → u.angFired.getD k (0, false) = s.angFired.getD k (0, false)) ∧
        (s.use P.ANG F.ANG_EVT_CFG_KIND e = 2 → u.getB P.ANG F.ANG_EVT_CFG_EN e = false) ∧
        (s.use P.ANG F.ANG_EVT_CFG_KIND e ≠ 2 → u.regs = s.regs) ∧ RegsBut [rkey P.ANG (F.ANG_EVT_CFG.at e)] s u ∧
        u = { s with now := u.now, angFired := u.angFired, regs := { s.regs with active := u.regs.active } }) ∧
      (s.evtCrosses e t = false → exec (.angleEventFire t e) s = .next (s.at t))) ∧
    (s.enabled (P.LTL n) = true → s.loopRan n = true → t ≠ 0 → (s.loop n).pipsAt t / 2 ^ 24 ≠ (s.loop n).pipsAt (t - 1) / 2 ^ 24 →
      ∃ u, exec (.loopCycleBoundary t n) s = .next u ∧ (u.loop n).lastCycle = some t ∧
        (∀ c, (s.loop n).lastCycle = some c → (u.loop n).period = some (t - c)) ∧ (∀ m, m ≠ n.val → u.loop m = s.loop m)) ∧
    (s.enabled (P.LTL n) = true → s.role = C.SOLO → s.cas.step ≠ 4 → s.use (P.LTL n) F.LTL_MAP_CFG_MAP_EXP ≠ 0 →
      (t % (32 * 2 ^ s.use (P.LTL n) F.LTL_MAP_CFG_MAP_EXP) = 0 →
        exec (.mapPeriodicPoint t n) s = .next (if s.useB (P.LTL n) F.LTL_MAP_CFG_MAP_EN
          then (s.at t).appendItem 19 { slot := t, words := s.mapWords n 0 t 0, ply := none } else s.at t)) ∧
      (t % (32 * 2 ^ s.use (P.LTL n) F.LTL_MAP_CFG_MAP_EXP) ≠ 0 → exec (.mapPeriodicPoint t n) s = .next (s.at t))) ∧
    (∀ (port : Port) (k : Token), k.type = TK.ANGLE → port ≠ .twin → s.enabled P.CAS = true → s.role = C.MEMBER →
      bits k.w2.toNat 60 59 = n.val → s.loopSrc n = S.CASCADE → s.enabled (P.LTL n) = true → k.origin ≠ s.casAddr →
      s.loopRan n = false → (s.loop n).ownLoss = false →
      ∃ u, exec (.angleToken t port k) s = .next u ∧ u.loopRan n = true ∧
        (u.loop n).phaseAt (nextPly t) = k.w1.toNat * 2 ^ 32 + bits k.w0.toNat 31 0 + bits k.w2.toNat 47 0 *
          (((s.at t).aligned (nextPly t) / 32 % 2 ^ 32 + 2 ^ 32 - bits k.w3.toNat 63 32) % 2 ^ 32) ∧
        (u.loop n).rateAt (nextPly t) = bits k.w2.toNat 47 0)

/-- O29 (R114; R116; R45). On an enabled DIG page: OVERRANGE_ENTRY sets the channel's bit for its side, its bit of the mask and the
group's bit and counts the entry; the first entry of a window opens it, names the channel first and counts the window, and an entry in
an open window leaves first and count. OVERRANGE_EXIT clears both bits of the channel, and the group's bit follows whether any channel
is left. OVR_WINDOW_CLOSE closes an open window 640 slots after the last exit, and nothing earlier. A stopped page has none of these. -/
def Obligations.OverRangeWindows : Prop :=
  ∀ (s : State) (t : Nat) (g : Fin 8) (c : Fin 32) (hi : Bool), s.Canon → s.digs.length = 8 →
    let p := P.DIG g
    (s.enabled p = true →
      (∃ u, exec (.overrangeEntry t g c hi) s = .next u ∧
        u.getB p (if hi then F.DIG_CH_STAT_OVR_HI else F.DIG_CH_STAT_OVR_LO) c = true ∧ bitOf (u.get p F.DIG_OVR_MASK) c = true ∧
        u.getB p F.DIG_STAT_OVR = true ∧ u.get p F.DIG_OVR_CNT c = Nat.min (s.get p F.DIG_OVR_CNT c + 1) (2 ^ 32 - 1) ∧
        (∀ k < 32, k ≠ c.val → u.get p F.DIG_OVR_CNT k = s.get p F.DIG_OVR_CNT k) ∧ u.getB p F.DIG_STAT_WINDOW = true ∧
        (s.getB p F.DIG_STAT_WINDOW = false → u.get p F.DIG_OVR_FIRST = c.val ∧
          u.get p F.DIG_OVR_WIN_CNT = Nat.min (s.get p F.DIG_OVR_WIN_CNT + 1) (2 ^ 32 - 1)) ∧
        (s.getB p F.DIG_STAT_WINDOW = true → u.get p F.DIG_OVR_FIRST = s.get p F.DIG_OVR_FIRST ∧
          u.get p F.DIG_OVR_WIN_CNT = s.get p F.DIG_OVR_WIN_CNT)) ∧
      (∃ u, exec (.overrangeExit t g c) s = .next u ∧ u.getB p F.DIG_CH_STAT_OVR_HI c = false ∧ u.getB p F.DIG_CH_STAT_OVR_LO c = false ∧
        (u.dig g).ovrExit = t ∧ (u.getB p F.DIG_STAT_OVR = true ↔ u.overCount g ≠ 0) ∧
        (∀ k < 32, k ≠ c.val → u.get p F.DIG_CH_STAT k = s.get p F.DIG_CH_STAT k)) ∧
      (s.getB p F.DIG_STAT_WINDOW = true → s.overCount g = 0 → (s.dig g).ovrExit + 640 ≤ t →
        ∃ u, exec (.ovrWindowClose t g) s = .next u ∧ u.getB p F.DIG_STAT_WINDOW = false ∧ bitOf (u.reg p H.RAW) 1 = false)) ∧
    (s.enabled p = false → exec (.overrangeEntry t g c hi) s = .next (s.at t) ∧ exec (.overrangeExit t g c) s = .next (s.at t)) ∧
    (t < (s.dig g).ovrExit + 640 → exec (.ovrWindowClose t g) s = .next (s.at t))

/-- O30 (R106; R107; R108; R112; R118). For a group in STATE whose own and whose clock group's samples are valid, and an edge of the
wanted slope: STATE_CLOCK_EDGE four slots or more after the last accepted edge is accepted, counted as a sample and shown as a present
clock; nearer it is rejected and counted, and the group's state stays. STATE_CLK_TIMEOUT after TIMEOUT µs without one shows the clock
absent. KEEP_ALIVE of a stream without an entry for 0xFFFF_FFFF slots writes one, with the latest word. -/
def Obligations.StateModeClocking : Prop :=
  ∀ (s : State) (t : Nat) (g : Fin 8) (rising : Bool) (w : Word), s.Canon → s.digs.length = 8 → s.digMode g = M.STATE →
    let p := P.DIG g
    let cg := s.use p F.DIG_STATE_CFG_CLK_GROUP
    let up := rising != s.useB (P.DIG cg) F.DIG_CH_CFG_INVERT 0
    let e := s.use p F.DIG_STATE_CFG_EDGE
    (s.groupValid g = true → s.groupValid cg = true → (e = 2 ∨ e = 0 ∧ up = true ∨ e = 1 ∧ up = false) →
      ((∀ l, (s.dig g).lastEdge = some l → l + 4 ≤ t) → ∃ u, exec (.stateClockEdge t g rising w) s = .next u ∧
        (u.dig g).lastEdge = some t ∧ (u.dig g).samples = (s.dig g).samples + 1 ∧ u.getB p F.DIG_STAT_STATE_CLK = true ∧
        u.get p F.DIG_STATE_EDGE_CNT = (s.get p F.DIG_STATE_EDGE_CNT + 1) % 2 ^ 32 ∧ u.blockState p = M.STATE) ∧
      (∀ l, (s.dig g).lastEdge = some l → t < l + 4 → ∃ u, exec (.stateClockEdge t g rising w) s = .next u ∧ u.digs = s.digs ∧
        u.get p F.DIG_STATE_REJ_CNT = Nat.min (s.get p F.DIG_STATE_REJ_CNT + 1) (2 ^ 32 - 1) ∧
        RegsBut [rkey p F.DIG_STATE_REJ_CNT.off, rkey p H.PEND] s u ∧ SameBlocks s u)) ∧
    (s.use p F.DIG_STATE_CFG_TIMEOUT ≠ 0 → usSlots (s.use p F.DIG_STATE_CFG_TIMEOUT) ≤ t - (s.dig g).lastEdge.getD 0 →
      ∃ u, exec (.stateClkTimeout t g) s = .next u ∧ u.getB p F.DIG_STAT_STATE_CLK = false ∧ u.blockState p = 4 ∧
        bitOf (u.reg p H.RAW) 2 = true ∧ SameBlocks s u) ∧
    (s.use p F.DIG_STATE_CFG_TIMEOUT = 0 → exec (.stateClkTimeout t g) s = .next (s.at t)) ∧
    (s.recording g = true → (s.dig g).lastEntry + 0xFFFFFFFF ≤ t →
      let due := (s.dig g).lastEntry + 0xFFFFFFFF
      let words := [w64 ((s.dig g).lastWord.getD 0 * 2 ^ 32 + 0xFFFFFFFF)]
      exec (.keepAlive t g) s = .next
        (((s.at t).appendItem g { slot := due, words := words, ply := none }).modDig g (fun q => { q with lastEntry := due }))) ∧
    (t < (s.dig g).lastEntry + 0xFFFFFFFF → exec (.keepAlive t g) s = .next (s.at t))

/-- O31 (R121; R123; R125; R128). STAMP_EDGE of one edge of a channel that makes stamps: 82 steps or more after the channel's latest
stamp, or as its first, it becomes the latest; nearer it merges, is counted and leaves the latest. An edge of a channel that makes
none has no effect. COARSE_WRAP at a slot of coarse count 0 after the first makes every channel owe a WRAP bit. MERGE_WINDOW_CLOSE
with no stamp queued takes from the merge exactly the stamps of the windows that ended 64 ticks before. TABLE_REBUILD is busy from its
start to its end, when the new table replaces the old from the next ply. -/
def Obligations.EdgeStamps : Prop :=
  ∀ (s : State) (x t : Nat) (g : Fin 8) (c : Fin 32) (ch : Fin 256) (rising : Bool), s.Canon → s.stps.length = 8 → ch.val = 32 * g + c →
    (s.stamps g c = true →
      ((∀ l b, (s.stp g).latest.lookup c.val = some (l, b) → l + 82 ≤ x) → ∃ u, exec (.stampEdge x [(ch, rising)]) s = .next u ∧
        (u.stp g).latest.lookup c.val = some (x, rising != s.useB (P.DIG g) F.DIG_CH_CFG_INVERT c)) ∧
      (∀ l b, (s.stp g).latest.lookup c.val = some (l, b) → x < l + 82 → ∃ u, exec (.stampEdge x [(ch, rising)]) s = .next u ∧
        (u.stp g).latest = (s.stp g).latest ∧
        u.get (P.STP g) F.STP_MERGE_CNT = Nat.min (s.get (P.STP g) F.STP_MERGE_CNT + 1) (2 ^ 32 - 1))) ∧
    (s.stamps g c = false → exec (.stampEdge x [(ch, rising)]) s = .next (s.at (x / 64))) ∧
    (t ≠ 0 → t % 2 ^ 51 = 0 → ∃ u, exec (.coarseWrap t) s = .next u ∧ ∀ k < 8, (u.stp k).wrapDue = 0xFFFFFFFF) ∧
    (t % 2 ^ 51 ≠ 0 → exec (.coarseWrap t) s = .next (s.at t)) ∧
    (s.enabled (P.STP g) = true → (s.stp g).queued = [] → ∃ u, exec (.mergeWindowClose t g) s = .next u ∧
      (u.stp g).taken = (s.stp g).taken.filter (fun y =>
        decide (t - 512 < s.windowOf g (y.at_ / 64) + 8 * 2 ^ s.use (P.STP g) F.STP_CTL_WIN_EXP)) ∧
      (∀ k, k ≠ g.val → u.stp k = s.stp k)) ∧
    (s.enabled (P.STP g) = false → exec (.mergeWindowClose t g) s = .next (s.at t)) ∧
    (s.enabled (P.STP g) = true → s.use (P.STP g) F.STP_CTL_CAL_PERIOD ≠ 0 → ∃ u, exec (.tableRebuild t g false) s = .next u ∧
      u.getB (P.STP g) F.STP_STAT_CAL_BUSY = true ∧ RegsBut [rkey (P.STP g) F.STP_STAT.off] s u ∧ OnlyActive (s.at t) u) ∧
    (s.getB (P.STP g) F.STP_STAT_CAL_BUSY = true → ∃ u, exec (.tableRebuild t g true) s = .next u ∧
      u.getB (P.STP g) F.STP_STAT_CAL_BUSY = false ∧ u.stp g = { s.stp g with tableAt := nextPly t } ∧
      RegsBut [rkey (P.STP g) F.STP_STAT.off] s u)

/-- O32 (R131; R134; R137; R140). IP_SPAN_EXPIRY of an enabled unsigned unit whose start has waited longer than the span discards and
counts it, and leaves a start within the span. FREQ_GATE_END at or after the end of a gate adds its result to those due and starts the
next gate at that boundary; earlier it has no effect. FREQ_RESULT delivers the oldest result due: it becomes the unit's latest, its
bits of FRQ_NEW and FRQ_VALID are set and set to its validity, and an invalid one is counted. -/
def Obligations.PairingAndFrequencyUnits : Prop :=
  ∀ (s : State) (t : Nat) (n : Fin 16) (f : Fin 32), s.Canon → s.ips.length = 16 → s.fus.length = 32 →
    (s.ipUse n F.IP_CFG_EN = 1 → s.enabled (P.STP (n / 2)) = true → s.ipUse n F.IP_CFG_MODE = 0 →
      ∀ x m, (s.ip n).starts = [(x, none)] → s.ipSpan n = some m →
        (m < t * 64 - x → ∃ u, exec (.ipSpanExpiry t n) s = .next u ∧ (u.ip n).starts = [] ∧
          u.get (P.STP (n / 2)) F.IP_UNPAIRED_CNT (n % 2) = Nat.min (s.get (P.STP (n / 2)) F.IP_UNPAIRED_CNT (n % 2) + 1) (2 ^ 32 - 1) ∧
          (u.ip n).cnt = (s.ip n).cnt ∧ (∀ k, k ≠ n.val → u.ip k = s.ip k)) ∧
        (t * 64 - x ≤ m → ∃ u, exec (.ipSpanExpiry t n) s = .next u ∧ u.ips = s.ips ∧
          u.get (P.STP (n / 2)) F.IP_UNPAIRED_CNT (n % 2) = s.get (P.STP (n / 2)) F.IP_UNPAIRED_CNT (n % 2))) ∧
    (s.ipUse n F.IP_CFG_EN = 0 → exec (.ipSpanExpiry t n) s = .next (s.at t)) ∧
    (∀ k, (s.fu f).gate = some k → k.finish ≤ t / 8 →
      ∃ u, exec (.freqGateEnd t f) s = .next u ∧ u.freeCtr = s.freeCtr + 1 ∧
        (u.fu f).due = (s.fu f).due ++ [k.result (s.use P.FRQ F.FRQ_CTL_MIN_STAMPS) (Config.freeWord s.freeCtr).toNat] ∧
        (s.enabled P.FRQ = true → bitOf (s.useReg P.FRQ (F.FU_CFG.at f)) 31 = true → bitOf (s.useReg P.FRQ (F.FU_CFG.at f)) 29 = false →
          s.gateLen f ≠ 0 → ∃ g, (u.fu f).gate = some g ∧ g.start = k.finish ∧ g.n = 0) ∧
        (s.enabled P.FRQ = false ∨ bitOf (s.useReg P.FRQ (F.FU_CFG.at f)) 31 = false → (u.fu f).gate = none) ∧
        u = { s with now := u.now, freeCtr := u.freeCtr, fus := u.fus }) ∧
    (∀ k, (s.fu f).gate = some k → t / 8 < k.finish → exec (.freqGateEnd t f) s = .next (s.at t)) ∧
    (∀ r rest, (s.fu f).due = r :: rest → ∃ u, exec (.freqResult t f) s = .next u ∧ (u.fu f).due = rest ∧
      (u.fu f).results.head? = some r ∧ bitOf (u.get P.FRQ F.FRQ_NEW) f = true ∧ bitOf (u.get P.FRQ F.FRQ_VALID) f = bitOf r.flags 0 ∧
      (bitOf r.flags 0 = false → u.get P.FRQ F.FRQ_INVALID_CNT = Nat.min (s.get P.FRQ F.FRQ_INVALID_CNT + 1) (2 ^ 32 - 1)) ∧
      (bitOf r.flags 0 = true → u.get P.FRQ F.FRQ_INVALID_CNT = s.get P.FRQ F.FRQ_INVALID_CNT)) ∧
    ((s.fu f).due = [] → exec (.freqResult t f) s = .next (s.at t))

/-- O33 (R143; R144; R145; R147; R148). CONVERSION_START of an enabled set whose source fires, with the converters clocked: every enabled
member that is awake, not under calibration and 500 ns or more past its last instant takes its sample at that slot, and says so; a
member inside the 500 ns, or under calibration, counts a missed start and keeps its state; converters outside the set are unchanged. A
source that does not fire starts nothing. PULSE_SOURCE_PULSE within its width limits puts a start after its delay, and outside them
has no effect. -/
def Obligations.ConversionStarts : Prop :=
  ∀ (s : State) (t : Nat) (i : Fin 8) (width : Nat), s.Canon → s.convs.length = 16 → s.pulseDue.length = 8 → s.enabled P.ADC = true →
    s.useB P.ADC F.ADC_SET_CFG_EN i = true →
    (s.adcClocked = true → ∀ late, s.setFires i t = some late → ∃ u, exec (.conversionStart t i) s = .next u ∧
      (∀ c ∈ s.members i, s.quadCal (c / 4) = false → (s.conv c).asleep = false → (s.conv c).waking = false → s.convBusy c t = false →
        (u.conv c).last = some t ∧ .sample c t ∈ u.out ∧
        ∃ j, (u.conv c).jobs = (s.conv c).jobs ++ [j] ∧ j.inst = t ∧ j.late = late ∧ j.inj = false) ∧
      (∀ c ∈ s.members i, (s.quadCal (c / 4) = true ∨ (s.conv c).asleep = false ∧ (s.conv c).waking = false ∧ s.convBusy c t = true) →
        u.conv c = s.conv c ∧
        u.get P.ADC F.ADC_CNT_A_START_MISS c = Nat.min (s.get P.ADC F.ADC_CNT_A_START_MISS c + 1) (2 ^ 16 - 1)) ∧
      (∀ c, c ∉ s.members i → u.conv c = s.conv c)) ∧
    (s.setFires i t = none → exec (.conversionStart t i) s = .next (s.at t)) ∧
    (s.use P.ADC F.ADC_SET_CFG_SRC i = 3 → s.digMode (s.use P.ADC F.ADC_SET_CFG_CHANNEL i / 32) ≠ M.OFF →
      let lo := 8 * bits (s.useReg P.ADC (F.ADC_SET_P0.at i)) 15 0
      let hi := 8 * bits (s.useReg P.ADC (F.ADC_SET_P0.at i)) 31 16
      (lo ≤ width → (hi = 0 ∨ width ≤ hi) → s.use P.ADC F.ADC_SET_CFG_UNIT i = 1 → ∃ u, exec (.pulseSourcePulse t i width) s = .next u ∧
        u.pulseDue.getD i [] = s.pulseDue.getD i [] ++ [.slot (t + 8 * s.useReg P.ADC (F.ADC_SET_P1.at i))]) ∧
      ((width < lo ∨ hi ≠ 0 ∧ hi < width) → exec (.pulseSourcePulse t i width) s = .next (s.at t)))

/-- O34 (R149; R150; R151). CONVERTER_WAKE_REQUEST within WAKE_NS of the predicted start of an enabled napping converter begins its wake-
up. CONVERTER_READY ends a wake-up: a start that waited is converted then, late and counted. INJECTED_REQUEST of a request on its way,
at or after its slot, takes it: with nothing in the way the converter takes an injected sample; under calibration, behind a held
result or inside the 500 ns it is dropped, counted and its cause shown. A request not on its way has no effect. -/
def Obligations.ConverterWakeAndInjection : Prop :=
  ∀ (s : State) (t : Nat) (n : Fin 16) (slot : Nat), s.Canon → s.convs.length = 16 →
    (∀ x, s.convEn n = true → (s.conv n).asleep = true → s.nextStart (s.convSet n) t = some x → x ≤ t + s.wakeSlots n →
      ∃ u, exec (.converterWakeRequest t n) s = .next u ∧ u.conv n = { s.conv n with waking := true } ∧
        (∀ c, c ≠ n.val → u.conv c = s.conv c)) ∧
    ((s.conv n).asleep = false → exec (.converterWakeRequest t n) s = .next (s.at t)) ∧
    ((s.conv n).waking = true → (s.conv n).startWait = true → s.quadCal (n / 4) = false → s.adcClocked = true →
      ∃ u, exec (.converterReady t n) s = .next u ∧ (u.conv n).asleep = false ∧ (u.conv n).waking = false ∧ (u.conv n).startWait = false ∧
        (u.conv n).last = some t ∧ .sample n t ∈ u.out ∧
        u.get P.ADC F.ADC_CNT_A_LATE_START n = Nat.min (s.get P.ADC F.ADC_CNT_A_LATE_START n + 1) (2 ^ 16 - 1)) ∧
    ((s.conv n).waking = false → exec (.converterReady t n) s = .next (s.at t)) ∧
    (∀ r, s.injDue.find? (fun r => r.conv == n.val && r.slot == slot) = some r → s.convEn n = true → slot ≤ t →
      let dropped (u : State) (cause : Nat) : Prop := u.injDue = s.injDue.erase r ∧ u.conv n = s.conv n ∧
        u.get P.ADC F.ADC_CNT_B_INJ_DROP n = Nat.min (s.get P.ADC F.ADC_CNT_B_INJ_DROP n + 1) (2 ^ 16 - 1) ∧
        u.get P.ADC F.ADC_INJ_LAST_CAUSE = cause ∧ u.get P.ADC F.ADC_INJ_LAST_CONV = n.val
      (s.quadCal (n / 4) = true → ∃ u, exec (.injectedRequest t n slot) s = .next u ∧ dropped u D.CAL) ∧
      (s.quadCal (n / 4) = false → (s.conv n).hold ≠ none → ∃ u, exec (.injectedRequest t n slot) s = .next u ∧ dropped u D.HELD) ∧
      (s.quadCal (n / 4) = false → (s.conv n).hold = none →
        (s.convBusy n t = true → ∃ u, exec (.injectedRequest t n slot) s = .next u ∧ dropped u D.BUSY) ∧
        (s.convBusy n t = false → (s.conv n).injWait = none → (s.conv n).startWait = false → (s.conv n).asleep = false →
          (s.conv n).waking = false → s.schedDue n t = false → s.adcClocked = true →
          ∃ u, exec (.injectedRequest t n slot) s = .next u ∧ u.injDue = s.injDue.erase r ∧ (u.conv n).last = some t ∧ .sample n t ∈ u.out ∧
            ∃ j, (u.conv n).jobs = (s.conv n).jobs ++ [j] ∧ j.inst = t ∧ j.inj = true))) ∧
    (s.injDue.find? (fun r => r.conv == n.val && r.slot == slot) = none → exec (.injectedRequest t n slot) s = .next (s.at t))

/-- O35 (R144; R153; R155; R158; R159; R162; R174). CONVERSION_RESULT 420 ns or more after the oldest conversion under way ends it, and
one that depends on an uncommitted INJECT is held with its calibrated code; earlier it has no effect. OVERLOAD_TRIP and OVERLOAD_CLEAR
set and clear the converter's bit; the span ends 1 µs after the clear at DISTURB_SPAN_END. INTERVAL_BOUNDARY of a settled TIME
interval at its boundary begins the next of the same length there, or none when the timer is off; with no interval, or before its
slot, it has no effect. -/
def Obligations.ResultsOverloadAndIntervals : Prop :=
  ∀ (s : State) (t : Nat) (n : Fin 16) (raw : BitVec 18) (iv : Fin 4) (slot : Nat), s.Canon → s.convs.length = 16 → s.ivs.length = 4 →
    (∀ j rest, (s.conv n).jobs = j :: rest →
      (j.inst + convDelay ≤ t → ∃ u, exec (.conversionResult t n raw) s = .next u ∧ (u.conv n).jobs = rest ∧
        (∀ o, j.origin = some o → j.dead = false → s.quadCal (n / 4) = false → ∃ r, (u.conv n).hold = some (r, o) ∧ r.inst = j.inst ∧
          r.code = (calibrated j.coef (sx 18 raw.toNat)).1 ∧ r.clip = (calibrated j.coef (sx 18 raw.toNat)).2 ∧ r.inj = j.inj)) ∧
      (t < j.inst + convDelay → exec (.conversionResult t n raw) s = .next (s.at t))) ∧
    (s.convEn n = true → ∃ u, exec (.overloadTrip t n) s = .next u ∧ (∀ k < 16, bitOf (u.get P.ADC F.ADC_OVR_CLIPPED) k =
      (bitOf (s.get P.ADC F.ADC_OVR_CLIPPED) k || k == n.val)) ∧ u.convs = s.convs ∧
      RegsBut [rkey P.ADC F.ADC_OVR.off, rkey P.ADC H.RAW, rkey P.ADC H.PEND] s u) ∧
    (s.convEn n = false → exec (.overloadTrip t n) s = .next (s.at t)) ∧
    (bitOf (s.get P.ADC F.ADC_OVR_CLIPPED) n = true → ∃ u, exec (.overloadClear t n) s = .next u ∧
      (∀ k < 16, bitOf (u.get P.ADC F.ADC_OVR_CLIPPED) k = (bitOf (s.get P.ADC F.ADC_OVR_CLIPPED) k && k != n.val)) ∧
      u.conv n = { s.conv n with tail := some t } ∧ (∀ c, c ≠ n.val → u.conv c = s.conv c)) ∧
    (∃ u, exec (.disturbSpanEnd t ⟨n / 4, by omega⟩) s = .next u ∧
      (∀ x, (s.conv n).tail = some x → (x + usSlots 1 ≤ t → (u.conv n).tail = none) ∧ (t < x + usSlots 1 → (u.conv n).tail = some x)) ∧
      (∀ c, c / 4 ≠ n.val / 4 → u.conv c = s.conv c)) ∧
    (∀ v, s.iv iv = some v → v.cut = none → bitOf v.cfg 30 = false → v.target = slot → slot ≤ t → s.ivSettled iv slot = true →
      (s.enabled P.ACC = true → s.useReg P.ACC (F.ACC_IV_CFG.at iv) = v.cfg → bitOf v.cfg 31 = true → bitOf v.cfg 29 = false →
        s.ivLen iv = v.len → v.len ≠ 0 → ∃ u, exec (.intervalBoundary t iv slot) s = .next u ∧
          ∃ v', u.iv iv = some v' ∧ v'.start = slot ∧ v'.target = slot + 8 * v.len ∧ v'.cut = none) ∧
      (bitOf (s.useReg P.ACC (F.ACC_IV_CFG.at iv)) 31 = false → ∃ u, exec (.intervalBoundary t iv slot) s = .next u ∧ u.iv iv = none)) ∧
    (s.iv iv = none ∨ t < slot → exec (.intervalBoundary t iv slot) s = .next (s.at t))

/-- O36 (R178; R217; R220). LADDER_PLY of the live ply, with SP0 good, both pages enabled, no checkpoint unresolved, no condition late-
bound and the record not committed: the next state shows the ply as the live one and has evaluated it (the next ply to evaluate is the
one after), without a checkpoint or a rollback. While SP0 is on bypass the command has no effect. -/
def Obligations.PlyIsEvaluatedAtOnce : Prop :=
  ∀ (s : State) (t : Nat) (x : PlyIn), s.Canon →
    (s.sp0Good = true → s.powered = true → s.gmb.running = true → s.enabled P.TLD = true → s.enabled P.GMB = true → s.gmb.last = none →
      s.acq.committed = false → s.gmb.ckpts = [] → s.gmb.next = t / 32 → (∀ h ∈ s.gmb.hist, h.ply < t / 32) →
      s.gmb.ladder.rung < 16 → (∀ k < 512, isLate (s.cType k) = false) →
      ∃ u, exec (.ladderPly t x) s = .next u ∧ u.gmb.next = t / 32 + 1 ∧ u.gmb.ckpts = [] ∧
        u.get64 P.GMB F.GMB_LIVE_PLY_LO F.GMB_LIVE_PLY_HI = t / 32 % 2 ^ 46 ∧
        u.get P.GMB F.GMB_ROLLBACK_CNT = s.get P.GMB F.GMB_ROLLBACK_CNT) ∧
    (s.sp0Good = false → exec (.ladderPly t x) s = .next (s.at t))

/-- O37 (R214; R217; R221; R224; R227; R514). LATE_BIT_KNOWN of a unit in use, in a ply of the history with bits newly known: afterwards
that ply's lane of known bits, if the ply is still kept, has them, and the oldest checkpoint left either covers no evaluated ply or
covers one with a predicted bit still unknown. With nothing newly known it has no effect. REPLAY_CATCH_UP ends a replay that has no
ply left. LADDER_OVERRUN with the history full drops every unresolved checkpoint and held effect, counts, and restarts the ladder at
the ply about to be written. SETTLE_TIMEOUT with a checkpoint still unresolved 64 × CKPT_PLIES plies after the end drops them all,
counting no overrun; earlier, or with none unresolved, it has no effect. -/
def Obligations.LateBitsCommitOverrunAndSettling : Prop :=
  (∀ (s : State) (t : Nat) (n : Fin 128) (p : Nat), s.Canon →
    (∀ h, s.gmb.hist.find? (fun h => h.ply == p) = some h →
      (s.gmb.running = true → isLate (s.cType n) = true → n.val < 8 * s.rungs → (s.newlyKnown h n t).1 ≠ 0 → (s.gmb.hist.map HistPly.ply).Nodup →
        ∃ u, exec (.lateBitKnown t n p) s = .next u ∧
          (∀ h' ∈ u.gmb.hist, h'.ply = p → (h'.known.lookup n.val).getD 0 = ((h.known.lookup n.val).getD 0) ||| (s.newlyKnown h n t).1) ∧
          (∀ c r, u.gmb.ckpts = c :: r →
            let finish := match r with | d :: _ => d.ply | [] => u.gmb.next
            finish ≤ c.ply ∨ u.gmb.settled c.ply finish = false)) ∧
      ((s.newlyKnown h n t).1 = 0 → exec (.lateBitKnown t n p) s = .next (s.at t))) ∧
    (s.gmb.hist.find? (fun h => h.ply == p) = none → exec (.lateBitKnown t n p) s = .next (s.at t)) ∧
    (s.getB P.GMB F.GMB_STAT_REPLAYING = true →
      (s.gmb.nextPly = none → ∃ u, exec (.replayCatchUp t) s = .next u ∧ u.getB P.GMB F.GMB_STAT_REPLAYING = false ∧ u.gmb = s.gmb ∧
        PagesBut [P.GMB, P.TLD] s u) ∧
      (∀ h, s.gmb.nextPly = some h → exec (.replayCatchUp t) s = .next (s.at t)))) ∧
  (∀ (s : State) (t : Nat), s.Canon →
    let p := s.gmb.hist.foldl (fun m h => Nat.max m (h.ply + 1)) (t / 32)
    (s.histFull p = true → ∃ u, exec (.ladderOverrun t) s = .next u ∧ u.gmb.ckpts = [] ∧ u.gmb.effects = [] ∧ u.gmb.hist = [] ∧
      u.gmb.next = p ∧ u.gmb.ladder.rung = 0 ∧
      u.get P.GMB F.GMB_OVERRUN_CNT = Nat.min (s.get P.GMB F.GMB_OVERRUN_CNT + 1) (2 ^ 32 - 1)) ∧
    (s.histFull p = false → exec (.ladderOverrun t) s = .next (s.at t)) ∧
    (∀ l, s.gmb.last = some l → s.gmb.running = true →
      let due := 32 * (l + 64 * 2 ^ s.use P.GMB F.GMB_CTL_CKPT_EXP)
      (s.gmb.ckpts ≠ [] → due ≤ t → ∃ u, exec (.settleTimeout t) s = .next u ∧ u.gmb.ckpts = [] ∧ u.gmb.effects = [] ∧
        u.get P.GMB F.GMB_OVERRUN_CNT = s.get P.GMB F.GMB_OVERRUN_CNT) ∧
      (s.gmb.ckpts = [] ∨ t < due → exec (.settleTimeout t) s = .next (s.at t))) ∧
    (s.gmb.last = none → exec (.settleTimeout t) s = .next (s.at t)))

/-- O38 (R204; R207; R446). ACT_PULSE_END of an active output of an enabled page whose width is complete makes it inactive and leaves
every other output's activity; while the width is not complete it has no effect. ACT_READBACK shows the levels read, and for each
output the mismatch with the level expected there, if one is; a mismatch raises the action-path fault condition. -/
def Obligations.ActionOutputs : Prop :=
  ∀ (s : State) (t : Nat) (n : Fin 16) (levels : BitVec 16), s.Canon → s.act.length = 16 →
    (s.enabled P.ACT = true → s.actActive n = true → s.pulseDone n t = true → ∃ u, exec (.actPulseEnd t n) s = .next u ∧ u.actActive n = false ∧
      (∀ k < 16, k ≠ n.val → u.actActive k = s.actActive k) ∧ PagesBut [P.ACT] s u) ∧
    (s.enabled P.ACT = false ∨ s.actActive n = false ∨ s.pulseDone n t = false → exec (.actPulseEnd t n) s = .next (s.at t)) ∧
    (∃ u, exec (.actReadback t levels) s = .next u ∧ u.get P.ACT F.ACT_STAT_LANDS = levels.toNat ∧
      (∀ k < 16, bitOf (u.get P.ACT F.ACT_RB_ERR) k = (match s.readbackLevel k with
        | some b => b != bitOf levels.toNat k
        | none => false)) ∧
      (bitOf (u.get P.SAF F.SAF_FAULT_RAW) 0 = true ↔ u.get P.ACT F.ACT_RB_ERR ≠ 0))

/-- O39 (R201; R233). For a module not in a cascade or DUPLEX: ARM while none is in progress shows the first failing check and arms
nothing, or shows a pass, numbers the record and is to take effect at the next ply start; while one is in progress it shows BUSY.
ARMING_TAKES_EFFECT once due, with no ladder or output commit pending, makes the record armed from that ply, takes a READY module to
ARMED and starts the ladder on rung 0; before, it has no effect. -/
def Obligations.ArmingAndItsChecks : Prop :=
  ∀ (s : State) (t : Nat) (v : Word), s.Canon → s.role = C.SOLO → s.duplex = false →
    (bitOf v.toNat 0 = true → bitOf v.toNat 1 = false →
      (s.isArmed = false → s.acq.armAt = none →
        (∀ c w, (s.at t).armCheck = some (c, w) → ∃ u, exec (.arm t v) s = .next u ∧
          u.reg P.ACQ F.ACQ_ARM_STATUS.off = (4 * 2 ^ 24 + c * 2 ^ 16 + w * 2 ^ 8) % 2 ^ 32 ∧ u.acq = s.acq ∧
          RegsBut [rkey P.ACQ F.ACQ_ARM_STATUS.off, rkey P.ACQ H.PEND] s u) ∧
        ((s.at t).armCheck = none → ∃ u, exec (.arm t v) s = .next u ∧ u.get P.ACQ F.ACQ_ARM_STATUS_RESULT = 0 ∧
          u.acq.armAt = some (nextPly t) ∧ u.get P.ACQ F.ACQ_REC_NUM = (s.get P.ACQ F.ACQ_REC_NUM + 1) % 2 ^ 32 ∧ u.isArmed = false)) ∧
      (s.isArmed = true ∨ s.acq.armAt ≠ none → ∃ u, exec (.arm t v) s = .next u ∧ u.get P.ACQ F.ACQ_ARM_STATUS_RESULT = 5 ∧
        RegsBut [rkey P.ACQ F.ACQ_ARM_STATUS.off] s u ∧ OnlyActive (s.at t) u)) ∧
    (bitOf v.toNat 0 = false → exec (.arm t v) s = .next (s.at t)) ∧
    (∀ a, s.acq.armAt = some a →
      (a ≤ t → (∀ p ∈ [P.TLD, P.TLDC, P.TLDP, P.TLDT, P.ACT], s.pendGroups p = 0) → ∃ u, exec (.armingTakesEffect t) s = .next u ∧
        u.isArmed = true ∧ u.acq.armSlot = Nat.max a (plyStart t) ∧ u.acq.armAt = none ∧ u.gmb.running = true ∧ u.gmb.ladder.rung = 0 ∧
        (s.run = .ready → u.run = .armed) ∧ (s.run ≠ .ready → u.run = s.run)) ∧
      (t < a → exec (.armingTakesEffect t) s = .next (s.at t))) ∧
    (s.acq.armAt = none → exec (.armingTakesEffect t) s = .next (s.at t))

/-- O40 (R234; R237; R242; R246; R248). For an armed record of a module not in a cascade or DUPLEX: the first STOP makes the slot before
the next ply start its last, and a further one changes nothing. COLLAR_FULL once the granted collar lies after the arming slot notes
it and shows it. RECORD_CLOSE of a settled end, in a mode without segments or a store run, shows END_SLOT and the cause, and leaves
the module unarmed or settling. LIVE_CLIP with a blocked ring ends the record at the earliest slot a blocked ring holds. Without their
conditions these commands have no effect. -/
def Obligations.StopCollarAndClose : Prop :=
  ∀ (s : State) (t : Nat) (v : Word), s.Canon → s.isArmed = true →
    (s.role = C.SOLO → s.duplex = false → bitOf v.toNat 1 = true → bitOf v.toNat 0 = false →
      (s.acq.stopPly = none → ∃ u, exec (.stop t v) s = .next u ∧ u.acq.stopPly = some (nextPly t) ∧
        u.acq.stopSlot = some (nextPly t - 1)) ∧
      (s.acq.stopPly ≠ none → exec (.stop t v) s = .next (s.at t))) ∧
    (bitOf v.toNat 1 = false → exec (.stop t v) s = .next (s.at t)) ∧
    (s.acqMode ≠ AM.CONTINUOUS → s.acq.fullAt = none →
      (s.collarFullAt t = true → ∃ u, exec (.collarFull t) s = .next u ∧ u.acq = { s.acq with fullAt := some t } ∧
        u.getB P.ACQ F.ACQ_STAT_COLLAR_FULL = true) ∧
      (s.collarFullAt t = false → exec (.collarFull t) s = .next (s.at t))) ∧
    (s.acq.settling = none → s.acq.closed = none →
      (∀ e c, s.recordEnd = some (e, c) → (s.at t).recordSettled e = true → s.enabledStreams.all (fun i => (s.stream i).staging.isEmpty) = true →
        s.acqMode ∉ [AM.SEGMENTED, AM.STREAMING] → ∃ u, exec (.recordClose t) s = .next u ∧ u.get P.ACQ F.ACQ_CLOSE_CAUSE = c % 16 ∧
          u.get64 P.ACQ F.ACQ_END_SLOT_LO F.ACQ_END_SLOT_HI = slot51 e ∧ (u.isArmed = true → u.acq.settling ≠ none)) ∧
      (s.recordEnd = none → exec (.recordClose t) s = .next (s.at t)) ∧
      (s.acq.closeNote = 0 → s.acq.endSlot = none →
        (∀ i ∈ s.enabledStreams, ∀ x, s.ringBlocked i = some x → ∃ u, exec (.liveClip t) s = .next u ∧ u.acq.closeNote = 3 ∧
          ∃ e ≤ x, u.acq.endSlot = some e ∧ ∃ j ∈ s.enabledStreams, s.ringBlocked j = some e) ∧
        ((∀ i ∈ s.enabledStreams, s.ringBlocked i = none) → exec (.liveClip t) s = .next (s.at t))))

/-- O41 (R249; R250; R251; R252; R253). Outside DUPLEX: THIN_STEP_UP at or above HI, free to change, below the limit and not protected
decides one step more at its grid point and counts it; THIN_STEP_DOWN at or below LO decides one step less; else only the pressure
shown changes. RATE at or after the point takes the step decided; before it, or with none, it has no effect. OVERFLOW opens a gap with
its cause where none is open and counts it, and its end closes it. PROT_WINDOW_CLOSE after the latest opening's length ends the
protected window. -/
def Obligations.ThinningAndOverflow : Prop :=
  ∀ (s : State) (t : Nat) (i : Fin 10) (press : BitVec 8), s.Canon → s.acq.thin.length = 10 → s.streams.length = 22 → s.duplex = false →
    let k := s.thinStep (thinStream i)
    let thin (u : State) : ThinState := u.acq.thin.getD i { next := none, seen := 0, maxStep := 0 }
    (s.use P.ACQT F.ACQ_THIN_LVL_HI i ≤ press.toNat → s.thinFree i t (160 * s.use P.ACQT F.ACQ_THIN_DWELL_DWELL_UP i) = true → k < s.kEffMax i →
      s.getB P.ACQT F.ACQ_THIN_STAT_PROTECTED i = false → ∃ u, exec (.thinStepUp t i press) s = .next u ∧
        (thin u).next = some (k + 1, s.gridPoint i (k + 1) t) ∧ u.get P.ACQT F.ACQ_THIN_STAT_PRESS i = press.toNat ∧
        u.get P.ACQT F.ACQ_THIN_UP_CNT i = Nat.min (s.get P.ACQT F.ACQ_THIN_UP_CNT i + 1) (2 ^ 32 - 1)) ∧
    (press.toNat < s.use P.ACQT F.ACQ_THIN_LVL_HI i → ∃ u, exec (.thinStepUp t i press) s = .next u ∧
      u.get P.ACQT F.ACQ_THIN_STAT_PRESS i = press.toNat ∧ RegsBut [rkey P.ACQT (F.ACQ_THIN_STAT.at i)] s u ∧ OnlyActive (s.at t) u) ∧
    (press.toNat ≤ s.use P.ACQT F.ACQ_THIN_LVL_LO i → s.thinFree i t (usSlots (s.use P.ACQT F.ACQ_THIN_DWELL_DWELL_DOWN i)) = true → 0 < k →
      ∃ u, exec (.thinStepDown t i press) s = .next u ∧ (thin u).next = some (k - 1, s.gridPoint i (k - 1) t)) ∧
    (∀ d at_, (thin s).next = some (d, at_) →
      (at_ % 2 ^ 80 ≤ t → ∃ u, exec (.rate t i) s = .next u ∧ u.thinStep (thinStream i) = d % 32 ∧ (thin u).next = none ∧
        (∀ j < 10, j ≠ i.val → u.thinStep (thinStream j) = s.thinStep (thinStream j))) ∧
      (t < at_ % 2 ^ 80 → exec (.rate t i) s = .next (s.at t))) ∧
    ((thin s).next = none → exec (.rate t i) s = .next (s.at t)) ∧
    (s.recording (thinStream i) = true →
      ((∀ g ∈ (s.stream (thinStream i)).gaps, g.cause ≠ 3) → ∃ u, exec (.overflow t i true) s = .next u ∧
        (u.stream (thinStream i)).gaps = (s.stream (thinStream i)).gaps ++ [{ slot := t, cause := 3 }] ∧
        u.get P.ACQT F.ACQ_OVF_CNT i = Nat.min (s.get P.ACQT F.ACQ_OVF_CNT i + 1) (2 ^ 32 - 1)) ∧
      (∃ u, exec (.overflow t i false) s = .next u ∧ ∀ g ∈ (u.stream (thinStream i)).gaps, g.cause ≠ 3)) ∧
    (s.recording (thinStream i) = false → ∀ b, exec (.overflow t i b) s = .next (s.at t)) ∧
    (s.getB P.ACQ F.ACQ_STAT_PROTECTED = true → s.acq.protUntil ≤ t → ∃ u, exec (.protWindowClose t) s = .next u ∧
      u.getB P.ACQ F.ACQ_STAT_PROTECTED = false ∧ u.acq = { s.acq with protFires := [] }) ∧
    (t < s.acq.protUntil → exec (.protWindowClose t) s = .next (s.at t))

/-- O42 (R267; R276; R278). On an enabled page, for a stream of 8 to 21 whose chunk in progress holds items, none behind the commit point:
CHUNK_AGE_CLOSE past the age limit, and CHUNK_CLOSE when the latest item no longer fits, close it: the next sequence number follows,
every byte of the closed chunk stands in the producer's bank in scratch and the bank waits for its consumer; other streams are
unchanged and an age close is counted. A chunk neither old nor full, or no chunk, is left. -/
def Obligations.ChunksCloseIntoTheirBanks : Prop :=
  ∀ (s : State) (t : Nat) (sid : Fin 22) (c : OpenChunk), s.Canon → s.streams.length = 22 → 8 ≤ sid.val → s.enabled P.RFQ = true →
    (s.stream sid).opened = some c → c.items.any s.held = false →
    let q := s.stream sid
    let closed (u : State) : Prop := (u.stream sid).opened = none ∧
      u.get P.RFQ F.RFQ_SEQ sid = (s.get P.RFQ F.RFQ_SEQ sid + 1) % 2 ^ 32 ∧
      (if q.current then (u.stream sid).bankB else (u.stream sid).bankA) = .full (s.makeChunk sid c 0) ∧
      (∀ k < (s.makeChunk sid c 0).bytes.length,
        Memory.read u.scratch (bankBase sid q.current + k) = (s.makeChunk sid c 0).bytes.getD k 0) ∧
      (∀ j, j ≠ sid.val → u.stream j = s.stream j) ∧ u.deep = s.deep
    (c.items ≠ [] → c.openedAt + usSlots c.ageMax ≤ t → ∃ u, exec (.chunkAgeClose t sid) s = .next u ∧ closed u ∧
      u.get P.RFQ F.RFQ_AGE_CNT sid = Nat.min (s.get P.RFQ F.RFQ_AGE_CNT sid + 1) (2 ^ 32 - 1)) ∧
    (t < c.openedAt + usSlots c.ageMax → exec (.chunkAgeClose t sid) s = .next (s.at t)) ∧
    (∀ it, c.items.getLast? = some it →
      (c.fits (s.kindNow sid) it = false → ∃ u, exec (.chunkClose t sid) s = .next u ∧ closed u) ∧
      (c.fits (s.kindNow sid) it = true → exec (.chunkClose t sid) s = .next (s.at t)))

/-- O43 (R240; R242; R278; R281; R284; R310). BANK_FREE of a full bank whose ring has room puts the chunk at the ring's write position in
deep memory, byte for byte, and frees the bank; where a protected chunk would be overwritten nothing changes. RFQ_FLUSH with nothing
staged makes exactly the recording streams it names pending beside those pending; FLUSH_DONE once each has an item in a new chunk ends
them all, and waits until then. BLOCK_VERIFY of a lane whose block is past its age closes the block: one that failed its check is
counted and the coder resets, one that passed is not. -/
def Obligations.BanksFlushesAndBlocks : Prop :=
  ∀ (s : State) (t : Nat) (sid : Fin 22) (bank : Bool) (v : Word) (lane : Fin 16) (good : Bool), s.Canon → s.streams.length = 22 →
    s.lanes.length = 16 →
    (∀ c, 8 ≤ sid.val → s.enabled P.RFQ = true → (if bank then (s.stream sid).bankB else (s.stream sid).bankA) = .full c →
      (c.length ≤ (s.ringSpan sid).2 → s.ringProtected sid c.length = false → (s.stream sid).staging = [] →
        ∃ u, exec (.bankFree t sid bank) s = .next u ∧ (if bank then (u.stream sid).bankB else (u.stream sid).bankA) = .free ∧
          (u.stream sid).ring.getLast? = some { pos := s.ringPlace sid c.length, chunk := c } ∧
          (∀ k < c.bytes.length, Memory.read u.deep ((s.ringSpan sid).1 + s.ringPlace sid c.length + k) = c.bytes.getD k 0) ∧
          u.scratch = s.scratch) ∧
      (s.ringProtected sid c.length = true → exec (.bankFree t sid bank) s = .next (s.at t))) ∧
    (s.enabled P.RFQ = true → (∀ i < 22, (s.stream i).staging = []) → ∃ u, exec (.rfqFlush t v) s = .next u ∧
      ∀ i < 22, bitOf (u.get P.RFQ F.RFQ_FLUSH_PEND) i = (bitOf (s.get P.RFQ F.RFQ_FLUSH_PEND) i || (bitOf v.toNat i && s.recording i))) ∧
    (s.enabled P.RFQ = false → exec (.rfqFlush t v) s = .next (s.at t)) ∧
    (s.get P.RFQ F.RFQ_FLUSH_PEND ≠ 0 → s.get P.RFQ F.RFQ_FLUSH_PEND < 2 ^ 22 →
      ((∀ i < 22, bitOf (s.get P.RFQ F.RFQ_FLUSH_PEND) i = true → ∃ c, (s.stream i).opened = some c ∧ c.items ≠ []) →
        ∃ u, exec (.flushDone t) s = .next u ∧ u.get P.RFQ F.RFQ_FLUSH_PEND = 0 ∧ u.getB P.RFQ F.RFQ_STAT_FLUSH_BUSY = false) ∧
      (∀ i < 22, bitOf (s.get P.RFQ F.RFQ_FLUSH_PEND) i = true → (s.stream i).opened = none → exec (.flushDone t) s = .next (s.at t))) ∧
    (∀ n c src, s.enabled P.CMP = true → (s.thread lane).stream = some n → n < 22 → (s.thread lane).stalled = false → (s.thread lane).feed = none →
      (s.thread lane).opened = some c → (s.thread lane).src = some src → s.readable n = [] → c.openedAt + usSlots c.ageMax ≤ t →
      classOf n (s.streamCfg n) ≠ CL.NONE → ∃ u, exec (.blockVerify t lane good []) s = .next u ∧ (u.thread lane).opened = none ∧
        (good = false → (u.thread lane).reset = true ∧ (u.thread lane).blockSeq = (s.thread lane).blockSeq ∧
          u.get P.CMP F.CMP_VERIFY_CNT = Nat.min (s.get P.CMP F.CMP_VERIFY_CNT + 1) (2 ^ 32 - 1)) ∧
        (good = true → u.get P.CMP F.CMP_VERIFY_CNT = s.get P.CMP F.CMP_VERIFY_CNT ∧ (u.stream n).storeSeq = (s.stream n).storeSeq + 1)) ∧
    ((s.thread lane).stream = none ∨ s.enabled P.CMP = false → exec (.blockVerify t lane good []) s = .next (s.at t))

/-- O44 (R320; R322; R324; R325; R326; R339; R340; R341). While the endpoint serves memory requests. BAR2_WRITE of one 64-bit word's
bytes, at an offset the host may write, no tile there under test and no error met, leaves exactly those bytes in scratch;
BAR2_ALIAS_WRITE sets or clears exactly the bits given; a write of the control complex's, Gambit's or the staging region changes no
byte and is counted. BAR4_WRITE of a started module leaves exactly the bytes below the installed capacity that R341 does not guard and
counts a write that met a guarded one. BAR_MEMORY_READ answers the bytes that stand there, for deep memory and for scratch outside the
control complex, and with an uncorrectable error of deep memory is counted and answers poisoned data. -/
def Obligations.HostReachesScratchAndDeep : Prop :=
  ∀ (s : State) (t : Nat) (o : BitVec 29) (a : Nat) (data : List Byte) (x : ScrAccess), s.Canon → s.hostServed = true →
    (data ≠ [] → o.toNat % 8 + data.length ≤ 8 → bar2Scratch o.toNat = some a → s.hostWritable a = true →
      let changed (u : State) (f : Byte → Byte → Byte) : Prop :=
        (∀ b, Memory.read u.scratch b =
          if a ≤ b ∧ b < a + data.length then f (Memory.read s.scratch b) (data.getD (b - a) 0) else Memory.read s.scratch b) ∧
        CountsBy s u P.SCR F.SCR_CONFLICT_CNT 9 x.wait ∧ RegsBut [rkey P.SCR (F.SCR_CONFLICT_CNT.at 9)] s u ∧
        u = { s with now := u.now, scratch := u.scratch, regs := { s.regs with active := u.regs.active } }
      ((inCpx a || inGambit a || inStaging a) = false → (∀ b, s.mar.held = some b → b.tile ≠ a / 65536) →
        x.ce = false → x.ue = false → x.lost = false →
        (o.toNat < 0x8000000 → ∃ u, exec (.bar2Write t o data false x) s = .next u ∧ changed u (fun _ d => d)) ∧
        (0x8000000 ≤ o.toNat → o.toNat < 0x10000000 →
          ∃ u, exec (.bar2AliasWrite t o data false x) s = .next u ∧ changed u (fun m d => m ||| d)) ∧
        (0x10000000 ≤ o.toNat → ∃ u, exec (.bar2AliasWrite t o data false x) s = .next u ∧ changed u (fun m d => m &&& ~~~d))) ∧
      ((inCpx a || inGambit a || inStaging a) = true →
        (o.toNat < 0x8000000 → ∃ u, exec (.bar2Write t o data false x) s = .next u ∧ SameMemory s u ∧
          CountsBy s u P.SCR F.SCR_HOST_WPROT_CNT 0 1) ∧
        (0x8000000 ≤ o.toNat → ∃ u, exec (.bar2AliasWrite t o data false x) s = .next u ∧ SameMemory s u ∧
          CountsBy s u P.SCR F.SCR_HOST_WPROT_CNT 0 1))) ∧
    (∀ (d : BitVec 38), s.started = true → ∃ u, exec (.bar4Write t d data false) s = .next u ∧ u.scratch = s.scratch ∧
      (∀ b, Memory.read u.deep b =
        if d.toNat ≤ b ∧ b < d.toNat + data.length ∧ b < s.deepSize ∧ s.guarded b = false then data.getD (b - d.toNat) 0
        else Memory.read s.deep b) ∧
      ((∃ i < data.length, d.toNat + i < s.deepSize ∧ s.guarded (d.toNat + i) = true) → CountsBy s u P.DMC F.DMC_WPROT_CNT 0 1)) ∧
    (∀ (d : BitVec 38) (n : Nat), s.started = true → d.toNat + n ≤ s.deepSize →
      exec (.barMemoryRead t true d n [] []) s =
        .next ((s.at t).emit (.readData .host ((List.range n).map (fun i => Memory.read s.deep (d.toNat + i))))) ∧
      (∀ e, d.toNat ≤ e → e < d.toNat + n → ∃ u, exec (.barMemoryRead t true d n [] [e]) s = .next u ∧ CountsBy s u P.DMC F.DMC_UE_CNT 0 1 ∧
        .poisoned .host ∈ u.out)) ∧
    (∀ (d : BitVec 38) (n : Nat), s.started = true → 0 < n →
      (∀ i < n, bar2Scratch (d.toNat + i) = some (a + i) ∧ inCpx (a + i) = false) → (∀ b, s.mar.held = some b → b.tile ≠ a / 65536) →
      exec (.barMemoryRead t false d n [] []) s =
        .next ((s.at t).emit (.readData .host ((List.range n).map (fun i => Memory.read s.scratch (a + i))))))

/-- O45 (R327; R330; R331; R332; R335; R336; R342). On a started module. SCRATCH_SWEEP advances to the next 64-bit word, DM_SCRUB to the
next line or, at the end of the installed memory, back to 0 counting a pass; a line rewritten meanwhile is read again. ROTATION_TILE,
when due, borrows the next tile that is not NEVER for a preserving test. MARCH_STITCH counts each failing word with its address and
bits; at the end of a preserving test every byte is as before, of a destructive one the tile holds its fill; the tile is returned and
counted. LEND_COLLISION yields a tile under a preserving test, to be retried YIELD_HOLD later by YIELD_RETRY; TEST_COLLIDE refuses an
access to a tile under a destructive one, with poisoned data for a host read and the command of the access stopped. -/
def Obligations.SweepScrubAndTests : Prop :=
  ∀ (s : State) (t : Nat), s.Canon →
    (s.started = true → (∀ b, s.mar.held = some b → b.tile ≠ s.mar.sweepPos / 65536) →
      ∃ u, exec (.scratchSweep t none) s = .next u ∧ u.mar = { s.mar with sweepPos := (s.mar.sweepPos + 8) % scratchSize } ∧
        u.reg P.SCR F.SCR_STAT.off = 2 ^ 31 + (s.mar.sweepPos + 8) % scratchSize / 65536 ∧ SameMemory s u) ∧
    (s.started = true → s.useB P.DMC F.DMC_SCRUB_CFG_EN = true →
      (∃ u, exec (.dmScrub t none true) s = .next u ∧ u.get P.DMC F.DMC_SCRUB_POS = s.get P.DMC F.DMC_SCRUB_POS ∧ SameMemory s u) ∧
      (∃ u, exec (.dmScrub t none false) s = .next u ∧ SameMemory s u ∧
        (if 64 * (s.get P.DMC F.DMC_SCRUB_POS + 1) < s.deepSize then u.get P.DMC F.DMC_SCRUB_POS = s.get P.DMC F.DMC_SCRUB_POS + 1
         else u.get P.DMC F.DMC_SCRUB_POS = 0 ∧
          u.get P.DMC F.DMC_SCRUB_PASS_CNT = (s.get P.DMC F.DMC_SCRUB_PASS_CNT + 1) % 2 ^ 32))) ∧
    (∀ tile w, s.started = true → s.enabled P.MAR = true → s.useB P.MAR F.MAR_CTL_ROT_EN = true → s.mar.held = none →
      s.marchRuns = false → (∀ y, s.mar.rotAt = some y → y + s.use P.MAR F.MAR_CTL_ROT_HOURS * 37500000000 ≤ t) →
      s.mar.retry = none → s.rotNext = some (tile, w) → ∃ u, exec (.rotationTile t) s = .next u ∧ SameMemory s u ∧
        u.get P.MAR F.MAR_ROT_POS = (tile + 1) % 1536 ∧ u.mar.rotAt = some t ∧
        ∃ b, u.mar.held = some b ∧ b.tile = tile ∧ b.destructive = false ∧ b.op = none) ∧
    (∀ y, s.mar.rotAt = some y → t < y + s.use P.MAR F.MAR_CTL_ROT_HOURS * 37500000000 → exec (.rotationTile t) s = .next (s.at t)) ∧
    (∀ b, s.mar.held = some b → b.release = false → b.op = none → b.tile < 1536 →
      (∀ w d, ∃ u, exec (.marchStitch t [(w, d)] false) s = .next u ∧ CountsBy s u P.MAR F.MAR_FAIL_CNT 0 1 ∧
        u.get P.MAR F.MAR_FAIL_ADDR = b.tile * 65536 + 8 * w.val ∧
        u.get P.MAR F.MAR_FAIL_BITS_LO + 2 ^ 32 * u.get P.MAR F.MAR_FAIL_BITS_HI = d.toNat ∧
        u.mar.held = some { b with failed := true } ∧ (b.destructive = true → SameMemory s u ∧ u.mar.spares = s.mar.spares)) ∧
      (∃ u, exec (.marchStitch t [] true) s = .next u ∧ u.mar = { s.mar with held := none } ∧ u.deep = s.deep ∧
        u.get P.MAR F.MAR_TILE_CNT = (s.get P.MAR F.MAR_TILE_CNT + 1) % 2 ^ 32 ∧
        (∀ a, Memory.read u.scratch a = if b.destructive = true ∧ a / 65536 = b.tile then (leBytes 8 b.fill).getD (a % 8) 0
          else Memory.read s.scratch a))) ∧
    (∀ b (master : Fin 16) (o : BitVec 27), s.mar.held = some b → b.tile = o.toNat / 65536 →
      (b.destructive = false → ∃ u, exec (.lendCollision t master o) s = .next u ∧ SameMemory s u ∧ u.mar.held = none ∧
        u.mar.retry = some (b.tile, b.op, if s.use P.MAR F.MAR_CTL_YIELD_HOLD = 0 then none
          else some ((s.at t).now + msSlots (s.use P.MAR F.MAR_CTL_YIELD_HOLD))) ∧
        CountsBy s u P.MAR F.MAR_YIELD_CNT 0 1 ∧ CountsBy s u P.SCR F.SCR_LEND_STALL_CNT master.val 1) ∧
      (b.destructive = true → exec (.lendCollision t master o) s = .next (s.at t) ∧
        (∃ u, exec (.testCollide t o true true none) s = .next u ∧ SameMemory s u ∧ u.mar = s.mar ∧ .poisoned .host ∈ u.out ∧
          CountsBy s u P.SCR F.SCR_TEST_COLLIDE_CNT 0 1) ∧
        (∀ (ring : Fin 16) (tag : BitVec 16) (p : HostOp), s.opByTag ring.val tag.toNat = some p → p.stop = none →
          ∃ u, exec (.testCollide t o false false (some (ring, tag))) s = .next u ∧ SameMemory s u ∧ u.mar = s.mar ∧
            CountsBy s u P.SCR F.SCR_TEST_COLLIDE_CNT 0 1 ∧ ∃ q ∈ u.host.ops, q.id = p.id ∧ q.stop = some 7))) ∧
    (∀ tile due, s.mar.retry = some (tile, none, some due) →
      (due ≤ t → s.mar.held = none → s.enabled P.MAR = true → s.lendFlag tile ≠ 0 → s.useB P.MAR F.MAR_CTL_ROT_EN = true →
        ∃ u, exec (.yieldRetry t) s = .next u ∧ SameMemory s u ∧ u.mar.retry = none ∧
          ∃ b, u.mar.held = some b ∧ b.tile = tile ∧ b.destructive = false ∧ b.op = none) ∧
      (t < due → exec (.yieldRetry t) s = .next (s.at t)))

/-- O46 (R374; R375; R376; R377; R378; R388). SQ_DOORBELL and CQ_DOORBELL of a started module take a value below the ring size and raise
RING_ERR, changing no ring, for another. COMMAND_FETCH takes the 64 bytes at the head of the ring served next: the head moves on and
one command more is in flight, ended with BAD_PARAM at once when its opcode is not listed or its reserved byte is not 0; a failed
transfer sets SQ_ERR of that ring and is counted. COMMAND_COMPLETION of an ended command writes the two words at the CQ tail, moves
the tail, and the command leaves the pool; with no room it waits. COAL_TIMER signals completions held for COAL_US, and waits until
then. -/
def Obligations.RingsDoorbellsAndFetch : Prop :=
  ∀ (s : State) (t : Nat) (n : Fin 16), s.Canon → s.host.rings.length = 16 →
    (∀ v : Word, s.started = true →
      (bitOf v.toNat 31 = true →
        (bits v.toNat 11 0 < s.sqSize n.val → ∃ u, exec (.sqDoorbell t n v) s = .next u ∧
          u.ringState n.val = { s.ringState n.val with sqTail := bits v.toNat 11 0 } ∧ (∀ m < 16, m ≠ n.val → u.ringState m = s.ringState m) ∧
          u = { s with now := u.now, host := { s.host with rings := u.host.rings } }) ∧
        (s.sqSize n.val ≤ bits v.toNat 11 0 → ∃ u, exec (.sqDoorbell t n v) s = .next u ∧ u.host = s.host ∧
          (s.enabled P.CMD = true → bitOf (u.reg P.CMD H.PEND) 0 = true))) ∧
      (bitOf v.toNat 30 = true →
        (bits v.toNat 27 16 < s.cqSize n.val → ∃ u, exec (.cqDoorbell t n v) s = .next u ∧
          u.ringState n.val = { s.ringState n.val with cqHead := bits v.toNat 27 16 } ∧ (∀ m < 16, m ≠ n.val → u.ringState m = s.ringState m) ∧
          u = { s with now := u.now, host := { s.host with rings := u.host.rings } }) ∧
        (s.cqSize n.val ≤ bits v.toNat 27 16 → ∃ u, exec (.cqDoorbell t n v) s = .next u ∧ u.host = s.host))) ∧
    (s.started = true → s.poolUsed < 4096 → s.nextRing = some n.val →
      (∀ d : List Byte, d.length = 64 → s.use P.CMD F.CMD_RING_CFG_SQ_LOG n ≤ 12 → ∃ u o, exec (.commandFetch t (some d)) s = .next u ∧
        u.get P.CMD F.CMD_PTR_SQ_HEAD n = (s.get P.CMD F.CMD_PTR_SQ_HEAD n + 1) % s.sqSize n.val ∧
        u.host.ops = s.host.ops ++ [o] ∧ o.ring = n.val ∧ o.from_ = none ∧ o.tag = fieldAt d 2 2 ∧ o.opcode = fieldAt d 0 1 ∧
        o.param = d.drop 0x28 ∧ (opListed (fieldAt d 0 1) = false ∨ fieldAt d 7 1 ≠ 0 → o.phase = .ended ST.BAD_PARAM)) ∧
      (∃ u, exec (.commandFetch t none) s = .next u ∧ u.getB P.CMD F.CMD_PTR_SQ_ERR n = true ∧ u.host.ops = s.host.ops ∧
        CountsBy s u P.HIF F.HIF_DMA_ERR_CNT 0 1)) ∧
    (∀ (r : OpRef) (o : HostOp) (st : Nat), r.from_ = none → r.ring = n → s.use P.CMD F.CMD_RING_CFG_CQ_LOG n ≤ 12 →
      s.host.ops.find? (fun p => p.from_ == none && p.ring == n.val && p.tag == r.tag.toNat && p.ended) = some o →
      o.phase = .ended st → s.getB P.CMD F.CMD_PTR_CQ_ERR n = false →
      let tail := s.get P.CMD F.CMD_PTR_CQ_TAIL n
      ((tail + 1) % s.cqSize n.val ≠ (s.ringState n.val).cqHead → ∃ u, exec (.commandCompletion t r false) s = .next u ∧
        .cqEntry n.val tail (completionWords o st (s.ringState n.val).phase (s.get P.CMD F.CMD_PTR_SQ_HEAD n)) ∈ u.out ∧
        u.get P.CMD F.CMD_PTR_CQ_TAIL n = (tail + 1) % s.cqSize n.val ∧ u.host.ops = s.host.ops.filter (fun p => p.id ≠ o.id) ∧
        (u.ringState n.val).phase = (if (tail + 1) % s.cqSize n.val = 0 then !(s.ringState n.val).phase else (s.ringState n.val).phase) ∧
        u.get P.CPX F.CPX_CMD_DONE_CNT = (s.get P.CPX F.CPX_CMD_DONE_CNT + 1) % 2 ^ 32) ∧
      ((tail + 1) % s.cqSize n.val = (s.ringState n.val).cqHead → exec (.commandCompletion t r false) s = .next (s.at t))) ∧
    (∀ y, (s.ringState n.val).oldest = some y → s.use P.CMD F.CMD_RING_CFG_COAL_US n ≠ 0 →
      let due := y + usSlots (s.use P.CMD F.CMD_RING_CFG_COAL_US n)
      (due ≤ t → ∃ u, exec (.coalTimer t n) s = .next u ∧ u = { s with now := u.now, out := u.out, msix := u.msix, host := u.host } ∧
        u.ringState n.val = { s.ringState n.val with unsignalled := 0, oldest := none } ∧
        (.msix (s.use P.CMD F.CMD_RING_CFG_VEC n) ∈ u.out ∨ s.use P.CMD F.CMD_RING_CFG_VEC n ∈ u.msix.waiting)) ∧
      (t < due → exec (.coalTimer t n) s = .next (s.at t)))

/-- O47 (R380; R383; R385; R386). NOP served between stitches ends with OK. ABORT ends the command it names with ABORTED and itself with
OK, or itself with NOT_FOUND when that command is not in flight. STITCH_END leaves no stitch in progress, keeps the longest stitch in
STITCH_MAX_US, and ends a command that was stopped with the status of its stop, or with DEADLINE past its deadline. DEADLINE ends a
command past its deadline with none of its stitches in progress, and stops it at the end of its stitch otherwise; a command not past
it is left. A reference to no command in flight changes nothing. -/
def Obligations.ShortCommandsAndEnds : Prop :=
  ∀ (s : State) (t : Nat) (r : OpRef),
    (∀ o, s.shortTurn OP.NOP r = some o → ∃ u, exec (.nop t r) s = .next u ∧ EndedAs u o.id ST.OK ∧ u.host.ops.length = s.host.ops.length) ∧
    (s.opNamed r = none → exec (.nop t r) s = .next (s.at t) ∧ exec (.abort t r) s = .next (s.at t) ∧
      exec (.deadline t r) s = .next (s.at t)) ∧
    (∀ o, s.shortTurn OP.ABORT r = some o →
      let victim (p : HostOp) : Bool :=
        p.from_ == o.from_ && p.ring == o.par 0 1 % 16 && p.tag == o.par 2 2 && !p.ended && p.id != o.id
      (∀ p, s.host.ops.find? victim = some p → ∃ u, exec (.abort t r) s = .next u ∧ EndedAs u p.id ST.ABORTED ∧ EndedAs u o.id ST.OK) ∧
      (s.host.ops.find? victim = none → ∃ u, exec (.abort t r) s = .next u ∧ EndedAs u o.id ST.NOT_FOUND)) ∧
    (∀ id t0 o, s.host.stitch = some (id, t0) → s.opById id = some o → ∃ u, exec (.stitchEnd t) s = .next u ∧ u.host.stitch = none ∧
      u.get P.CPX F.CPX_STITCH_MAX_US =
        Nat.max (Nat.min 0xFFFF ((t - t0) / 16000)) (s.get P.CPX F.CPX_STITCH_MAX_US) ∧
      (∀ st, o.stop = some st → EndedAs u id st) ∧
      (o.stop = none → (s.at t).pastDeadline o = true → EndedAs u id ST.DEADLINE)) ∧
    (∀ o, s.opNamed r = some o →
      ((s.at t).pastDeadline o = true → s.runsHere o = true → (∀ id t0, s.host.stitch = some (id, t0) → id ≠ o.id) →
        ∃ u, exec (.deadline t r) s = .next u ∧ EndedAs u o.id ST.DEADLINE) ∧
      (∀ t0, (s.at t).pastDeadline o = true → s.runsHere o = true → s.host.stitch = some (o.id, t0) → o.stop = none →
        ∃ u, exec (.deadline t r) s = .next u ∧ (∃ q ∈ u.host.ops, q.id = o.id ∧ q.stop = some ST.DEADLINE) ∧ u.host.stitch = s.host.stitch) ∧
      ((s.at t).pastDeadline o = false → exec (.deadline t r) s = .next (s.at t)))

/-- O48 (R156; R314; R315; R333; R365; R366; R381; R384). For a command whose stitch is in progress or begins now and that nothing has
stopped. MARCH borrows its next tile where its flag permits and nothing holds the engine, ends ABORTED where it does not, and with its
last tile tested ends OK, or CHECK_FAIL after a failing word. CALIBRATE sets the bit of its next quad with no injected request
pending, and after its last quad ends OK or CHECK_FAIL with FAIL as its result. COMPRESS_BUF copies a chunk compressed already, ends
NO_GAIN or OK at the end of its source; DECOMPRESS_BUF copies an uncompressed good chunk and ends OK or CHECK_FAIL there. OFFLOAD of a
valid record takes a job for it; an absent one is NOT_FOUND. READ_RECORD writes the next chunk to the host. STORE_FORMAT drops the
whole catalogue first, ends OK after the last drive. STORE_SCRUB counts a chunk that fails its check and ends when none is left. -/
def Obligations.StitchedCommandsAdvance : Prop :=
  ∀ (s : State) (t : Nat) (r : OpRef) (v : State) (o : HostOp), o.stop = none →
    ((s.at t).claim t OP.MARCH r = some (v, o) → v.enabled P.MAR = true → v.mar.held = none → v.mar.retry = none →
      v.runningOps.any (fun p => p.opcode == OP.MARCH && decide (p.id < o.id)) = false →
      let tile := o.par 0 2 % 2 ^ 11 + o.pos
      let destructive := o.par 3 1 == 0
      (o.pos < o.length → permits (v.lendFlag tile) destructive = true → ∃ u b, exec (.march t r) s = .next u ∧ u.mar.held = some b ∧
        b.tile = tile ∧ b.destructive = destructive ∧ b.fill = o.par 8 8 ∧ b.op = some o.id ∧ SameMemory s u) ∧
      (o.pos < o.length → permits (v.lendFlag tile) destructive = false → ∃ u, exec (.march t r) s = .next u ∧ EndedAs u o.id ST.ABORTED) ∧
      (o.length ≤ o.pos → ∃ u, exec (.march t r) s = .next u ∧ EndedAs u o.id (if o.lost then ST.CHECK_FAIL else ST.OK))) ∧
    ((s.at t).claim t OP.CALIBRATE r = some (v, o) →
      let quads := (List.range 4).filter (bitOf (o.par 0 1))
      (∀ q means, quads[o.pos]? = some q → o.lost = false → bitOf (v.get P.ADC F.ADC_CAL_STAT_QUAD) q = false →
        (∀ k < 4, (v.conv (4 * q + k)).injWait = none) → ∃ u, exec (.calibrate t r means) s = .next u ∧
          bitOf (u.get P.ADC F.ADC_CAL_STAT_QUAD) q = true ∧ u.getB P.ADC F.ADC_CAL_STAT_BUSY = true) ∧
      (∀ means, quads[o.pos]? = none → ∃ u st, exec (.calibrate t r means) s = .next u ∧ EndedAs u o.id st ∧
        (st = ST.OK ∨ st = ST.CHECK_FAIL) ∧ (v.get P.ADC F.ADC_CAL_STAT_FAIL = 0 → st = ST.OK))) ∧
    ((s.at t).claim t OP.COMPRESS r = some (v, o) → v.enabled P.CMP = true → (∀ x, v.takeLane o.id = some x →
      (o.length ≤ o.pos → ∃ u, exec (.compressBuf t r none) s = .next u ∧
        EndedAs u o.id (if o.length ≤ o.done_ then ST.NO_GAIN else ST.OK)) ∧
      (∀ bs k, o.pos < o.length → o.srcSpace = 0 → o.dstSpace = 0 → bs.length ≤ o.length - o.pos → readChunk bs = some k →
        k.chunk.compressed = true → o.done_ + k.raw.length ≤ o.par 4 4 → ∃ u, exec (.compressBuf t r (some bs)) s = .next u ∧
          .hostWrite (o.dst + o.done_) k.raw ∈ u.out ∧ SameMemory s u ∧
          ∃ p ∈ u.host.ops, p.id = o.id ∧ p.pos = o.pos + k.raw.length ∧ p.done_ = o.done_ + k.raw.length))) ∧
    ((s.at t).claim t OP.DECOMPRESS r = some (v, o) → v.hasDcp o = true →
      (o.length ≤ o.pos → ∃ u, exec (.decompressBuf t r none) s = .next u ∧ EndedAs u o.id (if o.lost then ST.CHECK_FAIL else ST.OK)) ∧
      (∀ bs k, o.pos < o.length → o.srcSpace = 0 → o.dstSpace = 0 → bs.length ≤ o.length - o.pos → pocketGood (bs.take 8) = true →
        64 ≤ pocketLength bs → pocketLength bs = bs.length → readChunk bs = some k → k.dataGood = true → k.chunk.compressed = false →
        k.raw ≠ [] → o.done_ + k.raw.length ≤ o.par 4 4 → ∃ u, exec (.decompressBuf t r (some bs)) s = .next u ∧
          .hostWrite (o.dst + o.done_) k.raw ∈ u.out ∧ SameMemory s u ∧
          ∃ p ∈ u.host.ops, p.id = o.id ∧ p.pos = o.pos + bs.length ∧ p.done_ = o.done_ + k.raw.length ∧ p.lost = o.lost)) ∧
    ((s.at t).claim t OP.OFFLOAD r = some (v, o) → o.pos = 0 →
      let h := v.dmRead (v.headerAt o.src) 256
      (headerValid h = false → ∃ u, exec (.offload t r) s = .next u ∧ EndedAs u o.id ST.NOT_FOUND) ∧
      (headerValid h = true → s.isArmed = false → (∀ sid < 22, (s.stream sid).pathOp = none) → ∃ u, exec (.offload t r) s = .next u ∧
        ∃ j ∈ u.store.jobs, j.op = some o.id ∧ j.record = headField h 0 4 ∧ j.header = some h)) ∧
    ((s.at t).claim t OP.READ_RECORD r = some (v, o) → bitOf (o.par 1 1) 0 = false → o.srcSpace = 2 → o.blockSeq ≠ 0 →
      let h := v.dmRead (v.headerAt o.src) 256
      (headerValid h = false → ∃ u, exec (.readRecord t r none) s = .next u ∧ EndedAs u o.id ST.NOT_FOUND) ∧
      (∀ e, headerValid h = true → (v.recordChunks (o.par 0 1) h).find? (fun e => decide (o.pos ≤ e.chunk.seq)) = some e →
        0 < e.chunk.length → o.done_ + e.chunk.length ≤ o.length → ∃ u, exec (.readRecord t r none) s = .next u ∧
          .hostWrite (o.dst + o.done_) (v.dmRead (v.ringBase (o.par 0 1) e.chunk.segment + e.pos) e.chunk.length) ∈ u.out ∧ SameMemory s u ∧
          ∃ p ∈ u.host.ops, p.id = o.id ∧ p.pos = e.chunk.seq + 1 ∧ p.done_ = o.done_ + e.chunk.length)) ∧
    (∀ id : Word, (s.at t).claim t OP.FORMAT r = some (v, o) →
      (o.pos = 0 → s.isArmed = false →
        v.runningOps.any (fun p => p.id != o.id && (p.opcode == OP.OFFLOAD || p.opcode == OP.READ_RECORD || p.opcode == OP.SCRUB)) = false →
        ∃ u, exec (.storeFormat t r id) s = .next u ∧ u.store.table = [] ∧ u.store.exts = [] ∧ u.getB P.STO F.STO_STAT_READY = false ∧
          u.getB P.STO F.STO_STAT_FORMAT_BUSY = true) ∧
      (4 ≤ o.pos → ∃ u, exec (.storeFormat t r id) s = .next u ∧ EndedAs u o.id ST.OK)) ∧
    ((s.at t).claim t OP.SCRUB r = some (v, o) → bitOf (o.par 0 1) 0 = true → v.hasDcp o = true →
      (∃ u, exec (.storeScrub t r none) s = .next u ∧ EndedAs u o.id (if o.lost then ST.CHECK_FAIL else ST.OK)) ∧
      (∀ bs, readChunk bs = none → ∃ u, exec (.storeScrub t r (some bs)) s = .next u ∧ CountsBy v u P.STO F.STO_SCRUB_BAD_CNT 0 1 ∧
        ∃ p ∈ u.host.ops, p.id = o.id ∧ p.lost = true ∧ p.result = o.result + 1))

/-- O49 (R352; R353; R354; R355; R356; R360; R363; R364). STO_TAKE_CHUNK of a ready store with no uncompressed path places the next full
bank's chunk after the used part of its stream's OPEN extent; past the allotment it takes none and the record is full.
NVME_WRITE_COMPLETE counts down the chunk's Writes; with the last it is written. NVME_WRITE_ERROR issues the chunk again at its place;
the second time its extent is BAD. COMMIT_BATCH takes all written chunks of a live drive into its batch, with a Flush where the drive
has a write cache; NVME_FLUSH_COMPLETE goes on to the map; MAP_FUA_COMPLETE commits the chunk at FILL and raises FILL past it.
RECORD_TABLE_WRITE writes copy A, then the entry stands. DRIVE_LOST drops and counts the drive's uncommitted chunks. -/
def Obligations.StoreWritesAndCommits : Prop :=
  ∀ (s : State) (t : Nat), s.Canon → s.store.drives.length = 4 →
    (∀ b j, (∀ sid < 22, (s.thread (16 + sid)).stream = none) → s.storeReady = true → s.poolUsed < 4096 → s.nextBank = some b →
      s.jobOf (s.pathOpOf b.chunk.stream) = some j → j.full = false →
      (∀ e, j.charge + b.chunk.blocks ≤ j.allot →
        s.store.exts.find? (fun e => e.slot = j.slot ∧ e.record = j.record ∧ e.stream = b.chunk.stream ∧ e.state = 1 ∧
          e.used + b.chunk.blocks ≤ 65536) = some e → ∃ u, exec (.stoTakeChunk t []) s = .next u ∧
        ∃ w ∈ u.store.writes, w.chunk = b.chunk ∧ w.drive = e.drive ∧ w.ext = e.no ∧ w.block = e.used ∧ w.phase = 0) ∧
      (j.allot < j.charge + b.chunk.blocks → ∃ u, exec (.stoTakeChunk t []) s = .next u ∧ u.store.writes = s.store.writes ∧
        CountsBy s u P.STO F.STO_FULL_CNT 0 1 ∧ ∃ k ∈ u.store.jobs, k.op = j.op ∧ k.full = true)) ∧
    (∀ (sid : Fin 22) (seq : Nat), s.findWrite sid.val seq = none → exec (.nvmeWriteComplete t sid seq) s = .next (s.at t)) ∧
    (∀ (sid : Fin 22) (seq : Nat) (w : StoWrite), s.findWrite sid.val seq = some w → w.drive < 4 →
      (1 < w.left → ∃ u, exec (.nvmeWriteComplete t sid seq) s = .next u ∧ { w with left := w.left - 1 } ∈ u.store.writes ∧ SameMemory s u) ∧
      (w.left ≤ 1 → ∃ u, exec (.nvmeWriteComplete t sid seq) s = .next u ∧ { w with left := 0, phase := 1 } ∈ u.store.writes ∧
        u.store.exts = s.store.exts) ∧
      (∀ status, w.retried = false → ∃ u, exec (.nvmeWriteError t sid seq false status) s = .next u ∧
        CountsBy s u P.NVQ F.NVQ_ERR_CNT w.drive 1 ∧ u.store.exts = s.store.exts ∧
        ∃ x ∈ u.store.writes, x.chunk = w.chunk ∧ x.drive = w.drive ∧ x.ext = w.ext ∧ x.block = w.block ∧ x.retried = true ∧ x.phase = 0) ∧
      (∀ status e, w.retried = true → e ∈ s.store.exts → e.drive = w.drive → e.no = w.ext →
        ∃ u, exec (.nvmeWriteError t sid seq false status) s = .next u ∧ CountsBy s u P.STO F.STO_WRITE_ERR_CNT 0 1 ∧
          ∃ x ∈ u.store.exts, x.drive = e.drive ∧ x.no = e.no ∧ x.state = 3)) ∧
    (s.storeReady = true → ∃ u, exec (.commitBatch t) s = .next u ∧ u.store.exts = s.store.exts ∧ SameMemory s u ∧
      ∀ d < 4, d ∈ s.liveDrives → (s.drive d).batch = 0 → (∃ w ∈ s.store.writes, w.drive = d ∧ w.phase = 1) →
        (∀ w ∈ u.store.writes, w.drive = d → w.phase ≠ 1) ∧
        (s.getB P.STO F.STO_DRIVE_STAT_VWC d = true → (u.drive d).batch = 1 ∧ .nvme d none .flush ∈ u.out) ∧
        (s.getB P.STO F.STO_DRIVE_STAT_VWC d = false → (u.drive d).batch = 2)) ∧
    (∀ d : Fin 4, ((s.drive d.val).batch = 1 → ∃ u, exec (.nvmeFlushComplete t d) s = .next u ∧ (u.drive d.val).batch = 2 ∧
        u.store.writes = s.store.writes ∧ SameMemory s u) ∧
      ((s.drive d.val).batch ≠ 1 → exec (.nvmeFlushComplete t d) s = .next (s.at t)) ∧
      ((s.drive d.val).batch ≠ 2 → exec (.mapFuaComplete t d) s = .next (s.at t)) ∧
      (∀ w e, (s.drive d.val).batch = 2 → w ∈ s.store.writes → w.drive = d.val → w.phase = 2 →
        (∀ x ∈ s.store.writes, x.drive = d.val → x.ext = w.ext → x.phase = 2 → x.block = w.block → x = w) →
        s.store.exts.filter (fun x => x.drive = d.val ∧ x.no = w.ext) = [e] → w.block = e.fill →
        ∃ u, exec (.mapFuaComplete t d) s = .next u ∧ (u.drive d.val).batch = 0 ∧ u.store.writes.length < s.store.writes.length ∧
          ∃ x ∈ u.store.exts, x.drive = d.val ∧ x.no = w.ext ∧ w.block + w.chunk.blocks ≤ x.fill) ∧
      (s.getB P.STO F.STO_DRIVE_STAT_PRESENT d = true → s.getB P.STO F.STO_DRIVE_STAT_IN_STORE d = true → (s.drive d.val).lost = false →
        ∃ u, exec (.driveLost t d) s = .next u ∧ (u.drive d.val).lost = true ∧ (∀ w ∈ u.store.writes, w.drive ≠ d.val) ∧
          CountsBy s u P.STO F.STO_LOST_CHUNK_CNT 0 (s.store.writes.filter (fun w => w.drive = d.val)).length)) ∧
    (∀ w rest, s.store.tabs = w :: rest →
      (w.aDone = false → 1 < s.tableCopies.length → ∃ u, exec (.recordTableWrite t) s = .next u ∧ u.store.table = s.store.table ∧
        u.store.tabs = { w with aDone := true } :: rest) ∧
      (w.aDone = true → ∃ u, exec (.recordTableWrite t) s = .next u ∧ w.entry ∈ u.store.table))

/-- O50 (R357; R358; R361; R362; R368; R373; R387; R484). STORE_RECOVERY of a powered module with no record being stored keeps the four
images; READY is set exactly when the store the first superblock names is whole, with CAUSE 0, and CAUSE is 1 with no drive present.
While a record is being stored it has no effect. STO_FREE_REC of a COMPLETE or INCOMPLETE record leaves no entry of its slot and none
of its extents but BAD ones; of another it has no effect. NVQ_RESET, ignored while chunks are being stored, leaves each present port
it names with its controller not ready and no I/O queues. OUT_OF_BAR_REQUEST is answered Unsupported Request, CONFIGURATION_REQUEST
with Retry Status before the endpoint serves requests and normally after. -/
def Obligations.StoreRecoveryFreeAndReset : Prop :=
  ∀ (s : State) (t : Nat), s.Canon →
    (∀ ims : List (Option DriveImage), ims.length = 4 →
      (s.powered = true → s.store.jobs = [] → ∃ u, exec (.storeRecovery t ims) s = .next u ∧
        u.store.drives = ims.map (fun im => { image := im, lost := false, batch := 0 }) ∧ u.store.writes = [] ∧ SameMemory s u ∧
        (∀ b, (((List.range 4).filter (fun d => (ims.getD d none).isSome)).filterMap (superOf ims)).head? = some b →
          u.getB P.STO F.STO_STAT_READY = storeWhole ims b ∧ (storeWhole ims b = true → u.get P.STO F.STO_STAT_CAUSE = 0)) ∧
        (ims = [none, none, none, none] → u.getB P.STO F.STO_STAT_READY = false ∧ u.get P.STO F.STO_STAT_CAUSE = 1)) ∧
      (s.powered = false ∨ s.store.jobs ≠ [] → exec (.storeRecovery t ims) s = .next (s.at t))) ∧
    (∀ v : Word, let slot := bits v.toNat 15 0
      (∀ e, s.store.table.find? (fun e => e.slot = slot) = some e →
        (e.state = 2 ∨ e.state = 3 → ∃ u, exec (.stoFreeRec t v) s = .next u ∧ SameMemory s u ∧
          u.store.table = s.store.table.filter (fun x => x.slot ≠ slot) ∧
          u.store.exts = s.store.exts.filter (fun x => !(x.slot == slot && x.record == fieldAt e.header 0 4 && x.state != 3)) ∧
          u.get P.STO F.STO_REC_CNT = u.store.table.length % 2 ^ 17) ∧
        (e.state = 1 → exec (.stoFreeRec t v) s = .next (s.at t))) ∧
      (s.store.table.find? (fun e => e.slot = slot) = none → exec (.stoFreeRec t v) s = .next (s.at t))) ∧
    (∀ v : Word, (s.getB P.STO F.STO_STAT_WRITING = true → exec (.nvqReset t v) s = .next (s.at t)) ∧
      (s.getB P.STO F.STO_STAT_WRITING = false → ∃ u, exec (.nvqReset t v) s = .next u ∧ SameMemory s u ∧ u.store = s.store ∧
        ∀ d < 4, bitOf v.toNat d = true → s.getB P.STO F.STO_DRIVE_STAT_PRESENT d = true →
          u.getB P.NVQ F.NVQ_PORT_STAT_CTRL_READY d = false ∧ u.get P.NVQ F.NVQ_PORT_STAT_IOQ d = 0 ∧
          .nvme d none .controllerReset ∈ u.out)) ∧
    (s.powered = true → s.getB P.HIF F.HIF_LINK_STAT_UP = true →
      exec (.outOfBarRequest t) s = .next ((s.at t).emit .unsupported) ∧
      (s.hostServed = false → ∀ m, exec (.configurationRequest t m) s = .next ((s.at t).emit .retryStatus)) ∧
      (s.hostServed = true → exec (.configurationRequest t none) s = .next ((s.at t).emit .configDone) ∧
        ∃ u, exec (.configurationRequest t (some none)) s = .next u ∧ u.msix = { s.msix with funcMask := true }))

/-- O51 (R389; R390; R391; R392; R394; R395; R399; R401). A first PPS_EDGE with its second set, or a PTP_MESSAGE of the selected port and
domain carrying a measured time, makes a mapping anchored at its tick, while SP0 is not on bypass: a step to the measured time with
RATE 0 beyond STEP_NS, counted, else the old time with a rate that closes the offset over SLEW_S within 100 ppm; LOCKED is set. A PPS
edge more than 100 µs from its prediction is only counted; PPS_TIMEOUT after 1.5 s sets HOLDOVER. ETH_LINK_CHANGE shows the port and
its lanes. PAUSE_FRAME holds a port. ETH_CHUNK_SEND sends the chunk at the head of its queue: the datagrams carry its bytes in order,
none lost, after a 32-byte header. LANE_DOWN counts errors and shows lock lost. -/
def Obligations.TimeAndEthernet : Prop :=
  ∀ (s : State) (t : Nat), s.Canon →
    (let slot := t / 8 * 8
     let synced (u : State) (measured : Nat) : Prop :=
      let off := (measured : Int) - (s.at t).taiNs slot
      let step := s.use P.TIME F.TIME_CTL_STEP_NS * 1000 < off.natAbs
      let rate := fdiv (off * 2 ^ 40) (Nat.max 1 (s.use P.TIME F.TIME_CTL_SLEW_S) * 1000000000)
      let tai := if step then measured else ((s.at t).taiNs slot).toNat
      u.tm.anchor = (s.at t).mapCount s.anchorAligned slot ∧ u.tm.sec = tai / 1000000000 % 2 ^ 48 ∧ u.tm.ns = tai % 1000000000 ∧
      u.tm.stepped = decide step ∧ u.tm.rate = (if step then 0 else max (-rateMax) (min rateMax rate)) ∧ u.tm.seq = (s.tm.seq + 1) % 2 ^ 32 ∧
      u.getB P.TIME F.TIME_STAT_LOCKED = true ∧ u.getB P.TIME F.TIME_STAT_HOLDOVER = false ∧ SameMemory s u ∧
      CountsBy s u P.TIME F.TIME_STEP_CNT 0 (if step then 1 else 0)
     s.getB (P.CKS 0) F.CKS_LOCK_STAT_ON_BYPASS = false →
      (∀ sec, s.use P.TIME F.TIME_CTL_SOURCE = 1 → s.tm.lastEdge = none → s.tm.nextSec = some sec → ∃ u, exec (.ppsEdge t) s = .next u ∧
        synced u (sec * 1000000000) ∧ u.tm.lastEdge = some slot ∧ u.tm.lastSec = sec ∧ u.tm.nextSec = none) ∧
      (∀ (port : Fin 8) (domain : BitVec 8) (x : Nat), s.use P.TIME F.TIME_CTL_SOURCE = 2 → s.use P.TIME F.TIME_CTL_PTP_PORT = port.val →
        s.use P.TIME F.TIME_CTL_DOMAIN = domain.toNat → s.get P.HIF F.HIF_HOST_MODE_MODE ≠ 0 →
        ∃ u, exec (.ptpMessage t port domain (some x) none) s = .next u ∧ synced u x)) ∧
    (∀ e, s.use P.TIME F.TIME_CTL_SOURCE = 1 → s.tm.lastEdge = some e → e + usSlots 100 < t / 8 * 8 → t / 8 * 8 + usSlots 100 < e + 16000000000 →
      exec (.ppsEdge t) s = .next ((s.at t).sat P.TIME F.TIME_PPS_REJ_CNT)) ∧
    (s.use P.TIME F.TIME_CTL_SOURCE = 1 → s.tm.lastEdge.getD 0 + 24000000000 ≤ t → ∃ u, exec (.ppsTimeout t) s = .next u ∧
      u.getB P.TIME F.TIME_STAT_HOLDOVER = true ∧ u.getB P.TIME F.TIME_STAT_LOCKED = false ∧ u.tm = s.tm) ∧
    (s.use P.TIME F.TIME_CTL_SOURCE ≠ 1 → exec (.ppsEdge t) s = .next (s.at t) ∧ exec (.ppsTimeout t) s = .next (s.at t)) ∧
    (∀ (port : Fin 8) (up : Bool),
      (∀ lo k, (ethPorts s.hostMode).find? (fun e => e.1 == port.val) = some (port.val, lo, k) → ∃ u, exec (.ethLinkChange t port up) s = .next u ∧
        (∀ n < 8, u.ethUp n = if n = port.val then up else s.ethUp n) ∧ bitOf (u.reg P.ETH H.RAW) port = !up ∧
        (∀ i < k, u.getB P.SER F.SER_LANE_STAT_LOCKED (lo + i) = up) ∧ SameMemory s u) ∧
      ((ethPorts s.hostMode).find? (fun e => e.1 == port.val) = none → exec (.ethLinkChange t port up) s = .next (s.at t)) ∧
      (∀ n, s.ethPort port.val = true → s.ethPause.length = 8 → ∃ u, exec (.pauseFrame t port n) s = .next u ∧
        (∀ m < 8, u.ethPause.getD m 0 = if m = port.val then t + n else s.ethPause.getD m 0) ∧
        u = { s with now := u.now, ethPause := u.ethPause })) ∧
    (∀ (d : Fin 4) c r, s.eths.length = 4 → (s.eths.getD d { queue := [], dgrams := 0 }).queue = (c, none) :: r →
      1500 ≤ s.use P.ETH F.ETH_CTL_MTU →
      ((s.at t).ethReady d t = true → ∃ (u : State) (gs : List Datagram), exec (.ethChunkSend t d) s = .next u ∧ u.out = s.out ++ gs.map Output.datagram ∧
        gs.flatMap (fun g => g.bytes.drop 32) = c.bytes ∧ (∀ g ∈ gs, g.dest = d.val ∧ g.port = s.use P.ETH F.DEST_CFG_PORT d ∧
          g.dstUdp = s.use P.ETH F.DEST_UDP_DST d) ∧ (u.eths.getD d { queue := [], dgrams := 0 }).queue = r ∧
        u.get P.ETH F.DEST_SENT_CNT d = (s.get P.ETH F.DEST_SENT_CNT d + 1) % 2 ^ 32 ∧ SameMemory s u) ∧
      ((s.at t).ethReady d t = false → exec (.ethChunkSend t d) s = .next (s.at t))) ∧
    (∀ (lane : Fin 48) (n : Nat) (eye : BitVec 16), ∃ u, exec (.laneDown t lane n eye) s = .next u ∧
      CountsBy s u P.SER F.SER_LANE_ERR lane n ∧ u.getB P.SER F.SER_LANE_STAT_LOCKED lane = false ∧
      u.get P.SER F.SER_LANE_STAT_EYE lane = eye.toNat ∧ SameMemory s u)

/-- O52 (R407; R425; R427; R428; R488). On an enabled page. FLIT_RECEIVE of a port that is UP or in STANDBY: a flit whose CRC checks and
whose SEQ follows is taken, ends the failures in a row and counts its tokens; another is answered with NAK and adds a failure; above
RETRY_MAX failures in a row the port declares link loss, as LINK_LOSS does: it trains again, the loss is counted, and a ring's module
is BROKEN. A flit of another length is ill-formed. PORT_RETRAIN brings a training port UP, or to STANDBY where the neighbour holds it
or the ring is in LINE forwarding. FLX_RETRAIN sends exactly the enabled ports it names that are not in STANDBY to training. A port in
another state is left. -/
def Obligations.FlexPortsReceiveAndTrain : Prop :=
  ∀ (s : State) (t : Nat) (p : Port), s.Canon → s.flxs.length = 3 → s.enabled P.FLX = true →
    let state (v : State) (q : Port) : Nat := v.get P.FLX F.FLX_PORT_STAT_STATE q.idx
    let lost (u : State) : Prop := state u p = 1 ∧ CountsBy s u P.FLX F.FLX_LOSS_CNT p.idx 1 ∧
      (p ≠ .twin → s.role ≠ C.SOLO → state s p = 2 → u.broken = true) ∧ (∀ q, q ≠ p → state u q = state s q)
    (∀ (flit : List Byte) (corr uncorr : Nat), flit.length = 256 → 2 ≤ state s p →
      let h := fieldAt flit 0 8
      let good := crc32 (flit.take 252) == fieldAt flit 252 4
      let next := bits h 59 48 = ((s.flx p).rx + 1) % 4096
      (good = true → bitOf h 35 = false → next → ∃ u, exec (.flitReceive t p flit corr uncorr) s = .next u ∧
        u.flx p = { s.flx p with rx := ((s.flx p).rx + 1) % 4096, fails := 0 } ∧ (∀ q, q ≠ p → u.flx q = s.flx q) ∧
        CountsBy s u P.FLX F.FLX_FEC_CORR_CNT p.idx corr ∧ CountsBy s u P.FLX F.FLX_FEC_UNCORR_CNT p.idx uncorr ∧
        u.get P.FLX F.FLX_TOKEN_RX_CNT p.idx =
          (s.get P.FLX F.FLX_TOKEN_RX_CNT p.idx + (if bits h 63 60 = 1 then tokensIn flit else 0)) % 2 ^ 32 ∧ SameMemory s u) ∧
      (good = false →
        ((s.flx p).fails + 1 ≤ s.retryMax → ∃ u, exec (.flitReceive t p flit corr uncorr) s = .next u ∧
          u.flx p = { s.flx p with fails := (s.flx p).fails + 1 } ∧ .nak p (s.flx p).rx ∈ u.out ∧ state u p = state s p ∧
          CountsBy s u P.FLX F.FLX_CRC_ERR_CNT p.idx 1 ∧ SameMemory s u) ∧
        (s.retryMax < (s.flx p).fails + 1 → ∃ u, exec (.flitReceive t p flit corr uncorr) s = .next u ∧ lost u))) ∧
    (∀ flit corr uncorr, flit.length ≠ 256 → exec (.flitReceive t p flit corr uncorr) s = .fault .illFormed) ∧
    (2 ≤ state s p → ∃ u, exec (.linkLoss t p) s = .next u ∧ lost u) ∧
    (state s p < 2 → exec (.linkLoss t p) s = .next (s.at t)) ∧
    (∀ standby : Bool, s.portOn p = true → s.portTested p = false → state s p = 1 → ∃ u, exec (.portRetrain t p standby) s = .next u ∧
      state u p = (if p ≠ .twin ∧ (standby = true ∨ (s.role ≠ C.SOLO ∧ s.broken = true)) then 3 else 2) ∧
      u.getB P.FLX F.FLX_PORT_STAT_PAIR_LOCK p.idx = true ∧ (∀ q, q ≠ p → state u q = state s q) ∧
      (p ≠ .twin → u.flx p = FlxPort.empty) ∧ SameMemory s u) ∧
    (∀ standby : Bool, state s p ≠ 1 → exec (.portRetrain t p standby) s = .next (s.at t)) ∧
    (∀ v : Word, ∃ u, exec (.flxRetrain t v) s = .next u ∧
      ∀ q, state u q = if bitOf v.toNat q.idx && s.portOn q && state s q != 3 then 1 else state s q)

/-- O53 (R404; R405; R411; R412; R413; R425; R378). On an enabled page of a started module, waves not of the kind named left aside.
ENUMERATE ends BUSY while a module is ARMED, CHECK_FAIL with NO_PORT without a trained port, and else sends ENUM east with NEXT = 1. A
member takes NEXT and sends the wave on with NEXT one higher, or END back; a second strapped root refuses it. At the root, END of the
east wave starts the west wave, END or VERIFY of the west wave gives COUNT, BROKEN and alignment, and a CONFLICT fails the run with
cause 3. READY makes a member READY with the count; the root is READY at ENUM_READY_TIMEOUT and its command ends OK. LINK_LOSS_TOKEN
makes the ring BROKEN; REACH_TIMEOUT drops a silent module and ends the commands forwarded to it. -/
def Obligations.EnumerationRuns : Prop :=
  ∀ (s : State) (t : Nat) (port : Port) (k : Token), s.Canon → s.enabled P.CAS = true → s.started = true →
    let w := k.wave
    let sent (u : State) (p : Port) (kind next : Nat) : Prop := ∃ x, .token p x ∈ u.out ∧ x.regKind = kind ∧ x.wave.next = next % 64
    (∀ (r : OpRef) (v : State) (o : HostOp) (others : Bool), (s.at t).claim t OP.ENUMERATE r = some (v, o) → s.cas.op = none →
      (s.isArmed = true ∨ others = true ∨ s.cas.step ≠ 0 → ∃ u, exec (.enumerate t r others) s = .next u ∧ EndedAs u o.id ST.BUSY) ∧
      (s.isArmed = false → others = false → s.cas.step = 0 →
        (s.waveLink .east = true → ∃ u, exec (.enumerate t r others) s = .next u ∧ sent u .east RK.ENUM 1 ∧ u.cas.step = 1 ∧
          u.cas.op = some o.id ∧ u.getB P.CAS F.CAS_STAT_ENUM_BUSY = true ∧ u.getB P.CAS F.CAS_STAT_READY = false ∧ u.casAddr = 0) ∧
        (s.waveLink .east = false → s.waveLink .west = false → ∃ u, exec (.enumerate t r others) s = .next u ∧
          EndedAs u o.id ST.CHECK_FAIL ∧ u.get P.CAS F.CAS_ENUM_STAT_CAUSE = 5 ∧ u.cas.step = 0))) ∧
    (k.type = TK.REG → k.regKind = RK.ENUM → s.rootStrap = false → w.next ≠ 0 → ∃ u, exec (.enumWave t .west k) s = .next u ∧
      u.casAddr = w.next ∧ u.getB P.CAS F.CAS_STAT_ALIGNED = false ∧
      (s.waveLink .east = true → sent u .east RK.ENUM (w.next + 1)) ∧
      (s.waveLink .east = false → s.waveLink .west = true → sent u .west RK.END (w.next + 1))) ∧
    (k.type = TK.REG → k.regKind = RK.ENUM → s.rootStrap = true → port ≠ .twin → s.cas.step ≠ 1 → ∃ u, exec (.enumWave t port k) s = .next u ∧
      u.getB P.CAS F.CAS_STAT_ROOT_CONFLICT = true ∧ (s.waveLink port = true → ∃ x, .token port x ∈ u.out ∧ x.regKind = RK.END ∧
        x.wave.conflict = true)) ∧
    (k.type = TK.REG → k.regKind = RK.VERIFY → s.rootStrap = false →
      let holds := s.casAddr ≠ 0 ∧ s.casAddr ≤ w.east
      (holds → s.waveLink .west = true → ∃ u, exec (.enumVerify t .east k) s = .next u ∧ u.casAddr = s.casAddr ∧ sent u .west RK.VERIFY w.next) ∧
      (¬ holds → w.east < w.next → ∃ u, exec (.enumVerify t .east k) s = .next u ∧ u.casAddr = w.next ∧
        (s.waveLink .west = true → sent u .west RK.VERIFY (w.next - 1)))) ∧
    (let counted (u : State) : Prop := u.cas.step = 3 ∧ u.getB P.CAS F.CAS_STAT_ALIGNED = true ∧ u.broken = true ∧
      u.get P.CAS F.CAS_STAT_COUNT = 1 + s.get P.CAS F.CAS_ENUM_STAT_EAST_COUNT + w.west ∧ u.get P.CAS F.CAS_ENUM_STAT_WEST_COUNT = w.west
     let whole := s.cas.step = 2 ∧ s.cas.closed = false ∧ s.cas.expect = 0 ∧ s.get P.CAS F.CAS_ENUM_STAT_EAST_COUNT < 64
     k.type = TK.REG → s.rootStrap = true →
      (k.regKind = RK.VERIFY → whole → ∃ u, exec (.enumVerify t .east k) s = .next u ∧ counted u) ∧
      (k.regKind = RK.END → w.conflict = false → w.tooMany = false →
        (whole → ∃ u, exec (.endWave t .west k) s = .next u ∧ counted u) ∧
        (s.cas.step = 1 → s.waveLink .west = true → ∃ u, exec (.endWave t .east k) s = .next u ∧ u.cas.step = 2 ∧
          u.get P.CAS F.CAS_ENUM_STAT_EAST_COUNT = w.east ∧ sent u .west RK.VERIFY 63)) ∧
      (k.regKind = RK.END → w.conflict = true → port ≠ .twin → s.cas.step = 1 ∨ s.cas.step = 2 →
        ∃ u, exec (.rootConflict t port k) s = .next u ∧ u.cas.step = 0 ∧ u.get P.CAS F.CAS_ENUM_STAT_CAUSE = 3 ∧ u.role = C.SOLO ∧
          u.getB P.CAS F.CAS_STAT_ROOT_CONFLICT = true)) ∧
    (k.type = TK.REG → k.regKind = RK.READY → port ≠ .twin → s.rootStrap = false → ∃ u, exec (.ready t port k) s = .next u ∧
      u.getB P.CAS F.CAS_STAT_READY = true ∧ u.role = C.MEMBER ∧ u.get P.CAS F.CAS_STAT_COUNT = bits k.w1.toNat 6 0 ∧
      u.broken = bitOf k.w1.toNat 8 ∧ u.reachMask = u.ringModules % 2 ^ 64) ∧
    (∀ ran : Bool, (s.cas.step = 4 → ran = true ∨ s.cas.since + msSlots 100 ≤ t → ∃ u, exec (.enumReadyTimeout t ran) s = .next u ∧
        u.getB P.CAS F.CAS_STAT_READY = true ∧ u.role = C.ROOT ∧ u.cas.step = 0 ∧
        (∀ id o, s.cas.op = some id → s.opById id = some o → EndedAs u id ST.OK)) ∧
      (s.cas.step ≠ 4 → exec (.enumReadyTimeout t ran) s = .next (s.at t))) ∧
    (k.type = TK.REG → k.regKind = RK.LINK_LOSS → port ≠ .twin → s.tokenFor port k = true → ∃ u, exec (.linkLossToken t port k) s = .next u ∧
      u.broken = true) ∧
    (∀ (m : Fin 64) x, s.role ≠ C.SOLO → m.val ≠ s.casAddr → bitOf s.reachMask m.val = true → s.cas.heard.lookup m.val = some x →
      let due := x + usSlots (s.use P.CAS F.CAS_CTL_REACH_US)
      (due ≤ t → ∃ u, exec (.reachTimeout t m) s = .next u ∧ bitOf u.reachMask m.val = false ∧
        ∀ o ∈ s.host.ops, o.from_ = none → o.target = m.val → s.runsHere o = false → o.ended = false → EndedAs u o.id ST.UNREACHABLE) ∧
      (t < due → exec (.reachTimeout t m) s = .next (s.at t)))

/-- O54 (R409; R410; R414; R415; R418; R420; R422; R423; R424). For a module of a ring and a token meant for it by a cascade port (R409),
every state. ARM_TOKEN answered with an ACK arms at the named ply, or the next if it is past, when the checks pass, and else shows the
failing check; ARM_ACK with a failure is marked at the root. STOP_TOKEN stops the record at the named ply. FIRE_TOKEN is counted and
kept; RETRACT_TOKEN withdraws it. PROGRESS_SEND sends T1 every 64 plies and PROGRESS_TOKEN keeps it. PROBE is answered with its T1, T2
and T3; REPLY adds θ to the window; ALIGN_WINDOW_END sets the offset that θ gives; ALIGN_VERIFY shows the deviation. REG_TOKEN READ is
answered by RESP with the value; a RESP ends its access. FORWARDED_COMMAND goes on, is admitted here, or ends the command sent. -/
def Obligations.RingTokensAndForwarding : Prop :=
  ∀ (s : State) (t : Nat) (p : Port) (k : Token), s.Canon → p ≠ .twin →
    let w := k.w0.toNat
    let v := (s.at t).ringToken t p k
    let named := (s.at t).plyFromAligned (unwrapNear (2 ^ 51) ((s.at t).aligned (s.at t).now) (bits k.w1.toNat 50 0))
    (s.tokenFor p k = true →
      (k.type = TK.ARM → bits w 31 30 = 0 → s.role = C.MEMBER → s.started = true →
        (s.isArmed = false → s.acq.armAt = none →
          (v.armCheck = none → ∃ u, exec (.armToken t p k) s = .next u ∧ u.acq.armAt = some (if named ≤ t then nextPly t else named) ∧
            u.get P.ACQ F.ACQ_ARM_STATUS_RESULT = 0) ∧
          (∀ c x, v.armCheck = some (c, x) → ∃ u, exec (.armToken t p k) s = .next u ∧ u.get P.ACQ F.ACQ_ARM_STATUS_RESULT = 4 ∧ u.acq = s.acq)) ∧
        (s.isArmed = true → ∃ u, exec (.armToken t p k) s = .next u ∧ u.get P.ACQ F.ACQ_ARM_STATUS_RESULT = 5 ∧ u.acq = s.acq)) ∧
      (k.type = TK.ARM → bits w 31 30 = 1 → s.role = C.ROOT → ∃ u, exec (.armAck t p k) s = .next u ∧
        ∀ m < 64, bitOf (u.get64 P.CAS F.CAS_ARM_FAIL_LO F.CAS_ARM_FAIL_HI) m =
          (bitOf (s.get64 P.CAS F.CAS_ARM_FAIL_LO F.CAS_ARM_FAIL_HI) m || (m == k.origin && bits w 23 16 != 0))) ∧
      (k.type = TK.STOP → s.isArmed = true → s.acq.stopPly = none → ∃ u, exec (.stopToken t p k) s = .next u ∧
        u.acq.stopPly = some (Nat.max named (nextPly t)) ∧ u.acq.stopSlot = some (Nat.max named (nextPly t) - 1)) ∧
      (k.type = TK.FIRE → ∃ u, exec (.fireToken t p k) s = .next u ∧ u.get P.CAS F.CAS_FIRE_RX_CNT = (s.get P.CAS F.CAS_FIRE_RX_CNT + 1) % 2 ^ 32 ∧
        (bitOf w 31 = true → (s.at t).readFire p k ∈ u.remote)) ∧
      (k.type = TK.RETRACT → ∃ u, exec (.retractToken t p k) s = .next u ∧
        ∀ q ∈ u.remote, q.named false (bits w 9 8 == 1) k.origin (bits w 7 0) = false) ∧
      (k.type = TK.TIME → bits w 31 30 = 0 → ∃ u, exec (.progressToken t p k) s = .next u ∧
        u.casProg.lookup k.origin = some ((s.at t).slotOf51 (bits k.w1.toNat 56 0 / 64))) ∧
      (k.type = TK.REG → k.regKind = RK.READ → v.portUp .east = true → v.broken = false → ∃ u x, exec (.regToken t p k) s = .next u ∧
        .token .east x ∈ u.out ∧ x.regKind = RK.RESP ∧ bits x.w0.toNat 19 0 = bits w 19 0 / 4 * 4 ∧
        x.w1 = w64 (v.readWord .remote (bits w 19 0 / 4 * 4 / 0x1000) (bits w 19 0 / 4 * 4 % 0x1000)).2) ∧
      (∀ a, k.type = TK.REG → k.regKind = RK.RESP →
        s.cas.rwin.find? (fun a => a.dest == k.origin && a.off == bits w 19 0 / 4 * 4) = some a → ∃ u, exec (.regToken t p k) s = .next u ∧
        u.cas.rwin = s.cas.rwin.erase a)) ∧
    (s.role ≠ C.SOLO → s.enabled P.CAS = true → s.portUp .east = true → s.broken = false → t / 32 % 64 = 0 → ∃ u x,
      exec (.progressSend t) s = .next u ∧ .token .east x ∈ u.out ∧
      x.w1 = w64 (s.aligned (32 * (if s.gmb.running then Nat.min s.commitPly (t / 32) else t / 32)) * 64 % 2 ^ 57)) ∧
    (t / 32 % 64 ≠ 0 → exec (.progressSend t) s = .next (s.at t)) ∧
    (∀ stamp sent : Nat, k.type = TK.TIME → bits w 31 30 = 1 → s.waveLink p = true → ∃ u x, exec (.probe stamp p k sent) s = .next u ∧
      .token p x ∈ u.out ∧ x.w1 = w64 (bits k.w1.toNat 56 0) ∧ x.w2 = w64 (stamp % 2 ^ 57) ∧ x.w3 = w64 (sent % 2 ^ 57) ∧ u.cas = s.cas) ∧
    (∀ stamp : Nat, k.type = TK.TIME → bits w 31 30 = 2 → p ∈ s.cas.probing → s.cas.sums.length = 3 → ∃ u, exec (.reply stamp p k) s = .next u ∧
      (u.cas.sums.getD p.idx (0, 0)).1 = (s.cas.sums.getD p.idx (0, 0)).1 + 1 ∧ u.cas.probing = s.cas.probing) ∧
    (∀ last : Bool, ∃ u, exec (.alignWindowEnd t p none last) s = .next u ∧ p ∉ u.cas.probing ∧
      (last = true → s.cas.step = 3 → u.cas.step = 4)) ∧
    (∀ (x : Int) (last : Bool), s.rootStrap = false → s.casAddr ≠ 0 → s.getB P.CAS F.CAS_STAT_ALIGNED = false →
      ∃ u, exec (.alignWindowEnd t p (some x) last) s = .next u ∧ u.getB P.CAS F.CAS_STAT_ALIGNED = true ∧
        u.get64 P.TIME F.TIME_ALIGN_OFS_LO F.TIME_ALIGN_OFS_HI = unsx 48 (-(fdiv x 512)) ∧
        u.get P.CAS F.CAS_ALIGN_RES = (x - 512 * fdiv x 512).toNat) ∧
    (∀ dev : Int, s.use P.CAS F.CAS_ALIGN_CFG_VERIFY_MS ≠ 0 → s.portUp .west = true → s.getB P.CAS F.CAS_STAT_ALIGNED = true → s.role ≠ C.SOLO →
      ∃ u, exec (.alignVerify t .west dev) s = .next u ∧ u.reg P.CAS F.CAS_ALIGN_DEV.off = unsx 32 (satS 32 dev) ∧
        bitOf (u.reg P.CAS H.RAW) 6 = decide (s.use P.CAS F.CAS_ALIGN_CFG_DEV_TOL < (satS 32 dev).natAbs)) ∧
    (∀ (dst src : BitVec 6) (ring : Fin 16) (tag : BitVec 16) (ws : List Word64), s.role ≠ C.SOLO → s.enabled P.CAS = true →
      (ws.length = 8 → dst.toNat ≠ s.casAddr → src.toNat ≠ s.casAddr →
        let on := if s.broken then p.onward else .east
        s.portUp on = true → ∃ u, exec (.forwardedCommand t p dst src ring tag false ws) s = .next u ∧
          u.out = s.out ++ [.cmdFlit on dst.toNat ring.val tag.toNat false ws] ∧ u.host = s.host) ∧
      (ws.length = 8 → dst.toNat = s.casAddr → s.poolUsed < 4096 → ∃ u, exec (.forwardedCommand t p dst src ring tag false ws) s = .next u ∧
        u.host.ops.length = s.host.ops.length + 1 ∧ ∃ o ∈ u.host.ops, o.from_ = some src.toNat ∧ o.ring = ring.val) ∧
      (∀ o, ws.length = 2 → dst.toNat = s.casAddr →
        s.host.ops.find? (fun o => o.from_.isNone && o.ring == ring.val && o.tag == tag.toNat && o.target == src.toNat && !o.ended) = some o →
        ∃ u, exec (.forwardedCommand t p dst src ring tag true ws) s = .next u ∧ EndedAs u o.id (bits (ws.headD 0).toNat 23 16)) ∧
      (ws.length ≠ 8 → exec (.forwardedCommand t p dst src ring tag false ws) s = .fault .illFormed))

/-- O55 (R430; R431; R437; R438; R439; R442; R443; R488). On an enabled page. PAIR judged while a pairing waits makes the state PAIRED, or
FAILED with the first cause that holds; NO_LINK fails it with cause 4 after 1 s. SEAM_SPAN_END advances TWN_STAT.SPAN, and outside
DUPLEX detaches or enters DUPLEX where due. SUMMARY of a seamed stream is kept until this side's span ends, and compared then:
skipped, or agreed and counted. THIN sets the primary's step at its named slot, or counted late at the next grid point. SAFE_TOKEN
sends a pair ALONE and latches TWIN_SAFE; DETACH takes effect at the span's end and is sent when written; CLEAR_TOKEN clears the
partner's SAFE. TWIN_RESYNC ends BAD_PARAM without EN and MODE, OK in DUPLEX, and else pairs anew. -/
def Obligations.TwinPairsAndSpans : Prop :=
  ∀ (s : State) (t : Nat) (k : Token), s.Canon → s.enabled P.TWN = true →
    let w := k.w0.toNat
    (k.type = TK.SEAM → k.seamKind = 3 → s.useB P.TWN F.TWN_CTL_EN = true →
      (s.twinState = T.PAIRING → s.twin.sent = true → ∃ u, exec (.pair t k) s = .next u ∧ u.twin.kept = none ∧
        (s.pairCause k = 0 → u.twinState = T.PAIRED ∧ u.reg P.TWN F.TWN_PARTNER.off = 2 ^ 31 + k.origin * 2 ^ 24 + bits w 15 0) ∧
        (s.pairCause k ≠ 0 → u.twinState = T.FAILED ∧ u.get P.TWN F.TWN_STAT_CAUSE = s.pairCause k)) ∧
      (s.twinState ∈ [T.PAIRED, T.DUPLEX, T.ALONE] → ∃ u, exec (.pair t k) s = .next u ∧ u.twinState = s.twinState ∧
        u.twin = { s.twin with asked := bitOf w 26 } ∧ (s.portUp .twin = true → ∃ x, .token .twin x ∈ u.out ∧ x.seamKind = 3))) ∧
    (s.twinState = T.PAIRING → s.portUp .twin = false → s.twin.since + msSlots 1000 ≤ t → ∃ u, exec (.noLink t) s = .next u ∧
      u.twinState = T.FAILED ∧ u.get P.TWN F.TWN_STAT_CAUSE = 4) ∧
    (s.portUp .twin = true → exec (.noLink t) s = .next (s.at t)) ∧
    (let len := 2 ^ s.use P.TWN F.TWN_CTL_SEAM_EXP
     let finish := s.aligned t / 8 / len * len
     (finish ≤ s.twin.lastEnd → exec (.seamSpanEnd t) s = .next (s.at t)) ∧
     (s.twin.lastEnd < finish → ∃ u, exec (.seamSpanEnd t) s = .next u ∧ u.get P.TWN F.TWN_STAT_SPAN = (finish / len + 1) % 2 ^ 16 ∧
        u.twin.lastEnd = finish ∧ u.twin.detach = false ∧
        (s.twin.detach = true → s.twinState = T.PAIRED → u.twinState = T.ALONE) ∧
        (s.twin.detach = false → s.twin.maskDue = false → s.duplexDue = true → u.twinState = T.DUPLEX) ∧
        (s.twin.detach = false → s.twin.maskDue = false → s.twinState ≠ T.DUPLEX → s.duplexDue = false → u.twinState = s.twinState))) ∧
    (let finish := unwrapNear (2 ^ 51) ((s.at t).aligned (s.at t).now) (bits k.w3.toNat 50 0) / 8
     let y : SeamSum := { stream := bits w 20 16, finish := finish, a := k.w1.toNat / 2 ^ 32, b := k.w1.toNat % 2 ^ 32,
                          c := sx 64 k.w2.toNat, skip := bitOf w 24 }
     let x := s.ownSum y.stream finish
     k.type = TK.SEAM → k.seamKind = 0 → s.twinState = T.DUPLEX → y.stream < 18 → bitOf (s.use P.TWN F.TWN_CTL_SEAMED) y.stream = true →
      (s.twin.lastEnd < finish → ∃ u, exec (.summary t k) s = .next u ∧ u = { s with now := u.now, seamIn := s.seamIn ++ [y] }) ∧
      (finish ≤ s.twin.lastEnd → s.ownFaults = false →
        ((x.skip || y.skip) = true → ∃ u, exec (.summary t k) s = .next u ∧ CountsBy s u P.TWN F.TWN_SEAM_SKIP_CNT 0 1 ∧
          u.get P.TWN F.TWN_SEAM_CNT = s.get P.TWN F.TWN_SEAM_CNT) ∧
        (x.skip = false → y.skip = false → s.seamAgrees x y = true → ∃ u, exec (.summary t k) s = .next u ∧
          u.get P.TWN F.TWN_SEAM_CNT = (s.get P.TWN F.TWN_SEAM_CNT + 1) % 2 ^ 32 ∧ u.getB P.TWN F.TWN_STAT_DIVERGED = false))) ∧
    (let i := bits w 19 16
     let step := bits w 12 8
     let named := (s.at t).slotOf51 (bits k.w1.toNat 50 0)
     k.type = TK.SEAM → k.seamKind = 1 → s.secondary = true → i < 10 → s.acq.thin.length = 10 →
      (t < named → ∃ u, exec (.thin t k) s = .next u ∧ ((u.acq.thin.getD i { next := none, seen := 0, maxStep := 0 }).next =
          some (step, if i < 8 ∧ s.digMode i = M.TIMING then named else 2 ^ 80 + named)) ∧
        (∀ j < 10, j ≠ i → u.acq.thin[j]? = s.acq.thin[j]?)) ∧
      (named ≤ t → ∃ u, exec (.thin t k) s = .next u ∧ CountsBy s u P.TWN F.TWN_THIN_LATE_CNT 0 1 ∧
        ((u.acq.thin.getD i { next := none, seen := 0, maxStep := 0 }).next = some (step, s.gridPoint i step t)))) ∧
    (k.type = TK.SEAM → k.seamKind = 2 → s.twinState ≠ T.OFF → ∃ u, exec (.safeToken t k) s = .next u ∧ u.twin.partnerSafe = true ∧
      bitOf (u.get P.SAF F.SAF_FAULT_LATCH) Q.TWIN_SAFE = true ∧ (s.paired = true → u.twinState = T.ALONE)) ∧
    (s.paired = true → exec (.detach t none) s = .next { s.at t with twin := { s.twin with detach := true } } ∧
      (∃ u, exec (.detach t (some 1)) s = .next u ∧ u.twin = { s.twin with detach := true } ∧
        (s.portUp .twin = true → ∃ x, .token .twin x ∈ u.out ∧ x.seamKind = 4))) ∧
    (s.paired = false → ∀ o, exec (.detach t o) s = .next (s.at t)) ∧
    (k.type = TK.SEAM → k.seamKind = 5 → exec (.clearToken t k) s = .next { s.at t with twin := { s.twin with partnerSafe := false } }) ∧
    (∀ (r : OpRef) (v : State) (o : HostOp), (s.at t).claim t OP.RESYNC r = some (v, o) → s.twin.resync = none →
      let on := s.useB P.TWN F.TWN_CTL_EN && s.useB P.TWN F.TWN_CTL_MODE
      (on = false → ∃ u, exec (.twinResync t r) s = .next u ∧ EndedAs u o.id ST.BAD_PARAM) ∧
      (on = true → s.portUp .twin = false ∨ s.run = .safe ∨ s.twin.partnerSafe = true → ∃ u, exec (.twinResync t r) s = .next u ∧
        EndedAs u o.id ST.BUSY) ∧
      (on = true → s.portUp .twin = true → s.run ≠ .safe → s.twin.partnerSafe = false →
        (s.twinState = T.DUPLEX → ∃ u, exec (.twinResync t r) s = .next u ∧ EndedAs u o.id ST.OK) ∧
        (s.twinState ≠ T.DUPLEX → s.twin.kept = none → ∃ u, exec (.twinResync t r) s = .next u ∧ u.twin.resync = some o.id ∧
          u.twinState = T.PAIRING ∧ u.getB P.TWN F.TWN_STAT_MASKED = false)))

/-- O56 (R465; R466; R467; R468; R469; R470; R472; R473; R478; R495). VIN_VALID with the standby controller running enables the first rail
and samples the straps; RAIL_GOOD in time enables the next, the fifth starts the module; a rail late, VIN below 8.0 V, V3A below 2.9 V
or 125 °C leave a module in STANDBY whose registers, memories and commands are those of reset. A RAIL outside ±6 % sets its RAIL_BAD
bit, RAIL_IN_WINDOW clears it. VIN_LOW counts entries below 10.8 V, VIN_DIP and VIN_RECOVERY set and clear the dip. SAG sets the
stretch and SAG_RELEASE ends it after HOLD_US. CAP_WINDOW_END raises the stretch above CAP_W, sets CAP_UNMET at the strongest, and
lowers it below CAP_W less HYST_W. THERMAL_READING sets and clears THROT with 5 °C of hysteresis. -/
def Obligations.PowerSequenceAndMonitors : Prop :=
  ∀ (s : State) (t : Nat), s.Canon →
    let cold (u : State) : Prop := u.run = .standby ∧ u.regs = State.reset.regs ∧ SameMemory State.reset u ∧ u.host = State.reset.host ∧
      u.power = { PowerState.empty with stby := u.power.stby, inReset := u.power.inReset } ∧ u.pending = s.pending
    exec (.standbyStart t) s = .next { s.at t with power := { s.power with stby := true } } ∧
    (∀ (root twin : Bool) (hint : BitVec 6),
      (s.power.stby = true → s.power.inReset = false → s.run = .standby → s.power.rails = 0 → ∃ u, exec (.vinValid t root twin hint) s = .next u ∧
        u.power = { s.power with rails := 1, vinAt := t, railAt := t } ∧ u.getB P.GLB F.GLB_STRAP_ROOT = root ∧
        u.get P.GLB F.GLB_STRAP_ADDR_HINT = hint.toNat ∧ u.getB P.TWN F.TWN_STAT_PRIMARY = twin ∧ SameMemory s u ∧ u.run = .standby) ∧
      (s.power.stby = false ∨ s.power.inReset = true → exec (.vinValid t root twin hint) s = .next (s.at t))) ∧
    (1 ≤ s.power.rails → s.power.rails ≤ 5 →
      (t ≤ s.power.railAt + railLimit → ∃ u, exec (.railGood t) s = .next u ∧ u.power.rails = s.power.rails + 1 ∧ u.power.railAt = t ∧
        (s.power.rails = 3 → u.vcapGood = true) ∧ u.run = (if s.power.rails = 5 then .starting else s.run) ∧ SameMemory s u) ∧
      (s.power.railAt + railLimit ≤ t → ∃ u, exec (.railGoodTimeout t) s = .next u ∧ cold u ∧ u.power.stby = s.power.stby) ∧
      (t < s.power.railAt + railLimit → exec (.railGoodTimeout t) s = .next (s.at t))) ∧
    (∀ mv : Nat,
      (mv < 8000 → ∃ u, exec (.vinCollapse t mv) s = .next u ∧ cold u) ∧ (8000 ≤ mv → exec (.vinCollapse t mv) s = .next (s.at t)) ∧
      (mv < 2900 → ∃ u, exec (.v3aLoss t mv) s = .next u ∧ cold u ∧ u.power.stby = false) ∧
      (2900 ≤ mv → exec (.v3aLoss t mv) s = .next (s.at t))) ∧
    (∀ (n : Fin 6) (v : Nat), s.powered = true →
      (railInside n v = false → ∃ u, exec (.rail t n v) s = .next u ∧ bitOf (u.get P.PWR F.PWR_STAT_RAIL_BAD) n = true ∧
        u.get P.PWR F.PWR_RAIL_MV n = v % 2 ^ 16) ∧
      (railInside n v = true → (∃ u, exec (.railInWindow t n v) s = .next u ∧ bitOf (u.get P.PWR F.PWR_STAT_RAIL_BAD) n = false ∧
        u.get P.PWR F.PWR_RAIL_MV n = v % 2 ^ 16) ∧ exec (.rail t n v) s = .next (s.at t))) ∧
    (∀ mv : Nat, s.powered = true → mv < 2 ^ 16 →
      let low (u : State) : Prop := u.get P.PWR F.PWR_VIN = mv ∧ u.getB P.PWR F.PWR_STAT_VIN_LOW = decide (mv < 10800) ∧
        CountsBy s u P.PWR F.PWR_VIN_LOW_CNT 0 (if mv < 10800 ∧ s.getB P.PWR F.PWR_STAT_VIN_LOW = false then 1 else 0)
      (mv < 10800 → ∃ u, exec (.vinLow t mv) s = .next u ∧ low u ∧ u.power.dip = s.power.dip) ∧
      (8000 ≤ mv → mv < 9000 → ∃ u, exec (.vinDip t mv) s = .next u ∧ low u ∧ u.power.dip = true) ∧
      (9000 ≤ mv → ∃ u, exec (.vinRecovery t mv) s = .next u ∧ low u ∧ u.power.dip = false)) ∧
    (∀ (x : Fin 16) (mv vin : Nat), s.powered = true → s.useB P.PWR F.PWR_SAG_CFG_EN = true →
      (mv + s.use P.PWR F.PWR_SAG_CFG_LVL < 800 ∨ vin < s.use P.PWR F.PWR_VIN_CFG_VIN_SAG → ∃ u, exec (.sag t (some (x, mv)) vin) s = .next u ∧
        u.power.sag = true ∧ u.power.heldFrom = some t ∧ CountsBy s u P.PWR F.PWR_SAG_CNT 0 1 ∧ u.getB P.PWR F.PWR_STAT_SAG = true ∧
        u.get P.PWR F.PWR_STAT_STRETCH = u.stretchAsked % 8) ∧
      (800 ≤ mv + s.use P.PWR F.PWR_SAG_CFG_LVL → s.use P.PWR F.PWR_VIN_CFG_VIN_SAG ≤ vin → exec (.sag t (some (x, mv)) vin) s = .next (s.at t))) ∧
    (∀ f, s.power.heldFrom = some f → let due := f + usSlots (s.use P.PWR F.PWR_SAG_CFG_HOLD_US)
      (due ≤ t → ∃ u, exec (.sagRelease t) s = .next u ∧ u.power.sag = false ∧ u.power.heldFrom = none ∧ u.getB P.PWR F.PWR_STAT_SAG = false) ∧
      (t < due → exec (.sagRelease t) s = .next (s.at t))) ∧
    (∀ avg pin iin : Nat, s.powered = true → s.useB P.PWR F.PWR_CAP_CFG_CAP_EN = true →
      let w := 10 * s.use P.PWR F.PWR_CAP_CFG_CAP_W
      let h := 10 * s.use P.PWR F.PWR_CAP_CFG_HYST_W
      ∃ u, exec (.capWindowEnd t avg pin iin) s = .next u ∧
        u.power.cap = (if w < avg then (if s.power.cap = 4 then 4 else s.power.cap + 1) else if avg + h < w then s.power.cap - 1 else s.power.cap) ∧
        (w < avg → s.power.cap = 4 → u.getB P.PWR F.PWR_STAT_CAP_UNMET = true) ∧ (avg ≤ w → u.getB P.PWR F.PWR_STAT_CAP_UNMET = false) ∧
        CountsBy s u P.PWR F.PWR_CAP_RAISE_CNT 0 (if w < avg ∧ s.power.cap ≠ 4 then 1 else 0)) ∧
    (∀ lid tj rails, tj.length = 8 → rails.length = 6 → s.powered = true →
      (2000 ≤ hottest tj → ∃ u, exec (.thermalReading t lid tj rails) s = .next u ∧ cold u ∧ u.power.inReset = true) ∧
      (let onset : Int := 16 * (s.use P.PWR F.PWR_THERM_CFG_THROT_TJ : Int)
       hottest tj < 2000 → ∃ u, exec (.thermalReading t lid tj rails) s = .next u ∧
        u.getB P.PWR F.PWR_STAT_THROT = (if onset ≤ hottest tj then true else if hottest tj < onset - 80 then false
          else s.getB P.PWR F.PWR_STAT_THROT) ∧
        CountsBy s u P.PWR F.PWR_THROT_CNT 0 (if onset ≤ hottest tj ∧ s.getB P.PWR F.PWR_STAT_THROT = false then 1 else 0)))

/-- O57 (R445; R446; R448; R479; R481; R482; R483; R485; R486; R490; R491). MOD_RESET_N and the key of GLB_RESET hold the module in reset,
MODULE_RESET_END ends the cause; another value changes nothing. BOOT goes to authentication with an image that checks, else to
WAIT_IMAGE. IMAGE_AUTHENTICATED, and BOOT_IMAGE of a signed image in GEN, run the firmware; START_DONE ends in READY or SAFE.
FLASH_IMAGE and FLASH_CONFIG of a READY module write the flash with what checks. PCIE_RESET drops the commands in flight and counts;
CPX_HEARTBEAT counts; CORES latches its fault. SEAL_CHECK counts, keeps the pages that fail and raises CONFIG for one that failed
twice. SAF_CLEAR takes its two keys in order with no fault present, and SAFE_EXIT at the next ply start leaves SAFE with the latch
clear. -/
def Obligations.ResetsStartupAndSafety : Prop :=
  ∀ (s : State) (t : Nat), s.Canon →
    let cold (u : State) : Prop := u.run = .standby ∧ u.regs = State.reset.regs ∧ SameMemory State.reset u ∧ u.host = State.reset.host ∧
      u.power = { PowerState.empty with stby := s.power.stby, inReset := true } ∧ u.pending = s.pending
    let step (u : State) (n : Nat) : Prop := u.get P.GLB F.GLB_BOOT_STAT_STEP = n
    let status (u : State) (n : Nat) : Prop := u.get P.CPX F.CPX_MBOX_STATUS_STATUS = n ∧ u.mbox = none
    (∃ u, exec (.modResetN t) s = .next u ∧ cold u) ∧
    (∀ v : Word, (s.powered = true → v.toNat = 0xA55A → ∃ u, exec (.glbReset t v) s = .next u ∧ cold u) ∧
      (v.toNat ≠ 0xA55A → exec (.glbReset t v) s = .next (s.at t))) ∧
    exec (.moduleResetEnd t) s = .next { s.at t with power := { s.power with inReset := false } } ∧
    (∀ rep un link us, us.length = 4 → s.run = .starting → s.start.phase = 1 →
      (∃ u, exec (.boot t none rep un link us) s = .next u ∧ step u 4 ∧ u.start.phase = 3 ∧ u.getB P.GLB F.GLB_BOOT_STAT_NO_FLASH = true) ∧
      (∀ f, let good := f.signed && s.headerOk f.header
        ∃ u, exec (.boot t (some f) rep un link us) s = .next u ∧ step u (if good then 3 else 4) ∧ u.start.phase = (if good then 2 else 3) ∧
          (good = true → u.start.header = f.header) ∧ (good = false → u.getB P.GLB F.GLB_BOOT_STAT_AUTH_FAIL_FLASH = true) ∧
          u.getB P.GLB F.GLB_BOOT_STAT_CFG_BAD = !configOk f.config)) ∧
    (∀ us, (s.start.phase = 2 → ∃ u, exec (.imageAuthenticated t us) s = .next u ∧ step u 5 ∧ u.start.phase = 4 ∧
        u.getB P.CPX F.CPX_STAT_RUNNING = true) ∧
      (s.start.phase ≠ 2 → exec (.imageAuthenticated t us) s = .next (s.at t))) ∧
    (∀ rep un drep bad coefs us, us.length = 5 → coefs.length = 16 → s.run = .starting → s.start.phase = 4 →
      ∃ u, exec (.startDone t rep un drep bad coefs us) s = .next u ∧ step u 9 ∧ u.start.phase = 5 ∧ (u.run = .ready ∨ u.run = .safe) ∧
        (un ≠ 0 → u.run = .safe) ∧ u.get P.CAS F.CAS_EXPECT = s.start.expect % 2 ^ 7) ∧
    (let ofs := s.use P.CPX F.CPX_MBOX_ARG 0
     let len := s.use P.CPX F.CPX_MBOX_ARG 1
     let h := s.genRead ofs 256
     let good := decide (256 + fieldAt h 4 4 ≤ len) && s.headerOk h
     ∀ tag : BitVec 16, s.mbox = none →
      (s.start.phase = 3 → len ≠ 0 → genRange ofs len = true →
        (good = true → ∀ us, ∃ u, exec (.bootImage t tag true us) s = .next u ∧ step u 5 ∧ u.start.phase = 4 ∧ status u ST.OK) ∧
        (∀ us, ∃ u, exec (.bootImage t tag false us) s = .next u ∧ status u ST.AUTH_FAIL ∧ u.start = s.start ∧ SameMemory s u)) ∧
      (s.flashReady = true → len ≠ 0 → genRange ofs len = true → good = true → ∀ same : Bool, ∃ u, exec (.flashImage t tag true same) s = .next u ∧
        .flash (s.get P.GLB F.GLB_IMAGE_OFS) (s.genRead ofs len) ∈ u.out ∧ status u (if same then ST.OK else ST.CHECK_FAIL) ∧
        u.get P.CPX F.CPX_FLASH_PCT = 100 ∧ SameMemory s u) ∧
      (s.flashReady = true → genRange ofs 64 = true → ∃ u, exec (.flashConfig t tag) s = .next u ∧ SameMemory s u ∧
        (configOk (s.genRead ofs 64) = true → .flash 0x1000 (s.genRead ofs 64) ∈ u.out ∧ status u ST.OK) ∧
        (configOk (s.genRead ofs 64) = false → status u ST.BAD_PARAM)) ∧
      (s.flashReady = false → ∃ u, exec (.flashConfig t tag) s = .next u ∧ status u ST.BUSY ∧ SameMemory s u)) ∧
    (∀ link, s.powered = true → s.useB P.GLB F.GLB_CTL_HOST_STOP = false → ∃ u, exec (.pcieReset t link) s = .next u ∧ u.host.ops = [] ∧
      u.msix.masked = [] ∧ u.msix.funcMask = false ∧ u.getB P.HIF F.HIF_LINK_STAT_UP = link.isSome ∧ CountsBy s u P.GLB F.GLB_PCIE_RST_CNT 0 1) ∧
    (∀ busy cores, cores.length = 4 → s.getB P.CPX F.CPX_STAT_RUNNING = true → ∃ u, exec (.cpxHeartbeat t busy cores) s = .next u ∧
      u.get P.CPX F.CPX_HEARTBEAT = (s.get P.CPX F.CPX_HEARTBEAT + 1) % 2 ^ 32 ∧ u.get P.CPX F.CPX_STAT_BUSY = busy.toNat ∧
      (∀ i < 4, u.get P.CPX F.CPX_CORE_UTIL i = (cores.getD i 0).toNat) ∧ OnlyActive (s.at t) u) ∧
    (∀ n : Fin 2, s.powered = true → ∃ u, exec (.cores t n) s = .next u ∧ u.saf.resetNeeded = true ∧
      bitOf (u.get P.SAF F.SAF_FAULT_LATCH) Q.CORES = true ∧
      u.getB P.CPX (if n.val = 0 then F.CPX_STAT_PAIR0_OK else F.CPX_STAT_PAIR1_OK) = false) ∧
    (let fails := (pageMap.map Prod.fst).filter (fun p => s.sealOn p && !s.sealPass p)
     (s.started = true → ∃ u, exec (.sealCheck t) s = .next u ∧ u.saf.failing = fails ∧
        u.get P.SAF F.SAF_SEAL_CHK_CNT = (s.get P.SAF F.SAF_SEAL_CHK_CNT + 1) % 2 ^ 32 ∧
        bitOf (u.get P.SAF F.SAF_FAULT_RAW) Q.CONFIG = fails.any (fun p => s.saf.failing.contains p) ∧
        ((∀ p ∈ fails, p ∉ s.saf.failing) → ∀ i < 4, u.get P.SAF F.SAF_SEAL_FAIL i = 0)) ∧
     (s.started = false → exec (.sealCheck t) s = .next (s.at t))) ∧
    (∀ v : Word, s.run = .safe →
      (v.toNat % 2 ^ 16 = 0xC1EA → exec (.safClear t v) s = .next { s.at t with saf := { s.saf with keyAt := some t } }) ∧
      (∀ x, v.toNat % 2 ^ 16 = 0x3E15 → s.saf.keyAt = some x → t ≤ x + msSlots 1 → s.get P.SAF F.SAF_FAULT_RAW = 0 → s.saf.resetNeeded = false →
        exec (.safClear t v) s = .next { s.at t with saf := { s.saf with keyAt := none, exitAt := some (nextPly t) } }) ∧
      (v.toNat % 2 ^ 16 ≠ 0xC1EA → v.toNat % 2 ^ 16 ≠ 0x3E15 ∨ s.saf.keyAt = none →
        exec (.safClear t v) s = .next { s.at t with saf := { s.saf with keyAt := none } })) ∧
    (∀ p, s.saf.exitAt = some p → s.run = .safe →
      (p ≤ t → ∃ u, exec (.safeExit t) s = .next u ∧ u.run = (if s.isArmed then .armed else .ready) ∧ u.get P.SAF F.SAF_FAULT_LATCH = 0 ∧
        u.reg P.SAF F.SAF_FIRST.off = 0 ∧ u.saf.safeFault = false ∧ u.saf.exitAt = none) ∧
      (t < p → exec (.safeExit t) s = .next (s.at t)))

/-- O58 (R341). For every started module that serves the host, while ACQ_STAT.ARMED and WPROT_EN are 1, BAR4_WRITE of one or more bytes
that all lie inside the active allotment and the installed capacity answers a next state in which no byte of either memory has changed
and DMC_WPROT_CNT is one higher, at its maximum the same; no register but that count and the page's pending events changes. -/
def Obligations.GuardedBar4WritesAreDiscarded : Prop :=
  ∀ (s : State) (t : Nat) (o : BitVec 38) (data : List Byte), s.Canon → s.hostServed = true → s.started = true → s.isArmed = true →
    s.useB P.DMC F.DMC_WPROT_CFG_WPROT_EN = true → data ≠ [] →
    (∀ i < data.length, o.toNat + i < s.deepSize ∧ s.inAllotment (o.toNat + i) = true) →
    ∃ u, exec (.bar4Write t o data false) s = .next u ∧ SameMemory s u ∧ CountsBy s u P.DMC F.DMC_WPROT_CNT 0 1 ∧
      (∀ p q, p ≠ P.HIF → rkey p q ∉ [rkey P.DMC F.DMC_WPROT_CNT.off, rkey P.DMC H.PEND] → u.reg p q = s.reg p q)

/-- O59 (R405). For every started member with CAS_CTL.HINT_CHK = 1 and its ROOT strap low, given its address by ENUM at its WEST port or
by VERIFY at its EAST port: HINT_MISMATCH is set exactly when the straps differ from the address, the address is taken either way, and
no enumeration cause or ROOT_CONFLICT is written. -/
def Obligations.HintMismatchIsShownAndAddressTaken : Prop :=
  ∀ (s : State) (t : Nat) (k : Token), s.Canon → s.enabled P.CAS = true → s.started = true → s.rootStrap = false →
    s.useB P.CAS F.CAS_CTL_HINT_CHK = true → k.type = TK.REG →
    let taken (u : State) : Prop :=
      u.casAddr = k.wave.next ∧
      u.getB P.CAS F.CAS_STAT_HINT_MISMATCH = (k.wave.next != s.get P.GLB F.GLB_STRAP_ADDR_HINT) ∧
      u.get P.CAS F.CAS_ENUM_STAT_CAUSE = s.get P.CAS F.CAS_ENUM_STAT_CAUSE ∧
      u.getB P.CAS F.CAS_STAT_ROOT_CONFLICT = s.getB P.CAS F.CAS_STAT_ROOT_CONFLICT
    (k.regKind = RK.ENUM → k.wave.next ≠ 0 → ∃ u, exec (.enumWave t .west k) s = .next u ∧ taken u) ∧
    (k.regKind = RK.VERIFY → ¬ (s.casAddr ≠ 0 ∧ s.casAddr ≤ k.wave.east) → k.wave.east < k.wave.next →
      ∃ u, exec (.enumVerify t .east k) s = .next u ∧ taken u)
end

