-- ==== Sys2Proof/Laws/Keeps.lean ====
section
/-!
SUPPORT. What every operation of the model keeps: the command queue is untouched, what has been sent stays sent, the count of free
values taken never falls, and the sparse forms (both memories, both register copies) stay canonical.
-/
namespace Sys2Proof.Machine

/-! ### Sparse data -/

section sparse
variable {α : Type} [DecidableEq α] {d : Nat → α}

/-- Every key is above `k`. -/
def above (k : Nat) (m : List (Nat × α)) : Prop := ∀ e ∈ m, k < e.1

theorem swf_cons {k : Nat} {v : α} {m : List (Nat × α)} :
    swf d ((k, v) :: m) = true ↔ v ≠ d k ∧ above k m ∧ swf d m = true := by
  induction m generalizing k v with
  | nil => simp [swf, above]
  | cons e r ih =>
    obtain ⟨k', v'⟩ := e
    have := @ih k' v'
    simp only [swf, Bool.and_eq_true, decide_eq_true_eq]
    rw [this]
    simp only [above, List.mem_cons, forall_eq_or_imp]
    constructor
    · rintro ⟨⟨h1, h2⟩, h3, h4, h5⟩
      exact ⟨h1, ⟨h2, fun e he => Nat.lt_trans h2 (h4 e he)⟩, h3, h4, h5⟩
    · rintro ⟨h1, ⟨h2, _⟩, h3, h4, h5⟩
      exact ⟨⟨h1, h2⟩, h3, h4, h5⟩

omit [DecidableEq α] in
theorem mem_serase {m : List (Nat × α)} {k : Nat} {e : Nat × α} (h : e ∈ serase m k) : e ∈ m := by
  induction m with
  | nil => simp [serase] at h
  | cons x r ih =>
    obtain ⟨a, v⟩ := x
    simp only [serase] at h
    split at h
    · exact List.mem_cons_of_mem _ h
    · split at h
      · exact h
      · rcases List.mem_cons.1 h with h | h
        · exact h ▸ List.mem_cons_self ..
        · exact List.mem_cons_of_mem _ (ih h)

omit [DecidableEq α] in
theorem mem_sinsert {m : List (Nat × α)} {k : Nat} {v : α} {e : Nat × α} (h : e ∈ sinsert m k v) : e = (k, v) ∨ e ∈ m := by
  induction m with
  | nil => simpa [sinsert] using h
  | cons x r ih =>
    obtain ⟨a, w⟩ := x
    simp only [sinsert] at h
    split at h
    · rcases List.mem_cons.1 h with h | h
      · exact .inl h
      · exact .inr h
    · split at h
      · rcases List.mem_cons.1 h with h | h
        · exact .inl h
        · exact .inr (List.mem_cons_of_mem _ h)
      · rcases List.mem_cons.1 h with h | h
        · exact .inr (h ▸ List.mem_cons_self ..)
        · exact (ih h).imp id (List.mem_cons_of_mem _)

theorem swf_serase {m : List (Nat × α)} (k : Nat) (h : swf d m = true) : swf d (serase m k) = true := by
  induction m with
  | nil => rfl
  | cons x r ih =>
    obtain ⟨a, v⟩ := x
    obtain ⟨h1, h2, h3⟩ := swf_cons.1 h
    simp only [serase]
    split
    · exact h3
    · split
      · exact h
      · exact swf_cons.2 ⟨h1, fun e he => h2 e (mem_serase he), ih h3⟩

theorem swf_sinsert {m : List (Nat × α)} {k : Nat} {v : α} (hv : v ≠ d k) (h : swf d m = true) : swf d (sinsert m k v) = true := by
  induction m with
  | nil => simpa [sinsert, swf] using hv
  | cons x r ih =>
    obtain ⟨a, w⟩ := x
    obtain ⟨h1, h2, h3⟩ := swf_cons.1 h
    simp only [sinsert]
    split
    · rename_i hk
      exact swf_cons.2 ⟨hv, fun e he => by
        rcases List.mem_cons.1 he with he | he
        · exact he ▸ hk
        · exact Nat.lt_trans hk (h2 e he), h⟩
    · split
      · rename_i ha
        subst ha
        exact swf_cons.2 ⟨hv, h2, h3⟩
      · refine swf_cons.2 ⟨h1, fun e he => ?_, ih h3⟩
        rcases mem_sinsert he with he | he
        · subst he; show a < k; omega
        · exact h2 e he

/-- Writing a key keeps the canonical form. -/
theorem swf_sset {m : List (Nat × α)} (k : Nat) (v : α) (h : swf d m = true) : swf d (sset d m k v) = true := by
  unfold sset
  split
  · exact swf_serase k h
  · exact swf_sinsert (by assumption) h

/-- Dropping entries keeps the canonical form. -/
theorem swf_filter {m : List (Nat × α)} (p : Nat × α → Bool) (h : swf d m = true) : swf d (m.filter p) = true := by
  induction m with
  | nil => rfl
  | cons x r ih =>
    obtain ⟨a, v⟩ := x
    obtain ⟨h1, h2, h3⟩ := swf_cons.1 h
    simp only [List.filter_cons]
    split
    · exact swf_cons.2 ⟨h1, fun e he => h2 e (List.mem_filter.1 he).1, ih h3⟩
    · exact ih h3

omit [DecidableEq α] in
theorem sget_above {m : List (Nat × α)} {k : Nat} (h : above k m) : sget d m k = d k := by
  induction m with
  | nil => rfl
  | cons x r ih =>
    obtain ⟨a, v⟩ := x
    have : k < a := h _ (List.mem_cons_self ..)
    simp only [sget]
    rw [if_neg (by omega)]
    exact ih (fun e he => h e (List.mem_cons_of_mem _ he))

theorem sget_sinsert (m : List (Nat × α)) (k : Nat) (v : α) (j : Nat) :
    sget d (sinsert m k v) j = if j = k then v else sget d m j := by
  induction m with
  | nil => simp [sinsert, sget, eq_comm]
  | cons x r ih =>
    obtain ⟨a, w⟩ := x
    simp only [sinsert]
    split
    · simp only [sget, eq_comm]
    · split
      · rename_i ha
        subst ha
        simp only [sget]
        by_cases hj : j = a
        · simp [hj]
        · simp [hj, Ne.symm hj]
      · simp only [sget, ih]
        by_cases hj : a = j
        · subst hj; simp; omega
        · simp [hj]

theorem sget_serase {m : List (Nat × α)} (k : Nat) (h : swf d m = true) (j : Nat) :
    sget d (serase m k) j = if j = k then d k else sget d m j := by
  induction m with
  | nil => by_cases hj : j = k <;> simp [serase, sget, hj]
  | cons x r ih =>
    obtain ⟨a, v⟩ := x
    obtain ⟨_, h2, h3⟩ := swf_cons.1 h
    simp only [serase]
    split
    · rename_i ha
      subst ha
      by_cases hj : j = a
      · subst hj; simp [sget_above h2]
      · simp [sget, hj, Ne.symm hj]
    · split
      · rename_i ha hk
        by_cases hj : j = k
        · subst hj
          rw [sget_above (k := j)]
          · simp
          · intro e he
            rcases List.mem_cons.1 he with he | he
            · exact he ▸ hk
            · exact Nat.lt_trans hk (h2 e he)
        · simp [hj]
      · simp only [sget, ih h3]
        by_cases hj : a = j
        · subst hj; simp; omega
        · simp [hj]

/-- Reading back what was written, and every other key as before. -/
theorem sget_sset {m : List (Nat × α)} (k : Nat) (v : α) (h : swf d m = true) (j : Nat) :
    sget d (sset d m k v) j = if j = k then v else sget d m j := by
  unfold sset
  split
  · rename_i hv; rw [sget_serase k h, hv]
  · exact sget_sinsert m k v j

end sparse

/-! ### Memory -/

/-- Writing a byte keeps a memory canonical. -/
theorem Memory.wf_write {m : List Host.Cell} (a : Nat) (b : Byte) (h : Memory.wf m = true) : Memory.wf (Memory.write m a b) = true :=
  swf_sset a b h

/-- Writing bytes keeps a memory canonical. -/
theorem Memory.wf_writeN {m : List Host.Cell} (a : Nat) (bs : List Byte) (h : Memory.wf m = true) :
    Memory.wf (Memory.writeN m a bs) = true := by
  induction bs generalizing m a with
  | nil => exact h
  | cons b r ih => exact ih (a + 1) (Memory.wf_write a b h)

/-- A byte reads back as written, every other byte as before. -/
theorem Memory.read_write {m : List Host.Cell} (a : Nat) (b : Byte) (h : Memory.wf m = true) (j : Nat) :
    Memory.read (Memory.write m a b) j = if j = a then b else Memory.read m j := sget_sset a b h j

/-- Bytes outside those written read as before. -/
theorem Memory.read_writeN_outside {m : List Host.Cell} (a : Nat) (bs : List Byte) (h : Memory.wf m = true) (j : Nat)
    (hj : j < a ∨ a + bs.length ≤ j) : Memory.read (Memory.writeN m a bs) j = Memory.read m j := by
  induction bs generalizing m a with
  | nil => rfl
  | cons b r ih =>
    simp only [List.length_cons] at hj
    simp only [Memory.writeN]
    rw [ih (a + 1) (Memory.wf_write a b h) (by omega), Memory.read_write a b h, if_neg (by omega)]

/-- The bytes written read back. -/
theorem Memory.read_writeN_inside {m : List Host.Cell} (a : Nat) (bs : List Byte) (h : Memory.wf m = true) (i : Nat)
    (hi : i < bs.length) : Memory.read (Memory.writeN m a bs) (a + i) = bs[i] := by
  induction bs generalizing m a i with
  | nil => simp at hi
  | cons b r ih =>
    simp only [Memory.writeN]
    cases i with
    | zero =>
      rw [Memory.read_writeN_outside (a + 1) r (Memory.wf_write a b h) (a + 0) (by omega), Memory.read_write a b h]
      simp
    | succ i =>
      have := ih (a + 1) (Memory.wf_write a b h) i (by simpa using hi)
      rw [show a + (i + 1) = a + 1 + i by omega, this]
      simp

/-! ### The kept facts -/

/-- What an operation that leads from `a` to `b` keeps. -/
def Keeps (a b : State) : Prop :=
  b.pending = a.pending ∧ a.out <+: b.out ∧ a.freeCtr ≤ b.freeCtr ∧ (a.Canon → b.Canon)

/-- `Keeps` of an answer's next state. -/
def KeepsR (a : State) (r : Res) : Prop := ∀ t, r = .next t → Keeps a t
/-- `Keeps` of the state in a pair. -/
def KeepsP {β : Type} (a : State) (r : State × β) : Prop := Keeps a r.1
def KeepsQ {β : Type} (a : State) (r : β × State) : Prop := Keeps a r.2
/-- `Keeps` of an optional state. -/
def KeepsO (a : State) (r : Option State) : Prop := ∀ t, r = some t → Keeps a t
def KeepsOP {β : Type} (a : State) (r : Option (State × β)) : Prop := ∀ t, r = some t → Keeps a t.1

variable {a s t : State}

theorem Keeps.refl (a : State) : Keeps a a := ⟨rfl, List.prefix_rfl, Nat.le_refl _, id⟩
theorem Keeps.trans (h : Keeps a s) (h' : Keeps s t) : Keeps a t :=
  ⟨h'.1.trans h.1, h.2.1.trans h'.2.1, Nat.le_trans h.2.2.1 h'.2.2.1, fun c => h'.2.2.2 (h.2.2.2 c)⟩
theorem Keeps.same (h : Keeps a s) (h1 : t.pending = s.pending) (h2 : t.out = s.out) (h3 : t.freeCtr = s.freeCtr)
    (h4 : t.scratch = s.scratch) (h5 : t.deep = s.deep) (h6 : t.regs.active = s.regs.active) (h7 : t.regs.staged = s.regs.staged) :
    Keeps a t := by
  refine h.trans ⟨h1, h2 ▸ List.prefix_rfl, by omega, fun c => ?_⟩
  unfold State.Canon at *
  rw [h4, h5, h6, h7]
  exact c
theorem Keeps.ite {c : Prop} [Decidable c] (h1 : Keeps a s) (h2 : Keeps a t) : Keeps a (if c then s else t) := by split <;> assumption
theorem Keeps.cond {c : Bool} (h1 : Keeps a s) (h2 : Keeps a t) : Keeps a (bif c then s else t) := by cases c <;> assumption
theorem Keeps.fold {β : Type} {f : State → β → State} {l : List β} (h : Keeps a s) (hf : ∀ s, Keeps a s → ∀ x, Keeps a (f s x)) :
    Keeps a (l.foldl f s) := by
  induction l generalizing s with
  | nil => exact h
  | cons x r ih => exact ih (hf s h x)
theorem State.each_keeps {β : Type} {f : State → β → State} {l : List β} (h : Keeps a s)
    (hf : ∀ s, Keeps a s → ∀ x, Keeps a (f s x)) : Keeps a (s.each l f) := Keeps.fold h hf

theorem KeepsR.next (h : Keeps a s) : KeepsR a (.next s) := fun _ e => by cases e; exact h
theorem KeepsR.out {r : Res} (h : KeepsR a r) (e : r = .next s) : Keeps a s := h _ e
theorem KeepsR.fault {f : Fault} : KeepsR a (.fault f) := fun _ e => by cases e
theorem KeepsR.refused {f : Refusal} : KeepsR a (.refused f) := fun _ e => by cases e
theorem KeepsR.ite {c : Prop} [Decidable c] {x y : Res} (h1 : KeepsR a x) (h2 : KeepsR a y) : KeepsR a (if c then x else y) := by
  split <;> assumption

section
variable {β : Type}
theorem KeepsP.mk {b : β} (h : Keeps a s) : KeepsP a (s, b) := h
theorem KeepsP.out {b : β} {r : State × β} (h : KeepsP a r) (e : r = (s, b)) : Keeps a s := by subst e; exact h
theorem KeepsP.ite {c : Prop} [Decidable c] {x y : State × β} (h1 : KeepsP a x) (h2 : KeepsP a y) : KeepsP a (if c then x else y) := by
  split <;> assumption
theorem KeepsP.fold {γ : Type} {f : State × β → γ → State × β} {l : List γ} {r : State × β} (h : KeepsP a r)
    (hf : ∀ r, KeepsP a r → ∀ x, KeepsP a (f r x)) : KeepsP a (l.foldl f r) := by
  induction l generalizing r with
  | nil => exact h
  | cons x l ih => exact ih (hf r h x)
theorem KeepsQ.mk {b : β} (h : Keeps a s) : KeepsQ a (b, s) := h
theorem KeepsQ.out {b : β} {r : β × State} (h : KeepsQ a r) (e : r = (b, s)) : Keeps a s := by subst e; exact h
theorem KeepsQ.ite {c : Prop} [Decidable c] {x y : β × State} (h1 : KeepsQ a x) (h2 : KeepsQ a y) : KeepsQ a (if c then x else y) := by
  split <;> assumption
theorem KeepsO.some_ (h : Keeps a s) : KeepsO a (some s) := fun _ e => by cases e; exact h
theorem KeepsO.none_ : KeepsO a none := fun _ e => by cases e
theorem KeepsO.out {r : Option State} (h : KeepsO a r) (e : r = some s) : Keeps a s := h _ e
theorem KeepsO.ite {c : Prop} [Decidable c] {x y : Option State} (h1 : KeepsO a x) (h2 : KeepsO a y) :
    KeepsO a (if c then x else y) := by split <;> assumption
theorem KeepsOP.some_ {b : β} (h : Keeps a s) : KeepsOP a (some (s, b)) := fun _ e => by cases e; exact h
theorem KeepsOP.none_ : KeepsOP (β := β) a none := fun _ e => by cases e
theorem KeepsOP.out {b : β} {r : Option (State × β)} (h : KeepsOP a r) (e : r = some (s, b)) : Keeps a s := h _ e
theorem KeepsOP.ite {c : Prop} [Decidable c] {x y : Option (State × β)} (h1 : KeepsOP a x) (h2 : KeepsOP a y) :
    KeepsOP a (if c then x else y) := by split <;> assumption
end

/-! ### The operations that change what is kept -/

theorem State.setReg_keeps (h : Keeps a s) (p o v : Nat) : Keeps a (s.setReg p o v) :=
  h.trans ⟨rfl, List.prefix_rfl, Nat.le_refl _, fun c => ⟨c.1, c.2.1, swf_sset _ _ c.2.2.1, c.2.2.2⟩⟩

theorem State.setStaged_keeps (h : Keeps a s) (p o v : Nat) : Keeps a (s.setStaged p o v) :=
  h.trans ⟨rfl, List.prefix_rfl, Nat.le_refl _, fun c => ⟨c.1, c.2.1, c.2.2.1, swf_sset _ _ c.2.2.2⟩⟩

theorem State.emit_keeps (h : Keeps a s) (o : Output) : Keeps a (s.emit o) :=
  h.trans ⟨rfl, ⟨[o], rfl⟩, Nat.le_refl _, id⟩

theorem State.takeFree_keeps (h : Keeps a s) : KeepsQ a s.takeFree :=
  h.trans ⟨rfl, List.prefix_rfl, Nat.le_succ _, id⟩

theorem State.scrWrite_keeps (h : Keeps a s) (o : Nat) (bs : List Byte) : Keeps a (s.scrWrite o bs) :=
  h.trans ⟨rfl, List.prefix_rfl, Nat.le_refl _, fun c => ⟨Memory.wf_writeN _ _ c.1, c.2.1, c.2.2.1, c.2.2.2⟩⟩

theorem State.dmWrite_keeps (h : Keeps a s) (o : Nat) (bs : List Byte) : Keeps a (s.dmWrite o bs) :=
  h.trans ⟨rfl, List.prefix_rfl, Nat.le_refl _, fun c => ⟨c.1, Memory.wf_writeN _ _ c.2.1, c.2.2.1, c.2.2.2⟩⟩

end Sys2Proof.Machine
end

