-- ==== Sys2Proof/Laws/KeepsOps.lean ====
section
/-!
SUPPORT. What the operations of Machine/Ops.lean keep (see Laws/Keeps.lean).
-/
namespace Sys2Proof.Machine
variable {a s : State}

theorem State.put_keeps (h : Keeps a s) (y2) (y3) (y4) (y5) : Keeps a (State.put s y2 y3 y4 y5) := by
  unfold State.put
  exact (State.setReg_keeps h _ _ _)

theorem State.putB_keeps (h : Keeps a s) (y2) (y3) (y4) (y5) : Keeps a (State.putB s y2 y3 y4 y5) := by
  unfold State.putB
  exact (State.put_keeps h _ _ _ _)

theorem State.put64_keeps (h : Keeps a s) (y2) (y3) (y4) (y5) (y6) : Keeps a (State.put64 s y2 y3 y4 y5 y6) := by
  unfold State.put64
  exact (State.put_keeps (State.put_keeps h _ _ _ _) _ _ _ _)

theorem State.sat_keeps (h : Keeps a s) (y2) (y3) (y4) (y5) : Keeps a (State.sat s y2 y3 y4 y5) := by
  unfold State.sat
  exact (State.put_keeps h _ _ _ _)

theorem State.wrap_keeps (h : Keeps a s) (y2) (y3) (y4) (y5) : Keeps a (State.wrap s y2 y3 y4 y5) := by
  unfold State.wrap
  exact (State.put_keeps h _ _ _ _)

theorem State.wrap64_keeps (h : Keeps a s) (y2) (y3) (y4) (y5) : Keeps a (State.wrap64 s y2 y3 y4 y5) := by
  unfold State.wrap64
  exact (State.put64_keeps h _ _ _ _ _)

theorem State.clearAll_keeps (h : Keeps a s) (y2) (y3) : Keeps a (State.clearAll s y2 y3) := by
  unfold State.clearAll
  exact (Keeps.fold h fun _ h1 _ => (Keeps.fold h1 fun _ h2 _ => (State.put_keeps h2 _ _ _ _)))

theorem State.setBlockState_keeps (h : Keeps a s) (y2) (y3) : Keeps a (State.setBlockState s y2 y3) := by
  unfold State.setBlockState
  exact (State.setReg_keeps h _ _ _)

theorem State.setBusy_keeps (h : Keeps a s) (y2) (y3) : Keeps a (State.setBusy s y2 y3) := by
  unfold State.setBusy
  exact (State.setReg_keeps h _ _ _)

theorem State.at_keeps (h : Keeps a s) (y2) : Keeps a (State.at s y2) := by
  unfold State.at
  exact (Keeps.same h rfl rfl rfl rfl rfl rfl rfl)

theorem State.msixSend_keeps (h : Keeps a s) (y2) : Keeps a (State.msixSend s y2) := by
  unfold State.msixSend
  exact (Keeps.ite (Keeps.ite h (Keeps.same h rfl rfl rfl rfl rfl rfl rfl)) (State.emit_keeps h _))

theorem State.irqRequest_keeps (h : Keeps a s) (y2) : Keeps a (State.irqRequest s y2) := by
  unfold State.irqRequest
  extract_lets -underBinder -merge +onlyGivenNames x1
  clear_value x1
  extract_lets -underBinder -merge +onlyGivenNames x2
  clear_value x2
  exact (Keeps.ite (State.msixSend_keeps h _) h)

theorem State.latch_keeps (h : Keeps a s) (y2) (y3) : Keeps a (State.latch s y2 y3) := by
  unfold State.latch
  extract_lets -underBinder -merge +onlyGivenNames x1
  clear_value x1
  refine Keeps.ite ?_ ?_
  · exact h
  · extract_lets -underBinder -merge +onlyGivenNames x2
    have h2 : Keeps a x2 := (State.setReg_keeps h _ _ _)
    clear_value x2
    exact (Keeps.ite (State.irqRequest_keeps h2 _) h2)

theorem State.pulse_keeps (h : Keeps a s) (y2) (y3) : Keeps a (State.pulse s y2 y3) := by
  unfold State.pulse
  exact (Keeps.ite (State.latch_keeps h _ _) h)

theorem State.level_keeps (h : Keeps a s) (y2) (y3) (y4) : Keeps a (State.level s y2 y3 y4) := by
  unfold State.level
  extract_lets -underBinder -merge +onlyGivenNames x1
  clear_value x1
  extract_lets -underBinder -merge +onlyGivenNames x2
  have h2 : Keeps a x2 := (State.setReg_keeps h _ _ _)
  clear_value x2
  exact (Keeps.ite (State.pulse_keeps h2 _ _) h2)

theorem State.levelHdr_keeps (h : Keeps a s) (y2) (y3) (y4) : Keeps a (State.levelHdr s y2 y3 y4) := by
  unfold State.levelHdr
  extract_lets -underBinder -merge +onlyGivenNames x1
  clear_value x1
  extract_lets -underBinder -merge +onlyGivenNames x2
  have h2 : Keeps a x2 := (State.setReg_keeps h _ _ _)
  clear_value x2
  exact (Keeps.ite (State.latch_keeps h2 _ _) h2)

theorem State.modStream_keeps (h : Keeps a s) (y2) (y3) : Keeps a (State.modStream s y2 y3) := by
  unfold State.modStream
  exact (Keeps.same h rfl rfl rfl rfl rfl rfl rfl)

theorem State.modLoop_keeps (h : Keeps a s) (y2) (y3) : Keeps a (State.modLoop s y2 y3) := by
  unfold State.modLoop
  exact (Keeps.same h rfl rfl rfl rfl rfl rfl rfl)

theorem State.modSynth_keeps (h : Keeps a s) (y2) (y3) : Keeps a (State.modSynth s y2 y3) := by
  unfold State.modSynth
  exact (Keeps.same h rfl rfl rfl rfl rfl rfl rfl)

theorem State.modStp_keeps (h : Keeps a s) (y2) (y3) : Keeps a (State.modStp s y2 y3) := by
  unfold State.modStp
  exact (Keeps.same h rfl rfl rfl rfl rfl rfl rfl)

theorem State.modIp_keeps (h : Keeps a s) (y2) (y3) : Keeps a (State.modIp s y2 y3) := by
  unfold State.modIp
  exact (Keeps.same h rfl rfl rfl rfl rfl rfl rfl)

theorem State.modFu_keeps (h : Keeps a s) (y2) (y3) : Keeps a (State.modFu s y2 y3) := by
  unfold State.modFu
  exact (Keeps.same h rfl rfl rfl rfl rfl rfl rfl)

theorem State.modConv_keeps (h : Keeps a s) (y2) (y3) : Keeps a (State.modConv s y2 y3) := by
  unfold State.modConv
  exact (Keeps.same h rfl rfl rfl rfl rfl rfl rfl)

theorem State.modIv_keeps (h : Keeps a s) (y2) (y3) : Keeps a (State.modIv s y2 y3) := by
  unfold State.modIv
  exact (Keeps.same h rfl rfl rfl rfl rfl rfl rfl)

theorem State.modAcq_keeps (h : Keeps a s) (y2) : Keeps a (State.modAcq s y2) := by
  unfold State.modAcq
  exact (Keeps.same h rfl rfl rfl rfl rfl rfl rfl)

end Sys2Proof.Machine
end

