-- ==== Sys2Proof/Laws/KeepsStreams.lean ====
section
/-!
SUPPORT. What the operations of Machine/Streams.lean keep (see Laws/Keeps.lean).
-/
namespace Sys2Proof.Machine
variable {a s : State}

theorem State.refreshRfq_keeps (h : Keeps a s) (y2) : Keeps a (State.refreshRfq s y2) := by
  unfold State.refreshRfq
  extract_lets -underBinder -merge +onlyGivenNames x1
  clear_value x1
  extract_lets -underBinder -merge +onlyGivenNames x2
  have h2 : Keeps a x2 := (State.put_keeps h _ _ _ _)
  clear_value x2
  extract_lets -underBinder -merge +onlyGivenNames x3
  have h3 : Keeps a x3 := (State.put_keeps h2 _ _ _ _)
  clear_value x3
  extract_lets -underBinder -merge +onlyGivenNames x4
  have h4 : Keeps a x4 := (State.put_keeps h3 _ _ _ _)
  clear_value x4
  extract_lets -underBinder -merge +onlyGivenNames x5
  have h5 : Keeps a x5 := (State.putB_keeps h4 _ _ _ _)
  clear_value x5
  extract_lets -underBinder -merge +onlyGivenNames x6
  have h6 : Keeps a x6 := (State.putB_keeps h5 _ _ _ _)
  clear_value x6
  extract_lets -underBinder -merge +onlyGivenNames x7
  have h7 : Keeps a x7 := (State.put_keeps h6 _ _ _ _)
  clear_value x7
  extract_lets -underBinder -merge +onlyGivenNames x8
  clear_value x8
  extract_lets -underBinder -merge +onlyGivenNames x9
  clear_value x9
  extract_lets -underBinder -merge +onlyGivenNames x10
  have h10 : Keeps a x10 := (State.level_keeps h7 _ _ _)
  clear_value x10
  exact (State.level_keeps h10 _ _ _)

theorem State.setStall_keeps (h : Keeps a s) (y2) (y3) : Keeps a (State.setStall s y2 y3) := by
  unfold State.setStall
  exact (State.put_keeps h _ _ _ _)

theorem State.ringWrite_keeps (h : Keeps a s) (y2) (y3) : KeepsP a (State.ringWrite s y2 y3) := by
  unfold State.ringWrite
  split
  · extract_lets -underBinder -merge +onlyGivenNames x3
    clear_value x3
    extract_lets -underBinder -merge +onlyGivenNames x4
    clear_value x4
    refine KeepsP.ite ?_ ?_
    · exact (KeepsP.mk h)
    · extract_lets -underBinder -merge +onlyGivenNames x5
      clear_value x5
      extract_lets -underBinder -merge +onlyGivenNames x6
      have h6 : Keeps a x6 := (Keeps.ite h (State.dmWrite_keeps h _ _))
      clear_value x6
      extract_lets -underBinder -merge +onlyGivenNames x7
      clear_value x7
      extract_lets -underBinder -merge +onlyGivenNames x8
      have h8 : Keeps a x8 := (State.each_keeps h6 fun _ h9 _ => (State.dmWrite_keeps h9 _ _))
      clear_value x8
      extract_lets -underBinder -merge +onlyGivenNames x10
      clear_value x10
      extract_lets -underBinder -merge +onlyGivenNames x11
      have h11 : Keeps a x11 := (State.dmWrite_keeps h8 _ _)
      clear_value x11
      extract_lets -underBinder -merge +onlyGivenNames x12
      have h12 : Keeps a x12 := (State.dmWrite_keeps h11 _ _)
      clear_value x12
      exact (KeepsP.mk (State.modStream_keeps h12 _ _))

theorem State.closeChunk_keeps (h : Keeps a s) (y2) (y3) : Keeps a (State.closeChunk s y2 y3) := by
  unfold State.closeChunk
  extract_lets -underBinder -merge +onlyGivenNames x1
  clear_value x1
  split
  · exact h
  · refine Keeps.ite ?_ ?_
    · exact h
    · extract_lets -underBinder -merge +onlyGivenNames x4
      clear_value x4
      extract_lets -underBinder -merge +onlyGivenNames x5
      have h5 : Keeps a x5 := (State.wrap_keeps h _ _ _ _)
      clear_value x5
      extract_lets -underBinder -merge +onlyGivenNames x6
      have h6 : Keeps a x6 := (State.modStream_keeps h5 _ _)
      clear_value x6
      extract_lets -underBinder -merge +onlyGivenNames x7
      have h7 : Keeps a x7 := (Keeps.ite (State.modAcq_keeps h6 _) h6)
      clear_value x7
      extract_lets -underBinder -merge +onlyGivenNames x8
      have h8 : Keeps a x8 := (State.scrWrite_keeps h7 _ _)
      clear_value x8
      extract_lets -underBinder -merge +onlyGivenNames x9
      have h9 : Keeps a x9 := (Keeps.ite (State.ringWrite_keeps h7 _ _) (State.modStream_keeps h8 _ _))
      clear_value x9
      exact (State.refreshRfq_keeps h9 _)

theorem State.openChunk_keeps (h : Keeps a s) (y2) (y3) : Keeps a (State.openChunk s y2 y3) := by
  unfold State.openChunk
  split
  · extract_lets -underBinder -merge +onlyGivenNames x3
    clear_value x3
    extract_lets -underBinder -merge +onlyGivenNames x4
    clear_value x4
    extract_lets -underBinder -merge +onlyGivenNames x5
    clear_value x5
    exact (State.modStream_keeps h _ _)

theorem State.note_keeps (h : Keeps a s) (y2) (y3) (y4) (y5) (y6) : Keeps a (State.note s y2 y3 y4 y5 y6) := by
  unfold State.note
  exact (Keeps.ite (Keeps.same h rfl rfl rfl rfl rfl rfl rfl) h)

theorem State.stageItem_keeps (h : Keeps a s) (y2) (y3) : Keeps a (State.stageItem s y2 y3) := by
  unfold State.stageItem
  extract_lets -underBinder -merge +onlyGivenNames x1
  clear_value x1
  extract_lets -underBinder -merge +onlyGivenNames x2
  clear_value x2
  extract_lets -underBinder -merge +onlyGivenNames x3
  have h3 : Keeps a x3 := (State.setStall_keeps h _ _)
  clear_value x3
  refine Keeps.ite ?_ ?_
  · exact (State.refreshRfq_keeps (State.modStream_keeps h3 _ _) _)
  · refine Keeps.ite ?_ ?_
    · exact (State.refreshRfq_keeps (State.pulse_keeps (State.sat_keeps h3 _ _ _ _) _ _) _)
    · refine Keeps.ite ?_ ?_
      · extract_lets -underBinder -merge +onlyGivenNames x4
        clear_value x4
        extract_lets -underBinder -merge +onlyGivenNames x5
        have h5 : Keeps a x5 := (State.pulse_keeps (State.sat_keeps h3 _ _ _ _) _ _)
        clear_value x5
        extract_lets -underBinder -merge +onlyGivenNames x6
        have h6 : Keeps a x6 := (State.note_keeps h5 _ _ _ _ _)
        clear_value x6
        extract_lets -underBinder -merge +onlyGivenNames x7
        have h7 : Keeps a x7 := (Keeps.ite h3 (State.modStream_keeps h6 _ _))
        clear_value x7
        exact (State.refreshRfq_keeps h7 _)
      · exact (State.refreshRfq_keeps h3 _)

theorem State.appendRaw_keeps (h : Keeps a s) (y2) (y3) : Keeps a (State.appendRaw s y2 y3) := by
  unfold State.appendRaw
  refine Keeps.ite ?_ ?_
  · exact h
  · extract_lets -underBinder -merge +onlyGivenNames x1
    clear_value x1
    extract_lets -underBinder -merge +onlyGivenNames x2
    have h2 : ∀ u0, Keeps a u0 → Keeps a (x2 u0) := by
      intro u0 k2
      subst x2
      beta_reduce
      extract_lets -underBinder -merge +onlyGivenNames x3
      have h3 : Keeps a x3 := (State.modStream_keeps k2 _ _)
      clear_value x3
      exact (Keeps.ite h3 (State.refreshRfq_keeps h3 _))
    clear_value x2
    extract_lets -underBinder -merge +onlyGivenNames x4
    have h4 : ∀ u0, Keeps a u0 → Keeps a (x4 u0) := by
      intro u0 k4
      subst x4
      beta_reduce
      exact (Keeps.ite (h2 _ (State.openChunk_keeps k4 _ _)) (State.stageItem_keeps k4 _ _))
    clear_value x4
    refine Keeps.ite ?_ ?_
    · exact (State.stageItem_keeps h _ _)
    · split
      · refine Keeps.ite ?_ ?_
        · exact (h2 _ h)
        · extract_lets -underBinder -merge +onlyGivenNames x6
          have h6 : Keeps a x6 := (State.closeChunk_keeps h _ _)
          clear_value x6
          exact (Keeps.ite (State.stageItem_keeps h6 _ _) (h4 _ h6))
      · exact (h4 _ h)

theorem State.recFlag_keeps (h : Keeps a s) (y2) : Keeps a (State.recFlag s y2) := by
  unfold State.recFlag
  exact (Keeps.ite (State.modAcq_keeps h _) h)

end Sys2Proof.Machine
end

