-- ==== Sys2Proof/Laws/KeepsLinks.lean ====
section
/-!
SUPPORT. What the operations of Machine/Links.lean keep (see Laws/Keeps.lean).
-/
namespace Sys2Proof.Machine
variable {a s : State}

theorem State.modFlx_keeps (h : Keeps a s) (y2) (y3) : Keeps a (State.modFlx s y2 y3) := by
  unfold State.modFlx
  exact (Keeps.same h rfl rfl rfl rfl rfl rfl rfl)

theorem State.modCas_keeps (h : Keeps a s) (y2) : Keeps a (State.modCas s y2) := by
  unfold State.modCas
  exact (Keeps.same h rfl rfl rfl rfl rfl rfl rfl)

theorem State.modTwin_keeps (h : Keeps a s) (y2) : Keeps a (State.modTwin s y2) := by
  unfold State.modTwin
  exact (Keeps.same h rfl rfl rfl rfl rfl rfl rfl)

theorem State.sendFlit_keeps (h : Keeps a s) (y2) (y3) : Keeps a (State.sendFlit s y2 y3) := by
  unfold State.sendFlit
  exact (State.emit_keeps (State.modFlx_keeps h _ _) _)

theorem State.putToken_keeps (h : Keeps a s) (y2) (y3) : Keeps a (State.putToken s y2 y3) := by
  unfold State.putToken
  exact (State.sendFlit_keeps (State.wrap_keeps h _ _ _ _) _ _)

theorem State.sendPort_keeps (h : Keeps a s) (y2) (y3) : Keeps a (State.sendPort s y2 y3) := by
  unfold State.sendPort
  exact (Keeps.ite (State.putToken_keeps h _ _) h)

theorem State.sendCmd_keeps (h : Keeps a s) (y2) (y3) (y4) (y5) (y6) : Keeps a (State.sendCmd s y2 y3 y4 y5 y6) := by
  unfold State.sendCmd
  extract_lets -underBinder -merge +onlyGivenNames x1
  have h1 : ∀ u0 u1, Keeps a u0 → Keeps a (x1 u0 u1) := by
    intro u0 u1 k1
    subst x1
    beta_reduce
    exact (Keeps.ite (State.sendFlit_keeps k1 _ _) k1)
  clear_value x1
  exact (Keeps.ite (h1 _ _ (h1 _ _ h)) (h1 _ _ h))

theorem State.sendRing_keeps (h : Keeps a s) (y2) : Keeps a (State.sendRing s y2) := by
  unfold State.sendRing
  exact (Keeps.ite h (Keeps.ite (State.sendPort_keeps (State.sendPort_keeps h _ _) _ _) (State.sendPort_keeps h _ _)))

theorem State.bumpSeq_keeps (h : Keeps a s) (y2) : Keeps a (State.bumpSeq s y2) := by
  unfold State.bumpSeq
  exact (Keeps.same h rfl rfl rfl rfl rfl rfl rfl)

theorem State.broadcast_keeps (h : Keeps a s) (y2) (y3) (y4) (y5) (y6) : Keeps a (State.broadcast s y2 y3 y4 y5 y6) := by
  unfold State.broadcast
  exact (Keeps.ite h (State.bumpSeq_keeps (State.sendRing_keeps h _) _))

theorem State.sendTo_keeps (h : Keeps a s) (y2) (y3) (y4) (y5) (y6) (y7) : Keeps a (State.sendTo s y2 y3 y4 y5 y6 y7) := by
  unfold State.sendTo
  exact (State.bumpSeq_keeps (State.sendRing_keeps h _) _)

theorem State.sendTwin_keeps (h : Keeps a s) (y2) (y3) (y4) (y5) (y6) : Keeps a (State.sendTwin s y2 y3 y4 y5 y6) := by
  unfold State.sendTwin
  exact (Keeps.ite (State.bumpSeq_keeps (State.sendPort_keeps h _ _) _) h)

theorem State.sendSeam_keeps (h : Keeps a s) (y2) (y3) (y4) (y5) (y6) : Keeps a (State.sendSeam s y2 y3 y4 y5 y6) := by
  unfold State.sendSeam
  exact (State.sendTwin_keeps h _ _ _ _ _)

theorem State.relay_keeps (h : Keeps a s) (y2) (y3) : Keeps a (State.relay s y2 y3) := by
  unfold State.relay
  extract_lets -underBinder -merge +onlyGivenNames x1
  clear_value x1
  refine Keeps.ite ?_ ?_
  · exact h
  · extract_lets -underBinder -merge +onlyGivenNames x2
    clear_value x2
    exact (Keeps.ite (State.sendPort_keeps h _ _) (Keeps.ite (State.sendPort_keeps h _ _) h))

end Sys2Proof.Machine
end

