-- ==== Sys2Proof/Laws/KeepsSafe.lean ====
section
/-!
SUPPORT. What the operations of Machine/Safe.lean keep (see Laws/Keeps.lean).
-/
namespace Sys2Proof.Machine
variable {a s : State}

theorem State.modAct_keeps (h : Keeps a s) (y2) (y3) : Keeps a (State.modAct s y2 y3) := by
  unfold State.modAct
  exact (Keeps.same h rfl rfl rfl rfl rfl rfl rfl)

theorem State.driveLands_keeps (h : Keeps a s) (y2) : Keeps a (State.driveLands s y2) := by
  unfold State.driveLands
  refine State.each_keeps h fun _ h2 _ => ?_
  · extract_lets -underBinder -merge +onlyGivenNames x3
    clear_value x3
    exact (Keeps.ite h2 (State.emit_keeps (State.modAct_keeps h2 _ _) _))

theorem State.actState_keeps (h : Keeps a s) : Keeps a (State.actState s) := by
  unfold State.actState
  exact (State.setBlockState_keeps h _ _)

theorem State.setActive_keeps (h : Keeps a s) (y2) (y3) (y4) (y5) : Keeps a (State.setActive s y2 y3 y4 y5) := by
  unfold State.setActive
  extract_lets -underBinder -merge +onlyGivenNames x1
  have h1 : Keeps a x1 := (State.put_keeps h _ _ _ _)
  clear_value x1
  extract_lets -underBinder -merge +onlyGivenNames x2
  have h2 : Keeps a x2 := (State.modAct_keeps h1 _ _)
  clear_value x2
  exact (State.driveLands_keeps (State.actState_keeps (State.level_keeps h2 _ _ _)) _)

theorem State.endActivity_keeps (h : Keeps a s) (y2) (y3) : Keeps a (State.endActivity s y2 y3) := by
  unfold State.endActivity
  exact (State.each_keeps h fun _ h1 _ => (Keeps.ite (State.setActive_keeps h1 _ _ _ _) h1))

theorem State.setTwin_keeps (h : Keeps a s) (y2) : Keeps a (State.setTwin s y2) := by
  unfold State.setTwin
  extract_lets -underBinder -merge +onlyGivenNames x1
  have h1 : Keeps a x1 := (State.setBlockState_keeps (State.put_keeps h _ _ _ _) _ _)
  clear_value x1
  extract_lets -underBinder -merge +onlyGivenNames x2
  have h2 : Keeps a x2 := (Keeps.ite h1 (State.modAcq_keeps h1 _))
  clear_value x2
  extract_lets -underBinder -merge +onlyGivenNames x3
  have h3 : Keeps a x3 := (State.level_keeps h2 _ _ _)
  clear_value x3
  extract_lets -underBinder -merge +onlyGivenNames x4
  have h4 : Keeps a x4 := (State.level_keeps h3 _ _ _)
  clear_value x4
  exact (State.level_keeps h4 _ _ _)

theorem State.goAlone_keeps (h : Keeps a s) : Keeps a (State.goAlone s) := by
  unfold State.goAlone
  exact (Keeps.ite (State.each_keeps (State.setTwin_keeps h _) fun _ h1 _ => (State.putB_keeps h1 _ _ _ _)) h)

theorem State.modSaf_keeps (h : Keeps a s) (y2) : Keeps a (State.modSaf s y2) := by
  unfold State.modSaf
  exact (Keeps.same h rfl rfl rfl rfl rfl rfl rfl)

theorem State.tailMarker_keeps (h : Keeps a s) (y2) (y3) (y4) (y5) (y6) : Keeps a (State.tailMarker s y2 y3 y4 y5 y6) := by
  unfold State.tailMarker
  refine Keeps.ite ?_ ?_
  · exact h
  · extract_lets -underBinder -merge +onlyGivenNames x1
    have h1 : Keeps a x1 := (Keeps.ite (State.openChunk_keeps h _ _) h)
    clear_value x1
    exact (State.modStream_keeps h1 _ _)

theorem State.safeEntry_keeps (h : Keeps a s) (y2) : Keeps a (State.safeEntry s y2) := by
  unfold State.safeEntry
  extract_lets -underBinder -merge +onlyGivenNames x1
  clear_value x1
  extract_lets -underBinder -merge +onlyGivenNames x2
  clear_value x2
  extract_lets -underBinder -merge +onlyGivenNames x3
  have h3 : Keeps a x3 := (State.modSaf_keeps h _)
  clear_value x3
  extract_lets -underBinder -merge +onlyGivenNames x4
  have h4 : Keeps a x4 := (Keeps.same h3 rfl rfl rfl rfl rfl rfl rfl)
  clear_value x4
  extract_lets -underBinder -merge +onlyGivenNames x5
  have h5 : Keeps a x5 := (State.endActivity_keeps h4 _ _)
  clear_value x5
  extract_lets -underBinder -merge +onlyGivenNames x6
  have h6 : Keeps a x6 := (State.actState_keeps (State.driveLands_keeps h5 _))
  clear_value x6
  extract_lets -underBinder -merge +onlyGivenNames x7
  clear_value x7
  extract_lets -underBinder -merge +onlyGivenNames x8
  have h8 : Keeps a x8 := (State.appendRaw_keeps h6 _ _)
  clear_value x8
  extract_lets -underBinder -merge +onlyGivenNames x9
  have h9 : Keeps a x9 := (State.each_keeps h8 fun _ h10 _ => (State.tailMarker_keeps h10 _ _ _ _ _))
  clear_value x9
  extract_lets -underBinder -merge +onlyGivenNames x11
  have h11 : Keeps a x11 := (State.recFlag_keeps h9 _)
  clear_value x11
  extract_lets -underBinder -merge +onlyGivenNames x12
  have h12 : Keeps a x12 := (Keeps.ite (State.goAlone_keeps (State.sendSeam_keeps h11 _ _ _ _ _)) h11)
  clear_value x12
  extract_lets -underBinder -merge +onlyGivenNames x13
  have h13 : Keeps a x13 := (State.setBlockState_keeps (State.sat_keeps h12 _ _ _ _) _ _)
  clear_value x13
  exact (State.level_keeps h13 _ _ _)

theorem State.raiseFault_keeps (h : Keeps a s) (y2) : Keeps a (State.raiseFault s y2) := by
  unfold State.raiseFault
  extract_lets -underBinder -merge +onlyGivenNames x1
  have h1 : Keeps a x1 := (Keeps.ite h (State.setReg_keeps h _ _ _))
  clear_value x1
  extract_lets -underBinder -merge +onlyGivenNames x2
  have h2 : Keeps a x2 := (State.put_keeps h1 _ _ _ _)
  clear_value x2
  extract_lets -underBinder -merge +onlyGivenNames x3
  have h3 : Keeps a x3 := (State.pulse_keeps h2 _ _)
  clear_value x3
  extract_lets -underBinder -merge +onlyGivenNames x4
  have h4 : Keeps a x4 := (Keeps.ite (State.level_keeps (State.modSaf_keeps h3 _) _ _ _) h3)
  clear_value x4
  extract_lets -underBinder -merge +onlyGivenNames x5
  have h5 : Keeps a x5 := (State.modSaf_keeps h4 _)
  clear_value x5
  exact (Keeps.ite (State.safeEntry_keeps h5 _) h5)

theorem State.faultLevel_keeps (h : Keeps a s) (y2) (y3) : Keeps a (State.faultLevel s y2 y3) := by
  unfold State.faultLevel
  extract_lets -underBinder -merge +onlyGivenNames x1
  clear_value x1
  extract_lets -underBinder -merge +onlyGivenNames x2
  have h2 : Keeps a x2 := (State.put_keeps h _ _ _ _)
  clear_value x2
  exact (Keeps.ite (State.raiseFault_keeps h2 _) h2)

theorem State.appendItem_keeps (h : Keeps a s) (y2) (y3) : Keeps a (State.appendItem s y2 y3) := by
  unfold State.appendItem
  extract_lets -underBinder -merge +onlyGivenNames x1
  clear_value x1
  extract_lets -underBinder -merge +onlyGivenNames x2
  have h2 : Keeps a x2 := (State.appendRaw_keeps h _ _)
  clear_value x2
  exact (Keeps.ite h2 (State.raiseFault_keeps h2 _))

end Sys2Proof.Machine
end

