-- ==== Sys2Proof/Laws/KeepsMarkers.lean ====
section
/-!
SUPPORT. What the operations of Machine/Markers.lean keep (see Laws/Keeps.lean).
-/
namespace Sys2Proof.Machine
variable {a s : State}

theorem State.marker_keeps (h : Keeps a s) (y2) (y3) (y4) (y5) (y6) : Keeps a (State.marker s y2 y3 y4 y5 y6) := by
  unfold State.marker
  exact (State.appendItem_keeps h _ _)

theorem State.inband_keeps (h : Keeps a s) (y2) (y3) (y4) (y5) (y6) : Keeps a (State.inband s y2 y3 y4 y5 y6) := by
  unfold State.inband
  refine Keeps.ite ?_ ?_
  · extract_lets -underBinder -merge +onlyGivenNames x1
    clear_value x1
    extract_lets -underBinder -merge +onlyGivenNames x2
    clear_value x2
    extract_lets -underBinder -merge +onlyGivenNames x3
    clear_value x3
    exact (Keeps.ite (State.modStp_keeps h _ _) h)
  · exact (Keeps.ite h (Keeps.ite (State.each_keeps h fun _ h4 _ => (Keeps.ite (State.appendItem_keeps h4 _ _) h4)) (State.tailMarker_keeps h _ _ _ _ _)))

theorem State.markBoth_keeps (h : Keeps a s) (y2) (y3) (y4) (y5) (y6) : Keeps a (State.markBoth s y2 y3 y4 y5 y6) := by
  unfold State.markBoth
  exact (State.each_keeps (State.marker_keeps h _ _ _ _ _) fun _ h1 _ => (State.inband_keeps h1 _ _ _ _ _))

theorem State.seamWith_keeps (h : Keeps a s) (y2) (y3) (y4) : Keeps a (State.seamWith s y2 y3 y4) := by
  unfold State.seamWith
  refine Keeps.ite ?_ ?_
  · exact h
  · extract_lets -underBinder -merge +onlyGivenNames x1
    clear_value x1
    exact (Keeps.ite (Keeps.same h rfl rfl rfl rfl rfl rfl rfl) (Keeps.same h rfl rfl rfl rfl rfl rfl rfl))

theorem State.seamAdd_keeps (h : Keeps a s) (y2) (y3) (y4) (y5) (y6) : Keeps a (State.seamAdd s y2 y3 y4 y5 y6) := by
  unfold State.seamAdd
  exact (State.seamWith_keeps h _ _ _)

theorem State.seamSkip_keeps (h : Keeps a s) (y2) (y3) : Keeps a (State.seamSkip s y2 y3) := by
  unfold State.seamSkip
  exact (State.seamWith_keeps h _ _ _)

theorem State.unpaired_keeps (h : Keeps a s) (y2) (y3) : Keeps a (State.unpaired s y2 y3) := by
  unfold State.unpaired
  extract_lets -underBinder -merge +onlyGivenNames x1
  have h1 : Keeps a x1 := (State.sat_keeps h _ _ _ _)
  clear_value x1
  exact (Keeps.ite (State.note_keeps h1 _ _ _ _ _) h1)

theorem State.dropStarts_keeps (h : Keeps a s) (y2) : Keeps a (State.dropStarts s y2) := by
  unfold State.dropStarts
  extract_lets -underBinder -merge +onlyGivenNames x1
  clear_value x1
  extract_lets -underBinder -merge +onlyGivenNames x2
  have h2 : Keeps a x2 := (State.modIp_keeps h _ _)
  clear_value x2
  exact (State.putB_keeps (Keeps.ite h2 (State.unpaired_keeps h2 _ _)) _ _ _ _)

theorem State.gapOpen_keeps (h : Keeps a s) (y2) (y3) (y4) : Keeps a (State.gapOpen s y2 y3 y4) := by
  unfold State.gapOpen
  exact (State.each_keeps h fun _ h1 _ => (State.modStream_keeps h1 _ _))

theorem State.gapClose_keeps (h : Keeps a s) (y2) (y3) (y4) (y5) : Keeps a (State.gapClose s y2 y3 y4 y5) := by
  unfold State.gapClose
  extract_lets -underBinder -merge +onlyGivenNames x1
  clear_value x1
  extract_lets -underBinder -merge +onlyGivenNames x2
  clear_value x2
  extract_lets -underBinder -merge +onlyGivenNames x3
  have h3 : Keeps a x3 := (Keeps.ite (State.marker_keeps h _ _ _ _ _) h)
  clear_value x3
  extract_lets -underBinder -merge +onlyGivenNames x4
  have h4 : Keeps a x4 := by
    subst x4
    refine State.each_keeps h3 fun _ h7 _ => ?_
    · split
      · exact h7
      · extract_lets -underBinder -merge +onlyGivenNames x10
        have h10 : Keeps a x10 := (State.seamSkip_keeps (State.modStream_keeps h7 _ _) _ _)
        clear_value x10
        extract_lets -underBinder -merge +onlyGivenNames x11
        have h11 : Keeps a x11 := (Keeps.ite h10 (State.marker_keeps h10 _ _ _ _ _))
        clear_value x11
        exact (State.inband_keeps h11 _ _ _ _ _)
  clear_value x4
  refine Keeps.ite ?_ ?_
  · exact h4
  · extract_lets -underBinder -merge +onlyGivenNames x12
    have h12 : Keeps a x12 := (State.recFlag_keeps h4 _)
    clear_value x12
    exact (Keeps.ite (State.note_keeps h12 _ _ _ _ _) (State.each_keeps h12 fun _ h13 _ => (State.note_keeps h13 _ _ _ _ _)))

theorem State.ivFlagAll_keeps (h : Keeps a s) (y2) : Keeps a (State.ivFlagAll s y2) := by
  unfold State.ivFlagAll
  exact (State.each_keeps h fun _ h1 _ => (State.modIv_keeps h1 _ _))

theorem State.ivFlagLoop_keeps (h : Keeps a s) (y2) (y3) : Keeps a (State.ivFlagLoop s y2 y3) := by
  unfold State.ivFlagLoop
  exact (State.each_keeps h fun _ h1 _ => (State.modIv_keeps h1 _ _))

theorem State.ivCutLoop_keeps (h : Keeps a s) (y2) (y3) : Keeps a (State.ivCutLoop s y2 y3) := by
  unfold State.ivCutLoop
  exact (State.each_keeps h fun _ h1 _ => (State.modIv_keeps h1 _ _))

theorem State.stampGap_keeps (h : Keeps a s) (y2) : Keeps a (State.stampGap s y2) := by
  unfold State.stampGap
  extract_lets -underBinder -merge +onlyGivenNames x1
  clear_value x1
  extract_lets -underBinder -merge +onlyGivenNames x2
  have h2 : Keeps a x2 := by
    subst x2
    refine State.each_keeps h fun _ h5 _ => ?_
    · extract_lets -underBinder -merge +onlyGivenNames x6
      clear_value x6
      exact (Keeps.ite (State.dropStarts_keeps h5 _) h5)
  clear_value x2
  exact (State.each_keeps h2 fun _ h7 _ => (State.modFu_keeps h7 _ _))

end Sys2Proof.Machine
end

