-- ==== Sys2Proof/Laws/KeepsLoops.lean ====
section
/-!
SUPPORT. What the operations of Machine/Loops.lean keep (see Laws/Keeps.lean).
-/
namespace Sys2Proof.Machine
variable {a s : State}

theorem State.setLoopState_keeps (h : Keeps a s) (y2) (y3) : Keeps a (State.setLoopState s y2 y3) := by
  unfold State.setLoopState
  extract_lets -underBinder -merge +onlyGivenNames x1
  clear_value x1
  extract_lets -underBinder -merge +onlyGivenNames x2
  have h2 : Keeps a x2 := (State.setBlockState_keeps h _ _)
  clear_value x2
  extract_lets -underBinder -merge +onlyGivenNames x3
  clear_value x3
  extract_lets -underBinder -merge +onlyGivenNames x4
  have h4 : Keeps a x4 := (State.putB_keeps (State.putB_keeps h2 _ _ _ _) _ _ _ _)
  clear_value x4
  extract_lets -underBinder -merge +onlyGivenNames x5
  have h5 : Keeps a x5 := (Keeps.ite h4 (State.level_keeps (State.putB_keeps (State.modLoop_keeps h4 _ _) _ _ _ _) _ _ _))
  clear_value x5
  extract_lets -underBinder -merge +onlyGivenNames x6
  have h6 : Keeps a x6 := (State.level_keeps h5 _ _ _)
  clear_value x6
  extract_lets -underBinder -merge +onlyGivenNames x7
  have h7 : Keeps a x7 := (State.level_keeps h6 _ _ _)
  clear_value x7
  exact (State.level_keeps h7 _ _ _)

theorem State.mapEntry_keeps (h : Keeps a s) (y2) (y3) (y4) (y5) (y6) : Keeps a (State.mapEntry s y2 y3 y4 y5 y6) := by
  unfold State.mapEntry
  extract_lets -underBinder -merge +onlyGivenNames x1
  clear_value x1
  extract_lets -underBinder -merge +onlyGivenNames x2
  have h2 : Keeps a x2 := (Keeps.ite h (State.note_keeps h _ _ _ _ _))
  clear_value x2
  extract_lets -underBinder -merge +onlyGivenNames x3
  have h3 : Keeps a x3 := (Keeps.ite (State.appendItem_keeps h2 _ _) h2)
  clear_value x3
  refine Keeps.ite ?_ ?_
  · extract_lets -underBinder -merge +onlyGivenNames x4
    clear_value x4
    exact (State.broadcast_keeps h3 _ _ _ _ _)
  · exact h3

theorem State.setLoopRate_keeps (h : Keeps a s) (y2) (y3) (y4) : Keeps a (State.setLoopRate s y2 y3 y4) := by
  unfold State.setLoopRate
  exact (Keeps.ite h (State.mapEntry_keeps (State.modLoop_keeps h _ _) _ _ _ _ _))

theorem State.rejectEvent_keeps (h : Keeps a s) (y2) : Keeps a (State.rejectEvent s y2) := by
  unfold State.rejectEvent
  exact (State.pulse_keeps (State.sat_keeps h _ _ _ _) _ _)

theorem State.coastStart_keeps (h : Keeps a s) (y2) (y3) : Keeps a (State.coastStart s y2 y3) := by
  unfold State.coastStart
  extract_lets -underBinder -merge +onlyGivenNames x1
  clear_value x1
  refine Keeps.ite ?_ ?_
  · exact h
  · extract_lets -underBinder -merge +onlyGivenNames x2
    clear_value x2
    extract_lets -underBinder -merge +onlyGivenNames x3
    have h3 : Keeps a x3 := (State.modLoop_keeps h _ _)
    clear_value x3
    extract_lets -underBinder -merge +onlyGivenNames x4
    have h4 : Keeps a x4 := (State.level_keeps (State.putB_keeps h3 _ _ _ _) _ _ _)
    clear_value x4
    extract_lets -underBinder -merge +onlyGivenNames x5
    have h5 : Keeps a x5 := (State.put_keeps (State.setLoopState_keeps h4 _ _) _ _ _ _)
    clear_value x5
    extract_lets -underBinder -merge +onlyGivenNames x6
    have h6 : Keeps a x6 := (State.pulse_keeps (State.sat_keeps h5 _ _ _ _) _ _)
    clear_value x6
    extract_lets -underBinder -merge +onlyGivenNames x7
    have h7 : Keeps a x7 := (State.ivFlagLoop_keeps (State.marker_keeps h6 _ _ _ _ _) _ _)
    clear_value x7
    extract_lets -underBinder -merge +onlyGivenNames x8
    have h8 : Keeps a x8 := (State.mapEntry_keeps h7 _ _ _ _ _)
    clear_value x8
    exact (Keeps.ite (State.level_keeps (State.putB_keeps h8 _ _ _ _) _ _ _) h8)

theorem execCoastOn_keeps (h : Keeps a s) (y1) (y2) : KeepsR a (execCoastOn y1 y2 s) := by
  unfold execCoastOn
  extract_lets -underBinder -merge +onlyGivenNames x1
  have h1 : Keeps a x1 := (State.at_keeps h _)
  clear_value x1
  exact (KeepsR.next (Keeps.ite (State.coastStart_keeps h1 _ _) h1))

theorem execCoastLong_keeps (h : Keeps a s) (y1) (y2) : KeepsR a (execCoastLong y1 y2 s) := by
  unfold execCoastLong
  extract_lets -underBinder -merge +onlyGivenNames x1
  have h1 : Keeps a x1 := (State.at_keeps h _)
  clear_value x1
  exact (KeepsR.next (Keeps.ite (State.level_keeps (State.putB_keeps h1 _ _ _ _) _ _ _) h1))

theorem State.fireAngle_keeps (h : Keeps a s) (y2) (y3) (y4) : Keeps a (State.fireAngle s y2 y3 y4) := by
  unfold State.fireAngle
  extract_lets -underBinder -merge +onlyGivenNames x1
  have h1 : Keeps a x1 := (Keeps.same h rfl rfl rfl rfl rfl rfl rfl)
  exact (Keeps.ite (State.putB_keeps h1 _ _ _ _) h1)

theorem State.passSpc_keeps (h : Keeps a s) (y2) (y3) (y4) (y5) : Keeps a (State.passSpc s y2 y3 y4 y5) := by
  unfold State.passSpc
  refine Keeps.ite ?_ ?_
  · exact h
  · refine State.each_keeps h fun _ h3 _ => ?_
    · extract_lets -underBinder -merge +onlyGivenNames x4
      clear_value x4
      extract_lets -underBinder -merge +onlyGivenNames x5
      clear_value x5
      extract_lets -underBinder -merge +onlyGivenNames x6
      clear_value x6
      refine Keeps.ite ?_ ?_
      · exact h3
      · refine Keeps.ite ?_ ?_
        · exact (State.pulse_keeps (State.sat_keeps h3 _ _ _ _) _ _)
        · extract_lets -underBinder -merge +onlyGivenNames x7
          have h7 : Keeps a x7 := (State.pulse_keeps (State.sat_keeps h3 _ _ _ _) _ _)
          clear_value x7
          exact (Keeps.same h7 rfl rfl rfl rfl rfl rfl rfl)

theorem State.passEvents_keeps (h : Keeps a s) (y2) (y3) (y4) (y5) : Keeps a (State.passEvents s y2 y3 y4 y5) := by
  unfold State.passEvents
  extract_lets -underBinder -merge +onlyGivenNames x1
  have h1 : Keeps a x1 := (State.passSpc_keeps h _ _ _ _)
  clear_value x1
  refine Keeps.ite ?_ ?_
  · exact h1
  · extract_lets -underBinder -merge +onlyGivenNames x2
    clear_value x2
    refine State.each_keeps h1 fun _ h4 _ => ?_
    · extract_lets -underBinder -merge +onlyGivenNames x5
      clear_value x5
      refine Keeps.ite ?_ ?_
      · exact h4
      · refine Keeps.ite ?_ ?_
        · extract_lets -underBinder -merge +onlyGivenNames x6
          have h6 : Keeps a x6 := (State.sat_keeps h4 _ _ _ _)
          clear_value x6
          extract_lets -underBinder -merge +onlyGivenNames x7
          have h7 : Keeps a x7 := (State.pulse_keeps h6 _ _)
          clear_value x7
          exact (Keeps.ite (State.putB_keeps h7 _ _ _ _) h7)
        · extract_lets -underBinder -merge +onlyGivenNames x8
          have h8 : Keeps a x8 := (State.pulse_keeps (State.sat_keeps h4 _ _ _ _) _ _)
          clear_value x8
          extract_lets -underBinder -merge +onlyGivenNames x9
          have h9 : Keeps a x9 := (State.note_keeps h8 _ _ _ _ _)
          clear_value x9
          extract_lets -underBinder -merge +onlyGivenNames x10
          have h10 : Keeps a x10 := (State.fireAngle_keeps h9 _ _ _)
          clear_value x10
          exact (Keeps.ite (State.marker_keeps h10 _ _ _ _ _) h10)

theorem execAngleEventFire_keeps (h : Keeps a s) (y1) (y2) : KeepsR a (execAngleEventFire y1 y2 s) := by
  unfold execAngleEventFire
  extract_lets -underBinder -merge +onlyGivenNames x1
  have h1 : Keeps a x1 := (State.at_keeps h _)
  clear_value x1
  exact (KeepsR.next (Keeps.ite (State.fireAngle_keeps h1 _ _ _) h1))

theorem State.holdStart_keeps (h : Keeps a s) (y2) (y3) : Keeps a (State.holdStart s y2 y3) := by
  unfold State.holdStart
  extract_lets -underBinder -merge +onlyGivenNames x1
  have h1 : Keeps a x1 := (State.modLoop_keeps h _ _)
  clear_value x1
  exact (State.ivFlagLoop_keeps (State.setLoopState_keeps (State.sat_keeps h1 _ _ _ _) _ _) _ _)

theorem State.applyDelta_keeps (h : Keeps a s) (y2) (y3) (y4) : Keeps a (State.applyDelta s y2 y3 y4) := by
  unfold State.applyDelta
  extract_lets -underBinder -merge +onlyGivenNames x1
  clear_value x1
  extract_lets -underBinder -merge +onlyGivenNames x2
  clear_value x2
  extract_lets -underBinder -merge +onlyGivenNames x3
  clear_value x3
  extract_lets -underBinder -merge +onlyGivenNames x4
  clear_value x4
  refine Keeps.ite ?_ ?_
  · extract_lets -underBinder -merge +onlyGivenNames x5
    have h5 : Keeps a x5 := (State.marker_keeps h _ _ _ _ _)
    clear_value x5
    exact (State.mapEntry_keeps (State.holdStart_keeps h5 _ _) _ _ _ _ _)
  · refine Keeps.ite ?_ ?_
    · extract_lets -underBinder -merge +onlyGivenNames x6
      clear_value x6
      extract_lets -underBinder -merge +onlyGivenNames x7
      have h7 : Keeps a x7 := (State.modLoop_keeps h _ _)
      clear_value x7
      extract_lets -underBinder -merge +onlyGivenNames x8
      have h8 : Keeps a x8 := (State.pulse_keeps (State.sat_keeps h7 _ _ _ _) _ _)
      clear_value x8
      extract_lets -underBinder -merge +onlyGivenNames x9
      have h9 : Keeps a x9 := (State.setLoopState_keeps h8 _ _)
      clear_value x9
      extract_lets -underBinder -merge +onlyGivenNames x10
      have h10 : Keeps a x10 := (State.mapEntry_keeps (State.marker_keeps h9 _ _ _ _ _) _ _ _ _ _)
      clear_value x10
      exact (State.passEvents_keeps h10 _ _ _ _)
    · extract_lets -underBinder -merge +onlyGivenNames x11
      have h11 : Keeps a x11 := (State.setLoopState_keeps h _ _)
      clear_value x11
      exact (State.setLoopRate_keeps h11 _ _ _)

theorem State.noteDelta_keeps (h : Keeps a s) (y2) (y3) (y4) : Keeps a (State.noteDelta s y2 y3 y4) := by
  unfold State.noteDelta
  exact (State.modLoop_keeps (State.put_keeps h _ _ _ _) _ _)

theorem State.returned_keeps (h : Keeps a s) (y2) (y3) (y4) (y5) : Keeps a (State.returned s y2 y3 y4 y5) := by
  unfold State.returned
  extract_lets -underBinder -merge +onlyGivenNames x1
  clear_value x1
  extract_lets -underBinder -merge +onlyGivenNames x2
  have h2 : Keeps a x2 := (State.noteDelta_keeps h _ _ _)
  clear_value x2
  extract_lets -underBinder -merge +onlyGivenNames x3
  have h3 : Keeps a x3 := (State.modLoop_keeps h2 _ _)
  clear_value x3
  extract_lets -underBinder -merge +onlyGivenNames x4
  have h4 : Keeps a x4 := (State.setLoopState_keeps h3 _ _)
  clear_value x4
  extract_lets -underBinder -merge +onlyGivenNames x5
  have h5 : Keeps a x5 := (State.marker_keeps h4 _ _ _ _ _)
  clear_value x5
  extract_lets -underBinder -merge +onlyGivenNames x6
  have h6 : Keeps a x6 := (State.mapEntry_keeps h5 _ _ _ _ _)
  clear_value x6
  exact (State.applyDelta_keeps h6 _ _ _)

theorem State.loopUpdate_keeps (h : Keeps a s) (y2) (y3) (y4) : Keeps a (State.loopUpdate s y2 y3 y4) := by
  unfold State.loopUpdate
  extract_lets -underBinder -merge +onlyGivenNames x1
  clear_value x1
  extract_lets -underBinder -merge +onlyGivenNames x2
  clear_value x2
  extract_lets -underBinder -merge +onlyGivenNames x3
  clear_value x3
  extract_lets -underBinder -merge +onlyGivenNames x4
  clear_value x4
  split
  · extract_lets -underBinder -merge +onlyGivenNames x7
    have h7 : Keeps a x7 := (State.modLoop_keeps h _ _)
    clear_value x7
    extract_lets -underBinder -merge +onlyGivenNames x8
    have h8 : Keeps a x8 := (State.put_keeps h7 _ _ _ _)
    clear_value x8
    extract_lets -underBinder -merge +onlyGivenNames x9
    have h9 : Keeps a x9 := (State.setLoopRate_keeps h8 _ _ _)
    clear_value x9
    refine Keeps.ite ?_ ?_
    · extract_lets -underBinder -merge +onlyGivenNames x10
      clear_value x10
      extract_lets -underBinder -merge +onlyGivenNames x11
      have h11 : Keeps a x11 := (State.put_keeps (State.modLoop_keeps h9 _ _) _ _ _ _)
      clear_value x11
      extract_lets -underBinder -merge +onlyGivenNames x12
      have h12 : Keeps a x12 := (Keeps.ite (State.setLoopState_keeps h11 _ _) h11)
      clear_value x12
      exact (Keeps.ite (State.setLoopState_keeps (State.putB_keeps (State.sat_keeps h12 _ _ _ _) _ _ _ _) _ _) h12)
    · extract_lets -underBinder -merge +onlyGivenNames x13
      have h13 : Keeps a x13 := (State.put_keeps (State.modLoop_keeps h9 _ _) _ _ _ _)
      clear_value x13
      exact (Keeps.ite (State.setLoopState_keeps h13 _ _) h13)

theorem State.firstPlace_keeps (h : Keeps a s) (y2) (y3) (y4) (y5) : Keeps a (State.firstPlace s y2 y3 y4 y5) := by
  unfold State.firstPlace
  extract_lets -underBinder -merge +onlyGivenNames x1
  clear_value x1
  extract_lets -underBinder -merge +onlyGivenNames x2
  clear_value x2
  extract_lets -underBinder -merge +onlyGivenNames x3
  clear_value x3
  extract_lets -underBinder -merge +onlyGivenNames x4
  have h4 : Keeps a x4 := (State.modLoop_keeps h _ _)
  clear_value x4
  extract_lets -underBinder -merge +onlyGivenNames x5
  have h5 : Keeps a x5 := (State.setLoopState_keeps (State.putB_keeps h4 _ _ _ _) _ _)
  clear_value x5
  exact (State.mapEntry_keeps h5 _ _ _ _ _)

theorem State.qualify_keeps (h : Keeps a s) (y2) (y3) (y4) : Keeps a (State.qualify s y2 y3 y4) := by
  unfold State.qualify
  extract_lets -underBinder -merge +onlyGivenNames x1
  clear_value x1
  extract_lets -underBinder -merge +onlyGivenNames x2
  have h2 : ∀ u0, Keeps a u0 → Keeps a (x2 u0) := by
    intro u0 k2
    subst x2
    beta_reduce
    exact (State.modLoop_keeps k2 _ _)
  clear_value x2
  extract_lets -underBinder -merge +onlyGivenNames x3
  have h3 : Keeps a x3 := (Keeps.ite (State.setLoopState_keeps h _ _) h)
  clear_value x3
  split
  · exact (h2 _ h3)
  · exact (Keeps.ite (h2 _ (State.rejectEvent_keeps h3 _)) (Keeps.ite (State.firstPlace_keeps h3 _ _ _ _) (Keeps.ite (h2 _ h3) (State.returned_keeps h3 _ _ _ _))))

theorem State.holdEvent_keeps (h : Keeps a s) (y2) (y3) (y4) : Keeps a (State.holdEvent s y2 y3 y4) := by
  unfold State.holdEvent
  extract_lets -underBinder -merge +onlyGivenNames x1
  clear_value x1
  refine Keeps.ite ?_ ?_
  · exact (State.rejectEvent_keeps h _)
  · extract_lets -underBinder -merge +onlyGivenNames x2
    clear_value x2
    extract_lets -underBinder -merge +onlyGivenNames x3
    clear_value x3
    exact (State.modLoop_keeps h _ _)

theorem State.refEvent_keeps (h : Keeps a s) (y2) (y3) (y4) : Keeps a (State.refEvent s y2 y3 y4) := by
  unfold State.refEvent
  refine Keeps.ite ?_ ?_
  · exact h
  · extract_lets -underBinder -merge +onlyGivenNames x1
    clear_value x1
    split
    · exact h
    · exact (State.qualify_keeps h _ _ _)
    · exact (State.qualify_keeps h _ _ _)
    · exact (State.qualify_keeps h _ _ _)
    · exact (State.holdEvent_keeps h _ _ _)
    · exact (Keeps.ite (State.loopUpdate_keeps h _ _ _) (State.rejectEvent_keeps h _))

theorem execLoopReferenceEvent_keeps (h : Keeps a s) (y1) (y2) : KeepsR a (execLoopReferenceEvent y1 y2 s) := by
  unfold execLoopReferenceEvent
  extract_lets -underBinder -merge +onlyGivenNames x1
  have h1 : Keeps a x1 := (State.at_keeps h _)
  clear_value x1
  refine KeepsR.next ?_
  split
  · split
    · exact (State.refEvent_keeps (State.modLoop_keeps h1 _ _) _ _ _)
    · exact h1
  · split
    · exact (State.refEvent_keeps (State.modLoop_keeps h1 _ _) _ _ _)
    · exact h1
  · exact (Keeps.ite (State.refEvent_keeps h1 _ _ _) h1)
  · exact h1

theorem execHoldEnd_keeps (h : Keeps a s) (y1) (y2) : KeepsR a (execHoldEnd y1 y2 s) := by
  unfold execHoldEnd
  extract_lets -underBinder -merge +onlyGivenNames x1
  have h1 : Keeps a x1 := (State.at_keeps h _)
  clear_value x1
  extract_lets -underBinder -merge +onlyGivenNames x2
  clear_value x2
  refine KeepsR.next ?_
  split
  · refine Keeps.ite ?_ ?_
    · extract_lets -underBinder -merge +onlyGivenNames x4
      have h4 : Keeps a x4 := (State.modLoop_keeps h1 _ _)
      clear_value x4
      exact (State.mapEntry_keeps (State.setLoopState_keeps h4 _ _) _ _ _ _ _)
    · exact h1
  · exact h1

theorem State.encStep_keeps (h : Keeps a s) (y2) (y3) (y4) : Keeps a (State.encStep s y2 y3 y4) := by
  unfold State.encStep
  extract_lets -underBinder -merge +onlyGivenNames x1
  clear_value x1
  extract_lets -underBinder -merge +onlyGivenNames x2
  clear_value x2
  extract_lets -underBinder -merge +onlyGivenNames x3
  clear_value x3
  extract_lets -underBinder -merge +onlyGivenNames x4
  have h4 : Keeps a x4 := (State.modLoop_keeps h _ _)
  clear_value x4
  refine Keeps.ite ?_ ?_
  · extract_lets -underBinder -merge +onlyGivenNames x5
    clear_value x5
    extract_lets -underBinder -merge +onlyGivenNames x6
    have h6 : Keeps a x6 := (State.modLoop_keeps h4 _ _)
    clear_value x6
    extract_lets -underBinder -merge +onlyGivenNames x7
    have h7 : Keeps a x7 := (State.level_keeps (State.putB_keeps h6 _ _ _ _) _ _ _)
    clear_value x7
    exact (State.mapEntry_keeps (State.ivFlagLoop_keeps (State.modLoop_keeps h7 _ _) _ _) _ _ _ _ _)
  · refine Keeps.ite ?_ ?_
    · refine Keeps.ite ?_ ?_
      · extract_lets -underBinder -merge +onlyGivenNames x8
        clear_value x8
        extract_lets -underBinder -merge +onlyGivenNames x9
        have h9 : Keeps a x9 := (State.modLoop_keeps h4 _ _)
        clear_value x9
        extract_lets -underBinder -merge +onlyGivenNames x10
        have h10 : Keeps a x10 := (State.level_keeps (State.putB_keeps h9 _ _ _ _) _ _ _)
        clear_value x10
        exact (State.mapEntry_keeps h10 _ _ _ _ _)
      · exact h4
    · extract_lets -underBinder -merge +onlyGivenNames x11
      clear_value x11
      exact (Keeps.ite (State.refEvent_keeps (State.modLoop_keeps h4 _ _) _ _ _) (State.modLoop_keeps h4 _ _))

theorem execEncoderCount_keeps (h : Keeps a s) (y1) (y2) (y3) (y4) : KeepsR a (execEncoderCount y1 y2 y3 y4 s) := by
  unfold execEncoderCount
  extract_lets -underBinder -merge +onlyGivenNames x1
  have h1 : Keeps a x1 := (State.at_keeps h _)
  clear_value x1
  refine KeepsR.ite ?_ ?_
  · exact (KeepsR.next h1)
  · extract_lets -underBinder -merge +onlyGivenNames x2
    clear_value x2
    extract_lets -underBinder -merge +onlyGivenNames x3
    clear_value x3
    extract_lets -underBinder -merge +onlyGivenNames x4
    have h4 : Keeps a x4 := (State.modLoop_keeps h1 _ _)
    clear_value x4
    refine KeepsR.next ?_
    split
    · exact h4
    · exact (State.rejectEvent_keeps h4 _)
    · exact (State.encStep_keeps h4 _ _ _)

theorem execEncoderIndex_keeps (h : Keeps a s) (y1) (y2) : KeepsR a (execEncoderIndex y1 y2 s) := by
  unfold execEncoderIndex
  extract_lets -underBinder -merge +onlyGivenNames x1
  have h1 : Keeps a x1 := (State.at_keeps h _)
  extract_lets -underBinder -merge +onlyGivenNames x2
  extract_lets -underBinder -merge +onlyGivenNames x3
  refine KeepsR.ite ?_ ?_
  · try clear_value x3
    try clear_value x2
    try clear_value x1
    exact (KeepsR.next h1)
  · try clear_value x3
    try clear_value x2
    try clear_value x1
    extract_lets -underBinder -merge +onlyGivenNames x4
    clear_value x4
    extract_lets -underBinder -merge +onlyGivenNames x5
    have h5 : Keeps a x5 := by
      subst x5
      split
      · exact (Keeps.ite h1 (State.pulse_keeps (State.sat_keeps h1 _ _ _ _) _ _))
      · exact h1
    clear_value x5
    extract_lets -underBinder -merge +onlyGivenNames x8
    have h8 : Keeps a x8 := (State.modLoop_keeps h5 _ _)
    clear_value x8
    extract_lets -underBinder -merge +onlyGivenNames x9
    clear_value x9
    extract_lets -underBinder -merge +onlyGivenNames x10
    clear_value x10
    extract_lets -underBinder -merge +onlyGivenNames x11
    clear_value x11
    refine KeepsR.ite ?_ ?_
    · extract_lets -underBinder -merge +onlyGivenNames x12
      have h12 : Keeps a x12 := (State.modLoop_keeps h8 _ _)
      clear_value x12
      exact (KeepsR.next (State.applyDelta_keeps (State.noteDelta_keeps h12 _ _ _) _ _ _))
    · exact (KeepsR.next h8)

theorem State.plausibility_keeps (h : Keeps a s) (y2) (y3) : Keeps a (State.plausibility s y2 y3) := by
  unfold State.plausibility
  extract_lets -underBinder -merge +onlyGivenNames x1
  clear_value x1
  extract_lets -underBinder -merge +onlyGivenNames x2
  clear_value x2
  extract_lets -underBinder -merge +onlyGivenNames x3
  clear_value x3
  extract_lets -underBinder -merge +onlyGivenNames x4
  clear_value x4
  split
  · exact h
  · refine Keeps.ite ?_ ?_
    · exact h
    · extract_lets -underBinder -merge +onlyGivenNames x7
      clear_value x7
      refine Keeps.ite ?_ ?_
      · extract_lets -underBinder -merge +onlyGivenNames x8
        clear_value x8
        extract_lets -underBinder -merge +onlyGivenNames x9
        have h9 : Keeps a x9 := (State.modLoop_keeps h _ _)
        clear_value x9
        exact (Keeps.ite (State.faultLevel_keeps (State.level_keeps (State.putB_keeps h9 _ _ _ _) _ _ _) _ _) h9)
      · extract_lets -underBinder -merge +onlyGivenNames x10
        clear_value x10
        extract_lets -underBinder -merge +onlyGivenNames x11
        have h11 : Keeps a x11 := (State.modLoop_keeps h _ _)
        clear_value x11
        refine Keeps.ite ?_ ?_
        · extract_lets -underBinder -merge +onlyGivenNames x12
          have h12 : Keeps a x12 := (State.level_keeps (State.putB_keeps h11 _ _ _ _) _ _ _)
          clear_value x12
          exact (State.faultLevel_keeps h12 _ _)
        · exact h11

theorem execLoopCycleBoundary_keeps (h : Keeps a s) (y1) (y2) : KeepsR a (execLoopCycleBoundary y1 y2 s) := by
  unfold execLoopCycleBoundary
  extract_lets -underBinder -merge +onlyGivenNames x1
  have h1 : Keeps a x1 := (State.at_keeps h _)
  clear_value x1
  extract_lets -underBinder -merge +onlyGivenNames x2
  clear_value x2
  refine KeepsR.ite ?_ ?_
  · exact (KeepsR.next h1)
  · extract_lets -underBinder -merge +onlyGivenNames x3
    have h3 : Keeps a x3 := (State.mapEntry_keeps h1 _ _ _ _ _)
    clear_value x3
    extract_lets -underBinder -merge +onlyGivenNames x4
    clear_value x4
    extract_lets -underBinder -merge +onlyGivenNames x5
    have h5 : Keeps a x5 := (State.modLoop_keeps h3 _ _)
    clear_value x5
    refine KeepsR.next ?_
    split
    · exact (State.plausibility_keeps h5 _ _)
    · exact h5

theorem execMapPeriodicPoint_keeps (h : Keeps a s) (y1) (y2) : KeepsR a (execMapPeriodicPoint y1 y2 s) := by
  unfold execMapPeriodicPoint
  extract_lets -underBinder -merge +onlyGivenNames x1
  have h1 : Keeps a x1 := (State.at_keeps h _)
  clear_value x1
  extract_lets -underBinder -merge +onlyGivenNames x2
  clear_value x2
  exact (KeepsR.next (Keeps.ite (State.mapEntry_keeps h1 _ _ _ _ _) h1))

theorem State.takeAngle_keeps (h : Keeps a s) (y2) (y3) (y4) : Keeps a (State.takeAngle s y2 y3 y4) := by
  unfold State.takeAngle
  extract_lets -underBinder -merge +onlyGivenNames x1
  clear_value x1
  extract_lets -underBinder -merge +onlyGivenNames x2
  clear_value x2
  extract_lets -underBinder -merge +onlyGivenNames x3
  clear_value x3
  extract_lets -underBinder -merge +onlyGivenNames x4
  clear_value x4
  extract_lets -underBinder -merge +onlyGivenNames x5
  clear_value x5
  extract_lets -underBinder -merge +onlyGivenNames x6
  clear_value x6
  extract_lets -underBinder -merge +onlyGivenNames x7
  clear_value x7
  extract_lets -underBinder -merge +onlyGivenNames x8
  clear_value x8
  extract_lets -underBinder -merge +onlyGivenNames x9
  clear_value x9
  extract_lets -underBinder -merge +onlyGivenNames x10
  have h10 : Keeps a x10 := (State.modLoop_keeps h _ _)
  clear_value x10
  extract_lets -underBinder -merge +onlyGivenNames x11
  clear_value x11
  refine Keeps.ite ?_ ?_
  · extract_lets -underBinder -merge +onlyGivenNames x12
    clear_value x12
    split
    · exact (State.modLoop_keeps (State.setLoopState_keeps h10 _ _) _ _)
    · exact (Keeps.ite (State.modLoop_keeps h10 _ _) (State.returned_keeps h10 _ _ _ _))
  · extract_lets -underBinder -merge +onlyGivenNames x16
    have h16 : Keeps a x16 := (State.modLoop_keeps h10 _ _)
    clear_value x16
    extract_lets -underBinder -merge +onlyGivenNames x17
    have h17 : Keeps a x17 := (Keeps.ite (State.putB_keeps h16 _ _ _ _) h16)
    clear_value x17
    extract_lets -underBinder -merge +onlyGivenNames x18
    have h18 : Keeps a x18 := (State.putB_keeps h17 _ _ _ _)
    clear_value x18
    extract_lets -underBinder -merge +onlyGivenNames x19
    clear_value x19
    refine Keeps.ite ?_ ?_
    · exact (State.mapEntry_keeps (State.setLoopState_keeps (State.modLoop_keeps h18 _ _) _ _) _ _ _ _ _)
    · refine Keeps.ite ?_ ?_
      · extract_lets -underBinder -merge +onlyGivenNames x20
        have h20 : Keeps a x20 := (State.holdStart_keeps h18 _ _)
        clear_value x20
        extract_lets -underBinder -merge +onlyGivenNames x21
        have h21 : Keeps a x21 := (Keeps.ite h20 (State.sat_keeps h20 _ _ _ _))
        clear_value x21
        exact (State.mapEntry_keeps h21 _ _ _ _ _)
      · extract_lets -underBinder -merge +onlyGivenNames x22
        have h22 : Keeps a x22 := (State.modLoop_keeps h18 _ _)
        clear_value x22
        extract_lets -underBinder -merge +onlyGivenNames x23
        have h23 : Keeps a x23 := (State.setLoopState_keeps h22 _ _)
        clear_value x23
        extract_lets -underBinder -merge +onlyGivenNames x24
        clear_value x24
        extract_lets -underBinder -merge +onlyGivenNames x25
        have h25 : Keeps a x25 := by
          subst x25
          split
          · extract_lets -underBinder -merge +onlyGivenNames x27
            have h27 : Keeps a x27 := (State.pulse_keeps (State.sat_keeps h23 _ _ _ _) _ _)
            clear_value x27
            extract_lets -underBinder -merge +onlyGivenNames x28
            have h28 : Keeps a x28 := (State.mapEntry_keeps (State.marker_keeps h27 _ _ _ _ _) _ _ _ _ _)
            clear_value x28
            exact (State.passEvents_keeps h28 _ _ _ _)
          · exact (State.mapEntry_keeps (State.marker_keeps h23 _ _ _ _ _) _ _ _ _ _)
          · exact (State.mapEntry_keeps (State.marker_keeps h23 _ _ _ _ _) _ _ _ _ _)
          · exact h23
        clear_value x25
        exact (Keeps.ite (Keeps.ite h25 (State.mapEntry_keeps h25 _ _ _ _ _)) (State.passEvents_keeps (State.mapEntry_keeps (State.sat_keeps h25 _ _ _ _) _ _ _ _ _) _ _ _ _))

theorem State.angleTok_keeps (h : Keeps a s) (y2) (y3) (y4) : Keeps a (State.angleTok s y2 y3 y4) := by
  unfold State.angleTok
  extract_lets -underBinder -merge +onlyGivenNames x1
  have h1 : Keeps a x1 := (State.relay_keeps h _ _)
  clear_value x1
  extract_lets -underBinder -merge +onlyGivenNames x2
  clear_value x2
  exact (Keeps.ite (State.takeAngle_keeps h1 _ _ _) h1)

theorem execLtlClr_keeps (h : Keeps a s) (y1) (y2) : KeepsR a (execLtlClr y1 y2 s) := by
  unfold execLtlClr
  exact (KeepsR.next (Keeps.ite (State.clearAll_keeps h _ _) h))

theorem execAngClr_keeps (h : Keeps a s) (y1) : KeepsR a (execAngClr y1 s) := by
  unfold execAngClr
  exact (KeepsR.next (Keeps.ite (State.clearAll_keeps h _ _) h))

theorem State.loopSourceChanged_keeps (h : Keeps a s) (y2) (y3) (y4) : Keeps a (State.loopSourceChanged s y2 y3 y4) := by
  unfold State.loopSourceChanged
  extract_lets -underBinder -merge +onlyGivenNames x1
  clear_value x1
  extract_lets -underBinder -merge +onlyGivenNames x2
  clear_value x2
  refine Keeps.ite ?_ ?_
  · exact h
  · extract_lets -underBinder -merge +onlyGivenNames x3
    have h3 : Keeps a x3 := (State.ivCutLoop_keeps (State.coastStart_keeps h _ _) _ _)
    clear_value x3
    extract_lets -underBinder -merge +onlyGivenNames x4
    have h4 : Keeps a x4 := (State.modLoop_keeps h3 _ _)
    clear_value x4
    extract_lets -underBinder -merge +onlyGivenNames x5
    clear_value x5
    refine Keeps.ite ?_ ?_
    · exact (State.setLoopState_keeps (State.setLoopRate_keeps h4 _ _ _) _ _)
    · refine Keeps.ite ?_ ?_
      · extract_lets -underBinder -merge +onlyGivenNames x6
        have h6 : Keeps a x6 := (State.setLoopState_keeps h4 _ _)
        clear_value x6
        exact (Keeps.ite (State.setLoopRate_keeps h6 _ _ _) h6)
      · exact h4

theorem State.armOnce_keeps (h : Keeps a s) (y2) (y3) : Keeps a (State.armOnce s y2 y3) := by
  unfold State.armOnce
  refine State.each_keeps h fun _ h2 _ => ?_
  · refine Keeps.ite ?_ ?_
    · extract_lets -underBinder -merge +onlyGivenNames x3
      clear_value x3
      exact (Keeps.same h2 rfl rfl rfl rfl rfl rfl rfl)
    · exact h2

theorem State.loopEnable_keeps (h : Keeps a s) (y2) (y3) (y4) : Keeps a (State.loopEnable s y2 y3 y4) := by
  unfold State.loopEnable
  extract_lets -underBinder -merge +onlyGivenNames x1
  clear_value x1
  exact (Keeps.ite (State.modLoop_keeps h _ _) (State.modLoop_keeps h _ _))

theorem State.loopResult_keeps (h : Keeps a s) (y2) (y3) (y4) : Keeps a (State.loopResult s y2 y3 y4) := by
  unfold State.loopResult
  extract_lets -underBinder -merge +onlyGivenNames x1
  clear_value x1
  extract_lets -underBinder -merge +onlyGivenNames x2
  clear_value x2
  extract_lets -underBinder -merge +onlyGivenNames x3
  clear_value x3
  extract_lets -underBinder -merge +onlyGivenNames x4
  clear_value x4
  extract_lets -underBinder -merge +onlyGivenNames x5
  clear_value x5
  extract_lets -underBinder -merge +onlyGivenNames x6
  clear_value x6
  extract_lets -underBinder -merge +onlyGivenNames x7
  clear_value x7
  extract_lets -underBinder -merge +onlyGivenNames x8
  clear_value x8
  exact (State.modLoop_keeps h _ _)

theorem State.loopStamp_keeps (h : Keeps a s) (y2) (y3) (y4) : Keeps a (State.loopStamp s y2 y3 y4) := by
  unfold State.loopStamp
  extract_lets -underBinder -merge +onlyGivenNames x1
  clear_value x1
  exact (Keeps.ite h (State.modLoop_keeps h _ _))

end Sys2Proof.Machine
end

