-- ==== Sys2Proof/Laws/KeepsTime.lean ====
section
/-!
SUPPORT. What the operations of Machine/Time.lean keep (see Laws/Keeps.lean).
-/
namespace Sys2Proof.Machine
variable {a s : State}

theorem State.modTime_keeps (h : Keeps a s) (y2) : Keeps a (State.modTime s y2) := by
  unfold State.modTime
  exact (Keeps.same h rfl rfl rfl rfl rfl rfl rfl)

theorem State.setLocked_keeps (h : Keeps a s) (y2) : Keeps a (State.setLocked s y2) := by
  unfold State.setLocked
  exact (State.level_keeps (State.putB_keeps h _ _ _ _) _ _ _)

theorem State.setHoldover_keeps (h : Keeps a s) (y2) : Keeps a (State.setHoldover s y2) := by
  unfold State.setHoldover
  exact (State.level_keeps (State.putB_keeps h _ _ _ _) _ _ _)

theorem State.synchronise_keeps (h : Keeps a s) (y2) (y3) : Keeps a (State.synchronise s y2 y3) := by
  unfold State.synchronise
  refine Keeps.ite ?_ ?_
  · exact h
  · extract_lets -underBinder -merge +onlyGivenNames x1
    clear_value x1
    extract_lets -underBinder -merge +onlyGivenNames x2
    clear_value x2
    extract_lets -underBinder -merge +onlyGivenNames x3
    have h3 : Keeps a x3 := (State.put_keeps h _ _ _ _)
    clear_value x3
    extract_lets -underBinder -merge +onlyGivenNames x4
    clear_value x4
    extract_lets -underBinder -merge +onlyGivenNames x5
    clear_value x5
    extract_lets -underBinder -merge +onlyGivenNames x6
    clear_value x6
    extract_lets -underBinder -merge +onlyGivenNames x7
    clear_value x7
    extract_lets -underBinder -merge +onlyGivenNames x8
    clear_value x8
    extract_lets -underBinder -merge +onlyGivenNames x9
    have h9 : Keeps a x9 := (Keeps.same h3 rfl rfl rfl rfl rfl rfl rfl)
    clear_value x9
    extract_lets -underBinder -merge +onlyGivenNames x10
    have h10 : Keeps a x10 := (State.modTime_keeps h9 _)
    clear_value x10
    extract_lets -underBinder -merge +onlyGivenNames x11
    have h11 : Keeps a x11 := (Keeps.ite (State.pulse_keeps (State.sat_keeps h10 _ _ _ _) _ _) h10)
    clear_value x11
    exact (State.setLocked_keeps (State.setHoldover_keeps h11 _) _)

theorem execPpsEdge_keeps (h : Keeps a s) (y1) : KeepsR a (execPpsEdge y1 s) := by
  unfold execPpsEdge
  extract_lets -underBinder -merge +onlyGivenNames x1
  have h1 : Keeps a x1 := (State.at_keeps h _)
  clear_value x1
  extract_lets -underBinder -merge +onlyGivenNames x2
  clear_value x2
  refine KeepsR.ite ?_ ?_
  · exact (KeepsR.next h1)
  · extract_lets -underBinder -merge +onlyGivenNames x3
    clear_value x3
    extract_lets -underBinder -merge +onlyGivenNames x4
    clear_value x4
    refine KeepsR.ite ?_ ?_
    · exact (KeepsR.next (State.sat_keeps h1 _ _ _ _))
    · extract_lets -underBinder -merge +onlyGivenNames x5
      clear_value x5
      extract_lets -underBinder -merge +onlyGivenNames x6
      have h6 : Keeps a x6 := (State.modTime_keeps h1 _)
      clear_value x6
      exact (KeepsR.next (State.synchronise_keeps h6 _ _))

theorem execPpsTimeout_keeps (h : Keeps a s) (y1) : KeepsR a (execPpsTimeout y1 s) := by
  unfold execPpsTimeout
  extract_lets -underBinder -merge +onlyGivenNames x1
  have h1 : Keeps a x1 := (State.at_keeps h _)
  clear_value x1
  exact (KeepsR.next (Keeps.ite (State.setLocked_keeps (State.setHoldover_keeps h1 _) _) h1))

theorem execPtpMessage_keeps (h : Keeps a s) (y1) (y2) (y3) (y4) (y5) : KeepsR a (execPtpMessage y1 y2 y3 y4 y5 s) := by
  unfold execPtpMessage
  extract_lets -underBinder -merge +onlyGivenNames x1
  have h1 : Keeps a x1 := (State.at_keeps h _)
  clear_value x1
  refine KeepsR.ite ?_ ?_
  · exact (KeepsR.next h1)
  · extract_lets -underBinder -merge +onlyGivenNames x2
    have h2 : Keeps a x2 := by
      subst x2
      split
      · exact (State.put_keeps h1 _ _ _ _)
      · exact h1
    clear_value x2
    refine KeepsR.next ?_
    split
    · exact (State.synchronise_keeps h2 _ _)
    · exact h2

theorem execTimeSetSec_keeps (h : Keeps a s) (y1) (y2) : KeepsR a (execTimeSetSec y1 y2 s) := by
  unfold execTimeSetSec
  extract_lets -underBinder -merge +onlyGivenNames x1
  clear_value x1
  exact (KeepsR.next (State.modTime_keeps h _))

theorem execTimeClr_keeps (h : Keeps a s) (y1) : KeepsR a (execTimeClr y1 s) := by
  unfold execTimeClr
  exact (KeepsR.next (Keeps.ite (State.clearAll_keeps h _ _) h))

theorem State.timeBypass_keeps (h : Keeps a s) (y2) : Keeps a (State.timeBypass s y2) := by
  unfold State.timeBypass
  exact (Keeps.ite (State.setHoldover_keeps h _) (Keeps.ite (State.setHoldover_keeps h _) h))

theorem State.timeSourceChanged_keeps (h : Keeps a s) (y2) : Keeps a (State.timeSourceChanged s y2) := by
  unfold State.timeSourceChanged
  exact (Keeps.ite (Keeps.same h rfl rfl rfl rfl rfl rfl rfl) h)

end Sys2Proof.Machine
end

