-- ==== Sys2Proof/Laws/KeepsClock.lean ====
section
/-!
SUPPORT. What the operations of Machine/Clock.lean keep (see Laws/Keeps.lean).
-/
namespace Sys2Proof.Machine
variable {a s : State}

theorem State.refreshCko_keeps (h : Keeps a s) : Keeps a s.refreshCko := by
  unfold State.refreshCko
  refine Keeps.ite h (State.each_keeps h fun s h n => ?_)
  split
  next mode khz _ =>
    split
    next k s1 e =>
      have h1 : Keeps a s1 := by
        cases khz with
        | none => cases e; exact State.takeFree_keeps h
        | some k => cases e; exact h
      clear e
      extract_lets s2 on dl s3 s4 src s5
      have h2 : Keeps a s2 := State.put_keeps (State.put_keeps h1 _ _ _ _) _ _ _ _
      have h4 : Keeps a s4 := State.level_keeps (State.putB_keeps h2 _ _ _ _) _ _ _
      exact State.level_keeps (State.level_keeps h4 _ _ _) _ _ _

theorem State.toBypass_keeps (h : Keeps a s) (y2) (y3) : Keeps a (State.toBypass s y2 y3) := by
  unfold State.toBypass
  extract_lets -underBinder -merge +onlyGivenNames x1
  clear_value x1
  extract_lets -underBinder -merge +onlyGivenNames x2
  have h2 : Keeps a x2 := (State.put_keeps (State.putB_keeps (State.putB_keeps h _ _ _ _) _ _ _ _) _ _ _ _)
  clear_value x2
  extract_lets -underBinder -merge +onlyGivenNames x3
  have h3 : Keeps a x3 := (State.level_keeps h2 _ _ _)
  clear_value x3
  split
  · exact (State.refreshCko_keeps h3)
  · extract_lets -underBinder -merge +onlyGivenNames x6
    have h6 : Keeps a x6 := (State.modSynth_keeps h3 _ _)
    clear_value x6
    extract_lets -underBinder -merge +onlyGivenNames x7
    clear_value x7
    extract_lets -underBinder -merge +onlyGivenNames x8
    have h8 : Keeps a x8 := (Keeps.ite (State.each_keeps h6 fun _ h9 _ => (State.inband_keeps (State.marker_keeps h9 _ _ _ _ _) _ _ _ _ _)) (State.markBoth_keeps h6 _ _ _ _ _))
    clear_value x8
    extract_lets -underBinder -merge +onlyGivenNames x10
    have h10 : Keeps a x10 := (Keeps.ite (State.recFlag_keeps h8 _) h8)
    clear_value x10
    extract_lets -underBinder -merge +onlyGivenNames x11
    have h11 : Keeps a x11 := (State.gapOpen_keeps h10 _ _ _)
    clear_value x11
    extract_lets -underBinder -merge +onlyGivenNames x12
    have h12 : Keeps a x12 := (Keeps.ite (State.ivFlagAll_keeps h11 _) h11)
    clear_value x12
    extract_lets -underBinder -merge +onlyGivenNames x13
    have h13 : Keeps a x13 := (State.stampGap_keeps (State.put_keeps h12 _ _ _ _) _)
    clear_value x13
    extract_lets -underBinder -merge +onlyGivenNames x14
    have h14 : Keeps a x14 := (Keeps.ite (State.level_keeps (State.timeBypass_keeps (State.each_keeps h13 fun _ h15 _ => (State.coastStart_keeps h15 _ _)) _) _ _ _) h12)
    clear_value x14
    exact (State.refreshCko_keeps h14)

theorem State.lockLoss_keeps (h : Keeps a s) (y2) (y3) (y4) : Keeps a (State.lockLoss s y2 y3 y4) := by
  unfold State.lockLoss
  extract_lets -underBinder -merge +onlyGivenNames x1
  clear_value x1
  extract_lets -underBinder -merge +onlyGivenNames x2
  have h2 : Keeps a x2 := (State.toBypass_keeps h _ _)
  clear_value x2
  extract_lets -underBinder -merge +onlyGivenNames x3
  have h3 : Keeps a x3 := (State.pulse_keeps (State.sat_keeps h2 _ _ _ _) _ _)
  clear_value x3
  extract_lets -underBinder -merge +onlyGivenNames x4
  have h4 : Keeps a x4 := (State.setReg_keeps h3 _ _ _)
  clear_value x4
  extract_lets -underBinder -merge +onlyGivenNames x5
  have h5 : Keeps a x5 := (State.setBlockState_keeps h4 _ _)
  clear_value x5
  extract_lets -underBinder -merge +onlyGivenNames x6
  have h6 : Keeps a x6 := (State.modSynth_keeps h5 _ _)
  clear_value x6
  exact (Keeps.ite (State.faultLevel_keeps h6 _ _) h6)

theorem State.noBand_keeps (h : Keeps a s) (y2) : Keeps a (State.noBand s y2) := by
  unfold State.noBand
  exact (State.level_keeps (State.setBlockState_keeps h _ _) _ _ _)

theorem State.useTable_keeps (h : Keeps a s) (y2) : Keeps a (State.useTable s y2) := by
  unfold State.useTable
  extract_lets -underBinder -merge +onlyGivenNames x1
  clear_value x1
  split
  · exact (State.noBand_keeps h _)
  · extract_lets -underBinder -merge +onlyGivenNames x4
    have h4 : Keeps a x4 := (State.setBlockState_keeps h _ _)
    clear_value x4
    extract_lets -underBinder -merge +onlyGivenNames x5
    have h5 : Keeps a x5 := (State.put_keeps (State.putB_keeps h4 _ _ _ _) _ _ _ _)
    clear_value x5
    extract_lets -underBinder -merge +onlyGivenNames x6
    have h6 : Keeps a x6 := (State.put_keeps h5 _ _ _ _)
    clear_value x6
    exact (State.modSynth_keeps h6 _ _)

theorem State.lockAttempt_keeps (h : Keeps a s) (y2) (y3) : Keeps a (State.lockAttempt s y2 y3) := by
  unfold State.lockAttempt
  extract_lets -underBinder -merge +onlyGivenNames x1
  clear_value x1
  extract_lets -underBinder -merge +onlyGivenNames x2
  have h2 : Keeps a x2 := (State.level_keeps (State.toBypass_keeps h _ _) _ _ _)
  clear_value x2
  extract_lets -underBinder -merge +onlyGivenNames x3
  have h3 : Keeps a x3 := (State.modSynth_keeps h2 _ _)
  clear_value x3
  extract_lets -underBinder -merge +onlyGivenNames x4
  clear_value x4
  extract_lets -underBinder -merge +onlyGivenNames x5
  clear_value x5
  extract_lets -underBinder -merge +onlyGivenNames x6
  have h6 : Keeps a x6 := (State.level_keeps (State.putB_keeps h3 _ _ _ _) _ _ _)
  clear_value x6
  refine Keeps.ite ?_ ?_
  · exact (State.setBlockState_keeps h6 _ _)
  · extract_lets -underBinder -merge +onlyGivenNames x7
    have h7 : Keeps a x7 := (State.put_keeps (State.putB_keeps h6 _ _ _ _) _ _ _ _)
    clear_value x7
    exact (Keeps.ite (State.useTable_keeps h7 _) (State.put_keeps (State.setBlockState_keeps h7 _ _) _ _ _ _))

theorem execLockAttempt_keeps (h : Keeps a s) (y1) (y2) (y3) : KeepsR a (execLockAttempt y1 y2 y3 s) := by
  unfold execLockAttempt
  extract_lets -underBinder -merge +onlyGivenNames x1
  have h1 : Keeps a x1 := (State.at_keeps h _)
  clear_value x1
  exact (KeepsR.next (Keeps.ite (State.lockAttempt_keeps (State.modSynth_keeps h1 _ _) _ _) h1))

theorem State.relockWrite_keeps (h : Keeps a s) (y2) (y3) : Keeps a (State.relockWrite s y2 y3) := by
  unfold State.relockWrite
  exact (Keeps.ite (State.lockAttempt_keeps h _ _) h)

theorem execRelock_keeps (h : Keeps a s) (y1) (y2) : KeepsR a (execRelock y1 y2 s) := by
  unfold execRelock
  exact (KeepsR.next (State.relockWrite_keeps (State.at_keeps h _) _ _))

theorem execClrCnt_keeps (h : Keeps a s) (y1) : KeepsR a (execClrCnt y1 s) := by
  unfold execClrCnt
  exact (KeepsR.next (State.clearAll_keeps h _ _))

theorem execBandSearchStep_keeps (h : Keeps a s) (y1) (y2) (y3) : KeepsR a (execBandSearchStep y1 y2 y3 s) := by
  unfold execBandSearchStep
  extract_lets -underBinder -merge +onlyGivenNames x1
  have h1 : Keeps a x1 := (State.at_keeps h _)
  clear_value x1
  extract_lets -underBinder -merge +onlyGivenNames x2
  clear_value x2
  extract_lets -underBinder -merge +onlyGivenNames x3
  clear_value x3
  refine KeepsR.ite ?_ ?_
  · exact (KeepsR.next h1)
  · extract_lets -underBinder -merge +onlyGivenNames x4
    clear_value x4
    extract_lets -underBinder -merge +onlyGivenNames x5
    have h5 : Keeps a x5 := (State.put_keeps (State.put_keeps h1 _ _ _ _) _ _ _ _)
    clear_value x5
    extract_lets -underBinder -merge +onlyGivenNames x6
    clear_value x6
    extract_lets -underBinder -merge +onlyGivenNames x7
    clear_value x7
    extract_lets -underBinder -merge +onlyGivenNames x8
    clear_value x8
    extract_lets -underBinder -merge +onlyGivenNames x9
    clear_value x9
    extract_lets -underBinder -merge +onlyGivenNames x10
    have h10 : Keeps a x10 := (State.modSynth_keeps h5 _ _)
    clear_value x10
    exact (KeepsR.next (Keeps.ite (State.put_keeps h10 _ _ _ _) h10))

theorem execBandVerify_keeps (h : Keeps a s) (y1) (y2) (y3) : KeepsR a (execBandVerify y1 y2 y3 s) := by
  unfold execBandVerify
  extract_lets -underBinder -merge +onlyGivenNames x1
  have h1 : Keeps a x1 := (State.at_keeps h _)
  clear_value x1
  extract_lets -underBinder -merge +onlyGivenNames x2
  clear_value x2
  refine KeepsR.ite ?_ ?_
  · exact (KeepsR.next h1)
  · extract_lets -underBinder -merge +onlyGivenNames x3
    have h3 : Keeps a x3 := (State.modSynth_keeps h1 _ _)
    clear_value x3
    refine KeepsR.ite ?_ ?_
    · split
      next x4 x5 e5 =>
        have h5 := KeepsQ.out (State.takeFree_keeps h3) e5
        exact (KeepsR.next (State.put_keeps (State.setBlockState_keeps h5 _ _) _ _ _ _))
    · exact (KeepsR.ite (KeepsR.next (State.useTable_keeps (State.pulse_keeps (State.sat_keeps h3 _ _ _ _) _ _) _)) (KeepsR.next (State.noBand_keeps h3 _)))

theorem State.lockDeclared_keeps (h : Keeps a s) (y2) (y3) : Keeps a (State.lockDeclared s y2 y3) := by
  unfold State.lockDeclared
  extract_lets -underBinder -merge +onlyGivenNames x1
  clear_value x1
  extract_lets -underBinder -merge +onlyGivenNames x2
  have h2 : Keeps a x2 := (State.setBlockState_keeps (State.putB_keeps (State.putB_keeps h _ _ _ _) _ _ _ _) _ _)
  clear_value x2
  extract_lets -underBinder -merge +onlyGivenNames x3
  have h3 : Keeps a x3 := (State.setReg_keeps (State.sat_keeps h2 _ _ _ _) _ _ _)
  clear_value x3
  extract_lets -underBinder -merge +onlyGivenNames x4
  have h4 : Keeps a x4 := (State.modSynth_keeps h3 _ _)
  clear_value x4
  extract_lets -underBinder -merge +onlyGivenNames x5
  have h5 : Keeps a x5 := (State.level_keeps h4 _ _ _)
  clear_value x5
  extract_lets -underBinder -merge +onlyGivenNames x6
  have h6 : Keeps a x6 := (State.faultLevel_keeps (State.timeBypass_keeps h5 _) _ _)
  clear_value x6
  extract_lets -underBinder -merge +onlyGivenNames x7
  have h7 : Keeps a x7 := (State.gapClose_keeps h6 _ _ _ _)
  clear_value x7
  extract_lets -underBinder -merge +onlyGivenNames x8
  have h8 : Keeps a x8 := (Keeps.ite (State.level_keeps h7 _ _ _) (Keeps.ite (State.gapClose_keeps h5 _ _ _ _) h5))
  clear_value x8
  exact (State.refreshCko_keeps h8)

theorem execLockWindowEnd_keeps (h : Keeps a s) (y1) (y2) (y3) : KeepsR a (execLockWindowEnd y1 y2 y3 s) := by
  unfold execLockWindowEnd
  extract_lets -underBinder -merge +onlyGivenNames x1
  have h1 : Keeps a x1 := (State.at_keeps h _)
  clear_value x1
  extract_lets -underBinder -merge +onlyGivenNames x2
  clear_value x2
  refine KeepsR.ite ?_ ?_
  · exact (KeepsR.next h1)
  · extract_lets -underBinder -merge +onlyGivenNames x3
    clear_value x3
    extract_lets -underBinder -merge +onlyGivenNames x4
    have h4 : Keeps a x4 := (State.setReg_keeps h1 _ _ _)
    clear_value x4
    extract_lets -underBinder -merge +onlyGivenNames x5
    clear_value x5
    refine KeepsR.ite ?_ ?_
    · extract_lets -underBinder -merge +onlyGivenNames x6
      clear_value x6
      extract_lets -underBinder -merge +onlyGivenNames x7
      have h7 : Keeps a x7 := (State.put_keeps h4 _ _ _ _)
      clear_value x7
      exact (KeepsR.next (Keeps.ite (State.lockDeclared_keeps h7 _ _) h7))
    · exact (KeepsR.ite (KeepsR.next (Keeps.ite (State.lockLoss_keeps h4 _ _ _) (State.modSynth_keeps h4 _ _))) (KeepsR.next h4))

theorem execPhaseSlip_keeps (h : Keeps a s) (y1) (y2) : KeepsR a (execPhaseSlip y1 y2 s) := by
  unfold execPhaseSlip
  extract_lets -underBinder -merge +onlyGivenNames x1
  have h1 : Keeps a x1 := (State.at_keeps h _)
  clear_value x1
  exact (KeepsR.next (Keeps.ite (State.lockLoss_keeps h1 _ _ _) h1))

theorem execRefLoss_keeps (h : Keeps a s) (y1) : KeepsR a (execRefLoss y1 s) := by
  unfold execRefLoss
  extract_lets -underBinder -merge +onlyGivenNames x1
  have h1 : Keeps a x1 := (State.at_keeps h _)
  clear_value x1
  refine KeepsR.next ?_
  refine State.refreshCko_keeps ?_
  refine State.each_keeps h1 fun _ h5 _ => ?_
  · extract_lets -underBinder -merge +onlyGivenNames x6
    clear_value x6
    extract_lets -underBinder -merge +onlyGivenNames x7
    have h7 : Keeps a x7 := (State.level_keeps (State.putB_keeps h5 _ _ _ _) _ _ _)
    clear_value x7
    extract_lets -underBinder -merge +onlyGivenNames x8
    have h8 : Keeps a x8 := (State.level_keeps (State.putB_keeps h7 _ _ _ _) _ _ _)
    clear_value x8
    extract_lets -underBinder -merge +onlyGivenNames x9
    have h9 : Keeps a x9 := (State.modSynth_keeps h8 _ _)
    clear_value x9
    exact (Keeps.ite (State.lockLoss_keeps h9 _ _ _) (State.level_keeps (State.put_keeps (State.setBlockState_keeps h9 _ _) _ _ _ _) _ _ _))

theorem execRefclkReturn_keeps (h : Keeps a s) (y1) (y2) : KeepsR a (execRefclkReturn y1 y2 s) := by
  unfold execRefclkReturn
  extract_lets -underBinder -merge +onlyGivenNames x1
  have h1 : Keeps a x1 := (State.at_keeps h _)
  clear_value x1
  refine KeepsR.next ?_
  refine State.refreshCko_keeps ?_
  refine State.each_keeps h1 fun _ h5 _ => ?_
  · extract_lets -underBinder -merge +onlyGivenNames x6
    clear_value x6
    extract_lets -underBinder -merge +onlyGivenNames x7
    have h7 : Keeps a x7 := (State.level_keeps (State.putB_keeps h5 _ _ _ _) _ _ _)
    clear_value x7
    extract_lets -underBinder -merge +onlyGivenNames x8
    have h8 : Keeps a x8 := (State.modSynth_keeps h7 _ _)
    clear_value x8
    exact (Keeps.ite (State.lockAttempt_keeps h8 _ _) h8)

theorem execDlgLock_keeps (h : Keeps a s) (y1) (y2) : KeepsR a (execDlgLock y1 y2 s) := by
  unfold execDlgLock
  extract_lets -underBinder -merge +onlyGivenNames x1
  have h1 : Keeps a x1 := (State.at_keeps h _)
  clear_value x1
  extract_lets -underBinder -merge +onlyGivenNames x2
  clear_value x2
  refine KeepsR.ite ?_ ?_
  · exact (KeepsR.next h1)
  · extract_lets -underBinder -merge +onlyGivenNames x3
    have h3 : Keeps a x3 := (State.put_keeps h1 _ _ _ _)
    clear_value x3
    extract_lets -underBinder -merge +onlyGivenNames x4
    have h4 : Keeps a x4 := (State.gapClose_keeps h3 _ _ _ _)
    clear_value x4
    extract_lets -underBinder -merge +onlyGivenNames x5
    have h5 : Keeps a x5 := (State.gapClose_keeps h4 _ _ _ _)
    clear_value x5
    exact (KeepsR.next (State.level_keeps h5 _ _ _))

theorem execDlgUnlock_keeps (h : Keeps a s) (y1) (y2) : KeepsR a (execDlgUnlock y1 y2 s) := by
  unfold execDlgUnlock
  extract_lets -underBinder -merge +onlyGivenNames x1
  have h1 : Keeps a x1 := (State.at_keeps h _)
  clear_value x1
  extract_lets -underBinder -merge +onlyGivenNames x2
  clear_value x2
  refine KeepsR.ite ?_ ?_
  · exact (KeepsR.next h1)
  · extract_lets -underBinder -merge +onlyGivenNames x3
    have h3 : Keeps a x3 := (State.put_keeps h1 _ _ _ _)
    clear_value x3
    extract_lets -underBinder -merge +onlyGivenNames x4
    clear_value x4
    extract_lets -underBinder -merge +onlyGivenNames x5
    have h5 : Keeps a x5 := (State.each_keeps h3 fun _ h6 _ => (State.inband_keeps (State.marker_keeps h6 _ _ _ _ _) _ _ _ _ _))
    clear_value x5
    extract_lets -underBinder -merge +onlyGivenNames x7
    have h7 : Keeps a x7 := (State.stampGap_keeps (State.recFlag_keeps (State.gapOpen_keeps h5 _ _ _) _) _)
    clear_value x7
    exact (KeepsR.next (State.level_keeps h7 _ _ _))

theorem State.cksCopied_keeps (h : Keeps a s) (y2) (y3) (y4) : Keeps a (State.cksCopied s y2 y3 y4) := by
  unfold State.cksCopied
  exact (Keeps.ite (State.lockAttempt_keeps h _ _) h)

theorem State.cksReset_keeps (h : Keeps a s) (y2) (y3) : Keeps a (State.cksReset s y2 y3) := by
  unfold State.cksReset
  extract_lets -underBinder -merge +onlyGivenNames x1
  clear_value x1
  extract_lets -underBinder -merge +onlyGivenNames x2
  have h2 : Keeps a x2 := (State.toBypass_keeps h _ _)
  clear_value x2
  extract_lets -underBinder -merge +onlyGivenNames x3
  have h3 : Keeps a x3 := (State.modSynth_keeps h2 _ _)
  clear_value x3
  extract_lets -underBinder -merge +onlyGivenNames x4
  have h4 : Keeps a x4 := (State.setReg_keeps h3 _ _ _)
  clear_value x4
  extract_lets -underBinder -merge +onlyGivenNames x5
  have h5 : Keeps a x5 := (Keeps.ite (State.faultLevel_keeps h4 _ _) h4)
  clear_value x5
  exact (State.refreshCko_keeps h5)

theorem State.cksEnable_keeps (h : Keeps a s) (y2) (y3) (y4) : Keeps a (State.cksEnable s y2 y3 y4) := by
  unfold State.cksEnable
  exact (Keeps.ite h (State.modSynth_keeps (State.setBlockState_keeps (State.toBypass_keeps h _ _) _ _) _ _))

end Sys2Proof.Machine
end

