-- ==== Sys2Proof/Laws/KeepsPages.lean ====
section
/-!
SUPPORT. What the operations of Machine/Pages.lean keep (see Laws/Keeps.lean).
-/
namespace Sys2Proof.Machine
variable {a s : State}

theorem State.storeRW_keeps (h : Keeps a s) (y2) (y3) (y4) (y5) (y6) : Keeps a (State.storeRW s y2 y3 y4 y5 y6) := by
  unfold State.storeRW
  exact (Keeps.ite (State.setStaged_keeps h _ _ _) (State.setReg_keeps h _ _ _))

theorem State.storeField_keeps (h : Keeps a s) (y2) (y3) (y4) (y5) : Keeps a (State.storeField s y2 y3 y4 y5) := by
  unfold State.storeField
  extract_lets -underBinder -merge +onlyGivenNames x1
  clear_value x1
  exact (State.storeRW_keeps h _ _ _ _ _)

theorem State.setPendGroups_keeps (h : Keeps a s) (y2) (y3) : Keeps a (State.setPendGroups s y2 y3) := by
  unfold State.setPendGroups
  extract_lets -underBinder -merge +onlyGivenNames x1
  have h1 : Keeps a x1 := (State.setReg_keeps h _ _ _)
  clear_value x1
  exact (State.setReg_keeps h1 _ _ _)

theorem State.commitFinished_keeps (h : Keeps a s) (y2) (y3) : Keeps a (State.commitFinished s y2 y3) := by
  unfold State.commitFinished
  extract_lets -underBinder -merge +onlyGivenNames x1
  clear_value x1
  extract_lets -underBinder -merge +onlyGivenNames x2
  have h2 : Keeps a x2 := (State.setReg_keeps h _ _ _)
  clear_value x2
  exact (State.latch_keeps h2 _ _)

theorem State.showErrs_keeps (h : Keeps a s) (y2) : Keeps a (State.showErrs s y2) := by
  unfold State.showErrs
  extract_lets -underBinder -merge +onlyGivenNames x1
  clear_value x1
  extract_lets -underBinder -merge +onlyGivenNames x2
  clear_value x2
  extract_lets -underBinder -merge +onlyGivenNames x3
  clear_value x3
  extract_lets -underBinder -merge +onlyGivenNames x4
  have h4 : Keeps a x4 := (State.setReg_keeps h _ _ _)
  clear_value x4
  extract_lets -underBinder -merge +onlyGivenNames x5
  have h5 : Keeps a x5 := (State.setReg_keeps h4 _ _ _)
  clear_value x5
  exact (State.levelHdr_keeps h5 _ _ _)

theorem State.setErr_keeps (h : Keeps a s) (y2) (y3) (y4) : Keeps a (State.setErr s y2 y3 y4) := by
  unfold State.setErr
  extract_lets -underBinder -merge +onlyGivenNames x1
  clear_value x1
  exact (Keeps.same h rfl rfl rfl rfl rfl rfl rfl)

theorem State.copyGroup_keeps (h : Keeps a s) (y2) (y3) : Keeps a (State.copyGroup s y2 y3) := by
  unfold State.copyGroup
  refine State.each_keeps h fun _ h2 _ => ?_
  · split
    · exact (State.setReg_keeps h2 _ _ _)
    · exact h2

theorem State.loadGroup_keeps (h : Keeps a s) (y2) (y3) : Keeps a (State.loadGroup s y2 y3) := by
  unfold State.loadGroup
  exact (State.each_keeps h fun _ h1 _ => (State.setStaged_keeps h1 _ _ _))

theorem State.dropLastGood_keeps (h : Keeps a s) (y2) (y3) : Keeps a (State.dropLastGood s y2 y3) := by
  unfold State.dropLastGood
  exact (Keeps.same h rfl rfl rfl rfl rfl rfl rfl)

theorem execMsixUnmask_keeps (h : Keeps a s) (y1) : KeepsR a (execMsixUnmask y1 s) := by
  unfold execMsixUnmask
  extract_lets -underBinder -merge +onlyGivenNames x1
  clear_value x1
  extract_lets -underBinder -merge +onlyGivenNames x2
  have h2 : Keeps a x2 := by
    subst x2
    split
    · exact (Keeps.same h rfl rfl rfl rfl rfl rfl rfl)
    · exact (Keeps.same h rfl rfl rfl rfl rfl rfl rfl)
  clear_value x2
  extract_lets -underBinder -merge +onlyGivenNames x5
  clear_value x5
  extract_lets -underBinder -merge +onlyGivenNames x6
  clear_value x6
  extract_lets -underBinder -merge +onlyGivenNames x7
  have h7 : Keeps a x7 := (Keeps.same h2 rfl rfl rfl rfl rfl rfl rfl)
  clear_value x7
  exact (KeepsR.next (State.each_keeps h7 fun _ h8 _ => (State.emit_keeps h8 _)))

end Sys2Proof.Machine
end

