-- ==== Sys2Proof/Laws/State.lean ====
section
/-!
SUPPORT. Every field after every record update: what an update changes, and that it leaves every other field alone. Each lemma is a
conjunction over the fields, tagged for simp, so that no later proof unfolds a record update.
-/
namespace Sys2Proof.Machine
variable (s : State)

@[simp] theorem State.setReg_fields (p o v : Nat) :
    (s.setReg p o v).pending = s.pending ∧ (s.setReg p o v).now = s.now ∧ (s.setReg p o v).freeCtr = s.freeCtr ∧ (s.setReg p o
    v).run = s.run ∧ (s.setReg p o v).variant = s.variant ∧ (s.setReg p o v).msix = s.msix ∧ (s.setReg p o v).out = s.out ∧
    (s.setReg p o v).scratch = s.scratch ∧ (s.setReg p o v).deep = s.deep ∧ (s.setReg p o v).streams = s.streams ∧ (s.setReg p
    o v).acq = s.acq ∧ (s.setReg p o v).clk = s.clk ∧ (s.setReg p o v).loops = s.loops ∧ (s.setReg p o v).act = s.act ∧
    (s.setReg p o v).saf = s.saf ∧ (s.setReg p o v).vcapGood = s.vcapGood ∧ (s.setReg p o v).txSeq = s.txSeq ∧ (s.setReg p o
    v).angFired = s.angFired ∧ (s.setReg p o v).onceTarget = s.onceTarget ∧ (s.setReg p o v).tm = s.tm ∧ (s.setReg p o v).digs
    = s.digs ∧ (s.setReg p o v).seams = s.seams ∧ (s.setReg p o v).stps = s.stps ∧ (s.setReg p o v).ips = s.ips ∧ (s.setReg p
    o v).fus = s.fus ∧ (s.setReg p o v).convs = s.convs ∧ (s.setReg p o v).injDue = s.injDue ∧ (s.setReg p o v).pulseDue =
    s.pulseDue ∧ (s.setReg p o v).spcFired = s.spcFired ∧ (s.setReg p o v).wins = s.wins ∧ (s.setReg p o v).ivs = s.ivs ∧
    (s.setReg p o v).accs = s.accs ∧ (s.setReg p o v).pairs = s.pairs ∧ (s.setReg p o v).hars = s.hars ∧ (s.setReg p o
    v).accLater = s.accLater ∧ (s.setReg p o v).accVals = s.accVals ∧ (s.setReg p o v).accSnap = s.accSnap ∧ (s.setReg p o
    v).harSnap = s.harSnap ∧ (s.setReg p o v).remote = s.remote ∧ (s.setReg p o v).casProg = s.casProg ∧ (s.setReg p o
    v).twinProg = s.twinProg ∧ (s.setReg p o v).twinSafeAt = s.twinSafeAt ∧ (s.setReg p o v).lin = s.lin ∧ (s.setReg p o
    v).gmb = s.gmb ∧ (s.setReg p o v).actHeld = s.actHeld ∧ (s.setReg p o v).tmOld = s.tmOld ∧ (s.setReg p o v).seamAgreed =
    s.seamAgreed ∧ (s.setReg p o v).lanes = s.lanes ∧ (s.setReg p o v).raws = s.raws ∧ (s.setReg p o v).store = s.store ∧
    (s.setReg p o v).host = s.host ∧ (s.setReg p o v).eths = s.eths ∧ (s.setReg p o v).mar = s.mar ∧ (s.setReg p o v).seamIn =
    s.seamIn ∧ (s.setReg p o v).ethPause = s.ethPause ∧ (s.setReg p o v).flxs = s.flxs ∧ (s.setReg p o v).cas = s.cas ∧
    (s.setReg p o v).twin = s.twin ∧ (s.setReg p o v).power = s.power ∧ (s.setReg p o v).start = s.start ∧ (s.setReg p o
    v).mbox = s.mbox := by
  repeat' (first | exact rfl | apply And.intro)

@[simp] theorem State.setStaged_fields (p o v : Nat) :
    (s.setStaged p o v).pending = s.pending ∧ (s.setStaged p o v).now = s.now ∧ (s.setStaged p o v).freeCtr = s.freeCtr ∧
    (s.setStaged p o v).run = s.run ∧ (s.setStaged p o v).variant = s.variant ∧ (s.setStaged p o v).msix = s.msix ∧
    (s.setStaged p o v).out = s.out ∧ (s.setStaged p o v).scratch = s.scratch ∧ (s.setStaged p o v).deep = s.deep ∧
    (s.setStaged p o v).streams = s.streams ∧ (s.setStaged p o v).acq = s.acq ∧ (s.setStaged p o v).clk = s.clk ∧ (s.setStaged
    p o v).loops = s.loops ∧ (s.setStaged p o v).act = s.act ∧ (s.setStaged p o v).saf = s.saf ∧ (s.setStaged p o v).vcapGood
    = s.vcapGood ∧ (s.setStaged p o v).txSeq = s.txSeq ∧ (s.setStaged p o v).angFired = s.angFired ∧ (s.setStaged p o
    v).onceTarget = s.onceTarget ∧ (s.setStaged p o v).tm = s.tm ∧ (s.setStaged p o v).digs = s.digs ∧ (s.setStaged p o
    v).seams = s.seams ∧ (s.setStaged p o v).stps = s.stps ∧ (s.setStaged p o v).ips = s.ips ∧ (s.setStaged p o v).fus = s.fus
    ∧ (s.setStaged p o v).convs = s.convs ∧ (s.setStaged p o v).injDue = s.injDue ∧ (s.setStaged p o v).pulseDue = s.pulseDue
    ∧ (s.setStaged p o v).spcFired = s.spcFired ∧ (s.setStaged p o v).wins = s.wins ∧ (s.setStaged p o v).ivs = s.ivs ∧
    (s.setStaged p o v).accs = s.accs ∧ (s.setStaged p o v).pairs = s.pairs ∧ (s.setStaged p o v).hars = s.hars ∧ (s.setStaged
    p o v).accLater = s.accLater ∧ (s.setStaged p o v).accVals = s.accVals ∧ (s.setStaged p o v).accSnap = s.accSnap ∧
    (s.setStaged p o v).harSnap = s.harSnap ∧ (s.setStaged p o v).remote = s.remote ∧ (s.setStaged p o v).casProg = s.casProg
    ∧ (s.setStaged p o v).twinProg = s.twinProg ∧ (s.setStaged p o v).twinSafeAt = s.twinSafeAt ∧ (s.setStaged p o v).lin =
    s.lin ∧ (s.setStaged p o v).gmb = s.gmb ∧ (s.setStaged p o v).actHeld = s.actHeld ∧ (s.setStaged p o v).tmOld = s.tmOld ∧
    (s.setStaged p o v).seamAgreed = s.seamAgreed ∧ (s.setStaged p o v).lanes = s.lanes ∧ (s.setStaged p o v).raws = s.raws ∧
    (s.setStaged p o v).store = s.store ∧ (s.setStaged p o v).host = s.host ∧ (s.setStaged p o v).eths = s.eths ∧ (s.setStaged
    p o v).mar = s.mar ∧ (s.setStaged p o v).seamIn = s.seamIn ∧ (s.setStaged p o v).ethPause = s.ethPause ∧ (s.setStaged p o
    v).flxs = s.flxs ∧ (s.setStaged p o v).cas = s.cas ∧ (s.setStaged p o v).twin = s.twin ∧ (s.setStaged p o v).power =
    s.power ∧ (s.setStaged p o v).start = s.start ∧ (s.setStaged p o v).mbox = s.mbox := by
  repeat' (first | exact rfl | apply And.intro)

@[simp] theorem State.emit_fields (o : Output) :
    (s.emit o).pending = s.pending ∧ (s.emit o).now = s.now ∧ (s.emit o).freeCtr = s.freeCtr ∧ (s.emit o).run = s.run ∧
    (s.emit o).variant = s.variant ∧ (s.emit o).regs = s.regs ∧ (s.emit o).msix = s.msix ∧ (s.emit o).out = s.out ++ [o] ∧
    (s.emit o).scratch = s.scratch ∧ (s.emit o).deep = s.deep ∧ (s.emit o).streams = s.streams ∧ (s.emit o).acq = s.acq ∧
    (s.emit o).clk = s.clk ∧ (s.emit o).loops = s.loops ∧ (s.emit o).act = s.act ∧ (s.emit o).saf = s.saf ∧ (s.emit
    o).vcapGood = s.vcapGood ∧ (s.emit o).txSeq = s.txSeq ∧ (s.emit o).angFired = s.angFired ∧ (s.emit o).onceTarget =
    s.onceTarget ∧ (s.emit o).tm = s.tm ∧ (s.emit o).digs = s.digs ∧ (s.emit o).seams = s.seams ∧ (s.emit o).stps = s.stps ∧
    (s.emit o).ips = s.ips ∧ (s.emit o).fus = s.fus ∧ (s.emit o).convs = s.convs ∧ (s.emit o).injDue = s.injDue ∧ (s.emit
    o).pulseDue = s.pulseDue ∧ (s.emit o).spcFired = s.spcFired ∧ (s.emit o).wins = s.wins ∧ (s.emit o).ivs = s.ivs ∧ (s.emit
    o).accs = s.accs ∧ (s.emit o).pairs = s.pairs ∧ (s.emit o).hars = s.hars ∧ (s.emit o).accLater = s.accLater ∧ (s.emit
    o).accVals = s.accVals ∧ (s.emit o).accSnap = s.accSnap ∧ (s.emit o).harSnap = s.harSnap ∧ (s.emit o).remote = s.remote ∧
    (s.emit o).casProg = s.casProg ∧ (s.emit o).twinProg = s.twinProg ∧ (s.emit o).twinSafeAt = s.twinSafeAt ∧ (s.emit o).lin
    = s.lin ∧ (s.emit o).gmb = s.gmb ∧ (s.emit o).actHeld = s.actHeld ∧ (s.emit o).tmOld = s.tmOld ∧ (s.emit o).seamAgreed =
    s.seamAgreed ∧ (s.emit o).lanes = s.lanes ∧ (s.emit o).raws = s.raws ∧ (s.emit o).store = s.store ∧ (s.emit o).host =
    s.host ∧ (s.emit o).eths = s.eths ∧ (s.emit o).mar = s.mar ∧ (s.emit o).seamIn = s.seamIn ∧ (s.emit o).ethPause =
    s.ethPause ∧ (s.emit o).flxs = s.flxs ∧ (s.emit o).cas = s.cas ∧ (s.emit o).twin = s.twin ∧ (s.emit o).power = s.power ∧
    (s.emit o).start = s.start ∧ (s.emit o).mbox = s.mbox := by
  repeat' (first | exact rfl | apply And.intro)

@[simp] theorem State.at_fields (t : Nat) :
    (s.at t).pending = s.pending ∧ (s.at t).now = Nat.max s.now t ∧ (s.at t).freeCtr = s.freeCtr ∧ (s.at t).run = s.run ∧
    (s.at t).variant = s.variant ∧ (s.at t).regs = s.regs ∧ (s.at t).msix = s.msix ∧ (s.at t).out = s.out ∧ (s.at t).scratch =
    s.scratch ∧ (s.at t).deep = s.deep ∧ (s.at t).streams = s.streams ∧ (s.at t).acq = s.acq ∧ (s.at t).clk = s.clk ∧ (s.at
    t).loops = s.loops ∧ (s.at t).act = s.act ∧ (s.at t).saf = s.saf ∧ (s.at t).vcapGood = s.vcapGood ∧ (s.at t).txSeq =
    s.txSeq ∧ (s.at t).angFired = s.angFired ∧ (s.at t).onceTarget = s.onceTarget ∧ (s.at t).tm = s.tm ∧ (s.at t).digs =
    s.digs ∧ (s.at t).seams = s.seams ∧ (s.at t).stps = s.stps ∧ (s.at t).ips = s.ips ∧ (s.at t).fus = s.fus ∧ (s.at t).convs
    = s.convs ∧ (s.at t).injDue = s.injDue ∧ (s.at t).pulseDue = s.pulseDue ∧ (s.at t).spcFired = s.spcFired ∧ (s.at t).wins =
    s.wins ∧ (s.at t).ivs = s.ivs ∧ (s.at t).accs = s.accs ∧ (s.at t).pairs = s.pairs ∧ (s.at t).hars = s.hars ∧ (s.at
    t).accLater = s.accLater ∧ (s.at t).accVals = s.accVals ∧ (s.at t).accSnap = s.accSnap ∧ (s.at t).harSnap = s.harSnap ∧
    (s.at t).remote = s.remote ∧ (s.at t).casProg = s.casProg ∧ (s.at t).twinProg = s.twinProg ∧ (s.at t).twinSafeAt =
    s.twinSafeAt ∧ (s.at t).lin = s.lin ∧ (s.at t).gmb = s.gmb ∧ (s.at t).actHeld = s.actHeld ∧ (s.at t).tmOld = s.tmOld ∧
    (s.at t).seamAgreed = s.seamAgreed ∧ (s.at t).lanes = s.lanes ∧ (s.at t).raws = s.raws ∧ (s.at t).store = s.store ∧ (s.at
    t).host = s.host ∧ (s.at t).eths = s.eths ∧ (s.at t).mar = s.mar ∧ (s.at t).seamIn = s.seamIn ∧ (s.at t).ethPause =
    s.ethPause ∧ (s.at t).flxs = s.flxs ∧ (s.at t).cas = s.cas ∧ (s.at t).twin = s.twin ∧ (s.at t).power = s.power ∧ (s.at
    t).start = s.start ∧ (s.at t).mbox = s.mbox := by
  repeat' (first | exact rfl | apply And.intro)

@[simp] theorem State.scrWrite_fields (a : Nat) (bs : List Byte) :
    (s.scrWrite a bs).pending = s.pending ∧ (s.scrWrite a bs).now = s.now ∧ (s.scrWrite a bs).freeCtr = s.freeCtr ∧
    (s.scrWrite a bs).run = s.run ∧ (s.scrWrite a bs).variant = s.variant ∧ (s.scrWrite a bs).regs = s.regs ∧ (s.scrWrite a
    bs).msix = s.msix ∧ (s.scrWrite a bs).out = s.out ∧ (s.scrWrite a bs).scratch = Memory.writeN s.scratch a bs ∧ (s.scrWrite
    a bs).deep = s.deep ∧ (s.scrWrite a bs).streams = s.streams ∧ (s.scrWrite a bs).acq = s.acq ∧ (s.scrWrite a bs).clk =
    s.clk ∧ (s.scrWrite a bs).loops = s.loops ∧ (s.scrWrite a bs).act = s.act ∧ (s.scrWrite a bs).saf = s.saf ∧ (s.scrWrite a
    bs).vcapGood = s.vcapGood ∧ (s.scrWrite a bs).txSeq = s.txSeq ∧ (s.scrWrite a bs).angFired = s.angFired ∧ (s.scrWrite a
    bs).onceTarget = s.onceTarget ∧ (s.scrWrite a bs).tm = s.tm ∧ (s.scrWrite a bs).digs = s.digs ∧ (s.scrWrite a bs).seams =
    s.seams ∧ (s.scrWrite a bs).stps = s.stps ∧ (s.scrWrite a bs).ips = s.ips ∧ (s.scrWrite a bs).fus = s.fus ∧ (s.scrWrite a
    bs).convs = s.convs ∧ (s.scrWrite a bs).injDue = s.injDue ∧ (s.scrWrite a bs).pulseDue = s.pulseDue ∧ (s.scrWrite a
    bs).spcFired = s.spcFired ∧ (s.scrWrite a bs).wins = s.wins ∧ (s.scrWrite a bs).ivs = s.ivs ∧ (s.scrWrite a bs).accs =
    s.accs ∧ (s.scrWrite a bs).pairs = s.pairs ∧ (s.scrWrite a bs).hars = s.hars ∧ (s.scrWrite a bs).accLater = s.accLater ∧
    (s.scrWrite a bs).accVals = s.accVals ∧ (s.scrWrite a bs).accSnap = s.accSnap ∧ (s.scrWrite a bs).harSnap = s.harSnap ∧
    (s.scrWrite a bs).remote = s.remote ∧ (s.scrWrite a bs).casProg = s.casProg ∧ (s.scrWrite a bs).twinProg = s.twinProg ∧
    (s.scrWrite a bs).twinSafeAt = s.twinSafeAt ∧ (s.scrWrite a bs).lin = s.lin ∧ (s.scrWrite a bs).gmb = s.gmb ∧ (s.scrWrite
    a bs).actHeld = s.actHeld ∧ (s.scrWrite a bs).tmOld = s.tmOld ∧ (s.scrWrite a bs).seamAgreed = s.seamAgreed ∧ (s.scrWrite
    a bs).lanes = s.lanes ∧ (s.scrWrite a bs).raws = s.raws ∧ (s.scrWrite a bs).store = s.store ∧ (s.scrWrite a bs).host =
    s.host ∧ (s.scrWrite a bs).eths = s.eths ∧ (s.scrWrite a bs).mar = s.mar ∧ (s.scrWrite a bs).seamIn = s.seamIn ∧
    (s.scrWrite a bs).ethPause = s.ethPause ∧ (s.scrWrite a bs).flxs = s.flxs ∧ (s.scrWrite a bs).cas = s.cas ∧ (s.scrWrite a
    bs).twin = s.twin ∧ (s.scrWrite a bs).power = s.power ∧ (s.scrWrite a bs).start = s.start ∧ (s.scrWrite a bs).mbox =
    s.mbox := by
  repeat' (first | exact rfl | apply And.intro)

@[simp] theorem State.dmWrite_fields (a : Nat) (bs : List Byte) :
    (s.dmWrite a bs).pending = s.pending ∧ (s.dmWrite a bs).now = s.now ∧ (s.dmWrite a bs).freeCtr = s.freeCtr ∧ (s.dmWrite a
    bs).run = s.run ∧ (s.dmWrite a bs).variant = s.variant ∧ (s.dmWrite a bs).regs = s.regs ∧ (s.dmWrite a bs).msix = s.msix ∧
    (s.dmWrite a bs).out = s.out ∧ (s.dmWrite a bs).scratch = s.scratch ∧ (s.dmWrite a bs).deep = Memory.writeN s.deep a bs ∧
    (s.dmWrite a bs).streams = s.streams ∧ (s.dmWrite a bs).acq = s.acq ∧ (s.dmWrite a bs).clk = s.clk ∧ (s.dmWrite a
    bs).loops = s.loops ∧ (s.dmWrite a bs).act = s.act ∧ (s.dmWrite a bs).saf = s.saf ∧ (s.dmWrite a bs).vcapGood = s.vcapGood
    ∧ (s.dmWrite a bs).txSeq = s.txSeq ∧ (s.dmWrite a bs).angFired = s.angFired ∧ (s.dmWrite a bs).onceTarget = s.onceTarget ∧
    (s.dmWrite a bs).tm = s.tm ∧ (s.dmWrite a bs).digs = s.digs ∧ (s.dmWrite a bs).seams = s.seams ∧ (s.dmWrite a bs).stps =
    s.stps ∧ (s.dmWrite a bs).ips = s.ips ∧ (s.dmWrite a bs).fus = s.fus ∧ (s.dmWrite a bs).convs = s.convs ∧ (s.dmWrite a
    bs).injDue = s.injDue ∧ (s.dmWrite a bs).pulseDue = s.pulseDue ∧ (s.dmWrite a bs).spcFired = s.spcFired ∧ (s.dmWrite a
    bs).wins = s.wins ∧ (s.dmWrite a bs).ivs = s.ivs ∧ (s.dmWrite a bs).accs = s.accs ∧ (s.dmWrite a bs).pairs = s.pairs ∧
    (s.dmWrite a bs).hars = s.hars ∧ (s.dmWrite a bs).accLater = s.accLater ∧ (s.dmWrite a bs).accVals = s.accVals ∧
    (s.dmWrite a bs).accSnap = s.accSnap ∧ (s.dmWrite a bs).harSnap = s.harSnap ∧ (s.dmWrite a bs).remote = s.remote ∧
    (s.dmWrite a bs).casProg = s.casProg ∧ (s.dmWrite a bs).twinProg = s.twinProg ∧ (s.dmWrite a bs).twinSafeAt = s.twinSafeAt
    ∧ (s.dmWrite a bs).lin = s.lin ∧ (s.dmWrite a bs).gmb = s.gmb ∧ (s.dmWrite a bs).actHeld = s.actHeld ∧ (s.dmWrite a
    bs).tmOld = s.tmOld ∧ (s.dmWrite a bs).seamAgreed = s.seamAgreed ∧ (s.dmWrite a bs).lanes = s.lanes ∧ (s.dmWrite a
    bs).raws = s.raws ∧ (s.dmWrite a bs).store = s.store ∧ (s.dmWrite a bs).host = s.host ∧ (s.dmWrite a bs).eths = s.eths ∧
    (s.dmWrite a bs).mar = s.mar ∧ (s.dmWrite a bs).seamIn = s.seamIn ∧ (s.dmWrite a bs).ethPause = s.ethPause ∧ (s.dmWrite a
    bs).flxs = s.flxs ∧ (s.dmWrite a bs).cas = s.cas ∧ (s.dmWrite a bs).twin = s.twin ∧ (s.dmWrite a bs).power = s.power ∧
    (s.dmWrite a bs).start = s.start ∧ (s.dmWrite a bs).mbox = s.mbox := by
  repeat' (first | exact rfl | apply And.intro)

@[simp] theorem State.modStream_fields (i : Nat) (f : StreamQ → StreamQ) :
    (s.modStream i f).pending = s.pending ∧ (s.modStream i f).now = s.now ∧ (s.modStream i f).freeCtr = s.freeCtr ∧
    (s.modStream i f).run = s.run ∧ (s.modStream i f).variant = s.variant ∧ (s.modStream i f).regs = s.regs ∧ (s.modStream i
    f).msix = s.msix ∧ (s.modStream i f).out = s.out ∧ (s.modStream i f).scratch = s.scratch ∧ (s.modStream i f).deep = s.deep
    ∧ (s.modStream i f).streams = lmod s.streams i f ∧ (s.modStream i f).acq = s.acq ∧ (s.modStream i f).clk = s.clk ∧
    (s.modStream i f).loops = s.loops ∧ (s.modStream i f).act = s.act ∧ (s.modStream i f).saf = s.saf ∧ (s.modStream i
    f).vcapGood = s.vcapGood ∧ (s.modStream i f).txSeq = s.txSeq ∧ (s.modStream i f).angFired = s.angFired ∧ (s.modStream i
    f).onceTarget = s.onceTarget ∧ (s.modStream i f).tm = s.tm ∧ (s.modStream i f).digs = s.digs ∧ (s.modStream i f).seams =
    s.seams ∧ (s.modStream i f).stps = s.stps ∧ (s.modStream i f).ips = s.ips ∧ (s.modStream i f).fus = s.fus ∧ (s.modStream i
    f).convs = s.convs ∧ (s.modStream i f).injDue = s.injDue ∧ (s.modStream i f).pulseDue = s.pulseDue ∧ (s.modStream i
    f).spcFired = s.spcFired ∧ (s.modStream i f).wins = s.wins ∧ (s.modStream i f).ivs = s.ivs ∧ (s.modStream i f).accs =
    s.accs ∧ (s.modStream i f).pairs = s.pairs ∧ (s.modStream i f).hars = s.hars ∧ (s.modStream i f).accLater = s.accLater ∧
    (s.modStream i f).accVals = s.accVals ∧ (s.modStream i f).accSnap = s.accSnap ∧ (s.modStream i f).harSnap = s.harSnap ∧
    (s.modStream i f).remote = s.remote ∧ (s.modStream i f).casProg = s.casProg ∧ (s.modStream i f).twinProg = s.twinProg ∧
    (s.modStream i f).twinSafeAt = s.twinSafeAt ∧ (s.modStream i f).lin = s.lin ∧ (s.modStream i f).gmb = s.gmb ∧ (s.modStream
    i f).actHeld = s.actHeld ∧ (s.modStream i f).tmOld = s.tmOld ∧ (s.modStream i f).seamAgreed = s.seamAgreed ∧ (s.modStream
    i f).lanes = s.lanes ∧ (s.modStream i f).raws = s.raws ∧ (s.modStream i f).store = s.store ∧ (s.modStream i f).host =
    s.host ∧ (s.modStream i f).eths = s.eths ∧ (s.modStream i f).mar = s.mar ∧ (s.modStream i f).seamIn = s.seamIn ∧
    (s.modStream i f).ethPause = s.ethPause ∧ (s.modStream i f).flxs = s.flxs ∧ (s.modStream i f).cas = s.cas ∧ (s.modStream i
    f).twin = s.twin ∧ (s.modStream i f).power = s.power ∧ (s.modStream i f).start = s.start ∧ (s.modStream i f).mbox = s.mbox := by
  repeat' (first | exact rfl | apply And.intro)

@[simp] theorem State.modLoop_fields (n : Nat) (f : LoopState → LoopState) :
    (s.modLoop n f).pending = s.pending ∧ (s.modLoop n f).now = s.now ∧ (s.modLoop n f).freeCtr = s.freeCtr ∧ (s.modLoop n
    f).run = s.run ∧ (s.modLoop n f).variant = s.variant ∧ (s.modLoop n f).regs = s.regs ∧ (s.modLoop n f).msix = s.msix ∧
    (s.modLoop n f).out = s.out ∧ (s.modLoop n f).scratch = s.scratch ∧ (s.modLoop n f).deep = s.deep ∧ (s.modLoop n
    f).streams = s.streams ∧ (s.modLoop n f).acq = s.acq ∧ (s.modLoop n f).clk = s.clk ∧ (s.modLoop n f).loops = lmod s.loops
    n f ∧ (s.modLoop n f).act = s.act ∧ (s.modLoop n f).saf = s.saf ∧ (s.modLoop n f).vcapGood = s.vcapGood ∧ (s.modLoop n
    f).txSeq = s.txSeq ∧ (s.modLoop n f).angFired = s.angFired ∧ (s.modLoop n f).onceTarget = s.onceTarget ∧ (s.modLoop n
    f).tm = s.tm ∧ (s.modLoop n f).digs = s.digs ∧ (s.modLoop n f).seams = s.seams ∧ (s.modLoop n f).stps = s.stps ∧
    (s.modLoop n f).ips = s.ips ∧ (s.modLoop n f).fus = s.fus ∧ (s.modLoop n f).convs = s.convs ∧ (s.modLoop n f).injDue =
    s.injDue ∧ (s.modLoop n f).pulseDue = s.pulseDue ∧ (s.modLoop n f).spcFired = s.spcFired ∧ (s.modLoop n f).wins = s.wins ∧
    (s.modLoop n f).ivs = s.ivs ∧ (s.modLoop n f).accs = s.accs ∧ (s.modLoop n f).pairs = s.pairs ∧ (s.modLoop n f).hars =
    s.hars ∧ (s.modLoop n f).accLater = s.accLater ∧ (s.modLoop n f).accVals = s.accVals ∧ (s.modLoop n f).accSnap = s.accSnap
    ∧ (s.modLoop n f).harSnap = s.harSnap ∧ (s.modLoop n f).remote = s.remote ∧ (s.modLoop n f).casProg = s.casProg ∧
    (s.modLoop n f).twinProg = s.twinProg ∧ (s.modLoop n f).twinSafeAt = s.twinSafeAt ∧ (s.modLoop n f).lin = s.lin ∧
    (s.modLoop n f).gmb = s.gmb ∧ (s.modLoop n f).actHeld = s.actHeld ∧ (s.modLoop n f).tmOld = s.tmOld ∧ (s.modLoop n
    f).seamAgreed = s.seamAgreed ∧ (s.modLoop n f).lanes = s.lanes ∧ (s.modLoop n f).raws = s.raws ∧ (s.modLoop n f).store =
    s.store ∧ (s.modLoop n f).host = s.host ∧ (s.modLoop n f).eths = s.eths ∧ (s.modLoop n f).mar = s.mar ∧ (s.modLoop n
    f).seamIn = s.seamIn ∧ (s.modLoop n f).ethPause = s.ethPause ∧ (s.modLoop n f).flxs = s.flxs ∧ (s.modLoop n f).cas = s.cas
    ∧ (s.modLoop n f).twin = s.twin ∧ (s.modLoop n f).power = s.power ∧ (s.modLoop n f).start = s.start ∧ (s.modLoop n f).mbox
    = s.mbox := by
  repeat' (first | exact rfl | apply And.intro)

@[simp] theorem State.modSynth_fields (n : Nat) (f : SynthState → SynthState) :
    (s.modSynth n f).pending = s.pending ∧ (s.modSynth n f).now = s.now ∧ (s.modSynth n f).freeCtr = s.freeCtr ∧ (s.modSynth n
    f).run = s.run ∧ (s.modSynth n f).variant = s.variant ∧ (s.modSynth n f).regs = s.regs ∧ (s.modSynth n f).msix = s.msix ∧
    (s.modSynth n f).out = s.out ∧ (s.modSynth n f).scratch = s.scratch ∧ (s.modSynth n f).deep = s.deep ∧ (s.modSynth n
    f).streams = s.streams ∧ (s.modSynth n f).acq = s.acq ∧ (s.modSynth n f).clk = lmod s.clk n f ∧ (s.modSynth n f).loops =
    s.loops ∧ (s.modSynth n f).act = s.act ∧ (s.modSynth n f).saf = s.saf ∧ (s.modSynth n f).vcapGood = s.vcapGood ∧
    (s.modSynth n f).txSeq = s.txSeq ∧ (s.modSynth n f).angFired = s.angFired ∧ (s.modSynth n f).onceTarget = s.onceTarget ∧
    (s.modSynth n f).tm = s.tm ∧ (s.modSynth n f).digs = s.digs ∧ (s.modSynth n f).seams = s.seams ∧ (s.modSynth n f).stps =
    s.stps ∧ (s.modSynth n f).ips = s.ips ∧ (s.modSynth n f).fus = s.fus ∧ (s.modSynth n f).convs = s.convs ∧ (s.modSynth n
    f).injDue = s.injDue ∧ (s.modSynth n f).pulseDue = s.pulseDue ∧ (s.modSynth n f).spcFired = s.spcFired ∧ (s.modSynth n
    f).wins = s.wins ∧ (s.modSynth n f).ivs = s.ivs ∧ (s.modSynth n f).accs = s.accs ∧ (s.modSynth n f).pairs = s.pairs ∧
    (s.modSynth n f).hars = s.hars ∧ (s.modSynth n f).accLater = s.accLater ∧ (s.modSynth n f).accVals = s.accVals ∧
    (s.modSynth n f).accSnap = s.accSnap ∧ (s.modSynth n f).harSnap = s.harSnap ∧ (s.modSynth n f).remote = s.remote ∧
    (s.modSynth n f).casProg = s.casProg ∧ (s.modSynth n f).twinProg = s.twinProg ∧ (s.modSynth n f).twinSafeAt = s.twinSafeAt
    ∧ (s.modSynth n f).lin = s.lin ∧ (s.modSynth n f).gmb = s.gmb ∧ (s.modSynth n f).actHeld = s.actHeld ∧ (s.modSynth n
    f).tmOld = s.tmOld ∧ (s.modSynth n f).seamAgreed = s.seamAgreed ∧ (s.modSynth n f).lanes = s.lanes ∧ (s.modSynth n f).raws
    = s.raws ∧ (s.modSynth n f).store = s.store ∧ (s.modSynth n f).host = s.host ∧ (s.modSynth n f).eths = s.eths ∧
    (s.modSynth n f).mar = s.mar ∧ (s.modSynth n f).seamIn = s.seamIn ∧ (s.modSynth n f).ethPause = s.ethPause ∧ (s.modSynth n
    f).flxs = s.flxs ∧ (s.modSynth n f).cas = s.cas ∧ (s.modSynth n f).twin = s.twin ∧ (s.modSynth n f).power = s.power ∧
    (s.modSynth n f).start = s.start ∧ (s.modSynth n f).mbox = s.mbox := by
  repeat' (first | exact rfl | apply And.intro)

@[simp] theorem State.modStp_fields (g : Nat) (f : StpState → StpState) :
    (s.modStp g f).pending = s.pending ∧ (s.modStp g f).now = s.now ∧ (s.modStp g f).freeCtr = s.freeCtr ∧ (s.modStp g f).run
    = s.run ∧ (s.modStp g f).variant = s.variant ∧ (s.modStp g f).regs = s.regs ∧ (s.modStp g f).msix = s.msix ∧ (s.modStp g
    f).out = s.out ∧ (s.modStp g f).scratch = s.scratch ∧ (s.modStp g f).deep = s.deep ∧ (s.modStp g f).streams = s.streams ∧
    (s.modStp g f).acq = s.acq ∧ (s.modStp g f).clk = s.clk ∧ (s.modStp g f).loops = s.loops ∧ (s.modStp g f).act = s.act ∧
    (s.modStp g f).saf = s.saf ∧ (s.modStp g f).vcapGood = s.vcapGood ∧ (s.modStp g f).txSeq = s.txSeq ∧ (s.modStp g
    f).angFired = s.angFired ∧ (s.modStp g f).onceTarget = s.onceTarget ∧ (s.modStp g f).tm = s.tm ∧ (s.modStp g f).digs =
    s.digs ∧ (s.modStp g f).seams = s.seams ∧ (s.modStp g f).stps = lmod s.stps g f ∧ (s.modStp g f).ips = s.ips ∧ (s.modStp g
    f).fus = s.fus ∧ (s.modStp g f).convs = s.convs ∧ (s.modStp g f).injDue = s.injDue ∧ (s.modStp g f).pulseDue = s.pulseDue
    ∧ (s.modStp g f).spcFired = s.spcFired ∧ (s.modStp g f).wins = s.wins ∧ (s.modStp g f).ivs = s.ivs ∧ (s.modStp g f).accs =
    s.accs ∧ (s.modStp g f).pairs = s.pairs ∧ (s.modStp g f).hars = s.hars ∧ (s.modStp g f).accLater = s.accLater ∧ (s.modStp
    g f).accVals = s.accVals ∧ (s.modStp g f).accSnap = s.accSnap ∧ (s.modStp g f).harSnap = s.harSnap ∧ (s.modStp g f).remote
    = s.remote ∧ (s.modStp g f).casProg = s.casProg ∧ (s.modStp g f).twinProg = s.twinProg ∧ (s.modStp g f).twinSafeAt =
    s.twinSafeAt ∧ (s.modStp g f).lin = s.lin ∧ (s.modStp g f).gmb = s.gmb ∧ (s.modStp g f).actHeld = s.actHeld ∧ (s.modStp g
    f).tmOld = s.tmOld ∧ (s.modStp g f).seamAgreed = s.seamAgreed ∧ (s.modStp g f).lanes = s.lanes ∧ (s.modStp g f).raws =
    s.raws ∧ (s.modStp g f).store = s.store ∧ (s.modStp g f).host = s.host ∧ (s.modStp g f).eths = s.eths ∧ (s.modStp g f).mar
    = s.mar ∧ (s.modStp g f).seamIn = s.seamIn ∧ (s.modStp g f).ethPause = s.ethPause ∧ (s.modStp g f).flxs = s.flxs ∧
    (s.modStp g f).cas = s.cas ∧ (s.modStp g f).twin = s.twin ∧ (s.modStp g f).power = s.power ∧ (s.modStp g f).start =
    s.start ∧ (s.modStp g f).mbox = s.mbox := by
  repeat' (first | exact rfl | apply And.intro)

@[simp] theorem State.modIp_fields (u : Nat) (f : IpUnit → IpUnit) :
    (s.modIp u f).pending = s.pending ∧ (s.modIp u f).now = s.now ∧ (s.modIp u f).freeCtr = s.freeCtr ∧ (s.modIp u f).run =
    s.run ∧ (s.modIp u f).variant = s.variant ∧ (s.modIp u f).regs = s.regs ∧ (s.modIp u f).msix = s.msix ∧ (s.modIp u f).out
    = s.out ∧ (s.modIp u f).scratch = s.scratch ∧ (s.modIp u f).deep = s.deep ∧ (s.modIp u f).streams = s.streams ∧ (s.modIp u
    f).acq = s.acq ∧ (s.modIp u f).clk = s.clk ∧ (s.modIp u f).loops = s.loops ∧ (s.modIp u f).act = s.act ∧ (s.modIp u f).saf
    = s.saf ∧ (s.modIp u f).vcapGood = s.vcapGood ∧ (s.modIp u f).txSeq = s.txSeq ∧ (s.modIp u f).angFired = s.angFired ∧
    (s.modIp u f).onceTarget = s.onceTarget ∧ (s.modIp u f).tm = s.tm ∧ (s.modIp u f).digs = s.digs ∧ (s.modIp u f).seams =
    s.seams ∧ (s.modIp u f).stps = s.stps ∧ (s.modIp u f).ips = lmod s.ips u f ∧ (s.modIp u f).fus = s.fus ∧ (s.modIp u
    f).convs = s.convs ∧ (s.modIp u f).injDue = s.injDue ∧ (s.modIp u f).pulseDue = s.pulseDue ∧ (s.modIp u f).spcFired =
    s.spcFired ∧ (s.modIp u f).wins = s.wins ∧ (s.modIp u f).ivs = s.ivs ∧ (s.modIp u f).accs = s.accs ∧ (s.modIp u f).pairs =
    s.pairs ∧ (s.modIp u f).hars = s.hars ∧ (s.modIp u f).accLater = s.accLater ∧ (s.modIp u f).accVals = s.accVals ∧ (s.modIp
    u f).accSnap = s.accSnap ∧ (s.modIp u f).harSnap = s.harSnap ∧ (s.modIp u f).remote = s.remote ∧ (s.modIp u f).casProg =
    s.casProg ∧ (s.modIp u f).twinProg = s.twinProg ∧ (s.modIp u f).twinSafeAt = s.twinSafeAt ∧ (s.modIp u f).lin = s.lin ∧
    (s.modIp u f).gmb = s.gmb ∧ (s.modIp u f).actHeld = s.actHeld ∧ (s.modIp u f).tmOld = s.tmOld ∧ (s.modIp u f).seamAgreed =
    s.seamAgreed ∧ (s.modIp u f).lanes = s.lanes ∧ (s.modIp u f).raws = s.raws ∧ (s.modIp u f).store = s.store ∧ (s.modIp u
    f).host = s.host ∧ (s.modIp u f).eths = s.eths ∧ (s.modIp u f).mar = s.mar ∧ (s.modIp u f).seamIn = s.seamIn ∧ (s.modIp u
    f).ethPause = s.ethPause ∧ (s.modIp u f).flxs = s.flxs ∧ (s.modIp u f).cas = s.cas ∧ (s.modIp u f).twin = s.twin ∧
    (s.modIp u f).power = s.power ∧ (s.modIp u f).start = s.start ∧ (s.modIp u f).mbox = s.mbox := by
  repeat' (first | exact rfl | apply And.intro)

@[simp] theorem State.modFu_fields (u : Nat) (f : FuUnit → FuUnit) :
    (s.modFu u f).pending = s.pending ∧ (s.modFu u f).now = s.now ∧ (s.modFu u f).freeCtr = s.freeCtr ∧ (s.modFu u f).run =
    s.run ∧ (s.modFu u f).variant = s.variant ∧ (s.modFu u f).regs = s.regs ∧ (s.modFu u f).msix = s.msix ∧ (s.modFu u f).out
    = s.out ∧ (s.modFu u f).scratch = s.scratch ∧ (s.modFu u f).deep = s.deep ∧ (s.modFu u f).streams = s.streams ∧ (s.modFu u
    f).acq = s.acq ∧ (s.modFu u f).clk = s.clk ∧ (s.modFu u f).loops = s.loops ∧ (s.modFu u f).act = s.act ∧ (s.modFu u f).saf
    = s.saf ∧ (s.modFu u f).vcapGood = s.vcapGood ∧ (s.modFu u f).txSeq = s.txSeq ∧ (s.modFu u f).angFired = s.angFired ∧
    (s.modFu u f).onceTarget = s.onceTarget ∧ (s.modFu u f).tm = s.tm ∧ (s.modFu u f).digs = s.digs ∧ (s.modFu u f).seams =
    s.seams ∧ (s.modFu u f).stps = s.stps ∧ (s.modFu u f).ips = s.ips ∧ (s.modFu u f).fus = lmod s.fus u f ∧ (s.modFu u
    f).convs = s.convs ∧ (s.modFu u f).injDue = s.injDue ∧ (s.modFu u f).pulseDue = s.pulseDue ∧ (s.modFu u f).spcFired =
    s.spcFired ∧ (s.modFu u f).wins = s.wins ∧ (s.modFu u f).ivs = s.ivs ∧ (s.modFu u f).accs = s.accs ∧ (s.modFu u f).pairs =
    s.pairs ∧ (s.modFu u f).hars = s.hars ∧ (s.modFu u f).accLater = s.accLater ∧ (s.modFu u f).accVals = s.accVals ∧ (s.modFu
    u f).accSnap = s.accSnap ∧ (s.modFu u f).harSnap = s.harSnap ∧ (s.modFu u f).remote = s.remote ∧ (s.modFu u f).casProg =
    s.casProg ∧ (s.modFu u f).twinProg = s.twinProg ∧ (s.modFu u f).twinSafeAt = s.twinSafeAt ∧ (s.modFu u f).lin = s.lin ∧
    (s.modFu u f).gmb = s.gmb ∧ (s.modFu u f).actHeld = s.actHeld ∧ (s.modFu u f).tmOld = s.tmOld ∧ (s.modFu u f).seamAgreed =
    s.seamAgreed ∧ (s.modFu u f).lanes = s.lanes ∧ (s.modFu u f).raws = s.raws ∧ (s.modFu u f).store = s.store ∧ (s.modFu u
    f).host = s.host ∧ (s.modFu u f).eths = s.eths ∧ (s.modFu u f).mar = s.mar ∧ (s.modFu u f).seamIn = s.seamIn ∧ (s.modFu u
    f).ethPause = s.ethPause ∧ (s.modFu u f).flxs = s.flxs ∧ (s.modFu u f).cas = s.cas ∧ (s.modFu u f).twin = s.twin ∧
    (s.modFu u f).power = s.power ∧ (s.modFu u f).start = s.start ∧ (s.modFu u f).mbox = s.mbox := by
  repeat' (first | exact rfl | apply And.intro)

@[simp] theorem State.modConv_fields (n : Nat) (f : ConvState → ConvState) :
    (s.modConv n f).pending = s.pending ∧ (s.modConv n f).now = s.now ∧ (s.modConv n f).freeCtr = s.freeCtr ∧ (s.modConv n
    f).run = s.run ∧ (s.modConv n f).variant = s.variant ∧ (s.modConv n f).regs = s.regs ∧ (s.modConv n f).msix = s.msix ∧
    (s.modConv n f).out = s.out ∧ (s.modConv n f).scratch = s.scratch ∧ (s.modConv n f).deep = s.deep ∧ (s.modConv n
    f).streams = s.streams ∧ (s.modConv n f).acq = s.acq ∧ (s.modConv n f).clk = s.clk ∧ (s.modConv n f).loops = s.loops ∧
    (s.modConv n f).act = s.act ∧ (s.modConv n f).saf = s.saf ∧ (s.modConv n f).vcapGood = s.vcapGood ∧ (s.modConv n f).txSeq
    = s.txSeq ∧ (s.modConv n f).angFired = s.angFired ∧ (s.modConv n f).onceTarget = s.onceTarget ∧ (s.modConv n f).tm = s.tm
    ∧ (s.modConv n f).digs = s.digs ∧ (s.modConv n f).seams = s.seams ∧ (s.modConv n f).stps = s.stps ∧ (s.modConv n f).ips =
    s.ips ∧ (s.modConv n f).fus = s.fus ∧ (s.modConv n f).convs = lmod s.convs n f ∧ (s.modConv n f).injDue = s.injDue ∧
    (s.modConv n f).pulseDue = s.pulseDue ∧ (s.modConv n f).spcFired = s.spcFired ∧ (s.modConv n f).wins = s.wins ∧ (s.modConv
    n f).ivs = s.ivs ∧ (s.modConv n f).accs = s.accs ∧ (s.modConv n f).pairs = s.pairs ∧ (s.modConv n f).hars = s.hars ∧
    (s.modConv n f).accLater = s.accLater ∧ (s.modConv n f).accVals = s.accVals ∧ (s.modConv n f).accSnap = s.accSnap ∧
    (s.modConv n f).harSnap = s.harSnap ∧ (s.modConv n f).remote = s.remote ∧ (s.modConv n f).casProg = s.casProg ∧ (s.modConv
    n f).twinProg = s.twinProg ∧ (s.modConv n f).twinSafeAt = s.twinSafeAt ∧ (s.modConv n f).lin = s.lin ∧ (s.modConv n f).gmb
    = s.gmb ∧ (s.modConv n f).actHeld = s.actHeld ∧ (s.modConv n f).tmOld = s.tmOld ∧ (s.modConv n f).seamAgreed =
    s.seamAgreed ∧ (s.modConv n f).lanes = s.lanes ∧ (s.modConv n f).raws = s.raws ∧ (s.modConv n f).store = s.store ∧
    (s.modConv n f).host = s.host ∧ (s.modConv n f).eths = s.eths ∧ (s.modConv n f).mar = s.mar ∧ (s.modConv n f).seamIn =
    s.seamIn ∧ (s.modConv n f).ethPause = s.ethPause ∧ (s.modConv n f).flxs = s.flxs ∧ (s.modConv n f).cas = s.cas ∧
    (s.modConv n f).twin = s.twin ∧ (s.modConv n f).power = s.power ∧ (s.modConv n f).start = s.start ∧ (s.modConv n f).mbox =
    s.mbox := by
  repeat' (first | exact rfl | apply And.intro)

@[simp] theorem State.modIv_fields (n : Nat) (f : IvState → IvState) :
    (s.modIv n f).pending = s.pending ∧ (s.modIv n f).now = s.now ∧ (s.modIv n f).freeCtr = s.freeCtr ∧ (s.modIv n f).run =
    s.run ∧ (s.modIv n f).variant = s.variant ∧ (s.modIv n f).regs = s.regs ∧ (s.modIv n f).msix = s.msix ∧ (s.modIv n f).out
    = s.out ∧ (s.modIv n f).scratch = s.scratch ∧ (s.modIv n f).deep = s.deep ∧ (s.modIv n f).streams = s.streams ∧ (s.modIv n
    f).acq = s.acq ∧ (s.modIv n f).clk = s.clk ∧ (s.modIv n f).loops = s.loops ∧ (s.modIv n f).act = s.act ∧ (s.modIv n f).saf
    = s.saf ∧ (s.modIv n f).vcapGood = s.vcapGood ∧ (s.modIv n f).txSeq = s.txSeq ∧ (s.modIv n f).angFired = s.angFired ∧
    (s.modIv n f).onceTarget = s.onceTarget ∧ (s.modIv n f).tm = s.tm ∧ (s.modIv n f).digs = s.digs ∧ (s.modIv n f).seams =
    s.seams ∧ (s.modIv n f).stps = s.stps ∧ (s.modIv n f).ips = s.ips ∧ (s.modIv n f).fus = s.fus ∧ (s.modIv n f).convs =
    s.convs ∧ (s.modIv n f).injDue = s.injDue ∧ (s.modIv n f).pulseDue = s.pulseDue ∧ (s.modIv n f).spcFired = s.spcFired ∧
    (s.modIv n f).wins = s.wins ∧ (s.modIv n f).ivs = lmod s.ivs n (fun v => v.map f) ∧ (s.modIv n f).accs = s.accs ∧ (s.modIv
    n f).pairs = s.pairs ∧ (s.modIv n f).hars = s.hars ∧ (s.modIv n f).accLater = s.accLater ∧ (s.modIv n f).accVals =
    s.accVals ∧ (s.modIv n f).accSnap = s.accSnap ∧ (s.modIv n f).harSnap = s.harSnap ∧ (s.modIv n f).remote = s.remote ∧
    (s.modIv n f).casProg = s.casProg ∧ (s.modIv n f).twinProg = s.twinProg ∧ (s.modIv n f).twinSafeAt = s.twinSafeAt ∧
    (s.modIv n f).lin = s.lin ∧ (s.modIv n f).gmb = s.gmb ∧ (s.modIv n f).actHeld = s.actHeld ∧ (s.modIv n f).tmOld = s.tmOld
    ∧ (s.modIv n f).seamAgreed = s.seamAgreed ∧ (s.modIv n f).lanes = s.lanes ∧ (s.modIv n f).raws = s.raws ∧ (s.modIv n
    f).store = s.store ∧ (s.modIv n f).host = s.host ∧ (s.modIv n f).eths = s.eths ∧ (s.modIv n f).mar = s.mar ∧ (s.modIv n
    f).seamIn = s.seamIn ∧ (s.modIv n f).ethPause = s.ethPause ∧ (s.modIv n f).flxs = s.flxs ∧ (s.modIv n f).cas = s.cas ∧
    (s.modIv n f).twin = s.twin ∧ (s.modIv n f).power = s.power ∧ (s.modIv n f).start = s.start ∧ (s.modIv n f).mbox = s.mbox := by
  repeat' (first | exact rfl | apply And.intro)

@[simp] theorem State.modAcq_fields (f : AcqState → AcqState) :
    (s.modAcq f).pending = s.pending ∧ (s.modAcq f).now = s.now ∧ (s.modAcq f).freeCtr = s.freeCtr ∧ (s.modAcq f).run = s.run
    ∧ (s.modAcq f).variant = s.variant ∧ (s.modAcq f).regs = s.regs ∧ (s.modAcq f).msix = s.msix ∧ (s.modAcq f).out = s.out ∧
    (s.modAcq f).scratch = s.scratch ∧ (s.modAcq f).deep = s.deep ∧ (s.modAcq f).streams = s.streams ∧ (s.modAcq f).acq = f
    s.acq ∧ (s.modAcq f).clk = s.clk ∧ (s.modAcq f).loops = s.loops ∧ (s.modAcq f).act = s.act ∧ (s.modAcq f).saf = s.saf ∧
    (s.modAcq f).vcapGood = s.vcapGood ∧ (s.modAcq f).txSeq = s.txSeq ∧ (s.modAcq f).angFired = s.angFired ∧ (s.modAcq
    f).onceTarget = s.onceTarget ∧ (s.modAcq f).tm = s.tm ∧ (s.modAcq f).digs = s.digs ∧ (s.modAcq f).seams = s.seams ∧
    (s.modAcq f).stps = s.stps ∧ (s.modAcq f).ips = s.ips ∧ (s.modAcq f).fus = s.fus ∧ (s.modAcq f).convs = s.convs ∧
    (s.modAcq f).injDue = s.injDue ∧ (s.modAcq f).pulseDue = s.pulseDue ∧ (s.modAcq f).spcFired = s.spcFired ∧ (s.modAcq
    f).wins = s.wins ∧ (s.modAcq f).ivs = s.ivs ∧ (s.modAcq f).accs = s.accs ∧ (s.modAcq f).pairs = s.pairs ∧ (s.modAcq
    f).hars = s.hars ∧ (s.modAcq f).accLater = s.accLater ∧ (s.modAcq f).accVals = s.accVals ∧ (s.modAcq f).accSnap =
    s.accSnap ∧ (s.modAcq f).harSnap = s.harSnap ∧ (s.modAcq f).remote = s.remote ∧ (s.modAcq f).casProg = s.casProg ∧
    (s.modAcq f).twinProg = s.twinProg ∧ (s.modAcq f).twinSafeAt = s.twinSafeAt ∧ (s.modAcq f).lin = s.lin ∧ (s.modAcq f).gmb
    = s.gmb ∧ (s.modAcq f).actHeld = s.actHeld ∧ (s.modAcq f).tmOld = s.tmOld ∧ (s.modAcq f).seamAgreed = s.seamAgreed ∧
    (s.modAcq f).lanes = s.lanes ∧ (s.modAcq f).raws = s.raws ∧ (s.modAcq f).store = s.store ∧ (s.modAcq f).host = s.host ∧
    (s.modAcq f).eths = s.eths ∧ (s.modAcq f).mar = s.mar ∧ (s.modAcq f).seamIn = s.seamIn ∧ (s.modAcq f).ethPause =
    s.ethPause ∧ (s.modAcq f).flxs = s.flxs ∧ (s.modAcq f).cas = s.cas ∧ (s.modAcq f).twin = s.twin ∧ (s.modAcq f).power =
    s.power ∧ (s.modAcq f).start = s.start ∧ (s.modAcq f).mbox = s.mbox := by
  repeat' (first | exact rfl | apply And.intro)

@[simp] theorem State.modFlx_fields (p : Port) (f : FlxPort → FlxPort) :
    (s.modFlx p f).pending = s.pending ∧ (s.modFlx p f).now = s.now ∧ (s.modFlx p f).freeCtr = s.freeCtr ∧ (s.modFlx p f).run
    = s.run ∧ (s.modFlx p f).variant = s.variant ∧ (s.modFlx p f).regs = s.regs ∧ (s.modFlx p f).msix = s.msix ∧ (s.modFlx p
    f).out = s.out ∧ (s.modFlx p f).scratch = s.scratch ∧ (s.modFlx p f).deep = s.deep ∧ (s.modFlx p f).streams = s.streams ∧
    (s.modFlx p f).acq = s.acq ∧ (s.modFlx p f).clk = s.clk ∧ (s.modFlx p f).loops = s.loops ∧ (s.modFlx p f).act = s.act ∧
    (s.modFlx p f).saf = s.saf ∧ (s.modFlx p f).vcapGood = s.vcapGood ∧ (s.modFlx p f).txSeq = s.txSeq ∧ (s.modFlx p
    f).angFired = s.angFired ∧ (s.modFlx p f).onceTarget = s.onceTarget ∧ (s.modFlx p f).tm = s.tm ∧ (s.modFlx p f).digs =
    s.digs ∧ (s.modFlx p f).seams = s.seams ∧ (s.modFlx p f).stps = s.stps ∧ (s.modFlx p f).ips = s.ips ∧ (s.modFlx p f).fus =
    s.fus ∧ (s.modFlx p f).convs = s.convs ∧ (s.modFlx p f).injDue = s.injDue ∧ (s.modFlx p f).pulseDue = s.pulseDue ∧
    (s.modFlx p f).spcFired = s.spcFired ∧ (s.modFlx p f).wins = s.wins ∧ (s.modFlx p f).ivs = s.ivs ∧ (s.modFlx p f).accs =
    s.accs ∧ (s.modFlx p f).pairs = s.pairs ∧ (s.modFlx p f).hars = s.hars ∧ (s.modFlx p f).accLater = s.accLater ∧ (s.modFlx
    p f).accVals = s.accVals ∧ (s.modFlx p f).accSnap = s.accSnap ∧ (s.modFlx p f).harSnap = s.harSnap ∧ (s.modFlx p f).remote
    = s.remote ∧ (s.modFlx p f).casProg = s.casProg ∧ (s.modFlx p f).twinProg = s.twinProg ∧ (s.modFlx p f).twinSafeAt =
    s.twinSafeAt ∧ (s.modFlx p f).lin = s.lin ∧ (s.modFlx p f).gmb = s.gmb ∧ (s.modFlx p f).actHeld = s.actHeld ∧ (s.modFlx p
    f).tmOld = s.tmOld ∧ (s.modFlx p f).seamAgreed = s.seamAgreed ∧ (s.modFlx p f).lanes = s.lanes ∧ (s.modFlx p f).raws =
    s.raws ∧ (s.modFlx p f).store = s.store ∧ (s.modFlx p f).host = s.host ∧ (s.modFlx p f).eths = s.eths ∧ (s.modFlx p f).mar
    = s.mar ∧ (s.modFlx p f).seamIn = s.seamIn ∧ (s.modFlx p f).ethPause = s.ethPause ∧ (s.modFlx p f).flxs = lmod s.flxs
    p.idx f ∧ (s.modFlx p f).cas = s.cas ∧ (s.modFlx p f).twin = s.twin ∧ (s.modFlx p f).power = s.power ∧ (s.modFlx p
    f).start = s.start ∧ (s.modFlx p f).mbox = s.mbox := by
  repeat' (first | exact rfl | apply And.intro)

@[simp] theorem State.modCas_fields (f : CasState → CasState) :
    (s.modCas f).pending = s.pending ∧ (s.modCas f).now = s.now ∧ (s.modCas f).freeCtr = s.freeCtr ∧ (s.modCas f).run = s.run
    ∧ (s.modCas f).variant = s.variant ∧ (s.modCas f).regs = s.regs ∧ (s.modCas f).msix = s.msix ∧ (s.modCas f).out = s.out ∧
    (s.modCas f).scratch = s.scratch ∧ (s.modCas f).deep = s.deep ∧ (s.modCas f).streams = s.streams ∧ (s.modCas f).acq =
    s.acq ∧ (s.modCas f).clk = s.clk ∧ (s.modCas f).loops = s.loops ∧ (s.modCas f).act = s.act ∧ (s.modCas f).saf = s.saf ∧
    (s.modCas f).vcapGood = s.vcapGood ∧ (s.modCas f).txSeq = s.txSeq ∧ (s.modCas f).angFired = s.angFired ∧ (s.modCas
    f).onceTarget = s.onceTarget ∧ (s.modCas f).tm = s.tm ∧ (s.modCas f).digs = s.digs ∧ (s.modCas f).seams = s.seams ∧
    (s.modCas f).stps = s.stps ∧ (s.modCas f).ips = s.ips ∧ (s.modCas f).fus = s.fus ∧ (s.modCas f).convs = s.convs ∧
    (s.modCas f).injDue = s.injDue ∧ (s.modCas f).pulseDue = s.pulseDue ∧ (s.modCas f).spcFired = s.spcFired ∧ (s.modCas
    f).wins = s.wins ∧ (s.modCas f).ivs = s.ivs ∧ (s.modCas f).accs = s.accs ∧ (s.modCas f).pairs = s.pairs ∧ (s.modCas
    f).hars = s.hars ∧ (s.modCas f).accLater = s.accLater ∧ (s.modCas f).accVals = s.accVals ∧ (s.modCas f).accSnap =
    s.accSnap ∧ (s.modCas f).harSnap = s.harSnap ∧ (s.modCas f).remote = s.remote ∧ (s.modCas f).casProg = s.casProg ∧
    (s.modCas f).twinProg = s.twinProg ∧ (s.modCas f).twinSafeAt = s.twinSafeAt ∧ (s.modCas f).lin = s.lin ∧ (s.modCas f).gmb
    = s.gmb ∧ (s.modCas f).actHeld = s.actHeld ∧ (s.modCas f).tmOld = s.tmOld ∧ (s.modCas f).seamAgreed = s.seamAgreed ∧
    (s.modCas f).lanes = s.lanes ∧ (s.modCas f).raws = s.raws ∧ (s.modCas f).store = s.store ∧ (s.modCas f).host = s.host ∧
    (s.modCas f).eths = s.eths ∧ (s.modCas f).mar = s.mar ∧ (s.modCas f).seamIn = s.seamIn ∧ (s.modCas f).ethPause =
    s.ethPause ∧ (s.modCas f).flxs = s.flxs ∧ (s.modCas f).cas = f s.cas ∧ (s.modCas f).twin = s.twin ∧ (s.modCas f).power =
    s.power ∧ (s.modCas f).start = s.start ∧ (s.modCas f).mbox = s.mbox := by
  repeat' (first | exact rfl | apply And.intro)

@[simp] theorem State.modTwin_fields (f : TwinState → TwinState) :
    (s.modTwin f).pending = s.pending ∧ (s.modTwin f).now = s.now ∧ (s.modTwin f).freeCtr = s.freeCtr ∧ (s.modTwin f).run =
    s.run ∧ (s.modTwin f).variant = s.variant ∧ (s.modTwin f).regs = s.regs ∧ (s.modTwin f).msix = s.msix ∧ (s.modTwin f).out
    = s.out ∧ (s.modTwin f).scratch = s.scratch ∧ (s.modTwin f).deep = s.deep ∧ (s.modTwin f).streams = s.streams ∧ (s.modTwin
    f).acq = s.acq ∧ (s.modTwin f).clk = s.clk ∧ (s.modTwin f).loops = s.loops ∧ (s.modTwin f).act = s.act ∧ (s.modTwin f).saf
    = s.saf ∧ (s.modTwin f).vcapGood = s.vcapGood ∧ (s.modTwin f).txSeq = s.txSeq ∧ (s.modTwin f).angFired = s.angFired ∧
    (s.modTwin f).onceTarget = s.onceTarget ∧ (s.modTwin f).tm = s.tm ∧ (s.modTwin f).digs = s.digs ∧ (s.modTwin f).seams =
    s.seams ∧ (s.modTwin f).stps = s.stps ∧ (s.modTwin f).ips = s.ips ∧ (s.modTwin f).fus = s.fus ∧ (s.modTwin f).convs =
    s.convs ∧ (s.modTwin f).injDue = s.injDue ∧ (s.modTwin f).pulseDue = s.pulseDue ∧ (s.modTwin f).spcFired = s.spcFired ∧
    (s.modTwin f).wins = s.wins ∧ (s.modTwin f).ivs = s.ivs ∧ (s.modTwin f).accs = s.accs ∧ (s.modTwin f).pairs = s.pairs ∧
    (s.modTwin f).hars = s.hars ∧ (s.modTwin f).accLater = s.accLater ∧ (s.modTwin f).accVals = s.accVals ∧ (s.modTwin
    f).accSnap = s.accSnap ∧ (s.modTwin f).harSnap = s.harSnap ∧ (s.modTwin f).remote = s.remote ∧ (s.modTwin f).casProg =
    s.casProg ∧ (s.modTwin f).twinProg = s.twinProg ∧ (s.modTwin f).twinSafeAt = s.twinSafeAt ∧ (s.modTwin f).lin = s.lin ∧
    (s.modTwin f).gmb = s.gmb ∧ (s.modTwin f).actHeld = s.actHeld ∧ (s.modTwin f).tmOld = s.tmOld ∧ (s.modTwin f).seamAgreed =
    s.seamAgreed ∧ (s.modTwin f).lanes = s.lanes ∧ (s.modTwin f).raws = s.raws ∧ (s.modTwin f).store = s.store ∧ (s.modTwin
    f).host = s.host ∧ (s.modTwin f).eths = s.eths ∧ (s.modTwin f).mar = s.mar ∧ (s.modTwin f).seamIn = s.seamIn ∧ (s.modTwin
    f).ethPause = s.ethPause ∧ (s.modTwin f).flxs = s.flxs ∧ (s.modTwin f).cas = s.cas ∧ (s.modTwin f).twin = f s.twin ∧
    (s.modTwin f).power = s.power ∧ (s.modTwin f).start = s.start ∧ (s.modTwin f).mbox = s.mbox := by
  repeat' (first | exact rfl | apply And.intro)

@[simp] theorem State.bumpSeq_fields (type : Nat) :
    (s.bumpSeq type).pending = s.pending ∧ (s.bumpSeq type).now = s.now ∧ (s.bumpSeq type).freeCtr = s.freeCtr ∧ (s.bumpSeq
    type).run = s.run ∧ (s.bumpSeq type).variant = s.variant ∧ (s.bumpSeq type).regs = s.regs ∧ (s.bumpSeq type).msix = s.msix
    ∧ (s.bumpSeq type).out = s.out ∧ (s.bumpSeq type).scratch = s.scratch ∧ (s.bumpSeq type).deep = s.deep ∧ (s.bumpSeq
    type).streams = s.streams ∧ (s.bumpSeq type).acq = s.acq ∧ (s.bumpSeq type).clk = s.clk ∧ (s.bumpSeq type).loops = s.loops
    ∧ (s.bumpSeq type).act = s.act ∧ (s.bumpSeq type).saf = s.saf ∧ (s.bumpSeq type).vcapGood = s.vcapGood ∧ (s.bumpSeq
    type).txSeq = lmod s.txSeq type (fun n => (n + 1) % 256) ∧ (s.bumpSeq type).angFired = s.angFired ∧ (s.bumpSeq
    type).onceTarget = s.onceTarget ∧ (s.bumpSeq type).tm = s.tm ∧ (s.bumpSeq type).digs = s.digs ∧ (s.bumpSeq type).seams =
    s.seams ∧ (s.bumpSeq type).stps = s.stps ∧ (s.bumpSeq type).ips = s.ips ∧ (s.bumpSeq type).fus = s.fus ∧ (s.bumpSeq
    type).convs = s.convs ∧ (s.bumpSeq type).injDue = s.injDue ∧ (s.bumpSeq type).pulseDue = s.pulseDue ∧ (s.bumpSeq
    type).spcFired = s.spcFired ∧ (s.bumpSeq type).wins = s.wins ∧ (s.bumpSeq type).ivs = s.ivs ∧ (s.bumpSeq type).accs =
    s.accs ∧ (s.bumpSeq type).pairs = s.pairs ∧ (s.bumpSeq type).hars = s.hars ∧ (s.bumpSeq type).accLater = s.accLater ∧
    (s.bumpSeq type).accVals = s.accVals ∧ (s.bumpSeq type).accSnap = s.accSnap ∧ (s.bumpSeq type).harSnap = s.harSnap ∧
    (s.bumpSeq type).remote = s.remote ∧ (s.bumpSeq type).casProg = s.casProg ∧ (s.bumpSeq type).twinProg = s.twinProg ∧
    (s.bumpSeq type).twinSafeAt = s.twinSafeAt ∧ (s.bumpSeq type).lin = s.lin ∧ (s.bumpSeq type).gmb = s.gmb ∧ (s.bumpSeq
    type).actHeld = s.actHeld ∧ (s.bumpSeq type).tmOld = s.tmOld ∧ (s.bumpSeq type).seamAgreed = s.seamAgreed ∧ (s.bumpSeq
    type).lanes = s.lanes ∧ (s.bumpSeq type).raws = s.raws ∧ (s.bumpSeq type).store = s.store ∧ (s.bumpSeq type).host = s.host
    ∧ (s.bumpSeq type).eths = s.eths ∧ (s.bumpSeq type).mar = s.mar ∧ (s.bumpSeq type).seamIn = s.seamIn ∧ (s.bumpSeq
    type).ethPause = s.ethPause ∧ (s.bumpSeq type).flxs = s.flxs ∧ (s.bumpSeq type).cas = s.cas ∧ (s.bumpSeq type).twin =
    s.twin ∧ (s.bumpSeq type).power = s.power ∧ (s.bumpSeq type).start = s.start ∧ (s.bumpSeq type).mbox = s.mbox := by
  repeat' (first | exact rfl | apply And.intro)

@[simp] theorem State.modAct_fields (n : Nat) (f : ActOut → ActOut) :
    (s.modAct n f).pending = s.pending ∧ (s.modAct n f).now = s.now ∧ (s.modAct n f).freeCtr = s.freeCtr ∧ (s.modAct n f).run
    = s.run ∧ (s.modAct n f).variant = s.variant ∧ (s.modAct n f).regs = s.regs ∧ (s.modAct n f).msix = s.msix ∧ (s.modAct n
    f).out = s.out ∧ (s.modAct n f).scratch = s.scratch ∧ (s.modAct n f).deep = s.deep ∧ (s.modAct n f).streams = s.streams ∧
    (s.modAct n f).acq = s.acq ∧ (s.modAct n f).clk = s.clk ∧ (s.modAct n f).loops = s.loops ∧ (s.modAct n f).act = lmod s.act
    n f ∧ (s.modAct n f).saf = s.saf ∧ (s.modAct n f).vcapGood = s.vcapGood ∧ (s.modAct n f).txSeq = s.txSeq ∧ (s.modAct n
    f).angFired = s.angFired ∧ (s.modAct n f).onceTarget = s.onceTarget ∧ (s.modAct n f).tm = s.tm ∧ (s.modAct n f).digs =
    s.digs ∧ (s.modAct n f).seams = s.seams ∧ (s.modAct n f).stps = s.stps ∧ (s.modAct n f).ips = s.ips ∧ (s.modAct n f).fus =
    s.fus ∧ (s.modAct n f).convs = s.convs ∧ (s.modAct n f).injDue = s.injDue ∧ (s.modAct n f).pulseDue = s.pulseDue ∧
    (s.modAct n f).spcFired = s.spcFired ∧ (s.modAct n f).wins = s.wins ∧ (s.modAct n f).ivs = s.ivs ∧ (s.modAct n f).accs =
    s.accs ∧ (s.modAct n f).pairs = s.pairs ∧ (s.modAct n f).hars = s.hars ∧ (s.modAct n f).accLater = s.accLater ∧ (s.modAct
    n f).accVals = s.accVals ∧ (s.modAct n f).accSnap = s.accSnap ∧ (s.modAct n f).harSnap = s.harSnap ∧ (s.modAct n f).remote
    = s.remote ∧ (s.modAct n f).casProg = s.casProg ∧ (s.modAct n f).twinProg = s.twinProg ∧ (s.modAct n f).twinSafeAt =
    s.twinSafeAt ∧ (s.modAct n f).lin = s.lin ∧ (s.modAct n f).gmb = s.gmb ∧ (s.modAct n f).actHeld = s.actHeld ∧ (s.modAct n
    f).tmOld = s.tmOld ∧ (s.modAct n f).seamAgreed = s.seamAgreed ∧ (s.modAct n f).lanes = s.lanes ∧ (s.modAct n f).raws =
    s.raws ∧ (s.modAct n f).store = s.store ∧ (s.modAct n f).host = s.host ∧ (s.modAct n f).eths = s.eths ∧ (s.modAct n f).mar
    = s.mar ∧ (s.modAct n f).seamIn = s.seamIn ∧ (s.modAct n f).ethPause = s.ethPause ∧ (s.modAct n f).flxs = s.flxs ∧
    (s.modAct n f).cas = s.cas ∧ (s.modAct n f).twin = s.twin ∧ (s.modAct n f).power = s.power ∧ (s.modAct n f).start =
    s.start ∧ (s.modAct n f).mbox = s.mbox := by
  repeat' (first | exact rfl | apply And.intro)

@[simp] theorem State.modSaf_fields (f : SafState → SafState) :
    (s.modSaf f).pending = s.pending ∧ (s.modSaf f).now = s.now ∧ (s.modSaf f).freeCtr = s.freeCtr ∧ (s.modSaf f).run = s.run
    ∧ (s.modSaf f).variant = s.variant ∧ (s.modSaf f).regs = s.regs ∧ (s.modSaf f).msix = s.msix ∧ (s.modSaf f).out = s.out ∧
    (s.modSaf f).scratch = s.scratch ∧ (s.modSaf f).deep = s.deep ∧ (s.modSaf f).streams = s.streams ∧ (s.modSaf f).acq =
    s.acq ∧ (s.modSaf f).clk = s.clk ∧ (s.modSaf f).loops = s.loops ∧ (s.modSaf f).act = s.act ∧ (s.modSaf f).saf = f s.saf ∧
    (s.modSaf f).vcapGood = s.vcapGood ∧ (s.modSaf f).txSeq = s.txSeq ∧ (s.modSaf f).angFired = s.angFired ∧ (s.modSaf
    f).onceTarget = s.onceTarget ∧ (s.modSaf f).tm = s.tm ∧ (s.modSaf f).digs = s.digs ∧ (s.modSaf f).seams = s.seams ∧
    (s.modSaf f).stps = s.stps ∧ (s.modSaf f).ips = s.ips ∧ (s.modSaf f).fus = s.fus ∧ (s.modSaf f).convs = s.convs ∧
    (s.modSaf f).injDue = s.injDue ∧ (s.modSaf f).pulseDue = s.pulseDue ∧ (s.modSaf f).spcFired = s.spcFired ∧ (s.modSaf
    f).wins = s.wins ∧ (s.modSaf f).ivs = s.ivs ∧ (s.modSaf f).accs = s.accs ∧ (s.modSaf f).pairs = s.pairs ∧ (s.modSaf
    f).hars = s.hars ∧ (s.modSaf f).accLater = s.accLater ∧ (s.modSaf f).accVals = s.accVals ∧ (s.modSaf f).accSnap =
    s.accSnap ∧ (s.modSaf f).harSnap = s.harSnap ∧ (s.modSaf f).remote = s.remote ∧ (s.modSaf f).casProg = s.casProg ∧
    (s.modSaf f).twinProg = s.twinProg ∧ (s.modSaf f).twinSafeAt = s.twinSafeAt ∧ (s.modSaf f).lin = s.lin ∧ (s.modSaf f).gmb
    = s.gmb ∧ (s.modSaf f).actHeld = s.actHeld ∧ (s.modSaf f).tmOld = s.tmOld ∧ (s.modSaf f).seamAgreed = s.seamAgreed ∧
    (s.modSaf f).lanes = s.lanes ∧ (s.modSaf f).raws = s.raws ∧ (s.modSaf f).store = s.store ∧ (s.modSaf f).host = s.host ∧
    (s.modSaf f).eths = s.eths ∧ (s.modSaf f).mar = s.mar ∧ (s.modSaf f).seamIn = s.seamIn ∧ (s.modSaf f).ethPause =
    s.ethPause ∧ (s.modSaf f).flxs = s.flxs ∧ (s.modSaf f).cas = s.cas ∧ (s.modSaf f).twin = s.twin ∧ (s.modSaf f).power =
    s.power ∧ (s.modSaf f).start = s.start ∧ (s.modSaf f).mbox = s.mbox := by
  repeat' (first | exact rfl | apply And.intro)

@[simp] theorem State.modTime_fields (f : TimeState → TimeState) :
    (s.modTime f).pending = s.pending ∧ (s.modTime f).now = s.now ∧ (s.modTime f).freeCtr = s.freeCtr ∧ (s.modTime f).run =
    s.run ∧ (s.modTime f).variant = s.variant ∧ (s.modTime f).regs = s.regs ∧ (s.modTime f).msix = s.msix ∧ (s.modTime f).out
    = s.out ∧ (s.modTime f).scratch = s.scratch ∧ (s.modTime f).deep = s.deep ∧ (s.modTime f).streams = s.streams ∧ (s.modTime
    f).acq = s.acq ∧ (s.modTime f).clk = s.clk ∧ (s.modTime f).loops = s.loops ∧ (s.modTime f).act = s.act ∧ (s.modTime f).saf
    = s.saf ∧ (s.modTime f).vcapGood = s.vcapGood ∧ (s.modTime f).txSeq = s.txSeq ∧ (s.modTime f).angFired = s.angFired ∧
    (s.modTime f).onceTarget = s.onceTarget ∧ (s.modTime f).tm = f s.tm ∧ (s.modTime f).digs = s.digs ∧ (s.modTime f).seams =
    s.seams ∧ (s.modTime f).stps = s.stps ∧ (s.modTime f).ips = s.ips ∧ (s.modTime f).fus = s.fus ∧ (s.modTime f).convs =
    s.convs ∧ (s.modTime f).injDue = s.injDue ∧ (s.modTime f).pulseDue = s.pulseDue ∧ (s.modTime f).spcFired = s.spcFired ∧
    (s.modTime f).wins = s.wins ∧ (s.modTime f).ivs = s.ivs ∧ (s.modTime f).accs = s.accs ∧ (s.modTime f).pairs = s.pairs ∧
    (s.modTime f).hars = s.hars ∧ (s.modTime f).accLater = s.accLater ∧ (s.modTime f).accVals = s.accVals ∧ (s.modTime
    f).accSnap = s.accSnap ∧ (s.modTime f).harSnap = s.harSnap ∧ (s.modTime f).remote = s.remote ∧ (s.modTime f).casProg =
    s.casProg ∧ (s.modTime f).twinProg = s.twinProg ∧ (s.modTime f).twinSafeAt = s.twinSafeAt ∧ (s.modTime f).lin = s.lin ∧
    (s.modTime f).gmb = s.gmb ∧ (s.modTime f).actHeld = s.actHeld ∧ (s.modTime f).tmOld = s.tmOld ∧ (s.modTime f).seamAgreed =
    s.seamAgreed ∧ (s.modTime f).lanes = s.lanes ∧ (s.modTime f).raws = s.raws ∧ (s.modTime f).store = s.store ∧ (s.modTime
    f).host = s.host ∧ (s.modTime f).eths = s.eths ∧ (s.modTime f).mar = s.mar ∧ (s.modTime f).seamIn = s.seamIn ∧ (s.modTime
    f).ethPause = s.ethPause ∧ (s.modTime f).flxs = s.flxs ∧ (s.modTime f).cas = s.cas ∧ (s.modTime f).twin = s.twin ∧
    (s.modTime f).power = s.power ∧ (s.modTime f).start = s.start ∧ (s.modTime f).mbox = s.mbox := by
  repeat' (first | exact rfl | apply And.intro)

@[simp] theorem State.dropLastGood_fields (p g : Nat) :
    (s.dropLastGood p g).pending = s.pending ∧ (s.dropLastGood p g).now = s.now ∧ (s.dropLastGood p g).freeCtr = s.freeCtr ∧
    (s.dropLastGood p g).run = s.run ∧ (s.dropLastGood p g).variant = s.variant ∧ (s.dropLastGood p g).msix = s.msix ∧
    (s.dropLastGood p g).out = s.out ∧ (s.dropLastGood p g).scratch = s.scratch ∧ (s.dropLastGood p g).deep = s.deep ∧
    (s.dropLastGood p g).streams = s.streams ∧ (s.dropLastGood p g).acq = s.acq ∧ (s.dropLastGood p g).clk = s.clk ∧
    (s.dropLastGood p g).loops = s.loops ∧ (s.dropLastGood p g).act = s.act ∧ (s.dropLastGood p g).saf = s.saf ∧
    (s.dropLastGood p g).vcapGood = s.vcapGood ∧ (s.dropLastGood p g).txSeq = s.txSeq ∧ (s.dropLastGood p g).angFired =
    s.angFired ∧ (s.dropLastGood p g).onceTarget = s.onceTarget ∧ (s.dropLastGood p g).tm = s.tm ∧ (s.dropLastGood p g).digs =
    s.digs ∧ (s.dropLastGood p g).seams = s.seams ∧ (s.dropLastGood p g).stps = s.stps ∧ (s.dropLastGood p g).ips = s.ips ∧
    (s.dropLastGood p g).fus = s.fus ∧ (s.dropLastGood p g).convs = s.convs ∧ (s.dropLastGood p g).injDue = s.injDue ∧
    (s.dropLastGood p g).pulseDue = s.pulseDue ∧ (s.dropLastGood p g).spcFired = s.spcFired ∧ (s.dropLastGood p g).wins =
    s.wins ∧ (s.dropLastGood p g).ivs = s.ivs ∧ (s.dropLastGood p g).accs = s.accs ∧ (s.dropLastGood p g).pairs = s.pairs ∧
    (s.dropLastGood p g).hars = s.hars ∧ (s.dropLastGood p g).accLater = s.accLater ∧ (s.dropLastGood p g).accVals = s.accVals
    ∧ (s.dropLastGood p g).accSnap = s.accSnap ∧ (s.dropLastGood p g).harSnap = s.harSnap ∧ (s.dropLastGood p g).remote =
    s.remote ∧ (s.dropLastGood p g).casProg = s.casProg ∧ (s.dropLastGood p g).twinProg = s.twinProg ∧ (s.dropLastGood p
    g).twinSafeAt = s.twinSafeAt ∧ (s.dropLastGood p g).lin = s.lin ∧ (s.dropLastGood p g).gmb = s.gmb ∧ (s.dropLastGood p
    g).actHeld = s.actHeld ∧ (s.dropLastGood p g).tmOld = s.tmOld ∧ (s.dropLastGood p g).seamAgreed = s.seamAgreed ∧
    (s.dropLastGood p g).lanes = s.lanes ∧ (s.dropLastGood p g).raws = s.raws ∧ (s.dropLastGood p g).store = s.store ∧
    (s.dropLastGood p g).host = s.host ∧ (s.dropLastGood p g).eths = s.eths ∧ (s.dropLastGood p g).mar = s.mar ∧
    (s.dropLastGood p g).seamIn = s.seamIn ∧ (s.dropLastGood p g).ethPause = s.ethPause ∧ (s.dropLastGood p g).flxs = s.flxs ∧
    (s.dropLastGood p g).cas = s.cas ∧ (s.dropLastGood p g).twin = s.twin ∧ (s.dropLastGood p g).power = s.power ∧
    (s.dropLastGood p g).start = s.start ∧ (s.dropLastGood p g).mbox = s.mbox := by
  repeat' (first | exact rfl | apply And.intro)

@[simp] theorem State.modDig_fields (g : Nat) (f : DigState → DigState) :
    (s.modDig g f).pending = s.pending ∧ (s.modDig g f).now = s.now ∧ (s.modDig g f).freeCtr = s.freeCtr ∧ (s.modDig g f).run
    = s.run ∧ (s.modDig g f).variant = s.variant ∧ (s.modDig g f).regs = s.regs ∧ (s.modDig g f).msix = s.msix ∧ (s.modDig g
    f).out = s.out ∧ (s.modDig g f).scratch = s.scratch ∧ (s.modDig g f).deep = s.deep ∧ (s.modDig g f).streams = s.streams ∧
    (s.modDig g f).acq = s.acq ∧ (s.modDig g f).clk = s.clk ∧ (s.modDig g f).loops = s.loops ∧ (s.modDig g f).act = s.act ∧
    (s.modDig g f).saf = s.saf ∧ (s.modDig g f).vcapGood = s.vcapGood ∧ (s.modDig g f).txSeq = s.txSeq ∧ (s.modDig g
    f).angFired = s.angFired ∧ (s.modDig g f).onceTarget = s.onceTarget ∧ (s.modDig g f).tm = s.tm ∧ (s.modDig g f).digs =
    lmod s.digs g f ∧ (s.modDig g f).seams = s.seams ∧ (s.modDig g f).stps = s.stps ∧ (s.modDig g f).ips = s.ips ∧ (s.modDig g
    f).fus = s.fus ∧ (s.modDig g f).convs = s.convs ∧ (s.modDig g f).injDue = s.injDue ∧ (s.modDig g f).pulseDue = s.pulseDue
    ∧ (s.modDig g f).spcFired = s.spcFired ∧ (s.modDig g f).wins = s.wins ∧ (s.modDig g f).ivs = s.ivs ∧ (s.modDig g f).accs =
    s.accs ∧ (s.modDig g f).pairs = s.pairs ∧ (s.modDig g f).hars = s.hars ∧ (s.modDig g f).accLater = s.accLater ∧ (s.modDig
    g f).accVals = s.accVals ∧ (s.modDig g f).accSnap = s.accSnap ∧ (s.modDig g f).harSnap = s.harSnap ∧ (s.modDig g f).remote
    = s.remote ∧ (s.modDig g f).casProg = s.casProg ∧ (s.modDig g f).twinProg = s.twinProg ∧ (s.modDig g f).twinSafeAt =
    s.twinSafeAt ∧ (s.modDig g f).lin = s.lin ∧ (s.modDig g f).gmb = s.gmb ∧ (s.modDig g f).actHeld = s.actHeld ∧ (s.modDig g
    f).tmOld = s.tmOld ∧ (s.modDig g f).seamAgreed = s.seamAgreed ∧ (s.modDig g f).lanes = s.lanes ∧ (s.modDig g f).raws =
    s.raws ∧ (s.modDig g f).store = s.store ∧ (s.modDig g f).host = s.host ∧ (s.modDig g f).eths = s.eths ∧ (s.modDig g f).mar
    = s.mar ∧ (s.modDig g f).seamIn = s.seamIn ∧ (s.modDig g f).ethPause = s.ethPause ∧ (s.modDig g f).flxs = s.flxs ∧
    (s.modDig g f).cas = s.cas ∧ (s.modDig g f).twin = s.twin ∧ (s.modDig g f).power = s.power ∧ (s.modDig g f).start =
    s.start ∧ (s.modDig g f).mbox = s.mbox := by
  repeat' (first | exact rfl | apply And.intro)

@[simp] theorem State.convFlag_fields (c b : Nat) :
    (s.convFlag c b).pending = s.pending ∧ (s.convFlag c b).now = s.now ∧ (s.convFlag c b).freeCtr = s.freeCtr ∧ (s.convFlag c
    b).run = s.run ∧ (s.convFlag c b).variant = s.variant ∧ (s.convFlag c b).regs = s.regs ∧ (s.convFlag c b).msix = s.msix ∧
    (s.convFlag c b).out = s.out ∧ (s.convFlag c b).scratch = s.scratch ∧ (s.convFlag c b).deep = s.deep ∧ (s.convFlag c
    b).streams = s.streams ∧ (s.convFlag c b).acq = s.acq ∧ (s.convFlag c b).clk = s.clk ∧ (s.convFlag c b).loops = s.loops ∧
    (s.convFlag c b).act = s.act ∧ (s.convFlag c b).saf = s.saf ∧ (s.convFlag c b).vcapGood = s.vcapGood ∧ (s.convFlag c
    b).txSeq = s.txSeq ∧ (s.convFlag c b).angFired = s.angFired ∧ (s.convFlag c b).onceTarget = s.onceTarget ∧ (s.convFlag c
    b).tm = s.tm ∧ (s.convFlag c b).digs = s.digs ∧ (s.convFlag c b).seams = s.seams ∧ (s.convFlag c b).stps = s.stps ∧
    (s.convFlag c b).ips = s.ips ∧ (s.convFlag c b).fus = s.fus ∧ (s.convFlag c b).convs = s.convs ∧ (s.convFlag c b).injDue =
    s.injDue ∧ (s.convFlag c b).pulseDue = s.pulseDue ∧ (s.convFlag c b).spcFired = s.spcFired ∧ (s.convFlag c b).wins =
    s.wins ∧ (s.convFlag c b).ivs = s.ivs ∧ (s.convFlag c b).pairs = s.pairs ∧ (s.convFlag c b).accLater = s.accLater ∧
    (s.convFlag c b).accVals = s.accVals ∧ (s.convFlag c b).accSnap = s.accSnap ∧ (s.convFlag c b).harSnap = s.harSnap ∧
    (s.convFlag c b).remote = s.remote ∧ (s.convFlag c b).casProg = s.casProg ∧ (s.convFlag c b).twinProg = s.twinProg ∧
    (s.convFlag c b).twinSafeAt = s.twinSafeAt ∧ (s.convFlag c b).lin = s.lin ∧ (s.convFlag c b).gmb = s.gmb ∧ (s.convFlag c
    b).actHeld = s.actHeld ∧ (s.convFlag c b).tmOld = s.tmOld ∧ (s.convFlag c b).seamAgreed = s.seamAgreed ∧ (s.convFlag c
    b).lanes = s.lanes ∧ (s.convFlag c b).raws = s.raws ∧ (s.convFlag c b).store = s.store ∧ (s.convFlag c b).host = s.host ∧
    (s.convFlag c b).eths = s.eths ∧ (s.convFlag c b).mar = s.mar ∧ (s.convFlag c b).seamIn = s.seamIn ∧ (s.convFlag c
    b).ethPause = s.ethPause ∧ (s.convFlag c b).flxs = s.flxs ∧ (s.convFlag c b).cas = s.cas ∧ (s.convFlag c b).twin = s.twin
    ∧ (s.convFlag c b).power = s.power ∧ (s.convFlag c b).start = s.start ∧ (s.convFlag c b).mbox = s.mbox := by
  repeat' (first | exact rfl | apply And.intro)

@[simp] theorem State.setCopied_fields (i : Nat) :
    (s.setCopied i).pending = s.pending ∧ (s.setCopied i).now = s.now ∧ (s.setCopied i).freeCtr = s.freeCtr ∧ (s.setCopied
    i).run = s.run ∧ (s.setCopied i).variant = s.variant ∧ (s.setCopied i).regs = s.regs ∧ (s.setCopied i).msix = s.msix ∧
    (s.setCopied i).out = s.out ∧ (s.setCopied i).scratch = s.scratch ∧ (s.setCopied i).deep = s.deep ∧ (s.setCopied
    i).streams = s.streams ∧ (s.setCopied i).acq = s.acq ∧ (s.setCopied i).clk = s.clk ∧ (s.setCopied i).loops = s.loops ∧
    (s.setCopied i).act = s.act ∧ (s.setCopied i).saf = s.saf ∧ (s.setCopied i).vcapGood = s.vcapGood ∧ (s.setCopied i).txSeq
    = s.txSeq ∧ (s.setCopied i).angFired = s.angFired ∧ (s.setCopied i).onceTarget = s.onceTarget ∧ (s.setCopied i).tm = s.tm
    ∧ (s.setCopied i).digs = s.digs ∧ (s.setCopied i).seams = s.seams ∧ (s.setCopied i).stps = s.stps ∧ (s.setCopied i).ips =
    s.ips ∧ (s.setCopied i).fus = s.fus ∧ (s.setCopied i).convs = s.convs ∧ (s.setCopied i).injDue = s.injDue ∧ (s.setCopied
    i).pulseDue = lmod s.pulseDue i (fun _ => []) ∧ (s.setCopied i).spcFired = s.spcFired ∧ (s.setCopied i).wins = s.wins ∧
    (s.setCopied i).ivs = s.ivs ∧ (s.setCopied i).accs = s.accs ∧ (s.setCopied i).pairs = s.pairs ∧ (s.setCopied i).hars =
    s.hars ∧ (s.setCopied i).accLater = s.accLater ∧ (s.setCopied i).accVals = s.accVals ∧ (s.setCopied i).accSnap = s.accSnap
    ∧ (s.setCopied i).harSnap = s.harSnap ∧ (s.setCopied i).remote = s.remote ∧ (s.setCopied i).casProg = s.casProg ∧
    (s.setCopied i).twinProg = s.twinProg ∧ (s.setCopied i).twinSafeAt = s.twinSafeAt ∧ (s.setCopied i).lin = s.lin ∧
    (s.setCopied i).gmb = s.gmb ∧ (s.setCopied i).actHeld = s.actHeld ∧ (s.setCopied i).tmOld = s.tmOld ∧ (s.setCopied
    i).seamAgreed = s.seamAgreed ∧ (s.setCopied i).lanes = s.lanes ∧ (s.setCopied i).raws = s.raws ∧ (s.setCopied i).store =
    s.store ∧ (s.setCopied i).host = s.host ∧ (s.setCopied i).eths = s.eths ∧ (s.setCopied i).mar = s.mar ∧ (s.setCopied
    i).seamIn = s.seamIn ∧ (s.setCopied i).ethPause = s.ethPause ∧ (s.setCopied i).flxs = s.flxs ∧ (s.setCopied i).cas = s.cas
    ∧ (s.setCopied i).twin = s.twin ∧ (s.setCopied i).power = s.power ∧ (s.setCopied i).start = s.start ∧ (s.setCopied i).mbox
    = s.mbox := by
  repeat' (first | exact rfl | apply And.intro)

@[simp] theorem State.modStore_fields (f : StoreState → StoreState) :
    (s.modStore f).pending = s.pending ∧ (s.modStore f).now = s.now ∧ (s.modStore f).freeCtr = s.freeCtr ∧ (s.modStore f).run
    = s.run ∧ (s.modStore f).variant = s.variant ∧ (s.modStore f).regs = s.regs ∧ (s.modStore f).msix = s.msix ∧ (s.modStore
    f).out = s.out ∧ (s.modStore f).scratch = s.scratch ∧ (s.modStore f).deep = s.deep ∧ (s.modStore f).streams = s.streams ∧
    (s.modStore f).acq = s.acq ∧ (s.modStore f).clk = s.clk ∧ (s.modStore f).loops = s.loops ∧ (s.modStore f).act = s.act ∧
    (s.modStore f).saf = s.saf ∧ (s.modStore f).vcapGood = s.vcapGood ∧ (s.modStore f).txSeq = s.txSeq ∧ (s.modStore
    f).angFired = s.angFired ∧ (s.modStore f).onceTarget = s.onceTarget ∧ (s.modStore f).tm = s.tm ∧ (s.modStore f).digs =
    s.digs ∧ (s.modStore f).seams = s.seams ∧ (s.modStore f).stps = s.stps ∧ (s.modStore f).ips = s.ips ∧ (s.modStore f).fus =
    s.fus ∧ (s.modStore f).convs = s.convs ∧ (s.modStore f).injDue = s.injDue ∧ (s.modStore f).pulseDue = s.pulseDue ∧
    (s.modStore f).spcFired = s.spcFired ∧ (s.modStore f).wins = s.wins ∧ (s.modStore f).ivs = s.ivs ∧ (s.modStore f).accs =
    s.accs ∧ (s.modStore f).pairs = s.pairs ∧ (s.modStore f).hars = s.hars ∧ (s.modStore f).accLater = s.accLater ∧
    (s.modStore f).accVals = s.accVals ∧ (s.modStore f).accSnap = s.accSnap ∧ (s.modStore f).harSnap = s.harSnap ∧ (s.modStore
    f).remote = s.remote ∧ (s.modStore f).casProg = s.casProg ∧ (s.modStore f).twinProg = s.twinProg ∧ (s.modStore
    f).twinSafeAt = s.twinSafeAt ∧ (s.modStore f).lin = s.lin ∧ (s.modStore f).gmb = s.gmb ∧ (s.modStore f).actHeld =
    s.actHeld ∧ (s.modStore f).tmOld = s.tmOld ∧ (s.modStore f).seamAgreed = s.seamAgreed ∧ (s.modStore f).lanes = s.lanes ∧
    (s.modStore f).raws = s.raws ∧ (s.modStore f).store = f s.store ∧ (s.modStore f).host = s.host ∧ (s.modStore f).eths =
    s.eths ∧ (s.modStore f).mar = s.mar ∧ (s.modStore f).seamIn = s.seamIn ∧ (s.modStore f).ethPause = s.ethPause ∧
    (s.modStore f).flxs = s.flxs ∧ (s.modStore f).cas = s.cas ∧ (s.modStore f).twin = s.twin ∧ (s.modStore f).power = s.power
    ∧ (s.modStore f).start = s.start ∧ (s.modStore f).mbox = s.mbox := by
  repeat' (first | exact rfl | apply And.intro)

@[simp] theorem State.actStopped_fields (t : Nat) :
    (s.actStopped t).pending = s.pending ∧ (s.actStopped t).now = s.now ∧ (s.actStopped t).freeCtr = s.freeCtr ∧ (s.actStopped
    t).run = s.run ∧ (s.actStopped t).variant = s.variant ∧ (s.actStopped t).regs = s.regs ∧ (s.actStopped t).msix = s.msix ∧
    (s.actStopped t).out = s.out ∧ (s.actStopped t).scratch = s.scratch ∧ (s.actStopped t).deep = s.deep ∧ (s.actStopped
    t).streams = s.streams ∧ (s.actStopped t).acq = s.acq ∧ (s.actStopped t).clk = s.clk ∧ (s.actStopped t).loops = s.loops ∧
    (s.actStopped t).act = s.act ∧ (s.actStopped t).saf = s.saf ∧ (s.actStopped t).vcapGood = s.vcapGood ∧ (s.actStopped
    t).txSeq = s.txSeq ∧ (s.actStopped t).angFired = s.angFired ∧ (s.actStopped t).onceTarget = s.onceTarget ∧ (s.actStopped
    t).tm = s.tm ∧ (s.actStopped t).digs = s.digs ∧ (s.actStopped t).seams = s.seams ∧ (s.actStopped t).stps = s.stps ∧
    (s.actStopped t).ips = s.ips ∧ (s.actStopped t).fus = s.fus ∧ (s.actStopped t).convs = s.convs ∧ (s.actStopped t).injDue =
    s.injDue ∧ (s.actStopped t).pulseDue = s.pulseDue ∧ (s.actStopped t).spcFired = s.spcFired ∧ (s.actStopped t).wins =
    s.wins ∧ (s.actStopped t).ivs = s.ivs ∧ (s.actStopped t).accs = s.accs ∧ (s.actStopped t).pairs = s.pairs ∧ (s.actStopped
    t).hars = s.hars ∧ (s.actStopped t).accLater = s.accLater ∧ (s.actStopped t).accVals = s.accVals ∧ (s.actStopped
    t).accSnap = s.accSnap ∧ (s.actStopped t).harSnap = s.harSnap ∧ (s.actStopped t).remote = s.remote ∧ (s.actStopped
    t).casProg = s.casProg ∧ (s.actStopped t).twinProg = s.twinProg ∧ (s.actStopped t).twinSafeAt = s.twinSafeAt ∧
    (s.actStopped t).lin = s.lin ∧ (s.actStopped t).gmb = s.gmb ∧ (s.actStopped t).actHeld = some (s.actHeld.getD t) ∧
    (s.actStopped t).tmOld = s.tmOld ∧ (s.actStopped t).seamAgreed = s.seamAgreed ∧ (s.actStopped t).lanes = s.lanes ∧
    (s.actStopped t).raws = s.raws ∧ (s.actStopped t).store = s.store ∧ (s.actStopped t).host = s.host ∧ (s.actStopped t).eths
    = s.eths ∧ (s.actStopped t).mar = s.mar ∧ (s.actStopped t).seamIn = s.seamIn ∧ (s.actStopped t).ethPause = s.ethPause ∧
    (s.actStopped t).flxs = s.flxs ∧ (s.actStopped t).cas = s.cas ∧ (s.actStopped t).twin = s.twin ∧ (s.actStopped t).power =
    s.power ∧ (s.actStopped t).start = s.start ∧ (s.actStopped t).mbox = s.mbox := by
  repeat' (first | exact rfl | apply And.intro)

@[simp] theorem State.modGmb_fields (f : GmbState → GmbState) :
    (s.modGmb f).pending = s.pending ∧ (s.modGmb f).now = s.now ∧ (s.modGmb f).freeCtr = s.freeCtr ∧ (s.modGmb f).run = s.run
    ∧ (s.modGmb f).variant = s.variant ∧ (s.modGmb f).regs = s.regs ∧ (s.modGmb f).msix = s.msix ∧ (s.modGmb f).out = s.out ∧
    (s.modGmb f).scratch = s.scratch ∧ (s.modGmb f).deep = s.deep ∧ (s.modGmb f).streams = s.streams ∧ (s.modGmb f).acq =
    s.acq ∧ (s.modGmb f).clk = s.clk ∧ (s.modGmb f).loops = s.loops ∧ (s.modGmb f).act = s.act ∧ (s.modGmb f).saf = s.saf ∧
    (s.modGmb f).vcapGood = s.vcapGood ∧ (s.modGmb f).txSeq = s.txSeq ∧ (s.modGmb f).angFired = s.angFired ∧ (s.modGmb
    f).onceTarget = s.onceTarget ∧ (s.modGmb f).tm = s.tm ∧ (s.modGmb f).digs = s.digs ∧ (s.modGmb f).seams = s.seams ∧
    (s.modGmb f).stps = s.stps ∧ (s.modGmb f).ips = s.ips ∧ (s.modGmb f).fus = s.fus ∧ (s.modGmb f).convs = s.convs ∧
    (s.modGmb f).injDue = s.injDue ∧ (s.modGmb f).pulseDue = s.pulseDue ∧ (s.modGmb f).spcFired = s.spcFired ∧ (s.modGmb
    f).wins = s.wins ∧ (s.modGmb f).ivs = s.ivs ∧ (s.modGmb f).accs = s.accs ∧ (s.modGmb f).pairs = s.pairs ∧ (s.modGmb
    f).hars = s.hars ∧ (s.modGmb f).accLater = s.accLater ∧ (s.modGmb f).accVals = s.accVals ∧ (s.modGmb f).accSnap =
    s.accSnap ∧ (s.modGmb f).harSnap = s.harSnap ∧ (s.modGmb f).remote = s.remote ∧ (s.modGmb f).casProg = s.casProg ∧
    (s.modGmb f).twinProg = s.twinProg ∧ (s.modGmb f).twinSafeAt = s.twinSafeAt ∧ (s.modGmb f).lin = s.lin ∧ (s.modGmb f).gmb
    = f s.gmb ∧ (s.modGmb f).actHeld = s.actHeld ∧ (s.modGmb f).tmOld = s.tmOld ∧ (s.modGmb f).seamAgreed = s.seamAgreed ∧
    (s.modGmb f).lanes = s.lanes ∧ (s.modGmb f).raws = s.raws ∧ (s.modGmb f).store = s.store ∧ (s.modGmb f).host = s.host ∧
    (s.modGmb f).eths = s.eths ∧ (s.modGmb f).mar = s.mar ∧ (s.modGmb f).seamIn = s.seamIn ∧ (s.modGmb f).ethPause =
    s.ethPause ∧ (s.modGmb f).flxs = s.flxs ∧ (s.modGmb f).cas = s.cas ∧ (s.modGmb f).twin = s.twin ∧ (s.modGmb f).power =
    s.power ∧ (s.modGmb f).start = s.start ∧ (s.modGmb f).mbox = s.mbox := by
  repeat' (first | exact rfl | apply And.intro)

@[simp] theorem State.modHost_fields (f : HostState → HostState) :
    (s.modHost f).pending = s.pending ∧ (s.modHost f).now = s.now ∧ (s.modHost f).freeCtr = s.freeCtr ∧ (s.modHost f).run =
    s.run ∧ (s.modHost f).variant = s.variant ∧ (s.modHost f).regs = s.regs ∧ (s.modHost f).msix = s.msix ∧ (s.modHost f).out
    = s.out ∧ (s.modHost f).scratch = s.scratch ∧ (s.modHost f).deep = s.deep ∧ (s.modHost f).streams = s.streams ∧ (s.modHost
    f).acq = s.acq ∧ (s.modHost f).clk = s.clk ∧ (s.modHost f).loops = s.loops ∧ (s.modHost f).act = s.act ∧ (s.modHost f).saf
    = s.saf ∧ (s.modHost f).vcapGood = s.vcapGood ∧ (s.modHost f).txSeq = s.txSeq ∧ (s.modHost f).angFired = s.angFired ∧
    (s.modHost f).onceTarget = s.onceTarget ∧ (s.modHost f).tm = s.tm ∧ (s.modHost f).digs = s.digs ∧ (s.modHost f).seams =
    s.seams ∧ (s.modHost f).stps = s.stps ∧ (s.modHost f).ips = s.ips ∧ (s.modHost f).fus = s.fus ∧ (s.modHost f).convs =
    s.convs ∧ (s.modHost f).injDue = s.injDue ∧ (s.modHost f).pulseDue = s.pulseDue ∧ (s.modHost f).spcFired = s.spcFired ∧
    (s.modHost f).wins = s.wins ∧ (s.modHost f).ivs = s.ivs ∧ (s.modHost f).accs = s.accs ∧ (s.modHost f).pairs = s.pairs ∧
    (s.modHost f).hars = s.hars ∧ (s.modHost f).accLater = s.accLater ∧ (s.modHost f).accVals = s.accVals ∧ (s.modHost
    f).accSnap = s.accSnap ∧ (s.modHost f).harSnap = s.harSnap ∧ (s.modHost f).remote = s.remote ∧ (s.modHost f).casProg =
    s.casProg ∧ (s.modHost f).twinProg = s.twinProg ∧ (s.modHost f).twinSafeAt = s.twinSafeAt ∧ (s.modHost f).lin = s.lin ∧
    (s.modHost f).gmb = s.gmb ∧ (s.modHost f).actHeld = s.actHeld ∧ (s.modHost f).tmOld = s.tmOld ∧ (s.modHost f).seamAgreed =
    s.seamAgreed ∧ (s.modHost f).lanes = s.lanes ∧ (s.modHost f).raws = s.raws ∧ (s.modHost f).store = s.store ∧ (s.modHost
    f).host = f s.host ∧ (s.modHost f).eths = s.eths ∧ (s.modHost f).mar = s.mar ∧ (s.modHost f).seamIn = s.seamIn ∧
    (s.modHost f).ethPause = s.ethPause ∧ (s.modHost f).flxs = s.flxs ∧ (s.modHost f).cas = s.cas ∧ (s.modHost f).twin =
    s.twin ∧ (s.modHost f).power = s.power ∧ (s.modHost f).start = s.start ∧ (s.modHost f).mbox = s.mbox := by
  repeat' (first | exact rfl | apply And.intro)

@[simp] theorem State.modMar_fields (f : MarState → MarState) :
    (s.modMar f).pending = s.pending ∧ (s.modMar f).now = s.now ∧ (s.modMar f).freeCtr = s.freeCtr ∧ (s.modMar f).run = s.run
    ∧ (s.modMar f).variant = s.variant ∧ (s.modMar f).regs = s.regs ∧ (s.modMar f).msix = s.msix ∧ (s.modMar f).out = s.out ∧
    (s.modMar f).scratch = s.scratch ∧ (s.modMar f).deep = s.deep ∧ (s.modMar f).streams = s.streams ∧ (s.modMar f).acq =
    s.acq ∧ (s.modMar f).clk = s.clk ∧ (s.modMar f).loops = s.loops ∧ (s.modMar f).act = s.act ∧ (s.modMar f).saf = s.saf ∧
    (s.modMar f).vcapGood = s.vcapGood ∧ (s.modMar f).txSeq = s.txSeq ∧ (s.modMar f).angFired = s.angFired ∧ (s.modMar
    f).onceTarget = s.onceTarget ∧ (s.modMar f).tm = s.tm ∧ (s.modMar f).digs = s.digs ∧ (s.modMar f).seams = s.seams ∧
    (s.modMar f).stps = s.stps ∧ (s.modMar f).ips = s.ips ∧ (s.modMar f).fus = s.fus ∧ (s.modMar f).convs = s.convs ∧
    (s.modMar f).injDue = s.injDue ∧ (s.modMar f).pulseDue = s.pulseDue ∧ (s.modMar f).spcFired = s.spcFired ∧ (s.modMar
    f).wins = s.wins ∧ (s.modMar f).ivs = s.ivs ∧ (s.modMar f).accs = s.accs ∧ (s.modMar f).pairs = s.pairs ∧ (s.modMar
    f).hars = s.hars ∧ (s.modMar f).accLater = s.accLater ∧ (s.modMar f).accVals = s.accVals ∧ (s.modMar f).accSnap =
    s.accSnap ∧ (s.modMar f).harSnap = s.harSnap ∧ (s.modMar f).remote = s.remote ∧ (s.modMar f).casProg = s.casProg ∧
    (s.modMar f).twinProg = s.twinProg ∧ (s.modMar f).twinSafeAt = s.twinSafeAt ∧ (s.modMar f).lin = s.lin ∧ (s.modMar f).gmb
    = s.gmb ∧ (s.modMar f).actHeld = s.actHeld ∧ (s.modMar f).tmOld = s.tmOld ∧ (s.modMar f).seamAgreed = s.seamAgreed ∧
    (s.modMar f).lanes = s.lanes ∧ (s.modMar f).raws = s.raws ∧ (s.modMar f).store = s.store ∧ (s.modMar f).host = s.host ∧
    (s.modMar f).eths = s.eths ∧ (s.modMar f).mar = f s.mar ∧ (s.modMar f).seamIn = s.seamIn ∧ (s.modMar f).ethPause =
    s.ethPause ∧ (s.modMar f).flxs = s.flxs ∧ (s.modMar f).cas = s.cas ∧ (s.modMar f).twin = s.twin ∧ (s.modMar f).power =
    s.power ∧ (s.modMar f).start = s.start ∧ (s.modMar f).mbox = s.mbox := by
  repeat' (first | exact rfl | apply And.intro)

@[simp] theorem State.noProgress_fields :
    (s.noProgress).pending = s.pending ∧ (s.noProgress).now = s.now ∧ (s.noProgress).freeCtr = s.freeCtr ∧ (s.noProgress).run
    = s.run ∧ (s.noProgress).variant = s.variant ∧ (s.noProgress).regs = s.regs ∧ (s.noProgress).msix = s.msix ∧
    (s.noProgress).out = s.out ∧ (s.noProgress).scratch = s.scratch ∧ (s.noProgress).deep = s.deep ∧ (s.noProgress).streams =
    s.streams ∧ (s.noProgress).acq = s.acq ∧ (s.noProgress).clk = s.clk ∧ (s.noProgress).loops = s.loops ∧ (s.noProgress).act
    = s.act ∧ (s.noProgress).saf = s.saf ∧ (s.noProgress).vcapGood = s.vcapGood ∧ (s.noProgress).txSeq = s.txSeq ∧
    (s.noProgress).angFired = s.angFired ∧ (s.noProgress).onceTarget = s.onceTarget ∧ (s.noProgress).tm = s.tm ∧
    (s.noProgress).digs = s.digs ∧ (s.noProgress).seams = s.seams ∧ (s.noProgress).stps = s.stps ∧ (s.noProgress).ips = s.ips
    ∧ (s.noProgress).fus = s.fus ∧ (s.noProgress).convs = s.convs ∧ (s.noProgress).injDue = s.injDue ∧ (s.noProgress).pulseDue
    = s.pulseDue ∧ (s.noProgress).spcFired = s.spcFired ∧ (s.noProgress).wins = s.wins ∧ (s.noProgress).ivs = s.ivs ∧
    (s.noProgress).accs = s.accs ∧ (s.noProgress).pairs = s.pairs ∧ (s.noProgress).hars = s.hars ∧ (s.noProgress).accLater =
    s.accLater ∧ (s.noProgress).accVals = s.accVals ∧ (s.noProgress).accSnap = s.accSnap ∧ (s.noProgress).harSnap = s.harSnap
    ∧ (s.noProgress).remote = s.remote ∧ (s.noProgress).casProg = s.casProg ∧ (s.noProgress).twinProg = 0 ∧
    (s.noProgress).twinSafeAt = s.twinSafeAt ∧ (s.noProgress).lin = s.lin ∧ (s.noProgress).gmb = s.gmb ∧
    (s.noProgress).actHeld = s.actHeld ∧ (s.noProgress).tmOld = s.tmOld ∧ (s.noProgress).seamAgreed = s.seamAgreed ∧
    (s.noProgress).lanes = s.lanes ∧ (s.noProgress).raws = s.raws ∧ (s.noProgress).store = s.store ∧ (s.noProgress).host =
    s.host ∧ (s.noProgress).eths = s.eths ∧ (s.noProgress).mar = s.mar ∧ (s.noProgress).seamIn = s.seamIn ∧
    (s.noProgress).ethPause = s.ethPause ∧ (s.noProgress).flxs = s.flxs ∧ (s.noProgress).cas = s.cas ∧ (s.noProgress).twin =
    s.twin ∧ (s.noProgress).power = s.power ∧ (s.noProgress).start = s.start ∧ (s.noProgress).mbox = s.mbox := by
  repeat' (first | exact rfl | apply And.intro)

@[simp] theorem State.noSums_fields :
    (s.noSums).pending = s.pending ∧ (s.noSums).now = s.now ∧ (s.noSums).freeCtr = s.freeCtr ∧ (s.noSums).run = s.run ∧
    (s.noSums).variant = s.variant ∧ (s.noSums).regs = s.regs ∧ (s.noSums).msix = s.msix ∧ (s.noSums).out = s.out ∧
    (s.noSums).scratch = s.scratch ∧ (s.noSums).deep = s.deep ∧ (s.noSums).streams = s.streams ∧ (s.noSums).acq = s.acq ∧
    (s.noSums).clk = s.clk ∧ (s.noSums).loops = s.loops ∧ (s.noSums).act = s.act ∧ (s.noSums).saf = s.saf ∧
    (s.noSums).vcapGood = s.vcapGood ∧ (s.noSums).txSeq = s.txSeq ∧ (s.noSums).angFired = s.angFired ∧ (s.noSums).onceTarget =
    s.onceTarget ∧ (s.noSums).tm = s.tm ∧ (s.noSums).digs = s.digs ∧ (s.noSums).stps = s.stps ∧ (s.noSums).ips = s.ips ∧
    (s.noSums).fus = s.fus ∧ (s.noSums).convs = s.convs ∧ (s.noSums).injDue = s.injDue ∧ (s.noSums).pulseDue = s.pulseDue ∧
    (s.noSums).spcFired = s.spcFired ∧ (s.noSums).wins = s.wins ∧ (s.noSums).ivs = s.ivs ∧ (s.noSums).accs = s.accs ∧
    (s.noSums).pairs = s.pairs ∧ (s.noSums).hars = s.hars ∧ (s.noSums).accLater = s.accLater ∧ (s.noSums).accVals = s.accVals
    ∧ (s.noSums).accSnap = s.accSnap ∧ (s.noSums).harSnap = s.harSnap ∧ (s.noSums).remote = s.remote ∧ (s.noSums).casProg =
    s.casProg ∧ (s.noSums).twinProg = s.twinProg ∧ (s.noSums).twinSafeAt = s.twinSafeAt ∧ (s.noSums).lin = s.lin ∧
    (s.noSums).gmb = s.gmb ∧ (s.noSums).actHeld = s.actHeld ∧ (s.noSums).tmOld = s.tmOld ∧ (s.noSums).lanes = s.lanes ∧
    (s.noSums).raws = s.raws ∧ (s.noSums).store = s.store ∧ (s.noSums).host = s.host ∧ (s.noSums).eths = s.eths ∧
    (s.noSums).mar = s.mar ∧ (s.noSums).ethPause = s.ethPause ∧ (s.noSums).flxs = s.flxs ∧ (s.noSums).cas = s.cas ∧
    (s.noSums).twin = s.twin ∧ (s.noSums).power = s.power ∧ (s.noSums).start = s.start ∧ (s.noSums).mbox = s.mbox := by
  repeat' (first | exact rfl | apply And.intro)

@[simp] theorem State.modPower_fields (f : PowerState → PowerState) :
    (s.modPower f).pending = s.pending ∧ (s.modPower f).now = s.now ∧ (s.modPower f).freeCtr = s.freeCtr ∧ (s.modPower f).run
    = s.run ∧ (s.modPower f).variant = s.variant ∧ (s.modPower f).regs = s.regs ∧ (s.modPower f).msix = s.msix ∧ (s.modPower
    f).out = s.out ∧ (s.modPower f).scratch = s.scratch ∧ (s.modPower f).deep = s.deep ∧ (s.modPower f).streams = s.streams ∧
    (s.modPower f).acq = s.acq ∧ (s.modPower f).clk = s.clk ∧ (s.modPower f).loops = s.loops ∧ (s.modPower f).act = s.act ∧
    (s.modPower f).saf = s.saf ∧ (s.modPower f).vcapGood = s.vcapGood ∧ (s.modPower f).txSeq = s.txSeq ∧ (s.modPower
    f).angFired = s.angFired ∧ (s.modPower f).onceTarget = s.onceTarget ∧ (s.modPower f).tm = s.tm ∧ (s.modPower f).digs =
    s.digs ∧ (s.modPower f).seams = s.seams ∧ (s.modPower f).stps = s.stps ∧ (s.modPower f).ips = s.ips ∧ (s.modPower f).fus =
    s.fus ∧ (s.modPower f).convs = s.convs ∧ (s.modPower f).injDue = s.injDue ∧ (s.modPower f).pulseDue = s.pulseDue ∧
    (s.modPower f).spcFired = s.spcFired ∧ (s.modPower f).wins = s.wins ∧ (s.modPower f).ivs = s.ivs ∧ (s.modPower f).accs =
    s.accs ∧ (s.modPower f).pairs = s.pairs ∧ (s.modPower f).hars = s.hars ∧ (s.modPower f).accLater = s.accLater ∧
    (s.modPower f).accVals = s.accVals ∧ (s.modPower f).accSnap = s.accSnap ∧ (s.modPower f).harSnap = s.harSnap ∧ (s.modPower
    f).remote = s.remote ∧ (s.modPower f).casProg = s.casProg ∧ (s.modPower f).twinProg = s.twinProg ∧ (s.modPower
    f).twinSafeAt = s.twinSafeAt ∧ (s.modPower f).lin = s.lin ∧ (s.modPower f).gmb = s.gmb ∧ (s.modPower f).actHeld =
    s.actHeld ∧ (s.modPower f).tmOld = s.tmOld ∧ (s.modPower f).seamAgreed = s.seamAgreed ∧ (s.modPower f).lanes = s.lanes ∧
    (s.modPower f).raws = s.raws ∧ (s.modPower f).store = s.store ∧ (s.modPower f).host = s.host ∧ (s.modPower f).eths =
    s.eths ∧ (s.modPower f).mar = s.mar ∧ (s.modPower f).seamIn = s.seamIn ∧ (s.modPower f).ethPause = s.ethPause ∧
    (s.modPower f).flxs = s.flxs ∧ (s.modPower f).cas = s.cas ∧ (s.modPower f).twin = s.twin ∧ (s.modPower f).power = f
    s.power ∧ (s.modPower f).start = s.start ∧ (s.modPower f).mbox = s.mbox := by
  repeat' (first | exact rfl | apply And.intro)

@[simp] theorem State.modStart_fields (f : StartState → StartState) :
    (s.modStart f).pending = s.pending ∧ (s.modStart f).now = s.now ∧ (s.modStart f).freeCtr = s.freeCtr ∧ (s.modStart f).run
    = s.run ∧ (s.modStart f).variant = s.variant ∧ (s.modStart f).regs = s.regs ∧ (s.modStart f).msix = s.msix ∧ (s.modStart
    f).out = s.out ∧ (s.modStart f).scratch = s.scratch ∧ (s.modStart f).deep = s.deep ∧ (s.modStart f).streams = s.streams ∧
    (s.modStart f).acq = s.acq ∧ (s.modStart f).clk = s.clk ∧ (s.modStart f).loops = s.loops ∧ (s.modStart f).act = s.act ∧
    (s.modStart f).saf = s.saf ∧ (s.modStart f).vcapGood = s.vcapGood ∧ (s.modStart f).txSeq = s.txSeq ∧ (s.modStart
    f).angFired = s.angFired ∧ (s.modStart f).onceTarget = s.onceTarget ∧ (s.modStart f).tm = s.tm ∧ (s.modStart f).digs =
    s.digs ∧ (s.modStart f).seams = s.seams ∧ (s.modStart f).stps = s.stps ∧ (s.modStart f).ips = s.ips ∧ (s.modStart f).fus =
    s.fus ∧ (s.modStart f).convs = s.convs ∧ (s.modStart f).injDue = s.injDue ∧ (s.modStart f).pulseDue = s.pulseDue ∧
    (s.modStart f).spcFired = s.spcFired ∧ (s.modStart f).wins = s.wins ∧ (s.modStart f).ivs = s.ivs ∧ (s.modStart f).accs =
    s.accs ∧ (s.modStart f).pairs = s.pairs ∧ (s.modStart f).hars = s.hars ∧ (s.modStart f).accLater = s.accLater ∧
    (s.modStart f).accVals = s.accVals ∧ (s.modStart f).accSnap = s.accSnap ∧ (s.modStart f).harSnap = s.harSnap ∧ (s.modStart
    f).remote = s.remote ∧ (s.modStart f).casProg = s.casProg ∧ (s.modStart f).twinProg = s.twinProg ∧ (s.modStart
    f).twinSafeAt = s.twinSafeAt ∧ (s.modStart f).lin = s.lin ∧ (s.modStart f).gmb = s.gmb ∧ (s.modStart f).actHeld =
    s.actHeld ∧ (s.modStart f).tmOld = s.tmOld ∧ (s.modStart f).seamAgreed = s.seamAgreed ∧ (s.modStart f).lanes = s.lanes ∧
    (s.modStart f).raws = s.raws ∧ (s.modStart f).store = s.store ∧ (s.modStart f).host = s.host ∧ (s.modStart f).eths =
    s.eths ∧ (s.modStart f).mar = s.mar ∧ (s.modStart f).seamIn = s.seamIn ∧ (s.modStart f).ethPause = s.ethPause ∧
    (s.modStart f).flxs = s.flxs ∧ (s.modStart f).cas = s.cas ∧ (s.modStart f).twin = s.twin ∧ (s.modStart f).power = s.power
    ∧ (s.modStart f).start = f s.start ∧ (s.modStart f).mbox = s.mbox := by
  repeat' (first | exact rfl | apply And.intro)

@[simp] theorem State.dropStaged_fields (p : Nat) :
    (s.dropStaged p).pending = s.pending ∧ (s.dropStaged p).now = s.now ∧ (s.dropStaged p).freeCtr = s.freeCtr ∧ (s.dropStaged
    p).run = s.run ∧ (s.dropStaged p).variant = s.variant ∧ (s.dropStaged p).msix = s.msix ∧ (s.dropStaged p).out = s.out ∧
    (s.dropStaged p).scratch = s.scratch ∧ (s.dropStaged p).deep = s.deep ∧ (s.dropStaged p).streams = s.streams ∧
    (s.dropStaged p).acq = s.acq ∧ (s.dropStaged p).clk = s.clk ∧ (s.dropStaged p).loops = s.loops ∧ (s.dropStaged p).act =
    s.act ∧ (s.dropStaged p).saf = s.saf ∧ (s.dropStaged p).vcapGood = s.vcapGood ∧ (s.dropStaged p).txSeq = s.txSeq ∧
    (s.dropStaged p).angFired = s.angFired ∧ (s.dropStaged p).onceTarget = s.onceTarget ∧ (s.dropStaged p).tm = s.tm ∧
    (s.dropStaged p).digs = s.digs ∧ (s.dropStaged p).seams = s.seams ∧ (s.dropStaged p).stps = s.stps ∧ (s.dropStaged p).ips
    = s.ips ∧ (s.dropStaged p).fus = s.fus ∧ (s.dropStaged p).convs = s.convs ∧ (s.dropStaged p).injDue = s.injDue ∧
    (s.dropStaged p).pulseDue = s.pulseDue ∧ (s.dropStaged p).spcFired = s.spcFired ∧ (s.dropStaged p).wins = s.wins ∧
    (s.dropStaged p).ivs = s.ivs ∧ (s.dropStaged p).accs = s.accs ∧ (s.dropStaged p).pairs = s.pairs ∧ (s.dropStaged p).hars =
    s.hars ∧ (s.dropStaged p).accLater = s.accLater ∧ (s.dropStaged p).accVals = s.accVals ∧ (s.dropStaged p).accSnap =
    s.accSnap ∧ (s.dropStaged p).harSnap = s.harSnap ∧ (s.dropStaged p).remote = s.remote ∧ (s.dropStaged p).casProg =
    s.casProg ∧ (s.dropStaged p).twinProg = s.twinProg ∧ (s.dropStaged p).twinSafeAt = s.twinSafeAt ∧ (s.dropStaged p).lin =
    s.lin ∧ (s.dropStaged p).gmb = s.gmb ∧ (s.dropStaged p).actHeld = s.actHeld ∧ (s.dropStaged p).tmOld = s.tmOld ∧
    (s.dropStaged p).seamAgreed = s.seamAgreed ∧ (s.dropStaged p).lanes = s.lanes ∧ (s.dropStaged p).raws = s.raws ∧
    (s.dropStaged p).store = s.store ∧ (s.dropStaged p).host = s.host ∧ (s.dropStaged p).eths = s.eths ∧ (s.dropStaged p).mar
    = s.mar ∧ (s.dropStaged p).seamIn = s.seamIn ∧ (s.dropStaged p).ethPause = s.ethPause ∧ (s.dropStaged p).flxs = s.flxs ∧
    (s.dropStaged p).cas = s.cas ∧ (s.dropStaged p).twin = s.twin ∧ (s.dropStaged p).power = s.power ∧ (s.dropStaged p).start
    = s.start ∧ (s.dropStaged p).mbox = s.mbox := by
  repeat' (first | exact rfl | apply And.intro)

@[simp] theorem State.setResetting_fields (l : List Nat) :
    (s.setResetting l).pending = s.pending ∧ (s.setResetting l).now = s.now ∧ (s.setResetting l).freeCtr = s.freeCtr ∧
    (s.setResetting l).run = s.run ∧ (s.setResetting l).variant = s.variant ∧ (s.setResetting l).msix = s.msix ∧
    (s.setResetting l).out = s.out ∧ (s.setResetting l).scratch = s.scratch ∧ (s.setResetting l).deep = s.deep ∧
    (s.setResetting l).streams = s.streams ∧ (s.setResetting l).acq = s.acq ∧ (s.setResetting l).clk = s.clk ∧ (s.setResetting
    l).loops = s.loops ∧ (s.setResetting l).act = s.act ∧ (s.setResetting l).saf = s.saf ∧ (s.setResetting l).vcapGood =
    s.vcapGood ∧ (s.setResetting l).txSeq = s.txSeq ∧ (s.setResetting l).angFired = s.angFired ∧ (s.setResetting l).onceTarget
    = s.onceTarget ∧ (s.setResetting l).tm = s.tm ∧ (s.setResetting l).digs = s.digs ∧ (s.setResetting l).seams = s.seams ∧
    (s.setResetting l).stps = s.stps ∧ (s.setResetting l).ips = s.ips ∧ (s.setResetting l).fus = s.fus ∧ (s.setResetting
    l).convs = s.convs ∧ (s.setResetting l).injDue = s.injDue ∧ (s.setResetting l).pulseDue = s.pulseDue ∧ (s.setResetting
    l).spcFired = s.spcFired ∧ (s.setResetting l).wins = s.wins ∧ (s.setResetting l).ivs = s.ivs ∧ (s.setResetting l).accs =
    s.accs ∧ (s.setResetting l).pairs = s.pairs ∧ (s.setResetting l).hars = s.hars ∧ (s.setResetting l).accLater = s.accLater
    ∧ (s.setResetting l).accVals = s.accVals ∧ (s.setResetting l).accSnap = s.accSnap ∧ (s.setResetting l).harSnap = s.harSnap
    ∧ (s.setResetting l).remote = s.remote ∧ (s.setResetting l).casProg = s.casProg ∧ (s.setResetting l).twinProg = s.twinProg
    ∧ (s.setResetting l).twinSafeAt = s.twinSafeAt ∧ (s.setResetting l).lin = s.lin ∧ (s.setResetting l).gmb = s.gmb ∧
    (s.setResetting l).actHeld = s.actHeld ∧ (s.setResetting l).tmOld = s.tmOld ∧ (s.setResetting l).seamAgreed = s.seamAgreed
    ∧ (s.setResetting l).lanes = s.lanes ∧ (s.setResetting l).raws = s.raws ∧ (s.setResetting l).store = s.store ∧
    (s.setResetting l).host = s.host ∧ (s.setResetting l).eths = s.eths ∧ (s.setResetting l).mar = s.mar ∧ (s.setResetting
    l).seamIn = s.seamIn ∧ (s.setResetting l).ethPause = s.ethPause ∧ (s.setResetting l).flxs = s.flxs ∧ (s.setResetting
    l).cas = s.cas ∧ (s.setResetting l).twin = s.twin ∧ (s.setResetting l).power = s.power ∧ (s.setResetting l).start =
    s.start ∧ (s.setResetting l).mbox = s.mbox := by
  repeat' (first | exact rfl | apply And.intro)

@[simp] theorem State.setLastGood_fields (l : List (Nat × Word)) :
    (s.setLastGood l).pending = s.pending ∧ (s.setLastGood l).now = s.now ∧ (s.setLastGood l).freeCtr = s.freeCtr ∧
    (s.setLastGood l).run = s.run ∧ (s.setLastGood l).variant = s.variant ∧ (s.setLastGood l).msix = s.msix ∧ (s.setLastGood
    l).out = s.out ∧ (s.setLastGood l).scratch = s.scratch ∧ (s.setLastGood l).deep = s.deep ∧ (s.setLastGood l).streams =
    s.streams ∧ (s.setLastGood l).acq = s.acq ∧ (s.setLastGood l).clk = s.clk ∧ (s.setLastGood l).loops = s.loops ∧
    (s.setLastGood l).act = s.act ∧ (s.setLastGood l).saf = s.saf ∧ (s.setLastGood l).vcapGood = s.vcapGood ∧ (s.setLastGood
    l).txSeq = s.txSeq ∧ (s.setLastGood l).angFired = s.angFired ∧ (s.setLastGood l).onceTarget = s.onceTarget ∧
    (s.setLastGood l).tm = s.tm ∧ (s.setLastGood l).digs = s.digs ∧ (s.setLastGood l).seams = s.seams ∧ (s.setLastGood l).stps
    = s.stps ∧ (s.setLastGood l).ips = s.ips ∧ (s.setLastGood l).fus = s.fus ∧ (s.setLastGood l).convs = s.convs ∧
    (s.setLastGood l).injDue = s.injDue ∧ (s.setLastGood l).pulseDue = s.pulseDue ∧ (s.setLastGood l).spcFired = s.spcFired ∧
    (s.setLastGood l).wins = s.wins ∧ (s.setLastGood l).ivs = s.ivs ∧ (s.setLastGood l).accs = s.accs ∧ (s.setLastGood
    l).pairs = s.pairs ∧ (s.setLastGood l).hars = s.hars ∧ (s.setLastGood l).accLater = s.accLater ∧ (s.setLastGood l).accVals
    = s.accVals ∧ (s.setLastGood l).accSnap = s.accSnap ∧ (s.setLastGood l).harSnap = s.harSnap ∧ (s.setLastGood l).remote =
    s.remote ∧ (s.setLastGood l).casProg = s.casProg ∧ (s.setLastGood l).twinProg = s.twinProg ∧ (s.setLastGood l).twinSafeAt
    = s.twinSafeAt ∧ (s.setLastGood l).lin = s.lin ∧ (s.setLastGood l).gmb = s.gmb ∧ (s.setLastGood l).actHeld = s.actHeld ∧
    (s.setLastGood l).tmOld = s.tmOld ∧ (s.setLastGood l).seamAgreed = s.seamAgreed ∧ (s.setLastGood l).lanes = s.lanes ∧
    (s.setLastGood l).raws = s.raws ∧ (s.setLastGood l).store = s.store ∧ (s.setLastGood l).host = s.host ∧ (s.setLastGood
    l).eths = s.eths ∧ (s.setLastGood l).mar = s.mar ∧ (s.setLastGood l).seamIn = s.seamIn ∧ (s.setLastGood l).ethPause =
    s.ethPause ∧ (s.setLastGood l).flxs = s.flxs ∧ (s.setLastGood l).cas = s.cas ∧ (s.setLastGood l).twin = s.twin ∧
    (s.setLastGood l).power = s.power ∧ (s.setLastGood l).start = s.start ∧ (s.setLastGood l).mbox = s.mbox := by
  repeat' (first | exact rfl | apply And.intro)

@[simp] theorem State.put_fields (p : Nat) (f : Fld) (v i : Nat) :
    (s.put p f v i).pending = s.pending ∧ (s.put p f v i).now = s.now ∧ (s.put p f v i).freeCtr = s.freeCtr ∧ (s.put p f v
    i).run = s.run ∧ (s.put p f v i).variant = s.variant ∧ (s.put p f v i).msix = s.msix ∧ (s.put p f v i).out = s.out ∧
    (s.put p f v i).scratch = s.scratch ∧ (s.put p f v i).deep = s.deep ∧ (s.put p f v i).streams = s.streams ∧ (s.put p f v
    i).acq = s.acq ∧ (s.put p f v i).clk = s.clk ∧ (s.put p f v i).loops = s.loops ∧ (s.put p f v i).act = s.act ∧ (s.put p f
    v i).saf = s.saf ∧ (s.put p f v i).vcapGood = s.vcapGood ∧ (s.put p f v i).txSeq = s.txSeq ∧ (s.put p f v i).angFired =
    s.angFired ∧ (s.put p f v i).onceTarget = s.onceTarget ∧ (s.put p f v i).tm = s.tm ∧ (s.put p f v i).digs = s.digs ∧
    (s.put p f v i).seams = s.seams ∧ (s.put p f v i).stps = s.stps ∧ (s.put p f v i).ips = s.ips ∧ (s.put p f v i).fus =
    s.fus ∧ (s.put p f v i).convs = s.convs ∧ (s.put p f v i).injDue = s.injDue ∧ (s.put p f v i).pulseDue = s.pulseDue ∧
    (s.put p f v i).spcFired = s.spcFired ∧ (s.put p f v i).wins = s.wins ∧ (s.put p f v i).ivs = s.ivs ∧ (s.put p f v i).accs
    = s.accs ∧ (s.put p f v i).pairs = s.pairs ∧ (s.put p f v i).hars = s.hars ∧ (s.put p f v i).accLater = s.accLater ∧
    (s.put p f v i).accVals = s.accVals ∧ (s.put p f v i).accSnap = s.accSnap ∧ (s.put p f v i).harSnap = s.harSnap ∧ (s.put p
    f v i).remote = s.remote ∧ (s.put p f v i).casProg = s.casProg ∧ (s.put p f v i).twinProg = s.twinProg ∧ (s.put p f v
    i).twinSafeAt = s.twinSafeAt ∧ (s.put p f v i).lin = s.lin ∧ (s.put p f v i).gmb = s.gmb ∧ (s.put p f v i).actHeld =
    s.actHeld ∧ (s.put p f v i).tmOld = s.tmOld ∧ (s.put p f v i).seamAgreed = s.seamAgreed ∧ (s.put p f v i).lanes = s.lanes
    ∧ (s.put p f v i).raws = s.raws ∧ (s.put p f v i).store = s.store ∧ (s.put p f v i).host = s.host ∧ (s.put p f v i).eths =
    s.eths ∧ (s.put p f v i).mar = s.mar ∧ (s.put p f v i).seamIn = s.seamIn ∧ (s.put p f v i).ethPause = s.ethPause ∧ (s.put
    p f v i).flxs = s.flxs ∧ (s.put p f v i).cas = s.cas ∧ (s.put p f v i).twin = s.twin ∧ (s.put p f v i).power = s.power ∧
    (s.put p f v i).start = s.start ∧ (s.put p f v i).mbox = s.mbox := by
  simp [State.put]

@[simp] theorem State.putB_fields (p : Nat) (f : Fld) (b : Bool) (i : Nat) :
    (s.putB p f b i).pending = s.pending ∧ (s.putB p f b i).now = s.now ∧ (s.putB p f b i).freeCtr = s.freeCtr ∧ (s.putB p f b
    i).run = s.run ∧ (s.putB p f b i).variant = s.variant ∧ (s.putB p f b i).msix = s.msix ∧ (s.putB p f b i).out = s.out ∧
    (s.putB p f b i).scratch = s.scratch ∧ (s.putB p f b i).deep = s.deep ∧ (s.putB p f b i).streams = s.streams ∧ (s.putB p f
    b i).acq = s.acq ∧ (s.putB p f b i).clk = s.clk ∧ (s.putB p f b i).loops = s.loops ∧ (s.putB p f b i).act = s.act ∧
    (s.putB p f b i).saf = s.saf ∧ (s.putB p f b i).vcapGood = s.vcapGood ∧ (s.putB p f b i).txSeq = s.txSeq ∧ (s.putB p f b
    i).angFired = s.angFired ∧ (s.putB p f b i).onceTarget = s.onceTarget ∧ (s.putB p f b i).tm = s.tm ∧ (s.putB p f b i).digs
    = s.digs ∧ (s.putB p f b i).seams = s.seams ∧ (s.putB p f b i).stps = s.stps ∧ (s.putB p f b i).ips = s.ips ∧ (s.putB p f
    b i).fus = s.fus ∧ (s.putB p f b i).convs = s.convs ∧ (s.putB p f b i).injDue = s.injDue ∧ (s.putB p f b i).pulseDue =
    s.pulseDue ∧ (s.putB p f b i).spcFired = s.spcFired ∧ (s.putB p f b i).wins = s.wins ∧ (s.putB p f b i).ivs = s.ivs ∧
    (s.putB p f b i).accs = s.accs ∧ (s.putB p f b i).pairs = s.pairs ∧ (s.putB p f b i).hars = s.hars ∧ (s.putB p f b
    i).accLater = s.accLater ∧ (s.putB p f b i).accVals = s.accVals ∧ (s.putB p f b i).accSnap = s.accSnap ∧ (s.putB p f b
    i).harSnap = s.harSnap ∧ (s.putB p f b i).remote = s.remote ∧ (s.putB p f b i).casProg = s.casProg ∧ (s.putB p f b
    i).twinProg = s.twinProg ∧ (s.putB p f b i).twinSafeAt = s.twinSafeAt ∧ (s.putB p f b i).lin = s.lin ∧ (s.putB p f b
    i).gmb = s.gmb ∧ (s.putB p f b i).actHeld = s.actHeld ∧ (s.putB p f b i).tmOld = s.tmOld ∧ (s.putB p f b i).seamAgreed =
    s.seamAgreed ∧ (s.putB p f b i).lanes = s.lanes ∧ (s.putB p f b i).raws = s.raws ∧ (s.putB p f b i).store = s.store ∧
    (s.putB p f b i).host = s.host ∧ (s.putB p f b i).eths = s.eths ∧ (s.putB p f b i).mar = s.mar ∧ (s.putB p f b i).seamIn =
    s.seamIn ∧ (s.putB p f b i).ethPause = s.ethPause ∧ (s.putB p f b i).flxs = s.flxs ∧ (s.putB p f b i).cas = s.cas ∧
    (s.putB p f b i).twin = s.twin ∧ (s.putB p f b i).power = s.power ∧ (s.putB p f b i).start = s.start ∧ (s.putB p f b
    i).mbox = s.mbox := by
  simp [State.putB]

@[simp] theorem State.put64_fields (p : Nat) (l h : Fld) (v i : Nat) :
    (s.put64 p l h v i).pending = s.pending ∧ (s.put64 p l h v i).now = s.now ∧ (s.put64 p l h v i).freeCtr = s.freeCtr ∧
    (s.put64 p l h v i).run = s.run ∧ (s.put64 p l h v i).variant = s.variant ∧ (s.put64 p l h v i).msix = s.msix ∧ (s.put64 p
    l h v i).out = s.out ∧ (s.put64 p l h v i).scratch = s.scratch ∧ (s.put64 p l h v i).deep = s.deep ∧ (s.put64 p l h v
    i).streams = s.streams ∧ (s.put64 p l h v i).acq = s.acq ∧ (s.put64 p l h v i).clk = s.clk ∧ (s.put64 p l h v i).loops =
    s.loops ∧ (s.put64 p l h v i).act = s.act ∧ (s.put64 p l h v i).saf = s.saf ∧ (s.put64 p l h v i).vcapGood = s.vcapGood ∧
    (s.put64 p l h v i).txSeq = s.txSeq ∧ (s.put64 p l h v i).angFired = s.angFired ∧ (s.put64 p l h v i).onceTarget =
    s.onceTarget ∧ (s.put64 p l h v i).tm = s.tm ∧ (s.put64 p l h v i).digs = s.digs ∧ (s.put64 p l h v i).seams = s.seams ∧
    (s.put64 p l h v i).stps = s.stps ∧ (s.put64 p l h v i).ips = s.ips ∧ (s.put64 p l h v i).fus = s.fus ∧ (s.put64 p l h v
    i).convs = s.convs ∧ (s.put64 p l h v i).injDue = s.injDue ∧ (s.put64 p l h v i).pulseDue = s.pulseDue ∧ (s.put64 p l h v
    i).spcFired = s.spcFired ∧ (s.put64 p l h v i).wins = s.wins ∧ (s.put64 p l h v i).ivs = s.ivs ∧ (s.put64 p l h v i).accs
    = s.accs ∧ (s.put64 p l h v i).pairs = s.pairs ∧ (s.put64 p l h v i).hars = s.hars ∧ (s.put64 p l h v i).accLater =
    s.accLater ∧ (s.put64 p l h v i).accVals = s.accVals ∧ (s.put64 p l h v i).accSnap = s.accSnap ∧ (s.put64 p l h v
    i).harSnap = s.harSnap ∧ (s.put64 p l h v i).remote = s.remote ∧ (s.put64 p l h v i).casProg = s.casProg ∧ (s.put64 p l h
    v i).twinProg = s.twinProg ∧ (s.put64 p l h v i).twinSafeAt = s.twinSafeAt ∧ (s.put64 p l h v i).lin = s.lin ∧ (s.put64 p
    l h v i).gmb = s.gmb ∧ (s.put64 p l h v i).actHeld = s.actHeld ∧ (s.put64 p l h v i).tmOld = s.tmOld ∧ (s.put64 p l h v
    i).seamAgreed = s.seamAgreed ∧ (s.put64 p l h v i).lanes = s.lanes ∧ (s.put64 p l h v i).raws = s.raws ∧ (s.put64 p l h v
    i).store = s.store ∧ (s.put64 p l h v i).host = s.host ∧ (s.put64 p l h v i).eths = s.eths ∧ (s.put64 p l h v i).mar =
    s.mar ∧ (s.put64 p l h v i).seamIn = s.seamIn ∧ (s.put64 p l h v i).ethPause = s.ethPause ∧ (s.put64 p l h v i).flxs =
    s.flxs ∧ (s.put64 p l h v i).cas = s.cas ∧ (s.put64 p l h v i).twin = s.twin ∧ (s.put64 p l h v i).power = s.power ∧
    (s.put64 p l h v i).start = s.start ∧ (s.put64 p l h v i).mbox = s.mbox := by
  simp [State.put64]

@[simp] theorem State.sat_fields (p : Nat) (f : Fld) (n i : Nat) :
    (s.sat p f n i).pending = s.pending ∧ (s.sat p f n i).now = s.now ∧ (s.sat p f n i).freeCtr = s.freeCtr ∧ (s.sat p f n
    i).run = s.run ∧ (s.sat p f n i).variant = s.variant ∧ (s.sat p f n i).msix = s.msix ∧ (s.sat p f n i).out = s.out ∧
    (s.sat p f n i).scratch = s.scratch ∧ (s.sat p f n i).deep = s.deep ∧ (s.sat p f n i).streams = s.streams ∧ (s.sat p f n
    i).acq = s.acq ∧ (s.sat p f n i).clk = s.clk ∧ (s.sat p f n i).loops = s.loops ∧ (s.sat p f n i).act = s.act ∧ (s.sat p f
    n i).saf = s.saf ∧ (s.sat p f n i).vcapGood = s.vcapGood ∧ (s.sat p f n i).txSeq = s.txSeq ∧ (s.sat p f n i).angFired =
    s.angFired ∧ (s.sat p f n i).onceTarget = s.onceTarget ∧ (s.sat p f n i).tm = s.tm ∧ (s.sat p f n i).digs = s.digs ∧
    (s.sat p f n i).seams = s.seams ∧ (s.sat p f n i).stps = s.stps ∧ (s.sat p f n i).ips = s.ips ∧ (s.sat p f n i).fus =
    s.fus ∧ (s.sat p f n i).convs = s.convs ∧ (s.sat p f n i).injDue = s.injDue ∧ (s.sat p f n i).pulseDue = s.pulseDue ∧
    (s.sat p f n i).spcFired = s.spcFired ∧ (s.sat p f n i).wins = s.wins ∧ (s.sat p f n i).ivs = s.ivs ∧ (s.sat p f n i).accs
    = s.accs ∧ (s.sat p f n i).pairs = s.pairs ∧ (s.sat p f n i).hars = s.hars ∧ (s.sat p f n i).accLater = s.accLater ∧
    (s.sat p f n i).accVals = s.accVals ∧ (s.sat p f n i).accSnap = s.accSnap ∧ (s.sat p f n i).harSnap = s.harSnap ∧ (s.sat p
    f n i).remote = s.remote ∧ (s.sat p f n i).casProg = s.casProg ∧ (s.sat p f n i).twinProg = s.twinProg ∧ (s.sat p f n
    i).twinSafeAt = s.twinSafeAt ∧ (s.sat p f n i).lin = s.lin ∧ (s.sat p f n i).gmb = s.gmb ∧ (s.sat p f n i).actHeld =
    s.actHeld ∧ (s.sat p f n i).tmOld = s.tmOld ∧ (s.sat p f n i).seamAgreed = s.seamAgreed ∧ (s.sat p f n i).lanes = s.lanes
    ∧ (s.sat p f n i).raws = s.raws ∧ (s.sat p f n i).store = s.store ∧ (s.sat p f n i).host = s.host ∧ (s.sat p f n i).eths =
    s.eths ∧ (s.sat p f n i).mar = s.mar ∧ (s.sat p f n i).seamIn = s.seamIn ∧ (s.sat p f n i).ethPause = s.ethPause ∧ (s.sat
    p f n i).flxs = s.flxs ∧ (s.sat p f n i).cas = s.cas ∧ (s.sat p f n i).twin = s.twin ∧ (s.sat p f n i).power = s.power ∧
    (s.sat p f n i).start = s.start ∧ (s.sat p f n i).mbox = s.mbox := by
  simp [State.sat]

@[simp] theorem State.wrap_fields (p : Nat) (f : Fld) (n i : Nat) :
    (s.wrap p f n i).pending = s.pending ∧ (s.wrap p f n i).now = s.now ∧ (s.wrap p f n i).freeCtr = s.freeCtr ∧ (s.wrap p f n
    i).run = s.run ∧ (s.wrap p f n i).variant = s.variant ∧ (s.wrap p f n i).msix = s.msix ∧ (s.wrap p f n i).out = s.out ∧
    (s.wrap p f n i).scratch = s.scratch ∧ (s.wrap p f n i).deep = s.deep ∧ (s.wrap p f n i).streams = s.streams ∧ (s.wrap p f
    n i).acq = s.acq ∧ (s.wrap p f n i).clk = s.clk ∧ (s.wrap p f n i).loops = s.loops ∧ (s.wrap p f n i).act = s.act ∧
    (s.wrap p f n i).saf = s.saf ∧ (s.wrap p f n i).vcapGood = s.vcapGood ∧ (s.wrap p f n i).txSeq = s.txSeq ∧ (s.wrap p f n
    i).angFired = s.angFired ∧ (s.wrap p f n i).onceTarget = s.onceTarget ∧ (s.wrap p f n i).tm = s.tm ∧ (s.wrap p f n i).digs
    = s.digs ∧ (s.wrap p f n i).seams = s.seams ∧ (s.wrap p f n i).stps = s.stps ∧ (s.wrap p f n i).ips = s.ips ∧ (s.wrap p f
    n i).fus = s.fus ∧ (s.wrap p f n i).convs = s.convs ∧ (s.wrap p f n i).injDue = s.injDue ∧ (s.wrap p f n i).pulseDue =
    s.pulseDue ∧ (s.wrap p f n i).spcFired = s.spcFired ∧ (s.wrap p f n i).wins = s.wins ∧ (s.wrap p f n i).ivs = s.ivs ∧
    (s.wrap p f n i).accs = s.accs ∧ (s.wrap p f n i).pairs = s.pairs ∧ (s.wrap p f n i).hars = s.hars ∧ (s.wrap p f n
    i).accLater = s.accLater ∧ (s.wrap p f n i).accVals = s.accVals ∧ (s.wrap p f n i).accSnap = s.accSnap ∧ (s.wrap p f n
    i).harSnap = s.harSnap ∧ (s.wrap p f n i).remote = s.remote ∧ (s.wrap p f n i).casProg = s.casProg ∧ (s.wrap p f n
    i).twinProg = s.twinProg ∧ (s.wrap p f n i).twinSafeAt = s.twinSafeAt ∧ (s.wrap p f n i).lin = s.lin ∧ (s.wrap p f n
    i).gmb = s.gmb ∧ (s.wrap p f n i).actHeld = s.actHeld ∧ (s.wrap p f n i).tmOld = s.tmOld ∧ (s.wrap p f n i).seamAgreed =
    s.seamAgreed ∧ (s.wrap p f n i).lanes = s.lanes ∧ (s.wrap p f n i).raws = s.raws ∧ (s.wrap p f n i).store = s.store ∧
    (s.wrap p f n i).host = s.host ∧ (s.wrap p f n i).eths = s.eths ∧ (s.wrap p f n i).mar = s.mar ∧ (s.wrap p f n i).seamIn =
    s.seamIn ∧ (s.wrap p f n i).ethPause = s.ethPause ∧ (s.wrap p f n i).flxs = s.flxs ∧ (s.wrap p f n i).cas = s.cas ∧
    (s.wrap p f n i).twin = s.twin ∧ (s.wrap p f n i).power = s.power ∧ (s.wrap p f n i).start = s.start ∧ (s.wrap p f n
    i).mbox = s.mbox := by
  simp [State.wrap]

@[simp] theorem State.wrap64_fields (p : Nat) (l h : Fld) (n : Nat) :
    (s.wrap64 p l h n).pending = s.pending ∧ (s.wrap64 p l h n).now = s.now ∧ (s.wrap64 p l h n).freeCtr = s.freeCtr ∧
    (s.wrap64 p l h n).run = s.run ∧ (s.wrap64 p l h n).variant = s.variant ∧ (s.wrap64 p l h n).msix = s.msix ∧ (s.wrap64 p l
    h n).out = s.out ∧ (s.wrap64 p l h n).scratch = s.scratch ∧ (s.wrap64 p l h n).deep = s.deep ∧ (s.wrap64 p l h n).streams
    = s.streams ∧ (s.wrap64 p l h n).acq = s.acq ∧ (s.wrap64 p l h n).clk = s.clk ∧ (s.wrap64 p l h n).loops = s.loops ∧
    (s.wrap64 p l h n).act = s.act ∧ (s.wrap64 p l h n).saf = s.saf ∧ (s.wrap64 p l h n).vcapGood = s.vcapGood ∧ (s.wrap64 p l
    h n).txSeq = s.txSeq ∧ (s.wrap64 p l h n).angFired = s.angFired ∧ (s.wrap64 p l h n).onceTarget = s.onceTarget ∧ (s.wrap64
    p l h n).tm = s.tm ∧ (s.wrap64 p l h n).digs = s.digs ∧ (s.wrap64 p l h n).seams = s.seams ∧ (s.wrap64 p l h n).stps =
    s.stps ∧ (s.wrap64 p l h n).ips = s.ips ∧ (s.wrap64 p l h n).fus = s.fus ∧ (s.wrap64 p l h n).convs = s.convs ∧ (s.wrap64
    p l h n).injDue = s.injDue ∧ (s.wrap64 p l h n).pulseDue = s.pulseDue ∧ (s.wrap64 p l h n).spcFired = s.spcFired ∧
    (s.wrap64 p l h n).wins = s.wins ∧ (s.wrap64 p l h n).ivs = s.ivs ∧ (s.wrap64 p l h n).accs = s.accs ∧ (s.wrap64 p l h
    n).pairs = s.pairs ∧ (s.wrap64 p l h n).hars = s.hars ∧ (s.wrap64 p l h n).accLater = s.accLater ∧ (s.wrap64 p l h
    n).accVals = s.accVals ∧ (s.wrap64 p l h n).accSnap = s.accSnap ∧ (s.wrap64 p l h n).harSnap = s.harSnap ∧ (s.wrap64 p l h
    n).remote = s.remote ∧ (s.wrap64 p l h n).casProg = s.casProg ∧ (s.wrap64 p l h n).twinProg = s.twinProg ∧ (s.wrap64 p l h
    n).twinSafeAt = s.twinSafeAt ∧ (s.wrap64 p l h n).lin = s.lin ∧ (s.wrap64 p l h n).gmb = s.gmb ∧ (s.wrap64 p l h
    n).actHeld = s.actHeld ∧ (s.wrap64 p l h n).tmOld = s.tmOld ∧ (s.wrap64 p l h n).seamAgreed = s.seamAgreed ∧ (s.wrap64 p l
    h n).lanes = s.lanes ∧ (s.wrap64 p l h n).raws = s.raws ∧ (s.wrap64 p l h n).store = s.store ∧ (s.wrap64 p l h n).host =
    s.host ∧ (s.wrap64 p l h n).eths = s.eths ∧ (s.wrap64 p l h n).mar = s.mar ∧ (s.wrap64 p l h n).seamIn = s.seamIn ∧
    (s.wrap64 p l h n).ethPause = s.ethPause ∧ (s.wrap64 p l h n).flxs = s.flxs ∧ (s.wrap64 p l h n).cas = s.cas ∧ (s.wrap64 p
    l h n).twin = s.twin ∧ (s.wrap64 p l h n).power = s.power ∧ (s.wrap64 p l h n).start = s.start ∧ (s.wrap64 p l h n).mbox =
    s.mbox := by
  simp [State.wrap64]

@[simp] theorem State.setBlockState_fields (p c : Nat) :
    (s.setBlockState p c).pending = s.pending ∧ (s.setBlockState p c).now = s.now ∧ (s.setBlockState p c).freeCtr = s.freeCtr
    ∧ (s.setBlockState p c).run = s.run ∧ (s.setBlockState p c).variant = s.variant ∧ (s.setBlockState p c).msix = s.msix ∧
    (s.setBlockState p c).out = s.out ∧ (s.setBlockState p c).scratch = s.scratch ∧ (s.setBlockState p c).deep = s.deep ∧
    (s.setBlockState p c).streams = s.streams ∧ (s.setBlockState p c).acq = s.acq ∧ (s.setBlockState p c).clk = s.clk ∧
    (s.setBlockState p c).loops = s.loops ∧ (s.setBlockState p c).act = s.act ∧ (s.setBlockState p c).saf = s.saf ∧
    (s.setBlockState p c).vcapGood = s.vcapGood ∧ (s.setBlockState p c).txSeq = s.txSeq ∧ (s.setBlockState p c).angFired =
    s.angFired ∧ (s.setBlockState p c).onceTarget = s.onceTarget ∧ (s.setBlockState p c).tm = s.tm ∧ (s.setBlockState p
    c).digs = s.digs ∧ (s.setBlockState p c).seams = s.seams ∧ (s.setBlockState p c).stps = s.stps ∧ (s.setBlockState p c).ips
    = s.ips ∧ (s.setBlockState p c).fus = s.fus ∧ (s.setBlockState p c).convs = s.convs ∧ (s.setBlockState p c).injDue =
    s.injDue ∧ (s.setBlockState p c).pulseDue = s.pulseDue ∧ (s.setBlockState p c).spcFired = s.spcFired ∧ (s.setBlockState p
    c).wins = s.wins ∧ (s.setBlockState p c).ivs = s.ivs ∧ (s.setBlockState p c).accs = s.accs ∧ (s.setBlockState p c).pairs =
    s.pairs ∧ (s.setBlockState p c).hars = s.hars ∧ (s.setBlockState p c).accLater = s.accLater ∧ (s.setBlockState p
    c).accVals = s.accVals ∧ (s.setBlockState p c).accSnap = s.accSnap ∧ (s.setBlockState p c).harSnap = s.harSnap ∧
    (s.setBlockState p c).remote = s.remote ∧ (s.setBlockState p c).casProg = s.casProg ∧ (s.setBlockState p c).twinProg =
    s.twinProg ∧ (s.setBlockState p c).twinSafeAt = s.twinSafeAt ∧ (s.setBlockState p c).lin = s.lin ∧ (s.setBlockState p
    c).gmb = s.gmb ∧ (s.setBlockState p c).actHeld = s.actHeld ∧ (s.setBlockState p c).tmOld = s.tmOld ∧ (s.setBlockState p
    c).seamAgreed = s.seamAgreed ∧ (s.setBlockState p c).lanes = s.lanes ∧ (s.setBlockState p c).raws = s.raws ∧
    (s.setBlockState p c).store = s.store ∧ (s.setBlockState p c).host = s.host ∧ (s.setBlockState p c).eths = s.eths ∧
    (s.setBlockState p c).mar = s.mar ∧ (s.setBlockState p c).seamIn = s.seamIn ∧ (s.setBlockState p c).ethPause = s.ethPause
    ∧ (s.setBlockState p c).flxs = s.flxs ∧ (s.setBlockState p c).cas = s.cas ∧ (s.setBlockState p c).twin = s.twin ∧
    (s.setBlockState p c).power = s.power ∧ (s.setBlockState p c).start = s.start ∧ (s.setBlockState p c).mbox = s.mbox := by
  simp [State.setBlockState]

@[simp] theorem State.msixSend_fields (v : Nat) :
    (s.msixSend v).pending = s.pending ∧ (s.msixSend v).now = s.now ∧ (s.msixSend v).freeCtr = s.freeCtr ∧ (s.msixSend v).run
    = s.run ∧ (s.msixSend v).variant = s.variant ∧ (s.msixSend v).regs = s.regs ∧ (s.msixSend v).scratch = s.scratch ∧
    (s.msixSend v).deep = s.deep ∧ (s.msixSend v).streams = s.streams ∧ (s.msixSend v).acq = s.acq ∧ (s.msixSend v).clk =
    s.clk ∧ (s.msixSend v).loops = s.loops ∧ (s.msixSend v).act = s.act ∧ (s.msixSend v).saf = s.saf ∧ (s.msixSend v).vcapGood
    = s.vcapGood ∧ (s.msixSend v).txSeq = s.txSeq ∧ (s.msixSend v).angFired = s.angFired ∧ (s.msixSend v).onceTarget =
    s.onceTarget ∧ (s.msixSend v).tm = s.tm ∧ (s.msixSend v).digs = s.digs ∧ (s.msixSend v).seams = s.seams ∧ (s.msixSend
    v).stps = s.stps ∧ (s.msixSend v).ips = s.ips ∧ (s.msixSend v).fus = s.fus ∧ (s.msixSend v).convs = s.convs ∧ (s.msixSend
    v).injDue = s.injDue ∧ (s.msixSend v).pulseDue = s.pulseDue ∧ (s.msixSend v).spcFired = s.spcFired ∧ (s.msixSend v).wins =
    s.wins ∧ (s.msixSend v).ivs = s.ivs ∧ (s.msixSend v).accs = s.accs ∧ (s.msixSend v).pairs = s.pairs ∧ (s.msixSend v).hars
    = s.hars ∧ (s.msixSend v).accLater = s.accLater ∧ (s.msixSend v).accVals = s.accVals ∧ (s.msixSend v).accSnap = s.accSnap
    ∧ (s.msixSend v).harSnap = s.harSnap ∧ (s.msixSend v).remote = s.remote ∧ (s.msixSend v).casProg = s.casProg ∧ (s.msixSend
    v).twinProg = s.twinProg ∧ (s.msixSend v).twinSafeAt = s.twinSafeAt ∧ (s.msixSend v).lin = s.lin ∧ (s.msixSend v).gmb =
    s.gmb ∧ (s.msixSend v).actHeld = s.actHeld ∧ (s.msixSend v).tmOld = s.tmOld ∧ (s.msixSend v).seamAgreed = s.seamAgreed ∧
    (s.msixSend v).lanes = s.lanes ∧ (s.msixSend v).raws = s.raws ∧ (s.msixSend v).store = s.store ∧ (s.msixSend v).host =
    s.host ∧ (s.msixSend v).eths = s.eths ∧ (s.msixSend v).mar = s.mar ∧ (s.msixSend v).seamIn = s.seamIn ∧ (s.msixSend
    v).ethPause = s.ethPause ∧ (s.msixSend v).flxs = s.flxs ∧ (s.msixSend v).cas = s.cas ∧ (s.msixSend v).twin = s.twin ∧
    (s.msixSend v).power = s.power ∧ (s.msixSend v).start = s.start ∧ (s.msixSend v).mbox = s.mbox := by
  unfold State.msixSend
  split
  · split <;> simp
  · simp

@[simp] theorem State.irqRequest_fields (p : Nat) :
    (s.irqRequest p).pending = s.pending ∧ (s.irqRequest p).now = s.now ∧ (s.irqRequest p).freeCtr = s.freeCtr ∧ (s.irqRequest
    p).run = s.run ∧ (s.irqRequest p).variant = s.variant ∧ (s.irqRequest p).regs = s.regs ∧ (s.irqRequest p).scratch =
    s.scratch ∧ (s.irqRequest p).deep = s.deep ∧ (s.irqRequest p).streams = s.streams ∧ (s.irqRequest p).acq = s.acq ∧
    (s.irqRequest p).clk = s.clk ∧ (s.irqRequest p).loops = s.loops ∧ (s.irqRequest p).act = s.act ∧ (s.irqRequest p).saf =
    s.saf ∧ (s.irqRequest p).vcapGood = s.vcapGood ∧ (s.irqRequest p).txSeq = s.txSeq ∧ (s.irqRequest p).angFired = s.angFired
    ∧ (s.irqRequest p).onceTarget = s.onceTarget ∧ (s.irqRequest p).tm = s.tm ∧ (s.irqRequest p).digs = s.digs ∧ (s.irqRequest
    p).seams = s.seams ∧ (s.irqRequest p).stps = s.stps ∧ (s.irqRequest p).ips = s.ips ∧ (s.irqRequest p).fus = s.fus ∧
    (s.irqRequest p).convs = s.convs ∧ (s.irqRequest p).injDue = s.injDue ∧ (s.irqRequest p).pulseDue = s.pulseDue ∧
    (s.irqRequest p).spcFired = s.spcFired ∧ (s.irqRequest p).wins = s.wins ∧ (s.irqRequest p).ivs = s.ivs ∧ (s.irqRequest
    p).accs = s.accs ∧ (s.irqRequest p).pairs = s.pairs ∧ (s.irqRequest p).hars = s.hars ∧ (s.irqRequest p).accLater =
    s.accLater ∧ (s.irqRequest p).accVals = s.accVals ∧ (s.irqRequest p).accSnap = s.accSnap ∧ (s.irqRequest p).harSnap =
    s.harSnap ∧ (s.irqRequest p).remote = s.remote ∧ (s.irqRequest p).casProg = s.casProg ∧ (s.irqRequest p).twinProg =
    s.twinProg ∧ (s.irqRequest p).twinSafeAt = s.twinSafeAt ∧ (s.irqRequest p).lin = s.lin ∧ (s.irqRequest p).gmb = s.gmb ∧
    (s.irqRequest p).actHeld = s.actHeld ∧ (s.irqRequest p).tmOld = s.tmOld ∧ (s.irqRequest p).seamAgreed = s.seamAgreed ∧
    (s.irqRequest p).lanes = s.lanes ∧ (s.irqRequest p).raws = s.raws ∧ (s.irqRequest p).store = s.store ∧ (s.irqRequest
    p).host = s.host ∧ (s.irqRequest p).eths = s.eths ∧ (s.irqRequest p).mar = s.mar ∧ (s.irqRequest p).seamIn = s.seamIn ∧
    (s.irqRequest p).ethPause = s.ethPause ∧ (s.irqRequest p).flxs = s.flxs ∧ (s.irqRequest p).cas = s.cas ∧ (s.irqRequest
    p).twin = s.twin ∧ (s.irqRequest p).power = s.power ∧ (s.irqRequest p).start = s.start ∧ (s.irqRequest p).mbox = s.mbox := by
  unfold State.irqRequest
  extract_lets
  split <;> simp

@[simp] theorem State.latch_fields (p b : Nat) :
    (s.latch p b).pending = s.pending ∧ (s.latch p b).now = s.now ∧ (s.latch p b).freeCtr = s.freeCtr ∧ (s.latch p b).run =
    s.run ∧ (s.latch p b).variant = s.variant ∧ (s.latch p b).scratch = s.scratch ∧ (s.latch p b).deep = s.deep ∧ (s.latch p
    b).streams = s.streams ∧ (s.latch p b).acq = s.acq ∧ (s.latch p b).clk = s.clk ∧ (s.latch p b).loops = s.loops ∧ (s.latch
    p b).act = s.act ∧ (s.latch p b).saf = s.saf ∧ (s.latch p b).vcapGood = s.vcapGood ∧ (s.latch p b).txSeq = s.txSeq ∧
    (s.latch p b).angFired = s.angFired ∧ (s.latch p b).onceTarget = s.onceTarget ∧ (s.latch p b).tm = s.tm ∧ (s.latch p
    b).digs = s.digs ∧ (s.latch p b).seams = s.seams ∧ (s.latch p b).stps = s.stps ∧ (s.latch p b).ips = s.ips ∧ (s.latch p
    b).fus = s.fus ∧ (s.latch p b).convs = s.convs ∧ (s.latch p b).injDue = s.injDue ∧ (s.latch p b).pulseDue = s.pulseDue ∧
    (s.latch p b).spcFired = s.spcFired ∧ (s.latch p b).wins = s.wins ∧ (s.latch p b).ivs = s.ivs ∧ (s.latch p b).accs =
    s.accs ∧ (s.latch p b).pairs = s.pairs ∧ (s.latch p b).hars = s.hars ∧ (s.latch p b).accLater = s.accLater ∧ (s.latch p
    b).accVals = s.accVals ∧ (s.latch p b).accSnap = s.accSnap ∧ (s.latch p b).harSnap = s.harSnap ∧ (s.latch p b).remote =
    s.remote ∧ (s.latch p b).casProg = s.casProg ∧ (s.latch p b).twinProg = s.twinProg ∧ (s.latch p b).twinSafeAt =
    s.twinSafeAt ∧ (s.latch p b).lin = s.lin ∧ (s.latch p b).gmb = s.gmb ∧ (s.latch p b).actHeld = s.actHeld ∧ (s.latch p
    b).tmOld = s.tmOld ∧ (s.latch p b).seamAgreed = s.seamAgreed ∧ (s.latch p b).lanes = s.lanes ∧ (s.latch p b).raws = s.raws
    ∧ (s.latch p b).store = s.store ∧ (s.latch p b).host = s.host ∧ (s.latch p b).eths = s.eths ∧ (s.latch p b).mar = s.mar ∧
    (s.latch p b).seamIn = s.seamIn ∧ (s.latch p b).ethPause = s.ethPause ∧ (s.latch p b).flxs = s.flxs ∧ (s.latch p b).cas =
    s.cas ∧ (s.latch p b).twin = s.twin ∧ (s.latch p b).power = s.power ∧ (s.latch p b).start = s.start ∧ (s.latch p b).mbox =
    s.mbox := by
  unfold State.latch
  dsimp only
  split
  · simp
  · split <;> simp

@[simp] theorem State.pulse_fields (p b : Nat) :
    (s.pulse p b).pending = s.pending ∧ (s.pulse p b).now = s.now ∧ (s.pulse p b).freeCtr = s.freeCtr ∧ (s.pulse p b).run =
    s.run ∧ (s.pulse p b).variant = s.variant ∧ (s.pulse p b).scratch = s.scratch ∧ (s.pulse p b).deep = s.deep ∧ (s.pulse p
    b).streams = s.streams ∧ (s.pulse p b).acq = s.acq ∧ (s.pulse p b).clk = s.clk ∧ (s.pulse p b).loops = s.loops ∧ (s.pulse
    p b).act = s.act ∧ (s.pulse p b).saf = s.saf ∧ (s.pulse p b).vcapGood = s.vcapGood ∧ (s.pulse p b).txSeq = s.txSeq ∧
    (s.pulse p b).angFired = s.angFired ∧ (s.pulse p b).onceTarget = s.onceTarget ∧ (s.pulse p b).tm = s.tm ∧ (s.pulse p
    b).digs = s.digs ∧ (s.pulse p b).seams = s.seams ∧ (s.pulse p b).stps = s.stps ∧ (s.pulse p b).ips = s.ips ∧ (s.pulse p
    b).fus = s.fus ∧ (s.pulse p b).convs = s.convs ∧ (s.pulse p b).injDue = s.injDue ∧ (s.pulse p b).pulseDue = s.pulseDue ∧
    (s.pulse p b).spcFired = s.spcFired ∧ (s.pulse p b).wins = s.wins ∧ (s.pulse p b).ivs = s.ivs ∧ (s.pulse p b).accs =
    s.accs ∧ (s.pulse p b).pairs = s.pairs ∧ (s.pulse p b).hars = s.hars ∧ (s.pulse p b).accLater = s.accLater ∧ (s.pulse p
    b).accVals = s.accVals ∧ (s.pulse p b).accSnap = s.accSnap ∧ (s.pulse p b).harSnap = s.harSnap ∧ (s.pulse p b).remote =
    s.remote ∧ (s.pulse p b).casProg = s.casProg ∧ (s.pulse p b).twinProg = s.twinProg ∧ (s.pulse p b).twinSafeAt =
    s.twinSafeAt ∧ (s.pulse p b).lin = s.lin ∧ (s.pulse p b).gmb = s.gmb ∧ (s.pulse p b).actHeld = s.actHeld ∧ (s.pulse p
    b).tmOld = s.tmOld ∧ (s.pulse p b).seamAgreed = s.seamAgreed ∧ (s.pulse p b).lanes = s.lanes ∧ (s.pulse p b).raws = s.raws
    ∧ (s.pulse p b).store = s.store ∧ (s.pulse p b).host = s.host ∧ (s.pulse p b).eths = s.eths ∧ (s.pulse p b).mar = s.mar ∧
    (s.pulse p b).seamIn = s.seamIn ∧ (s.pulse p b).ethPause = s.ethPause ∧ (s.pulse p b).flxs = s.flxs ∧ (s.pulse p b).cas =
    s.cas ∧ (s.pulse p b).twin = s.twin ∧ (s.pulse p b).power = s.power ∧ (s.pulse p b).start = s.start ∧ (s.pulse p b).mbox =
    s.mbox := by
  unfold State.pulse
  split <;> simp

@[simp] theorem State.level_fields (p b : Nat) (v : Bool) :
    (s.level p b v).pending = s.pending ∧ (s.level p b v).now = s.now ∧ (s.level p b v).freeCtr = s.freeCtr ∧ (s.level p b
    v).run = s.run ∧ (s.level p b v).variant = s.variant ∧ (s.level p b v).scratch = s.scratch ∧ (s.level p b v).deep = s.deep
    ∧ (s.level p b v).streams = s.streams ∧ (s.level p b v).acq = s.acq ∧ (s.level p b v).clk = s.clk ∧ (s.level p b v).loops
    = s.loops ∧ (s.level p b v).act = s.act ∧ (s.level p b v).saf = s.saf ∧ (s.level p b v).vcapGood = s.vcapGood ∧ (s.level p
    b v).txSeq = s.txSeq ∧ (s.level p b v).angFired = s.angFired ∧ (s.level p b v).onceTarget = s.onceTarget ∧ (s.level p b
    v).tm = s.tm ∧ (s.level p b v).digs = s.digs ∧ (s.level p b v).seams = s.seams ∧ (s.level p b v).stps = s.stps ∧ (s.level
    p b v).ips = s.ips ∧ (s.level p b v).fus = s.fus ∧ (s.level p b v).convs = s.convs ∧ (s.level p b v).injDue = s.injDue ∧
    (s.level p b v).pulseDue = s.pulseDue ∧ (s.level p b v).spcFired = s.spcFired ∧ (s.level p b v).wins = s.wins ∧ (s.level p
    b v).ivs = s.ivs ∧ (s.level p b v).accs = s.accs ∧ (s.level p b v).pairs = s.pairs ∧ (s.level p b v).hars = s.hars ∧
    (s.level p b v).accLater = s.accLater ∧ (s.level p b v).accVals = s.accVals ∧ (s.level p b v).accSnap = s.accSnap ∧
    (s.level p b v).harSnap = s.harSnap ∧ (s.level p b v).remote = s.remote ∧ (s.level p b v).casProg = s.casProg ∧ (s.level p
    b v).twinProg = s.twinProg ∧ (s.level p b v).twinSafeAt = s.twinSafeAt ∧ (s.level p b v).lin = s.lin ∧ (s.level p b v).gmb
    = s.gmb ∧ (s.level p b v).actHeld = s.actHeld ∧ (s.level p b v).tmOld = s.tmOld ∧ (s.level p b v).seamAgreed =
    s.seamAgreed ∧ (s.level p b v).lanes = s.lanes ∧ (s.level p b v).raws = s.raws ∧ (s.level p b v).store = s.store ∧
    (s.level p b v).host = s.host ∧ (s.level p b v).eths = s.eths ∧ (s.level p b v).mar = s.mar ∧ (s.level p b v).seamIn =
    s.seamIn ∧ (s.level p b v).ethPause = s.ethPause ∧ (s.level p b v).flxs = s.flxs ∧ (s.level p b v).cas = s.cas ∧ (s.level
    p b v).twin = s.twin ∧ (s.level p b v).power = s.power ∧ (s.level p b v).start = s.start ∧ (s.level p b v).mbox = s.mbox := by
  unfold State.level
  dsimp only
  split <;> simp

@[simp] theorem State.levelHdr_fields (p b : Nat) (v : Bool) :
    (s.levelHdr p b v).pending = s.pending ∧ (s.levelHdr p b v).now = s.now ∧ (s.levelHdr p b v).freeCtr = s.freeCtr ∧
    (s.levelHdr p b v).run = s.run ∧ (s.levelHdr p b v).variant = s.variant ∧ (s.levelHdr p b v).scratch = s.scratch ∧
    (s.levelHdr p b v).deep = s.deep ∧ (s.levelHdr p b v).streams = s.streams ∧ (s.levelHdr p b v).acq = s.acq ∧ (s.levelHdr p
    b v).clk = s.clk ∧ (s.levelHdr p b v).loops = s.loops ∧ (s.levelHdr p b v).act = s.act ∧ (s.levelHdr p b v).saf = s.saf ∧
    (s.levelHdr p b v).vcapGood = s.vcapGood ∧ (s.levelHdr p b v).txSeq = s.txSeq ∧ (s.levelHdr p b v).angFired = s.angFired ∧
    (s.levelHdr p b v).onceTarget = s.onceTarget ∧ (s.levelHdr p b v).tm = s.tm ∧ (s.levelHdr p b v).digs = s.digs ∧
    (s.levelHdr p b v).seams = s.seams ∧ (s.levelHdr p b v).stps = s.stps ∧ (s.levelHdr p b v).ips = s.ips ∧ (s.levelHdr p b
    v).fus = s.fus ∧ (s.levelHdr p b v).convs = s.convs ∧ (s.levelHdr p b v).injDue = s.injDue ∧ (s.levelHdr p b v).pulseDue =
    s.pulseDue ∧ (s.levelHdr p b v).spcFired = s.spcFired ∧ (s.levelHdr p b v).wins = s.wins ∧ (s.levelHdr p b v).ivs = s.ivs
    ∧ (s.levelHdr p b v).accs = s.accs ∧ (s.levelHdr p b v).pairs = s.pairs ∧ (s.levelHdr p b v).hars = s.hars ∧ (s.levelHdr p
    b v).accLater = s.accLater ∧ (s.levelHdr p b v).accVals = s.accVals ∧ (s.levelHdr p b v).accSnap = s.accSnap ∧ (s.levelHdr
    p b v).harSnap = s.harSnap ∧ (s.levelHdr p b v).remote = s.remote ∧ (s.levelHdr p b v).casProg = s.casProg ∧ (s.levelHdr p
    b v).twinProg = s.twinProg ∧ (s.levelHdr p b v).twinSafeAt = s.twinSafeAt ∧ (s.levelHdr p b v).lin = s.lin ∧ (s.levelHdr p
    b v).gmb = s.gmb ∧ (s.levelHdr p b v).actHeld = s.actHeld ∧ (s.levelHdr p b v).tmOld = s.tmOld ∧ (s.levelHdr p b
    v).seamAgreed = s.seamAgreed ∧ (s.levelHdr p b v).lanes = s.lanes ∧ (s.levelHdr p b v).raws = s.raws ∧ (s.levelHdr p b
    v).store = s.store ∧ (s.levelHdr p b v).host = s.host ∧ (s.levelHdr p b v).eths = s.eths ∧ (s.levelHdr p b v).mar = s.mar
    ∧ (s.levelHdr p b v).seamIn = s.seamIn ∧ (s.levelHdr p b v).ethPause = s.ethPause ∧ (s.levelHdr p b v).flxs = s.flxs ∧
    (s.levelHdr p b v).cas = s.cas ∧ (s.levelHdr p b v).twin = s.twin ∧ (s.levelHdr p b v).power = s.power ∧ (s.levelHdr p b
    v).start = s.start ∧ (s.levelHdr p b v).mbox = s.mbox := by
  unfold State.levelHdr
  dsimp only
  split <;> simp

end Sys2Proof.Machine
end

