-- ==== Sys2Proof/Laws/Regs.lean ====
section
/-!
SUPPORT. Register reads after register writes: a field reads back what was put into it, other fields and other registers are as before, and
events touch only EVT_RAW and EVT_PEND of their page.
-/
namespace Sys2Proof.Machine

/-! ### Bit fields -/

theorem bits_lt (v hi lo : Nat) : bits v hi lo < 2 ^ (hi + 1 - lo) := Nat.mod_lt _ (Nat.two_pow_pos _)

/-- `v` cut at a field: below, the field, above. -/
theorem putBits_eq (v hi lo x : Nat) (h : lo ≤ hi) :
    putBits v hi lo x = v % 2 ^ lo + 2 ^ lo * (x % 2 ^ (hi + 1 - lo)) + 2 ^ (hi + 1) * (v / 2 ^ (hi + 1)) := by
  have e : 2 ^ (hi + 1) = 2 ^ lo * 2 ^ (hi + 1 - lo) := by rw [← Nat.pow_add]; congr 1; omega
  have h1 : v = v % 2 ^ lo + 2 ^ lo * (v / 2 ^ lo) := (Nat.mod_add_div v (2 ^ lo)).symm
  have h2 : v / 2 ^ lo = v / 2 ^ lo % 2 ^ (hi + 1 - lo) + 2 ^ (hi + 1 - lo) * (v / 2 ^ lo / 2 ^ (hi + 1 - lo)) :=
    (Nat.mod_add_div (v / 2 ^ lo) _).symm
  have h3 : v / 2 ^ (hi + 1) = v / 2 ^ lo / 2 ^ (hi + 1 - lo) := by rw [e, Nat.div_div_eq_div_mul]
  unfold putBits bits
  rw [h3, e]
  generalize v / 2 ^ lo = q at *
  generalize hb : q % 2 ^ (hi + 1 - lo) = b at *
  generalize q / 2 ^ (hi + 1 - lo) = c at *
  generalize x % 2 ^ (hi + 1 - lo) = y
  generalize 2 ^ (hi + 1 - lo) = w at *
  generalize 2 ^ lo = z at *
  generalize v % z = r at *
  have : v = r + (z * b + z * w * c) := by rw [h1, h2]; ring
  have hs : v - b * z = r + z * w * c := by rw [this]; rw [Nat.mul_comm b z]; omega
  rw [hs]; ring

theorem bits_putBits_same (v hi lo x : Nat) (h : lo ≤ hi) : bits (putBits v hi lo x) hi lo = x % 2 ^ (hi + 1 - lo) := by
  have e : 2 ^ (hi + 1) = 2 ^ lo * 2 ^ (hi + 1 - lo) := by rw [← Nat.pow_add]; congr 1; omega
  rw [putBits_eq v hi lo x h, e]
  unfold bits
  have hl : v % 2 ^ lo < 2 ^ lo := Nat.mod_lt _ (Nat.two_pow_pos _)
  have : v % 2 ^ lo + 2 ^ lo * (x % 2 ^ (hi + 1 - lo)) + 2 ^ lo * 2 ^ (hi + 1 - lo) * (v / (2 ^ lo * 2 ^ (hi + 1 - lo))) =
      v % 2 ^ lo + 2 ^ lo * (x % 2 ^ (hi + 1 - lo) + 2 ^ (hi + 1 - lo) * (v / (2 ^ lo * 2 ^ (hi + 1 - lo)))) := by ring
  rw [this, Nat.add_mul_div_left _ _ (Nat.two_pow_pos _), Nat.div_eq_of_lt hl, Nat.zero_add, Nat.add_mul_mod_self_left,
    Nat.mod_mod]

/-- A field below the one written. -/
theorem bits_putBits_below (v hi lo x h' l' : Nat) (h : lo ≤ hi) (hl : h' < lo) : bits (putBits v hi lo x) h' l' = bits v h' l' := by
  rw [putBits_eq v hi lo x h]
  unfold bits
  rw [← Nat.mod_pow_succ_div v lo hi x h' l' h hl]
where
  Nat.mod_pow_succ_div (v lo hi x h' l' : Nat) (h : lo ≤ hi) (hl : h' < lo) :
      v / 2 ^ l' % 2 ^ (h' + 1 - l') =
      (v % 2 ^ lo + 2 ^ lo * (x % 2 ^ (hi + 1 - lo)) + 2 ^ (hi + 1) * (v / 2 ^ (hi + 1))) / 2 ^ l' % 2 ^ (h' + 1 - l') := by
    have cut (a : Nat) : a / 2 ^ l' % 2 ^ (h' + 1 - l') = a % 2 ^ lo / 2 ^ l' % 2 ^ (h' + 1 - l') := by
      by_cases hh : l' ≤ h'
      · have e : 2 ^ lo = 2 ^ l' * (2 ^ (h' + 1 - l') * 2 ^ (lo - (h' + 1))) := by
          rw [← Nat.pow_add, ← Nat.pow_add]; congr 1; omega
        rw [e, Nat.mod_mul_right_div_self, Nat.mod_mul_right_mod]
      · have : h' + 1 - l' = 0 := by omega
        rw [this, Nat.pow_zero, Nat.mod_one, Nat.mod_one]
    rw [cut v, cut (_ + _)]
    congr 2
    have e : 2 ^ (hi + 1) = 2 ^ lo * 2 ^ (hi + 1 - lo) := by rw [← Nat.pow_add]; congr 1; omega
    rw [e, Nat.mul_assoc, Nat.add_assoc, ← Nat.mul_add, Nat.add_mul_mod_self_left, Nat.mod_mod]

/-- A field above the one written. -/
theorem bits_putBits_above (v hi lo x h' l' : Nat) (h : lo ≤ hi) (hl : hi < l') : bits (putBits v hi lo x) h' l' = bits v h' l' := by
  rw [putBits_eq v hi lo x h]
  unfold bits
  have hlo : v % 2 ^ lo < 2 ^ lo := Nat.mod_lt _ (Nat.two_pow_pos _)
  have hx : x % 2 ^ (hi + 1 - lo) < 2 ^ (hi + 1 - lo) := Nat.mod_lt _ (Nat.two_pow_pos _)
  have e : 2 ^ (hi + 1) = 2 ^ lo * 2 ^ (hi + 1 - lo) := by rw [← Nat.pow_add]; congr 1; omega
  have small : v % 2 ^ lo + 2 ^ lo * (x % 2 ^ (hi + 1 - lo)) < 2 ^ (hi + 1) := by
    rw [e]
    calc _ < 2 ^ lo + 2 ^ lo * (x % 2 ^ (hi + 1 - lo)) := by omega
      _ = 2 ^ lo * (x % 2 ^ (hi + 1 - lo) + 1) := by ring
      _ ≤ _ := Nat.mul_le_mul_left _ hx
  have e2 : 2 ^ l' = 2 ^ (hi + 1) * 2 ^ (l' - (hi + 1)) := by rw [← Nat.pow_add]; congr 1; omega
  rw [e2, ← Nat.div_div_eq_div_mul, Nat.add_mul_div_left _ _ (Nat.two_pow_pos _), Nat.div_eq_of_lt small, Nat.zero_add,
    Nat.div_div_eq_div_mul]

theorem putBits_lt (v hi lo x n : Nat) (h : lo ≤ hi) (hn : hi < n) (hv : v < 2 ^ n) : putBits v hi lo x < 2 ^ n := by
  have key : putBits v hi lo x / 2 ^ n = 0 := by
    have := bits_putBits_above v hi lo x (n + 0 + (putBits v hi lo x)) n h hn
    unfold bits at this
    have e1 : v / 2 ^ n = 0 := Nat.div_eq_of_lt hv
    rw [e1, Nat.zero_mod] at this
    have lt : putBits v hi lo x / 2 ^ n < 2 ^ (n + 0 + putBits v hi lo x + 1 - n) := by
      calc _ ≤ putBits v hi lo x := Nat.div_le_self _ _
        _ < 2 ^ putBits v hi lo x := Nat.lt_two_pow_self
        _ ≤ _ := Nat.pow_le_pow_right (by omega) (by omega)
    rw [Nat.mod_eq_of_lt lt] at this
    exact this
  exact (Nat.div_eq_zero_iff_lt (Nat.two_pow_pos _)).1 key

/-! ### Registers -/

/-- The register copies a read depends on are in canonical form. -/
abbrev State.ActiveWf (s : State) : Prop := swf regReset s.regs.active = true

theorem State.Canon.active {s : State} (h : s.Canon) : s.ActiveWf := h.2.2.1

theorem State.reg_lt (s : State) (p o : Nat) : s.reg p o < 2 ^ 32 := (sget regReset s.regs.active (rkey p o)).isLt

theorem State.setReg_wf {s : State} (h : s.ActiveWf) (p o v : Nat) : (s.setReg p o v).ActiveWf := swf_sset _ _ h
theorem State.put_wf {s : State} (h : s.ActiveWf) (p : Nat) (f : Fld) (v i : Nat) : (s.put p f v i).ActiveWf := swf_sset _ _ h

/-- A register reads back the low 32 bits written, every other register as before. -/
theorem State.reg_setReg {s : State} (h : s.ActiveWf) (p o v q u : Nat) :
    (s.setReg p o v).reg q u = if rkey q u = rkey p o then v % 2 ^ 32 else s.reg q u := by
  unfold State.reg State.setReg
  rw [sget_sset _ _ h]
  split <;> simp

theorem rkey_inj {p o q u : Nat} (ho : o < 0x1000) (hu : u < 0x1000) : rkey p o = rkey q u ↔ p = q ∧ o = u := by
  unfold rkey; omega

/-- A field reads back what was put into it. -/
theorem State.get_put {s : State} (h : s.ActiveWf) (p : Nat) (f : Fld) (v i : Nat) (hf : f.lo ≤ f.hi) (h32 : f.hi < 32) :
    (s.put p f v i).get p f i = v % 2 ^ (f.hi + 1 - f.lo) := by
  unfold State.get State.put
  rw [State.reg_setReg h, if_pos rfl, Nat.mod_eq_of_lt (putBits_lt _ _ _ _ _ hf h32 (s.reg_lt p _)), bits_putBits_same _ _ _ _ hf]

/-- A field of another register is as before. -/
theorem State.get_put_ne {s : State} (h : s.ActiveWf) (p : Nat) (f : Fld) (v i q : Nat) (g : Fld) (j : Nat)
    (hk : rkey q (g.at j) ≠ rkey p (f.at i)) : (s.put p f v i).get q g j = s.get q g j := by
  unfold State.get State.put
  rw [State.reg_setReg h, if_neg hk]

/-- Another field of the same register is as before. -/
theorem State.get_put_field {s : State} (h : s.ActiveWf) (p : Nat) (f : Fld) (v i : Nat) (g : Fld) (j : Nat)
    (hk : g.at j = f.at i) (hf : f.lo ≤ f.hi) (h32 : f.hi < 32) (hd : g.hi < f.lo ∨ f.hi < g.lo) :
    (s.put p f v i).get p g j = s.get p g j := by
  unfold State.get State.put
  rw [State.reg_setReg h, hk, if_pos rfl, Nat.mod_eq_of_lt (putBits_lt _ _ _ _ _ hf h32 (s.reg_lt p _))]
  rcases hd with hd | hd
  · exact bits_putBits_below _ _ _ _ _ _ hf hd
  · exact bits_putBits_above _ _ _ _ _ _ hf hd

/-- A register none of whose fields is put. -/
theorem State.reg_put_ne {s : State} (h : s.ActiveWf) (p : Nat) (f : Fld) (v i q u : Nat) (hk : rkey q u ≠ rkey p (f.at i)) :
    (s.put p f v i).reg q u = s.reg q u := by
  unfold State.put
  rw [State.reg_setReg h, if_neg hk]

/-! ### Events -/

theorem State.emit_reg (s : State) (o : Output) (q u : Nat) : (s.emit o).reg q u = s.reg q u := rfl

theorem State.msixSend_reg (s : State) (v q u : Nat) : (s.msixSend v).reg q u = s.reg q u := by
  unfold State.msixSend
  split
  · split <;> rfl
  · rfl

theorem State.irqRequest_reg (s : State) (p q u : Nat) : (s.irqRequest p).reg q u = s.reg q u := by
  unfold State.irqRequest
  extract_lets
  split
  · exact State.msixSend_reg _ _ _ _
  · rfl

theorem State.msixSend_regs (s : State) (v : Nat) : (s.msixSend v).regs = s.regs := by simp
theorem State.irqRequest_regs (s : State) (p : Nat) : (s.irqRequest p).regs = s.regs := by simp

/-- Latching an event writes EVT_PEND alone. -/
theorem State.latch_reg {s : State} (h : s.ActiveWf) (p b q u : Nat) (hk : rkey q u ≠ rkey p H.PEND) :
    (s.latch p b).reg q u = s.reg q u := by
  unfold State.latch
  dsimp only
  split
  · rfl
  · split
    · rw [State.irqRequest_reg, State.reg_setReg h, if_neg hk]
    · rw [State.reg_setReg h, if_neg hk]

theorem State.latch_wf {s : State} (h : s.ActiveWf) (p b : Nat) : (s.latch p b).ActiveWf := by
  unfold State.latch
  dsimp only
  split
  · exact h
  · split
    · show swf regReset (State.irqRequest _ p).regs.active = true
      rw [State.irqRequest_regs]; exact State.setReg_wf h _ _ _
    · exact State.setReg_wf h _ _ _

theorem State.pulse_wf {s : State} (h : s.ActiveWf) (p b : Nat) : (s.pulse p b).ActiveWf := by
  unfold State.pulse
  split
  · exact State.latch_wf h _ _
  · exact h

theorem State.pulse_reg {s : State} (h : s.ActiveWf) (p b q u : Nat) (hk : rkey q u ≠ rkey p H.PEND) :
    (s.pulse p b).reg q u = s.reg q u := by
  unfold State.pulse
  split
  · exact State.latch_reg h _ _ _ _ hk
  · rfl

theorem State.level_wf {s : State} (h : s.ActiveWf) (p b : Nat) (v : Bool) : (s.level p b v).ActiveWf := by
  unfold State.level
  dsimp only
  split
  · exact State.pulse_wf (State.setReg_wf h _ _ _) _ _
  · exact State.setReg_wf h _ _ _

/-- A level event writes EVT_RAW and EVT_PEND alone. -/
theorem State.level_reg {s : State} (h : s.ActiveWf) (p b : Nat) (v : Bool) (q u : Nat) (hk : rkey q u ≠ rkey p H.PEND)
    (hr : rkey q u ≠ rkey p H.RAW) : (s.level p b v).reg q u = s.reg q u := by
  unfold State.level
  dsimp only
  split
  · rw [State.pulse_reg (State.setReg_wf h _ _ _) _ _ _ _ hk, State.reg_setReg h, if_neg hr]
  · rw [State.reg_setReg h, if_neg hr]

/-- A counter counts and stops at its top. -/
theorem State.get_sat {s : State} (h : s.ActiveWf) (p : Nat) (f : Fld) (n i : Nat) (hf : f.lo ≤ f.hi) (h32 : f.hi < 32) :
    (s.sat p f n i).get p f i = satU (f.hi + 1 - f.lo) (s.get p f i + n) := by
  unfold State.sat
  rw [State.get_put h _ _ _ _ hf h32]
  apply Nat.mod_eq_of_lt
  unfold satU
  split
  · assumption
  · have := Nat.two_pow_pos (f.hi + 1 - f.lo); omega

end Sys2Proof.Machine
end

