-- ==== Sys2Proof/Laws/Clears.lean ====
section
/-!
SUPPORT. What clearing a list of counter fields does: each reads 0, and nothing else changes.
-/
namespace Sys2Proof.Machine

/-- The fields and instances a clear goes through, in turn. -/
def clearList (fs : List (Fld × Nat)) : List (Fld × Nat) := fs.flatMap (fun e => (List.range e.2).map (fun i => (e.1, i)))

/-- Two cleared fields lie in different registers, are the same bits, or share none. -/
def apart (x y : Fld × Nat) : Bool :=
  x.1.at x.2 != y.1.at y.2 || x.1.hi == y.1.hi && x.1.lo == y.1.lo || decide (x.1.hi < y.1.lo) || decide (y.1.hi < x.1.lo)

/-- A list of fields that a clear may go through. -/
def clearable (fs : List (Fld × Nat)) : Bool :=
  let l := clearList fs
  l.all (fun x => decide (x.1.lo ≤ x.1.hi) && decide (x.1.hi < 32)) && l.all (fun x => l.all (fun y => apart x y))

theorem State.clearAll_eq (s : State) (p : Nat) (fs : List (Fld × Nat)) :
    s.clearAll p fs = (clearList fs).foldl (fun s x => s.put p x.1 0 x.2) s := by
  unfold State.clearAll clearList
  induction fs generalizing s with
  | nil => rfl
  | cons e r ih => simp only [List.foldl_cons, List.flatMap_cons, List.foldl_append, List.foldl_map, ih]

theorem clearFold_same (s : State) (p : Nat) (l : List (Fld × Nat)) :
    l.foldl (fun s x => s.put p x.1 0 x.2) s =
      { s with regs := { s.regs with active := (l.foldl (fun s x => s.put p x.1 0 x.2) s).regs.active } } := by
  induction l generalizing s with
  | nil => rfl
  | cons x r ih =>
    simp only [List.foldl_cons]
    rw [ih]
    rfl

theorem clearFold_wf {s : State} (h : s.ActiveWf) (p : Nat) (l : List (Fld × Nat)) :
    (l.foldl (fun s x => s.put p x.1 0 x.2) s).ActiveWf := by
  induction l generalizing s with
  | nil => exact h
  | cons x r ih => exact ih (State.put_wf h _ _ _ _)

theorem clearFold_reg {s : State} (h : s.ActiveWf) (p : Nat) (l : List (Fld × Nat)) (q u : Nat)
    (hk : ∀ x ∈ l, rkey q u ≠ rkey p (x.1.at x.2)) : (l.foldl (fun s x => s.put p x.1 0 x.2) s).reg q u = s.reg q u := by
  induction l generalizing s with
  | nil => rfl
  | cons x r ih =>
    simp only [List.foldl_cons]
    rw [ih (State.put_wf h _ _ _ _) (fun y hy => hk y (List.mem_cons_of_mem _ hy)),
      State.reg_put_ne h _ _ _ _ _ _ (hk x (List.mem_cons_self ..))]

/-- Putting 0 into a field apart from another leaves that one at 0. -/
theorem get_put_zero {s : State} (h : s.ActiveWf) (p : Nat) (x y : Fld × Nat) (hx : x.1.lo ≤ x.1.hi) (hx' : x.1.hi < 32)
    (ha : apart x y = true) (h0 : s.get p y.1 y.2 = 0) : (s.put p x.1 0 x.2).get p y.1 y.2 = 0 := by
  unfold apart at ha
  simp only [Bool.or_eq_true, bne_iff_ne, ne_eq, Bool.and_eq_true, beq_iff_eq, decide_eq_true_eq] at ha
  by_cases he : x.1.at x.2 = y.1.at y.2
  · rcases ha with ((ha | ha) | ha) | ha
    · exact absurd he ha
    · have := State.get_put h p x.1 0 x.2 hx hx'
      unfold State.get at *
      rw [← he, ← ha.1, ← ha.2]
      simpa using this
    · rw [State.get_put_field h _ _ _ _ _ _ he.symm hx hx' (.inr ha)]; exact h0
    · rw [State.get_put_field h _ _ _ _ _ _ he.symm hx hx' (.inl ha)]; exact h0
  · rw [State.get_put_ne h _ _ _ _ _ _ _ (by unfold rkey; omega)]; exact h0

theorem clearFold_zero {s : State} (h : s.ActiveWf) (p : Nat) (l : List (Fld × Nat)) (y : Fld × Nat)
    (hl : ∀ x ∈ l, x.1.lo ≤ x.1.hi ∧ x.1.hi < 32 ∧ apart x y = true) (hy : s.get p y.1 y.2 = 0 ∨ y ∈ l) :
    (l.foldl (fun s x => s.put p x.1 0 x.2) s).get p y.1 y.2 = 0 := by
  induction l generalizing s with
  | nil => simpa using hy
  | cons x r ih =>
    simp only [List.foldl_cons]
    obtain ⟨h1, h2, h3⟩ := hl x (List.mem_cons_self ..)
    refine ih (State.put_wf h _ _ _ _) (fun z hz => hl z (List.mem_cons_of_mem _ hz)) ?_
    rcases hy with hy | hy
    · exact .inl (get_put_zero h p x y h1 h2 h3 hy)
    · rcases List.mem_cons.1 hy with hy | hy
      · subst hy
        refine .inl ?_
        rw [State.get_put h _ _ _ _ h1 h2]
        simp
      · exact .inr hy

/-- A clear clears the fields of its list and nothing else. -/
theorem State.clearAll_cleared {s : State} (h : s.ActiveWf) (p : Nat) (fs : List (Fld × Nat)) (hf : clearable fs = true) :
    Cleared p fs s (s.clearAll p fs) := by
  unfold clearable at hf
  simp only [Bool.and_eq_true, List.all_eq_true, decide_eq_true_eq] at hf
  obtain ⟨hf1, hf2⟩ := hf
  rw [State.clearAll_eq]
  refine ⟨fun e he i hi => ?_, fun q u hk => ?_, clearFold_same _ _ _⟩
  · have hm : (e.1, i) ∈ clearList fs := List.mem_flatMap.2 ⟨e, he, List.mem_map.2 ⟨i, List.mem_range.2 hi, rfl⟩⟩
    exact clearFold_zero h p _ (e.1, i) (fun x hx => ⟨(hf1 x hx).1, (hf1 x hx).2, hf2 x hx _ hm⟩) (.inr hm)
  · refine clearFold_reg h p _ q u fun x hx e => hk ?_
    obtain ⟨f, hf', hx⟩ := List.mem_flatMap.1 hx
    obtain ⟨i, hi, rfl⟩ := List.mem_map.1 hx
    exact List.mem_flatMap.2 ⟨f, hf', List.mem_map.2 ⟨i, hi, e.symm⟩⟩

end Sys2Proof.Machine
end

