-- ==== Sys2Proof/Laws/KeepsDig.lean ====
section
/-!
SUPPORT. What the operations of Machine/Dig.lean keep (see Laws/Keeps.lean).
-/
namespace Sys2Proof.Machine
variable {a s : State}

theorem State.modDig_keeps (h : Keeps a s) (y2) (y3) : Keeps a (State.modDig s y2 y3) := by
  unfold State.modDig
  exact (Keeps.same h rfl rfl rfl rfl rfl rfl rfl)

theorem State.digState_keeps (h : Keeps a s) (y2) : Keeps a (State.digState s y2) := by
  unfold State.digState
  extract_lets -underBinder -merge +onlyGivenNames x1
  clear_value x1
  extract_lets -underBinder -merge +onlyGivenNames x2
  clear_value x2
  extract_lets -underBinder -merge +onlyGivenNames x3
  clear_value x3
  extract_lets -underBinder -merge +onlyGivenNames x4
  have h4 : Keeps a x4 := (State.setBlockState_keeps h _ _)
  clear_value x4
  exact (State.level_keeps h4 _ _ _)

theorem State.entry_keeps (h : Keeps a s) (y2) (y3) (y4) : Keeps a (State.entry s y2 y3 y4) := by
  unfold State.entry
  extract_lets -underBinder -merge +onlyGivenNames x1
  clear_value x1
  extract_lets -underBinder -merge +onlyGivenNames x2
  have h2 : Keeps a x2 := (State.appendItem_keeps h _ _)
  clear_value x2
  exact (State.modDig_keeps h2 _ _)

theorem State.takeWord_keeps (h : Keeps a s) (y2) (y3) (y4) : Keeps a (State.takeWord s y2 y3 y4) := by
  unfold State.takeWord
  refine Keeps.ite ?_ ?_
  · exact h
  · extract_lets -underBinder -merge +onlyGivenNames x1
    clear_value x1
    extract_lets -underBinder -merge +onlyGivenNames x2
    have h2 : Keeps a x2 := (State.seamAdd_keeps h _ _ _ _ _)
    clear_value x2
    extract_lets -underBinder -merge +onlyGivenNames x3
    clear_value x3
    extract_lets -underBinder -merge +onlyGivenNames x4
    clear_value x4
    extract_lets -underBinder -merge +onlyGivenNames x5
    clear_value x5
    extract_lets -underBinder -merge +onlyGivenNames x6
    have h6 : Keeps a x6 := (Keeps.ite (State.appendItem_keeps h2 _ _) (Keeps.ite (State.entry_keeps h2 _ _ _) h2))
    clear_value x6
    exact (State.modDig_keeps h6 _ _)

theorem State.applyStep_keeps (h : Keeps a s) (y2) (y3) : Keeps a (State.applyStep s y2 y3) := by
  unfold State.applyStep
  split
  · exact h
  · extract_lets -underBinder -merge +onlyGivenNames x4
    clear_value x4
    extract_lets -underBinder -merge +onlyGivenNames x5
    clear_value x5
    extract_lets -underBinder -merge +onlyGivenNames x6
    have h6 : Keeps a x6 := (State.put_keeps h _ _ _ _)
    clear_value x6
    extract_lets -underBinder -merge +onlyGivenNames x7
    have h7 : Keeps a x7 := (State.modAcq_keeps h6 _)
    clear_value x7
    exact (Keeps.ite (State.markBoth_keeps h7 _ _ _ _ _) h7)

theorem State.timingPly_keeps (h : Keeps a s) (y2) (y3) (y4) : Keeps a (State.timingPly s y2 y3 y4) := by
  unfold State.timingPly
  refine Keeps.ite ?_ ?_
  · exact h
  · extract_lets -underBinder -merge +onlyGivenNames x1
    clear_value x1
    refine Keeps.fold h fun _ h3 _ => ?_
    · extract_lets -underBinder -merge +onlyGivenNames x4
      clear_value x4
      extract_lets -underBinder -merge +onlyGivenNames x5
      have h5 : Keeps a x5 := (Keeps.ite (State.applyStep_keeps h3 _ _) h3)
      clear_value x5
      exact (Keeps.ite (State.takeWord_keeps h5 _ _ _) h5)

theorem State.countEdges_keeps (h : Keeps a s) (y2) (y3) : Keeps a (State.countEdges s y2 y3) := by
  unfold State.countEdges
  refine Keeps.ite ?_ ?_
  · exact h
  · extract_lets -underBinder -merge +onlyGivenNames x1
    clear_value x1
    extract_lets -underBinder -merge +onlyGivenNames x2
    clear_value x2
    extract_lets -underBinder -merge +onlyGivenNames x3
    have h3 : Keeps a x3 := (State.modDig_keeps h _ _)
    clear_value x3
    exact (Keeps.ite h3 (State.each_keeps h3 fun _ h4 _ => (State.wrap_keeps h4 _ _ _ _)))

theorem execStateClockEdge_keeps (h : Keeps a s) (y1) (y2) (y3) (y4) : KeepsR a (execStateClockEdge y1 y2 y3 y4 s) := by
  unfold execStateClockEdge
  extract_lets -underBinder -merge +onlyGivenNames x1
  have h1 : Keeps a x1 := (State.at_keeps h _)
  clear_value x1
  extract_lets -underBinder -merge +onlyGivenNames x2
  clear_value x2
  extract_lets -underBinder -merge +onlyGivenNames x3
  clear_value x3
  extract_lets -underBinder -merge +onlyGivenNames x4
  clear_value x4
  extract_lets -underBinder -merge +onlyGivenNames x5
  clear_value x5
  extract_lets -underBinder -merge +onlyGivenNames x6
  clear_value x6
  refine KeepsR.ite ?_ ?_
  · exact (KeepsR.next h1)
  · refine KeepsR.ite ?_ ?_
    · exact (KeepsR.next (State.pulse_keeps (State.sat_keeps h1 _ _ _ _) _ _))
    · extract_lets -underBinder -merge +onlyGivenNames x7
      clear_value x7
      extract_lets -underBinder -merge +onlyGivenNames x8
      clear_value x8
      extract_lets -underBinder -merge +onlyGivenNames x9
      clear_value x9
      extract_lets -underBinder -merge +onlyGivenNames x10
      clear_value x10
      extract_lets -underBinder -merge +onlyGivenNames x11
      have h11 : Keeps a x11 := (State.modDig_keeps h1 _ _)
      clear_value x11
      extract_lets -underBinder -merge +onlyGivenNames x12
      have h12 : Keeps a x12 := (State.putB_keeps (State.wrap_keeps h11 _ _ _ _) _ _ _ _)
      clear_value x12
      extract_lets -underBinder -merge +onlyGivenNames x13
      have h13 : Keeps a x13 := (State.digState_keeps h12 _)
      clear_value x13
      exact (KeepsR.next (Keeps.ite (State.takeWord_keeps h13 _ _ _) h13))

theorem execStateClkTimeout_keeps (h : Keeps a s) (y1) (y2) : KeepsR a (execStateClkTimeout y1 y2 s) := by
  unfold execStateClkTimeout
  extract_lets -underBinder -merge +onlyGivenNames x1
  have h1 : Keeps a x1 := (State.at_keeps h _)
  clear_value x1
  extract_lets -underBinder -merge +onlyGivenNames x2
  clear_value x2
  extract_lets -underBinder -merge +onlyGivenNames x3
  clear_value x3
  exact (KeepsR.next (Keeps.ite (State.digState_keeps (State.putB_keeps h1 _ _ _ _) _) h1))

theorem execKeepAlive_keeps (h : Keeps a s) (y1) (y2) : KeepsR a (execKeepAlive y1 y2 s) := by
  unfold execKeepAlive
  extract_lets -underBinder -merge +onlyGivenNames x1
  have h1 : Keeps a x1 := (State.at_keeps h _)
  clear_value x1
  extract_lets -underBinder -merge +onlyGivenNames x2
  clear_value x2
  extract_lets -underBinder -merge +onlyGivenNames x3
  clear_value x3
  extract_lets -underBinder -merge +onlyGivenNames x4
  clear_value x4
  refine KeepsR.ite ?_ ?_
  · exact (KeepsR.next h1)
  · extract_lets -underBinder -merge +onlyGivenNames x5
    have h5 : Keeps a x5 := (State.appendItem_keeps h1 _ _)
    clear_value x5
    exact (KeepsR.next (State.modDig_keeps h5 _ _))

theorem State.ovrMark_keeps (h : Keeps a s) (y2) (y3) (y4) (y5) : Keeps a (State.ovrMark s y2 y3 y4 y5) := by
  unfold State.ovrMark
  refine Keeps.ite ?_ ?_
  · exact h
  · extract_lets -underBinder -merge +onlyGivenNames x1
    clear_value x1
    extract_lets -underBinder -merge +onlyGivenNames x2
    have h2 : Keeps a x2 := (State.marker_keeps h _ _ _ _ _)
    clear_value x2
    exact (Keeps.ite (State.tailMarker_keeps h2 _ _ _ _ _) h2)

theorem execOverrangeEntry_keeps (h : Keeps a s) (y1) (y2) (y3) (y4) : KeepsR a (execOverrangeEntry y1 y2 y3 y4 s) := by
  unfold execOverrangeEntry
  extract_lets -underBinder -merge +onlyGivenNames x1
  have h1 : Keeps a x1 := (State.at_keeps h _)
  clear_value x1
  extract_lets -underBinder -merge +onlyGivenNames x2
  clear_value x2
  refine KeepsR.ite ?_ ?_
  · exact (KeepsR.next h1)
  · extract_lets -underBinder -merge +onlyGivenNames x3
    have h3 : Keeps a x3 := (State.putB_keeps h1 _ _ _ _)
    clear_value x3
    extract_lets -underBinder -merge +onlyGivenNames x4
    have h4 : Keeps a x4 := (State.sat_keeps h3 _ _ _ _)
    clear_value x4
    extract_lets -underBinder -merge +onlyGivenNames x5
    have h5 : Keeps a x5 := (State.put_keeps h4 _ _ _ _)
    clear_value x5
    extract_lets -underBinder -merge +onlyGivenNames x6
    have h6 : Keeps a x6 := (State.level_keeps (State.putB_keeps h5 _ _ _ _) _ _ _)
    clear_value x6
    refine KeepsR.ite ?_ ?_
    · exact (KeepsR.next h6)
    · extract_lets -underBinder -merge +onlyGivenNames x7
      have h7 : Keeps a x7 := (State.put_keeps (State.putB_keeps h6 _ _ _ _) _ _ _ _)
      clear_value x7
      extract_lets -underBinder -merge +onlyGivenNames x8
      have h8 : Keeps a x8 := (State.level_keeps (State.sat_keeps h7 _ _ _ _) _ _ _)
      clear_value x8
      extract_lets -underBinder -merge +onlyGivenNames x9
      have h9 : Keeps a x9 := (State.note_keeps h8 _ _ _ _ _)
      clear_value x9
      exact (KeepsR.next (State.ovrMark_keeps h9 _ _ _ _))

theorem execOverrangeExit_keeps (h : Keeps a s) (y1) (y2) (y3) : KeepsR a (execOverrangeExit y1 y2 y3 s) := by
  unfold execOverrangeExit
  extract_lets -underBinder -merge +onlyGivenNames x1
  have h1 : Keeps a x1 := (State.at_keeps h _)
  clear_value x1
  extract_lets -underBinder -merge +onlyGivenNames x2
  clear_value x2
  refine KeepsR.ite ?_ ?_
  · exact (KeepsR.next h1)
  · extract_lets -underBinder -merge +onlyGivenNames x3
    have h3 : Keeps a x3 := (State.putB_keeps (State.putB_keeps h1 _ _ _ _) _ _ _ _)
    clear_value x3
    extract_lets -underBinder -merge +onlyGivenNames x4
    have h4 : Keeps a x4 := (State.modDig_keeps h3 _ _)
    clear_value x4
    extract_lets -underBinder -merge +onlyGivenNames x5
    clear_value x5
    exact (KeepsR.next (State.level_keeps (State.putB_keeps h4 _ _ _ _) _ _ _))

theorem execOvrWindowClose_keeps (h : Keeps a s) (y1) (y2) : KeepsR a (execOvrWindowClose y1 y2 s) := by
  unfold execOvrWindowClose
  extract_lets -underBinder -merge +onlyGivenNames x1
  have h1 : Keeps a x1 := (State.at_keeps h _)
  clear_value x1
  extract_lets -underBinder -merge +onlyGivenNames x2
  clear_value x2
  refine KeepsR.next ?_
  refine Keeps.ite ?_ ?_
  · extract_lets -underBinder -merge +onlyGivenNames x3
    have h3 : Keeps a x3 := (State.level_keeps (State.putB_keeps h1 _ _ _ _) _ _ _)
    clear_value x3
    exact (State.ovrMark_keeps h3 _ _ _ _)
  · exact h1

theorem execDigBcast_keeps (h : Keeps a s) (y1) (y2) : KeepsR a (execDigBcast y1 y2 s) := by
  unfold execDigBcast
  extract_lets -underBinder -merge +onlyGivenNames x1
  clear_value x1
  extract_lets -underBinder -merge +onlyGivenNames x2
  clear_value x2
  exact (KeepsR.next (State.each_keeps h fun _ h3 _ => (State.storeField_keeps (State.storeField_keeps h3 _ _ _ _) _ _ _ _)))

theorem execDigClr_keeps (h : Keeps a s) (y1) (y2) : KeepsR a (execDigClr y1 y2 s) := by
  unfold execDigClr
  exact (KeepsR.next (Keeps.ite (State.clearAll_keeps h _ _) h))

theorem State.digModeCopied_keeps (h : Keeps a s) (y2) : Keeps a (State.digModeCopied s y2) := by
  unfold State.digModeCopied
  extract_lets -underBinder -merge +onlyGivenNames x1
  have h1 : Keeps a x1 := (State.modDig_keeps h _ _)
  clear_value x1
  exact (State.digState_keeps (State.putB_keeps h1 _ _ _ _) _)

end Sys2Proof.Machine
end

