-- ==== Sys2Proof/Laws/KeepsStp.lean ====
section
/-!
SUPPORT. What the operations of Machine/Stp.lean keep (see Laws/Keeps.lean).
-/
namespace Sys2Proof.Machine
variable {a s : State}

theorem State.ipShow_keeps (h : Keeps a s) (y2) : Keeps a (State.ipShow s y2) := by
  unfold State.ipShow
  extract_lets -underBinder -merge +onlyGivenNames x1
  clear_value x1
  extract_lets -underBinder -merge +onlyGivenNames x2
  have h2 : Keeps a x2 := (State.putB_keeps h _ _ _ _)
  clear_value x2
  extract_lets -underBinder -merge +onlyGivenNames x3
  have h3 : Keeps a x3 := (State.putB_keeps h2 _ _ _ _)
  clear_value x3
  exact (State.level_keeps h3 _ _ _)

theorem State.ipPair_keeps (h : Keeps a s) (y2) (y3) (y4) : Keeps a (State.ipPair s y2 y3 y4) := by
  unfold State.ipPair
  extract_lets -underBinder -merge +onlyGivenNames x1
  clear_value x1
  extract_lets -underBinder -merge +onlyGivenNames x2
  have h2 : Keeps a x2 := (State.put64_keeps h _ _ _ _ _)
  clear_value x2
  extract_lets -underBinder -merge +onlyGivenNames x3
  have h3 : Keeps a x3 := (Keeps.ite (State.sat_keeps h2 _ _ _ _) h2)
  clear_value x3
  extract_lets -underBinder -merge +onlyGivenNames x4
  have h4 : Keeps a x4 := (State.modIp_keeps h3 _ _)
  clear_value x4
  exact (Keeps.ite (State.note_keeps h4 _ _ _ _ _) h4)

theorem State.ipExpire_keeps (h : Keeps a s) (y2) (y3) : Keeps a (State.ipExpire s y2 y3) := by
  unfold State.ipExpire
  extract_lets -underBinder -merge +onlyGivenNames x1
  clear_value x1
  extract_lets -underBinder -merge +onlyGivenNames x2
  clear_value x2
  refine Keeps.ite ?_ ?_
  · exact h
  · extract_lets -underBinder -merge +onlyGivenNames x3
    have h3 : Keeps a x3 := (State.modIp_keeps h _ _)
    clear_value x3
    refine State.each_keeps h3 fun _ h5 _ => ?_
    · refine Keeps.ite ?_ ?_
      · exact (State.unpaired_keeps h5 _ _)
      · split
        · exact (Keeps.ite (State.ipPair_keeps h5 _ _ _) (State.unpaired_keeps h5 _ _))
        · exact (State.unpaired_keeps h5 _ _)

theorem State.ipStart_keeps (h : Keeps a s) (y2) (y3) : Keeps a (State.ipStart s y2 y3) := by
  unfold State.ipStart
  refine Keeps.ite ?_ ?_
  · extract_lets -underBinder -merge +onlyGivenNames x1
    have h1 : Keeps a x1 := (Keeps.ite h (State.unpaired_keeps h _ _))
    clear_value x1
    exact (State.modIp_keeps h1 _ _)
  · exact (State.modIp_keeps h _ _)

theorem State.ipStop_keeps (h : Keeps a s) (y2) (y3) : Keeps a (State.ipStop s y2 y3) := by
  unfold State.ipStop
  refine Keeps.ite ?_ ?_
  · split
    · exact (State.ipPair_keeps (State.modIp_keeps h _ _) _ _ _)
    · extract_lets -underBinder -merge +onlyGivenNames x4
      have h4 : Keeps a x4 := (State.sat_keeps h _ _ _ _)
      clear_value x4
      exact (Keeps.ite (State.note_keeps h4 _ _ _ _ _) h4)
  · extract_lets -underBinder -merge +onlyGivenNames x5
    clear_value x5
    extract_lets -underBinder -merge +onlyGivenNames x6
    clear_value x6
    extract_lets -underBinder -merge +onlyGivenNames x7
    have h7 : Keeps a x7 := (State.modIp_keeps h _ _)
    clear_value x7
    refine State.each_keeps h7 fun _ h9 _ => ?_
    · split
      · exact (Keeps.ite (State.ipPair_keeps h9 _ _ _) (State.ipPair_keeps h9 _ _ _))
      · exact (State.ipPair_keeps h9 _ _ _)

theorem State.ipEdges_keeps (h : Keeps a s) (y2) (y3) (y4) : Keeps a (State.ipEdges s y2 y3 y4) := by
  unfold State.ipEdges
  refine Keeps.ite ?_ ?_
  · exact h
  · extract_lets -underBinder -merge +onlyGivenNames x1
    clear_value x1
    extract_lets -underBinder -merge +onlyGivenNames x2
    clear_value x2
    extract_lets -underBinder -merge +onlyGivenNames x3
    clear_value x3
    refine Keeps.ite ?_ ?_
    · exact h
    · extract_lets -underBinder -merge +onlyGivenNames x4
      have h4 : Keeps a x4 := (State.ipExpire_keeps h _ _)
      clear_value x4
      extract_lets -underBinder -merge +onlyGivenNames x5
      have h5 : Keeps a x5 := (Keeps.ite h4 (State.ipStop_keeps h4 _ _))
      clear_value x5
      extract_lets -underBinder -merge +onlyGivenNames x6
      have h6 : Keeps a x6 := (Keeps.ite (State.ipStart_keeps h4 _ _) h4)
      clear_value x6
      extract_lets -underBinder -merge +onlyGivenNames x7
      have h7 : Keeps a x7 := (Keeps.ite (State.ipStart_keeps h5 _ _) (Keeps.ite (State.ipStop_keeps h6 _ _) h6))
      clear_value x7
      exact (State.ipShow_keeps h7 _)

theorem execIpSpanExpiry_keeps (h : Keeps a s) (y1) (y2) : KeepsR a (execIpSpanExpiry y1 y2 s) := by
  unfold execIpSpanExpiry
  extract_lets -underBinder -merge +onlyGivenNames x1
  have h1 : Keeps a x1 := (State.at_keeps h _)
  clear_value x1
  exact (KeepsR.next (Keeps.ite (State.ipShow_keeps (State.ipExpire_keeps h1 _ _) _) h1))

theorem execStpIpSnap_keeps (h : Keeps a s) (y1) (y2) : KeepsR a (execStpIpSnap y1 y2 s) := by
  unfold execStpIpSnap
  extract_lets -underBinder -merge +onlyGivenNames x1
  clear_value x1
  extract_lets -underBinder -merge +onlyGivenNames x2
  clear_value x2
  refine KeepsR.next ?_
  refine State.each_keeps h fun _ h5 _ => ?_
  · refine Keeps.ite ?_ ?_
    · exact h5
    · extract_lets -underBinder -merge +onlyGivenNames x6
      clear_value x6
      extract_lets -underBinder -merge +onlyGivenNames x7
      clear_value x7
      extract_lets -underBinder -merge +onlyGivenNames x8
      have h8 : Keeps a x8 := (State.put_keeps h5 _ _ _ _)
      clear_value x8
      extract_lets -underBinder -merge +onlyGivenNames x9
      have h9 : Keeps a x9 := (State.put64_keeps h8 _ _ _ _ _)
      clear_value x9
      extract_lets -underBinder -merge +onlyGivenNames x10
      have h10 : Keeps a x10 := (State.put64_keeps h9 _ _ _ _ _)
      clear_value x10
      extract_lets -underBinder -merge +onlyGivenNames x11
      have h11 : Keeps a x11 := (State.put64_keeps h10 _ _ _ _ _)
      clear_value x11
      extract_lets -underBinder -merge +onlyGivenNames x12
      have h12 : Keeps a x12 := (State.put_keeps h11 _ _ _ _)
      clear_value x12
      extract_lets -underBinder -merge +onlyGivenNames x13
      have h13 : Keeps a x13 := (State.put_keeps h12 _ _ _ _)
      clear_value x13
      extract_lets -underBinder -merge +onlyGivenNames x14
      have h14 : Keeps a x14 := (State.put_keeps h13 _ _ _ _)
      clear_value x14
      extract_lets -underBinder -merge +onlyGivenNames x15
      have h15 : Keeps a x15 := (Keeps.ite (State.modIp_keeps h14 _ _) h14)
      clear_value x15
      exact (State.ipShow_keeps h15 _)

theorem State.gateStart_keeps (h : Keeps a s) (y2) (y3) : Keeps a (State.gateStart s y2 y3) := by
  unfold State.gateStart
  extract_lets -underBinder -merge +onlyGivenNames x1
  clear_value x1
  extract_lets -underBinder -merge +onlyGivenNames x2
  clear_value x2
  refine Keeps.ite ?_ ?_
  · exact (State.modFu_keeps h _ _)
  · extract_lets -underBinder -merge +onlyGivenNames x3
    clear_value x3
    extract_lets -underBinder -merge +onlyGivenNames x4
    clear_value x4
    extract_lets -underBinder -merge +onlyGivenNames x5
    clear_value x5
    extract_lets -underBinder -merge +onlyGivenNames x6
    clear_value x6
    extract_lets -underBinder -merge +onlyGivenNames x7
    clear_value x7
    exact (State.modFu_keeps h _ _)

theorem State.gateEnd_keeps (h : Keeps a s) (y2) : Keeps a (State.gateEnd s y2) := by
  unfold State.gateEnd
  split
  · exact h
  · split
    next x3 x4 e4 =>
      have h4 := KeepsQ.out (State.takeFree_keeps h) e4
      extract_lets -underBinder -merge +onlyGivenNames x5
      clear_value x5
      exact (State.gateStart_keeps (State.modFu_keeps h4 _ _) _ _)

theorem State.gatesTo_keeps (h : Keeps a s) (u k n : Nat) : Keeps a (s.gatesTo u k n) := by
  induction n generalizing s with
  | zero => exact h
  | succ n ih =>
    unfold State.gatesTo
    split
    · exact Keeps.ite (ih (State.gateEnd_keeps h _)) h
    · exact h

theorem State.fuStamp_keeps (h : Keeps a s) (y2) (y3) (y4) : Keeps a (State.fuStamp s y2 y3 y4) := by
  unfold State.fuStamp
  extract_lets -underBinder -merge +onlyGivenNames x1
  clear_value x1
  extract_lets -underBinder -merge +onlyGivenNames x2
  have h2 : Keeps a x2 := (State.gatesTo_keeps h _ _ _)
  clear_value x2
  exact (State.modFu_keeps h2 _ _)

theorem execFreqGateEnd_keeps (h : Keeps a s) (y1) (y2) : KeepsR a (execFreqGateEnd y1 y2 s) := by
  unfold execFreqGateEnd
  extract_lets -underBinder -merge +onlyGivenNames x1
  have h1 : Keeps a x1 := (State.at_keeps h _)
  clear_value x1
  exact (KeepsR.next (State.gatesTo_keeps h1 _ _ _))

theorem execFreqResult_keeps (h : Keeps a s) (y1) (y2) : KeepsR a (execFreqResult y1 y2 s) := by
  unfold execFreqResult
  extract_lets -underBinder -merge +onlyGivenNames x1
  have h1 : Keeps a x1 := (State.at_keeps h _)
  clear_value x1
  split
  · exact (KeepsR.next h1)
  · extract_lets -underBinder -merge +onlyGivenNames x5
    have h5 : Keeps a x5 := (State.modFu_keeps h1 _ _)
    clear_value x5
    extract_lets -underBinder -merge +onlyGivenNames x6
    clear_value x6
    extract_lets -underBinder -merge +onlyGivenNames x7
    have h7 : Keeps a x7 := (State.put_keeps h5 _ _ _ _)
    clear_value x7
    extract_lets -underBinder -merge +onlyGivenNames x8
    have h8 : Keeps a x8 := (State.put_keeps h7 _ _ _ _)
    clear_value x8
    extract_lets -underBinder -merge +onlyGivenNames x9
    have h9 : Keeps a x9 := (State.pulse_keeps h8 _ _)
    clear_value x9
    extract_lets -underBinder -merge +onlyGivenNames x10
    have h10 : Keeps a x10 := (Keeps.ite h9 (State.pulse_keeps (State.sat_keeps h9 _ _ _ _) _ _))
    clear_value x10
    extract_lets -underBinder -merge +onlyGivenNames x11
    have h11 : Keeps a x11 := (Keeps.ite (State.pulse_keeps h10 _ _) h10)
    clear_value x11
    extract_lets -underBinder -merge +onlyGivenNames x12
    have h12 : Keeps a x12 := (Keeps.ite (State.note_keeps h11 _ _ _ _ _) h11)
    clear_value x12
    extract_lets -underBinder -merge +onlyGivenNames x13
    clear_value x13
    exact (KeepsR.next (Keeps.ite (State.appendItem_keeps h12 _ _) h12))

theorem execFrqSnapSel_keeps (h : Keeps a s) (y1) : KeepsR a (execFrqSnapSel y1 s) := by
  unfold execFrqSnapSel
  extract_lets -underBinder -merge +onlyGivenNames x1
  clear_value x1
  extract_lets -underBinder -merge +onlyGivenNames x2
  clear_value x2
  extract_lets -underBinder -merge +onlyGivenNames x3
  clear_value x3
  extract_lets -underBinder -merge +onlyGivenNames x4
  have h4 : Keeps a x4 := (State.put_keeps h _ _ _ _)
  clear_value x4
  extract_lets -underBinder -merge +onlyGivenNames x5
  have h5 : Keeps a x5 := (State.put64_keeps h4 _ _ _ _ _)
  clear_value x5
  extract_lets -underBinder -merge +onlyGivenNames x6
  have h6 : Keeps a x6 := (State.put64_keeps h5 _ _ _ _ _)
  clear_value x6
  extract_lets -underBinder -merge +onlyGivenNames x7
  have h7 : Keeps a x7 := (State.put64_keeps h6 _ _ _ _ _)
  clear_value x7
  extract_lets -underBinder -merge +onlyGivenNames x8
  have h8 : Keeps a x8 := (State.put64_keeps h7 _ _ _ _ _)
  clear_value x8
  extract_lets -underBinder -merge +onlyGivenNames x9
  have h9 : Keeps a x9 := (State.put64_keeps h8 _ _ _ _ _)
  clear_value x9
  exact (KeepsR.next (State.put_keeps h9 _ _ _ _))

theorem execFrqNewClear_keeps (h : Keeps a s) (y1) : KeepsR a (execFrqNewClear y1 s) := by
  unfold execFrqNewClear
  extract_lets -underBinder -merge +onlyGivenNames x1
  clear_value x1
  exact (KeepsR.next (State.put_keeps h _ _ _ _))

theorem execFrqClr_keeps (h : Keeps a s) (y1) : KeepsR a (execFrqClr y1 s) := by
  unfold execFrqClr
  exact (KeepsR.next (Keeps.ite (State.put_keeps h _ _ _ _) h))

theorem State.fuSettings_keeps (h : Keeps a s) (y2) (y3) : Keeps a (State.fuSettings s y2 y3) := by
  unfold State.fuSettings
  refine Keeps.ite ?_ ?_
  · exact (State.modFu_keeps h _ _)
  · split
    · exact h
    · exact (State.gateStart_keeps h _ _)

theorem State.stpShow_keeps (h : Keeps a s) (y2) : Keeps a (State.stpShow s y2) := by
  unfold State.stpShow
  extract_lets -underBinder -merge +onlyGivenNames x1
  clear_value x1
  extract_lets -underBinder -merge +onlyGivenNames x2
  clear_value x2
  extract_lets -underBinder -merge +onlyGivenNames x3
  clear_value x3
  extract_lets -underBinder -merge +onlyGivenNames x4
  have h4 : Keeps a x4 := (State.putB_keeps (State.put_keeps h _ _ _ _) _ _ _ _)
  clear_value x4
  extract_lets -underBinder -merge +onlyGivenNames x5
  have h5 : Keeps a x5 := (State.putB_keeps (State.put_keeps h4 _ _ _ _) _ _ _ _)
  clear_value x5
  exact (State.level_keeps (State.level_keeps h5 _ _ _) _ _ _)

theorem State.stpDrain_keeps (h : Keeps a s) (y2) (y3) : Keeps a (State.stpDrain s y2 y3) := by
  unfold State.stpDrain
  extract_lets -underBinder -merge +onlyGivenNames x1
  clear_value x1
  exact (State.modStp_keeps h _ _)

theorem State.queueStamp_keeps (h : Keeps a s) (y2) (y3) (y4) (y5) : Keeps a (State.queueStamp s y2 y3 y4 y5) := by
  unfold State.queueStamp
  extract_lets -underBinder -merge +onlyGivenNames x1
  clear_value x1
  extract_lets -underBinder -merge +onlyGivenNames x2
  have h2 : Keeps a x2 := (State.stpDrain_keeps h _ _)
  clear_value x2
  extract_lets -underBinder -merge +onlyGivenNames x3
  have h3 : Keeps a x3 := (State.seamAdd_keeps h2 _ _ _ _ _)
  clear_value x3
  extract_lets -underBinder -merge +onlyGivenNames x4
  clear_value x4
  refine Keeps.ite ?_ ?_
  · extract_lets -underBinder -merge +onlyGivenNames x5
    clear_value x5
    extract_lets -underBinder -merge +onlyGivenNames x6
    have h6 : Keeps a x6 := (State.wrap64_keeps h3 _ _ _ _)
    clear_value x6
    extract_lets -underBinder -merge +onlyGivenNames x7
    have h7 : Keeps a x7 := (State.modStp_keeps h6 _ _)
    clear_value x7
    exact (State.stpShow_keeps (State.stpDrain_keeps h7 _ _) _)
  · extract_lets -underBinder -merge +onlyGivenNames x8
    have h8 : Keeps a x8 := (State.put_keeps (State.sat_keeps h3 _ _ _ _) _ _ _ _)
    clear_value x8
    extract_lets -underBinder -merge +onlyGivenNames x9
    clear_value x9
    extract_lets -underBinder -merge +onlyGivenNames x10
    clear_value x10
    extract_lets -underBinder -merge +onlyGivenNames x11
    have h11 : Keeps a x11 := (State.modStp_keeps h8 _ _)
    clear_value x11
    extract_lets -underBinder -merge +onlyGivenNames x12
    have h12 : Keeps a x12 := (Keeps.ite (State.note_keeps h11 _ _ _ _ _) h11)
    clear_value x12
    extract_lets -underBinder -merge +onlyGivenNames x13
    have h13 : Keeps a x13 := (Keeps.ite (State.note_keeps h12 _ _ _ _ _) h12)
    clear_value x13
    exact (State.stpShow_keeps (State.seamSkip_keeps h13 _ _) _)

theorem State.mergeEdge_keeps (h : Keeps a s) (y2) (y3) (y4) : Keeps a (State.mergeEdge s y2 y3 y4) := by
  unfold State.mergeEdge
  extract_lets -underBinder -merge +onlyGivenNames x1
  clear_value x1
  split
  · extract_lets -underBinder -merge +onlyGivenNames x4
    clear_value x4
    extract_lets -underBinder -merge +onlyGivenNames x5
    have h5 : Keeps a x5 := (State.modStp_keeps h _ _)
    clear_value x5
    extract_lets -underBinder -merge +onlyGivenNames x6
    have h6 : Keeps a x6 := (State.each_keeps h5 fun _ h7 _ => (State.modFu_keeps h7 _ _))
    clear_value x6
    extract_lets -underBinder -merge +onlyGivenNames x8
    have h8 : Keeps a x8 := (State.pulse_keeps (State.sat_keeps h6 _ _ _ _) _ _)
    clear_value x8
    exact (State.seamAdd_keeps h8 _ _ _ _ _)

theorem State.stampOne_keeps (h : Keeps a s) (y2) (y3) (y4) : KeepsP a (State.stampOne s y2 y3 y4) := by
  unfold State.stampOne
  extract_lets -underBinder -merge +onlyGivenNames x1
  clear_value x1
  extract_lets -underBinder -merge +onlyGivenNames x2
  clear_value x2
  refine KeepsP.ite ?_ ?_
  · exact (KeepsP.mk h)
  · extract_lets -underBinder -merge +onlyGivenNames x3
    clear_value x3
    split
    · exact (KeepsP.ite (KeepsP.mk (State.mergeEdge_keeps h _ _ _)) (KeepsP.mk (State.modStp_keeps h _ _)))
    · exact (KeepsP.mk (State.modStp_keeps h _ _))

theorem State.stampAll_keeps (h : Keeps a s) (x : Nat) (l : List (Fin 256 × Bool)) : KeepsP a (s.stampAll x l) := by
  induction l generalizing s with
  | nil => exact h
  | cons e r ih =>
    unfold State.stampAll
    split
    next s' m e1 =>
      split
      next s'' ms e2 => exact KeepsP.mk ((ih ((State.stampOne_keeps h _ _ _).out e1)).out e2)

theorem execStampEdge_keeps (h : Keeps a s) (y1) (y2) : KeepsR a (execStampEdge y1 y2 s) := by
  unfold execStampEdge
  extract_lets -underBinder -merge +onlyGivenNames x1
  have h1 : Keeps a x1 := (State.at_keeps h _)
  clear_value x1
  split
  next x2 x3 e2 =>
    have h2 := KeepsP.out (State.stampAll_keeps h1 _ _) e2
    extract_lets -underBinder -merge +onlyGivenNames x4
    have h4 : Keeps a x4 := (State.each_keeps h2 fun _ h5 _ => (State.ipEdges_keeps h5 _ _ _))
    clear_value x4
    extract_lets -underBinder -merge +onlyGivenNames x6
    have h6 : Keeps a x6 := (State.each_keeps h4 fun _ h7 _ => (State.each_keeps h7 fun _ h8 _ => (State.fuStamp_keeps h8 _ _ _)))
    clear_value x6
    extract_lets -underBinder -merge +onlyGivenNames x9
    have h9 : Keeps a x9 := (State.each_keeps h6 fun _ h10 _ => (State.each_keeps h10 fun _ h11 _ => (Keeps.ite (State.loopStamp_keeps h11 _ _ _) h11)))
    clear_value x9
    refine KeepsR.next ?_
    refine State.each_keeps h9 fun _ h14 _ => ?_
    · extract_lets -underBinder -merge +onlyGivenNames x15
      clear_value x15
      exact (Keeps.ite (State.queueStamp_keeps h14 _ _ _ _) h14)

theorem State.writeWindow_keeps (h : Keeps a s) (y2) (y3) : Keeps a (State.writeWindow s y2 y3) := by
  unfold State.writeWindow
  extract_lets -underBinder -merge +onlyGivenNames x1
  clear_value x1
  extract_lets -underBinder -merge +onlyGivenNames x2
  clear_value x2
  extract_lets -underBinder -merge +onlyGivenNames x3
  clear_value x3
  extract_lets -underBinder -merge +onlyGivenNames x4
  clear_value x4
  extract_lets -underBinder -merge +onlyGivenNames x5
  clear_value x5
  extract_lets -underBinder -merge +onlyGivenNames x6
  have h6 : Keeps a x6 := (State.modStp_keeps h _ _)
  clear_value x6
  extract_lets -underBinder -merge +onlyGivenNames x7
  have h7 : Keeps a x7 := (Keeps.ite (State.each_keeps h6 fun _ h8 _ => (State.appendItem_keeps h8 _ _)) h6)
  clear_value x7
  exact (Keeps.ite (State.each_keeps h7 fun _ h9 _ => (State.marker_keeps h9 _ _ _ _ _)) h7)

theorem State.closeWindows_keeps (h : Keeps a s) (y2) (y3) : Keeps a (State.closeWindows s y2 y3) := by
  unfold State.closeWindows
  extract_lets -underBinder -merge +onlyGivenNames x1
  clear_value x1
  extract_lets -underBinder -merge +onlyGivenNames x2
  clear_value x2
  extract_lets -underBinder -merge +onlyGivenNames x3
  clear_value x3
  extract_lets -underBinder -merge +onlyGivenNames x4
  clear_value x4
  exact (State.stpShow_keeps (State.each_keeps h fun _ h5 _ => (State.writeWindow_keeps h5 _ _)) _)

theorem execMergeWindowClose_keeps (h : Keeps a s) (y1) (y2) : KeepsR a (execMergeWindowClose y1 y2 s) := by
  unfold execMergeWindowClose
  extract_lets -underBinder -merge +onlyGivenNames x1
  have h1 : Keeps a x1 := (State.at_keeps h _)
  clear_value x1
  exact (KeepsR.next (Keeps.ite (State.closeWindows_keeps (State.stpDrain_keeps h1 _ _) _ _) h1))

theorem State.finishStamps_keeps (h : Keeps a s) (y2) (y3) : Keeps a (State.finishStamps s y2 y3) := by
  unfold State.finishStamps
  extract_lets -underBinder -merge +onlyGivenNames x1
  have h1 : Keeps a x1 := (State.modStp_keeps h _ _)
  clear_value x1
  extract_lets -underBinder -merge +onlyGivenNames x2
  clear_value x2
  extract_lets -underBinder -merge +onlyGivenNames x3
  have h3 : Keeps a x3 := (State.modStp_keeps h1 _ _)
  clear_value x3
  exact (State.stpShow_keeps (State.each_keeps h3 fun _ h4 _ => (State.writeWindow_keeps h4 _ _)) _)

theorem execTableRebuild_keeps (h : Keeps a s) (y1) (y2) (y3) : KeepsR a (execTableRebuild y1 y2 y3 s) := by
  unfold execTableRebuild
  extract_lets -underBinder -merge +onlyGivenNames x1
  have h1 : Keeps a x1 := (State.at_keeps h _)
  clear_value x1
  extract_lets -underBinder -merge +onlyGivenNames x2
  clear_value x2
  exact (KeepsR.ite (KeepsR.next (Keeps.ite (State.modStp_keeps (State.putB_keeps h1 _ _ _ _) _ _) h1)) (KeepsR.next (Keeps.ite (State.putB_keeps h1 _ _ _ _) h1)))

theorem execCoarseWrap_keeps (h : Keeps a s) (y1) : KeepsR a (execCoarseWrap y1 s) := by
  unfold execCoarseWrap
  extract_lets -underBinder -merge +onlyGivenNames x1
  have h1 : Keeps a x1 := (State.at_keeps h _)
  clear_value x1
  refine KeepsR.ite ?_ ?_
  · exact (KeepsR.next h1)
  · extract_lets -underBinder -merge +onlyGivenNames x2
    have h2 : Keeps a x2 := by
      subst x2
      refine State.each_keeps h1 fun _ h5 _ => ?_
      · extract_lets -underBinder -merge +onlyGivenNames x6
        have h6 : Keeps a x6 := (State.modStp_keeps h5 _ _)
        clear_value x6
        exact (State.pulse_keeps h6 _ _)
    clear_value x2
    extract_lets -underBinder -merge +onlyGivenNames x7
    have h7 : Keeps a x7 := (State.marker_keeps h2 _ _ _ _ _)
    clear_value x7
    extract_lets -underBinder -merge +onlyGivenNames x8
    have h8 : Keeps a x8 := (State.each_keeps h7 fun _ h9 _ => (Keeps.ite (State.inband_keeps h9 _ _ _ _ _) (State.inband_keeps h9 _ _ _ _ _)))
    clear_value x8
    exact (KeepsR.next (State.each_keeps h8 fun _ h10 _ => (State.gatesTo_keeps h10 _ _ _)))

theorem execStpClr_keeps (h : Keeps a s) (y1) (y2) : KeepsR a (execStpClr y1 y2 s) := by
  unfold execStpClr
  exact (KeepsR.next (Keeps.ite (State.clearAll_keeps h _ _) h))

theorem State.stpState_keeps (h : Keeps a s) (y2) : Keeps a (State.stpState s y2) := by
  unfold State.stpState
  exact (State.setBlockState_keeps h _ _)

end Sys2Proof.Machine
end

