-- ==== Sys2Proof/Laws/KeepsAccum.lean ====
section
/-!
SUPPORT. What the operations of Machine/Accum.lean keep (see Laws/Keeps.lean).
-/
namespace Sys2Proof.Machine
variable {a s : State}

theorem State.setWin_keeps (h : Keeps a s) (y2) (y3) (y4) : Keeps a (State.setWin s y2 y3 y4) := by
  unfold State.setWin
  extract_lets -underBinder -merge +onlyGivenNames x1
  have h1 : Keeps a x1 := (Keeps.same h rfl rfl rfl rfl rfl rfl rfl)
  clear_value x1
  extract_lets -underBinder -merge +onlyGivenNames x2
  clear_value x2
  exact (State.level_keeps (State.put_keeps h1 _ _ _ _) _ _ _)

theorem State.windowTakes_keeps (h : Keeps a s) (y2) (y3) : Keeps a (State.windowTakes s y2 y3) := by
  unfold State.windowTakes
  extract_lets -underBinder -merge +onlyGivenNames x1
  clear_value x1
  extract_lets -underBinder -merge +onlyGivenNames x2
  clear_value x2
  extract_lets -underBinder -merge +onlyGivenNames x3
  clear_value x3
  extract_lets -underBinder -merge +onlyGivenNames x4
  clear_value x4
  extract_lets -underBinder -merge +onlyGivenNames x5
  clear_value x5
  extract_lets -underBinder -merge +onlyGivenNames x6
  clear_value x6
  extract_lets -underBinder -merge +onlyGivenNames x7
  clear_value x7
  extract_lets -underBinder -merge +onlyGivenNames x8
  clear_value x8
  exact (Keeps.ite (State.setWin_keeps h _ _ _) (Keeps.same h rfl rfl rfl rfl rfl rfl rfl))

theorem State.windowsTake_keeps (h : Keeps a s) (y2) (y3) : Keeps a (State.windowsTake s y2 y3) := by
  unfold State.windowsTake
  exact (Keeps.ite h (State.each_keeps h fun _ h1 _ => (State.windowTakes_keeps h1 _ _)))

theorem State.winCopied_keeps (h : Keeps a s) (y2) (y3) : Keeps a (State.winCopied s y2 y3) := by
  unfold State.winCopied
  extract_lets -underBinder -merge +onlyGivenNames x1
  have h1 : Keeps a x1 := (Keeps.same h rfl rfl rfl rfl rfl rfl rfl)
  clear_value x1
  extract_lets -underBinder -merge +onlyGivenNames x2
  have h2 : Keeps a x2 := (Keeps.ite (State.setWin_keeps h1 _ _ _) h1)
  clear_value x2
  exact (State.put_keeps h2 _ _ _ _)

theorem State.accumulate_keeps (h : Keeps a s) (y2) (y3) : Keeps a (State.accumulate s y2 y3) := by
  unfold State.accumulate
  extract_lets -underBinder -merge +onlyGivenNames x1
  clear_value x1
  split
  · exact h
  · refine Keeps.ite ?_ ?_
    · exact h
    · refine Keeps.ite ?_ ?_
      · exact (Keeps.same h rfl rfl rfl rfl rfl rfl rfl)
      · extract_lets -underBinder -merge +onlyGivenNames x4
        clear_value x4
        extract_lets -underBinder -merge +onlyGivenNames x5
        have h5 : Keeps a x5 := (Keeps.ite (Keeps.same h rfl rfl rfl rfl rfl rfl rfl) h)
        clear_value x5
        extract_lets -underBinder -merge +onlyGivenNames x6
        have h6 : Keeps a x6 := (State.modConv_keeps h5 _ _)
        clear_value x6
        extract_lets -underBinder -merge +onlyGivenNames x7
        have h7 : Keeps a x7 := by
          subst x7
          refine State.each_keeps h6 fun _ h10 _ => ?_
          · extract_lets -underBinder -merge +onlyGivenNames x11
            clear_value x11
            extract_lets -underBinder -merge +onlyGivenNames x12
            clear_value x12
            split
            · exact (Keeps.ite (Keeps.same h10 rfl rfl rfl rfl rfl rfl rfl) h10)
            · exact h10
        clear_value x7
        extract_lets -underBinder -merge +onlyGivenNames x15
        clear_value x15
        refine Keeps.ite ?_ ?_
        · exact h7
        · extract_lets -underBinder -merge +onlyGivenNames x16
          clear_value x16
          exact (Keeps.ite (Keeps.same h7 rfl rfl rfl rfl rfl rfl rfl) (Keeps.same h7 rfl rfl rfl rfl rfl rfl rfl))

theorem State.deliver_keeps (h : Keeps a s) (y2) (y3) : Keeps a (State.deliver s y2 y3) := by
  unfold State.deliver
  extract_lets -underBinder -merge +onlyGivenNames x1
  have h1 : Keeps a x1 := (Keeps.ite (State.modConv_keeps h _ _) (State.windowsTake_keeps h _ _))
  clear_value x1
  extract_lets -underBinder -merge +onlyGivenNames x2
  have h2 : Keeps a x2 := (Keeps.ite (State.accumulate_keeps h1 _ _) h1)
  clear_value x2
  exact (State.each_keeps h2 fun _ h3 _ => (Keeps.ite (State.loopResult_keeps h3 _ _ _) h3))

theorem State.emitRecord_keeps (h : Keeps a s) (y2) (y3) (y4) : Keeps a (State.emitRecord s y2 y3 y4) := by
  unfold State.emitRecord
  extract_lets -underBinder -merge +onlyGivenNames x1
  have h1 : Keeps a x1 := (Keeps.ite (State.gapClose_keeps h _ _ _ _) h)
  clear_value x1
  exact (State.appendItem_keeps h1 _ _)

theorem State.closeMerge_keeps (h : Keeps a s) (y2) (y3) : Keeps a (State.closeMerge s y2 y3) := by
  unfold State.closeMerge
  split
  · exact (State.emitRecord_keeps (State.modAcq_keeps h _) _ _ _)
  · exact h

theorem State.closeMerges_keeps (h : Keeps a s) (y2) : Keeps a (State.closeMerges s y2) := by
  unfold State.closeMerges
  exact (State.each_keeps h fun _ h1 _ => (State.closeMerge_keeps h1 _ _))

theorem State.mergeRecord_keeps (h : Keeps a s) (y2) (y3) (y4) : Keeps a (State.mergeRecord s y2 y3 y4) := by
  unfold State.mergeRecord
  refine Keeps.ite ?_ ?_
  · exact h
  · extract_lets -underBinder -merge +onlyGivenNames x1
    clear_value x1
    extract_lets -underBinder -merge +onlyGivenNames x2
    clear_value x2
    extract_lets -underBinder -merge +onlyGivenNames x3
    have h3 : Keeps a x3 := by
      subst x3
      split
      · exact (Keeps.ite h (State.closeMerge_keeps h _ _))
      · exact h
    clear_value x3
    extract_lets -underBinder -merge +onlyGivenNames x6
    clear_value x6
    extract_lets -underBinder -merge +onlyGivenNames x7
    clear_value x7
    extract_lets -underBinder -merge +onlyGivenNames x8
    have h8 : Keeps a x8 := (State.modAcq_keeps h3 _)
    clear_value x8
    exact (Keeps.ite (State.closeMerge_keeps h8 _ _) h8)

theorem State.ivShow_keeps (h : Keeps a s) : Keeps a (State.ivShow s) := by
  unfold State.ivShow
  exact (State.put_keeps h _ _ _ _)

theorem State.ivBegin_keeps (h : Keeps a s) (y2) (y3) (y4) (y5) : Keeps a (State.ivBegin s y2 y3 y4 y5) := by
  unfold State.ivBegin
  extract_lets -underBinder -merge +onlyGivenNames x1
  clear_value x1
  extract_lets -underBinder -merge +onlyGivenNames x2
  clear_value x2
  refine Keeps.ite ?_ ?_
  · refine State.ivShow_keeps ?_
    exact (Keeps.same h rfl rfl rfl rfl rfl rfl rfl)
  · extract_lets -underBinder -merge +onlyGivenNames x3
    clear_value x3
    extract_lets -underBinder -merge +onlyGivenNames x4
    clear_value x4
    extract_lets -underBinder -merge +onlyGivenNames x5
    clear_value x5
    extract_lets -underBinder -merge +onlyGivenNames x6
    clear_value x6
    extract_lets -underBinder -merge +onlyGivenNames x7
    clear_value x7
    extract_lets -underBinder -merge +onlyGivenNames x8
    clear_value x8
    extract_lets -underBinder -merge +onlyGivenNames x9
    clear_value x9
    extract_lets -underBinder -merge +onlyGivenNames x10
    clear_value x10
    extract_lets -underBinder -merge +onlyGivenNames x11
    clear_value x11
    extract_lets -underBinder -merge +onlyGivenNames x12
    clear_value x12
    extract_lets -underBinder -merge +onlyGivenNames x13
    clear_value x13
    extract_lets -underBinder -merge +onlyGivenNames x14
    clear_value x14
    extract_lets -underBinder -merge +onlyGivenNames x15
    clear_value x15
    extract_lets -underBinder -merge +onlyGivenNames x16
    clear_value x16
    extract_lets -underBinder -merge +onlyGivenNames x17
    have h17 : Keeps a x17 := (Keeps.same h rfl rfl rfl rfl rfl rfl rfl)
    clear_value x17
    extract_lets -underBinder -merge +onlyGivenNames x18
    have h18 : Keeps a x18 := by
      subst x18
      refine State.each_keeps h17 fun _ h21 _ => ?_
      · extract_lets -underBinder -merge +onlyGivenNames x22
        clear_value x22
        extract_lets -underBinder -merge +onlyGivenNames x23
        clear_value x23
        exact (Keeps.same h21 rfl rfl rfl rfl rfl rfl rfl)
    clear_value x18
    exact (State.ivShow_keeps (State.each_keeps h18 fun _ h24 _ => (Keeps.same h24 rfl rfl rfl rfl rfl rfl rfl)))

theorem State.ivEnd_keeps (h : Keeps a s) (y2) (y3) (y4) : Keeps a (State.ivEnd s y2 y3 y4) := by
  unfold State.ivEnd
  extract_lets -underBinder -merge +onlyGivenNames x1
  clear_value x1
  extract_lets -underBinder -merge +onlyGivenNames x2
  clear_value x2
  extract_lets -underBinder -merge +onlyGivenNames x3
  clear_value x3
  extract_lets -underBinder -merge +onlyGivenNames x4
  clear_value x4
  extract_lets -underBinder -merge +onlyGivenNames x5
  clear_value x5
  extract_lets -underBinder -merge +onlyGivenNames x6
  clear_value x6
  extract_lets -underBinder -merge +onlyGivenNames x7
  have h7 : Keeps a x7 := (Keeps.same h rfl rfl rfl rfl rfl rfl rfl)
  clear_value x7
  extract_lets -underBinder -merge +onlyGivenNames x8
  have h8 : Keeps a x8 := by
    subst x8
    refine State.each_keeps h7 fun _ h11 _ => ?_
    · extract_lets -underBinder -merge +onlyGivenNames x12
      have h12 : Keeps a x12 := (Keeps.same h11 rfl rfl rfl rfl rfl rfl rfl)
      clear_value x12
      extract_lets -underBinder -merge +onlyGivenNames x13
      clear_value x13
      exact (Keeps.ite (State.mergeRecord_keeps (State.seamAdd_keeps h12 _ _ _ _ _) _ _ _) h12)
  clear_value x8
  extract_lets -underBinder -merge +onlyGivenNames x14
  have h14 : Keeps a x14 := by
    subst x14
    refine State.each_keeps h8 fun _ h17 _ => ?_
    · extract_lets -underBinder -merge +onlyGivenNames x18
      have h18 : Keeps a x18 := (Keeps.same h17 rfl rfl rfl rfl rfl rfl rfl)
      clear_value x18
      exact (Keeps.ite (State.mergeRecord_keeps h18 _ _ _) h18)
  clear_value x14
  extract_lets -underBinder -merge +onlyGivenNames x19
  have h19 : Keeps a x19 := by
    subst x19
    refine State.each_keeps h14 fun _ h22 _ => ?_
    · extract_lets -underBinder -merge +onlyGivenNames x23
      clear_value x23
      extract_lets -underBinder -merge +onlyGivenNames x24
      have h24 : Keeps a x24 := (Keeps.same h22 rfl rfl rfl rfl rfl rfl rfl)
      clear_value x24
      extract_lets -underBinder -merge +onlyGivenNames x25
      clear_value x25
      extract_lets -underBinder -merge +onlyGivenNames x26
      have h26 : Keeps a x26 := (State.pulse_keeps h24 _ _)
      clear_value x26
      extract_lets -underBinder -merge +onlyGivenNames x27
      have h27 : Keeps a x27 := (Keeps.ite (State.pulse_keeps (State.sat_keeps h26 _ _ _ _) _ _) h26)
      clear_value x27
      extract_lets -underBinder -merge +onlyGivenNames x28
      have h28 : Keeps a x28 := (State.put_keeps h27 _ _ _ _)
      clear_value x28
      exact (Keeps.ite (State.mergeRecord_keeps (State.seamAdd_keeps h28 _ _ _ _ _) _ _ _) h28)
  clear_value x19
  extract_lets -underBinder -merge +onlyGivenNames x29
  clear_value x29
  extract_lets -underBinder -merge +onlyGivenNames x30
  have h30 : Keeps a x30 := (State.putB_keeps h19 _ _ _ _)
  clear_value x30
  extract_lets -underBinder -merge +onlyGivenNames x31
  have h31 : Keeps a x31 := (State.level_keeps h30 _ _ _)
  clear_value x31
  extract_lets -underBinder -merge +onlyGivenNames x32
  have h32 : Keeps a x32 := (State.putB_keeps h31 _ _ _ _)
  clear_value x32
  extract_lets -underBinder -merge +onlyGivenNames x33
  have h33 : Keeps a x33 := (State.pulse_keeps h32 _ _)
  clear_value x33
  extract_lets -underBinder -merge +onlyGivenNames x34
  clear_value x34
  extract_lets -underBinder -merge +onlyGivenNames x35
  have h35 : Keeps a x35 := (Keeps.ite (State.pulse_keeps h33 _ _) h33)
  clear_value x35
  exact (Keeps.ite (State.pulse_keeps h35 _ _) h35)

theorem execIntervalBoundary_keeps (h : Keeps a s) (y1) (y2) (y3) : KeepsR a (execIntervalBoundary y1 y2 y3 s) := by
  unfold execIntervalBoundary
  extract_lets -underBinder -merge +onlyGivenNames x1
  have h1 : Keeps a x1 := (State.at_keeps h _)
  clear_value x1
  split
  · exact (KeepsR.next h1)
  · refine KeepsR.ite ?_ ?_
    · exact (KeepsR.next h1)
    · extract_lets -underBinder -merge +onlyGivenNames x4
      clear_value x4
      extract_lets -underBinder -merge +onlyGivenNames x5
      clear_value x5
      extract_lets -underBinder -merge +onlyGivenNames x6
      have h6 : Keeps a x6 := (State.ivBegin_keeps (State.ivEnd_keeps h1 _ _ _) _ _ _ _)
      clear_value x6
      extract_lets -underBinder -merge +onlyGivenNames x7
      clear_value x7
      extract_lets -underBinder -merge +onlyGivenNames x8
      have h8 : Keeps a x8 := (Keeps.same h6 rfl rfl rfl rfl rfl rfl rfl)
      clear_value x8
      exact (KeepsR.next (State.each_keeps h8 fun _ h9 _ => (State.accumulate_keeps h9 _ _)))

theorem State.ivSettings_keeps (h : Keeps a s) (y2) (y3) (y4) : Keeps a (State.ivSettings s y2 y3 y4) := by
  unfold State.ivSettings
  split
  · exact (State.ivBegin_keeps h _ _ _ _)
  · exact (Keeps.ite (State.modIv_keeps h _ _) h)

theorem State.harCopied_keeps (h : Keeps a s) : Keeps a (State.harCopied s) := by
  unfold State.harCopied
  exact (State.each_keeps h fun _ h1 _ => (State.put_keeps h1 _ _ _ _))

theorem execAccSnapSel_keeps (h : Keeps a s) (y1) : KeepsR a (execAccSnapSel y1 s) := by
  unfold execAccSnapSel
  extract_lets -underBinder -merge +onlyGivenNames x1
  clear_value x1
  refine KeepsR.next ?_
  refine State.each_keeps h fun _ h4 _ => ?_
  · extract_lets -underBinder -merge +onlyGivenNames x5
    clear_value x5
    exact (State.put_keeps (State.put_keeps h4 _ _ _ _) _ _ _ _)

theorem execHarSnapSel_keeps (h : Keeps a s) (y1) : KeepsR a (execHarSnapSel y1 s) := by
  unfold execHarSnapSel
  extract_lets -underBinder -merge +onlyGivenNames x1
  clear_value x1
  extract_lets -underBinder -merge +onlyGivenNames x2
  clear_value x2
  extract_lets -underBinder -merge +onlyGivenNames x3
  clear_value x3
  extract_lets -underBinder -merge +onlyGivenNames x4
  clear_value x4
  extract_lets -underBinder -merge +onlyGivenNames x5
  clear_value x5
  extract_lets -underBinder -merge +onlyGivenNames x6
  clear_value x6
  extract_lets -underBinder -merge +onlyGivenNames x7
  clear_value x7
  extract_lets -underBinder -merge +onlyGivenNames x8
  clear_value x8
  extract_lets -underBinder -merge +onlyGivenNames x9
  clear_value x9
  extract_lets -underBinder -merge +onlyGivenNames x10
  have h10 : Keeps a x10 := (State.put64_keeps h _ _ _ _ _)
  clear_value x10
  extract_lets -underBinder -merge +onlyGivenNames x11
  have h11 : Keeps a x11 := (State.put64_keeps h10 _ _ _ _ _)
  clear_value x11
  extract_lets -underBinder -merge +onlyGivenNames x12
  have h12 : Keeps a x12 := (State.put64_keeps h11 _ _ _ _ _)
  clear_value x12
  extract_lets -underBinder -merge +onlyGivenNames x13
  have h13 : Keeps a x13 := (State.put_keeps (State.put_keeps h12 _ _ _ _) _ _ _ _)
  clear_value x13
  extract_lets -underBinder -merge +onlyGivenNames x14
  have h14 : Keeps a x14 := (State.put64_keeps h13 _ _ _ _ _)
  clear_value x14
  exact (KeepsR.next (State.put64_keeps h14 _ _ _ _ _))

theorem execHarClr_keeps (h : Keeps a s) (y1) : KeepsR a (execHarClr y1 s) := by
  unfold execHarClr
  exact (KeepsR.next (Keeps.ite (State.put_keeps h _ _ _ _) h))

end Sys2Proof.Machine
end

