-- ==== Sys2Proof/Laws/KeepsAdc.lean ====
section
/-!
SUPPORT. What the operations of Machine/Adc.lean keep (see Laws/Keeps.lean).
-/
namespace Sys2Proof.Machine
variable {a s : State}

theorem State.adcShow_keeps (h : Keeps a s) : Keeps a (State.adcShow s) := by
  unfold State.adcShow
  extract_lets -underBinder -merge +onlyGivenNames x1
  clear_value x1
  extract_lets -underBinder -merge +onlyGivenNames x2
  have h2 : Keeps a x2 := (State.put_keeps h _ _ _ _)
  clear_value x2
  extract_lets -underBinder -merge +onlyGivenNames x3
  have h3 : Keeps a x3 := (State.put_keeps h2 _ _ _ _)
  clear_value x3
  extract_lets -underBinder -merge +onlyGivenNames x4
  clear_value x4
  extract_lets -underBinder -merge +onlyGivenNames x5
  clear_value x5
  exact (State.level_keeps (State.setBlockState_keeps h3 _ _) _ _ _)

theorem State.startMiss_keeps (h : Keeps a s) (y2) : Keeps a (State.startMiss s y2) := by
  unfold State.startMiss
  exact (State.pulse_keeps (State.sat_keeps h _ _ _ _) _ _)

theorem State.injDrop_keeps (h : Keeps a s) (y2) (y3) : Keeps a (State.injDrop s y2 y3) := by
  unfold State.injDrop
  extract_lets -underBinder -merge +onlyGivenNames x1
  have h1 : Keeps a x1 := (State.sat_keeps h _ _ _ _)
  clear_value x1
  extract_lets -underBinder -merge +onlyGivenNames x2
  have h2 : Keeps a x2 := (State.sat_keeps h1 _ _ _ _)
  clear_value x2
  extract_lets -underBinder -merge +onlyGivenNames x3
  have h3 : Keeps a x3 := (State.put_keeps (State.put_keeps h2 _ _ _ _) _ _ _ _)
  clear_value x3
  exact (State.pulse_keeps h3 _ _)

theorem State.convert_keeps (h : Keeps a s) (y2) (y3) (y4) (y5) (y6) : Keeps a (State.convert s y2 y3 y4 y5 y6) := by
  unfold State.convert
  extract_lets -underBinder -merge +onlyGivenNames x1
  clear_value x1
  extract_lets -underBinder -merge +onlyGivenNames x2
  clear_value x2
  extract_lets -underBinder -merge +onlyGivenNames x3
  have h3 : Keeps a x3 := (State.modConv_keeps h _ _)
  clear_value x3
  extract_lets -underBinder -merge +onlyGivenNames x4
  have h4 : Keeps a x4 := (Keeps.ite (State.sat_keeps h3 _ _ _ _) h3)
  clear_value x4
  exact (State.adcShow_keeps (State.emit_keeps h4 _))

theorem State.startConv_keeps (h : Keeps a s) (y2) (y3) (y4) : Keeps a (State.startConv s y2 y3 y4) := by
  unfold State.startConv
  extract_lets -underBinder -merge +onlyGivenNames x1
  clear_value x1
  refine Keeps.ite ?_ ?_
  · exact (State.startMiss_keeps h _)
  · refine Keeps.ite ?_ ?_
    · refine Keeps.ite ?_ ?_
      · exact (State.startMiss_keeps h _)
      · extract_lets -underBinder -merge +onlyGivenNames x2
        have h2 : Keeps a x2 := (Keeps.ite (State.injDrop_keeps h _ _) h)
        clear_value x2
        exact (State.adcShow_keeps (State.modConv_keeps h2 _ _))
    · exact (Keeps.ite (State.startMiss_keeps h _) (State.convert_keeps h _ _ _ _ _))

theorem execConversionStart_keeps (h : Keeps a s) (y1) (y2) : KeepsR a (execConversionStart y1 y2 s) := by
  unfold execConversionStart
  extract_lets -underBinder -merge +onlyGivenNames x1
  have h1 : Keeps a x1 := (State.at_keeps h _)
  clear_value x1
  refine KeepsR.ite ?_ ?_
  · exact (KeepsR.next h1)
  · split
    · exact (KeepsR.next h1)
    · extract_lets -underBinder -merge +onlyGivenNames x4
      have h4 : Keeps a x4 := (Keeps.same h1 rfl rfl rfl rfl rfl rfl rfl)
      clear_value x4
      exact (KeepsR.next (State.each_keeps h4 fun _ h5 _ => (State.startConv_keeps h5 _ _ _)))

theorem execPulseSourcePulse_keeps (h : Keeps a s) (y1) (y2) (y3) : KeepsR a (execPulseSourcePulse y1 y2 y3 s) := by
  unfold execPulseSourcePulse
  extract_lets -underBinder -merge +onlyGivenNames x1
  have h1 : Keeps a x1 := (State.at_keeps h _)
  clear_value x1
  extract_lets -underBinder -merge +onlyGivenNames x2
  clear_value x2
  extract_lets -underBinder -merge +onlyGivenNames x3
  clear_value x3
  extract_lets -underBinder -merge +onlyGivenNames x4
  clear_value x4
  extract_lets -underBinder -merge +onlyGivenNames x5
  clear_value x5
  extract_lets -underBinder -merge +onlyGivenNames x6
  clear_value x6
  extract_lets -underBinder -merge +onlyGivenNames x7
  clear_value x7
  extract_lets -underBinder -merge +onlyGivenNames x8
  clear_value x8
  refine KeepsR.ite ?_ ?_
  · exact (KeepsR.next h1)
  · extract_lets -underBinder -merge +onlyGivenNames x9
    clear_value x9
    refine KeepsR.ite ?_ ?_
    · exact (KeepsR.next (State.each_keeps h1 fun _ h11 _ => (State.startMiss_keeps h11 _)))
    · extract_lets -underBinder -merge +onlyGivenNames x12
      clear_value x12
      extract_lets -underBinder -merge +onlyGivenNames x13
      have h13 : Keeps a x13 := (Keeps.same h1 rfl rfl rfl rfl rfl rfl rfl)
      clear_value x13
      exact (KeepsR.next (State.adcShow_keeps (State.each_keeps h13 fun _ h14 _ => (Keeps.ite (State.modConv_keeps h14 _ _) h14))))

theorem execConverterWakeRequest_keeps (h : Keeps a s) (y1) (y2) : KeepsR a (execConverterWakeRequest y1 y2 s) := by
  unfold execConverterWakeRequest
  extract_lets -underBinder -merge +onlyGivenNames x1
  have h1 : Keeps a x1 := (State.at_keeps h _)
  clear_value x1
  extract_lets -underBinder -merge +onlyGivenNames x2
  clear_value x2
  exact (KeepsR.next (Keeps.ite (State.adcShow_keeps (State.modConv_keeps h1 _ _)) h1))

theorem execConverterReady_keeps (h : Keeps a s) (y1) (y2) : KeepsR a (execConverterReady y1 y2 s) := by
  unfold execConverterReady
  extract_lets -underBinder -merge +onlyGivenNames x1
  have h1 : Keeps a x1 := (State.at_keeps h _)
  clear_value x1
  extract_lets -underBinder -merge +onlyGivenNames x2
  clear_value x2
  refine KeepsR.ite ?_ ?_
  · exact (KeepsR.next h1)
  · extract_lets -underBinder -merge +onlyGivenNames x3
    have h3 : Keeps a x3 := (State.adcShow_keeps (State.modConv_keeps h1 _ _))
    clear_value x3
    extract_lets -underBinder -merge +onlyGivenNames x4
    have h4 : ∀ u0, Keeps a u0 → Keeps a (x4 u0) := by
      intro u0 k4
      subst x4
      beta_reduce
      exact (State.pulse_keeps (State.sat_keeps k4 _ _ _ _) _ _)
    clear_value x4
    refine KeepsR.next ?_
    refine Keeps.ite ?_ ?_
    · exact (Keeps.ite (State.startMiss_keeps h3 _) (State.convert_keeps (h4 _ h3) _ _ _ _ _))
    · split
      · exact (Keeps.ite (State.injDrop_keeps h3 _ _) (State.convert_keeps (h4 _ h3) _ _ _ _ _))
      · exact h3

theorem execInjectedRequest_keeps (h : Keeps a s) (y1) (y2) (y3) : KeepsR a (execInjectedRequest y1 y2 y3 s) := by
  unfold execInjectedRequest
  extract_lets -underBinder -merge +onlyGivenNames x1
  have h1 : Keeps a x1 := (State.at_keeps h _)
  clear_value x1
  split
  · exact (KeepsR.next h1)
  · extract_lets -underBinder -merge +onlyGivenNames x4
    have h4 : Keeps a x4 := (Keeps.same h1 rfl rfl rfl rfl rfl rfl rfl)
    clear_value x4
    extract_lets -underBinder -merge +onlyGivenNames x5
    clear_value x5
    refine KeepsR.ite ?_ ?_
    · exact (KeepsR.next h4)
    · refine KeepsR.ite ?_ ?_
      · exact (KeepsR.next (State.injDrop_keeps h4 _ _))
      · refine KeepsR.ite ?_ ?_
        · exact (KeepsR.next (State.injDrop_keeps h4 _ _))
        · refine KeepsR.ite ?_ ?_
          · exact (KeepsR.next (State.injDrop_keeps h4 _ _))
          · refine KeepsR.ite ?_ ?_
            · exact (KeepsR.next (State.injDrop_keeps h4 _ _))
            · extract_lets -underBinder -merge +onlyGivenNames x6
              clear_value x6
              exact (KeepsR.ite (KeepsR.next (State.adcShow_keeps (State.modConv_keeps h4 _ _))) (KeepsR.ite (KeepsR.next (State.injDrop_keeps h4 _ _)) (KeepsR.next (State.convert_keeps h4 _ _ _ _ _))))

theorem State.resolveHold_keeps (h : Keeps a s) (y2) (y3) : Keeps a (State.resolveHold s y2 y3) := by
  unfold State.resolveHold
  extract_lets -underBinder -merge +onlyGivenNames x1
  clear_value x1
  split
  · exact h
  · extract_lets -underBinder -merge +onlyGivenNames x5
    have h5 : Keeps a x5 := (State.modConv_keeps h _ _)
    clear_value x5
    extract_lets -underBinder -merge +onlyGivenNames x6
    have h6 : Keeps a x6 := (Keeps.ite (State.accumulate_keeps (State.windowsTake_keeps h5 _ _) _ _) h5)
    clear_value x6
    exact (State.each_keeps h6 fun _ h7 _ => (State.windowsTake_keeps h7 _ _))

theorem execConversionResult_keeps (h : Keeps a s) (y1) (y2) (y3) : KeepsR a (execConversionResult y1 y2 y3 s) := by
  unfold execConversionResult
  extract_lets -underBinder -merge +onlyGivenNames x1
  have h1 : Keeps a x1 := (State.at_keeps h _)
  clear_value x1
  split
  · exact (KeepsR.next h1)
  · refine KeepsR.ite ?_ ?_
    · exact (KeepsR.next h1)
    · extract_lets -underBinder -merge +onlyGivenNames x5
      have h5 : Keeps a x5 := (State.modConv_keeps h1 _ _)
      clear_value x5
      split
      · extract_lets -underBinder -merge +onlyGivenNames x8
        clear_value x8
        extract_lets -underBinder -merge +onlyGivenNames x9
        have h9 : Keeps a x9 := by
          subst x9
          refine Keeps.ite ?_ ?_
          · exact h5
          · split
            · exact (State.modConv_keeps h5 _ _)
            · exact (State.deliver_keeps h5 _ _)
        clear_value x9
        extract_lets -underBinder -merge +onlyGivenNames x12
        clear_value x12
        extract_lets -underBinder -merge +onlyGivenNames x13
        clear_value x13
        extract_lets -underBinder -merge +onlyGivenNames x14
        clear_value x14
        exact (KeepsR.next (State.adcShow_keeps (Keeps.ite (State.modConv_keeps h9 _ _) h9)))

theorem State.showOverload_keeps (h : Keeps a s) : Keeps a (State.showOverload s) := by
  unfold State.showOverload
  extract_lets -underBinder -merge +onlyGivenNames x1
  clear_value x1
  extract_lets -underBinder -merge +onlyGivenNames x2
  clear_value x2
  extract_lets -underBinder -merge +onlyGivenNames x3
  clear_value x3
  extract_lets -underBinder -merge +onlyGivenNames x4
  have h4 : Keeps a x4 := (State.put_keeps h _ _ _ _)
  clear_value x4
  exact (State.level_keeps (State.level_keeps h4 _ _ _) _ _ _)

theorem execOverloadTrip_keeps (h : Keeps a s) (y1) (y2) : KeepsR a (execOverloadTrip y1 y2 s) := by
  unfold execOverloadTrip
  extract_lets -underBinder -merge +onlyGivenNames x1
  have h1 : Keeps a x1 := (State.at_keeps h _)
  clear_value x1
  exact (KeepsR.next (Keeps.ite (State.showOverload_keeps (State.put_keeps h1 _ _ _ _)) h1))

theorem execOverloadClear_keeps (h : Keeps a s) (y1) (y2) : KeepsR a (execOverloadClear y1 y2 s) := by
  unfold execOverloadClear
  extract_lets -underBinder -merge +onlyGivenNames x1
  have h1 : Keeps a x1 := (State.at_keeps h _)
  clear_value x1
  refine KeepsR.next ?_
  refine Keeps.ite ?_ ?_
  · extract_lets -underBinder -merge +onlyGivenNames x2
    have h2 : Keeps a x2 := (State.put_keeps h1 _ _ _ _)
    clear_value x2
    exact (State.showOverload_keeps (State.modConv_keeps h2 _ _))
  · exact h1

theorem execDisturbSpanEnd_keeps (h : Keeps a s) (y1) (y2) : KeepsR a (execDisturbSpanEnd y1 y2 s) := by
  unfold execDisturbSpanEnd
  extract_lets -underBinder -merge +onlyGivenNames x1
  have h1 : Keeps a x1 := (State.at_keeps h _)
  clear_value x1
  refine KeepsR.next ?_
  refine State.showOverload_keeps ?_
  refine State.each_keeps h1 fun _ h5 _ => ?_
  · extract_lets -underBinder -merge +onlyGivenNames x6
    clear_value x6
    split
    · exact (Keeps.ite (State.modConv_keeps h5 _ _) h5)
    · exact h5

theorem State.convFlag_keeps (h : Keeps a s) (y2) (y3) : Keeps a (State.convFlag s y2 y3) := by
  unfold State.convFlag
  exact (Keeps.same h rfl rfl rfl rfl rfl rfl rfl)

theorem State.calBegin_keeps (h : Keeps a s) (y2) : Keeps a (State.calBegin s y2) := by
  unfold State.calBegin
  extract_lets -underBinder -merge +onlyGivenNames x1
  clear_value x1
  refine Keeps.ite ?_ ?_
  · exact h
  · extract_lets -underBinder -merge +onlyGivenNames x2
    have h2 : Keeps a x2 := (State.put_keeps (State.putB_keeps h _ _ _ _) _ _ _ _)
    clear_value x2
    exact (State.adcShow_keeps (State.each_keeps h2 fun _ h3 _ => (State.convFlag_keeps h3 _ _)))

theorem State.calFinish_keeps (h : Keeps a s) (y2) (y3) (y4) (y5) (y6) : Keeps a (State.calFinish s y2 y3 y4 y5 y6) := by
  unfold State.calFinish
  extract_lets -underBinder -merge +onlyGivenNames x1
  have h1 : Keeps a x1 := by
    subst x1
    refine State.each_keeps h fun _ h4 _ => ?_
    · extract_lets -underBinder -merge +onlyGivenNames x5
      clear_value x5
      split
      · split
        · exact (State.put_keeps h4 _ _ _ _)
        · exact (State.convFlag_keeps (State.setStaged_keeps (State.setReg_keeps h4 _ _ _) _ _ _) _ _)
  clear_value x1
  extract_lets -underBinder -merge +onlyGivenNames x10
  clear_value x10
  extract_lets -underBinder -merge +onlyGivenNames x11
  have h11 : Keeps a x11 := (State.putB_keeps (State.put_keeps h1 _ _ _ _) _ _ _ _)
  clear_value x11
  extract_lets -underBinder -merge +onlyGivenNames x12
  have h12 : Keeps a x12 := (State.put_keeps h11 _ _ _ _)
  clear_value x12
  exact (State.adcShow_keeps h12)

theorem execAdcClr_keeps (h : Keeps a s) (y1) : KeepsR a (execAdcClr y1 s) := by
  unfold execAdcClr
  exact (KeepsR.next (Keeps.ite (State.clearAll_keeps h _ _) h))

theorem State.convsCopied_keeps (h : Keeps a s) : Keeps a (State.convsCopied s) := by
  unfold State.convsCopied
  exact (State.adcShow_keeps (State.showOverload_keeps (State.each_keeps h fun _ h1 _ => (Keeps.ite (State.put_keeps (State.modConv_keeps h1 _ _) _ _ _ _) (Keeps.ite (State.modConv_keeps h1 _ _) h1)))))

theorem State.setCopied_keeps (h : Keeps a s) (y2) : Keeps a (State.setCopied s y2) := by
  unfold State.setCopied
  exact (Keeps.same h rfl rfl rfl rfl rfl rfl rfl)

end Sys2Proof.Machine
end

