-- ==== Sys2Proof/Laws/KeepsPath.lean ====
section
/-!
SUPPORT. What the operations of Machine/Path.lean keep (see Laws/Keeps.lean).
-/
namespace Sys2Proof.Machine
variable {a s : State}

theorem State.showBadRow_keeps (h : Keeps a s) : Keeps a (State.showBadRow s) := by
  unfold State.showBadRow
  exact (State.put64_keeps h _ _ _ _ _)

theorem State.addBadRow_keeps (h : Keeps a s) (y2) : Keeps a (State.addBadRow s y2) := by
  unfold State.addBadRow
  extract_lets -underBinder -merge +onlyGivenNames x1
  clear_value x1
  refine Keeps.ite ?_ ?_
  · exact h
  · refine Keeps.ite ?_ ?_
    · exact (State.sat_keeps h _ _ _ _)
    · extract_lets -underBinder -merge +onlyGivenNames x2
      clear_value x2
      extract_lets -underBinder -merge +onlyGivenNames x3
      have h3 : Keeps a x3 := (Keeps.same h rfl rfl rfl rfl rfl rfl rfl)
      clear_value x3
      extract_lets -underBinder -merge +onlyGivenNames x4
      clear_value x4
      extract_lets -underBinder -merge +onlyGivenNames x5
      have h5 : Keeps a x5 := (State.put_keeps h3 _ _ _ _)
      clear_value x5
      extract_lets -underBinder -merge +onlyGivenNames x6
      have h6 : Keeps a x6 := (State.put_keeps h5 _ _ _ _)
      clear_value x6
      exact (State.level_keeps (State.showBadRow_keeps h6) _ _ _)

theorem State.dmCorrected_keeps (h : Keeps a s) (y2) : Keeps a (State.dmCorrected s y2) := by
  unfold State.dmCorrected
  exact (State.pulse_keeps (State.put64_keeps (State.sat_keeps h _ _ _ _) _ _ _ _ _) _ _)

theorem State.dmUncorrectable_keeps (h : Keeps a s) (y2) : Keeps a (State.dmUncorrectable s y2) := by
  unfold State.dmUncorrectable
  extract_lets -underBinder -merge +onlyGivenNames x1
  have h1 : Keeps a x1 := (State.put64_keeps (State.sat_keeps h _ _ _ _) _ _ _ _ _)
  clear_value x1
  exact (State.raiseFault_keeps (State.addBadRow_keeps (State.pulse_keeps h1 _ _) _) _)

theorem State.modThread_keeps (h : Keeps a s) (y2) (y3) : Keeps a (State.modThread s y2 y3) := by
  unfold State.modThread
  exact (Keeps.ite (Keeps.same h rfl rfl rfl rfl rfl rfl rfl) (Keeps.same h rfl rfl rfl rfl rfl rfl rfl))

theorem State.spoil_keeps (h : Keeps a s) (y2) (y3) (y4) : KeepsP a (State.spoil s y2 y3 y4) := by
  unfold State.spoil
  extract_lets -underBinder -merge +onlyGivenNames x1
  clear_value x1
  extract_lets -underBinder -merge +onlyGivenNames x2
  have h2 : KeepsP a x2 := by
    subst x2
    refine KeepsP.fold (KeepsP.mk h) fun _ h5 _ => ?_
    · split
      next x6 x7 e7 =>
        have h7 := KeepsQ.out (State.takeFree_keeps h5) e7
        exact (KeepsP.mk h7)
  clear_value x2
  extract_lets -underBinder -merge +onlyGivenNames x8
  clear_value x8
  exact (KeepsP.mk h2)

theorem State.deal_keeps (h : Keeps a s) (bad : List Nat) (sid n : Nat) : Keeps a (State.deal bad sid n s) := by
  induction n generalizing s with
  | zero => exact h
  | succ n ih =>
    unfold State.deal
    split
    · exact h
    · extract_lets +onlyGivenNames ts no i
      refine Keeps.ite h ?_
      extract_lets +onlyGivenNames base hits s1
      have h1 : Keeps a s1 := State.each_keeps h fun _ h _ => State.dmUncorrectable_keeps h _
      clear_value s1
      split
      next c b _ =>
        have h2 : KeepsP a (hits.foldl (fun (q : State × Chunk) o => q.1.spoil q.2 base o) (s1, c)) :=
          KeepsP.fold h1 fun r hr _ => State.spoil_keeps hr _ _ _
        split
        next s2 c2 e2 => exact ih (State.modStream_keeps (State.modThread_keeps (h2.out e2) _ _) _ _)

theorem State.ethOffer_keeps (h : Keeps a s) (y2) (y3) (y4) : Keeps a (State.ethOffer s y2 y3 y4) := by
  unfold State.ethOffer
  refine State.each_keeps h fun _ h2 _ => ?_
  · refine Keeps.ite ?_ ?_
    · extract_lets -underBinder -merge +onlyGivenNames x3
      clear_value x3
      extract_lets -underBinder -merge +onlyGivenNames x4
      clear_value x4
      exact (Keeps.ite (State.pulse_keeps (State.sat_keeps h2 _ _ _ _) _ _) (Keeps.same h2 rfl rfl rfl rfl rfl rfl rfl))
    · exact h2

theorem State.cmpShow_keeps (h : Keeps a s) : Keeps a (State.cmpShow s) := by
  unfold State.cmpShow
  extract_lets -underBinder -merge +onlyGivenNames x1
  clear_value x1
  extract_lets -underBinder -merge +onlyGivenNames x2
  clear_value x2
  extract_lets -underBinder -merge +onlyGivenNames x3
  have h3 : Keeps a x3 := (State.put_keeps (State.put_keeps h _ _ _ _) _ _ _ _)
  clear_value x3
  exact (State.level_keeps (State.setBlockState_keeps h3 _ _) _ _ _)

theorem State.placeOwed_keeps (h : Keeps a s) (i n : Nat) : Keeps a (State.placeOwed i n s) := by
  induction n generalizing s with
  | zero => exact h
  | succ n ih =>
    unfold State.placeOwed
    extract_lets +onlyGivenNames q
    split
    · exact h
    · extract_lets +onlyGivenNames free
      exact Keeps.ite h (ih (State.ethOffer_keeps (State.modThread_keeps (State.scrWrite_keeps h _ _) _ _) _ _ _))

theorem State.settleStall_keeps (h : Keeps a s) (y2) : Keeps a (State.settleStall s y2) := by
  unfold State.settleStall
  extract_lets -underBinder -merge +onlyGivenNames x1
  clear_value x1
  extract_lets -underBinder -merge +onlyGivenNames x2
  clear_value x2
  extract_lets -underBinder -merge +onlyGivenNames x3
  have h3 : Keeps a x3 := (State.modThread_keeps h _ _)
  clear_value x3
  exact (Keeps.ite h3 (State.cmpShow_keeps (Keeps.ite (State.sat_keeps h3 _ _ _ _) h3)))

theorem State.handOver_keeps (h : Keeps a s) (y2) (y3) (y4) : Keeps a (State.handOver s y2 y3 y4) := by
  unfold State.handOver
  extract_lets -underBinder -merge +onlyGivenNames x1
  clear_value x1
  extract_lets -underBinder -merge +onlyGivenNames x2
  clear_value x2
  extract_lets -underBinder -merge +onlyGivenNames x3
  have h3 : Keeps a x3 := (State.modStream_keeps h _ _)
  clear_value x3
  extract_lets -underBinder -merge +onlyGivenNames x4
  have h4 : Keeps a x4 := (State.modThread_keeps h3 _ _)
  clear_value x4
  exact (State.settleStall_keeps (State.placeOwed_keeps h4 _ _) _)

theorem State.putRatio_keeps (h : Keeps a s) (y2) (y3) (y4) : Keeps a (State.putRatio s y2 y3 y4) := by
  unfold State.putRatio
  extract_lets -underBinder -merge +onlyGivenNames x1
  clear_value x1
  exact (State.put_keeps h _ _ _ _)

theorem State.closeThread_keeps (h : Keeps a s) (y2) (y3) (y4) (y5) : Keeps a (State.closeThread s y2 y3 y4 y5) := by
  unfold State.closeThread
  extract_lets -underBinder -merge +onlyGivenNames x1
  clear_value x1
  split
  · extract_lets -underBinder -merge +onlyGivenNames x4
    clear_value x4
    extract_lets -underBinder -merge +onlyGivenNames x5
    clear_value x5
    extract_lets -underBinder -merge +onlyGivenNames x6
    clear_value x6
    extract_lets -underBinder -merge +onlyGivenNames x7
    have h7 : Keeps a x7 := (State.modThread_keeps h _ _)
    clear_value x7
    refine Keeps.ite ?_ ?_
    · exact (State.putRatio_keeps (State.handOver_keeps h7 _ _ _) _ _ _)
    · extract_lets -underBinder -merge +onlyGivenNames x8
      clear_value x8
      split
      · extract_lets -underBinder -merge +onlyGivenNames x11
        have h11 : Keeps a x11 := (Keeps.ite (State.sat_keeps h7 _ _ _ _) h7)
        clear_value x11
        extract_lets -underBinder -merge +onlyGivenNames x12
        have h12 : Keeps a x12 := (State.modThread_keeps h11 _ _)
        clear_value x12
        refine Keeps.ite ?_ ?_
        · extract_lets -underBinder -merge +onlyGivenNames x13
          have h13 : Keeps a x13 := (State.pulse_keeps (State.setReg_keeps (State.sat_keeps h12 _ _ _ _) _ _ _) _ _)
          clear_value x13
          extract_lets -underBinder -merge +onlyGivenNames x14
          have h14 : Keeps a x14 := (State.raiseFault_keeps h13 _)
          clear_value x14
          extract_lets -underBinder -merge +onlyGivenNames x15
          clear_value x15
          extract_lets -underBinder -merge +onlyGivenNames x16
          clear_value x16
          extract_lets -underBinder -merge +onlyGivenNames x17
          clear_value x17
          exact (State.putRatio_keeps (State.handOver_keeps (State.modThread_keeps h14 _ _) _ _ _) _ _ _)
        · refine Keeps.ite ?_ ?_
          · extract_lets -underBinder -merge +onlyGivenNames x18
            have h18 : Keeps a x18 := (State.pulse_keeps (State.sat_keeps h12 _ _ _ _) _ _)
            clear_value x18
            exact (State.putRatio_keeps (State.handOver_keeps (State.modThread_keeps h18 _ _) _ _ _) _ _ _)
          · extract_lets -underBinder -merge +onlyGivenNames x19
            have h19 : Keeps a x19 := (State.modThread_keeps h12 _ _)
            clear_value x19
            exact (State.putRatio_keeps (State.handOver_keeps h19 _ _ _) _ _ _)
  · exact h

theorem State.runThread_keeps (h : Keeps a s) (y2) (y3) (y4) (y5) : Keeps a (State.runThread s y2 y3 y4 y5) := by
  unfold State.runThread
  extract_lets -underBinder -merge +onlyGivenNames x1
  clear_value x1
  refine Keeps.ite ?_ ?_
  · exact h
  · extract_lets -underBinder -merge +onlyGivenNames x2
    clear_value x2
    split
    · split
      · exact (Keeps.ite (State.closeThread_keeps h _ _ _ _) h)
      · exact h
    · refine Keeps.ite ?_ ?_
      · exact h
      · refine Keeps.ite ?_ ?_
        · extract_lets -underBinder -merge +onlyGivenNames x7
          have h7 : Keeps a x7 := (Keeps.ite (State.closeThread_keeps h _ _ _ _) h)
          clear_value x7
          extract_lets -underBinder -merge +onlyGivenNames x8
          have h8 : Keeps a x8 := (State.modThread_keeps h7 _ _)
          clear_value x8
          exact (State.modStream_keeps (State.settleStall_keeps (State.placeOwed_keeps h8 _ _) _) _ _)
        · extract_lets -underBinder -merge +onlyGivenNames x9
          clear_value x9
          extract_lets -underBinder -merge +onlyGivenNames x10
          clear_value x10
          extract_lets -underBinder -merge +onlyGivenNames x11
          clear_value x11
          extract_lets -underBinder -merge +onlyGivenNames x12
          clear_value x12
          extract_lets -underBinder -merge +onlyGivenNames x13
          clear_value x13
          extract_lets -underBinder -merge +onlyGivenNames x14
          clear_value x14
          extract_lets -underBinder -merge +onlyGivenNames x15
          clear_value x15
          extract_lets -underBinder -merge +onlyGivenNames x16
          clear_value x16
          extract_lets -underBinder -merge +onlyGivenNames x17
          clear_value x17
          extract_lets -underBinder -merge +onlyGivenNames x18
          clear_value x18
          extract_lets -underBinder -merge +onlyGivenNames x19
          clear_value x19
          extract_lets -underBinder -merge +onlyGivenNames x20
          clear_value x20
          extract_lets -underBinder -merge +onlyGivenNames x21
          have h21 : Keeps a x21 := (State.modThread_keeps h _ _)
          clear_value x21
          extract_lets -underBinder -merge +onlyGivenNames x22
          have h22 : Keeps a x22 := (Keeps.ite (State.pulse_keeps (State.sat_keeps h21 _ _ _ _) _ _) h21)
          clear_value x22
          extract_lets -underBinder -merge +onlyGivenNames x23
          have h23 : Keeps a x23 := (Keeps.ite (State.closeThread_keeps h22 _ _ _ _) h22)
          clear_value x23
          exact (Keeps.ite (State.modStream_keeps h23 _ _) h23)

theorem State.runPath_keeps (h : Keeps a s) (i sid t : Nat) (bad : List Nat) (n : Nat) (good : Bool) :
    Keeps a (State.runPath i sid t bad n good s) := by
  induction n generalizing s good with
  | zero => exact h
  | succ n ih =>
    unfold State.runPath
    extract_lets s1 before s2 closed
    have h1 : Keeps a s1 := State.deal_keeps h _ _ _
    have h2 : Keeps a s2 := State.runThread_keeps h1 _ _ _ _
    exact Keeps.ite h2 (ih h2 _)

theorem State.freePath_keeps (h : Keeps a s) (y2) (y3) : Keeps a (State.freePath s y2 y3) := by
  unfold State.freePath
  extract_lets -underBinder -merge +onlyGivenNames x1
  clear_value x1
  extract_lets -underBinder -merge +onlyGivenNames x2
  clear_value x2
  extract_lets -underBinder -merge +onlyGivenNames x3
  clear_value x3
  refine Keeps.ite ?_ ?_
  · exact h
  · extract_lets -underBinder -merge +onlyGivenNames x4
    have h4 : Keeps a x4 := (State.modThread_keeps h _ _)
    clear_value x4
    exact (State.settleStall_keeps (State.placeOwed_keeps h4 _ _) _)

theorem State.giveLanes_keeps (h : Keeps a s) (y2) (y3) : Keeps a (State.giveLanes s y2 y3) := by
  unfold State.giveLanes
  extract_lets -underBinder -merge +onlyGivenNames x1
  clear_value x1
  extract_lets -underBinder -merge +onlyGivenNames x2
  clear_value x2
  refine State.each_keeps h fun _ h4 _ => ?_
  · extract_lets -underBinder -merge +onlyGivenNames x5
    clear_value x5
    exact (State.modThread_keeps h4 _ _)

theorem State.showLanes_keeps (h : Keeps a s) (y2) : Keeps a (State.showLanes s y2) := by
  unfold State.showLanes
  extract_lets -underBinder -merge +onlyGivenNames x1
  have h1 : Keeps a x1 := (State.each_keeps h fun _ h2 _ => (State.setReg_keeps h2 _ _ _))
  clear_value x1
  extract_lets -underBinder -merge +onlyGivenNames x3
  clear_value x3
  exact (State.cmpShow_keeps (State.level_keeps (State.put_keeps h1 _ _ _ _) _ _ _))

theorem State.dealLanes_keeps (h : Keeps a s) (y2) : Keeps a (State.dealLanes s y2) := by
  unfold State.dealLanes
  extract_lets -underBinder -merge +onlyGivenNames x1
  have h1 : Keeps a x1 := by
    subst x1
    refine State.each_keeps h fun _ h4 _ => ?_
    · extract_lets -underBinder -merge +onlyGivenNames x5
      have h5 : Keeps a x5 := (State.each_keeps h4 fun _ h6 _ => (State.modThread_keeps h6 _ _))
      clear_value x5
      extract_lets -underBinder -merge +onlyGivenNames x7
      have h7 : Keeps a x7 := (State.modThread_keeps h5 _ _)
      clear_value x7
      exact (State.modStream_keeps h7 _ _)
  clear_value x1
  extract_lets -underBinder -merge +onlyGivenNames x8
  have h8 : Keeps a x8 := by
    subst x8
    refine Keeps.ite ?_ ?_
    · exact h1
    · refine Keeps.ite ?_ ?_
      · refine State.each_keeps h1 fun _ h13 _ => ?_
        · extract_lets -underBinder -merge +onlyGivenNames x14
          clear_value x14
          exact (Keeps.ite h13 (State.giveLanes_keeps h13 _ _))
      · refine State.each_keeps h1 fun _ h16 _ => ?_
        · extract_lets -underBinder -merge +onlyGivenNames x17
          clear_value x17
          extract_lets -underBinder -merge +onlyGivenNames x18
          clear_value x18
          exact (Keeps.ite h16 (State.giveLanes_keeps h16 _ _))
  clear_value x8
  exact (State.showLanes_keeps h8 _)

theorem State.modStore_keeps (h : Keeps a s) (y2) : Keeps a (State.modStore s y2) := by
  unfold State.modStore
  exact (Keeps.same h rfl rfl rfl rfl rfl rfl rfl)

theorem State.storeShow_keeps (h : Keeps a s) : Keeps a (State.storeShow s) := by
  unfold State.storeShow
  extract_lets -underBinder -merge +onlyGivenNames x1
  clear_value x1
  extract_lets -underBinder -merge +onlyGivenNames x2
  have h2 : Keeps a x2 := by
    subst x2
    refine State.each_keeps h fun _ h5 _ => ?_
    · extract_lets -underBinder -merge +onlyGivenNames x6
      clear_value x6
      extract_lets -underBinder -merge +onlyGivenNames x7
      have h7 : Keeps a x7 := (State.putB_keeps h5 _ _ _ _)
      clear_value x7
      extract_lets -underBinder -merge +onlyGivenNames x8
      have h8 : Keeps a x8 := (State.put_keeps h7 _ _ _ _)
      clear_value x8
      extract_lets -underBinder -merge +onlyGivenNames x9
      have h9 : Keeps a x9 := (State.put_keeps h8 _ _ _ _)
      clear_value x9
      extract_lets -underBinder -merge +onlyGivenNames x10
      clear_value x10
      exact (State.put_keeps h9 _ _ _ _)
  clear_value x2
  extract_lets -underBinder -merge +onlyGivenNames x11
  have h11 : Keeps a x11 := (State.put_keeps h2 _ _ _ _)
  clear_value x11
  extract_lets -underBinder -merge +onlyGivenNames x12
  have h12 : Keeps a x12 := (State.put_keeps h11 _ _ _ _)
  clear_value x12
  extract_lets -underBinder -merge +onlyGivenNames x13
  have h13 : Keeps a x13 := (State.put_keeps h12 _ _ _ _)
  clear_value x13
  extract_lets -underBinder -merge +onlyGivenNames x14
  have h14 : Keeps a x14 := (State.put_keeps h13 _ _ _ _)
  clear_value x14
  extract_lets -underBinder -merge +onlyGivenNames x15
  have h15 : Keeps a x15 := (State.putB_keeps h14 _ _ _ _)
  clear_value x15
  extract_lets -underBinder -merge +onlyGivenNames x16
  clear_value x16
  extract_lets -underBinder -merge +onlyGivenNames x17
  have h17 : Keeps a x17 := (State.put_keeps h15 _ _ _ _)
  clear_value x17
  extract_lets -underBinder -merge +onlyGivenNames x18
  have h18 : Keeps a x18 := (State.put_keeps h17 _ _ _ _)
  clear_value x18
  extract_lets -underBinder -merge +onlyGivenNames x19
  have h19 : Keeps a x19 := (State.putB_keeps h18 _ _ _ _)
  clear_value x19
  extract_lets -underBinder -merge +onlyGivenNames x20
  clear_value x20
  extract_lets -underBinder -merge +onlyGivenNames x21
  clear_value x21
  extract_lets -underBinder -merge +onlyGivenNames x22
  have h22 : Keeps a x22 := (State.put_keeps h19 _ _ _ _)
  clear_value x22
  extract_lets -underBinder -merge +onlyGivenNames x23
  have h23 : Keeps a x23 := (State.put_keeps (State.put_keeps h22 _ _ _ _) _ _ _ _)
  clear_value x23
  extract_lets -underBinder -merge +onlyGivenNames x24
  have h24 : Keeps a x24 := (State.put64_keeps h23 _ _ _ _ _)
  clear_value x24
  extract_lets -underBinder -merge +onlyGivenNames x25
  clear_value x25
  exact (State.level_keeps (State.setBlockState_keeps h24 _ _) _ _ _)

theorem State.releaseExtents_keeps (h : Keeps a s) (y2) : Keeps a (State.releaseExtents s y2) := by
  unfold State.releaseExtents
  extract_lets -underBinder -merge +onlyGivenNames x1
  clear_value x1
  extract_lets -underBinder -merge +onlyGivenNames x2
  have h2 : Keeps a x2 := (Keeps.ite (State.each_keeps h fun _ h3 _ => (State.emit_keeps h3 _)) h)
  clear_value x2
  exact (State.modStore_keeps h2 _)

theorem State.modJob_keeps (h : Keeps a s) (y2) (y3) : Keeps a (State.modJob s y2 y3) := by
  unfold State.modJob
  exact (State.modStore_keeps h _)

theorem State.issueTable_keeps (h : Keeps a s) (y2) (y3) : Keeps a (State.issueTable s y2 y3) := by
  unfold State.issueTable
  extract_lets -underBinder -merge +onlyGivenNames x1
  clear_value x1
  extract_lets -underBinder -merge +onlyGivenNames x2
  have h2 : Keeps a x2 := (Keeps.ite (State.emit_keeps h _) h)
  clear_value x2
  exact (State.emit_keeps h2 _)

theorem State.startTable_keeps (h : Keeps a s) : Keeps a (State.startTable s) := by
  unfold State.startTable
  split
  · exact h
  · split
    · exact (State.issueTable_keeps h _ _)
    · exact h

theorem State.tableWrite_keeps (h : Keeps a s) (y2) : Keeps a (State.tableWrite s y2) := by
  unfold State.tableWrite
  extract_lets -underBinder -merge +onlyGivenNames x1
  clear_value x1
  extract_lets -underBinder -merge +onlyGivenNames x2
  have h2 : Keeps a x2 := (State.modStore_keeps h _)
  clear_value x2
  exact (Keeps.ite (State.startTable_keeps h2) h2)

theorem State.settleJob_keeps (h : Keeps a s) (y2) : Keeps a (State.settleJob s y2) := by
  unfold State.settleJob
  extract_lets -underBinder -merge +onlyGivenNames x1
  clear_value x1
  extract_lets -underBinder -merge +onlyGivenNames x2
  clear_value x2
  extract_lets -underBinder -merge +onlyGivenNames x3
  have h3 : Keeps a x3 := (Keeps.ite h (State.tableWrite_keeps (State.modJob_keeps h _ _) _))
  clear_value x3
  split
  · exact h3
  · extract_lets -underBinder -merge +onlyGivenNames x6
    clear_value x6
    split
    · exact h3
    · refine Keeps.ite ?_ ?_
      · exact h3
      · extract_lets -underBinder -merge +onlyGivenNames x9
        have h9 : Keeps a x9 := (State.modJob_keeps h3 _ _)
        clear_value x9
        extract_lets -underBinder -merge +onlyGivenNames x10
        have h10 : Keeps a x10 := (State.modStore_keeps h9 _)
        clear_value x10
        exact (State.tableWrite_keeps h10 _)

theorem State.settleJobs_keeps (h : Keeps a s) : Keeps a (State.settleJobs s) := by
  unfold State.settleJobs
  exact (State.storeShow_keeps (State.each_keeps h fun _ h1 _ => (State.settleJob_keeps h1 _)))

theorem State.discardSent_keeps (h : Keeps a s) : Keeps a (State.discardSent s) := by
  unfold State.discardSent
  extract_lets -underBinder -merge +onlyGivenNames x1
  clear_value x1
  extract_lets -underBinder -merge +onlyGivenNames x2
  have h2 : Keeps a x2 := by
    subst x2
    refine State.each_keeps h fun _ h5 _ => ?_
    · extract_lets -underBinder -merge +onlyGivenNames x6
      have h6 : Keeps a x6 := (State.each_keeps h5 fun _ h7 _ => (State.modThread_keeps h7 _ _))
      clear_value x6
      exact (State.modStream_keeps h6 _ _)
  clear_value x2
  split
  · exact h2
  · extract_lets -underBinder -merge +onlyGivenNames x10
    have h10 : Keeps a x10 := (State.releaseExtents_keeps h2 _)
    clear_value x10
    extract_lets -underBinder -merge +onlyGivenNames x11
    have h11 : Keeps a x11 := (State.modStore_keeps h10 _)
    clear_value x11
    exact (State.storeShow_keeps h11)

end Sys2Proof.Machine
end

