-- ==== Sys2Proof/Laws/KeepsTrigger.lean ====
section
/-!
SUPPORT. What the operations of Machine/Trigger.lean keep (see Laws/Keeps.lean).
-/
namespace Sys2Proof.Machine
variable {a s : State}

theorem State.acqShow_keeps (h : Keeps a s) : Keeps a (State.acqShow s) := by
  unfold State.acqShow
  extract_lets -underBinder -merge +onlyGivenNames x1
  clear_value x1
  extract_lets -underBinder -merge +onlyGivenNames x2
  clear_value x2
  extract_lets -underBinder -merge +onlyGivenNames x3
  clear_value x3
  extract_lets -underBinder -merge +onlyGivenNames x4
  have h4 : Keeps a x4 := (State.setBlockState_keeps h _ _)
  clear_value x4
  extract_lets -underBinder -merge +onlyGivenNames x5
  have h5 : Keeps a x5 := (State.putB_keeps (State.putB_keeps h4 _ _ _ _) _ _ _ _)
  clear_value x5
  extract_lets -underBinder -merge +onlyGivenNames x6
  have h6 : Keeps a x6 := (State.putB_keeps h5 _ _ _ _)
  clear_value x6
  extract_lets -underBinder -merge +onlyGivenNames x7
  have h7 : Keeps a x7 := (State.putB_keeps h6 _ _ _ _)
  clear_value x7
  exact (State.level_keeps h7 _ _ _)

theorem State.decideStep_keeps (h : Keeps a s) (y2) (y3) (y4) : Keeps a (State.decideStep s y2 y3 y4) := by
  unfold State.decideStep
  extract_lets -underBinder -merge +onlyGivenNames x1
  clear_value x1
  extract_lets -underBinder -merge +onlyGivenNames x2
  clear_value x2
  extract_lets -underBinder -merge +onlyGivenNames x3
  have h3 : Keeps a x3 := (State.modAcq_keeps h _)
  clear_value x3
  exact (Keeps.ite (State.sendSeam_keeps h3 _ _ _ _ _) h3)

theorem State.protShow_keeps (h : Keeps a s) (y2) : Keeps a (State.protShow s y2) := by
  unfold State.protShow
  extract_lets -underBinder -merge +onlyGivenNames x1
  have h1 : Keeps a x1 := (State.putB_keeps h _ _ _ _)
  clear_value x1
  exact (State.each_keeps h1 fun _ h2 _ => (State.putB_keeps h2 _ _ _ _))

theorem State.protOpen_keeps (h : Keeps a s) (y2) (y3) : Keeps a (State.protOpen s y2 y3) := by
  unfold State.protOpen
  split
  · exact h
  · extract_lets -underBinder -merge +onlyGivenNames x3
    have h3 : Keeps a x3 := (State.modAcq_keeps h _)
    clear_value x3
    extract_lets -underBinder -merge +onlyGivenNames x4
    have h4 : Keeps a x4 := (State.protShow_keeps h3 _)
    clear_value x4
    exact (Keeps.ite (State.each_keeps h4 fun _ h5 _ => (Keeps.ite (State.decideStep_keeps h5 _ _ _) h5)) h4)

theorem State.protWithdraw_keeps (h : Keeps a s) (y2) (y3) : Keeps a (State.protWithdraw s y2 y3) := by
  unfold State.protWithdraw
  extract_lets -underBinder -merge +onlyGivenNames x1
  have h1 : Keeps a x1 := (State.modAcq_keeps h _)
  clear_value x1
  split
  · exact h1
  · extract_lets -underBinder -merge +onlyGivenNames x4
    clear_value x4
    extract_lets -underBinder -merge +onlyGivenNames x5
    have h5 : Keeps a x5 := (State.modAcq_keeps h1 _)
    clear_value x5
    exact (Keeps.ite (State.protShow_keeps h5 _) h5)

theorem State.chooseTrigger_keeps (h : Keeps a s) : Keeps a (State.chooseTrigger s) := by
  unfold State.chooseTrigger
  refine Keeps.ite ?_ ?_
  · exact h
  · extract_lets -underBinder -merge +onlyGivenNames x1
    clear_value x1
    extract_lets -underBinder -merge +onlyGivenNames x2
    clear_value x2
    extract_lets -underBinder -merge +onlyGivenNames x3
    clear_value x3
    extract_lets -underBinder -merge +onlyGivenNames x4
    clear_value x4
    extract_lets -underBinder -merge +onlyGivenNames x5
    clear_value x5
    extract_lets -underBinder -merge +onlyGivenNames x6
    have h6 : Keeps a x6 := (State.modAcq_keeps h _)
    clear_value x6
    extract_lets -underBinder -merge +onlyGivenNames x7
    have h7 : Keeps a x7 := (Keeps.ite (State.discardSent_keeps h6) h6)
    clear_value x7
    extract_lets -underBinder -merge +onlyGivenNames x8
    have h8 : Keeps a x8 := by
      subst x8
      split
      · extract_lets -underBinder -merge +onlyGivenNames x10
        have h10 : Keeps a x10 := (State.modAcq_keeps h7 _)
        clear_value x10
        exact (State.protWithdraw_keeps (State.pulse_keeps (State.sat_keeps h10 _ _ _ _) _ _) _ _)
      · exact (State.protOpen_keeps h7 _ _)
      · exact (Keeps.ite h7 (State.protOpen_keeps (State.protWithdraw_keeps h7 _ _) _ _))
      · exact h7
    clear_value x8
    exact (State.acqShow_keeps h8)

theorem State.dropAfter_keeps (h : Keeps a s) (y2) : Keeps a (State.dropAfter s y2) := by
  unfold State.dropAfter
  exact (State.each_keeps h fun _ h1 _ => (State.modStream_keeps h1 _ _))

theorem State.collarHeld_keeps (h : Keeps a s) : Keeps a (State.collarHeld s) := by
  unfold State.collarHeld
  extract_lets -underBinder -merge +onlyGivenNames x1
  clear_value x1
  exact (Keeps.ite h (State.recFlag_keeps (State.recFlag_keeps (State.modAcq_keeps h _) _) _))

theorem State.liveClipped_keeps (h : Keeps a s) (y2) : Keeps a (State.liveClipped s y2) := by
  unfold State.liveClipped
  extract_lets -underBinder -merge +onlyGivenNames x1
  have h1 : Keeps a x1 := (State.marker_keeps (State.recFlag_keeps (State.recFlag_keeps h _) _) _ _ _ _ _)
  clear_value x1
  extract_lets -underBinder -merge +onlyGivenNames x2
  have h2 : Keeps a x2 := (State.pulse_keeps (State.sat_keeps h1 _ _ _ _) _ _)
  clear_value x2
  exact (State.put64_keeps h2 _ _ _ _ _)

theorem State.commitTrigger_keeps (h : Keeps a s) (y2) : Keeps a (State.commitTrigger s y2) := by
  unfold State.commitTrigger
  extract_lets -underBinder -merge +onlyGivenNames x1
  clear_value x1
  extract_lets -underBinder -merge +onlyGivenNames x2
  clear_value x2
  extract_lets -underBinder -merge +onlyGivenNames x3
  clear_value x3
  extract_lets -underBinder -merge +onlyGivenNames x4
  clear_value x4
  extract_lets -underBinder -merge +onlyGivenNames x5
  clear_value x5
  extract_lets -underBinder -merge +onlyGivenNames x6
  clear_value x6
  extract_lets -underBinder -merge +onlyGivenNames x7
  clear_value x7
  extract_lets -underBinder -merge +onlyGivenNames x8
  clear_value x8
  extract_lets -underBinder -merge +onlyGivenNames x9
  have h9 : Keeps a x9 := (State.modAcq_keeps h _)
  clear_value x9
  extract_lets -underBinder -merge +onlyGivenNames x10
  have h10 : Keeps a x10 := (State.put64_keeps h9 _ _ _ _ _)
  clear_value x10
  extract_lets -underBinder -merge +onlyGivenNames x11
  have h11 : Keeps a x11 := (State.put64_keeps h10 _ _ _ _ _)
  clear_value x11
  extract_lets -underBinder -merge +onlyGivenNames x12
  have h12 : Keeps a x12 := by
    subst x12
    split
    · exact (State.dropAfter_keeps (State.put64_keeps h11 _ _ _ _ _) _)
    · exact h11
  clear_value x12
  extract_lets -underBinder -merge +onlyGivenNames x15
  have h15 : Keeps a x15 := (State.recFlag_keeps h12 _)
  clear_value x15
  extract_lets -underBinder -merge +onlyGivenNames x16
  have h16 : Keeps a x16 := (Keeps.ite (State.recFlag_keeps h15 _) h15)
  clear_value x16
  extract_lets -underBinder -merge +onlyGivenNames x17
  have h17 : Keeps a x17 := (Keeps.ite h16 (State.recFlag_keeps h16 _))
  clear_value x17
  extract_lets -underBinder -merge +onlyGivenNames x18
  have h18 : Keeps a x18 := (State.marker_keeps h17 _ _ _ _ _)
  clear_value x18
  extract_lets -underBinder -merge +onlyGivenNames x19
  have h19 : Keeps a x19 := (Keeps.ite h18 (State.sat_keeps (State.marker_keeps (State.recFlag_keeps h18 _) _ _ _ _ _) _ _ _ _))
  clear_value x19
  extract_lets -underBinder -merge +onlyGivenNames x20
  have h20 : Keeps a x20 := (State.modAcq_keeps h19 _)
  clear_value x20
  extract_lets -underBinder -merge +onlyGivenNames x21
  have h21 : Keeps a x21 := (Keeps.ite (State.collarHeld_keeps h20) h20)
  clear_value x21
  extract_lets -underBinder -merge +onlyGivenNames x22
  have h22 : Keeps a x22 := by
    subst x22
    split
    · exact (State.liveClipped_keeps h21 _)
    · exact h21
  clear_value x22
  extract_lets -underBinder -merge +onlyGivenNames x26
  have h26 : Keeps a x26 := (State.modAcq_keeps h22 _)
  clear_value x26
  extract_lets -underBinder -merge +onlyGivenNames x27
  clear_value x27
  extract_lets -underBinder -merge +onlyGivenNames x28
  have h28 : Keeps a x28 := (State.each_keeps h26 fun _ h29 _ => (State.put_keeps h29 _ _ _ _))
  clear_value x28
  extract_lets -underBinder -merge +onlyGivenNames x30
  have h30 : Keeps a x30 := (Keeps.ite h28 (State.sat_keeps h28 _ _ _ _))
  clear_value x30
  extract_lets -underBinder -merge +onlyGivenNames x31
  have h31 : Keeps a x31 := (State.put64_keeps (State.put_keeps h30 _ _ _ _) _ _ _ _ _)
  clear_value x31
  extract_lets -underBinder -merge +onlyGivenNames x32
  have h32 : Keeps a x32 := (Keeps.ite (State.setBlockState_keeps (State.putB_keeps h31 _ _ _ _) _ _) h30)
  clear_value x32
  exact (State.settleJobs_keeps (State.acqShow_keeps (State.pulse_keeps h32 _ _)))

theorem State.settleTrigger_keeps (h : Keeps a s) : Keeps a (State.settleTrigger s) := by
  unfold State.settleTrigger
  refine Keeps.ite ?_ ?_
  · exact h
  · split
    · exact h
    · extract_lets -underBinder -merge +onlyGivenNames x3
      clear_value x3
      extract_lets -underBinder -merge +onlyGivenNames x4
      clear_value x4
      exact (Keeps.ite h (State.commitTrigger_keeps h _))

theorem State.ownFirePlaced_keeps (h : Keeps a s) (y2) (y3) (y4) (y5) : Keeps a (State.ownFirePlaced s y2 y3 y4 y5) := by
  unfold State.ownFirePlaced
  extract_lets -underBinder -merge +onlyGivenNames x1
  clear_value x1
  exact (State.settleTrigger_keeps (State.chooseTrigger_keeps (State.modAcq_keeps h _)))

theorem State.ownFireCommitted_keeps (h : Keeps a s) (y2) (y3) : Keeps a (State.ownFireCommitted s y2 y3) := by
  unfold State.ownFireCommitted
  extract_lets -underBinder -merge +onlyGivenNames x1
  have h1 : Keeps a x1 := (State.modAcq_keeps h _)
  clear_value x1
  exact (State.settleTrigger_keeps (State.chooseTrigger_keeps h1))

theorem State.ownFireWithdrawn_keeps (h : Keeps a s) : Keeps a (State.ownFireWithdrawn s) := by
  unfold State.ownFireWithdrawn
  exact (State.settleTrigger_keeps (State.chooseTrigger_keeps (State.modAcq_keeps h _)))

end Sys2Proof.Machine
end

