-- ==== Sys2Proof/Laws/KeepsAct.lean ====
section
/-!
SUPPORT. What the operations of Machine/Act.lean keep (see Laws/Keeps.lean).
-/
namespace Sys2Proof.Machine
variable {a s : State}

theorem State.activate_keeps (h : Keeps a s) (y2) (y3) : Keeps a (State.activate s y2 y3) := by
  unfold State.activate
  refine Keeps.ite ?_ ?_
  · exact h
  · refine Keeps.ite ?_ ?_
    · exact (State.setActive_keeps h _ _ _ _)
    · refine Keeps.ite ?_ ?_
      · exact h
      · extract_lets -underBinder -merge +onlyGivenNames x1
        clear_value x1
        extract_lets -underBinder -merge +onlyGivenNames x2
        clear_value x2
        extract_lets -underBinder -merge +onlyGivenNames x3
        clear_value x3
        exact (State.setActive_keeps h _ _ _ _)

theorem State.activateMask_keeps (h : Keeps a s) (y2) (y3) : Keeps a (State.activateMask s y2 y3) := by
  unfold State.activateMask
  exact (State.each_keeps h fun _ h1 _ => (State.activate_keeps h1 _ _))

theorem execActPulseEnd_keeps (h : Keeps a s) (y1) (y2) : KeepsR a (execActPulseEnd y1 y2 s) := by
  unfold execActPulseEnd
  extract_lets -underBinder -merge +onlyGivenNames x1
  have h1 : Keeps a x1 := (State.at_keeps h _)
  clear_value x1
  exact (KeepsR.next (Keeps.ite (State.setActive_keeps h1 _ _ _ _) h1))

theorem execActRelease_keeps (h : Keeps a s) (y1) (y2) : KeepsR a (execActRelease y1 y2 s) := by
  unfold execActRelease
  extract_lets -underBinder -merge +onlyGivenNames x1
  have h1 : Keeps a x1 := (State.at_keeps h _)
  clear_value x1
  exact (KeepsR.next (State.each_keeps h1 fun _ h2 _ => (Keeps.ite (State.setActive_keeps h2 _ _ _ _) h2)))

theorem execActReadback_keeps (h : Keeps a s) (y1) (y2) : KeepsR a (execActReadback y1 y2 s) := by
  unfold execActReadback
  extract_lets -underBinder -merge +onlyGivenNames x1
  have h1 : Keeps a x1 := (State.put_keeps (State.at_keeps h _) _ _ _ _)
  clear_value x1
  extract_lets -underBinder -merge +onlyGivenNames x2
  clear_value x2
  extract_lets -underBinder -merge +onlyGivenNames x3
  have h3 : Keeps a x3 := (State.level_keeps (State.put_keeps h1 _ _ _ _) _ _ _)
  clear_value x3
  exact (KeepsR.next (State.faultLevel_keeps h3 _ _))

theorem execActClr_keeps (h : Keeps a s) (y1) : KeepsR a (execActClr y1 s) := by
  unfold execActClr
  exact (KeepsR.next (Keeps.ite (State.clearAll_keeps h _ _) h))

theorem State.actStopped_keeps (h : Keeps a s) (y2) : Keeps a (State.actStopped s y2) := by
  unfold State.actStopped
  exact (Keeps.same h rfl rfl rfl rfl rfl rfl rfl)

theorem State.actStarted_keeps (h : Keeps a s) (y2) : Keeps a (State.actStarted s y2) := by
  unfold State.actStarted
  split
  · exact (State.driveLands_keeps h _)
  · extract_lets -underBinder -merge +onlyGivenNames x3
    have h3 : Keeps a x3 := by
      subst x3
      refine State.each_keeps h fun _ h6 _ => ?_
      · split
        · exact (State.modAct_keeps h6 _ _)
        · exact (State.modAct_keeps h6 _ _)
        · exact h6
    clear_value x3
    refine State.driveLands_keeps ?_ _
    exact (Keeps.same h3 rfl rfl rfl rfl rfl rfl rfl)

end Sys2Proof.Machine
end

