-- ==== Sys2Proof/Laws/KeepsLadder.lean ====
section
/-!
SUPPORT. What the operations of Machine/Ladder.lean keep (see Laws/Keeps.lean).
-/
namespace Sys2Proof.Machine
variable {a s : State}

theorem State.ladderInputs_keeps (h : Keeps a s) (y2) : KeepsP a (State.ladderInputs s y2) := by
  unfold State.ladderInputs
  extract_lets -underBinder -merge +onlyGivenNames x1
  clear_value x1
  extract_lets -underBinder -merge +onlyGivenNames x2
  clear_value x2
  extract_lets -underBinder -merge +onlyGivenNames x3
  clear_value x3
  extract_lets -underBinder -merge +onlyGivenNames x4
  clear_value x4
  extract_lets -underBinder -merge +onlyGivenNames x5
  clear_value x5
  extract_lets -underBinder -merge +onlyGivenNames x6
  clear_value x6
  extract_lets -underBinder -merge +onlyGivenNames x7
  clear_value x7
  exact (KeepsP.mk (Keeps.same h rfl rfl rfl rfl rfl rfl rfl))

theorem execSoft_keeps (h : Keeps a s) (y1) (y2) : KeepsR a (execSoft y1 y2 s) := by
  unfold execSoft
  extract_lets -underBinder -merge +onlyGivenNames x1
  have h1 : Keeps a x1 := (State.at_keeps h _)
  clear_value x1
  exact (KeepsR.next (Keeps.ite (Keeps.same h1 rfl rfl rfl rfl rfl rfl rfl) h1))

theorem execTldClr_keeps (h : Keeps a s) (y1) : KeepsR a (execTldClr y1 s) := by
  unfold execTldClr
  exact (KeepsR.next (Keeps.ite (State.clearAll_keeps h _ _) h))

theorem execTldPtSel_keeps (h : Keeps a s) (y1) : KeepsR a (execTldPtSel y1 s) := by
  unfold execTldPtSel
  exact (KeepsR.next (State.put_keeps h _ _ _ _))

end Sys2Proof.Machine
end

