-- ==== Sys2Proof/Laws/KeepsGambit.lean ====
section
/-!
SUPPORT. What the operations of Machine/Gambit.lean keep (see Laws/Keeps.lean).
-/
namespace Sys2Proof.Machine
variable {a s : State}

theorem State.histStore_keeps (h : Keeps a s) (y2) : Keeps a (State.histStore s y2) := by
  unfold State.histStore
  extract_lets -underBinder -merge +onlyGivenNames x1
  clear_value x1
  extract_lets -underBinder -merge +onlyGivenNames x2
  have h2 : Keeps a x2 := (State.scrWrite_keeps h _ _)
  clear_value x2
  exact (State.scrWrite_keeps h2 _ _)

theorem State.modGmb_keeps (h : Keeps a s) (y2) : Keeps a (State.modGmb s y2) := by
  unfold State.modGmb
  exact (Keeps.same h rfl rfl rfl rfl rfl rfl rfl)

theorem State.setHist_keeps (h : Keeps a s) (y2) : Keeps a (State.setHist s y2) := by
  unfold State.setHist
  exact (State.histStore_keeps (State.modGmb_keeps h _) _)

theorem State.gmbShow_keeps (h : Keeps a s) : Keeps a (State.gmbShow s) := by
  unfold State.gmbShow
  extract_lets -underBinder -merge +onlyGivenNames x1
  clear_value x1
  extract_lets -underBinder -merge +onlyGivenNames x2
  clear_value x2
  extract_lets -underBinder -merge +onlyGivenNames x3
  clear_value x3
  extract_lets -underBinder -merge +onlyGivenNames x4
  clear_value x4
  extract_lets -underBinder -merge +onlyGivenNames x5
  clear_value x5
  extract_lets -underBinder -merge +onlyGivenNames x6
  clear_value x6
  extract_lets -underBinder -merge +onlyGivenNames x7
  have h7 : Keeps a x7 := (State.put_keeps h _ _ _ _)
  clear_value x7
  extract_lets -underBinder -merge +onlyGivenNames x8
  have h8 : Keeps a x8 := (State.putB_keeps h7 _ _ _ _)
  clear_value x8
  extract_lets -underBinder -merge +onlyGivenNames x9
  have h9 : Keeps a x9 := (State.put64_keeps h8 _ _ _ _ _)
  clear_value x9
  extract_lets -underBinder -merge +onlyGivenNames x10
  have h10 : Keeps a x10 := (State.put64_keeps h9 _ _ _ _ _)
  clear_value x10
  extract_lets -underBinder -merge +onlyGivenNames x11
  have h11 : Keeps a x11 := (State.put_keeps h10 _ _ _ _)
  clear_value x11
  extract_lets -underBinder -merge +onlyGivenNames x12
  have h12 : Keeps a x12 := (State.level_keeps (State.level_keeps h11 _ _ _) _ _ _)
  clear_value x12
  extract_lets -underBinder -merge +onlyGivenNames x13
  have h13 : Keeps a x13 := (State.setBlockState_keeps h12 _ _)
  clear_value x13
  extract_lets -underBinder -merge +onlyGivenNames x14
  clear_value x14
  extract_lets -underBinder -merge +onlyGivenNames x15
  have h15 : Keeps a x15 := (State.put_keeps h13 _ _ _ _)
  clear_value x15
  extract_lets -underBinder -merge +onlyGivenNames x16
  have h16 : Keeps a x16 := (State.putB_keeps h15 _ _ _ _)
  clear_value x16
  extract_lets -underBinder -merge +onlyGivenNames x17
  clear_value x17
  extract_lets -underBinder -merge +onlyGivenNames x18
  have h18 : Keeps a x18 := (State.putB_keeps h16 _ _ _ _)
  clear_value x18
  exact (State.setBlockState_keeps h18 _ _)

theorem State.setPaused_keeps (h : Keeps a s) (y2) (y3) : Keeps a (State.setPaused s y2 y3) := by
  unfold State.setPaused
  extract_lets -underBinder -merge +onlyGivenNames x1
  clear_value x1
  extract_lets -underBinder -merge +onlyGivenNames x2
  have h2 : Keeps a x2 := (State.putB_keeps h _ _ _ _)
  clear_value x2
  refine Keeps.ite ?_ ?_
  · extract_lets -underBinder -merge +onlyGivenNames x3
    have h3 : Keeps a x3 := (State.sat_keeps h2 _ _ _ _)
    clear_value x3
    exact (Keeps.ite (State.sat_keeps h3 _ _ _ _) h3)
  · exact h2

theorem State.sendFire_keeps (h : Keeps a s) (y2) (y3) (y4) (y5) (y6) (y7) : Keeps a (State.sendFire s y2 y3 y4 y5 y6 y7) := by
  unfold State.sendFire
  extract_lets -underBinder -merge +onlyGivenNames x1
  clear_value x1
  exact (Keeps.ite (State.sendPort_keeps h _ _) (State.wrap_keeps (State.sendRing_keeps h _) _ _ _ _))

theorem State.sendTokens_keeps (h : Keeps a s) (y2) : KeepsP a (State.sendTokens s y2) := by
  unfold State.sendTokens
  refine KeepsP.fold (KeepsP.mk h) fun _ h2 _ => ?_
  · extract_lets -underBinder -merge +onlyGivenNames x3
    clear_value x3
    exact (KeepsP.mk (State.bumpSeq_keeps (State.sendFire_keeps h2 _ _ _ _ _ _) _))

theorem State.injectAt_keeps (h : Keeps a s) (y2) (y3) : Keeps a (State.injectAt s y2 y3) := by
  unfold State.injectAt
  extract_lets -underBinder -merge +onlyGivenNames x1
  clear_value x1
  refine Keeps.ite ?_ ?_
  · exact (Keeps.same h rfl rfl rfl rfl rfl rfl rfl)
  · refine State.each_keeps h fun _ h4 _ => ?_
    · extract_lets -underBinder -merge +onlyGivenNames x5
      clear_value x5
      exact (Keeps.ite (State.modConv_keeps h4 _ _) (State.sat_keeps h4 _ _ _ _))

theorem State.activateLate_keeps (h : Keeps a s) (y2) : Keeps a (State.activateLate s y2) := by
  unfold State.activateLate
  exact (State.activateMask_keeps (Keeps.ite h (State.sat_keeps h _ _ _ _)) _ _)

theorem State.countEffect_keeps (h : Keeps a s) (y2) : Keeps a (State.countEffect s y2) := by
  unfold State.countEffect
  extract_lets -underBinder -merge +onlyGivenNames x1
  have h1 : Keeps a x1 := (Keeps.ite (State.pulse_keeps (State.sat_keeps h _ _ _ _) _ _) h)
  clear_value x1
  extract_lets -underBinder -merge +onlyGivenNames x2
  have h2 : Keeps a x2 := (Keeps.ite (State.pulse_keeps (State.sat_keeps h1 _ _ _ _) _ _) h1)
  clear_value x2
  extract_lets -underBinder -merge +onlyGivenNames x3
  have h3 : Keeps a x3 := (Keeps.ite (State.pulse_keeps (State.sat_keeps h2 _ _ _ _) _ _) h2)
  clear_value x3
  exact (Keeps.ite (State.sat_keeps h3 _ _ _ _) h3)

theorem State.issue_keeps (h : Keeps a s) (y2) (y3) : Keeps a (State.issue s y2 y3) := by
  unfold State.issue
  extract_lets -underBinder -merge +onlyGivenNames x1
  have h1 : Keeps a x1 := (Keeps.ite (State.ownFirePlaced_keeps h _ _ _ _) h)
  clear_value x1
  extract_lets -underBinder -merge +onlyGivenNames x2
  have h2 : Keeps a x2 := (Keeps.ite (State.marker_keeps h1 _ _ _ _ _) h1)
  clear_value x2
  extract_lets -underBinder -merge +onlyGivenNames x3
  have h3 : Keeps a x3 := (Keeps.ite (State.protOpen_keeps h2 _ _) h2)
  clear_value x3
  extract_lets -underBinder -merge +onlyGivenNames x4
  have h4 : Keeps a x4 := (Keeps.ite (State.injectAt_keeps h3 _ _) h3)
  clear_value x4
  extract_lets -underBinder -merge +onlyGivenNames x5
  clear_value x5
  extract_lets -underBinder -merge +onlyGivenNames x6
  clear_value x6
  extract_lets -underBinder -merge +onlyGivenNames x7
  clear_value x7
  extract_lets -underBinder -merge +onlyGivenNames x8
  have h8 : Keeps a x8 := (Keeps.ite (State.activateLate_keeps h4 _) (State.activateMask_keeps h4 _ _))
  clear_value x8
  split
  next x9 x10 e9 =>
    have h9 := KeepsP.out (State.sendTokens_keeps h8 _) e9
    exact (Keeps.ite (State.modGmb_keeps h9 _) (State.countEffect_keeps h9 _))

theorem State.confirm_keeps (h : Keeps a s) (y2) (y3) : Keeps a (State.confirm s y2 y3) := by
  unfold State.confirm
  extract_lets -underBinder -merge +onlyGivenNames x1
  have h1 : Keeps a x1 := (State.countEffect_keeps h _)
  clear_value x1
  extract_lets -underBinder -merge +onlyGivenNames x2
  have h2 : Keeps a x2 := (Keeps.ite (State.ownFireCommitted_keeps h1 _ _) h1)
  clear_value x2
  extract_lets -underBinder -merge +onlyGivenNames x3
  have h3 : Keeps a x3 := (State.activateLate_keeps h2 _)
  clear_value x3
  exact (State.each_keeps h3 fun _ h4 _ => (State.sendFire_keeps h4 _ _ _ _ _ _))

theorem State.withdrawInject_keeps (h : Keeps a s) (y2) : Keeps a (State.withdrawInject s y2) := by
  unfold State.withdrawInject
  extract_lets -underBinder -merge +onlyGivenNames x1
  clear_value x1
  extract_lets -underBinder -merge +onlyGivenNames x2
  have h2 : Keeps a x2 := (Keeps.same h rfl rfl rfl rfl rfl rfl rfl)
  clear_value x2
  refine State.each_keeps h2 fun _ h4 _ => ?_
  · extract_lets -underBinder -merge +onlyGivenNames x5
    clear_value x5
    extract_lets -underBinder -merge +onlyGivenNames x6
    clear_value x6
    extract_lets -underBinder -merge +onlyGivenNames x7
    clear_value x7
    extract_lets -underBinder -merge +onlyGivenNames x8
    have h8 : Keeps a x8 := (State.modConv_keeps h4 _ _)
    clear_value x8
    extract_lets -underBinder -merge +onlyGivenNames x9
    have h9 : Keeps a x9 := (Keeps.ite (State.resolveHold_keeps h8 _ _) h8)
    clear_value x9
    extract_lets -underBinder -merge +onlyGivenNames x10
    clear_value x10
    exact (Keeps.ite h9 (State.pulse_keeps (State.sat_keeps h9 _ _ _ _) _ _))

theorem State.retractOuts_keeps (h : Keeps a s) (y2) : Keeps a (State.retractOuts s y2) := by
  unfold State.retractOuts
  refine State.each_keeps h fun _ h2 _ => ?_
  · split
    · extract_lets -underBinder -merge +onlyGivenNames x6
      have h6 : Keeps a x6 := (State.put_keeps (State.sat_keeps h2 _ _ _ _) _ _ _ _)
      clear_value x6
      extract_lets -underBinder -merge +onlyGivenNames x7
      have h7 : Keeps a x7 := (State.pulse_keeps h6 _ _)
      clear_value x7
      extract_lets -underBinder -merge +onlyGivenNames x8
      have h8 : Keeps a x8 := (State.note_keeps h7 _ _ _ _ _)
      clear_value x8
      refine Keeps.ite ?_ ?_
      · exact h8
      · refine Keeps.ite ?_ ?_
        · extract_lets -underBinder -merge +onlyGivenNames x9
          have h9 : Keeps a x9 := (State.setActive_keeps h8 _ _ _ _)
          clear_value x9
          exact (Keeps.ite (State.setActive_keeps h9 _ _ _ _) h9)
        · exact (State.setActive_keeps h8 _ _ _ _)

theorem State.withdraw_keeps (h : Keeps a s) (y2) : Keeps a (State.withdraw s y2) := by
  unfold State.withdraw
  extract_lets -underBinder -merge +onlyGivenNames x1
  clear_value x1
  extract_lets -underBinder -merge +onlyGivenNames x2
  have h2 : Keeps a x2 := (State.modGmb_keeps h _)
  clear_value x2
  extract_lets -underBinder -merge +onlyGivenNames x3
  have h3 : Keeps a x3 := (State.each_keeps h2 fun _ h4 _ => (State.retractOuts_keeps h4 _))
  clear_value x3
  extract_lets -underBinder -merge +onlyGivenNames x5
  have h5 : Keeps a x5 := (Keeps.ite (State.ownFireWithdrawn_keeps h3) h3)
  clear_value x5
  extract_lets -underBinder -merge +onlyGivenNames x6
  have h6 : Keeps a x6 := by
    subst x6
    refine State.each_keeps h5 fun _ h11 _ => ?_
    · refine State.each_keeps h11 fun _ h13 _ => ?_
      · extract_lets -underBinder -merge +onlyGivenNames x14
        clear_value x14
        extract_lets -underBinder -merge +onlyGivenNames x15
        have h15 : Keeps a x15 := (Keeps.ite (State.sendPort_keeps h13 _ _) (State.sendRing_keeps h13 _))
        clear_value x15
        exact (State.sat_keeps (State.bumpSeq_keeps h15 _) _ _ _ _)
  clear_value x6
  extract_lets -underBinder -merge +onlyGivenNames x16
  clear_value x16
  extract_lets -underBinder -merge +onlyGivenNames x17
  have h17 : Keeps a x17 := (State.modStream_keeps h6 _ _)
  clear_value x17
  exact (State.withdrawInject_keeps h17 _)

theorem State.releaseInjections_keeps (h : Keeps a s) : Keeps a (State.releaseInjections s) := by
  unfold State.releaseInjections
  extract_lets -underBinder -merge +onlyGivenNames x1
  clear_value x1
  extract_lets -underBinder -merge +onlyGivenNames x2
  clear_value x2
  extract_lets -underBinder -merge +onlyGivenNames x3
  have h3 : Keeps a x3 := (Keeps.same h rfl rfl rfl rfl rfl rfl rfl)
  clear_value x3
  refine State.each_keeps h3 fun _ h5 _ => ?_
  · extract_lets -underBinder -merge +onlyGivenNames x6
    have h6 : Keeps a x6 := (State.modConv_keeps h5 _ _)
    clear_value x6
    split
    · exact (Keeps.ite (State.resolveHold_keeps h6 _ _) h6)
    · exact h6

theorem State.leaveArmed_keeps (h : Keeps a s) : Keeps a (State.leaveArmed s) := by
  unfold State.leaveArmed
  extract_lets -underBinder -merge +onlyGivenNames x1
  have h1 : Keeps a x1 := (State.modAcq_keeps h _)
  clear_value x1
  extract_lets -underBinder -merge +onlyGivenNames x2
  have h2 : Keeps a x2 := (State.putB_keeps h1 _ _ _ _)
  clear_value x2
  extract_lets -underBinder -merge +onlyGivenNames x3
  have h3 : Keeps a x3 := (Keeps.ite (Keeps.same h2 rfl rfl rfl rfl rfl rfl rfl) h2)
  clear_value x3
  extract_lets -underBinder -merge +onlyGivenNames x4
  have h4 : Keeps a x4 := (State.setPaused_keeps (State.modGmb_keeps h3 _) _ _)
  clear_value x4
  extract_lets -underBinder -merge +onlyGivenNames x5
  have h5 : Keeps a x5 := (State.put_keeps h4 _ _ _ _)
  clear_value x5
  exact (State.acqShow_keeps (State.gmbShow_keeps (State.putB_keeps h5 _ _ _ _)))

theorem State.settleArmed_keeps (h : Keeps a s) : Keeps a (State.settleArmed s) := by
  unfold State.settleArmed
  split
  · exact (Keeps.ite (State.leaveArmed_keeps h) h)
  · exact h

theorem State.advanceCommit_keeps (h : Keeps a s) : Keeps a (State.advanceCommit s) := by
  unfold State.advanceCommit
  extract_lets -underBinder -merge +onlyGivenNames x1
  have h1 : Keeps a x1 := (State.modGmb_keeps h _)
  clear_value x1
  extract_lets -underBinder -merge +onlyGivenNames x2
  clear_value x2
  extract_lets -underBinder -merge +onlyGivenNames x3
  clear_value x3
  extract_lets -underBinder -merge +onlyGivenNames x4
  have h4 : Keeps a x4 := (State.modGmb_keeps h1 _)
  clear_value x4
  extract_lets -underBinder -merge +onlyGivenNames x5
  have h5 : Keeps a x5 := (State.each_keeps h4 fun _ h6 _ => (State.confirm_keeps h6 _ _))
  clear_value x5
  exact (State.settleArmed_keeps (State.gmbShow_keeps (State.releaseInjections_keeps h5)))

theorem State.evalNext_keeps (h : Keeps a s) : KeepsP a (State.evalNext s) := by
  unfold State.evalNext
  extract_lets -underBinder -merge +onlyGivenNames x1
  clear_value x1
  split
  · exact (KeepsP.mk h)
  · refine KeepsP.ite ?_ ?_
    · exact (KeepsP.mk h)
    · extract_lets -underBinder -merge +onlyGivenNames x4
      clear_value x4
      extract_lets -underBinder -merge +onlyGivenNames x5
      clear_value x5
      extract_lets -underBinder -merge +onlyGivenNames x6
      clear_value x6
      extract_lets -underBinder -merge +onlyGivenNames x7
      clear_value x7
      extract_lets -underBinder -merge +onlyGivenNames x8
      clear_value x8
      refine KeepsP.ite ?_ ?_
      · exact (KeepsP.mk (State.setPaused_keeps h _ _))
      · refine KeepsP.ite ?_ ?_
        · exact (KeepsP.mk (State.setPaused_keeps h _ _))
        · extract_lets -underBinder -merge +onlyGivenNames x9
          clear_value x9
          extract_lets -underBinder -merge +onlyGivenNames x10
          have h10 : Keeps a x10 := (State.setPaused_keeps h _ _)
          clear_value x10
          extract_lets -underBinder -merge +onlyGivenNames x11
          have h11 : Keeps a x11 := (Keeps.ite (State.wrap_keeps h10 _ _ _ _) h10)
          clear_value x11
          extract_lets -underBinder -merge +onlyGivenNames x12
          have h12 : Keeps a x12 := (Keeps.ite (State.wrap64_keeps h11 _ _ _ _) h11)
          clear_value x12
          extract_lets -underBinder -merge +onlyGivenNames x13
          clear_value x13
          extract_lets -underBinder -merge +onlyGivenNames x14
          have h14 : Keeps a x14 := (State.modGmb_keeps h12 _)
          clear_value x14
          extract_lets -underBinder -merge +onlyGivenNames x15
          have h15 : Keeps a x15 := (Keeps.ite h14 (State.setHist_keeps h14 _))
          clear_value x15
          extract_lets -underBinder -merge +onlyGivenNames x16
          have h16 : Keeps a x16 := (State.setHist_keeps h15 _)
          clear_value x16
          extract_lets -underBinder -merge +onlyGivenNames x17
          clear_value x17
          exact (KeepsP.mk (State.each_keeps h16 fun _ h18 _ => (State.issue_keeps h18 _ _)))

theorem State.evalMany_keeps (h : Keeps a s) (n : Nat) : Keeps a (State.evalMany n s) := by
  induction n generalizing s with
  | zero => exact h
  | succ n ih =>
    unfold State.evalMany
    split
    next s1 m e => exact Keeps.ite (ih ((State.evalNext_keeps h).out e)) ((State.evalNext_keeps h).out e)

theorem State.rollback_keeps (h : Keeps a s) (y2) (y3) : Keeps a (State.rollback s y2 y3) := by
  unfold State.rollback
  extract_lets -underBinder -merge +onlyGivenNames x1
  clear_value x1
  extract_lets -underBinder -merge +onlyGivenNames x2
  clear_value x2
  split
  · exact h
  · extract_lets -underBinder -merge +onlyGivenNames x5
    clear_value x5
    extract_lets -underBinder -merge +onlyGivenNames x6
    clear_value x6
    extract_lets -underBinder -merge +onlyGivenNames x7
    have h7 : Keeps a x7 := (State.withdraw_keeps (State.modGmb_keeps h _) _)
    clear_value x7
    extract_lets -underBinder -merge +onlyGivenNames x8
    have h8 : Keeps a x8 := (State.modGmb_keeps h7 _)
    clear_value x8
    extract_lets -underBinder -merge +onlyGivenNames x9
    have h9 : Keeps a x9 := (State.pulse_keeps (State.sat_keeps h8 _ _ _ _) _ _)
    clear_value x9
    extract_lets -underBinder -merge +onlyGivenNames x10
    have h10 : Keeps a x10 := (State.sat_keeps h9 _ _ _ _)
    clear_value x10
    extract_lets -underBinder -merge +onlyGivenNames x11
    have h11 : Keeps a x11 := (State.setReg_keeps h10 _ _ _)
    clear_value x11
    extract_lets -underBinder -merge +onlyGivenNames x12
    have h12 : Keeps a x12 := (State.note_keeps h11 _ _ _ _ _)
    clear_value x12
    exact (State.putB_keeps (State.setPaused_keeps h12 _ _) _ _ _ _)

theorem State.learn_keeps (h : Keeps a s) (y2) : Keeps a (State.learn s y2) := by
  unfold State.learn
  extract_lets -underBinder -merge +onlyGivenNames x1
  clear_value x1
  extract_lets -underBinder -merge +onlyGivenNames x2
  clear_value x2
  extract_lets -underBinder -merge +onlyGivenNames x3
  clear_value x3
  extract_lets -underBinder -merge +onlyGivenNames x4
  clear_value x4
  extract_lets -underBinder -merge +onlyGivenNames x5
  clear_value x5
  extract_lets -underBinder -merge +onlyGivenNames x6
  clear_value x6
  extract_lets -underBinder -merge +onlyGivenNames x7
  clear_value x7
  extract_lets -underBinder -merge +onlyGivenNames x8
  have h8 : Keeps a x8 := (Keeps.fold h fun _ h9 _ => (Keeps.ite h9 (State.setHist_keeps h9 _)))
  clear_value x8
  extract_lets -underBinder -merge +onlyGivenNames x10
  have h10 : Keeps a x10 := (Keeps.ite h8 (State.sat_keeps h8 _ _ _ _))
  clear_value x10
  split
  · exact (State.rollback_keeps h10 _ _)
  · exact h10

theorem State.withdrawAll_keeps (h : Keeps a s) (y2) (y3) : Keeps a (State.withdrawAll s y2 y3) := by
  unfold State.withdrawAll
  extract_lets -underBinder -merge +onlyGivenNames x1
  clear_value x1
  extract_lets -underBinder -merge +onlyGivenNames x2
  have h2 : Keeps a x2 := (State.withdraw_keeps h _)
  clear_value x2
  extract_lets -underBinder -merge +onlyGivenNames x3
  have h3 : Keeps a x3 := (Keeps.ite (State.recFlag_keeps (State.recFlag_keeps (State.note_keeps (State.marker_keeps h2 _ _ _ _ _) _ _ _ _ _) _) _) h2)
  clear_value x3
  extract_lets -underBinder -merge +onlyGivenNames x4
  clear_value x4
  extract_lets -underBinder -merge +onlyGivenNames x5
  clear_value x5
  extract_lets -underBinder -merge +onlyGivenNames x6
  have h6 : Keeps a x6 := (State.modGmb_keeps h3 _)
  clear_value x6
  refine State.putB_keeps ?_ _ _ _ _
  refine State.setPaused_keeps ?_ _ _
  exact (Keeps.same h6 rfl rfl rfl rfl rfl rfl rfl)

theorem State.overrun_keeps (h : Keeps a s) (y2) : Keeps a (State.overrun s y2) := by
  unfold State.overrun
  exact (State.pulse_keeps (State.sat_keeps (State.withdrawAll_keeps h _ _) _ _ _ _) _ _)

theorem State.ladderStart_keeps (h : Keeps a s) (y2) : Keeps a (State.ladderStart s y2) := by
  unfold State.ladderStart
  extract_lets -underBinder -merge +onlyGivenNames x1
  clear_value x1
  extract_lets -underBinder -merge +onlyGivenNames x2
  have h2 : Keeps a x2 := (Keeps.same h rfl rfl rfl rfl rfl rfl rfl)
  clear_value x2
  extract_lets -underBinder -merge +onlyGivenNames x3
  have h3 : Keeps a x3 := (State.modGmb_keeps h2 _)
  clear_value x3
  extract_lets -underBinder -merge +onlyGivenNames x4
  clear_value x4
  extract_lets -underBinder -merge +onlyGivenNames x5
  clear_value x5
  extract_lets -underBinder -merge +onlyGivenNames x6
  have h6 : Keeps a x6 := (State.putB_keeps (State.put_keeps h3 _ _ _ _) _ _ _ _)
  clear_value x6
  exact (State.gmbShow_keeps (State.putB_keeps (State.level_keeps h6 _ _ _) _ _ _ _))

theorem State.ladderEnd_keeps (h : Keeps a s) (y2) : Keeps a (State.ladderEnd s y2) := by
  unfold State.ladderEnd
  exact (State.gmbShow_keeps (State.modGmb_keeps h _))

theorem execLadderPly_keeps (h : Keeps a s) (y1) (y2) : KeepsR a (execLadderPly y1 y2 s) := by
  unfold execLadderPly
  extract_lets -underBinder -merge +onlyGivenNames x1
  have h1 : Keeps a x1 := (State.at_keeps h _)
  clear_value x1
  extract_lets -underBinder -merge +onlyGivenNames x2
  clear_value x2
  refine KeepsR.ite ?_ ?_
  · exact (KeepsR.next h1)
  · extract_lets -underBinder -merge +onlyGivenNames x3
    clear_value x3
    extract_lets -underBinder -merge +onlyGivenNames x4
    have h4 : Keeps a x4 := (State.each_keeps h1 fun _ h5 _ => (State.timingPly_keeps (State.countEdges_keeps h5 _ _) _ _ _))
    clear_value x4
    extract_lets -underBinder -merge +onlyGivenNames x6
    clear_value x6
    extract_lets -underBinder -merge +onlyGivenNames x7
    clear_value x7
    refine KeepsR.ite ?_ ?_
    · split
      next x8 x9 e8 =>
        have h8 := KeepsP.out (State.ladderInputs_keeps h4 _) e8
        exact (KeepsR.next h8)
    · extract_lets -underBinder -merge +onlyGivenNames x10
      clear_value x10
      extract_lets -underBinder -merge +onlyGivenNames x11
      have h11 : Keeps a x11 := (Keeps.ite (State.overrun_keeps h4 _) h4)
      clear_value x11
      extract_lets -underBinder -merge +onlyGivenNames x12
      clear_value x12
      extract_lets -underBinder -merge +onlyGivenNames x13
      have h13 : Keeps a x13 := (Keeps.ite (State.modGmb_keeps h11 _) h11)
      clear_value x13
      extract_lets -underBinder -merge +onlyGivenNames x14
      clear_value x14
      extract_lets -underBinder -merge +onlyGivenNames x15
      have h15 : Keeps a x15 := (Keeps.ite (Keeps.same h13 rfl rfl rfl rfl rfl rfl rfl) h13)
      clear_value x15
      split
      next x16 x17 e16 =>
        have h16 := KeepsP.out (State.ladderInputs_keeps h15 _) e16
        extract_lets -underBinder -merge +onlyGivenNames x18
        clear_value x18
        extract_lets -underBinder -merge +onlyGivenNames x19
        have h19 : Keeps a x19 := (State.put64_keeps h16 _ _ _ _ _)
        clear_value x19
        extract_lets -underBinder -merge +onlyGivenNames x20
        have h20 : Keeps a x20 := (State.histStore_keeps (State.modGmb_keeps h19 _) _)
        clear_value x20
        extract_lets -underBinder -merge +onlyGivenNames x21
        have h21 : Keeps a x21 := (State.evalMany_keeps h20 _)
        clear_value x21
        extract_lets -underBinder -merge +onlyGivenNames x22
        have h22 : Keeps a x22 := (Keeps.ite (State.sat_keeps h21 _ _ _ _) h21)
        clear_value x22
        exact (KeepsR.next (State.settleTrigger_keeps (State.chooseTrigger_keeps (State.advanceCommit_keeps h22))))

theorem execLateBitKnown_keeps (h : Keeps a s) (y1) (y2) (y3) : KeepsR a (execLateBitKnown y1 y2 y3 s) := by
  unfold execLateBitKnown
  extract_lets -underBinder -merge +onlyGivenNames x1
  have h1 : Keeps a x1 := (State.at_keeps h _)
  clear_value x1
  extract_lets -underBinder -merge +onlyGivenNames x2
  clear_value x2
  exact (KeepsR.next (Keeps.ite (State.advanceCommit_keeps (State.learn_keeps h1 _)) h1))

theorem execReplayCatchUp_keeps (h : Keeps a s) (y1) : KeepsR a (execReplayCatchUp y1 s) := by
  unfold execReplayCatchUp
  extract_lets -underBinder -merge +onlyGivenNames x1
  have h1 : Keeps a x1 := (State.at_keeps h _)
  clear_value x1
  exact (KeepsR.next (Keeps.ite (State.gmbShow_keeps (State.putB_keeps h1 _ _ _ _)) h1))

theorem execLadderOverrun_keeps (h : Keeps a s) (y1) : KeepsR a (execLadderOverrun y1 s) := by
  unfold execLadderOverrun
  extract_lets -underBinder -merge +onlyGivenNames x1
  have h1 : Keeps a x1 := (State.at_keeps h _)
  clear_value x1
  extract_lets -underBinder -merge +onlyGivenNames x2
  clear_value x2
  exact (KeepsR.next (Keeps.ite (State.settleArmed_keeps (State.gmbShow_keeps (State.overrun_keeps h1 _))) h1))

theorem execSettleTimeout_keeps (h : Keeps a s) (y1) : KeepsR a (execSettleTimeout y1 s) := by
  unfold execSettleTimeout
  extract_lets -underBinder -merge +onlyGivenNames x1
  have h1 : Keeps a x1 := (State.at_keeps h _)
  clear_value x1
  split
  · exact (KeepsR.next (Keeps.ite (State.settleArmed_keeps (State.gmbShow_keeps (State.withdrawAll_keeps h1 _ _))) h1))
  · exact (KeepsR.next h1)

theorem execTldTcSnapSel_keeps (h : Keeps a s) (y1) (y2) : KeepsR a (execTldTcSnapSel y1 y2 s) := by
  unfold execTldTcSnapSel
  extract_lets -underBinder -merge +onlyGivenNames x1
  have h1 : Keeps a x1 := (State.at_keeps h _)
  clear_value x1
  extract_lets -underBinder -merge +onlyGivenNames x2
  clear_value x2
  extract_lets -underBinder -merge +onlyGivenNames x3
  clear_value x3
  extract_lets -underBinder -merge +onlyGivenNames x4
  clear_value x4
  extract_lets -underBinder -merge +onlyGivenNames x5
  clear_value x5
  exact (KeepsR.next (State.put_keeps h1 _ _ _ _))

theorem execGmbClr_keeps (h : Keeps a s) (y1) : KeepsR a (execGmbClr y1 s) := by
  unfold execGmbClr
  exact (KeepsR.next (Keeps.ite (State.clearAll_keeps h _ _) h))

theorem State.gmbCopied_keeps (h : Keeps a s) : Keeps a (State.gmbCopied s) := by
  unfold State.gmbCopied
  exact (State.put_keeps h _ _ _ _)

end Sys2Proof.Machine
end

