-- ==== Sys2Proof/Laws/KeepsRfq.lean ====
section
/-!
SUPPORT. What the operations of Machine/Rfq.lean keep (see Laws/Keeps.lean).
-/
namespace Sys2Proof.Machine
variable {a s : State}

theorem State.rfqState_keeps (h : Keeps a s) : Keeps a (State.rfqState s) := by
  unfold State.rfqState
  exact (State.setBlockState_keeps h _ _)

theorem execChunkAgeClose_keeps (h : Keeps a s) (y1) (y2) : KeepsR a (execChunkAgeClose y1 y2 s) := by
  unfold execChunkAgeClose
  extract_lets -underBinder -merge +onlyGivenNames x1
  have h1 : Keeps a x1 := (State.at_keeps h _)
  clear_value x1
  split
  · exact (KeepsR.next h1)
  · exact (KeepsR.next (Keeps.ite (State.closeChunk_keeps (State.sat_keeps h1 _ _ _ _) _ _) h1))

theorem execChunkClose_keeps (h : Keeps a s) (y1) (y2) : KeepsR a (execChunkClose y1 y2 s) := by
  unfold execChunkClose
  extract_lets -underBinder -merge +onlyGivenNames x1
  have h1 : Keeps a x1 := (State.at_keeps h _)
  clear_value x1
  split
  · exact (KeepsR.next h1)
  · split
    · exact (KeepsR.next h1)
    · exact (KeepsR.next (Keeps.ite (State.closeChunk_keeps h1 _ _) h1))

theorem State.drainStaging_keeps (h : Keeps a s) (y2) : Keeps a (State.drainStaging s y2) := by
  unfold State.drainStaging
  extract_lets -underBinder -merge +onlyGivenNames x1
  clear_value x1
  extract_lets -underBinder -merge +onlyGivenNames x2
  have h2 : Keeps a x2 := (State.setStall_keeps (State.modStream_keeps h _ _) _ _)
  clear_value x2
  exact (State.refreshRfq_keeps (Keeps.fold h2 fun _ h3 _ => (State.appendItem_keeps h3 _ _)) _)

theorem execBankFree_keeps (h : Keeps a s) (y1) (y2) (y3) : KeepsR a (execBankFree y1 y2 y3 s) := by
  unfold execBankFree
  extract_lets -underBinder -merge +onlyGivenNames x1
  have h1 : Keeps a x1 := (State.at_keeps h _)
  clear_value x1
  extract_lets -underBinder -merge +onlyGivenNames x2
  clear_value x2
  split
  · exact (KeepsR.next h1)
  · refine KeepsR.ite ?_ ?_
    · exact (KeepsR.next h1)
    · split
      next x5 x6 e5 =>
        have h5 := KeepsP.out (State.ringWrite_keeps h1 _ _) e5
        exact (KeepsR.ite (KeepsR.next h5) (KeepsR.next (State.drainStaging_keeps (State.modStream_keeps h5 _ _) _)))

theorem State.discardOpen_keeps (h : Keeps a s) (y2) : KeepsP a (State.discardOpen s y2) := by
  unfold State.discardOpen
  split
  · exact (KeepsP.mk h)
  · extract_lets -underBinder -merge +onlyGivenNames x3
    clear_value x3
    extract_lets -underBinder -merge +onlyGivenNames x4
    clear_value x4
    extract_lets -underBinder -merge +onlyGivenNames x5
    have h5 : Keeps a x5 := (State.sat_keeps h _ _ _ _)
    clear_value x5
    extract_lets -underBinder -merge +onlyGivenNames x6
    have h6 : Keeps a x6 := (State.modStream_keeps h5 _ _)
    clear_value x6
    extract_lets -underBinder -merge +onlyGivenNames x7
    have h7 : Keeps a x7 := (State.openChunk_keeps h6 _ _)
    clear_value x7
    extract_lets -underBinder -merge +onlyGivenNames x8
    have h8 : Keeps a x8 := (Keeps.ite h6 (State.modStream_keeps h7 _ _))
    clear_value x8
    exact (KeepsP.mk h8)

theorem State.discardBank_keeps (h : Keeps a s) (y2) (y3) : KeepsP a (State.discardBank s y2 y3) := by
  unfold State.discardBank
  split
  · exact (KeepsP.mk (State.sat_keeps (State.modStream_keeps h _ _) _ _ _ _))
  · exact (KeepsP.mk h)

theorem State.flushStream_keeps (h : Keeps a s) (y2) (y3) : Keeps a (State.flushStream s y2 y3) := by
  unfold State.flushStream
  split
  next x1 x2 e1 =>
    have h1 := KeepsP.out (State.discardOpen_keeps h _) e1
    split
    next x3 x4 e3 =>
      have h3 := KeepsP.out (KeepsP.ite (State.discardBank_keeps h1 _ _) (KeepsP.mk h1)) e3
      split
      next x5 x6 e5 =>
        have h5 := KeepsP.out (KeepsP.ite (State.discardBank_keeps h3 _ _) (KeepsP.mk h3)) e5
        extract_lets -underBinder -merge +onlyGivenNames x7
        clear_value x7
        extract_lets -underBinder -merge +onlyGivenNames x8
        have h8 : Keeps a x8 := (State.modStream_keeps h5 _ _)
        clear_value x8
        extract_lets -underBinder -merge +onlyGivenNames x9
        have h9 : Keeps a x9 := (State.put_keeps h8 _ _ _ _)
        clear_value x9
        exact (State.drainStaging_keeps h9 _)

theorem execRfqFlush_keeps (h : Keeps a s) (y1) (y2) : KeepsR a (execRfqFlush y1 y2 s) := by
  unfold execRfqFlush
  extract_lets -underBinder -merge +onlyGivenNames x1
  have h1 : Keeps a x1 := (State.at_keeps h _)
  clear_value x1
  extract_lets -underBinder -merge +onlyGivenNames x2
  clear_value x2
  refine KeepsR.ite ?_ ?_
  · exact (KeepsR.next h1)
  · extract_lets -underBinder -merge +onlyGivenNames x3
    have h3 : Keeps a x3 := (State.each_keeps h1 fun _ h4 _ => (State.flushStream_keeps h4 _ _))
    clear_value x3
    exact (KeepsR.next (State.rfqState_keeps (State.putB_keeps h3 _ _ _ _)))

theorem State.flushGapMark_keeps (h : Keeps a s) (y2) (y3) (y4) : Keeps a (State.flushGapMark s y2 y3 y4) := by
  unfold State.flushGapMark
  extract_lets -underBinder -merge +onlyGivenNames x1
  clear_value x1
  extract_lets -underBinder -merge +onlyGivenNames x2
  have h2 : Keeps a x2 := (State.recFlag_keeps (State.marker_keeps h _ _ _ _ _) _)
  clear_value x2
  extract_lets -underBinder -merge +onlyGivenNames x3
  have h3 : Keeps a x3 := (State.note_keeps h2 _ _ _ _ _)
  clear_value x3
  exact (Keeps.ite (State.modStream_keeps h3 _ _) (State.inband_keeps h3 _ _ _ _ _))

theorem execFlushDone_keeps (h : Keeps a s) (y1) : KeepsR a (execFlushDone y1 s) := by
  unfold execFlushDone
  extract_lets -underBinder -merge +onlyGivenNames x1
  have h1 : Keeps a x1 := (State.at_keeps h _)
  clear_value x1
  extract_lets -underBinder -merge +onlyGivenNames x2
  clear_value x2
  extract_lets -underBinder -merge +onlyGivenNames x3
  clear_value x3
  refine KeepsR.ite ?_ ?_
  · exact (KeepsR.next h1)
  · extract_lets -underBinder -merge +onlyGivenNames x4
    have h4 : Keeps a x4 := by
      subst x4
      refine State.each_keeps h1 fun _ h7 _ => ?_
      · extract_lets -underBinder -merge +onlyGivenNames x8
        clear_value x8
        extract_lets -underBinder -merge +onlyGivenNames x9
        clear_value x9
        exact (State.each_keeps (State.modStream_keeps h7 _ _) fun _ h10 _ => (State.flushGapMark_keeps h10 _ _ _))
    clear_value x4
    extract_lets -underBinder -merge +onlyGivenNames x11
    have h11 : Keeps a x11 := (State.putB_keeps (State.put_keeps h4 _ _ _ _) _ _ _ _)
    clear_value x11
    exact (KeepsR.next (State.rfqState_keeps (State.pulse_keeps h11 _ _)))

theorem execRfqClr_keeps (h : Keeps a s) (y1) : KeepsR a (execRfqClr y1 s) := by
  unfold execRfqClr
  exact (KeepsR.next (Keeps.ite (State.clearAll_keeps h _ _) h))

end Sys2Proof.Machine
end

