-- ==== Sys2Proof/Laws/KeepsCmp.lean ====
section
/-!
SUPPORT. What the operations of Machine/Cmp.lean keep (see Laws/Keeps.lean).
-/
namespace Sys2Proof.Machine
variable {a s : State}

theorem execBlockVerify_keeps (h : Keeps a s) (y1) (y2) (y3) (y4) : KeepsR a (execBlockVerify y1 y2 y3 y4 s) := by
  unfold execBlockVerify
  extract_lets -underBinder -merge +onlyGivenNames x1
  have h1 : Keeps a x1 := (State.at_keeps h _)
  clear_value x1
  split
  · exact (KeepsR.next h1)
  · exact (KeepsR.next (Keeps.ite (State.cmpShow_keeps (State.runPath_keeps h1 _ _ _ _ _ _)) h1))

theorem execCmpClr_keeps (h : Keeps a s) (y1) : KeepsR a (execCmpClr y1 s) := by
  unfold execCmpClr
  exact (KeepsR.next (Keeps.ite (State.clearAll_keeps h _ _) h))

theorem execDcpClr_keeps (h : Keeps a s) (y1) : KeepsR a (execDcpClr y1 s) := by
  unfold execDcpClr
  exact (KeepsR.next (Keeps.ite (State.clearAll_keeps h _ _) h))

end Sys2Proof.Machine
end

