-- ==== Sys2Proof/Laws/KeepsMem.lean ====
section
/-!
SUPPORT. What the operations of Machine/Mem.lean keep (see Laws/Keeps.lean).
-/
namespace Sys2Proof.Machine
variable {a s : State}

theorem State.modHost_keeps (h : Keeps a s) (y2) : Keeps a (State.modHost s y2) := by
  unfold State.modHost
  exact (Keeps.same h rfl rfl rfl rfl rfl rfl rfl)

theorem State.modOp_keeps (h : Keeps a s) (y2) (y3) : Keeps a (State.modOp s y2 y3) := by
  unfold State.modOp
  exact (State.modHost_keeps h _)

theorem State.scrCorrected_keeps (h : Keeps a s) (y2) : Keeps a (State.scrCorrected s y2) := by
  unfold State.scrCorrected
  exact (State.pulse_keeps (State.setReg_keeps (State.sat_keeps h _ _ _ _) _ _ _) _ _)

theorem State.scrUncorrectable_keeps (h : Keeps a s) (y2) : Keeps a (State.scrUncorrectable s y2) := by
  unfold State.scrUncorrectable
  exact (State.raiseFault_keeps (State.pulse_keeps (State.setReg_keeps (State.sat_keeps h _ _ _ _) _ _ _) _ _) _)

theorem State.marShow_keeps (h : Keeps a s) : Keeps a (State.marShow s) := by
  unfold State.marShow
  extract_lets -underBinder -merge +onlyGivenNames x1
  clear_value x1
  extract_lets -underBinder -merge +onlyGivenNames x2
  clear_value x2
  extract_lets -underBinder -merge +onlyGivenNames x3
  have h3 : Keeps a x3 := (State.setReg_keeps h _ _ _)
  clear_value x3
  exact (State.setBlockState_keeps h3 _ _)

theorem State.modMar_keeps (h : Keeps a s) (y2) : Keeps a (State.modMar s y2) := by
  unfold State.modMar
  exact (Keeps.same h rfl rfl rfl rfl rfl rfl rfl)

theorem State.yieldTile_keeps (h : Keeps a s) (y2) (y3) : Keeps a (State.yieldTile s y2 y3) := by
  unfold State.yieldTile
  extract_lets -underBinder -merge +onlyGivenNames x1
  clear_value x1
  extract_lets -underBinder -merge +onlyGivenNames x2
  clear_value x2
  extract_lets -underBinder -merge +onlyGivenNames x3
  have h3 : Keeps a x3 := (State.modMar_keeps h _)
  clear_value x3
  extract_lets -underBinder -merge +onlyGivenNames x4
  have h4 : Keeps a x4 := (State.sat_keeps (State.sat_keeps h3 _ _ _ _) _ _ _ _)
  clear_value x4
  exact (State.marShow_keeps (State.pulse_keeps h4 _ _))

theorem State.refuseAccess_keeps (h : Keeps a s) : Keeps a (State.refuseAccess s) := by
  unfold State.refuseAccess
  exact (State.pulse_keeps (State.sat_keeps h _ _ _ _) _ _)

theorem State.meetTest_keeps (h : Keeps a s) (y2) (y3) : KeepsP a (State.meetTest s y2 y3) := by
  unfold State.meetTest
  split
  · exact (KeepsP.ite (KeepsP.mk h) (KeepsP.ite (KeepsP.mk (State.refuseAccess_keeps h)) (KeepsP.mk (State.yieldTile_keeps h _ _))))
  · exact (KeepsP.mk h)

theorem execLendCollision_keeps (h : Keeps a s) (y1) (y2) (y3) : KeepsR a (execLendCollision y1 y2 y3 s) := by
  unfold execLendCollision
  extract_lets -underBinder -merge +onlyGivenNames x1
  have h1 : Keeps a x1 := (State.at_keeps h _)
  clear_value x1
  split
  · exact (KeepsR.next (Keeps.ite (State.yieldTile_keeps h1 _ _) h1))
  · exact (KeepsR.next h1)

theorem execTestCollide_keeps (h : Keeps a s) (y1) (y2) (y3) (y4) (y5) : KeepsR a (execTestCollide y1 y2 y3 y4 y5 s) := by
  unfold execTestCollide
  extract_lets -underBinder -merge +onlyGivenNames x1
  have h1 : Keeps a x1 := (State.at_keeps h _)
  clear_value x1
  split
  · refine KeepsR.ite ?_ ?_
    · exact (KeepsR.next h1)
    · extract_lets -underBinder -merge +onlyGivenNames x3
      have h3 : Keeps a x3 := (State.refuseAccess_keeps h1)
      clear_value x3
      extract_lets -underBinder -merge +onlyGivenNames x4
      have h4 : Keeps a x4 := (Keeps.ite (State.emit_keeps h3 _) h3)
      clear_value x4
      split
      · exact (KeepsR.next (State.modOp_keeps h4 _ _))
      · exact (KeepsR.next h4)
  · exact (KeepsR.next h1)

theorem State.hostScrWrite_keeps (h : Keeps a s) (y2) (y3) (y4) (y5) (y6) : Keeps a (State.hostScrWrite s y2 y3 y4 y5 y6) := by
  unfold State.hostScrWrite
  refine Keeps.ite ?_ ?_
  · exact (State.pulse_keeps (State.sat_keeps h _ _ _ _) _ _)
  · split
    next x1 x2 e1 =>
      have h1 := KeepsP.out (State.meetTest_keeps h _ _) e1
      refine Keeps.ite ?_ ?_
      · exact h1
      · extract_lets -underBinder -merge +onlyGivenNames x3
        have h3 : Keeps a x3 := (State.sat_keeps h1 _ _ _ _)
        clear_value x3
        extract_lets -underBinder -merge +onlyGivenNames x4
        have h4 : Keeps a x4 := (Keeps.ite (State.scrCorrected_keeps h3 _) h3)
        clear_value x4
        exact (Keeps.ite (State.scrUncorrectable_keeps h4 _) (Keeps.ite (State.pulse_keeps (State.sat_keeps h4 _ _ _ _) _ _) (State.scrWrite_keeps h4 _ _)))

theorem State.poisonedRx_keeps (h : Keeps a s) : Keeps a (State.poisonedRx s) := by
  unfold State.poisonedRx
  exact (State.sat_keeps h _ _ _ _)

theorem execBar2Write_keeps (h : Keeps a s) (y1) (y2) (y3) (y4) (y5) : KeepsR a (execBar2Write y1 y2 y3 y4 y5 s) := by
  unfold execBar2Write
  extract_lets -underBinder -merge +onlyGivenNames x1
  have h1 : Keeps a x1 := (State.at_keeps h _)
  clear_value x1
  refine KeepsR.ite ?_ ?_
  · exact KeepsR.fault
  · refine KeepsR.ite ?_ ?_
    · exact (KeepsR.next h1)
    · refine KeepsR.ite ?_ ?_
      · exact (KeepsR.next (State.poisonedRx_keeps h1))
      · split
        · exact (KeepsR.next h1)
        · exact (KeepsR.next (Keeps.ite h1 (State.hostScrWrite_keeps h1 _ _ _ _ _)))

theorem execBar2AliasWrite_keeps (h : Keeps a s) (y1) (y2) (y3) (y4) (y5) : KeepsR a (execBar2AliasWrite y1 y2 y3 y4 y5 s) := by
  unfold execBar2AliasWrite
  extract_lets -underBinder -merge +onlyGivenNames x1
  have h1 : Keeps a x1 := (State.at_keeps h _)
  clear_value x1
  refine KeepsR.ite ?_ ?_
  · exact KeepsR.fault
  · refine KeepsR.ite ?_ ?_
    · exact (KeepsR.next h1)
    · refine KeepsR.ite ?_ ?_
      · exact (KeepsR.next (State.poisonedRx_keeps h1))
      · split
        · exact (KeepsR.next h1)
        · exact (KeepsR.next (Keeps.ite h1 (State.hostScrWrite_keeps h1 _ _ _ _ _)))

theorem execBar4Write_keeps (h : Keeps a s) (y1) (y2) (y3) (y4) : KeepsR a (execBar4Write y1 y2 y3 y4 s) := by
  unfold execBar4Write
  extract_lets -underBinder -merge +onlyGivenNames x1
  have h1 : Keeps a x1 := (State.at_keeps h _)
  clear_value x1
  extract_lets -underBinder -merge +onlyGivenNames x2
  clear_value x2
  refine KeepsR.ite ?_ ?_
  · exact (KeepsR.next h1)
  · refine KeepsR.ite ?_ ?_
    · exact (KeepsR.next (State.poisonedRx_keeps h1))
    · extract_lets -underBinder -merge +onlyGivenNames x3
      clear_value x3
      extract_lets -underBinder -merge +onlyGivenNames x4
      clear_value x4
      extract_lets -underBinder -merge +onlyGivenNames x5
      have h5 : Keeps a x5 := (State.each_keeps h1 fun _ h6 _ => (State.dmWrite_keeps h6 _ _))
      clear_value x5
      exact (KeepsR.next (Keeps.ite (State.pulse_keeps (State.sat_keeps h5 _ _ _ _) _ _) h5))

theorem execBarMemoryRead_keeps (h : Keeps a s) (y1) (y2) (y3) (y4) (y5) (y6) : KeepsR a (execBarMemoryRead y1 y2 y3 y4 y5 y6 s) := by
  unfold execBarMemoryRead
  extract_lets -underBinder -merge +onlyGivenNames x1
  have h1 : Keeps a x1 := (State.at_keeps h _)
  clear_value x1
  extract_lets -underBinder -merge +onlyGivenNames x2
  clear_value x2
  refine KeepsR.ite ?_ ?_
  · exact (KeepsR.next h1)
  · refine KeepsR.ite ?_ ?_
    · extract_lets -underBinder -merge +onlyGivenNames x3
      clear_value x3
      refine KeepsR.ite ?_ ?_
      · exact (KeepsR.next (State.emit_keeps h1 _))
      · extract_lets -underBinder -merge +onlyGivenNames x4
        clear_value x4
        extract_lets -underBinder -merge +onlyGivenNames x5
        have h5 : Keeps a x5 := (State.each_keeps h1 fun _ h6 _ => (State.dmCorrected_keeps h6 _))
        clear_value x5
        exact (KeepsR.ite (KeepsR.next (State.emit_keeps h5 _)) (KeepsR.next (State.emit_keeps (State.sat_keeps (State.each_keeps h5 fun _ h7 _ => (State.dmUncorrectable_keeps h7 _)) _ _ _ _) _)))
    · extract_lets -underBinder -merge +onlyGivenNames x8
      clear_value x8
      split
      · exact (KeepsR.next (State.emit_keeps h1 _))
      · refine KeepsR.ite ?_ ?_
        · exact (KeepsR.next (State.emit_keeps h1 _))
        · extract_lets -underBinder -merge +onlyGivenNames x11
          clear_value x11
          split
          next x12 x13 e12 =>
            have h12 := KeepsP.out (State.meetTest_keeps h1 _ _) e12
            refine KeepsR.ite ?_ ?_
            · exact (KeepsR.next (State.emit_keeps h12 _))
            · extract_lets -underBinder -merge +onlyGivenNames x14
              clear_value x14
              extract_lets -underBinder -merge +onlyGivenNames x15
              have h15 : Keeps a x15 := (State.each_keeps h12 fun _ h16 _ => (State.scrCorrected_keeps h16 _))
              clear_value x15
              exact (KeepsR.ite (KeepsR.next (State.emit_keeps h15 _)) (KeepsR.next (State.emit_keeps (State.sat_keeps (State.each_keeps h15 fun _ h17 _ => (State.scrUncorrectable_keeps h17 _)) _ _ _ _) _)))

theorem execScratchSweep_keeps (h : Keeps a s) (y1) (y2) : KeepsR a (execScratchSweep y1 y2 s) := by
  unfold execScratchSweep
  extract_lets -underBinder -merge +onlyGivenNames x1
  have h1 : Keeps a x1 := (State.at_keeps h _)
  clear_value x1
  refine KeepsR.ite ?_ ?_
  · exact (KeepsR.next h1)
  · extract_lets -underBinder -merge +onlyGivenNames x2
    clear_value x2
    split
    next x3 x4 e3 =>
      have h3 := KeepsP.out (State.meetTest_keeps h1 _ _) e3
      extract_lets -underBinder -merge +onlyGivenNames x5
      have h5 : Keeps a x5 := by
        subst x5
        split
        · exact (Keeps.ite h3 (Keeps.ite (State.scrUncorrectable_keeps h3 _) (State.scrCorrected_keeps h3 _)))
        · exact h3
      clear_value x5
      extract_lets -underBinder -merge +onlyGivenNames x8
      clear_value x8
      extract_lets -underBinder -merge +onlyGivenNames x9
      have h9 : Keeps a x9 := (State.modMar_keeps h5 _)
      clear_value x9
      exact (KeepsR.next (State.setBlockState_keeps (State.setReg_keeps h9 _ _ _) _ _))

theorem execDmScrub_keeps (h : Keeps a s) (y1) (y2) (y3) : KeepsR a (execDmScrub y1 y2 y3 s) := by
  unfold execDmScrub
  extract_lets -underBinder -merge +onlyGivenNames x1
  have h1 : Keeps a x1 := (State.at_keeps h _)
  clear_value x1
  refine KeepsR.ite ?_ ?_
  · exact (KeepsR.next (Keeps.ite (State.setBlockState_keeps h1 _ _) h1))
  · extract_lets -underBinder -merge +onlyGivenNames x2
    clear_value x2
    extract_lets -underBinder -merge +onlyGivenNames x3
    have h3 : Keeps a x3 := (State.setBlockState_keeps h1 _ _)
    clear_value x3
    extract_lets -underBinder -merge +onlyGivenNames x4
    have h4 : Keeps a x4 := by
      subst x4
      split
      · exact (Keeps.ite (State.dmUncorrectable_keeps h3 _) (State.dmCorrected_keeps h3 _))
      · exact h3
    clear_value x4
    exact (KeepsR.ite (KeepsR.next h4) (KeepsR.ite (KeepsR.next (State.put_keeps h4 _ _ _ _)) (KeepsR.next (State.pulse_keeps (State.wrap_keeps (State.put_keeps h4 _ _ _ _) _ _ _ _) _ _))))

theorem State.fillTile_keeps (h : Keeps a s) (y2) (y3) : Keeps a (State.fillTile s y2 y3) := by
  unfold State.fillTile
  extract_lets -underBinder -merge +onlyGivenNames x1
  clear_value x1
  exact (State.each_keeps h fun _ h2 _ => (State.scrWrite_keeps h2 _ _))

theorem State.borrow_keeps (h : Keeps a s) (y2) : Keeps a (State.borrow s y2) := by
  unfold State.borrow
  exact (State.marShow_keeps (State.modMar_keeps h _))

theorem execRotationTile_keeps (h : Keeps a s) (y1) : KeepsR a (execRotationTile y1 s) := by
  unfold execRotationTile
  extract_lets -underBinder -merge +onlyGivenNames x1
  have h1 : Keeps a x1 := (State.at_keeps h _)
  clear_value x1
  extract_lets -underBinder -merge +onlyGivenNames x2
  clear_value x2
  extract_lets -underBinder -merge +onlyGivenNames x3
  clear_value x3
  refine KeepsR.ite ?_ ?_
  · exact (KeepsR.next h1)
  · extract_lets -underBinder -merge +onlyGivenNames x4
    clear_value x4
    extract_lets -underBinder -merge +onlyGivenNames x5
    have h5 : Keeps a x5 := (State.modMar_keeps h1 _)
    clear_value x5
    split
    · extract_lets -underBinder -merge +onlyGivenNames x7
      have h7 : Keeps a x7 := (State.modMar_keeps h5 _)
      clear_value x7
      exact (KeepsR.next (Keeps.ite h7 (State.borrow_keeps h7 _)))
    · split
      · exact (KeepsR.next h5)
      · extract_lets -underBinder -merge +onlyGivenNames x12
        have h12 : Keeps a x12 := (State.put_keeps h5 _ _ _ _)
        clear_value x12
        extract_lets -underBinder -merge +onlyGivenNames x13
        have h13 : Keeps a x13 := (Keeps.ite (State.pulse_keeps (State.wrap_keeps h12 _ _ _ _) _ _) h12)
        clear_value x13
        exact (KeepsR.next (State.borrow_keeps h13 _))

theorem State.repairRow_keeps (h : Keeps a s) (y2) : Keeps a (State.repairRow s y2) := by
  unfold State.repairRow
  extract_lets -underBinder -merge +onlyGivenNames x1
  clear_value x1
  extract_lets -underBinder -merge +onlyGivenNames x2
  clear_value x2
  refine Keeps.ite ?_ ?_
  · extract_lets -underBinder -merge +onlyGivenNames x3
    have h3 : Keeps a x3 := (State.modMar_keeps h _)
    clear_value x3
    extract_lets -underBinder -merge +onlyGivenNames x4
    have h4 : Keeps a x4 := (State.put_keeps h3 _ _ _ _)
    clear_value x4
    extract_lets -underBinder -merge +onlyGivenNames x5
    have h5 : Keeps a x5 := (State.put_keeps h4 _ _ _ _)
    clear_value x5
    exact (State.put_keeps h5 _ _ _ _)
  · exact (State.raiseFault_keeps (State.pulse_keeps (State.sat_keeps h _ _ _ _) _ _) _)

theorem State.marchFail_keeps (h : Keeps a s) (y2) (y3) : Keeps a (State.marchFail s y2 y3) := by
  unfold State.marchFail
  extract_lets -underBinder -merge +onlyGivenNames x1
  have h1 : Keeps a x1 := (State.put_keeps (State.sat_keeps h _ _ _ _) _ _ _ _)
  clear_value x1
  exact (State.pulse_keeps (State.put64_keeps h1 _ _ _ _ _) _ _)

theorem State.marchNext_keeps (h : Keeps a s) (y2) : Keeps a (State.marchNext s y2) := by
  unfold State.marchNext
  split
  · exact (State.modOp_keeps h _ _)
  · exact h

theorem execMarchStitch_keeps (h : Keeps a s) (y1) (y2) (y3) : KeepsR a (execMarchStitch y1 y2 y3 s) := by
  unfold execMarchStitch
  extract_lets -underBinder -merge +onlyGivenNames x1
  have h1 : Keeps a x1 := (State.at_keeps h _)
  clear_value x1
  split
  · exact (KeepsR.next h1)
  · extract_lets -underBinder -merge +onlyGivenNames x4
    clear_value x4
    extract_lets -underBinder -merge +onlyGivenNames x5
    have h5 : Keeps a x5 := (State.each_keeps h1 fun _ h6 _ => (State.marchFail_keeps h6 _ _))
    clear_value x5
    extract_lets -underBinder -merge +onlyGivenNames x7
    have h7 : Keeps a x7 := (Keeps.ite h5 (State.each_keeps h5 fun _ h8 _ => (State.repairRow_keeps h8 _)))
    clear_value x7
    extract_lets -underBinder -merge +onlyGivenNames x9
    clear_value x9
    extract_lets -underBinder -merge +onlyGivenNames x10
    have h10 : Keeps a x10 := by
      subst x10
      split
      · exact (State.modOp_keeps h7 _ _)
      · exact h7
    clear_value x10
    refine KeepsR.ite ?_ ?_
    · extract_lets -underBinder -merge +onlyGivenNames x13
      have h13 : Keeps a x13 := (Keeps.ite (State.fillTile_keeps h10 _ _) h10)
      clear_value x13
      extract_lets -underBinder -merge +onlyGivenNames x14
      have h14 : Keeps a x14 := by
        subst x14
        split
        · exact (State.modOp_keeps h13 _ _)
        · exact h13
      clear_value x14
      exact (KeepsR.next (State.marShow_keeps (State.modMar_keeps h14 _)))
    · refine KeepsR.ite ?_ ?_
      · extract_lets -underBinder -merge +onlyGivenNames x17
        have h17 : Keeps a x17 := (State.wrap_keeps h10 _ _ _ _)
        clear_value x17
        extract_lets -underBinder -merge +onlyGivenNames x18
        have h18 : Keeps a x18 := (Keeps.ite (State.fillTile_keeps h17 _ _) h17)
        clear_value x18
        exact (KeepsR.next (State.marShow_keeps (State.marchNext_keeps (State.modMar_keeps h18 _) _)))
      · exact (KeepsR.next (State.modMar_keeps h10 _))

theorem execYieldRetry_keeps (h : Keeps a s) (y1) : KeepsR a (execYieldRetry y1 s) := by
  unfold execYieldRetry
  extract_lets -underBinder -merge +onlyGivenNames x1
  have h1 : Keeps a x1 := (State.at_keeps h _)
  clear_value x1
  split
  · refine KeepsR.ite ?_ ?_
    · exact (KeepsR.next h1)
    · extract_lets -underBinder -merge +onlyGivenNames x5
      have h5 : Keeps a x5 := (State.modMar_keeps h1 _)
      clear_value x5
      split
      · extract_lets -underBinder -merge +onlyGivenNames x7
        clear_value x7
        exact (KeepsR.next (Keeps.ite (State.marShow_keeps h5) (State.borrow_keeps h5 _)))
      · split
        · exact (KeepsR.next (State.marShow_keeps h5))
        · extract_lets -underBinder -merge +onlyGivenNames x11
          clear_value x11
          exact (KeepsR.next (Keeps.ite (State.marShow_keeps (State.modOp_keeps h5 _ _)) (State.borrow_keeps h5 _)))
  · exact (KeepsR.next h1)

theorem State.lendCopied_keeps (h : Keeps a s) : Keeps a (State.lendCopied s) := by
  unfold State.lendCopied
  split
  · exact (Keeps.ite h (State.modMar_keeps h _))
  · exact h

theorem execScrLendSel_keeps (h : Keeps a s) (y1) : KeepsR a (execScrLendSel y1 s) := by
  unfold execScrLendSel
  exact (KeepsR.next (State.put_keeps h _ _ _ _))

theorem execScrClr_keeps (h : Keeps a s) (y1) : KeepsR a (execScrClr y1 s) := by
  unfold execScrClr
  exact (KeepsR.next (Keeps.ite (State.clearAll_keeps h _ _) h))

theorem execMarClr_keeps (h : Keeps a s) (y1) : KeepsR a (execMarClr y1 s) := by
  unfold execMarClr
  exact (KeepsR.next (Keeps.ite (State.clearAll_keeps h _ _) h))

theorem execDmcBadrowSel_keeps (h : Keeps a s) (y1) : KeepsR a (execDmcBadrowSel y1 s) := by
  unfold execDmcBadrowSel
  exact (KeepsR.next (State.showBadRow_keeps (State.modMar_keeps h _)))

theorem execDmcClr_keeps (h : Keeps a s) (y1) : KeepsR a (execDmcClr y1 s) := by
  unfold execDmcClr
  exact (KeepsR.next (Keeps.ite (State.clearAll_keeps h _ _) h))

end Sys2Proof.Machine
end

