-- ==== Sys2Proof/Laws/KeepsStore.lean ====
section
/-!
SUPPORT. What the operations of Machine/Store.lean keep (see Laws/Keeps.lean).
-/
namespace Sys2Proof.Machine
variable {a s : State}

theorem State.issueWrites_keeps (h : Keeps a s) (y2) : Keeps a (State.issueWrites s y2) := by
  unfold State.issueWrites
  extract_lets -underBinder -merge +onlyGivenNames x1
  clear_value x1
  extract_lets -underBinder -merge +onlyGivenNames x2
  clear_value x2
  extract_lets -underBinder -merge +onlyGivenNames x3
  have h3 : Keeps a x3 := (State.each_keeps h fun _ h4 _ => (State.emit_keeps h4 _))
  clear_value x3
  exact (State.modStore_keeps h3 _)

theorem State.openExtent_keeps (h : Keeps a s) (y2) (y3) : KeepsQ a (State.openExtent s y2 y3) := by
  unfold State.openExtent
  extract_lets -underBinder -merge +onlyGivenNames x1
  clear_value x1
  extract_lets -underBinder -merge +onlyGivenNames x2
  clear_value x2
  extract_lets -underBinder -merge +onlyGivenNames x3
  clear_value x3
  extract_lets -underBinder -merge +onlyGivenNames x4
  clear_value x4
  split
  · exact (KeepsQ.mk h)
  · extract_lets -underBinder -merge +onlyGivenNames x8
    clear_value x8
    exact (KeepsQ.mk (State.modStore_keeps h _))

theorem State.placeChunk_keeps (h : Keeps a s) (y2) (y3) (y4) : KeepsQ a (State.placeChunk s y2 y3 y4) := by
  unfold State.placeChunk
  split
  · exact (KeepsQ.mk h)
  · split
    next x3 x4 x5 e5 =>
      have h5 := KeepsQ.out (State.openExtent_keeps h _ _) e5
      exact (KeepsQ.mk h5)
    next x6 e6 =>
      have h6 := KeepsQ.out (State.openExtent_keeps h _ _) e6
      exact (KeepsQ.mk h6)

theorem State.useBlocks_keeps (h : Keeps a s) (y2) (y3) (y4) : Keeps a (State.useBlocks s y2 y3 y4) := by
  unfold State.useBlocks
  exact (State.modStore_keeps h _)

theorem State.ensureJob_keeps (h : Keeps a s) (y2) : Keeps a (State.ensureJob s y2) := by
  unfold State.ensureJob
  refine Keeps.ite ?_ ?_
  · exact h
  · extract_lets -underBinder -merge +onlyGivenNames x1
    clear_value x1
    extract_lets -underBinder -merge +onlyGivenNames x2
    clear_value x2
    extract_lets -underBinder -merge +onlyGivenNames x3
    clear_value x3
    extract_lets -underBinder -merge +onlyGivenNames x4
    clear_value x4
    exact (State.modStore_keeps h _)

theorem State.storeFull_keeps (h : Keeps a s) (y2) : Keeps a (State.storeFull s y2) := by
  unfold State.storeFull
  extract_lets -underBinder -merge +onlyGivenNames x1
  have h1 : Keeps a x1 := (State.pulse_keeps (State.sat_keeps h _ _ _ _) _ _)
  clear_value x1
  extract_lets -underBinder -merge +onlyGivenNames x2
  have h2 : Keeps a x2 := (State.modJob_keeps h1 _ _)
  clear_value x2
  split
  · exact (State.modOp_keeps h2 _ _)
  · extract_lets -underBinder -merge +onlyGivenNames x5
    clear_value x5
    extract_lets -underBinder -merge +onlyGivenNames x6
    clear_value x6
    extract_lets -underBinder -merge +onlyGivenNames x7
    have h7 : Keeps a x7 := (State.modAcq_keeps h2 _)
    clear_value x7
    exact (State.put64_keeps h7 _ _ _ _ _)

theorem execStoTakeChunk_keeps (h : Keeps a s) (y1) (y2) : KeepsR a (execStoTakeChunk y1 y2 s) := by
  unfold execStoTakeChunk
  extract_lets -underBinder -merge +onlyGivenNames x1
  have h1 : Keeps a x1 := (State.at_keeps h _)
  clear_value x1
  extract_lets -underBinder -merge +onlyGivenNames x2
  clear_value x2
  extract_lets -underBinder -merge +onlyGivenNames x3
  have h3 : Keeps a x3 := (State.each_keeps h1 fun _ h4 _ => (State.runPath_keeps h4 _ _ _ _ _ _))
  clear_value x3
  refine KeepsR.ite ?_ ?_
  · exact (KeepsR.next (State.storeShow_keeps h3))
  · split
    · exact (KeepsR.next (State.storeShow_keeps h3))
    · extract_lets -underBinder -merge +onlyGivenNames x7
      clear_value x7
      extract_lets -underBinder -merge +onlyGivenNames x8
      clear_value x8
      extract_lets -underBinder -merge +onlyGivenNames x9
      have h9 : Keeps a x9 := (Keeps.ite (State.ensureJob_keeps h3 _) h3)
      clear_value x9
      extract_lets -underBinder -merge +onlyGivenNames x10
      have h10 : Keeps a x10 := (Keeps.ite (State.modStore_keeps h9 _) h9)
      clear_value x10
      extract_lets -underBinder -merge +onlyGivenNames x11
      have h11 : ∀ u0, Keeps a u0 → Keeps a (x11 u0) := by
        intro u0 k11
        subst x11
        beta_reduce
        exact (State.modThread_keeps k11 _ _)
      clear_value x11
      extract_lets -underBinder -merge +onlyGivenNames x12
      have h12 : ∀ u0, Keeps a u0 → Keeps a (x12 u0) := by
        intro u0 k12
        subst x12
        beta_reduce
        exact (State.storeShow_keeps (State.freePath_keeps (h11 _ k12) _ _))
      clear_value x12
      split
      · exact (KeepsR.next (h12 _ h10))
      · refine KeepsR.ite ?_ ?_
        · exact (KeepsR.next (h12 _ h10))
        · refine KeepsR.ite ?_ ?_
          · exact (KeepsR.next (h12 _ (State.storeFull_keeps h10 _)))
          · split
            next x15 e15 =>
              have h15 := KeepsQ.out (State.placeChunk_keeps h10 _ _ _) e15
              exact (KeepsR.next (h12 _ (State.storeFull_keeps h15 _)))
            next x16 x17 x18 x19 e19 =>
              have h19 := KeepsQ.out (State.placeChunk_keeps h10 _ _ _) e19
              extract_lets -underBinder -merge +onlyGivenNames x20
              clear_value x20
              extract_lets -underBinder -merge +onlyGivenNames x21
              have h21 : Keeps a x21 := (State.modStore_keeps (h11 _ (State.useBlocks_keeps h19 _ _ _)) _)
              clear_value x21
              extract_lets -underBinder -merge +onlyGivenNames x22
              have h22 : Keeps a x22 := (State.modJob_keeps h21 _ _)
              clear_value x22
              exact (KeepsR.next (State.storeShow_keeps (State.issueWrites_keeps h22 _)))

theorem State.modWrite_keeps (h : Keeps a s) (y2) (y3) : Keeps a (State.modWrite s y2 y3) := by
  unfold State.modWrite
  exact (State.modStore_keeps h _)

theorem execNvmeWriteComplete_keeps (h : Keeps a s) (y1) (y2) (y3) : KeepsR a (execNvmeWriteComplete y1 y2 y3 s) := by
  unfold execNvmeWriteComplete
  extract_lets -underBinder -merge +onlyGivenNames x1
  have h1 : Keeps a x1 := (State.at_keeps h _)
  clear_value x1
  split
  · exact (KeepsR.next h1)
  · refine KeepsR.ite ?_ ?_
    · exact (KeepsR.next (State.storeShow_keeps (State.modWrite_keeps h1 _ _)))
    · extract_lets -underBinder -merge +onlyGivenNames x4
      have h4 : Keeps a x4 := (State.modWrite_keeps h1 _ _)
      clear_value x4
      exact (KeepsR.next (State.storeShow_keeps (State.freePath_keeps h4 _ _)))

theorem execNvmeWriteError_keeps (h : Keeps a s) (y1) (y2) (y3) (y4) (y5) : KeepsR a (execNvmeWriteError y1 y2 y3 y4 y5 s) := by
  unfold execNvmeWriteError
  extract_lets -underBinder -merge +onlyGivenNames x1
  have h1 : Keeps a x1 := (State.at_keeps h _)
  clear_value x1
  split
  · exact (KeepsR.next h1)
  · extract_lets -underBinder -merge +onlyGivenNames x4
    have h4 : Keeps a x4 := (State.pulse_keeps (State.sat_keeps h1 _ _ _ _) _ _)
    clear_value x4
    extract_lets -underBinder -merge +onlyGivenNames x5
    have h5 : Keeps a x5 := (Keeps.ite (State.pulse_keeps (State.sat_keeps h1 _ _ _ _) _ _) (State.setReg_keeps h4 _ _ _))
    clear_value x5
    refine KeepsR.ite ?_ ?_
    · extract_lets -underBinder -merge +onlyGivenNames x6
      clear_value x6
      exact (KeepsR.next (State.storeShow_keeps (State.issueWrites_keeps (State.modWrite_keeps h5 _ _) _)))
    · extract_lets -underBinder -merge +onlyGivenNames x7
      have h7 : Keeps a x7 := (State.pulse_keeps (State.sat_keeps h5 _ _ _ _) _ _)
      clear_value x7
      extract_lets -underBinder -merge +onlyGivenNames x8
      have h8 : Keeps a x8 := (State.modStore_keeps h7 _)
      clear_value x8
      split
      · exact (KeepsR.next (State.storeShow_keeps h8))
      · split
        next x11 e11 =>
          have h11 := KeepsQ.out (State.openExtent_keeps h8 _ _) e11
          extract_lets -underBinder -merge +onlyGivenNames x12
          have h12 : Keeps a x12 := (State.storeFull_keeps (State.modStore_keeps h11 _) _)
          clear_value x12
          exact (KeepsR.next (State.storeShow_keeps (State.freePath_keeps h12 _ _)))
        next x13 x14 x15 e15 =>
          have h15 := KeepsQ.out (State.openExtent_keeps h8 _ _) e15
          extract_lets -underBinder -merge +onlyGivenNames x16
          clear_value x16
          exact (KeepsR.next (State.storeShow_keeps (State.issueWrites_keeps (State.useBlocks_keeps (State.modWrite_keeps h15 _ _) _ _ _) _)))

theorem State.issueMap_keeps (h : Keeps a s) (y2) : Keeps a (State.issueMap s y2) := by
  unfold State.issueMap
  extract_lets -underBinder -merge +onlyGivenNames x1
  clear_value x1
  exact (State.each_keeps h fun _ h2 _ => (State.emit_keeps h2 _))

theorem State.modDrive_keeps (h : Keeps a s) (y2) (y3) : Keeps a (State.modDrive s y2 y3) := by
  unfold State.modDrive
  exact (State.modStore_keeps h _)

theorem execCommitBatch_keeps (h : Keeps a s) (y1) : KeepsR a (execCommitBatch y1 s) := by
  unfold execCommitBatch
  extract_lets -underBinder -merge +onlyGivenNames x1
  have h1 : Keeps a x1 := (State.at_keeps h _)
  clear_value x1
  refine KeepsR.ite ?_ ?_
  · exact (KeepsR.next h1)
  · refine KeepsR.next ?_
    refine State.storeShow_keeps ?_
    refine State.each_keeps h1 fun _ h6 _ => ?_
    · refine Keeps.ite ?_ ?_
      · exact h6
      · extract_lets -underBinder -merge +onlyGivenNames x7
        have h7 : Keeps a x7 := (State.modStore_keeps h6 _)
        clear_value x7
        exact (Keeps.ite (State.emit_keeps (State.modDrive_keeps h7 _ _) _) (State.issueMap_keeps (State.modDrive_keeps h7 _ _) _))

theorem execNvmeFlushComplete_keeps (h : Keeps a s) (y1) (y2) : KeepsR a (execNvmeFlushComplete y1 y2 s) := by
  unfold execNvmeFlushComplete
  extract_lets -underBinder -merge +onlyGivenNames x1
  have h1 : Keeps a x1 := (State.at_keeps h _)
  clear_value x1
  exact (KeepsR.ite (KeepsR.next (State.storeShow_keeps (State.issueMap_keeps (State.modDrive_keeps h1 _ _) _))) (KeepsR.next h1))

theorem State.chunkCommitted_keeps (h : Keeps a s) (y2) : Keeps a (State.chunkCommitted s y2) := by
  unfold State.chunkCommitted
  exact (State.modJob_keeps h _ _)

theorem execMapFuaComplete_keeps (h : Keeps a s) (y1) (y2) : KeepsR a (execMapFuaComplete y1 y2 s) := by
  unfold execMapFuaComplete
  extract_lets -underBinder -merge +onlyGivenNames x1
  have h1 : Keeps a x1 := (State.at_keeps h _)
  clear_value x1
  refine KeepsR.ite ?_ ?_
  · exact (KeepsR.next h1)
  · extract_lets -underBinder -merge +onlyGivenNames x2
    have h2 : Keeps a x2 := by
      subst x2
      refine State.each_keeps h1 fun _ h5 _ => ?_
      · extract_lets -underBinder -merge +onlyGivenNames x6
        clear_value x6
        split
        · extract_lets -underBinder -merge +onlyGivenNames x9
          have h9 : Keeps a x9 := (State.modStore_keeps h5 _)
          clear_value x9
          exact (State.each_keeps h9 fun _ h10 _ => (State.chunkCommitted_keeps h10 _))
    clear_value x2
    extract_lets -underBinder -merge +onlyGivenNames x11
    have h11 : Keeps a x11 := (State.modStore_keeps h2 _)
    clear_value x11
    exact (KeepsR.next (State.settleJobs_keeps (State.modDrive_keeps h11 _ _)))

theorem State.entryWritten_keeps (h : Keeps a s) (y2) : Keeps a (State.entryWritten s y2) := by
  unfold State.entryWritten
  extract_lets -underBinder -merge +onlyGivenNames x1
  have h1 : Keeps a x1 := (State.modStore_keeps h _)
  clear_value x1
  refine Keeps.ite ?_ ?_
  · exact h1
  · extract_lets -underBinder -merge +onlyGivenNames x2
    have h2 : Keeps a x2 := (Keeps.ite (State.pulse_keeps h1 _ _) h1)
    clear_value x2
    extract_lets -underBinder -merge +onlyGivenNames x3
    have h3 : Keeps a x3 := by
      subst x3
      split
      · split
        · exact (State.modOp_keeps h2 _ _)
        · exact (State.acqShow_keeps (State.modAcq_keeps h2 _))
      · exact h2
    clear_value x3
    exact (State.modStore_keeps h3 _)

theorem State.reportLost_keeps (h : Keeps a s) : Keeps a (State.reportLost s) := by
  unfold State.reportLost
  exact (Keeps.ite (State.put_keeps (State.putB_keeps h _ _ _ _) _ _ _ _) h)

theorem execRecordTableWrite_keeps (h : Keeps a s) (y1) : KeepsR a (execRecordTableWrite y1 s) := by
  unfold execRecordTableWrite
  extract_lets -underBinder -merge +onlyGivenNames x1
  have h1 : Keeps a x1 := (State.at_keeps h _)
  clear_value x1
  split
  · exact (KeepsR.next h1)
  · refine KeepsR.ite ?_ ?_
    · exact (KeepsR.next (State.startTable_keeps (State.modStore_keeps h1 _)))
    · extract_lets -underBinder -merge +onlyGivenNames x5
      have h5 : Keeps a x5 := (State.entryWritten_keeps (State.modStore_keeps h1 _) _)
      clear_value x5
      exact (KeepsR.next (State.storeShow_keeps (State.reportLost_keeps (State.settleJobs_keeps (State.startTable_keeps h5)))))

theorem execDriveLost_keeps (h : Keeps a s) (y1) (y2) : KeepsR a (execDriveLost y1 y2 s) := by
  unfold execDriveLost
  extract_lets -underBinder -merge +onlyGivenNames x1
  have h1 : Keeps a x1 := (State.at_keeps h _)
  clear_value x1
  refine KeepsR.ite ?_ ?_
  · exact (KeepsR.next h1)
  · extract_lets -underBinder -merge +onlyGivenNames x2
    have h2 : Keeps a x2 := (State.putB_keeps h1 _ _ _ _)
    clear_value x2
    extract_lets -underBinder -merge +onlyGivenNames x3
    have h3 : Keeps a x3 := (State.level_keeps (State.putB_keeps h2 _ _ _ _) _ _ _)
    clear_value x3
    refine KeepsR.ite ?_ ?_
    · exact (KeepsR.next h3)
    · extract_lets -underBinder -merge +onlyGivenNames x4
      clear_value x4
      extract_lets -underBinder -merge +onlyGivenNames x5
      have h5 : Keeps a x5 := (State.pulse_keeps (State.modDrive_keeps h3 _ _) _ _)
      clear_value x5
      extract_lets -underBinder -merge +onlyGivenNames x6
      have h6 : Keeps a x6 := (Keeps.ite (State.putB_keeps h5 _ _ _ _) h5)
      clear_value x6
      extract_lets -underBinder -merge +onlyGivenNames x7
      clear_value x7
      extract_lets -underBinder -merge +onlyGivenNames x8
      have h8 : Keeps a x8 := (State.sat_keeps h6 _ _ _ _)
      clear_value x8
      extract_lets -underBinder -merge +onlyGivenNames x9
      have h9 : Keeps a x9 := (State.modStore_keeps h8 _)
      clear_value x9
      extract_lets -underBinder -merge +onlyGivenNames x10
      have h10 : Keeps a x10 := by
        subst x10
        refine State.each_keeps h9 fun _ h13 _ => ?_
        · extract_lets -underBinder -merge +onlyGivenNames x14
          have h14 : Keeps a x14 := (Keeps.ite (State.freePath_keeps h13 _ _) h13)
          clear_value x14
          exact (Keeps.ite (State.modJob_keeps h14 _ _) h14)
      clear_value x10
      extract_lets -underBinder -merge +onlyGivenNames x15
      have h15 : Keeps a x15 := (State.modStore_keeps h10 _)
      clear_value x15
      exact (KeepsR.next (State.storeShow_keeps (State.reportLost_keeps (State.settleJobs_keeps h15))))

theorem State.judgeStore_keeps (h : Keeps a s) (y2) : Keeps a (State.judgeStore s y2) := by
  unfold State.judgeStore
  extract_lets -underBinder -merge +onlyGivenNames x1
  clear_value x1
  extract_lets -underBinder -merge +onlyGivenNames x2
  clear_value x2
  extract_lets -underBinder -merge +onlyGivenNames x3
  clear_value x3
  extract_lets -underBinder -merge +onlyGivenNames x4
  clear_value x4
  extract_lets -underBinder -merge +onlyGivenNames x5
  clear_value x5
  extract_lets -underBinder -merge +onlyGivenNames x6
  have h6 : Keeps a x6 := (State.each_keeps h fun _ h7 _ => (State.putB_keeps h7 _ _ _ _))
  clear_value x6
  extract_lets -underBinder -merge +onlyGivenNames x8
  have h8 : Keeps a x8 := (State.put_keeps (State.putB_keeps h6 _ _ _ _) _ _ _ _)
  clear_value x8
  extract_lets -underBinder -merge +onlyGivenNames x9
  have h9 : Keeps a x9 := (State.put_keeps h8 _ _ _ _)
  clear_value x9
  exact (State.put_keeps (State.put_keeps h9 _ _ _ _) _ _ _ _)

theorem State.showDrive_keeps (h : Keeps a s) (y2) (y3) : Keeps a (State.showDrive s y2 y3) := by
  unfold State.showDrive
  extract_lets -underBinder -merge +onlyGivenNames x1
  clear_value x1
  extract_lets -underBinder -merge +onlyGivenNames x2
  clear_value x2
  extract_lets -underBinder -merge +onlyGivenNames x3
  have h3 : Keeps a x3 := (State.putB_keeps (State.putB_keeps h _ _ _ _) _ _ _ _)
  clear_value x3
  extract_lets -underBinder -merge +onlyGivenNames x4
  have h4 : Keeps a x4 := (State.put_keeps (State.put_keeps h3 _ _ _ _) _ _ _ _)
  clear_value x4
  extract_lets -underBinder -merge +onlyGivenNames x5
  have h5 : Keeps a x5 := (State.put_keeps (State.put_keeps h4 _ _ _ _) _ _ _ _)
  clear_value x5
  extract_lets -underBinder -merge +onlyGivenNames x6
  have h6 : Keeps a x6 := (State.put64_keeps h5 _ _ _ _ _)
  clear_value x6
  extract_lets -underBinder -merge +onlyGivenNames x7
  have h7 : Keeps a x7 := (State.putB_keeps h6 _ _ _ _)
  clear_value x7
  extract_lets -underBinder -merge +onlyGivenNames x8
  have h8 : Keeps a x8 := (State.putB_keeps h7 _ _ _ _)
  clear_value x8
  exact (State.level_keeps h8 _ _ _)

theorem State.nvqState_keeps (h : Keeps a s) : Keeps a (State.nvqState s) := by
  unfold State.nvqState
  exact (State.setBlockState_keeps h _ _)

theorem execStoreRecovery_keeps (h : Keeps a s) (y1) (y2) : KeepsR a (execStoreRecovery y1 y2 s) := by
  unfold execStoreRecovery
  extract_lets -underBinder -merge +onlyGivenNames x1
  have h1 : Keeps a x1 := (State.at_keeps h _)
  clear_value x1
  refine KeepsR.ite ?_ ?_
  · exact KeepsR.fault
  · refine KeepsR.ite ?_ ?_
    · exact (KeepsR.next h1)
    · extract_lets -underBinder -merge +onlyGivenNames x2
      have h2 : Keeps a x2 := (State.modStore_keeps h1 _)
      clear_value x2
      extract_lets -underBinder -merge +onlyGivenNames x3
      have h3 : Keeps a x3 := (State.judgeStore_keeps (State.each_keeps h2 fun _ h4 _ => (State.showDrive_keeps h4 _ _)) _)
      clear_value x3
      extract_lets -underBinder -merge +onlyGivenNames x5
      clear_value x5
      extract_lets -underBinder -merge +onlyGivenNames x6
      clear_value x6
      extract_lets -underBinder -merge +onlyGivenNames x7
      clear_value x7
      extract_lets -underBinder -merge +onlyGivenNames x8
      clear_value x8
      extract_lets -underBinder -merge +onlyGivenNames x9
      have h9 : Keeps a x9 := (State.each_keeps h3 fun _ h10 _ => (State.emit_keeps h10 _))
      clear_value x9
      extract_lets -underBinder -merge +onlyGivenNames x11
      clear_value x11
      extract_lets -underBinder -merge +onlyGivenNames x12
      have h12 : Keeps a x12 := (State.putB_keeps h9 _ _ _ _)
      clear_value x12
      exact (KeepsR.next (State.storeShow_keeps (State.nvqState_keeps (State.modStore_keeps h12 _))))

theorem execStoFreeRec_keeps (h : Keeps a s) (y1) (y2) : KeepsR a (execStoFreeRec y1 y2 s) := by
  unfold execStoFreeRec
  extract_lets -underBinder -merge +onlyGivenNames x1
  have h1 : Keeps a x1 := (State.at_keeps h _)
  clear_value x1
  extract_lets -underBinder -merge +onlyGivenNames x2
  clear_value x2
  split
  · refine KeepsR.ite ?_ ?_
    · extract_lets -underBinder -merge +onlyGivenNames x4
      clear_value x4
      extract_lets -underBinder -merge +onlyGivenNames x5
      have h5 : Keeps a x5 := (State.releaseExtents_keeps h1 _)
      clear_value x5
      exact (KeepsR.next (State.storeShow_keeps (State.modStore_keeps h5 _)))
    · exact (KeepsR.next h1)
  · exact (KeepsR.next h1)

theorem execStoCatSel_keeps (h : Keeps a s) (y1) : KeepsR a (execStoCatSel y1 s) := by
  unfold execStoCatSel
  exact (KeepsR.next (State.storeShow_keeps (State.modStore_keeps h _)))

theorem execStoClr_keeps (h : Keeps a s) (y1) : KeepsR a (execStoClr y1 s) := by
  unfold execStoClr
  exact (KeepsR.next (Keeps.ite (State.clearAll_keeps h _ _) h))

theorem execNvqReset_keeps (h : Keeps a s) (y1) (y2) : KeepsR a (execNvqReset y1 y2 s) := by
  unfold execNvqReset
  extract_lets -underBinder -merge +onlyGivenNames x1
  have h1 : Keeps a x1 := (State.at_keeps h _)
  clear_value x1
  refine KeepsR.ite ?_ ?_
  · exact (KeepsR.next h1)
  · extract_lets -underBinder -merge +onlyGivenNames x2
    clear_value x2
    extract_lets -underBinder -merge +onlyGivenNames x3
    clear_value x3
    extract_lets -underBinder -merge +onlyGivenNames x4
    have h4 : Keeps a x4 := (State.each_keeps h1 fun _ h5 _ => (State.put_keeps (State.putB_keeps (State.emit_keeps h5 _) _ _ _ _) _ _ _ _))
    clear_value x4
    extract_lets -underBinder -merge +onlyGivenNames x6
    have h6 : Keeps a x6 := (Keeps.ite (State.put_keeps (State.putB_keeps h4 _ _ _ _) _ _ _ _) h4)
    clear_value x6
    exact (KeepsR.next (State.storeShow_keeps (State.nvqState_keeps h6)))

theorem execNvqClr_keeps (h : Keeps a s) (y1) : KeepsR a (execNvqClr y1 s) := by
  unfold execNvqClr
  exact (KeepsR.next (Keeps.ite (State.clearAll_keeps h _ _) h))

end Sys2Proof.Machine
end

