-- ==== Sys2Proof/Laws/KeepsHost.lean ====
section
/-!
SUPPORT. What the operations of Machine/Host.lean keep (see Laws/Keeps.lean).
-/
namespace Sys2Proof.Machine
variable {a s : State}

theorem State.modRing_keeps (h : Keeps a s) (y2) (y3) : Keeps a (State.modRing s y2 y3) := by
  unfold State.modRing
  exact (State.modHost_keeps h _)

theorem State.cmdShow_keeps (h : Keeps a s) : Keeps a (State.cmdShow s) := by
  unfold State.cmdShow
  extract_lets -underBinder -merge +onlyGivenNames x1
  clear_value x1
  extract_lets -underBinder -merge +onlyGivenNames x2
  have h2 : Keeps a x2 := (State.put_keeps (State.put_keeps h _ _ _ _) _ _ _ _)
  clear_value x2
  exact (State.level_keeps h2 _ _ _)

theorem execSqDoorbell_keeps (h : Keeps a s) (y1) (y2) (y3) : KeepsR a (execSqDoorbell y1 y2 y3 s) := by
  unfold execSqDoorbell
  extract_lets -underBinder -merge +onlyGivenNames x1
  have h1 : Keeps a x1 := (State.at_keeps h _)
  clear_value x1
  extract_lets -underBinder -merge +onlyGivenNames x2
  clear_value x2
  exact (KeepsR.ite (KeepsR.next h1) (KeepsR.ite (KeepsR.next (State.pulse_keeps h1 _ _)) (KeepsR.next (State.modRing_keeps h1 _ _))))

theorem execCqDoorbell_keeps (h : Keeps a s) (y1) (y2) (y3) : KeepsR a (execCqDoorbell y1 y2 y3 s) := by
  unfold execCqDoorbell
  extract_lets -underBinder -merge +onlyGivenNames x1
  have h1 : Keeps a x1 := (State.at_keeps h _)
  clear_value x1
  extract_lets -underBinder -merge +onlyGivenNames x2
  clear_value x2
  exact (KeepsR.ite (KeepsR.next h1) (KeepsR.ite (KeepsR.next (State.pulse_keeps h1 _ _)) (KeepsR.next (State.modRing_keeps h1 _ _))))

theorem State.takeIn_keeps (h : Keeps a s) (y2) (y3) (y4) : Keeps a (State.takeIn s y2 y3 y4) := by
  unfold State.takeIn
  extract_lets -underBinder -merge +onlyGivenNames x1
  clear_value x1
  extract_lets -underBinder -merge +onlyGivenNames x2
  have h2 : Keeps a x2 := (State.modHost_keeps h _)
  clear_value x2
  extract_lets -underBinder -merge +onlyGivenNames x3
  have h3 : ∀ u0 u1, Keeps a u1 → Keeps a (x3 u0 u1) := by
    intro u0 u1 k3
    subst x3
    beta_reduce
    exact (State.cmdShow_keeps (State.modHost_keeps k3 _))
  clear_value x3
  split
  · exact (h3 _ _ h2)
  · exact (Keeps.ite (h3 _ _ h2) (h3 _ _ (State.sendCmd_keeps h2 _ _ _ _ _)))

theorem execCommandFetch_keeps (h : Keeps a s) (y1) (y2) : KeepsR a (execCommandFetch y1 y2 s) := by
  unfold execCommandFetch
  refine KeepsR.ite ?_ ?_
  · exact KeepsR.fault
  · extract_lets -underBinder -merge +onlyGivenNames x1
    have h1 : Keeps a x1 := (State.at_keeps h _)
    clear_value x1
    refine KeepsR.ite ?_ ?_
    · exact (KeepsR.next (State.cmdShow_keeps h1))
    · split
      · exact (KeepsR.next h1)
      · extract_lets -underBinder -merge +onlyGivenNames x4
        have h4 : Keeps a x4 := (State.modHost_keeps h1 _)
        clear_value x4
        split
        · exact (KeepsR.next (State.pulse_keeps (State.sat_keeps (State.putB_keeps h4 _ _ _ _) _ _ _ _) _ _))
        · extract_lets -underBinder -merge +onlyGivenNames x7
          have h7 : Keeps a x7 := (State.put_keeps h4 _ _ _ _)
          clear_value x7
          exact (KeepsR.next (State.takeIn_keeps h7 _ _ _))

theorem State.promote_keeps (h : Keeps a s) (n : Nat) : Keeps a (State.promote n s) := by
  induction n generalizing s with
  | zero => exact h
  | succ n ih =>
    unfold State.promote
    refine Keeps.ite h ?_
    extract_lets +onlyGivenNames can first
    split
    · exact h
    · exact ih (State.modOp_keeps h _ _)

theorem State.claim_keeps (h : Keeps a s) (y2) (y3) (y4) : KeepsOP a (State.claim s y2 y3 y4) := by
  unfold State.claim
  extract_lets -underBinder -merge +onlyGivenNames x1
  have h1 : Keeps a x1 := (State.promote_keeps h _)
  clear_value x1
  split
  · exact KeepsOP.none_
  · refine KeepsOP.ite ?_ ?_
    · exact KeepsOP.none_
    · split
      · exact (KeepsOP.ite (KeepsOP.some_ h1) KeepsOP.none_)
      · exact (KeepsOP.ite KeepsOP.none_ (KeepsOP.some_ (State.wrap_keeps (State.modHost_keeps h1 _) _ _ _ _)))

theorem State.dcpShow_keeps (h : Keeps a s) : Keeps a (State.dcpShow s) := by
  unfold State.dcpShow
  extract_lets -underBinder -merge +onlyGivenNames x1
  clear_value x1
  extract_lets -underBinder -merge +onlyGivenNames x2
  have h2 : Keeps a x2 := (State.put_keeps h _ _ _ _)
  clear_value x2
  extract_lets -underBinder -merge +onlyGivenNames x3
  have h3 : Keeps a x3 := by
    subst x3
    refine State.each_keeps h2 fun _ h6 _ => ?_
    · extract_lets -underBinder -merge +onlyGivenNames x7
      clear_value x7
      extract_lets -underBinder -merge +onlyGivenNames x8
      have h8 : Keeps a x8 := (State.putB_keeps h6 _ _ _ _)
      clear_value x8
      extract_lets -underBinder -merge +onlyGivenNames x9
      clear_value x9
      exact (State.put_keeps (State.put_keeps h8 _ _ _ _) _ _ _ _)
  clear_value x3
  extract_lets -underBinder -merge +onlyGivenNames x10
  clear_value x10
  extract_lets -underBinder -merge +onlyGivenNames x11
  have h11 : Keeps a x11 := (State.setBlockState_keeps (State.put_keeps h3 _ _ _ _) _ _)
  clear_value x11
  exact (State.level_keeps h11 _ _ _)

theorem State.cleanUp_keeps (h : Keeps a s) (y2) : Keeps a (State.cleanUp s y2) := by
  unfold State.cleanUp
  split
  · extract_lets -underBinder -merge +onlyGivenNames x2
    have h2 : Keeps a x2 := by
      subst x2
      split
      · exact (Keeps.ite h (State.modMar_keeps (Keeps.ite (State.fillTile_keeps h _ _) h) _))
      · exact h
    clear_value x2
    extract_lets -underBinder -merge +onlyGivenNames x5
    clear_value x5
    exact (State.marShow_keeps (Keeps.ite (State.modMar_keeps h2 _) h2))
  · extract_lets -underBinder -merge +onlyGivenNames x7
    clear_value x7
    extract_lets -underBinder -merge +onlyGivenNames x8
    clear_value x8
    extract_lets -underBinder -merge +onlyGivenNames x9
    have h9 : Keeps a x9 := (Keeps.fold h fun _ h10 _ => (State.put_keeps h10 _ _ _ _))
    clear_value x9
    exact (State.adcShow_keeps (State.putB_keeps h9 _ _ _ _))
  · extract_lets -underBinder -merge +onlyGivenNames x12
    clear_value x12
    extract_lets -underBinder -merge +onlyGivenNames x13
    have h13 : Keeps a x13 := by
      subst x13
      refine State.each_keeps h fun _ h16 _ => ?_
      · extract_lets -underBinder -merge +onlyGivenNames x17
        have h17 : Keeps a x17 := (State.each_keeps h16 fun _ h18 _ => (State.modThread_keeps h18 _ _))
        clear_value x17
        exact (State.modStream_keeps h17 _ _)
    clear_value x13
    extract_lets -underBinder -merge +onlyGivenNames x19
    have h19 : Keeps a x19 := (State.modStore_keeps h13 _)
    clear_value x19
    extract_lets -underBinder -merge +onlyGivenNames x20
    have h20 : Keeps a x20 := by
      subst x20
      split
      · extract_lets -underBinder -merge +onlyGivenNames x22
        have h22 : Keeps a x22 := (State.modStore_keeps h19 _)
        clear_value x22
        exact (Keeps.ite (State.tableWrite_keeps h22 _) h22)
      · exact h19
    clear_value x20
    exact (State.storeShow_keeps (State.showLanes_keeps h20 _))
  · extract_lets -underBinder -merge +onlyGivenNames x25
    have h25 : Keeps a x25 := (Keeps.fold h fun _ h26 _ => (Keeps.ite (State.modThread_keeps h26 _ _) h26))
    clear_value x25
    exact (State.showLanes_keeps h25 _)
  · exact (State.storeShow_keeps (State.judgeStore_keeps (State.putB_keeps h _ _ _ _) _))
  · exact (State.putB_keeps h _ _ _ _)
  · exact h

theorem State.endOp_keeps (h : Keeps a s) (y2) (y3) : Keeps a (State.endOp s y2 y3) := by
  unfold State.endOp
  split
  · exact h
  · extract_lets -underBinder -merge +onlyGivenNames x3
    have h3 : Keeps a x3 := (Keeps.ite (State.cleanUp_keeps h _) h)
    clear_value x3
    extract_lets -underBinder -merge +onlyGivenNames x4
    have h4 : Keeps a x4 := (State.modOp_keeps h3 _ _)
    clear_value x4
    extract_lets -underBinder -merge +onlyGivenNames x5
    have h5 : Keeps a x5 := by
      subst x5
      split
      · exact (Keeps.ite (State.modHost_keeps h4 _) h4)
      · exact h4
    clear_value x5
    exact (State.cmdShow_keeps (State.dcpShow_keeps (State.promote_keeps h5 _)))

theorem execStitchEnd_keeps (h : Keeps a s) (y1) : KeepsR a (execStitchEnd y1 s) := by
  unfold execStitchEnd
  extract_lets -underBinder -merge +onlyGivenNames x1
  have h1 : Keeps a x1 := (State.at_keeps h _)
  clear_value x1
  split
  · exact (KeepsR.next (State.cmdShow_keeps (State.promote_keeps h1 _)))
  · extract_lets -underBinder -merge +onlyGivenNames x5
    clear_value x5
    extract_lets -underBinder -merge +onlyGivenNames x6
    have h6 : Keeps a x6 := (State.put_keeps h1 _ _ _ _)
    clear_value x6
    extract_lets -underBinder -merge +onlyGivenNames x7
    have h7 : Keeps a x7 := (State.modHost_keeps h6 _)
    clear_value x7
    split
    · exact (KeepsR.next h7)
    · split
      · exact (KeepsR.next (State.endOp_keeps h7 _ _))
      · exact (KeepsR.next (Keeps.ite (State.endOp_keeps h7 _ _) (State.cmdShow_keeps (State.promote_keeps h7 _))))

theorem State.stopOp_keeps (h : Keeps a s) (y2) (y3) : Keeps a (State.stopOp s y2 y3) := by
  unfold State.stopOp
  extract_lets -underBinder -merge +onlyGivenNames x1
  clear_value x1
  exact (Keeps.ite (State.modOp_keeps h _ _) (State.endOp_keeps h _ _))

theorem execDeadline_keeps (h : Keeps a s) (y1) (y2) : KeepsR a (execDeadline y1 y2 s) := by
  unfold execDeadline
  extract_lets -underBinder -merge +onlyGivenNames x1
  have h1 : Keeps a x1 := (State.at_keeps h _)
  clear_value x1
  split
  · exact (KeepsR.next h1)
  · exact (KeepsR.next (Keeps.ite (State.stopOp_keeps h1 _ _) h1))

theorem execNop_keeps (h : Keeps a s) (y1) (y2) : KeepsR a (execNop y1 y2 s) := by
  unfold execNop
  extract_lets -underBinder -merge +onlyGivenNames x1
  have h1 : Keeps a x1 := (State.at_keeps h _)
  clear_value x1
  split
  · exact (KeepsR.next (State.endOp_keeps h1 _ _))
  · exact (KeepsR.next h1)

theorem execAbort_keeps (h : Keeps a s) (y1) (y2) : KeepsR a (execAbort y1 y2 s) := by
  unfold execAbort
  extract_lets -underBinder -merge +onlyGivenNames x1
  have h1 : Keeps a x1 := (State.at_keeps h _)
  clear_value x1
  split
  · exact (KeepsR.next h1)
  · split
    · exact (KeepsR.next (State.endOp_keeps (State.stopOp_keeps h1 _ _) _ _))
    · exact (KeepsR.next (State.endOp_keeps h1 _ _))

theorem State.cqMessage_keeps (h : Keeps a s) (y2) : Keeps a (State.cqMessage s y2) := by
  unfold State.cqMessage
  exact (State.msixSend_keeps (State.modRing_keeps h _ _) _)

theorem execCommandCompletion_keeps (h : Keeps a s) (y1) (y2) (y3) : KeepsR a (execCommandCompletion y1 y2 y3 s) := by
  unfold execCommandCompletion
  extract_lets -underBinder -merge +onlyGivenNames x1
  have h1 : Keeps a x1 := (State.at_keeps h _)
  clear_value x1
  split
  · exact (KeepsR.next h1)
  · extract_lets -underBinder -merge +onlyGivenNames x4
    clear_value x4
    extract_lets -underBinder -merge +onlyGivenNames x5
    have h5 : ∀ u0, Keeps a u0 → Keeps a (x5 u0) := by
      intro u0 k5
      subst x5
      beta_reduce
      exact (State.cmdShow_keeps (State.wrap_keeps (State.modHost_keeps k5 _) _ _ _ _))
    clear_value x5
    split
    · exact (KeepsR.next (h5 _ (State.sendCmd_keeps h1 _ _ _ _ _)))
    · extract_lets -underBinder -merge +onlyGivenNames x8
      clear_value x8
      refine KeepsR.ite ?_ ?_
      · exact (KeepsR.next (h5 _ h1))
      · extract_lets -underBinder -merge +onlyGivenNames x9
        clear_value x9
        extract_lets -underBinder -merge +onlyGivenNames x10
        clear_value x10
        refine KeepsR.ite ?_ ?_
        · exact (KeepsR.next h1)
        · refine KeepsR.ite ?_ ?_
          · exact (KeepsR.next (h5 _ (State.putB_keeps h1 _ _ _ _)))
          · extract_lets -underBinder -merge +onlyGivenNames x11
            clear_value x11
            extract_lets -underBinder -merge +onlyGivenNames x12
            have h12 : Keeps a x12 := (State.put_keeps (State.emit_keeps h1 _) _ _ _ _)
            clear_value x12
            extract_lets -underBinder -merge +onlyGivenNames x13
            have h13 : Keeps a x13 := (State.modRing_keeps h12 _ _)
            clear_value x13
            extract_lets -underBinder -merge +onlyGivenNames x14
            clear_value x14
            extract_lets -underBinder -merge +onlyGivenNames x15
            have h15 : Keeps a x15 := (Keeps.ite (State.cqMessage_keeps h13 _) h13)
            clear_value x15
            exact (KeepsR.next (h5 _ h15))

theorem execCoalTimer_keeps (h : Keeps a s) (y1) (y2) : KeepsR a (execCoalTimer y1 y2 s) := by
  unfold execCoalTimer
  extract_lets -underBinder -merge +onlyGivenNames x1
  have h1 : Keeps a x1 := (State.at_keeps h _)
  clear_value x1
  extract_lets -underBinder -merge +onlyGivenNames x2
  clear_value x2
  split
  · exact (KeepsR.next (Keeps.ite (State.cqMessage_keeps h1 _) h1))
  · exact (KeepsR.next h1)

theorem execMarch_keeps (h : Keeps a s) (y1) (y2) : KeepsR a (execMarch y1 y2 s) := by
  unfold execMarch
  extract_lets -underBinder -merge +onlyGivenNames x1
  have h1 : Keeps a x1 := (State.at_keeps h _)
  clear_value x1
  split
  · exact (KeepsR.next h1)
  next x3 x4 e3 =>
    have h3 := KeepsOP.out (State.claim_keeps h1 _ _ _) e3
    extract_lets -underBinder -merge +onlyGivenNames x5
    clear_value x5
    extract_lets -underBinder -merge +onlyGivenNames x6
    clear_value x6
    extract_lets -underBinder -merge +onlyGivenNames x7
    clear_value x7
    extract_lets -underBinder -merge +onlyGivenNames x8
    clear_value x8
    split
    · exact (KeepsR.next (State.endOp_keeps h3 _ _))
    · refine KeepsR.ite ?_ ?_
      · exact (KeepsR.next h3)
      · refine KeepsR.ite ?_ ?_
        · exact (KeepsR.next (State.marShow_keeps (State.endOp_keeps h3 _ _)))
        · refine KeepsR.ite ?_ ?_
          · exact (KeepsR.next (State.endOp_keeps h3 _ _))
          · split
            · exact (KeepsR.next h3)
            · exact (KeepsR.next (State.borrow_keeps (State.modMar_keeps h3 _) _))
            · exact (KeepsR.next (State.borrow_keeps h3 _))

theorem execCalibrate_keeps (h : Keeps a s) (y1) (y2) (y3) : KeepsR a (execCalibrate y1 y2 y3 s) := by
  unfold execCalibrate
  extract_lets -underBinder -merge +onlyGivenNames x1
  have h1 : Keeps a x1 := (State.at_keeps h _)
  clear_value x1
  split
  · exact (KeepsR.next h1)
  next x3 x4 e3 =>
    have h3 := KeepsOP.out (State.claim_keeps h1 _ _ _) e3
    split
    · exact (KeepsR.next (State.endOp_keeps h3 _ _))
    · extract_lets -underBinder -merge +onlyGivenNames x7
      clear_value x7
      extract_lets -underBinder -merge +onlyGivenNames x8
      clear_value x8
      split
      · extract_lets -underBinder -merge +onlyGivenNames x10
        clear_value x10
        extract_lets -underBinder -merge +onlyGivenNames x11
        clear_value x11
        extract_lets -underBinder -merge +onlyGivenNames x12
        have h12 : Keeps a x12 := (State.modOp_keeps h3 _ _)
        clear_value x12
        extract_lets -underBinder -merge +onlyGivenNames x13
        have h13 : Keeps a x13 := (State.pulse_keeps h12 _ _)
        clear_value x13
        exact (KeepsR.next (State.endOp_keeps h13 _ _))
      · refine KeepsR.ite ?_ ?_
        · refine KeepsR.ite ?_ ?_
          · exact (KeepsR.next h3)
          · extract_lets -underBinder -merge +onlyGivenNames x15
            have h15 : Keeps a x15 := (Keeps.ite (State.put_keeps h3 _ _ _ _) h3)
            clear_value x15
            extract_lets -underBinder -merge +onlyGivenNames x16
            have h16 : Keeps a x16 := (State.calBegin_keeps h15 _)
            clear_value x16
            exact (KeepsR.next (Keeps.ite (State.modOp_keeps h16 _ _) h15))
        · extract_lets -underBinder -merge +onlyGivenNames x17
          have h17 : Keeps a x17 := (State.calFinish_keeps h3 _ _ _ _ _)
          clear_value x17
          exact (KeepsR.next (State.modOp_keeps h17 _ _))

theorem State.opRead_keeps (h : Keeps a s) (y2) (y3) (y4) (y5) : KeepsP a (State.opRead s y2 y3 y4 y5) := by
  unfold State.opRead
  split
  · split
    next x2 x3 e2 =>
      have h2 := KeepsP.out (State.meetTest_keeps h _ _) e2
      exact (KeepsP.mk h2)
  · exact (KeepsP.mk h)
  · exact (KeepsP.mk h)

theorem State.opWrite_keeps (h : Keeps a s) (y2) (y3) (y4) : KeepsP a (State.opWrite s y2 y3 y4) := by
  unfold State.opWrite
  split
  · split
    next x2 x3 e2 =>
      have h2 := KeepsP.out (State.meetTest_keeps h _ _) e2
      exact (KeepsP.ite (KeepsP.mk h2) (KeepsP.mk (State.scrWrite_keeps h2 _ _)))
  · exact (KeepsP.mk (State.dmWrite_keeps h _ _))
  · exact (KeepsP.mk (State.emit_keeps h _))

theorem State.freeRange_keeps (h : Keeps a s) (space b n : Nat) : Keeps a (s.freeRange space b n) := by
  induction n with
  | zero => exact h
  | succ n ih =>
    unfold State.freeRange
    split
    next w s1 e => exact State.opWrite_keeps ((State.takeFree_keeps ih).out e) _ _ _

theorem State.takeLane_keeps (h : Keeps a s) (y2) : KeepsO a (State.takeLane s y2) := by
  unfold State.takeLane
  refine KeepsO.ite ?_ ?_
  · exact (KeepsO.some_ h)
  · split
    · exact KeepsO.none_
    · exact (KeepsO.some_ (State.showLanes_keeps (State.modThread_keeps h _ _) _))

theorem execCompressBuf_keeps (h : Keeps a s) (y1) (y2) (y3) : KeepsR a (execCompressBuf y1 y2 y3 s) := by
  unfold execCompressBuf
  extract_lets -underBinder -merge +onlyGivenNames x1
  have h1 : Keeps a x1 := (State.at_keeps h _)
  clear_value x1
  split
  · exact (KeepsR.next h1)
  next x3 x4 e3 =>
    have h3 := KeepsOP.out (State.claim_keeps h1 _ _ _) e3
    split
    · exact (KeepsR.next (State.endOp_keeps h3 _ _))
    · exact (KeepsR.next h3)
    next x8 e8 =>
      have h8 := KeepsO.out (State.takeLane_keeps h3 _) e8
      refine KeepsR.ite ?_ ?_
      · exact (KeepsR.next h8)
      · refine KeepsR.ite ?_ ?_
        · exact (KeepsR.ite (KeepsR.next (State.endOp_keeps (State.freeRange_keeps h8 _ _ _) _ _)) (KeepsR.next (State.endOp_keeps (State.modOp_keeps h8 _ _) _ _)))
        · refine KeepsR.ite ?_ ?_
          · exact (KeepsR.next (State.endOp_keeps h8 _ _))
          · split
            next x9 e9 =>
              have h9 := KeepsP.out (State.opRead_keeps h8 _ _ _ _) e9
              exact (KeepsR.next (State.modOp_keeps h9 _ _))
            next x10 x11 e10 =>
              have h10 := KeepsP.out (State.opRead_keeps h8 _ _ _ _) e10
              split
              · exact (KeepsR.next (State.endOp_keeps h10 _ _))
              · extract_lets -underBinder -merge +onlyGivenNames x14
                clear_value x14
                extract_lets -underBinder -merge +onlyGivenNames x15
                clear_value x15
                extract_lets -underBinder -merge +onlyGivenNames x16
                clear_value x16
                extract_lets -underBinder -merge +onlyGivenNames x17
                clear_value x17
                extract_lets -underBinder -merge +onlyGivenNames x18
                clear_value x18
                refine KeepsR.ite ?_ ?_
                · exact (KeepsR.next (State.endOp_keeps h10 _ _))
                · extract_lets -underBinder -merge +onlyGivenNames x19
                  clear_value x19
                  extract_lets -underBinder -merge +onlyGivenNames x20
                  have h20 : Keeps a x20 := (Keeps.ite (State.pulse_keeps (State.sat_keeps h10 _ _ _ _) _ _) h10)
                  clear_value x20
                  extract_lets -underBinder -merge +onlyGivenNames x21
                  have h21 : Keeps a x21 := (Keeps.ite (State.sat_keeps h20 _ _ _ _) h20)
                  clear_value x21
                  split
                  next x22 x23 e22 =>
                    have h22 := KeepsP.out (State.opWrite_keeps h21 _ _ _) e22
                    refine KeepsR.ite ?_ ?_
                    · exact (KeepsR.next (State.modOp_keeps h22 _ _))
                    · extract_lets -underBinder -merge +onlyGivenNames x24
                      clear_value x24
                      exact (KeepsR.next (State.modOp_keeps h22 _ _))

theorem State.dcpFail_keeps (h : Keeps a s) (y2) (y3) (y4) (y5) : Keeps a (State.dcpFail s y2 y3 y4 y5) := by
  unfold State.dcpFail
  extract_lets -underBinder -merge +onlyGivenNames x1
  have h1 : Keeps a x1 := (State.put_keeps (State.setReg_keeps h _ _ _) _ _ _ _)
  clear_value x1
  exact (Keeps.ite (State.pulse_keeps (State.sat_keeps h1 _ _ _ _) _ _) (Keeps.ite (State.sat_keeps h1 _ _ _ _) (Keeps.ite (State.sat_keeps h1 _ _ _ _) (State.pulse_keeps (State.sat_keeps h1 _ _ _ _) _ _))))

theorem State.decodeChunk_keeps (h : Keeps a s) (y2) (y3) : KeepsP a (State.decodeChunk s y2 y3) := by
  unfold State.decodeChunk
  split
  · exact (KeepsP.mk (State.dcpFail_keeps h _ _ _ _))
  · extract_lets -underBinder -merge +onlyGivenNames x3
    clear_value x3
    refine KeepsP.ite ?_ ?_
    · exact (KeepsP.mk (State.dcpFail_keeps h _ _ _ _))
    · refine KeepsP.ite ?_ ?_
      · exact (KeepsP.mk h)
      · refine KeepsP.ite ?_ ?_
        · exact (KeepsP.mk (State.dcpFail_keeps h _ _ _ _))
        · extract_lets -underBinder -merge +onlyGivenNames x4
          clear_value x4
          extract_lets -underBinder -merge +onlyGivenNames x5
          clear_value x5
          extract_lets -underBinder -merge +onlyGivenNames x6
          clear_value x6
          extract_lets -underBinder -merge +onlyGivenNames x7
          clear_value x7
          extract_lets -underBinder -merge +onlyGivenNames x8
          have h8 : Keeps a x8 := (Keeps.ite (State.dcpFail_keeps h _ _ _ _) h)
          clear_value x8
          extract_lets -underBinder -merge +onlyGivenNames x9
          clear_value x9
          refine KeepsP.ite ?_ ?_
          · exact (KeepsP.mk (Keeps.ite h8 (State.dcpFail_keeps h8 _ _ _ _)))
          · split
            · exact (KeepsP.mk (State.dcpFail_keeps h8 _ _ _ _))
            · extract_lets -underBinder -merge +onlyGivenNames x13
              have h13 : Keeps a x13 := (State.wrap_keeps h8 _ _ _ _)
              clear_value x13
              extract_lets -underBinder -merge +onlyGivenNames x14
              have h14 : Keeps a x14 := (Keeps.ite (State.sat_keeps h13 _ _ _ _) h13)
              clear_value x14
              exact (KeepsP.mk h14)

theorem State.deliverTo_keeps (h : Keeps a s) (y2) (y3) : KeepsP a (State.deliverTo s y2 y3) := by
  unfold State.deliverTo
  split
  next x1 x2 x3 e1 =>
    have h1 := KeepsP.out (State.decodeChunk_keeps h _ _) e1
    extract_lets -underBinder -merge +onlyGivenNames x4
    clear_value x4
    extract_lets -underBinder -merge +onlyGivenNames x5
    have h5 : Keeps a x5 := (State.wrap64_keeps h1 _ _ _ _)
    clear_value x5
    extract_lets -underBinder -merge +onlyGivenNames x6
    have h6 : Keeps a x6 := (State.wrap64_keeps h5 _ _ _ _)
    clear_value x6
    exact (KeepsP.mk h6)

theorem execDecompressBuf_keeps (h : Keeps a s) (y1) (y2) (y3) : KeepsR a (execDecompressBuf y1 y2 y3 s) := by
  unfold execDecompressBuf
  extract_lets -underBinder -merge +onlyGivenNames x1
  have h1 : Keeps a x1 := (State.at_keeps h _)
  clear_value x1
  split
  · exact (KeepsR.next h1)
  next x3 x4 e3 =>
    have h3 := KeepsOP.out (State.claim_keeps h1 _ _ _) e3
    split
    · exact (KeepsR.next (State.endOp_keeps h3 _ _))
    · refine KeepsR.ite ?_ ?_
      · exact (KeepsR.next h3)
      · refine KeepsR.ite ?_ ?_
        · exact (KeepsR.next (State.endOp_keeps h3 _ _))
        · refine KeepsR.ite ?_ ?_
          · exact (KeepsR.next (State.endOp_keeps h3 _ _))
          · split
            next x7 e7 =>
              have h7 := KeepsP.out (State.opRead_keeps h3 _ _ _ _) e7
              exact (KeepsR.next (State.modOp_keeps h7 _ _))
            next x8 x9 e8 =>
              have h8 := KeepsP.out (State.opRead_keeps h3 _ _ _ _) e8
              extract_lets -underBinder -merge +onlyGivenNames x10
              clear_value x10
              split
              next x11 x12 x13 e11 =>
                have h11 := KeepsP.out (State.deliverTo_keeps h8 _ _) e11
                refine KeepsR.ite ?_ ?_
                · exact (KeepsR.next (State.endOp_keeps h11 _ _))
                · split
                  next x14 x15 e14 =>
                    have h14 := KeepsP.out (KeepsP.ite (KeepsP.mk h11) (State.opWrite_keeps h11 _ _ _)) e14
                    refine KeepsR.ite ?_ ?_
                    · exact (KeepsR.next (State.modOp_keeps h14 _ _))
                    · extract_lets -underBinder -merge +onlyGivenNames x16
                      clear_value x16
                      exact (KeepsR.next (State.dcpShow_keeps (State.modOp_keeps h14 _ _)))

theorem execOffload_keeps (h : Keeps a s) (y1) (y2) : KeepsR a (execOffload y1 y2 s) := by
  unfold execOffload
  extract_lets -underBinder -merge +onlyGivenNames x1
  have h1 : Keeps a x1 := (State.at_keeps h _)
  clear_value x1
  split
  · exact (KeepsR.next h1)
  next x3 x4 e3 =>
    have h3 := KeepsOP.out (State.claim_keeps h1 _ _ _) e3
    split
    · exact (KeepsR.next (State.endOp_keeps h3 _ _))
    · refine KeepsR.ite ?_ ?_
      · extract_lets -underBinder -merge +onlyGivenNames x7
        clear_value x7
        extract_lets -underBinder -merge +onlyGivenNames x8
        clear_value x8
        extract_lets -underBinder -merge +onlyGivenNames x9
        clear_value x9
        extract_lets -underBinder -merge +onlyGivenNames x10
        clear_value x10
        refine KeepsR.ite ?_ ?_
        · exact (KeepsR.next (State.endOp_keeps h3 _ _))
        · refine KeepsR.ite ?_ ?_
          · exact (KeepsR.next (State.endOp_keeps h3 _ _))
          · extract_lets -underBinder -merge +onlyGivenNames x11
            clear_value x11
            extract_lets -underBinder -merge +onlyGivenNames x12
            clear_value x12
            extract_lets -underBinder -merge +onlyGivenNames x13
            have h13 : Keeps a x13 := (State.modStore_keeps h3 _)
            clear_value x13
            extract_lets -underBinder -merge +onlyGivenNames x14
            have h14 : Keeps a x14 := (Keeps.ite h13 (State.each_keeps h13 fun _ h15 _ => (Keeps.ite (State.modThread_keeps h15 _ _) h15)))
            clear_value x14
            extract_lets -underBinder -merge +onlyGivenNames x16
            have h16 : Keeps a x16 := (State.each_keeps (State.dealLanes_keeps h14 _) fun _ h17 _ => (State.modStream_keeps h17 _ _))
            clear_value x16
            exact (KeepsR.next (State.storeShow_keeps (State.modOp_keeps h16 _ _)))
      · split
        · exact (KeepsR.next (Keeps.ite (State.endOp_keeps h3 _ _) (State.settleJobs_keeps h3)))
        · exact (KeepsR.next h3)

theorem execReadRecord_keeps (h : Keeps a s) (y1) (y2) (y3) : KeepsR a (execReadRecord y1 y2 y3 s) := by
  unfold execReadRecord
  extract_lets -underBinder -merge +onlyGivenNames x1
  have h1 : Keeps a x1 := (State.at_keeps h _)
  clear_value x1
  split
  · exact (KeepsR.next h1)
  next x3 x4 e3 =>
    have h3 := KeepsOP.out (State.claim_keeps h1 _ _ _) e3
    split
    · exact (KeepsR.next (State.endOp_keeps h3 _ _))
    · extract_lets -underBinder -merge +onlyGivenNames x7
      clear_value x7
      extract_lets -underBinder -merge +onlyGivenNames x8
      clear_value x8
      extract_lets -underBinder -merge +onlyGivenNames x9
      clear_value x9
      extract_lets -underBinder -merge +onlyGivenNames x10
      clear_value x10
      extract_lets -underBinder -merge +onlyGivenNames x11
      clear_value x11
      extract_lets -underBinder -merge +onlyGivenNames x12
      clear_value x12
      extract_lets -underBinder -merge +onlyGivenNames x13
      have h13 : ∀ u0 u1, Keeps a u0 → Keeps a (x13 u0 u1) := by
        intro u0 u1 k13
        subst x13
        beta_reduce
        extract_lets -underBinder -merge +onlyGivenNames x14
        have h14 : Keeps a x14 := (State.modOp_keeps k13 _ _)
        clear_value x14
        exact (State.endOp_keeps h14 _ _)
      clear_value x13
      extract_lets -underBinder -merge +onlyGivenNames x15
      clear_value x15
      refine KeepsR.ite ?_ ?_
      · exact (KeepsR.next (State.endOp_keeps h3 _ _))
      · refine KeepsR.ite ?_ ?_
        · exact (KeepsR.next h3)
        · split
          · exact (KeepsR.next (h13 _ _ h3))
          · split
            next x19 x20 x21 e19 =>
              have h19 := KeepsP.out (KeepsP.ite (State.deliverTo_keeps h3 _ _) (KeepsP.mk h3)) e19
              refine KeepsR.ite ?_ ?_
              · exact (KeepsR.next (Keeps.ite (State.endOp_keeps h19 _ _) (h13 _ _ h19)))
              · extract_lets -underBinder -merge +onlyGivenNames x22
                have h22 : Keeps a x22 := (Keeps.ite h19 (State.emit_keeps h19 _))
                clear_value x22
                extract_lets -underBinder -merge +onlyGivenNames x23
                clear_value x23
                exact (KeepsR.next (State.dcpShow_keeps (State.modOp_keeps h22 _ _)))

theorem execStoreFormat_keeps (h : Keeps a s) (y1) (y2) (y3) : KeepsR a (execStoreFormat y1 y2 y3 s) := by
  unfold execStoreFormat
  extract_lets -underBinder -merge +onlyGivenNames x1
  have h1 : Keeps a x1 := (State.at_keeps h _)
  clear_value x1
  split
  · exact (KeepsR.next h1)
  next x3 x4 e3 =>
    have h3 := KeepsOP.out (State.claim_keeps h1 _ _ _) e3
    split
    · exact (KeepsR.next (State.endOp_keeps h3 _ _))
    · extract_lets -underBinder -merge +onlyGivenNames x7
      clear_value x7
      extract_lets -underBinder -merge +onlyGivenNames x8
      clear_value x8
      refine KeepsR.ite ?_ ?_
      · exact (KeepsR.next (State.endOp_keeps h3 _ _))
      · extract_lets -underBinder -merge +onlyGivenNames x9
        clear_value x9
        extract_lets -underBinder -merge +onlyGivenNames x10
        clear_value x10
        extract_lets -underBinder -merge +onlyGivenNames x11
        have h11 : Keeps a x11 := (State.modOp_keeps h3 _ _)
        clear_value x11
        extract_lets -underBinder -merge +onlyGivenNames x12
        have h12 : Keeps a x12 := (State.modStore_keeps h11 _)
        clear_value x12
        extract_lets -underBinder -merge +onlyGivenNames x13
        have h13 : Keeps a x13 := (Keeps.ite h3 (State.storeShow_keeps (State.putB_keeps (State.putB_keeps h12 _ _ _ _) _ _ _ _)))
        clear_value x13
        extract_lets -underBinder -merge +onlyGivenNames x14
        clear_value x14
        extract_lets -underBinder -merge +onlyGivenNames x15
        clear_value x15
        refine KeepsR.ite ?_ ?_
        · extract_lets -underBinder -merge +onlyGivenNames x16
          have h16 : Keeps a x16 := (State.putB_keeps h13 _ _ _ _)
          clear_value x16
          exact (KeepsR.next (State.endOp_keeps h16 _ _))
        · extract_lets -underBinder -merge +onlyGivenNames x17
          clear_value x17
          extract_lets -underBinder -merge +onlyGivenNames x18
          have h18 : Keeps a x18 := (State.modOp_keeps h13 _ _)
          clear_value x18
          refine KeepsR.ite ?_ ?_
          · exact (KeepsR.next h18)
          · extract_lets -underBinder -merge +onlyGivenNames x19
            clear_value x19
            extract_lets -underBinder -merge +onlyGivenNames x20
            have h20 : Keeps a x20 := (State.modDrive_keeps h18 _ _)
            clear_value x20
            extract_lets -underBinder -merge +onlyGivenNames x21
            have h21 : Keeps a x21 := (State.emit_keeps h20 _)
            clear_value x21
            extract_lets -underBinder -merge +onlyGivenNames x22
            have h22 : Keeps a x22 := (State.emit_keeps h21 _)
            clear_value x22
            exact (KeepsR.next (State.emit_keeps h22 _))

theorem execStoreScrub_keeps (h : Keeps a s) (y1) (y2) (y3) : KeepsR a (execStoreScrub y1 y2 y3 s) := by
  unfold execStoreScrub
  extract_lets -underBinder -merge +onlyGivenNames x1
  have h1 : Keeps a x1 := (State.at_keeps h _)
  clear_value x1
  split
  · exact (KeepsR.next h1)
  next x3 x4 e3 =>
    have h3 := KeepsOP.out (State.claim_keeps h1 _ _ _) e3
    split
    · exact (KeepsR.next (State.endOp_keeps h3 _ _))
    · extract_lets -underBinder -merge +onlyGivenNames x7
      clear_value x7
      refine KeepsR.ite ?_ ?_
      · exact (KeepsR.next (State.endOp_keeps h3 _ _))
      · refine KeepsR.ite ?_ ?_
        · exact (KeepsR.next h3)
        · extract_lets -underBinder -merge +onlyGivenNames x8
          have h8 : Keeps a x8 := (State.putB_keeps h3 _ _ _ _)
          clear_value x8
          split
          · exact (KeepsR.next (State.endOp_keeps h8 _ _))
          · split
            next x11 x12 x13 e11 =>
              have h11 := KeepsP.out (State.decodeChunk_keeps h8 _ _) e11
              extract_lets -underBinder -merge +onlyGivenNames x14
              clear_value x14
              extract_lets -underBinder -merge +onlyGivenNames x15
              have h15 : Keeps a x15 := (Keeps.ite (State.pulse_keeps (State.sat_keeps h11 _ _ _ _) _ _) h11)
              clear_value x15
              exact (KeepsR.next (State.dcpShow_keeps (State.modOp_keeps h15 _ _)))

theorem execOutOfBarRequest_keeps (h : Keeps a s) (y1) : KeepsR a (execOutOfBarRequest y1 s) := by
  unfold execOutOfBarRequest
  extract_lets -underBinder -merge +onlyGivenNames x1
  have h1 : Keeps a x1 := (State.at_keeps h _)
  clear_value x1
  exact (KeepsR.next (Keeps.ite (State.emit_keeps h1 _) h1))

theorem execConfigurationRequest_keeps (h : Keeps a s) (y1) (y2) : KeepsR a (execConfigurationRequest y1 y2 s) := by
  unfold execConfigurationRequest
  extract_lets -underBinder -merge +onlyGivenNames x1
  have h1 : Keeps a x1 := (State.at_keeps h _)
  clear_value x1
  refine KeepsR.ite ?_ ?_
  · exact (KeepsR.next h1)
  · refine KeepsR.ite ?_ ?_
    · exact (KeepsR.next (State.emit_keeps h1 _))
    · extract_lets -underBinder -merge +onlyGivenNames x2
      have h2 : Keeps a x2 := by
        subst x2
        split
        · exact (Keeps.same h1 rfl rfl rfl rfl rfl rfl rfl)
        · exact (Keeps.same h1 rfl rfl rfl rfl rfl rfl rfl)
        · exact h1
      clear_value x2
      exact (KeepsR.next (State.emit_keeps h2 _))

theorem execHifClr_keeps (h : Keeps a s) (y1) : KeepsR a (execHifClr y1 s) := by
  unfold execHifClr
  exact (KeepsR.next (Keeps.ite (State.clearAll_keeps h _ _) h))

end Sys2Proof.Machine
end

