-- ==== Sys2Proof/Laws/KeepsSeam.lean ====
section
/-!
SUPPORT. What the operations of Machine/Seam.lean keep (see Laws/Keeps.lean).
-/
namespace Sys2Proof.Machine
variable {a s : State}

theorem State.diverge_keeps (h : Keeps a s) (y2) (y3) (y4) (y5) : Keeps a (State.diverge s y2 y3 y4 y5) := by
  unfold State.diverge
  extract_lets -underBinder -merge +onlyGivenNames x1
  have h1 : Keeps a x1 := (State.put_keeps h _ _ _ _)
  clear_value x1
  extract_lets -underBinder -merge +onlyGivenNames x2
  have h2 : Keeps a x2 := (State.setReg_keeps h1 _ _ _)
  clear_value x2
  extract_lets -underBinder -merge +onlyGivenNames x3
  have h3 : Keeps a x3 := (State.pulse_keeps (State.sat_keeps h2 _ _ _ _) _ _)
  clear_value x3
  exact (State.raiseFault_keeps (State.marker_keeps h3 _ _ _ _ _) _)

theorem State.fireMismatch_keeps (h : Keeps a s) (y2) : Keeps a (State.fireMismatch s y2) := by
  unfold State.fireMismatch
  split
  next x1 x2 e2 =>
    have h2 := KeepsQ.out (State.takeFree_keeps h) e2
    split
    next x3 x4 e4 =>
      have h4 := KeepsQ.out (State.takeFree_keeps h2) e4
      exact (State.diverge_keeps (State.sat_keeps h4 _ _ _ _) _ _ _ _)

theorem State.compareFires_keeps (h : Keeps a s) (y2) : Keeps a (State.compareFires s y2) := by
  unfold State.compareFires
  refine Keeps.ite ?_ ?_
  · exact h
  · extract_lets -underBinder -merge +onlyGivenNames x1
    clear_value x1
    extract_lets -underBinder -merge +onlyGivenNames x2
    clear_value x2
    extract_lets -underBinder -merge +onlyGivenNames x3
    clear_value x3
    exact (Keeps.ite (State.fireMismatch_keeps h _) h)

theorem State.compareSpan_keeps (h : Keeps a s) (y2) : Keeps a (State.compareSpan s y2) := by
  unfold State.compareSpan
  extract_lets -underBinder -merge +onlyGivenNames x1
  clear_value x1
  extract_lets -underBinder -merge +onlyGivenNames x2
  have h2 : Keeps a x2 := (Keeps.same h rfl rfl rfl rfl rfl rfl rfl)
  clear_value x2
  refine Keeps.ite ?_ ?_
  · exact h2
  · refine Keeps.ite ?_ ?_
    · exact (State.sat_keeps h2 _ _ _ _)
    · extract_lets -underBinder -merge +onlyGivenNames x3
      have h3 : Keeps a x3 := (State.wrap_keeps h2 _ _ _ _)
      clear_value x3
      refine Keeps.ite ?_ ?_
      · extract_lets -underBinder -merge +onlyGivenNames x4
        have h4 : Keeps a x4 := (State.putB_keeps h3 _ _ _ _)
        clear_value x4
        exact (Keeps.same h4 rfl rfl rfl rfl rfl rfl rfl)
      · extract_lets -underBinder -merge +onlyGivenNames x5
        have h5 : Keeps a x5 := (State.putB_keeps h3 _ _ _ _)
        clear_value x5
        exact (State.diverge_keeps h5 _ _ _ _)

end Sys2Proof.Machine
end

