-- ==== Sys2Proof/Laws/KeepsAcq.lean ====
section
/-!
SUPPORT. What the operations of Machine/Acq.lean keep (see Laws/Keeps.lean).
-/
namespace Sys2Proof.Machine
variable {a s : State}

theorem State.spanSlots_keeps (h : Keeps a s) (y2) : KeepsQ a (State.spanSlots s y2) := by
  unfold State.spanSlots
  split
  · exact (KeepsQ.mk h)
  · exact (KeepsQ.mk h)
  · extract_lets -underBinder -merge +onlyGivenNames x4
    clear_value x4
    extract_lets -underBinder -merge +onlyGivenNames x5
    clear_value x5
    extract_lets -underBinder -merge +onlyGivenNames x6
    clear_value x6
    refine KeepsQ.ite ?_ ?_
    · split
      next x7 x8 e8 =>
        have h8 := KeepsQ.out (State.takeFree_keeps h) e8
        exact (KeepsQ.mk h8)
    · exact (KeepsQ.mk h)

theorem State.armResult_keeps (h : Keeps a s) (y2) (y3) (y4) (y5) (y6) : Keeps a (State.armResult s y2 y3 y4 y5 y6) := by
  unfold State.armResult
  exact (State.setReg_keeps h _ _ _)

theorem State.grants_keeps (h : Keeps a s) : KeepsQ a (State.grants s) := by
  unfold State.grants
  split
  next x1 x2 e2 =>
    have h2 := KeepsQ.out (State.spanSlots_keeps h _) e2
    split
    next x3 x4 e4 =>
      have h4 := KeepsQ.out (State.spanSlots_keeps h2 _) e4
      split
      · exact (KeepsQ.mk h4)
      · exact (KeepsQ.ite (KeepsQ.mk h4) (KeepsQ.mk h4))

theorem State.layRings_keeps (h : Keeps a s) : Keeps a (State.layRings s) := by
  unfold State.layRings
  extract_lets -underBinder -merge +onlyGivenNames x1
  have h1 : Keeps a x1 := (State.each_keeps h fun _ h2 _ => (State.setReg_keeps (State.setReg_keeps h2 _ _ _) _ _ _))
  clear_value x1
  exact (KeepsP.fold (KeepsP.mk h1) fun _ h3 _ => (KeepsP.mk (State.setReg_keeps h3 _ _ _)))

theorem State.armPass_keeps (h : Keeps a s) (y2) : Keeps a (State.armPass s y2) := by
  unfold State.armPass
  split
  next x1 x2 e2 =>
    have h2 := KeepsQ.out (State.grants_keeps h) e2
    split
    · extract_lets -underBinder -merge +onlyGivenNames x7
      have h7 : Keeps a x7 := (State.armResult_keeps h2 _ _ _ _ _)
      clear_value x7
      extract_lets -underBinder -merge +onlyGivenNames x8
      have h8 : Keeps a x8 := (State.layRings_keeps (State.wrap_keeps h7 _ _ _ _))
      clear_value x8
      extract_lets -underBinder -merge +onlyGivenNames x9
      have h9 : Keeps a x9 := (State.put64_keeps h8 _ _ _ _ _)
      clear_value x9
      extract_lets -underBinder -merge +onlyGivenNames x10
      have h10 : Keeps a x10 := (State.put64_keeps h9 _ _ _ _ _)
      clear_value x10
      extract_lets -underBinder -merge +onlyGivenNames x11
      have h11 : Keeps a x11 := (State.put64_keeps h10 _ _ _ _ _)
      clear_value x11
      extract_lets -underBinder -merge +onlyGivenNames x12
      have h12 : Keeps a x12 := (Keeps.ite (State.pulse_keeps h11 _ _) h11)
      clear_value x12
      extract_lets -underBinder -merge +onlyGivenNames x13
      have h13 : Keeps a x13 := (Keeps.ite (State.pulse_keeps h12 _ _) h12)
      clear_value x13
      extract_lets -underBinder -merge +onlyGivenNames x14
      clear_value x14
      extract_lets -underBinder -merge +onlyGivenNames x15
      have h15 : Keeps a x15 := (State.endActivity_keeps h13 _ _)
      clear_value x15
      exact (State.modAcq_keeps h15 _)

theorem State.tryArm_keeps (h : Keeps a s) (y2) : KeepsP a (State.tryArm s y2) := by
  unfold State.tryArm
  split
  · exact (KeepsP.mk (State.pulse_keeps (State.armResult_keeps h _ _ _ _ _) _ _))
  · exact (KeepsP.mk (State.armPass_keeps h _))

theorem execArm_keeps (h : Keeps a s) (y1) (y2) : KeepsR a (execArm y1 y2 s) := by
  unfold execArm
  extract_lets -underBinder -merge +onlyGivenNames x1
  have h1 : Keeps a x1 := (State.at_keeps h _)
  clear_value x1
  extract_lets -underBinder -merge +onlyGivenNames x2
  clear_value x2
  refine KeepsR.ite ?_ ?_
  · exact (KeepsR.next h1)
  · refine KeepsR.ite ?_ ?_
    · exact (KeepsR.next (State.sat_keeps h1 _ _ _ _))
    · refine KeepsR.ite ?_ ?_
      · exact (KeepsR.next (State.put_keeps h1 _ _ _ _))
      · extract_lets -underBinder -merge +onlyGivenNames x3
        clear_value x3
        extract_lets -underBinder -merge +onlyGivenNames x4
        clear_value x4
        extract_lets -underBinder -merge +onlyGivenNames x5
        clear_value x5
        extract_lets -underBinder -merge +onlyGivenNames x6
        clear_value x6
        split
        next x7 x8 e7 =>
          have h7 := KeepsP.out (State.tryArm_keeps h1 _) e7
          refine KeepsR.ite ?_ ?_
          · exact (KeepsR.next h7)
          · refine KeepsR.ite ?_ ?_
            · extract_lets -underBinder -merge +onlyGivenNames x9
              have h9 : Keeps a x9 := (State.put64_keeps h7 _ _ _ _ _)
              clear_value x9
              exact (KeepsR.next (State.broadcast_keeps h9 _ _ _ _ _))
            · exact (KeepsR.next (Keeps.ite (State.sendTwin_keeps h7 _ _ _ _ _) h7))

theorem State.gapsAtArm_keeps (h : Keeps a s) (y2) : Keeps a (State.gapsAtArm s y2) := by
  unfold State.gapsAtArm
  extract_lets -underBinder -merge +onlyGivenNames x1
  have h1 : Keeps a x1 := (State.each_keeps h fun _ h2 _ => (Keeps.ite (State.gapOpen_keeps h2 _ _ _) h2))
  clear_value x1
  extract_lets -underBinder -merge +onlyGivenNames x3
  have h3 : Keeps a x3 := (State.each_keeps h1 fun _ h4 _ => (Keeps.ite (State.gapOpen_keeps h4 _ _ _) h4))
  clear_value x3
  exact (State.each_keeps h3 fun _ h5 _ => (State.gapOpen_keeps h5 _ _ _))

theorem State.unvalid_keeps (h : Keeps a s) (y2) : Keeps a (State.unvalid s y2) := by
  unfold State.unvalid
  extract_lets -underBinder -merge +onlyGivenNames x1
  clear_value x1
  exact (State.dmWrite_keeps h _ _)

theorem State.dropRecordJob_keeps (h : Keeps a s) : Keeps a (State.dropRecordJob s) := by
  unfold State.dropRecordJob
  extract_lets -underBinder -merge +onlyGivenNames x1
  have h1 : Keeps a x1 := (State.modStore_keeps h _)
  clear_value x1
  split
  · exact h1
  · extract_lets -underBinder -merge +onlyGivenNames x4
    have h4 : Keeps a x4 := (State.modStore_keeps h1 _)
    clear_value x4
    exact (Keeps.ite (State.tableWrite_keeps h4 _) h4)

theorem State.beginRecord_keeps (h : Keeps a s) (y2) (y3) (y4) : Keeps a (State.beginRecord s y2 y3 y4) := by
  unfold State.beginRecord
  extract_lets -underBinder -merge +onlyGivenNames x1
  have h1 : Keeps a x1 := (State.setReg_keeps h _ _ _)
  clear_value x1
  extract_lets -underBinder -merge +onlyGivenNames x2
  clear_value x2
  extract_lets -underBinder -merge +onlyGivenNames x3
  clear_value x3
  extract_lets -underBinder -merge +onlyGivenNames x4
  have h4 : Keeps a x4 := (State.modAcq_keeps h1 _)
  clear_value x4
  extract_lets -underBinder -merge +onlyGivenNames x5
  have h5 : Keeps a x5 := (State.put64_keeps h4 _ _ _ _ _)
  clear_value x5
  extract_lets -underBinder -merge +onlyGivenNames x6
  have h6 : Keeps a x6 := (State.put64_keeps h5 _ _ _ _ _)
  clear_value x6
  extract_lets -underBinder -merge +onlyGivenNames x7
  have h7 : Keeps a x7 := (State.put64_keeps h6 _ _ _ _ _)
  clear_value x7
  extract_lets -underBinder -merge +onlyGivenNames x8
  have h8 : Keeps a x8 := (State.put64_keeps h7 _ _ _ _ _)
  clear_value x8
  extract_lets -underBinder -merge +onlyGivenNames x9
  have h9 : Keeps a x9 := (State.each_keeps h8 fun _ h10 _ => (State.put_keeps (State.put_keeps h10 _ _ _ _) _ _ _ _))
  clear_value x9
  extract_lets -underBinder -merge +onlyGivenNames x11
  have h11 : Keeps a x11 := (State.putB_keeps h9 _ _ _ _)
  clear_value x11
  extract_lets -underBinder -merge +onlyGivenNames x12
  clear_value x12
  extract_lets -underBinder -merge +onlyGivenNames x13
  have h13 : Keeps a x13 := (Keeps.ite (State.recFlag_keeps h11 _) h11)
  clear_value x13
  extract_lets -underBinder -merge +onlyGivenNames x14
  have h14 : Keeps a x14 := (Keeps.ite (State.recFlag_keeps h13 _) h13)
  clear_value x14
  extract_lets -underBinder -merge +onlyGivenNames x15
  have h15 : Keeps a x15 := (Keeps.ite (State.recFlag_keeps h14 _) h14)
  clear_value x15
  extract_lets -underBinder -merge +onlyGivenNames x16
  clear_value x16
  extract_lets -underBinder -merge +onlyGivenNames x17
  have h17 : Keeps a x17 := (Keeps.ite (State.note_keeps h15 _ _ _ _ _) h15)
  clear_value x17
  extract_lets -underBinder -merge +onlyGivenNames x18
  have h18 : Keeps a x18 := (Keeps.ite (State.note_keeps h17 _ _ _ _ _) h17)
  clear_value x18
  extract_lets -underBinder -merge +onlyGivenNames x19
  have h19 : Keeps a x19 := (State.unvalid_keeps h18 _)
  clear_value x19
  extract_lets -underBinder -merge +onlyGivenNames x20
  have h20 : Keeps a x20 := (State.each_keeps h19 fun _ h21 _ => (State.modDig_keeps h21 _ _))
  clear_value x20
  extract_lets -underBinder -merge +onlyGivenNames x22
  have h22 : Keeps a x22 := (State.gapsAtArm_keeps h20 _)
  clear_value x22
  extract_lets -underBinder -merge +onlyGivenNames x23
  clear_value x23
  extract_lets -underBinder -merge +onlyGivenNames x24
  have h24 : Keeps a x24 := (State.endActivity_keeps h22 _ _)
  clear_value x24
  exact (State.each_keeps h24 fun _ h25 _ => (State.refreshRfq_keeps h25 _))

theorem execArmingTakesEffect_keeps (h : Keeps a s) (y1) : KeepsR a (execArmingTakesEffect y1 s) := by
  unfold execArmingTakesEffect
  extract_lets -underBinder -merge +onlyGivenNames x1
  have h1 : Keeps a x1 := (State.at_keeps h _)
  clear_value x1
  split
  · exact (KeepsR.next h1)
  · refine KeepsR.ite ?_ ?_
    · exact (KeepsR.next h1)
    · extract_lets -underBinder -merge +onlyGivenNames x4
      clear_value x4
      extract_lets -underBinder -merge +onlyGivenNames x5
      have h5 : Keeps a x5 := (State.dropRecordJob_keeps h1)
      clear_value x5
      extract_lets -underBinder -merge +onlyGivenNames x6
      have h6 : Keeps a x6 := (Keeps.same h5 rfl rfl rfl rfl rfl rfl rfl)
      clear_value x6
      extract_lets -underBinder -merge +onlyGivenNames x7
      have h7 : Keeps a x7 := (Keeps.ite (Keeps.same h6 rfl rfl rfl rfl rfl rfl rfl) h6)
      clear_value x7
      extract_lets -underBinder -merge +onlyGivenNames x8
      have h8 : Keeps a x8 := (State.put_keeps h7 _ _ _ _)
      clear_value x8
      extract_lets -underBinder -merge +onlyGivenNames x9
      have h9 : Keeps a x9 := (State.beginRecord_keeps h8 _ _ _)
      clear_value x9
      extract_lets -underBinder -merge +onlyGivenNames x10
      have h10 : Keeps a x10 := (State.rfqState_keeps (State.dealLanes_keeps h9 _))
      clear_value x10
      exact (KeepsR.next (State.storeShow_keeps (State.acqShow_keeps (State.ladderStart_keeps h10 _))))

theorem State.stopAt_keeps (h : Keeps a s) (y2) : Keeps a (State.stopAt s y2) := by
  unfold State.stopAt
  refine Keeps.ite ?_ ?_
  · exact h
  · extract_lets -underBinder -merge +onlyGivenNames x1
    have h1 : Keeps a x1 := (State.modAcq_keeps h _)
    clear_value x1
    exact (State.settleTrigger_keeps (State.chooseTrigger_keeps (State.ladderEnd_keeps h1 _)))

theorem execStop_keeps (h : Keeps a s) (y1) (y2) : KeepsR a (execStop y1 y2 s) := by
  unfold execStop
  extract_lets -underBinder -merge +onlyGivenNames x1
  have h1 : Keeps a x1 := (State.at_keeps h _)
  clear_value x1
  extract_lets -underBinder -merge +onlyGivenNames x2
  clear_value x2
  refine KeepsR.ite ?_ ?_
  · exact (KeepsR.next h1)
  · refine KeepsR.ite ?_ ?_
    · exact (KeepsR.next (State.sat_keeps h1 _ _ _ _))
    · refine KeepsR.ite ?_ ?_
      · exact (KeepsR.next h1)
      · refine KeepsR.ite ?_ ?_
        · extract_lets -underBinder -merge +onlyGivenNames x3
          clear_value x3
          exact (KeepsR.next (State.broadcast_keeps (State.stopAt_keeps h1 _) _ _ _ _ _))
        · refine KeepsR.ite ?_ ?_
          · extract_lets -underBinder -merge +onlyGivenNames x4
            clear_value x4
            exact (KeepsR.next (State.sendTwin_keeps (State.stopAt_keeps h1 _) _ _ _ _ _))
          · exact (KeepsR.next (State.stopAt_keeps h1 _))

theorem execCollarFull_keeps (h : Keeps a s) (y1) : KeepsR a (execCollarFull y1 s) := by
  unfold execCollarFull
  extract_lets -underBinder -merge +onlyGivenNames x1
  have h1 : Keeps a x1 := (State.at_keeps h _)
  clear_value x1
  exact (KeepsR.next (Keeps.ite (State.gmbShow_keeps (State.acqShow_keeps (State.pulse_keeps (State.modAcq_keeps h1 _) _ _))) h1))

theorem State.drainBanks_keeps (h : Keeps a s) (y2) : Keeps a (State.drainBanks s y2) := by
  unfold State.drainBanks
  refine Keeps.ite ?_ ?_
  · exact h
  · extract_lets -underBinder -merge +onlyGivenNames x1
    clear_value x1
    refine State.each_keeps h fun _ h3 _ => ?_
    · split
      · exact h3
      · split
        next x6 x7 e6 =>
          have h6 := KeepsP.out (State.ringWrite_keeps h3 _ _) e6
          exact (Keeps.ite (State.refreshRfq_keeps (State.modStream_keeps h6 _ _) _) h6)

theorem State.finalChunk_keeps (h : Keeps a s) (y2) : Keeps a (State.finalChunk s y2) := by
  unfold State.finalChunk
  extract_lets -underBinder -merge +onlyGivenNames x1
  clear_value x1
  exact (State.drainBanks_keeps (Keeps.ite h (State.closeChunk_keeps h _ _)) _)

theorem State.writeRecord_keeps (h : Keeps a s) (y2) : Keeps a (State.writeRecord s y2) := by
  unfold State.writeRecord
  extract_lets -underBinder -merge +onlyGivenNames x1
  clear_value x1
  extract_lets -underBinder -merge +onlyGivenNames x2
  clear_value x2
  extract_lets -underBinder -merge +onlyGivenNames x3
  have h3 : Keeps a x3 := (State.put64_keeps h _ _ _ _ _)
  clear_value x3
  extract_lets -underBinder -merge +onlyGivenNames x4
  have h4 : Keeps a x4 := (State.modAcq_keeps h3 _)
  clear_value x4
  extract_lets -underBinder -merge +onlyGivenNames x5
  have h5 : Keeps a x5 := (Keeps.ite h4 (State.modAcq_keeps h4 _))
  clear_value x5
  extract_lets -underBinder -merge +onlyGivenNames x6
  have h6 : Keeps a x6 := (Keeps.ite h5 (State.modAcq_keeps h5 _))
  clear_value x6
  extract_lets -underBinder -merge +onlyGivenNames x7
  have h7 : Keeps a x7 := (Keeps.ite (State.recFlag_keeps h6 _) h6)
  clear_value x7
  extract_lets -underBinder -merge +onlyGivenNames x8
  clear_value x8
  extract_lets -underBinder -merge +onlyGivenNames x9
  have h9 : Keeps a x9 := (State.each_keeps h7 fun _ h10 _ => (State.gapClose_keeps h10 _ _ _ _))
  clear_value x9
  extract_lets -underBinder -merge +onlyGivenNames x11
  have h11 : Keeps a x11 := (State.each_keeps h9 fun _ h12 _ => (State.finishStamps_keeps h12 _ _))
  clear_value x11
  extract_lets -underBinder -merge +onlyGivenNames x13
  have h13 : Keeps a x13 := (State.closeMerges_keeps (State.closeMerges_keeps h11 _) _)
  clear_value x13
  extract_lets -underBinder -merge +onlyGivenNames x14
  have h14 : Keeps a x14 := (State.dropAfter_keeps h13 _)
  clear_value x14
  extract_lets -underBinder -merge +onlyGivenNames x15
  have h15 : Keeps a x15 := (State.compareFires_keeps h14 _)
  clear_value x15
  extract_lets -underBinder -merge +onlyGivenNames x16
  have h16 : Keeps a x16 := (State.each_keeps h15 fun _ h17 _ => (State.finalChunk_keeps h17 _))
  clear_value x16
  extract_lets -underBinder -merge +onlyGivenNames x18
  clear_value x18
  extract_lets -underBinder -merge +onlyGivenNames x19
  clear_value x19
  extract_lets -underBinder -merge +onlyGivenNames x20
  clear_value x20
  extract_lets -underBinder -merge +onlyGivenNames x21
  have h21 : Keeps a x21 := (Keeps.ite h16 (State.finalChunk_keeps (State.appendItem_keeps h16 _ _) _))
  clear_value x21
  extract_lets -underBinder -merge +onlyGivenNames x22
  clear_value x22
  extract_lets -underBinder -merge +onlyGivenNames x23
  have h23 : Keeps a x23 := (State.setReg_keeps h21 _ _ _)
  clear_value x23
  extract_lets -underBinder -merge +onlyGivenNames x24
  clear_value x24
  extract_lets -underBinder -merge +onlyGivenNames x25
  have h25 : Keeps a x25 := (State.dmWrite_keeps h23 _ _)
  clear_value x25
  extract_lets -underBinder -merge +onlyGivenNames x26
  clear_value x26
  exact (State.settleJobs_keeps (State.modJob_keeps h25 _ _))

theorem State.nextSegment_keeps (h : Keeps a s) : Keeps a (State.nextSegment s) := by
  unfold State.nextSegment
  extract_lets -underBinder -merge +onlyGivenNames x1
  clear_value x1
  extract_lets -underBinder -merge +onlyGivenNames x2
  clear_value x2
  extract_lets -underBinder -merge +onlyGivenNames x3
  clear_value x3
  extract_lets -underBinder -merge +onlyGivenNames x4
  have h4 : Keeps a x4 := (Keeps.ite (State.pulse_keeps (State.sat_keeps (State.unvalid_keeps h _) _ _ _ _) _ _) h)
  clear_value x4
  extract_lets -underBinder -merge +onlyGivenNames x5
  have h5 : Keeps a x5 := (Keeps.same h4 rfl rfl rfl rfl rfl rfl rfl)
  clear_value x5
  extract_lets -underBinder -merge +onlyGivenNames x6
  have h6 : Keeps a x6 := (State.beginRecord_keeps h5 _ _ _)
  clear_value x6
  extract_lets -underBinder -merge +onlyGivenNames x7
  have h7 : Keeps a x7 := (State.modGmb_keeps h6 _)
  clear_value x7
  extract_lets -underBinder -merge +onlyGivenNames x8
  have h8 : Keeps a x8 := (State.marker_keeps h7 _ _ _ _ _)
  clear_value x8
  exact (State.acqShow_keeps (State.gmbShow_keeps (State.putB_keeps h8 _ _ _ _)))

theorem State.recordDone_keeps (h : Keeps a s) (y2) (y3) : Keeps a (State.recordDone s y2 y3) := by
  unfold State.recordDone
  extract_lets -underBinder -merge +onlyGivenNames x1
  clear_value x1
  extract_lets -underBinder -merge +onlyGivenNames x2
  have h2 : Keeps a x2 := (State.pulse_keeps (State.put_keeps h _ _ _ _) _ _)
  clear_value x2
  refine Keeps.ite ?_ ?_
  · exact (State.nextSegment_keeps h2)
  · extract_lets -underBinder -merge +onlyGivenNames x3
    clear_value x3
    extract_lets -underBinder -merge +onlyGivenNames x4
    have h4 : Keeps a x4 := (State.modGmb_keeps h2 _)
    clear_value x4
    extract_lets -underBinder -merge +onlyGivenNames x5
    have h5 : Keeps a x5 := (State.modAcq_keeps h4 _)
    clear_value x5
    exact (State.settleArmed_keeps (State.gmbShow_keeps (State.acqShow_keeps h5)))

theorem execRecordClose_keeps (h : Keeps a s) (y1) : KeepsR a (execRecordClose y1 s) := by
  unfold execRecordClose
  extract_lets -underBinder -merge +onlyGivenNames x1
  have h1 : Keeps a x1 := (State.at_keeps h _)
  clear_value x1
  refine KeepsR.ite ?_ ?_
  · exact (KeepsR.next h1)
  · split
    · exact (KeepsR.next (Keeps.ite (State.recordDone_keeps h1 _ _) h1))
    · split
      · exact (KeepsR.next h1)
      · extract_lets -underBinder -merge +onlyGivenNames x8
        clear_value x8
        refine KeepsR.ite ?_ ?_
        · exact (KeepsR.next h1)
        · extract_lets -underBinder -merge +onlyGivenNames x9
          have h9 : Keeps a x9 := (State.writeRecord_keeps h1 _)
          clear_value x9
          extract_lets -underBinder -merge +onlyGivenNames x10
          have h10 : Keeps a x10 := (State.acqShow_keeps (State.modAcq_keeps h9 _))
          clear_value x10
          exact (KeepsR.next (Keeps.ite (State.recordDone_keeps h10 _ _) h10))

theorem execLiveClip_keeps (h : Keeps a s) (y1) : KeepsR a (execLiveClip y1 s) := by
  unfold execLiveClip
  extract_lets -underBinder -merge +onlyGivenNames x1
  have h1 : Keeps a x1 := (State.at_keeps h _)
  clear_value x1
  refine KeepsR.ite ?_ ?_
  · exact (KeepsR.next h1)
  · extract_lets -underBinder -merge +onlyGivenNames x2
    clear_value x2
    split
    · exact (KeepsR.next h1)
    · refine KeepsR.ite ?_ ?_
      · exact (KeepsR.next h1)
      · extract_lets -underBinder -merge +onlyGivenNames x5
        have h5 : Keeps a x5 := (State.modAcq_keeps h1 _)
        clear_value x5
        exact (KeepsR.next (Keeps.ite (State.acqShow_keeps (State.liveClipped_keeps h5 _)) (State.acqShow_keeps h5)))

theorem State.thinShow_keeps (h : Keeps a s) : Keeps a (State.thinShow s) := by
  unfold State.thinShow
  extract_lets -underBinder -merge +onlyGivenNames x1
  clear_value x1
  extract_lets -underBinder -merge +onlyGivenNames x2
  have h2 : Keeps a x2 := (State.setBlockState_keeps (State.put_keeps h _ _ _ _) _ _)
  clear_value x2
  exact (State.each_keeps h2 fun _ h3 _ => (State.level_keeps h3 _ _ _))

theorem execThinStepUp_keeps (h : Keeps a s) (y1) (y2) (y3) : KeepsR a (execThinStepUp y1 y2 y3 s) := by
  unfold execThinStepUp
  extract_lets -underBinder -merge +onlyGivenNames x1
  have h1 : Keeps a x1 := (State.put_keeps (State.at_keeps h _) _ _ _ _)
  clear_value x1
  extract_lets -underBinder -merge +onlyGivenNames x2
  clear_value x2
  extract_lets -underBinder -merge +onlyGivenNames x3
  clear_value x3
  exact (KeepsR.next (Keeps.ite (State.decideStep_keeps (State.sat_keeps h1 _ _ _ _) _ _ _) h1))

theorem execThinStepDown_keeps (h : Keeps a s) (y1) (y2) (y3) : KeepsR a (execThinStepDown y1 y2 y3 s) := by
  unfold execThinStepDown
  extract_lets -underBinder -merge +onlyGivenNames x1
  have h1 : Keeps a x1 := (State.put_keeps (State.at_keeps h _) _ _ _ _)
  clear_value x1
  extract_lets -underBinder -merge +onlyGivenNames x2
  clear_value x2
  extract_lets -underBinder -merge +onlyGivenNames x3
  clear_value x3
  exact (KeepsR.next (Keeps.ite (State.decideStep_keeps h1 _ _ _) h1))

theorem execRate_keeps (h : Keeps a s) (y1) (y2) : KeepsR a (execRate y1 y2 s) := by
  unfold execRate
  extract_lets -underBinder -merge +onlyGivenNames x1
  have h1 : Keeps a x1 := (State.at_keeps h _)
  clear_value x1
  split
  · exact (KeepsR.next h1)
  · exact (KeepsR.next (Keeps.ite h1 (State.thinShow_keeps (State.applyStep_keeps h1 _ _))))

theorem execOverflow_keeps (h : Keeps a s) (y1) (y2) (y3) : KeepsR a (execOverflow y1 y2 y3 s) := by
  unfold execOverflow
  extract_lets -underBinder -merge +onlyGivenNames x1
  have h1 : Keeps a x1 := (State.at_keeps h _)
  clear_value x1
  extract_lets -underBinder -merge +onlyGivenNames x2
  clear_value x2
  extract_lets -underBinder -merge +onlyGivenNames x3
  clear_value x3
  refine KeepsR.ite ?_ ?_
  · exact (KeepsR.next h1)
  · refine KeepsR.ite ?_ ?_
    · refine KeepsR.ite ?_ ?_
      · exact (KeepsR.next h1)
      · extract_lets -underBinder -merge +onlyGivenNames x4
        have h4 : Keeps a x4 := (State.pulse_keeps (State.sat_keeps h1 _ _ _ _) _ _)
        clear_value x4
        exact (KeepsR.next (State.gapOpen_keeps (State.note_keeps h4 _ _ _ _ _) _ _ _))
    · exact (KeepsR.next (State.gapClose_keeps h1 _ _ _ _))

theorem execProtWindowClose_keeps (h : Keeps a s) (y1) : KeepsR a (execProtWindowClose y1 s) := by
  unfold execProtWindowClose
  extract_lets -underBinder -merge +onlyGivenNames x1
  have h1 : Keeps a x1 := (State.at_keeps h _)
  clear_value x1
  exact (KeepsR.next (Keeps.ite (State.protShow_keeps (State.modAcq_keeps h1 _) _) h1))

theorem execAcqClr_keeps (h : Keeps a s) (y1) : KeepsR a (execAcqClr y1 s) := by
  unfold execAcqClr
  exact (KeepsR.next (Keeps.ite (State.clearAll_keeps h _ _) h))

theorem execAcqThinClr_keeps (h : Keeps a s) (y1) : KeepsR a (execAcqThinClr y1 s) := by
  unfold execAcqThinClr
  exact (KeepsR.next (Keeps.ite (State.clearAll_keeps h _ _) h))

theorem State.kmaxCopied_keeps (h : Keeps a s) (y2) : Keeps a (State.kmaxCopied s y2) := by
  unfold State.kmaxCopied
  exact (Keeps.ite (State.decideStep_keeps h _ _ _) h)

end Sys2Proof.Machine
end

