-- ==== Sys2Proof/Laws/KeepsEth.lean ====
section
/-!
SUPPORT. What the operations of Machine/Eth.lean keep (see Laws/Keeps.lean).
-/
namespace Sys2Proof.Machine
variable {a s : State}

theorem State.serShow_keeps (h : Keeps a s) : Keeps a (State.serShow s) := by
  unfold State.serShow
  exact (State.level_keeps h _ _ _)

theorem State.setLanes_keeps (h : Keeps a s) (y2) (y3) (y4) (y5) : Keeps a (State.setLanes s y2 y3 y4 y5) := by
  unfold State.setLanes
  exact (State.serShow_keeps (State.each_keeps h fun _ h1 _ => (State.putB_keeps (State.putB_keeps (State.put_keeps h1 _ _ _ _) _ _ _ _) _ _ _ _)))

theorem execLaneDown_keeps (h : Keeps a s) (y1) (y2) (y3) (y4) : KeepsR a (execLaneDown y1 y2 y3 y4 s) := by
  unfold execLaneDown
  extract_lets -underBinder -merge +onlyGivenNames x1
  have h1 : Keeps a x1 := (State.at_keeps h _)
  clear_value x1
  extract_lets -underBinder -merge +onlyGivenNames x2
  have h2 : Keeps a x2 := (State.put_keeps (State.sat_keeps h1 _ _ _ _) _ _ _ _)
  clear_value x2
  exact (KeepsR.next (State.serShow_keeps (State.putB_keeps h2 _ _ _ _)))

theorem execSerClr_keeps (h : Keeps a s) (y1) : KeepsR a (execSerClr y1 s) := by
  unfold execSerClr
  exact (KeepsR.next (Keeps.ite (State.clearAll_keeps h _ _) h))

theorem execEthLinkChange_keeps (h : Keeps a s) (y1) (y2) (y3) : KeepsR a (execEthLinkChange y1 y2 y3 s) := by
  unfold execEthLinkChange
  extract_lets -underBinder -merge +onlyGivenNames x1
  have h1 : Keeps a x1 := (State.at_keeps h _)
  clear_value x1
  refine KeepsR.next ?_
  split
  · exact h1
  · extract_lets -underBinder -merge +onlyGivenNames x6
    have h6 : Keeps a x6 := (State.put_keeps h1 _ _ _ _)
    clear_value x6
    exact (State.level_keeps (State.setLanes_keeps h6 _ _ _ _) _ _ _)

theorem execPauseFrame_keeps (h : Keeps a s) (y1) (y2) (y3) : KeepsR a (execPauseFrame y1 y2 y3 s) := by
  unfold execPauseFrame
  extract_lets -underBinder -merge +onlyGivenNames x1
  have h1 : Keeps a x1 := (State.at_keeps h _)
  clear_value x1
  exact (KeepsR.next (Keeps.ite (Keeps.same h1 rfl rfl rfl rfl rfl rfl rfl) h1))

theorem State.sendDatagrams_keeps (h : Keeps a s) (d : Nat) (c : Chunk) (bs : List Byte) (n frag : Nat) :
    Keeps a (State.sendDatagrams d c bs n frag s) := by
  induction n generalizing s frag with
  | zero => exact h
  | succ n ih =>
    unfold State.sendDatagrams
    extract_lets v6 room off part last port q hd s1 s2
    have h2 : Keeps a s2 := Keeps.same (State.emit_keeps h _) rfl rfl rfl rfl rfl rfl rfl
    exact Keeps.ite h2 (ih h2 _)

theorem execEthChunkSend_keeps (h : Keeps a s) (y1) (y2) : KeepsR a (execEthChunkSend y1 y2 s) := by
  unfold execEthChunkSend
  extract_lets -underBinder -merge +onlyGivenNames x1
  have h1 : Keeps a x1 := (State.at_keeps h _)
  clear_value x1
  extract_lets -underBinder -merge +onlyGivenNames x2
  clear_value x2
  refine KeepsR.next ?_
  split
  · exact h1
  · refine Keeps.ite ?_ ?_
    · exact h1
    · extract_lets -underBinder -merge +onlyGivenNames x7
      clear_value x7
      extract_lets -underBinder -merge +onlyGivenNames x8
      have h8 : Keeps a x8 := (State.sendDatagrams_keeps h1 _ _ _ _ _)
      clear_value x8
      extract_lets -underBinder -merge +onlyGivenNames x9
      have h9 : Keeps a x9 := (Keeps.same h8 rfl rfl rfl rfl rfl rfl rfl)
      clear_value x9
      extract_lets -underBinder -merge +onlyGivenNames x10
      have h10 : Keeps a x10 := (State.wrap_keeps h9 _ _ _ _)
      clear_value x10
      split
      · exact (State.freePath_keeps h10 _ _)
      · exact h10

theorem execEthClr_keeps (h : Keeps a s) (y1) : KeepsR a (execEthClr y1 s) := by
  unfold execEthClr
  exact (KeepsR.next (Keeps.ite (State.clearAll_keeps h _ _) h))

end Sys2Proof.Machine
end

