-- ==== Sys2Proof/Laws/KeepsFlex.lean ====
section
/-!
SUPPORT. What the operations of Machine/Flex.lean keep (see Laws/Keeps.lean).
-/
namespace Sys2Proof.Machine
variable {a s : State}

theorem State.casShow_keeps (h : Keeps a s) : Keeps a (State.casShow s) := by
  unfold State.casShow
  extract_lets -underBinder -merge +onlyGivenNames x1
  clear_value x1
  extract_lets -underBinder -merge +onlyGivenNames x2
  clear_value x2
  extract_lets -underBinder -merge +onlyGivenNames x3
  have h3 : Keeps a x3 := (State.setBlockState_keeps h _ _)
  clear_value x3
  extract_lets -underBinder -merge +onlyGivenNames x4
  have h4 : Keeps a x4 := (State.level_keeps (State.level_keeps h3 _ _ _) _ _ _)
  clear_value x4
  exact (State.level_keeps h4 _ _ _)

theorem State.flxShow_keeps (h : Keeps a s) : Keeps a (State.flxShow s) := by
  unfold State.flxShow
  extract_lets -underBinder -merge +onlyGivenNames x1
  clear_value x1
  extract_lets -underBinder -merge +onlyGivenNames x2
  have h2 : Keeps a x2 := (State.each_keeps h fun _ h3 _ => (State.level_keeps h3 _ _ _))
  clear_value x2
  extract_lets -underBinder -merge +onlyGivenNames x4
  have h4 : Keeps a x4 := (State.setBlockState_keeps h2 _ _)
  clear_value x4
  exact (State.putB_keeps h4 _ _ _ _)

theorem State.setPort_keeps (h : Keeps a s) (y2) (y3) : Keeps a (State.setPort s y2 y3) := by
  unfold State.setPort
  extract_lets -underBinder -merge +onlyGivenNames x1
  clear_value x1
  extract_lets -underBinder -merge +onlyGivenNames x2
  have h2 : Keeps a x2 := (State.put_keeps h _ _ _ _)
  clear_value x2
  extract_lets -underBinder -merge +onlyGivenNames x3
  have h3 : Keeps a x3 := (State.put_keeps (State.putB_keeps h2 _ _ _ _) _ _ _ _)
  clear_value x3
  exact (State.flxShow_keeps (State.setLanes_keeps h3 _ _ _ _))

theorem State.retrigger_keeps (h : Keeps a s) : Keeps a (State.retrigger s) := by
  unfold State.retrigger
  exact (State.settleTrigger_keeps (State.chooseTrigger_keeps h))

theorem State.setBroken_keeps (h : Keeps a s) : Keeps a (State.setBroken s) := by
  unfold State.setBroken
  exact (State.casShow_keeps (State.putB_keeps h _ _ _ _))

theorem State.linkLoss_keeps (h : Keeps a s) (y2) : Keeps a (State.linkLoss s y2) := by
  unfold State.linkLoss
  refine Keeps.ite ?_ ?_
  · exact h
  · extract_lets -underBinder -merge +onlyGivenNames x1
    clear_value x1
    extract_lets -underBinder -merge +onlyGivenNames x2
    have h2 : Keeps a x2 := (State.raiseFault_keeps (State.setPort_keeps (State.sat_keeps h _ _ _ _) _ _) _)
    clear_value x2
    extract_lets -underBinder -merge +onlyGivenNames x3
    have h3 : Keeps a x3 := (State.modCas_keeps h2 _)
    clear_value x3
    refine Keeps.ite ?_ ?_
    · extract_lets -underBinder -merge +onlyGivenNames x4
      have h4 : Keeps a x4 := (State.modTwin_keeps h3 _)
      clear_value x4
      exact (Keeps.ite (State.retrigger_keeps (State.goAlone_keeps h4)) h4)
    · refine Keeps.ite ?_ ?_
      · exact h3
      · extract_lets -underBinder -merge +onlyGivenNames x5
        have h5 : Keeps a x5 := (State.setBroken_keeps h3)
        clear_value x5
        exact (State.bumpSeq_keeps (State.sendRing_keeps h5 _) _)

theorem execLinkLoss_keeps (h : Keeps a s) (y1) (y2) : KeepsR a (execLinkLoss y1 y2 s) := by
  unfold execLinkLoss
  extract_lets -underBinder -merge +onlyGivenNames x1
  have h1 : Keeps a x1 := (State.at_keeps h _)
  clear_value x1
  exact (KeepsR.next (Keeps.ite (State.linkLoss_keeps h1 _) h1))

theorem State.resend_keeps (h : Keeps a s) (y2) (y3) (y4) : Keeps a (State.resend s y2 y3 y4) := by
  unfold State.resend
  extract_lets -underBinder -merge +onlyGivenNames x1
  clear_value x1
  extract_lets -underBinder -merge +onlyGivenNames x2
  have h2 : Keeps a x2 := (State.each_keeps h fun _ h3 _ => (State.emit_keeps h3 _))
  clear_value x2
  extract_lets -underBinder -merge +onlyGivenNames x4
  have h4 : Keeps a x4 := (State.modFlx_keeps h2 _ _)
  clear_value x4
  extract_lets -underBinder -merge +onlyGivenNames x5
  have h5 : Keeps a x5 := (State.put_keeps h4 _ _ _ _)
  clear_value x5
  exact (State.pulse_keeps (State.sat_keeps h5 _ _ _ _) _ _)

theorem execFlitReceive_keeps (h : Keeps a s) (y1) (y2) (y3) (y4) (y5) : KeepsR a (execFlitReceive y1 y2 y3 y4 y5 s) := by
  unfold execFlitReceive
  refine KeepsR.ite ?_ ?_
  · exact KeepsR.fault
  · extract_lets -underBinder -merge +onlyGivenNames x1
    have h1 : Keeps a x1 := (State.at_keeps h _)
    clear_value x1
    refine KeepsR.ite ?_ ?_
    · exact (KeepsR.next h1)
    · extract_lets -underBinder -merge +onlyGivenNames x2
      clear_value x2
      extract_lets -underBinder -merge +onlyGivenNames x3
      have h3 : Keeps a x3 := (State.sat_keeps (State.sat_keeps h1 _ _ _ _) _ _ _ _)
      clear_value x3
      extract_lets -underBinder -merge +onlyGivenNames x4
      have h4 : Keeps a x4 := (Keeps.ite h3 (State.pulse_keeps h3 _ _))
      clear_value x4
      extract_lets -underBinder -merge +onlyGivenNames x5
      clear_value x5
      extract_lets -underBinder -merge +onlyGivenNames x6
      clear_value x6
      extract_lets -underBinder -merge +onlyGivenNames x7
      have h7 : Keeps a x7 := (Keeps.ite h4 (State.sat_keeps h4 _ _ _ _))
      clear_value x7
      extract_lets -underBinder -merge +onlyGivenNames x8
      have h8 : Keeps a x8 := (Keeps.ite (State.resend_keeps h7 _ _ _) h7)
      clear_value x8
      refine KeepsR.ite ?_ ?_
      · extract_lets -underBinder -merge +onlyGivenNames x9
        have h9 : Keeps a x9 := (State.modFlx_keeps h8 _ _)
        clear_value x9
        exact (KeepsR.next (Keeps.ite (State.wrap_keeps h9 _ _ _ _) h9))
      · extract_lets -underBinder -merge +onlyGivenNames x10
        have h10 : Keeps a x10 := (State.modFlx_keeps h8 _ _)
        clear_value x10
        extract_lets -underBinder -merge +onlyGivenNames x11
        have h11 : Keeps a x11 := (State.emit_keeps h10 _)
        clear_value x11
        exact (KeepsR.next (Keeps.ite (State.linkLoss_keeps h11 _) h11))

theorem execFlxClr_keeps (h : Keeps a s) (y1) : KeepsR a (execFlxClr y1 s) := by
  unfold execFlxClr
  exact (KeepsR.next (Keeps.ite (State.clearAll_keeps h _ _) h))

theorem execFlxRetrain_keeps (h : Keeps a s) (y1) (y2) : KeepsR a (execFlxRetrain y1 y2 s) := by
  unfold execFlxRetrain
  extract_lets -underBinder -merge +onlyGivenNames x1
  have h1 : Keeps a x1 := (State.at_keeps h _)
  clear_value x1
  refine KeepsR.next ?_
  refine State.each_keeps h1 fun _ h4 _ => ?_
  · extract_lets -underBinder -merge +onlyGivenNames x5
    clear_value x5
    refine Keeps.ite ?_ ?_
    · extract_lets -underBinder -merge +onlyGivenNames x6
      have h6 : Keeps a x6 := (Keeps.ite (State.linkLoss_keeps h4 _) h4)
      clear_value x6
      exact (State.setPort_keeps h6 _ _)
    · exact h4

theorem State.sendPair_keeps (h : Keeps a s) : Keeps a (State.sendPair s) := by
  unfold State.sendPair
  refine Keeps.ite ?_ ?_
  · extract_lets -underBinder -merge +onlyGivenNames x1
    have h1 : Keeps a x1 := (State.sendSeam_keeps h _ _ _ _ _)
    clear_value x1
    exact (Keeps.same h1 rfl rfl rfl rfl rfl rfl rfl)
  · exact h

theorem execPortRetrain_keeps (h : Keeps a s) (y1) (y2) (y3) : KeepsR a (execPortRetrain y1 y2 y3 s) := by
  unfold execPortRetrain
  extract_lets -underBinder -merge +onlyGivenNames x1
  have h1 : Keeps a x1 := (State.at_keeps h _)
  clear_value x1
  refine KeepsR.ite ?_ ?_
  · exact (KeepsR.next h1)
  · extract_lets -underBinder -merge +onlyGivenNames x2
    clear_value x2
    extract_lets -underBinder -merge +onlyGivenNames x3
    have h3 : Keeps a x3 := (State.modFlx_keeps h1 _ _)
    clear_value x3
    extract_lets -underBinder -merge +onlyGivenNames x4
    have h4 : Keeps a x4 := (State.setPort_keeps h3 _ _)
    clear_value x4
    exact (KeepsR.next (Keeps.ite (State.sendPair_keeps h4) h4))

theorem State.flxCopied_keeps (h : Keeps a s) : Keeps a (State.flxCopied s) := by
  unfold State.flxCopied
  refine State.each_keeps h fun _ h2 _ => ?_
  · extract_lets -underBinder -merge +onlyGivenNames x3
    clear_value x3
    exact (Keeps.ite (Keeps.ite (State.setPort_keeps h2 _ _) h2) (Keeps.ite h2 (State.setPort_keeps (State.linkLoss_keeps h2 _) _ _)))

end Sys2Proof.Machine
end

