-- ==== Sys2Proof/Laws/KeepsCascade.lean ====
section
/-!
SUPPORT. What the operations of Machine/Cascade.lean keep (see Laws/Keeps.lean).
-/
namespace Sys2Proof.Machine
variable {a s : State}

theorem State.hear_keeps (h : Keeps a s) (y2) (y3) (y4) : Keeps a (State.hear s y2 y3 y4) := by
  unfold State.hear
  refine Keeps.ite ?_ ?_
  · exact h
  · extract_lets -underBinder -merge +onlyGivenNames x1
    have h1 : Keeps a x1 := (State.modCas_keeps h _)
    clear_value x1
    exact (Keeps.ite h1 (State.casShow_keeps (State.put64_keeps h1 _ _ _ _ _)))

theorem State.ringToken_keeps (h : Keeps a s) (y2) (y3) (y4) : Keeps a (State.ringToken s y2 y3 y4) := by
  unfold State.ringToken
  exact (State.hear_keeps (State.relay_keeps h _ _) _ _ _)

theorem execAngleToken_keeps (h : Keeps a s) (y1) (y2) (y3) : KeepsR a (execAngleToken y1 y2 y3 s) := by
  unfold execAngleToken
  extract_lets -underBinder -merge +onlyGivenNames x1
  have h1 : Keeps a x1 := (State.at_keeps h _)
  clear_value x1
  exact (KeepsR.next (Keeps.ite (State.hear_keeps (State.angleTok_keeps h1 _ _ _) _ _ _) h1))

theorem State.pruneRemote_keeps (h : Keeps a s) : Keeps a (State.pruneRemote s) := by
  unfold State.pruneRemote
  extract_lets -underBinder -merge +onlyGivenNames x1
  clear_value x1
  extract_lets -underBinder -merge +onlyGivenNames x2
  clear_value x2
  exact (Keeps.same h rfl rfl rfl rfl rfl rfl rfl)

theorem execFireToken_keeps (h : Keeps a s) (y1) (y2) (y3) : KeepsR a (execFireToken y1 y2 y3 s) := by
  unfold execFireToken
  extract_lets -underBinder -merge +onlyGivenNames x1
  have h1 : Keeps a x1 := (State.at_keeps h _)
  clear_value x1
  refine KeepsR.ite ?_ ?_
  · exact (KeepsR.next h1)
  · extract_lets -underBinder -merge +onlyGivenNames x2
    clear_value x2
    extract_lets -underBinder -merge +onlyGivenNames x3
    have h3 : Keeps a x3 := (State.ringToken_keeps h1 _ _ _)
    clear_value x3
    refine KeepsR.ite ?_ ?_
    · exact (KeepsR.next h3)
    · extract_lets -underBinder -merge +onlyGivenNames x4
      clear_value x4
      extract_lets -underBinder -merge +onlyGivenNames x5
      clear_value x5
      extract_lets -underBinder -merge +onlyGivenNames x6
      have h6 : Keeps a x6 := (Keeps.ite h3 (State.wrap_keeps h3 _ _ _ _))
      clear_value x6
      extract_lets -underBinder -merge +onlyGivenNames x7
      clear_value x7
      extract_lets -underBinder -merge +onlyGivenNames x8
      have h8 : Keeps a x8 := (Keeps.ite (State.sat_keeps h6 _ _ _ _) h6)
      clear_value x8
      extract_lets -underBinder -merge +onlyGivenNames x9
      have h9 : Keeps a x9 := (Keeps.same h8 rfl rfl rfl rfl rfl rfl rfl)
      clear_value x9
      exact (KeepsR.next (State.pruneRemote_keeps (Keeps.ite h9 (State.retrigger_keeps h9))))

theorem State.withdrawRemote_keeps (h : Keeps a s) (y2) : Keeps a (State.withdrawRemote s y2) := by
  unfold State.withdrawRemote
  extract_lets -underBinder -merge +onlyGivenNames x1
  clear_value x1
  extract_lets -underBinder -merge +onlyGivenNames x2
  have h2 : Keeps a x2 := (Keeps.same h rfl rfl rfl rfl rfl rfl rfl)
  clear_value x2
  exact (State.retrigger_keeps (State.sat_keeps h2 _ _ _ _))

theorem execRetractToken_keeps (h : Keeps a s) (y1) (y2) (y3) : KeepsR a (execRetractToken y1 y2 y3 s) := by
  unfold execRetractToken
  extract_lets -underBinder -merge +onlyGivenNames x1
  have h1 : Keeps a x1 := (State.at_keeps h _)
  clear_value x1
  refine KeepsR.ite ?_ ?_
  · exact (KeepsR.next h1)
  · extract_lets -underBinder -merge +onlyGivenNames x2
    clear_value x2
    extract_lets -underBinder -merge +onlyGivenNames x3
    have h3 : Keeps a x3 := (State.ringToken_keeps h1 _ _ _)
    clear_value x3
    extract_lets -underBinder -merge +onlyGivenNames x4
    clear_value x4
    exact (KeepsR.next (Keeps.ite (State.pruneRemote_keeps (State.withdrawRemote_keeps h3 _)) h3))

theorem execProgressSend_keeps (h : Keeps a s) (y1) : KeepsR a (execProgressSend y1 s) := by
  unfold execProgressSend
  extract_lets -underBinder -merge +onlyGivenNames x1
  have h1 : Keeps a x1 := (State.at_keeps h _)
  clear_value x1
  refine KeepsR.ite ?_ ?_
  · exact (KeepsR.next h1)
  · extract_lets -underBinder -merge +onlyGivenNames x2
    clear_value x2
    extract_lets -underBinder -merge +onlyGivenNames x3
    clear_value x3
    extract_lets -underBinder -merge +onlyGivenNames x4
    clear_value x4
    extract_lets -underBinder -merge +onlyGivenNames x5
    have h5 : Keeps a x5 := (State.broadcast_keeps h1 _ _ _ _ _)
    clear_value x5
    exact (KeepsR.next (Keeps.ite (State.sendTwin_keeps h5 _ _ _ _ _) h5))

theorem execProgressToken_keeps (h : Keeps a s) (y1) (y2) (y3) : KeepsR a (execProgressToken y1 y2 y3 s) := by
  unfold execProgressToken
  extract_lets -underBinder -merge +onlyGivenNames x1
  have h1 : Keeps a x1 := (State.at_keeps h _)
  clear_value x1
  refine KeepsR.ite ?_ ?_
  · exact (KeepsR.next h1)
  · extract_lets -underBinder -merge +onlyGivenNames x2
    clear_value x2
    extract_lets -underBinder -merge +onlyGivenNames x3
    have h3 : Keeps a x3 := (State.ringToken_keeps h1 _ _ _)
    clear_value x3
    refine KeepsR.ite ?_ ?_
    · exact (KeepsR.next h3)
    · extract_lets -underBinder -merge +onlyGivenNames x4
      clear_value x4
      extract_lets -underBinder -merge +onlyGivenNames x5
      have h5 : Keeps a x5 := (Keeps.ite (Keeps.same h3 rfl rfl rfl rfl rfl rfl rfl) (Keeps.same h3 rfl rfl rfl rfl rfl rfl rfl))
      clear_value x5
      exact (KeepsR.next (State.pruneRemote_keeps (State.settleTrigger_keeps h5)))

theorem execArmToken_keeps (h : Keeps a s) (y1) (y2) (y3) : KeepsR a (execArmToken y1 y2 y3 s) := by
  unfold execArmToken
  extract_lets -underBinder -merge +onlyGivenNames x1
  have h1 : Keeps a x1 := (State.at_keeps h _)
  clear_value x1
  refine KeepsR.ite ?_ ?_
  · exact (KeepsR.next h1)
  · extract_lets -underBinder -merge +onlyGivenNames x2
    clear_value x2
    extract_lets -underBinder -merge +onlyGivenNames x3
    have h3 : Keeps a x3 := (State.ringToken_keeps h1 _ _ _)
    clear_value x3
    refine KeepsR.ite ?_ ?_
    · exact (KeepsR.next h3)
    · extract_lets -underBinder -merge +onlyGivenNames x4
      clear_value x4
      extract_lets -underBinder -merge +onlyGivenNames x5
      clear_value x5
      extract_lets -underBinder -merge +onlyGivenNames x6
      clear_value x6
      extract_lets -underBinder -merge +onlyGivenNames x7
      have h7 : ∀ u0 u1 u2 u3, Keeps a u0 → Keeps a (x7 u0 u1 u2 u3) := by
        intro u0 u1 u2 u3 k7
        subst x7
        beta_reduce
        extract_lets -underBinder -merge +onlyGivenNames x8
        clear_value x8
        exact (Keeps.ite (State.sendTwin_keeps k7 _ _ _ _ _) (State.sendTo_keeps k7 _ _ _ _ _ _))
      clear_value x7
      refine KeepsR.ite ?_ ?_
      · exact (KeepsR.next (h7 _ _ _ _ (State.put_keeps h3 _ _ _ _)))
      · split
        next x9 x10 e9 =>
          have h9 := KeepsP.out (State.tryArm_keeps h3 _) e9
          split
          · exact (KeepsR.next (h7 _ _ _ _ h9))
          · exact (KeepsR.next (h7 _ _ _ _ (Keeps.ite (State.sat_keeps h9 _ _ _ _) h9)))

theorem execArmAck_keeps (h : Keeps a s) (y1) (y2) (y3) : KeepsR a (execArmAck y1 y2 y3 s) := by
  unfold execArmAck
  extract_lets -underBinder -merge +onlyGivenNames x1
  have h1 : Keeps a x1 := (State.at_keeps h _)
  clear_value x1
  refine KeepsR.ite ?_ ?_
  · exact (KeepsR.next h1)
  · extract_lets -underBinder -merge +onlyGivenNames x2
    clear_value x2
    extract_lets -underBinder -merge +onlyGivenNames x3
    have h3 : Keeps a x3 := (State.ringToken_keeps h1 _ _ _)
    clear_value x3
    exact (KeepsR.next (Keeps.ite (State.pulse_keeps (State.put64_keeps h3 _ _ _ _ _) _ _) h3))

theorem execStopToken_keeps (h : Keeps a s) (y1) (y2) (y3) : KeepsR a (execStopToken y1 y2 y3 s) := by
  unfold execStopToken
  extract_lets -underBinder -merge +onlyGivenNames x1
  have h1 : Keeps a x1 := (State.at_keeps h _)
  clear_value x1
  refine KeepsR.ite ?_ ?_
  · exact (KeepsR.next h1)
  · extract_lets -underBinder -merge +onlyGivenNames x2
    clear_value x2
    extract_lets -underBinder -merge +onlyGivenNames x3
    have h3 : Keeps a x3 := (State.ringToken_keeps h1 _ _ _)
    clear_value x3
    extract_lets -underBinder -merge +onlyGivenNames x4
    clear_value x4
    exact (KeepsR.next (Keeps.ite (State.stopAt_keeps h3 _) h3))

theorem State.sendWave_keeps (h : Keeps a s) (y2) (y3) (y4) : Keeps a (State.sendWave s y2 y3 y4) := by
  unfold State.sendWave
  exact (Keeps.ite (State.bumpSeq_keeps (State.putToken_keeps h _ _) _) h)

theorem State.enumOp_keeps (h : Keeps a s) (y2) (y3) : Keeps a (State.enumOp s y2 y3) := by
  unfold State.enumOp
  extract_lets -underBinder -merge +onlyGivenNames x1
  have h1 : Keeps a x1 := by
    subst x1
    split
    · exact (State.endOp_keeps (State.modOp_keeps h _ _) _ _)
    · exact h
  clear_value x1
  exact (State.modCas_keeps h1 _)

theorem State.enumFail_keeps (h : Keeps a s) (y2) (y3) : Keeps a (State.enumFail s y2 y3) := by
  unfold State.enumFail
  extract_lets -underBinder -merge +onlyGivenNames x1
  have h1 : Keeps a x1 := (State.setReg_keeps h _ _ _)
  clear_value x1
  extract_lets -underBinder -merge +onlyGivenNames x2
  have h2 : Keeps a x2 := (State.put_keeps h1 _ _ _ _)
  clear_value x2
  extract_lets -underBinder -merge +onlyGivenNames x3
  have h3 : Keeps a x3 := (State.put64_keeps h2 _ _ _ _ _)
  clear_value x3
  exact (State.retrigger_keeps (State.casShow_keeps (State.enumOp_keeps (State.pulse_keeps h3 _ _) _ _)))

theorem State.sendProbe_keeps (h : Keeps a s) (y2) (y3) : Keeps a (State.sendProbe s y2 y3) := by
  unfold State.sendProbe
  exact (Keeps.ite (State.bumpSeq_keeps (State.putToken_keeps h _ _) _) h)

theorem State.startProbe_keeps (h : Keeps a s) (y2) (y3) : Keeps a (State.startProbe s y2 y3) := by
  unfold State.startProbe
  refine Keeps.ite ?_ ?_
  · exact h
  · extract_lets -underBinder -merge +onlyGivenNames x1
    have h1 : Keeps a x1 := (State.modCas_keeps h _)
    clear_value x1
    exact (State.sendProbe_keeps h1 _ _)

theorem State.wavesDone_keeps (h : Keeps a s) (y2) (y3) (y4) : Keeps a (State.wavesDone s y2 y3 y4) := by
  unfold State.wavesDone
  extract_lets -underBinder -merge +onlyGivenNames x1
  have h1 : Keeps a x1 := (State.put_keeps h _ _ _ _)
  clear_value x1
  extract_lets -underBinder -merge +onlyGivenNames x2
  clear_value x2
  extract_lets -underBinder -merge +onlyGivenNames x3
  clear_value x3
  refine Keeps.ite ?_ ?_
  · exact (State.enumFail_keeps h1 _ _)
  · refine Keeps.ite ?_ ?_
    · exact (State.enumFail_keeps h1 _ _)
    · refine Keeps.ite ?_ ?_
      · exact (State.enumFail_keeps h1 _ _)
      · extract_lets -underBinder -merge +onlyGivenNames x4
        have h4 : Keeps a x4 := (State.putB_keeps (State.put_keeps h1 _ _ _ _) _ _ _ _)
        clear_value x4
        extract_lets -underBinder -merge +onlyGivenNames x5
        have h5 : Keeps a x5 := (State.put_keeps (State.putB_keeps h4 _ _ _ _) _ _ _ _)
        clear_value x5
        extract_lets -underBinder -merge +onlyGivenNames x6
        have h6 : Keeps a x6 := (State.put64_keeps h5 _ _ _ _ _)
        clear_value x6
        extract_lets -underBinder -merge +onlyGivenNames x7
        have h7 : Keeps a x7 := (State.modCas_keeps h6 _)
        clear_value x7
        exact (State.casShow_keeps (State.startProbe_keeps (State.startProbe_keeps h7 _ _) _ _))

theorem State.westWave_keeps (h : Keeps a s) (y2) (y3) (y4) (y5) : Keeps a (State.westWave s y2 y3 y4 y5) := by
  unfold State.westWave
  extract_lets -underBinder -merge +onlyGivenNames x1
  have h1 : Keeps a x1 := (State.put_keeps h _ _ _ _)
  clear_value x1
  extract_lets -underBinder -merge +onlyGivenNames x2
  have h2 : Keeps a x2 := (State.modCas_keeps h1 _)
  clear_value x2
  exact (Keeps.ite (State.enumFail_keeps h2 _ _) (Keeps.ite (State.sendWave_keeps h2 _ _ _) (State.wavesDone_keeps h2 _ _ _)))

theorem State.enumStart_keeps (h : Keeps a s) (y2) (y3) (y4) : Keeps a (State.enumStart s y2 y3 y4) := by
  unfold State.enumStart
  extract_lets -underBinder -merge +onlyGivenNames x1
  have h1 : Keeps a x1 := (State.modCas_keeps h _)
  clear_value x1
  extract_lets -underBinder -merge +onlyGivenNames x2
  have h2 : Keeps a x2 := (State.setReg_keeps h1 _ _ _)
  clear_value x2
  refine Keeps.ite ?_ ?_
  · exact (State.enumFail_keeps h2 _ _)
  · extract_lets -underBinder -merge +onlyGivenNames x3
    have h3 : Keeps a x3 := (State.putB_keeps (State.put_keeps h2 _ _ _ _) _ _ _ _)
    clear_value x3
    extract_lets -underBinder -merge +onlyGivenNames x4
    have h4 : Keeps a x4 := (State.casShow_keeps (State.putB_keeps (State.putB_keeps h3 _ _ _ _) _ _ _ _))
    clear_value x4
    exact (Keeps.ite (State.sendWave_keeps h4 _ _ _) (State.westWave_keeps h4 _ _ _ _))

theorem State.beReady_keeps (h : Keeps a s) (y2) (y3) : Keeps a (State.beReady s y2 y3) := by
  unfold State.beReady
  extract_lets -underBinder -merge +onlyGivenNames x1
  have h1 : Keeps a x1 := (State.put_keeps (State.putB_keeps h _ _ _ _) _ _ _ _)
  clear_value x1
  extract_lets -underBinder -merge +onlyGivenNames x2
  have h2 : Keeps a x2 := (State.putB_keeps h1 _ _ _ _)
  clear_value x2
  extract_lets -underBinder -merge +onlyGivenNames x3
  clear_value x3
  extract_lets -underBinder -merge +onlyGivenNames x4
  have h4 : Keeps a x4 := (State.put64_keeps h2 _ _ _ _ _)
  clear_value x4
  extract_lets -underBinder -merge +onlyGivenNames x5
  have h5 : Keeps a x5 := (State.modCas_keeps h4 _)
  clear_value x5
  extract_lets -underBinder -merge +onlyGivenNames x6
  have h6 : Keeps a x6 := (State.put_keeps h5 _ _ _ _)
  clear_value x6
  extract_lets -underBinder -merge +onlyGivenNames x7
  have h7 : Keeps a x7 := (State.each_keeps h6 fun _ h8 _ => (Keeps.ite (State.setPort_keeps h8 _ _) h8))
  clear_value x7
  exact (State.casShow_keeps h7)

theorem State.sendReady_keeps (h : Keeps a s) (y2) : Keeps a (State.sendReady s y2) := by
  unfold State.sendReady
  extract_lets -underBinder -merge +onlyGivenNames x1
  clear_value x1
  extract_lets -underBinder -merge +onlyGivenNames x2
  clear_value x2
  extract_lets -underBinder -merge +onlyGivenNames x3
  clear_value x3
  extract_lets -underBinder -merge +onlyGivenNames x4
  have h4 : Keeps a x4 := (State.bumpSeq_keeps (State.each_keeps h fun _ h5 _ => (Keeps.ite (State.putToken_keeps h5 _ _) h5)) _)
  clear_value x4
  exact (State.retrigger_keeps (State.enumOp_keeps (State.pulse_keeps (State.beReady_keeps h4 _ _) _ _) _ _))

theorem execEnumerate_keeps (h : Keeps a s) (y1) (y2) (y3) : KeepsR a (execEnumerate y1 y2 y3 s) := by
  unfold execEnumerate
  split
  · exact (KeepsR.next (State.at_keeps h _))
  next x2 x3 e2 =>
    have h2 := KeepsOP.out (State.claim_keeps (State.at_keeps h _) _ _ _) e2
    exact (KeepsR.ite (KeepsR.next h2) (KeepsR.ite (KeepsR.next (State.endOp_keeps h2 _ _)) (KeepsR.next (State.enumStart_keeps h2 _ _ _))))

theorem State.refuseWave_keeps (h : Keeps a s) (y2) (y3) : Keeps a (State.refuseWave s y2 y3) := by
  unfold State.refuseWave
  exact (State.sendWave_keeps (State.putB_keeps h _ _ _ _) _ _ _)

theorem State.takeAddress_keeps (h : Keeps a s) (y2) : Keeps a (State.takeAddress s y2) := by
  unfold State.takeAddress
  extract_lets -underBinder -merge +onlyGivenNames x1
  have h1 : Keeps a x1 := (State.putB_keeps (State.put_keeps h _ _ _ _) _ _ _ _)
  clear_value x1
  exact (State.putB_keeps h1 _ _ _ _)

theorem State.waveCounts_keeps (h : Keeps a s) (y2) : Keeps a (State.waveCounts s y2) := by
  unfold State.waveCounts
  exact (State.put_keeps (State.put_keeps h _ _ _ _) _ _ _ _)

theorem execEnumWave_keeps (h : Keeps a s) (y1) (y2) (y3) : KeepsR a (execEnumWave y1 y2 y3 s) := by
  unfold execEnumWave
  extract_lets -underBinder -merge +onlyGivenNames x1
  have h1 : Keeps a x1 := (State.at_keeps h _)
  clear_value x1
  extract_lets -underBinder -merge +onlyGivenNames x2
  clear_value x2
  refine KeepsR.ite ?_ ?_
  · exact (KeepsR.next h1)
  · refine KeepsR.ite ?_ ?_
    · exact (KeepsR.next (Keeps.ite (State.westWave_keeps h1 _ _ _ _) (State.refuseWave_keeps h1 _ _)))
    · refine KeepsR.ite ?_ ?_
      · exact (KeepsR.next h1)
      · refine KeepsR.ite ?_ ?_
        · exact (KeepsR.next (State.sendWave_keeps h1 _ _ _))
        · extract_lets -underBinder -merge +onlyGivenNames x3
          clear_value x3
          extract_lets -underBinder -merge +onlyGivenNames x4
          have h4 : Keeps a x4 := (State.waveCounts_keeps (State.takeAddress_keeps h1 _) _)
          clear_value x4
          exact (KeepsR.next (Keeps.ite (State.sendWave_keeps h4 _ _ _) (State.sendWave_keeps h4 _ _ _)))

theorem execEnumVerify_keeps (h : Keeps a s) (y1) (y2) (y3) : KeepsR a (execEnumVerify y1 y2 y3 s) := by
  unfold execEnumVerify
  extract_lets -underBinder -merge +onlyGivenNames x1
  have h1 : Keeps a x1 := (State.at_keeps h _)
  clear_value x1
  extract_lets -underBinder -merge +onlyGivenNames x2
  clear_value x2
  refine KeepsR.ite ?_ ?_
  · exact (KeepsR.next h1)
  · refine KeepsR.ite ?_ ?_
    · exact (KeepsR.next (Keeps.ite (State.wavesDone_keeps h1 _ _ _) (State.refuseWave_keeps h1 _ _)))
    · refine KeepsR.ite ?_ ?_
      · exact (KeepsR.next h1)
      · extract_lets -underBinder -merge +onlyGivenNames x3
        clear_value x3
        refine KeepsR.ite ?_ ?_
        · exact (KeepsR.next (State.sendWave_keeps h1 _ _ _))
        · extract_lets -underBinder -merge +onlyGivenNames x4
          clear_value x4
          extract_lets -underBinder -merge +onlyGivenNames x5
          have h5 : Keeps a x5 := (Keeps.ite h1 (State.takeAddress_keeps h1 _))
          clear_value x5
          extract_lets -underBinder -merge +onlyGivenNames x6
          have h6 : Keeps a x6 := (State.waveCounts_keeps h5 _)
          clear_value x6
          exact (KeepsR.next (Keeps.ite (State.sendWave_keeps h6 _ _ _) (State.sendWave_keeps h6 _ _ _)))

theorem State.endToken_keeps (h : Keeps a s) (y2) (y3) (y4) : Keeps a (State.endToken s y2 y3 y4) := by
  unfold State.endToken
  extract_lets -underBinder -merge +onlyGivenNames x1
  clear_value x1
  exact (Keeps.ite (Keeps.ite (State.enumFail_keeps h _ _) (Keeps.ite (State.westWave_keeps h _ _ _ _) (Keeps.ite (State.wavesDone_keeps h _ _ _) h))) (State.sendWave_keeps (State.waveCounts_keeps h _) _ _ _))

theorem execEndWave_keeps (h : Keeps a s) (y1) (y2) (y3) : KeepsR a (execEndWave y1 y2 y3 s) := by
  unfold execEndWave
  extract_lets -underBinder -merge +onlyGivenNames x1
  have h1 : Keeps a x1 := (State.at_keeps h _)
  clear_value x1
  exact (KeepsR.next (Keeps.ite (State.endToken_keeps h1 _ _ _) h1))

theorem execRootConflict_keeps (h : Keeps a s) (y1) (y2) (y3) : KeepsR a (execRootConflict y1 y2 y3 s) := by
  unfold execRootConflict
  extract_lets -underBinder -merge +onlyGivenNames x1
  have h1 : Keeps a x1 := (State.at_keeps h _)
  clear_value x1
  exact (KeepsR.next (Keeps.ite (State.endToken_keeps h1 _ _ _) h1))

theorem execReady_keeps (h : Keeps a s) (y1) (y2) (y3) : KeepsR a (execReady y1 y2 y3 s) := by
  unfold execReady
  extract_lets -underBinder -merge +onlyGivenNames x1
  have h1 : Keeps a x1 := (State.at_keeps h _)
  clear_value x1
  refine KeepsR.ite ?_ ?_
  · exact (KeepsR.next h1)
  · extract_lets -underBinder -merge +onlyGivenNames x2
    clear_value x2
    extract_lets -underBinder -merge +onlyGivenNames x3
    have h3 : Keeps a x3 := (State.putB_keeps (State.put_keeps h1 _ _ _ _) _ _ _ _)
    clear_value x3
    exact (KeepsR.next (State.retrigger_keeps (State.relay_keeps (State.beReady_keeps h3 _ _) _ _)))

theorem execEnumReadyTimeout_keeps (h : Keeps a s) (y1) (y2) : KeepsR a (execEnumReadyTimeout y1 y2 s) := by
  unfold execEnumReadyTimeout
  extract_lets -underBinder -merge +onlyGivenNames x1
  have h1 : Keeps a x1 := (State.at_keeps h _)
  clear_value x1
  exact (KeepsR.next (Keeps.ite (State.sendReady_keeps h1 _) h1))

theorem execProbe_keeps (h : Keeps a s) (y1) (y2) (y3) (y4) : KeepsR a (execProbe y1 y2 y3 y4 s) := by
  unfold execProbe
  extract_lets -underBinder -merge +onlyGivenNames x1
  have h1 : Keeps a x1 := (State.at_keeps h _)
  clear_value x1
  exact (KeepsR.ite (KeepsR.next h1) (KeepsR.next (State.bumpSeq_keeps (State.putToken_keeps h1 _ _) _)))

theorem execReply_keeps (h : Keeps a s) (y1) (y2) (y3) : KeepsR a (execReply y1 y2 y3 s) := by
  unfold execReply
  extract_lets -underBinder -merge +onlyGivenNames x1
  have h1 : Keeps a x1 := (State.at_keeps h _)
  clear_value x1
  refine KeepsR.ite ?_ ?_
  · exact (KeepsR.next h1)
  · extract_lets -underBinder -merge +onlyGivenNames x2
    clear_value x2
    extract_lets -underBinder -merge +onlyGivenNames x3
    clear_value x3
    extract_lets -underBinder -merge +onlyGivenNames x4
    clear_value x4
    extract_lets -underBinder -merge +onlyGivenNames x5
    clear_value x5
    extract_lets -underBinder -merge +onlyGivenNames x6
    clear_value x6
    extract_lets -underBinder -merge +onlyGivenNames x7
    clear_value x7
    extract_lets -underBinder -merge +onlyGivenNames x8
    clear_value x8
    extract_lets -underBinder -merge +onlyGivenNames x9
    have h9 : Keeps a x9 := (State.modCas_keeps h1 _)
    clear_value x9
    exact (KeepsR.next (State.sendProbe_keeps h9 _ _))

theorem execAlignWindowEnd_keeps (h : Keeps a s) (y1) (y2) (y3) (y4) : KeepsR a (execAlignWindowEnd y1 y2 y3 y4 s) := by
  unfold execAlignWindowEnd
  extract_lets -underBinder -merge +onlyGivenNames x1
  have h1 : Keeps a x1 := (State.at_keeps h _)
  clear_value x1
  split
  · extract_lets -underBinder -merge +onlyGivenNames x3
    have h3 : Keeps a x3 := (State.modCas_keeps h1 _)
    clear_value x3
    extract_lets -underBinder -merge +onlyGivenNames x4
    clear_value x4
    extract_lets -underBinder -merge +onlyGivenNames x5
    have h5 : Keeps a x5 := (Keeps.ite (Keeps.same h3 rfl rfl rfl rfl rfl rfl rfl) h3)
    clear_value x5
    exact (KeepsR.next (Keeps.ite (State.modCas_keeps h5 _) h5))
  · extract_lets -underBinder -merge +onlyGivenNames x7
    clear_value x7
    extract_lets -underBinder -merge +onlyGivenNames x8
    clear_value x8
    refine KeepsR.ite ?_ ?_
    · exact (KeepsR.next h1)
    · split
      · extract_lets -underBinder -merge +onlyGivenNames x11
        have h11 : Keeps a x11 := (State.put64_keeps h1 _ _ _ _ _)
        clear_value x11
        extract_lets -underBinder -merge +onlyGivenNames x12
        have h12 : Keeps a x12 := (State.putB_keeps (State.put_keeps h11 _ _ _ _) _ _ _ _)
        clear_value x12
        exact (KeepsR.next (Keeps.ite (Keeps.same h12 rfl rfl rfl rfl rfl rfl rfl) (State.startProbe_keeps h12 _ _)))

theorem execAlignVerify_keeps (h : Keeps a s) (y1) (y2) (y3) : KeepsR a (execAlignVerify y1 y2 y3 s) := by
  unfold execAlignVerify
  extract_lets -underBinder -merge +onlyGivenNames x1
  have h1 : Keeps a x1 := (State.at_keeps h _)
  clear_value x1
  extract_lets -underBinder -merge +onlyGivenNames x2
  clear_value x2
  extract_lets -underBinder -merge +onlyGivenNames x3
  clear_value x3
  extract_lets -underBinder -merge +onlyGivenNames x4
  have h4 : ∀ u0, Keeps a u0 → Keeps a (x4 u0) := by
    intro u0 k4
    subst x4
    beta_reduce
    exact (State.bumpSeq_keeps (State.putToken_keeps k4 _ _) _)
  clear_value x4
  refine KeepsR.next ?_
  split
  · exact (Keeps.ite (State.setReg_keeps (h4 _ h1) _ _ _) h1)
  · refine Keeps.ite ?_ ?_
    · extract_lets -underBinder -merge +onlyGivenNames x7
      have h7 : Keeps a x7 := (State.setReg_keeps (h4 _ h1) _ _ _)
      clear_value x7
      exact (State.level_keeps h7 _ _ _)
    · exact h1
  · exact h1

theorem execLinkLossToken_keeps (h : Keeps a s) (y1) (y2) (y3) : KeepsR a (execLinkLossToken y1 y2 y3 s) := by
  unfold execLinkLossToken
  extract_lets -underBinder -merge +onlyGivenNames x1
  have h1 : Keeps a x1 := (State.at_keeps h _)
  clear_value x1
  exact (KeepsR.next (Keeps.ite (State.ringToken_keeps (State.setBroken_keeps h1) _ _ _) h1))

theorem execReachTimeout_keeps (h : Keeps a s) (y1) (y2) : KeepsR a (execReachTimeout y1 y2 s) := by
  unfold execReachTimeout
  extract_lets -underBinder -merge +onlyGivenNames x1
  have h1 : Keeps a x1 := (State.at_keeps h _)
  clear_value x1
  extract_lets -underBinder -merge +onlyGivenNames x2
  clear_value x2
  refine KeepsR.ite ?_ ?_
  · exact (KeepsR.next h1)
  · extract_lets -underBinder -merge +onlyGivenNames x3
    have h3 : Keeps a x3 := (State.casShow_keeps (State.put64_keeps h1 _ _ _ _ _))
    clear_value x3
    extract_lets -underBinder -merge +onlyGivenNames x4
    have h4 : Keeps a x4 := (State.withdrawRemote_keeps h3 _)
    clear_value x4
    extract_lets -underBinder -merge +onlyGivenNames x5
    clear_value x5
    exact (KeepsR.next (State.cmdShow_keeps (State.modHost_keeps h4 _)))

theorem execForwardedCommand_keeps (h : Keeps a s) (y1) (y2) (y3) (y4) (y5) (y6) (y7) (y8) : KeepsR a (execForwardedCommand y1 y2 y3 y4 y5 y6 y7 y8 s) := by
  unfold execForwardedCommand
  refine KeepsR.ite ?_ ?_
  · exact KeepsR.fault
  · extract_lets -underBinder -merge +onlyGivenNames x1
    have h1 : Keeps a x1 := (State.at_keeps h _)
    clear_value x1
    refine KeepsR.ite ?_ ?_
    · exact (KeepsR.next h1)
    · refine KeepsR.ite ?_ ?_
      · extract_lets -underBinder -merge +onlyGivenNames x2
        clear_value x2
        exact (KeepsR.next (Keeps.ite (State.sendFlit_keeps h1 _ _) h1))
      · refine KeepsR.ite ?_ ?_
        · split
          · exact (KeepsR.next h1)
          · extract_lets -underBinder -merge +onlyGivenNames x5
            clear_value x5
            exact (KeepsR.next (State.cmdShow_keeps (State.modOp_keeps h1 _ _)))
        · exact (KeepsR.ite (KeepsR.next h1) (KeepsR.next (State.cmdShow_keeps (State.promote_keeps (State.takeIn_keeps h1 _ _ _) _))))

theorem execCasClr_keeps (h : Keeps a s) (y1) : KeepsR a (execCasClr y1 s) := by
  unfold execCasClr
  exact (KeepsR.next (Keeps.ite (State.clearAll_keeps h _ _) h))

end Sys2Proof.Machine
end

