-- ==== Sys2Proof/Laws/KeepsTwin.lean ====
section
/-!
SUPPORT. What the operations of Machine/Twin.lean keep (see Laws/Keeps.lean).
-/
namespace Sys2Proof.Machine
variable {a s : State}

theorem State.resyncEnd_keeps (h : Keeps a s) (y2) (y3) : Keeps a (State.resyncEnd s y2 y3) := by
  unfold State.resyncEnd
  split
  · exact h
  · extract_lets -underBinder -merge +onlyGivenNames x3
    have h3 : Keeps a x3 := (State.endOp_keeps (State.modOp_keeps h _ _) _ _)
    clear_value x3
    exact (State.modTwin_keeps h3 _)

theorem State.pairFail_keeps (h : Keeps a s) (y2) : Keeps a (State.pairFail s y2) := by
  unfold State.pairFail
  exact (State.resyncEnd_keeps (State.pulse_keeps (State.setTwin_keeps (State.put_keeps h _ _ _ _) _) _ _) _ _)

theorem State.noProgress_keeps (h : Keeps a s) : Keeps a (State.noProgress s) := by
  unfold State.noProgress
  exact (Keeps.same h rfl rfl rfl rfl rfl rfl rfl)

theorem State.noSums_keeps (h : Keeps a s) : Keeps a (State.noSums s) := by
  unfold State.noSums
  exact (Keeps.same h rfl rfl rfl rfl rfl rfl rfl)

theorem State.pairOk_keeps (h : Keeps a s) (y2) (y3) : Keeps a (State.pairOk s y2 y3) := by
  unfold State.pairOk
  extract_lets -underBinder -merge +onlyGivenNames x1
  have h1 : Keeps a x1 := (State.setReg_keeps h _ _ _)
  clear_value x1
  extract_lets -underBinder -merge +onlyGivenNames x2
  have h2 : Keeps a x2 := (State.setTwin_keeps (State.put_keeps h1 _ _ _ _) _)
  clear_value x2
  exact (State.retrigger_keeps (State.noProgress_keeps h2))

theorem State.pairUp_keeps (h : Keeps a s) (y2) : Keeps a (State.pairUp s y2) := by
  unfold State.pairUp
  split
  · exact h
  · refine Keeps.ite ?_ ?_
    · exact h
    · extract_lets -underBinder -merge +onlyGivenNames x3
      clear_value x3
      extract_lets -underBinder -merge +onlyGivenNames x4
      have h4 : Keeps a x4 := (State.modTwin_keeps h _)
      clear_value x4
      extract_lets -underBinder -merge +onlyGivenNames x5
      clear_value x5
      refine Keeps.ite ?_ ?_
      · exact (State.pairFail_keeps h4 _)
      · extract_lets -underBinder -merge +onlyGivenNames x6
        have h6 : Keeps a x6 := (State.pairOk_keeps h4 _ _)
        clear_value x6
        exact (Keeps.ite (State.startProbe_keeps h6 _ _) h6)

theorem State.startPairing_keeps (h : Keeps a s) (y2) : Keeps a (State.startPairing s y2) := by
  unfold State.startPairing
  extract_lets -underBinder -merge +onlyGivenNames x1
  have h1 : Keeps a x1 := (State.setTwin_keeps (State.put_keeps h _ _ _ _) _)
  clear_value x1
  extract_lets -underBinder -merge +onlyGivenNames x2
  have h2 : Keeps a x2 := (State.modTwin_keeps h1 _)
  clear_value x2
  exact (State.pairUp_keeps (State.sendPair_keeps h2) _)

theorem execPair_keeps (h : Keeps a s) (y1) (y2) : KeepsR a (execPair y1 y2 s) := by
  unfold execPair
  extract_lets -underBinder -merge +onlyGivenNames x1
  have h1 : Keeps a x1 := (State.at_keeps h _)
  clear_value x1
  refine KeepsR.ite ?_ ?_
  · exact (KeepsR.next h1)
  · extract_lets -underBinder -merge +onlyGivenNames x2
    clear_value x2
    refine KeepsR.ite ?_ ?_
    · extract_lets -underBinder -merge +onlyGivenNames x3
      clear_value x3
      extract_lets -underBinder -merge +onlyGivenNames x4
      have h4 : Keeps a x4 := (State.modTwin_keeps h1 _)
      clear_value x4
      exact (KeepsR.next (State.sendSeam_keeps h4 _ _ _ _ _))
    · extract_lets -underBinder -merge +onlyGivenNames x5
      have h5 : Keeps a x5 := (State.modTwin_keeps h1 _)
      clear_value x5
      exact (KeepsR.next (State.pairUp_keeps (State.sendPair_keeps h5) _))

theorem execNoLink_keeps (h : Keeps a s) (y1) : KeepsR a (execNoLink y1 s) := by
  unfold execNoLink
  extract_lets -underBinder -merge +onlyGivenNames x1
  have h1 : Keeps a x1 := (State.at_keeps h _)
  clear_value x1
  exact (KeepsR.next (Keeps.ite (State.pairFail_keeps h1 _) h1))

theorem State.twinCopied_keeps (h : Keeps a s) (y2) (y3) : Keeps a (State.twinCopied s y2 y3) := by
  unfold State.twinCopied
  extract_lets -underBinder -merge +onlyGivenNames x1
  clear_value x1
  refine Keeps.ite ?_ ?_
  · extract_lets -underBinder -merge +onlyGivenNames x2
    have h2 : Keeps a x2 := (Keeps.ite (State.sendSeam_keeps h _ _ _ _ _) h)
    clear_value x2
    extract_lets -underBinder -merge +onlyGivenNames x3
    have h3 : Keeps a x3 := (State.put_keeps (State.setTwin_keeps (State.goAlone_keeps h2) _) _ _ _ _)
    clear_value x3
    exact (State.retrigger_keeps (State.resyncEnd_keeps (State.modTwin_keeps h3 _) _ _))
  · exact (Keeps.ite (State.startPairing_keeps h _) h)

theorem execTwinResync_keeps (h : Keeps a s) (y1) (y2) : KeepsR a (execTwinResync y1 y2 s) := by
  unfold execTwinResync
  split
  · exact (KeepsR.next (State.at_keeps h _))
  next x2 x3 e2 =>
    have h2 := KeepsOP.out (State.claim_keeps (State.at_keeps h _) _ _ _) e2
    refine KeepsR.ite ?_ ?_
    · exact (KeepsR.next h2)
    · refine KeepsR.ite ?_ ?_
      · exact (KeepsR.next (State.endOp_keeps h2 _ _))
      · refine KeepsR.ite ?_ ?_
        · exact (KeepsR.next (State.endOp_keeps h2 _ _))
        · refine KeepsR.ite ?_ ?_
          · exact (KeepsR.next (State.endOp_keeps (State.modOp_keeps h2 _ _) _ _))
          · extract_lets -underBinder -merge +onlyGivenNames x4
            have h4 : Keeps a x4 := (State.modTwin_keeps (State.putB_keeps h2 _ _ _ _) _)
            clear_value x4
            exact (KeepsR.next (State.startPairing_keeps h4 _))

theorem State.enterDuplex_keeps (h : Keeps a s) (y2) : Keeps a (State.enterDuplex s y2) := by
  unfold State.enterDuplex
  extract_lets -underBinder -merge +onlyGivenNames x1
  have h1 : Keeps a x1 := (State.setTwin_keeps h _)
  clear_value x1
  extract_lets -underBinder -merge +onlyGivenNames x2
  have h2 : Keeps a x2 := (State.noSums_keeps h1)
  clear_value x2
  extract_lets -underBinder -merge +onlyGivenNames x3
  have h3 : Keeps a x3 := by
    subst x3
    refine Keeps.ite ?_ ?_
    · refine State.each_keeps h2 fun _ h7 _ => ?_
      · extract_lets -underBinder -merge +onlyGivenNames x8
        clear_value x8
        exact (State.sendSeam_keeps h7 _ _ _ _ _)
    · exact (State.each_keeps h2 fun _ h9 _ => (State.putB_keeps h9 _ _ _ _))
  clear_value x3
  exact (State.retrigger_keeps (State.resyncEnd_keeps h3 _ _))

theorem State.sendSummary_keeps (h : Keeps a s) (y2) (y3) : Keeps a (State.sendSummary s y2 y3) := by
  unfold State.sendSummary
  extract_lets -underBinder -merge +onlyGivenNames x1
  clear_value x1
  extract_lets -underBinder -merge +onlyGivenNames x2
  clear_value x2
  extract_lets -underBinder -merge +onlyGivenNames x3
  clear_value x3
  extract_lets -underBinder -merge +onlyGivenNames x4
  have h4 : Keeps a x4 := (Keeps.same h rfl rfl rfl rfl rfl rfl rfl)
  clear_value x4
  exact (State.sendSeam_keeps h4 _ _ _ _ _)

theorem execSeamSpanEnd_keeps (h : Keeps a s) (y1) : KeepsR a (execSeamSpanEnd y1 s) := by
  unfold execSeamSpanEnd
  extract_lets -underBinder -merge +onlyGivenNames x1
  have h1 : Keeps a x1 := (State.at_keeps h _)
  clear_value x1
  extract_lets -underBinder -merge +onlyGivenNames x2
  clear_value x2
  extract_lets -underBinder -merge +onlyGivenNames x3
  clear_value x3
  refine KeepsR.ite ?_ ?_
  · exact (KeepsR.next h1)
  · extract_lets -underBinder -merge +onlyGivenNames x4
    have h4 : Keeps a x4 := (State.modTwin_keeps h1 _)
    clear_value x4
    extract_lets -underBinder -merge +onlyGivenNames x5
    have h5 : Keeps a x5 := (State.put_keeps h4 _ _ _ _)
    clear_value x5
    extract_lets -underBinder -merge +onlyGivenNames x6
    have h6 : Keeps a x6 := (State.each_keeps h5 fun _ h7 _ => (State.sendSummary_keeps h7 _ _))
    clear_value x6
    extract_lets -underBinder -merge +onlyGivenNames x8
    clear_value x8
    extract_lets -underBinder -merge +onlyGivenNames x9
    have h9 : Keeps a x9 := (Keeps.same h6 rfl rfl rfl rfl rfl rfl rfl)
    clear_value x9
    extract_lets -underBinder -merge +onlyGivenNames x10
    have h10 : Keeps a x10 := (Keeps.ite (State.each_keeps h9 fun _ h11 _ => (State.compareSpan_keeps h11 _)) h5)
    clear_value x10
    extract_lets -underBinder -merge +onlyGivenNames x12
    have h12 : Keeps a x12 := (Keeps.ite (State.pulse_keeps (State.putB_keeps h10 _ _ _ _) _ _) h10)
    clear_value x12
    extract_lets -underBinder -merge +onlyGivenNames x13
    clear_value x13
    extract_lets -underBinder -merge +onlyGivenNames x14
    have h14 : Keeps a x14 := (State.modTwin_keeps h12 _)
    clear_value x14
    exact (KeepsR.next (Keeps.ite (State.retrigger_keeps (State.goAlone_keeps h14)) (Keeps.ite (State.enterDuplex_keeps h14 _) h14)))

theorem execSummary_keeps (h : Keeps a s) (y1) (y2) : KeepsR a (execSummary y1 y2 s) := by
  unfold execSummary
  extract_lets -underBinder -merge +onlyGivenNames x1
  have h1 : Keeps a x1 := (State.at_keeps h _)
  clear_value x1
  refine KeepsR.ite ?_ ?_
  · exact (KeepsR.next h1)
  · extract_lets -underBinder -merge +onlyGivenNames x2
    clear_value x2
    extract_lets -underBinder -merge +onlyGivenNames x3
    clear_value x3
    extract_lets -underBinder -merge +onlyGivenNames x4
    clear_value x4
    extract_lets -underBinder -merge +onlyGivenNames x5
    clear_value x5
    exact (KeepsR.next (Keeps.ite h1 (Keeps.ite (State.compareSpan_keeps h1 _) (Keeps.same h1 rfl rfl rfl rfl rfl rfl rfl))))

theorem execThin_keeps (h : Keeps a s) (y1) (y2) : KeepsR a (execThin y1 y2 s) := by
  unfold execThin
  extract_lets -underBinder -merge +onlyGivenNames x1
  have h1 : Keeps a x1 := (State.at_keeps h _)
  clear_value x1
  extract_lets -underBinder -merge +onlyGivenNames x2
  clear_value x2
  refine KeepsR.ite ?_ ?_
  · exact (KeepsR.next h1)
  · extract_lets -underBinder -merge +onlyGivenNames x3
    clear_value x3
    extract_lets -underBinder -merge +onlyGivenNames x4
    clear_value x4
    extract_lets -underBinder -merge +onlyGivenNames x5
    clear_value x5
    extract_lets -underBinder -merge +onlyGivenNames x6
    clear_value x6
    extract_lets -underBinder -merge +onlyGivenNames x7
    clear_value x7
    extract_lets -underBinder -merge +onlyGivenNames x8
    have h8 : Keeps a x8 := (State.modAcq_keeps h1 _)
    clear_value x8
    refine KeepsR.next ?_
    refine Keeps.ite ?_ ?_
    · extract_lets -underBinder -merge +onlyGivenNames x9
      have h9 : Keeps a x9 := (State.pulse_keeps (State.sat_keeps h8 _ _ _ _) _ _)
      clear_value x9
      exact (Keeps.fold h9 fun _ h10 _ => (State.seamSkip_keeps h10 _ _))
    · exact h8

theorem execSafeToken_keeps (h : Keeps a s) (y1) (y2) : KeepsR a (execSafeToken y1 y2 s) := by
  unfold execSafeToken
  extract_lets -underBinder -merge +onlyGivenNames x1
  have h1 : Keeps a x1 := (State.at_keeps h _)
  clear_value x1
  refine KeepsR.ite ?_ ?_
  · exact (KeepsR.next h1)
  · extract_lets -underBinder -merge +onlyGivenNames x2
    clear_value x2
    extract_lets -underBinder -merge +onlyGivenNames x3
    clear_value x3
    extract_lets -underBinder -merge +onlyGivenNames x4
    have h4 : Keeps a x4 := (Keeps.same h1 rfl rfl rfl rfl rfl rfl rfl)
    clear_value x4
    extract_lets -underBinder -merge +onlyGivenNames x5
    have h5 : Keeps a x5 := (State.modTwin_keeps h4 _)
    clear_value x5
    exact (KeepsR.next (State.retrigger_keeps (State.raiseFault_keeps (State.goAlone_keeps h5) _)))

theorem execDetach_keeps (h : Keeps a s) (y1) (y2) : KeepsR a (execDetach y1 y2 s) := by
  unfold execDetach
  extract_lets -underBinder -merge +onlyGivenNames x1
  have h1 : Keeps a x1 := (State.at_keeps h _)
  clear_value x1
  extract_lets -underBinder -merge +onlyGivenNames x2
  clear_value x2
  refine KeepsR.ite ?_ ?_
  · exact (KeepsR.next h1)
  · extract_lets -underBinder -merge +onlyGivenNames x3
    have h3 : Keeps a x3 := (Keeps.ite (State.sendSeam_keeps h1 _ _ _ _ _) h1)
    clear_value x3
    exact (KeepsR.next (State.modTwin_keeps h3 _))

theorem execClearToken_keeps (h : Keeps a s) (y1) (y2) : KeepsR a (execClearToken y1 y2 s) := by
  unfold execClearToken
  extract_lets -underBinder -merge +onlyGivenNames x1
  have h1 : Keeps a x1 := (State.at_keeps h _)
  clear_value x1
  exact (KeepsR.next (Keeps.ite (State.modTwin_keeps h1 _) h1))

theorem execTwnClr_keeps (h : Keeps a s) (y1) : KeepsR a (execTwnClr y1 s) := by
  unfold execTwnClr
  exact (KeepsR.next (Keeps.ite (State.clearAll_keeps h _ _) h))

end Sys2Proof.Machine
end

