-- ==== Sys2Proof/Laws/KeepsSeal.lean ====
section
/-!
SUPPORT. What the operations of Machine/Seal.lean keep (see Laws/Keeps.lean).
-/
namespace Sys2Proof.Machine
variable {a s : State}

theorem execSealCheck_keeps (h : Keeps a s) (y1) : KeepsR a (execSealCheck y1 s) := by
  unfold execSealCheck
  extract_lets -underBinder -merge +onlyGivenNames x1
  have h1 : Keeps a x1 := (State.at_keeps h _)
  clear_value x1
  refine KeepsR.ite ?_ ?_
  · exact (KeepsR.next h1)
  · extract_lets -underBinder -merge +onlyGivenNames x2
    clear_value x2
    extract_lets -underBinder -merge +onlyGivenNames x3
    clear_value x3
    extract_lets -underBinder -merge +onlyGivenNames x4
    have h4 : Keeps a x4 := (State.modSaf_keeps (State.wrap_keeps h1 _ _ _ _) _)
    clear_value x4
    extract_lets -underBinder -merge +onlyGivenNames x5
    have h5 : Keeps a x5 := (State.each_keeps h4 fun _ h6 _ => (State.put_keeps h6 _ _ _ _))
    clear_value x5
    exact (KeepsR.next (State.faultLevel_keeps (State.level_keeps h5 _ _ _) _ _))

theorem execSafClear_keeps (h : Keeps a s) (y1) (y2) : KeepsR a (execSafClear y1 y2 s) := by
  unfold execSafClear
  extract_lets -underBinder -merge +onlyGivenNames x1
  have h1 : Keeps a x1 := (State.at_keeps h _)
  clear_value x1
  extract_lets -underBinder -merge +onlyGivenNames x2
  clear_value x2
  extract_lets -underBinder -merge +onlyGivenNames x3
  clear_value x3
  extract_lets -underBinder -merge +onlyGivenNames x4
  have h4 : Keeps a x4 := (State.modSaf_keeps h1 _)
  clear_value x4
  refine KeepsR.next ?_
  refine Keeps.ite ?_ ?_
  · exact h4
  · refine Keeps.ite ?_ ?_
    · exact (State.modSaf_keeps h4 _)
    · split
      · exact (Keeps.ite (State.modSaf_keeps h4 _) h4)
      · exact h4

theorem State.leaveSafe_keeps (h : Keeps a s) (y2) : Keeps a (State.leaveSafe s y2) := by
  unfold State.leaveSafe
  extract_lets -underBinder -merge +onlyGivenNames x1
  have h1 : Keeps a x1 := (State.modSaf_keeps h _)
  clear_value x1
  extract_lets -underBinder -merge +onlyGivenNames x2
  have h2 : Keeps a x2 := (State.setReg_keeps (State.put_keeps h1 _ _ _ _) _ _ _)
  clear_value x2
  extract_lets -underBinder -merge +onlyGivenNames x3
  have h3 : Keeps a x3 := (Keeps.same h2 rfl rfl rfl rfl rfl rfl rfl)
  clear_value x3
  extract_lets -underBinder -merge +onlyGivenNames x4
  have h4 : Keeps a x4 := (State.level_keeps (State.setBlockState_keeps h3 _ _) _ _ _)
  clear_value x4
  extract_lets -underBinder -merge +onlyGivenNames x5
  have h5 : Keeps a x5 := (State.actState_keeps (State.driveLands_keeps h4 _))
  clear_value x5
  exact (Keeps.ite h5 (State.sendSeam_keeps h5 _ _ _ _ _))

theorem execSafeExit_keeps (h : Keeps a s) (y1) : KeepsR a (execSafeExit y1 s) := by
  unfold execSafeExit
  extract_lets -underBinder -merge +onlyGivenNames x1
  have h1 : Keeps a x1 := (State.at_keeps h _)
  clear_value x1
  refine KeepsR.next ?_
  split
  · exact (Keeps.ite (State.leaveSafe_keeps h1 _) h1)
  · exact h1

theorem execSafSealSel_keeps (h : Keeps a s) (y1) : KeepsR a (execSafSealSel y1 s) := by
  unfold execSafSealSel
  exact (KeepsR.next (State.modSaf_keeps h _))

theorem execSafClr_keeps (h : Keeps a s) (y1) : KeepsR a (execSafClr y1 s) := by
  unfold execSafClr
  extract_lets -underBinder -merge +onlyGivenNames x1
  have h1 : Keeps a x1 := (State.modSaf_keeps h _)
  clear_value x1
  exact (KeepsR.next (Keeps.ite (State.put_keeps h1 _ _ _ _) h1))

theorem execCores_keeps (h : Keeps a s) (y1) (y2) : KeepsR a (execCores y1 y2 s) := by
  unfold execCores
  extract_lets -underBinder -merge +onlyGivenNames x1
  have h1 : Keeps a x1 := (State.at_keeps h _)
  clear_value x1
  exact (KeepsR.next (Keeps.ite (State.raiseFault_keeps (State.putB_keeps h1 _ _ _ _) _) h1))

end Sys2Proof.Machine
end

