-- ==== Sys2Proof/Laws/KeepsBlocks.lean ====
section
/-!
SUPPORT. What the operations of Machine/Blocks.lean keep (see Laws/Keeps.lean).
-/
namespace Sys2Proof.Machine
variable {a s : State}

theorem State.setEnable_keeps (h : Keeps a s) (y2) (y3) : Keeps a (State.setEnable s y2 y3) := by
  unfold State.setEnable
  exact (State.setReg_keeps h _ _ _)

theorem State.pageStop_keeps (h : Keeps a s) (y2) (y3) : Keeps a (State.pageStop s y2 y3) := by
  unfold State.pageStop
  extract_lets -underBinder -merge +onlyGivenNames x1
  have h1 : Keeps a x1 := (State.gapOpen_keeps h _ _ _)
  clear_value x1
  extract_lets -underBinder -merge +onlyGivenNames x2
  have h2 : Keeps a x2 := (State.setEnable_keeps h1 _ _)
  clear_value x2
  split
  · exact (State.cksEnable_keeps h2 _ _ _)
  · exact (State.loopEnable_keeps h2 _ _ _)
  · exact (State.actStopped_keeps h2 _)
  · exact (State.flxShow_keeps h2)
  · exact h2

theorem State.pageStart_keeps (h : Keeps a s) (y2) (y3) : Keeps a (State.pageStart s y2 y3) := by
  unfold State.pageStart
  extract_lets -underBinder -merge +onlyGivenNames x1
  have h1 : Keeps a x1 := (State.setEnable_keeps h _ _)
  clear_value x1
  extract_lets -underBinder -merge +onlyGivenNames x2
  have h2 : Keeps a x2 := (State.gapClose_keeps h1 _ _ _ _)
  clear_value x2
  split
  · exact (State.cksEnable_keeps h2 _ _ _)
  · exact (State.loopEnable_keeps h2 _ _ _)
  · exact (State.actStarted_keeps h2 _)
  · exact (State.flxCopied_keeps h2)
  · exact (State.pairUp_keeps (State.sendPair_keeps h2) _)
  · exact h2

theorem State.resetRegs_keeps (h : Keeps a s) (p : Nat) : Keeps a (s.resetRegs p) :=
  h.trans ⟨rfl, List.prefix_rfl, Nat.le_refl _, fun c => ⟨c.1, c.2.1, swf_filter _ c.2.2.1, swf_filter _ c.2.2.2⟩⟩

theorem State.dropRecord_keeps (h : Keeps a s) : Keeps a (State.dropRecord s) := by
  unfold State.dropRecord
  extract_lets -underBinder -merge +onlyGivenNames x1
  have h1 : Keeps a x1 := (State.dropRecordJob_keeps h)
  clear_value x1
  extract_lets -underBinder -merge +onlyGivenNames x2
  have h2 : Keeps a x2 := (Keeps.same h1 rfl rfl rfl rfl rfl rfl rfl)
  clear_value x2
  exact (State.gmbShow_keeps (State.modGmb_keeps h2 _))

theorem State.dropOps_keeps (h : Keeps a s) : Keeps a (State.dropOps s) := by
  unfold State.dropOps
  extract_lets -underBinder -merge +onlyGivenNames x1
  have h1 : Keeps a x1 := (Keeps.fold h fun _ h2 _ => (Keeps.ite (State.cleanUp_keeps h2 _) h2))
  clear_value x1
  exact (Keeps.same h1 rfl rfl rfl rfl rfl rfl rfl)

theorem State.resetBlock_keeps (h : Keeps a s) (y2) (y3) : Keeps a (State.resetBlock s y2 y3) := by
  unfold State.resetBlock
  split
  · exact (Keeps.same h rfl rfl rfl rfl rfl rfl rfl)
  · exact (State.cksReset_keeps h _ _)
  · exact (State.refreshCko_keeps h)
  · extract_lets -underBinder -merge +onlyGivenNames x5
    clear_value x5
    exact (State.modLoop_keeps (State.ivCutLoop_keeps h _ _) _ _)
  · exact (Keeps.same h rfl rfl rfl rfl rfl rfl rfl)
  · exact (Keeps.same h rfl rfl rfl rfl rfl rfl rfl)
  · exact (State.modDig_keeps h _ _)
  · extract_lets -underBinder -merge +onlyGivenNames x10
    clear_value x10
    extract_lets -underBinder -merge +onlyGivenNames x11
    have h11 : Keeps a x11 := (State.modStp_keeps h _ _)
    clear_value x11
    exact (State.modIp_keeps (State.modIp_keeps h11 _ _) _ _)
  · exact (Keeps.same h rfl rfl rfl rfl rfl rfl rfl)
  · exact (Keeps.same h rfl rfl rfl rfl rfl rfl rfl)
  · exact (Keeps.same h rfl rfl rfl rfl rfl rfl rfl)
  · exact (Keeps.same h rfl rfl rfl rfl rfl rfl rfl)
  · exact (Keeps.same h rfl rfl rfl rfl rfl rfl rfl)
  · exact (Keeps.ite (Keeps.same h rfl rfl rfl rfl rfl rfl rfl) h)
  · exact (State.modGmb_keeps h _)
  · exact (State.driveLands_keeps (State.endActivity_keeps h _ _) _)
  · exact (Keeps.ite (State.dropRecord_keeps h) (Keeps.ite (State.modAcq_keeps h _) h))
  · exact (Keeps.same h rfl rfl rfl rfl rfl rfl rfl)
  · exact (Keeps.same h rfl rfl rfl rfl rfl rfl rfl)
  · exact (State.modMar_keeps h _)
  · exact (State.modStore_keeps (State.dropRecordJob_keeps h) _)
  · exact (State.dropOps_keeps h)
  · extract_lets -underBinder -merge +onlyGivenNames x27
    clear_value x27
    extract_lets -underBinder -merge +onlyGivenNames x28
    have h28 : Keeps a x28 := (Keeps.same h rfl rfl rfl rfl rfl rfl rfl)
    clear_value x28
    exact (State.each_keeps h28 fun _ h29 _ => (State.freePath_keeps h29 _ _))
  · refine State.retrigger_keeps ?_
    exact (Keeps.same h rfl rfl rfl rfl rfl rfl rfl)
  · exact (Keeps.same h rfl rfl rfl rfl rfl rfl rfl)
  · extract_lets -underBinder -merge +onlyGivenNames x33
    have h33 : Keeps a x33 := (Keeps.same h rfl rfl rfl rfl rfl rfl rfl)
    clear_value x33
    exact (State.each_keeps h33 fun _ h34 _ => (State.putB_keeps h34 _ _ _ _))
  · exact (State.modSaf_keeps h _)
  · exact (Keeps.same h rfl rfl rfl rfl rfl rfl rfl)
  · exact h

theorem State.pageReset_keeps (h : Keeps a s) (y2) (y3) : Keeps a (State.pageReset s y2 y3) := by
  unfold State.pageReset
  extract_lets -underBinder -merge +onlyGivenNames x1
  clear_value x1
  extract_lets -underBinder -merge +onlyGivenNames x2
  have h2 : Keeps a x2 := (State.gapOpen_keeps h _ _ _)
  clear_value x2
  extract_lets -underBinder -merge +onlyGivenNames x3
  have h3 : Keeps a x3 := (State.resetRegs_keeps (State.resetBlock_keeps h2 _ _) _)
  clear_value x3
  split
  · exact (State.cksReset_keeps h3 _ _)
  · exact (State.actState_keeps (State.driveLands_keeps h3 _))
  · exact (State.cmpShow_keeps h3)
  · exact (State.marShow_keeps h3)
  · exact (State.storeShow_keeps h3)
  · exact (State.level_keeps h3 _ _ _)
  · exact (State.cmdShow_keeps h3)
  · exact (State.casShow_keeps h3)
  · exact (State.flxShow_keeps (State.setLanes_keeps (State.setLanes_keeps h3 _ _ _ _) _ _ _ _))
  · exact (State.retrigger_keeps (State.flxShow_keeps (State.putB_keeps h3 _ _ _ _)))
  · exact (State.setBlockState_keeps h3 _ _)
  · exact h3

end Sys2Proof.Machine
end

