-- ==== Sys2Proof/Laws/KeepsPower.lean ====
section
/-!
SUPPORT. What the operations of Machine/Power.lean keep (see Laws/Keeps.lean).
-/
namespace Sys2Proof.Machine
variable {a s : State}

theorem State.coldReset_keeps (h : Keeps a s) : Keeps a s.coldReset := by
  unfold State.coldReset
  extract_lets -merge +onlyGivenNames x1 x2 z
  have hz : Keeps a z := by
    subst z
    exact h.trans ⟨rfl, List.prefix_rfl, Nat.le_refl s.freeCtr, fun _ => ⟨rfl, rfl, rfl, rfl⟩⟩
  clear_value z
  exact State.each_keeps hz fun _ hs _ => Keeps.ite hs (State.emit_keeps hs _)

theorem State.modPower_keeps (h : Keeps a s) (y2) : Keeps a (State.modPower s y2) := by
  unfold State.modPower
  exact (Keeps.same h rfl rfl rfl rfl rfl rfl rfl)

theorem State.moduleReset_keeps (h : Keeps a s) : Keeps a (State.moduleReset s) := by
  unfold State.moduleReset
  exact (State.coldReset_keeps (State.modPower_keeps h _))

theorem execModResetN_keeps (h : Keeps a s) (y1) : KeepsR a (execModResetN y1 s) := by
  unfold execModResetN
  exact (KeepsR.next (State.moduleReset_keeps (State.at_keeps h _)))

theorem execModuleResetEnd_keeps (h : Keeps a s) (y1) : KeepsR a (execModuleResetEnd y1 s) := by
  unfold execModuleResetEnd
  extract_lets -underBinder -merge +onlyGivenNames x1
  have h1 : Keeps a x1 := (State.at_keeps h _)
  clear_value x1
  exact (KeepsR.next (State.modPower_keeps h1 _))

theorem execGlbReset_keeps (h : Keeps a s) (y1) (y2) : KeepsR a (execGlbReset y1 y2 s) := by
  unfold execGlbReset
  extract_lets -underBinder -merge +onlyGivenNames x1
  have h1 : Keeps a x1 := (State.at_keeps h _)
  clear_value x1
  exact (KeepsR.next (Keeps.ite (State.moduleReset_keeps h1) h1))

theorem execStandbyStart_keeps (h : Keeps a s) (y1) : KeepsR a (execStandbyStart y1 s) := by
  unfold execStandbyStart
  extract_lets -underBinder -merge +onlyGivenNames x1
  have h1 : Keeps a x1 := (State.at_keeps h _)
  clear_value x1
  exact (KeepsR.next (State.modPower_keeps h1 _))

theorem execVinValid_keeps (h : Keeps a s) (y1) (y2) (y3) (y4) : KeepsR a (execVinValid y1 y2 y3 y4 s) := by
  unfold execVinValid
  extract_lets -underBinder -merge +onlyGivenNames x1
  have h1 : Keeps a x1 := (State.at_keeps h _)
  clear_value x1
  refine KeepsR.next ?_
  refine Keeps.ite ?_ ?_
  · extract_lets -underBinder -merge +onlyGivenNames x2
    have h2 : Keeps a x2 := (State.put_keeps (State.putB_keeps (State.putB_keeps h1 _ _ _ _) _ _ _ _) _ _ _ _)
    clear_value x2
    extract_lets -underBinder -merge +onlyGivenNames x3
    have h3 : Keeps a x3 := (State.putB_keeps h2 _ _ _ _)
    clear_value x3
    extract_lets -underBinder -merge +onlyGivenNames x4
    have h4 : Keeps a x4 := (State.put_keeps h3 _ _ _ _)
    clear_value x4
    extract_lets -underBinder -merge +onlyGivenNames x5
    have h5 : Keeps a x5 := (State.put64_keeps h4 _ _ _ _ _)
    clear_value x5
    extract_lets -underBinder -merge +onlyGivenNames x6
    have h6 : Keeps a x6 := (State.put_keeps h5 _ _ _ _)
    clear_value x6
    exact (State.modPower_keeps h6 _)
  · exact h1

theorem State.starting_keeps (h : Keeps a s) : Keeps a (State.starting s) := by
  unfold State.starting
  extract_lets -underBinder -merge +onlyGivenNames x1
  clear_value x1
  extract_lets -underBinder -merge +onlyGivenNames x2
  have h2 : Keeps a x2 := (Keeps.same h rfl rfl rfl rfl rfl rfl rfl)
  clear_value x2
  extract_lets -underBinder -merge +onlyGivenNames x3
  have h3 : Keeps a x3 := (State.putB_keeps (State.putB_keeps h2 _ _ _ _) _ _ _ _)
  clear_value x3
  exact (State.setBlockState_keeps (State.setBlockState_keeps h3 _ _) _ _)

theorem execRailGood_keeps (h : Keeps a s) (y1) : KeepsR a (execRailGood y1 s) := by
  unfold execRailGood
  extract_lets -underBinder -merge +onlyGivenNames x1
  have h1 : Keeps a x1 := (State.at_keeps h _)
  clear_value x1
  extract_lets -underBinder -merge +onlyGivenNames x2
  clear_value x2
  refine KeepsR.next ?_
  refine Keeps.ite ?_ ?_
  · exact h1
  · extract_lets -underBinder -merge +onlyGivenNames x3
    clear_value x3
    extract_lets -underBinder -merge +onlyGivenNames x4
    have h4 : Keeps a x4 := (Keeps.same h1 rfl rfl rfl rfl rfl rfl rfl)
    clear_value x4
    extract_lets -underBinder -merge +onlyGivenNames x5
    have h5 : Keeps a x5 := (Keeps.ite (State.driveLands_keeps h4 _) h4)
    clear_value x5
    exact (Keeps.ite (State.starting_keeps h5) h5)

theorem execRailGoodTimeout_keeps (h : Keeps a s) (y1) : KeepsR a (execRailGoodTimeout y1 s) := by
  unfold execRailGoodTimeout
  extract_lets -underBinder -merge +onlyGivenNames x1
  have h1 : Keeps a x1 := (State.at_keeps h _)
  clear_value x1
  extract_lets -underBinder -merge +onlyGivenNames x2
  clear_value x2
  exact (KeepsR.next (Keeps.ite h1 (State.coldReset_keeps h1)))

theorem execVinCollapse_keeps (h : Keeps a s) (y1) (y2) : KeepsR a (execVinCollapse y1 y2 s) := by
  unfold execVinCollapse
  extract_lets -underBinder -merge +onlyGivenNames x1
  have h1 : Keeps a x1 := (State.at_keeps h _)
  clear_value x1
  exact (KeepsR.next (Keeps.ite (State.coldReset_keeps h1) h1))

theorem execV3aLoss_keeps (h : Keeps a s) (y1) (y2) : KeepsR a (execV3aLoss y1 y2 s) := by
  unfold execV3aLoss
  extract_lets -underBinder -merge +onlyGivenNames x1
  have h1 : Keeps a x1 := (State.at_keeps h _)
  clear_value x1
  exact (KeepsR.next (Keeps.ite (State.coldReset_keeps (State.modPower_keeps h1 _)) h1))

theorem State.stretchCount_keeps (h : Keeps a s) (y2) : Keeps a (State.stretchCount s y2) := by
  unfold State.stretchCount
  extract_lets -underBinder -merge +onlyGivenNames x1
  clear_value x1
  extract_lets -underBinder -merge +onlyGivenNames x2
  have h2 : Keeps a x2 := (State.sat_keeps h _ _ _ _)
  clear_value x2
  exact (State.modPower_keeps h2 _)

theorem State.pwrShow_keeps (h : Keeps a s) (y2) : Keeps a (State.pwrShow s y2) := by
  unfold State.pwrShow
  extract_lets -underBinder -merge +onlyGivenNames x1
  have h1 : Keeps a x1 := (State.stretchCount_keeps h _)
  clear_value x1
  extract_lets -underBinder -merge +onlyGivenNames x2
  clear_value x2
  extract_lets -underBinder -merge +onlyGivenNames x3
  have h3 : Keeps a x3 := (State.put_keeps (State.putB_keeps (State.putB_keeps h1 _ _ _ _) _ _ _ _) _ _ _ _)
  clear_value x3
  extract_lets -underBinder -merge +onlyGivenNames x4
  have h4 : Keeps a x4 := (State.setBlockState_keeps h3 _ _)
  clear_value x4
  extract_lets -underBinder -merge +onlyGivenNames x5
  have h5 : Keeps a x5 := (State.level_keeps (State.level_keeps h4 _ _ _) _ _ _)
  clear_value x5
  extract_lets -underBinder -merge +onlyGivenNames x6
  have h6 : Keeps a x6 := (State.level_keeps (State.level_keeps h5 _ _ _) _ _ _)
  clear_value x6
  exact (State.level_keeps (State.level_keeps h6 _ _ _) _ _ _)

theorem State.railFault_keeps (h : Keeps a s) : Keeps a (State.railFault s) := by
  unfold State.railFault
  exact (State.faultLevel_keeps h _ _)

theorem State.railMonitor_keeps (h : Keeps a s) (y2) (y3) : Keeps a (State.railMonitor s y2 y3) := by
  unfold State.railMonitor
  extract_lets -underBinder -merge +onlyGivenNames x1
  clear_value x1
  exact (State.railFault_keeps (State.pwrShow_keeps (State.put_keeps (State.put_keeps h _ _ _ _) _ _ _ _) _))

theorem execRail_keeps (h : Keeps a s) (y1) (y2) (y3) : KeepsR a (execRail y1 y2 y3 s) := by
  unfold execRail
  extract_lets -underBinder -merge +onlyGivenNames x1
  have h1 : Keeps a x1 := (State.at_keeps h _)
  clear_value x1
  exact (KeepsR.next (Keeps.ite (State.railMonitor_keeps h1 _ _) h1))

theorem execRailInWindow_keeps (h : Keeps a s) (y1) (y2) (y3) : KeepsR a (execRailInWindow y1 y2 y3 s) := by
  unfold execRailInWindow
  extract_lets -underBinder -merge +onlyGivenNames x1
  have h1 : Keeps a x1 := (State.at_keeps h _)
  clear_value x1
  exact (KeepsR.next (Keeps.ite (State.railMonitor_keeps h1 _ _) h1))

theorem State.vinLevel_keeps (h : Keeps a s) (y2) : Keeps a (State.vinLevel s y2) := by
  unfold State.vinLevel
  extract_lets -underBinder -merge +onlyGivenNames x1
  clear_value x1
  extract_lets -underBinder -merge +onlyGivenNames x2
  have h2 : Keeps a x2 := (Keeps.ite (State.sat_keeps h _ _ _ _) h)
  clear_value x2
  exact (State.pwrShow_keeps (State.putB_keeps (State.put_keeps h2 _ _ _ _) _ _ _ _) _)

theorem execVinLow_keeps (h : Keeps a s) (y1) (y2) : KeepsR a (execVinLow y1 y2 s) := by
  unfold execVinLow
  extract_lets -underBinder -merge +onlyGivenNames x1
  have h1 : Keeps a x1 := (State.at_keeps h _)
  clear_value x1
  exact (KeepsR.next (Keeps.ite (State.vinLevel_keeps h1 _) h1))

theorem execVinDip_keeps (h : Keeps a s) (y1) (y2) : KeepsR a (execVinDip y1 y2 s) := by
  unfold execVinDip
  extract_lets -underBinder -merge +onlyGivenNames x1
  have h1 : Keeps a x1 := (State.at_keeps h _)
  clear_value x1
  refine KeepsR.next ?_
  refine Keeps.ite ?_ ?_
  · extract_lets -underBinder -merge +onlyGivenNames x2
    have h2 : Keeps a x2 := (State.vinLevel_keeps h1 _)
    clear_value x2
    exact (State.railFault_keeps (State.modPower_keeps h2 _))
  · exact h1

theorem execVinRecovery_keeps (h : Keeps a s) (y1) (y2) : KeepsR a (execVinRecovery y1 y2 s) := by
  unfold execVinRecovery
  extract_lets -underBinder -merge +onlyGivenNames x1
  have h1 : Keeps a x1 := (State.at_keeps h _)
  clear_value x1
  refine KeepsR.next ?_
  refine Keeps.ite ?_ ?_
  · extract_lets -underBinder -merge +onlyGivenNames x2
    have h2 : Keeps a x2 := (State.vinLevel_keeps h1 _)
    clear_value x2
    exact (State.railFault_keeps (State.modPower_keeps h2 _))
  · exact h1

theorem execSag_keeps (h : Keeps a s) (y1) (y2) (y3) : KeepsR a (execSag y1 y2 y3 s) := by
  unfold execSag
  extract_lets -underBinder -merge +onlyGivenNames x1
  have h1 : Keeps a x1 := (State.at_keeps h _)
  clear_value x1
  extract_lets -underBinder -merge +onlyGivenNames x2
  clear_value x2
  refine KeepsR.next ?_
  refine Keeps.ite ?_ ?_
  · extract_lets -underBinder -merge +onlyGivenNames x3
    have h3 : Keeps a x3 := (State.sat_keeps (State.stretchCount_keeps (State.put_keeps h1 _ _ _ _) _) _ _ _ _)
    clear_value x3
    exact (State.pwrShow_keeps (State.modPower_keeps h3 _) _)
  · exact h1

theorem execSagRelease_keeps (h : Keeps a s) (y1) : KeepsR a (execSagRelease y1 s) := by
  unfold execSagRelease
  extract_lets -underBinder -merge +onlyGivenNames x1
  have h1 : Keeps a x1 := (State.at_keeps h _)
  clear_value x1
  refine KeepsR.next ?_
  split
  · refine Keeps.ite ?_ ?_
    · extract_lets -underBinder -merge +onlyGivenNames x3
      have h3 : Keeps a x3 := (State.stretchCount_keeps h1 _)
      clear_value x3
      exact (State.pwrShow_keeps (State.modPower_keeps h3 _) _)
    · exact h1
  · exact h1

theorem execCapWindowEnd_keeps (h : Keeps a s) (y1) (y2) (y3) (y4) : KeepsR a (execCapWindowEnd y1 y2 y3 y4 s) := by
  unfold execCapWindowEnd
  extract_lets -underBinder -merge +onlyGivenNames x1
  have h1 : Keeps a x1 := (State.at_keeps h _)
  clear_value x1
  extract_lets -underBinder -merge +onlyGivenNames x2
  clear_value x2
  extract_lets -underBinder -merge +onlyGivenNames x3
  clear_value x3
  extract_lets -underBinder -merge +onlyGivenNames x4
  clear_value x4
  refine KeepsR.next ?_
  refine Keeps.ite ?_ ?_
  · exact h1
  · extract_lets -underBinder -merge +onlyGivenNames x5
    have h5 : Keeps a x5 := (State.put_keeps (State.put_keeps (State.put_keeps h1 _ _ _ _) _ _ _ _) _ _ _ _)
    clear_value x5
    extract_lets -underBinder -merge +onlyGivenNames x6
    have h6 : Keeps a x6 := (State.stretchCount_keeps h5 _)
    clear_value x6
    extract_lets -underBinder -merge +onlyGivenNames x7
    have h7 : Keeps a x7 := (State.putB_keeps h6 _ _ _ _)
    clear_value x7
    extract_lets -underBinder -merge +onlyGivenNames x8
    have h8 : Keeps a x8 := (Keeps.ite (Keeps.ite (State.putB_keeps h6 _ _ _ _) (State.sat_keeps (State.modPower_keeps h6 _) _ _ _ _)) (Keeps.ite (State.modPower_keeps h7 _) h7))
    clear_value x8
    exact (State.pwrShow_keeps h8 _)

theorem State.showTemps_keeps (h : Keeps a s) (y2) (y3) (y4) : Keeps a (State.showTemps s y2 y3 y4) := by
  unfold State.showTemps
  extract_lets -underBinder -merge +onlyGivenNames x1
  have h1 : Keeps a x1 := (State.put_keeps (State.put_keeps h _ _ _ _) _ _ _ _)
  clear_value x1
  extract_lets -underBinder -merge +onlyGivenNames x2
  have h2 : Keeps a x2 := (State.each_keeps h1 fun _ h3 _ => (State.put_keeps h3 _ _ _ _))
  clear_value x2
  exact (State.each_keeps h2 fun _ h4 _ => (State.put_keeps (State.put_keeps h4 _ _ _ _) _ _ _ _))

theorem execThermalReading_keeps (h : Keeps a s) (y1) (y2) (y3) (y4) : KeepsR a (execThermalReading y1 y2 y3 y4 s) := by
  unfold execThermalReading
  refine KeepsR.ite ?_ ?_
  · exact KeepsR.fault
  · extract_lets -underBinder -merge +onlyGivenNames x1
    have h1 : Keeps a x1 := (State.at_keeps h _)
    clear_value x1
    extract_lets -underBinder -merge +onlyGivenNames x2
    clear_value x2
    refine KeepsR.next ?_
    refine Keeps.ite ?_ ?_
    · exact h1
    · refine Keeps.ite ?_ ?_
      · exact (State.moduleReset_keeps h1)
      · extract_lets -underBinder -merge +onlyGivenNames x3
        have h3 : Keeps a x3 := (State.stretchCount_keeps (State.showTemps_keeps h1 _ _ _) _)
        clear_value x3
        extract_lets -underBinder -merge +onlyGivenNames x4
        clear_value x4
        extract_lets -underBinder -merge +onlyGivenNames x5
        have h5 : Keeps a x5 := (Keeps.ite (Keeps.ite h3 (State.sat_keeps (State.putB_keeps h3 _ _ _ _) _ _ _ _)) (Keeps.ite (State.putB_keeps h3 _ _ _ _) h3))
        clear_value x5
        extract_lets -underBinder -merge +onlyGivenNames x6
        clear_value x6
        extract_lets -underBinder -merge +onlyGivenNames x7
        clear_value x7
        extract_lets -underBinder -merge +onlyGivenNames x8
        have h8 : Keeps a x8 := (State.pwrShow_keeps (State.modPower_keeps h5 _) _)
        clear_value x8
        exact (State.faultLevel_keeps h8 _ _)

theorem State.pwrCopied_keeps (h : Keeps a s) (y2) : Keeps a (State.pwrCopied s y2) := by
  unfold State.pwrCopied
  refine Keeps.ite ?_ ?_
  · exact (State.pwrShow_keeps h _)
  · extract_lets -underBinder -merge +onlyGivenNames x1
    have h1 : Keeps a x1 := (State.stretchCount_keeps h _)
    clear_value x1
    exact (State.pwrShow_keeps (State.putB_keeps (State.modPower_keeps h1 _) _ _ _ _) _)

theorem execPwrClr_keeps (h : Keeps a s) (y1) : KeepsR a (execPwrClr y1 s) := by
  unfold execPwrClr
  refine KeepsR.next ?_
  refine Keeps.ite ?_ ?_
  · extract_lets -underBinder -merge +onlyGivenNames x1
    have h1 : Keeps a x1 := (State.clearAll_keeps h _ _)
    clear_value x1
    exact (State.modPower_keeps h1 _)
  · exact h

end Sys2Proof.Machine
end

