-- ==== Sys2Proof/Laws/KeepsStartup.lean ====
section
/-!
SUPPORT. What the operations of Machine/Startup.lean keep (see Laws/Keeps.lean).
-/
namespace Sys2Proof.Machine
variable {a s : State}

theorem State.stepUs_keeps (h : Keeps a s) (y2) (y3) : Keeps a (State.stepUs s y2 y3) := by
  unfold State.stepUs
  exact (State.put_keeps h _ _ _ _)

theorem State.stepsUs_keeps (h : Keeps a s) (n : Nat) (l : List Nat) : Keeps a (s.stepsUs n l) := by
  induction l generalizing s n with
  | nil => exact h
  | cons u r ih => exact ih (State.stepUs_keeps h _ _) _

theorem State.modStart_keeps (h : Keeps a s) (y2) : Keeps a (State.modStart s y2) := by
  unfold State.modStart
  exact (Keeps.same h rfl rfl rfl rfl rfl rfl rfl)

theorem State.setStep_keeps (h : Keeps a s) (y2) : Keeps a (State.setStep s y2) := by
  unfold State.setStep
  extract_lets -underBinder -merge +onlyGivenNames x1
  clear_value x1
  extract_lets -underBinder -merge +onlyGivenNames x2
  have h2 : Keeps a x2 := (State.putB_keeps (State.put_keeps h _ _ _ _) _ _ _ _)
  clear_value x2
  extract_lets -underBinder -merge +onlyGivenNames x3
  have h3 : Keeps a x3 := (Keeps.ite (State.setBlockState_keeps h2 _ _) h2)
  clear_value x3
  exact (State.level_keeps (State.level_keeps h3 _ _ _) _ _ _)

theorem State.marchedAtStart_keeps (h : Keeps a s) (y2) (y3) : Keeps a (State.marchedAtStart s y2 y3) := by
  unfold State.marchedAtStart
  extract_lets -underBinder -merge +onlyGivenNames x1
  have h1 : Keeps a x1 := (State.modMar_keeps h _)
  clear_value x1
  extract_lets -underBinder -merge +onlyGivenNames x2
  clear_value x2
  extract_lets -underBinder -merge +onlyGivenNames x3
  have h3 : Keeps a x3 := (State.put_keeps (State.put_keeps h1 _ _ _ _) _ _ _ _)
  clear_value x3
  extract_lets -underBinder -merge +onlyGivenNames x4
  have h4 : Keeps a x4 := (State.put_keeps h3 _ _ _ _)
  clear_value x4
  refine Keeps.ite ?_ ?_
  · exact h4
  · extract_lets -underBinder -merge +onlyGivenNames x5
    have h5 : Keeps a x5 := (State.putB_keeps (State.sat_keeps h4 _ _ _ _) _ _ _ _)
    clear_value x5
    exact (State.raiseFault_keeps (State.pulse_keeps h5 _ _) _)

theorem State.hostLink_keeps (h : Keeps a s) (y2) : Keeps a (State.hostLink s y2) := by
  unfold State.hostLink
  extract_lets -underBinder -merge +onlyGivenNames x1
  clear_value x1
  extract_lets -underBinder -merge +onlyGivenNames x2
  have h2 : Keeps a x2 := (State.put_keeps (State.putB_keeps h _ _ _ _) _ _ _ _)
  clear_value x2
  extract_lets -underBinder -merge +onlyGivenNames x3
  have h3 : Keeps a x3 := (State.put_keeps h2 _ _ _ _)
  clear_value x3
  extract_lets -underBinder -merge +onlyGivenNames x4
  clear_value x4
  exact (State.level_keeps (State.setLanes_keeps h3 _ _ _ _) _ _ _)

theorem State.waitImage_keeps (h : Keeps a s) (y2) : Keeps a (State.waitImage s y2) := by
  unfold State.waitImage
  extract_lets -underBinder -merge +onlyGivenNames x1
  have h1 : Keeps a x1 := (State.setStep_keeps (State.stepUs_keeps h _ _) _)
  clear_value x1
  exact (State.modStart_keeps h1 _)

theorem State.takeConfig_keeps (h : Keeps a s) (y2) : Keeps a (State.takeConfig s y2) := by
  unfold State.takeConfig
  extract_lets -underBinder -merge +onlyGivenNames x1
  have h1 : Keeps a x1 := (State.put_keeps (State.put_keeps h _ _ _ _) _ _ _ _)
  clear_value x1
  extract_lets -underBinder -merge +onlyGivenNames x2
  have h2 : Keeps a x2 := (State.put_keeps (State.put_keeps h1 _ _ _ _) _ _ _ _)
  clear_value x2
  extract_lets -underBinder -merge +onlyGivenNames x3
  have h3 : Keeps a x3 := (State.put_keeps (State.put_keeps (State.put_keeps h2 _ _ _ _) _ _ _ _) _ _ _ _)
  clear_value x3
  exact (State.modStart_keeps h3 _)

theorem execBoot_keeps (h : Keeps a s) (y1) (y2) (y3) (y4) (y5) (y6) : KeepsR a (execBoot y1 y2 y3 y4 y5 y6 s) := by
  unfold execBoot
  refine KeepsR.ite ?_ ?_
  · exact KeepsR.fault
  · extract_lets -underBinder -merge +onlyGivenNames x1
    have h1 : Keeps a x1 := (State.at_keeps h _)
    clear_value x1
    refine KeepsR.next ?_
    refine Keeps.ite ?_ ?_
    · exact h1
    · extract_lets -underBinder -merge +onlyGivenNames x2
      clear_value x2
      extract_lets -underBinder -merge +onlyGivenNames x3
      have h3 : Keeps a x3 := (State.putB_keeps (State.takeConfig_keeps h1 _) _ _ _ _)
      clear_value x3
      extract_lets -underBinder -merge +onlyGivenNames x4
      have h4 : Keeps a x4 := (State.marchedAtStart_keeps (State.hostLink_keeps h3 _) _ _)
      clear_value x4
      extract_lets -underBinder -merge +onlyGivenNames x5
      have h5 : Keeps a x5 := (State.stepsUs_keeps h4 _ _)
      clear_value x5
      split
      · exact (State.waitImage_keeps (State.putB_keeps h5 _ _ _ _) _)
      · extract_lets -underBinder -merge +onlyGivenNames x8
        have h8 : Keeps a x8 := (State.put_keeps (State.put_keeps h5 _ _ _ _) _ _ _ _)
        clear_value x8
        extract_lets -underBinder -merge +onlyGivenNames x9
        have h9 : Keeps a x9 := (State.put_keeps h8 _ _ _ _)
        clear_value x9
        refine Keeps.ite ?_ ?_
        · extract_lets -underBinder -merge +onlyGivenNames x10
          have h10 : Keeps a x10 := (State.setStep_keeps h9 _)
          clear_value x10
          exact (State.modStart_keeps h10 _)
        · exact (State.waitImage_keeps (State.putB_keeps h9 _ _ _ _) _)

theorem State.putBoth_keeps (h : Keeps a s) (y2) (y3) (y4) : Keeps a (State.putBoth s y2 y3 y4) := by
  unfold State.putBoth
  exact (State.setStaged_keeps (State.put_keeps h _ _ _ _) _ _ _)

theorem State.clockStep_keeps (h : Keeps a s) (y2) : Keeps a (State.clockStep s y2) := by
  unfold State.clockStep
  extract_lets -underBinder -merge +onlyGivenNames x1
  clear_value x1
  split
  · extract_lets -underBinder -merge +onlyGivenNames x6
    clear_value x6
    extract_lets -underBinder -merge +onlyGivenNames x7
    have h7 : Keeps a x7 := (State.putBoth_keeps (State.putBoth_keeps h _ _ _) _ _ _)
    clear_value x7
    extract_lets -underBinder -merge +onlyGivenNames x8
    have h8 : Keeps a x8 := (State.putBoth_keeps (State.putBoth_keeps h7 _ _ _) _ _ _)
    clear_value x8
    exact (State.lockAttempt_keeps (State.putBoth_keeps h8 _ _ _) _ _)

theorem State.runImage_keeps (h : Keeps a s) (y2) (y3) : Keeps a (State.runImage s y2 y3) := by
  unfold State.runImage
  extract_lets -underBinder -merge +onlyGivenNames x1
  have h1 : Keeps a x1 := (State.setReg_keeps (State.setReg_keeps h _ _ _) _ _ _)
  clear_value x1
  extract_lets -underBinder -merge +onlyGivenNames x2
  have h2 : Keeps a x2 := (State.put_keeps (State.setReg_keeps h1 _ _ _) _ _ _ _)
  clear_value x2
  extract_lets -underBinder -merge +onlyGivenNames x3
  have h3 : Keeps a x3 := (State.setStep_keeps (State.putB_keeps (State.put_keeps h2 _ _ _ _) _ _ _ _) _)
  clear_value x3
  extract_lets -underBinder -merge +onlyGivenNames x4
  have h4 : Keeps a x4 := (State.stretchCount_keeps (State.setBlockState_keeps h3 _ _) _)
  clear_value x4
  extract_lets -underBinder -merge +onlyGivenNames x5
  clear_value x5
  extract_lets -underBinder -merge +onlyGivenNames x6
  clear_value x6
  extract_lets -underBinder -merge +onlyGivenNames x7
  have h7 : Keeps a x7 := (Keeps.same h4 rfl rfl rfl rfl rfl rfl rfl)
  clear_value x7
  extract_lets -underBinder -merge +onlyGivenNames x8
  have h8 : Keeps a x8 := (State.each_keeps h7 fun _ h9 _ => (State.pageStart_keeps h9 _ _))
  clear_value x8
  exact (State.each_keeps h8 fun _ h10 _ => (State.clockStep_keeps h10 _))

theorem execImageAuthenticated_keeps (h : Keeps a s) (y1) (y2) : KeepsR a (execImageAuthenticated y1 y2 s) := by
  unfold execImageAuthenticated
  extract_lets -underBinder -merge +onlyGivenNames x1
  have h1 : Keeps a x1 := (State.at_keeps h _)
  clear_value x1
  exact (KeepsR.next (Keeps.ite (State.runImage_keeps (State.stepUs_keeps h1 _ _) _ _) h1))

theorem State.deepTested_keeps (h : Keeps a s) (y2) (y3) : Keeps a (State.deepTested s y2 y3) := by
  unfold State.deepTested
  extract_lets -underBinder -merge +onlyGivenNames x1
  have h1 : Keeps a x1 := by
    subst x1
    refine State.each_keeps h fun _ h4 _ => ?_
    · extract_lets -underBinder -merge +onlyGivenNames x5
      have h5 : Keeps a x5 := (State.putB_keeps (State.putB_keeps h4 _ _ _ _) _ _ _ _)
      clear_value x5
      exact (State.put_keeps h5 _ _ _ _)
  clear_value x1
  extract_lets -underBinder -merge +onlyGivenNames x6
  clear_value x6
  extract_lets -underBinder -merge +onlyGivenNames x7
  have h7 : Keeps a x7 := (State.put_keeps (State.put_keeps h1 _ _ _ _) _ _ _ _)
  clear_value x7
  extract_lets -underBinder -merge +onlyGivenNames x8
  have h8 : Keeps a x8 := (State.put_keeps (State.putB_keeps (State.putB_keeps h7 _ _ _ _) _ _ _ _) _ _ _ _)
  clear_value x8
  extract_lets -underBinder -merge +onlyGivenNames x9
  have h9 : Keeps a x9 := (State.each_keeps h8 fun _ h10 _ => (State.addBadRow_keeps h10 _))
  clear_value x9
  exact (State.putB_keeps h9 _ _ _ _)

theorem State.calibratedAtStart_keeps (h : Keeps a s) (y2) : Keeps a (State.calibratedAtStart s y2) := by
  unfold State.calibratedAtStart
  extract_lets -underBinder -merge +onlyGivenNames x1
  have h1 : Keeps a x1 := by
    subst x1
    refine State.each_keeps h fun _ h4 _ => ?_
    · split
      · exact (State.setStaged_keeps (State.setReg_keeps h4 _ _ _) _ _ _)
      · exact (State.put_keeps h4 _ _ _ _)
  clear_value x1
  extract_lets -underBinder -merge +onlyGivenNames x7
  have h7 : Keeps a x7 := (State.put_keeps h1 _ _ _ _)
  clear_value x7
  exact (State.putB_keeps h7 _ _ _ _)

theorem State.writeConfig_keeps (h : Keeps a s) : Keeps a (State.writeConfig s) := by
  unfold State.writeConfig
  extract_lets -underBinder -merge +onlyGivenNames x1
  have h1 : Keeps a x1 := (State.putBoth_keeps (State.putBoth_keeps h _ _ _) _ _ _)
  clear_value x1
  exact (State.putBoth_keeps (State.putBoth_keeps h1 _ _ _) _ _ _)

theorem State.enterReady_keeps (h : Keeps a s) : Keeps a (State.enterReady s) := by
  unfold State.enterReady
  extract_lets -underBinder -merge +onlyGivenNames x1
  clear_value x1
  refine Keeps.ite ?_ ?_
  · exact (State.safeEntry_keeps h _)
  · refine State.modSaf_keeps ?_ _
    exact (Keeps.same h rfl rfl rfl rfl rfl rfl rfl)

theorem State.clocksChecked_keeps (h : Keeps a s) : Keeps a (State.clocksChecked s) := by
  unfold State.clocksChecked
  extract_lets -underBinder -merge +onlyGivenNames x1
  have h1 : Keeps a x1 := (State.putB_keeps h _ _ _ _)
  clear_value x1
  exact (Keeps.ite (State.faultLevel_keeps h1 _ _) h1)

theorem execStartDone_keeps (h : Keeps a s) (y1) (y2) (y3) (y4) (y5) (y6) (y7) : KeepsR a (execStartDone y1 y2 y3 y4 y5 y6 y7 s) := by
  unfold execStartDone
  refine KeepsR.ite ?_ ?_
  · exact KeepsR.fault
  · extract_lets -underBinder -merge +onlyGivenNames x1
    have h1 : Keeps a x1 := (State.at_keeps h _)
    clear_value x1
    refine KeepsR.next ?_
    refine Keeps.ite ?_ ?_
    · exact h1
    · extract_lets -underBinder -merge +onlyGivenNames x2
      have h2 : Keeps a x2 := (State.deepTested_keeps (State.marchedAtStart_keeps h1 _ _) _ _)
      clear_value x2
      extract_lets -underBinder -merge +onlyGivenNames x3
      have h3 : Keeps a x3 := (State.clocksChecked_keeps (State.calibratedAtStart_keeps h2 _))
      clear_value x3
      extract_lets -underBinder -merge +onlyGivenNames x4
      have h4 : Keeps a x4 := (State.each_keeps h3 fun _ h5 _ => (State.pageStart_keeps h5 _ _))
      clear_value x4
      extract_lets -underBinder -merge +onlyGivenNames x6
      have h6 : Keeps a x6 := (State.setStep_keeps (State.stepsUs_keeps (State.writeConfig_keeps h4) _ _) _)
      clear_value x6
      extract_lets -underBinder -merge +onlyGivenNames x7
      have h7 : Keeps a x7 := (State.enterReady_keeps (State.modStart_keeps h6 _))
      clear_value x7
      extract_lets -underBinder -merge +onlyGivenNames x8
      have h8 : Keeps a x8 := (State.pulse_keeps h7 _ _)
      clear_value x8
      extract_lets -underBinder -merge +onlyGivenNames x9
      have h9 : Keeps a x9 := (Keeps.ite (State.startPairing_keeps h8 _) h8)
      clear_value x9
      exact (Keeps.ite (State.enumStart_keeps h9 _ _ _) h9)

theorem State.mboxDone_keeps (h : Keeps a s) (y2) (y3) : Keeps a (State.mboxDone s y2 y3) := by
  unfold State.mboxDone
  extract_lets -underBinder -merge +onlyGivenNames x1
  have h1 : Keeps a x1 := (State.put_keeps (State.put_keeps h _ _ _ _) _ _ _ _)
  clear_value x1
  exact (State.pulse_keeps (State.putB_keeps h1 _ _ _ _) _ _)

theorem State.mboxEnd_keeps (h : Keeps a s) (y2) (y3) : Keeps a (State.mboxEnd s y2 y3) := by
  unfold State.mboxEnd
  split
  · exact h
  · extract_lets -underBinder -merge +onlyGivenNames x3
    have h3 : Keeps a x3 := by
      subst x3
      refine State.put64_keeps ?_ _ _ _ _ _
      exact (Keeps.same h rfl rfl rfl rfl rfl rfl rfl)
    clear_value x3
    exact (State.mboxDone_keeps h3 _ _)

theorem State.mboxWrite_keeps (h : Keeps a s) (y2) : Keeps a (State.mboxWrite s y2) := by
  unfold State.mboxWrite
  extract_lets -underBinder -merge +onlyGivenNames x1
  clear_value x1
  extract_lets -underBinder -merge +onlyGivenNames x2
  clear_value x2
  extract_lets -underBinder -merge +onlyGivenNames x3
  clear_value x3
  refine Keeps.ite ?_ ?_
  · exact (State.mboxDone_keeps h _ _)
  · refine Keeps.ite ?_ ?_
    · exact (State.mboxDone_keeps h _ _)
    · refine Keeps.ite ?_ ?_
      · exact h
      · refine Keeps.ite ?_ ?_
        · exact (State.mboxDone_keeps h _ _)
        · extract_lets -underBinder -merge +onlyGivenNames x4
          have h4 : Keeps a x4 := (Keeps.same h rfl rfl rfl rfl rfl rfl rfl)
          clear_value x4
          extract_lets -underBinder -merge +onlyGivenNames x5
          have h5 : Keeps a x5 := (State.putB_keeps (State.put_keeps h4 _ _ _ _) _ _ _ _)
          clear_value x5
          exact (Keeps.ite (State.put_keeps h5 _ _ _ _) h5)

theorem State.mboxTake_keeps (h : Keeps a s) (y2) (y3) : KeepsP a (State.mboxTake s y2 y3) := by
  unfold State.mboxTake
  extract_lets -underBinder -merge +onlyGivenNames x1
  have h1 : Keeps a x1 := (Keeps.ite h (State.mboxWrite_keeps h _))
  clear_value x1
  exact (KeepsP.mk h1)

theorem execBootImage_keeps (h : Keeps a s) (y1) (y2) (y3) (y4) : KeepsR a (execBootImage y1 y2 y3 y4 s) := by
  unfold execBootImage
  split
  next x1 x2 e1 =>
    have h1 := KeepsP.out (State.mboxTake_keeps (State.at_keeps h _) _ _) e1
    refine KeepsR.next ?_
    split
    · exact h1
    · extract_lets -underBinder -merge +onlyGivenNames x5
      clear_value x5
      extract_lets -underBinder -merge +onlyGivenNames x6
      clear_value x6
      extract_lets -underBinder -merge +onlyGivenNames x7
      clear_value x7
      exact (Keeps.ite (State.mboxEnd_keeps h1 _ _) (Keeps.ite (State.mboxEnd_keeps h1 _ _) (Keeps.ite (State.runImage_keeps (State.stepUs_keeps (State.mboxEnd_keeps h1 _ _) _ _) _ _) (State.mboxEnd_keeps h1 _ _))))

theorem execFlashImage_keeps (h : Keeps a s) (y1) (y2) (y3) (y4) : KeepsR a (execFlashImage y1 y2 y3 y4 s) := by
  unfold execFlashImage
  split
  next x1 x2 e1 =>
    have h1 := KeepsP.out (State.mboxTake_keeps (State.at_keeps h _) _ _) e1
    refine KeepsR.next ?_
    split
    · exact h1
    · extract_lets -underBinder -merge +onlyGivenNames x5
      clear_value x5
      extract_lets -underBinder -merge +onlyGivenNames x6
      clear_value x6
      extract_lets -underBinder -merge +onlyGivenNames x7
      clear_value x7
      refine Keeps.ite ?_ ?_
      · exact (State.mboxEnd_keeps h1 _ _)
      · refine Keeps.ite ?_ ?_
        · exact (State.mboxEnd_keeps h1 _ _)
        · refine Keeps.ite ?_ ?_
          · extract_lets -underBinder -merge +onlyGivenNames x8
            have h8 : Keeps a x8 := (State.put_keeps (State.emit_keeps h1 _) _ _ _ _)
            clear_value x8
            exact (State.mboxEnd_keeps h8 _ _)
          · exact (State.mboxEnd_keeps h1 _ _)

theorem execFlashConfig_keeps (h : Keeps a s) (y1) (y2) : KeepsR a (execFlashConfig y1 y2 s) := by
  unfold execFlashConfig
  split
  next x1 x2 e1 =>
    have h1 := KeepsP.out (State.mboxTake_keeps (State.at_keeps h _) _ _) e1
    refine KeepsR.next ?_
    split
    · exact h1
    · extract_lets -underBinder -merge +onlyGivenNames x5
      clear_value x5
      extract_lets -underBinder -merge +onlyGivenNames x6
      clear_value x6
      exact (Keeps.ite (State.mboxEnd_keeps h1 _ _) (State.mboxEnd_keeps (State.emit_keeps h1 _) _ _))

theorem execPcieReset_keeps (h : Keeps a s) (y1) (y2) : KeepsR a (execPcieReset y1 y2 s) := by
  unfold execPcieReset
  extract_lets -underBinder -merge +onlyGivenNames x1
  have h1 : Keeps a x1 := (State.at_keeps h _)
  clear_value x1
  refine KeepsR.ite ?_ ?_
  · exact (KeepsR.next h1)
  · extract_lets -underBinder -merge +onlyGivenNames x2
    have h2 : Keeps a x2 := (State.each_keeps h1 fun _ h3 _ => (State.pageReset_keeps h3 _ _))
    clear_value x2
    extract_lets -underBinder -merge +onlyGivenNames x4
    have h4 : Keeps a x4 := (Keeps.same h2 rfl rfl rfl rfl rfl rfl rfl)
    clear_value x4
    extract_lets -underBinder -merge +onlyGivenNames x5
    have h5 : Keeps a x5 := (State.sat_keeps (State.hostLink_keeps h4 _) _ _ _ _)
    clear_value x5
    extract_lets -underBinder -merge +onlyGivenNames x6
    have h6 : Keeps a x6 := (State.pulse_keeps h5 _ _)
    clear_value x6
    exact (KeepsR.ite (execStop_keeps h6 _ _) (KeepsR.next h6))

theorem execGlbClr_keeps (h : Keeps a s) (y1) : KeepsR a (execGlbClr y1 s) := by
  unfold execGlbClr
  exact (KeepsR.next (Keeps.ite (State.put_keeps h _ _ _ _) h))

theorem execCpxHeartbeat_keeps (h : Keeps a s) (y1) (y2) (y3) : KeepsR a (execCpxHeartbeat y1 y2 y3 s) := by
  unfold execCpxHeartbeat
  refine KeepsR.ite ?_ ?_
  · exact KeepsR.fault
  · extract_lets -underBinder -merge +onlyGivenNames x1
    have h1 : Keeps a x1 := (State.at_keeps h _)
    clear_value x1
    refine KeepsR.next ?_
    refine Keeps.ite ?_ ?_
    · extract_lets -underBinder -merge +onlyGivenNames x2
      have h2 : Keeps a x2 := (State.put_keeps (State.wrap_keeps h1 _ _ _ _) _ _ _ _)
      clear_value x2
      exact (State.each_keeps h2 fun _ h3 _ => (State.put_keeps h3 _ _ _ _))
    · exact h1

theorem execCpxClr_keeps (h : Keeps a s) (y1) : KeepsR a (execCpxClr y1 s) := by
  unfold execCpxClr
  exact (KeepsR.next (Keeps.ite (State.put_keeps h _ _ _ _) h))

end Sys2Proof.Machine
end

