-- ==== Sys2Proof/Laws/KeepsBus.lean ====
section
/-!
SUPPORT. What the operations of Machine/Bus.lean keep (see Laws/Keeps.lean).
-/
namespace Sys2Proof.Machine
variable {a s : State}

theorem State.setHolding_keeps (h : Keeps a s) (y2) (y3) : Keeps a (State.setHolding s y2 y3) := by
  unfold State.setHolding
  split
  · exact (Keeps.same h rfl rfl rfl rfl rfl rfl rfl)
  · exact (Keeps.same h rfl rfl rfl rfl rfl rfl rfl)
  · exact (Keeps.same h rfl rfl rfl rfl rfl rfl rfl)

theorem State.readWord_keeps (h : Keeps a s) (y2) (y3) (y4) : KeepsP a (State.readWord s y2 y3 y4) := by
  unfold State.readWord
  extract_lets -underBinder -merge +onlyGivenNames x1
  clear_value x1
  refine KeepsP.ite ?_ ?_
  · exact (KeepsP.mk (State.setHolding_keeps h _ _))
  · refine KeepsP.ite ?_ ?_
    · split
      · exact (KeepsP.ite (KeepsP.mk h) (KeepsP.mk h))
      · exact (KeepsP.mk h)
    · exact (KeepsP.mk h)

theorem State.serTested_keeps (h : Keeps a s) (y2) (y3) : Keeps a (State.serTested s y2 y3) := by
  unfold State.serTested
  extract_lets -underBinder -merge +onlyGivenNames x1
  clear_value x1
  extract_lets -underBinder -merge +onlyGivenNames x2
  clear_value x2
  extract_lets -underBinder -merge +onlyGivenNames x3
  have h3 : Keeps a x3 := (Keeps.ite (State.each_keeps (State.hostLink_keeps h _) fun _ h4 _ => (Keeps.ite (State.level_keeps (State.put_keeps h4 _ _ _ _) _ _ _) h4)) h)
  clear_value x3
  extract_lets -underBinder -merge +onlyGivenNames x5
  have h5 : ∀ u0 u1, Keeps a u0 → Keeps a (x5 u0 u1) := by
    intro u0 u1 k5
    subst x5
    beta_reduce
    split
    next x6 e6 =>
      have h6 := KeepsR.out (execDriveLost_keeps k5 _ _) e6
      exact h6
    · exact k5
  clear_value x5
  extract_lets -underBinder -merge +onlyGivenNames x8
  have h8 : Keeps a x8 := (Keeps.ite (State.each_keeps h3 fun _ h9 _ => (h5 _ _ h9)) h3)
  clear_value x8
  exact (State.each_keeps h8 fun _ h10 _ => (Keeps.ite (State.setPort_keeps (State.linkLoss_keeps h10 _) _ _) h10))

theorem State.settled_keeps (h : Keeps a s) (y2) (y3) (y4) (y5) (y6) : Keeps a (State.settled s y2 y3 y4 y5 y6) := by
  unfold State.settled
  split
  · exact (State.pwrCopied_keeps h _)
  · exact (Keeps.ite h (State.cksCopied_keeps h _ _ _))
  · exact (State.refreshCko_keeps h)
  · exact (Keeps.ite (State.loopSourceChanged_keeps h _ _ _) h)
  · exact (Keeps.ite h (State.armOnce_keeps h _ _))
  · exact (State.timeSourceChanged_keeps h _)
  · exact (Keeps.ite (State.digModeCopied_keeps h _) h)
  · exact (Keeps.ite (State.stpState_keeps h _) (State.dropStarts_keeps h _))
  · exact (Keeps.ite h (State.fuSettings_keeps (State.fuSettings_keeps h _ _) _ _))
  · exact (Keeps.ite (State.convsCopied_keeps h) (Keeps.ite (State.setCopied_keeps h _) h))
  · exact (Keeps.ite (State.ivSettings_keeps h _ _ _) h)
  · exact (State.harCopied_keeps h)
  · exact (State.winCopied_keeps h _ _)
  · exact (State.gmbCopied_keeps h)
  · exact (State.actState_keeps (State.driveLands_keeps h _))
  · exact (Keeps.ite (State.kmaxCopied_keeps h _) h)
  · exact (State.each_keeps h fun _ h18 _ => (State.refreshRfq_keeps h18 _))
  · exact (Keeps.ite (State.lendCopied_keeps h) h)
  · exact (Keeps.ite (State.putB_keeps (State.putB_keeps h _ _ _ _) _ _ _ _) h)
  · exact (Keeps.ite h (Keeps.same h rfl rfl rfl rfl rfl rfl rfl))
  · exact (State.flxCopied_keeps h)
  · exact (Keeps.ite (State.twinCopied_keeps h _ _) h)
  · exact (State.serTested_keeps h _ _)
  · exact h

theorem State.commitWrite_keeps (h : Keeps a s) (y2) (y3) : Keeps a (State.commitWrite s y2 y3) := by
  unfold State.commitWrite
  extract_lets -underBinder -merge +onlyGivenNames x1
  clear_value x1
  extract_lets -underBinder -merge +onlyGivenNames x2
  clear_value x2
  exact (Keeps.ite (Keeps.ite (State.setPendGroups_keeps h _ _) (State.setPendGroups_keeps h _ _)) (State.setPendGroups_keeps h _ _))

theorem State.breakKey_keeps (h : Keeps a s) (y2) (y3) : Keeps a (State.breakKey s y2 y3) := by
  unfold State.breakKey
  exact (Keeps.ite (State.modSaf_keeps h _) h)

theorem execCommit_keeps (h : Keeps a s) (y1) (y2) (y3) : KeepsR a (execCommit y1 y2 y3 s) := by
  unfold execCommit
  extract_lets -underBinder -merge +onlyGivenNames x1
  have h1 : Keeps a x1 := (State.at_keeps h _)
  clear_value x1
  exact (KeepsR.next (Keeps.ite (State.commitWrite_keeps (State.breakKey_keeps h1 _ _) _ _) h1))

theorem execCommitCancel_keeps (h : Keeps a s) (y1) (y2) (y3) : KeepsR a (execCommitCancel y1 y2 y3 s) := by
  unfold execCommitCancel
  extract_lets -underBinder -merge +onlyGivenNames x1
  have h1 : Keeps a x1 := (State.at_keeps h _)
  clear_value x1
  exact (KeepsR.next (Keeps.ite (State.commitWrite_keeps (State.breakKey_keeps h1 _ _) _ _) h1))

theorem State.unpend_keeps (h : Keeps a s) (y2) : Keeps a (State.unpend s y2) := by
  unfold State.unpend
  exact (State.each_keeps h fun _ h1 _ => (State.setPendGroups_keeps h1 _ _))

theorem State.copyTaken_keeps (h : Keeps a s) (y2) (y3) : Keeps a (State.copyTaken s y2 y3) := by
  unfold State.copyTaken
  extract_lets -underBinder -merge +onlyGivenNames x1
  have h1 : Keeps a x1 := h
  clear_value x1
  extract_lets -underBinder -merge +onlyGivenNames x2
  have h2 : Keeps a x2 := by
    subst x2
    refine State.each_keeps h fun _ h5 _ => ?_
    · extract_lets -underBinder -merge +onlyGivenNames x6
      have h6 : Keeps a x6 := (Keeps.ite (State.copyGroup_keeps h5 _ _) h5)
      clear_value x6
      exact (State.showErrs_keeps (State.dropLastGood_keeps (State.setErr_keeps h6 _ _ _) _ _) _)
  clear_value x2
  extract_lets -underBinder -merge +onlyGivenNames x7
  have h7 : Keeps a x7 := (State.each_keeps h2 fun _ h8 _ => (State.commitFinished_keeps h8 _ _))
  clear_value x7
  exact (State.each_keeps h7 fun _ h9 _ => (State.settled_keeps h9 _ _ _ _ _))

theorem State.rejectTaken_keeps (h : Keeps a s) (y2) (y3) : Keeps a (State.rejectTaken s y2 y3) := by
  unfold State.rejectTaken
  extract_lets -underBinder -merge +onlyGivenNames x1
  have h1 : Keeps a x1 := (State.each_keeps h fun _ h2 _ => (State.commitFinished_keeps h2 _ _))
  clear_value x1
  exact (State.each_keeps h1 fun _ h3 _ => (State.showErrs_keeps (State.setErr_keeps h3 _ _ _) _))

theorem execSafePoint_keeps (h : Keeps a s) (y1) (y2) (y3) : KeepsR a (execSafePoint y1 y2 y3 s) := by
  unfold execSafePoint
  extract_lets -underBinder -merge +onlyGivenNames x1
  have h1 : Keeps a x1 := (State.at_keeps h _)
  clear_value x1
  extract_lets -underBinder -merge +onlyGivenNames x2
  clear_value x2
  refine KeepsR.next ?_
  refine Keeps.ite ?_ ?_
  · exact h1
  · extract_lets -underBinder -merge +onlyGivenNames x3
    clear_value x3
    extract_lets -underBinder -merge +onlyGivenNames x4
    clear_value x4
    extract_lets -underBinder -merge +onlyGivenNames x5
    have h5 : Keeps a x5 := (State.unpend_keeps h1 _)
    clear_value x5
    exact (Keeps.ite (State.copyTaken_keeps h5 _ _) (State.rejectTaken_keeps h5 _ _))

theorem State.dropStaged_keeps (h : Keeps a s) (p : Nat) : Keeps a (s.dropStaged p) :=
  h.trans ⟨rfl, List.prefix_rfl, Nat.le_refl _, fun c => ⟨c.1, c.2.1, c.2.2.1, swf_filter _ c.2.2.2⟩⟩

theorem State.stageModeWrite_keeps (h : Keeps a s) (y2) (y3) : Keeps a (State.stageModeWrite s y2 y3) := by
  unfold State.stageModeWrite
  refine Keeps.ite ?_ ?_
  · exact h
  · extract_lets -underBinder -merge +onlyGivenNames x1
    have h1 : Keeps a x1 := (State.setReg_keeps h _ _ _)
    clear_value x1
    refine Keeps.ite ?_ ?_
    · extract_lets -underBinder -merge +onlyGivenNames x2
      have h2 : Keeps a x2 := (State.dropStaged_keeps h1 _)
      clear_value x2
      exact (State.each_keeps h2 fun _ h3 _ => (State.setStaged_keeps h3 _ _ _))
    · exact (State.dropStaged_keeps (State.setPendGroups_keeps h1 _ _) _)

theorem execStageModeChange_keeps (h : Keeps a s) (y1) (y2) (y3) : KeepsR a (execStageModeChange y1 y2 y3 s) := by
  unfold execStageModeChange
  extract_lets -underBinder -merge +onlyGivenNames x1
  have h1 : Keeps a x1 := (State.at_keeps h _)
  clear_value x1
  exact (KeepsR.next (Keeps.ite (State.stageModeWrite_keeps (State.breakKey_keeps h1 _ _) _ _) h1))

theorem State.setResetting_keeps (h : Keeps a s) (y2) : Keeps a (State.setResetting s y2) := by
  unfold State.setResetting
  exact (Keeps.same h rfl rfl rfl rfl rfl rfl rfl)

theorem State.softResetWrite_keeps (h : Keeps a s) (y2) (y3) : Keeps a (State.softResetWrite s y2 y3) := by
  unfold State.softResetWrite
  extract_lets -underBinder -merge +onlyGivenNames x1
  have h1 : Keeps a x1 := (State.pageReset_keeps h _ _)
  clear_value x1
  extract_lets -underBinder -merge +onlyGivenNames x2
  have h2 : Keeps a x2 := (State.setResetting_keeps h1 _)
  clear_value x2
  exact (State.setBusy_keeps (State.setReg_keeps h2 _ _ _) _ _)

theorem execSoftReset_keeps (h : Keeps a s) (y1) (y2) : KeepsR a (execSoftReset y1 y2 s) := by
  unfold execSoftReset
  extract_lets -underBinder -merge +onlyGivenNames x1
  have h1 : Keeps a x1 := (State.at_keeps h _)
  clear_value x1
  exact (KeepsR.next (Keeps.ite (State.softResetWrite_keeps (State.breakKey_keeps h1 _ _) _ _) h1))

theorem execSoftResetComplete_keeps (h : Keeps a s) (y1) (y2) : KeepsR a (execSoftResetComplete y1 y2 s) := by
  unfold execSoftResetComplete
  extract_lets -underBinder -merge +onlyGivenNames x1
  have h1 : Keeps a x1 := (State.at_keeps h _)
  clear_value x1
  refine KeepsR.next ?_
  refine Keeps.ite ?_ ?_
  · extract_lets -underBinder -merge +onlyGivenNames x2
    have h2 : Keeps a x2 := (State.setResetting_keeps h1 _)
    clear_value x2
    extract_lets -underBinder -merge +onlyGivenNames x3
    have h3 : Keeps a x3 := (State.setBusy_keeps (State.setReg_keeps h2 _ _ _) _ _)
    clear_value x3
    exact (Keeps.ite (State.gapClose_keeps h3 _ _ _ _) h3)
  · exact h1

theorem State.enableBit_keeps (h : Keeps a s) (y2) (y3) (y4) : Keeps a (State.enableBit s y2 y3 y4) := by
  unfold State.enableBit
  exact (Keeps.ite h (Keeps.ite (State.pageStart_keeps h _ _) (State.pageStop_keeps h _ _)))

theorem execEnableWrite_keeps (h : Keeps a s) (y1) (y2) (y3) : KeepsR a (execEnableWrite y1 y2 y3 s) := by
  unfold execEnableWrite
  extract_lets -underBinder -merge +onlyGivenNames x1
  have h1 : Keeps a x1 := (State.at_keeps h _)
  clear_value x1
  exact (KeepsR.next (Keeps.ite (State.enableBit_keeps (State.breakKey_keeps h1 _ _) _ _ _) h1))

theorem State.pendClear_keeps (h : Keeps a s) (y2) (y3) : Keeps a (State.pendClear s y2 y3) := by
  unfold State.pendClear
  exact (State.setReg_keeps h _ _ _)

theorem State.enWrite_keeps (h : Keeps a s) (y2) (y3) : Keeps a (State.enWrite s y2 y3) := by
  unfold State.enWrite
  extract_lets -underBinder -merge +onlyGivenNames x1
  clear_value x1
  extract_lets -underBinder -merge +onlyGivenNames x2
  clear_value x2
  extract_lets -underBinder -merge +onlyGivenNames x3
  have h3 : Keeps a x3 := (State.setReg_keeps h _ _ _)
  clear_value x3
  exact (Keeps.ite h3 (State.irqRequest_keeps h3 _))

theorem State.forceWrite_keeps (h : Keeps a s) (y2) (y3) : Keeps a (State.forceWrite s y2 y3) := by
  unfold State.forceWrite
  exact (State.each_keeps h fun _ h1 _ => (State.latch_keeps h1 _ _))

theorem execEvtPendClear_keeps (h : Keeps a s) (y1) (y2) (y3) : KeepsR a (execEvtPendClear y1 y2 y3 s) := by
  unfold execEvtPendClear
  extract_lets -underBinder -merge +onlyGivenNames x1
  have h1 : Keeps a x1 := (State.at_keeps h _)
  clear_value x1
  exact (KeepsR.next (Keeps.ite (State.pendClear_keeps (State.breakKey_keeps h1 _ _) _ _) h1))

theorem execEvtEnWrite_keeps (h : Keeps a s) (y1) (y2) (y3) : KeepsR a (execEvtEnWrite y1 y2 y3 s) := by
  unfold execEvtEnWrite
  extract_lets -underBinder -merge +onlyGivenNames x1
  have h1 : Keeps a x1 := (State.at_keeps h _)
  clear_value x1
  exact (KeepsR.next (Keeps.ite (State.enWrite_keeps (State.breakKey_keeps h1 _ _) _ _) h1))

theorem execEvtForce_keeps (h : Keeps a s) (y1) (y2) (y3) : KeepsR a (execEvtForce y1 y2 y3 s) := by
  unfold execEvtForce
  extract_lets -underBinder -merge +onlyGivenNames x1
  have h1 : Keeps a x1 := (State.at_keeps h _)
  clear_value x1
  exact (KeepsR.next (Keeps.ite (State.forceWrite_keeps (State.breakKey_keeps h1 _ _) _ _) h1))

theorem State.setLastGood_keeps (h : Keeps a s) (y2) : Keeps a (State.setLastGood s y2) := by
  unfold State.setLastGood
  exact (Keeps.same h rfl rfl rfl rfl rfl rfl rfl)

theorem State.directTaken_keeps (h : Keeps a s) (y2) (y3) (y4) (y5) (y6) : Keeps a (State.directTaken s y2 y3 y4 y5 y6) := by
  unfold State.directTaken
  extract_lets -underBinder -merge +onlyGivenNames x1
  clear_value x1
  refine Keeps.ite ?_ ?_
  · extract_lets -underBinder -merge +onlyGivenNames x2
    have h2 : Keeps a x2 := (State.showErrs_keeps (State.dropLastGood_keeps (State.setErr_keeps h _ _ _) _ _) _)
    clear_value x2
    exact (State.settled_keeps h2 _ _ _ _ _)
  · extract_lets -underBinder -merge +onlyGivenNames x3
    clear_value x3
    extract_lets -underBinder -merge +onlyGivenNames x4
    have h4 : Keeps a x4 := (State.setLastGood_keeps h _)
    clear_value x4
    exact (State.showErrs_keeps (State.setErr_keeps h4 _ _ _) _)

theorem State.advanceWindow_keeps (h : Keeps a s) (y2) (y3) : Keeps a (State.advanceWindow s y2 y3) := by
  unfold State.advanceWindow
  exact (Keeps.ite (State.put_keeps h _ _ _ _) (Keeps.ite (State.put_keeps h _ _ _ _) h))

theorem State.writeRW_keeps (h : Keeps a s) (y2) (y3) (y4) (y5) : Keeps a (State.writeRW s y2 y3 y4 y5) := by
  unfold State.writeRW
  extract_lets -underBinder -merge +onlyGivenNames x1
  have h1 : Keeps a x1 := h
  clear_value x1
  extract_lets -underBinder -merge +onlyGivenNames x2
  clear_value x2
  extract_lets -underBinder -merge +onlyGivenNames x3
  clear_value x3
  extract_lets -underBinder -merge +onlyGivenNames x4
  have h4 : Keeps a x4 := (State.each_keeps h fun _ h5 _ => (State.storeRW_keeps h5 _ _ _ _ _))
  clear_value x4
  extract_lets -underBinder -merge +onlyGivenNames x6
  clear_value x6
  extract_lets -underBinder -merge +onlyGivenNames x7
  have h7 : Keeps a x7 := (Keeps.ite h4 (State.each_keeps h4 fun _ h8 _ => (State.directTaken_keeps h8 _ _ _ _ _)))
  clear_value x7
  exact (State.each_keeps h7 fun _ h9 _ => (State.advanceWindow_keeps h9 _ _))

theorem execScrLendDataWrite_keeps (h : Keeps a s) (y1) (y2) : KeepsR a (execScrLendDataWrite y1 y2 s) := by
  unfold execScrLendDataWrite
  extract_lets -underBinder -merge +onlyGivenNames x1
  have h1 : Keeps a x1 := (State.at_keeps h _)
  clear_value x1
  exact (KeepsR.next (Keeps.ite (State.writeRW_keeps h1 _ _ _ _) h1))

theorem execTldPtCtlWrite_keeps (h : Keeps a s) (y1) (y2) : KeepsR a (execTldPtCtlWrite y1 y2 s) := by
  unfold execTldPtCtlWrite
  extract_lets -underBinder -merge +onlyGivenNames x1
  have h1 : Keeps a x1 := (State.at_keeps h _)
  clear_value x1
  exact (KeepsR.next (Keeps.ite (State.writeRW_keeps h1 _ _ _ _) h1))

theorem Res.keep_keeps {r : Res} (h : Keeps a s) (hr : KeepsR a r) : Keeps a (Res.keep s r) := by
  unfold Res.keep
  split
  · exact hr _ rfl
  · exact h

theorem State.actWrite1_keeps (h : Keeps a s) (y2) (y3) (y4) (y5) : Keeps a (State.actWrite1 s y2 y3 y4 y5) := by
  unfold State.actWrite1
  extract_lets -underBinder -merge +onlyGivenNames x1
  clear_value x1
  split
  · exact (Keeps.ite (Res.keep_keeps h (execGlbReset_keeps h _ _)) (Keeps.ite (Res.keep_keeps h (execGlbClr_keeps h _)) h))
  · exact (Keeps.ite (Res.keep_keeps h (execPwrClr_keeps h _)) h)
  · refine Keeps.ite ?_ ?_
    · extract_lets -underBinder -merge +onlyGivenNames x5
      clear_value x5
      extract_lets -underBinder -merge +onlyGivenNames x6
      have h6 : Keeps a x6 := (Keeps.ite (Res.keep_keeps h (execRelock_keeps h _ _)) h)
      clear_value x6
      exact (Keeps.ite (Res.keep_keeps h6 (execClrCnt_keeps h6 _)) h6)
    · exact h
  · exact (Keeps.ite (Res.keep_keeps h (execLtlClr_keeps h _ _)) h)
  · exact (Keeps.ite (Res.keep_keeps h (execAngClr_keeps h _)) h)
  · exact (Keeps.ite (Res.keep_keeps h (execTimeSetSec_keeps h _ _)) (Keeps.ite (Res.keep_keeps h (execTimeSetSec_keeps h _ _)) (Keeps.ite (Res.keep_keeps h (execTimeClr_keeps h _)) h)))
  · extract_lets -underBinder -merge +onlyGivenNames x11
    clear_value x11
    exact (Keeps.ite (Res.keep_keeps h (execDigBcast_keeps h _ _)) (Keeps.ite (Res.keep_keeps h (execDigClr_keeps h _ _)) h))
  · extract_lets -underBinder -merge +onlyGivenNames x13
    clear_value x13
    exact (Keeps.ite (Res.keep_keeps h (execStpClr_keeps h _ _)) (Keeps.ite (Res.keep_keeps h (execStpIpSnap_keeps h _ _)) h))
  · exact (Keeps.ite (Res.keep_keeps h (execFrqSnapSel_keeps h _)) (Keeps.ite (Res.keep_keeps h (execFrqNewClear_keeps h _)) (Keeps.ite (Res.keep_keeps h (execFrqClr_keeps h _)) h)))
  · exact (Keeps.ite (Res.keep_keeps h (execAdcClr_keeps h _)) h)
  · exact (Keeps.ite (Res.keep_keeps h (execAccSnapSel_keeps h _)) h)
  · exact (Keeps.ite (Res.keep_keeps h (execHarSnapSel_keeps h _)) (Keeps.ite (Res.keep_keeps h (execHarClr_keeps h _)) h))
  · exact (Keeps.ite (Res.keep_keeps h (execSoft_keeps h _ _)) (Keeps.ite (Res.keep_keeps h (execTldClr_keeps h _)) (Keeps.ite (Res.keep_keeps h (execTldPtSel_keeps h _)) (Keeps.ite (Res.keep_keeps h (execTldTcSnapSel_keeps h _ _)) h))))
  · exact (Keeps.ite (Res.keep_keeps h (execGmbClr_keeps h _)) h)
  · exact (Keeps.ite (Res.keep_keeps h (execActRelease_keeps h _ _)) (Keeps.ite (Res.keep_keeps h (execActClr_keeps h _)) h))
  · exact (Keeps.ite (Keeps.ite (Res.keep_keeps h (execArm_keeps h _ _)) (Res.keep_keeps h (execStop_keeps h _ _))) (Keeps.ite (Res.keep_keeps h (execAcqClr_keeps h _)) (Keeps.ite (Res.keep_keeps h (execAcqThinClr_keeps h _)) h)))
  · exact h

theorem State.actWrite2_keeps (h : Keeps a s) (y2) (y3) (y4) (y5) : Keeps a (State.actWrite2 s y2 y3 y4 y5) := by
  unfold State.actWrite2
  extract_lets -underBinder -merge +onlyGivenNames x1
  clear_value x1
  split
  · exact (Keeps.ite (Res.keep_keeps h (execRfqFlush_keeps h _ _)) (Keeps.ite (Res.keep_keeps h (execRfqClr_keeps h _)) h))
  · exact (Keeps.ite (Res.keep_keeps h (execCmpClr_keeps h _)) h)
  · exact (Keeps.ite (Res.keep_keeps h (execDcpClr_keeps h _)) h)
  · exact (Keeps.ite (Res.keep_keeps h (execScrLendSel_keeps h _)) (Keeps.ite (Res.keep_keeps h (execScrClr_keeps h _)) h))
  · exact (Keeps.ite (Res.keep_keeps h (execMarClr_keeps h _)) h)
  · exact (Keeps.ite (Res.keep_keeps h (execDmcBadrowSel_keeps h _)) (Keeps.ite (Res.keep_keeps h (execDmcClr_keeps h _)) h))
  · exact (Keeps.ite (Res.keep_keeps h (execStoCatSel_keeps h _)) (Keeps.ite (Res.keep_keeps h (execStoFreeRec_keeps h _ _)) (Keeps.ite (Res.keep_keeps h (execStoClr_keeps h _)) h)))
  · exact (Keeps.ite (Res.keep_keeps h (execNvqReset_keeps h _ _)) (Keeps.ite (Res.keep_keeps h (execNvqClr_keeps h _)) h))
  · exact (Keeps.ite (Res.keep_keeps h (execHifClr_keeps h _)) h)
  · refine Keeps.ite ?_ ?_
    · extract_lets -underBinder -merge +onlyGivenNames x12
      clear_value x12
      extract_lets -underBinder -merge +onlyGivenNames x13
      have h13 : Keeps a x13 := (Res.keep_keeps h (execSqDoorbell_keeps h _ _ _))
      clear_value x13
      exact (Res.keep_keeps h13 (execCqDoorbell_keeps h13 _ _ _))
    · exact h
  · exact (Keeps.ite (Res.keep_keeps h (execEthClr_keeps h _)) h)
  · exact (Keeps.ite (Res.keep_keeps h (execCasClr_keeps h _)) h)
  · exact (Keeps.ite (Res.keep_keeps h (execFlxRetrain_keeps h _ _)) (Keeps.ite (Res.keep_keeps h (execFlxClr_keeps h _)) h))
  · exact (Keeps.ite (Res.keep_keeps h (execDetach_keeps h _ _)) (Keeps.ite (Res.keep_keeps h (execTwnClr_keeps h _)) h))
  · exact (Keeps.ite (Res.keep_keeps h (execSafClear_keeps h _ _)) (Keeps.ite (Res.keep_keeps h (execSafSealSel_keeps h _)) (Keeps.ite (Res.keep_keeps h (execSafClr_keeps h _)) h)))
  · exact (Keeps.ite (Res.keep_keeps h (execSerClr_keeps h _)) h)
  · exact (Keeps.ite (State.mboxWrite_keeps h _) (Keeps.ite (Res.keep_keeps h (execCpxClr_keeps h _)) h))
  · exact h

theorem State.actWrite_keeps (h : Keeps a s) (y2) (y3) (y4) (y5) : Keeps a (State.actWrite s y2 y3 y4 y5) := by
  unfold State.actWrite
  exact (Keeps.ite (State.actWrite1_keeps h _ _ _ _) (State.actWrite2_keeps h _ _ _ _))

theorem State.writeHeader_keeps (h : Keeps a s) (y2) (y3) (y4) (y5) (y6) : Keeps a (State.writeHeader s y2 y3 y4 y5 y6) := by
  unfold State.writeHeader
  split
  · extract_lets -underBinder -merge +onlyGivenNames x2
    clear_value x2
    exact (Keeps.ite (State.softResetWrite_keeps h _ _) (State.enableBit_keeps (State.stageModeWrite_keeps h _ _) _ _ _))
  · exact (Keeps.ite (State.pendClear_keeps h _ _) h)
  · exact (State.enWrite_keeps h _ _)
  · exact (Keeps.ite (State.forceWrite_keeps h _ _) h)
  · exact (Keeps.ite (State.commitWrite_keeps h _ _) h)
  · exact h

theorem State.writeReg_keeps (h : Keeps a s) (y2) (y3) (y4) (y5) (y6) : Keeps a (State.writeReg s y2 y3 y4 y5 y6) := by
  unfold State.writeReg
  split
  · exact h
  · refine Keeps.ite ?_ ?_
    · exact h
    · extract_lets -underBinder -merge +onlyGivenNames x3
      have h3 : Keeps a x3 := (State.breakKey_keeps h _ _)
      clear_value x3
      refine Keeps.ite ?_ ?_
      · exact (State.writeHeader_keeps h3 _ _ _ _ _)
      · split
        · exact h3
        · split
          · exact (State.writeRW_keeps h3 _ _ _ _)
          · exact h3
          · exact (Keeps.ite (State.actWrite_keeps h3 _ _ _ _) h3)

theorem State.writeReg64_keeps (h : Keeps a s) (y2) (y3) (y4) (y5) (y6) : Keeps a (State.writeReg64 s y2 y3 y4 y5 y6) := by
  unfold State.writeReg64
  extract_lets -underBinder -merge +onlyGivenNames x1
  clear_value x1
  extract_lets -underBinder -merge +onlyGivenNames x2
  clear_value x2
  split
  · exact h
  · exact (Keeps.ite (Keeps.ite (State.writeRW_keeps (State.breakKey_keeps h _ _) _ _ _ _) h) (State.writeReg_keeps (State.writeReg_keeps h _ _ _ _ _) _ _ _ _ _))

theorem State.rwinError_keeps (h : Keeps a s) : Keeps a (State.rwinError s) := by
  unfold State.rwinError
  exact (State.pulse_keeps (State.sat_keeps h _ _ _ _) _ _)

theorem State.rwinIssue_keeps (h : Keeps a s) (y2) (y3) (y4) (y5) : Keeps a (State.rwinIssue s y2 y3 y4 y5) := by
  unfold State.rwinIssue
  refine Keeps.ite ?_ ?_
  · extract_lets -underBinder -merge +onlyGivenNames x1
    have h1 : Keeps a x1 := (Keeps.ite (State.emit_keeps h _) h)
    clear_value x1
    exact (State.rwinError_keeps h1)
  · extract_lets -underBinder -merge +onlyGivenNames x2
    clear_value x2
    extract_lets -underBinder -merge +onlyGivenNames x3
    have h3 : Keeps a x3 := (State.sendTo_keeps h _ _ _ _ _ _)
    clear_value x3
    exact (State.modCas_keeps h3 _)

theorem execRemoteWindowRead_keeps (h : Keeps a s) (y1) (y2) (y3) : KeepsR a (execRemoteWindowRead y1 y2 y3 s) := by
  unfold execRemoteWindowRead
  extract_lets -underBinder -merge +onlyGivenNames x1
  have h1 : Keeps a x1 := (State.at_keeps h _)
  clear_value x1
  exact (KeepsR.next (Keeps.ite (State.rwinIssue_keeps h1 _ _ _ _) h1))

theorem execRemoteWindowWrite_keeps (h : Keeps a s) (y1) (y2) (y3) (y4) : KeepsR a (execRemoteWindowWrite y1 y2 y3 y4 s) := by
  unfold execRemoteWindowWrite
  extract_lets -underBinder -merge +onlyGivenNames x1
  have h1 : Keeps a x1 := (State.at_keeps h _)
  clear_value x1
  exact (KeepsR.next (Keeps.ite (State.rwinIssue_keeps h1 _ _ _ _) h1))

theorem State.rwinEnd_keeps (h : Keeps a s) (y2) (y3) : Keeps a (State.rwinEnd s y2 y3) := by
  unfold State.rwinEnd
  extract_lets -underBinder -merge +onlyGivenNames x1
  have h1 : Keeps a x1 := (Keeps.ite (State.emit_keeps h _) h)
  clear_value x1
  exact (Keeps.ite (State.rwinError_keeps h1) h1)

theorem execRwinTimeout_keeps (h : Keeps a s) (y1) : KeepsR a (execRwinTimeout y1 s) := by
  unfold execRwinTimeout
  extract_lets -underBinder -merge +onlyGivenNames x1
  have h1 : Keeps a x1 := (State.at_keeps h _)
  clear_value x1
  extract_lets -underBinder -merge +onlyGivenNames x2
  clear_value x2
  refine KeepsR.next ?_
  split
  · exact h1
  · exact (State.rwinEnd_keeps (State.modCas_keeps h1 _) _ _)

theorem execRegToken_keeps (h : Keeps a s) (y1) (y2) (y3) : KeepsR a (execRegToken y1 y2 y3 s) := by
  unfold execRegToken
  extract_lets -underBinder -merge +onlyGivenNames x1
  have h1 : Keeps a x1 := (State.at_keeps h _)
  clear_value x1
  refine KeepsR.ite ?_ ?_
  · exact (KeepsR.next h1)
  · extract_lets -underBinder -merge +onlyGivenNames x2
    clear_value x2
    extract_lets -underBinder -merge +onlyGivenNames x3
    have h3 : Keeps a x3 := (State.ringToken_keeps h1 _ _ _)
    clear_value x3
    extract_lets -underBinder -merge +onlyGivenNames x4
    clear_value x4
    extract_lets -underBinder -merge +onlyGivenNames x5
    clear_value x5
    extract_lets -underBinder -merge +onlyGivenNames x6
    clear_value x6
    extract_lets -underBinder -merge +onlyGivenNames x7
    clear_value x7
    extract_lets -underBinder -merge +onlyGivenNames x8
    clear_value x8
    refine KeepsR.next ?_
    refine Keeps.ite ?_ ?_
    · exact h3
    · extract_lets -underBinder -merge +onlyGivenNames x9
      have h9 : ∀ u0 u1, Keeps a u0 → Keeps a (x9 u0 u1) := by
        intro u0 u1 k9
        subst x9
        beta_reduce
        exact (State.sendTo_keeps k9 _ _ _ _ _ _)
      clear_value x9
      refine Keeps.ite ?_ ?_
      · extract_lets -underBinder -merge +onlyGivenNames x10
        have h10 : KeepsP a x10 := (State.readWord_keeps h3 _ _ _)
        clear_value x10
        exact (h9 _ _ h10)
      · refine Keeps.ite ?_ ?_
        · exact (h9 _ _ (State.writeReg_keeps h3 _ _ _ _ _))
        · split
          · exact h3
          · exact (State.rwinEnd_keeps (State.modCas_keeps h3 _) _ _)

theorem State.bar0Word_keeps (h : Keeps a s) (y2) (y3) (y4) (y5) : Keeps a (State.bar0Word s y2 y3 y4 y5) := by
  unfold State.bar0Word
  extract_lets -underBinder -merge +onlyGivenNames x1
  clear_value x1
  extract_lets -underBinder -merge +onlyGivenNames x2
  clear_value x2
  split
  · exact (Keeps.ite (State.writeReg_keeps h _ _ _ _ _) h)
  · exact (Keeps.ite (State.writeReg_keeps h _ _ _ _ _) h)
  · exact (Keeps.ite (State.writeReg_keeps h _ _ _ _ _) h)
  · exact (Keeps.ite (State.rwinIssue_keeps h _ _ _ _) h)
  · exact h

theorem State.bar0Long_keeps (h : Keeps a s) (y2) (y3) (y4) (y5) : Keeps a (State.bar0Long s y2 y3 y4 y5) := by
  unfold State.bar0Long
  extract_lets -underBinder -merge +onlyGivenNames x1
  clear_value x1
  extract_lets -underBinder -merge +onlyGivenNames x2
  clear_value x2
  split
  · exact (Keeps.ite (State.writeReg64_keeps h _ _ _ _ _) h)
  · exact (Keeps.ite (State.writeReg64_keeps h _ _ _ _ _) h)
  · exact (Keeps.ite (State.writeReg64_keeps h _ _ _ _ _) h)
  · exact (State.bar0Word_keeps (State.bar0Word_keeps h _ _ _ _) _ _ _ _)

theorem State.bar0Write_keeps (h : Keeps a s) (y2) (y3) (y4) (y5) : Keeps a (State.bar0Write s y2 y3 y4 y5) := by
  unfold State.bar0Write
  exact (Keeps.ite (State.bar0Long_keeps h _ _ _ _) (State.each_keeps h fun _ h1 _ => (State.bar0Word_keeps h1 _ _ _ _)))

theorem execRegisterWrite_keeps (h : Keeps a s) (y1) (y2) (y3) (y4) (y5) : KeepsR a (execRegisterWrite y1 y2 y3 y4 y5 s) := by
  unfold execRegisterWrite
  refine KeepsR.ite ?_ ?_
  · exact KeepsR.fault
  · extract_lets -underBinder -merge +onlyGivenNames x1
    have h1 : Keeps a x1 := (State.at_keeps h _)
    clear_value x1
    exact (KeepsR.next (Keeps.ite h1 (Keeps.ite (State.poisonedRx_keeps h1) (State.bar0Write_keeps h1 _ _ _ _))))

theorem execSetAliasWrite_keeps (h : Keeps a s) (y1) (y2) (y3) (y4) : KeepsR a (execSetAliasWrite y1 y2 y3 y4 s) := by
  unfold execSetAliasWrite
  refine KeepsR.ite ?_ ?_
  · exact KeepsR.fault
  · extract_lets -underBinder -merge +onlyGivenNames x1
    have h1 : Keeps a x1 := (State.at_keeps h _)
    clear_value x1
    exact (KeepsR.next (Keeps.ite (State.bar0Write_keeps h1 _ _ _ _) h1))

theorem execClearAliasWrite_keeps (h : Keeps a s) (y1) (y2) (y3) (y4) : KeepsR a (execClearAliasWrite y1 y2 y3 y4 s) := by
  unfold execClearAliasWrite
  refine KeepsR.ite ?_ ?_
  · exact KeepsR.fault
  · extract_lets -underBinder -merge +onlyGivenNames x1
    have h1 : Keeps a x1 := (State.at_keeps h _)
    clear_value x1
    exact (KeepsR.next (Keeps.ite (State.bar0Write_keeps h1 _ _ _ _) h1))

theorem execPairLowWordRead_keeps (h : Keeps a s) (y1) (y2) (y3) : KeepsR a (execPairLowWordRead y1 y2 y3 s) := by
  unfold execPairLowWordRead
  refine KeepsR.ite ?_ ?_
  · exact KeepsR.fault
  · extract_lets -underBinder -merge +onlyGivenNames x1
    have h1 : Keeps a x1 := (State.at_keeps h _)
    clear_value x1
    extract_lets -underBinder -merge +onlyGivenNames x2
    clear_value x2
    extract_lets -underBinder -merge +onlyGivenNames x3
    clear_value x3
    refine KeepsR.next ?_
    refine Keeps.ite ?_ ?_
    · exact h1
    · refine Keeps.ite ?_ ?_
      · exact (Keeps.ite (State.rwinIssue_keeps h1 _ _ _ _) (State.emit_keeps h1 _))
      · refine Keeps.ite ?_ ?_
        · exact (State.emit_keeps h1 _)
        · extract_lets -underBinder -merge +onlyGivenNames x4
          have h4 : KeepsP a x4 := (State.readWord_keeps h1 _ _ _)
          clear_value x4
          exact (State.emit_keeps h4 _)

theorem execPair64Write_keeps (h : Keeps a s) (y1) (y2) (y3) (y4) : KeepsR a (execPair64Write y1 y2 y3 y4 s) := by
  unfold execPair64Write
  refine KeepsR.ite ?_ ?_
  · exact KeepsR.fault
  · extract_lets -underBinder -merge +onlyGivenNames x1
    have h1 : Keeps a x1 := (State.at_keeps h _)
    clear_value x1
    exact (KeepsR.next (Keeps.ite (State.bar0Long_keeps h1 _ _ _ _) h1))

end Sys2Proof.Machine
end

