-- ==== Sys2Proof/Tests/Slice0.lean ====
section
/-!
SUPPORT. Smoke tests of `WellFormed`: for each of its checks an ill-formed term that the check refuses, and the like term just inside.
Expected values are counted from the rules the checks cite (R27, R28, R30, R320, R374, R379, R406, R479, R491).
-/
namespace Sys2Proof.Tests

open Sys2Proof Sys2Proof.Machine

/-- BAR0 ends at 4 MiB (R27). -/
theorem test_wf_registerWrite :
    (Instr.registerWrite 0 .host 0x3FFFFC [0, 0, 0, 0] false).wf = true ∧
    (Instr.registerWrite 0 .host 0x3FFFFD [0, 0, 0, 0] false).wf = false := by decide

/-- The set alias begins at 1 MiB (R27). -/
theorem test_wf_setAliasWrite :
    (Instr.setAliasWrite 0 .host 0x100000 [0]).wf = true ∧ (Instr.setAliasWrite 0 .host 0x0FFFFF [0]).wf = false := by decide

/-- The clear alias ends at 3 MiB (R27). -/
theorem test_wf_clearAliasWrite :
    (Instr.clearAliasWrite 0 .cpx 0x2FFFFF [0]).wf = true ∧ (Instr.clearAliasWrite 0 .cpx 0x2FFFFF [0, 0]).wf = false := by decide

/-- A word is aligned to 4 bytes (R28), a pair to 8 (R29). -/
theorem test_wf_pairs :
    (Instr.pairLowWordRead 0 .host 0x11044).wf = true ∧ (Instr.pairLowWordRead 0 .host 0x11046).wf = false ∧
    (Instr.pair64Write 0 .host 0x11048 0).wf = true ∧ (Instr.pair64Write 0 .host 0x11044 0).wf = false := by decide

/-- A bank access stays inside one 64-bit word (R320), through the plain window and through the aliases. -/
theorem test_wf_bar2Write :
    (Instr.bar2Write 0 4 [0, 0, 0, 0] false ⟨0, false, false, false⟩).wf = true ∧
    (Instr.bar2Write 0 5 [0, 0, 0, 0] false ⟨0, false, false, false⟩).wf = false ∧
    (Instr.bar2Write 0 4 [] false ⟨0, false, false, false⟩).wf = false := by decide

theorem test_wf_bar2AliasWrite :
    (Instr.bar2AliasWrite 0 0x08000000 [0, 0] false ⟨0, false, false, false⟩).wf = true ∧
    (Instr.bar2AliasWrite 0 0x08000007 [0, 0] false ⟨0, false, false, false⟩).wf = false := by decide

/-- Four store ports (R348). -/
theorem test_wf_storeRecovery :
    (Instr.storeRecovery 0 [none, none, none, none]).wf = true ∧ (Instr.storeRecovery 0 [none]).wf = false := by decide

/-- A command is 64 bytes (R379), a flit 256 (R406). -/
theorem test_wf_commandFetch :
    (Instr.commandFetch 0 none).wf = true ∧ (Instr.commandFetch 0 (some [0])).wf = false := by decide

theorem test_wf_flitReceive : (Instr.flitReceive 0 .east [0] 0 0).wf = false := by decide

/-- A forwarded command is eight words, a completion two (R424). -/
theorem test_wf_forwardedCommand :
    (Instr.forwardedCommand 0 .west 0 0 0 0 true [0, 0]).wf = true ∧
    (Instr.forwardedCommand 0 .west 0 0 0 0 false [0, 0]).wf = false := by decide

/-- Eight junction sensors and six rails (R473, R465), four start-up steps before the image runs (R479), four cores (R491). -/
theorem test_wf_lists :
    (Instr.thermalReading 0 0 [0] []).wf = false ∧ (Instr.boot 0 none [] 0 none [0]).wf = false ∧
    (Instr.startDone 0 [] 0 [] [] [] []).wf = false ∧ (Instr.cpxHeartbeat 0 0 [0, 0, 0]).wf = false ∧
    (Instr.cpxHeartbeat 0 0 [0, 0, 0, 0]).wf = true := by decide

/-- No word of the table spells a command. -/
theorem test_no_table_word : decodeTableWord 16 0 = none ∧ decodeTableWord 32 0xFFFFFFFF = none := by decide

end Sys2Proof.Tests
end

