-- ==== Sys2Proof/Tests/States.lean ====
section
/-!
SUPPORT. Small states that the tests and the witnesses are stated on: each builder sets the registers and the working state it names
and leaves the rest at reset.
-/
namespace Sys2Proof.Tests
open Sys2Proof.Machine

/-- Set registers fields: page, field, value, instance. -/
def put (s : State) (l : List (Nat × Fld × Nat × Nat)) : State := l.foldl (fun s e => s.put e.1 e.2.1 e.2.2.1 e.2.2.2) s

/-- A module that is READY and holds nothing else but its reset values. -/
def base : State := { State.reset with run := .ready }

def afterNext (o : Host.Outcome State Fault Refusal) : State := match o with | .next u => u | _ => State.reset

def hostUp (b : State) : State := put b [(P.HIF, F.HIF_LINK_STAT_UP, 1, 0), (P.GLB, F.GLB_BOOT_STAT_STEP, 9, 0)]

def aloneHost (b : State) : State := put (hostUp b) [(P.CAS, F.CAS_STAT_ROLE, C.SOLO, 0)]

def ringHost (b : State) : State :=
  { put (hostUp b) [(P.CAS, F.CAS_STAT_ROLE, C.MEMBER, 0), (P.CAS, F.CAS_RWIN_DEV, 5, 0), (P.CAS, F.CAS_RWIN_CFG_RWIN_TIMEOUT, 10, 0)] with
    cas := { b.cas with rwin := [{ read := true, dest := 3, off := 8, issued := 100 }, { read := false, dest := 3, off := 8, issued := 0 }] }
      }

def cpxPend (p : Nat) (b : State) : State := put b [(p, ⟨H.CSTAT, 4, 16, 0⟩, 5, 0)]

def pendAll (b : State) : State :=
  [0x54, 0x59, 0x5A, 0x5C, 0x5D, 0x60, 0x62, 0x68].foldl (fun b p => b.setReg p H.CSTAT (allGroups p)) b

def inDirect (b : State) : State := [0x20, 0x54, 0x48].foldl (fun b p => b.setReg p H.CTL 1) b

def resettingAt (ps : List Nat) (b : State) : State :=
  ps.foldl (fun b p => b.setReg p H.CTL (putBit (b.reg p H.CTL) 1 true)) { b with regs := { b.regs with resetting := ps } }

def pended (b : State) : State := [0x20, 0x6D, 0x48].foldl (fun b p => (b.setReg p H.PEND 0x80000005).setReg p H.EN 0x00000003) b

def heldMsgs (b : State) : State := { b with msix := { masked := [3, 5], funcMask := false, waiting := [3, 5] } }

def measured (b : State) : State :=
  { b with fus := b.fus.set 31 { FuUnit.empty with results := [{ finish := 2 ^ 47 + 5, flags := 1, n := 7, period := 2 ^ 63 + 9, freq := 11, anchor := 13, cfg := 15 }] }
           accSnap := b.accSnap.set 39 [1, 2, 3, 4, 5, 6, 7, 8, 9, 0xFFFFFFFFFFFFFFFF]
           harSnap := b.harSnap.set 15 [1, 2, 3, 4, 5, 6, 1, 7, 8, 9, 10, 11, 12] }

def selectable (b : State) : State :=
  { b with gmb := { b.gmb with ckpts := [{ ply := 3, ladder := { LadderState.empty with counters := List.replicate 16 (2 ^ 32 + 5) } }] }
           mar := { b.mar with badRows := [0x123456789000, 0x2000] }
           store :=
             { b.store with table := [{ slot := 65535, header := leBytes 4 9 ++ leBytes 4 8 ++ List.replicate 248 0, state := 2, extents := 1, bytes := 5 }] }
           saf := { b.saf with keyAt := some 3 } }

def paired7 (b : State) : State :=
  let a : IpUnit := { IpUnit.empty with cnt := 2 ^ 32 + 3, min := -7, max := 9, sum := -5, sumSq := 2 ^ 40, starts := [(4, none)] }
  let c : IpUnit := { IpUnit.empty with cnt := 1, sum := 2 }
  put { b with ips := (b.ips.set 15 a).set 1 c } [(P.DIG 7, F.DIG_BCAST_MASK, 0x80000001, 0), (P.DIG 0, F.DIG_BCAST_MASK, 0xF, 0)]

def actAll (b : State) : State := put { b with act := (List.range 16).map (fun i => { stop := .release, since := 64 * i, level := 1 }) }
    [(P.ACT, F.ACT_STAT_CMD, 0xFFFF, 0)]

def ladderOn (b : State) : State := { b with gmb := { b.gmb with running := true }, lin := { b.lin with soft := 5 } }

def cksOn (n khz : Nat) (wanted hold : Bool) (b : State) : State :=
  let y : SynthState :=
    { SynthState.empty with refKhz := khz, wanted := wanted, resetHold := hold, step := 3, lo := 4, hi := 9, verifying := true, bypassFrom := none }
  { put b [(P.CKS n, F.CKS_REF_CFG_REF_FREQ, 3, 0), (P.CKS n, F.CKS_BAND_CFG_BAND_MODE, 0, 0), (P.CKS n, F.CKS_LOCK_STAT_LOCKED, 1, 0), (P.CKS n, F.CKS_LOCK_STAT_ON_BYPASS, 0, 0)] with
    clk := b.clk.set n y }.setReg (P.CKS n) H.CTL 5

def searching (n lo hi step : Nat) (verif : Bool) (st : Nat) (b : State) : State :=
  let y : SynthState := { SynthState.empty with refKhz := 100000, step := step, lo := lo, hi := hi, verifying := verif }
  ({ put b [(P.CKS n, F.CKS_REF_CFG, 3, 0), (P.CKS n, F.CKS_BAND_CFG, 0, 0), (P.CKS n, F.CKS_DIV_REF, 1, 0), (P.CKS n, F.CKS_DIV_FB, 0, 0)] with
    clk := b.clk.set n y }.setReg (P.CKS n) H.CTL 5).setBlockState (P.CKS n) st

def locking (n run : Nat) (b : State) : State := (searching n 0 31 0 false Y.LOCK_CHECK b).put (P.CKS n) F.CKS_LOCK_STAT_PASS_RUN run

def locked (n : Nat) (b : State) : State :=
  put (searching n 0 31 0 false Y.LOCKED b) [(P.CKS n, F.CKS_LOCK_STAT_LOCKED, 1, 0), (P.CKS n, F.CKS_LOCK_STAT_ON_BYPASS, 0, 0)]

def grp (m : Nat) (b : State) : State := (locked 0 b).put (P.CKS 0) F.CKS_LOCK_STAT_DLG_LOCK m

def sp0Ok (b : State) : State := put b [(P.CKS 0, F.CKS_LOCK_STAT_LOCKED, 1, 0), (P.CKS 0, F.CKS_LOCK_STAT_ON_BYPASS, 0, 0)]

def turning (l : LoopState) : LoopState :=
    { l with segs := [{ slot := 0, phase := 0, rate := 2 ^ 46 }], fInt := 2 ^ 46, lastEvent := some 32768 }

def ltl (n src st : Nat) (f : LoopState → LoopState) (b : State) : State :=
  (((put (sp0Ok b) [(P.LTL n, F.LTL_SRC_CFG_SRC, src, 0), (P.LTL n, F.LTL_SRC_CFG_SLOPE, 0, 0), (P.LTL n, F.LTL_VALID_CFG_WIN_PCT, 10, 0),
    (P.LTL n, F.LTL_GAIN, 0x000A0604, 0),
    (P.LTL n, F.LTL_STAT_RAN, 1, 0)]).setReg (P.LTL n) H.CTL 5).setBlockState (P.LTL n) st).modLoop n (fun l => f (turning l))

def coastCfg (n : Nat) (b : State) : State := put b [(P.LTL n, F.LTL_COAST_CFG_LOSS_EIGHTHS, 12, 0), (P.LTL n, F.LTL_COAST_CFG_COAST_LONG,
    3, 0)]

def coastingLoop (n : Nat) (b : State) : State :=
  (ltl n 2 L.COAST (fun l => { l with coastFrom := some 0 }) (coastCfg n b)).put (P.LTL n) F.LTL_STAT_COASTING 1

def holding (n : Nat) (h : Nat) (b : State) : State :=
  ltl n 2 L.HOLD (fun l =>
    { l with hold := some h, refSlot := 0, refPhase := 0, segs := [{ slot := 64, phase := h, rate := 0 }, { slot := 0, phase := 0, rate := 2 ^ 46 }] })
    b

def encoding (n ab inv : Nat) (f : LoopState → LoopState) (b : State) : State :=
  put (ltl n 3 L.TRACK (fun l => f { l with encAB := ab }) b) [(P.LTL n, F.LTL_ENC_CFG_DIR_INV, inv, 0), (P.LTL n, F.LTL_ENC_Z_UPDATE_EXP,
    3, 0), (P.LTL n, F.LTL_ENC_CFG_Z_EN, 1, 0),
    (P.LTL n, F.LTL_ENC_CFG_ALIGN_Z, 0, 0), (P.LTL n, F.LTL_ENC_CFG_Z_EVERY, 2, 0), (P.LTL n, F.LTL_ENC_CFG_COUNTS_PER_CYCLE, 100, 0), (P.LTL
      n, F.LTL_STAT_RAN, 1, 0)]

def evtOn (e kind cnt pip : Nat) (b : State) : State :=
  put ((ltl 3 2 L.LOCKED (fun l => { l with lastCycle := some 32768 }) b).setReg P.ANG H.CTL 5) [(P.ANG, F.ANG_EVT_CFG_EN, 1, e), (P.ANG,
    F.ANG_EVT_CFG_LOOP, 3, e), (P.ANG, F.ANG_EVT_CFG_KIND, kind, e),
    (P.ANG, F.ANG_EVT_CFG_COUNT, cnt, e), (P.ANG, F.ANG_EVT_PIP_PIP, pip, e)]

def casMember (n : Nat) (b : State) : State :=
  (put (ltl n 5 L.ACQUIRE (fun _ => LoopState.empty) b) [(P.CAS, F.CAS_STAT_ROLE, 2, 0), (P.CAS, F.CAS_STAT_ADDR, 5, 0), (P.LTL n,
    F.LTL_STAT_RAN, 0, 0)]).setReg P.CAS H.CTL 5

def tok (ty origin dest : Nat) (bcast : Bool) (low w1 w2 w3 : Nat) : Token :=
  { w0 := BitVec.ofNat 64 (ty * 2 ^ 59 + origin * 2 ^ 53 + dest * 2 ^ 47 + (if bcast then 2 ^ 46 else 0) + low), w1 := BitVec.ofNat 64 w1, w2 := BitVec.ofNat 64 w2, w3 := BitVec.ofNat 64 w3 }

def angleTok (n : Nat) : Token := tok TK.ANGLE 0 0 true 0x1234 0x12345678 (n * 2 ^ 59 + 2 ^ 46) (7 * 2 ^ 32)

def digOn (g : Nat) (b : State) : State := b.setReg (P.DIG g) H.CTL 5

def windowed (g : Nat) (b : State) : State :=
    { put (digOn g b) [(P.DIG g, F.DIG_STAT_WINDOW, 1, 0)] with digs := b.digs.set g { DigState.empty with ovrExit := 1000 } }

def stateMode (g cg edge tmo : Nat) (d : DigState) (b : State) : State :=
  { (put (sp0Ok b) [(P.CKS 0, F.CKS_LOCK_STAT_DLG_LOCK, 0xFF, 0), (P.DIG g, F.DIG_MODE_MODE, M.STATE, 0), (P.DIG g, F.DIG_STATE_CFG_CLK_GROUP, cg, 0), (P.DIG g, F.DIG_STATE_CFG_EDGE, edge, 0), (P.DIG g, F.DIG_STATE_CFG_TIMEOUT, tmo, 0)]) with
    digs := b.digs.set g d }.setReg (P.DIG g) H.CTL 5 |>.setReg (P.DIG cg) H.CTL 5

def armed (b : State) : State := (put b [(P.ACQ, F.ACQ_STAT_ARMED, 1, 0), (P.ACQ, F.ACQ_STREAM_EN, 0x3FFFFF, 0)]).setReg P.RFQ H.CTL 5

def stampOn (g : Nat) (p : StpState) (b : State) : State :=
  { (put (sp0Ok b) [(P.CKS 0, F.CKS_LOCK_STAT_DLG_LOCK, 0xFF, 0), (P.DIG g, F.DIG_MODE_MODE, M.STAMP, 0), (P.DIG g, F.DIG_CH_CFG_EN, 1, 0), (P.DIG g, F.DIG_CH_CFG_EN, 1, 31), (P.STP g, F.STP_CTL_WIN_EXP, 1, 0), (P.STP g, F.STP_CTL_CAL_PERIOD, 2, 0)]) with
    stps := b.stps.set g p }.setReg (P.DIG g) H.CTL 5 |>.setReg (P.STP g) H.CTL 5

def takenS : StpState :=
    { StpState.empty with latest := [(31, 100, true)], taken := [{ ch := 31, at_ := 64 * 100, rising := true, wrapped := false, merged := false }, { ch := 0, at_ := 64 * 800, rising := true, wrapped := false, merged := false }] }

def gate0 : FuGate := { start := 0, finish := 1000, cfg := 0, n := 3, s0 := 5, sumY := 600, sumIY := 900, flags := 0 }

def res0 (fl : Nat) : FuResult := { finish := 999, flags := fl, n := 3, period := 77, freq := 88, anchor := 5, cfg := 0 }

def pairUnit (n mode en : Nat) (b : State) : State :=
  { put b [(P.STP (n / 2), F.IP_CFG_EN, en, n % 2), (P.STP (n / 2), F.IP_CFG_MODE, mode, n % 2), (P.STP (n / 2), F.IP_SPAN, 1, n % 2)] with
    ips := b.ips.set n { IpUnit.empty with starts := [(64, none)], cnt := 5 } }.setReg (P.STP (n / 2)) H.CTL 5

def gating (f cfg : Nat) (b : State) : State :=
  ({ b with fus := b.fus.set f { FuUnit.empty with gate := some gate0 } }.setReg P.FRQ H.CTL 5).setReg P.FRQ (F.FU_CFG.at f) cfg

def resulting (f fl : Nat) (b : State) : State := { b with fus := b.fus.set f { FuUnit.empty with due := [res0 fl, res0 1] } }.setReg
    P.FRQ H.CTL 5

def adcOn (set src : Nat) (b : State) : State :=
  (put (sp0Ok b) [(P.CKS 1, F.CKS_LOCK_STAT_ON_BYPASS, 0, 0), (P.ADC, F.ADC_CONV_CFG, 0x80808080 + 0x01010101 * set, 0), (P.ADC,
    F.ADC_CONV_CFG, 0x80808080 + 0x01010101 * set, 3), (P.ADC, F.ADC_SET_CFG, 0x80000000 + src * 2 ^ 28, set),
    (P.ADC, F.ADC_SET_P0, 1000, set), (P.ADC, F.ADC_SET_P1, 0, set), (P.ADC, F.ADC_CAL_STAT_QUAD, 0, 0)]).setReg P.ADC H.CTL 5

def convsMixed (b : State) : State :=
  { b with convs := ((b.convs.set 1 { ConvState.empty with last := some 79000 }).set 2 { ConvState.empty with asleep := true }).set 3 { ConvState.empty with last := some 72000 } }

def calQuad (q : Nat) (b : State) : State := put b [(P.ADC, F.ADC_CAL_STAT_QUAD, 2 ^ q, 0), (P.ADC, F.ADC_CNT_A_START_MISS, 0xFFFF, 13)]

def pulseSet (i : Nat) (b : State) : State :=
  (put (adcOn i 3 b) [(P.DIG 0, F.DIG_MODE_MODE, 1, 0), (P.ADC, F.ADC_SET_P0, 10 * 2 ^ 16 + 2, i), (P.ADC, F.ADC_SET_P1, 7, i), (P.ADC,
    F.ADC_SET_CFG_UNIT, 1, i)]).setReg (P.DIG 0) H.CTL 5

def conv15 (f : ConvState → ConvState) (b : State) : State := { b with convs := b.convs.set 15 (f ConvState.empty) }

def injecting (b : State) : State :=
    { b with injDue := [{ conv := 0, slot := 5, spec := false }, { conv := 15, slot := 79999, spec := true }] }

def res1 : AdcRes := { inst := 5, code := 7, clip := false, disturbed := false, late := false, inj := false }

def tgt (b : State) : State := injecting (((adcOn 7 0 b).put P.ADC F.ADC_SET_P1 500 7).put P.ADC F.ADC_SET_P0 100000 7)

def job0 (i : Nat) (o : Option Nat) : ConvJob :=
    { inst := i, late := false, inj := true, origin := o, coef := 0x00080000, disturbed := false, dead := false }

def iv3 (cfg : Nat) (b : State) : State :=
  { (put b [(P.ACC, F.ACC_IV_CFG, cfg, 3), (P.ACC, F.ACC_IV_LEN_LO, 100, 3), (P.ACC, F.ACC_IV_LEN_HI, 0, 3)]).setReg P.ACC H.CTL 5 with
    ivs := b.ivs.set 3 (some { cfg := cfg, len := 100, start := 79200, startAngle := 0, target := 80000, flags := 0, cut := none }) }

def ladderUp (rungs : Nat) (b : State) : State :=
  let b := [P.TLD, P.TLDC, P.TLDP, P.TLDT, P.GMB, P.ACT, P.ACQ, P.RFQ].foldl (fun b p => b.setReg p H.CTL 5) (sp0Ok b)
  { put b [(P.TLD, F.TLD_CTL_RUNGS, rungs, 0)] with gmb := { GmbState.empty with running := true, next := 100 } }

def histAt (p : Nat) (used : Nat) (mat : Nat) : HistPly :=
    { ply := p, lanes := [], counts := [], known := [], used := if used = 0 then [] else [(127, used)], material := mat, stepped := 0 }

def lateLadder (pred : Nat) (hist : List HistPly) (b : State) : State :=
  { put (ladderUp 16 b) [(P.CAS, F.CAS_STAT_ROLE, 0, 0), (P.TLDC, F.TLD_COND_CFG, 0x13 * 2 ^ 27 + pred * 2 ^ 23, 127)] with
    gmb :=
      { GmbState.empty with running := true, next := 102, hist := hist, ckpts := [{ ply := 100, ladder := LadderState.empty }, { ply := 101, ladder := LadderState.empty }] }
      }

def full (b : State) : State :=
    { ladderUp 1 b with gmb := { GmbState.empty with running := true, next := 100, ckpts := [{ ply := 50, ladder := { LadderState.empty with rung := 3 } }] } }

def ending (b : State) : State :=
    { full b with gmb := { (full b).gmb with last := some 1000, ckpts := (full b).gmb.ckpts, effects := [] } }.put P.GMB
    F.GMB_CTL_CKPT_EXP 2

def repl (b : State) : State := ((lateLadder 0 [] b).put P.GMB F.GMB_STAT_REPLAYING 1)

def outsOn (b : State) : State :=
  (put
    { b with act := (List.range 16).map (fun i => { stop := if i = 0 then .slot 1000 else .angle 0 0, since := 0, level := if i = 3 then 1 else 0 }), vcapGood := true }
    [(P.ACT, F.ACT_STAT_CMD, 0x800B, 0), (P.ACT, F.ACT_CTL_RB_EN, 0xFFFF, 0), (P.ACT, F.ACT_CFG, 0x80000000, 0), (P.ACT, F.ACT_CFG,
      0xC0040000, 3), (P.ACT, F.ACT_CFG, 0xA2000000, 15)]).setReg P.ACT H.CTL 5

def armable (b : State) : State :=
  put (ladderUp 1 b) [(P.CAS, F.CAS_STAT_ROLE, 0, 0), (P.TWN, F.TWN_STAT_STATE, 0, 0), (P.ACQ, F.ACQ_STREAM_EN, 0x300, 0), (P.ACQM,
    F.ACQ_DM_SIZE, 1024, 0), (P.ACQM, F.ACQ_RING_MIB, 16, 0), (P.ACQM, F.ACQ_RING_MIB, 16, 1)]

def notArmed (b : State) : State := { put b [(P.ACQ, F.ACQ_STAT_ARMED, 0, 0)] with gmb := GmbState.empty }

def armWaits (a : Nat) (b : State) : State := { notArmed (armable b) with acq := { b.acq with armAt := some a } }

def nowArmed (b : State) : State := put (armable b) [(P.ACQ, F.ACQ_STAT_ARMED, 1, 0)]

def acqSt (f : AcqState → AcqState) (b : State) : State := { nowArmed b with acq := f b.acq }

def collared (b : State) : State := put (acqSt (fun a => { a with armSlot := 100 }) b) [(P.ACQ, F.ACQ_GRANT_COLLAR_LO, 1000, 0), (P.ACQ,
    F.ACQ_GRANT_COLLAR_HI, 0, 0)]

def blk (b : State) : State :=
  let it : Item := { slot := 3000, words := [], ply := none }
  let ch : Chunk :=
    { stream := 8, record := 0, segment := 0, seq := 0, kind := 0, exp := 0, items := [it], tail := [], flags := 0, origin := 0, place := 0, payloadLen := 0, stored := List.replicate 0 0, dataCrc := none }
  let b := acqSt (fun a =>
    { a with committed := true, placed := some { slot := 3500, own := true, twin := false, origin := 0, prov := false, desc := 0, stamp := 0, commitPly := 0 } })
    b
  let b := put b [(P.ACQX, F.ACQ_RING_BASE, 0x80000000, 8), (P.ACQM, F.ACQ_DM_SIZE, 0, 0)]
  b.modStream 8 (fun q => { q with bankA := .full ch, ring := [{ pos := 0, chunk := ch }] })

def thinOn (i k kmax : Nat) (b : State) : State :=
  let b := put (nowArmed b) [(P.ACQ, F.ACQ_STREAM_EN, 0x3FFFFF, 0), (P.ACQT, F.ACQ_THIN_CFG_EN, 1, i), (P.ACQT, F.ACQ_THIN_CFG_KMAX, kmax,
    i), (P.ACQT, F.ACQ_THIN_LVL, 0x8020, i),
    (P.ACQT, F.ACQ_THIN_STAT, k * 2 ^ 24, i), (P.ACQT, F.ACQ_THIN_DWELL_DWELL_UP, 1, i), (P.ACQT, F.ACQ_THIN_DWELL_DWELL_DOWN, 1, i), (P.DIG
      0, F.DIG_MODE_MODE, 1, 0)]
  (b.setReg P.ACQT H.CTL 5).setReg (P.DIG 0) H.CTL 5

def stepDue (i d a : Nat) (b : State) : State :=
    { thinOn i 2 9 b with acq := { b.acq with thin := b.acq.thin.set i { next := some (d, a), seen := 0, maxStep := 0 } } }

def prot (b : State) : State :=
    { put b [(P.ACQ, F.ACQ_STAT_PROTECTED, 1, 0)] with acq := { b.acq with protUntil := 20000, protFires := [(3, true)] } }

def item (slot n : Nat) : Item := { slot := slot, words := (List.range n).map (fun i => w64 (slot + 1000 * i)), ply := none }

def open0 (items : List Item) (bytes room : Nat) : OpenChunk :=
  { items := items, tail := [], bytes := bytes, tailWords := 0, exp := 0, thinned := false, openedAt := 1000, room := room, ageMax := 10 }

def chunked (sid : Nat) (c : OpenChunk) (cur : Bool) (b : State) : State :=
  (nowArmed (put b [(P.RFQ, F.RFQ_SEQ, 0xFFFFFFFF, sid)])).modStream sid (fun q =>
    { q with opened := some c, current := cur, bankA := if cur then .free else .filling, bankB := if cur then .filling else .free })

def chunk0 (sid seq len : Nat) (items : List Item) : Chunk :=
  { stream := sid, record := 7, segment := 0, seq := seq, kind := 1, exp := 0, items := items, tail := [], flags := 0, origin := 0, place := 0, payloadLen := len,
    stored := (List.range len).map (fun i => BitVec.ofNat 8 (i + 1)), dataCrc := none }

def banked (sid : Nat) (bank : Bool) (pos mib : Nat) (kept : Bool) (b : State) : State :=
  let c := chunk0 sid 3 32 [item 3000 4]
  let b := put (nowArmed b) [(P.ACQX, F.ACQ_RING_BASE, 0x80000000 + 5, sid), (P.ACQM, F.ACQ_DM_BASE, 5, 0), (P.ACQM, F.ACQ_DM_SIZE, mib, 0)]
  let b :=
    { b with acq := if kept then { b.acq with placed := some { slot := 0, own := true, twin := false, origin := 0, prov := false, desc := 0, stamp := 0, commitPly := 0 } } else b.acq }
  b.modStream sid (fun q =>
    { q with bankA := if bank then .free else .full c, bankB := if bank then .full c else .free, ringPos := pos, ring := if kept then [{ pos := pos, chunk := c }] else [] })

def flushing (done : Bool) (b : State) : State :=
  let b := put (nowArmed b) [(P.RFQ, F.RFQ_FLUSH_PEND, 0x200300, 0), (P.RFQ, F.RFQ_STAT_FLUSH_BUSY, 1, 0)]
  [8, 9, 21].foldl (fun b i => b.modStream i (fun q => { q with opened := if done then some (open0 [item 5 1] 8 4096) else none })) b

def laneBlock (lane n cls : Nat) (b : State) : State :=
  let b := (put b [(P.RFQ, ⟨F.CMP_STREAM_CFG.off, 4, 16 * (n % 2) + 15, 16 * (n % 2) + 14⟩, cls, n / 2)]).setReg P.CMP H.CTL 5
  { b with lanes := b.lanes.set lane { Lane.empty with stream := some n, opened := some (open0 [item 5 1] 8 4096), src := some (chunk0 n 0 8 [item 5 1]), blockSeq := 9 } }

def memful (b : State) : State :=
  { hostUp b with scratch := [(0x2E00000, 0x55), (0x2E00001, 0xAA), (0x2E00003, 0xFF), (0x5380000, 1)], deep := [(0, 9), (4096, 0x77), (2 ^ 38 - 1, 5)] }

def xs (w : Nat) : ScrAccess := { wait := w, lost := false, ce := false, ue := false }

def borrow (tile : Nat) (d : Bool) : Borrow :=
    { tile := tile, destructive := d, alg := 0, fill := 0, op := none, release := false, failed := false }

def testing (tile : Nat) (d : Bool) (b : State) : State :=
  { (put (hostUp b) [(P.MAR, F.MAR_CTL_ROT_EN, 1, 0), (P.MAR, F.MAR_CTL_ROT_HOURS, 1, 0), (P.MAR, F.MAR_CTL_YIELD_HOLD, 2, 0), (P.DMC, F.DMC_SCRUB_CFG_EN, 1, 0)]).setReg P.MAR H.CTL 5 with
    mar := { b.mar with held := some (borrow tile d) }, scratch := [(tile * 65536, 0x5A), (tile * 65536 + 65535, 0xA5)] }

def rotating (b : State) : State := { testing 0 false b with mar := { b.mar with rotAt := some 0 } }

def retrying (tile due : Nat) (b : State) : State := { testing 0 false b with mar := { b.mar with retry := some (tile, none, some due) } }

def opN (id opcode : Nat) (ph : OpPhase) : HostOp :=
  { id := id, ring := 15, from_ := none, tag := 0xFFFF, opcode := opcode, flags := 0, target := 0, srcSpace := 0, dstSpace := 0, deadline := 0, length := 4, src := 0, dst := 0,
    param := List.replicate 24 0, phase := ph, result := 0, stop := none, pos := 0, done_ := 0, lost := false, coder := Coder.empty, blockSeq
      := 1, reset := false, threads := [] }

def withOp (b : State) : State := { b with host := { b.host with ops := [opN 9 0x10 .running, opN 3 0x14 .waiting] } }

def ringOn (n sql cql tail head : Nat) (b : State) : State :=
  let b := put b [(P.CMD, F.CMD_RING_CFG_EN, 1, n), (P.CMD, F.CMD_RING_CFG_SQ_LOG, sql, n), (P.CMD, F.CMD_RING_CFG_CQ_LOG, cql, n), (P.CMD,
    F.CMD_RING_CFG_VEC, 9, n), (P.CMD, F.CMD_RING_CFG_COAL_US, 5, n), (P.CMD, F.CMD_RING_CFG_COAL_CNT, 0, n),
    (P.CMD, F.CMD_PTR_SQ_HEAD, head, n), (P.CMD, F.CMD_PTR_CQ_TAIL, 2 ^ cql - 1, n), (P.CMD, F.CMD_PTR_SQ_ERR, 0, n), (P.CMD,
      F.CMD_PTR_CQ_ERR, 0, n)]
  let b :=
    { b with host := { b.host with rings := b.host.rings.set n { sqTail := tail, cqHead := 1, phase := true, unsignalled := 3, oldest := some 100 }, lastRing := n } }
  (b.setReg P.CMD H.CTL 5).put P.CMD F.CMD_CTL_RUN_MAX 8

def opR (id opcode : Nat) (ph : OpPhase) : HostOp := { opN id opcode ph with ring := 15, tag := 0xFFFF }

def cmd64 (opcode res : Nat) : List Byte := [BitVec.ofNat 8 opcode, 0, 0x34, 0x12, 0, 0, 0, BitVec.ofNat 8 res] ++ (List.range 56).map
    (fun i => BitVec.ofNat 8 (if i < 16 then 0 else i))

def ended (st : Nat) (b : State) : State := { b with host := { b.host with ops := [opR 1 0x10 .running, opR 5 0x14 (.ended st)] } }

def inFlight (ops : List HostOp) (st : Option (Nat × Nat)) (b : State) : State :=
    { ringOn 15 4 4 3 3 (put b [(P.CAS, F.CAS_STAT_ROLE, 0, 0)]) with host := { b.host with ops := ops, stitch := st } }

def ops1 (stop : Option Nat) (fl dl : Nat) : List HostOp :=
  [{ opR 2 0 .waiting with ring := 0, tag := 1 },
    { opR 3 1 .waiting with ring := 1, tag := 2, param := [15, 0, 0xFF, 0xFF] ++ List.replicate 20 0 },
    { opR 5 0x14 .running with stop := stop, flags := fl, deadline := dl },
   { opR 6 1 .waiting with ring := 2, tag := 3, param := [9, 0, 0, 0] ++ List.replicate 20 0 }]

def parB (l : List (Nat × Nat × Nat)) : List Byte := l.foldl (fun bs e => (List.range 24).map (fun i => if e.1 ≤ i ∧ i < e.1 + e.2.1 then
    BitVec.ofNat 8 (e.2.2 / 256 ^ (i - e.1)) else bs.getD i 0)) (List.replicate 24 0)

def one (opcode : Nat) (f : HostOp → HostOp) (b : State) : State :=
  let b := put (ringOn 15 4 4 3 3 b) [(P.CAS, F.CAS_STAT_ROLE, 0, 0), (P.CMD, F.CMD_CTL_RUN_MAX, 64, 0)]
  let b := [P.MAR, P.CMP, P.DCP, P.STO, P.ADC].foldl (fun b p => b.setReg p H.CTL 5) b
  { b with host := { b.host with ops := [f (opR 9 opcode .running)], stitch := none, lastOp := 0 } }

def recHeader (valid : Bool) : List Byte :=
  (List.range 256).map (fun i => if i = 0 then 7 else if i = 0xF then (if valid then 0x80 else 0) else if i = 0x66 then 1 else 0)

def recMem (valid : Bool) (b : State) : State :=
  let c := { base.makeChunk 16 (open0 [item 5 9] 72 4096) 4 with record := 7, seq := 3 }
  let b := put b [(P.ACQM, F.ACQ_DM_BASE, 0, 0), (P.ACQM, F.ACQ_DM_SIZE, 64, 0), (P.ACQX, F.ACQ_RING_BASE, 0x80000000 + 16, 16), (P.ACQ,
    F.ACQ_CTL_MODE, 0, 0)]
  { b with deep := Memory.writeN (Memory.writeN [] (256 * 2) (recHeader valid)) (16 * 2 ^ 20 + 64) c.bytes }.modStream 16 (fun q =>
    { q with ring := [{ pos := 64, chunk := c }] })

def cbytes (flags : Nat) : List Byte := (base.makeChunk 16 (open0 [item 5 9, item 77 9] 144 4096) flags).bytes

def image0 : DriveImage :=
    { blocks := 1000000, good := true, mdtsKib := 128, vwc := true, gen := 5, width := 4, queues := 8, super := none, map := [], tableA := [], tableB := [] }

def fourDrives (b : State) : State :=
  let b := put b [(P.STO, F.STO_STAT_READY, 1, 0), (P.STO, F.STO_DRIVE_STAT_VWC, 1, 1), (P.STO, F.STO_DRIVE_STAT_VWC, 0, 2)]
  let b := [0, 1, 2, 3].foldl (fun b d => put b [(P.STO, F.STO_DRIVE_STAT_PRESENT, 1, d), (P.STO, F.STO_DRIVE_STAT_IN_STORE, if d = 3 then 0
    else 1, d)]) b
  { b.setReg P.STO H.CTL 5 with store := { b.store with drives := List.replicate 4 { image := some image0, lost := false, batch := 0 } } }

def storeJob (op : Option Nat) (allot charge : Nat) : StoJob :=
  { op := op, record := 7, segment := 0, slot := 3, allot := allot, charge := charge, finals := 0, streams := 0x10000, opened := true, closing := false, header := none, full := false, bytes := 0, broken := false, last := [] }

def ext0 (d no sid state fill used : Nat) : Extent :=
  { drive := d, no := no, state := state, stream := sid, index := 0, record := 7, slot := 3, fill := fill, used := used }

def wr (d no blk left ph : Nat) (re : Bool) : StoWrite :=
  { op := none, chunk := chunk0 16 3 32 [item 3000 4], lane := 32, bank := false, drive := d, ext := no, block := blk, left := left, phase := ph, retried := re }

def pathBank (op : Option Nat) (b : State) : State :=
  { fourDrives b with raws := b.raws.set 0 { Lane.empty with bankA := .full (chunk0 16 3 32 [item 3000 4]) } }.modStream 16 (fun q =>
    { q with pathOp := op })

def stored (op : Option Nat) (allot charge : Nat) (exts : List Extent) (b : State) : State :=
  let b := pathBank op b
  { b with store := { b.store with jobs := [storeJob op allot charge], exts := exts } }

def writing (ws : List StoWrite) (exts : List Extent) (batch : Nat) (b : State) : State :=
  let b := fourDrives b
  { b with store := { b.store with jobs := [storeJob none 100000 5], writes := ws, exts := exts, drives := b.store.drives.map (fun d => { d with batch := batch }) } }

def tabbed (a : Bool) (b : State) : State :=
  let b := fourDrives b
  let e : RecEntry := { slot := 3, header := List.replicate 256 0, state := 2, extents := 1, bytes := 4096 }
  { b with store := { b.store with table := [{ e with slot := 1 }], tabs := [{ entry := e, aDone := a }, { entry := { e with slot := 4 }, aDone := false }] } }

def table0 (st : Nat) : List RecEntry :=
    [{ slot := 3, header := (List.range 256).map (fun i => if i = 0 then 7 else 0), state := st, extents := 2, bytes := 4096 },
    { slot := 0xFFFF, header := List.replicate 256 0, state := 2, extents := 0, bytes := 0 }]

def withTable (st : Nat) (b : State) : State :=
  let b := put (fourDrives b) [(P.STO, F.STO_REC_CNT, 2, 0)]
  { b with run := .ready, store := { b.store with table := table0 st, exts := [ext0 0 5 16 2 9 9, ext0 1 6 16 3 9 9, { ext0 2 7 16 2 9 9 with record := 8 }] } }

def offHost (b : State) : State := put (hostUp b) [(P.GLB, F.GLB_BOOT_STAT_STEP, 3, 0)]

def timed (src mode : Nat) (f : TimeState → TimeState) (b : State) : State :=
  let b := (put (hostUp (sp0Ok b)) [(P.TIME, F.TIME_CTL_SOURCE, src, 0), (P.TIME, F.TIME_CTL_PTP_PORT, 4, 0), (P.TIME, F.TIME_CTL_DOMAIN,
    0x55, 0), (P.TIME, F.TIME_CTL_STEP_NS, 100, 0), (P.TIME, F.TIME_CTL_SLEW_S, 10, 0),
    (P.HIF, F.HIF_HOST_MODE_MODE, mode, 0)]).setReg P.TIME H.CTL 5
  { b with tm := f b.tm }

def ethSending (d port n : Nat) (b : State) : State :=
  let b := timed 0 3 id b
  let b := (put b [(P.ETH, F.ETH_CTL_EN, 1, 0), (P.ETH, F.ETH_CTL_MTU, 1500, 0), (P.ETH, F.DEST_CFG_PORT, port, d), (P.ETH,
    ⟨F.ETH_PORT_STAT.off, F.ETH_PORT_STAT.stride, port, port⟩, 1, 0)]).setReg P.ETH H.CTL 5
  { b with eths := b.eths.set d { queue := [(chunk0 16 3 n [item 3000 4], none), (chunk0 17 3 8 [item 3000 4], none)], dgrams := 0xFFFFFFFF } }

def flex (role st0 : Nat) (broken : Bool) (b : State) : State :=
  let b := put (b.setReg P.FLX H.CTL 5) [(P.CAS, F.CAS_STAT_ROLE, role, 0), (P.FLX, F.FLX_CTL_PORT_EN, 7, 0), (P.FLX, F.FLX_CTL_RETRY_MAX,
    2, 0), (P.CAS, F.CAS_STAT_BROKEN, if broken then 1 else 0, 0)]
  let b := [0, 1, 2].foldl (fun b i => put b [(P.FLX, F.FLX_PORT_STAT_STATE, st0, i)]) b
  { b with flxs := [{ FlxPort.empty with rx := 4095, fails := 2 }, { FlxPort.empty with rx := 6, fails := 1 }, { FlxPort.empty with rx := 0 }] }

def leb (n v : Nat) : List Byte := (List.range n).map (fun i => BitVec.ofNat 8 (v / 256 ^ i))

def flit (ty seq : Nat) (good : Bool) : List Byte :=
  let b := leb 8 (ty * 2 ^ 60 + seq * 2 ^ 48) ++ List.replicate 244 0x5A
  b ++ leb 4 (crc32 b + if good then 0 else 1)

def cascade (root : Bool) (role count addr : Nat) (ports : Nat) (b : State) : State :=
  let b := put ((b.setReg P.FLX H.CTL 5).setReg P.CAS H.CTL 5) [(P.CAS, F.CAS_STAT_ROLE, role, 0), (P.CAS, F.CAS_STAT_COUNT, count, 0),
    (P.CAS, F.CAS_STAT_ADDR, addr, 0), (P.CAS, F.CAS_STAT_BROKEN, 0, 0), (P.CAS, F.CAS_ENUM_STAT_EAST_COUNT, 0, 0),
    (P.GLB, F.GLB_STRAP_ROOT, if root then 1 else 0, 0), (P.FLX, F.FLX_CTL_PORT_EN, 7, 0), (P.ACQ, F.ACQ_STAT_ARMED, 0, 0)]
  let b := [0, 1, 2].foldl (fun b i => put b [(P.FLX, F.FLX_PORT_STAT_STATE, if bitOf ports i then 2 else 1, i)]) b
  { b with cas := { CasState.empty with step := 0 } }

def stepAt (n : Nat) (b : State) : State := { b with cas := { b.cas with step := n } }

def enumCmd (b : State) : State :=
  { b with host := { b.host with ops := [{ opR 9 OP.ENUMERATE .running with target := 0 }], stitch := none, lastOp := 0 } }

def heardFrom (m x : Nat) (b : State) : State :=
  let b := put (cascade false 2 4 2 7 b) [(P.CAS, F.CAS_REACH_LO, 0xF, 0), (P.CAS, F.CAS_REACH_HI, 0, 0), (P.CAS, F.CAS_CTL_REACH_US, 10,
    0)]
  { b with cas := { b.cas with heard := [(m, x)] }, host := { b.host with ops := [{ opR 9 OP.NOP .waiting with target := m }, { opR 3 OP.NOP .waiting with target := 2 }] } }

def waveTok (kind origin w1 : Nat) : Token := tok TK.REG origin 0 true (kind * 2 ^ 28) w1 0 0

def ringModule (root : Bool) (addr ports : Nat) (b : State) : State :=
  let b := cascade root (if root then 1 else 2) 4 addr ports b
  put ((b.setReg P.TIME H.CTL 5)) [(P.CAS, F.CAS_REACH_LO, 0xF, 0), (P.CAS, F.CAS_REACH_HI, 0, 0), (P.GLB, F.GLB_BOOT_STAT_STEP, 9, 0)]

def fuzzRing (b : State) : State :=
    { b with cas := { b.cas with probing := [.west, .east], rwin := [{ read := true, dest := 1, off := 8, issued := 100 }, { read := false, dest := 1, off := 8, issued := 0 }], heard := [(1, 5)] } }

def withRemote (b : State) : State :=
    { b with remote := [b.readFire .east (tok TK.FIRE 1 0 true (0x80000005 + 2 ^ 8) 3200 7 0), b.readFire .east (tok TK.FIRE 1 0 true 0x80000005 3200 7 0), b.readFire .east (tok TK.FIRE 3 0 true (0x80000005 + 2 ^ 8) 3200 7 0)] }

def armTok (low w1 : Nat) : Token := tok TK.ARM 0 0 true low w1 0 0

def sentCmd (target : Nat) (b : State) : State :=
  { (b.setReg P.CMD H.CTL 5).put P.CMD F.CMD_CTL_RUN_MAX 8 with host := { b.host with ops := [{ opR 9 OP.MARCH .waiting with target := target, ring := 15, tag := 0x1234 }], lastOp := 0 } }

def twinned (st : Nat) (up primary : Bool) (f : TwinState → TwinState) (b : State) : State :=
  let b := put (((b.setReg P.TWN H.CTL 5).setReg P.FLX H.CTL 5)) [(P.TWN, F.TWN_CTL_EN, 1, 0), (P.TWN, F.TWN_CTL_MODE, 1, 0), (P.TWN,
    F.TWN_CTL_SEAM_EXP, 10, 0), (P.TWN, F.TWN_CTL_SEAMED, 0x3FFFF, 0), (P.TWN, F.TWN_STAT_STATE, st, 0), (P.TWN, F.TWN_STAT_PRIMARY, if
    primary then 1 else 0, 0),
    (P.TWN, F.TWN_TOL_TOL_EDGE, 1, 0), (P.TWN, F.TWN_TOL_TOL_CODE, 1, 0), (P.TWN, F.TWN_STAT_DIVERGED, 0, 0), (P.FLX, F.FLX_CTL_PORT_EN, 7,
      0), (P.CAS, F.CAS_STAT_ROLE, 0, 0), (P.FLX, F.FLX_PORT_STAT_STATE, if up then 2 else 1, Port.idx .twin)]
  { b with twin := f { b.twin with sent := true } }

def seamTok (kind low w1 w2 w3 : Nat) : Token := tok TK.SEAM 3 0 false (kind * 2 ^ 28 + low) w1 w2 w3

def seamed (last : Nat) (l : List SeamSum) (b : State) : State :=
    { twinned 3 true true (fun w => { w with lastEnd := last }) b with seams := l }

def resyncing (b : State) : State := { b with host := { b.host with ops := [opR 9 OP.RESYNC .running], stitch := none, lastOp := 0 } }

def pw (f : PowerState → PowerState) (b : State) : State := { b with power := f b.power }

def standing (rails : Nat) (b : State) : State :=
    { pw (fun p => { p with stby := true, inReset := false, rails := rails, railAt := 1000 }) b with run := .standby }

def capped (cap : Nat) (b : State) : State :=
  pw (fun p => { p with cap := cap }) (put b [(P.PWR, F.PWR_CAP_CFG_CAP_EN, 1, 0), (P.PWR, F.PWR_CAP_CFG_CAP_W, 100, 0), (P.PWR,
    F.PWR_CAP_CFG_HYST_W, 5, 0)])

def sagged (b : State) : State :=
  pw (fun p => { p with heldFrom := some 500, sag := true }) (put b [(P.PWR, F.PWR_SAG_CFG_EN, 1, 0), (P.PWR, F.PWR_SAG_CFG_LVL, 100, 0),
    (P.PWR, F.PWR_VIN_CFG_VIN_SAG, 11000, 0), (P.PWR, F.PWR_SAG_CFG_HOLD_US, 2, 0)])

def header0 (len major : Nat) : List Byte := leb 4 0x494D4E4E ++ leb 4 len ++ [0, 0, 0, BitVec.ofNat 8 major] ++ List.replicate 244 0

def config0 (good : Bool) : List Byte :=
  let c := leb 4 0x46434D43 ++ [1, 2, 0, 5] ++ List.replicate 52 0
  c ++ leb 4 (crc32c c + if good then 0 else 1)

def flash0 (signed good : Bool) : FlashImage :=
    { id := 0xEF4019, quad := some 100, dual := some 50, single := 50, config := config0 good, header := header0 4096 3, signed := signed }

def rom3 (b : State) : State := put b [(P.CPX, F.CPX_ROM_VER_MAJOR, 3, 0)]

def phase (n : Nat) (b : State) : State :=
    { rom3 b with run := if n = 5 then .ready else .starting, start := { b.start with phase := n, header := header0 4096 3, expect := 64 } }

def genWrite (ofs : Nat) (bs : List Byte) (b : State) : State := { b with scratch := Memory.writeN b.scratch (0x5380000 + ofs) bs }

def mboxArgs (ofs len : Nat) (b : State) : State := put b [(P.CPX, F.CPX_MBOX_ARG, ofs, 0), (P.CPX, F.CPX_MBOX_ARG, len, 1), (P.ACQ,
    F.ACQ_STAT_ARMED, 0, 0)]

def safed (f : SafState → SafState) (b : State) : State := { put b [(P.SAF, F.SAF_FAULT_RAW, 0, 0)] with run := .safe, saf := f b.saf }

def guarded (at_ size cnt : Nat) (b : State) : State :=
  put (nowArmed (aloneHost b)) [(P.ACQM, F.ACQ_DM_BASE, at_, 0), (P.ACQM, F.ACQ_DM_SIZE, size, 0), (P.DMC, F.DMC_WPROT_CFG_WPROT_EN, 1, 0),
    (P.DMC, F.DMC_WPROT_CNT, cnt, 0)]

def hinted (h : Nat) (b : State) : State := put b [(P.CAS, F.CAS_CTL_HINT_CHK, 1, 0), (P.GLB, F.GLB_STRAP_ADDR_HINT, h, 0)]

end Sys2Proof.Tests
end

