-- ==== Sys2Proof/Tests/Witnesses.lean ====
section
/-!
SUPPORT. Witnesses: for each clause of each statement of Certificates/Slice0/Obligations.lean that has hypotheses, a concrete state
and operands that meet all of its hypotheses together. A clause's variable that a hypothesis determines is taken from there.
-/
namespace Sys2Proof.Tests
open Sys2Proof Sys2Proof.Machine

-- Each `decide +kernel` waits for the kernel's check of what stands before it: elaborated one at a time, they hold one thread.
set_option Elab.async false

/-- The canonical form as a check. -/
def canonical (s : State) : Bool :=
  Memory.wf s.scratch && Memory.wf s.deep && swf regReset s.regs.active && swf regReset s.regs.staged

theorem canonical_iff (s : State) : canonical s = true ↔ s.Canon := by
  simp [canonical, State.Canon, and_assoc]

/-- O1: a queue with a command in front, and an empty one. -/
theorem witness_StepRunsTheFrontCommand :
    (let s : State := { base with pending := [.nop 5 { from_ := none, ring := 0, tag := 0 }] }; ∃ c ∈ s.pending.head?, s.pending = c :: []) ∧
    State.reset.pending = [] := by decide

/-- O3, O4: a state in canonical form whose step answers a next state. -/
theorem witness_CanonicalFormIsKeptByEveryStep :
    State.reset.Canon ∧ ∃ t, step { State.reset with pending := [.standbyStart 7] } = .next t :=
  ⟨(canonical_iff _).1 (by decide), _, rfl⟩

theorem witness_CommandsOnlyAddOutputs : ∃ u, exec (.standbyStart 7) State.reset = .next u := ⟨_, rfl⟩

/-- O5: a command of the right sizes and one that is not. -/
theorem witness_EveryWellFormedCommandCompletes :
    (Instr.registerWrite 0 .host 0x3FFFFC [1, 2, 3, 4] false).wf = true ∧ (Instr.registerWrite 0 .host 0x3FFFFD [1, 2, 3, 4] false).wf = false := by
  decide

/-- O6. -/
theorem witness_ClearsOfClockAndCapture :
    (let s : State := State.reset; canonical s = true ∧ let v : Word := 1; bitOf v.toNat 0 = true) ∧
    (let s : State := State.reset; canonical s = true ∧ let v : Word := 0xFFFFFFFE; bitOf v.toNat 0 = false) ∧
    (let s : State := State.reset; canonical s = true) :=
  ⟨by decide +kernel, by decide +kernel, by decide +kernel⟩

/-- O7. -/
theorem witness_ClearsOfTriggerAndRecord :
    (let s : State := State.reset; canonical s = true ∧ let v : Word := 1; bitOf v.toNat 0 = true) ∧
    (let s : State := State.reset; canonical s = true ∧ let v : Word := 0xFFFFFFFE; bitOf v.toNat 0 = false) :=
  ⟨by decide +kernel, by decide +kernel⟩

/-- O8. -/
theorem witness_ClearsOfPathAndStore :
    (let s : State := State.reset; canonical s = true ∧ let v : Word := 1; bitOf v.toNat 0 = true) ∧
    (let s : State := State.reset; canonical s = true ∧ let v : Word := 0xFFFFFFFE; bitOf v.toNat 0 = false) :=
  ⟨by decide +kernel, by decide +kernel⟩

/-- O9. -/
theorem witness_ClearsOfLinksAndModule :
    (let s : State := State.reset; canonical s = true ∧ let v : Word := 1; bitOf v.toNat 0 = true) ∧
    (let s : State := State.reset; canonical s = true ∧ let v : Word := 0xFFFFFFFE; bitOf v.toNat 0 = false) :=
  ⟨by decide +kernel, by decide +kernel⟩

/-- O10. -/
theorem witness_StagedWriteLandsInStagedCopy :
    (let s : State := hostUp base; canonical s = true ∧ let p : Nat := P.ADC; pageExists p = true ∧ p ∉ [P.TLDP, P.SCR, P.SAF] ∧
      let o : Nat := 0x040; o % 4 = 0 ∧ 0x040 ≤ o ∧ o < 0x800 ∧ (∃ z ∈ regAt p o, let d := z.1; d.acc = .rw ∧ d.rw ≠ 0 ∧
      let req : Requester := .host; s.served req = true ∧ s.pageReach req p = true ∧ s.writable p = true ∧ s.stagedMode p = true)) := by
  decide +kernel

/-- O11. -/
theorem witness_PairsReadAndWriteAsOne :
    (let s : State := hostUp base; canonical s = true ∧ let p : Nat := 57; pageExists p = true ∧ p ∉ [P.TLDP, P.SCR, P.SAF] ∧
      let o : Nat := 104; o % 8 = 0 ∧ 0x040 ≤ o ∧ o + 4 < 0x800 ∧ pairLow p o = true ∧ (∃ z ∈ regAt p o, let d := z.1; d.rw ≠ 0 ∧
      (∃ z ∈ regAt p (o + 4), let e := z.1; e.rw ≠ 0 ∧ let req : Requester := .host; s.served req = true ∧ s.pageReach req p = true ∧
      s.writable p = true ∧ s.stagedMode p = true))) ∧
    (let p : Nat := 57; pageExists p = true ∧ let o : Nat := 104; o % 4 = 0 ∧ o + 4 < 0x1000 ∧ pairLow p o = true ∧
      let s : State := hostUp base; let req : Requester := .host; s.served req = true ∧ s.pageReach req p = true) ∧
    (let p : Nat := 72; pageExists p = true ∧
      let s : State := afterNext (exec (.pairLowWordRead 0 .cpx (72 * 0x1000 + 80)) (hostUp base)); let req : Requester := .cpx;
      s.served req = true ∧ s.pageReach req p = true ∧ let o : Nat := 80; (∃ z ∈ s.holding req, z.1 = rkey p o ∧ pairLow p o = true ∧
      o + 4 < 0x1000 ∧ o % 4 = 0 ∧ pairLow p (o + 4) = false)) :=
  ⟨by decide +kernel, by decide +kernel, by decide +kernel⟩

/-- O12. -/
theorem witness_RemoteWindowAccess :
    (let s : State := ringHost base; s.started = true ∧ let req : Requester := .host; s.served req = true ∧ s.role ≠ C.SOLO) ∧
    (let s : State := ringHost base; s.started = true ∧ let req : Requester := .host; s.served req = true ∧ s.role ≠ C.SOLO ∧
      let off : BitVec 20 := 0; off.toNat % 4 = 0) ∧
    (let s : State := aloneHost base; s.started = true ∧ let req : Requester := .host; s.served req = true ∧ s.role = C.SOLO) ∧
    (let s : State := ringHost base; s.started = true ∧ let req : Requester := .host; s.served req = true ∧ let t : Nat := 160000;
      (∃ a ∈ s.cas.rwin.find? (fun x => decide (x.issued + usSlots (s.use P.CAS F.CAS_RWIN_CFG_RWIN_TIMEOUT) ≤ t)), True)) :=
  ⟨by decide +kernel, by decide +kernel, by decide +kernel, by decide +kernel⟩

/-- O13. -/
theorem witness_CommitMarksGroupsPending :
    (let s : State := cpxPend 0x28 base; canonical s = true ∧ let p : Nat := 0; s.writable p = true ∧ let v : Word := 0;
      bitOf v.toNat 30 = false) ∧
    (let s : State := cpxPend 0x28 base; canonical s = true ∧ let p : Nat := 0; s.writable p = true ∧ let v : Word := 1;
      (bits v.toNat 16 0 ≠ 0 ∨ bitOf v.toNat 31 = true)) ∧
    (let s : State := cpxPend 0x28 base; canonical s = true ∧ let p : Nat := 0; s.writable p = true ∧ let v : Word := 0;
      bits v.toNat 16 0 = 0 ∧ bitOf v.toNat 31 = false) :=
  ⟨by decide +kernel, by decide +kernel, by decide +kernel⟩

/-- O14. -/
theorem witness_SafePointTakesOrRejects :
    (let s : State := pendAll base; canonical s = true ∧ let p : Nat := 0x54; s.writable p = true ∧ s.stagedMode p = true ∧
      pageType p ∈ [0x14, 0x17, 0x18, 0x19, 0x1A, 0x1B, 0x1D, 0x1F] ∧ let t : Nat := 0; let gs : BitVec 17 := 1;
      let taken := (s.at t).takenAt p gs.toNat t; taken ≠ []) := by
  decide +kernel

/-- O15. -/
theorem witness_PageModes :
    (let s : State := inDirect base; canonical s = true ∧ let p : Nat := 0; p < 0x100 ∧ s.writable p = true) ∧
    (let s : State := resettingAt [0x20, 0x54, 0x28, 0x60, 0x5A, 0x00] base; canonical s = true ∧ let p : Nat := 0; p < 0x100 ∧
      s.inReset p = true) ∧
    (let s : State := inDirect base; canonical s = true ∧ let p : Nat := 0x20; p < 0x100 ∧ s.writable p = true ∧
      alwaysEnabled p = false ∧ s.enabled p = true ∧ pageType p ∉ [0x03, 0x05, 0x11, 0x20, 0x21]) ∧
    (let s : State := inDirect base; canonical s = true ∧ let p : Nat := 0; p < 0x100 ∧ s.writable p = true ∧ alwaysEnabled p = true) :=
  ⟨by decide +kernel, by decide +kernel, by decide +kernel, by decide +kernel⟩

/-- O16. -/
theorem witness_EventsAndMessages :
    (let s : State := pended base; canonical s = true ∧ let p : Nat := 0; s.writable p = true) ∧
    (let s : State := heldMsgs base; s.msix.waiting.Nodup ∧ s.msix.funcMask = false ∧ let v : Fin 512 := 3; v.val ∈ s.msix.waiting ∧
      (∀ w ∈ s.msix.waiting, w = v.val ∨ w ∈ s.msix.masked)) ∧
    (let s : State := pended base; s.msix.waiting.Nodup) :=
  ⟨by decide +kernel, by decide +kernel, by decide +kernel⟩

/-- O17. -/
theorem witness_SnapshotSelectsShowMeasurements :
    (let s : State := measured base; canonical s = true) := by
  decide +kernel

/-- O18. -/
theorem witness_SelectsAndWindowTableWrites :
    (let s : State := selectable base; canonical s = true ∧ let v : Word := 0; bitOf v.toNat 4 = false) ∧
    (let s : State := selectable base; canonical s = true) ∧
    (let s : State := selectable base; canonical s = true ∧ s.writable P.TLDP = true ∧ s.stagedMode P.TLDP = true) ∧
    (let s : State := selectable base; canonical s = true ∧ s.writable P.SCR = true ∧ s.stagedMode P.SCR = true ∧
      s.get P.SCR F.SCR_LEND_PTR_GROUP < 96) :=
  ⟨by decide +kernel, by decide +kernel, by decide +kernel, by decide +kernel⟩

/-- O19. -/
theorem witness_SnapshotOfIntervalStatistics :
    (let s : State := paired7 base; canonical s = true ∧ s.ips.length = 16) ∧
    (let s : State := paired7 base; canonical s = true ∧ s.ips.length = 16 ∧ let g : Fin 8 := 0; s.stagedMode (P.DIG g) = true) :=
  ⟨by decide +kernel, by decide +kernel⟩

/-- O20. -/
theorem witness_SetSecSoftAndRelease :
    (let s : State := actAll base; canonical s = true ∧ s.act.length = 16) ∧
    (let s : State := ladderOn base; canonical s = true ∧ s.act.length = 16 ∧ s.gmb.running = true ∧ s.gmb.last = none) ∧
    (let s : State := actAll base; canonical s = true ∧ s.act.length = 16 ∧ s.gmb.running = false) :=
  ⟨by decide +kernel, by decide +kernel, by decide +kernel⟩

/-- O21. -/
theorem witness_LockAttempts :
    (let s : State := cksOn 0 100000 true false base; canonical s = true ∧ s.clk.length = 4 ∧ let n : Fin 4 := 0;
      s.enabled (P.CKS n) = true ∧ s.useB (P.CKS n) F.CKS_BAND_CFG_BAND_MODE = false ∧ (s.synth n).refKhz ≠ 0 ∧
      s.refMatches n (s.synth n).refKhz = true) ∧
    (let s : State := cksOn 3 100000 true false base; canonical s = true ∧ s.clk.length = 4 ∧ let n : Fin 4 := 0;
      s.enabled (P.CKS n) = true ∧ (s.synth n).refKhz = 0) ∧
    (let s : State := cksOn 0 100000 true false base; canonical s = true ∧ s.clk.length = 4 ∧ let n : Fin 4 := 0;
      s.enabled (P.CKS n) = true ∧ (s.synth n).wanted = true ∧ (s.synth n).resetHold = false ∧
      s.useB (P.CKS n) F.CKS_BAND_CFG_BAND_MODE = false ∧ let khz : Nat := 100000; khz ≠ 0 ∧ s.refMatches n khz = true) ∧
    (let s : State := cksOn 0 100000 true false base; canonical s = true ∧ s.clk.length = 4 ∧ let n : Fin 4 := 0;
      s.enabled (P.CKS n) = true ∧ (s.synth n).wanted = true ∧ (s.synth n).resetHold = false ∧ let khz : Nat := 0; khz = 0) ∧
    (let s : State := cksOn 3 100000 true false base; canonical s = true ∧ s.clk.length = 4 ∧ let n : Fin 4 := 0;
      s.enabled (P.CKS n) = true ∧ (s.synth n).wanted = false) :=
  ⟨by decide +kernel, by decide +kernel, by decide +kernel, by decide +kernel, by decide +kernel⟩

/-- O22. -/
theorem witness_BandSelection :
    (let s : State := searching 0 0 31 0 false Y.SEARCH base; canonical s = true ∧ s.clk.length = 4 ∧ let n : Fin 4 := 0;
      s.enabled (P.CKS n) = true ∧ let y := s.synth n; s.blockState (P.CKS n) = Y.SEARCH ∧ y.verifying = false ∧ y.step < 5) ∧
    (let s : State := searching 0 5 5 5 true Y.SEARCH base; canonical s = true ∧ s.clk.length = 4 ∧ let n : Fin 4 := 0;
      s.enabled (P.CKS n) = true ∧ let y := s.synth n; y.verifying = true ∧ let count : BitVec 24 := 0;
      s.withinPpm n count.toNat 20000 = true) ∧
    (let s : State := searching 0 5 5 5 true Y.SEARCH base; canonical s = true ∧ s.clk.length = 4 ∧ let n : Fin 4 := 0;
      s.enabled (P.CKS n) = true ∧ let y := s.synth n; y.verifying = true ∧ let count : BitVec 24 := 0xFFFFFF;
      s.withinPpm n count.toNat 20000 = false ∧ s.blockState (P.CKS n) = Y.SEARCH) ∧
    (let s : State := searching 3 5 5 5 true Y.TABLE base; canonical s = true ∧ s.clk.length = 4 ∧ let n : Fin 4 := 3;
      s.enabled (P.CKS n) = true ∧ let y := s.synth n; y.verifying = true ∧ let count : BitVec 24 := 0xFFFFFF;
      s.withinPpm n count.toNat 20000 = false ∧ s.blockState (P.CKS n) ≠ Y.SEARCH) ∧
    (let s : State := searching 0 0 31 0 false Y.SEARCH base; canonical s = true ∧ s.clk.length = 4 ∧ let n : Fin 4 := 0;
      s.enabled (P.CKS n) = true ∧ let y := s.synth n; y.verifying = false) :=
  ⟨by decide +kernel, by decide +kernel, by decide +kernel, by decide +kernel, by decide +kernel⟩

/-- O23. -/
theorem witness_LockAndLoss :
    (let s : State := locking 0 0 base; canonical s = true ∧ s.clk.length = 4 ∧ let n : Fin 4 := 0; let p := P.CKS n;
      let count : BitVec 32 := 0; let c := count.toNat; let run := s.get p F.CKS_LOCK_STAT_PASS_RUN; s.enabled p = true ∧
      s.blockState p = Y.LOCK_CHECK ∧ s.withinPpm n c 100 = true ∧ run < 3) ∧
    (let s : State := locking 3 3 base; canonical s = true ∧ s.clk.length = 4 ∧ let n : Fin 4 := 3; let p := P.CKS n;
      let count : BitVec 32 := 0; let c := count.toNat; let run := s.get p F.CKS_LOCK_STAT_PASS_RUN; s.enabled p = true ∧
      s.blockState p = Y.LOCK_CHECK ∧ s.withinPpm n c 100 = true ∧ run = 3) ∧
    (let s : State := locking 0 0 base; canonical s = true ∧ s.clk.length = 4 ∧ let n : Fin 4 := 0; let p := P.CKS n;
      let count : BitVec 32 := 0xFFFFFFFF; let c := count.toNat; s.enabled p = true ∧ s.blockState p = Y.LOCK_CHECK ∧
      s.withinPpm n c 100 = false) ∧
    (let s : State := locked 0 base; canonical s = true ∧ s.clk.length = 4 ∧ let n : Fin 4 := 0; let p := P.CKS n;
      let count : BitVec 32 := 0xFFFFFFFF; let c := count.toNat; s.enabled p = true ∧ s.blockState p = Y.LOCKED ∧
      s.withinPpm n c (s.use p F.CKS_LOCK_CFG_LOSS_PPM) = false) ∧
    (let s : State := locked 0 base; canonical s = true ∧ s.clk.length = 4 ∧ let n : Fin 4 := 0; let p := P.CKS n;
      let count : BitVec 32 := 0; let c := count.toNat; s.enabled p = true ∧ s.blockState p = Y.LOCKED ∧
      s.withinPpm n c (s.use p F.CKS_LOCK_CFG_LOSS_PPM) = true ∧ s.withinPpm n c 100 = true) ∧
    (let s : State := locked 0 base; canonical s = true ∧ s.clk.length = 4 ∧ let n : Fin 4 := 0; let count : BitVec 32 := 0;
      s.spLocked n = true) ∧
    (let s : State := locking 0 0 base; canonical s = true ∧ s.clk.length = 4 ∧ let n : Fin 4 := 0; let count : BitVec 32 := 0;
      s.spLocked n = false) ∧
    (let s : State := locking 0 0 base; canonical s = true ∧ s.clk.length = 4 ∧ let n : Fin 4 := 0; let count : BitVec 32 := 0; True) :=
  ⟨by decide +kernel, by decide +kernel, by decide +kernel, by decide +kernel, by decide +kernel, by decide +kernel, by decide +kernel, by decide +kernel⟩

/-- O24. -/
theorem witness_GroupDelayLines :
    (let s : State := grp 0 base; canonical s = true ∧ s.spLocked 0 = true) ∧
    (let s : State := base; canonical s = true ∧ s.spLocked 0 = false) ∧
    (let s : State := grp 0xFF base; canonical s = true ∧ let now := s.get (P.CKS 0) F.CKS_LOCK_STAT_DLG_LOCK; s.spLocked 0 = true ∧
      let g : Fin 8 := 0; bitOf now g = true) ∧
    (let s : State := grp 0 base; canonical s = true ∧ let now := s.get (P.CKS 0) F.CKS_LOCK_STAT_DLG_LOCK; let g : Fin 8 := 0;
      (s.spLocked 0 = false ∨ bitOf now g = false)) :=
  ⟨by decide +kernel, by decide +kernel, by decide +kernel, by decide +kernel⟩

/-- O25. -/
theorem witness_LoopReferenceEvents :
    (let s : State := ltl 0 2 L.TRACK (fun l => { l with crossing := some (65536, false) }) base; canonical s = true ∧
      s.loops.length = 4 ∧ let n : Fin 4 := 0; s.enabled (P.LTL n) = true ∧ s.sp0Good = true ∧ s.loopSrc n = S.DIGITAL ∧
      s.loopState n ∈ [L.TRACK, L.LOCKED, L.SLEW] ∧ (∃ z ∈ (s.loop n).crossing, True)) ∧
    (let s : State := ltl 0 2 L.LOCKED id base; canonical s = true ∧ s.loops.length = 4 ∧ let n : Fin 4 := 0;
      s.enabled (P.LTL n) = true ∧ s.sp0Good = true ∧ s.loopSrc n = S.DIGITAL ∧ s.loopState n ∈ [L.TRACK, L.LOCKED, L.SLEW] ∧
      (s.loop n).crossing = none) :=
  ⟨by decide +kernel, by decide +kernel⟩

/-- O26. -/
theorem witness_LossAndCoast :
    (let s : State := ltl 0 2 L.TRACK id (coastCfg 0 base); canonical s = true ∧ s.loops.length = 4 ∧ let n : Fin 4 := 0;
      s.enabled (P.LTL n) = true ∧ s.loopState n ∈ [L.TRACK, L.LOCKED, L.SLEW, L.HOLD] ∧ (s.loop n).reverse = false ∧
      let t : Nat := 32768 + 49152; s.lossDue n t = true) ∧
    (let s : State := ltl 0 2 L.TRACK id (coastCfg 0 base); canonical s = true ∧ s.loops.length = 4 ∧ let n : Fin 4 := 0;
      s.enabled (P.LTL n) = true ∧ let t : Nat := 70000; s.lossDue n t = false) ∧
    (let s : State := coastingLoop 0 base; canonical s = true ∧ s.loops.length = 4 ∧ let n : Fin 4 := 0; s.enabled (P.LTL n) = true ∧
      s.coasting n = true ∧ let t : Nat := 3 * 32768; s.use (P.LTL n) F.LTL_COAST_CFG_COAST_LONG ≤ s.coastCycles n t) ∧
    (let s : State := ltl 0 2 L.TRACK id (coastCfg 0 base); canonical s = true ∧ s.loops.length = 4 ∧ let n : Fin 4 := 0;
      s.enabled (P.LTL n) = true ∧ s.coasting n = false) ∧
    (let s : State := holding 0 (2 ^ 50) base; canonical s = true ∧ s.loops.length = 4 ∧ let n : Fin 4 := 0; s.enabled (P.LTL n) = true ∧
      (∃ h ∈ (s.loop n).hold, s.loopState n = L.HOLD ∧ let t : Nat := 32768 + 49152; t % 32 = 0 ∧ (h : Int) ≤ (s.loop n).projected t)) ∧
    (let s : State := holding 0 (2 ^ 50) base; canonical s = true ∧ s.loops.length = 4 ∧ let n : Fin 4 := 0; s.enabled (P.LTL n) = true ∧
      (∃ h ∈ (s.loop n).hold, s.loopState n = L.HOLD ∧ let t : Nat := 480; t % 32 = 0 ∧ (s.loop n).projected t < (h : Int))) :=
  ⟨by decide +kernel, by decide +kernel, by decide +kernel, by decide +kernel, by decide +kernel, by decide +kernel⟩

/-- O27. -/
theorem witness_EncoderCounts :
    (let s : State := encoding 0 0 0 id base; canonical s = true ∧ s.loops.length = 4 ∧ let n : Fin 4 := 0; s.enabled (P.LTL n) = true ∧
      s.sp0Good = true ∧ s.loopSrc n = S.ENCODER ∧ (s.loop n).encAB < 4 ∧ (s.loop n).reverse = false ∧ let a : Bool := false;
      let b : Bool := false; let turn := (quad a b + 4 - (s.loop n).encAB) % 4; turn = 0) ∧
    (let s : State := encoding 0 0 0 id base; canonical s = true ∧ s.loops.length = 4 ∧ let n : Fin 4 := 0; s.enabled (P.LTL n) = true ∧
      s.sp0Good = true ∧ s.loopSrc n = S.ENCODER ∧ (s.loop n).encAB < 4 ∧ (s.loop n).reverse = false ∧ let a : Bool := true;
      let b : Bool := true; let turn := (quad a b + 4 - (s.loop n).encAB) % 4; turn = 2) ∧
    (let s : State := encoding 0 0 0 id base; canonical s = true ∧ s.loops.length = 4 ∧ let n : Fin 4 := 0; s.enabled (P.LTL n) = true ∧
      s.sp0Good = true ∧ s.loopSrc n = S.ENCODER ∧ (s.loop n).encAB < 4 ∧ (s.loop n).reverse = false ∧ let a : Bool := true;
      let b : Bool := false; let turn := (quad a b + 4 - (s.loop n).encAB) % 4; let inv := s.useB (P.LTL n) F.LTL_ENC_CFG_DIR_INV;
      ((turn = 1 ∧ inv = false ∨ turn = 3 ∧ inv = true)) ∧ (s.loop n).encUpd + 1 < 2 ^ s.use (P.LTL n) F.LTL_ENC_Z_UPDATE_EXP) ∧
    (let s : State := encoding 0 0 0 id base; canonical s = true ∧ s.loops.length = 4 ∧ let n : Fin 4 := 0; s.enabled (P.LTL n) = true ∧
      s.sp0Good = true ∧ s.loopSrc n = S.ENCODER ∧ (s.loop n).encAB < 4 ∧ (s.loop n).reverse = false ∧ let a : Bool := false;
      let b : Bool := true; let turn := (quad a b + 4 - (s.loop n).encAB) % 4; let inv := s.useB (P.LTL n) F.LTL_ENC_CFG_DIR_INV;
      ((turn = 1 ∧ inv = true ∨ turn = 3 ∧ inv = false)) ∧ s.loopRan n = true ∧ s.loopState n ≠ L.OFF) ∧
    (let s : State := encoding 0 0 0 id base; canonical s = true ∧ s.loops.length = 4 ∧ let n : Fin 4 := 0; s.enabled (P.LTL n) = true ∧
      s.sp0Good = true ∧ s.loopSrc n = S.ENCODER ∧ (s.loop n).encAB < 4 ∧ (s.loop n).reverse = false ∧ let a : Bool := true;
      let b : Bool := true; s.useB (P.LTL n) F.LTL_ENC_CFG_Z_EN = true ∧ s.useB (P.LTL n) F.LTL_ENC_CFG_ALIGN_Z = false) :=
  ⟨by decide +kernel, by decide +kernel, by decide +kernel, by decide +kernel, by decide +kernel⟩

/-- O28. -/
theorem witness_AngleEventsAndCycles :
    (let s : State := evtOn 63 2 1 (2 ^ 23) base; canonical s = true ∧ s.loops.length = 4 ∧ s.angFired.length = 64 ∧
      let e : Fin 64 := 63; s.useB P.ANG F.ANG_EVT_CFG_EN e = true ∧ s.angleRuns (s.use P.ANG F.ANG_EVT_CFG_LOOP e) = true ∧
      let t : Nat := 16384; s.evtCrosses e t = true) ∧
    (let s : State := evtOn 63 2 1 (2 ^ 23) base; canonical s = true ∧ s.loops.length = 4 ∧ s.angFired.length = 64 ∧
      let e : Fin 64 := 63; s.useB P.ANG F.ANG_EVT_CFG_EN e = true ∧ s.angleRuns (s.use P.ANG F.ANG_EVT_CFG_LOOP e) = true ∧
      let t : Nat := 70000; s.evtCrosses e t = false) ∧
    (let s : State := evtOn 63 2 1 (2 ^ 23) base; canonical s = true ∧ s.loops.length = 4 ∧ s.angFired.length = 64 ∧ let n : Fin 4 := 3;
      s.enabled (P.LTL n) = true ∧ s.loopRan n = true ∧ let t : Nat := 32768; t ≠ 0 ∧
      (s.loop n).pipsAt t / 2 ^ 24 ≠ (s.loop n).pipsAt (t - 1) / 2 ^ 24) ∧
    (let s : State := evtOn 63 2 1 (2 ^ 23) base; canonical s = true ∧ s.loops.length = 4 ∧ s.angFired.length = 64 ∧ let n : Fin 4 := 3;
      s.enabled (P.LTL n) = true ∧ s.role = C.SOLO ∧ s.cas.step ≠ 4 ∧ s.use (P.LTL n) F.LTL_MAP_CFG_MAP_EXP ≠ 0 ∧ let t : Nat := 0;
      t % (32 * 2 ^ s.use (P.LTL n) F.LTL_MAP_CFG_MAP_EXP) = 0) ∧
    (let s : State := evtOn 63 2 1 (2 ^ 23) base; canonical s = true ∧ s.loops.length = 4 ∧ s.angFired.length = 64 ∧ let n : Fin 4 := 3;
      s.enabled (P.LTL n) = true ∧ s.role = C.SOLO ∧ s.cas.step ≠ 4 ∧ s.use (P.LTL n) F.LTL_MAP_CFG_MAP_EXP ≠ 0 ∧
      let t : Nat := 70000; t % (32 * 2 ^ s.use (P.LTL n) F.LTL_MAP_CFG_MAP_EXP) ≠ 0) ∧
    (let s : State := casMember 3 base; canonical s = true ∧ s.loops.length = 4 ∧ s.angFired.length = 64 ∧ let k : Token := angleTok 3;
      k.type = TK.ANGLE ∧ let port : Port := .east; port ≠ .twin ∧ s.enabled P.CAS = true ∧ s.role = C.MEMBER ∧ let n : Fin 4 := 3;
      bits k.w2.toNat 60 59 = n.val ∧ s.loopSrc n = S.CASCADE ∧ s.enabled (P.LTL n) = true ∧ k.origin ≠ s.casAddr ∧
      s.loopRan n = false ∧ (s.loop n).ownLoss = false) :=
  ⟨by decide +kernel, by decide +kernel, by decide +kernel, by decide +kernel, by decide +kernel, by decide +kernel⟩

/-- O29. -/
theorem witness_OverRangeWindows :
    (let s : State := digOn 0 base; canonical s = true ∧ s.digs.length = 8 ∧ let g : Fin 8 := 0; let p := P.DIG g; s.enabled p = true) ∧
    (let s : State := windowed 0 base; canonical s = true ∧ s.digs.length = 8 ∧ let g : Fin 8 := 0; let p := P.DIG g;
      s.enabled p = true ∧ s.getB p F.DIG_STAT_WINDOW = true ∧ s.overCount g = 0 ∧ let t : Nat := 1640; (s.dig g).ovrExit + 640 ≤ t) ∧
    (let s : State := digOn 0 base; canonical s = true ∧ s.digs.length = 8 ∧ let g : Fin 8 := 7; let p := P.DIG g; s.enabled p = false) ∧
    (let s : State := windowed 0 base; canonical s = true ∧ s.digs.length = 8 ∧ let g : Fin 8 := 0; let t : Nat := 1639;
      t < (s.dig g).ovrExit + 640) :=
  ⟨by decide +kernel, by decide +kernel, by decide +kernel, by decide +kernel⟩

/-- O30. -/
theorem witness_StateModeClocking :
    (let s : State := armed (stateMode 7 7 1 1 { DigState.empty with lastWord := some 77 } base); canonical s = true ∧
      s.digs.length = 8 ∧ let g : Fin 8 := 7; s.digMode g = M.STATE ∧ let p := P.DIG g; let cg := s.use p F.DIG_STATE_CFG_CLK_GROUP;
      let rising : Bool := false; let up := rising != s.useB (P.DIG cg) F.DIG_CH_CFG_INVERT 0; let e := s.use p F.DIG_STATE_CFG_EDGE;
      s.groupValid g = true ∧ s.groupValid cg = true ∧ ((e = 2 ∨ e = 0 ∧ up = true ∨ e = 1 ∧ up = false)) ∧ let t : Nat := 1003;
      (∀ l ∈ (s.dig g).lastEdge, l + 4 ≤ t)) ∧
    (let s : State := stateMode 0 7 2 1 { DigState.empty with lastEdge := some 1000 } base; canonical s = true ∧ s.digs.length = 8 ∧
      let g : Fin 8 := 0; s.digMode g = M.STATE ∧ let p := P.DIG g; let cg := s.use p F.DIG_STATE_CFG_CLK_GROUP;
      let rising : Bool := true; let up := rising != s.useB (P.DIG cg) F.DIG_CH_CFG_INVERT 0; let e := s.use p F.DIG_STATE_CFG_EDGE;
      s.groupValid g = true ∧ s.groupValid cg = true ∧ ((e = 2 ∨ e = 0 ∧ up = true ∨ e = 1 ∧ up = false)) ∧
      (∃ l ∈ (s.dig g).lastEdge, let t : Nat := 1003; t < l + 4)) ∧
    (let s : State := armed (stateMode 7 7 1 1 { DigState.empty with lastWord := some 77 } base); canonical s = true ∧
      s.digs.length = 8 ∧ let g : Fin 8 := 7; s.digMode g = M.STATE ∧ let p := P.DIG g; let rising : Bool := true;
      s.use p F.DIG_STATE_CFG_TIMEOUT ≠ 0 ∧ let t : Nat := 16999;
      usSlots (s.use p F.DIG_STATE_CFG_TIMEOUT) ≤ t - (s.dig g).lastEdge.getD 0) ∧
    (let s : State := stateMode 7 0 0 0 DigState.empty base; canonical s = true ∧ s.digs.length = 8 ∧ let g : Fin 8 := 7;
      s.digMode g = M.STATE ∧ let p := P.DIG g; let rising : Bool := true; s.use p F.DIG_STATE_CFG_TIMEOUT = 0) ∧
    (let s : State := armed (stateMode 7 7 1 1 { DigState.empty with lastWord := some 77 } base); canonical s = true ∧
      s.digs.length = 8 ∧ let g : Fin 8 := 7; s.digMode g = M.STATE ∧ let rising : Bool := true; s.recording g = true ∧
      let t : Nat := 0xFFFFFFFF; (s.dig g).lastEntry + 0xFFFFFFFF ≤ t) ∧
    (let s : State := armed (stateMode 7 7 1 1 { DigState.empty with lastWord := some 77 } base); canonical s = true ∧
      s.digs.length = 8 ∧ let g : Fin 8 := 7; s.digMode g = M.STATE ∧ let rising : Bool := true; let t : Nat := 1003;
      t < (s.dig g).lastEntry + 0xFFFFFFFF) :=
  ⟨by decide +kernel, by decide +kernel, by decide +kernel, by decide +kernel, by decide +kernel, by decide +kernel⟩

/-- O31. -/
theorem witness_EdgeStamps :
    (let s : State := stampOn 0 StpState.empty base; canonical s = true ∧ s.stps.length = 8 ∧ let g : Fin 8 := 0; let c : Fin 32 := 0;
      let ch : Fin 256 := 0; ch.val = 32 * g + c ∧ s.stamps g c = true ∧ let x : Nat := 0;
      (∀ z ∈ (s.stp g).latest.lookup c.val, let l := z.1; let b := z.2; l + 82 ≤ x)) ∧
    (let s : State := stampOn 7 takenS base; canonical s = true ∧ s.stps.length = 8 ∧ let g : Fin 8 := 7; let c : Fin 32 := 31;
      let ch : Fin 256 := 255; ch.val = 32 * g + c ∧ s.stamps g c = true ∧ (∃ z ∈ (s.stp g).latest.lookup c.val, let l := z.1;
      let x : Nat := 0; x < l + 82)) ∧
    (let s : State := stampOn 0 StpState.empty base; canonical s = true ∧ s.stps.length = 8 ∧ let g : Fin 8 := 7; let c : Fin 32 := 0;
      let ch : Fin 256 := 224; ch.val = 32 * g + c ∧ s.stamps g c = false) ∧
    (let s : State := stampOn 0 StpState.empty base; canonical s = true ∧ s.stps.length = 8 ∧ let g : Fin 8 := 0; let c : Fin 32 := 0;
      let ch : Fin 256 := 0; ch.val = 32 * g + c ∧ let t : Nat := 2 ^ 51; t ≠ 0 ∧ t % 2 ^ 51 = 0) ∧
    (let s : State := stampOn 0 StpState.empty base; canonical s = true ∧ s.stps.length = 8 ∧ let g : Fin 8 := 0; let c : Fin 32 := 0;
      let ch : Fin 256 := 0; ch.val = 32 * g + c ∧ let t : Nat := 181; t % 2 ^ 51 ≠ 0) ∧
    (let s : State := stampOn 0 StpState.empty base; canonical s = true ∧ s.stps.length = 8 ∧ let g : Fin 8 := 0; let c : Fin 32 := 0;
      let ch : Fin 256 := 0; ch.val = 32 * g + c ∧ s.enabled (P.STP g) = true ∧ (s.stp g).queued = []) ∧
    (let s : State := stampOn 0 StpState.empty base; canonical s = true ∧ s.stps.length = 8 ∧ let g : Fin 8 := 7; let c : Fin 32 := 0;
      let ch : Fin 256 := 224; ch.val = 32 * g + c ∧ s.enabled (P.STP g) = false) ∧
    (let s : State := stampOn 0 StpState.empty base; canonical s = true ∧ s.stps.length = 8 ∧ let g : Fin 8 := 0; let c : Fin 32 := 0;
      let ch : Fin 256 := 0; ch.val = 32 * g + c ∧ s.enabled (P.STP g) = true ∧ s.use (P.STP g) F.STP_CTL_CAL_PERIOD ≠ 0) ∧
    (let s : State := (stampOn 7 takenS base).put (P.STP 7) F.STP_STAT_CAL_BUSY 1; canonical s = true ∧ s.stps.length = 8 ∧
      let g : Fin 8 := 7; let c : Fin 32 := 0; let ch : Fin 256 := 224; ch.val = 32 * g + c ∧
      s.getB (P.STP g) F.STP_STAT_CAL_BUSY = true) :=
  ⟨by decide +kernel, by decide +kernel, by decide +kernel, by decide +kernel, by decide +kernel, by decide +kernel, by decide +kernel, by decide +kernel, by decide +kernel⟩

/-- O32. -/
theorem witness_PairingAndFrequencyUnits :
    (let s : State := pairUnit 15 0 1 base; canonical s = true ∧ s.ips.length = 16 ∧ s.fus.length = 32 ∧ let n : Fin 16 := 15;
      s.ipUse n F.IP_CFG_EN = 1 ∧ s.enabled (P.STP (n / 2)) = true ∧ s.ipUse n F.IP_CFG_MODE = 0 ∧ let x : Nat := 64;
      (s.ip n).starts = [(x, none)] ∧ (∃ m ∈ s.ipSpan n, let t : Nat := 64; m < t * 64 - x)) ∧
    (let s : State := pairUnit 15 0 1 base; canonical s = true ∧ s.ips.length = 16 ∧ s.fus.length = 32 ∧ let n : Fin 16 := 15;
      s.ipUse n F.IP_CFG_EN = 1 ∧ s.enabled (P.STP (n / 2)) = true ∧ s.ipUse n F.IP_CFG_MODE = 0 ∧ let x : Nat := 64;
      (s.ip n).starts = [(x, none)] ∧ (∃ m ∈ s.ipSpan n, let t : Nat := 9; t * 64 - x ≤ m)) ∧
    (let s : State := pairUnit 15 0 1 base; canonical s = true ∧ s.ips.length = 16 ∧ s.fus.length = 32 ∧ let n : Fin 16 := 0;
      s.ipUse n F.IP_CFG_EN = 0) ∧
    (let s : State := gating 31 0x80000005 base; canonical s = true ∧ s.ips.length = 16 ∧ s.fus.length = 32 ∧ let f : Fin 32 := 31;
      (∃ k ∈ (s.fu f).gate, let t : Nat := 8000; k.finish ≤ t / 8)) ∧
    (let s : State := gating 31 0x80000005 base; canonical s = true ∧ s.ips.length = 16 ∧ s.fus.length = 32 ∧ let f : Fin 32 := 31;
      (∃ k ∈ (s.fu f).gate, let t : Nat := 64; t / 8 < k.finish)) ∧
    (let s : State := resulting 31 1 base; canonical s = true ∧ s.ips.length = 16 ∧ s.fus.length = 32 ∧ let f : Fin 32 := 31;
      (∃ r ∈ ((s.fu f).due).head?, let rest := ((s.fu f).due).tail; True)) ∧
    (let s : State := pairUnit 15 0 1 base; canonical s = true ∧ s.ips.length = 16 ∧ s.fus.length = 32 ∧ let f : Fin 32 := 0;
      (s.fu f).due = []) :=
  ⟨by decide +kernel, by decide +kernel, by decide +kernel, by decide +kernel, by decide +kernel, by decide +kernel, by decide +kernel⟩

/-- O33. -/
theorem witness_ConversionStarts :
    (let s : State := convsMixed (adcOn 0 0 base); canonical s = true ∧ s.convs.length = 16 ∧ s.pulseDue.length = 8 ∧
      s.enabled P.ADC = true ∧ let i : Fin 8 := 0; s.useB P.ADC F.ADC_SET_CFG_EN i = true ∧ s.adcClocked = true ∧
      let t : Nat := 80000; (∃ late ∈ s.setFires i t, True)) ∧
    (let s : State := convsMixed (adcOn 0 0 base); canonical s = true ∧ s.convs.length = 16 ∧ s.pulseDue.length = 8 ∧
      s.enabled P.ADC = true ∧ let i : Fin 8 := 0; s.useB P.ADC F.ADC_SET_CFG_EN i = true ∧ let t : Nat := 79992;
      s.setFires i t = none) ∧
    (let s : State := pulseSet 7 base; canonical s = true ∧ s.convs.length = 16 ∧ s.pulseDue.length = 8 ∧ s.enabled P.ADC = true ∧
      let i : Fin 8 := 7; s.useB P.ADC F.ADC_SET_CFG_EN i = true ∧ s.use P.ADC F.ADC_SET_CFG_SRC i = 3 ∧
      s.digMode (s.use P.ADC F.ADC_SET_CFG_CHANNEL i / 32) ≠ M.OFF ∧ let lo := 8 * bits (s.useReg P.ADC (F.ADC_SET_P0.at i)) 15 0;
      let hi := 8 * bits (s.useReg P.ADC (F.ADC_SET_P0.at i)) 31 16; let width : Nat := 16; lo ≤ width ∧ ((hi = 0 ∨ width ≤ hi)) ∧
      s.use P.ADC F.ADC_SET_CFG_UNIT i = 1) ∧
    (let s : State := pulseSet 7 base; canonical s = true ∧ s.convs.length = 16 ∧ s.pulseDue.length = 8 ∧ s.enabled P.ADC = true ∧
      let i : Fin 8 := 7; s.useB P.ADC F.ADC_SET_CFG_EN i = true ∧ s.use P.ADC F.ADC_SET_CFG_SRC i = 3 ∧
      s.digMode (s.use P.ADC F.ADC_SET_CFG_CHANNEL i / 32) ≠ M.OFF ∧ let lo := 8 * bits (s.useReg P.ADC (F.ADC_SET_P0.at i)) 15 0;
      let hi := 8 * bits (s.useReg P.ADC (F.ADC_SET_P0.at i)) 31 16; let width : Nat := 80000; (width < lo ∨ hi ≠ 0 ∧ hi < width)) :=
  ⟨by decide +kernel, by decide +kernel, by decide +kernel, by decide +kernel⟩

/-- O34. -/
theorem witness_ConverterWakeAndInjection :
    (let s : State := conv15 (fun q => { q with asleep := true }) (adcOn 7 0 base); canonical s = true ∧ s.convs.length = 16 ∧
      let n : Fin 16 := 15; s.convEn n = true ∧ (s.conv n).asleep = true ∧ let t : Nat := 80000;
      (∃ x ∈ s.nextStart (s.convSet n) t, x ≤ t + s.wakeSlots n)) ∧
    (let s : State := conv15 (fun q => { q with asleep := true }) (adcOn 7 0 base); canonical s = true ∧ s.convs.length = 16 ∧
      let n : Fin 16 := 0; (s.conv n).asleep = false) ∧
    (let s : State := conv15 (fun q => { q with waking := true, asleep := true, startWait := true }) (adcOn 7 0 base);
      canonical s = true ∧ s.convs.length = 16 ∧ let n : Fin 16 := 15; (s.conv n).waking = true ∧ (s.conv n).startWait = true ∧
      s.quadCal (n / 4) = false ∧ s.adcClocked = true) ∧
    (let s : State := conv15 (fun q => { q with asleep := true }) (adcOn 7 0 base); canonical s = true ∧ s.convs.length = 16 ∧
      let n : Fin 16 := 0; (s.conv n).waking = false) ∧
    (let s : State := calQuad 3 (tgt base); canonical s = true ∧ s.convs.length = 16 ∧ let n : Fin 16 := 15; let slot : Nat := 79999;
      (∃ r ∈ s.injDue.find? (fun r => r.conv == n.val && r.slot == slot), s.convEn n = true ∧ let t : Nat := 80000; slot ≤ t ∧
      s.quadCal (n / 4) = true)) ∧
    (let s : State := conv15 (fun q => { q with hold := some (res1, 3) }) (tgt base); canonical s = true ∧ s.convs.length = 16 ∧
      let n : Fin 16 := 15; let slot : Nat := 79999;
      (∃ r ∈ s.injDue.find? (fun r => r.conv == n.val && r.slot == slot), s.convEn n = true ∧ let t : Nat := 80000; slot ≤ t ∧
      s.quadCal (n / 4) = false ∧ (s.conv n).hold ≠ none)) ∧
    (let s : State := conv15 (fun q => { q with last := some 79000 }) (tgt base); canonical s = true ∧ s.convs.length = 16 ∧
      let n : Fin 16 := 15; let slot : Nat := 79999;
      (∃ r ∈ s.injDue.find? (fun r => r.conv == n.val && r.slot == slot), s.convEn n = true ∧ let t : Nat := 80000; slot ≤ t ∧
      s.quadCal (n / 4) = false ∧ (s.conv n).hold = none ∧ s.convBusy n t = true)) ∧
    (let s : State := tgt base; canonical s = true ∧ s.convs.length = 16 ∧ let n : Fin 16 := 15; let slot : Nat := 79999;
      (∃ r ∈ s.injDue.find? (fun r => r.conv == n.val && r.slot == slot), s.convEn n = true ∧ let t : Nat := 80000; slot ≤ t ∧
      s.quadCal (n / 4) = false ∧ (s.conv n).hold = none ∧ s.convBusy n t = false ∧ (s.conv n).injWait = none ∧
      (s.conv n).startWait = false ∧ (s.conv n).asleep = false ∧ (s.conv n).waking = false ∧ s.schedDue n t = false ∧
      s.adcClocked = true)) ∧
    (let s : State := conv15 (fun q => { q with asleep := true }) (adcOn 7 0 base); canonical s = true ∧ s.convs.length = 16 ∧
      let n : Fin 16 := 0; let slot : Nat := 80000; s.injDue.find? (fun r => r.conv == n.val && r.slot == slot) = none) :=
  ⟨by decide +kernel, by decide +kernel, by decide +kernel, by decide +kernel, by decide +kernel, by decide +kernel, by decide +kernel, by decide +kernel, by decide +kernel⟩

/-- O35. -/
theorem witness_ResultsOverloadAndIntervals :
    (let s : State := conv15 (fun q => { q with jobs := [job0 73280 (some 70000), job0 80000 none] }) (adcOn 0 0 base);
      canonical s = true ∧ s.convs.length = 16 ∧ s.ivs.length = 4 ∧ let n : Fin 16 := 15;
      (∃ j ∈ ((s.conv n).jobs).head?, let rest := ((s.conv n).jobs).tail; let t : Nat := 80000; j.inst + convDelay ≤ t)) ∧
    (let s : State := conv15 (fun q => { q with jobs := [job0 73280 (some 70000), job0 80000 none] }) (adcOn 0 0 base);
      canonical s = true ∧ s.convs.length = 16 ∧ s.ivs.length = 4 ∧ let n : Fin 16 := 15;
      (∃ j ∈ ((s.conv n).jobs).head?, let rest := ((s.conv n).jobs).tail; let t : Nat := 79999; t < j.inst + convDelay)) ∧
    (let s : State := conv15 (fun q => { q with jobs := [job0 73280 (some 70000), job0 80000 none] }) (adcOn 0 0 base);
      canonical s = true ∧ s.convs.length = 16 ∧ s.ivs.length = 4 ∧ let n : Fin 16 := 0; s.convEn n = true) ∧
    (let s : State := iv3 0x80000000 base; canonical s = true ∧ s.convs.length = 16 ∧ s.ivs.length = 4 ∧ let n : Fin 16 := 0;
      s.convEn n = false) ∧
    (let s : State := conv15 (fun q => { q with tail := some 64000 }) ((adcOn 7 0 base).put P.ADC F.ADC_OVR_CLIPPED 0x8001);
      canonical s = true ∧ s.convs.length = 16 ∧ s.ivs.length = 4 ∧ let n : Fin 16 := 0;
      bitOf (s.get P.ADC F.ADC_OVR_CLIPPED) n = true) ∧
    (let s : State := conv15 (fun q => { q with jobs := [job0 73280 (some 70000), job0 80000 none] }) (adcOn 0 0 base);
      canonical s = true ∧ s.convs.length = 16 ∧ s.ivs.length = 4) ∧
    (let s : State := iv3 0x80000000 base; canonical s = true ∧ s.convs.length = 16 ∧ s.ivs.length = 4 ∧ let iv : Fin 4 := 3;
      (∃ v ∈ s.iv iv, v.cut = none ∧ bitOf v.cfg 30 = false ∧ let slot : Nat := 80000; v.target = slot ∧ let t : Nat := 80000;
      slot ≤ t ∧ s.ivSettled iv slot = true ∧ s.enabled P.ACC = true ∧ s.useReg P.ACC (F.ACC_IV_CFG.at iv) = v.cfg ∧
      bitOf v.cfg 31 = true ∧ bitOf v.cfg 29 = false ∧ s.ivLen iv = v.len ∧ v.len ≠ 0)) ∧
    (let s : State := iv3 0 base; canonical s = true ∧ s.convs.length = 16 ∧ s.ivs.length = 4 ∧ let iv : Fin 4 := 3;
      (∃ v ∈ s.iv iv, v.cut = none ∧ bitOf v.cfg 30 = false ∧ let slot : Nat := 80000; v.target = slot ∧ let t : Nat := 80000;
      slot ≤ t ∧ s.ivSettled iv slot = true ∧ bitOf (s.useReg P.ACC (F.ACC_IV_CFG.at iv)) 31 = false)) ∧
    (let s : State := conv15 (fun q => { q with jobs := [job0 73280 (some 70000), job0 80000 none] }) (adcOn 0 0 base);
      canonical s = true ∧ s.convs.length = 16 ∧ s.ivs.length = 4 ∧ let t : Nat := 80000; let iv : Fin 4 := 0;
      let slot : Nat := 80000; (s.iv iv = none ∨ t < slot)) :=
  ⟨by decide +kernel, by decide +kernel, by decide +kernel, by decide +kernel, by decide +kernel, by decide +kernel, by decide +kernel, by decide +kernel, by decide +kernel⟩

/-- O36. -/
theorem witness_PlyIsEvaluatedAtOnce :
    (let s : State := ladderUp 1 base; canonical s = true ∧ s.sp0Good = true ∧ s.powered = true ∧ s.gmb.running = true ∧
      s.enabled P.TLD = true ∧ s.enabled P.GMB = true ∧ s.gmb.last = none ∧ s.acq.committed = false ∧ s.gmb.ckpts = [] ∧
      let t : Nat := 3200; s.gmb.next = t / 32 ∧ ((∀ h ∈ s.gmb.hist, h.ply < t / 32)) ∧ s.gmb.ladder.rung < 16 ∧
      (∀ k ∈ List.range (512), isLate (s.cType k) = false)) ∧
    (let s : State := put base [(P.CKS 0, F.CKS_LOCK_STAT_ON_BYPASS, 1, 0)]; canonical s = true ∧ s.sp0Good = false) :=
  ⟨by decide +kernel, by decide +kernel⟩

/-- O37. -/
theorem witness_LateBitsCommitOverrunAndSettling :
    (let s : State := lateLadder 0 [histAt 99 0 0, histAt 100 0xFF 0, histAt 101 1 0] base; canonical s = true ∧ let p : Nat := 100;
      (∃ h ∈ s.gmb.hist.find? (fun h => h.ply == p), s.gmb.running = true ∧ let n : Fin 128 := 127; isLate (s.cType n) = true ∧
      n.val < 8 * s.rungs ∧ let t : Nat := 5000; (s.newlyKnown h n t).1 ≠ 0 ∧ (s.gmb.hist.map HistPly.ply).Nodup)) ∧
    (let s : State := lateLadder 0 [histAt 99 0 0, histAt 100 0xFF 0, histAt 101 1 0] base; canonical s = true ∧ let p : Nat := 100;
      (∃ h ∈ s.gmb.hist.find? (fun h => h.ply == p), let t : Nat := 5000; let n : Fin 128 := 0; (s.newlyKnown h n t).1 = 0)) ∧
    (let s : State := lateLadder 0 [histAt 99 0 0, histAt 100 0xFF 0, histAt 101 1 0] base; canonical s = true ∧ let p : Nat := 5000;
      s.gmb.hist.find? (fun h => h.ply == p) = none) ∧
    (let s : State := repl base; canonical s = true ∧ s.getB P.GMB F.GMB_STAT_REPLAYING = true ∧ s.gmb.nextPly = none) ∧
    (let s : State := { repl base with gmb := { (repl base).gmb with hist := [histAt 102 0 0] } }; canonical s = true ∧
      s.getB P.GMB F.GMB_STAT_REPLAYING = true ∧ (∃ h ∈ s.gmb.nextPly, True)) ∧
    (let s : State := full base; canonical s = true ∧ let t : Nat := 32 * 65586;
      let p := s.gmb.hist.foldl (fun m h => Nat.max m (h.ply + 1)) (t / 32); s.histFull p = true) ∧
    (let s : State := lateLadder 0 [histAt 99 0 0, histAt 100 0xFF 0, histAt 101 1 0] base; canonical s = true ∧ let t : Nat := 5000;
      let p := s.gmb.hist.foldl (fun m h => Nat.max m (h.ply + 1)) (t / 32); s.histFull p = false) ∧
    (let s : State := ending base; canonical s = true ∧ let t : Nat := 32 * 65586; (∃ l ∈ s.gmb.last, s.gmb.running = true ∧
      let due := 32 * (l + 64 * 2 ^ s.use P.GMB F.GMB_CTL_CKPT_EXP); s.gmb.ckpts ≠ [] ∧ due ≤ t)) ∧
    (let s : State := ending base; canonical s = true ∧ let t : Nat := 5000; (∃ l ∈ s.gmb.last, s.gmb.running = true ∧
      let due := 32 * (l + 64 * 2 ^ s.use P.GMB F.GMB_CTL_CKPT_EXP); (s.gmb.ckpts = [] ∨ t < due))) ∧
    (let s : State := lateLadder 0 [histAt 99 0 0, histAt 100 0xFF 0, histAt 101 1 0] base; canonical s = true ∧ let t : Nat := 5000;
      s.gmb.last = none) :=
  ⟨by decide +kernel, by decide +kernel, by decide +kernel, by decide +kernel, by decide +kernel, by decide +kernel, by decide +kernel, by decide +kernel, by decide +kernel, by decide +kernel⟩

/-- O38. -/
theorem witness_ActionOutputs :
    (let s : State := outsOn base; canonical s = true ∧ s.act.length = 16 ∧ s.enabled P.ACT = true ∧ let n : Fin 16 := 0;
      s.actActive n = true ∧ let t : Nat := 1000; s.pulseDone n t = true) ∧
    (let s : State := outsOn base; canonical s = true ∧ s.act.length = 16 ∧ let t : Nat := 999; let n : Fin 16 := 0;
      (s.enabled P.ACT = false ∨ s.actActive n = false ∨ s.pulseDone n t = false)) ∧
    (let s : State := outsOn base; canonical s = true ∧ s.act.length = 16) :=
  ⟨by decide +kernel, by decide +kernel, by decide +kernel⟩

/-- O39. -/
theorem witness_ArmingAndItsChecks :
    (let s : State := notArmed base; canonical s = true ∧ s.role = C.SOLO ∧ s.duplex = false ∧ let v : Word := 1;
      bitOf v.toNat 0 = true ∧ bitOf v.toNat 1 = false ∧ s.isArmed = false ∧ s.acq.armAt = none ∧ let t : Nat := 3200;
      (∃ z ∈ (s.at t).armCheck, True)) ∧
    (let s : State := notArmed (armable base); canonical s = true ∧ s.role = C.SOLO ∧ s.duplex = false ∧ let v : Word := 1;
      bitOf v.toNat 0 = true ∧ bitOf v.toNat 1 = false ∧ s.isArmed = false ∧ s.acq.armAt = none ∧ let t : Nat := 3200;
      (s.at t).armCheck = none) ∧
    (let s : State := armWaits 3232 base; canonical s = true ∧ s.role = C.SOLO ∧ s.duplex = false ∧ let v : Word := 1;
      bitOf v.toNat 0 = true ∧ bitOf v.toNat 1 = false ∧ (s.isArmed = true ∨ s.acq.armAt ≠ none)) ∧
    (let s : State := notArmed (armable base); canonical s = true ∧ s.role = C.SOLO ∧ s.duplex = false ∧ let v : Word := 0;
      bitOf v.toNat 0 = false) ∧
    (let s : State := armWaits 3232 base; canonical s = true ∧ s.role = C.SOLO ∧ s.duplex = false ∧
      (∃ a ∈ s.acq.armAt, let t : Nat := 3232; a ≤ t ∧ (∀ p ∈ [P.TLD, P.TLDC, P.TLDP, P.TLDT, P.ACT], s.pendGroups p = 0))) ∧
    (let s : State := armWaits 3232 base; canonical s = true ∧ s.role = C.SOLO ∧ s.duplex = false ∧
      (∃ a ∈ s.acq.armAt, let t : Nat := 3200; t < a)) ∧
    (let s : State := notArmed (armable base); canonical s = true ∧ s.role = C.SOLO ∧ s.duplex = false ∧ s.acq.armAt = none) :=
  ⟨by decide +kernel, by decide +kernel, by decide +kernel, by decide +kernel, by decide +kernel, by decide +kernel, by decide +kernel⟩

/-- O40. -/
theorem witness_StopCollarAndClose :
    (let s : State := nowArmed base; canonical s = true ∧ s.isArmed = true ∧ s.role = C.SOLO ∧ s.duplex = false ∧ let v : Word := 2;
      bitOf v.toNat 1 = true ∧ bitOf v.toNat 0 = false ∧ s.acq.stopPly = none) ∧
    (let s : State := acqSt (fun a => { a with stopPly := some 3, stopSlot := some 4 }) base; canonical s = true ∧ s.isArmed = true ∧
      s.role = C.SOLO ∧ s.duplex = false ∧ let v : Word := 2; bitOf v.toNat 1 = true ∧ bitOf v.toNat 0 = false ∧ s.acq.stopPly ≠ none) ∧
    (let s : State := nowArmed base; canonical s = true ∧ s.isArmed = true ∧ let v : Word := 0; bitOf v.toNat 1 = false) ∧
    (let s : State := nowArmed base; canonical s = true ∧ s.isArmed = true ∧ s.acqMode ≠ AM.CONTINUOUS ∧ s.acq.fullAt = none ∧
      let t : Nat := 3200; s.collarFullAt t = true) ∧
    (let s : State := collared base; canonical s = true ∧ s.isArmed = true ∧ s.acqMode ≠ AM.CONTINUOUS ∧ s.acq.fullAt = none ∧
      let t : Nat := 1099; s.collarFullAt t = false) ∧
    (let s : State := acqSt (fun a => { a with stopPly := some 3, stopSlot := some 4 }) base; canonical s = true ∧ s.isArmed = true ∧
      s.acq.settling = none ∧ s.acq.closed = none ∧ (∃ z ∈ s.recordEnd, let e := z.1; let t : Nat := 3200;
      (s.at t).recordSettled e = true ∧ s.enabledStreams.all (fun i => (s.stream i).staging.isEmpty) = true ∧
      s.acqMode ∉ [AM.SEGMENTED, AM.STREAMING])) ∧
    (let s : State := nowArmed base; canonical s = true ∧ s.isArmed = true ∧ s.acq.settling = none ∧ s.acq.closed = none ∧
      s.recordEnd = none) ∧
    (let s : State := blk base; canonical s = true ∧ s.isArmed = true ∧ s.acq.settling = none ∧ s.acq.closed = none ∧
      s.acq.closeNote = 0 ∧ s.acq.endSlot = none ∧ (∃ i ∈ s.enabledStreams, (∃ x ∈ s.ringBlocked i, True))) ∧
    (let s : State := nowArmed base; canonical s = true ∧ s.isArmed = true ∧ s.acq.settling = none ∧ s.acq.closed = none ∧
      s.acq.closeNote = 0 ∧ s.acq.endSlot = none ∧ (∀ i ∈ s.enabledStreams, s.ringBlocked i = none)) :=
  ⟨by decide +kernel, by decide +kernel, by decide +kernel, by decide +kernel, by decide +kernel, by decide +kernel, by decide +kernel, by decide +kernel, by decide +kernel⟩

/-- O41. -/
theorem witness_ThinningAndOverflow :
    (let s : State := thinOn 0 0 5 base; canonical s = true ∧ s.acq.thin.length = 10 ∧ s.streams.length = 22 ∧ s.duplex = false ∧
      let i : Fin 10 := 0; let k := s.thinStep (thinStream i); let press : BitVec 8 := 0x80;
      s.use P.ACQT F.ACQ_THIN_LVL_HI i ≤ press.toNat ∧ let t : Nat := 16000;
      s.thinFree i t (160 * s.use P.ACQT F.ACQ_THIN_DWELL_DWELL_UP i) = true ∧ k < s.kEffMax i ∧
      s.getB P.ACQT F.ACQ_THIN_STAT_PROTECTED i = false) ∧
    (let s : State := thinOn 0 0 5 base; canonical s = true ∧ s.acq.thin.length = 10 ∧ s.streams.length = 22 ∧ s.duplex = false ∧
      let i : Fin 10 := 0; let press : BitVec 8 := 0; press.toNat < s.use P.ACQT F.ACQ_THIN_LVL_HI i) ∧
    (let s : State := thinOn 9 2 9 base; canonical s = true ∧ s.acq.thin.length = 10 ∧ s.streams.length = 22 ∧ s.duplex = false ∧
      let i : Fin 10 := 9; let k := s.thinStep (thinStream i); let press : BitVec 8 := 0;
      press.toNat ≤ s.use P.ACQT F.ACQ_THIN_LVL_LO i ∧ let t : Nat := 16000;
      s.thinFree i t (usSlots (s.use P.ACQT F.ACQ_THIN_DWELL_DWELL_DOWN i)) = true ∧ 0 < k) ∧
    (let s : State := stepDue 0 3 16000 base; canonical s = true ∧ s.acq.thin.length = 10 ∧ s.streams.length = 22 ∧ s.duplex = false ∧
      let i : Fin 10 := 0; let thin (u : State) : ThinState := u.acq.thin.getD i { next := none, seen := 0, maxStep := 0 };
      (∃ z ∈ (thin s).next, let at_ := z.2; let t : Nat := 16000; at_ % 2 ^ 80 ≤ t)) ∧
    (let s : State := stepDue 0 3 16000 base; canonical s = true ∧ s.acq.thin.length = 10 ∧ s.streams.length = 22 ∧ s.duplex = false ∧
      let i : Fin 10 := 0; let thin (u : State) : ThinState := u.acq.thin.getD i { next := none, seen := 0, maxStep := 0 };
      (∃ z ∈ (thin s).next, let at_ := z.2; let t : Nat := 15999; t < at_ % 2 ^ 80)) ∧
    (let s : State := thinOn 0 0 5 base; canonical s = true ∧ s.acq.thin.length = 10 ∧ s.streams.length = 22 ∧ s.duplex = false ∧
      let i : Fin 10 := 0; let thin (u : State) : ThinState := u.acq.thin.getD i { next := none, seen := 0, maxStep := 0 };
      (thin s).next = none) ∧
    (let s : State := thinOn 0 0 5 base; canonical s = true ∧ s.acq.thin.length = 10 ∧ s.streams.length = 22 ∧ s.duplex = false ∧
      let i : Fin 10 := 0; s.recording (thinStream i) = true ∧ (∀ g ∈ (s.stream (thinStream i)).gaps, g.cause ≠ 3)) ∧
    (let s : State := thinOn 0 0 5 base; canonical s = true ∧ s.acq.thin.length = 10 ∧ s.streams.length = 22 ∧ s.duplex = false ∧
      let i : Fin 10 := 0; s.recording (thinStream i) = true) ∧
    (let s : State := prot base; canonical s = true ∧ s.acq.thin.length = 10 ∧ s.streams.length = 22 ∧ s.duplex = false ∧
      let i : Fin 10 := 0; s.recording (thinStream i) = false) ∧
    (let s : State := prot base; canonical s = true ∧ s.acq.thin.length = 10 ∧ s.streams.length = 22 ∧ s.duplex = false ∧
      let i : Fin 10 := 0; s.getB P.ACQ F.ACQ_STAT_PROTECTED = true ∧ let t : Nat := 20000; s.acq.protUntil ≤ t) ∧
    (let s : State := prot base; canonical s = true ∧ s.acq.thin.length = 10 ∧ s.streams.length = 22 ∧ s.duplex = false ∧
      let i : Fin 10 := 0; let t : Nat := 16000; t < s.acq.protUntil) :=
  ⟨by decide +kernel, by decide +kernel, by decide +kernel, by decide +kernel, by decide +kernel, by decide +kernel, by decide +kernel, by decide +kernel, by decide +kernel, by decide +kernel, by decide +kernel⟩

/-- O42. -/
theorem witness_ChunksCloseIntoTheirBanks :
    (let s : State := chunked 16 (open0 [item 5 9, item 77 9] 144 4096) false base; canonical s = true ∧ s.streams.length = 22 ∧
      let sid : Fin 22 := 16; 8 ≤ sid.val ∧ s.enabled P.RFQ = true ∧ (∃ c ∈ (s.stream sid).opened, c.items.any s.held = false ∧
      c.items ≠ [] ∧ let t : Nat := 161000; c.openedAt + usSlots c.ageMax ≤ t)) ∧
    (let s : State := chunked 16 (open0 [item 5 9, item 77 9] 144 4096) false base; canonical s = true ∧ s.streams.length = 22 ∧
      let sid : Fin 22 := 16; 8 ≤ sid.val ∧ s.enabled P.RFQ = true ∧ (∃ c ∈ (s.stream sid).opened, c.items.any s.held = false ∧
      let t : Nat := 160999; t < c.openedAt + usSlots c.ageMax)) ∧
    (let s : State := chunked 8 (open0 [item 5 1, item 7 1] 4080 4096) true base; canonical s = true ∧ s.streams.length = 22 ∧
      let sid : Fin 22 := 8; 8 ≤ sid.val ∧ s.enabled P.RFQ = true ∧ (∃ c ∈ (s.stream sid).opened, c.items.any s.held = false ∧
      (∃ it ∈ c.items.getLast?, c.fits (s.kindNow sid) it = false))) ∧
    (let s : State := chunked 16 (open0 [item 5 9, item 77 9] 144 4096) false base; canonical s = true ∧ s.streams.length = 22 ∧
      let sid : Fin 22 := 16; 8 ≤ sid.val ∧ s.enabled P.RFQ = true ∧ (∃ c ∈ (s.stream sid).opened, c.items.any s.held = false ∧
      (∃ it ∈ c.items.getLast?, c.fits (s.kindNow sid) it = true))) :=
  ⟨by decide +kernel, by decide +kernel, by decide +kernel, by decide +kernel⟩

/-- O43. -/
theorem witness_BanksFlushesAndBlocks :
    (let s : State := banked 16 false 0 1 false base; canonical s = true ∧ s.streams.length = 22 ∧ s.lanes.length = 16 ∧
      let sid : Fin 22 := 16; 8 ≤ sid.val ∧ s.enabled P.RFQ = true ∧ let bank : Bool := false;
      let c : Chunk := chunk0 16 3 32 [item 3000 4]; (if bank then (s.stream sid).bankB else (s.stream sid).bankA) = .full c ∧
      c.length ≤ (s.ringSpan sid).2 ∧ s.ringProtected sid c.length = false ∧ (s.stream sid).staging = []) ∧
    (let s : State := banked 16 false 0 1 true base; canonical s = true ∧ s.streams.length = 22 ∧ s.lanes.length = 16 ∧
      let sid : Fin 22 := 16; 8 ≤ sid.val ∧ s.enabled P.RFQ = true ∧ let bank : Bool := false;
      let c : Chunk := chunk0 16 3 32 [item 3000 4]; (if bank then (s.stream sid).bankB else (s.stream sid).bankA) = .full c ∧
      s.ringProtected sid c.length = true) ∧
    (let s : State := banked 16 false 0 1 false base; canonical s = true ∧ s.streams.length = 22 ∧ s.lanes.length = 16 ∧
      s.enabled P.RFQ = true ∧ (∀ i ∈ List.range (22), (s.stream i).staging = [])) ∧
    (let s : State := laneBlock 0 17 2 base; canonical s = true ∧ s.streams.length = 22 ∧ s.lanes.length = 16 ∧ s.enabled P.RFQ = false) ∧
    (let s : State := flushing true base; canonical s = true ∧ s.streams.length = 22 ∧ s.lanes.length = 16 ∧
      s.get P.RFQ F.RFQ_FLUSH_PEND ≠ 0 ∧ s.get P.RFQ F.RFQ_FLUSH_PEND < 2 ^ 22 ∧
      (∀ i ∈ List.range (22), bitOf (s.get P.RFQ F.RFQ_FLUSH_PEND) i = true → ∃ c, (s.stream i).opened = some c ∧ c.items ≠ [])) ∧
    (let s : State := flushing false base; canonical s = true ∧ s.streams.length = 22 ∧ s.lanes.length = 16 ∧
      s.get P.RFQ F.RFQ_FLUSH_PEND ≠ 0 ∧ s.get P.RFQ F.RFQ_FLUSH_PEND < 2 ^ 22 ∧
      (∃ i < 22, bitOf (s.get P.RFQ F.RFQ_FLUSH_PEND) i = true ∧ (s.stream i).opened = none)) ∧
    (let s : State := laneBlock 0 17 2 base; canonical s = true ∧ s.streams.length = 22 ∧ s.lanes.length = 16 ∧ s.enabled P.CMP = true ∧
      let lane : Fin 16 := 0; (∃ n ∈ (s.thread lane).stream, n < 22 ∧ (s.thread lane).stalled = false ∧ (s.thread lane).feed = none ∧
      (∃ c ∈ (s.thread lane).opened, let src : Chunk := chunk0 17 0 8 [item 5 1]; (s.thread lane).src = some src ∧
      s.readable n = [] ∧ let t : Nat := 161000; c.openedAt + usSlots c.ageMax ≤ t ∧ classOf n (s.streamCfg n) ≠ CL.NONE))) ∧
    (let s : State := banked 16 false 0 1 false base; canonical s = true ∧ s.streams.length = 22 ∧ s.lanes.length = 16 ∧
      let lane : Fin 16 := 0; (s.thread lane).stream = none ∨ s.enabled P.CMP = false) :=
  ⟨by decide +kernel, by decide +kernel, by decide +kernel, by decide +kernel, by decide +kernel, by decide +kernel, by decide +kernel, by decide +kernel⟩

/-- O44. -/
theorem witness_HostReachesScratchAndDeep :
    (let s : State := memful base; canonical s = true ∧ s.hostServed = true ∧ let data : List Byte := [0]; data ≠ [] ∧
      let o : BitVec 29 := 0x2E00000; o.toNat % 8 + data.length ≤ 8 ∧ (∃ a ∈ bar2Scratch o.toNat, s.hostWritable a = true ∧
      let x : ScrAccess := xs 0; (inCpx a || inGambit a || inStaging a) = false ∧ ((∀ b ∈ s.mar.held, b.tile ≠ a / 65536)) ∧
      x.ce = false ∧ x.ue = false ∧ x.lost = false ∧ o.toNat < 0x8000000)) ∧
    (let s : State := memful base; canonical s = true ∧ s.hostServed = true ∧ let data : List Byte := [0]; data ≠ [] ∧
      let o : BitVec 29 := 0xAE00001; o.toNat % 8 + data.length ≤ 8 ∧ (∃ a ∈ bar2Scratch o.toNat, s.hostWritable a = true ∧
      let x : ScrAccess := xs 0; (inCpx a || inGambit a || inStaging a) = false ∧ ((∀ b ∈ s.mar.held, b.tile ≠ a / 65536)) ∧
      x.ce = false ∧ x.ue = false ∧ x.lost = false ∧ 0x8000000 ≤ o.toNat ∧ o.toNat < 0x10000000)) ∧
    (let s : State := memful base; canonical s = true ∧ s.hostServed = true ∧ let data : List Byte := [0]; data ≠ [] ∧
      let o : BitVec 29 := 0x12E00000; o.toNat % 8 + data.length ≤ 8 ∧ (∃ a ∈ bar2Scratch o.toNat, s.hostWritable a = true ∧
      let x : ScrAccess := xs 0; (inCpx a || inGambit a || inStaging a) = false ∧ ((∀ b ∈ s.mar.held, b.tile ≠ a / 65536)) ∧
      x.ce = false ∧ x.ue = false ∧ x.lost = false ∧ 0x10000000 ≤ o.toNat)) ∧
    (let s : State := memful base; canonical s = true ∧ s.hostServed = true ∧ let data : List Byte := [0]; data ≠ [] ∧
      let o : BitVec 29 := 0x700000; o.toNat % 8 + data.length ≤ 8 ∧ (∃ a ∈ bar2Scratch o.toNat, s.hostWritable a = true ∧
      let x : ScrAccess := xs 0; (inCpx a || inGambit a || inStaging a) = true ∧ o.toNat < 0x8000000)) ∧
    (let s : State := memful base; canonical s = true ∧ s.hostServed = true ∧ let data : List Byte := [0]; data ≠ [] ∧
      let o : BitVec 29 := 0x8900000; o.toNat % 8 + data.length ≤ 8 ∧ (∃ a ∈ bar2Scratch o.toNat, s.hostWritable a = true ∧
      let x : ScrAccess := xs 0; (inCpx a || inGambit a || inStaging a) = true ∧ 0x8000000 ≤ o.toNat)) ∧
    (let s : State := memful base; canonical s = true ∧ s.hostServed = true ∧ s.started = true) ∧
    (let s : State := memful base; canonical s = true ∧ s.hostServed = true ∧ s.started = true ∧ let d : BitVec 38 := 0;
      let n : Nat := 0; d.toNat + n ≤ s.deepSize) ∧
    (let s : State := memful base; canonical s = true ∧ s.hostServed = true ∧ s.started = true ∧ let d : BitVec 38 := 0;
      let n : Nat := 1; d.toNat + n ≤ s.deepSize ∧ let e : Nat := 0; d.toNat ≤ e ∧ e < d.toNat + n) ∧
    (let s : State := memful base; canonical s = true ∧ s.hostServed = true ∧ s.started = true ∧ let n : Nat := 1; 0 < n ∧
      let a : Nat := 0x2E00000; let d : BitVec 38 := 0x2E00000; ((∀ i ∈ List.range (n), bar2Scratch (d.toNat + i) = some (a + i) ∧
      inCpx (a + i) = false)) ∧ (∀ b ∈ s.mar.held, b.tile ≠ a / 65536)) :=
  ⟨by decide +kernel, by decide +kernel, by decide +kernel, by decide +kernel, by decide +kernel, by decide +kernel, by decide +kernel, by decide +kernel, by decide +kernel⟩

/-- O45. -/
theorem witness_SweepScrubAndTests :
    (let s : State := testing 1400 true base; canonical s = true ∧ s.started = true ∧ (∀ b ∈ s.mar.held, b.tile ≠ s.mar.sweepPos / 65536)) ∧
    (let s : State := testing 1400 true base; canonical s = true ∧ s.started = true ∧ s.useB P.DMC F.DMC_SCRUB_CFG_EN = true) ∧
    (let s : State := { rotating base with mar := { (rotating base).mar with held := none } }; canonical s = true ∧ s.started = true ∧
      s.enabled P.MAR = true ∧ s.useB P.MAR F.MAR_CTL_ROT_EN = true ∧ s.mar.held = none ∧ s.marchRuns = false ∧
      let t : Nat := 37500000000; ((∀ y ∈ s.mar.rotAt, y + s.use P.MAR F.MAR_CTL_ROT_HOURS * 37500000000 ≤ t)) ∧ s.mar.retry = none ∧
      (∃ z ∈ s.rotNext, True)) ∧
    (let s : State := { rotating base with mar := { (rotating base).mar with held := none } }; canonical s = true ∧
      (∃ y ∈ s.mar.rotAt, let t : Nat := 999; t < y + s.use P.MAR F.MAR_CTL_ROT_HOURS * 37500000000)) ∧
    (let s : State := testing 1400 true base; canonical s = true ∧ (∃ b ∈ s.mar.held, b.release = false ∧ b.op = none ∧ b.tile < 1536)) ∧
    (let s : State := testing 1400 true base; canonical s = true ∧ (∃ b ∈ s.mar.held, b.release = false ∧ b.op = none ∧ b.tile < 1536)) ∧
    (let s : State := testing 800 false base; canonical s = true ∧
      (∃ b ∈ s.mar.held, let o : BitVec 27 := BitVec.ofNat 27 (800 * 65536 + 65535); b.tile = o.toNat / 65536 ∧
      b.destructive = false)) ∧
    (let s : State := testing 1400 true base; canonical s = true ∧
      (∃ b ∈ s.mar.held, let o : BitVec 27 := BitVec.ofNat 27 (1400 * 65536); b.tile = o.toNat / 65536 ∧ b.destructive = true)) ∧
    (let s : State := withOp (testing 1535 true base); canonical s = true ∧
      (∃ b ∈ s.mar.held, let o : BitVec 27 := BitVec.ofNat 27 (1535 * 65536 + 9); b.tile = o.toNat / 65536 ∧ b.destructive = true ∧
      let ring : Fin 16 := 15; let tag : BitVec 16 := 0xFFFF; (∃ p ∈ s.opByTag ring.val tag.toNat, p.stop = none))) ∧
    (let s : State := { retrying 900 1000 base with mar := { (retrying 900 1000 base).mar with held := none } }; canonical s = true ∧
      (∃ z ∈ s.mar.retry, let tile := z.1; z.2.1 = none ∧ ∃ due ∈ z.2.2, let t : Nat := 1000; due ≤ t ∧ s.mar.held = none ∧
      s.enabled P.MAR = true ∧ s.lendFlag tile ≠ 0 ∧ s.useB P.MAR F.MAR_CTL_ROT_EN = true)) ∧
    (let s : State := { retrying 900 1000 base with mar := { (retrying 900 1000 base).mar with held := none } }; canonical s = true ∧
      (∃ z ∈ s.mar.retry, z.2.1 = none ∧ ∃ due ∈ z.2.2, let t : Nat := 999; t < due)) :=
  ⟨by decide +kernel, by decide +kernel, by decide +kernel, by decide +kernel, by decide +kernel, by decide +kernel, by decide +kernel, by decide +kernel, by decide +kernel, by decide +kernel, by decide +kernel⟩

/-- O46. -/
theorem witness_RingsDoorbellsAndFetch :
    (let s : State := ringOn 0 4 4 3 15 base; canonical s = true ∧ s.host.rings.length = 16 ∧ s.started = true ∧
      let v : Word := 0x80000000; bitOf v.toNat 31 = true ∧ let n : Fin 16 := 0; bits v.toNat 11 0 < s.sqSize n.val) ∧
    (let s : State := ringOn 0 4 4 3 15 base; canonical s = true ∧ s.host.rings.length = 16 ∧ s.started = true ∧
      let v : Word := 0x80000010; bitOf v.toNat 31 = true ∧ let n : Fin 16 := 0; s.sqSize n.val ≤ bits v.toNat 11 0) ∧
    (let s : State := ringOn 0 4 4 3 15 base; canonical s = true ∧ s.host.rings.length = 16 ∧ s.started = true ∧
      let v : Word := 0x40000000; bitOf v.toNat 30 = true ∧ let n : Fin 16 := 0; bits v.toNat 27 16 < s.cqSize n.val) ∧
    (let s : State := ringOn 0 4 4 3 15 base; canonical s = true ∧ s.host.rings.length = 16 ∧ s.started = true ∧
      let v : Word := 0x40100000; bitOf v.toNat 30 = true ∧ let n : Fin 16 := 0; s.cqSize n.val ≤ bits v.toNat 27 16) ∧
    (let s : State := ringOn 0 4 4 3 15 base; canonical s = true ∧ s.host.rings.length = 16 ∧ s.started = true ∧ s.poolUsed < 4096 ∧
      let n : Fin 16 := 0; s.nextRing = some n.val ∧ let d : List Byte := cmd64 0 0; d.length = 64 ∧
      s.use P.CMD F.CMD_RING_CFG_SQ_LOG n ≤ 12) ∧
    (let s : State := ringOn 0 4 4 3 15 base; canonical s = true ∧ s.host.rings.length = 16 ∧ s.started = true ∧ s.poolUsed < 4096 ∧
      let n : Fin 16 := 0; s.nextRing = some n.val) ∧
    (let s : State := ended 3 (ringOn 15 4 4 3 15 base); canonical s = true ∧ s.host.rings.length = 16 ∧
      let r : OpRef := { from_ := none, ring := 15, tag := 0xFFFF }; r.from_ = none ∧ let n : Fin 16 := 15; r.ring = n ∧
      s.use P.CMD F.CMD_RING_CFG_CQ_LOG n ≤ 12 ∧
      (∃ o ∈ s.host.ops.find? (fun p => p.from_ == none && p.ring == n.val && p.tag == r.tag.toNat && p.ended), let st : Nat := 3;
      o.phase = .ended st ∧ s.getB P.CMD F.CMD_PTR_CQ_ERR n = false ∧ let tail := s.get P.CMD F.CMD_PTR_CQ_TAIL n;
      (tail + 1) % s.cqSize n.val ≠ (s.ringState n.val).cqHead)) ∧
    (let s : State := { ended 13 (ringOn 15 2 2 1 0 base) with host := { (ended 13 (ringOn 15 2 2 1 0 base)).host with rings := List.replicate 16 { sqTail := 0, cqHead := 0, phase := false, unsignalled := 0, oldest := none } } };
      canonical s = true ∧ s.host.rings.length = 16 ∧ let r : OpRef := { from_ := none, ring := 15, tag := 0xFFFF }; r.from_ = none ∧
      let n : Fin 16 := 15; r.ring = n ∧ s.use P.CMD F.CMD_RING_CFG_CQ_LOG n ≤ 12 ∧
      (∃ o ∈ s.host.ops.find? (fun p => p.from_ == none && p.ring == n.val && p.tag == r.tag.toNat && p.ended), let st : Nat := 13;
      o.phase = .ended st ∧ s.getB P.CMD F.CMD_PTR_CQ_ERR n = false ∧ let tail := s.get P.CMD F.CMD_PTR_CQ_TAIL n;
      (tail + 1) % s.cqSize n.val = (s.ringState n.val).cqHead)) ∧
    (let s : State := ringOn 0 4 4 3 15 base; canonical s = true ∧ s.host.rings.length = 16 ∧ let n : Fin 16 := 0;
      (∃ y ∈ (s.ringState n.val).oldest, s.use P.CMD F.CMD_RING_CFG_COAL_US n ≠ 0 ∧
      let due := y + usSlots (s.use P.CMD F.CMD_RING_CFG_COAL_US n); let t : Nat := 80100; due ≤ t)) ∧
    (let s : State := ringOn 0 4 4 3 15 base; canonical s = true ∧ s.host.rings.length = 16 ∧ let n : Fin 16 := 0;
      (∃ y ∈ (s.ringState n.val).oldest, s.use P.CMD F.CMD_RING_CFG_COAL_US n ≠ 0 ∧
      let due := y + usSlots (s.use P.CMD F.CMD_RING_CFG_COAL_US n); let t : Nat := 80099; t < due)) :=
  ⟨by decide +kernel, by decide +kernel, by decide +kernel, by decide +kernel, by decide +kernel, by decide +kernel, by decide +kernel, by decide +kernel, by decide +kernel, by decide +kernel⟩

/-- O47. -/
theorem witness_ShortCommandsAndEnds :
    (let s : State := inFlight (ops1 none 0 0) none base; let r : OpRef := { from_ := none, ring := 0, tag := 1 };
      (∃ o ∈ s.shortTurn OP.NOP r, True)) ∧
    (let s : State := inFlight (ops1 none 0 0) none base; let r : OpRef := { from_ := some 0, ring := 2, tag := 3 }; s.opNamed r = none) ∧
    (let s : State := inFlight (ops1 none 0 0) none base; let r : OpRef := { from_ := none, ring := 1, tag := 2 };
      (∃ o ∈ s.shortTurn OP.ABORT r, let victim (p : HostOp) : Bool := p.from_ == o.from_ && p.ring == o.par 0 1 % 16 && p.tag == o.par 2 2 && !p.ended && p.id != o.id;
      (∃ p ∈ s.host.ops.find? victim, True))) ∧
    (let s : State := inFlight (ops1 none 0 0) none base; let r : OpRef := { from_ := none, ring := 2, tag := 3 };
      (∃ o ∈ s.shortTurn OP.ABORT r, let victim (p : HostOp) : Bool := p.from_ == o.from_ && p.ring == o.par 0 1 % 16 && p.tag == o.par 2 2 && !p.ended && p.id != o.id;
      s.host.ops.find? victim = none)) ∧
    (let s : State := inFlight (ops1 none 1 1000) (some (5, 0)) base; (∃ z ∈ s.host.stitch, let id := z.1; (∃ o ∈ s.opById id, True))) ∧
    (let s : State := inFlight (ops1 none 1 1000) none base; let r : OpRef := { from_ := none, ring := 15, tag := 0xFFFF };
      (∃ o ∈ s.opNamed r, let t : Nat := 8000; (s.at t).pastDeadline o = true ∧ s.runsHere o = true ∧
      (∀ z ∈ s.host.stitch, let id := z.1; let t0 := z.2; id ≠ o.id))) ∧
    (let s : State := inFlight (ops1 none 1 1000) (some (5, 0)) base; let r : OpRef := { from_ := none, ring := 15, tag := 0xFFFF };
      (∃ o ∈ s.opNamed r, let t : Nat := 8000; (s.at t).pastDeadline o = true ∧ s.runsHere o = true ∧
      (∃ z ∈ s.host.stitch, z.1 = o.id ∧ o.stop = none))) ∧
    (let s : State := inFlight (ops1 none 0 0) none base; let r : OpRef := { from_ := none, ring := 15, tag := 0xFFFF };
      (∃ o ∈ s.opNamed r, let t : Nat := 0; (s.at t).pastDeadline o = false)) :=
  ⟨by decide +kernel, by decide +kernel, by decide +kernel, by decide +kernel, by decide +kernel, by decide +kernel, by decide +kernel, by decide +kernel⟩

/-- O48. -/
theorem witness_StitchedCommandsAdvance :
    (let s : State := one OP.MARCH (fun o => { o with length := 2, param := parB [(0, 2, 1400)] }) base; let t : Nat := 80000;
      let r : OpRef := { from_ := none, ring := 15, tag := 0xFFFF }; (∃ z ∈ (s.at t).claim t OP.MARCH r, let v := z.1; let o := z.2;
      o.stop = none ∧ v.enabled P.MAR = true ∧ v.mar.held = none ∧ v.mar.retry = none ∧
      v.runningOps.any (fun p => p.opcode == OP.MARCH && decide (p.id < o.id)) = false ∧ let tile := o.par 0 2 % 2 ^ 11 + o.pos;
      let destructive := o.par 3 1 == 0; o.pos < o.length ∧ permits (v.lendFlag tile) destructive = true)) ∧
    (let s : State := one OP.MARCH (fun o => { o with length := 2, param := parB [(0, 2, 5), (3, 1, 1)] }) base; let t : Nat := 80000;
      let r : OpRef := { from_ := none, ring := 15, tag := 0xFFFF }; (∃ z ∈ (s.at t).claim t OP.MARCH r, let v := z.1; let o := z.2;
      o.stop = none ∧ v.enabled P.MAR = true ∧ v.mar.held = none ∧ v.mar.retry = none ∧
      v.runningOps.any (fun p => p.opcode == OP.MARCH && decide (p.id < o.id)) = false ∧ let tile := o.par 0 2 % 2 ^ 11 + o.pos;
      let destructive := o.par 3 1 == 0; o.pos < o.length ∧ permits (v.lendFlag tile) destructive = false)) ∧
    (let s : State := one OP.MARCH (fun o => { o with length := 1, pos := 1, lost := true }) base; let t : Nat := 80000;
      let r : OpRef := { from_ := none, ring := 15, tag := 0xFFFF }; (∃ z ∈ (s.at t).claim t OP.MARCH r, let v := z.1; let o := z.2;
      o.stop = none ∧ v.enabled P.MAR = true ∧ v.mar.held = none ∧ v.mar.retry = none ∧
      v.runningOps.any (fun p => p.opcode == OP.MARCH && decide (p.id < o.id)) = false ∧ o.length ≤ o.pos)) ∧
    (let s : State := one OP.CALIBRATE (fun o => { o with param := parB [(0, 1, 0xA)], pos := 1 }) base; let t : Nat := 80000;
      let r : OpRef := { from_ := none, ring := 15, tag := 0xFFFF }; (∃ z ∈ (s.at t).claim t OP.CALIBRATE r, let v := z.1;
      let o := z.2; o.stop = none ∧ let quads := (List.range 4).filter (bitOf (o.par 0 1)); (∃ q ∈ quads[o.pos]?, o.lost = false ∧
      bitOf (v.get P.ADC F.ADC_CAL_STAT_QUAD) q = false ∧ (∀ k ∈ List.range (4), (v.conv (4 * q + k)).injWait = none)))) ∧
    (let s : State := one OP.CALIBRATE (fun o => { o with param := parB [(0, 1, 0xA)], pos := 2 }) base; let t : Nat := 80000;
      let r : OpRef := { from_ := none, ring := 15, tag := 0xFFFF }; (∃ z ∈ (s.at t).claim t OP.CALIBRATE r, let o := z.2;
      o.stop = none ∧ let quads := (List.range 4).filter (bitOf (o.par 0 1)); quads[o.pos]? = none)) ∧
    (let s : State := one OP.COMPRESS (fun o => { o with length := 10, pos := 10, done_ := 10 }) base; let t : Nat := 80000;
      let r : OpRef := { from_ := none, ring := 15, tag := 0xFFFF }; (∃ z ∈ (s.at t).claim t OP.COMPRESS r, let v := z.1;
      let o := z.2; o.stop = none ∧ v.enabled P.CMP = true ∧ (∃ x ∈ v.takeLane o.id, o.length ≤ o.pos))) ∧
    (let s : State := one OP.COMPRESS (fun o => { o with length := 1000, param := parB [(0, 1, 2), (4, 4, 1000)] }) base;
      let t : Nat := 80000; let r : OpRef := { from_ := none, ring := 15, tag := 0xFFFF };
      (∃ z ∈ (s.at t).claim t OP.COMPRESS r, let v := z.1; let o := z.2; o.stop = none ∧ v.enabled P.CMP = true ∧
      (∃ x ∈ v.takeLane o.id, o.pos < o.length ∧ o.srcSpace = 0 ∧ o.dstSpace = 0 ∧ let bs : List Byte := cbytes 1;
      bs.length ≤ o.length - o.pos ∧ (∃ k ∈ readChunk bs, k.chunk.compressed = true ∧ o.done_ + k.raw.length ≤ o.par 4 4)))) ∧
    (let s : State := one OP.DECOMPRESS (fun o => { o with length := 10, pos := 10, lost := true }) base; let t : Nat := 80000;
      let r : OpRef := { from_ := none, ring := 15, tag := 0xFFFF }; (∃ z ∈ (s.at t).claim t OP.DECOMPRESS r, let v := z.1;
      let o := z.2; o.stop = none ∧ v.hasDcp o = true ∧ o.length ≤ o.pos)) ∧
    (let s : State := one OP.DECOMPRESS (fun o => { o with length := 1000, param := parB [(4, 4, 1000)] }) base; let t : Nat := 80000;
      let r : OpRef := { from_ := none, ring := 15, tag := 0xFFFF }; (∃ z ∈ (s.at t).claim t OP.DECOMPRESS r, let v := z.1;
      let o := z.2; o.stop = none ∧ v.hasDcp o = true ∧ o.pos < o.length ∧ o.srcSpace = 0 ∧ o.dstSpace = 0 ∧
      let bs : List Byte := cbytes 0; bs.length ≤ o.length - o.pos ∧ pocketGood (bs.take 8) = true ∧ 64 ≤ pocketLength bs ∧
      pocketLength bs = bs.length ∧ (∃ k ∈ readChunk bs, k.dataGood = true ∧ k.chunk.compressed = false ∧ k.raw ≠ [] ∧
      o.done_ + k.raw.length ≤ o.par 4 4))) ∧
    (let s : State := recMem false (one OP.OFFLOAD (fun o => { o with length := 5, src := 2 }) base); let t : Nat := 80000;
      let r : OpRef := { from_ := none, ring := 15, tag := 0xFFFF }; (∃ z ∈ (s.at t).claim t OP.OFFLOAD r, let v := z.1;
      let o := z.2; o.stop = none ∧ o.pos = 0 ∧ let h := v.dmRead (v.headerAt o.src) 256; headerValid h = false)) ∧
    (let s : State := recMem true (one OP.OFFLOAD (fun o => { o with length := 5, src := 2 }) base); let t : Nat := 80000;
      let r : OpRef := { from_ := none, ring := 15, tag := 0xFFFF }; (∃ z ∈ (s.at t).claim t OP.OFFLOAD r, let v := z.1;
      let o := z.2; o.stop = none ∧ o.pos = 0 ∧ let h := v.dmRead (v.headerAt o.src) 256; headerValid h = true ∧ s.isArmed = false ∧
      (∀ sid ∈ List.range (22), (s.stream sid).pathOp = none))) ∧
    (let s : State := recMem false (one OP.READ_RECORD (fun o => { o with length := 5000, src := 2, srcSpace := 2, param := parB [(0, 1, 16)] }) base);
      let t : Nat := 80000; let r : OpRef := { from_ := none, ring := 15, tag := 0xFFFF };
      (∃ z ∈ (s.at t).claim t OP.READ_RECORD r, let v := z.1; let o := z.2; o.stop = none ∧ bitOf (o.par 1 1) 0 = false ∧
      o.srcSpace = 2 ∧ o.blockSeq ≠ 0 ∧ let h := v.dmRead (v.headerAt o.src) 256; headerValid h = false)) ∧
    (let s : State := recMem true (one OP.READ_RECORD (fun o => { o with length := 5000, src := 2, srcSpace := 2, param := parB [(0, 1, 16)] }) base);
      let t : Nat := 80000; let r : OpRef := { from_ := none, ring := 15, tag := 0xFFFF };
      (∃ z ∈ (s.at t).claim t OP.READ_RECORD r, let v := z.1; let o := z.2; o.stop = none ∧ bitOf (o.par 1 1) 0 = false ∧
      o.srcSpace = 2 ∧ o.blockSeq ≠ 0 ∧ let h := v.dmRead (v.headerAt o.src) 256; headerValid h = true ∧
      (∃ e ∈ (v.recordChunks (o.par 0 1) h).find? (fun e => decide (o.pos ≤ e.chunk.seq)), 0 < e.chunk.length ∧
      o.done_ + e.chunk.length ≤ o.length))) ∧
    (let s : State := one OP.FORMAT id base; let t : Nat := 80000; let r : OpRef := { from_ := none, ring := 15, tag := 0xFFFF };
      (∃ z ∈ (s.at t).claim t OP.FORMAT r, let v := z.1; let o := z.2; o.stop = none ∧ o.pos = 0 ∧ s.isArmed = false ∧
      let id : Word := 0;
      v.runningOps.any (fun p => p.id != o.id && (p.opcode == OP.OFFLOAD || p.opcode == OP.READ_RECORD || p.opcode == OP.SCRUB)) = false)) ∧
    (let s : State := one OP.FORMAT (fun o => { o with pos := 4 }) base; let t : Nat := 80000;
      let r : OpRef := { from_ := none, ring := 15, tag := 0xFFFF }; (∃ z ∈ (s.at t).claim t OP.FORMAT r, let o := z.2;
      o.stop = none ∧ 4 ≤ o.pos)) ∧
    (let s : State := one OP.SCRUB (fun o => { o with param := parB [(0, 1, 1)] }) base; let t : Nat := 80000;
      let r : OpRef := { from_ := none, ring := 15, tag := 0xFFFF }; (∃ z ∈ (s.at t).claim t OP.SCRUB r, let v := z.1; let o := z.2;
      o.stop = none ∧ bitOf (o.par 0 1) 0 = true ∧ v.hasDcp o = true)) ∧
    (let s : State := one OP.SCRUB (fun o => { o with param := parB [(0, 1, 1)] }) base; let t : Nat := 80000;
      let r : OpRef := { from_ := none, ring := 15, tag := 0xFFFF }; (∃ z ∈ (s.at t).claim t OP.SCRUB r, let v := z.1; let o := z.2;
      o.stop = none ∧ bitOf (o.par 0 1) 0 = true ∧ v.hasDcp o = true ∧ let bs : List Byte := List.replicate 64 0;
      readChunk bs = none)) :=
  ⟨by decide +kernel, by decide +kernel, by decide +kernel, by decide +kernel, by decide +kernel, by decide +kernel, by decide +kernel, by decide +kernel, by decide +kernel, by decide +kernel, by decide +kernel, by decide +kernel, by decide +kernel, by decide +kernel, by decide +kernel, by decide +kernel, by decide +kernel⟩

/-- O49. -/
theorem witness_StoreWritesAndCommits :
    (let s : State := stored (some 9) 100000 5 [ext0 1 7 16 1 0 40] base; canonical s = true ∧ s.store.drives.length = 4 ∧
      ((∀ sid ∈ List.range (22), (s.thread (16 + sid)).stream = none)) ∧ s.storeReady = true ∧ s.poolUsed < 4096 ∧
      (∃ b ∈ s.nextBank, (∃ j ∈ s.jobOf (s.pathOpOf b.chunk.stream), j.full = false ∧ j.charge + b.chunk.blocks ≤ j.allot ∧
      (∃ e ∈ s.store.exts.find? (fun e => e.slot = j.slot ∧ e.record = j.record ∧ e.stream = b.chunk.stream ∧ e.state = 1 ∧
      e.used + b.chunk.blocks ≤ 65536), True)))) ∧
    (let s : State := stored none 5 5 [ext0 1 7 16 1 0 40] base; canonical s = true ∧ s.store.drives.length = 4 ∧
      ((∀ sid ∈ List.range (22), (s.thread (16 + sid)).stream = none)) ∧ s.storeReady = true ∧ s.poolUsed < 4096 ∧
      (∃ b ∈ s.nextBank, (∃ j ∈ s.jobOf (s.pathOpOf b.chunk.stream), j.full = false ∧ j.allot < j.charge + b.chunk.blocks))) ∧
    (let s : State := stored (some 9) 100000 5 [ext0 1 7 16 1 0 40] base; canonical s = true ∧ s.store.drives.length = 4 ∧
      let sid : Fin 22 := 16; let seq : Nat := 0; s.findWrite sid.val seq = none) ∧
    (let s : State := writing [wr 1 7 0 2 0 false] [ext0 1 7 16 1 0 40] 0 base; canonical s = true ∧ s.store.drives.length = 4 ∧
      let sid : Fin 22 := 16; let seq : Nat := 3; (∃ w ∈ s.findWrite sid.val seq, w.drive < 4 ∧ 1 < w.left)) ∧
    (let s : State := writing [wr 1 7 0 1 0 false] [ext0 1 7 16 1 0 40] 0 base; canonical s = true ∧ s.store.drives.length = 4 ∧
      let sid : Fin 22 := 16; let seq : Nat := 3; (∃ w ∈ s.findWrite sid.val seq, w.drive < 4 ∧ w.left ≤ 1)) ∧
    (let s : State := writing [wr 1 7 0 2 0 false] [ext0 1 7 16 1 0 40] 0 base; canonical s = true ∧ s.store.drives.length = 4 ∧
      let sid : Fin 22 := 16; let seq : Nat := 3; (∃ w ∈ s.findWrite sid.val seq, w.drive < 4 ∧ w.retried = false)) ∧
    (let s : State := writing [wr 1 7 0 1 0 true] [ext0 1 7 16 1 0 40] 0 base; canonical s = true ∧ s.store.drives.length = 4 ∧
      let sid : Fin 22 := 16; let seq : Nat := 3; (∃ w ∈ s.findWrite sid.val seq, w.drive < 4 ∧ w.retried = true ∧
      (∃ e ∈ s.store.exts, e.drive = w.drive ∧ e.no = w.ext))) ∧
    (let s : State := stored (some 9) 100000 5 [ext0 1 7 16 1 0 40] base; canonical s = true ∧ s.store.drives.length = 4 ∧
      s.storeReady = true) ∧
    (let s : State := writing [wr 1 7 0 0 2 false, wr 2 7 0 0 1 false] [ext0 1 7 16 1 0 40, ext0 2 7 16 1 0 40] 1 base;
      canonical s = true ∧ s.store.drives.length = 4 ∧ let d : Fin 4 := 0; (s.drive d.val).batch = 1) ∧
    (let s : State := stored (some 9) 100000 5 [ext0 1 7 16 1 0 40] base; canonical s = true ∧ s.store.drives.length = 4 ∧
      let d : Fin 4 := 0; (s.drive d.val).batch ≠ 1) ∧
    (let s : State := stored (some 9) 100000 5 [ext0 1 7 16 1 0 40] base; canonical s = true ∧ s.store.drives.length = 4 ∧
      let d : Fin 4 := 0; (s.drive d.val).batch ≠ 2) ∧
    (let s : State := writing [wr 1 7 0 0 2 false, wr 2 7 0 0 1 false] [ext0 1 7 16 1 0 40, ext0 2 7 16 1 0 40] 2 base;
      canonical s = true ∧ s.store.drives.length = 4 ∧ let d : Fin 4 := 1; (s.drive d.val).batch = 2 ∧
      (∃ w ∈ s.store.writes, w.drive = d.val ∧ w.phase = 2 ∧ ((∀ x ∈ s.store.writes, x.drive = d.val → x.ext = w.ext → x.phase = 2 →
      x.block = w.block → x = w)) ∧ (∃ e ∈ s.store.exts.filter (fun x => x.drive = d.val ∧
      x.no = w.ext), s.store.exts.filter (fun x => x.drive = d.val ∧ x.no = w.ext) = [e] ∧ w.block = e.fill))) ∧
    (let s : State := stored (some 9) 100000 5 [ext0 1 7 16 1 0 40] base; canonical s = true ∧ s.store.drives.length = 4 ∧
      let d : Fin 4 := 0; s.getB P.STO F.STO_DRIVE_STAT_PRESENT d = true ∧ s.getB P.STO F.STO_DRIVE_STAT_IN_STORE d = true ∧
      (s.drive d.val).lost = false) ∧
    (let s : State := tabbed false base; canonical s = true ∧ s.store.drives.length = 4 ∧
      (∃ w ∈ (s.store.tabs).head?, let rest := (s.store.tabs).tail; w.aDone = false ∧ 1 < s.tableCopies.length)) ∧
    (let s : State := tabbed true base; canonical s = true ∧ s.store.drives.length = 4 ∧
      (∃ w ∈ (s.store.tabs).head?, let rest := (s.store.tabs).tail; w.aDone = true)) :=
  ⟨by decide +kernel, by decide +kernel, by decide +kernel, by decide +kernel, by decide +kernel, by decide +kernel, by decide +kernel, by decide +kernel, by decide +kernel, by decide +kernel, by decide +kernel, by decide +kernel, by decide +kernel, by decide +kernel, by decide +kernel⟩

/-- O50. -/
theorem witness_StoreRecoveryFreeAndReset :
    (let s : State := withTable 2 base; canonical s = true ∧ let ims : List (Option DriveImage) := [none, none, none, none];
      ims.length = 4 ∧ s.powered = true ∧ s.store.jobs = []) ∧
    (let s : State := stored none 5 5 [ext0 1 7 16 1 0 40] base; canonical s = true ∧
      let ims : List (Option DriveImage) := [none, none, none, none]; ims.length = 4 ∧ (s.powered = false ∨ s.store.jobs ≠ [])) ∧
    (let s : State := withTable 2 base; canonical s = true ∧ let v : Word := 3; let slot := bits v.toNat 15 0;
      (∃ e ∈ s.store.table.find? (fun e => e.slot = slot), (e.state = 2 ∨ e.state = 3))) ∧
    (let s : State := withTable 1 base; canonical s = true ∧ let v : Word := 3; let slot := bits v.toNat 15 0;
      (∃ e ∈ s.store.table.find? (fun e => e.slot = slot), e.state = 1)) ∧
    (let s : State := withTable 2 base; canonical s = true ∧ let v : Word := 0xFFFF000F; let slot := bits v.toNat 15 0;
      s.store.table.find? (fun e => e.slot = slot) = none) ∧
    (let s : State := put (withTable 2 base) [(P.STO, F.STO_STAT_WRITING, 1, 0)]; canonical s = true ∧
      s.getB P.STO F.STO_STAT_WRITING = true) ∧
    (let s : State := withTable 2 base; canonical s = true ∧ s.getB P.STO F.STO_STAT_WRITING = false) ∧
    (let s : State := hostUp base; canonical s = true ∧ s.powered = true ∧ s.getB P.HIF F.HIF_LINK_STAT_UP = true) ∧
    (let s : State := offHost { base with run := .starting }; canonical s = true ∧ s.powered = true ∧
      s.getB P.HIF F.HIF_LINK_STAT_UP = true ∧ s.hostServed = false) ∧
    (let s : State := hostUp base; canonical s = true ∧ s.powered = true ∧ s.getB P.HIF F.HIF_LINK_STAT_UP = true ∧ s.hostServed = true) :=
  ⟨by decide +kernel, by decide +kernel, by decide +kernel, by decide +kernel, by decide +kernel, by decide +kernel, by decide +kernel, by decide +kernel, by decide +kernel, by decide +kernel⟩

/-- O51. -/
theorem witness_TimeAndEthernet :
    (let s : State := timed 1 2 (fun m => { m with nextSec := some 1000 }) base; canonical s = true ∧ let t : Nat := 0;
      s.getB (P.CKS 0) F.CKS_LOCK_STAT_ON_BYPASS = false ∧ s.use P.TIME F.TIME_CTL_SOURCE = 1 ∧ s.tm.lastEdge = none ∧
      (∃ sec ∈ s.tm.nextSec, True)) ∧
    (let s : State := timed 2 2 id base; canonical s = true ∧ let t : Nat := 0; s.getB (P.CKS 0) F.CKS_LOCK_STAT_ON_BYPASS = false ∧
      s.use P.TIME F.TIME_CTL_SOURCE = 2 ∧ let port : Fin 8 := 4; s.use P.TIME F.TIME_CTL_PTP_PORT = port.val ∧
      let domain : BitVec 8 := 0x55; s.use P.TIME F.TIME_CTL_DOMAIN = domain.toNat ∧ s.get P.HIF F.HIF_HOST_MODE_MODE ≠ 0) ∧
    (let s : State := timed 1 2 (fun m => { m with lastEdge := some 8 }) base; canonical s = true ∧ s.use P.TIME F.TIME_CTL_SOURCE = 1 ∧
      (∃ e ∈ s.tm.lastEdge, let t : Nat := 5000000000; e + usSlots 100 < t / 8 * 8 ∧ t / 8 * 8 + usSlots 100 < e + 16000000000)) ∧
    (let s : State := timed 1 2 (fun m => { m with nextSec := some 1000 }) base; canonical s = true ∧
      s.use P.TIME F.TIME_CTL_SOURCE = 1 ∧ let t : Nat := 31999999999; s.tm.lastEdge.getD 0 + 24000000000 ≤ t) ∧
    (let s : State := { ethSending 0 4 100 base with ethPause := List.replicate 8 (10 ^ 15) }; canonical s = true ∧
      s.use P.TIME F.TIME_CTL_SOURCE ≠ 1) ∧
    (let s : State := { ethSending 0 4 100 base with ethPause := List.replicate 8 (10 ^ 15) }; canonical s = true ∧
      let port : Fin 8 := 0; (∃ z ∈ (ethPorts s.hostMode).find? (fun e => e.1 == port.val), z.1 = port.val ∧ True)) ∧
    (let s : State := timed 0 0 id base; canonical s = true ∧ let port : Fin 8 := 0;
      (ethPorts s.hostMode).find? (fun e => e.1 == port.val) = none) ∧
    (let s : State := { ethSending 0 4 100 base with ethPause := List.replicate 8 (10 ^ 15) }; canonical s = true ∧
      let port : Fin 8 := 0; s.ethPort port.val = true ∧ s.ethPause.length = 8) ∧
    (let s : State := ethSending 0 4 100 base; canonical s = true ∧ s.eths.length = 4 ∧ let d : Fin 4 := 0;
      (∃ z ∈ ((s.eths.getD d { queue := [], dgrams := 0 }).queue).head?, z.2 = none ∧ 1500 ≤ s.use P.ETH F.ETH_CTL_MTU ∧
      let t : Nat := 0; (s.at t).ethReady d t = true)) ∧
    (let s : State := { ethSending 0 4 100 base with ethPause := List.replicate 8 (10 ^ 15) }; canonical s = true ∧ s.eths.length = 4 ∧
      let d : Fin 4 := 0; (∃ z ∈ ((s.eths.getD d { queue := [], dgrams := 0 }).queue).head?, z.2 = none ∧
      1500 ≤ s.use P.ETH F.ETH_CTL_MTU ∧ let t : Nat := 0; (s.at t).ethReady d t = false)) ∧
    (let s : State := { ethSending 0 4 100 base with ethPause := List.replicate 8 (10 ^ 15) }; canonical s = true) :=
  ⟨by decide +kernel, by decide +kernel, by decide +kernel, by decide +kernel, by decide +kernel, by decide +kernel, by decide +kernel, by decide +kernel, by decide +kernel, by decide +kernel, by decide +kernel⟩

/-- O52. -/
theorem witness_FlexPortsReceiveAndTrain :
    (let s : State := flex 0 2 false base; canonical s = true ∧ s.flxs.length = 3 ∧ s.enabled P.FLX = true ∧
      let state (v : State) (q : Port) : Nat := v.get P.FLX F.FLX_PORT_STAT_STATE q.idx; let p : Port := .east;
      let flit : List Byte := flit 1 0 true; flit.length = 256 ∧ 2 ≤ state s p ∧ let h := fieldAt flit 0 8;
      let good := crc32 (flit.take 252) == fieldAt flit 252 4; let next := bits h 59 48 = ((s.flx p).rx + 1) % 4096; good = true ∧
      bitOf h 35 = false ∧ next) ∧
    (let s : State := flex 0 2 false base; canonical s = true ∧ s.flxs.length = 3 ∧ s.enabled P.FLX = true ∧
      let state (v : State) (q : Port) : Nat := v.get P.FLX F.FLX_PORT_STAT_STATE q.idx; let p : Port := .west;
      let flit : List Byte := flit 1 0 false; flit.length = 256 ∧ 2 ≤ state s p ∧
      let good := crc32 (flit.take 252) == fieldAt flit 252 4; good = false ∧ (s.flx p).fails + 1 ≤ s.retryMax) ∧
    (let s : State := flex 0 2 false base; canonical s = true ∧ s.flxs.length = 3 ∧ s.enabled P.FLX = true ∧
      let state (v : State) (q : Port) : Nat := v.get P.FLX F.FLX_PORT_STAT_STATE q.idx; let p : Port := .east;
      let flit : List Byte := flit 1 0 false; flit.length = 256 ∧ 2 ≤ state s p ∧
      let good := crc32 (flit.take 252) == fieldAt flit 252 4; good = false ∧ s.retryMax < (s.flx p).fails + 1) ∧
    (let s : State := flex 0 2 false base; canonical s = true ∧ s.flxs.length = 3 ∧ s.enabled P.FLX = true ∧ let p : Port := .east;
      let flit : List Byte := []; flit.length ≠ 256) ∧
    (let s : State := flex 0 2 false base; canonical s = true ∧ s.flxs.length = 3 ∧ s.enabled P.FLX = true ∧
      let state (v : State) (q : Port) : Nat := v.get P.FLX F.FLX_PORT_STAT_STATE q.idx; let p : Port := .east; 2 ≤ state s p) ∧
    (let s : State := flex 2 1 true base; canonical s = true ∧ s.flxs.length = 3 ∧ s.enabled P.FLX = true ∧
      let state (v : State) (q : Port) : Nat := v.get P.FLX F.FLX_PORT_STAT_STATE q.idx; let p : Port := .east; state s p < 2) ∧
    (let s : State := flex 2 1 true base; canonical s = true ∧ s.flxs.length = 3 ∧ s.enabled P.FLX = true ∧
      let state (v : State) (q : Port) : Nat := v.get P.FLX F.FLX_PORT_STAT_STATE q.idx; let p : Port := .east; s.portOn p = true ∧
      s.portTested p = false ∧ state s p = 1) ∧
    (let s : State := flex 0 2 false base; canonical s = true ∧ s.flxs.length = 3 ∧ s.enabled P.FLX = true ∧
      let state (v : State) (q : Port) : Nat := v.get P.FLX F.FLX_PORT_STAT_STATE q.idx; let p : Port := .east; state s p ≠ 1) ∧
    (let s : State := flex 0 2 false base; canonical s = true ∧ s.flxs.length = 3 ∧ s.enabled P.FLX = true ∧ let p : Port := .east; True) :=
  ⟨by decide +kernel, by decide +kernel, by decide +kernel, by decide +kernel, by decide +kernel, by decide +kernel, by decide +kernel, by decide +kernel, by decide +kernel⟩

/-- O53. -/
theorem witness_EnumerationRuns :
    (let s : State := enumCmd (cascade true 0 0 0 3 base); canonical s = true ∧ s.enabled P.CAS = true ∧ s.started = true ∧
      let k : Token := waveTok RK.ENUM 0 1; let t : Nat := 0; let r : OpRef := { from_ := none, ring := 15, tag := 0xFFFF };
      (∃ z ∈ (s.at t).claim t OP.ENUMERATE r, s.cas.op = none ∧ let others : Bool := true; (s.isArmed = true ∨ others = true ∨
      s.cas.step ≠ 0))) ∧
    (let s : State := enumCmd (cascade true 0 0 0 3 base); canonical s = true ∧ s.enabled P.CAS = true ∧ s.started = true ∧
      let k : Token := waveTok RK.ENUM 0 1; let t : Nat := 0; let r : OpRef := { from_ := none, ring := 15, tag := 0xFFFF };
      (∃ z ∈ (s.at t).claim t OP.ENUMERATE r, s.cas.op = none ∧ s.isArmed = false ∧ let others : Bool := false; others = false ∧
      s.cas.step = 0 ∧ s.waveLink .east = true)) ∧
    (let s : State := enumCmd (cascade true 0 0 0 4 base); canonical s = true ∧ s.enabled P.CAS = true ∧ s.started = true ∧
      let k : Token := waveTok RK.ENUM 0 1; let t : Nat := 0; let r : OpRef := { from_ := none, ring := 15, tag := 0xFFFF };
      (∃ z ∈ (s.at t).claim t OP.ENUMERATE r, s.cas.op = none ∧ s.isArmed = false ∧ let others : Bool := false; others = false ∧
      s.cas.step = 0 ∧ s.waveLink .east = false ∧ s.waveLink .west = false)) ∧
    (let s : State := cascade false 0 0 0 3 base; canonical s = true ∧ s.enabled P.CAS = true ∧ s.started = true ∧
      let k : Token := waveTok RK.ENUM 0 1; let w := k.wave; k.type = TK.REG ∧ k.regKind = RK.ENUM ∧ s.rootStrap = false ∧ w.next ≠ 0) ∧
    (let s : State := enumCmd (cascade true 0 0 0 3 base); canonical s = true ∧ s.enabled P.CAS = true ∧ s.started = true ∧
      let k : Token := waveTok RK.ENUM 0 1; k.type = TK.REG ∧ k.regKind = RK.ENUM ∧ s.rootStrap = true ∧ let port : Port := .east;
      port ≠ .twin ∧ s.cas.step ≠ 1) ∧
    (let s : State := cascade false 2 4 2 3 base; canonical s = true ∧ s.enabled P.CAS = true ∧ s.started = true ∧
      let k : Token := waveTok RK.VERIFY 0 (3 + 256 * 2); let w := k.wave; k.type = TK.REG ∧ k.regKind = RK.VERIFY ∧
      s.rootStrap = false ∧ let holds := (s.casAddr ≠ 0 ∧ s.casAddr ≤ w.east); holds ∧ s.waveLink .west = true) ∧
    (let s : State := cascade false 0 0 0 3 base; canonical s = true ∧ s.enabled P.CAS = true ∧ s.started = true ∧
      let k : Token := waveTok RK.VERIFY 0 (3 + 256 * 2); let w := k.wave; k.type = TK.REG ∧ k.regKind = RK.VERIFY ∧
      s.rootStrap = false ∧ let holds := (s.casAddr ≠ 0 ∧ s.casAddr ≤ w.east); ¬ holds ∧ w.east < w.next) ∧
    (let s : State := stepAt 2 (cascade true 0 0 0 3 base); canonical s = true ∧ s.enabled P.CAS = true ∧ s.started = true ∧
      let k : Token := waveTok RK.VERIFY 0 (3 + 256 * 2); let whole := (s.cas.step = 2 ∧ s.cas.closed = false ∧ s.cas.expect = 0 ∧
      s.get P.CAS F.CAS_ENUM_STAT_EAST_COUNT < 64); k.type = TK.REG ∧ s.rootStrap = true ∧ k.regKind = RK.VERIFY ∧ whole) ∧
    (let s : State := stepAt 2 (cascade true 0 0 0 3 base); canonical s = true ∧ s.enabled P.CAS = true ∧ s.started = true ∧
      let k : Token := waveTok RK.END 0 (2 + 256 * 1 + 65536 * 2); let w := k.wave; let whole := (s.cas.step = 2 ∧
      s.cas.closed = false ∧ s.cas.expect = 0 ∧ s.get P.CAS F.CAS_ENUM_STAT_EAST_COUNT < 64); k.type = TK.REG ∧ s.rootStrap = true ∧
      k.regKind = RK.END ∧ w.conflict = false ∧ w.tooMany = false ∧ whole) ∧
    (let s : State := stepAt 1 (enumCmd (cascade true 0 0 0 3 base)); canonical s = true ∧ s.enabled P.CAS = true ∧ s.started = true ∧
      let k : Token := waveTok RK.END 0 (2 + 256 * 1 + 65536 * 2); let w := k.wave; k.type = TK.REG ∧ s.rootStrap = true ∧
      k.regKind = RK.END ∧ w.conflict = false ∧ w.tooMany = false ∧ s.cas.step = 1 ∧ s.waveLink .west = true) ∧
    (let s : State := stepAt 1 (enumCmd (cascade true 0 0 0 3 base)); canonical s = true ∧ s.enabled P.CAS = true ∧ s.started = true ∧
      let k : Token := waveTok RK.END 0 (2 ^ 24 + 5); let w := k.wave; k.type = TK.REG ∧ s.rootStrap = true ∧ k.regKind = RK.END ∧
      w.conflict = true ∧ let port : Port := .east; port ≠ .twin ∧ (s.cas.step = 1 ∨ s.cas.step = 2)) ∧
    (let s : State := cascade false 0 0 0 3 base; canonical s = true ∧ s.enabled P.CAS = true ∧ s.started = true ∧
      let k : Token := waveTok RK.READY 0 (3 + 256); k.type = TK.REG ∧ k.regKind = RK.READY ∧ let port : Port := .east;
      port ≠ .twin ∧ s.rootStrap = false) ∧
    (let s : State := { stepAt 4 (enumCmd (cascade true 1 3 0 3 base)) with cas := { CasState.empty with step := 4, op := some 9, since := 100 } };
      canonical s = true ∧ s.enabled P.CAS = true ∧ s.started = true ∧ let k : Token := waveTok RK.ENUM 0 1; s.cas.step = 4 ∧
      let t : Nat := 0; let ran : Bool := true; (ran = true ∨ s.cas.since + msSlots 100 ≤ t)) ∧
    (let s : State := enumCmd (cascade true 0 0 0 3 base); canonical s = true ∧ s.enabled P.CAS = true ∧ s.started = true ∧
      let k : Token := waveTok RK.ENUM 0 1; s.cas.step ≠ 4) ∧
    (let s : State := cascade false 2 4 2 3 base; canonical s = true ∧ s.enabled P.CAS = true ∧ s.started = true ∧
      let k : Token := waveTok RK.LINK_LOSS 1 0; k.type = TK.REG ∧ k.regKind = RK.LINK_LOSS ∧ let port : Port := .east;
      port ≠ .twin ∧ s.tokenFor port k = true) ∧
    (let s : State := heardFrom 3 100 base; canonical s = true ∧ s.enabled P.CAS = true ∧ s.started = true ∧
      let k : Token := waveTok RK.ENUM 0 1; s.role ≠ C.SOLO ∧ let m : Fin 64 := 3; m.val ≠ s.casAddr ∧
      bitOf s.reachMask m.val = true ∧ (∃ x ∈ s.cas.heard.lookup m.val, let due := x + usSlots (s.use P.CAS F.CAS_CTL_REACH_US);
      let t : Nat := 160100; due ≤ t)) ∧
    (let s : State := heardFrom 3 100 base; canonical s = true ∧ s.enabled P.CAS = true ∧ s.started = true ∧
      let k : Token := waveTok RK.ENUM 0 1; s.role ≠ C.SOLO ∧ let m : Fin 64 := 3; m.val ≠ s.casAddr ∧
      bitOf s.reachMask m.val = true ∧ (∃ x ∈ s.cas.heard.lookup m.val, let due := x + usSlots (s.use P.CAS F.CAS_CTL_REACH_US);
      let t : Nat := 0; t < due)) :=
  ⟨by decide +kernel, by decide +kernel, by decide +kernel, by decide +kernel, by decide +kernel, by decide +kernel, by decide +kernel, by decide +kernel, by decide +kernel, by decide +kernel, by decide +kernel, by decide +kernel, by decide +kernel, by decide +kernel, by decide +kernel, by decide +kernel, by decide +kernel⟩

/-- O54. -/
theorem witness_RingTokensAndForwarding :
    (let s : State := withRemote (ringModule false 2 7 (nowArmed base)); canonical s = true ∧ let p : Port := .east; p ≠ .twin ∧
      let k : Token := armTok 0 100; let w := k.w0.toNat; let t : Nat := 3200; let v := (s.at t).ringToken t p k;
      s.tokenFor p k = true ∧ k.type = TK.ARM ∧ bits w 31 30 = 0 ∧ s.role = C.MEMBER ∧ s.started = true ∧ s.isArmed = false ∧
      s.acq.armAt = none ∧ v.armCheck = none) ∧
    (let s : State := ringModule false 2 7 (notArmed base); canonical s = true ∧ let p : Port := .east; p ≠ .twin ∧
      let k : Token := armTok 0 100; let w := k.w0.toNat; let t : Nat := 3200; let v := (s.at t).ringToken t p k;
      s.tokenFor p k = true ∧ k.type = TK.ARM ∧ bits w 31 30 = 0 ∧ s.role = C.MEMBER ∧ s.started = true ∧ s.isArmed = false ∧
      s.acq.armAt = none ∧ (∃ z ∈ v.armCheck, True)) ∧
    (let s : State := put (ringModule false 2 7 (nowArmed base)) [(P.ACQ, F.ACQ_STAT_ARMED, 1, 0)]; canonical s = true ∧
      let p : Port := .east; p ≠ .twin ∧ let k : Token := armTok 0 100; let w := k.w0.toNat; let t : Nat := 3200;
      s.tokenFor p k = true ∧ k.type = TK.ARM ∧ bits w 31 30 = 0 ∧ s.role = C.MEMBER ∧ s.started = true ∧ s.isArmed = true) ∧
    (let s : State := ringModule true 0 7 (nowArmed base); canonical s = true ∧ let p : Port := .east; p ≠ .twin ∧
      let k : Token := tok TK.ARM 3 0 true (2 ^ 30 + 0x50000) 0 0 0; let w := k.w0.toNat; let t : Nat := 3200;
      s.tokenFor p k = true ∧ k.type = TK.ARM ∧ bits w 31 30 = 1 ∧ s.role = C.ROOT) ∧
    (let s : State := put (ringModule false 2 7 (nowArmed base)) [(P.ACQ, F.ACQ_STAT_ARMED, 1, 0)]; canonical s = true ∧
      let p : Port := .east; p ≠ .twin ∧ let k : Token := tok TK.STOP 0 0 true 0 3264 0 0; let t : Nat := 3200;
      s.tokenFor p k = true ∧ k.type = TK.STOP ∧ s.isArmed = true ∧ s.acq.stopPly = none) ∧
    (let s : State := withRemote (ringModule false 2 7 (nowArmed base)); canonical s = true ∧ let p : Port := .east; p ≠ .twin ∧
      let k : Token := tok TK.FIRE 1 0 true 0x80000005 3200 7 (2 ^ 20); let t : Nat := 3200; s.tokenFor p k = true ∧ k.type = TK.FIRE) ∧
    (let s : State := withRemote (ringModule false 2 7 (nowArmed base)); canonical s = true ∧ let p : Port := .east; p ≠ .twin ∧
      let k : Token := tok TK.RETRACT 1 0 true 0x105 0 0 0; let t : Nat := 3200; s.tokenFor p k = true ∧ k.type = TK.RETRACT) ∧
    (let s : State := withRemote (ringModule false 2 7 (nowArmed base)); canonical s = true ∧ let p : Port := .east; p ≠ .twin ∧
      let k : Token := tok TK.TIME 1 0 true 0 640064 0 0; let w := k.w0.toNat; let t : Nat := 3200; s.tokenFor p k = true ∧
      k.type = TK.TIME ∧ bits w 31 30 = 0) ∧
    (let s : State := withRemote (ringModule false 2 7 (nowArmed base)); canonical s = true ∧ let p : Port := .east; p ≠ .twin ∧
      let k : Token := tok TK.REG 1 2 false (RK.READ * 2 ^ 28 + 0x8) 0 0 0; let t : Nat := 3200; let v := (s.at t).ringToken t p k;
      s.tokenFor p k = true ∧ k.type = TK.REG ∧ k.regKind = RK.READ ∧ v.portUp .east = true ∧ v.broken = false) ∧
    (let s : State := fuzzRing (ringModule false 2 7 (notArmed (armable base))); canonical s = true ∧ let p : Port := .east; p ≠ .twin ∧
      let k : Token := tok TK.REG 1 2 false (RK.RESP * 2 ^ 28 + 8) 0x1234 0 0; let w := k.w0.toNat; let t : Nat := 3200;
      s.tokenFor p k = true ∧ k.type = TK.REG ∧ k.regKind = RK.RESP ∧
      (∃ a ∈ s.cas.rwin.find? (fun a => a.dest == k.origin && a.off == bits w 19 0 / 4 * 4), True)) ∧
    (let s : State := withRemote (ringModule false 2 7 (nowArmed base)); canonical s = true ∧ let p : Port := .east; p ≠ .twin ∧
      let k : Token := armTok 0 100; let t : Nat := 6400000; s.role ≠ C.SOLO ∧ s.enabled P.CAS = true ∧ s.portUp .east = true ∧
      s.broken = false ∧ t / 32 % 64 = 0) ∧
    (let s : State := withRemote (ringModule false 2 7 (nowArmed base)); canonical s = true ∧ let p : Port := .east; p ≠ .twin ∧
      let k : Token := armTok 0 100; let t : Nat := 3200; t / 32 % 64 ≠ 0) ∧
    (let s : State := withRemote (ringModule false 2 7 (nowArmed base)); canonical s = true ∧ let p : Port := .east; p ≠ .twin ∧
      let k : Token := tok TK.TIME 1 0 true (2 ^ 30) 640064 0 0; let w := k.w0.toNat; let t : Nat := 3200; k.type = TK.TIME ∧
      bits w 31 30 = 1 ∧ s.waveLink p = true) ∧
    (let s : State := fuzzRing (ringModule false 2 7 (notArmed (armable base))); canonical s = true ∧
      let k : Token := tok TK.TIME 1 0 true (2 ^ 31) 640064 700000 710000; let w := k.w0.toNat; let t : Nat := 3200;
      let p : Port := .east; k.type = TK.TIME ∧ bits w 31 30 = 2 ∧ p ∈ s.cas.probing ∧ p ≠ .twin ∧ s.cas.sums.length = 3) ∧
    (let s : State := withRemote (ringModule false 2 7 (nowArmed base)); canonical s = true ∧ let p : Port := .east; p ≠ .twin ∧
      let k : Token := armTok 0 100; let t : Nat := 3200; True) ∧
    (let s : State := withRemote (ringModule false 2 7 (nowArmed base)); canonical s = true ∧ let p : Port := .east; p ≠ .twin ∧
      let k : Token := armTok 0 100; let t : Nat := 3200; s.rootStrap = false ∧ s.casAddr ≠ 0 ∧
      s.getB P.CAS F.CAS_STAT_ALIGNED = false) ∧
    (let s : State := put (ringModule false 2 7 base) [(P.CAS, F.CAS_STAT_ALIGNED, 1, 0), (P.CAS, F.CAS_ALIGN_CFG_VERIFY_MS, 4, 0), (P.CAS, F.CAS_ALIGN_CFG_DEV_TOL, 3, 0)];
      canonical s = true ∧ let p : Port := .east; p ≠ .twin ∧ let k : Token := armTok 0 100; let t : Nat := 3200;
      s.use P.CAS F.CAS_ALIGN_CFG_VERIFY_MS ≠ 0 ∧ s.portUp .west = true ∧ s.getB P.CAS F.CAS_STAT_ALIGNED = true ∧ s.role ≠ C.SOLO) ∧
    (let s : State := withRemote (ringModule false 2 7 (nowArmed base)); canonical s = true ∧ let p : Port := .east; p ≠ .twin ∧
      let k : Token := armTok 0 100; let t : Nat := 3200; s.role ≠ C.SOLO ∧ s.enabled P.CAS = true ∧
      let ws : List Word64 := [0x10, 0, 5, 0, 0, 0, 0, 0]; ws.length = 8 ∧ let dst : BitVec 6 := 0; dst.toNat ≠ s.casAddr ∧
      let src : BitVec 6 := 0; src.toNat ≠ s.casAddr ∧ let on := if s.broken then p.onward else .east; s.portUp on = true) ∧
    (let s : State := withRemote (ringModule false 2 7 (nowArmed base)); canonical s = true ∧ let p : Port := .east; p ≠ .twin ∧
      let k : Token := armTok 0 100; let t : Nat := 3200; s.role ≠ C.SOLO ∧ s.enabled P.CAS = true ∧
      let ws : List Word64 := [0x10, 0, 5, 0, 0, 0, 0, 0]; ws.length = 8 ∧ let dst : BitVec 6 := 2; dst.toNat = s.casAddr ∧
      s.poolUsed < 4096) ∧
    (let s : State := sentCmd 1 (ringModule false 2 7 base); canonical s = true ∧ let p : Port := .east; p ≠ .twin ∧
      let k : Token := armTok 0 100; let t : Nat := 3200; s.role ≠ C.SOLO ∧ s.enabled P.CAS = true ∧
      let ws : List Word64 := [0x20000, 7]; ws.length = 2 ∧ let dst : BitVec 6 := 2; dst.toNat = s.casAddr ∧ let src : BitVec 6 := 1;
      let ring : Fin 16 := 15; let tag : BitVec 16 := 0x1234;
      (∃ o ∈ s.host.ops.find? (fun o => o.from_.isNone && o.ring == ring.val && o.tag == tag.toNat && o.target == src.toNat && !o.ended), True)) ∧
    (let s : State := withRemote (ringModule false 2 7 (nowArmed base)); canonical s = true ∧ let p : Port := .east; p ≠ .twin ∧
      let k : Token := armTok 0 100; let t : Nat := 3200; s.role ≠ C.SOLO ∧ s.enabled P.CAS = true ∧ let ws : List Word64 := [];
      ws.length ≠ 8) :=
  ⟨by decide +kernel, by decide +kernel, by decide +kernel, by decide +kernel, by decide +kernel, by decide +kernel, by decide +kernel, by decide +kernel, by decide +kernel, by decide +kernel, by decide +kernel, by decide +kernel, by decide +kernel, by decide +kernel, by decide +kernel, by decide +kernel, by decide +kernel, by decide +kernel, by decide +kernel, by decide +kernel, by decide +kernel⟩

/-- O55. -/
theorem witness_TwinPairsAndSpans :
    (let s : State := twinned T.PAIRING true true id base; canonical s = true ∧ s.enabled P.TWN = true ∧
      let k : Token := seamTok 3 5 0 0 0; k.type = TK.SEAM ∧ k.seamKind = 3 ∧ s.useB P.TWN F.TWN_CTL_EN = true ∧
      s.twinState = T.PAIRING ∧ s.twin.sent = true) ∧
    (let s : State := twinned T.PAIRED true true id base; canonical s = true ∧ s.enabled P.TWN = true ∧
      let k : Token := seamTok 3 5 0 0 0; k.type = TK.SEAM ∧ k.seamKind = 3 ∧ s.useB P.TWN F.TWN_CTL_EN = true ∧
      s.twinState ∈ [T.PAIRED, T.DUPLEX, T.ALONE]) ∧
    (let s : State := twinned T.PAIRING false true (fun w => { w with since := 100 }) base; canonical s = true ∧ s.enabled P.TWN = true ∧
      let k : Token := seamTok 3 5 0 0 0; s.twinState = T.PAIRING ∧ s.portUp .twin = false ∧ let t : Nat := 16000000100;
      s.twin.since + msSlots 1000 ≤ t) ∧
    (let s : State := twinned T.PAIRING true true id base; canonical s = true ∧ s.enabled P.TWN = true ∧
      let k : Token := seamTok 3 5 0 0 0; s.portUp .twin = true) ∧
    (let s : State := twinned T.PAIRING true true id base; canonical s = true ∧ s.enabled P.TWN = true ∧
      let k : Token := seamTok 3 5 0 0 0; let len := 2 ^ s.use P.TWN F.TWN_CTL_SEAM_EXP; let t : Nat := 0;
      let finish := s.aligned t / 8 / len * len; finish ≤ s.twin.lastEnd) ∧
    (let s : State := twinned T.PAIRING true true id base; canonical s = true ∧ s.enabled P.TWN = true ∧
      let k : Token := seamTok 3 5 0 0 0; let len := 2 ^ s.use P.TWN F.TWN_CTL_SEAM_EXP; let t : Nat := 8192;
      let finish := s.aligned t / 8 / len * len; s.twin.lastEnd < finish) ∧
    (let s : State := twinned T.DUPLEX true false id base; canonical s = true ∧ s.enabled P.TWN = true ∧
      let k : Token := seamTok 0 (8 * 2 ^ 16) (5 * 2 ^ 32 + 7) 3 (2048 * 8); let w := k.w0.toNat; let t : Nat := 0;
      let finish := unwrapNear (2 ^ 51) ((s.at t).aligned (s.at t).now) (bits k.w3.toNat 50 0) / 8;
      let y : SeamSum := { stream := bits w 20 16, finish := finish, a := k.w1.toNat / 2 ^ 32, b := k.w1.toNat % 2 ^ 32, c := sx 64 k.w2.toNat, skip := bitOf w 24 };
      k.type = TK.SEAM ∧ k.seamKind = 0 ∧ s.twinState = T.DUPLEX ∧ y.stream < 18 ∧
      bitOf (s.use P.TWN F.TWN_CTL_SEAMED) y.stream = true ∧ s.twin.lastEnd < finish) ∧
    (let s : State := seamed 2048 [{ stream := 8, finish := 2048, a := 5, b := 7, c := 3, skip := false }] base; canonical s = true ∧
      s.enabled P.TWN = true ∧ let k : Token := seamTok 0 (8 * 2 ^ 16 + 2 ^ 24) (5 * 2 ^ 32 + 7) 3 (2048 * 8); let w := k.w0.toNat;
      let t : Nat := 0; let finish := unwrapNear (2 ^ 51) ((s.at t).aligned (s.at t).now) (bits k.w3.toNat 50 0) / 8;
      let y : SeamSum := { stream := bits w 20 16, finish := finish, a := k.w1.toNat / 2 ^ 32, b := k.w1.toNat % 2 ^ 32, c := sx 64 k.w2.toNat, skip := bitOf w 24 };
      let x := s.ownSum y.stream finish; k.type = TK.SEAM ∧ k.seamKind = 0 ∧ s.twinState = T.DUPLEX ∧ y.stream < 18 ∧
      bitOf (s.use P.TWN F.TWN_CTL_SEAMED) y.stream = true ∧ finish ≤ s.twin.lastEnd ∧ s.ownFaults = false ∧
      (x.skip || y.skip) = true) ∧
    (let s : State := seamed 2048 [{ stream := 8, finish := 2048, a := 5, b := 7, c := 3, skip := false }] base; canonical s = true ∧
      s.enabled P.TWN = true ∧ let k : Token := seamTok 0 (8 * 2 ^ 16) (5 * 2 ^ 32 + 7) 3 (2048 * 8); let w := k.w0.toNat;
      let t : Nat := 0; let finish := unwrapNear (2 ^ 51) ((s.at t).aligned (s.at t).now) (bits k.w3.toNat 50 0) / 8;
      let y : SeamSum := { stream := bits w 20 16, finish := finish, a := k.w1.toNat / 2 ^ 32, b := k.w1.toNat % 2 ^ 32, c := sx 64 k.w2.toNat, skip := bitOf w 24 };
      let x := s.ownSum y.stream finish; k.type = TK.SEAM ∧ k.seamKind = 0 ∧ s.twinState = T.DUPLEX ∧ y.stream < 18 ∧
      bitOf (s.use P.TWN F.TWN_CTL_SEAMED) y.stream = true ∧ finish ≤ s.twin.lastEnd ∧ s.ownFaults = false ∧ x.skip = false ∧
      y.skip = false ∧ s.seamAgrees x y = true) ∧
    (let s : State := twinned T.DUPLEX true false id base; canonical s = true ∧ s.enabled P.TWN = true ∧
      let k : Token := seamTok 1 (3 * 2 ^ 16 + 5 * 256) 3264 0 0; let w := k.w0.toNat; let i := bits w 19 16; let t : Nat := 0;
      let named := (s.at t).slotOf51 (bits k.w1.toNat 50 0); k.type = TK.SEAM ∧ k.seamKind = 1 ∧ s.secondary = true ∧ i < 10 ∧
      s.acq.thin.length = 10 ∧ t < named) ∧
    (let s : State := twinned T.DUPLEX true false id base; canonical s = true ∧ s.enabled P.TWN = true ∧
      let k : Token := seamTok 1 (3 * 2 ^ 16 + 5 * 256) 3264 0 0; let w := k.w0.toNat; let i := bits w 19 16; let t : Nat := 8192;
      let named := (s.at t).slotOf51 (bits k.w1.toNat 50 0); k.type = TK.SEAM ∧ k.seamKind = 1 ∧ s.secondary = true ∧ i < 10 ∧
      s.acq.thin.length = 10 ∧ named ≤ t) ∧
    (let s : State := twinned T.PAIRING true true id base; canonical s = true ∧ s.enabled P.TWN = true ∧
      let k : Token := seamTok 2 0 0 0 0; k.type = TK.SEAM ∧ k.seamKind = 2 ∧ s.twinState ≠ T.OFF) ∧
    (let s : State := twinned T.PAIRED true true id base; canonical s = true ∧ s.enabled P.TWN = true ∧
      let k : Token := seamTok 3 5 0 0 0; s.paired = true) ∧
    (let s : State := twinned T.PAIRING true true id base; canonical s = true ∧ s.enabled P.TWN = true ∧
      let k : Token := seamTok 3 5 0 0 0; s.paired = false) ∧
    (let s : State := twinned T.PAIRING true true id base; canonical s = true ∧ s.enabled P.TWN = true ∧
      let k : Token := seamTok 5 0 0 0 0; k.type = TK.SEAM ∧ k.seamKind = 5) ∧
    (let s : State := resyncing (put (twinned T.ALONE true true id base) [(P.TWN, F.TWN_CTL_MODE, 0, 0)]); canonical s = true ∧
      s.enabled P.TWN = true ∧ let k : Token := seamTok 3 5 0 0 0; let t : Nat := 0;
      let r : OpRef := { from_ := none, ring := 15, tag := 0xFFFF }; (∃ z ∈ (s.at t).claim t OP.RESYNC r, s.twin.resync = none ∧
      let on := s.useB P.TWN F.TWN_CTL_EN && s.useB P.TWN F.TWN_CTL_MODE; on = false)) ∧
    (let s : State := resyncing (twinned T.ALONE false true id base); canonical s = true ∧ s.enabled P.TWN = true ∧
      let k : Token := seamTok 3 5 0 0 0; let t : Nat := 0; let r : OpRef := { from_ := none, ring := 15, tag := 0xFFFF };
      (∃ z ∈ (s.at t).claim t OP.RESYNC r, s.twin.resync = none ∧ let on := s.useB P.TWN F.TWN_CTL_EN && s.useB P.TWN F.TWN_CTL_MODE;
      on = true ∧ (s.portUp .twin = false ∨ s.run = .safe ∨ s.twin.partnerSafe = true))) ∧
    (let s : State := resyncing (twinned T.DUPLEX true true id base); canonical s = true ∧ s.enabled P.TWN = true ∧
      let k : Token := seamTok 3 5 0 0 0; let t : Nat := 0; let r : OpRef := { from_ := none, ring := 15, tag := 0xFFFF };
      (∃ z ∈ (s.at t).claim t OP.RESYNC r, s.twin.resync = none ∧ let on := s.useB P.TWN F.TWN_CTL_EN && s.useB P.TWN F.TWN_CTL_MODE;
      on = true ∧ s.portUp .twin = true ∧ s.run ≠ .safe ∧ s.twin.partnerSafe = false ∧ s.twinState = T.DUPLEX)) ∧
    (let s : State := resyncing (twinned T.ALONE true true id base); canonical s = true ∧ s.enabled P.TWN = true ∧
      let k : Token := seamTok 3 5 0 0 0; let t : Nat := 0; let r : OpRef := { from_ := none, ring := 15, tag := 0xFFFF };
      (∃ z ∈ (s.at t).claim t OP.RESYNC r, s.twin.resync = none ∧ let on := s.useB P.TWN F.TWN_CTL_EN && s.useB P.TWN F.TWN_CTL_MODE;
      on = true ∧ s.portUp .twin = true ∧ s.run ≠ .safe ∧ s.twin.partnerSafe = false ∧ s.twinState ≠ T.DUPLEX ∧ s.twin.kept = none)) :=
  ⟨by decide +kernel, by decide +kernel, by decide +kernel, by decide +kernel, by decide +kernel, by decide +kernel, by decide +kernel, by decide +kernel, by decide +kernel, by decide +kernel, by decide +kernel, by decide +kernel, by decide +kernel, by decide +kernel, by decide +kernel, by decide +kernel, by decide +kernel, by decide +kernel, by decide +kernel⟩

/-- O56. -/
theorem witness_PowerSequenceAndMonitors :
    (let s : State := standing 0 State.reset; canonical s = true) ∧
    (let s : State := standing 0 State.reset; canonical s = true ∧ s.power.stby = true ∧ s.power.inReset = false ∧ s.run = .standby ∧
      s.power.rails = 0) ∧
    (let s : State := pw (fun p => { p with inReset := true }) (standing 0 State.reset); canonical s = true ∧ (s.power.stby = false ∨
      s.power.inReset = true)) ∧
    (let s : State := standing 1 base; canonical s = true ∧ 1 ≤ s.power.rails ∧ s.power.rails ≤ 5 ∧ let t : Nat := 0;
      t ≤ s.power.railAt + railLimit) ∧
    (let s : State := standing 1 base; canonical s = true ∧ 1 ≤ s.power.rails ∧ s.power.rails ≤ 5 ∧ let t : Nat := 90000000;
      s.power.railAt + railLimit ≤ t) ∧
    (let s : State := standing 1 base; canonical s = true ∧ 1 ≤ s.power.rails ∧ s.power.rails ≤ 5 ∧ let t : Nat := 0;
      t < s.power.railAt + railLimit) ∧
    (let s : State := standing 0 State.reset; canonical s = true ∧ let mv : Nat := 0; mv < 8000) ∧
    (let s : State := standing 0 State.reset; canonical s = true ∧ let mv : Nat := 32500; 8000 ≤ mv) ∧
    (let s : State := standing 0 State.reset; canonical s = true ∧ let mv : Nat := 0; mv < 2900) ∧
    (let s : State := standing 0 State.reset; canonical s = true ∧ let mv : Nat := 32500; 2900 ≤ mv) ∧
    (let s : State := capped 0 base; canonical s = true ∧ s.powered = true ∧ let n : Fin 6 := 0; let v : Nat := 0; railInside n v = false) ∧
    (let s : State := capped 0 base; canonical s = true ∧ s.powered = true ∧ let n : Fin 6 := 0; let v : Nat := 7500;
      railInside n v = true) ∧
    (let s : State := capped 0 base; canonical s = true ∧ s.powered = true ∧ let mv : Nat := 0; mv < 2 ^ 16 ∧ mv < 10800) ∧
    (let s : State := capped 0 base; canonical s = true ∧ s.powered = true ∧ let mv : Nat := 8000; mv < 2 ^ 16 ∧ 8000 ≤ mv ∧ mv < 9000) ∧
    (let s : State := capped 0 base; canonical s = true ∧ s.powered = true ∧ let mv : Nat := 32500; mv < 2 ^ 16 ∧ 9000 ≤ mv) ∧
    (let s : State := capped 0 base; canonical s = true ∧ s.powered = true ∧ s.useB P.PWR F.PWR_SAG_CFG_EN = true ∧ let mv : Nat := 0;
      let vin : Nat := 0; (mv + s.use P.PWR F.PWR_SAG_CFG_LVL < 800 ∨ vin < s.use P.PWR F.PWR_VIN_CFG_VIN_SAG)) ∧
    (let s : State := capped 0 base; canonical s = true ∧ s.powered = true ∧ s.useB P.PWR F.PWR_SAG_CFG_EN = true ∧
      let mv : Nat := 32500; 800 ≤ mv + s.use P.PWR F.PWR_SAG_CFG_LVL ∧ let vin : Nat := 32500;
      s.use P.PWR F.PWR_VIN_CFG_VIN_SAG ≤ vin) ∧
    (let s : State := sagged base; canonical s = true ∧
      (∃ f ∈ s.power.heldFrom, let due := f + usSlots (s.use P.PWR F.PWR_SAG_CFG_HOLD_US); let t : Nat := 32500; due ≤ t)) ∧
    (let s : State := sagged base; canonical s = true ∧
      (∃ f ∈ s.power.heldFrom, let due := f + usSlots (s.use P.PWR F.PWR_SAG_CFG_HOLD_US); let t : Nat := 0; t < due)) ∧
    (let s : State := capped 0 base; canonical s = true ∧ s.powered = true ∧ s.useB P.PWR F.PWR_CAP_CFG_CAP_EN = true) ∧
    (let s : State := capped 0 base; canonical s = true ∧ let tj : List Int := [0, 0, 0, 0, 0, 0, 0, 2000]; tj.length = 8 ∧
      let rails : List (Nat × Nat) := [(1, 2), (3, 4), (5, 6), (7, 8), (9, 10), (11, 12)]; rails.length = 6 ∧ s.powered = true ∧
      2000 ≤ hottest tj) ∧
    (let s : State := capped 0 base; canonical s = true ∧ let tj : List Int := [1000, 1600, 1, 2, 3, 4, 5, 6]; tj.length = 8 ∧
      let rails : List (Nat × Nat) := [(1, 2), (3, 4), (5, 6), (7, 8), (9, 10), (11, 12)]; rails.length = 6 ∧ s.powered = true ∧
      hottest tj < 2000) :=
  ⟨by decide +kernel, by decide +kernel, by decide +kernel, by decide +kernel, by decide +kernel, by decide +kernel, by decide +kernel, by decide +kernel, by decide +kernel, by decide +kernel, by decide +kernel, by decide +kernel, by decide +kernel, by decide +kernel, by decide +kernel, by decide +kernel, by decide +kernel, by decide +kernel, by decide +kernel, by decide +kernel, by decide +kernel, by decide +kernel⟩

/-- O57. -/
theorem witness_ResetsStartupAndSafety :
    (let s : State := State.reset; canonical s = true) ∧
    (let s : State := phase 1 State.reset; canonical s = true ∧ s.powered = true ∧ let v : Word := 0xA55A; v.toNat = 0xA55A) ∧
    (let s : State := State.reset; canonical s = true ∧ let v : Word := 0; v.toNat ≠ 0xA55A) ∧
    (let s : State := phase 1 State.reset; canonical s = true ∧ let us : List Nat := [1, 2, 3, 4]; us.length = 4 ∧ s.run = .starting ∧
      s.start.phase = 1) ∧
    (let s : State := phase 1 State.reset; canonical s = true ∧ let us : List Nat := [1, 2, 3, 4]; us.length = 4 ∧ s.run = .starting ∧
      s.start.phase = 1 ∧ let f : FlashImage := flash0 true true; True) ∧
    (let s : State := phase 2 State.reset; canonical s = true ∧ s.start.phase = 2) ∧
    (let s : State := State.reset; canonical s = true ∧ s.start.phase ≠ 2) ∧
    (let s : State := phase 4 State.reset; canonical s = true ∧ let us : List Nat := [1, 2, 3, 4, 5]; us.length = 5 ∧
      let coefs : List (Option Word) := List.replicate 16 none; coefs.length = 16 ∧ s.run = .starting ∧ s.start.phase = 4) ∧
    (let s : State := genWrite 0 (header0 4096 3) (mboxArgs 0 4352 (phase 3 base)); canonical s = true ∧
      let ofs := s.use P.CPX F.CPX_MBOX_ARG 0; let len := s.use P.CPX F.CPX_MBOX_ARG 1; let h := s.genRead ofs 256;
      let good := decide (256 + fieldAt h 4 4 ≤ len) && s.headerOk h; s.mbox = none ∧ s.start.phase = 3 ∧ len ≠ 0 ∧
      genRange ofs len = true ∧ good = true) ∧
    (let s : State := genWrite 0 (header0 4096 3) (mboxArgs 0 4352 (phase 3 base)); canonical s = true ∧
      let ofs := s.use P.CPX F.CPX_MBOX_ARG 0; let len := s.use P.CPX F.CPX_MBOX_ARG 1; s.mbox = none ∧ s.start.phase = 3 ∧ len ≠ 0 ∧
      genRange ofs len = true) ∧
    (let s : State := genWrite 0 (header0 4096 3) (mboxArgs 0 4352 (phase 5 base)); canonical s = true ∧
      let ofs := s.use P.CPX F.CPX_MBOX_ARG 0; let len := s.use P.CPX F.CPX_MBOX_ARG 1; let h := s.genRead ofs 256;
      let good := decide (256 + fieldAt h 4 4 ≤ len) && s.headerOk h; s.mbox = none ∧ s.flashReady = true ∧ len ≠ 0 ∧
      genRange ofs len = true ∧ good = true) ∧
    (let s : State := genWrite 0 (header0 4096 3) (mboxArgs 0 4352 (phase 5 base)); canonical s = true ∧
      let ofs := s.use P.CPX F.CPX_MBOX_ARG 0; s.mbox = none ∧ s.flashReady = true ∧ genRange ofs 64 = true) ∧
    (let s : State := State.reset; canonical s = true ∧ s.mbox = none ∧ s.flashReady = false) ∧
    (let s : State := phase 1 State.reset; canonical s = true ∧ s.powered = true ∧ s.useB P.GLB F.GLB_CTL_HOST_STOP = false) ∧
    (let s : State := hostUp (put base [(P.GLB, F.GLB_CTL_HOST_STOP, 0, 0), (P.CPX, F.CPX_STAT_RUNNING, 1, 0)]); canonical s = true ∧
      let cores : List (BitVec 7) := [1, 2, 3, 100]; cores.length = 4 ∧ s.getB P.CPX F.CPX_STAT_RUNNING = true) ∧
    (let s : State := phase 1 State.reset; canonical s = true ∧ s.powered = true) ∧
    (let s : State := genWrite 0 (header0 4096 3) (mboxArgs 0 4352 (phase 5 base)); canonical s = true ∧ s.started = true) ∧
    (let s : State := State.reset; canonical s = true ∧ s.started = false) ∧
    (let s : State := safed (fun q => { q with keyAt := some 7 }) base; canonical s = true ∧ s.run = .safe ∧ let v : Word := 0x1234C1EA;
      v.toNat % 2 ^ 16 = 0xC1EA) ∧
    (let s : State := safed (fun q => { q with keyAt := some 7 }) base; canonical s = true ∧ s.run = .safe ∧ let v : Word := 0x3E15;
      v.toNat % 2 ^ 16 = 0x3E15 ∧ (∃ x ∈ s.saf.keyAt, let t : Nat := 0; t ≤ x + msSlots 1 ∧ s.get P.SAF F.SAF_FAULT_RAW = 0 ∧
      s.saf.resetNeeded = false)) ∧
    (let s : State := safed (fun q => { q with keyAt := some 7 }) base; canonical s = true ∧ s.run = .safe ∧ let v : Word := 0xA55A;
      v.toNat % 2 ^ 16 ≠ 0xC1EA ∧ (v.toNat % 2 ^ 16 ≠ 0x3E15 ∨ s.saf.keyAt = none)) ∧
    (let s : State := safed (fun q => { q with exitAt := some 3200 }) base; canonical s = true ∧ (∃ p ∈ s.saf.exitAt, s.run = .safe ∧
      let t : Nat := 3200; p ≤ t)) ∧
    (let s : State := safed (fun q => { q with exitAt := some 3200 }) base; canonical s = true ∧ (∃ p ∈ s.saf.exitAt, s.run = .safe ∧
      let t : Nat := 0; t < p)) :=
  ⟨by decide +kernel, by decide +kernel, by decide +kernel, by decide +kernel, by decide +kernel, by decide +kernel, by decide +kernel, by decide +kernel, by decide +kernel, by decide +kernel, by decide +kernel, by decide +kernel, by decide +kernel, by decide +kernel, by decide +kernel, by decide +kernel, by decide +kernel, by decide +kernel, by decide +kernel, by decide +kernel, by decide +kernel, by decide +kernel, by decide +kernel⟩

/-- O58. -/
theorem witness_GuardedBar4WritesAreDiscarded :
    (let s : State := guarded 16 64 0 base; canonical s = true ∧ s.hostServed = true ∧ s.started = true ∧ s.isArmed = true ∧
      s.useB P.DMC F.DMC_WPROT_CFG_WPROT_EN = true ∧ let data : List Byte := [1]; data ≠ [] ∧
      let o : BitVec 38 := BitVec.ofNat 38 (16 * 2 ^ 20); (∀ i ∈ List.range (data.length), o.toNat + i < s.deepSize ∧
      s.inAllotment (o.toNat + i) = true)) := by
  decide +kernel

/-- O59. -/
theorem witness_HintMismatchIsShownAndAddressTaken :
    (let s : State := hinted 5 (cascade false 0 0 0 3 base); canonical s = true ∧ s.enabled P.CAS = true ∧ s.started = true ∧
      s.rootStrap = false ∧ s.useB P.CAS F.CAS_CTL_HINT_CHK = true ∧ let k : Token := waveTok RK.ENUM 0 5; k.type = TK.REG ∧
      k.regKind = RK.ENUM ∧ k.wave.next ≠ 0) ∧
    (let s : State := hinted 5 (cascade false 0 0 0 3 base); canonical s = true ∧ s.enabled P.CAS = true ∧ s.started = true ∧
      s.rootStrap = false ∧ s.useB P.CAS F.CAS_CTL_HINT_CHK = true ∧ let k : Token := waveTok RK.VERIFY 0 (5 + 256 * 1);
      k.type = TK.REG ∧ k.regKind = RK.VERIFY ∧ ¬ (s.casAddr ≠ 0 ∧ s.casAddr ≤ k.wave.east) ∧ k.wave.east < k.wave.next) :=
  ⟨by decide +kernel, by decide +kernel⟩

end Sys2Proof.Tests
end

section
/-!
SUPPORT. What the state after reset reads as (R13).
-/
namespace Sys2Proof.Machine

/-- Both memories and both register copies list nothing after reset. -/
theorem State.reset_canon : State.reset.Canon := ⟨rfl, rfl, rfl, rfl⟩

theorem State.reset_reg (p o : Nat) : State.reset.reg p o = (regReset (rkey p o)).toNat := rfl

theorem State.reset_stagedReg (p o : Nat) : State.reset.stagedReg p o = (regReset (rkey p o)).toNat := rfl

theorem Memory.read_nil (a : Nat) : Memory.read [] a = 0 := rfl

/-- Settles O2: every clause is read off `State.reset`, whose sparse stores are empty. -/
theorem resetIsCanonicalAndIdle : Obligations.ResetIsCanonicalAndIdle :=
  ⟨State.reset_canon, rfl, rfl, rfl, rfl, fun p o => ⟨State.reset_reg p o, State.reset_stagedReg p o⟩,
    fun a => ⟨Memory.read_nil a, Memory.read_nil a⟩⟩

end Sys2Proof.Machine
end

section
/-!
SUPPORT. No operation and no command changes the module's variant (R1). One simp lemma for each operation of the model and each
command's meaning, in the model's order: its proof unfolds that one operation, goes through its branches, and rewrites by the lemmas
of the operations it calls. What a meaning answers is read through the model's own `Res.keep`.
-/
namespace Sys2Proof.Machine
variable (s : State)

/-! ### How the variant passes through answers, branches and repetitions -/

/-- The parentheses keep simp from rewriting with it by definition: to check such a step the kernel would unfold the operations that
lead to `u`. -/
@[simp] theorem Res.keep_next (u : State) : Res.keep s (.next u) = u := (rfl)

@[simp] theorem Res.keep_fault (f : Fault) : Res.keep s (.fault f) = s := (rfl)

@[simp] theorem Res.keep_ite (c : Prop) [Decidable c] (x y : Res) :
    Res.keep s (if c then x else y) = if c then Res.keep s x else Res.keep s y := apply_ite ..

theorem Res.keep_ite_variant {s : State} {v : Variant} {c : Prop} [Decidable c] {x y : Res} (hx : (Res.keep s x).variant = v)
    (hy : (Res.keep s y).variant = v) : (Res.keep s (if c then x else y)).variant = v := by
  split <;> assumption

/-- States of the same variant may stand for each other as the state an answer falls back to. -/
theorem Res.keep_variant_congr {s u : State} (h : u.variant = s.variant) (r : Res) :
    (Res.keep s r).variant = (Res.keep u r).variant := by
  cases r <;> simp [Res.keep, h]

@[simp] theorem State.variant_ite (c : Prop) [Decidable c] (x y : State) :
    (if c then x else y).variant = if c then x.variant else y.variant := apply_ite ..

theorem State.variant_of_fst {β : Type} {p : State × β} {u : State} {b : β} (h : p = (u, b)) : u.variant = p.1.variant := by
  rw [h]

theorem State.variant_of_snd {β : Type} {p : β × State} {u : State} {b : β} (h : p = (b, u)) : u.variant = p.2.variant := by
  rw [h]

/-- The hypothesis names the state after a turn, so that the kernel compares two spellings of the turn itself; under the field it
would unfold the operations of both. -/
@[simp] theorem State.foldl_variant {α : Type} (l : List α) (f : State → α → State)
    (h : ∀ s x u, f s x = u → u.variant = s.variant) : (l.foldl f s).variant = s.variant := by
  induction l generalizing s with
  | nil => rfl
  | cons x r ih => exact (ih _).trans (h s x _ rfl)

@[simp] theorem State.foldl_fst_variant {α β : Type} (l : List α) (f : State × β → α → State × β) (p : State × β)
    (h : ∀ p x q, f p x = q → q.1.variant = p.1.variant) : (l.foldl f p).1.variant = p.1.variant := by
  induction l generalizing p with
  | nil => rfl
  | cons x r ih => exact (ih _).trans (h p x _ rfl)

@[simp] theorem State.each_variant {α : Type} (l : List α) (f : State → α → State)
    (h : ∀ s x u, f s x = u → u.variant = s.variant) : (s.each l f).variant = s.variant := State.foldl_variant s l f h

/-! ### Machine/Ops.lean -/

@[simp] theorem State.takeFree_variant : s.takeFree.2.variant = s.variant := by simp [State.takeFree]
@[simp] theorem State.clearAll_variant (p fs) : (s.clearAll p fs).variant = s.variant := by simp [State.clearAll]
@[simp] theorem State.setBusy_variant (p b) : (s.setBusy p b).variant = s.variant := by simp [State.setBusy]

/-! ### Machine/Streams.lean -/

@[simp] theorem State.refreshRfq_variant (sid) : (s.refreshRfq sid).variant = s.variant := by simp [State.refreshRfq]
@[simp] theorem State.setStall_variant (sid b) : (s.setStall sid b).variant = s.variant := by simp [State.setStall]

@[simp] theorem State.ringWrite_variant (sid c) : (s.ringWrite sid c).1.variant = s.variant := by
  dsimp only [State.ringWrite]
  split <;> simp

@[simp] theorem State.closeChunk_variant (sid flags) : (s.closeChunk sid flags).variant = s.variant := by
  dsimp only [State.closeChunk]
  split <;> simp

@[simp] theorem State.openChunk_variant (sid slot) : (s.openChunk sid slot).variant = s.variant := by simp [State.openChunk]

@[simp] theorem State.note_variant (kind slot unit val extra) : (s.note kind slot unit val extra).variant = s.variant := by
  simp [State.note]

@[simp] theorem State.stageItem_variant (sid it) : (s.stageItem sid it).variant = s.variant := by simp [State.stageItem]

@[simp] theorem State.appendRaw_variant (sid it) : (s.appendRaw sid it).variant = s.variant := by
  dsimp only [State.appendRaw]
  (repeat' split) <;> simp

@[simp] theorem State.recFlag_variant (b) : (s.recFlag b).variant = s.variant := by simp [State.recFlag]

/-! ### Machine/Links.lean -/

@[simp] theorem State.sendFlit_variant (p o) : (s.sendFlit p o).variant = s.variant := by simp [State.sendFlit]
@[simp] theorem State.putToken_variant (p k) : (s.putToken p k).variant = s.variant := by simp [State.putToken]
@[simp] theorem State.sendPort_variant (p k) : (s.sendPort p k).variant = s.variant := by simp [State.sendPort]

@[simp] theorem State.sendCmd_variant (dst ring tag completion words) :
    (s.sendCmd dst ring tag completion words).variant = s.variant := by
  simp [State.sendCmd]

@[simp] theorem State.sendRing_variant (k) : (s.sendRing k).variant = s.variant := by simp [State.sendRing]

@[simp] theorem State.broadcast_variant (type low w1 w2 w3) : (s.broadcast type low w1 w2 w3).variant = s.variant := by
  simp [State.broadcast]

@[simp] theorem State.sendTo_variant (type dest low w1 w2 w3) : (s.sendTo type dest low w1 w2 w3).variant = s.variant := by
  simp [State.sendTo]

@[simp] theorem State.sendTwin_variant (type low w1 w2 w3) : (s.sendTwin type low w1 w2 w3).variant = s.variant := by
  simp [State.sendTwin]

@[simp] theorem State.sendSeam_variant (kind low w1 w2 w3) : (s.sendSeam kind low w1 w2 w3).variant = s.variant := by
  simp [State.sendSeam]

@[simp] theorem State.relay_variant (p k) : (s.relay p k).variant = s.variant := by simp [State.relay]

/-! ### Machine/Safe.lean -/

@[simp] theorem State.driveLands_variant (slot) : (s.driveLands slot).variant = s.variant := by simp [State.driveLands]
@[simp] theorem State.actState_variant : s.actState.variant = s.variant := by simp [State.actState]

@[simp] theorem State.setActive_variant (n b stop slot) : (s.setActive n b stop slot).variant = s.variant := by
  simp [State.setActive]

@[simp] theorem State.endActivity_variant (mask slot) : (s.endActivity mask slot).variant = s.variant := by
  simp [State.endActivity]

@[simp] theorem State.setTwin_variant (st) : (s.setTwin st).variant = s.variant := by simp [State.setTwin]
@[simp] theorem State.goAlone_variant : s.goAlone.variant = s.variant := by simp [State.goAlone]

@[simp] theorem State.tailMarker_variant (sid code subject slot params) :
    (s.tailMarker sid code subject slot params).variant = s.variant := by
  simp [State.tailMarker]

@[simp] theorem State.safeEntry_variant (first) : (s.safeEntry first).variant = s.variant := by simp [State.safeEntry]
@[simp] theorem State.raiseFault_variant (f) : (s.raiseFault f).variant = s.variant := by simp [State.raiseFault]
@[simp] theorem State.faultLevel_variant (f b) : (s.faultLevel f b).variant = s.variant := by simp [State.faultLevel]
@[simp] theorem State.appendItem_variant (sid it) : (s.appendItem sid it).variant = s.variant := by simp [State.appendItem]

/-! ### Machine/Markers.lean -/

@[simp] theorem State.marker_variant (code subject slot params ply) :
    (s.marker code subject slot params ply).variant = s.variant := by
  simp [State.marker]

@[simp] theorem State.inband_variant (sid code subject slot params) :
    (s.inband sid code subject slot params).variant = s.variant := by
  simp [State.inband]

@[simp] theorem State.markBoth_variant (code subject slot params sids) :
    (s.markBoth code subject slot params sids).variant = s.variant := by
  simp [State.markBoth]

@[simp] theorem State.seamWith_variant (sid slot f) : (s.seamWith sid slot f).variant = s.variant := by simp [State.seamWith]
@[simp] theorem State.seamAdd_variant (sid slot a b c) : (s.seamAdd sid slot a b c).variant = s.variant := by simp [State.seamAdd]
@[simp] theorem State.seamSkip_variant (sid slot) : (s.seamSkip sid slot).variant = s.variant := by simp [State.seamSkip]
@[simp] theorem State.unpaired_variant (u n) : (s.unpaired u n).variant = s.variant := by simp [State.unpaired]
@[simp] theorem State.dropStarts_variant (u) : (s.dropStarts u).variant = s.variant := by simp [State.dropStarts]

@[simp] theorem State.gapOpen_variant (sids slot cause) : (s.gapOpen sids slot cause).variant = s.variant := by
  simp [State.gapOpen]

@[simp] theorem State.gapClose_variant (sids resume cause whole) : (s.gapClose sids resume cause whole).variant = s.variant := by
  simp (disch := (rintro s x _ rfl; (repeat' split) <;> simp)) [State.gapClose]

@[simp] theorem State.ivFlagAll_variant (b) : (s.ivFlagAll b).variant = s.variant := by simp [State.ivFlagAll]
@[simp] theorem State.ivFlagLoop_variant (n b) : (s.ivFlagLoop n b).variant = s.variant := by simp [State.ivFlagLoop]
@[simp] theorem State.ivCutLoop_variant (n slot) : (s.ivCutLoop n slot).variant = s.variant := by simp [State.ivCutLoop]
@[simp] theorem State.stampGap_variant (groups) : (s.stampGap groups).variant = s.variant := by simp [State.stampGap]

/-! ### Machine/Loops.lean -/

@[simp] theorem State.setLoopState_variant (n st) : (s.setLoopState n st).variant = s.variant := by simp [State.setLoopState]

@[simp] theorem State.mapEntry_variant (n kind tok at_ delta) : (s.mapEntry n kind tok at_ delta).variant = s.variant := by
  simp [State.mapEntry]

@[simp] theorem State.setLoopRate_variant (n at_ rate) : (s.setLoopRate n at_ rate).variant = s.variant := by
  simp [State.setLoopRate]

@[simp] theorem State.rejectEvent_variant (n) : (s.rejectEvent n).variant = s.variant := by simp [State.rejectEvent]
@[simp] theorem State.coastStart_variant (n t) : (s.coastStart n t).variant = s.variant := by simp [State.coastStart]
@[simp] theorem execCoastOn_variant (t n) : (Res.keep s (execCoastOn t n s)).variant = s.variant := by simp [execCoastOn]
@[simp] theorem execCoastLong_variant (t n) : (Res.keep s (execCoastLong t n s)).variant = s.variant := by simp [execCoastLong]
@[simp] theorem State.fireAngle_variant (e t late) : (s.fireAngle e t late).variant = s.variant := by simp [State.fireAngle]
@[simp] theorem State.passSpc_variant (n a old new) : (s.passSpc n a old new).variant = s.variant := by simp [State.passSpc]

@[simp] theorem State.passEvents_variant (n a old new) : (s.passEvents n a old new).variant = s.variant := by
  simp [State.passEvents]

@[simp] theorem execAngleEventFire_variant (t e) : (Res.keep s (execAngleEventFire t e s)).variant = s.variant := by
  simp [execAngleEventFire]

@[simp] theorem State.holdStart_variant (n a) : (s.holdStart n a).variant = s.variant := by simp [State.holdStart]
@[simp] theorem State.applyDelta_variant (n a d) : (s.applyDelta n a d).variant = s.variant := by simp [State.applyDelta]
@[simp] theorem State.noteDelta_variant (n t d) : (s.noteDelta n t d).variant = s.variant := by simp [State.noteDelta]
@[simp] theorem State.returned_variant (n t f d) : (s.returned n t f d).variant = s.variant := by simp [State.returned]
@[simp] theorem State.loopUpdate_variant (n t e) : (s.loopUpdate n t e).variant = s.variant := by simp [State.loopUpdate]

@[simp] theorem State.firstPlace_variant (n t dt ref) : (s.firstPlace n t dt ref).variant = s.variant := by
  simp [State.firstPlace]

@[simp] theorem State.qualify_variant (n t ref) : (s.qualify n t ref).variant = s.variant := by
  dsimp only [State.qualify]
  split <;> simp

@[simp] theorem State.holdEvent_variant (n t ref) : (s.holdEvent n t ref).variant = s.variant := by simp [State.holdEvent]

@[simp] theorem State.refEvent_variant (n t falling) : (s.refEvent n t falling).variant = s.variant := by
  dsimp only [State.refEvent]
  (repeat' split) <;> simp

@[simp] theorem execLoopReferenceEvent_variant (t n) : (Res.keep s (execLoopReferenceEvent t n s)).variant = s.variant := by
  dsimp only [execLoopReferenceEvent]
  (repeat' split) <;> simp

@[simp] theorem execHoldEnd_variant (t n) : (Res.keep s (execHoldEnd t n s)).variant = s.variant := by
  dsimp only [execHoldEnd]
  split <;> simp

@[simp] theorem State.encStep_variant (n t fwd) : (s.encStep n t fwd).variant = s.variant := by simp [State.encStep]

@[simp] theorem execEncoderCount_variant (t n a b) : (Res.keep s (execEncoderCount t n a b s)).variant = s.variant := by
  dsimp only [execEncoderCount]
  (repeat' split) <;> simp

@[simp] theorem execEncoderIndex_variant (t n) : (Res.keep s (execEncoderIndex t n s)).variant = s.variant := by
  dsimp only [execEncoderIndex]
  (repeat' split) <;> simp

@[simp] theorem State.plausibility_variant (n period) : (s.plausibility n period).variant = s.variant := by
  dsimp only [State.plausibility]
  split <;> simp

@[simp] theorem execLoopCycleBoundary_variant (t n) : (Res.keep s (execLoopCycleBoundary t n s)).variant = s.variant := by
  dsimp only [execLoopCycleBoundary]
  (repeat' split) <;> simp

@[simp] theorem execMapPeriodicPoint_variant (t n) : (Res.keep s (execMapPeriodicPoint t n s)).variant = s.variant := by
  simp [execMapPeriodicPoint]

@[simp] theorem State.takeAngle_variant (n a k) : (s.takeAngle n a k).variant = s.variant := by
  unfold State.takeAngle
  extract_lets
  split
  · split
    · simp +zetaDelta
    · split <;> simp +zetaDelta
  · split
    · simp +zetaDelta
    · split
      · simp +zetaDelta
      · simp +zetaDelta only [State.variant_ite, State.mapEntry_variant, State.passEvents_variant, State.sat_fields, ite_self]
        split <;> simp

@[simp] theorem State.angleTok_variant (t p k) : (s.angleTok t p k).variant = s.variant := by simp [State.angleTok]
@[simp] theorem execLtlClr_variant (n value) : (Res.keep s (execLtlClr n value s)).variant = s.variant := by simp [execLtlClr]
@[simp] theorem execAngClr_variant (value) : (Res.keep s (execAngClr value s)).variant = s.variant := by simp [execAngClr]

@[simp] theorem State.loopSourceChanged_variant (n t old) : (s.loopSourceChanged n t old).variant = s.variant := by
  simp [State.loopSourceChanged]

@[simp] theorem State.armOnce_variant (g t) : (s.armOnce g t).variant = s.variant := by simp [State.armOnce]
@[simp] theorem State.loopEnable_variant (n t on) : (s.loopEnable n t on).variant = s.variant := by simp [State.loopEnable]

@[simp] theorem State.loopResult_variant (n slot code) : (s.loopResult n slot code).variant = s.variant := by
  simp [State.loopResult]

@[simp] theorem State.loopStamp_variant (n slot falling) : (s.loopStamp n slot falling).variant = s.variant := by
  simp [State.loopStamp]

/-! ### Machine/Time.lean -/

@[simp] theorem State.setLocked_variant (b) : (s.setLocked b).variant = s.variant := by simp [State.setLocked]
@[simp] theorem State.setHoldover_variant (b) : (s.setHoldover b).variant = s.variant := by simp [State.setHoldover]

@[simp] theorem State.synchronise_variant (slot measured) : (s.synchronise slot measured).variant = s.variant := by
  simp [State.synchronise]

@[simp] theorem execPpsEdge_variant (t) : (Res.keep s (execPpsEdge t s)).variant = s.variant := by simp [execPpsEdge]
@[simp] theorem execPpsTimeout_variant (t) : (Res.keep s (execPpsTimeout t s)).variant = s.variant := by simp [execPpsTimeout]

@[simp] theorem execPtpMessage_variant (t port domain tai utc) :
    (Res.keep s (execPtpMessage t port domain tai utc s)).variant = s.variant := by
  dsimp only [execPtpMessage]
  (repeat' split) <;> simp

@[simp] theorem execTimeSetSec_variant (high value) : (Res.keep s (execTimeSetSec high value s)).variant = s.variant := by
  simp [execTimeSetSec]

@[simp] theorem execTimeClr_variant (value) : (Res.keep s (execTimeClr value s)).variant = s.variant := by simp [execTimeClr]
@[simp] theorem State.timeBypass_variant (on) : (s.timeBypass on).variant = s.variant := by simp [State.timeBypass]

@[simp] theorem State.timeSourceChanged_variant (old) : (s.timeSourceChanged old).variant = s.variant := by
  simp [State.timeSourceChanged]

/-! ### Machine/Clock.lean -/

@[simp] theorem State.refreshCko_variant : s.refreshCko.variant = s.variant := by
  simp (disch := (rintro s x _ rfl; split <;> simp)) [State.refreshCko]

@[simp] theorem State.toBypass_variant (n t) : (s.toBypass n t).variant = s.variant := by
  dsimp only [State.toBypass]
  split <;> simp

@[simp] theorem State.lockLoss_variant (n t cause) : (s.lockLoss n t cause).variant = s.variant := by simp [State.lockLoss]
@[simp] theorem State.noBand_variant (n) : (s.noBand n).variant = s.variant := by simp [State.noBand]

@[simp] theorem State.useTable_variant (n) : (s.useTable n).variant = s.variant := by
  dsimp only [State.useTable]
  split <;> simp

@[simp] theorem State.lockAttempt_variant (n t) : (s.lockAttempt n t).variant = s.variant := by simp [State.lockAttempt]

@[simp] theorem execLockAttempt_variant (t n refKhz) : (Res.keep s (execLockAttempt t n refKhz s)).variant = s.variant := by
  simp [execLockAttempt]

@[simp] theorem State.relockWrite_variant (n t) : (s.relockWrite n t).variant = s.variant := by simp [State.relockWrite]
@[simp] theorem execRelock_variant (t n) : (Res.keep s (execRelock t n s)).variant = s.variant := by simp [execRelock]
@[simp] theorem execClrCnt_variant (n) : (Res.keep s (execClrCnt n s)).variant = s.variant := by simp [execClrCnt]

@[simp] theorem execBandSearchStep_variant (t n count) : (Res.keep s (execBandSearchStep t n count s)).variant = s.variant := by
  simp [execBandSearchStep]

@[simp] theorem execBandVerify_variant (t n count) : (Res.keep s (execBandVerify t n count s)).variant = s.variant := by
  simp [execBandVerify]

@[simp] theorem State.lockDeclared_variant (n t) : (s.lockDeclared n t).variant = s.variant := by simp [State.lockDeclared]

@[simp] theorem execLockWindowEnd_variant (t n count) : (Res.keep s (execLockWindowEnd t n count s)).variant = s.variant := by
  simp [execLockWindowEnd]

@[simp] theorem execPhaseSlip_variant (t n) : (Res.keep s (execPhaseSlip t n s)).variant = s.variant := by simp [execPhaseSlip]
@[simp] theorem execRefLoss_variant (t) : (Res.keep s (execRefLoss t s)).variant = s.variant := by simp [execRefLoss]

@[simp] theorem execRefclkReturn_variant (t refKhz) : (Res.keep s (execRefclkReturn t refKhz s)).variant = s.variant := by
  simp [execRefclkReturn]

@[simp] theorem execDlgLock_variant (t g) : (Res.keep s (execDlgLock t g s)).variant = s.variant := by simp [execDlgLock]
@[simp] theorem execDlgUnlock_variant (t g) : (Res.keep s (execDlgUnlock t g s)).variant = s.variant := by simp [execDlgUnlock]
@[simp] theorem State.cksCopied_variant (n t g) : (s.cksCopied n t g).variant = s.variant := by simp [State.cksCopied]
@[simp] theorem State.cksReset_variant (n t) : (s.cksReset n t).variant = s.variant := by simp [State.cksReset]
@[simp] theorem State.cksEnable_variant (n t on) : (s.cksEnable n t on).variant = s.variant := by simp [State.cksEnable]

/-! ### Machine/Pages.lean -/

@[simp] theorem State.storeRW_variant (staged p o mask v) : (s.storeRW staged p o mask v).variant = s.variant := by
  simp [State.storeRW]

@[simp] theorem State.storeField_variant (p f v i) : (s.storeField p f v i).variant = s.variant := by simp [State.storeField]
@[simp] theorem State.setPendGroups_variant (p m) : (s.setPendGroups p m).variant = s.variant := by simp [State.setPendGroups]

@[simp] theorem State.commitFinished_variant (p rejected) : (s.commitFinished p rejected).variant = s.variant := by
  simp [State.commitFinished]

@[simp] theorem State.showErrs_variant (p) : (s.showErrs p).variant = s.variant := by simp [State.showErrs]
@[simp] theorem State.setErr_variant (p g cause) : (s.setErr p g cause).variant = s.variant := by simp [State.setErr]

@[simp] theorem State.copyGroup_variant (p g) : (s.copyGroup p g).variant = s.variant := by
  unfold State.copyGroup
  refine State.each_variant _ _ _ fun s x u h => h ▸ ?_
  split <;> simp

@[simp] theorem State.loadGroup_variant (p g) : (s.loadGroup p g).variant = s.variant := by simp [State.loadGroup]

@[simp] theorem execMsixUnmask_variant (vector) : (Res.keep s (execMsixUnmask vector s)).variant = s.variant := by
  dsimp only [execMsixUnmask]
  split <;> simp

/-! ### Machine/Dig.lean -/

@[simp] theorem State.digState_variant (g) : (s.digState g).variant = s.variant := by simp [State.digState]
@[simp] theorem State.entry_variant (g slot word) : (s.entry g slot word).variant = s.variant := by simp [State.entry]

@[simp] theorem State.takeWord_variant (g slot word) : (s.takeWord g slot word).variant = s.variant := by
  dsimp only [State.takeWord]
  split
  · rfl
  · simp only [State.modDig_fields, State.variant_ite, State.appendItem_variant, State.entry_variant, State.seamAdd_variant,
      ite_self]

@[simp] theorem State.applyStep_variant (i slot) : (s.applyStep i slot).variant = s.variant := by
  dsimp only [State.applyStep]
  split <;> simp

@[simp] theorem State.timingPly_variant (g t0 ws) : (s.timingPly g t0 ws).variant = s.variant := by simp [State.timingPly]
@[simp] theorem State.countEdges_variant (g x) : (s.countEdges g x).variant = s.variant := by simp [State.countEdges]

@[simp] theorem execStateClockEdge_variant (t g rising word) :
    (Res.keep s (execStateClockEdge t g rising word s)).variant = s.variant := by
  simp [execStateClockEdge]

@[simp] theorem execStateClkTimeout_variant (t g) : (Res.keep s (execStateClkTimeout t g s)).variant = s.variant := by
  simp [execStateClkTimeout]

@[simp] theorem execKeepAlive_variant (t g) : (Res.keep s (execKeepAlive t g s)).variant = s.variant := by simp [execKeepAlive]

@[simp] theorem State.ovrMark_variant (g slot opened first) : (s.ovrMark g slot opened first).variant = s.variant := by
  simp [State.ovrMark]

@[simp] theorem execOverrangeEntry_variant (t g c hi) : (Res.keep s (execOverrangeEntry t g c hi s)).variant = s.variant := by
  simp [execOverrangeEntry]

@[simp] theorem execOverrangeExit_variant (t g c) : (Res.keep s (execOverrangeExit t g c s)).variant = s.variant := by
  simp [execOverrangeExit]

@[simp] theorem execOvrWindowClose_variant (t g) : (Res.keep s (execOvrWindowClose t g s)).variant = s.variant := by
  simp [execOvrWindowClose]

@[simp] theorem execDigBcast_variant (g value) : (Res.keep s (execDigBcast g value s)).variant = s.variant := by
  simp [execDigBcast]

@[simp] theorem execDigClr_variant (g value) : (Res.keep s (execDigClr g value s)).variant = s.variant := by simp [execDigClr]
@[simp] theorem State.digModeCopied_variant (g) : (s.digModeCopied g).variant = s.variant := by simp [State.digModeCopied]

/-! ### Machine/Stp.lean -/

@[simp] theorem State.ipShow_variant (u) : (s.ipShow u).variant = s.variant := by simp [State.ipShow]
@[simp] theorem State.ipPair_variant (u d slot) : (s.ipPair u d slot).variant = s.variant := by simp [State.ipPair]

@[simp] theorem State.ipExpire_variant (u x) : (s.ipExpire u x).variant = s.variant := by
  dsimp only [State.ipExpire]
  split
  · rfl
  · rw [State.each_variant]
    · simp
    · rintro s e _ rfl
      split
      · simp
      · split <;> simp

@[simp] theorem State.ipStart_variant (u x) : (s.ipStart u x).variant = s.variant := by simp [State.ipStart]

@[simp] theorem State.ipStop_variant (u x) : (s.ipStop u x).variant = s.variant := by
  dsimp only [State.ipStop]
  split
  · split <;> simp
  · simp (disch := (rintro s x _ rfl; split <;> simp))

@[simp] theorem State.ipEdges_variant (u x es) : (s.ipEdges u x es).variant = s.variant := by simp [State.ipEdges]

@[simp] theorem execIpSpanExpiry_variant (t u) : (Res.keep s (execIpSpanExpiry t u s)).variant = s.variant := by
  simp [execIpSpanExpiry]

@[simp] theorem execStpIpSnap_variant (g value) : (Res.keep s (execStpIpSnap g value s)).variant = s.variant := by
  simp [execStpIpSnap]

@[simp] theorem State.gateStart_variant (u k) : (s.gateStart u k).variant = s.variant := by simp [State.gateStart]

@[simp] theorem State.gateEnd_variant (u) : (s.gateEnd u).variant = s.variant := by
  dsimp only [State.gateEnd]
  split <;> simp

@[simp] theorem State.gatesTo_variant (u k fuel) : (s.gatesTo u k fuel).variant = s.variant := by
  induction fuel generalizing s with
  | zero => rfl
  | succ n ih =>
    dsimp only [State.gatesTo]
    split
    · simp [ih]
    · rfl

@[simp] theorem State.fuStamp_variant (u x merged) : (s.fuStamp u x merged).variant = s.variant := by simp [State.fuStamp]

@[simp] theorem execFreqGateEnd_variant (t u) : (Res.keep s (execFreqGateEnd t u s)).variant = s.variant := by
  simp [execFreqGateEnd]

@[simp] theorem execFreqResult_variant (t u) : (Res.keep s (execFreqResult t u s)).variant = s.variant := by
  dsimp only [execFreqResult]
  split <;> simp

@[simp] theorem execFrqSnapSel_variant (value) : (Res.keep s (execFrqSnapSel value s)).variant = s.variant := by
  simp [execFrqSnapSel]

@[simp] theorem execFrqNewClear_variant (value) : (Res.keep s (execFrqNewClear value s)).variant = s.variant := by
  simp [execFrqNewClear]

@[simp] theorem execFrqClr_variant (value) : (Res.keep s (execFrqClr value s)).variant = s.variant := by simp [execFrqClr]

@[simp] theorem State.fuSettings_variant (t u) : (s.fuSettings t u).variant = s.variant := by
  dsimp only [State.fuSettings]
  (repeat' split) <;> simp

@[simp] theorem State.stpShow_variant (g) : (s.stpShow g).variant = s.variant := by simp [State.stpShow]
@[simp] theorem State.stpDrain_variant (g slot) : (s.stpDrain g slot).variant = s.variant := by simp [State.stpDrain]

@[simp] theorem State.queueStamp_variant (g c x rising) : (s.queueStamp g c x rising).variant = s.variant := by
  simp [State.queueStamp]

@[simp] theorem State.mergeEdge_variant (g c x) : (s.mergeEdge g c x).variant = s.variant := by simp [State.mergeEdge]

@[simp] theorem State.stampOne_variant (x ch rising) : (s.stampOne x ch rising).1.variant = s.variant := by
  dsimp only [State.stampOne]
  (repeat' split) <;> simp

@[simp] theorem State.stampAll_variant (x l) : (s.stampAll x l).1.variant = s.variant := by
  induction l generalizing s with
  | nil => rfl
  | cons e r ih => simp [State.stampAll, ih]

@[simp] theorem execStampEdge_variant (stamp edges) : (Res.keep s (execStampEdge stamp edges s)).variant = s.variant := by
  simp [execStampEdge]

@[simp] theorem State.writeWindow_variant (g w) : (s.writeWindow g w).variant = s.variant := by simp [State.writeWindow]
@[simp] theorem State.closeWindows_variant (g upTo) : (s.closeWindows g upTo).variant = s.variant := by simp [State.closeWindows]

@[simp] theorem execMergeWindowClose_variant (t g) : (Res.keep s (execMergeWindowClose t g s)).variant = s.variant := by
  simp [execMergeWindowClose]

@[simp] theorem State.finishStamps_variant (g slot) : (s.finishStamps g slot).variant = s.variant := by simp [State.finishStamps]

@[simp] theorem execTableRebuild_variant (t g ready) : (Res.keep s (execTableRebuild t g ready s)).variant = s.variant := by
  simp [execTableRebuild]

@[simp] theorem execCoarseWrap_variant (t) : (Res.keep s (execCoarseWrap t s)).variant = s.variant := by simp [execCoarseWrap]
@[simp] theorem execStpClr_variant (g value) : (Res.keep s (execStpClr g value s)).variant = s.variant := by simp [execStpClr]
@[simp] theorem State.stpState_variant (g) : (s.stpState g).variant = s.variant := by simp [State.stpState]

/-! ### Machine/Accum.lean -/

@[simp] theorem State.setWin_variant (w slot out) : (s.setWin w slot out).variant = s.variant := by simp [State.setWin]
@[simp] theorem State.windowTakes_variant (w r) : (s.windowTakes w r).variant = s.variant := by simp [State.windowTakes]
@[simp] theorem State.windowsTake_variant (n r) : (s.windowsTake n r).variant = s.variant := by simp [State.windowsTake]
@[simp] theorem State.winCopied_variant (w slot) : (s.winCopied w slot).variant = s.variant := by simp [State.winCopied]

@[simp] theorem State.accumulate_variant (c r) : (s.accumulate c r).variant = s.variant := by
  dsimp only [State.accumulate]
  split
  · rfl
  · split
    · rfl
    · split
      · rfl
      · simp (disch := (rintro s x _ rfl; split <;> simp))

@[simp] theorem State.deliver_variant (c r) : (s.deliver c r).variant = s.variant := by simp [State.deliver]

@[simp] theorem State.emitRecord_variant (sid ws finish) : (s.emitRecord sid ws finish).variant = s.variant := by
  simp [State.emitRecord]

@[simp] theorem State.closeMerge_variant (sid key) : (s.closeMerge sid key).variant = s.variant := by
  dsimp only [State.closeMerge]
  split <;> simp

@[simp] theorem State.closeMerges_variant (sid) : (s.closeMerges sid).variant = s.variant := by simp [State.closeMerges]

@[simp] theorem State.mergeRecord_variant (sid ws finish) : (s.mergeRecord sid ws finish).variant = s.variant := by
  dsimp only [State.mergeRecord]
  (repeat' split) <;> simp

@[simp] theorem State.ivShow_variant : s.ivShow.variant = s.variant := by simp [State.ivShow]

@[simp] theorem State.ivBegin_variant (i slot prev fresh) : (s.ivBegin i slot prev fresh).variant = s.variant := by
  simp [State.ivBegin]

@[simp] theorem State.ivEnd_variant (i slot v) : (s.ivEnd i slot v).variant = s.variant := by
  unfold State.ivEnd
  extract_lets cs ps hs cw pw hw s1 s2 s3 s4 flag s5 s6 s7 s8 all s9
  have h4 : s4.variant = s1.variant := by
    simp only [s4, s3, s2]
    rw [State.each_variant, State.each_variant, State.each_variant] <;> simp
  have h9 : s9.variant = s4.variant := by simp [s9, s8, s7, s6, s5]
  simp [h9, h4, s1]

@[simp] theorem execIntervalBoundary_variant (t iv slot) :
    (Res.keep s (execIntervalBoundary t iv slot s)).variant = s.variant := by
  dsimp only [execIntervalBoundary]
  split <;> simp

@[simp] theorem State.ivSettings_variant (i t direct) : (s.ivSettings i t direct).variant = s.variant := by
  dsimp only [State.ivSettings]
  split <;> simp

@[simp] theorem State.harCopied_variant : s.harCopied.variant = s.variant := by simp [State.harCopied]

@[simp] theorem execAccSnapSel_variant (value) : (Res.keep s (execAccSnapSel value s)).variant = s.variant := by
  simp [execAccSnapSel]

@[simp] theorem execHarSnapSel_variant (value) : (Res.keep s (execHarSnapSel value s)).variant = s.variant := by
  simp [execHarSnapSel]

@[simp] theorem execHarClr_variant (value) : (Res.keep s (execHarClr value s)).variant = s.variant := by simp [execHarClr]

/-! ### Machine/Adc.lean -/

@[simp] theorem State.adcShow_variant : s.adcShow.variant = s.variant := by simp [State.adcShow]
@[simp] theorem State.startMiss_variant (n) : (s.startMiss n).variant = s.variant := by simp [State.startMiss]
@[simp] theorem State.injDrop_variant (n cause) : (s.injDrop n cause).variant = s.variant := by simp [State.injDrop]

@[simp] theorem State.convert_variant (n slot late inj origin) : (s.convert n slot late inj origin).variant = s.variant := by
  simp [State.convert]

@[simp] theorem State.startConv_variant (n slot late) : (s.startConv n slot late).variant = s.variant := by simp [State.startConv]

@[simp] theorem execConversionStart_variant (t set) : (Res.keep s (execConversionStart t set s)).variant = s.variant := by
  dsimp only [execConversionStart]
  (repeat' split) <;> simp

@[simp] theorem execPulseSourcePulse_variant (t set width) :
    (Res.keep s (execPulseSourcePulse t set width s)).variant = s.variant := by
  simp [execPulseSourcePulse]

@[simp] theorem execConverterWakeRequest_variant (t n) : (Res.keep s (execConverterWakeRequest t n s)).variant = s.variant := by
  simp [execConverterWakeRequest]

@[simp] theorem execConverterReady_variant (t n) : (Res.keep s (execConverterReady t n s)).variant = s.variant := by
  dsimp only [execConverterReady]
  (repeat' split) <;> simp

@[simp] theorem execInjectedRequest_variant (t n slot) : (Res.keep s (execInjectedRequest t n slot s)).variant = s.variant := by
  dsimp only [execInjectedRequest]
  split <;> simp

@[simp] theorem State.resolveHold_variant (n release) : (s.resolveHold n release).variant = s.variant := by
  dsimp only [State.resolveHold]
  split <;> simp

@[simp] theorem execConversionResult_variant (t n raw) : (Res.keep s (execConversionResult t n raw s)).variant = s.variant := by
  dsimp only [execConversionResult]
  (repeat' split) <;> simp

@[simp] theorem State.showOverload_variant : s.showOverload.variant = s.variant := by simp [State.showOverload]

@[simp] theorem execOverloadTrip_variant (t n) : (Res.keep s (execOverloadTrip t n s)).variant = s.variant := by
  simp [execOverloadTrip]

@[simp] theorem execOverloadClear_variant (t n) : (Res.keep s (execOverloadClear t n s)).variant = s.variant := by
  simp [execOverloadClear]

@[simp] theorem execDisturbSpanEnd_variant (t q) : (Res.keep s (execDisturbSpanEnd t q s)).variant = s.variant := by
  simp (disch := (rintro s x _ rfl; split <;> simp)) [execDisturbSpanEnd]

@[simp] theorem State.calBegin_variant (q) : (s.calBegin q).variant = s.variant := by simp [State.calBegin]

@[simp] theorem State.calFinish_variant (q convs mode expect means) :
    (s.calFinish q convs mode expect means).variant = s.variant := by
  simp (disch := (rintro s x _ rfl; split <;> simp)) [State.calFinish]

@[simp] theorem execAdcClr_variant (value) : (Res.keep s (execAdcClr value s)).variant = s.variant := by simp [execAdcClr]
@[simp] theorem State.convsCopied_variant : s.convsCopied.variant = s.variant := by simp [State.convsCopied]

/-! ### Machine/Path.lean -/

@[simp] theorem State.showBadRow_variant : s.showBadRow.variant = s.variant := by simp [State.showBadRow]
@[simp] theorem State.addBadRow_variant (o) : (s.addBadRow o).variant = s.variant := by simp [State.addBadRow]
@[simp] theorem State.dmCorrected_variant (o) : (s.dmCorrected o).variant = s.variant := by simp [State.dmCorrected]
@[simp] theorem State.dmUncorrectable_variant (o) : (s.dmUncorrectable o).variant = s.variant := by simp [State.dmUncorrectable]
@[simp] theorem State.modThread_variant (i f) : (s.modThread i f).variant = s.variant := by simp [State.modThread]
@[simp] theorem State.spoil_variant (c base off) : (s.spoil c base off).1.variant = s.variant := by simp [State.spoil]

@[simp] theorem State.deal_variant (bad sid n) : (State.deal bad sid n s).variant = s.variant := by
  induction n generalizing s with
  | zero => rfl
  | succ n ih =>
    dsimp only [State.deal]
    split
    · rfl
    · simp [ih]

@[simp] theorem State.ethOffer_variant (c i bank) : (s.ethOffer c i bank).variant = s.variant := by simp [State.ethOffer]
@[simp] theorem State.cmpShow_variant : s.cmpShow.variant = s.variant := by simp [State.cmpShow]

@[simp] theorem State.placeOwed_variant (i n) : (State.placeOwed i n s).variant = s.variant := by
  induction n generalizing s with
  | zero => rfl
  | succ n ih =>
    dsimp only [State.placeOwed]
    split
    · rfl
    · simp [ih]

@[simp] theorem State.settleStall_variant (i) : (s.settleStall i).variant = s.variant := by simp [State.settleStall]
@[simp] theorem State.handOver_variant (i sid cs) : (s.handOver i sid cs).variant = s.variant := by simp [State.handOver]

@[simp] theorem State.putRatio_variant (sid stored plain) : (s.putRatio sid stored plain).variant = s.variant := by
  simp [State.putRatio]

@[simp] theorem State.closeThread_variant (i sid final good) : (s.closeThread i sid final good).variant = s.variant := by
  dsimp only [State.closeThread]
  split <;> simp

@[simp] theorem State.runThread_variant (i sid t good) : (s.runThread i sid t good).variant = s.variant := by
  unfold State.runThread
  extract_lets q age
  split
  · rfl
  · split
    · split <;> simp
    · simp +zetaDelta

@[simp] theorem State.runPath_variant (i sid t bad n good) : (State.runPath i sid t bad n good s).variant = s.variant := by
  induction n generalizing s good with
  | zero => rfl
  | succ n ih => simp [State.runPath, ih]

@[simp] theorem State.freePath_variant (i bank) : (s.freePath i bank).variant = s.variant := by simp [State.freePath]
@[simp] theorem State.giveLanes_variant (sid ls) : (s.giveLanes sid ls).variant = s.variant := by simp [State.giveLanes]
@[simp] theorem State.showLanes_variant (streams) : (s.showLanes streams).variant = s.variant := by simp [State.showLanes]
@[simp] theorem State.dealLanes_variant (streams) : (s.dealLanes streams).variant = s.variant := by simp [State.dealLanes]
@[simp] theorem State.storeShow_variant : s.storeShow.variant = s.variant := by simp [State.storeShow]
@[simp] theorem State.releaseExtents_variant (sel) : (s.releaseExtents sel).variant = s.variant := by simp [State.releaseExtents]
@[simp] theorem State.modJob_variant (op f) : (s.modJob op f).variant = s.variant := by simp [State.modJob]
@[simp] theorem State.issueTable_variant (slot c) : (s.issueTable slot c).variant = s.variant := by simp [State.issueTable]

@[simp] theorem State.startTable_variant : s.startTable.variant = s.variant := by
  dsimp only [State.startTable]
  (repeat' split) <;> simp

@[simp] theorem State.tableWrite_variant (e) : (s.tableWrite e).variant = s.variant := by simp [State.tableWrite]

@[simp] theorem State.settleJob_variant (j) : (s.settleJob j).variant = s.variant := by
  dsimp only [State.settleJob]
  (repeat' split) <;> simp

@[simp] theorem State.settleJobs_variant : s.settleJobs.variant = s.variant := by simp [State.settleJobs]

@[simp] theorem State.discardSent_variant : s.discardSent.variant = s.variant := by
  dsimp only [State.discardSent]
  split <;> simp

/-! ### Machine/Trigger.lean -/

@[simp] theorem State.acqShow_variant : s.acqShow.variant = s.variant := by simp [State.acqShow]
@[simp] theorem State.decideStep_variant (i k slot) : (s.decideStep i k slot).variant = s.variant := by simp [State.decideStep]
@[simp] theorem State.protShow_variant (on) : (s.protShow on).variant = s.variant := by simp [State.protShow]

@[simp] theorem State.protOpen_variant (slot fire) : (s.protOpen slot fire).variant = s.variant := by
  dsimp only [State.protOpen]
  split <;> simp

@[simp] theorem State.protWithdraw_variant (slot now) : (s.protWithdraw slot now).variant = s.variant := by
  dsimp only [State.protWithdraw]
  split <;> simp

@[simp] theorem State.chooseTrigger_variant : s.chooseTrigger.variant = s.variant := by
  dsimp only [State.chooseTrigger]
  (repeat' split) <;> simp

@[simp] theorem State.dropAfter_variant (slot) : (s.dropAfter slot).variant = s.variant := by simp [State.dropAfter]
@[simp] theorem State.collarHeld_variant : s.collarHeld.variant = s.variant := by simp [State.collarHeld]
@[simp] theorem State.liveClipped_variant (last) : (s.liveClipped last).variant = s.variant := by simp [State.liveClipped]

@[simp] theorem State.commitTrigger_variant (p) : (s.commitTrigger p).variant = s.variant := by
  unfold State.commitTrigger
  extract_lets _ _ _ _ _ _ finish _ s1 s2 s3 s4 s5 s6 s7 s8 s9 s10 s11 s12 s13 _ s14 s15 s16 s17
  have hdrop : s4.variant = s3.variant := by
    clear_value finish
    dsimp only [s4]
    split <;> simp
  have hclip : s12.variant = s11.variant := by
    clear_value finish s11
    dsimp only [s12]
    split <;> simp
  have hlast : s17.variant = s12.variant := by simp [s17, s16, s15, s14, s13]
  have hmid : s11.variant = s4.variant := by simp [s11, s10, s9, s8, s7, s6, s5]
  simp [hlast, hclip, hmid, hdrop, s3, s2, s1]

@[simp] theorem State.settleTrigger_variant : s.settleTrigger.variant = s.variant := by
  dsimp only [State.settleTrigger]
  (repeat' split) <;> simp

@[simp] theorem State.ownFirePlaced_variant (slot prov desc commitPly) :
    (s.ownFirePlaced slot prov desc commitPly).variant = s.variant := by
  simp [State.ownFirePlaced]

@[simp] theorem State.ownFireCommitted_variant (slot commitPly) : (s.ownFireCommitted slot commitPly).variant = s.variant := by
  simp [State.ownFireCommitted]

@[simp] theorem State.ownFireWithdrawn_variant : s.ownFireWithdrawn.variant = s.variant := by simp [State.ownFireWithdrawn]

/-! ### Machine/Act.lean -/

@[simp] theorem State.activate_variant (n slot) : (s.activate n slot).variant = s.variant := by simp [State.activate]

@[simp] theorem State.activateMask_variant (mask slot) : (s.activateMask mask slot).variant = s.variant := by
  simp [State.activateMask]

@[simp] theorem execActPulseEnd_variant (t n) : (Res.keep s (execActPulseEnd t n s)).variant = s.variant := by
  simp [execActPulseEnd]

@[simp] theorem execActRelease_variant (t value) : (Res.keep s (execActRelease t value s)).variant = s.variant := by
  simp [execActRelease]

@[simp] theorem execActReadback_variant (t levels) : (Res.keep s (execActReadback t levels s)).variant = s.variant := by
  simp [execActReadback]

@[simp] theorem execActClr_variant (value) : (Res.keep s (execActClr value s)).variant = s.variant := by simp [execActClr]

@[simp] theorem State.actStarted_variant (t) : (s.actStarted t).variant = s.variant := by
  dsimp only [State.actStarted]
  split <;> simp (disch := (rintro s x _ rfl; split <;> simp))

/-! ### Machine/Ladder.lean -/

@[simp] theorem State.ladderInputs_variant (w) : (s.ladderInputs w).1.variant = s.variant := by simp [State.ladderInputs]
@[simp] theorem execSoft_variant (t value) : (Res.keep s (execSoft t value s)).variant = s.variant := by simp [execSoft]
@[simp] theorem execTldClr_variant (value) : (Res.keep s (execTldClr value s)).variant = s.variant := by simp [execTldClr]
@[simp] theorem execTldPtSel_variant (value) : (Res.keep s (execTldPtSel value s)).variant = s.variant := by simp [execTldPtSel]

/-! ### Machine/Gambit.lean -/

@[simp] theorem State.histStore_variant (h) : (s.histStore h).variant = s.variant := by simp [State.histStore]
@[simp] theorem State.setHist_variant (h) : (s.setHist h).variant = s.variant := by simp [State.setHist]
@[simp] theorem State.gmbShow_variant : s.gmbShow.variant = s.variant := by simp [State.gmbShow]
@[simp] theorem State.setPaused_variant (b full) : (s.setPaused b full).variant = s.variant := by simp [State.setPaused]

@[simp] theorem State.sendFire_variant (e twin mark prov seq commit) :
    (s.sendFire e twin mark prov seq commit).variant = s.variant := by
  simp [State.sendFire]

@[simp] theorem State.sendTokens_variant (e) : (s.sendTokens e).1.variant = s.variant := by simp [State.sendTokens]
@[simp] theorem State.injectAt_variant (e past) : (s.injectAt e past).variant = s.variant := by simp [State.injectAt]
@[simp] theorem State.activateLate_variant (mask) : (s.activateLate mask).variant = s.variant := by simp [State.activateLate]
@[simp] theorem State.countEffect_variant (e) : (s.countEffect e).variant = s.variant := by simp [State.countEffect]
@[simp] theorem State.issue_variant (e past) : (s.issue e past).variant = s.variant := by simp [State.issue]
@[simp] theorem State.confirm_variant (e commit) : (s.confirm e commit).variant = s.variant := by simp [State.confirm]

@[simp] theorem State.withdrawInject_variant (from_) : (s.withdrawInject from_).variant = s.variant := by
  simp [State.withdrawInject]

@[simp] theorem State.retractOuts_variant (e) : (s.retractOuts e).variant = s.variant := by simp [State.retractOuts]
@[simp] theorem State.withdraw_variant (m) : (s.withdraw m).variant = s.variant := by simp [State.withdraw]

@[simp] theorem State.releaseInjections_variant : s.releaseInjections.variant = s.variant := by
  dsimp only [State.releaseInjections]
  simp (disch := (rintro s x _ rfl; split <;> simp))

@[simp] theorem State.leaveArmed_variant : s.leaveArmed.variant = s.variant := by simp [State.leaveArmed]

@[simp] theorem State.settleArmed_variant : s.settleArmed.variant = s.variant := by
  dsimp only [State.settleArmed]
  split <;> simp

@[simp] theorem State.advanceCommit_variant : s.advanceCommit.variant = s.variant := by simp [State.advanceCommit]

@[simp] theorem State.evalNext_variant : s.evalNext.1.variant = s.variant := by
  dsimp only [State.evalNext]
  split
  · rfl
  · simp [apply_ite Prod.fst]

@[simp] theorem State.evalMany_variant (n) : (State.evalMany n s).variant = s.variant := by
  induction n generalizing s with
  | zero => rfl
  | succ n ih => simp [State.evalMany, ih]

@[simp] theorem State.rollback_variant (m u) : (s.rollback m u).variant = s.variant := by
  dsimp only [State.rollback]
  split <;> simp

@[simp] theorem State.learn_variant (t) : (s.learn t).variant = s.variant := by
  dsimp only [State.learn]
  split <;> simp

@[simp] theorem State.withdrawAll_variant (restart gap) : (s.withdrawAll restart gap).variant = s.variant := by
  simp [State.withdrawAll]

@[simp] theorem State.overrun_variant (p) : (s.overrun p).variant = s.variant := by simp [State.overrun]
@[simp] theorem State.ladderStart_variant (slot) : (s.ladderStart slot).variant = s.variant := by simp [State.ladderStart]
@[simp] theorem State.ladderEnd_variant (p) : (s.ladderEnd p).variant = s.variant := by simp [State.ladderEnd]
@[simp] theorem execLadderPly_variant (t x) : (Res.keep s (execLadderPly t x s)).variant = s.variant := by simp [execLadderPly]

@[simp] theorem execLateBitKnown_variant (t unit ply) : (Res.keep s (execLateBitKnown t unit ply s)).variant = s.variant := by
  simp [execLateBitKnown]

@[simp] theorem execReplayCatchUp_variant (t) : (Res.keep s (execReplayCatchUp t s)).variant = s.variant := by
  simp [execReplayCatchUp]

@[simp] theorem execLadderOverrun_variant (t) : (Res.keep s (execLadderOverrun t s)).variant = s.variant := by
  simp [execLadderOverrun]

@[simp] theorem execSettleTimeout_variant (t) : (Res.keep s (execSettleTimeout t s)).variant = s.variant := by
  dsimp only [execSettleTimeout]
  split <;> simp

@[simp] theorem execTldTcSnapSel_variant (t value) : (Res.keep s (execTldTcSnapSel t value s)).variant = s.variant := by
  simp [execTldTcSnapSel]

@[simp] theorem execGmbClr_variant (value) : (Res.keep s (execGmbClr value s)).variant = s.variant := by simp [execGmbClr]
@[simp] theorem State.gmbCopied_variant : s.gmbCopied.variant = s.variant := by simp [State.gmbCopied]

/-! ### Machine/Rfq.lean -/

@[simp] theorem State.rfqState_variant : s.rfqState.variant = s.variant := by simp [State.rfqState]

@[simp] theorem execChunkAgeClose_variant (t sid) : (Res.keep s (execChunkAgeClose t sid s)).variant = s.variant := by
  dsimp only [execChunkAgeClose]
  split <;> simp

@[simp] theorem execChunkClose_variant (t sid) : (Res.keep s (execChunkClose t sid s)).variant = s.variant := by
  dsimp only [execChunkClose]
  (repeat' split) <;> simp

@[simp] theorem State.drainStaging_variant (sid) : (s.drainStaging sid).variant = s.variant := by simp [State.drainStaging]

@[simp] theorem execBankFree_variant (t sid bank) : (Res.keep s (execBankFree t sid bank s)).variant = s.variant := by
  dsimp only [execBankFree]
  split <;> simp

@[simp] theorem State.discardOpen_variant (sid) : (s.discardOpen sid).1.variant = s.variant := by
  dsimp only [State.discardOpen]
  split <;> simp

@[simp] theorem State.discardBank_variant (sid bank) : (s.discardBank sid bank).1.variant = s.variant := by
  dsimp only [State.discardBank]
  split <;> simp

@[simp] theorem State.flushStream_variant (sid banked) : (s.flushStream sid banked).variant = s.variant := by
  dsimp only [State.flushStream]
  split <;> simp

@[simp] theorem execRfqFlush_variant (t value) : (Res.keep s (execRfqFlush t value s)).variant = s.variant := by
  simp [execRfqFlush]

@[simp] theorem State.flushGapMark_variant (sid first resume) : (s.flushGapMark sid first resume).variant = s.variant := by
  simp [State.flushGapMark]

@[simp] theorem execFlushDone_variant (t) : (Res.keep s (execFlushDone t s)).variant = s.variant := by simp [execFlushDone]
@[simp] theorem execRfqClr_variant (value) : (Res.keep s (execRfqClr value s)).variant = s.variant := by simp [execRfqClr]

/-! ### Machine/Cmp.lean -/

@[simp] theorem execBlockVerify_variant (t lane good bad) :
    (Res.keep s (execBlockVerify t lane good bad s)).variant = s.variant := by
  dsimp only [execBlockVerify]
  split <;> simp

@[simp] theorem execCmpClr_variant (value) : (Res.keep s (execCmpClr value s)).variant = s.variant := by simp [execCmpClr]
@[simp] theorem execDcpClr_variant (value) : (Res.keep s (execDcpClr value s)).variant = s.variant := by simp [execDcpClr]

/-! ### Machine/Mem.lean -/

@[simp] theorem State.modOp_variant (id f) : (s.modOp id f).variant = s.variant := by simp [State.modOp]
@[simp] theorem State.scrCorrected_variant (a) : (s.scrCorrected a).variant = s.variant := by simp [State.scrCorrected]

@[simp] theorem State.scrUncorrectable_variant (a) : (s.scrUncorrectable a).variant = s.variant := by
  simp [State.scrUncorrectable]

@[simp] theorem State.marShow_variant : s.marShow.variant = s.variant := by simp [State.marShow]
@[simp] theorem State.yieldTile_variant (b master) : (s.yieldTile b master).variant = s.variant := by simp [State.yieldTile]
@[simp] theorem State.refuseAccess_variant : s.refuseAccess.variant = s.variant := by simp [State.refuseAccess]

@[simp] theorem State.meetTest_variant (master a) : (s.meetTest master a).1.variant = s.variant := by
  dsimp only [State.meetTest]
  (repeat' split) <;> simp

@[simp] theorem execLendCollision_variant (t master offset) :
    (Res.keep s (execLendCollision t master offset s)).variant = s.variant := by
  dsimp only [execLendCollision]
  split <;> simp

@[simp] theorem execTestCollide_variant (t offset read host op) :
    (Res.keep s (execTestCollide t offset read host op s)).variant = s.variant := by
  dsimp only [execTestCollide]
  (repeat' split) <;> simp

@[simp] theorem State.hostScrWrite_variant (a n narrow x f) : (s.hostScrWrite a n narrow x f).variant = s.variant := by
  simp [State.hostScrWrite]

@[simp] theorem State.poisonedRx_variant : s.poisonedRx.variant = s.variant := by simp [State.poisonedRx]

@[simp] theorem execBar2Write_variant (t offset data poisoned x) :
    (Res.keep s (execBar2Write t offset data poisoned x s)).variant = s.variant := by
  dsimp only [execBar2Write]
  (repeat' split) <;> simp

@[simp] theorem execBar2AliasWrite_variant (t offset data poisoned x) :
    (Res.keep s (execBar2AliasWrite t offset data poisoned x s)).variant = s.variant := by
  dsimp only [execBar2AliasWrite]
  (repeat' split) <;> simp

@[simp] theorem execBar4Write_variant (t offset data poisoned) :
    (Res.keep s (execBar4Write t offset data poisoned s)).variant = s.variant := by
  simp [execBar4Write]

@[simp] theorem execBarMemoryRead_variant (t deep offset len ce ue) :
    (Res.keep s (execBarMemoryRead t deep offset len ce ue s)).variant = s.variant := by
  dsimp only [execBarMemoryRead]
  (repeat' split) <;> simp

@[simp] theorem execScratchSweep_variant (t err) : (Res.keep s (execScratchSweep t err s)).variant = s.variant := by
  dsimp only [execScratchSweep]
  (repeat' split) <;> simp

@[simp] theorem execDmScrub_variant (t err rewritten) : (Res.keep s (execDmScrub t err rewritten s)).variant = s.variant := by
  dsimp only [execDmScrub]
  (repeat' split) <;> simp

@[simp] theorem State.fillTile_variant (tile fill) : (s.fillTile tile fill).variant = s.variant := by simp [State.fillTile]
@[simp] theorem State.borrow_variant (b) : (s.borrow b).variant = s.variant := by simp [State.borrow]

@[simp] theorem execRotationTile_variant (t) : (Res.keep s (execRotationTile t s)).variant = s.variant := by
  dsimp only [execRotationTile]
  (repeat' split) <;> simp

@[simp] theorem State.repairRow_variant (a) : (s.repairRow a).variant = s.variant := by simp [State.repairRow]
@[simp] theorem State.marchFail_variant (a diff) : (s.marchFail a diff).variant = s.variant := by simp [State.marchFail]

@[simp] theorem State.marchNext_variant (op) : (s.marchNext op).variant = s.variant := by
  dsimp only [State.marchNext]
  split <;> simp

@[simp] theorem execMarchStitch_variant (t fails ended) : (Res.keep s (execMarchStitch t fails ended s)).variant = s.variant := by
  dsimp only [execMarchStitch]
  (repeat' split) <;> simp

@[simp] theorem execYieldRetry_variant (t) : (Res.keep s (execYieldRetry t s)).variant = s.variant := by
  dsimp only [execYieldRetry]
  (repeat' split) <;> simp

@[simp] theorem State.lendCopied_variant : s.lendCopied.variant = s.variant := by
  dsimp only [State.lendCopied]
  split <;> simp

@[simp] theorem execScrLendSel_variant (value) : (Res.keep s (execScrLendSel value s)).variant = s.variant := by
  simp [execScrLendSel]

@[simp] theorem execScrClr_variant (value) : (Res.keep s (execScrClr value s)).variant = s.variant := by simp [execScrClr]
@[simp] theorem execMarClr_variant (value) : (Res.keep s (execMarClr value s)).variant = s.variant := by simp [execMarClr]

@[simp] theorem execDmcBadrowSel_variant (value) : (Res.keep s (execDmcBadrowSel value s)).variant = s.variant := by
  simp [execDmcBadrowSel]

@[simp] theorem execDmcClr_variant (value) : (Res.keep s (execDmcClr value s)).variant = s.variant := by simp [execDmcClr]

/-! ### Machine/Store.lean -/

@[simp] theorem State.issueWrites_variant (w) : (s.issueWrites w).variant = s.variant := by simp [State.issueWrites]

@[simp] theorem State.openExtent_variant (j sid) : (s.openExtent j sid).2.variant = s.variant := by
  dsimp only [State.openExtent]
  split <;> simp

@[simp] theorem State.placeChunk_variant (j sid blocks) : (s.placeChunk j sid blocks).2.variant = s.variant := by
  dsimp only [State.placeChunk]
  split
  · rfl
  · rw [← State.openExtent_variant s j sid]
    split <;> simp [*]

@[simp] theorem State.useBlocks_variant (d i n) : (s.useBlocks d i n).variant = s.variant := by simp [State.useBlocks]
@[simp] theorem State.ensureJob_variant (c) : (s.ensureJob c).variant = s.variant := by simp [State.ensureJob]

@[simp] theorem State.storeFull_variant (j) : (s.storeFull j).variant = s.variant := by
  dsimp only [State.storeFull]
  split <;> simp

@[simp] theorem execStoTakeChunk_variant (t bad) : (Res.keep s (execStoTakeChunk t bad s)).variant = s.variant := by
  dsimp only [execStoTakeChunk]
  split
  · simp
  · split
    · simp
    · split
      · simp
      · split
        · simp
        · split
          · simp
          · split <;> rename_i h <;> simp [State.variant_of_snd h]

@[simp] theorem State.modWrite_variant (w f) : (s.modWrite w f).variant = s.variant := by simp [State.modWrite]

@[simp] theorem execNvmeWriteComplete_variant (t sid seq) :
    (Res.keep s (execNvmeWriteComplete t sid seq s)).variant = s.variant := by
  dsimp only [execNvmeWriteComplete]
  split <;> simp

@[simp] theorem execNvmeWriteError_variant (t sid seq timeout status) :
    (Res.keep s (execNvmeWriteError t sid seq timeout status s)).variant = s.variant := by
  dsimp only [execNvmeWriteError]
  split
  · simp
  · split
    · simp
    · split
      · simp
      · split <;> rename_i h <;> simp [State.variant_of_snd h]

@[simp] theorem State.issueMap_variant (d) : (s.issueMap d).variant = s.variant := by simp [State.issueMap]
@[simp] theorem State.modDrive_variant (d f) : (s.modDrive d f).variant = s.variant := by simp [State.modDrive]
@[simp] theorem execCommitBatch_variant (t) : (Res.keep s (execCommitBatch t s)).variant = s.variant := by simp [execCommitBatch]

@[simp] theorem execNvmeFlushComplete_variant (t d) : (Res.keep s (execNvmeFlushComplete t d s)).variant = s.variant := by
  simp [execNvmeFlushComplete]

@[simp] theorem State.chunkCommitted_variant (w) : (s.chunkCommitted w).variant = s.variant := by simp [State.chunkCommitted]

@[simp] theorem execMapFuaComplete_variant (t d) : (Res.keep s (execMapFuaComplete t d s)).variant = s.variant := by
  simp [execMapFuaComplete]

@[simp] theorem State.entryWritten_variant (e) : (s.entryWritten e).variant = s.variant := by
  dsimp only [State.entryWritten]
  (repeat' split) <;> simp

@[simp] theorem State.reportLost_variant : s.reportLost.variant = s.variant := by simp [State.reportLost]

@[simp] theorem execRecordTableWrite_variant (t) : (Res.keep s (execRecordTableWrite t s)).variant = s.variant := by
  dsimp only [execRecordTableWrite]
  split <;> simp

@[simp] theorem execDriveLost_variant (t d) : (Res.keep s (execDriveLost t d s)).variant = s.variant := by simp [execDriveLost]
@[simp] theorem State.judgeStore_variant (ims) : (s.judgeStore ims).variant = s.variant := by simp [State.judgeStore]
@[simp] theorem State.showDrive_variant (d im) : (s.showDrive d im).variant = s.variant := by simp [State.showDrive]
@[simp] theorem State.nvqState_variant : s.nvqState.variant = s.variant := by simp [State.nvqState]

@[simp] theorem execStoreRecovery_variant (t images) : (Res.keep s (execStoreRecovery t images s)).variant = s.variant := by
  simp [execStoreRecovery]

@[simp] theorem execStoFreeRec_variant (t value) : (Res.keep s (execStoFreeRec t value s)).variant = s.variant := by
  dsimp only [execStoFreeRec]
  split <;> simp

@[simp] theorem execStoCatSel_variant (value) : (Res.keep s (execStoCatSel value s)).variant = s.variant := by
  simp [execStoCatSel]

@[simp] theorem execStoClr_variant (value) : (Res.keep s (execStoClr value s)).variant = s.variant := by simp [execStoClr]

@[simp] theorem execNvqReset_variant (t value) : (Res.keep s (execNvqReset t value s)).variant = s.variant := by
  simp [execNvqReset]

@[simp] theorem execNvqClr_variant (value) : (Res.keep s (execNvqClr value s)).variant = s.variant := by simp [execNvqClr]

/-! ### Machine/Host.lean -/

@[simp] theorem State.modRing_variant (n f) : (s.modRing n f).variant = s.variant := by simp [State.modRing]
@[simp] theorem State.cmdShow_variant : s.cmdShow.variant = s.variant := by simp [State.cmdShow]

@[simp] theorem execSqDoorbell_variant (t n value) : (Res.keep s (execSqDoorbell t n value s)).variant = s.variant := by
  simp [execSqDoorbell]

@[simp] theorem execCqDoorbell_variant (t n value) : (Res.keep s (execCqDoorbell t n value s)).variant = s.variant := by
  simp [execCqDoorbell]

@[simp] theorem State.takeIn_variant (ring from_ d) : (s.takeIn ring from_ d).variant = s.variant := by
  dsimp only [State.takeIn]
  split <;> simp

@[simp] theorem execCommandFetch_variant (t data) : (Res.keep s (execCommandFetch t data s)).variant = s.variant := by
  dsimp only [execCommandFetch]
  (repeat' split) <;> simp

@[simp] theorem State.promote_variant (n) : (State.promote n s).variant = s.variant := by
  induction n generalizing s with
  | zero => rfl
  | succ n ih =>
    rw [State.promote]
    split
    · rfl
    · dsimp only
      split
      · rfl
      · simp [ih]

theorem State.claim_variant {t opcode r u o} (h : s.claim t opcode r = some (u, o)) : u.variant = s.variant := by
  have all : ∀ p ∈ s.claim t opcode r, p.1.variant = s.variant := by
    dsimp only [State.claim]
    (repeat' split) <;> simp
  exact all _ h

theorem State.claim_at_variant {t t' opcode r u o} (h : (s.at t).claim t' opcode r = some (u, o)) : u.variant = s.variant :=
  (State.claim_variant _ h).trans (by simp)

@[simp] theorem State.dcpShow_variant : s.dcpShow.variant = s.variant := by simp [State.dcpShow]

@[simp] theorem State.cleanUp_variant (o) : (s.cleanUp o).variant = s.variant := by
  dsimp only [State.cleanUp]
  (repeat' split) <;> simp

@[simp] theorem State.endOp_variant (id status) : (s.endOp id status).variant = s.variant := by
  dsimp only [State.endOp]
  split
  · rfl
  · simp only [State.cmdShow_variant, State.dcpShow_variant, State.promote_variant]
    split <;> simp

@[simp] theorem execStitchEnd_variant (t) : (Res.keep s (execStitchEnd t s)).variant = s.variant := by
  dsimp only [execStitchEnd]
  (repeat' split) <;> simp

@[simp] theorem State.stopOp_variant (o status) : (s.stopOp o status).variant = s.variant := by simp [State.stopOp]

@[simp] theorem execDeadline_variant (t r) : (Res.keep s (execDeadline t r s)).variant = s.variant := by
  dsimp only [execDeadline]
  split <;> simp

@[simp] theorem execNop_variant (t r) : (Res.keep s (execNop t r s)).variant = s.variant := by
  dsimp only [execNop]
  split <;> simp

@[simp] theorem execAbort_variant (t r) : (Res.keep s (execAbort t r s)).variant = s.variant := by
  dsimp only [execAbort]
  (repeat' split) <;> simp

@[simp] theorem State.cqMessage_variant (n) : (s.cqMessage n).variant = s.variant := by simp [State.cqMessage]

@[simp] theorem execCommandCompletion_variant (t r failed) :
    (Res.keep s (execCommandCompletion t r failed s)).variant = s.variant := by
  dsimp only [execCommandCompletion]
  (repeat' split) <;> simp

@[simp] theorem execCoalTimer_variant (t n) : (Res.keep s (execCoalTimer t n s)).variant = s.variant := by
  dsimp only [execCoalTimer]
  split <;> simp

@[simp] theorem execMarch_variant (t r) : (Res.keep s (execMarch t r s)).variant = s.variant := by
  dsimp only [execMarch]
  split
  · simp
  · rename_i u o h
    have hu := State.claim_at_variant s h
    (repeat' split) <;> simp [hu]

@[simp] theorem execCalibrate_variant (t r means) : (Res.keep s (execCalibrate t r means s)).variant = s.variant := by
  dsimp only [execCalibrate]
  split
  · simp
  · rename_i u o h
    have hu := State.claim_at_variant s h
    (repeat' split) <;> simp [hu]

@[simp] theorem State.opRead_variant (space a n host) : (s.opRead space a n host).1.variant = s.variant := by
  dsimp only [State.opRead]
  split <;> simp

@[simp] theorem State.opWrite_variant (space a bs) : (s.opWrite space a bs).1.variant = s.variant := by
  dsimp only [State.opWrite]
  (repeat' split) <;> simp

@[simp] theorem State.freeRange_variant (space b n) : (s.freeRange space b n).variant = s.variant := by
  induction n with
  | zero => rfl
  | succ n ih => simp [State.freeRange, ih]

theorem State.takeLane_variant (id) : ∀ u ∈ s.takeLane id, u.variant = s.variant := by
  dsimp only [State.takeLane]
  (repeat' split) <;> simp

@[simp] theorem execCompressBuf_variant (t r host) : (Res.keep s (execCompressBuf t r host s)).variant = s.variant := by
  dsimp only [execCompressBuf]
  split
  · simp
  · rename_i u o h
    have hu := State.claim_at_variant s h
    split
    · simp [hu]
    · simp [hu]
    · rename_i w _ hw
      have hw : w.variant = s.variant := (State.takeLane_variant _ _ _ hw).trans hu
      refine Res.keep_ite_variant (by simp [hw]) (Res.keep_ite_variant (by simp [hw]) (Res.keep_ite_variant (by simp [hw]) ?_))
      split <;> rename_i hr
      · simp [State.variant_of_fst hr, hw]
      · split
        · simp [State.variant_of_fst hr, hw]
        · simp [State.variant_of_fst hr, hw]

@[simp] theorem State.dcpFail_variant (cause sid thread seq) : (s.dcpFail cause sid thread seq).variant = s.variant := by
  simp [State.dcpFail]

@[simp] theorem State.decodeChunk_variant (ts bs) : (s.decodeChunk ts bs).1.variant = s.variant := by
  dsimp only [State.decodeChunk]
  (repeat' split) <;> simp

@[simp] theorem State.deliverTo_variant (o bs) : (s.deliverTo o bs).1.variant = s.variant := by simp [State.deliverTo]

@[simp] theorem execDecompressBuf_variant (t r host) : (Res.keep s (execDecompressBuf t r host s)).variant = s.variant := by
  dsimp only [execDecompressBuf]
  split
  · simp
  · rename_i u o h
    have hu := State.claim_at_variant s h
    split
    · simp [hu]
    · refine Res.keep_ite_variant (by simp [hu]) (Res.keep_ite_variant (by simp [hu]) (Res.keep_ite_variant (by simp [hu]) ?_))
      split <;> rename_i hr
      · simp [State.variant_of_fst hr, hu]
      · simp [State.variant_of_fst hr, hu, apply_ite Prod.fst]

@[simp] theorem execOffload_variant (t r) : (Res.keep s (execOffload t r s)).variant = s.variant := by
  dsimp only [execOffload]
  split
  · simp
  · rename_i u o h
    have hu := State.claim_at_variant s h
    (repeat' split) <;> simp [hu]

@[simp] theorem execReadRecord_variant (t r store) : (Res.keep s (execReadRecord t r store s)).variant = s.variant := by
  dsimp only [execReadRecord]
  split
  · simp
  · rename_i u o h
    have hu := State.claim_at_variant s h
    (repeat' split) <;> simp [hu]

@[simp] theorem execStoreFormat_variant (t r storeId) : (Res.keep s (execStoreFormat t r storeId s)).variant = s.variant := by
  dsimp only [execStoreFormat]
  split
  · simp
  · rename_i u o h
    have hu := State.claim_at_variant s h
    (repeat' split) <;> simp [hu]

@[simp] theorem execStoreScrub_variant (t r store) : (Res.keep s (execStoreScrub t r store s)).variant = s.variant := by
  dsimp only [execStoreScrub]
  split
  · simp
  · rename_i u o h
    have hu := State.claim_at_variant s h
    (repeat' split) <;> simp [hu]

@[simp] theorem execOutOfBarRequest_variant (t) : (Res.keep s (execOutOfBarRequest t s)).variant = s.variant := by
  simp [execOutOfBarRequest]

@[simp] theorem execConfigurationRequest_variant (t mask) :
    (Res.keep s (execConfigurationRequest t mask s)).variant = s.variant := by
  dsimp only [execConfigurationRequest]
  (repeat' split) <;> simp

@[simp] theorem execHifClr_variant (value) : (Res.keep s (execHifClr value s)).variant = s.variant := by simp [execHifClr]

/-! ### Machine/Seam.lean -/

@[simp] theorem State.diverge_variant (bit last slot w3) : (s.diverge bit last slot w3).variant = s.variant := by
  simp [State.diverge]

@[simp] theorem State.fireMismatch_variant (slot) : (s.fireMismatch slot).variant = s.variant := by simp [State.fireMismatch]
@[simp] theorem State.compareFires_variant (finish) : (s.compareFires finish).variant = s.variant := by simp [State.compareFires]
@[simp] theorem State.compareSpan_variant (y) : (s.compareSpan y).variant = s.variant := by simp [State.compareSpan]

/-! ### Machine/Acq.lean -/

@[simp] theorem State.spanSlots_variant (v) : (s.spanSlots v).2.variant = s.variant := by
  dsimp only [State.spanSlots]
  (repeat' split) <;> simp

@[simp] theorem State.armResult_variant (result cause which clip cut) :
    (s.armResult result cause which clip cut).variant = s.variant := by
  simp [State.armResult]

@[simp] theorem State.grants_variant : s.grants.2.variant = s.variant := by
  dsimp only [State.grants]
  (repeat' split) <;> simp

@[simp] theorem State.layRings_variant : s.layRings.variant = s.variant := by simp [State.layRings]
@[simp] theorem State.armPass_variant (slot) : (s.armPass slot).variant = s.variant := by simp [State.armPass]

@[simp] theorem State.tryArm_variant (slot) : (s.tryArm slot).1.variant = s.variant := by
  dsimp only [State.tryArm]
  split <;> simp

@[simp] theorem execArm_variant (t value) : (Res.keep s (execArm t value s)).variant = s.variant := by simp [execArm]
@[simp] theorem State.gapsAtArm_variant (slot) : (s.gapsAtArm slot).variant = s.variant := by simp [State.gapsAtArm]
@[simp] theorem State.unvalid_variant (a) : (s.unvalid a).variant = s.variant := by simp [State.unvalid]

@[simp] theorem State.dropRecordJob_variant : s.dropRecordJob.variant = s.variant := by
  dsimp only [State.dropRecordJob]
  split <;> simp

@[simp] theorem State.beginRecord_variant (slot segment old) : (s.beginRecord slot segment old).variant = s.variant := by
  simp [State.beginRecord]

@[simp] theorem execArmingTakesEffect_variant (t) : (Res.keep s (execArmingTakesEffect t s)).variant = s.variant := by
  dsimp only [execArmingTakesEffect]
  split <;> simp

@[simp] theorem State.stopAt_variant (ply) : (s.stopAt ply).variant = s.variant := by simp [State.stopAt]
@[simp] theorem execStop_variant (t value) : (Res.keep s (execStop t value s)).variant = s.variant := by simp [execStop]
@[simp] theorem execCollarFull_variant (t) : (Res.keep s (execCollarFull t s)).variant = s.variant := by simp [execCollarFull]

@[simp] theorem State.drainBanks_variant (sid) : (s.drainBanks sid).variant = s.variant := by
  simp (disch := (rintro s x _ rfl; split <;> simp)) [State.drainBanks]

@[simp] theorem State.finalChunk_variant (sid) : (s.finalChunk sid).variant = s.variant := by simp [State.finalChunk]
@[simp] theorem State.writeRecord_variant (e) : (s.writeRecord e).variant = s.variant := by simp [State.writeRecord]
@[simp] theorem State.nextSegment_variant : s.nextSegment.variant = s.variant := by simp [State.nextSegment]
@[simp] theorem State.recordDone_variant (e cause) : (s.recordDone e cause).variant = s.variant := by simp [State.recordDone]

@[simp] theorem execRecordClose_variant (t) : (Res.keep s (execRecordClose t s)).variant = s.variant := by
  dsimp only [execRecordClose]
  (repeat' split) <;> simp

@[simp] theorem execLiveClip_variant (t) : (Res.keep s (execLiveClip t s)).variant = s.variant := by
  dsimp only [execLiveClip]
  (repeat' split) <;> simp

@[simp] theorem State.thinShow_variant : s.thinShow.variant = s.variant := by simp [State.thinShow]

@[simp] theorem execThinStepUp_variant (t i press) : (Res.keep s (execThinStepUp t i press s)).variant = s.variant := by
  simp [execThinStepUp]

@[simp] theorem execThinStepDown_variant (t i press) : (Res.keep s (execThinStepDown t i press s)).variant = s.variant := by
  simp [execThinStepDown]

@[simp] theorem execRate_variant (t i) : (Res.keep s (execRate t i s)).variant = s.variant := by
  dsimp only [execRate]
  split <;> simp

@[simp] theorem execOverflow_variant (t i lost) : (Res.keep s (execOverflow t i lost s)).variant = s.variant := by
  simp [execOverflow]

@[simp] theorem execProtWindowClose_variant (t) : (Res.keep s (execProtWindowClose t s)).variant = s.variant := by
  simp [execProtWindowClose]

@[simp] theorem execAcqClr_variant (value) : (Res.keep s (execAcqClr value s)).variant = s.variant := by simp [execAcqClr]

@[simp] theorem execAcqThinClr_variant (value) : (Res.keep s (execAcqThinClr value s)).variant = s.variant := by
  simp [execAcqThinClr]

@[simp] theorem State.kmaxCopied_variant (i) : (s.kmaxCopied i).variant = s.variant := by simp [State.kmaxCopied]

/-! ### Machine/Eth.lean -/

@[simp] theorem State.serShow_variant : s.serShow.variant = s.variant := by simp [State.serShow]

@[simp] theorem State.setLanes_variant (lo n mode lock) : (s.setLanes lo n mode lock).variant = s.variant := by
  simp [State.setLanes]

@[simp] theorem execLaneDown_variant (t lane errors eye) :
    (Res.keep s (execLaneDown t lane errors eye s)).variant = s.variant := by
  simp [execLaneDown]

@[simp] theorem execSerClr_variant (value) : (Res.keep s (execSerClr value s)).variant = s.variant := by simp [execSerClr]

@[simp] theorem execEthLinkChange_variant (t port up) : (Res.keep s (execEthLinkChange t port up s)).variant = s.variant := by
  dsimp only [execEthLinkChange]
  split <;> simp

@[simp] theorem execPauseFrame_variant (t port slots) : (Res.keep s (execPauseFrame t port slots s)).variant = s.variant := by
  simp [execPauseFrame]

@[simp] theorem State.sendDatagrams_variant (d c bs n frag) : (State.sendDatagrams d c bs n frag s).variant = s.variant := by
  induction n generalizing s frag with
  | zero => rfl
  | succ n ih => simp [State.sendDatagrams, ih]

@[simp] theorem execEthChunkSend_variant (t dest) : (Res.keep s (execEthChunkSend t dest s)).variant = s.variant := by
  dsimp only [execEthChunkSend, Res.keep_next]
  split
  · simp
  · split
    · simp
    · split <;> simp

@[simp] theorem execEthClr_variant (value) : (Res.keep s (execEthClr value s)).variant = s.variant := by simp [execEthClr]

/-! ### Machine/Flex.lean -/

@[simp] theorem State.casShow_variant : s.casShow.variant = s.variant := by simp [State.casShow]
@[simp] theorem State.flxShow_variant : s.flxShow.variant = s.variant := by simp [State.flxShow]
@[simp] theorem State.setPort_variant (p st) : (s.setPort p st).variant = s.variant := by simp [State.setPort]
@[simp] theorem State.retrigger_variant : s.retrigger.variant = s.variant := by simp [State.retrigger]
@[simp] theorem State.setBroken_variant : s.setBroken.variant = s.variant := by simp [State.setBroken]
@[simp] theorem State.linkLoss_variant (p) : (s.linkLoss p).variant = s.variant := by simp [State.linkLoss]
@[simp] theorem execLinkLoss_variant (t port) : (Res.keep s (execLinkLoss t port s)).variant = s.variant := by simp [execLinkLoss]
@[simp] theorem State.resend_variant (t p ack) : (s.resend t p ack).variant = s.variant := by simp [State.resend]

@[simp] theorem execFlitReceive_variant (t port flit corr uncorr) :
    (Res.keep s (execFlitReceive t port flit corr uncorr s)).variant = s.variant := by
  simp [execFlitReceive]

@[simp] theorem execFlxClr_variant (value) : (Res.keep s (execFlxClr value s)).variant = s.variant := by simp [execFlxClr]

@[simp] theorem execFlxRetrain_variant (t value) : (Res.keep s (execFlxRetrain t value s)).variant = s.variant := by
  simp [execFlxRetrain]

@[simp] theorem State.sendPair_variant : s.sendPair.variant = s.variant := by simp [State.sendPair]

@[simp] theorem execPortRetrain_variant (t port standby) :
    (Res.keep s (execPortRetrain t port standby s)).variant = s.variant := by
  simp [execPortRetrain]

@[simp] theorem State.flxCopied_variant : s.flxCopied.variant = s.variant := by simp [State.flxCopied]

/-! ### Machine/Cascade.lean -/

@[simp] theorem State.hear_variant (t p k) : (s.hear t p k).variant = s.variant := by simp [State.hear]
@[simp] theorem State.ringToken_variant (t p k) : (s.ringToken t p k).variant = s.variant := by simp [State.ringToken]

@[simp] theorem execAngleToken_variant (t port token) : (Res.keep s (execAngleToken t port token s)).variant = s.variant := by
  simp [execAngleToken]

@[simp] theorem State.pruneRemote_variant : s.pruneRemote.variant = s.variant := by simp [State.pruneRemote]

@[simp] theorem execFireToken_variant (t port token) : (Res.keep s (execFireToken t port token s)).variant = s.variant := by
  simp [execFireToken]

@[simp] theorem State.withdrawRemote_variant (gone) : (s.withdrawRemote gone).variant = s.variant := by
  simp [State.withdrawRemote]

@[simp] theorem execRetractToken_variant (t port token) : (Res.keep s (execRetractToken t port token s)).variant = s.variant := by
  simp [execRetractToken]

@[simp] theorem execProgressSend_variant (t) : (Res.keep s (execProgressSend t s)).variant = s.variant := by
  simp [execProgressSend]

@[simp] theorem execProgressToken_variant (t port token) :
    (Res.keep s (execProgressToken t port token s)).variant = s.variant := by
  simp [execProgressToken]

@[simp] theorem execArmToken_variant (t port token) : (Res.keep s (execArmToken t port token s)).variant = s.variant := by
  dsimp only [execArmToken]
  (repeat' split) <;> simp

@[simp] theorem execArmAck_variant (t port token) : (Res.keep s (execArmAck t port token s)).variant = s.variant := by
  simp [execArmAck]

@[simp] theorem execStopToken_variant (t port token) : (Res.keep s (execStopToken t port token s)).variant = s.variant := by
  simp [execStopToken]

@[simp] theorem State.sendWave_variant (p kind w) : (s.sendWave p kind w).variant = s.variant := by simp [State.sendWave]

@[simp] theorem State.enumOp_variant (status result) : (s.enumOp status result).variant = s.variant := by
  dsimp only [State.enumOp]
  split <;> simp

@[simp] theorem State.enumFail_variant (cause count) : (s.enumFail cause count).variant = s.variant := by simp [State.enumFail]
@[simp] theorem State.sendProbe_variant (p stamp) : (s.sendProbe p stamp).variant = s.variant := by simp [State.sendProbe]
@[simp] theorem State.startProbe_variant (p t) : (s.startProbe p t).variant = s.variant := by simp [State.startProbe]

@[simp] theorem State.wavesDone_variant (t west tooMany) : (s.wavesDone t west tooMany).variant = s.variant := by
  simp [State.wavesDone]

@[simp] theorem State.westWave_variant (t east closed tooMany) : (s.westWave t east closed tooMany).variant = s.variant := by
  simp [State.westWave]

@[simp] theorem State.enumStart_variant (t op expect) : (s.enumStart t op expect).variant = s.variant := by simp [State.enumStart]
@[simp] theorem State.beReady_variant (t role) : (s.beReady t role).variant = s.variant := by simp [State.beReady]
@[simp] theorem State.sendReady_variant (t) : (s.sendReady t).variant = s.variant := by simp [State.sendReady]

@[simp] theorem execEnumerate_variant (t r others) : (Res.keep s (execEnumerate t r others s)).variant = s.variant := by
  dsimp only [execEnumerate]
  split
  · simp
  · rename_i u o h
    have hu := State.claim_at_variant s h
    (repeat' split) <;> simp [hu]

@[simp] theorem State.refuseWave_variant (p w) : (s.refuseWave p w).variant = s.variant := by simp [State.refuseWave]
@[simp] theorem State.takeAddress_variant (a) : (s.takeAddress a).variant = s.variant := by simp [State.takeAddress]
@[simp] theorem State.waveCounts_variant (w) : (s.waveCounts w).variant = s.variant := by simp [State.waveCounts]

@[simp] theorem execEnumWave_variant (t port token) : (Res.keep s (execEnumWave t port token s)).variant = s.variant := by
  simp [execEnumWave]

@[simp] theorem execEnumVerify_variant (t port token) : (Res.keep s (execEnumVerify t port token s)).variant = s.variant := by
  simp [execEnumVerify]

@[simp] theorem State.endToken_variant (t port token) : (s.endToken t port token).variant = s.variant := by simp [State.endToken]

@[simp] theorem execEndWave_variant (t port token) : (Res.keep s (execEndWave t port token s)).variant = s.variant := by
  simp [execEndWave]

@[simp] theorem execRootConflict_variant (t port token) : (Res.keep s (execRootConflict t port token s)).variant = s.variant := by
  simp [execRootConflict]

@[simp] theorem execReady_variant (t port token) : (Res.keep s (execReady t port token s)).variant = s.variant := by
  simp [execReady]

@[simp] theorem execEnumReadyTimeout_variant (t ran) : (Res.keep s (execEnumReadyTimeout t ran s)).variant = s.variant := by
  simp [execEnumReadyTimeout]

@[simp] theorem execProbe_variant (stamp port token sent) :
    (Res.keep s (execProbe stamp port token sent s)).variant = s.variant := by
  simp [execProbe]

@[simp] theorem execReply_variant (stamp port token) : (Res.keep s (execReply stamp port token s)).variant = s.variant := by
  simp [execReply]

@[simp] theorem execAlignWindowEnd_variant (t port theta last) :
    (Res.keep s (execAlignWindowEnd t port theta last s)).variant = s.variant := by
  dsimp only [execAlignWindowEnd]
  split <;> simp

@[simp] theorem execAlignVerify_variant (t port dev) : (Res.keep s (execAlignVerify t port dev s)).variant = s.variant := by
  dsimp only [execAlignVerify]
  split <;> simp

@[simp] theorem execLinkLossToken_variant (t port token) :
    (Res.keep s (execLinkLossToken t port token s)).variant = s.variant := by
  simp [execLinkLossToken]

@[simp] theorem execReachTimeout_variant (t m) : (Res.keep s (execReachTimeout t m s)).variant = s.variant := by
  simp [execReachTimeout]

@[simp] theorem execForwardedCommand_variant (t port dst src ring tag completion words) :
    (Res.keep s (execForwardedCommand t port dst src ring tag completion words s)).variant = s.variant := by
  dsimp only [execForwardedCommand]
  (repeat' split) <;> simp

@[simp] theorem execCasClr_variant (value) : (Res.keep s (execCasClr value s)).variant = s.variant := by simp [execCasClr]

/-! ### Machine/Twin.lean -/

@[simp] theorem State.resyncEnd_variant (status result) : (s.resyncEnd status result).variant = s.variant := by
  dsimp only [State.resyncEnd]
  split <;> simp

@[simp] theorem State.pairFail_variant (cause) : (s.pairFail cause).variant = s.variant := by simp [State.pairFail]
@[simp] theorem State.pairOk_variant (origin w) : (s.pairOk origin w).variant = s.variant := by simp [State.pairOk]

@[simp] theorem State.pairUp_variant (t) : (s.pairUp t).variant = s.variant := by
  dsimp only [State.pairUp]
  split <;> simp

@[simp] theorem State.startPairing_variant (t) : (s.startPairing t).variant = s.variant := by simp [State.startPairing]
@[simp] theorem execPair_variant (t token) : (Res.keep s (execPair t token s)).variant = s.variant := by simp [execPair]
@[simp] theorem execNoLink_variant (t) : (Res.keep s (execNoLink t s)).variant = s.variant := by simp [execNoLink]
@[simp] theorem State.twinCopied_variant (t was) : (s.twinCopied t was).variant = s.variant := by simp [State.twinCopied]

@[simp] theorem execTwinResync_variant (t r) : (Res.keep s (execTwinResync t r s)).variant = s.variant := by
  dsimp only [execTwinResync]
  split
  · simp
  · rename_i u o h
    have hu := State.claim_at_variant s h
    (repeat' split) <;> simp [hu]

@[simp] theorem State.enterDuplex_variant (t) : (s.enterDuplex t).variant = s.variant := by simp [State.enterDuplex]

@[simp] theorem State.sendSummary_variant (sid finish) : (s.sendSummary sid finish).variant = s.variant := by
  simp [State.sendSummary]

@[simp] theorem execSeamSpanEnd_variant (t) : (Res.keep s (execSeamSpanEnd t s)).variant = s.variant := by simp [execSeamSpanEnd]
@[simp] theorem execSummary_variant (t token) : (Res.keep s (execSummary t token s)).variant = s.variant := by simp [execSummary]
@[simp] theorem execThin_variant (t token) : (Res.keep s (execThin t token s)).variant = s.variant := by simp [execThin]

@[simp] theorem execSafeToken_variant (t token) : (Res.keep s (execSafeToken t token s)).variant = s.variant := by
  simp [execSafeToken]

@[simp] theorem execDetach_variant (t written) : (Res.keep s (execDetach t written s)).variant = s.variant := by simp [execDetach]

@[simp] theorem execClearToken_variant (t token) : (Res.keep s (execClearToken t token s)).variant = s.variant := by
  simp [execClearToken]

@[simp] theorem execTwnClr_variant (value) : (Res.keep s (execTwnClr value s)).variant = s.variant := by simp [execTwnClr]

/-! ### Machine/Seal.lean -/

@[simp] theorem execSealCheck_variant (t) : (Res.keep s (execSealCheck t s)).variant = s.variant := by simp [execSealCheck]

@[simp] theorem execSafClear_variant (t value) : (Res.keep s (execSafClear t value s)).variant = s.variant := by
  dsimp only [execSafClear]
  (repeat' split) <;> simp

@[simp] theorem State.leaveSafe_variant (slot) : (s.leaveSafe slot).variant = s.variant := by simp [State.leaveSafe]

@[simp] theorem execSafeExit_variant (t) : (Res.keep s (execSafeExit t s)).variant = s.variant := by
  dsimp only [execSafeExit]
  split <;> simp

@[simp] theorem execSafSealSel_variant (value) : (Res.keep s (execSafSealSel value s)).variant = s.variant := by
  simp [execSafSealSel]

@[simp] theorem execSafClr_variant (value) : (Res.keep s (execSafClr value s)).variant = s.variant := by simp [execSafClr]
@[simp] theorem execCores_variant (t pair) : (Res.keep s (execCores t pair s)).variant = s.variant := by simp [execCores]

/-! ### Machine/Blocks.lean -/

@[simp] theorem State.setEnable_variant (p b) : (s.setEnable p b).variant = s.variant := by simp [State.setEnable]

@[simp] theorem State.pageStop_variant (p t) : (s.pageStop p t).variant = s.variant := by
  dsimp only [State.pageStop]
  split <;> simp

@[simp] theorem State.pageStart_variant (p t) : (s.pageStart p t).variant = s.variant := by
  dsimp only [State.pageStart]
  split <;> simp

@[simp] theorem State.resetRegs_variant (p) : (s.resetRegs p).variant = s.variant := by simp [State.resetRegs]
@[simp] theorem State.dropRecord_variant : s.dropRecord.variant = s.variant := by simp [State.dropRecord]
@[simp] theorem State.dropOps_variant : s.dropOps.variant = s.variant := by simp [State.dropOps]

@[simp] theorem State.resetBlock_variant (p t) : (s.resetBlock p t).variant = s.variant := by
  dsimp only [State.resetBlock]
  split <;> simp

@[simp] theorem State.pageReset_variant (p t) : (s.pageReset p t).variant = s.variant := by
  dsimp only [State.pageReset]
  split <;> simp

/-! ### Machine/Power.lean -/

@[simp] theorem State.coldReset_variant : s.coldReset.variant = s.variant := by simp [State.coldReset]
@[simp] theorem State.moduleReset_variant : s.moduleReset.variant = s.variant := by simp [State.moduleReset]
@[simp] theorem execModResetN_variant (t) : (Res.keep s (execModResetN t s)).variant = s.variant := by simp [execModResetN]

@[simp] theorem execModuleResetEnd_variant (t) : (Res.keep s (execModuleResetEnd t s)).variant = s.variant := by
  simp [execModuleResetEnd]

@[simp] theorem execGlbReset_variant (t value) : (Res.keep s (execGlbReset t value s)).variant = s.variant := by
  simp [execGlbReset]

@[simp] theorem execStandbyStart_variant (t) : (Res.keep s (execStandbyStart t s)).variant = s.variant := by
  simp [execStandbyStart]

@[simp] theorem execVinValid_variant (t root twinSel hint) :
    (Res.keep s (execVinValid t root twinSel hint s)).variant = s.variant := by
  simp [execVinValid]

@[simp] theorem State.starting_variant : s.starting.variant = s.variant := by simp [State.starting]
@[simp] theorem execRailGood_variant (t) : (Res.keep s (execRailGood t s)).variant = s.variant := by simp [execRailGood]

@[simp] theorem execRailGoodTimeout_variant (t) : (Res.keep s (execRailGoodTimeout t s)).variant = s.variant := by
  simp [execRailGoodTimeout]

@[simp] theorem execVinCollapse_variant (t mv) : (Res.keep s (execVinCollapse t mv s)).variant = s.variant := by
  simp [execVinCollapse]

@[simp] theorem execV3aLoss_variant (t mv) : (Res.keep s (execV3aLoss t mv s)).variant = s.variant := by simp [execV3aLoss]
@[simp] theorem State.stretchCount_variant (t) : (s.stretchCount t).variant = s.variant := by simp [State.stretchCount]
@[simp] theorem State.pwrShow_variant (t) : (s.pwrShow t).variant = s.variant := by simp [State.pwrShow]
@[simp] theorem State.railFault_variant : s.railFault.variant = s.variant := by simp [State.railFault]
@[simp] theorem State.railMonitor_variant (n v) : (s.railMonitor n v).variant = s.variant := by simp [State.railMonitor]
@[simp] theorem execRail_variant (t n tenths) : (Res.keep s (execRail t n tenths s)).variant = s.variant := by simp [execRail]

@[simp] theorem execRailInWindow_variant (t n tenths) : (Res.keep s (execRailInWindow t n tenths s)).variant = s.variant := by
  simp [execRailInWindow]

@[simp] theorem State.vinLevel_variant (mv) : (s.vinLevel mv).variant = s.variant := by simp [State.vinLevel]
@[simp] theorem execVinLow_variant (t mv) : (Res.keep s (execVinLow t mv s)).variant = s.variant := by simp [execVinLow]
@[simp] theorem execVinDip_variant (t mv) : (Res.keep s (execVinDip t mv s)).variant = s.variant := by simp [execVinDip]

@[simp] theorem execVinRecovery_variant (t mv) : (Res.keep s (execVinRecovery t mv s)).variant = s.variant := by
  simp [execVinRecovery]

@[simp] theorem execSag_variant (t sensor vin) : (Res.keep s (execSag t sensor vin s)).variant = s.variant := by simp [execSag]

@[simp] theorem execSagRelease_variant (t) : (Res.keep s (execSagRelease t s)).variant = s.variant := by
  dsimp only [execSagRelease]
  split <;> simp

@[simp] theorem execCapWindowEnd_variant (t avg pin iin) :
    (Res.keep s (execCapWindowEnd t avg pin iin s)).variant = s.variant := by
  simp [execCapWindowEnd]

@[simp] theorem State.showTemps_variant (lid tj rails) : (s.showTemps lid tj rails).variant = s.variant := by
  simp [State.showTemps]

@[simp] theorem execThermalReading_variant (t lid tj rails) :
    (Res.keep s (execThermalReading t lid tj rails s)).variant = s.variant := by
  simp [execThermalReading]

@[simp] theorem State.pwrCopied_variant (t) : (s.pwrCopied t).variant = s.variant := by simp [State.pwrCopied]
@[simp] theorem execPwrClr_variant (value) : (Res.keep s (execPwrClr value s)).variant = s.variant := by simp [execPwrClr]

/-! ### Machine/Startup.lean -/

@[simp] theorem State.stepUs_variant (n us) : (s.stepUs n us).variant = s.variant := by simp [State.stepUs]

@[simp] theorem State.stepsUs_variant (n us) : (s.stepsUs n us).variant = s.variant := by
  induction us generalizing s n with
  | nil => rfl
  | cons u r ih => simp [State.stepsUs, ih]

@[simp] theorem State.setStep_variant (n) : (s.setStep n).variant = s.variant := by simp [State.setStep]

@[simp] theorem State.marchedAtStart_variant (repaired unrepaired) :
    (s.marchedAtStart repaired unrepaired).variant = s.variant := by
  simp [State.marchedAtStart]

@[simp] theorem State.hostLink_variant (link) : (s.hostLink link).variant = s.variant := by simp [State.hostLink]
@[simp] theorem State.waitImage_variant (us) : (s.waitImage us).variant = s.variant := by simp [State.waitImage]
@[simp] theorem State.takeConfig_variant (c) : (s.takeConfig c).variant = s.variant := by simp [State.takeConfig]

@[simp] theorem execBoot_variant (t flash repaired unrepaired link us) :
    (Res.keep s (execBoot t flash repaired unrepaired link us s)).variant = s.variant := by
  dsimp only [execBoot]
  (repeat' split) <;> simp

@[simp] theorem State.putBoth_variant (p f v) : (s.putBoth p f v).variant = s.variant := by simp [State.putBoth]
@[simp] theorem State.clockStep_variant (n) : (s.clockStep n).variant = s.variant := by simp [State.clockStep]
@[simp] theorem State.runImage_variant (header src) : (s.runImage header src).variant = s.variant := by simp [State.runImage]

@[simp] theorem execImageAuthenticated_variant (t us) : (Res.keep s (execImageAuthenticated t us s)).variant = s.variant := by
  simp [execImageAuthenticated]

@[simp] theorem State.deepTested_variant (repaired badRows) : (s.deepTested repaired badRows).variant = s.variant := by
  simp [State.deepTested]

@[simp] theorem State.calibratedAtStart_variant (coefs) : (s.calibratedAtStart coefs).variant = s.variant := by
  simp (disch := (rintro s x _ rfl; split <;> simp)) [State.calibratedAtStart]

@[simp] theorem State.writeConfig_variant : s.writeConfig.variant = s.variant := by simp [State.writeConfig]
@[simp] theorem State.enterReady_variant : s.enterReady.variant = s.variant := by simp [State.enterReady]
@[simp] theorem State.clocksChecked_variant : s.clocksChecked.variant = s.variant := by simp [State.clocksChecked]

@[simp] theorem execStartDone_variant (t repaired unrepaired deepRepaired badRows coefs us) :
    (Res.keep s (execStartDone t repaired unrepaired deepRepaired badRows coefs us s)).variant = s.variant := by
  simp [execStartDone]

@[simp] theorem State.mboxDone_variant (tag status) : (s.mboxDone tag status).variant = s.variant := by simp [State.mboxDone]

@[simp] theorem State.mboxEnd_variant (status bytes) : (s.mboxEnd status bytes).variant = s.variant := by
  dsimp only [State.mboxEnd]
  split <;> simp

@[simp] theorem State.mboxWrite_variant (v) : (s.mboxWrite v).variant = s.variant := by simp [State.mboxWrite]
@[simp] theorem State.mboxTake_variant (opc tag) : (s.mboxTake opc tag).1.variant = s.variant := by simp [State.mboxTake]

@[simp] theorem execBootImage_variant (t tag signed us) : (Res.keep s (execBootImage t tag signed us s)).variant = s.variant := by
  dsimp only [execBootImage]
  split <;> simp

@[simp] theorem execFlashImage_variant (t tag signed same) :
    (Res.keep s (execFlashImage t tag signed same s)).variant = s.variant := by
  dsimp only [execFlashImage]
  split <;> simp

@[simp] theorem execFlashConfig_variant (t tag) : (Res.keep s (execFlashConfig t tag s)).variant = s.variant := by
  dsimp only [execFlashConfig]
  split <;> simp

@[simp] theorem execPcieReset_variant (t link) : (Res.keep s (execPcieReset t link s)).variant = s.variant := by
  dsimp only [execPcieReset]
  split
  · simp
  · split
    · rw [Res.keep_variant_congr _ (execStop _ _ _), execStop_variant] <;> simp
    · simp

@[simp] theorem execGlbClr_variant (value) : (Res.keep s (execGlbClr value s)).variant = s.variant := by simp [execGlbClr]

@[simp] theorem execCpxHeartbeat_variant (t busy cores) : (Res.keep s (execCpxHeartbeat t busy cores s)).variant = s.variant := by
  simp [execCpxHeartbeat]

@[simp] theorem execCpxClr_variant (value) : (Res.keep s (execCpxClr value s)).variant = s.variant := by simp [execCpxClr]

/-! ### Machine/Bus.lean -/

@[simp] theorem State.setHolding_variant (req h) : (s.setHolding req h).variant = s.variant := by
  dsimp only [State.setHolding]
  split <;> simp

@[simp] theorem State.readWord_variant (req p o) : (s.readWord req p o).1.variant = s.variant := by
  dsimp only [State.readWord]
  (repeat' split) <;> simp

@[simp] theorem State.serTested_variant (old t) : (s.serTested old t).variant = s.variant := by
  dsimp only [State.serTested]
  rw [State.each_variant]
  · split
    · rw [State.each_variant]
      · simp
      · rintro s d _ rfl
        exact execDriveLost_variant s t d
    · simp
  · simp

@[simp] theorem State.settled_variant (s0 t p g direct) : (s.settled s0 t p g direct).variant = s.variant := by
  dsimp only [State.settled]
  split <;> simp

@[simp] theorem State.commitWrite_variant (p v) : (s.commitWrite p v).variant = s.variant := by simp [State.commitWrite]
@[simp] theorem State.breakKey_variant (p o) : (s.breakKey p o).variant = s.variant := by simp [State.breakKey]

@[simp] theorem execCommit_variant (t page value) : (Res.keep s (execCommit t page value s)).variant = s.variant := by
  simp [execCommit]

@[simp] theorem execCommitCancel_variant (t page value) : (Res.keep s (execCommitCancel t page value s)).variant = s.variant := by
  simp [execCommitCancel]

@[simp] theorem State.unpend_variant (taken) : (s.unpend taken).variant = s.variant := by simp [State.unpend]
@[simp] theorem State.copyTaken_variant (t taken) : (s.copyTaken t taken).variant = s.variant := by simp [State.copyTaken]

@[simp] theorem State.rejectTaken_variant (taken causes) : (s.rejectTaken taken causes).variant = s.variant := by
  simp [State.rejectTaken]

@[simp] theorem execSafePoint_variant (t page groups) : (Res.keep s (execSafePoint t page groups s)).variant = s.variant := by
  simp [execSafePoint]

@[simp] theorem State.stageModeWrite_variant (p staged) : (s.stageModeWrite p staged).variant = s.variant := by
  simp [State.stageModeWrite]

@[simp] theorem execStageModeChange_variant (t page staged) :
    (Res.keep s (execStageModeChange t page staged s)).variant = s.variant := by
  simp [execStageModeChange]

@[simp] theorem State.softResetWrite_variant (p t) : (s.softResetWrite p t).variant = s.variant := by simp [State.softResetWrite]

@[simp] theorem execSoftReset_variant (t page) : (Res.keep s (execSoftReset t page s)).variant = s.variant := by
  simp [execSoftReset]

@[simp] theorem execSoftResetComplete_variant (t page) : (Res.keep s (execSoftResetComplete t page s)).variant = s.variant := by
  simp [execSoftResetComplete]

@[simp] theorem State.enableBit_variant (p t b) : (s.enableBit p t b).variant = s.variant := by simp [State.enableBit]

@[simp] theorem execEnableWrite_variant (t page enable) : (Res.keep s (execEnableWrite t page enable s)).variant = s.variant := by
  simp [execEnableWrite]

@[simp] theorem State.pendClear_variant (p v) : (s.pendClear p v).variant = s.variant := by simp [State.pendClear]
@[simp] theorem State.enWrite_variant (p v) : (s.enWrite p v).variant = s.variant := by simp [State.enWrite]
@[simp] theorem State.forceWrite_variant (p v) : (s.forceWrite p v).variant = s.variant := by simp [State.forceWrite]

@[simp] theorem execEvtPendClear_variant (t page value) : (Res.keep s (execEvtPendClear t page value s)).variant = s.variant := by
  simp [execEvtPendClear]

@[simp] theorem execEvtEnWrite_variant (t page value) : (Res.keep s (execEvtEnWrite t page value s)).variant = s.variant := by
  simp [execEvtEnWrite]

@[simp] theorem execEvtForce_variant (t page value) : (Res.keep s (execEvtForce t page value s)).variant = s.variant := by
  simp [execEvtForce]

@[simp] theorem State.directTaken_variant (s0 t p g changed) : (s.directTaken s0 t p g changed).variant = s.variant := by
  simp [State.directTaken]

@[simp] theorem State.advanceWindow_variant (p o) : (s.advanceWindow p o).variant = s.variant := by simp [State.advanceWindow]
@[simp] theorem State.writeRW_variant (t p m ws) : (s.writeRW t p m ws).variant = s.variant := by simp [State.writeRW]

@[simp] theorem execScrLendDataWrite_variant (t value) : (Res.keep s (execScrLendDataWrite t value s)).variant = s.variant := by
  simp [execScrLendDataWrite]

@[simp] theorem execTldPtCtlWrite_variant (t value) : (Res.keep s (execTldPtCtlWrite t value s)).variant = s.variant := by
  simp [execTldPtCtlWrite]

@[simp] theorem State.actWrite1_variant (t p o w) : (s.actWrite1 t p o w).variant = s.variant := by
  dsimp only [State.actWrite1]
  split <;> simp

@[simp] theorem State.actWrite2_variant (t p o w) : (s.actWrite2 t p o w).variant = s.variant := by
  dsimp only [State.actWrite2]
  split <;> simp

@[simp] theorem State.actWrite_variant (t p o w) : (s.actWrite t p o w).variant = s.variant := by simp [State.actWrite]

@[simp] theorem State.writeHeader_variant (t p o m v) : (s.writeHeader t p o m v).variant = s.variant := by
  dsimp only [State.writeHeader]
  split <;> simp

@[simp] theorem State.writeReg_variant (t p o m v) : (s.writeReg t p o m v).variant = s.variant := by
  dsimp only [State.writeReg]
  (repeat' split) <;> simp

@[simp] theorem State.writeReg64_variant (t p o m v) : (s.writeReg64 t p o m v).variant = s.variant := by
  dsimp only [State.writeReg64]
  split <;> simp

@[simp] theorem State.rwinError_variant : s.rwinError.variant = s.variant := by simp [State.rwinError]

@[simp] theorem State.rwinIssue_variant (t read off value) : (s.rwinIssue t read off value).variant = s.variant := by
  simp [State.rwinIssue]

@[simp] theorem execRemoteWindowRead_variant (t req offset) :
    (Res.keep s (execRemoteWindowRead t req offset s)).variant = s.variant := by
  simp [execRemoteWindowRead]

@[simp] theorem execRemoteWindowWrite_variant (t req offset value) :
    (Res.keep s (execRemoteWindowWrite t req offset value s)).variant = s.variant := by
  simp [execRemoteWindowWrite]

@[simp] theorem State.rwinEnd_variant (a value) : (s.rwinEnd a value).variant = s.variant := by simp [State.rwinEnd]

@[simp] theorem execRwinTimeout_variant (t) : (Res.keep s (execRwinTimeout t s)).variant = s.variant := by
  dsimp only [execRwinTimeout]
  split <;> simp

@[simp] theorem execRegToken_variant (t port token) : (Res.keep s (execRegToken t port token s)).variant = s.variant := by
  dsimp only [execRegToken]
  (repeat' split) <;> simp

@[simp] theorem State.bar0Word_variant (t req a v) : (s.bar0Word t req a v).variant = s.variant := by
  dsimp only [State.bar0Word]
  split <;> simp

@[simp] theorem State.bar0Long_variant (t req a v) : (s.bar0Long t req a v).variant = s.variant := by
  dsimp only [State.bar0Long]
  split <;> simp

@[simp] theorem State.bar0Write_variant (t req a data) : (s.bar0Write t req a data).variant = s.variant := by
  simp [State.bar0Write]

@[simp] theorem execRegisterWrite_variant (t req addr data poisoned) :
    (Res.keep s (execRegisterWrite t req addr data poisoned s)).variant = s.variant := by
  simp [execRegisterWrite]

@[simp] theorem execSetAliasWrite_variant (t req addr data) :
    (Res.keep s (execSetAliasWrite t req addr data s)).variant = s.variant := by
  simp [execSetAliasWrite]

@[simp] theorem execClearAliasWrite_variant (t req addr data) :
    (Res.keep s (execClearAliasWrite t req addr data s)).variant = s.variant := by
  simp [execClearAliasWrite]

@[simp] theorem execPairLowWordRead_variant (t req addr) :
    (Res.keep s (execPairLowWordRead t req addr s)).variant = s.variant := by
  simp [execPairLowWordRead]

@[simp] theorem execPair64Write_variant (t req addr value) :
    (Res.keep s (execPair64Write t req addr value s)).variant = s.variant := by
  simp [execPair64Write]
end Sys2Proof.Machine
end

section
/-!
SUPPORT. What a command keeps, whichever it is: one case for each row of the table.
-/
namespace Sys2Proof.Machine

theorem exec_keeps (s : State) (c : Instr) : KeepsR s (exec c s) :=
  match c with
  | .registerWrite t req addr data poisoned => execRegisterWrite_keeps (.refl s) t req addr data poisoned
  | .setAliasWrite t req addr data => execSetAliasWrite_keeps (.refl s) t req addr data
  | .clearAliasWrite t req addr data => execClearAliasWrite_keeps (.refl s) t req addr data
  | .pairLowWordRead t req addr => execPairLowWordRead_keeps (.refl s) t req addr
  | .pair64Write t req addr value => execPair64Write_keeps (.refl s) t req addr value
  | .remoteWindowRead t req offset => execRemoteWindowRead_keeps (.refl s) t req offset
  | .remoteWindowWrite t req offset value => execRemoteWindowWrite_keeps (.refl s) t req offset value
  | .rwinTimeout t => execRwinTimeout_keeps (.refl s) t
  | .commit t page value => execCommit_keeps (.refl s) t page value
  | .commitCancel t page value => execCommitCancel_keeps (.refl s) t page value
  | .safePoint t page groups => execSafePoint_keeps (.refl s) t page groups
  | .stageModeChange t page staged => execStageModeChange_keeps (.refl s) t page staged
  | .softReset t page => execSoftReset_keeps (.refl s) t page
  | .softResetComplete t page => execSoftResetComplete_keeps (.refl s) t page
  | .enableWrite t page enable => execEnableWrite_keeps (.refl s) t page enable
  | .evtPendClear t page value => execEvtPendClear_keeps (.refl s) t page value
  | .evtEnWrite t page value => execEvtEnWrite_keeps (.refl s) t page value
  | .evtForce t page value => execEvtForce_keeps (.refl s) t page value
  | .msixUnmask vector => execMsixUnmask_keeps (.refl s) vector
  | .relock t n => execRelock_keeps (.refl s) t n
  | .clrCnt n => execClrCnt_keeps (.refl s) n
  | .lockAttempt t n refKhz => execLockAttempt_keeps (.refl s) t n refKhz
  | .bandSearchStep t n count => execBandSearchStep_keeps (.refl s) t n count
  | .bandVerify t n count => execBandVerify_keeps (.refl s) t n count
  | .lockWindowEnd t n count => execLockWindowEnd_keeps (.refl s) t n count
  | .phaseSlip t n => execPhaseSlip_keeps (.refl s) t n
  | .refLoss t => execRefLoss_keeps (.refl s) t
  | .refclkReturn t refKhz => execRefclkReturn_keeps (.refl s) t refKhz
  | .dlgLock t g => execDlgLock_keeps (.refl s) t g
  | .dlgUnlock t g => execDlgUnlock_keeps (.refl s) t g
  | .loopReferenceEvent t n => execLoopReferenceEvent_keeps (.refl s) t n
  | .holdEnd t n => execHoldEnd_keeps (.refl s) t n
  | .encoderCount t n a b => execEncoderCount_keeps (.refl s) t n a b
  | .encoderIndex t n => execEncoderIndex_keeps (.refl s) t n
  | .coastOn t n => execCoastOn_keeps (.refl s) t n
  | .coastLong t n => execCoastLong_keeps (.refl s) t n
  | .loopCycleBoundary t n => execLoopCycleBoundary_keeps (.refl s) t n
  | .mapPeriodicPoint t n => execMapPeriodicPoint_keeps (.refl s) t n
  | .angleEventFire t e => execAngleEventFire_keeps (.refl s) t e
  | .angleToken t port token => execAngleToken_keeps (.refl s) t port token
  | .overrangeEntry t g c hi => execOverrangeEntry_keeps (.refl s) t g c hi
  | .overrangeExit t g c => execOverrangeExit_keeps (.refl s) t g c
  | .ovrWindowClose t g => execOvrWindowClose_keeps (.refl s) t g
  | .stateClockEdge t g rising word => execStateClockEdge_keeps (.refl s) t g rising word
  | .stateClkTimeout t g => execStateClkTimeout_keeps (.refl s) t g
  | .keepAlive t g => execKeepAlive_keeps (.refl s) t g
  | .digBcast g value => execDigBcast_keeps (.refl s) g value
  | .digClr g value => execDigClr_keeps (.refl s) g value
  | .stampEdge stamp edges => execStampEdge_keeps (.refl s) stamp edges
  | .mergeWindowClose t g => execMergeWindowClose_keeps (.refl s) t g
  | .tableRebuild t g ready => execTableRebuild_keeps (.refl s) t g ready
  | .coarseWrap t => execCoarseWrap_keeps (.refl s) t
  | .ipSpanExpiry t u => execIpSpanExpiry_keeps (.refl s) t u
  | .stpIpSnap g value => execStpIpSnap_keeps (.refl s) g value
  | .stpClr g value => execStpClr_keeps (.refl s) g value
  | .freqGateEnd t u => execFreqGateEnd_keeps (.refl s) t u
  | .freqResult t u => execFreqResult_keeps (.refl s) t u
  | .frqSnapSel value => execFrqSnapSel_keeps (.refl s) value
  | .frqNewClear value => execFrqNewClear_keeps (.refl s) value
  | .frqClr value => execFrqClr_keeps (.refl s) value
  | .conversionStart t set => execConversionStart_keeps (.refl s) t set
  | .conversionResult t n raw => execConversionResult_keeps (.refl s) t n raw
  | .pulseSourcePulse t set width => execPulseSourcePulse_keeps (.refl s) t set width
  | .converterWakeRequest t n => execConverterWakeRequest_keeps (.refl s) t n
  | .converterReady t n => execConverterReady_keeps (.refl s) t n
  | .injectedRequest t n slot => execInjectedRequest_keeps (.refl s) t n slot
  | .calibrate t r means => execCalibrate_keeps (.refl s) t r means
  | .overloadTrip t n => execOverloadTrip_keeps (.refl s) t n
  | .disturbSpanEnd t q => execDisturbSpanEnd_keeps (.refl s) t q
  | .intervalBoundary t iv slot => execIntervalBoundary_keeps (.refl s) t iv slot
  | .adcClr value => execAdcClr_keeps (.refl s) value
  | .accSnapSel value => execAccSnapSel_keeps (.refl s) value
  | .harSnapSel value => execHarSnapSel_keeps (.refl s) value
  | .harClr value => execHarClr_keeps (.refl s) value
  | .ladderPly t x => execLadderPly_keeps (.refl s) t x
  | .soft t value => execSoft_keeps (.refl s) t value
  | .tldClr value => execTldClr_keeps (.refl s) value
  | .tldTcSnapSel t value => execTldTcSnapSel_keeps (.refl s) t value
  | .tldPtSel value => execTldPtSel_keeps (.refl s) value
  | .tldPtCtlWrite t value => execTldPtCtlWrite_keeps (.refl s) t value
  | .actPulseEnd t n => execActPulseEnd_keeps (.refl s) t n
  | .actRelease t value => execActRelease_keeps (.refl s) t value
  | .actReadback t levels => execActReadback_keeps (.refl s) t levels
  | .actClr value => execActClr_keeps (.refl s) value
  | .lateBitKnown t unit ply => execLateBitKnown_keeps (.refl s) t unit ply
  | .replayCatchUp t => execReplayCatchUp_keeps (.refl s) t
  | .ladderOverrun t => execLadderOverrun_keeps (.refl s) t
  | .settleTimeout t => execSettleTimeout_keeps (.refl s) t
  | .gmbClr value => execGmbClr_keeps (.refl s) value
  | .arm t value => execArm_keeps (.refl s) t value
  | .armingTakesEffect t => execArmingTakesEffect_keeps (.refl s) t
  | .stop t value => execStop_keeps (.refl s) t value
  | .collarFull t => execCollarFull_keeps (.refl s) t
  | .recordClose t => execRecordClose_keeps (.refl s) t
  | .liveClip t => execLiveClip_keeps (.refl s) t
  | .thinStepUp t idx press => execThinStepUp_keeps (.refl s) t idx press
  | .thinStepDown t idx press => execThinStepDown_keeps (.refl s) t idx press
  | .rate t idx => execRate_keeps (.refl s) t idx
  | .overflow t idx lost => execOverflow_keeps (.refl s) t idx lost
  | .protWindowClose t => execProtWindowClose_keeps (.refl s) t
  | .acqClr value => execAcqClr_keeps (.refl s) value
  | .acqThinClr value => execAcqThinClr_keeps (.refl s) value
  | .chunkAgeClose t sid => execChunkAgeClose_keeps (.refl s) t sid
  | .chunkClose t sid => execChunkClose_keeps (.refl s) t sid
  | .bankFree t sid bank => execBankFree_keeps (.refl s) t sid bank
  | .rfqFlush t value => execRfqFlush_keeps (.refl s) t value
  | .flushDone t => execFlushDone_keeps (.refl s) t
  | .rfqClr value => execRfqClr_keeps (.refl s) value
  | .blockVerify t lane good bad => execBlockVerify_keeps (.refl s) t lane good bad
  | .cmpClr value => execCmpClr_keeps (.refl s) value
  | .dcpClr value => execDcpClr_keeps (.refl s) value
  | .compressBuf t r host => execCompressBuf_keeps (.refl s) t r host
  | .decompressBuf t r host => execDecompressBuf_keeps (.refl s) t r host
  | .bar2Write t offset data poisoned x => execBar2Write_keeps (.refl s) t offset data poisoned x
  | .bar2AliasWrite t offset data poisoned x => execBar2AliasWrite_keeps (.refl s) t offset data poisoned x
  | .scratchSweep t err => execScratchSweep_keeps (.refl s) t err
  | .rotationTile t => execRotationTile_keeps (.refl s) t
  | .marchStitch t fails ended => execMarchStitch_keeps (.refl s) t fails ended
  | .lendCollision t master offset => execLendCollision_keeps (.refl s) t master offset
  | .testCollide t offset read host op => execTestCollide_keeps (.refl s) t offset read host op
  | .yieldRetry t => execYieldRetry_keeps (.refl s) t
  | .march t r => execMarch_keeps (.refl s) t r
  | .scrLendSel value => execScrLendSel_keeps (.refl s) value
  | .scrLendDataWrite t value => execScrLendDataWrite_keeps (.refl s) t value
  | .scrClr value => execScrClr_keeps (.refl s) value
  | .marClr value => execMarClr_keeps (.refl s) value
  | .bar4Write t offset data poisoned => execBar4Write_keeps (.refl s) t offset data poisoned
  | .dmScrub t err rewritten => execDmScrub_keeps (.refl s) t err rewritten
  | .dmcBadrowSel value => execDmcBadrowSel_keeps (.refl s) value
  | .dmcClr value => execDmcClr_keeps (.refl s) value
  | .stoTakeChunk t bad => execStoTakeChunk_keeps (.refl s) t bad
  | .nvmeWriteComplete t sid seq => execNvmeWriteComplete_keeps (.refl s) t sid seq
  | .nvmeWriteError t sid seq timeout status => execNvmeWriteError_keeps (.refl s) t sid seq timeout status
  | .commitBatch t => execCommitBatch_keeps (.refl s) t
  | .nvmeFlushComplete t d => execNvmeFlushComplete_keeps (.refl s) t d
  | .mapFuaComplete t d => execMapFuaComplete_keeps (.refl s) t d
  | .recordTableWrite t => execRecordTableWrite_keeps (.refl s) t
  | .driveLost t d => execDriveLost_keeps (.refl s) t d
  | .storeRecovery t images => execStoreRecovery_keeps (.refl s) t images
  | .stoFreeRec t value => execStoFreeRec_keeps (.refl s) t value
  | .stoCatSel value => execStoCatSel_keeps (.refl s) value
  | .stoClr value => execStoClr_keeps (.refl s) value
  | .nvqReset t value => execNvqReset_keeps (.refl s) t value
  | .nvqClr value => execNvqClr_keeps (.refl s) value
  | .storeFormat t r storeId => execStoreFormat_keeps (.refl s) t r storeId
  | .storeScrub t r store => execStoreScrub_keeps (.refl s) t r store
  | .offload t r => execOffload_keeps (.refl s) t r
  | .readRecord t r store => execReadRecord_keeps (.refl s) t r store
  | .sqDoorbell t n value => execSqDoorbell_keeps (.refl s) t n value
  | .cqDoorbell t n value => execCqDoorbell_keeps (.refl s) t n value
  | .commandFetch t data => execCommandFetch_keeps (.refl s) t data
  | .commandCompletion t r failed => execCommandCompletion_keeps (.refl s) t r failed
  | .stitchEnd t => execStitchEnd_keeps (.refl s) t
  | .deadline t r => execDeadline_keeps (.refl s) t r
  | .coalTimer t n => execCoalTimer_keeps (.refl s) t n
  | .nop t r => execNop_keeps (.refl s) t r
  | .abort t r => execAbort_keeps (.refl s) t r
  | .enumerate t r others => execEnumerate_keeps (.refl s) t r others
  | .twinResync t r => execTwinResync_keeps (.refl s) t r
  | .outOfBarRequest t => execOutOfBarRequest_keeps (.refl s) t
  | .hifClr value => execHifClr_keeps (.refl s) value
  | .ppsEdge t => execPpsEdge_keeps (.refl s) t
  | .ppsTimeout t => execPpsTimeout_keeps (.refl s) t
  | .ptpMessage t port domain tai utc => execPtpMessage_keeps (.refl s) t port domain tai utc
  | .timeSetSec high value => execTimeSetSec_keeps (.refl s) high value
  | .timeClr value => execTimeClr_keeps (.refl s) value
  | .ethChunkSend t dest => execEthChunkSend_keeps (.refl s) t dest
  | .pauseFrame t port slots => execPauseFrame_keeps (.refl s) t port slots
  | .ethLinkChange t port up => execEthLinkChange_keeps (.refl s) t port up
  | .ethClr value => execEthClr_keeps (.refl s) value
  | .serClr value => execSerClr_keeps (.refl s) value
  | .laneDown t lane errors eye => execLaneDown_keeps (.refl s) t lane errors eye
  | .flitReceive t port flit corr uncorr => execFlitReceive_keeps (.refl s) t port flit corr uncorr
  | .linkLoss t port => execLinkLoss_keeps (.refl s) t port
  | .portRetrain t port standby => execPortRetrain_keeps (.refl s) t port standby
  | .flxRetrain t value => execFlxRetrain_keeps (.refl s) t value
  | .flxClr value => execFlxClr_keeps (.refl s) value
  | .armToken t port token => execArmToken_keeps (.refl s) t port token
  | .armAck t port token => execArmAck_keeps (.refl s) t port token
  | .stopToken t port token => execStopToken_keeps (.refl s) t port token
  | .fireToken t port token => execFireToken_keeps (.refl s) t port token
  | .retractToken t port token => execRetractToken_keeps (.refl s) t port token
  | .progressSend t => execProgressSend_keeps (.refl s) t
  | .progressToken t port token => execProgressToken_keeps (.refl s) t port token
  | .probe stamp port token sent => execProbe_keeps (.refl s) stamp port token sent
  | .reply stamp port token => execReply_keeps (.refl s) stamp port token
  | .alignWindowEnd t port theta last => execAlignWindowEnd_keeps (.refl s) t port theta last
  | .alignVerify t port dev => execAlignVerify_keeps (.refl s) t port dev
  | .regToken t port token => execRegToken_keeps (.refl s) t port token
  | .enumWave t port token => execEnumWave_keeps (.refl s) t port token
  | .endWave t port token => execEndWave_keeps (.refl s) t port token
  | .enumVerify t port token => execEnumVerify_keeps (.refl s) t port token
  | .rootConflict t port token => execRootConflict_keeps (.refl s) t port token
  | .ready t port token => execReady_keeps (.refl s) t port token
  | .enumReadyTimeout t ran => execEnumReadyTimeout_keeps (.refl s) t ran
  | .linkLossToken t port token => execLinkLossToken_keeps (.refl s) t port token
  | .reachTimeout t m => execReachTimeout_keeps (.refl s) t m
  | .forwardedCommand t port dst src ring tag completion words =>
    execForwardedCommand_keeps (.refl s) t port dst src ring tag completion words
  | .casClr value => execCasClr_keeps (.refl s) value
  | .pair t token => execPair_keeps (.refl s) t token
  | .noLink t => execNoLink_keeps (.refl s) t
  | .seamSpanEnd t => execSeamSpanEnd_keeps (.refl s) t
  | .summary t token => execSummary_keeps (.refl s) t token
  | .thin t token => execThin_keeps (.refl s) t token
  | .safeToken t token => execSafeToken_keeps (.refl s) t token
  | .detach t written => execDetach_keeps (.refl s) t written
  | .clearToken t token => execClearToken_keeps (.refl s) t token
  | .twnClr value => execTwnClr_keeps (.refl s) value
  | .sealCheck t => execSealCheck_keeps (.refl s) t
  | .safClear t value => execSafClear_keeps (.refl s) t value
  | .safeExit t => execSafeExit_keeps (.refl s) t
  | .safSealSel value => execSafSealSel_keeps (.refl s) value
  | .safClr value => execSafClr_keeps (.refl s) value
  | .standbyStart t => execStandbyStart_keeps (.refl s) t
  | .vinValid t root twinSel hint => execVinValid_keeps (.refl s) t root twinSel hint
  | .railGood t => execRailGood_keeps (.refl s) t
  | .railGoodTimeout t => execRailGoodTimeout_keeps (.refl s) t
  | .vinCollapse t mv => execVinCollapse_keeps (.refl s) t mv
  | .v3aLoss t mv => execV3aLoss_keeps (.refl s) t mv
  | .rail t n tenths => execRail_keeps (.refl s) t n tenths
  | .vinDip t mv => execVinDip_keeps (.refl s) t mv
  | .vinLow t mv => execVinLow_keeps (.refl s) t mv
  | .sag t sensor vin => execSag_keeps (.refl s) t sensor vin
  | .sagRelease t => execSagRelease_keeps (.refl s) t
  | .capWindowEnd t avg pin iin => execCapWindowEnd_keeps (.refl s) t avg pin iin
  | .thermalReading t lid tj rails => execThermalReading_keeps (.refl s) t lid tj rails
  | .pwrClr value => execPwrClr_keeps (.refl s) value
  | .boot t flash repaired unrepaired link us => execBoot_keeps (.refl s) t flash repaired unrepaired link us
  | .imageAuthenticated t us => execImageAuthenticated_keeps (.refl s) t us
  | .startDone t repaired unrepaired deepRepaired badRows coefs us =>
    execStartDone_keeps (.refl s) t repaired unrepaired deepRepaired badRows coefs us
  | .bootImage t tag signed us => execBootImage_keeps (.refl s) t tag signed us
  | .flashImage t tag signed same => execFlashImage_keeps (.refl s) t tag signed same
  | .flashConfig t tag => execFlashConfig_keeps (.refl s) t tag
  | .glbReset t value => execGlbReset_keeps (.refl s) t value
  | .modResetN t => execModResetN_keeps (.refl s) t
  | .moduleResetEnd t => execModuleResetEnd_keeps (.refl s) t
  | .pcieReset t link => execPcieReset_keeps (.refl s) t link
  | .glbClr value => execGlbClr_keeps (.refl s) value
  | .cpxHeartbeat t busy cores => execCpxHeartbeat_keeps (.refl s) t busy cores
  | .cpxClr value => execCpxClr_keeps (.refl s) value
  | .cores t pair => execCores_keeps (.refl s) t pair
  | .ltlClr n value => execLtlClr_keeps (.refl s) n value
  | .angClr value => execAngClr_keeps (.refl s) value
  | .overloadClear t n => execOverloadClear_keeps (.refl s) t n
  | .railInWindow t n tenths => execRailInWindow_keeps (.refl s) t n tenths
  | .vinRecovery t mv => execVinRecovery_keeps (.refl s) t mv
  | .barMemoryRead t deep offset len ce ue => execBarMemoryRead_keeps (.refl s) t deep offset len ce ue
  | .configurationRequest t mask => execConfigurationRequest_keeps (.refl s) t mask
theorem exec_variant (s : State) (c : Instr) : (Res.keep s (exec c s)).variant = s.variant := by
  cases c <;> simp [exec]

/-- Settles O4: every command keeps the queue and adds to what was sent (`exec_keeps`), and none changes the variant
(`exec_variant`). -/
theorem commandsOnlyAddOutputs : Obligations.CommandsOnlyAddOutputs := by
  intro c s u h
  obtain ⟨hpending, hout, hfree, -⟩ := exec_keeps s c u h
  have hvariant := exec_variant s c
  rw [h, Res.keep_next] at hvariant
  exact ⟨hpending, hout, hfree, hvariant⟩

end Sys2Proof.Machine
end

section
/-!
SUPPORT. A step keeps the canonical form of the sparse stores (R28, R320, R338), whichever command is at the front of the queue.
-/
namespace Sys2Proof.Machine

/-- The queue's rest is no part of the canonical form, so what a command keeps (`exec_keeps`) a step keeps. -/
theorem step_canon {s t : State} (hs : s.Canon) (h : step s = .next t) : t.Canon := by
  unfold step at h
  split at h
  case h_1 =>
    cases h
    exact hs
  case h_2 c rest _ =>
    obtain ⟨-, -, -, hcanon⟩ := exec_keeps _ c t h
    exact hcanon hs

/-- Settles O3, by what every command keeps. -/
theorem canonicalFormIsKeptByEveryStep : Obligations.CanonicalFormIsKeptByEveryStep :=
  fun _ _ => step_canon

end Sys2Proof.Machine
end

section
/-!
SUPPORT. What `exec` answers for every row of the table: a next state where the operands have the row's sizes, the fault `illFormed`
where they do not (log entry 36).
-/
namespace Sys2Proof.Machine

/-! ### Answers -/

/-- The answer is a next state: neither a fault nor a refusal. -/
def Res.Completes (r : Res) : Prop := ∃ u, r = .next u

theorem Res.Completes.next (u : State) : Res.Completes (.next u) := ⟨u, rfl⟩

theorem Res.Completes.ite {c : Prop} [Decidable c] {x y : Res} (hx : Res.Completes x) (hy : Res.Completes y) :
    Res.Completes (if c then x else y) := by
  split <;> assumption

/-- A command that has nothing to do answers a state at once; else it goes on. -/
theorem Res.Completes.guard {c : Prop} [Decidable c] {u : State} {x : Res} (hx : Res.Completes x) :
    Res.Completes (if c then .next u else x) := .ite (.next u) hx

/-- What a command whose operands are, or are not, well formed has to answer. -/
def Res.Answers (wf : Bool) (r : Res) : Prop := (wf = true → r.Completes) ∧ (wf = false → r = .fault .illFormed)

theorem Res.Answers.always {r : Res} (hr : r.Completes) : r.Answers true := ⟨fun _ => hr, nofun⟩

/-- A meaning that checks its operands first: the check passes where the command is well formed. -/
theorem Res.Answers.checked {ill : Prop} [Decidable ill] {wf : Bool} {r : Res} (hill : ¬ill ↔ wf = true) (hr : r.Completes) :
    Res.Answers wf (if ill then .fault .illFormed else r) := by
  constructor
  · intro hwf
    rw [if_neg (hill.2 hwf)]
    exact hr
  · intro hwf
    rw [if_pos (by simpa [hwf] using hill)]

/-! ### Meanings that look a value up before they answer -/

section
variable {s : State}

theorem execFreqResult_completes {t u} : (execFreqResult t u s).Completes := by
  unfold execFreqResult
  extract_lets
  split <;> exact .next _

theorem execConversionStart_completes {t set} : (execConversionStart t set s).Completes := by
  unfold execConversionStart
  extract_lets
  refine .guard ?_
  split <;> exact .next _

theorem execConversionResult_completes {t n raw} : (execConversionResult t n raw s).Completes := by
  unfold execConversionResult
  extract_lets
  split
  · exact .next _
  · exact .guard (.next _)

theorem execInjectedRequest_completes {t n slot} : (execInjectedRequest t n slot s).Completes := by
  unfold execInjectedRequest
  extract_lets
  split
  · exact .next _
  · exact .guard (.guard (.guard (.guard (.guard (.guard (.guard (.next _)))))))

theorem execCalibrate_completes {t r means} : (execCalibrate t r means s).Completes := by
  unfold execCalibrate
  extract_lets
  split
  · exact .next _
  · split
    · exact .next _
    · extract_lets
      split
      · exact .next _
      · exact .ite (.guard (.next _)) (.next _)

theorem execIntervalBoundary_completes {t iv slot} : (execIntervalBoundary t iv slot s).Completes := by
  unfold execIntervalBoundary
  extract_lets
  split
  · exact .next _
  · exact .guard (.next _)

theorem execSettleTimeout_completes {t} : (execSettleTimeout t s).Completes := by
  unfold execSettleTimeout
  extract_lets
  split <;> exact .next _

theorem execArmingTakesEffect_completes {t} : (execArmingTakesEffect t s).Completes := by
  unfold execArmingTakesEffect
  extract_lets
  split
  · exact .next _
  · exact .guard (.next _)

theorem execRecordClose_completes {t} : (execRecordClose t s).Completes := by
  unfold execRecordClose
  extract_lets
  refine .guard ?_
  split
  · exact .next _
  · split
    · exact .next _
    · exact .guard (.next _)

theorem execLiveClip_completes {t} : (execLiveClip t s).Completes := by
  unfold execLiveClip
  extract_lets _ last
  clear_value last
  refine .guard ?_
  split
  · exact .next _
  · exact .guard (.next _)

theorem execRate_completes {t i} : (execRate t i s).Completes := by
  unfold execRate
  extract_lets
  split <;> exact .next _

theorem execChunkAgeClose_completes {t sid} : (execChunkAgeClose t sid s).Completes := by
  unfold execChunkAgeClose
  extract_lets
  split <;> exact .next _

theorem execChunkClose_completes {t sid} : (execChunkClose t sid s).Completes := by
  unfold execChunkClose
  extract_lets
  split
  · exact .next _
  · split <;> exact .next _

theorem execBankFree_completes {t sid bank} : (execBankFree t sid bank s).Completes := by
  unfold execBankFree
  extract_lets
  split
  · exact .next _
  · exact .guard (.guard (.next _))

theorem execBlockVerify_completes {t lane good bad} : (execBlockVerify t lane good bad s).Completes := by
  unfold execBlockVerify
  extract_lets
  split <;> exact .next _

theorem execCompressBuf_completes {t r host} : (execCompressBuf t r host s).Completes := by
  unfold execCompressBuf
  extract_lets
  split
  · exact .next _
  · split
    · exact .next _
    · exact .next _
    · refine .guard (.ite (.guard (.next _)) (.guard ?_))
      split
      · exact .next _
      · split
        · exact .next _
        · exact .guard (.guard (.next _))

theorem execDecompressBuf_completes {t r host} : (execDecompressBuf t r host s).Completes := by
  unfold execDecompressBuf
  extract_lets
  split
  · exact .next _
  · split
    · exact .next _
    · refine .guard (.guard (.guard ?_))
      split
      · exact .next _
      · exact .guard (.guard (.next _))

theorem execScratchSweep_completes {t err} : (execScratchSweep t err s).Completes := by
  unfold execScratchSweep
  extract_lets
  exact .guard (.next _)

theorem execRotationTile_completes {t} : (execRotationTile t s).Completes := by
  unfold execRotationTile
  extract_lets
  refine .guard ?_
  split
  · exact .next _
  · split <;> exact .next _

theorem execMarchStitch_completes {t fails ended} : (execMarchStitch t fails ended s).Completes := by
  unfold execMarchStitch
  extract_lets
  split
  · exact .next _
  · exact .guard (.guard (.next _))

theorem execLendCollision_completes {t master offset} : (execLendCollision t master offset s).Completes := by
  unfold execLendCollision
  extract_lets
  split <;> exact .next _

theorem execTestCollide_completes {t offset read host op} : (execTestCollide t offset read host op s).Completes := by
  unfold execTestCollide
  extract_lets
  split
  · refine .guard ?_
    split <;> exact .next _
  · exact .next _

theorem execYieldRetry_completes {t} : (execYieldRetry t s).Completes := by
  unfold execYieldRetry
  extract_lets
  split
  · refine .guard ?_
    split
    · exact .next _
    · split <;> exact .next _
  · exact .next _

theorem execMarch_completes {t r} : (execMarch t r s).Completes := by
  unfold execMarch
  extract_lets
  split
  · exact .next _
  · extract_lets
    split
    · exact .next _
    · refine .guard (.guard (.guard ?_))
      split <;> exact .next _

theorem execStoTakeChunk_completes {t bad} : (execStoTakeChunk t bad s).Completes := by
  unfold execStoTakeChunk
  extract_lets
  refine .guard ?_
  split
  · exact .next _
  · extract_lets
    split
    · exact .next _
    · refine .guard (.guard ?_)
      split <;> exact .next _

theorem execNvmeWriteComplete_completes {t sid seq} : (execNvmeWriteComplete t sid seq s).Completes := by
  unfold execNvmeWriteComplete
  extract_lets
  split
  · exact .next _
  · exact .guard (.next _)

theorem execNvmeWriteError_completes {t sid seq timeout status} : (execNvmeWriteError t sid seq timeout status s).Completes := by
  unfold execNvmeWriteError
  extract_lets
  split
  · exact .next _
  · extract_lets
    refine .guard ?_
    split
    · exact .next _
    · split <;> exact .next _

theorem execRecordTableWrite_completes {t} : (execRecordTableWrite t s).Completes := by
  unfold execRecordTableWrite
  extract_lets
  split
  · exact .next _
  · exact .guard (.next _)

theorem execStoFreeRec_completes {t value} : (execStoFreeRec t value s).Completes := by
  unfold execStoFreeRec
  extract_lets
  split
  · exact .guard (.next _)
  · exact .next _

theorem execStoreFormat_completes {t r storeId} : (execStoreFormat t r storeId s).Completes := by
  unfold execStoreFormat
  extract_lets
  split
  · exact .next _
  · split
    · exact .next _
    · exact .guard (.guard (.guard (.next _)))

theorem execStoreScrub_completes {t r store} : (execStoreScrub t r store s).Completes := by
  unfold execStoreScrub
  extract_lets
  split
  · exact .next _
  · split
    · exact .next _
    · extract_lets
      refine .guard (.guard ?_)
      split
      · exact .next _
      · exact .next _

theorem execOffload_completes {t r} : (execOffload t r s).Completes := by
  unfold execOffload
  extract_lets
  split
  · exact .next _
  · split
    · exact .next _
    · refine .ite (.guard (.guard (.next _))) ?_
      split <;> exact .next _

theorem execReadRecord_completes {t r store} : (execReadRecord t r store s).Completes := by
  unfold execReadRecord
  extract_lets
  split
  · exact .next _
  · split
    · exact .next _
    · extract_lets _ _ _ _ _ _ _ chunk
      clear_value chunk
      refine .guard (.guard ?_)
      split
      · exact .next _
      · exact .guard (.next _)

theorem execCommandCompletion_completes {t r failed} : (execCommandCompletion t r failed s).Completes := by
  unfold execCommandCompletion
  extract_lets
  split
  · exact .next _
  · extract_lets
    split
    · exact .next _
    · exact .guard (.guard (.guard (.next _)))

theorem execStitchEnd_completes {t} : (execStitchEnd t s).Completes := by
  unfold execStitchEnd
  extract_lets
  split
  · exact .next _
  · extract_lets
    split
    · exact .next _
    · split <;> exact .next _

theorem execDeadline_completes {t r} : (execDeadline t r s).Completes := by
  unfold execDeadline
  extract_lets
  split <;> exact .next _

theorem execCoalTimer_completes {t n} : (execCoalTimer t n s).Completes := by
  unfold execCoalTimer
  extract_lets
  split <;> exact .next _

theorem execNop_completes {t r} : (execNop t r s).Completes := by
  unfold execNop
  extract_lets
  split <;> exact .next _

theorem execAbort_completes {t r} : (execAbort t r s).Completes := by
  unfold execAbort
  extract_lets
  split
  · exact .next _
  · split <;> exact .next _

theorem execEnumerate_completes {t r others} : (execEnumerate t r others s).Completes := by
  unfold execEnumerate
  split
  · exact .next _
  · exact .guard (.guard (.next _))

theorem execTwinResync_completes {t r} : (execTwinResync t r s).Completes := by
  unfold execTwinResync
  split
  · exact .next _
  · exact .guard (.guard (.guard (.guard (.next _))))

theorem execArmToken_completes {t port token} : (execArmToken t port token s).Completes := by
  unfold execArmToken
  extract_lets
  refine .guard (.guard (.guard ?_))
  split
  split <;> exact .next _

theorem execAlignWindowEnd_completes {t port theta last} : (execAlignWindowEnd t port theta last s).Completes := by
  unfold execAlignWindowEnd
  extract_lets
  split
  · exact .next _
  · exact .guard (.next _)

theorem execBarMemoryRead_completes {t deep offset len ce ue} : (execBarMemoryRead t deep offset len ce ue s).Completes := by
  unfold execBarMemoryRead
  extract_lets
  refine .guard (.ite (.guard (.guard (.next _))) ?_)
  split
  · exact .next _
  · exact .guard (.guard (.guard (.next _)))

/-! ### Meanings that check their operands, then look a value up -/

theorem execBar2Write_answers {t offset data poisoned x} :
    Res.Answers (Instr.wf (.bar2Write t offset data poisoned x)) (execBar2Write t offset data poisoned x s) := by
  refine .checked (by simp [Instr.wf]) (.guard (.guard ?_))
  split <;> exact .next _

theorem execBar2AliasWrite_answers {t offset data poisoned x} :
    Res.Answers (Instr.wf (.bar2AliasWrite t offset data poisoned x)) (execBar2AliasWrite t offset data poisoned x s) := by
  refine .checked (by simp [Instr.wf]) (.guard (.guard ?_))
  split <;> exact .next _

theorem execCommandFetch_answers {t data} : Res.Answers (Instr.wf (.commandFetch t data)) (execCommandFetch t data s) := by
  refine .checked (by cases data <;> simp [Instr.wf]) (.guard ?_)
  split
  · exact .next _
  · split <;> exact .next _

theorem execForwardedCommand_answers {t port dst src ring tag completion words} :
    Res.Answers (Instr.wf (.forwardedCommand t port dst src ring tag completion words))
      (execForwardedCommand t port dst src ring tag completion words s) := by
  refine .checked (by simp [Instr.wf]) (.guard (.guard (.ite ?_ (.guard (.next _)))))
  split <;> exact .next _

/-! ### Meanings that call another's -/

theorem execStop_completes {t value} : (execStop t value s).Completes :=
  .guard (.guard (.guard (.guard (.guard (.next _)))))

/-- With GLB_CTL.HOST_STOP set, a PCIe reset answers what STOP does. -/
theorem execPcieReset_completes {t link} : (execPcieReset t link s).Completes :=
  .guard (.ite execStop_completes (.next _))

end

/-! ### Every row -/

/-- The rows whose operands have sizes check them; of the others, some look a value up or have guards, and the rest name one next
state outright. -/
theorem exec_answers (c : Instr) (s : State) : Res.Answers c.wf (exec c s) := by
  cases c
  case registerWrite => exact .checked (by simp [Instr.wf, bar0Size]) (.next _)
  case setAliasWrite => exact .checked (by simp [Instr.wf, bar0Region]; omega) (.next _)
  case clearAliasWrite => exact .checked (by simp [Instr.wf, bar0Region]; omega) (.next _)
  case pairLowWordRead => exact .checked (by simp [Instr.wf, bar0Size]) (.next _)
  case pair64Write => exact .checked (by simp [Instr.wf, bar0Size]) (.next _)
  case bar2Write => exact execBar2Write_answers
  case bar2AliasWrite => exact execBar2AliasWrite_answers
  case storeRecovery => exact .checked (by simp [Instr.wf]) (.guard (.next _))
  case commandFetch => exact execCommandFetch_answers
  case flitReceive => exact .checked (by simp [Instr.wf]) (.guard (.guard (.next _)))
  case forwardedCommand => exact execForwardedCommand_answers
  case thermalReading => exact .checked (by simp [Instr.wf]) (.next _)
  case boot => exact .checked (by simp [Instr.wf]) (.next _)
  case startDone => exact .checked (by simp [Instr.wf]) (.next _)
  case cpxHeartbeat => exact .checked (by simp [Instr.wf]) (.next _)
  all_goals refine .always ?_
  case freqResult => exact execFreqResult_completes
  case conversionStart => exact execConversionStart_completes
  case conversionResult => exact execConversionResult_completes
  case injectedRequest => exact execInjectedRequest_completes
  case calibrate => exact execCalibrate_completes
  case intervalBoundary => exact execIntervalBoundary_completes
  case settleTimeout => exact execSettleTimeout_completes
  case armingTakesEffect => exact execArmingTakesEffect_completes
  case recordClose => exact execRecordClose_completes
  case liveClip => exact execLiveClip_completes
  case rate => exact execRate_completes
  case chunkAgeClose => exact execChunkAgeClose_completes
  case chunkClose => exact execChunkClose_completes
  case bankFree => exact execBankFree_completes
  case blockVerify => exact execBlockVerify_completes
  case compressBuf => exact execCompressBuf_completes
  case decompressBuf => exact execDecompressBuf_completes
  case scratchSweep => exact execScratchSweep_completes
  case rotationTile => exact execRotationTile_completes
  case marchStitch => exact execMarchStitch_completes
  case lendCollision => exact execLendCollision_completes
  case testCollide => exact execTestCollide_completes
  case yieldRetry => exact execYieldRetry_completes
  case march => exact execMarch_completes
  case stoTakeChunk => exact execStoTakeChunk_completes
  case nvmeWriteComplete => exact execNvmeWriteComplete_completes
  case nvmeWriteError => exact execNvmeWriteError_completes
  case recordTableWrite => exact execRecordTableWrite_completes
  case stoFreeRec => exact execStoFreeRec_completes
  case storeFormat => exact execStoreFormat_completes
  case storeScrub => exact execStoreScrub_completes
  case offload => exact execOffload_completes
  case readRecord => exact execReadRecord_completes
  case commandCompletion => exact execCommandCompletion_completes
  case stitchEnd => exact execStitchEnd_completes
  case deadline => exact execDeadline_completes
  case coalTimer => exact execCoalTimer_completes
  case nop => exact execNop_completes
  case abort => exact execAbort_completes
  case enumerate => exact execEnumerate_completes
  case twinResync => exact execTwinResync_completes
  case armToken => exact execArmToken_completes
  case alignWindowEnd => exact execAlignWindowEnd_completes
  case pcieReset => exact execPcieReset_completes
  case barMemoryRead => exact execBarMemoryRead_completes
  case bandSearchStep | dlgLock | dlgUnlock | encoderCount | loopCycleBoundary | overrangeExit | keepAlive | tableRebuild |
      coarseWrap | converterReady | rfqFlush | flushDone | commitBatch | nvmeFlushComplete | mapFuaComplete | nvqReset |
      ptpMessage | portRetrain | armAck | stopToken | retractToken | progressSend | probe | reply | regToken | ready |
      reachTimeout | seamSpanEnd | summary | thin | safeToken | detach | sealCheck => exact .guard (.next _)
  case encoderIndex | overrangeEntry | stateClockEdge | pulseSourcePulse | ladderPly | bar4Write | driveLost | sqDoorbell |
      cqDoorbell | ppsEdge | fireToken | progressToken | pair | configurationRequest => exact .guard (.guard (.next _))
  case lockWindowEnd | dmScrub => exact .guard (.guard (.guard (.next _)))
  case bandVerify => exact .guard (.ite (.next _) (.guard (.next _)))
  case overflow => exact .guard (.ite (.guard (.next _)) (.next _))
  case enumWave | enumVerify => exact .guard (.guard (.guard (.guard (.next _))))
  case arm => exact .guard (.guard (.guard (.guard (.guard (.next _)))))
  case stop => exact execStop_completes
  all_goals exact .next _

/-- Settles O5, row by row (`exec_answers`). -/
theorem everyWellFormedCommandCompletes : Obligations.EveryWellFormedCommandCompletes := exec_answers

end Sys2Proof.Machine
end

section
/-!
SUPPORT. Facts the statements about register pages rest on: single bits, RW bits, the staged copy, the pages of the map, the status
registers of the page header (R32), and the clearing key (R448).
-/
namespace Sys2Proof.Machine

/-! ### Bits -/

theorem bitOf_eq_testBit (v i : Nat) : bitOf v i = v.testBit i := by
  rw [Nat.testBit_eq_decide_div_mod_eq]
  rfl

theorem bitOf_eq_bits (v i : Nat) : bitOf v i = (bits v i i == 1) := by
  simp [bitOf, bits]

/-- A bit reads back as put, every other bit as before. -/
theorem bitOf_putBit (v i j : Nat) (b : Bool) : bitOf (putBit v i b) j = if j = i then b else bitOf v j := by
  rw [bitOf_eq_bits, bitOf_eq_bits]
  unfold putBit
  split
  · next h =>
    subst h
    rw [bits_putBits_same _ _ _ _ (Nat.le_refl _)]
    cases b <;> simp [b2n]
  · next h =>
    rcases Nat.lt_or_gt_of_ne h with h | h
    · rw [bits_putBits_below _ _ _ _ _ _ (Nat.le_refl _) h]
    · rw [bits_putBits_above _ _ _ _ _ _ (Nat.le_refl _) h]

theorem putBit_lt {v i n : Nat} (b : Bool) (hi : i < n) (hv : v < 2 ^ n) : putBit v i b < 2 ^ n :=
  putBits_lt _ _ _ _ _ (Nat.le_refl _) hi hv

/-! ### RW bits -/

theorem mergeBits_lt {old v n : Nat} (mask : Nat) (ho : old < 2 ^ n) (hv : v < 2 ^ n) : mergeBits old mask v < 2 ^ n :=
  Nat.or_lt_two_pow (Nat.lt_of_le_of_lt Nat.and_le_left ho) (Nat.lt_of_le_of_lt Nat.and_le_left hv)

theorem testBit_mergeBits {old mask v i : Nat} (hi : i < 32) :
    (mergeBits old mask v).testBit i = if mask.testBit i then v.testBit i else old.testBit i := by
  have h1 : Nat.testBit 0xFFFFFFFF i = true := by
    rw [show 0xFFFFFFFF = 2 ^ 32 - 1 by rfl, Nat.testBit_two_pow_sub_one]
    simpa using hi
  unfold mergeBits
  cases hm : mask.testBit i <;> simp [h1, hm]

theorem testBit_of_lt_word {x i : Nat} (hi : ¬i < 32) (hx : x < 2 ^ 32) : x.testBit i = false :=
  Nat.testBit_lt_two_pow (Nat.lt_of_lt_of_le hx (Nat.pow_le_pow_right (by omega) (by omega)))

/-- Taking the RW bits a second time changes nothing. -/
theorem mergeBits_mergeBits {old v : Nat} (mask : Nat) (ho : old < 2 ^ 32) (hv : v < 2 ^ 32) :
    mergeBits (mergeBits old mask v) mask v = mergeBits old mask v := by
  apply Nat.eq_of_testBit_eq
  intro i
  by_cases hi : i < 32
  · simp only [testBit_mergeBits hi]
    split <;> rfl
  · rw [testBit_of_lt_word hi (mergeBits_lt _ (mergeBits_lt _ ho hv) hv), testBit_of_lt_word hi (mergeBits_lt _ ho hv)]

/-- A copy that agrees with the register leaves it. -/
theorem mergeBits_self {v : Nat} (mask : Nat) (hv : v < 2 ^ 32) : mergeBits v mask v = v := by
  apply Nat.eq_of_testBit_eq
  intro i
  by_cases hi : i < 32
  · rw [testBit_mergeBits hi, ite_self]
  · rw [testBit_of_lt_word hi (mergeBits_lt _ hv hv), testBit_of_lt_word hi hv]

/-! ### The staged copy -/

theorem Keeps.canon {a b : State} (h : Keeps a b) (ha : a.Canon) : b.Canon := h.2.2.2 ha

theorem State.Canon.staged {s : State} (h : s.Canon) : swf regReset s.regs.staged = true := h.2.2.2

theorem State.stagedReg_lt (s : State) (p o : Nat) : s.stagedReg p o < 2 ^ 32 := (sget regReset s.regs.staged (rkey p o)).isLt

/-- A staged register reads back the low 32 bits written, every other one as before. -/
theorem State.stagedReg_setStaged {s : State} (h : swf regReset s.regs.staged = true) (p o v q u : Nat) :
    (s.setStaged p o v).stagedReg q u = if rkey q u = rkey p o then v % 2 ^ 32 else s.stagedReg q u := by
  unfold State.stagedReg State.setStaged
  rw [sget_sset _ _ h]
  split <;> simp

/-! ### The page map -/

theorem pageExists_iff {p : Nat} : pageExists p = true ↔ pageType p ≠ 0 := by simp [pageExists]

/-- A page that exists stands in the page map under its type code. -/
theorem mem_pageMap_of_pageExists {p : Nat} (h : pageExists p = true) : (p, pageType p) ∈ pageMap := by
  rw [pageExists_iff] at h
  unfold pageType at h ⊢
  cases hl : pageMap.lookup p with
  | none => simp [hl] at h
  | some t =>
    obtain ⟨l, r, he, -⟩ := List.lookup_eq_some_iff.1 hl
    simp [he]

theorem pageExists_lt {p : Nat} (h : pageExists p = true) : p < 0x100 :=
  (by decide : ∀ e ∈ pageMap, e.1 < 0x100) _ (mem_pageMap_of_pageExists h)

/-! ### Time and the clearing key -/

@[simp] theorem State.at_regs (s : State) (t : Nat) : (s.at t).regs = s.regs := rfl

@[simp] theorem State.breakKey_regs (s : State) (p o : Nat) : (s.breakKey p o).regs = s.regs := by
  unfold State.breakKey
  split <;> rfl

@[simp] theorem State.breakKey_out (s : State) (p o : Nat) : (s.breakKey p o).out = s.out := by
  unfold State.breakKey
  split <;> rfl

/-- Only a write to the SAF page breaks the clearing sequence. -/
theorem State.breakKey_of_ne {s : State} {p o : Nat} (hp : p ≠ P.SAF) : s.breakKey p o = s := by
  unfold State.breakKey
  rw [if_neg (fun h => hp h.1)]

theorem State.breakKey_at (s : State) (t p o : Nat) :
    (s.at t).breakKey p o = { s.breakKey p o with now := (s.at t).now } := by
  unfold State.breakKey
  split <;> rfl

theorem State.reg_congr {s u : State} (h : u.regs.active = s.regs.active) (p o : Nat) : u.reg p o = s.reg p o := by
  unfold State.reg
  rw [h]

end Sys2Proof.Machine
end

section
/-!
SUPPORT. Pending groups (R37, R38): what a write of COMMIT does to COMMIT_STAT, and that only COMMIT_STAT and PAGE_STAT of the page
change.
-/
namespace Sys2Proof.Machine

/-! ### Registers outside a list -/

theorem RegsBut.refl (ks : List Nat) (s : State) : RegsBut ks s s := fun _ _ _ => rfl

theorem RegsBut.trans {ks : List Nat} {s u w : State} (h : RegsBut ks s u) (h' : RegsBut ks u w) : RegsBut ks s w :=
  fun p o hk => (h' p o hk).trans (h p o hk)

theorem RegsBut.of_active {ks : List Nat} {s u : State} (h : u.regs.active = s.regs.active) : RegsBut ks s u :=
  fun p o _ => State.reg_congr h p o

theorem RegsBut.setReg {ks : List Nat} {s : State} (h : s.ActiveWf) (p o v : Nat) (hk : rkey p o ∈ ks) :
    RegsBut ks s (s.setReg p o v) := by
  intro q u hq
  have hne : rkey q u ≠ rkey p o := fun e => hq (by rw [e]; exact hk)
  rw [State.reg_setReg h, if_neg hne]

/-! ### Pending groups -/

theorem State.pendGroups_congr {s u : State} {p : Nat} (h : u.reg p H.CSTAT = s.reg p H.CSTAT) : u.pendGroups p = s.pendGroups p := by
  unfold State.pendGroups
  rw [h]

theorem State.pendGroups_lt (s : State) (p : Nat) : s.pendGroups p < 2 ^ 17 := bits_lt _ _ _

theorem State.pendGroups_setPendGroups {s : State} (h : s.ActiveWf) (p m : Nat) :
    (s.setPendGroups p m).pendGroups p = m % 2 ^ 17 := by
  unfold State.pendGroups State.setPendGroups
  dsimp only
  rw [State.reg_setReg (State.setReg_wf h _ _ _), if_neg (by simp [rkey, H.CSTAT, H.STAT]), State.reg_setReg h, if_pos rfl,
    Nat.mod_eq_of_lt (putBits_lt _ _ _ _ _ (by omega) (by omega) (s.reg_lt _ _)), bits_putBits_same _ _ _ _ (by omega)]

theorem State.setPendGroups_regsBut {s : State} (h : s.ActiveWf) (p m : Nat) :
    RegsBut [rkey p H.CSTAT, rkey p H.STAT] s (s.setPendGroups p m) :=
  (RegsBut.setReg h p H.CSTAT _ (by simp)).trans (RegsBut.setReg (State.setReg_wf h _ _ _) p H.STAT _ (by simp))

theorem State.setPendGroups_onlyActive (s : State) (p m : Nat) : OnlyActive s (s.setPendGroups p m) := rfl

/-- No page has more than the 17 groups COMMIT has bits for. -/
theorem pageGroups_le {p : Nat} (h : pageExists p = true) : pageGroups p ≤ 17 :=
  (by decide +kernel : ∀ e ∈ pageMap, pageGroups e.1 ≤ 17) _ (mem_pageMap_of_pageExists h)

/-- The groups a write of COMMIT names. -/
def namedGroups (p v : Nat) : Nat := if bitOf v 31 then allGroups p else bits v 16 0 &&& allGroups p

theorem namedGroups_lt {p : Nat} (v : Nat) (h : pageExists p = true) : namedGroups p v < 2 ^ 17 := by
  have hall : allGroups p < 2 ^ 17 := by
    have := Nat.pow_le_pow_right (n := 2) (by omega) (pageGroups_le h)
    have := Nat.two_pow_pos (pageGroups p)
    unfold allGroups
    omega
  unfold namedGroups
  split
  · exact hall
  · exact Nat.lt_of_le_of_lt Nat.and_le_right hall

/-! ### A write of COMMIT -/

theorem State.commitWrite_add {s : State} {p v : Nat} (h : bitOf v 30 = false) :
    s.commitWrite p v = s.setPendGroups p (s.pendGroups p ||| namedGroups p v) := by
  simp [State.commitWrite, h, namedGroups]

theorem State.commitWrite_cancel {s : State} {p v : Nat} (h : bitOf v 30 = true) (hn : bits v 16 0 ≠ 0 ∨ bitOf v 31 = true) :
    s.commitWrite p v = s.setPendGroups p (s.pendGroups p &&& (0x1FFFF ^^^ namedGroups p v)) := by
  have hall : ¬(bits v 16 0 = 0 ∧ (!bitOf v 31) = true) := by
    rintro ⟨h0, h31⟩
    simp_all
  simp only [State.commitWrite, h, if_true, if_neg hall, namedGroups]

theorem State.commitWrite_cancelAll {s : State} {p v : Nat} (h : bitOf v 30 = true) (h0 : bits v 16 0 = 0) (h31 : bitOf v 31 = false) :
    s.commitWrite p v = s.setPendGroups p 0 := by
  simp [State.commitWrite, h, h0, h31]

/-- CANCEL is no group. -/
theorem bits_cancel (v : Nat) : bits (putBit v 30 true) 16 0 = bits v 16 0 :=
  bits_putBits_below _ _ _ _ _ _ (Nat.le_refl _) (by omega)

theorem namedGroups_cancel (p v : Nat) : namedGroups p (putBit v 30 true) = namedGroups p v := by
  simp [namedGroups, bits_cancel, bitOf_putBit]

/-- What a page whose pending groups are set at a time keeps. -/
def PendFrame (s : State) (p : Nat) (u : State) : Prop :=
  RegsBut [rkey p H.CSTAT, rkey p H.STAT] s u ∧
    u = { s.breakKey p 0 with now := u.now, regs := { s.regs with active := u.regs.active } }

theorem State.setPendGroups_frame {s : State} (hs : s.Canon) (t p m : Nat) :
    PendFrame s p (((s.at t).breakKey p 0).setPendGroups p m) := by
  rw [State.breakKey_at]
  refine ⟨?_, ?_⟩
  · refine RegsBut.trans (RegsBut.of_active (by simp)) (State.setPendGroups_regsBut ?_ p m)
    simpa [State.ActiveWf] using hs.active
  · rw [State.setPendGroups_onlyActive]
    simp

theorem State.setPendGroups_pends {s : State} (hs : s.Canon) {t p m : Nat} (hm : m < 2 ^ 17) :
    (((s.at t).breakKey p 0).setPendGroups p m).pendGroups p = m := by
  rw [State.pendGroups_setPendGroups (by simpa [State.ActiveWf] using hs.active), Nat.mod_eq_of_lt hm]

/-- A page that takes writes exists. -/
theorem State.pageExists_of_writable {s : State} {p : Nat} (h : s.writable p = true) : pageExists p = true := by
  simp only [State.writable, Bool.and_eq_true] at h
  exact h.1.2

theorem execCommit_next {s : State} {p : Nat} (hw : s.writable p = true) (t : Nat) (v : Word) :
    execCommit t p v s = .next (((s.at t).breakKey p 0).commitWrite p v.toNat) := by
  have h : (s.at t).writable p = true := hw
  simp only [execCommit, h, if_true]

theorem execCommitCancel_next {s : State} {p : Nat} (hw : s.writable p = true) (t : Nat) (v : Word) :
    execCommitCancel t p v s = .next (((s.at t).breakKey p 0).commitWrite p (putBit v.toNat 30 true)) := by
  have h : (s.at t).writable p = true := hw
  simp only [execCommitCancel, h, if_true]

/-- Settles O13: each form of COMMIT sets the pending groups to a mask of 17 bits, which reads back, in the frame of
`State.setPendGroups_frame`. -/
theorem commitMarksGroupsPending : Obligations.CommitMarksGroupsPending := by
  intro s t p v hs hw
  have hnamed : namedGroups p v.toNat < 2 ^ 17 := namedGroups_lt _ (State.pageExists_of_writable hw)
  have hpend : ((s.at t).breakKey p 0).pendGroups p = s.pendGroups p :=
    State.pendGroups_congr (State.reg_congr (by simp) _ _)
  have hcancel : bitOf (putBit v.toNat 30 true) 30 = true := by simp [bitOf_putBit]
  refine ⟨fun h30 => ?_, fun hn => ?_, fun h0 h31 => ?_⟩
  · refine ⟨_, execCommit_next hw t v, ?_⟩
    rw [State.commitWrite_add h30, hpend]
    exact ⟨State.setPendGroups_pends hs (Nat.or_lt_two_pow (s.pendGroups_lt p) hnamed), State.setPendGroups_frame hs t p _⟩
  · refine ⟨_, execCommitCancel_next hw t v, ?_⟩
    rw [State.commitWrite_cancel hcancel (by simpa [bits_cancel, bitOf_putBit] using hn), hpend, namedGroups_cancel]
    exact ⟨State.setPendGroups_pends hs (Nat.lt_of_le_of_lt Nat.and_le_left (s.pendGroups_lt p)),
      State.setPendGroups_frame hs t p _⟩
  · refine ⟨_, execCommitCancel_next hw t v, ?_⟩
    rw [State.commitWrite_cancelAll hcancel (by rw [bits_cancel]; exact h0) (by simpa [bitOf_putBit] using h31)]
    exact ⟨State.setPendGroups_pends hs (by omega), State.setPendGroups_frame hs t p _⟩

end Sys2Proof.Machine
end

section
/-!
SUPPORT. Events and interrupt messages (R46 to R48, R387): what latching, clearing, enabling and forcing events change, and what
unmasking sends.
-/
namespace Sys2Proof.Machine

/-! ### What events leave alone -/

theorem SameBlocks.refl (s : State) : SameBlocks s s := rfl

theorem SameBlocks.trans {s u w : State} (h : SameBlocks s u) (h' : SameBlocks u w) : SameBlocks s w := by
  unfold SameBlocks at *
  rw [h', h]

theorem SameBlocks.setReg (s : State) (p o v : Nat) : SameBlocks s (s.setReg p o v) := rfl

theorem SameBlocks.msixSend (s : State) (v : Nat) : SameBlocks s (s.msixSend v) := by
  unfold State.msixSend
  split
  · split <;> rfl
  · rfl

theorem SameBlocks.irqRequest (s : State) (p : Nat) : SameBlocks s (s.irqRequest p) := by
  unfold State.irqRequest
  extract_lets
  split
  · exact SameBlocks.msixSend _ _
  · rfl

theorem SameBlocks.latch (s : State) (p b : Nat) : SameBlocks s (s.latch p b) := by
  unfold State.latch
  extract_lets
  split
  · rfl
  · split
    · exact (SameBlocks.setReg ..).trans (SameBlocks.irqRequest ..)
    · exact SameBlocks.setReg ..

/-- The state a write to a page begins from. -/
theorem SameBlocks.breakKey_at (s : State) (t p : Nat) : SameBlocks (s.breakKey p 0) ((s.at t).breakKey p 0) := by
  rw [State.breakKey_at]
  rfl

/-! ### Latching -/

theorem RegsBut.latch {s : State} (h : s.ActiveWf) (p b : Nat) : RegsBut [rkey p H.PEND] s (s.latch p b) :=
  fun q u hk => State.latch_reg h p b q u (by simpa using hk)

/-- Latching a bit of EVT_PEND sets it and leaves the others. -/
theorem State.latch_pend {s : State} (h : s.ActiveWf) (p i : Nat) {b : Nat} (hb : b < 32) :
    bitOf ((s.latch p b).reg p H.PEND) i = (bitOf (s.reg p H.PEND) i || i == b) := by
  have hset : bitOf ((s.setReg p H.PEND (putBit (s.reg p H.PEND) b true)).reg p H.PEND) i =
      (bitOf (s.reg p H.PEND) i || i == b) := by
    rw [State.reg_setReg h, if_pos rfl, Nat.mod_eq_of_lt (putBit_lt _ hb (s.reg_lt _ _)), bitOf_putBit]
    by_cases hi : i = b <;> simp [hi]
  unfold State.latch
  extract_lets
  split
  · next hp =>
    by_cases hi : i = b
    · subst hi
      simpa using hp
    · simp [hi]
  · split
    · rw [State.irqRequest_reg, hset]
    · exact hset

/-- Latching a list of bits sets each of them. -/
theorem State.each_latch_pend {s : State} (h : s.ActiveWf) (p i : Nat) {l : List Nat} (hl : ∀ b ∈ l, b < 32) :
    bitOf ((s.each l (fun s b => s.latch p b)).reg p H.PEND) i = (bitOf (s.reg p H.PEND) i || l.contains i) := by
  induction l generalizing s with
  | nil => simp [State.each]
  | cons b r ih =>
    have hr := ih (State.latch_wf h p b) (fun c hc => hl c (List.mem_cons_of_mem _ hc))
    simp only [State.each, List.foldl_cons] at hr ⊢
    rw [hr, State.latch_pend h p i (hl b (List.mem_cons_self ..)), List.contains_cons, Bool.or_assoc]

/-- Latching a list of bits writes EVT_PEND alone. -/
theorem State.each_latch_frame {s : State} (h : s.ActiveWf) (p : Nat) (l : List Nat) :
    RegsBut [rkey p H.PEND] s (s.each l (fun s b => s.latch p b)) ∧ SameBlocks s (s.each l (fun s b => s.latch p b)) := by
  induction l generalizing s with
  | nil => exact ⟨.refl _ _, .refl _⟩
  | cons b r ih =>
    obtain ⟨hregs, hsame⟩ := ih (State.latch_wf h p b)
    exact ⟨(RegsBut.latch h p b).trans hregs, (SameBlocks.latch s p b).trans hsame⟩

/-! ### Writes of the event registers -/

theorem State.pendClear_reg {s : State} (h : s.ActiveWf) (p v : Nat) :
    (s.pendClear p v).reg p H.PEND = s.reg p H.PEND &&& (0xFFFFFFFF ^^^ v) := by
  unfold State.pendClear
  rw [State.reg_setReg h, if_pos rfl, Nat.mod_eq_of_lt (Nat.lt_of_le_of_lt Nat.and_le_left (s.reg_lt _ _))]

/-- A write of EVT_EN sets the register, and may raise the page's request. -/
theorem State.enWrite_cases (s : State) (p v : Nat) :
    s.enWrite p v = s.setReg p H.EN (v &&& 0xEFFFFFFF) ∨ s.enWrite p v = (s.setReg p H.EN (v &&& 0xEFFFFFFF)).irqRequest p := by
  unfold State.enWrite
  extract_lets
  split
  · exact .inl rfl
  · exact .inr rfl

theorem State.enWrite_spec {s : State} (h : s.ActiveWf) {p v : Nat} :
    (s.enWrite p v).reg p H.EN = v &&& 0xEFFFFFFF ∧ RegsBut [rkey p H.EN] s (s.enWrite p v) ∧ SameBlocks s (s.enWrite p v) := by
  have hlt : v &&& 0xEFFFFFFF < 2 ^ 32 := Nat.lt_of_le_of_lt Nat.and_le_right (by omega)
  have hreg : (s.setReg p H.EN (v &&& 0xEFFFFFFF)).reg p H.EN = v &&& 0xEFFFFFFF := by
    rw [State.reg_setReg h, if_pos rfl, Nat.mod_eq_of_lt hlt]
  have hbut : RegsBut [rkey p H.EN] s (s.setReg p H.EN (v &&& 0xEFFFFFFF)) := .setReg h _ _ _ (by simp)
  rcases s.enWrite_cases p v with he | he <;> rw [he]
  · exact ⟨hreg, hbut, SameBlocks.setReg ..⟩
  · exact ⟨(State.irqRequest_reg ..).trans hreg, hbut.trans (.of_active (by simp)),
      (SameBlocks.setReg ..).trans (SameBlocks.irqRequest ..)⟩

/-- The bits a write of EVT_FORCE latches: those written but 28. -/
theorem forced_contains (v : Nat) {i : Nat} (hi : i < 32) :
    ((List.range 32).filter (fun b => bitOf v b && b != 28)).contains i = (bitOf v i && i != 28) := by
  rw [Bool.eq_iff_iff]
  simp [hi]

theorem execEvtPendClear_next {s : State} {p : Nat} (hw : s.writable p = true) (t : Nat) (v : Word) :
    execEvtPendClear t p v s = .next (((s.at t).breakKey p 0).pendClear p v.toNat) := by
  have h : (s.at t).writable p = true := hw
  simp only [execEvtPendClear, h, if_true]

theorem execEvtEnWrite_next {s : State} {p : Nat} (hw : s.writable p = true) (t : Nat) (v : Word) :
    execEvtEnWrite t p v s = .next (((s.at t).breakKey p 0).enWrite p v.toNat) := by
  have h : (s.at t).writable p = true := hw
  simp only [execEvtEnWrite, h, if_true]

theorem execEvtForce_next {s : State} {p : Nat} (hw : s.writable p = true) (t : Nat) (v : Word) :
    execEvtForce t p v s = .next (((s.at t).breakKey p 0).forceWrite p v.toNat) := by
  have h : (s.at t).writable p = true := hw
  simp only [execEvtForce, h, if_true]

/-! ### Interrupt messages -/

/-- Sending a list of messages appends them in order and changes nothing else. -/
theorem State.each_emit_msix (s : State) (l : List Nat) :
    s.each l (fun s v => s.emit (.msix v)) = { s with out := s.out ++ l.map Output.msix } := by
  induction l generalizing s with
  | nil => simp [State.each]
  | cons v r ih =>
    have hr := ih (s.emit (.msix v))
    simp only [State.each, List.foldl_cons] at hr ⊢
    rw [hr]
    simp [State.emit]

/-- Filtering a list without repetitions for one of its members leaves that member alone. -/
theorem filter_eq_singleton {α : Type} [DecidableEq α] {l : List α} {f : α → Bool} {a : α} (hl : l.Nodup) (ha : a ∈ l)
    (hf : ∀ x ∈ l, f x = (x == a)) : l.filter f = [a] := by
  rw [List.filter_congr hf, List.filter_beq, List.count_eq_one_of_mem hl ha]
  rfl

/-- Unmasking a vector sends the messages held whose vector is unmasked now. -/
theorem execMsixUnmask_some (s : State) (v : Fin 512) :
    execMsixUnmask (some v) s =
      let masked := s.msix.masked.filter (fun x => x != v.val)
      let due := s.msix.waiting.filter (fun w => !s.msix.funcMask && !masked.contains w)
      .next { s with
        out := s.out ++ due.map Output.msix
        msix := { s.msix with masked := masked, waiting := s.msix.waiting.filter (fun w => !due.contains w) } } := by
  simp only [execMsixUnmask, State.each_emit_msix]

/-- Unmasking the function sends every message held whose vector is unmasked. -/
theorem execMsixUnmask_none (s : State) :
    execMsixUnmask none s =
      let due := s.msix.waiting.filter (fun w => !s.msix.masked.contains w)
      .next { s with
        out := s.out ++ due.map Output.msix
        msix := { s.msix with funcMask := false, waiting := s.msix.waiting.filter (fun w => !due.contains w) } } := by
  simp only [execMsixUnmask, State.each_emit_msix, Bool.not_false, Bool.true_and]

/-! ### The statement -/

/-- The clauses of O16 about EVT_PEND, EVT_EN and EVT_FORCE. -/
theorem eventWrites (s : State) (t p : Nat) (v : Word) (hs : s.Canon) (hw : s.writable p = true) :
    (∃ u, exec (.evtPendClear t p v) s = .next u ∧ u.reg p H.PEND = s.reg p H.PEND &&& (0xFFFFFFFF ^^^ v.toNat) ∧
      RegsBut [rkey p H.PEND] s u ∧ SameBlocks (s.breakKey p 0) u ∧ u.out = s.out) ∧
    (∃ u, exec (.evtEnWrite t p v) s = .next u ∧ u.reg p H.EN = v.toNat &&& 0xEFFFFFFF ∧ RegsBut [rkey p H.EN] s u ∧
      SameBlocks (s.breakKey p 0) u) ∧
    (∃ u, exec (.evtForce t p v) s = .next u ∧
      (∀ i, i < 32 → bitOf (u.reg p H.PEND) i = (bitOf (s.reg p H.PEND) i || (bitOf v.toNat i && i != 28))) ∧
      RegsBut [rkey p H.PEND] s u ∧ SameBlocks (s.breakKey p 0) u) := by
  have hwf : ((s.at t).breakKey p 0).ActiveWf := by simpa [State.ActiveWf] using hs.active
  have hreg (q o : Nat) : ((s.at t).breakKey p 0).reg q o = s.reg q o := State.reg_congr (by simp) q o
  have hbut (ks : List Nat) : RegsBut ks s ((s.at t).breakKey p 0) := .of_active (by simp)
  have hsame := SameBlocks.breakKey_at s t p
  refine ⟨⟨_, execEvtPendClear_next hw t v, ?_, (hbut _).trans (.setReg hwf _ _ _ (by simp)), hsame.trans (.setReg ..), by
    simp [State.pendClear]⟩, ⟨_, execEvtEnWrite_next hw t v, ?_⟩, ⟨_, execEvtForce_next hw t v, fun i hi => ?_, ?_⟩⟩
  · rw [State.pendClear_reg hwf, hreg]
  · obtain ⟨hen, hregs, hblocks⟩ := State.enWrite_spec hwf (p := p) (v := v.toNat)
    exact ⟨hen, (hbut _).trans hregs, hsame.trans hblocks⟩
  · unfold State.forceWrite
    rw [State.each_latch_pend hwf p i (by simp +contextual), forced_contains _ hi, hreg]
  · obtain ⟨hregs, hblocks⟩ := State.each_latch_frame hwf p ((List.range 32).filter (fun b => bitOf v.toNat b && b != 28))
    exact ⟨(hbut _).trans hregs, hsame.trans hblocks⟩

/-- The clauses of O16 about MSIX_UNMASK: with one vector unmasked, what is due is the one message held for it. -/
theorem unmaskingSends (s : State) (v : Fin 512) (hnodup : s.msix.waiting.Nodup) :
    (s.msix.funcMask = false → v.val ∈ s.msix.waiting → (∀ w ∈ s.msix.waiting, w = v.val ∨ w ∈ s.msix.masked) →
      exec (.msixUnmask (some v)) s = .next { s with
        out := s.out ++ [.msix v.val],
        msix := { s.msix with masked := s.msix.masked.filter (fun x => x != v.val), waiting := s.msix.waiting.filter (fun x => x != v.val) } }) ∧
    (∃ u, exec (.msixUnmask none) s = .next u ∧ u.msix.funcMask = false ∧ (∀ w, w ∈ u.msix.waiting ↔ w ∈ s.msix.waiting ∧ w ∈ s.msix.masked) ∧
      u.out = s.out ++ (s.msix.waiting.filter (fun w => !s.msix.masked.contains w)).map Output.msix) := by
  refine ⟨fun hfun hmem hmasked => ?_, _, execMsixUnmask_none s, rfl, fun w => ?_, rfl⟩
  · have hdue : s.msix.waiting.filter (fun w => !s.msix.funcMask && !(s.msix.masked.filter (fun x => x != v.val)).contains w) =
        [v.val] := by
      refine filter_eq_singleton hnodup hmem fun w hw => ?_
      by_cases hv : w = v.val
      · simp [hfun, hv]
      · simp [hfun, hv, (hmasked w hw).resolve_left hv]
    have hrest : (fun w => !([v.val].contains w)) = fun w => w != v.val := by
      funext w
      rw [Bool.eq_iff_iff]
      simp
    refine (execMsixUnmask_some s v).trans ?_
    simp only [hdue, hrest, List.map_cons, List.map_nil]
  · simp only [List.mem_filter, Bool.not_eq_true', List.contains_eq_mem, decide_eq_false_iff_not]
    tauto

/-- Settles O16. -/
theorem eventsAndMessages : Obligations.EventsAndMessages := ⟨eventWrites, unmaskingSends⟩

end Sys2Proof.Machine
end

section
/-!
SUPPORT. Modes of a page (R43 to R45): what entering staged mode copies, and which of PAGE_CTL's bits a mode change, a soft reset, its
completion and a stop set.
-/
namespace Sys2Proof.Machine

/-! ### Sparse data cut by key -/

/-- Cutting entries by their keys leaves the other keys' values, and the cut ones at their default. -/
theorem sget_filter_key {α : Type} {d : Nat → α} (P : Nat → Bool) (m : List (Nat × α)) (k : Nat) :
    sget d (m.filter (fun e => P e.1)) k = if P k then sget d m k else d k := by
  induction m with
  | nil => simp [sget]
  | cons e r ih =>
    obtain ⟨a, v⟩ := e
    by_cases ha : a = k
    · subst ha
      cases hP : P a
      · simpa [List.filter_cons, hP] using ih
      · simp [hP, sget]
    · cases hP : P a <;> simp [hP, sget, ha, ih]

/-- A key that is not listed reads as its default. -/
theorem sget_of_not_mem {α : Type} {d : Nat → α} {m : List (Nat × α)} {k : Nat} (h : k ∉ m.map Prod.fst) : sget d m k = d k := by
  induction m with
  | nil => rfl
  | cons e r ih =>
    obtain ⟨hk, hr⟩ : k ≠ e.1 ∧ k ∉ r.map Prod.fst := by simpa using h
    simp [sget, hk.symm, ih hr]

theorem rkey_div_mod (k : Nat) : rkey (k / 0x1000) (k % 0x1000) = k := Nat.div_add_mod' k 0x1000

theorem rkey_div {p o : Nat} (ho : o < 0x1000) : rkey p o / 0x1000 = p := by
  unfold rkey
  omega

theorem rkey_mod {p o : Nat} (ho : o < 0x1000) : rkey p o % 0x1000 = o := by
  unfold rkey
  omega

/-! ### Loading the staged copy -/

/-- Write a list of register entries into the staged copy. -/
def State.stageList (s : State) (l : List (Nat × Word)) : State :=
  s.each l (fun s e => s.setStaged (e.1 / 0x1000) (e.1 % 0x1000) e.2.toNat)

theorem State.stageList_cons (s : State) (e : Nat × Word) (r : List (Nat × Word)) :
    s.stageList (e :: r) = (s.setStaged (e.1 / 0x1000) (e.1 % 0x1000) e.2.toNat).stageList r := rfl

/-- What a staged key reads as after a list of entries is written, the keys rising. -/
theorem State.stageList_staged {s : State} (h : swf regReset s.regs.staged = true) {l : List (Nat × Word)}
    (hl : swf regReset l = true) (k : Nat) :
    sget regReset (s.stageList l).regs.staged k =
      if k ∈ l.map Prod.fst then sget regReset l k else sget regReset s.regs.staged k := by
  induction l generalizing s with
  | nil => simp [State.stageList, State.each]
  | cons e r ih =>
    obtain ⟨a, v⟩ := e
    obtain ⟨-, habove, hr⟩ := swf_cons.1 hl
    have hset (j : Nat) : sget regReset (s.setStaged (a / 0x1000) (a % 0x1000) v.toNat).regs.staged j =
        if j = a then v else sget regReset s.regs.staged j := by
      simp only [State.setStaged, rkey_div_mod]
      rw [sget_sset _ _ h]
      simp
    have hwf : swf regReset (s.setStaged (a / 0x1000) (a % 0x1000) v.toNat).regs.staged = true := swf_sset _ _ h
    rw [State.stageList_cons, ih hwf hr, hset]
    by_cases hk : k = a
    · subst hk
      have hnot : k ∉ r.map Prod.fst := by
        intro hmem
        obtain ⟨x, hx, hxk⟩ := List.mem_map.1 hmem
        have := habove x hx
        omega
      simp [hnot, sget]
    · simp [hk, Ne.symm hk, sget]

/-- A list of entries writes the staged copy alone. -/
theorem State.stageList_eq (s : State) (l : List (Nat × Word)) :
    s.stageList l = { s with regs := { s.regs with staged := (s.stageList l).regs.staged } } := by
  induction l generalizing s with
  | nil => rfl
  | cons e r ih =>
    rw [State.stageList_cons, ih]
    rfl

theorem ofPage_rkey {p o : Nat} (ho : o < 0x1000) : ofPage p (rkey p o) = true := by
  simp [ofPage, rkey_div ho]

/-- Entering staged mode writes PAGE_CTL and loads the staged copy of the page anew. -/
theorem State.stageModeWrite_on {s : State} {p : Nat} (h : s.stagedMode p = false) :
    s.stageModeWrite p true =
      let c := s.setReg p H.CTL (putBit (s.reg p H.CTL) 2 true)
      (c.dropStaged p).stageList (c.regs.active.filter (fun e => ofPage p e.1 && decide (0x040 ≤ e.1 % 0x1000))) := by
  unfold State.stageModeWrite
  rw [h]
  rfl

/-- On entering staged mode the staged copy of every register of the block region is its active value (R43). -/
theorem State.stageModeWrite_staged {s : State} (hs : s.Canon) {p o : Nat} (h : s.stagedMode p = false) (ho : 0x040 ≤ o)
    (ho' : o < 0x1000) : (s.stageModeWrite p true).stagedReg p o = s.reg p o := by
  rw [State.stageModeWrite_on h]
  extract_lets c
  have hact : swf regReset c.regs.active = true := swf_sset _ _ hs.active
  have hkey : (ofPage p (rkey p o) && decide (0x040 ≤ rkey p o % 0x1000)) = true := by simp [ofPage_rkey ho', rkey_mod ho', ho]
  have hdrop : sget regReset (c.dropStaged p).regs.staged (rkey p o) = regReset (rkey p o) := by
    refine (sget_filter_key (fun k => !ofPage p k) s.regs.staged _).trans ?_
    simp [ofPage_rkey ho']
  have hload := sget_filter_key (d := regReset) (fun k => ofPage p k && decide (0x040 ≤ k % 0x1000)) c.regs.active (rkey p o)
  rw [if_pos hkey] at hload
  have hreg : c.reg p o = s.reg p o := by
    rw [State.reg_setReg hs.active, if_neg]
    simp [rkey, H.CTL]
    omega
  rw [← hreg]
  unfold State.stagedReg State.reg
  rw [State.stageList_staged (swf_filter _ hs.staged) (swf_filter _ hact), hdrop, ← hload]
  split
  · rfl
  · next hk => rw [sget_of_not_mem hk]

/-! ### Bits of PAGE_CTL -/

theorem State.ctlBit_setReg {s : State} (h : s.ActiveWf) (p i j : Nat) (b : Bool) (hi : i < 32) :
    bitOf ((s.setReg p H.CTL (putBit (s.reg p H.CTL) i b)).reg p H.CTL) j = if j = i then b else bitOf (s.reg p H.CTL) j := by
  rw [State.reg_setReg h, if_pos rfl, Nat.mod_eq_of_lt (putBit_lt _ hi (s.reg_lt _ _)), bitOf_putBit]

theorem State.stagedMode_congr {s u : State} {p : Nat} (h : u.reg p H.CTL = s.reg p H.CTL) : u.stagedMode p = s.stagedMode p := by
  unfold State.stagedMode
  rw [h]

theorem State.dropStaged_reg (s : State) (p q o : Nat) : (s.dropStaged p).reg q o = s.reg q o := rfl

/-- A mode change gives the page that mode. -/
theorem State.stageModeWrite_stagedMode {s : State} (h : s.ActiveWf) (p : Nat) (b : Bool) :
    (s.stageModeWrite p b).stagedMode p = b := by
  by_cases hb : b = s.stagedMode p
  · simp [State.stageModeWrite, ← hb]
  have hbit : (s.setReg p H.CTL (putBit (s.reg p H.CTL) 2 b)).stagedMode p = b := by
    unfold State.stagedMode
    rw [State.ctlBit_setReg h _ _ _ _ (by omega), if_pos rfl]
  cases b with
  | true =>
    rw [State.stageModeWrite_on (by simpa using Ne.symm hb)]
    extract_lets c
    rw [State.stagedMode_congr (s := c) (State.reg_congr (by rw [State.stageList_eq]; rfl) _ _)]
    exact hbit
  | false =>
    have hoff : s.stageModeWrite p false = ((s.setReg p H.CTL (putBit (s.reg p H.CTL) 2 false)).setPendGroups p 0).dropStaged p := by
      have hmode : s.stagedMode p = true := by simpa using Ne.symm hb
      simp [State.stageModeWrite, hmode]
    rw [hoff]
    have hbut := State.setPendGroups_regsBut (State.setReg_wf h p H.CTL (putBit (s.reg p H.CTL) 2 false)) p 0
    refine (State.stagedMode_congr ((State.dropStaged_reg ..).trans ?_)).trans hbit
    exact hbut p H.CTL (by simp [rkey, H.CTL, H.CSTAT, H.STAT])

/-! ### Soft reset -/

/-- A soft reset leaves the page in reset with SOFT_RESET reading 1 (R44). -/
theorem State.softResetWrite_spec {s : State} (hs : s.Canon) (p t : Nat) :
    (s.softResetWrite p t).inReset p = true ∧ bitOf ((s.softResetWrite p t).reg p H.CTL) 1 = true := by
  unfold State.softResetWrite
  extract_lets s₁ s₂
  have hwf : s₂.ActiveWf := ((State.pageReset_keeps (.refl s) p t).canon hs).active
  refine ⟨by simp [State.inReset, State.setBusy, State.setReg, s₂, State.setResetting], ?_⟩
  unfold State.setBusy
  rw [State.reg_setReg (State.setReg_wf hwf _ _ _), if_neg (by simp [rkey, H.CTL, H.STAT]),
    State.ctlBit_setReg hwf _ _ _ _ (by omega), if_pos rfl]

/-- The state in which a soft reset is over and SOFT_RESET reads 0, before a page that always runs ends its gaps. -/
def State.resetEnded (s : State) (p : Nat) : State :=
  let s := s.setResetting (s.regs.resetting.filter (fun x => x != p))
  (s.setReg p H.CTL (putBit (s.reg p H.CTL) 1 false)).setBusy p false

theorem State.resetEnded_spec {s : State} (h : s.ActiveWf) (p : Nat) :
    (s.resetEnded p).inReset p = false ∧ bitOf ((s.resetEnded p).reg p H.CTL) 1 = false := by
  unfold State.resetEnded
  extract_lets s₁
  have hwf : s₁.ActiveWf := h
  refine ⟨by simp [State.inReset, State.setBusy, State.setReg, s₁, State.setResetting], ?_⟩
  unfold State.setBusy
  rw [State.reg_setReg (State.setReg_wf hwf _ _ _), if_neg (by simp [rkey, H.CTL, H.STAT]),
    State.ctlBit_setReg hwf _ _ _ _ (by omega), if_pos rfl]

theorem execSoftResetComplete_next {s : State} {p : Nat} (hr : s.inReset p = true) (t : Nat) :
    execSoftResetComplete t p s = .next (if alwaysEnabled p then ((s.at t).resetEnded p).gapClose (gapStreams p) t 5 false
      else (s.at t).resetEnded p) := by
  have h : (s.at t).inReset p = true := hr
  simp only [execSoftResetComplete, h, if_true]
  rfl

/-! ### ENABLE -/

/-- A page whose chapter adds nothing to a stop stops by its ENABLE bit, after the gaps it opens. -/
theorem State.pageStop_enabled {s : State} (hs : s.Canon) {p : Nat} (t : Nat) (hp : pageType p ∉ [0x03, 0x05, 0x11, 0x20, 0x21]) :
    (s.pageStop p t).enabled p = false := by
  have hstop : s.pageStop p t = (s.gapOpen ((gapStreams p).filter s.recording) t 5).setEnable p false := by
    simp only [List.mem_cons, List.not_mem_nil, or_false, not_or] at hp
    obtain ⟨h03, h05, h11, h20, -⟩ := hp
    unfold State.pageStop
    split
    · next h => exact absurd h h03
    · next h => exact absurd h h05
    · next h => exact absurd h h11
    · next h => exact absurd h h20
    · rfl
  have hwf := ((State.gapOpen_keeps (.refl s) ((gapStreams p).filter s.recording) t 5).canon hs).active
  rw [hstop]
  unfold State.enabled State.setEnable
  rw [State.ctlBit_setReg hwf _ _ _ _ (by omega), if_pos rfl]

/-- ENABLE written 0 stops a page that runs and may be stopped. -/
theorem State.enableBit_stop {s : State} {p : Nat} (t : Nat) (he : s.enabled p = true) (ha : alwaysEnabled p = false) :
    s.enableBit p t false = s.pageStop p t := by
  simp [State.enableBit, he, ha]

/-- ENABLE written 0 changes nothing on a page that always runs. -/
theorem State.enableBit_always {s : State} {p : Nat} (t : Nat) (ha : alwaysEnabled p = true) : s.enableBit p t false = s := by
  simp [State.enableBit, ha]

/-! ### The statement -/

theorem execStageModeChange_next {s : State} {p : Nat} (hw : s.writable p = true) (t : Nat) (b : Bool) :
    execStageModeChange t p b s = .next (((s.at t).breakKey p 0).stageModeWrite p b) := by
  have h : (s.at t).writable p = true := hw
  simp only [execStageModeChange, h, if_true]

theorem execSoftReset_next {s : State} {p : Nat} (hw : s.writable p = true) (t : Nat) :
    execSoftReset t p s = .next (((s.at t).breakKey p 0).softResetWrite p t) := by
  have h : (s.at t).writable p = true := hw
  simp only [execSoftReset, h, if_true]

theorem execEnableWrite_next {s : State} {p : Nat} (hw : s.writable p = true) (t : Nat) (b : Bool) :
    execEnableWrite t p b s = .next (((s.at t).breakKey p 0).enableBit p t b) := by
  have h : (s.at t).writable p = true := hw
  simp only [execEnableWrite, h, if_true]

/-- Settles O15: each command is the page operation of its row on the state its write begins from, in which every register is as
before. -/
theorem pageModes : Obligations.PageModes := by
  intro s t p b hs _
  have hc : ((s.at t).breakKey p 0).Canon := (State.breakKey_keeps (State.at_keeps (.refl s) t) p 0).canon hs
  have hreg (q o : Nat) : ((s.at t).breakKey p 0).reg q o = s.reg q o := State.reg_congr (by simp) q o
  refine ⟨fun hw => ⟨_, execStageModeChange_next hw t b, State.stageModeWrite_stagedMode hc.active p b, ?_⟩,
    fun hw => ⟨_, execSoftReset_next hw t, State.softResetWrite_spec hc p t⟩,
    fun hr => ?_, fun hw ha he hp => ⟨_, execEnableWrite_next hw t false, ?_⟩, fun hw ha => ?_⟩
  · rintro rfl hmode o ho ho'
    rw [State.stageModeWrite_staged hc ((State.stagedMode_congr (hreg p H.CTL)).trans hmode) ho ho', hreg]
  · obtain ⟨hin, hctl⟩ := State.resetEnded_spec (s := s.at t) hs.active p
    exact ⟨_, hin, hctl, execSoftResetComplete_next hr t⟩
  · have he' : ((s.at t).breakKey p 0).enabled p = true := by
      unfold State.enabled
      rw [hreg]
      exact he
    rw [State.enableBit_stop t he' ha]
    exact State.pageStop_enabled hc t hp
  · refine (execEnableWrite_next hw t false).trans ?_
    rw [State.enableBit_always t ha]

end Sys2Proof.Machine
end

section
/-!
SUPPORT. Writes of RW registers under staging (R28 to R30, R36, R37): from the bytes of a BAR0 write to the staged copy of one
register, or of the two words of a pair (R29), on a page without window tables.
-/
namespace Sys2Proof.Machine

/-! ### Bytes and words -/

theorem leBytes_length (n v : Nat) : (leBytes n v).length = n := by
  induction n generalizing v with
  | zero => rfl
  | succ n ih => simp [leBytes, ih]

/-- Bytes spell the value they were cut from. -/
theorem fromLe_leBytes (n v : Nat) : fromLe (leBytes n v) = v % 256 ^ n := by
  induction n generalizing v with
  | zero => simp [leBytes, fromLe, Nat.mod_one]
  | succ n ih =>
    have hpow : 256 ^ (n + 1) = 256 * 256 ^ n := Nat.pow_succ'
    rw [hpow, leBytes, fromLe, ih, BitVec.toNat_ofNat]
    exact Nat.mod_mul.symm

/-- Four bytes at a 4-byte boundary write one register in full (R28). -/
theorem fullWords_leBytes {a v : Nat} (ha : a % 4 = 0) (hv : v < 2 ^ 32) : fullWords a (leBytes 4 v) = [(a, v)] := by
  have hval : fieldAt (leBytes 4 v) 0 4 = v := by
    unfold fieldAt
    rw [List.drop_zero, List.take_of_length_le (by rw [leBytes_length]), fromLe_leBytes, Nat.mod_eq_of_lt (by omega)]
  simp [fullWords, ha, leBytes_length, hval]

theorem State.bar0Write_leBytes (s : State) (t : Nat) (req : Requester) {a v : Nat} (ha : a % 4 = 0) (hv : v < 2 ^ 32) :
    s.bar0Write t req a (leBytes 4 v) = s.bar0Word t req a v := by
  unfold State.bar0Write
  rw [if_neg (by simp [leBytes_length]), fullWords_leBytes ha hv]
  rfl

/-! ### Where a BAR0 offset leads -/

/-- The region of BAR0 through which a mode of write goes (R28, R30). -/
def WriteMode.region : WriteMode → Nat
  | .plain => 0
  | .set => 1
  | .clear => 2

/-- The parts of the BAR0 offset of a register of the local pages, through a region. -/
theorem bar0_parts {r p o : Nat} (hp : p < 0x100) (ho : o < 0x1000) :
    bar0Region (r * 0x100000 + p * 0x1000 + o) = r ∧ (r * 0x100000 + p * 0x1000 + o) % 0x100000 / 0x1000 = p ∧
      (r * 0x100000 + p * 0x1000 + o) % 0x100000 % 0x1000 = o := by
  unfold bar0Region
  omega

theorem State.bar0Word_reg {s : State} {t p o v : Nat} {req : Requester} (m : WriteMode) (hp : p < 0x100) (ho : o < 0x1000)
    (hreach : s.pageReach req p = true) :
    s.bar0Word t req (m.region * 0x100000 + p * 0x1000 + o) v = s.writeReg t p o m v := by
  obtain ⟨hregion, hpage, hoff⟩ := bar0_parts (r := m.region) hp ho
  dsimp only [State.bar0Word]
  rw [hregion, hpage, hoff]
  cases m <;> simp [WriteMode.region, hreach]

theorem State.bar0Long_reg {s : State} {t p o v : Nat} {req : Requester} (hp : p < 0x100) (ho : o < 0x1000)
    (hreach : s.pageReach req p = true) : s.bar0Long t req (p * 0x1000 + o) v = s.writeReg64 t p o .plain v := by
  obtain ⟨hregion, hpage, hoff⟩ := bar0_parts (r := 0) hp ho
  rw [Nat.zero_mul, Nat.zero_add] at hregion hpage hoff
  dsimp only [State.bar0Long]
  rw [hregion, hpage, hoff]
  simp [hreach]

/-! ### Pages without window tables -/

section
variable {s : State} {p : Nat} (hp : p ∉ [P.TLDP, P.SCR, P.SAF])
include hp

theorem isWindow_of_plain (o : Nat) : isWindow p o = false := by
  simp only [List.mem_cons, List.not_mem_nil, or_false, not_or] at hp
  simp [isWindow, hp]

theorem State.copyPage_of_plain (o : Nat) : s.copyPage p o = some p := by
  simp [State.copyPage, isWindow_of_plain hp]

theorem State.writeMask_of_plain (o rw_ : Nat) : s.writeMask p o rw_ = rw_ := by
  simp only [List.mem_cons, List.not_mem_nil, or_false, not_or] at hp
  simp [State.writeMask, hp]

theorem State.advanceWindow_of_plain (o : Nat) : s.advanceWindow p o = s := by
  simp only [List.mem_cons, List.not_mem_nil, or_false, not_or] at hp
  simp [State.advanceWindow, hp]

theorem State.breakKey_of_plain (o : Nat) : s.breakKey p o = s :=
  State.breakKey_of_ne (by simp only [List.mem_cons, List.not_mem_nil, or_false, not_or] at hp; exact hp.2.2)

/-! ### Staged writes -/

/-- One register written in staged mode: its RW bits go to its staged copy. -/
theorem State.writeRW_staged {t o v i : Nat} {d : RegDef} (m : WriteMode) (hst : s.stagedMode p = true)
    (hreg : regAt p o = some (d, i)) (hrw : d.rw ≠ 0) :
    s.writeRW t p m [(o, v)] = s.setStaged p o (mergeBits (s.stagedReg p o) d.rw (m.apply (s.stagedReg p o) v)) := by
  simp [State.writeRW, hst, hreg, hrw, State.copyPage_of_plain hp, State.writeMask_of_plain hp, State.each, State.storeRW,
    State.advanceWindow_of_plain hp]

/-- Two registers written as one in staged mode (R29). -/
theorem State.writeRW_staged_pair {t o o' v v' i j : Nat} {d e : RegDef} (hst : s.stagedMode p = true)
    (hreg : regAt p o = some (d, i)) (hrw : d.rw ≠ 0) (hreg' : regAt p o' = some (e, j)) (hrw' : e.rw ≠ 0) :
    s.writeRW t p .plain [(o, v), (o', v')] =
      let s₁ := s.setStaged p o (mergeBits (s.stagedReg p o) d.rw v)
      s₁.setStaged p o' (mergeBits (s₁.stagedReg p o') e.rw v') := by
  simp [State.writeRW, hst, hreg, hrw, hreg', hrw', State.copyPage_of_plain hp, State.writeMask_of_plain hp, State.each,
    State.storeRW, State.advanceWindow_of_plain hp, WriteMode.apply]

end

theorem State.writeReg_staged {s : State} {p : Nat} {t o v i : Nat} {d : RegDef} (m : WriteMode) (hp : p ∉ [P.TLDP, P.SCR, P.SAF])
    (hw : s.writable p = true) (hst : s.stagedMode p = true) (ho : 0x040 ≤ o) (ho' : o < 0x800) (hreg : regAt p o = some (d, i))
    (hacc : d.acc = .rw) (hrw : d.rw ≠ 0) :
    s.writeReg t p o m v = s.setStaged p o (mergeBits (s.stagedReg p o) d.rw (m.apply (s.stagedReg p o) v)) := by
  have hhdr : ¬ o < 0x040 := by omega
  simp only [State.writeReg, baseOffset, if_pos ho', hw, State.breakKey_of_plain hp, if_neg hhdr, hreg, hacc]
  exact State.writeRW_staged hp m hst hreg hrw

/-! ### The three ways of writing one register -/

/-- What a staged write of the value `x` leaves: the RW bits in the one staged register, and everything else as it was. -/
theorem State.setStaged_frame {s : State} (hs : s.Canon) (t p o mask : Nat) {x : Nat} (hx : x < 2 ^ 32) :
    let u := (s.at t).setStaged p o (mergeBits (s.stagedReg p o) mask x)
    u.stagedReg p o = mergeBits (s.stagedReg p o) mask x ∧
      (∀ q w, rkey q w ≠ rkey p o → u.stagedReg q w = s.stagedReg q w) ∧
      u = { s with now := u.now, regs := { s.regs with staged := u.regs.staged } } := by
  have hwf : swf regReset (s.at t).regs.staged = true := hs.staged
  refine ⟨?_, fun q w hk => ?_, rfl⟩
  · rw [State.stagedReg_setStaged hwf, if_pos rfl, Nat.mod_eq_of_lt (mergeBits_lt _ (s.stagedReg_lt p o) hx)]
  · rw [State.stagedReg_setStaged hwf, if_neg hk]
    rfl

/-- Four bytes written to a register of a page in staged mode, through any of the three regions. -/
theorem State.bar0Write_staged {s : State} {p o i : Nat} {d : RegDef} (m : WriteMode) (t : Nat) (req : Requester) (v : Word)
    (hp : p ∉ [P.TLDP, P.SCR, P.SAF]) (hal : o % 4 = 0) (ho : 0x040 ≤ o) (ho' : o < 0x800) (hreg : regAt p o = some (d, i))
    (hacc : d.acc = .rw) (hrw : d.rw ≠ 0) (hreach : s.pageReach req p = true) (hw : s.writable p = true)
    (hst : s.stagedMode p = true) :
    (s.at t).bar0Write t req (m.region * 0x100000 + p * 0x1000 + o) (leBytes 4 v.toNat) =
      (s.at t).setStaged p o (mergeBits (s.stagedReg p o) d.rw (m.apply (s.stagedReg p o) v.toNat)) := by
  have hlt : p < 0x100 := pageExists_lt (State.pageExists_of_writable hw)
  have hreach' : (s.at t).pageReach req p = true := hreach
  rw [State.bar0Write_leBytes _ _ _ (by omega) v.isLt, State.bar0Word_reg m hlt (by omega) hreach']
  exact State.writeReg_staged m hp hw hst ho ho' hreg hacc hrw

theorem WriteMode.apply_lt (m : WriteMode) {old v : Nat} (ho : old < 2 ^ 32) (hv : v < 2 ^ 32) : m.apply old v < 2 ^ 32 := by
  cases m with
  | plain => exact hv
  | set => exact Nat.or_lt_two_pow ho hv
  | clear => exact Nat.lt_of_le_of_lt Nat.and_le_left ho

theorem execRegisterWrite_next {s : State} {req : Requester} {a : Nat} {bs : List Byte} (t : Nat)
    (ha : a + bs.length ≤ bar0Size) (hsv : s.served req = true) :
    execRegisterWrite t req a bs false s = .next ((s.at t).bar0Write t req a bs) := by
  have h : (s.at t).served req = true := hsv
  simp [execRegisterWrite, Nat.not_lt.2 ha, h]

theorem execSetAliasWrite_next {s : State} {req : Requester} {a : Nat} {bs : List Byte} (t : Nat) (hr : bar0Region a = 1)
    (ha : a + bs.length ≤ 0x200000) (hsv : s.served req = true) :
    execSetAliasWrite t req a bs s = .next ((s.at t).bar0Write t req a bs) := by
  have h : (s.at t).served req = true := hsv
  simp [execSetAliasWrite, hr, Nat.not_lt.2 ha, h]

theorem execClearAliasWrite_next {s : State} {req : Requester} {a : Nat} {bs : List Byte} (t : Nat) (hr : bar0Region a = 2)
    (ha : a + bs.length ≤ 0x300000) (hsv : s.served req = true) :
    execClearAliasWrite t req a bs s = .next ((s.at t).bar0Write t req a bs) := by
  have h : (s.at t).served req = true := hsv
  simp [execClearAliasWrite, hr, Nat.not_lt.2 ha, h]

/-- Settles O10: each command brings the four bytes to the page through the region of its mode, where they are a staged write. -/
theorem stagedWriteLandsInStagedCopy : Obligations.StagedWriteLandsInStagedCopy := by
  intro s t req p o d i v hs _ hp hal ho ho' hreg hacc hrw hsv hreach hw hst
  have hlt : p < 0x100 := pageExists_lt (State.pageExists_of_writable hw)
  have hmode (m : WriteMode) := State.bar0Write_staged m t req v hp hal ho ho' hreg hacc hrw hreach hw hst
  have hframe (m : WriteMode) := State.setStaged_frame hs t p o d.rw (m.apply_lt (s.stagedReg_lt p o) v.isLt)
  have hset := (bar0_parts (r := 1) hlt (o := o) (by omega)).1
  have hclear := (bar0_parts (r := 2) hlt (o := o) (by omega)).1
  refine ⟨⟨_, ?_, hframe .plain⟩, ⟨_, ?_, hframe .set⟩, ⟨_, ?_, hframe .clear⟩⟩
  · rw [← hmode .plain]
    simp only [WriteMode.region, Nat.zero_mul, Nat.zero_add]
    exact execRegisterWrite_next t (by simp only [leBytes_length, bar0Size]; omega) hsv
  · rw [← hmode .set]
    simp only [WriteMode.region, Nat.one_mul] at hset ⊢
    exact execSetAliasWrite_next t hset (by simp only [leBytes_length]; omega) hsv
  · rw [← hmode .clear]
    exact execClearAliasWrite_next t hclear (by simp only [leBytes_length]; omega) hsv

end Sys2Proof.Machine
end

section
/-!
SUPPORT. Register pairs (R29): a 64-bit write as one write of both words, and the holding register a read of the low word fills.
-/
namespace Sys2Proof.Machine

/-! ### Writing a pair -/

theorem execPair64Write_next {s : State} {req : Requester} {a : Nat} (t : Nat) (v : Word64) (ha : a < bar0Size) (hal : a % 8 = 0)
    (hsv : s.served req = true) : execPair64Write t req a v s = .next ((s.at t).bar0Long t req a v.toNat) := by
  have h : (s.at t).served req = true := hsv
  simp [execPair64Write, Nat.not_le.2 ha, hal, h]

/-- The low word of a pair of a page that takes writes: both halves are one write (R29). -/
theorem State.writeReg64_pair {s : State} {t p o v : Nat} (hp : p ∉ [P.TLDP, P.SCR, P.SAF]) (hw : s.writable p = true)
    (ho : 0x040 ≤ o) (ho' : o < 0x800) (hlow : pairLow p o = true) :
    s.writeReg64 t p o .plain v = s.writeRW t p .plain [(o, v % 2 ^ 32), (o + 4, v / 2 ^ 32)] := by
  simp only [State.writeReg64, baseOffset, if_pos ho', hlow, ho, hw, State.breakKey_of_plain hp, and_self, if_true]

/-- The clause of O11 about writes: the two words are staged one after the other, each under its own mask. -/
theorem pair64Write_staged (s : State) (t : Nat) (req : Requester) (p o : Nat) (d e : RegDef) (i j : Nat) (v : Word64)
    (hs : s.Canon) (_ : pageExists p = true) (hp : p ∉ [P.TLDP, P.SCR, P.SAF]) (hal : o % 8 = 0) (ho : 0x040 ≤ o)
    (ho' : o + 4 < 0x800) (hlow : pairLow p o = true) (hreg : regAt p o = some (d, i)) (hrw : d.rw ≠ 0)
    (hreg' : regAt p (o + 4) = some (e, j)) (hrw' : e.rw ≠ 0) (hsv : s.served req = true) (hreach : s.pageReach req p = true)
    (hw : s.writable p = true) (hst : s.stagedMode p = true) :
    ∃ u, exec (.pair64Write t req (p * 0x1000 + o) v) s = .next u ∧
      u.stagedReg p o = mergeBits (s.stagedReg p o) d.rw (v.toNat % 2 ^ 32) ∧
      u.stagedReg p (o + 4) = mergeBits (s.stagedReg p (o + 4)) e.rw (v.toNat / 2 ^ 32) ∧
      (∀ q w, rkey q w ≠ rkey p o → rkey q w ≠ rkey p (o + 4) → u.stagedReg q w = s.stagedReg q w) ∧
      u = { s with now := u.now, regs := { s.regs with staged := u.regs.staged } } := by
  have hlt : p < 0x100 := pageExists_lt (State.pageExists_of_writable hw)
  have hlo : v.toNat % 2 ^ 32 < 2 ^ 32 := Nat.mod_lt _ (Nat.two_pow_pos _)
  have hhi : v.toNat / 2 ^ 32 < 2 ^ 32 := by have := v.isLt; omega
  have hne : rkey p (o + 4) ≠ rkey p o := by unfold rkey; omega
  let s₁ := (s.at t).setStaged p o (mergeBits (s.stagedReg p o) d.rw (v.toNat % 2 ^ 32))
  obtain ⟨hlow₁, hother₁, hframe₁⟩ := State.setStaged_frame hs t p o d.rw hlo
  have hwf : swf regReset s₁.regs.staged = true := swf_sset _ _ hs.staged
  have hmerged := mergeBits_lt e.rw (s₁.stagedReg_lt p (o + 4)) hhi
  have hrun : exec (.pair64Write t req (p * 0x1000 + o) v) s =
      .next (s₁.setStaged p (o + 4) (mergeBits (s₁.stagedReg p (o + 4)) e.rw (v.toNat / 2 ^ 32))) := by
    refine (execPair64Write_next t v (by unfold bar0Size; omega) (by omega) hsv).trans (congrArg _ ?_)
    rw [State.bar0Long_reg (s := s.at t) hlt (by omega) hreach,
      State.writeReg64_pair (s := s.at t) hp hw ho (by omega) hlow]
    exact State.writeRW_staged_pair hp hst hreg hrw hreg' hrw'
  refine ⟨_, hrun, ?_, ?_, fun q w hk hk' => ?_, rfl⟩
  · rw [State.stagedReg_setStaged hwf, if_neg hne.symm]
    exact hlow₁
  · rw [State.stagedReg_setStaged hwf, if_pos rfl, Nat.mod_eq_of_lt hmerged, hother₁ _ _ hne]
  · rw [State.stagedReg_setStaged hwf, if_neg hk']
    exact hother₁ _ _ hk

/-! ### Reading a pair -/

theorem State.holding_setHolding (s : State) (req r : Requester) (h : Option (Nat × Word)) :
    (s.setHolding req h).holding r = if r = req then h else s.holding r := by
  cases req <;> cases r <;> simp [State.setHolding, State.holding]

/-- A holding register and an output are all a read of a low word changes. -/
theorem State.setHolding_emit_frame (s : State) (t : Nat) (req : Requester) (h : Option (Nat × Word)) (x : Output) :
    let u := ((s.at t).setHolding req h).emit x
    u = { s with now := u.now, out := u.out,
                 regs := { s.regs with holdH := u.regs.holdH, holdC := u.regs.holdC, holdR := u.regs.holdR } } := by
  cases req <;> rfl

/-- A 32-bit read a served requester makes of a page it reaches. -/
theorem execPairLowWordRead_next {s : State} {req : Requester} {p o : Nat} (t : Nat) (hp : p < 0x100) (hal : o % 4 = 0)
    (ho : o < 0x1000) (hsv : s.served req = true) (hreach : s.pageReach req p = true) :
    execPairLowWordRead t req (p * 0x1000 + o) s =
      let r := (s.at t).readWord req p o
      .next (r.1.emit (.readData req (leBytes 4 r.2))) := by
  obtain ⟨hregion, hpage, hoff⟩ := bar0_parts (r := 0) hp ho
  rw [Nat.zero_mul, Nat.zero_add] at hregion hpage hoff
  have hill : ¬(bar0Size ≤ p * 0x1000 + o ∨ (p * 0x1000 + o) % 4 ≠ 0) := by unfold bar0Size; omega
  have hsv' : (s.at t).served req = true := hsv
  have hreach' : (s.at t).pageReach req p = true := hreach
  simp [execPairLowWordRead, hill, hsv', hregion, hpage, hoff, hreach']

/-- The clause of O11 about reads. -/
theorem pairLowWordRead_holds (s : State) (t : Nat) (req : Requester) (p o : Nat) (hex : pageExists p = true) (hal : o % 4 = 0)
    (ho : o + 4 < 0x1000) (hlow : pairLow p o = true) (hsv : s.served req = true) (hreach : s.pageReach req p = true) :
    (∃ u, exec (.pairLowWordRead t req (p * 0x1000 + o)) s = .next u ∧
      u.out = s.out ++ [.readData req (leBytes 4 ((s.at t).readReg p o))] ∧
      u.holding req = some (rkey p o, BitVec.ofNat 32 ((s.at t).readReg p (o + 4))) ∧
      (∀ r, r ≠ req → u.holding r = s.holding r) ∧
      u = { s with now := u.now, out := u.out,
                   regs := { s.regs with holdH := u.regs.holdH, holdC := u.regs.holdC, holdR := u.regs.holdR } }) ∧
    (∀ h, s.holding req = some (rkey p o, h) → pairLow p (o + 4) = false →
      exec (.pairLowWordRead t req (p * 0x1000 + (o + 4))) s =
        .next ((s.at t).emit (.readData req (leBytes 4 h.toNat)))) := by
  have hlt := pageExists_lt hex
  constructor
  · let held : Option (Nat × Word) := some (rkey p o, BitVec.ofNat 32 ((s.at t).readReg p (o + 4)))
    have hrun : exec (.pairLowWordRead t req (p * 0x1000 + o)) s =
        .next (((s.at t).setHolding req held).emit (.readData req (leBytes 4 ((s.at t).readReg p o)))) := by
      refine (execPairLowWordRead_next t hlt hal (by omega) hsv hreach).trans ?_
      simp only [State.readWord, hlow, if_true, held]
    have hhold (r : Requester) :
        (((s.at t).setHolding req held).emit (.readData req (leBytes 4 ((s.at t).readReg p o)))).holding r =
          if r = req then held else s.holding r := State.holding_setHolding (s.at t) req r held
    refine ⟨_, hrun, ?_, ?_, fun r hr => ?_, State.setHolding_emit_frame ..⟩
    · cases req <;> rfl
    · rw [hhold, if_pos rfl]
    · rw [hhold, if_neg hr]
  · intro h hheld hhigh
    have hheld' : (s.at t).holding req = some (rkey p o, h) := hheld
    refine (execPairLowWordRead_next t hlt (by omega) ho hsv hreach).trans ?_
    simp [State.readWord, hhigh, hlow, hheld']

/-- Settles O11. -/
theorem pairsReadAndWriteAsOne : Obligations.PairsReadAndWriteAsOne := ⟨pair64Write_staged, pairLowWordRead_holds⟩

end Sys2Proof.Machine
end

section
/-!
SUPPORT. Safe points (R37, R40): what reporting an error or a finished commit changes, what copying a group changes, and the groups
taken together or not at all.
-/
namespace Sys2Proof.Machine

/-! ### Reports -/

/-- The status registers of a page's header. -/
def statusKeys (p : Nat) : List Nat := [rkey p H.STAT, rkey p H.RAW, rkey p H.PEND, rkey p H.CSTAT, rkey p H.CAUSE]

/-- An operation reports on a page: it writes status registers of its header, and no staged copy; pending groups stay. -/
structure Reports (p : Nat) (s u : State) : Prop where
  regs : RegsBut (statusKeys p) s u
  staged : u.regs.staged = s.regs.staged
  pend : u.pendGroups p = s.pendGroups p
  canon : u.Canon

theorem Reports.refl {s : State} (hs : s.Canon) (p : Nat) : Reports p s s := ⟨.refl _ _, rfl, rfl, hs⟩

theorem Reports.trans {p : Nat} {s u w : State} (h : Reports p s u) (h' : u.Canon → Reports p u w) : Reports p s w :=
  have h' := h' h.canon
  ⟨h.regs.trans h'.regs, h'.staged.trans h.staged, h'.pend.trans h.pend, h'.canon⟩

/-- Doing something that reports on a page for each element of a list reports on the page. -/
theorem Reports.each {α : Type} {p : Nat} {s : State} (hs : s.Canon) {l : List α} {f : State → α → State}
    (hf : ∀ x ∈ l, ∀ u : State, u.Canon → Reports p u (f u x)) : Reports p s (s.each l f) :=
  List.foldlRecOn l f (motive := Reports p s) (.refl hs p) fun u hu x hx => hu.trans (hf x hx u)

/-- Writing a status register other than COMMIT_STAT. -/
theorem Reports.setReg {s : State} (hs : s.Canon) {p o : Nat} (v : Nat) (ho : o ∈ [H.STAT, H.RAW, H.PEND, H.CAUSE]) :
    Reports p s (s.setReg p o v) := by
  have hkey : rkey p o ∈ statusKeys p := by
    simp only [List.mem_cons, List.not_mem_nil, or_false] at ho
    rcases ho with rfl | rfl | rfl | rfl <;> simp [statusKeys]
  have hne : rkey p H.CSTAT ≠ rkey p o := by
    simp only [List.mem_cons, List.not_mem_nil, or_false] at ho
    rcases ho with rfl | rfl | rfl | rfl <;> simp [rkey, H.CSTAT, H.STAT, H.RAW, H.PEND, H.CAUSE]
  refine ⟨.setReg hs.active _ _ _ hkey, rfl, State.pendGroups_congr ?_, (State.setReg_keeps (.refl s) p o v).canon hs⟩
  rw [State.reg_setReg hs.active, if_neg hne]

theorem State.latch_staged (s : State) (p b : Nat) : (s.latch p b).regs.staged = s.regs.staged := by
  unfold State.latch
  extract_lets
  split
  · rfl
  · split
    · rw [State.irqRequest_regs]
      rfl
    · rfl

theorem Reports.latch {s : State} (hs : s.Canon) (p b : Nat) : Reports p s (s.latch p b) := by
  have hreg := RegsBut.latch hs.active p b
  refine ⟨fun q o hk => hreg q o fun h => hk ?_, s.latch_staged p b, State.pendGroups_congr (hreg p H.CSTAT ?_),
    (State.latch_keeps (.refl s) p b).canon hs⟩
  · rw [List.mem_singleton.1 h]
    simp [statusKeys]
  · simp [rkey, H.CSTAT, H.PEND]

theorem Reports.levelHdr {s : State} (hs : s.Canon) (p b : Nat) (v : Bool) : Reports p s (s.levelHdr p b v) := by
  unfold State.levelHdr
  extract_lets raw s'
  have h : Reports p s s' := .setReg hs _ (by simp)
  split
  · exact h.trans fun hc => .latch hc p b
  · exact h

/-- An operation that touches neither register copy. -/
theorem Reports.of_same {s u : State} (p : Nat) (hact : u.regs.active = s.regs.active)
    (hstg : u.regs.staged = s.regs.staged) (hc : u.Canon) : Reports p s u :=
  ⟨.of_active hact, hstg, State.pendGroups_congr (State.reg_congr hact _ _), hc⟩

theorem Reports.setErr {s : State} (hs : s.Canon) (p q g cause : Nat) : Reports p s (s.setErr q g cause) :=
  .of_same p rfl rfl ((State.setErr_keeps (.refl s) q g cause).canon hs)

theorem Reports.dropLastGood {s : State} (hs : s.Canon) (p q g : Nat) : Reports p s (s.dropLastGood q g) :=
  .of_same p rfl rfl ((State.dropLastGood_keeps (.refl s) q g).canon hs)

theorem Reports.showErrs {s : State} (hs : s.Canon) (p : Nat) : Reports p s (s.showErrs p) := by
  unfold State.showErrs
  extract_lets es low b s₁ s₂
  have h₁ : Reports p s s₁ := .setReg hs _ (by simp)
  have h₂ : Reports p s s₂ := h₁.trans fun hc => .setReg hc _ (by simp)
  exact h₂.trans fun hc => .levelHdr hc p 31 b

/-- Writing COMMIT_STAT without its pending groups. -/
theorem Reports.setReg_cstat {s : State} (hs : s.Canon) {p v : Nat} (hlt : v < 2 ^ 32) (hv : bits v 16 0 = s.pendGroups p) :
    Reports p s (s.setReg p H.CSTAT v) := by
  refine ⟨.setReg hs.active _ _ _ (by simp [statusKeys]), rfl, ?_, (State.setReg_keeps (.refl s) _ _ _).canon hs⟩
  rw [← hv]
  unfold State.pendGroups
  rw [State.reg_setReg hs.active, if_pos rfl, Nat.mod_eq_of_lt hlt]

/-- A finished commit counts in COMMIT_STAT beside the pending groups. -/
theorem Reports.commitFinished {s : State} (hs : s.Canon) (p : Nat) (rejected : Bool) : Reports p s (s.commitFinished p rejected) := by
  have hlt (x : Nat) : putBits (s.reg p H.CSTAT) 31 24 x < 2 ^ 32 := putBits_lt _ _ _ _ _ (by omega) (by omega) (s.reg_lt _ _)
  unfold State.commitFinished
  refine Reports.trans (.setReg_cstat hs (putBit_lt _ (by omega) (hlt _)) ?_) fun hc => .latch hc p _
  rw [putBit, bits_putBits_below _ _ _ _ _ _ (Nat.le_refl _) (by omega), bits_putBits_below _ _ _ _ _ _ (by omega) (by omega)]
  rfl

/-- A register of the block region is no status register. -/
theorem Reports.reg {p : Nat} {s u : State} (h : Reports p s u) {q o : Nat} (ho : 0x040 ≤ o) (ho' : o < 0x1000) :
    u.reg q o = s.reg q o := by
  refine h.regs q o fun hk => ?_
  simp only [statusKeys, rkey, H.STAT, H.RAW, H.PEND, H.CSTAT, H.CAUSE, List.mem_cons, List.not_mem_nil, or_false] at hk
  omega

theorem Reports.stagedMode {p : Nat} {s u : State} (h : Reports p s u) : u.stagedMode p = s.stagedMode p :=
  State.stagedMode_congr (h.regs p H.CTL (by simp [statusKeys, rkey, H.CTL, H.STAT, H.RAW, H.PEND, H.CSTAT, H.CAUSE]))

theorem State.stagedReg_congr {s u : State} (h : u.regs.staged = s.regs.staged) (p o : Nat) : u.stagedReg p o = s.stagedReg p o := by
  unfold State.stagedReg
  rw [h]

/-! ### The registers of a group -/

theorem mem_of_findReg {l : List RegDef} {o i : Nat} {d : RegDef} (h : findReg l o = some (d, i)) : d ∈ l ∧ d.off ≤ o := by
  induction l with
  | nil => simp [findReg] at h
  | cons e r ih =>
    simp only [findReg] at h
    split at h
    · next he =>
      obtain ⟨rfl, -⟩ : e = d ∧ _ := by simpa using h
      exact ⟨List.mem_cons_self .., he.1⟩
    · exact (ih h).imp_left (List.mem_cons_of_mem _)

/-- Register maps hold the block region: no header register stands in one (R36). -/
theorem regAt_ge {p o i : Nat} {d : RegDef} (hp : pageExists p = true) (h : regAt p o = some (d, i)) : 0x040 ≤ o := by
  unfold regAt at h
  split at h
  · simp at h
  · obtain ⟨hd, hle⟩ := mem_of_findReg h
    have hoff := (by decide +kernel : ∀ e ∈ pageMap, ∀ d ∈ pageRegs e.1, 0x040 ≤ d.off) _ (mem_pageMap_of_pageExists hp) d hd
    omega

/-- A key belongs to a group of a page without window tables when it is the key of a register of the group. -/
theorem keyInGroup_iff {p g k : Nat} (hp : p ∉ [P.TLDP, P.SCR, P.SAF]) (hlt : p < 0x100) :
    keyInGroup p g k = true ↔ k / 0x1000 = p ∧ ∃ d i, regAt p (k % 0x1000) = some (d, i) ∧ d.group i = some g := by
  have hmatch : (match regAt p (k % 0x1000) with | some (d, i) => d.group i == some g | none => false) = true ↔
      ∃ d i, regAt p (k % 0x1000) = some (d, i) ∧ d.group i = some g := by
    split
    · next d i h => simp [h]
    · next h => simp [h]
  simp only [List.mem_cons, List.not_mem_nil, or_false, not_or] at hp
  obtain ⟨h1, h2, h3⟩ := hp
  unfold keyInGroup
  extract_lets pg o base
  by_cases hpg : pg = p
  · have hbase : base = p := by
      simp only [base]
      rw [if_neg (by omega), if_neg (by omega), if_neg (by omega), hpg]
    have hnot : ¬0x100 ≤ pg := by omega
    rw [hbase, if_neg hnot, isWindow_of_plain (by simp [h1, h2, h3])]
    simp only [beq_self_eq_true, Bool.not_false, Bool.and_self, Bool.true_and]
    exact hmatch.trans ⟨fun h => ⟨hpg, h⟩, And.right⟩
  · have hbase : base ≠ p := by
      simp only [base]
      split
      · exact Ne.symm h3
      · split
        · exact Ne.symm h2
        · split
          · exact Ne.symm h1
          · exact hpg
    exact ⟨fun h => by simp [hbase] at h, fun h => absurd h.1 hpg⟩

/-- What copying a group does to one key. -/
def State.copyKey (s : State) (p k : Nat) : State :=
  match regAt p (k % 0x1000) with
  | some (d, _) => s.setReg (k / 0x1000) (k % 0x1000)
      (mergeBits (s.reg (k / 0x1000) (k % 0x1000)) d.rw (s.stagedReg (k / 0x1000) (k % 0x1000)))
  | none => s

theorem State.copyGroup_eq (s : State) (p g : Nat) : s.copyGroup p g = s.each (s.groupKeys p g) (fun s k => s.copyKey p k) := rfl

/-- A key is copied by one register write, or not at all. -/
theorem State.copyKey_cases (s : State) (p k : Nat) :
    s.copyKey p k = s ∨ ∃ v, s.copyKey p k = s.setReg (k / 0x1000) (k % 0x1000) v := by
  unfold State.copyKey
  split
  · exact .inr ⟨_, rfl⟩
  · exact .inl rfl

theorem State.copyKey_canon {s : State} (hs : s.Canon) (p k : Nat) : (s.copyKey p k).Canon := by
  rcases s.copyKey_cases p k with h | ⟨v, h⟩ <;> rw [h]
  · exact hs
  · exact (State.setReg_keeps (.refl s) _ _ _).canon hs

theorem State.copyKey_staged (s : State) (p k : Nat) : (s.copyKey p k).regs.staged = s.regs.staged := by
  rcases s.copyKey_cases p k with h | ⟨v, h⟩ <;> rw [h]
  rfl

theorem State.copyKey_reg_ne {s : State} (hs : s.Canon) {p k q o : Nat} (hk : rkey q o ≠ k) : (s.copyKey p k).reg q o = s.reg q o := by
  rcases s.copyKey_cases p k with h | ⟨v, h⟩ <;> rw [h]
  rw [State.reg_setReg hs.active, rkey_div_mod, if_neg hk]

theorem State.copyKey_reg_self {s : State} (hs : s.Canon) {p o i : Nat} {d : RegDef} (ho : o < 0x1000)
    (hreg : regAt p o = some (d, i)) : (s.copyKey p (rkey p o)).reg p o = mergeBits (s.reg p o) d.rw (s.stagedReg p o) := by
  have heq : s.copyKey p (rkey p o) = s.setReg p o (mergeBits (s.reg p o) d.rw (s.stagedReg p o)) := by
    simp only [State.copyKey, rkey_div ho, rkey_mod ho, hreg]
  rw [heq, State.reg_setReg hs.active, if_pos rfl, Nat.mod_eq_of_lt (mergeBits_lt _ (s.reg_lt p o) (s.stagedReg_lt p o))]

/-- Copying a list of keys: registers outside it stay, and so does the staged copy. -/
theorem State.copyKeys_frame {s : State} (hs : s.Canon) (p : Nat) (l : List Nat) :
    let u := s.each l (fun s k => s.copyKey p k)
    u.Canon ∧ u.regs.staged = s.regs.staged ∧ RegsBut l s u := by
  induction l generalizing s with
  | nil => exact ⟨hs, rfl, .refl _ _⟩
  | cons k r ih =>
    obtain ⟨hc, hst, hbut⟩ := ih (s.copyKey_canon hs p k)
    refine ⟨hc, hst.trans (s.copyKey_staged p k), fun q o hk => ?_⟩
    obtain ⟨hne, hr⟩ : rkey q o ≠ k ∧ rkey q o ∉ r := by simpa using hk
    exact (hbut q o hr).trans (State.copyKey_reg_ne hs hne)

/-- Copying a list of keys: a register in it takes the RW bits of its staged copy. -/
theorem State.copyKeys_reg {s : State} (hs : s.Canon) {p o i : Nat} {d : RegDef} (ho : o < 0x1000)
    (hreg : regAt p o = some (d, i)) {l : List Nat} (hl : rkey p o ∈ l) :
    (s.each l (fun s k => s.copyKey p k)).reg p o = mergeBits (s.reg p o) d.rw (s.stagedReg p o) := by
  induction l generalizing s with
  | nil => simp at hl
  | cons k r ih =>
    have hc := s.copyKey_canon hs p k
    have hstg := State.stagedReg_congr (s.copyKey_staged p k) p o
    obtain ⟨-, -, hbut⟩ := State.copyKeys_frame hc p r
    have hstep (hr : rkey p o ∈ r) :
        (s.each (k :: r) (fun s k => s.copyKey p k)).reg p o = mergeBits ((s.copyKey p k).reg p o) d.rw (s.stagedReg p o) :=
      (ih hc hr).trans (by rw [hstg])
    by_cases hk : rkey p o = k
    · subst hk
      have hself := State.copyKey_reg_self hs ho hreg
      by_cases hr : rkey p o ∈ r
      · rw [hstep hr, hself, mergeBits_mergeBits _ (s.reg_lt p o) (s.stagedReg_lt p o)]
      · exact (hbut p o hr).trans hself
    · have hr : rkey p o ∈ r := by simpa [hk] using hl
      rw [hstep hr, State.copyKey_reg_ne hs hk]

/-- The keys a group's copy goes through: those listed in either copy. -/
theorem State.mem_groupKeys {s : State} {p g k : Nat} :
    k ∈ s.groupKeys p g ↔ (k ∈ s.regs.staged.map Prod.fst ∨ k ∈ s.regs.active.map Prod.fst) ∧ keyInGroup p g k = true := by
  unfold State.groupKeys
  rw [List.mem_eraseDups, List.mem_filter, List.mem_append]

/-- A register of a group takes the RW bits of its staged copy; one that neither copy lists holds its reset value in both. -/
theorem State.copyGroup_reg {s : State} (hs : s.Canon) {p g o i : Nat} {d : RegDef} (hp : p ∉ [P.TLDP, P.SCR, P.SAF]) (hlt : p < 0x100)
    (ho : o < 0x1000) (hreg : regAt p o = some (d, i)) :
    (s.copyGroup p g).reg p o = if d.group i = some g then mergeBits (s.reg p o) d.rw (s.stagedReg p o) else s.reg p o := by
  have hin : keyInGroup p g (rkey p o) = true ↔ d.group i = some g := by
    rw [keyInGroup_iff hp hlt, rkey_div ho, rkey_mod ho]
    simp [hreg]
  rw [State.copyGroup_eq]
  obtain ⟨-, -, hbut⟩ := State.copyKeys_frame hs p (s.groupKeys p g)
  by_cases hk : rkey p o ∈ s.groupKeys p g
  · rw [State.copyKeys_reg hs ho hreg hk, if_pos (hin.1 (State.mem_groupKeys.1 hk).2)]
  · rw [hbut p o hk]
    split
    · next hg =>
      obtain ⟨hst, hact⟩ : rkey p o ∉ s.regs.staged.map Prod.fst ∧ rkey p o ∉ s.regs.active.map Prod.fst := by
        rw [State.mem_groupKeys] at hk
        exact not_or.1 fun h => hk ⟨h, hin.2 hg⟩
      have hsame : s.stagedReg p o = s.reg p o := by
        unfold State.stagedReg State.reg
        rw [sget_of_not_mem hst, sget_of_not_mem hact]
      rw [hsame, mergeBits_self _ (s.reg_lt p o)]
    · rfl

/-- Copying a group writes no header register of its page. -/
theorem State.copyGroup_header {s : State} (hs : s.Canon) {p o : Nat} (g : Nat) (hp : p ∉ [P.TLDP, P.SCR, P.SAF])
    (hex : pageExists p = true) (ho : o < 0x040) : (s.copyGroup p g).reg p o = s.reg p o := by
  obtain ⟨-, -, hbut⟩ := State.copyKeys_frame hs p (s.groupKeys p g)
  refine hbut p o fun hk => ?_
  obtain ⟨-, d, i, hreg, -⟩ := (keyInGroup_iff hp (pageExists_lt hex)).1 (State.mem_groupKeys.1 hk).2
  rw [rkey_mod (by omega)] at hreg
  have := regAt_ge hex hreg
  omega

/-! ### Taking the groups -/

/-- What taking one group does, before its commit is counted. -/
def State.takeGroup (s : State) (e : Nat × Nat) : State :=
  let s := if s.stagedMode e.1 then s.copyGroup e.1 e.2 else s
  ((s.setErr e.1 e.2 0).dropLastGood e.1 e.2).showErrs e.1

theorem State.copyTaken_eq (s : State) (t : Nat) (taken : List (Nat × Nat)) :
    s.copyTaken t taken =
      ((s.each taken State.takeGroup).each (taken.map Prod.fst).eraseDups (fun u p => u.commitFinished p false)).each taken
        (fun u e => u.settled s t e.1 e.2 false) := rfl

/-- On a page whose settings take effect by the copy alone, its block has nothing to do. -/
theorem State.settled_of_copyAlone {s s₀ : State} {t p g : Nat} {direct : Bool}
    (hp : pageType p ∈ [0x14, 0x17, 0x18, 0x19, 0x1A, 0x1B, 0x1D, 0x1F]) : s.settled s₀ t p g direct = s := by
  simp only [List.mem_cons, List.not_mem_nil, or_false] at hp
  unfold State.settled
  rcases hp with h | h | h | h | h | h | h | h <;> simp only [h]

section
variable {p : Nat} (hp : p ∉ [P.TLDP, P.SCR, P.SAF]) (hex : pageExists p = true)
include hp hex

/-- Taking a group of a page in staged mode: the registers of the group take their staged RW bits; the staged copy, the mode and the
pending groups stay. -/
theorem State.takeGroup_spec {s : State} (hs : s.Canon) (hst : s.stagedMode p = true) (g : Nat) :
    let u := s.takeGroup (p, g)
    u.Canon ∧ u.stagedMode p = true ∧ u.pendGroups p = s.pendGroups p ∧ (∀ o, u.stagedReg p o = s.stagedReg p o) ∧
      ∀ o d i, o < 0x1000 → regAt p o = some (d, i) →
        u.reg p o = if d.group i = some g then mergeBits (s.reg p o) d.rw (s.stagedReg p o) else s.reg p o := by
  have htake : s.takeGroup (p, g) = (((s.copyGroup p g).setErr p g 0).dropLastGood p g).showErrs p := by
    simp only [State.takeGroup, hst, if_true]
  obtain ⟨hc, hstg, -⟩ := State.copyKeys_frame hs p (s.groupKeys p g)
  have hrep : Reports p (s.copyGroup p g) (s.takeGroup (p, g)) := by
    rw [htake]
    exact ((Reports.setErr hc p p g 0).trans fun h => .dropLastGood h p p g).trans fun h => .showErrs h p
  have hhdr (o : Nat) (ho : o < 0x040) : (s.copyGroup p g).reg p o = s.reg p o := State.copyGroup_header hs g hp hex ho
  refine ⟨hrep.canon, ?_, hrep.pend.trans (State.pendGroups_congr (hhdr _ (by decide))), fun o => ?_, fun o d i ho hreg => ?_⟩
  · rw [hrep.stagedMode, State.stagedMode_congr (hhdr _ (by decide)), hst]
  · exact State.stagedReg_congr (hrep.staged.trans hstg) p o
  · rw [hrep.reg (regAt_ge hex hreg) ho, State.copyGroup_reg hs hp (pageExists_lt hex) ho hreg]

/-- Taking a list of groups of one page together. -/
theorem State.takeGroups_spec {s : State} (hs : s.Canon) (hst : s.stagedMode p = true) {l : List (Nat × Nat)}
    (hl : ∀ e ∈ l, e.1 = p) :
    let u := s.each l State.takeGroup
    u.Canon ∧ u.pendGroups p = s.pendGroups p ∧
      ∀ o d i g, o < 0x1000 → regAt p o = some (d, i) → d.group i = some g →
        u.reg p o = if (p, g) ∈ l then mergeBits (s.reg p o) d.rw (s.stagedReg p o) else s.reg p o := by
  induction l generalizing s with
  | nil => exact ⟨hs, rfl, fun o d i g _ _ _ => by simp [State.each]⟩
  | cons e r ih =>
    obtain ⟨q, g'⟩ := e
    obtain rfl : q = p := hl _ (List.mem_cons_self ..)
    obtain ⟨hc, hmode, hpend, hstg, htaken⟩ := State.takeGroup_spec hp hex hs hst g'
    obtain ⟨hc', hpend', hrest⟩ := ih hc hmode fun e he => hl e (List.mem_cons_of_mem _ he)
    refine ⟨hc', hpend'.trans hpend, fun o d i g ho hreg hg => (hrest o d i g ho hreg hg).trans ?_⟩
    have hmerge := mergeBits_mergeBits d.rw (s.reg_lt q o) (s.stagedReg_lt q o)
    rw [hstg, htaken o d i ho hreg, hg]
    by_cases hgg : g = g'
    · simp [hgg, hmerge]
    · simp [hgg]

end

/-! ### Groups cease to be pending -/

/-- Taking groups of a page off its pending ones writes COMMIT_STAT and PAGE_STAT, and leaves the others pending. -/
theorem State.unpend_spec {s : State} (hs : s.Canon) {p : Nat} {l : List (Nat × Nat)} (hl : ∀ e ∈ l, e.1 = p ∧ e.2 < 17) :
    (s.unpend l).Canon ∧ (s.unpend l).regs.staged = s.regs.staged ∧ RegsBut [rkey p H.CSTAT, rkey p H.STAT] s (s.unpend l) ∧
      ∀ g, bitOf ((s.unpend l).pendGroups p) g = (bitOf (s.pendGroups p) g && decide ((p, g) ∉ l)) := by
  induction l generalizing s with
  | nil => exact ⟨hs, rfl, .refl _ _, fun g => by simp [State.unpend, State.each]⟩
  | cons e r ih =>
    obtain ⟨q, g'⟩ := e
    obtain ⟨rfl, hg'⟩ : q = p ∧ g' < 17 := hl _ (List.mem_cons_self ..)
    have hc := (State.setPendGroups_keeps (.refl s) q (putBit (s.pendGroups q) g' false)).canon hs
    obtain ⟨hc', hst, hbut, hbits⟩ := ih hc fun e he => hl e (List.mem_cons_of_mem _ he)
    refine ⟨hc', hst, (State.setPendGroups_regsBut hs.active q _).trans hbut, fun g => (hbits g).trans ?_⟩
    rw [State.pendGroups_setPendGroups hs.active, Nat.mod_eq_of_lt (putBit_lt _ hg' (s.pendGroups_lt q)), bitOf_putBit]
    by_cases hgg : g = g' <;> simp [hgg]

/-! ### All taken, or none -/

/-- On a page whose settings take effect by the copy alone, the registers of the groups taken hold their staged RW bits. -/
theorem State.copyTaken_spec {s : State} (hs : s.Canon) {p : Nat} (t : Nat) (hp : p ∉ [P.TLDP, P.SCR, P.SAF])
    (hex : pageExists p = true) (hst : s.stagedMode p = true)
    (htype : pageType p ∈ [0x14, 0x17, 0x18, 0x19, 0x1A, 0x1B, 0x1D, 0x1F]) {l : List (Nat × Nat)} (hl : ∀ e ∈ l, e.1 = p) :
    (s.copyTaken t l).pendGroups p = s.pendGroups p ∧
      ∀ o d i g, o < 0x1000 → regAt p o = some (d, i) → d.group i = some g → (p, g) ∈ l →
        (s.copyTaken t l).reg p o = mergeBits (s.reg p o) d.rw (s.stagedReg p o) := by
  obtain ⟨hc, hpend, htaken⟩ := State.takeGroups_spec hp hex hs hst hl
  have hrep : Reports p (s.each l State.takeGroup) (s.copyTaken t l) := by
    rw [State.copyTaken_eq]
    have hfin : Reports p (s.each l State.takeGroup)
        ((s.each l State.takeGroup).each (l.map Prod.fst).eraseDups (fun u p => u.commitFinished p false)) := by
      refine .each hc fun q hq u hu => ?_
      obtain ⟨e, he, rfl⟩ := List.mem_map.1 (List.mem_eraseDups.1 hq)
      rw [hl e he]
      exact .commitFinished hu p false
    refine hfin.trans fun hu => .each hu fun e he w hw => ?_
    rw [hl e he, State.settled_of_copyAlone htype]
    exact .refl hw p
  refine ⟨hrep.pend.trans hpend, fun o d i g ho hreg hg hmem => ?_⟩
  rw [hrep.reg (regAt_ge hex hreg) ho, htaken o d i g ho hreg hg, if_pos hmem]

/-- Rejecting groups of a page reports on it and copies nothing. -/
theorem Reports.rejectTaken {s : State} (hs : s.Canon) {p : Nat} {l : List (Nat × Nat)} {causes : List ((Nat × Nat) × Nat)}
    (hl : ∀ e ∈ l, e.1 = p) (hcauses : ∀ e ∈ causes, e.1 ∈ l) : Reports p s (s.rejectTaken l causes) := by
  have hfin : Reports p s (s.each (l.map Prod.fst).eraseDups (fun u p => u.commitFinished p true)) := by
    refine .each hs fun q hq u hu => ?_
    obtain ⟨e, he, rfl⟩ := List.mem_map.1 (List.mem_eraseDups.1 hq)
    rw [hl e he]
    exact .commitFinished hu p true
  refine hfin.trans fun hu => .each hu fun e he w hw => ?_
  rw [hl e.1 (hcauses e he)]
  exact (Reports.setErr hw p p _ _).trans fun h => .showErrs h p

/-- The groups due at a safe point of a page that is no TLD page are groups of that page. -/
theorem State.mem_takenAt {s : State} {p groups t : Nat} (hp : pageType p ≠ 0x0F) {e : Nat × Nat} (he : e ∈ s.takenAt p groups t) :
    e.1 = p ∧ e.2 < 17 := by
  unfold State.takenAt at he
  simp only [if_neg hp, List.flatMap_cons, List.flatMap_nil, List.append_nil] at he
  obtain ⟨g, hg, rfl⟩ := List.mem_map.1 he
  exact ⟨rfl, List.mem_range.1 (List.mem_filter.1 hg).1⟩

/-- The groups of a list whose check fails, with their causes. -/
def State.failing (s : State) (l : List (Nat × Nat)) : List ((Nat × Nat) × Nat) :=
  (l.map (fun e => (e, s.checkGroup (s.takenView l) e.1 e.2))).filter (fun e => e.2 != 0)

theorem State.failing_isEmpty {s : State} {l : List (Nat × Nat)} :
    (s.failing l).isEmpty = true ↔ ∀ e ∈ l, s.checkGroup (s.takenView l) e.1 e.2 = 0 := by
  rw [State.failing, List.isEmpty_iff, List.filter_eq_nil_iff, List.forall_mem_map]
  simp

theorem State.mem_of_failing {s : State} {l : List (Nat × Nat)} {e : (Nat × Nat) × Nat} (he : e ∈ s.failing l) : e.1 ∈ l := by
  obtain ⟨x, hx, rfl⟩ := List.mem_map.1 (List.mem_filter.1 he).1
  exact hx

theorem execSafePoint_next {s : State} {p : Nat} (t : Nat) (gs : BitVec 17) (hw : s.writable p = true)
    (hne : (s.at t).takenAt p gs.toNat t ≠ []) :
    execSafePoint t p gs s =
      let s := s.at t
      let taken := s.takenAt p gs.toNat t
      .next (if (s.failing taken).isEmpty then (s.unpend taken).copyTaken t taken
        else (s.unpend taken).rejectTaken taken (s.failing taken)) := by
  have hcond : ¬(((!(s.at t).writable p) = true) ∨ ((s.at t).takenAt p gs.toNat t).isEmpty = true) := by
    have h : (s.at t).writable p = true := hw
    simp [h, hne]
  unfold execSafePoint
  extract_lets s₁ taken
  rw [if_neg hcond]
  rfl

/-- Settles O14: with no cause found every group is copied, with one found none is; either way the groups have ceased to be pending. -/
theorem safePointTakesOrRejects : Obligations.SafePointTakesOrRejects := by
  intro s t p gs hs hw hst htype taken hne
  have hs' : (s.at t).Canon := hs
  have hex := State.pageExists_of_writable hw
  have hplain : p ∉ [P.TLDP, P.SCR, P.SAF] := by
    intro h
    simp only [List.mem_cons, List.not_mem_nil, or_false] at h
    rcases h with rfl | rfl | rfl <;> exact absurd htype (by decide)
  have hldt : pageType p ≠ 0x0F := by
    intro h
    rw [h] at htype
    exact absurd htype (by decide)
  have hmem (e : Nat × Nat) (he : e ∈ taken) : e.1 = p ∧ e.2 < 17 := State.mem_takenAt hldt he
  obtain ⟨hc, hstg, hbut, hpend⟩ := State.unpend_spec hs' hmem
  have hreg (q o : Nat) (ho : 0x040 ≤ o) (ho' : o < 0x1000) : ((s.at t).unpend taken).reg q o = s.reg q o := by
    refine hbut q o ?_
    simp only [rkey, H.STAT, H.CSTAT, List.mem_cons, List.not_mem_nil, or_false]
    omega
  have hmode : ((s.at t).unpend taken).stagedMode p = true :=
    (State.stagedMode_congr (hbut p H.CTL (by simp [rkey, H.CTL, H.STAT, H.CSTAT]))).trans hst
  have hoff (u : State) (hu : u.pendGroups p = ((s.at t).unpend taken).pendGroups p) (e : Nat × Nat) (he : e ∈ taken) :
      bitOf (u.pendGroups p) e.2 = false := by
    have hpair : (p, e.2) ∈ taken := by
      rw [← (hmem e he).1]
      exact he
    rw [hu, hpend]
    simp [hpair]
  refine ⟨_, execSafePoint_next t gs hw hne, ?_⟩
  by_cases hpass : ((s.at t).failing taken).isEmpty = true
  · obtain ⟨hkept, htaken⟩ := State.copyTaken_spec hc t hplain hex hmode htype fun e he => (hmem e he).1
    rw [if_pos hpass]
    refine ⟨hoff _ hkept, fun _ e he o d i ho ho' hr hg => ?_, ?_⟩
    · have hpair : (p, e.2) ∈ taken := by
        rw [← (hmem e he).1]
        exact he
      rw [htaken o d i e.2 (by omega) hr hg hpair, hreg p o ho (by omega), State.stagedReg_congr hstg]
      rfl
    · rintro ⟨e, he, hfail⟩
      exact absurd (State.failing_isEmpty.1 hpass e he) hfail
  · have hrep := Reports.rejectTaken hc (fun e he => (hmem e he).1) (fun e => State.mem_of_failing (s := s.at t) (l := taken) (e := e))
    rw [if_neg hpass]
    refine ⟨hoff _ hrep.pend, fun hall => absurd (State.failing_isEmpty.2 hall) hpass, fun _ q o ho ho' => ?_⟩
    rw [hrep.reg ho ho', hreg q o ho ho']

end Sys2Proof.Machine
end

section
/-!
SUPPORT. The clear registers of the clock, loop, digital, stamp, frequency and converter pages (R68, R96, R98, R117, R138, R140, R172,
R175).
-/
namespace Sys2Proof.Machine

/-- A clear register whose bit 0 clears the fields of a list answers a state in which they are cleared. -/
theorem clears_of_bit {s : State} (hs : s.Canon) {p v : Nat} {fs : List (Fld × Nat)} {r : Res}
    (hr : r = .next (if bitOf v 0 then s.clearAll p fs else s)) (hf : clearable fs = true) :
    (bitOf v 0 = true → ∃ u, r = .next u ∧ Cleared p fs s u) ∧ (bitOf v 0 = false → r = .next s) := by
  refine ⟨fun h => ⟨_, ?_, State.clearAll_cleared hs.active p fs hf⟩, fun h => ?_⟩
  · rw [hr, if_pos h]
  · rw [hr, h]
    rfl

/-- Settles O6: each command clears a list of fields that share no bits. -/
theorem clearsOfClockAndCapture : Obligations.ClearsOfClockAndCapture := by
  intro s v n g hs
  obtain ⟨ltl, ltl'⟩ := clears_of_bit hs (r := exec (.ltlClr n v) s) rfl (by decide)
  obtain ⟨ang, ang'⟩ := clears_of_bit hs (r := exec (.angClr v) s) rfl (by decide)
  obtain ⟨dig, dig'⟩ := clears_of_bit hs (r := exec (.digClr g v) s) rfl (by decide +kernel)
  obtain ⟨stp, stp'⟩ := clears_of_bit hs (r := exec (.stpClr g v) s) rfl (by decide)
  obtain ⟨frq, frq'⟩ := clears_of_bit hs (r := exec (.frqClr v) s) (fs := [(F.FRQ_INVALID_CNT, 1)]) rfl (by decide)
  obtain ⟨adc, adc'⟩ := clears_of_bit hs (r := exec (.adcClr v) s) rfl (by decide +kernel)
  obtain ⟨har, har'⟩ := clears_of_bit hs (r := exec (.harClr v) s) (fs := [(F.HAR_SAT_CNT, 1)]) rfl (by decide)
  exact ⟨ltl, ltl', ang, ang', dig, dig', stp, stp', frq, frq', adc, adc', har, har',
    _, rfl, State.clearAll_cleared hs.active _ _ (by decide)⟩

end Sys2Proof.Machine
end

section
/-!
SUPPORT. What the operations that mark streams, open and close gaps and raise faults leave alone (R57, R62, R63, R446): the registers of
the clock pages, SAF_FAULT_RAW, the synthesizers' working state, and whether start-up has completed.
-/
namespace Sys2Proof.Machine
variable (s : State)

/-! ### What is watched -/

/-- Pages up to CKS3. -/
def clockPage (p : Nat) : Bool := decide (p < P.CKO)

/-- The registers watched: those of the pages up to CKS3, and SAF_FAULT_RAW. -/
def watchedKey (k : Nat) : Bool := decide (k < rkey P.CKO 0) || k == rkey P.SAF F.SAF_FAULT_RAW.off

/-- What the operations of this file leave alone. A fault may take a started module to SAFE, so that of the run state only
whether start-up has completed is watched. -/
def State.watched : List (Nat × Word) × List (Nat × Word) × List SynthState × Bool :=
  (s.regs.active.filter (fun e => watchedKey e.1), s.regs.lastGood, s.clk, s.started)

section sparse
variable {α : Type}

theorem filter_serase {K : Nat → Bool} {k : Nat} (hk : K k = false) (m : List (Nat × α)) :
    (serase m k).filter (fun e => K e.1) = m.filter (fun e => K e.1) := by
  induction m with
  | nil => rfl
  | cons e r ih =>
    obtain ⟨a, v⟩ := e
    simp only [serase]
    split
    · next h => simp [h, hk]
    · split
      · rfl
      · simp [List.filter_cons, ih]

theorem filter_sinsert {K : Nat → Bool} {k : Nat} (hk : K k = false) (m : List (Nat × α)) (v : α) :
    (sinsert m k v).filter (fun e => K e.1) = m.filter (fun e => K e.1) := by
  induction m with
  | nil => simp [sinsert, hk]
  | cons e r ih =>
    obtain ⟨a, w⟩ := e
    simp only [sinsert]
    split
    · simp [List.filter_cons, hk]
    · split
      · next h => simp [h, hk]
      · simp [List.filter_cons, ih]

/-- A write of a key outside a set leaves the set's entries. -/
theorem filter_sset [DecidableEq α] {d : Nat → α} {K : Nat → Bool} {k : Nat} (hk : K k = false) (m : List (Nat × α)) (v : α) :
    (sset d m k v).filter (fun e => K e.1) = m.filter (fun e => K e.1) := by
  unfold sset
  split
  · exact filter_serase hk m
  · exact filter_sinsert hk m v

end sparse

theorem State.setReg_watched {p o : Nat} (h : watchedKey (rkey p o) = false) (v : Nat) : (s.setReg p o v).watched = s.watched := by
  simp only [State.watched, State.setReg, filter_sset h]
  rfl

/-- A register watched reads alike in states with the same watched part. -/
theorem State.reg_of_watched {s u : State} (h : u.watched = s.watched) {p o : Nat} (hk : watchedKey (rkey p o) = true) :
    u.reg p o = s.reg p o := by
  have hf (x : State) : x.reg p o = (sget regReset x.watched.1 (rkey p o)).toNat := by
    have := sget_filter_key (d := regReset) watchedKey x.regs.active (rkey p o)
    rw [if_pos hk] at this
    exact congrArg BitVec.toNat this.symm
  rw [hf, hf, h]

/-! ### Registers outside -/

@[simp] theorem clockPage_ltl (n : Nat) : clockPage (P.LTL n) = false := by simp [clockPage, P.LTL, P.CKO]; omega
@[simp] theorem clockPage_stp (g : Nat) : clockPage (P.STP g) = false := by simp [clockPage, P.STP, P.CKO]; omega

theorem watchedKey_header {p o : Nat} (hp : clockPage p = false) (ho : o < 0x40) : watchedKey (rkey p o) = false := by
  simp [clockPage, watchedKey, rkey, F.SAF_FAULT_RAW] at *
  omega

theorem watchedKey_block {p o : Nat} (hp : clockPage p = false) (hs : p ≠ P.SAF) (ho : o < 0x1000) : watchedKey (rkey p o) = false := by
  simp [clockPage, watchedKey, rkey, F.SAF_FAULT_RAW] at *
  omega

/-- A page holds a field at most 64 times. -/
theorem Fld.at_lt {f : Fld} {i : Nat} (hi : i < 64) (hf : f.off + f.stride * 63 < 0x1000) : f.at i < 0x1000 := by
  have := Nat.mul_le_mul_left f.stride (Nat.le_of_lt_succ hi)
  unfold Fld.at
  omega

/-- A field of another page than SAF. -/
@[simp] theorem State.put_watched {p i : Nat} {f : Fld} (hp : clockPage p = false) (hs : p ≠ P.SAF) (hi : i < 64)
    (hf : f.off + f.stride * 63 < 0x1000) (v : Nat) : (s.put p f v i).watched = s.watched :=
  State.setReg_watched s (watchedKey_block hp hs (Fld.at_lt hi hf)) _

@[simp] theorem State.putB_watched {p i : Nat} {f : Fld} (hp : clockPage p = false) (hs : p ≠ P.SAF) (hi : i < 64)
    (hf : f.off + f.stride * 63 < 0x1000) (b : Bool) : (s.putB p f b i).watched = s.watched := State.put_watched s hp hs hi hf _

@[simp] theorem State.sat_watched {p i : Nat} {f : Fld} (hp : clockPage p = false) (hs : p ≠ P.SAF) (hi : i < 64)
    (hf : f.off + f.stride * 63 < 0x1000) (n : Nat) : (s.sat p f n i).watched = s.watched := State.put_watched s hp hs hi hf _

@[simp] theorem State.wrap_watched {p i : Nat} {f : Fld} (hp : clockPage p = false) (hs : p ≠ P.SAF) (hi : i < 64)
    (hf : f.off + f.stride * 63 < 0x1000) (n : Nat) : (s.wrap p f n i).watched = s.watched := State.put_watched s hp hs hi hf _

/-- A field of SAF other than SAF_FAULT_RAW. -/
theorem State.put_saf_watched {f : Fld} (hf : watchedKey (rkey P.SAF (f.at 0)) = false) (v : Nat) :
    (s.put P.SAF f v).watched = s.watched := State.setReg_watched s hf _

@[simp] theorem State.setBlockState_watched {p : Nat} (hp : clockPage p = false) (c : Nat) :
    (s.setBlockState p c).watched = s.watched := State.setReg_watched s (watchedKey_header hp (by decide)) _

/-! ### Events -/

theorem State.watched_congr {s u : State} (hr : u.regs = s.regs) (hc : u.clk = s.clk) (hrun : u.run = s.run) :
    u.watched = s.watched := by
  simp only [State.watched, State.started, hr, hc, hrun]

@[simp] theorem State.irqRequest_watched (p : Nat) : (s.irqRequest p).watched = s.watched :=
  State.watched_congr (by simp) (by simp) (by simp)

@[simp] theorem State.latch_watched {p : Nat} (hp : clockPage p = false) (b : Nat) : (s.latch p b).watched = s.watched := by
  have hset (v : Nat) : (s.setReg p H.PEND v).watched = s.watched := State.setReg_watched s (watchedKey_header hp (by decide)) v
  unfold State.latch
  dsimp only
  split
  · rfl
  · split
    · rw [State.irqRequest_watched, hset]
    · exact hset _

@[simp] theorem State.pulse_watched {p : Nat} (hp : clockPage p = false) (b : Nat) : (s.pulse p b).watched = s.watched := by
  unfold State.pulse
  split
  · exact State.latch_watched s hp b
  · rfl

@[simp] theorem State.level_watched {p : Nat} (hp : clockPage p = false) (b : Nat) (v : Bool) :
    (s.level p b v).watched = s.watched := by
  have hset (v : Nat) : (s.setReg p H.RAW v).watched = s.watched := State.setReg_watched s (watchedKey_header hp (by decide)) v
  unfold State.level
  dsimp only
  split
  · rw [State.pulse_watched _ hp, hset]
  · exact hset _

/-! ### Working state of other blocks -/

/-- The parentheses keep simp from rewriting with these by definition. -/
@[simp] theorem State.emit_watched (o) : (s.emit o).watched = s.watched := (rfl)
@[simp] theorem State.scrWrite_watched (a bs) : (s.scrWrite a bs).watched = s.watched := (rfl)
@[simp] theorem State.dmWrite_watched (a bs) : (s.dmWrite a bs).watched = s.watched := (rfl)
@[simp] theorem State.modStream_watched (i f) : (s.modStream i f).watched = s.watched := (rfl)
@[simp] theorem State.modLoop_watched (n f) : (s.modLoop n f).watched = s.watched := (rfl)
@[simp] theorem State.modStp_watched (g f) : (s.modStp g f).watched = s.watched := (rfl)
@[simp] theorem State.modIp_watched (u f) : (s.modIp u f).watched = s.watched := (rfl)
@[simp] theorem State.modFu_watched (u f) : (s.modFu u f).watched = s.watched := (rfl)
@[simp] theorem State.modIv_watched (n f) : (s.modIv n f).watched = s.watched := (rfl)
@[simp] theorem State.modAcq_watched (f) : (s.modAcq f).watched = s.watched := (rfl)
@[simp] theorem State.modFlx_watched (p f) : (s.modFlx p f).watched = s.watched := (rfl)
@[simp] theorem State.modAct_watched (n f) : (s.modAct n f).watched = s.watched := (rfl)
@[simp] theorem State.modSaf_watched (f) : (s.modSaf f).watched = s.watched := (rfl)
@[simp] theorem State.bumpSeq_watched (type) : (s.bumpSeq type).watched = s.watched := (rfl)

@[simp] theorem State.watched_ite (c : Prop) [Decidable c] (x y : State) :
    (if c then x else y).watched = if c then x.watched else y.watched := apply_ite ..

@[simp] theorem State.run_ite (c : Prop) [Decidable c] (x y : State) : (if c then x else y).run = if c then x.run else y.run :=
  apply_ite ..

theorem State.each_watched {α : Type} {l : List α} {f : State → α → State} (h : ∀ s, ∀ x ∈ l, (f s x).watched = s.watched) :
    (s.each l f).watched = s.watched := by
  induction l generalizing s with
  | nil => rfl
  | cons x r ih =>
    exact (ih (f s x) fun s y hy => h s y (List.mem_cons_of_mem _ hy)).trans (h s x (List.mem_cons_self ..))

theorem State.each_run {α : Type} {l : List α} {f : State → α → State} (h : ∀ s, ∀ x ∈ l, (f s x).run = s.run) :
    (s.each l f).run = s.run := by
  induction l generalizing s with
  | nil => rfl
  | cons x r ih =>
    exact (ih (f s x) fun s y hy => h s y (List.mem_cons_of_mem _ hy)).trans (h s x (List.mem_cons_self ..))

/-! ### Streams -/

@[simp] theorem State.refreshRfq_kept {sid : Nat} (h : sid < 22) :
    (s.refreshRfq sid).watched = s.watched ∧ (s.refreshRfq sid).run = s.run := by
  have h64 : sid < 64 := by omega
  constructor <;> simp +decide [State.refreshRfq, h64]

@[simp] theorem State.setStall_kept (sid : Nat) (b : Bool) :
    (s.setStall sid b).watched = s.watched ∧ (s.setStall sid b).run = s.run := by
  constructor <;> simp +decide [State.setStall]

@[simp] theorem State.ringWrite_kept (sid : Nat) (c : Chunk) :
    (s.ringWrite sid c).1.watched = s.watched ∧ (s.ringWrite sid c).1.run = s.run := by
  dsimp only [State.ringWrite]
  split <;> simp [State.each_watched, State.each_run]

@[simp] theorem State.closeChunk_kept {sid : Nat} (h : sid < 22) (flags : Nat) :
    (s.closeChunk sid flags).watched = s.watched ∧ (s.closeChunk sid flags).run = s.run := by
  have h64 : sid < 64 := by omega
  dsimp only [State.closeChunk]
  split
  · exact ⟨rfl, rfl⟩
  · constructor <;> simp +decide [h, h64]

@[simp] theorem State.openChunk_kept (sid slot : Nat) :
    (s.openChunk sid slot).watched = s.watched ∧ (s.openChunk sid slot).run = s.run := by
  simp [State.openChunk]

@[simp] theorem State.note_kept (kind slot unit : Nat) (val : Int) (extra : Nat) :
    (s.note kind slot unit val extra).watched = s.watched ∧ (s.note kind slot unit val extra).run = s.run := by
  unfold State.note
  split <;> exact ⟨rfl, rfl⟩

@[simp] theorem State.stageItem_kept {sid : Nat} (h : sid < 22) (it : Item) :
    (s.stageItem sid it).watched = s.watched ∧ (s.stageItem sid it).run = s.run := by
  have h64 : sid - 8 < 64 := by omega
  constructor <;> simp +decide [State.stageItem, h, h64]

@[simp] theorem State.appendRaw_kept {sid : Nat} (h : sid < 22) (it : Item) :
    (s.appendRaw sid it).watched = s.watched ∧ (s.appendRaw sid it).run = s.run := by
  dsimp only [State.appendRaw]
  constructor <;> (repeat' split) <;> simp [h]

@[simp] theorem State.recFlag_kept (b : Nat) : (s.recFlag b).watched = s.watched ∧ (s.recFlag b).run = s.run := by
  simp [State.recFlag]

/-! ### Tokens -/

@[simp] theorem State.sendFlit_kept (p : Port) (o : Output) :
    (s.sendFlit p o).watched = s.watched ∧ (s.sendFlit p o).run = s.run := by
  simp [State.sendFlit]

@[simp] theorem State.sendPort_kept (p : Port) (k : Token) :
    (s.sendPort p k).watched = s.watched ∧ (s.sendPort p k).run = s.run := by
  have hp : p.idx < 64 := by cases p <;> decide
  simp +decide [State.sendPort, State.putToken, hp]

@[simp] theorem State.sendRing_kept (k : Token) : (s.sendRing k).watched = s.watched ∧ (s.sendRing k).run = s.run := by
  simp [State.sendRing]

@[simp] theorem State.broadcast_kept (type low w1 w2 w3 : Nat) :
    (s.broadcast type low w1 w2 w3).watched = s.watched ∧ (s.broadcast type low w1 w2 w3).run = s.run := by
  simp [State.broadcast]

@[simp] theorem State.sendSeam_kept (kind low w1 w2 w3 : Nat) :
    (s.sendSeam kind low w1 w2 w3).watched = s.watched ∧ (s.sendSeam kind low w1 w2 w3).run = s.run := by
  simp [State.sendSeam, State.sendTwin]

/-! ### Entry into SAFE -/

@[simp] theorem State.driveLands_kept (slot : Nat) :
    (s.driveLands slot).watched = s.watched ∧ (s.driveLands slot).run = s.run :=
  ⟨State.each_watched s fun _ _ _ => by simp, State.each_run s fun _ _ _ => by simp⟩

@[simp] theorem State.actState_kept : s.actState.watched = s.watched ∧ s.actState.run = s.run := by
  simp +decide [State.actState]

@[simp] theorem State.setActive_kept (n : Nat) (b : Bool) (stop : PulseStop) (slot : Nat) :
    (s.setActive n b stop slot).watched = s.watched ∧ (s.setActive n b stop slot).run = s.run := by
  simp +decide [State.setActive]

@[simp] theorem State.endActivity_kept (mask slot : Nat) :
    (s.endActivity mask slot).watched = s.watched ∧ (s.endActivity mask slot).run = s.run :=
  ⟨State.each_watched s fun _ _ _ => by simp, State.each_run s fun _ _ _ => by simp⟩

@[simp] theorem State.setTwin_kept (st : Nat) : (s.setTwin st).watched = s.watched ∧ (s.setTwin st).run = s.run := by
  simp +decide [State.setTwin]

@[simp] theorem State.goAlone_kept : s.goAlone.watched = s.watched ∧ s.goAlone.run = s.run := by
  have hw (u : State) : (u.each (List.range 10) (fun s i => s.putB P.ACQT F.ACQ_THIN_STAT_FROM_TWIN false i)).watched = u.watched :=
    State.each_watched u fun _ i hi => State.putB_watched _ (by decide) (by decide)
      (by have := List.mem_range.1 hi; omega) (by decide) _
  have hr (u : State) : (u.each (List.range 10) (fun s i => s.putB P.ACQT F.ACQ_THIN_STAT_FROM_TWIN false i)).run = u.run :=
    State.each_run u fun _ _ _ => by simp
  simp [State.goAlone, hw, hr]

@[simp] theorem State.tailMarker_kept (sid code subject slot : Nat) (params : List Nat) :
    (s.tailMarker sid code subject slot params).watched = s.watched ∧ (s.tailMarker sid code subject slot params).run = s.run := by
  simp [State.tailMarker]

/-- A started module enters SAFE and is started still. -/
theorem State.watched_safe (h : s.started = true) : State.watched { s with run := .safe } = s.watched := by
  simp only [State.watched, h]
  rfl

/-- Entry into SAFE leaves a started module in SAFE. -/
theorem State.safeEntry_kept (h : s.started = true) (first : Nat) :
    (s.safeEntry first).watched = s.watched ∧ (s.safeEntry first).run = .safe := by
  have htail (u : State) (slot : Nat) (params : List Nat) :
      (u.each tailStreams (fun s i => s.tailMarker i K.FAULT 0xFF slot params)).watched = u.watched ∧
      (u.each tailStreams (fun s i => s.tailMarker i K.FAULT 0xFF slot params)).run = u.run :=
    ⟨State.each_watched u fun _ _ _ => by simp, State.each_run u fun _ _ _ => by simp⟩
  have hcnt (u : State) : (u.sat P.SAF F.SAF_SAFE_CNT).watched = u.watched := State.put_saf_watched u (by decide) _
  unfold State.safeEntry
  constructor
  · simp +decide [htail, hcnt]
    exact State.watched_safe _ h
  · simp [htail]

/-! ### Faults -/

/-- A fault taken: READY or ARMED goes to SAFE if the fault's reaction is SAFE. -/
@[simp] theorem State.raiseFault_watched (f : Nat) : (s.raiseFault f).watched = s.watched := by
  have hfirst (u : State) (v : Nat) : (u.setReg P.SAF F.SAF_FIRST.off v).watched = u.watched := State.setReg_watched u (by decide) v
  have hlatch (u : State) (v : Nat) : (u.put P.SAF F.SAF_FAULT_LATCH v).watched = u.watched := State.put_saf_watched u (by decide) v
  unfold State.raiseFault
  extract_lets s₁ s₂ s₃ s₄ s₅
  have h₅ : s₅.watched = s.watched := by simp +decide +zetaDelta [hfirst, hlatch]
  split
  · next h =>
    have hrun : s₅.started = true := by
      simp only [Bool.and_eq_true, Bool.or_eq_true] at h
      rcases h.2 with h | h <;> simp [State.started, h]
    exact (State.safeEntry_kept s₅ hrun f).1.trans h₅
  · exact h₅

/-- The sample-clock fault leaves a started module in SAFE. -/
theorem State.raiseFault_sampleClock_run (h : s.started = true) : (s.raiseFault Q.SAMPLE_CLOCK).run = .safe := by
  unfold State.raiseFault
  extract_lets s₁ s₂ s₃ s₄ s₅
  have hrun : s₅.run = s.run := by simp +zetaDelta
  have hstarted : s₅.started = true := by
    unfold State.started
    rw [hrun]
    exact h
  split
  · exact (State.safeEntry_kept s₅ hstarted _).2
  · next hr =>
    have hreact : s₅.reactSafe Q.SAMPLE_CLOCK = true := rfl
    cases hs : s₅.run <;> simp_all [State.started]

/-- A fault's condition: SAF_FAULT_RAW follows it, and nothing else that is watched changes. -/
theorem State.faultLevel_watched (f : Nat) (b : Bool) :
    (s.faultLevel f b).watched = (s.put P.SAF F.SAF_FAULT_RAW (putBit (s.get P.SAF F.SAF_FAULT_RAW) f b)).watched := by
  unfold State.faultLevel
  dsimp only
  split
  · rw [State.raiseFault_watched]
  · rfl

/-- The sample-clock fault when it was not present. -/
theorem State.faultLevel_sampleClock_run (h : s.started = true) (hf : bitOf (s.get P.SAF F.SAF_FAULT_RAW) 4 = false) :
    (s.faultLevel Q.SAMPLE_CLOCK true).run = .safe := by
  unfold State.faultLevel
  simp only [hf, Bool.not_false, Bool.and_self, if_true]
  exact State.raiseFault_sampleClock_run _ h

@[simp] theorem State.appendItem_watched {sid : Nat} (h : sid < 22) (it : Item) : (s.appendItem sid it).watched = s.watched := by
  simp [State.appendItem, h]

/-! ### Markers and gaps -/

@[simp] theorem State.marker_watched (code subject slot : Nat) (params : List Nat) (ply : Option Nat) :
    (s.marker code subject slot params ply).watched = s.watched := by
  simp [State.marker]

@[simp] theorem State.inband_watched (sid code subject slot : Nat) (params : List Nat) :
    (s.inband sid code subject slot params).watched = s.watched := by
  simp [State.inband, State.each_watched]

@[simp] theorem State.markBoth_watched (code subject slot : Nat) (params sids : List Nat) :
    (s.markBoth code subject slot params sids).watched = s.watched := by
  simp [State.markBoth, State.each_watched]

@[simp] theorem State.seamSkip_watched (sid slot : Nat) : (s.seamSkip sid slot).watched = s.watched := by
  unfold State.seamSkip State.seamWith
  extract_lets
  split
  · rfl
  · split <;> rfl

@[simp] theorem State.gapOpen_watched (sids : List Nat) (slot cause : Nat) : (s.gapOpen sids slot cause).watched = s.watched := by
  simp [State.gapOpen, State.each_watched]

@[simp] theorem State.gapClose_watched (sids : List Nat) (resume cause : Nat) (whole : Bool) :
    (s.gapClose sids resume cause whole).watched = s.watched := by
  unfold State.gapClose
  extract_lets hit first s₁ s₂ s₃
  have h₁ : s₁.watched = s.watched := by simp [s₁]
  have h₂ : s₂.watched = s.watched := by
    refine (State.each_watched _ fun s i _ => ?_).trans h₁
    split <;> simp
  split
  · exact h₂
  · have h₃ : s₃.watched = s.watched := by simp [s₃, h₂]
    split <;> simp [h₃, State.each_watched]

@[simp] theorem State.ivFlagAll_watched (b : Nat) : (s.ivFlagAll b).watched = s.watched := by
  simp [State.ivFlagAll, State.each_watched]

@[simp] theorem State.ivFlagLoop_watched (n b : Nat) : (s.ivFlagLoop n b).watched = s.watched := by
  simp [State.ivFlagLoop, State.each_watched]

/-! ### Stamping, loops, time and clock outputs -/

/-- A pairing unit's registers lie on one of the eight STP pages. -/
theorem stp_ne_saf {g : Nat} (h : g < 8) : P.STP g ≠ P.SAF := by simp only [P.STP, P.SAF]; omega

theorem ltl_ne_saf {n : Nat} (h : n < 4) : P.LTL n ≠ P.SAF := by simp only [P.LTL, P.SAF]; omega

/-- A field of a pairing unit, of which a page has two. -/
theorem State.put_ip_watched {g i : Nat} {f : Fld} (hg : g < 8) (hi : i < 2) (hf : f.off + f.stride < 0x1000) (v : Nat) :
    (s.put (P.STP g) f v i).watched = s.watched := by
  refine State.setReg_watched s (watchedKey_block (clockPage_stp _) (stp_ne_saf hg) ?_) _
  have := Nat.mul_le_mul_left f.stride (Nat.le_of_lt_succ hi)
  unfold Fld.at
  omega

theorem State.unpaired_watched {u : Nat} (h : u < 16) (n : Nat) : (s.unpaired u n).watched = s.watched := by
  have hcnt : (s.sat (P.STP (u / 2)) F.IP_UNPAIRED_CNT n (u % 2)).watched = s.watched :=
    State.put_ip_watched s (by omega) (by omega) (by decide) _
  simp only [State.unpaired, State.watched_ite, State.note_kept, hcnt, ite_self]

theorem State.dropStarts_watched {u : Nat} (h : u < 16) : (s.dropStarts u).watched = s.watched := by
  refine (State.put_ip_watched _ (by omega) (by omega) (by decide) _).trans ?_
  simp [State.unpaired_watched, h]

@[simp] theorem State.stampGap_watched (groups : Nat) : (s.stampGap groups).watched = s.watched := by
  unfold State.stampGap
  extract_lets hit s₁
  have h₁ : s₁.watched = s.watched := State.each_watched s fun s u hu => by
    dsimp only
    split
    · exact State.dropStarts_watched s (List.mem_range.1 hu)
    · rfl
  simp [State.each_watched, h₁]

theorem State.setLoopState_watched {n : Nat} (h : n < 4) (st : Nat) : (s.setLoopState n st).watched = s.watched := by
  simp +decide [State.setLoopState, ltl_ne_saf h]

@[simp] theorem State.mapEntry_watched (n kind tok at_ : Nat) (delta : Int) :
    (s.mapEntry n kind tok at_ delta).watched = s.watched := by
  simp [State.mapEntry]

theorem State.coastStart_watched {n : Nat} (h : n < 4) (t : Nat) : (s.coastStart n t).watched = s.watched := by
  simp +decide [State.coastStart, State.setLoopState_watched, h, ltl_ne_saf h]

@[simp] theorem State.timeBypass_watched (on : Bool) : (s.timeBypass on).watched = s.watched := by
  simp +decide [State.timeBypass, State.setHoldover]

@[simp] theorem State.refreshCko_watched : s.refreshCko.watched = s.watched := by
  unfold State.refreshCko
  split
  · rfl
  · refine State.each_watched s fun s n hn => ?_
    have hi : n < 64 := by
      have := List.mem_range.1 hn
      omega
    split
    split
    next e =>
      simp +decide [hi]
      split at e
      · cases e
        rfl
      · cases e
        rfl

end Sys2Proof.Machine
end

section
/-!
SUPPORT. One synthesizer at a time (R55 to R60): what bypass, a lock attempt, lock and loss of lock of a synthesizer show in its
registers, and that the other synthesizers and the settings stay as they are.
-/
namespace Sys2Proof.Machine

/-! ### The working state of a synthesizer -/

theorem getD_lmod {α : Type} (l : List α) (i j : Nat) (f : α → α) (d : α) (hi : i < l.length) :
    (lmod l i f).getD j d = if j = i then f (l.getD i d) else l.getD j d := by
  induction l generalizing i j with
  | nil => simp at hi
  | cons a r ih =>
    cases i with
    | zero => cases j <;> simp [lmod]
    | succ i => cases j with
      | zero => simp [lmod]
      | succ j => simpa [lmod] using ih i j (by simpa using hi)

theorem length_lmod {α : Type} (l : List α) (i : Nat) (f : α → α) : (lmod l i f).length = l.length := by
  induction l generalizing i with
  | nil => rfl
  | cons a r ih => cases i <;> simp [lmod, ih]

theorem State.synth_modSynth {s : State} {n : Nat} (hn : n < s.clk.length) (f : SynthState → SynthState) (m : Nat) :
    (s.modSynth n f).synth m = if m = n then f (s.synth n) else s.synth m := getD_lmod s.clk n m f _ hn

theorem State.synth_congr {s u : State} (h : u.clk = s.clk) (m : Nat) : u.synth m = s.synth m := by
  unfold State.synth
  rw [h]

/-! ### Reads -/

theorem rkey_cks_watched {m o : Nat} (hm : m < 4) (ho : o < 0x1000) : watchedKey (rkey (P.CKS m) o) = true := by
  have : rkey (P.CKS m) o < rkey P.CKO 0 := by simp only [rkey, P.CKS, P.CKO]; omega
  simp [watchedKey, this]

theorem State.get_congr {s u : State} {p i : Nat} {f : Fld} (h : u.reg p (f.at i) = s.reg p (f.at i)) : u.get p f i = s.get p f i := by
  unfold State.get
  rw [h]

theorem State.use_congr {s u : State} {p i : Nat} {f : Fld} (hg : u.regs.lastGood = s.regs.lastGood)
    (h : u.reg p (f.at i) = s.reg p (f.at i)) : u.use p f i = s.use p f i := by
  unfold State.use State.useReg
  rw [hg, h]

theorem State.blockState_congr {s u : State} {p : Nat} (h : u.reg p H.STAT = s.reg p H.STAT) : u.blockState p = s.blockState p := by
  unfold State.blockState
  rw [h]

theorem State.blockState_setBlockState {s : State} (h : s.ActiveWf) (p : Nat) {c : Nat} (hc : c < 16) :
    (s.setBlockState p c).blockState p = c := by
  unfold State.blockState State.setBlockState
  rw [State.reg_setReg h, if_pos rfl, Nat.mod_eq_of_lt (putBits_lt _ _ _ _ _ (by omega) (by omega) (s.reg_lt p _)),
    bits_putBits_same _ _ _ _ (by omega)]
  exact Nat.mod_eq_of_lt hc

/-- A one-bit field reads back. -/
theorem State.getB_putB {s : State} (h : s.ActiveWf) (p : Nat) (f : Fld) (b : Bool) (i : Nat) (hf : f.lo = f.hi) (h32 : f.hi < 32) :
    (s.putB p f b i).getB p f i = b := by
  unfold State.getB State.putB
  rw [State.get_put h _ _ _ _ (by omega) h32, show f.hi + 1 - f.lo = 1 by omega]
  cases b <;> rfl

/-! ### What one synthesizer's operation leaves alone -/

/-- The registers and working state of the synthesizers but SPn are as before. -/
structure OthersKept (n : Nat) (s u : State) : Prop where
  canon : u.Canon
  length : u.clk.length = s.clk.length
  reg : ∀ m < 4, m ≠ n → ∀ o < 0x1000, u.reg (P.CKS m) o = s.reg (P.CKS m) o
  synth : ∀ m, m ≠ n → u.synth m = s.synth m

/-- Of the registers watched only those of the keys `ks` may differ, and of the synthesizers' working state only that of SPn, whose
measured REFCLK is as before. -/
structure OnlySynth (n : Nat) (ks : List Nat) (s u : State) : Prop where
  canon : u.Canon
  length : u.clk.length = s.clk.length
  reg : ∀ p o, watchedKey (rkey p o) = true → rkey p o ∉ ks → u.reg p o = s.reg p o
  lastGood : u.regs.lastGood = s.regs.lastGood
  synth : ∀ m, m ≠ n → u.synth m = s.synth m
  refKhz : (u.synth n).refKhz = (s.synth n).refKhz
  started : u.started = s.started

section steps
variable {n : Nat} {ks : List Nat} {s u w : State}

theorem OnlySynth.refl (hs : s.Canon) : OnlySynth n ks s s := ⟨hs, rfl, fun _ _ _ _ => rfl, rfl, fun _ _ => rfl, rfl, rfl⟩

theorem OnlySynth.trans (h : OnlySynth n ks s u) (h' : OnlySynth n ks u w) : OnlySynth n ks s w :=
  ⟨h'.canon, h'.length.trans h.length, fun p o hk hn => (h'.reg p o hk hn).trans (h.reg p o hk hn), h'.lastGood.trans h.lastGood,
    fun m hm => (h'.synth m hm).trans (h.synth m hm), h'.refKhz.trans h.refKhz, h'.started.trans h.started⟩

theorem OnlySynth.mono {ks' : List Nat} (h : OnlySynth n ks s u) (hk : ks ⊆ ks') : OnlySynth n ks' s u :=
  { h with reg := fun p o hw hn => h.reg p o hw (fun hm => hn (hk hm)) }

/-- An operation that leaves what is watched. -/
theorem OnlySynth.quiet (h : OnlySynth n ks s u) (hk : Keeps u w) (hw : w.watched = u.watched) : OnlySynth n ks s w := by
  have hclk : w.clk = u.clk := congrArg (·.2.2.1) hw
  exact h.trans ⟨hk.canon h.canon, congrArg List.length hclk, fun p o hp _ => State.reg_of_watched hw hp, congrArg (·.2.1) hw,
    fun m _ => State.synth_congr hclk m, by rw [State.synth_congr hclk], congrArg (·.2.2.2) hw⟩

theorem OnlySynth.setReg (h : OnlySynth n ks s u) (p o v : Nat) (hk : rkey p o ∈ ks) : OnlySynth n ks s (u.setReg p o v) :=
  h.trans ⟨(State.setReg_keeps (.refl u) p o v).canon h.canon, rfl,
    fun q i _ hn => by rw [State.reg_setReg h.canon.active, if_neg (fun e => hn (by rw [e]; exact hk))], rfl, fun _ _ => rfl, rfl, rfl⟩

theorem OnlySynth.put (h : OnlySynth n ks s u) (p : Nat) (f : Fld) (v i : Nat) (hk : rkey p (f.at i) ∈ ks) :
    OnlySynth n ks s (u.put p f v i) := h.setReg p _ _ hk

theorem OnlySynth.putB (h : OnlySynth n ks s u) (p : Nat) (f : Fld) (b : Bool) (i : Nat) (hk : rkey p (f.at i) ∈ ks) :
    OnlySynth n ks s (u.putB p f b i) := h.setReg p _ _ hk

theorem OnlySynth.sat (h : OnlySynth n ks s u) (p : Nat) (f : Fld) (v i : Nat) (hk : rkey p (f.at i) ∈ ks) :
    OnlySynth n ks s (u.sat p f v i) := h.setReg p _ _ hk

theorem OnlySynth.setBlockState (h : OnlySynth n ks s u) (p c : Nat) (hk : rkey p H.STAT ∈ ks) :
    OnlySynth n ks s (u.setBlockState p c) := h.setReg p _ _ hk

theorem State.pulse_lastGood (s : State) (p b : Nat) : (s.pulse p b).regs.lastGood = s.regs.lastGood := by
  unfold State.pulse State.latch
  dsimp only
  split
  · split
    · rfl
    · split
      · rw [State.irqRequest_regs]
        rfl
      · rfl
  · rfl

theorem OnlySynth.pulse (h : OnlySynth n ks s u) (p b : Nat) (hk : rkey p H.PEND ∈ ks) : OnlySynth n ks s (u.pulse p b) :=
  h.trans ⟨(State.pulse_keeps (.refl u) p b).canon h.canon, by simp,
    fun q i _ hn => State.pulse_reg h.canon.active p b q i (fun e => hn (by rw [e]; exact hk)), u.pulse_lastGood p b,
    fun _ _ => State.synth_congr (by simp) _, congrArg _ (State.synth_congr (by simp) n), by simp [State.started]⟩

theorem OnlySynth.level (h : OnlySynth n ks s u) (p b : Nat) (v : Bool) (hk : rkey p H.PEND ∈ ks) (hr : rkey p H.RAW ∈ ks) :
    OnlySynth n ks s (u.level p b v) := by
  have h' := h.setReg p H.RAW (putBit (u.reg p H.RAW) b v) hr
  unfold State.level
  dsimp only
  split
  · exact h'.pulse p b hk
  · exact h'

theorem OnlySynth.modSynth (h : OnlySynth n ks s u) (hn : n < u.clk.length) (f : SynthState → SynthState)
    (hf : ∀ y, (f y).refKhz = y.refKhz) : OnlySynth n ks s (u.modSynth n f) :=
  h.trans ⟨h.canon, length_lmod _ _ _, fun _ _ _ _ => rfl, rfl, fun m hm => by rw [State.synth_modSynth hn, if_neg hm],
    by rw [State.synth_modSynth hn, if_pos rfl, hf], rfl⟩

theorem OnlySynth.ite {c : Prop} [Decidable c] (h : OnlySynth n ks s u) (h' : OnlySynth n ks s w) :
    OnlySynth n ks s (if c then u else w) := by
  split <;> assumption

end steps

/-! ### Bypass -/

def State.refPresent (s : State) (n : Nat) : Bool := s.getB (P.CKS n) F.CKS_LOCK_STAT_REF_PRESENT

/-- What CKS_LOCK_STAT of a synthesizer shows in its top three bits. -/
structure LockFlags (s : State) (n : Nat) (locked bypass present : Bool) : Prop where
  locked : s.spLocked n = locked
  bypass : s.onBypass n = bypass
  present : s.refPresent n = present

section flags
variable {s u : State} {n : Nat} {locked bypass present : Bool}

theorem LockFlags.refl (s : State) (n : Nat) : LockFlags s n (s.spLocked n) (s.onBypass n) (s.refPresent n) := ⟨rfl, rfl, rfl⟩

theorem LockFlags.congr (h : LockFlags s n locked bypass present) (hr : u.reg (P.CKS n) 0x058 = s.reg (P.CKS n) 0x058) :
    LockFlags u n locked bypass present := by
  have hget (f : Fld) (hf : f.at 0 = 0x058) : u.getB (P.CKS n) f = s.getB (P.CKS n) f := by
    have hreg : u.reg (P.CKS n) (f.at 0) = s.reg (P.CKS n) (f.at 0) := by rw [hf]; exact hr
    unfold State.getB
    rw [State.get_congr hreg]
  exact ⟨(hget _ rfl).trans h.locked, (hget _ rfl).trans h.bypass, (hget _ rfl).trans h.present⟩

/-- A field of CKS_LOCK_STAT below the flags. -/
theorem LockFlags.put (h : LockFlags s n locked bypass present) (hwf : s.ActiveWf) (f : Fld) (v : Nat) (hf : f.at 0 = 0x058)
    (hlo : f.lo ≤ f.hi) (hhi : f.hi < 29) : LockFlags (s.put (P.CKS n) f v) n locked bypass present := by
  have hget (g : Fld) (hg : g.at 0 = 0x058) (hd : 29 ≤ g.lo) : (s.put (P.CKS n) f v).getB (P.CKS n) g = s.getB (P.CKS n) g := by
    unfold State.getB
    rw [State.get_put_field hwf _ _ _ _ _ _ (hg.trans hf.symm) hlo (by omega) (.inr (by omega))]
  exact ⟨(hget _ rfl (by decide)).trans h.locked, (hget _ rfl (by decide)).trans h.bypass, (hget _ rfl (by decide)).trans h.present⟩

theorem LockFlags.modSynth (h : LockFlags s n locked bypass present) (m : Nat) (f : SynthState → SynthState) :
    LockFlags (s.modSynth m f) n locked bypass present := h.congr rfl

theorem State.putB_wf (h : s.ActiveWf) (p : Nat) (f : Fld) (b : Bool) (i : Nat) : (s.putB p f b i).ActiveWf :=
  State.put_wf h p f _ i

/-- Another field of the register of a one-bit field. -/
theorem State.getB_putB_field (h : s.ActiveWf) (p : Nat) (f g : Fld) (b : Bool) (hat : g.at 0 = f.at 0) (hf : f.lo = f.hi)
    (h32 : f.hi < 32) (hd : g.hi < f.lo ∨ f.hi < g.lo) : (s.putB p f b).getB p g = s.getB p g := by
  unfold State.getB State.putB
  rw [State.get_put_field h _ _ _ _ _ _ hat (by omega) h32 hd]

/-- The flags after LOCKED and ON_BYPASS are set. -/
theorem LockFlags.set (h : s.ActiveWf) (n : Nat) (locked bypass : Bool) :
    LockFlags ((s.putB (P.CKS n) F.CKS_LOCK_STAT_LOCKED locked).putB (P.CKS n) F.CKS_LOCK_STAT_ON_BYPASS bypass) n locked bypass
      (s.refPresent n) := by
  have hwf := State.putB_wf h (P.CKS n) F.CKS_LOCK_STAT_LOCKED locked 0
  refine ⟨?_, State.getB_putB hwf _ _ _ _ rfl (by decide), ?_⟩
  · exact (State.getB_putB_field hwf _ F.CKS_LOCK_STAT_ON_BYPASS F.CKS_LOCK_STAT_LOCKED _ rfl rfl (by decide) (by decide)).trans
      (State.getB_putB h _ _ _ _ rfl (by decide))
  · exact (State.getB_putB_field hwf _ F.CKS_LOCK_STAT_ON_BYPASS F.CKS_LOCK_STAT_REF_PRESENT _ rfl rfl (by decide) (by decide)).trans
      (State.getB_putB_field h _ F.CKS_LOCK_STAT_LOCKED F.CKS_LOCK_STAT_REF_PRESENT _ rfl rfl (by decide) (by decide))

end flags

/-- The keys of the registers of CKSn at the offsets listed. -/
def cksKeys (n : Nat) (os : List Nat) : List Nat := os.map (rkey (P.CKS n))

theorem rkey_mem_cksKeys {n o : Nat} {os : List Nat} : rkey (P.CKS n) o ∈ cksKeys n os ↔ o ∈ os := by
  simp [cksKeys, rkey]

/-- A register of CKSn that an operation leaves. -/
theorem OnlySynth.cks {n : Nat} {os : List Nat} {s u : State} (h : OnlySynth n (cksKeys n os) s u) (hn : n < 4) {o : Nat}
    (ho : o < 0x1000) (hos : o ∉ os) : u.reg (P.CKS n) o = s.reg (P.CKS n) o :=
  h.reg _ _ (rkey_cks_watched hn ho) (fun hm => hos (rkey_mem_cksKeys.1 hm))

/-- A setting of CKSn that an operation leaves. -/
theorem OnlySynth.use {n : Nat} {os : List Nat} {s u : State} (h : OnlySynth n (cksKeys n os) s u) (hn : n < 4) (f : Fld) (i : Nat)
    (ho : f.at i < 0x1000) (hos : f.at i ∉ os) : u.use (P.CKS n) f i = s.use (P.CKS n) f i :=
  State.use_congr h.lastGood (h.cks hn ho hos)

/-- The operation puts SPn on bypass, not locked, and changes only its CKS_LOCK_STAT and its events. -/
structure Bypasses (n : Nat) (s u : State) : Prop extends OnlySynth n (cksKeys n [0x058, H.RAW, H.PEND]) s u where
  flags : LockFlags u n false true (s.refPresent n)

theorem Bypasses.step {n : Nat} {s u w : State} (hn : n < 4) (h : Bypasses n s u)
    (h' : OnlySynth n (cksKeys n [H.RAW, H.PEND]) u w) : Bypasses n s w :=
  ⟨h.toOnlySynth.trans (h'.mono (by simp [cksKeys])), h.flags.congr (h'.cks hn (by omega) (by decide))⟩

theorem Bypasses.ite {n : Nat} {s u w : State} {c : Prop} [Decidable c] (h : Bypasses n s u) (h' : Bypasses n s w) :
    Bypasses n s (if c then u else w) := by
  split <;> assumption

/-- A synthesizer goes on bypass: CLOCK_LOSS and gaps in its streams, the loops' coast and the frozen mapping of SP0 touch no
other register that is watched. -/
theorem State.toBypass_bypasses {s : State} (hs : s.Canon) {n : Nat} (hn : n < 4) (hl : n < s.clk.length) (t : Nat) :
    Bypasses n s (s.toBypass n t) := by
  have hmem {o : Nat} (ho : o ∈ [0x058, H.RAW, H.PEND]) : rkey (P.CKS n) o ∈ cksKeys n [0x058, H.RAW, H.PEND] := rkey_mem_cksKeys.2 ho
  have hlevel {u : State} (h : Bypasses n s u) (b : Nat) (v : Bool) : Bypasses n s (u.level (P.CKS n) b v) :=
    h.step hn ((OnlySynth.refl h.canon).level _ b v (rkey_mem_cksKeys.2 (by simp)) (rkey_mem_cksKeys.2 (by simp)))
  have hquiet {u w : State} (h : Bypasses n s u) (hk : Keeps u w) (hw : w.watched = u.watched) : Bypasses n s w :=
    h.step hn ((OnlySynth.refl h.canon).quiet hk hw)
  have hput {u : State} (h : Bypasses n s u) {f : Fld} (v : Nat) (hf : f.at 0 = 0x058) (hlo : f.lo ≤ f.hi) (hhi : f.hi < 29) :
      Bypasses n s (u.put (P.CKS n) f v) :=
    ⟨h.toOnlySynth.put _ _ _ _ (hmem (by simp [hf])), h.flags.put h.canon.active f v hf hlo hhi⟩
  unfold State.toBypass
  extract_lets p s₁ s₂ s₃ en s₄ s₅ s₆ s₇ s₈ s₉
  have h₀ : Bypasses n s ((s.putB p F.CKS_LOCK_STAT_LOCKED false).putB p F.CKS_LOCK_STAT_ON_BYPASS true) :=
    ⟨((OnlySynth.refl hs).putB _ _ _ _ (hmem (by decide))).putB _ _ _ _ (hmem (by decide)), LockFlags.set hs.active ..⟩
  have h₂ : Bypasses n s s₂ := hlevel (hput h₀ 0 rfl (by decide) (by decide)) 0 false
  split
  · exact hquiet h₂ (State.refreshCko_keeps (.refl _)) (State.refreshCko_watched _)
  · have hl₂ : n < s₂.clk.length := by rw [h₂.length]; exact hl
    have h₃ : Bypasses n s s₃ := h₂.step hn ((OnlySynth.refl h₂.canon).modSynth hl₂ _ fun _ => rfl)
    have h₇ : Bypasses n s s₇ := by
      have hk₄ : Keeps s₃ s₄ := .ite (State.each_keeps (.refl _) fun _ h _ => State.inband_keeps (State.marker_keeps h ..) ..)
        (State.markBoth_keeps (.refl _) ..)
      have hk₆ : Keeps s₃ s₆ := State.gapOpen_keeps (.ite (State.recFlag_keeps hk₄ _) hk₄) _ _ _
      exact hquiet h₃ (.ite (State.ivFlagAll_keeps hk₆ _) hk₆) (by simp +zetaDelta [State.each_watched])
    have h₉ : Bypasses n s s₉ := by
      have hcoast (u : State) : (u.each (List.range 4) (fun s m => s.coastStart m t)).watched = u.watched :=
        State.each_watched u fun s m hm => State.coastStart_watched s (List.mem_range.1 hm) t
      have h₈ := hput h₇ (f := F.CKS_LOCK_STAT_DLG_LOCK) 0 rfl (by decide) (by decide)
      have hk : Keeps (s₇.put p F.CKS_LOCK_STAT_DLG_LOCK 0) ((s₈.each (List.range 4) (fun s m => s.coastStart m t)).timeBypass true) :=
        State.timeBypass_keeps (State.each_keeps (State.stampGap_keeps (.refl _) 0xFF) fun _ h m => State.coastStart_keeps h m t) true
      exact .ite (hlevel (hquiet h₈ hk (by simp [hcoast, s₈, p])) 6 false) h₇
    exact hquiet h₉ (State.refreshCko_keeps (.refl _)) (State.refreshCko_watched _)

end Sys2Proof.Machine
end

section
/-!
SUPPORT. Loss of lock and lock attempts (R53 to R60): the registers each writes, and the fault that a loss on SP0 raises.
-/
namespace Sys2Proof.Machine

/-- A fault's condition changes SAF_FAULT_RAW alone of what is watched. -/
theorem OnlySynth.faultLevel {n : Nat} {ks : List Nat} {s u : State} (h : OnlySynth n ks s u) (f : Nat) (b : Bool)
    (hk : rkey P.SAF F.SAF_FAULT_RAW.off ∈ ks) : OnlySynth n ks s (u.faultLevel f b) := by
  have hput := h.put P.SAF F.SAF_FAULT_RAW (putBit (u.get P.SAF F.SAF_FAULT_RAW) f b) 0 hk
  unfold State.faultLevel
  dsimp only
  split
  · exact hput.quiet (State.raiseFault_keeps (.refl _) f) (State.raiseFault_watched _ f)
  · exact hput

/-- SAF_FAULT_RAW shows a fault's condition. -/
theorem State.faultLevel_raw {s : State} (h : s.ActiveWf) {f : Nat} (hf : f < 15) (b : Bool) :
    bitOf ((s.faultLevel f b).get P.SAF F.SAF_FAULT_RAW) f = b := by
  have hlt : putBit (s.get P.SAF F.SAF_FAULT_RAW) f b < 2 ^ (F.SAF_FAULT_RAW.hi + 1 - F.SAF_FAULT_RAW.lo) :=
    putBit_lt b hf (bits_lt _ _ _)
  rw [State.get_congr (State.reg_of_watched (State.faultLevel_watched s f b) (by decide)),
    State.get_put h _ _ _ _ (by decide) (by decide), Nat.mod_eq_of_lt hlt, bitOf_putBit, if_pos rfl]

/-- The key of SAF_FAULT_RAW, which is on no clock page. -/
def faultRawKey : Nat := rkey P.SAF F.SAF_FAULT_RAW.off

theorem faultRawKey_ne {n o : Nat} (hn : n < 4) (ho : o < 0x1000) : rkey (P.CKS n) o ≠ faultRawKey := by
  simp only [rkey, faultRawKey, P.CKS, P.SAF, F.SAF_FAULT_RAW]
  omega

/-- A register of CKSn that an operation which may raise a fault leaves. -/
theorem OnlySynth.own {n : Nat} {os : List Nat} {s u : State} (h : OnlySynth n (cksKeys n os ++ [faultRawKey]) s u) (hn : n < 4)
    {o : Nat} (ho : o < 0x1000) (hos : o ∉ os) : u.reg (P.CKS n) o = s.reg (P.CKS n) o :=
  h.reg _ _ (rkey_cks_watched hn ho) (by simp [rkey_mem_cksKeys, hos, faultRawKey_ne hn ho])

/-! ### Loss of lock -/

/-- What a loss of lock shows before SP0's raises its fault. -/
def State.lossShown (s : State) (n t cause : Nat) : State :=
  let p := P.CKS n
  let s := ((s.toBypass n t).sat p F.CKS_LOSS_CNT).pulse p 1
  let s := s.setReg p F.CKS_LOSS_CAUSE.off (2 ^ cause)
  let s := s.setBlockState p (if cause = 0 then Y.NO_REF else Y.IDLE)
  s.modSynth n (fun y => { y with wanted := s.useB p F.CKS_BAND_CFG_AUTO_RELOCK })

theorem State.lockLoss_eq (s : State) (n t cause : Nat) :
    s.lockLoss n t cause =
      if n = 0 then (s.lossShown n t cause).faultLevel Q.SAMPLE_CLOCK true else s.lossShown n t cause := rfl

/-- The registers of CKSn that a loss of lock writes. -/
def lossKeys (n : Nat) : List Nat := cksKeys n [0x058, H.RAW, H.PEND, H.STAT, 0x074, 0x07C]

/-- The operation puts SPn on bypass with the cause of the loss and its state. -/
structure Loses (n c : Nat) (ks : List Nat) (s u : State) : Prop extends OnlySynth n ks s u where
  flags : LockFlags u n false true (s.refPresent n)
  cause : u.reg (P.CKS n) F.CKS_LOSS_CAUSE.off = 2 ^ c
  state : u.blockState (P.CKS n) = if c = 0 then Y.NO_REF else Y.IDLE

theorem State.lossShown_loses {s : State} (hs : s.Canon) {n : Nat} (hn : n < 4) (hl : n < s.clk.length) (t : Nat) {c : Nat}
    (hc : c < 3) : Loses n c (lossKeys n) s (s.lossShown n t c) := by
  have hmem {o : Nat} {os : List Nat} (ho : o ∈ os) : rkey (P.CKS n) o ∈ cksKeys n os := rkey_mem_cksKeys.2 ho
  have hb := State.toBypass_bypasses hs hn hl t
  unfold State.lossShown
  extract_lets p s₁ s₂ s₃
  have h₀ : OnlySynth n (cksKeys n [H.PEND, H.STAT, 0x074, 0x07C]) (s.toBypass n t) s₁ :=
    ((OnlySynth.refl hb.canon).sat _ _ _ _ (hmem (by decide))).pulse _ _ (hmem (by decide))
  have h₂ := h₀.setReg p F.CKS_LOSS_CAUSE.off (2 ^ c) (hmem (by decide))
  have h₃ := h₂.setBlockState p (if c = 0 then Y.NO_REF else Y.IDLE) (hmem (by decide))
  have h₄ := h₃.modSynth (by rw [h₃.length, hb.length]; exact hl)
    (fun y => { y with wanted := s₃.useB p F.CKS_BAND_CFG_AUTO_RELOCK }) fun _ => rfl
  refine ⟨(hb.toOnlySynth.mono ?_).trans (h₄.mono ?_), ?_, ?_, ?_⟩
  · simp [lossKeys, cksKeys]
  · simp [lossKeys, cksKeys]
  · exact hb.flags.congr (h₄.cks hn (by omega) (by decide))
  · show s₃.reg p F.CKS_LOSS_CAUSE.off = _
    have hlt : 2 ^ c < 2 ^ 32 := Nat.pow_lt_pow_right (by omega) (by omega)
    unfold s₃ State.setBlockState s₂
    rw [State.reg_setReg h₂.canon.active, if_neg (by simp [rkey, F.CKS_LOSS_CAUSE]), State.reg_setReg h₀.canon.active, if_pos rfl,
      Nat.mod_eq_of_lt hlt]
  · show s₃.blockState p = _
    exact State.blockState_setBlockState h₂.canon.active p (by split <;> decide)

theorem State.lockLoss_loses {s : State} (hs : s.Canon) {n : Nat} (hn : n < 4) (hl : n < s.clk.length) (t : Nat) {c : Nat}
    (hc : c < 3) : Loses n c (lossKeys n ++ [faultRawKey]) s (s.lockLoss n t c) := by
  have h := State.lossShown_loses hs hn hl t hc
  have hadd : lossKeys n ⊆ lossKeys n ++ [faultRawKey] := List.subset_append_left _ _
  rw [State.lockLoss_eq]
  split
  · have hf : OnlySynth n (cksKeys n [] ++ [faultRawKey]) (s.lossShown n t c) ((s.lossShown n t c).faultLevel Q.SAMPLE_CLOCK true) :=
      (OnlySynth.refl h.canon).faultLevel _ _ (by simp [faultRawKey])
    have hown {o : Nat} (ho : o < 0x1000) := hf.own hn ho (by simp)
    exact ⟨(h.toOnlySynth.mono hadd).trans (hf.mono (by simp [cksKeys])), h.flags.congr (hown (by omega)),
      (hown (by decide)).trans h.cause, (State.blockState_congr (hown (by decide))).trans h.state⟩
  · exact ⟨h.toOnlySynth.mono hadd, h.flags, h.cause, h.state⟩

/-- Loss of lock on SP0 is the sample-clock fault, which takes a started module to SAFE if it was not present. -/
theorem State.lockLoss_fault {s : State} (hs : s.Canon) (hl : 0 < s.clk.length) (t : Nat) {c : Nat} (hc : c < 3) :
    bitOf ((s.lockLoss 0 t c).get P.SAF F.SAF_FAULT_RAW) 4 = true ∧
    (s.started = true → bitOf (s.get P.SAF F.SAF_FAULT_RAW) 4 = false → (s.lockLoss 0 t c).run = .safe) := by
  have h := State.lossShown_loses hs (by decide : 0 < 4) hl t hc
  have hraw : (s.lossShown 0 t c).get P.SAF F.SAF_FAULT_RAW = s.get P.SAF F.SAF_FAULT_RAW :=
    State.get_congr (h.reg _ _ (by decide) (by decide))
  rw [State.lockLoss_eq, if_pos rfl]
  exact ⟨State.faultLevel_raw h.canon.active (by decide) true,
    fun hst hf => State.faultLevel_sampleClock_run _ (h.started.trans hst) (by rw [hraw]; exact hf)⟩

/-! ### Lock attempts -/

/-- The search has the whole range of bands before it. -/
def SynthState.WholeRange (y : SynthState) : Prop := y.lo = 0 ∧ y.hi = 31 ∧ y.step = 0 ∧ y.verifying = false

/-- SPn on bypass with the whole range of bands before it, as every lock attempt begins. -/
def State.attemptBegun (s : State) (n t : Nat) : State :=
  ((s.toBypass n t).level (P.CKS n) 4 false).modSynth n (fun y => { y with
    wanted := true, resetHold := false, lo := 0, hi := 31, step := 0, verifying := false, deviated := false })

/-- The same with what the comparison of REFCLK with REF_FREQ shows. -/
def State.attemptShown (s : State) (n t : Nat) : State :=
  let mism := (s.synth n).refKhz != 0 && !s.refMatches n (s.synth n).refKhz
  ((s.attemptBegun n t).putB (P.CKS n) F.CKS_LOCK_STAT_REF_MISMATCH mism).level (P.CKS n) 5 mism

/-- Band selection as an attempt starts it: from the table, or by a search from the middle of the tuning range. -/
def State.selectionBegun (s : State) (n : Nat) : State :=
  let s := (s.putB (P.CKS n) F.CKS_BAND_STAT_FROM_TABLE false).put (P.CKS n) F.CKS_BAND_STAT_ENTRY 0
  if s.useB (P.CKS n) F.CKS_BAND_CFG_BAND_MODE then s.useTable n else (s.setBlockState (P.CKS n) Y.SEARCH).put (P.CKS n) F.CKS_TUNE 2048

/-- Bypass leaves what decides the attempt. -/
theorem Bypasses.refMatches {s u : State} {n : Nat} (hn : n < 4) (h : Bypasses n s u) : u.refMatches n = s.refMatches n := by
  funext khz
  unfold State.refMatches
  rw [h.use hn F.CKS_REF_CFG_REF_FREQ 0 (by decide) (by decide)]

theorem State.noBand_only {s u : State} {n : Nat} {ks : List Nat} (h : OnlySynth n ks s u)
    (hk : ∀ o ∈ [H.RAW, H.PEND, H.STAT], rkey (P.CKS n) o ∈ ks) : OnlySynth n ks s (u.noBand n) :=
  (h.setBlockState _ _ (hk _ (by simp))).level _ _ _ (hk _ (by simp)) (hk _ (by simp))

theorem State.selectionBegun_only {s : State} (hs : s.Canon) {n : Nat} (hl : n < s.clk.length) :
    OnlySynth n (cksKeys n [H.RAW, H.PEND, H.STAT, 0x05C, 0x06C]) s (s.selectionBegun n) := by
  have hmem {o : Nat} {os : List Nat} (ho : o ∈ os) : rkey (P.CKS n) o ∈ cksKeys n os := rkey_mem_cksKeys.2 ho
  unfold State.selectionBegun
  extract_lets b
  have hb : OnlySynth n (cksKeys n [H.RAW, H.PEND, H.STAT, 0x05C, 0x06C]) s b :=
    ((OnlySynth.refl hs).putB _ _ _ _ (hmem (by decide))).put _ _ _ _ (hmem (by decide))
  refine .ite ?_ ((hb.setBlockState _ _ (hmem (by decide))).put _ _ _ _ (hmem (by decide)))
  unfold State.useTable
  extract_lets p
  split
  · exact State.noBand_only hb fun o ho => hmem (by simp at ho ⊢; tauto)
  · extract_lets s₂ s₃
    have h₃ : OnlySynth n (cksKeys n [H.RAW, H.PEND, H.STAT, 0x05C, 0x06C]) s s₃ :=
      (((hb.setBlockState _ _ (hmem (by decide))).putB _ _ _ _ (hmem (by decide))).put _ _ _ _ (hmem (by decide))).put _ _ _ _
        (hmem (by decide))
    exact h₃.modSynth (by rw [h₃.length]; exact hl) _ fun _ => rfl

section attempt
variable {s : State} (hs : s.Canon) {n : Nat} (hn : n < 4) (hl : n < s.clk.length) (t : Nat)
include hs hn hl

theorem State.attemptBegun_bypasses : Bypasses n s (s.attemptBegun n t) ∧ ((s.attemptBegun n t).synth n).WholeRange := by
  have hb := State.toBypass_bypasses hs hn hl t
  have h₁ := hb.step hn ((OnlySynth.refl hb.canon).level (P.CKS n) 4 false (rkey_mem_cksKeys.2 (by simp)) (rkey_mem_cksKeys.2 (by simp)))
  have hl₁ : n < ((s.toBypass n t).level (P.CKS n) 4 false).clk.length := by rw [h₁.length]; exact hl
  refine ⟨h₁.step hn ((OnlySynth.refl h₁.canon).modSynth hl₁ _ fun _ => rfl), ?_⟩
  unfold State.attemptBegun
  rw [State.synth_modSynth hl₁, if_pos rfl]
  exact ⟨rfl, rfl, rfl, rfl⟩

theorem State.attemptShown_bypasses : Bypasses n s (s.attemptShown n t) ∧ ((s.attemptShown n t).synth n).WholeRange := by
  obtain ⟨hb, hy⟩ := State.attemptBegun_bypasses hs hn hl t
  have hmem {o : Nat} {os : List Nat} (ho : o ∈ os) : rkey (P.CKS n) o ∈ cksKeys n os := rkey_mem_cksKeys.2 ho
  unfold State.attemptShown
  extract_lets mism
  have h₁ : Bypasses n s ((s.attemptBegun n t).putB (P.CKS n) F.CKS_LOCK_STAT_REF_MISMATCH mism) :=
    ⟨hb.toOnlySynth.putB _ _ _ _ (hmem (by decide)),
      hb.flags.put hb.canon.active _ _ rfl (by decide) (by decide)⟩
  refine ⟨h₁.step hn ((OnlySynth.refl h₁.canon).level _ 5 mism (hmem (by simp)) (hmem (by simp))), ?_⟩
  rw [State.synth_congr (s := s.attemptBegun n t) (by simp)]
  exact hy

theorem State.lockAttempt_eq : s.lockAttempt n t =
    if (s.synth n).refKhz = 0 ∨ s.refMatches n (s.synth n).refKhz = false then (s.attemptShown n t).setBlockState (P.CKS n) Y.NO_REF
    else (s.attemptShown n t).selectionBegun n := by
  have hb := (State.attemptBegun_bypasses hs hn hl t).1
  have hkhz := hb.refKhz
  have hm := hb.refMatches hn
  have hunfold : s.lockAttempt n t =
      let a := s.attemptBegun n t
      let khz := (a.synth n).refKhz
      let mism := khz != 0 && !a.refMatches n khz
      let shown := (a.putB (P.CKS n) F.CKS_LOCK_STAT_REF_MISMATCH mism).level (P.CKS n) 5 mism
      if khz = 0 ∨ mism then shown.setBlockState (P.CKS n) Y.NO_REF else shown.selectionBegun n := rfl
  rw [hunfold]
  simp only [hkhz, hm]
  refine if_congr ?_ rfl rfl
  by_cases h0 : (s.synth n).refKhz = 0 <;> simp [h0]

/-- An attempt leaves SPn on bypass; it writes the page's status alone. -/
theorem State.lockAttempt_onBypass :
    OnlySynth n (cksKeys n [0x058, H.RAW, H.PEND, H.STAT, 0x05C, 0x06C]) s (s.lockAttempt n t) ∧
      LockFlags (s.lockAttempt n t) n false true (s.refPresent n) := by
  have hb := (State.attemptShown_bypasses hs hn hl t).1
  have hsel : OnlySynth n (cksKeys n [H.RAW, H.PEND, H.STAT, 0x05C, 0x06C]) (s.attemptShown n t) (s.lockAttempt n t) := by
    rw [State.lockAttempt_eq hs hn hl]
    exact .ite ((OnlySynth.refl hb.canon).setBlockState _ _ (rkey_mem_cksKeys.2 (by simp)))
      (State.selectionBegun_only hb.canon (by rw [hb.length]; exact hl))
  exact ⟨(hb.toOnlySynth.mono (by simp [cksKeys])).trans (hsel.mono (by simp [cksKeys])),
    hb.flags.congr (hsel.cks hn (by omega) (by decide))⟩

/-- Without REFCLK an attempt ends in NO_REF. -/
theorem State.lockAttempt_noRef (h0 : (s.synth n).refKhz = 0) : (s.lockAttempt n t).blockState (P.CKS n) = Y.NO_REF := by
  have hb := (State.attemptShown_bypasses hs hn hl t).1
  rw [State.lockAttempt_eq hs hn hl, if_pos (.inl h0)]
  exact State.blockState_setBlockState hb.canon.active _ (by decide)

/-- With a matching REFCLK and BAND_MODE = AUTO an attempt starts the search. -/
theorem State.lockAttempt_search (h0 : (s.synth n).refKhz ≠ 0) (hm : s.refMatches n (s.synth n).refKhz = true)
    (hauto : s.useB (P.CKS n) F.CKS_BAND_CFG_BAND_MODE = false) :
    (s.lockAttempt n t).blockState (P.CKS n) = Y.SEARCH ∧ (s.lockAttempt n t).get (P.CKS n) F.CKS_TUNE = 2048 ∧
      ((s.lockAttempt n t).synth n).WholeRange := by
  obtain ⟨hb, hrange⟩ := State.attemptShown_bypasses hs hn hl t
  rw [State.lockAttempt_eq hs hn hl, if_neg (by simp [h0, hm])]
  generalize s.attemptShown n t = a at hb hrange
  have hmem {o : Nat} {os : List Nat} (ho : o ∈ os) : rkey (P.CKS n) o ∈ cksKeys n os := rkey_mem_cksKeys.2 ho
  have h₁ : OnlySynth n (cksKeys n [0x05C]) a
      ((a.putB (P.CKS n) F.CKS_BAND_STAT_FROM_TABLE false).put (P.CKS n) F.CKS_BAND_STAT_ENTRY 0) :=
    ((OnlySynth.refl hb.canon).putB _ _ _ _ (hmem (by decide))).put _ _ _ _ (hmem (by decide))
  have hauto' : ((a.putB (P.CKS n) F.CKS_BAND_STAT_FROM_TABLE false).put (P.CKS n) F.CKS_BAND_STAT_ENTRY 0).useB (P.CKS n)
      F.CKS_BAND_CFG_BAND_MODE = false := by
    refine Eq.trans ?_ hauto
    unfold State.useB
    rw [h₁.use hn F.CKS_BAND_CFG_BAND_MODE 0 (by decide) (by decide), hb.use hn F.CKS_BAND_CFG_BAND_MODE 0 (by decide) (by decide)]
  unfold State.selectionBegun
  extract_lets b
  rw [hauto', if_neg (by decide)]
  have hwf : (b.setBlockState (P.CKS n) Y.SEARCH).ActiveWf := State.setReg_wf h₁.canon.active _ _ _
  refine ⟨?_, State.get_put hwf _ _ _ _ (by decide) (by decide), ?_⟩
  · rw [State.blockState_congr (State.reg_put_ne hwf _ _ _ _ _ _ (by simp [rkey, H.STAT, Fld.at, F.CKS_TUNE]))]
    exact State.blockState_setBlockState h₁.canon.active _ (by decide)
  · rw [State.synth_congr (s := a) (by simp [b])]
    exact hrange

end attempt

end Sys2Proof.Machine
end

section
/-!
SUPPORT. Lock (R55, R56), the windows of lock check and of a locked synthesizer, and the loss and return of REFCLK as one turn per
synthesizer.
-/
namespace Sys2Proof.Machine

/-! ### Lock -/

/-- What the declaration of lock shows in the page, before the gaps end and SP0's fault goes. -/
def State.lockShown (s : State) (n : Nat) : State :=
  let p := P.CKS n
  let s := ((s.putB p F.CKS_LOCK_STAT_LOCKED true).putB p F.CKS_LOCK_STAT_ON_BYPASS false).setBlockState p Y.LOCKED
  (s.sat p F.CKS_RELOCK_CNT).setReg p F.CKS_LOSS_CAUSE.off 0

section lock
variable {s : State} (hs : s.Canon) {n : Nat} (hn : n < 4)
include hs hn

theorem State.lockShown_locked : OnlySynth n (cksKeys n [0x058, H.STAT, 0x070, 0x07C]) s (s.lockShown n) ∧
    LockFlags (s.lockShown n) n true false (s.refPresent n) ∧ (s.lockShown n).blockState (P.CKS n) = Y.LOCKED ∧
    (s.lockShown n).reg (P.CKS n) F.CKS_LOSS_CAUSE.off = 0 := by
  have hmem {o : Nat} {os : List Nat} (ho : o ∈ os) : rkey (P.CKS n) o ∈ cksKeys n os := rkey_mem_cksKeys.2 ho
  unfold State.lockShown
  extract_lets p s₂
  have h₁ : OnlySynth n (cksKeys n [0x058]) s ((s.putB p F.CKS_LOCK_STAT_LOCKED true).putB p F.CKS_LOCK_STAT_ON_BYPASS false) :=
    ((OnlySynth.refl hs).putB _ _ _ _ (hmem (by decide))).putB _ _ _ _ (hmem (by decide))
  have h₂ : OnlySynth n (cksKeys n [H.STAT]) _ s₂ := (OnlySynth.refl h₁.canon).setBlockState p Y.LOCKED (hmem (by decide))
  have hcnt : OnlySynth n (cksKeys n [0x070, 0x07C]) s₂ (s₂.sat p F.CKS_RELOCK_CNT) :=
    (OnlySynth.refl h₂.canon).sat _ _ _ _ (hmem (by decide))
  have h₃ := hcnt.setReg p F.CKS_LOSS_CAUSE.off 0 (hmem (by decide))
  refine ⟨((h₁.mono ?_).trans (h₂.mono ?_)).trans (h₃.mono ?_), ?_, ?_, ?_⟩
  · simp [cksKeys]
  · simp [cksKeys]
  · simp [cksKeys]
  · exact (LockFlags.set hs.active n true false).congr ((h₃.cks hn (by omega) (by decide)).trans (h₂.cks hn (by omega) (by decide)))
  · exact (State.blockState_congr (h₃.cks hn (by decide) (by decide))).trans
      (State.blockState_setBlockState h₁.canon.active p (by decide))
  · rw [State.reg_setReg hcnt.canon.active, if_pos rfl, Nat.zero_mod]

/-- Declaring lock ends the bypass; CKS_CNT_LAST stays. -/
theorem State.lockDeclared_locked (hl : n < s.clk.length) (t : Nat) : LockFlags (s.lockDeclared n t) n true false (s.refPresent n) ∧
    (s.lockDeclared n t).blockState (P.CKS n) = Y.LOCKED ∧ (s.lockDeclared n t).reg (P.CKS n) F.CKS_LOSS_CAUSE.off = 0 ∧
    (s.lockDeclared n t).reg (P.CKS n) F.CKS_CNT_LAST.off = s.reg (P.CKS n) F.CKS_CNT_LAST.off := by
  obtain ⟨hshown, hflags, hstate, hcause⟩ := State.lockShown_locked hs hn
  have hmem {o : Nat} (ho : o ∈ [H.RAW, H.PEND]) : rkey (P.CKS n) o ∈ cksKeys n [H.RAW, H.PEND] ++ [faultRawKey] :=
    List.mem_append_left _ (rkey_mem_cksKeys.2 ho)
  have h : OnlySynth n (cksKeys n [H.RAW, H.PEND] ++ [faultRawKey]) (s.lockShown n) (s.lockDeclared n t) := by
    unfold State.lockDeclared
    extract_lets p s₁ s₂ s₃ s₄ s₅ s₆ s₇
    have h₃ : OnlySynth n (cksKeys n [H.RAW, H.PEND] ++ [faultRawKey]) (s.lockShown n) s₃ :=
      (OnlySynth.refl hshown.canon).modSynth (by rw [hshown.length]; exact hl) _ fun _ => rfl
    have h₄ := h₃.level p 0 true (hmem (by simp)) (hmem (by simp))
    have hfault := (h₄.quiet (State.timeBypass_keeps (.refl _) false) (State.timeBypass_watched _ _)).faultLevel Q.SAMPLE_CLOCK false
      (by simp [faultRawKey])
    have hclose {u : State} (h : OnlySynth n (cksKeys n [H.RAW, H.PEND] ++ [faultRawKey]) (s.lockShown n) u) (sids : List Nat)
        (whole : Bool) := h.quiet (State.gapClose_keeps (.refl u) sids t 1 whole) (State.gapClose_watched u sids t 1 whole)
    have h₇ : OnlySynth n (cksKeys n [H.RAW, H.PEND] ++ [faultRawKey]) (s.lockShown n) s₇ :=
      .ite ((hclose hfault _ _).level _ _ _ (hmem (by simp)) (hmem (by simp))) (.ite (hclose h₄ _ _) h₄)
    exact h₇.quiet (State.refreshCko_keeps (.refl _)) (State.refreshCko_watched _)
  have hcks {o : Nat} (ho : o < 0x1000) (hos : o ∉ [H.RAW, H.PEND]) := h.own hn ho hos
  exact ⟨hflags.congr (hcks (by omega) (by decide)), (State.blockState_congr (hcks (by decide) (by decide))).trans hstate,
    (hcks (by decide) (by decide)).trans hcause, (hcks (by decide) (by decide)).trans (hshown.cks hn (by decide) (by decide))⟩

end lock

/-! ### The statements -/

theorem State.at_canon {s : State} (hs : s.Canon) (t : Nat) : (s.at t).Canon := hs

/-- An attempt with a matching REFCLK and BAND_MODE = AUTO, as O21 says it. -/
theorem State.lockAttempt_searching {s : State} (hs : s.Canon) {n : Nat} (hn : n < 4) (hl : n < s.clk.length) (t : Nat)
    (h0 : (s.synth n).refKhz ≠ 0) (hm : s.refMatches n (s.synth n).refKhz = true)
    (hauto : s.useB (P.CKS n) F.CKS_BAND_CFG_BAND_MODE = false) :
    let u := s.lockAttempt n t
    u.blockState (P.CKS n) = Y.SEARCH ∧ u.get (P.CKS n) F.CKS_TUNE = 2048 ∧ u.spLocked n = false ∧ u.onBypass n = true ∧
      (u.synth n).lo = 0 ∧ (u.synth n).hi = 31 ∧ (u.synth n).step = 0 ∧ (u.synth n).verifying = false := by
  obtain ⟨hstate, htune, hrange⟩ := State.lockAttempt_search hs hn hl t h0 hm hauto
  have hflags := (State.lockAttempt_onBypass hs hn hl t).2
  exact ⟨hstate, htune, hflags.locked, hflags.bypass, hrange⟩

theorem execRelock_next {s : State} {n : Fin 4} (he : s.enabled (P.CKS n) = true) (t : Nat) :
    exec (.relock t n) s = .next ((s.at t).lockAttempt n t) := by
  have h : (s.at t).enabled (P.CKS n) = true := he
  show Host.Outcome.next ((s.at t).relockWrite n t) = _
  rw [State.relockWrite, if_pos h]

theorem execLockAttempt_next {s : State} {n : Fin 4} (he : s.enabled (P.CKS n) = true) (hw : (s.synth n).wanted = true)
    (hr : (s.synth n).resetHold = false) (t khz : Nat) : exec (.lockAttempt t n khz) s =
      .next (((s.at t).modSynth n (fun y => { y with refKhz := khz })).lockAttempt n t) := by
  have he' : (s.at t).enabled (P.CKS n) = true := he
  have hw' : ((s.at t).synth n).wanted = true := hw
  have hr' : ((s.at t).synth n).resetHold = false := hr
  show execLockAttempt t n khz s = _
  simp only [execLockAttempt, he', hw', hr', Bool.not_false, and_self, if_true]

/-- The state an attempt begins from, with the REFCLK just measured. -/
def State.measured (s : State) (n t khz : Nat) : State := (s.at t).modSynth n (fun y => { y with refKhz := khz })

theorem State.measured_synth {s : State} {n : Nat} (hl : n < s.clk.length) (t khz : Nat) : ((s.measured n t khz).synth n).refKhz = khz := by
  have hl' : n < (s.at t).clk.length := hl
  unfold State.measured
  rw [State.synth_modSynth hl', if_pos rfl]

theorem execLockAttempt_none {s : State} {n : Fin 4} (hw : (s.synth n).wanted = false) (t khz : Nat) :
    exec (.lockAttempt t n khz) s = .next (s.at t) := by
  have hw' : ((s.at t).synth n).wanted = false := hw
  show execLockAttempt t n khz s = _
  simp [execLockAttempt, hw']

/-- Settles O21: both commands are `State.lockAttempt` on the state at their slot, LOCK_ATTEMPT with the REFCLK it measures. -/
theorem lockAttempts : Obligations.LockAttempts := by
  intro s t n khz hs hl he
  have hn : n.val < 4 := n.isLt
  have hlen : n.val < s.clk.length := by omega
  have hc : (s.at t).Canon := hs
  have hm (khz : Nat) : (s.measured n t khz).Canon ∧ n.val < (s.measured n t khz).clk.length :=
    ⟨hs, by rw [State.measured, State.modSynth, length_lmod]; exact hlen⟩
  refine ⟨fun hauto h0 hmatch => ⟨_, execRelock_next he t, State.lockAttempt_searching hc hn hlen t h0 hmatch hauto⟩,
    fun h0 => ⟨_, execRelock_next he t, State.lockAttempt_noRef hc hn hlen t h0, ?_⟩,
    fun hw hr => ⟨fun hauto h0 hmatch => ⟨_, execLockAttempt_next he hw hr t khz, ?_, ?_⟩,
      fun _ => ⟨_, execLockAttempt_next he hw hr t 0, ?_⟩⟩, fun hw => execLockAttempt_none hw t khz⟩
  · have hflags := (State.lockAttempt_onBypass hc hn hlen t).2
    exact ⟨hflags.locked, hflags.bypass⟩
  · have hkhz := State.measured_synth hlen t khz
    exact State.lockAttempt_searching (hm khz).1 hn (hm khz).2 t (by rw [hkhz]; exact h0) (by rw [hkhz]; exact hmatch) hauto
  · exact (State.lockAttempt_onBypass (hm khz).1 hn (hm khz).2 t).1.refKhz.trans (State.measured_synth hlen t khz)
  · exact State.lockAttempt_noRef (hm 0).1 hn (hm 0).2 t (State.measured_synth hlen t 0)

/-! ### Windows -/

/-- What a window is compared with are settings. -/
theorem OnlySynth.withinPpm {n : Nat} {os : List Nat} {s u : State} (h : OnlySynth n (cksKeys n os) s u) (hn : n < 4)
    (hos : ∀ o ∈ [0x040, 0x044, 0x048, 0x04C], o ∉ os) : u.withinPpm n = s.withinPpm n := by
  have hmul := h.use hn F.CKS_REF_CFG_REF_MUL 0 (by decide) (hos _ (by decide))
  have hfreq := h.use hn F.CKS_REF_CFG_REF_FREQ 0 (by decide) (hos _ (by decide))
  have hfb := h.use hn F.CKS_DIV_FB_N 0 (by decide) (hos _ (by decide))
  have hr := h.use hn F.CKS_DIV_REF_R 0 (by decide) (hos _ (by decide))
  have hwin := h.use hn F.CKS_LOCK_CFG_WIN_EXP 0 (by decide) (hos _ (by decide))
  have hdev : u.deviation n = s.deviation n := by
    funext count
    unfold State.deviation State.vcoKhz
    dsimp only
    rw [hmul, hfreq, hfb, hr, hwin]
  funext count ppm
  simp only [State.withinPpm, hdev]

/-- The state in which a window's count is shown. -/
def State.counted (s : State) (n t : Nat) (count : Nat) : State := (s.at t).setReg (P.CKS n) F.CKS_CNT_LAST.off count

theorem State.counted_only {s : State} (hs : s.Canon) (n t count : Nat) :
    OnlySynth n (cksKeys n [F.CKS_CNT_LAST.off]) (s.at t) (s.counted n t count) :=
  (OnlySynth.refl (State.at_canon hs t)).setReg _ _ _ (rkey_mem_cksKeys.2 (List.mem_singleton.2 rfl))

/-- Showing a count writes CKS_CNT_LAST alone. -/
theorem RegsBut.counted {s : State} (hs : s.Canon) (ks : List Nat) (n t count : Nat) (hk : rkey (P.CKS n) F.CKS_CNT_LAST.off ∈ ks) :
    RegsBut ks s (s.counted n t count) :=
  (RegsBut.of_active rfl).trans (.setReg (State.at_canon hs t).active _ _ _ hk)

section window
variable {s : State} (hs : s.Canon) {n : Fin 4} (he : s.enabled (P.CKS n) = true) (t : Nat) (count : BitVec 32)
include hs he

/-- A window of a synthesizer under lock check (R55). -/
theorem execLockWindowEnd_check (hst : s.blockState (P.CKS n) = Y.LOCK_CHECK) :
    exec (.lockWindowEnd t n count) s =
      let run := if s.withinPpm n count.toNat 100 then s.get (P.CKS n) F.CKS_LOCK_STAT_PASS_RUN + 1 else 0
      let u := (s.counted n t count.toNat).put (P.CKS n) F.CKS_LOCK_STAT_PASS_RUN run
      .next (if run = 4 then u.lockDeclared n t else u) := by
  have h := State.counted_only hs n t count.toNat
  have hwithin : (s.counted n t count.toNat).withinPpm n = s.withinPpm n := h.withinPpm n.isLt (by decide)
  have hstate : (s.counted n t count.toNat).blockState (P.CKS n) = Y.LOCK_CHECK :=
    (State.blockState_congr (h.cks n.isLt (by decide) (by decide))).trans hst
  have hrun : (s.counted n t count.toNat).get (P.CKS n) F.CKS_LOCK_STAT_PASS_RUN = s.get (P.CKS n) F.CKS_LOCK_STAT_PASS_RUN :=
    State.get_congr (h.cks n.isLt (by decide) (by decide))
  have he' : (s.at t).enabled (P.CKS n) = true := he
  show execLockWindowEnd t n count s = _
  rw [← hwithin, ← hrun]
  unfold execLockWindowEnd
  extract_lets s₁ p c s₂ good run s₃
  rw [if_neg (by simp [s₁, p, he']), if_pos (show s₂.blockState p = Y.LOCK_CHECK from hstate)]
  rfl

/-- A window of a locked synthesizer (R57). -/
theorem execLockWindowEnd_locked (hst : s.blockState (P.CKS n) = Y.LOCKED) :
    exec (.lockWindowEnd t n count) s =
      let u := s.counted n t count.toNat
      let good := s.withinPpm n count.toNat 100
      .next (if !s.withinPpm n count.toNat (s.use (P.CKS n) F.CKS_LOCK_CFG_LOSS_PPM) ∨ (!good ∧ (s.synth n).deviated)
        then u.lockLoss n t 1 else u.modSynth n (fun y => { y with deviated := !good })) := by
  have h := State.counted_only hs n t count.toNat
  have hwithin : (s.counted n t count.toNat).withinPpm n = s.withinPpm n := h.withinPpm n.isLt (by decide)
  have hstate : (s.counted n t count.toNat).blockState (P.CKS n) = Y.LOCKED :=
    (State.blockState_congr (h.cks n.isLt (by decide) (by decide))).trans hst
  have hppm : (s.counted n t count.toNat).use (P.CKS n) F.CKS_LOCK_CFG_LOSS_PPM = s.use (P.CKS n) F.CKS_LOCK_CFG_LOSS_PPM :=
    h.use n.isLt _ 0 (by decide) (by decide)
  have he' : (s.at t).enabled (P.CKS n) = true := he
  show execLockWindowEnd t n count s = _
  rw [← hwithin, ← hppm]
  unfold execLockWindowEnd
  extract_lets s₁ p c s₂ good run s₃
  have hlocked : s₂.blockState p = Y.LOCKED := hstate
  have hcheck : s₂.blockState p ≠ Y.LOCK_CHECK := by rw [hlocked]; decide
  rw [if_neg (by simp [s₁, p, he']), if_neg hcheck, if_pos hlocked]
  rfl

end window

/-! ### REFCLK -/

section others
variable {n : Nat} {s u w : State}

/-- An operation of SPn leaves the other synthesizers as they are. -/
theorem OnlySynth.others {os : List Nat} (h : OnlySynth n (cksKeys n os ++ [faultRawKey]) s u) (hos : ∀ o ∈ os, o < 0x1000) :
    OthersKept n s u := by
  refine ⟨h.canon, h.length, fun m hm hmn o ho => h.reg _ _ (rkey_cks_watched hm ho) ?_, h.synth⟩
  simp only [List.mem_append, List.mem_singleton, faultRawKey_ne hm ho, or_false]
  intro hmem
  obtain ⟨o', ho', hk⟩ := List.mem_map.1 hmem
  have := (rkey_inj (hos o' ho') ho).1 hk
  simp only [P.CKS] at this
  omega

theorem OthersKept.trans (h : OthersKept n s u) (h' : OthersKept n u w) : OthersKept n s w :=
  ⟨h'.canon, h'.length.trans h.length, fun m hm hmn o ho => (h'.reg m hm hmn o ho).trans (h.reg m hm hmn o ho),
    fun m hmn => (h'.synth m hmn).trans (h.synth m hmn)⟩

theorem OthersKept.modSynth (hs : s.Canon) (hl : n < s.clk.length) (f : SynthState → SynthState) : OthersKept n s (s.modSynth n f) :=
  ⟨hs, length_lmod _ _ _, fun _ _ _ _ _ => rfl, fun m hm => by rw [State.synth_modSynth hl, if_neg hm]⟩

end others

/-- What a turn over the four synthesizers establishes of each one's LOCKED, REF_PRESENT and working state stands at the end, since
a turn leaves the others as they are. -/
theorem State.each_synth {f : State → Nat → State} {Φ : Bool → Bool → SynthState → Prop}
    (turn : ∀ s : State, s.Canon → s.clk.length = 4 → ∀ n < 4,
      OthersKept n s (f s n) ∧ Φ ((f s n).spLocked n) ((f s n).refPresent n) ((f s n).synth n))
    {s : State} (hs : s.Canon) (hl : s.clk.length = 4) {l : List Nat} (hl4 : ∀ n ∈ l, n < 4) {m : Nat} (hm : m < 4)
    (h : m ∈ l ∨ Φ (s.spLocked m) (s.refPresent m) (s.synth m)) :
    Φ ((s.each l f).spLocked m) ((s.each l f).refPresent m) ((s.each l f).synth m) := by
  induction l generalizing s with
  | nil => exact h.resolve_left List.not_mem_nil
  | cons n r ih =>
    obtain ⟨hothers, hn⟩ := turn s hs hl n (hl4 n (List.mem_cons_self ..))
    refine ih hothers.canon (hothers.length.trans hl) (fun k hk => hl4 k (List.mem_cons_of_mem _ hk)) ?_
    by_cases hmn : m = n
    · exact .inr (hmn ▸ hn)
    · refine h.imp (fun hmem => (List.mem_cons.1 hmem).resolve_left hmn) fun hΦ => ?_
      have hflags := (LockFlags.refl s m).congr (hothers.reg m hm hmn _ (by omega))
      rw [hflags.locked, hflags.present, hothers.synth m hmn]
      exact hΦ

/-- The clock outputs' refresh leaves the synthesizers. -/
theorem State.refreshCko_synth (s : State) {m : Nat} (hm : m < 4) : s.refreshCko.spLocked m = s.spLocked m ∧
    s.refreshCko.refPresent m = s.refPresent m ∧ s.refreshCko.synth m = s.synth m := by
  have hflags := (LockFlags.refl s m).congr (State.reg_of_watched s.refreshCko_watched (rkey_cks_watched hm (by omega)))
  exact ⟨hflags.locked, hflags.present, State.synth_congr (congrArg (·.2.2.1) s.refreshCko_watched) m⟩

/-- A turn over all four synthesizers and the refresh of the clock outputs. -/
theorem State.each_refreshCko_synth {f : State → Nat → State} {Φ : Bool → Bool → SynthState → Prop}
    (turn : ∀ s : State, s.Canon → s.clk.length = 4 → ∀ n < 4,
      OthersKept n s (f s n) ∧ Φ ((f s n).spLocked n) ((f s n).refPresent n) ((f s n).synth n))
    {s : State} (hs : s.Canon) (hl : s.clk.length = 4) {m : Nat} (hm : m < 4) :
    let u := (s.each (List.range 4) f).refreshCko
    Φ (u.spLocked m) (u.refPresent m) (u.synth m) := by
  obtain ⟨hlocked, hpresent, hsynth⟩ := State.refreshCko_synth (s.each (List.range 4) f) hm
  dsimp only
  rw [hlocked, hpresent, hsynth]
  exact State.each_synth turn hs hl (fun n hn => List.mem_range.1 hn) hm (.inl (List.mem_range.2 hm))

/-- REF_PRESENT of SPn with its event. -/
def State.refShown (s : State) (n : Nat) (present : Bool) : State :=
  (s.putB (P.CKS n) F.CKS_LOCK_STAT_REF_PRESENT present).level (P.CKS n) 2 !present

theorem State.refShown_only {s : State} (hs : s.Canon) {n : Nat} (hn : n < 4) (present : Bool) :
    OnlySynth n (cksKeys n [0x058, H.RAW, H.PEND]) s (s.refShown n present) ∧ (s.refShown n present).refPresent n = present := by
  have hmem {o : Nat} {os : List Nat} (ho : o ∈ os) : rkey (P.CKS n) o ∈ cksKeys n os := rkey_mem_cksKeys.2 ho
  have hput : OnlySynth n (cksKeys n [0x058, H.RAW, H.PEND]) s (s.putB (P.CKS n) F.CKS_LOCK_STAT_REF_PRESENT present) :=
    (OnlySynth.refl hs).putB _ _ _ _ (hmem (by decide))
  have hlevel : OnlySynth n (cksKeys n [H.RAW, H.PEND]) _ (s.refShown n present) :=
    (OnlySynth.refl hput.canon).level _ _ _ (hmem (by simp)) (hmem (by simp))
  have hflags := (LockFlags.refl _ n).congr (hlevel.cks hn (by omega) (by decide))
  exact ⟨hput.level _ _ _ (hmem (by simp)) (hmem (by simp)),
    hflags.present.trans (State.getB_putB hs.active _ _ _ _ rfl (by decide))⟩

/-- REFCLK_RETURN for one synthesizer. -/
def State.refReturned (t khz : Nat) (s : State) (n : Nat) : State :=
  let u := (s.refShown n true).modSynth n (fun y => { y with refKhz := khz })
  if u.useB (P.CKS n) F.CKS_BAND_CFG_AUTO_RELOCK ∧ !(u.synth n).resetHold ∧ u.enabled (P.CKS n) ∧ u.blockState (P.CKS n) = Y.NO_REF
  then u.lockAttempt n t else u

theorem execRefclkReturn_next (s : State) (t khz : Nat) :
    exec (.refclkReturn t khz) s = .next (((s.at t).each (List.range 4) (State.refReturned t khz)).refreshCko) := rfl

theorem State.refReturned_turn (t khz : Nat) {s : State} (hs : s.Canon) (hl : s.clk.length = 4) {n : Nat} (hn : n < 4) :
    OthersKept n s (State.refReturned t khz s n) ∧ (State.refReturned t khz s n).refPresent n = true ∧
      ((State.refReturned t khz s n).synth n).refKhz = khz := by
  obtain ⟨h₁, hpresent⟩ := State.refShown_only hs hn true
  have hl₁ : n < (s.refShown n true).clk.length := by rw [h₁.length]; omega
  unfold State.refReturned
  extract_lets u
  have hu : OthersKept n s u :=
    ((h₁.mono (List.subset_append_left _ _)).others (by decide)).trans (OthersKept.modSynth h₁.canon hl₁ _)
  have hkhz : (u.synth n).refKhz = khz := by
    unfold u
    rw [State.synth_modSynth hl₁, if_pos rfl]
  have hflag : u.refPresent n = true := ((LockFlags.refl (s.refShown n true) n).modSynth n _).present.trans hpresent
  clear_value u
  split
  · obtain ⟨h₃, hflags⟩ := State.lockAttempt_onBypass hu.canon hn (by rw [hu.length]; omega) t
    exact ⟨hu.trans ((h₃.mono (List.subset_append_left _ _)).others (by decide)), hflags.present.trans hflag, h₃.refKhz.trans hkhz⟩
  · exact ⟨hu, hflag, hkhz⟩

/-- REF_LOSS for one synthesizer. -/
def State.refLost (t : Nat) (s : State) (n : Nat) : State :=
  let p := P.CKS n
  let u := ((s.refShown n false).putB p F.CKS_LOCK_STAT_REF_MISMATCH false).level p 5 false
  let u := u.modSynth n (fun y => { y with refKhz := 0, verifying := false })
  if u.spLocked n then u.lockLoss n t 0 else ((u.setBlockState p Y.NO_REF).put p F.CKS_LOCK_STAT_PASS_RUN 0).level p 4 false

theorem execRefLoss_next (s : State) (t : Nat) :
    exec (.refLoss t) s = .next (((s.at t).each (List.range 4) (State.refLost t)).refreshCko) := rfl

theorem State.refLost_turn (t : Nat) {s : State} (hs : s.Canon) (hl : s.clk.length = 4) {n : Nat} (hn : n < 4) :
    OthersKept n s (State.refLost t s n) ∧ (State.refLost t s n).spLocked n = false ∧ (State.refLost t s n).refPresent n = false ∧
      ((State.refLost t s n).synth n).refKhz = 0 := by
  have hmem {o : Nat} {os : List Nat} (ho : o ∈ os) : rkey (P.CKS n) o ∈ cksKeys n os := rkey_mem_cksKeys.2 ho
  obtain ⟨h₁, hpresent⟩ := State.refShown_only hs hn false
  unfold State.refLost
  extract_lets p u₁ u
  have hput := h₁.putB p F.CKS_LOCK_STAT_REF_MISMATCH false 0 (hmem (by decide))
  have h₂ : OnlySynth n (cksKeys n [0x058, H.RAW, H.PEND]) s u₁ := hput.level _ _ _ (hmem (by simp)) (hmem (by simp))
  have hlevel : OnlySynth n (cksKeys n [H.RAW, H.PEND]) _ u₁ :=
    (OnlySynth.refl hput.canon).level p 5 false (hmem (by simp)) (hmem (by simp))
  have hflags := ((LockFlags.refl _ n).put h₁.canon.active F.CKS_LOCK_STAT_REF_MISMATCH _ rfl (by decide) (by decide)).congr
    (hlevel.cks hn (by omega) (by decide))
  have hflag₁ : u₁.refPresent n = false := hflags.present.trans hpresent
  have hl₁ : n < u₁.clk.length := by rw [h₂.length]; omega
  have hu : OthersKept n s u :=
    ((h₂.mono (List.subset_append_left _ _)).others (by decide)).trans (OthersKept.modSynth h₂.canon hl₁ _)
  have hkhz : (u.synth n).refKhz = 0 := by
    unfold u
    rw [State.synth_modSynth hl₁, if_pos rfl]
  have hflag : u.refPresent n = false := ((LockFlags.refl u₁ n).modSynth n _).present.trans hflag₁
  clear_value u
  split
  · have h := State.lockLoss_loses hu.canon hn (by rw [hu.length]; omega) t (c := 0) (by omega)
    exact ⟨hu.trans (h.toOnlySynth.others (by decide)), h.flags.locked, h.flags.present.trans hflag, h.refKhz.trans hkhz⟩
  · next hunlocked =>
    have h₃ : OnlySynth n (cksKeys n [H.STAT]) u (u.setBlockState p Y.NO_REF) :=
      (OnlySynth.refl hu.canon).setBlockState _ _ (hmem (by simp))
    have hrun := (h₃.mono (ks' := cksKeys n [0x058, H.RAW, H.PEND, H.STAT]) (by simp [cksKeys])).put p F.CKS_LOCK_STAT_PASS_RUN 0 0
      (hmem (by decide))
    have h₄ := hrun.level p 4 false (hmem (by simp)) (hmem (by simp))
    have hlevel := (OnlySynth.refl (n := n) (ks := cksKeys n [H.RAW, H.PEND]) hrun.canon).level p 4 false (hmem (by simp)) (hmem (by simp))
    have hflags := (((LockFlags.refl u n).congr (h₃.cks hn (by omega) (by decide))).put h₃.canon.active F.CKS_LOCK_STAT_PASS_RUN 0 rfl
      (by decide) (by decide)).congr (hlevel.cks hn (by omega) (by decide))
    exact ⟨hu.trans ((h₄.mono (List.subset_append_left _ _)).others (by decide)), hflags.locked.trans (by simpa using hunlocked),
      hflags.present.trans hflag, h₄.refKhz.trans hkhz⟩

/-! ### Lock and loss -/

/-- A field of 32 bits is its register. -/
theorem State.get_word (s : State) (p : Nat) (f : Fld) (hhi : f.hi = 31) (hlo : f.lo = 0) : s.get p f = s.reg p f.off := by
  unfold State.get bits Fld.at
  rw [hhi, hlo, Nat.mul_zero, Nat.add_zero, Nat.pow_zero, Nat.div_one]
  exact Nat.mod_eq_of_lt (s.reg_lt p _)

section lockAndLoss
variable {s : State} (hs : s.Canon) (hl : s.clk.length = 4) (t : Nat) (n : Fin 4) (count : BitVec 32)
include hs hl

/-- The clauses of O23 about windows under lock check. -/
theorem lockCheckWindows (he : s.enabled (P.CKS n) = true) (hst : s.blockState (P.CKS n) = Y.LOCK_CHECK) :
    let p := P.CKS n
    let c := count.toNat
    let run := s.get p F.CKS_LOCK_STAT_PASS_RUN
    (s.withinPpm n c 100 = true → run < 3 → ∃ u, exec (.lockWindowEnd t n count) s = .next u ∧ u.get p F.CKS_CNT_LAST = c ∧
      u.get p F.CKS_LOCK_STAT_PASS_RUN = run + 1 ∧ RegsBut [rkey p F.CKS_CNT_LAST.off, rkey p F.CKS_LOCK_STAT.off] s u ∧
      OnlyActive (s.at t) u) ∧
    (s.withinPpm n c 100 = true → run = 3 → ∃ u, exec (.lockWindowEnd t n count) s = .next u ∧ u.get p F.CKS_CNT_LAST = c ∧
      u.spLocked n = true ∧ u.onBypass n = false ∧ u.blockState p = Y.LOCKED ∧ u.reg p F.CKS_LOSS_CAUSE.off = 0) ∧
    (s.withinPpm n c 100 = false → ∃ u, exec (.lockWindowEnd t n count) s = .next u ∧ u.get p F.CKS_LOCK_STAT_PASS_RUN = 0 ∧
      u.blockState p = Y.LOCK_CHECK) := by
  intro p c run
  have hcnt := State.counted_only hs n t c
  have hwf := hcnt.canon.active
  have hexec := execLockWindowEnd_check hs he t count hst
  dsimp only at hexec
  -- The state with the count shown and the run of a window put.
  have hput (v : Nat) : OnlySynth n (cksKeys n [F.CKS_CNT_LAST.off, F.CKS_LOCK_STAT.off]) (s.at t)
      ((s.counted n t c).put p F.CKS_LOCK_STAT_PASS_RUN v) :=
    (hcnt.mono (by simp [cksKeys])).put _ _ _ _ (rkey_mem_cksKeys.2 (by decide))
  have hlast (v : Nat) : ((s.counted n t c).put p F.CKS_LOCK_STAT_PASS_RUN v).reg p F.CKS_CNT_LAST.off = c := by
    rw [State.reg_put_ne hwf _ _ _ _ _ _ (by simp [rkey, F.CKS_CNT_LAST, F.CKS_LOCK_STAT_PASS_RUN, Fld.at])]
    unfold State.counted
    rw [State.reg_setReg (State.at_canon hs t).active, if_pos rfl, Nat.mod_eq_of_lt count.isLt]
  have hrun (v : Nat) (hv : v < 8) : ((s.counted n t c).put p F.CKS_LOCK_STAT_PASS_RUN v).get p F.CKS_LOCK_STAT_PASS_RUN = v :=
    (State.get_put hwf _ _ _ _ (by decide) (by decide)).trans (Nat.mod_eq_of_lt hv)
  have hwhole (u : State) (hu : u.reg p F.CKS_CNT_LAST.off = c) : u.get p F.CKS_CNT_LAST = c :=
    (State.get_word u p _ rfl rfl).trans hu
  refine ⟨fun hgood hlt => ?_, fun hgood h3 => ?_, fun hbad => ?_⟩
  · rw [if_pos hgood, if_neg (show ¬run + 1 = 4 by omega)] at hexec
    refine ⟨_, hexec, hwhole _ (hlast _), hrun _ (show run + 1 < 8 by omega), ?_, rfl⟩
    exact (RegsBut.counted hs _ n t c (by simp [p])).trans (.setReg hwf _ _ _ (List.mem_cons_of_mem _ (List.mem_singleton.2 rfl)))
  · rw [if_pos hgood, if_pos (show run + 1 = 4 by omega)] at hexec
    have hlen : n.val < ((s.counted n t c).put p F.CKS_LOCK_STAT_PASS_RUN (run + 1)).clk.length := by
      rw [(hput _).length]
      show n.val < s.clk.length
      omega
    obtain ⟨hflags, hlocked, hcause, hkept⟩ := State.lockDeclared_locked (hput (run + 1)).canon n.isLt hlen t
    exact ⟨_, hexec, hwhole _ (hkept.trans (hlast _)), hflags.locked, hflags.bypass, hlocked, hcause⟩
  · rw [hbad, if_neg Bool.false_ne_true, if_neg (by omega)] at hexec
    exact ⟨_, hexec, hrun 0 (by decide), (State.blockState_congr ((hput 0).cks n.isLt (by decide) (by decide))).trans hst⟩

/-- The clauses of O23 about windows of a locked synthesizer. -/
theorem lockedWindows (he : s.enabled (P.CKS n) = true) (hst : s.blockState (P.CKS n) = Y.LOCKED) :
    let p := P.CKS n
    let c := count.toNat
    (s.withinPpm n c (s.use p F.CKS_LOCK_CFG_LOSS_PPM) = false → ∃ u, exec (.lockWindowEnd t n count) s = .next u ∧
      u.spLocked n = false ∧ u.onBypass n = true ∧ u.reg p F.CKS_LOSS_CAUSE.off = 2) ∧
    (s.withinPpm n c (s.use p F.CKS_LOCK_CFG_LOSS_PPM) = true → s.withinPpm n c 100 = true →
      ∃ u, exec (.lockWindowEnd t n count) s = .next u ∧ (u.synth n).deviated = false ∧ RegsBut [rkey p F.CKS_CNT_LAST.off] s u) := by
  intro p c
  have hcnt := State.counted_only hs n t c
  have hlen : n.val < (s.counted n t c).clk.length := by
    rw [hcnt.length]
    show n.val < s.clk.length
    omega
  have hexec := execLockWindowEnd_locked hs he t count hst
  dsimp only at hexec
  refine ⟨fun hbad => ?_, fun hloss hgood => ?_⟩
  · rw [if_pos (.inl (by rw [hbad]; rfl))] at hexec
    have h := State.lockLoss_loses hcnt.canon n.isLt hlen t (c := 1) (by decide)
    exact ⟨_, hexec, h.flags.locked, h.flags.bypass, h.cause⟩
  · rw [hloss, hgood, if_neg (by simp)] at hexec
    refine ⟨_, hexec, ?_, ?_⟩
    · rw [State.synth_modSynth hlen, if_pos rfl]
      rfl
    · exact (RegsBut.counted hs _ n t c (by simp [p])).trans (.of_active rfl)

/-- The clauses of O23 about PHASE_SLIP. -/
theorem phaseSlips :
    (s.spLocked n = true → ∃ u, exec (.phaseSlip t n) s = .next u ∧ u.spLocked n = false ∧ u.onBypass n = true ∧
      u.reg (P.CKS n) F.CKS_LOSS_CAUSE.off = 4 ∧ u.blockState (P.CKS n) = Y.IDLE ∧
      (n = 0 → bitOf (u.get P.SAF F.SAF_FAULT_RAW) 4 = true ∧
        (bitOf (s.get P.SAF F.SAF_FAULT_RAW) 4 = false → s.run = .ready ∨ s.run = .armed → u.run = .safe))) ∧
    (s.spLocked n = false → exec (.phaseSlip t n) s = .next (s.at t)) := by
  have hn := n.isLt
  have hc := State.at_canon hs t
  have hlen : n.val < (s.at t).clk.length := by
    show n.val < s.clk.length
    omega
  refine ⟨fun hlocked => ?_, fun hunlocked => ?_⟩
  · have hexec : exec (.phaseSlip t n) s = .next ((s.at t).lockLoss n t 2) := by
      have h : (s.at t).spLocked n = true := hlocked
      show execPhaseSlip t n s = _
      simp only [execPhaseSlip, h, if_true]
    have h := State.lockLoss_loses hc hn hlen t (c := 2) (by decide)
    refine ⟨_, hexec, h.flags.locked, h.flags.bypass, h.cause, h.state, ?_⟩
    rintro rfl
    obtain ⟨hraw, hsafe⟩ := State.lockLoss_fault hc hlen t (c := 2) (by decide)
    refine ⟨hraw, fun hclear hrun => hsafe ?_ hclear⟩
    rcases hrun with h | h <;> simp [State.started, h]
  · have h : (s.at t).spLocked n = false := hunlocked
    show execPhaseSlip t n s = _
    simp [execPhaseSlip, h]

end lockAndLoss

/-- Settles O23: a bad window and a slip are `State.lockLoss`, the fourth good window is `State.lockDeclared`, and REF_LOSS and
REFCLK_RETURN take a turn of each synthesizer that leaves the others. -/
theorem lockAndLoss : Obligations.LockAndLoss := by
  intro s t n count khz hs hl
  have hc := State.at_canon hs t
  refine ⟨fun he hst => lockCheckWindows hs hl t n count he hst, fun he hst => lockedWindows hs hl t n count he hst,
    (phaseSlips hs hl t n).1, (phaseSlips hs hl t n).2, ⟨_, execRefLoss_next s t, fun k hk => ?_⟩,
    ⟨_, execRefclkReturn_next s t khz, fun k hk => ?_⟩⟩
  · exact State.each_refreshCko_synth (Φ := fun locked present y => locked = false ∧ present = false ∧ y.refKhz = 0)
      (fun s hs hl n hn => State.refLost_turn t hs hl hn) hc hl hk
  · exact State.each_refreshCko_synth (Φ := fun _ present y => present = true ∧ y.refKhz = khz)
      (fun s hs hl n hn => State.refReturned_turn t khz hs hl hn) hc hl hk

end Sys2Proof.Machine
end

section
/-!
SUPPORT. The group delay lines (R63): the field of CKS_LOCK_STAT that shows which groups are locked, and its event.
-/
namespace Sys2Proof.Machine

/-- DLG_LOCK after one group's bit is put. -/
theorem State.bitOf_put_dlgLock {s : State} (h : s.ActiveWf) (g : Fin 8) (b : Bool) (k : Nat) :
    bitOf ((s.put (P.CKS 0) F.CKS_LOCK_STAT_DLG_LOCK (putBit (s.get (P.CKS 0) F.CKS_LOCK_STAT_DLG_LOCK) g b)).get (P.CKS 0)
      F.CKS_LOCK_STAT_DLG_LOCK) k = if k = g then b else bitOf (s.get (P.CKS 0) F.CKS_LOCK_STAT_DLG_LOCK) k := by
  have hlt : putBit (s.get (P.CKS 0) F.CKS_LOCK_STAT_DLG_LOCK) g b <
      2 ^ (F.CKS_LOCK_STAT_DLG_LOCK.hi + 1 - F.CKS_LOCK_STAT_DLG_LOCK.lo) := putBit_lt b g.isLt (bits_lt _ _ _)
  rw [State.get_put h _ _ _ _ (by decide) (by decide), Nat.mod_eq_of_lt hlt, bitOf_putBit]

/-- A level's state shows in EVT_RAW. -/
theorem State.bitOf_raw_level {s : State} (h : s.ActiveWf) (p : Nat) {b : Nat} (hb : b < 32) (v : Bool) :
    bitOf ((s.level p b v).reg p H.RAW) b = v := by
  have hset : bitOf ((s.setReg p H.RAW (putBit (s.reg p H.RAW) b v)).reg p H.RAW) b = v := by
    rw [State.reg_setReg h, if_pos rfl, Nat.mod_eq_of_lt (putBit_lt v hb (s.reg_lt p _)), bitOf_putBit, if_pos rfl]
  unfold State.level
  dsimp only
  split
  · rw [State.pulse_reg (State.setReg_wf h _ _ _) _ _ _ _ (by simp [rkey, H.RAW, H.PEND])]
    exact hset
  · exact hset

/-- The streams' gaps and the level event of the group delay lines leave CKS_LOCK_STAT. -/
theorem State.get_dlgLock_level {s u : State} (hs : s.Canon) (hk : Keeps s u) (hw : u.watched = s.watched) (v : Bool) :
    (u.level (P.CKS 0) 6 v).get (P.CKS 0) F.CKS_LOCK_STAT_DLG_LOCK = s.get (P.CKS 0) F.CKS_LOCK_STAT_DLG_LOCK := by
  have h : OnlySynth 0 (cksKeys 0 [H.RAW, H.PEND]) s (u.level (P.CKS 0) 6 v) :=
    ((OnlySynth.refl hs).quiet hk hw).level _ _ _ (rkey_mem_cksKeys.2 (by simp)) (rkey_mem_cksKeys.2 (by simp))
  exact State.get_congr (h.cks (by decide) (by decide) (by decide))

section groups
variable {s : State} (t : Nat) (g : Fin 8)

theorem execDlgLock_locked (hs : s.Canon) (hl : s.spLocked 0 = true) : ∃ u, exec (.dlgLock t g) s = .next u ∧ ∀ k,
    bitOf (u.get (P.CKS 0) F.CKS_LOCK_STAT_DLG_LOCK) k =
      if k = g then true else bitOf (s.get (P.CKS 0) F.CKS_LOCK_STAT_DLG_LOCK) k := by
  have hc : (s.at t).Canon := hs
  have hl' : (s.at t).spLocked 0 = true := hl
  show ∃ u, execDlgLock t g s = _ ∧ _
  unfold execDlgLock
  extract_lets s₁ p s₂ s₃ s₄
  rw [if_neg (by simp [s₁, hl'])]
  have hc₂ : s₂.Canon := (State.put_keeps (.refl _) _ _ _ _).canon hc
  have hk : Keeps s₂ s₄ := State.gapClose_keeps (State.gapClose_keeps (.refl _) ..) ..
  have hw : s₄.watched = s₂.watched := by simp [s₄, s₃]
  refine ⟨_, rfl, fun k => ?_⟩
  rw [State.get_dlgLock_level hc₂ hk hw]
  exact State.bitOf_put_dlgLock hc.active g true k

theorem execDlgUnlock_locked (hs : s.Canon) (hl : s.spLocked 0 = true)
    (hg : bitOf (s.get (P.CKS 0) F.CKS_LOCK_STAT_DLG_LOCK) g = true) : ∃ u, exec (.dlgUnlock t g) s = .next u ∧
    bitOf (u.reg (P.CKS 0) H.RAW) 6 = true ∧ ∀ k, bitOf (u.get (P.CKS 0) F.CKS_LOCK_STAT_DLG_LOCK) k =
      if k = g then false else bitOf (s.get (P.CKS 0) F.CKS_LOCK_STAT_DLG_LOCK) k := by
  have hc : (s.at t).Canon := hs
  have hl' : (s.at t).spLocked 0 = true := hl
  have hg' : bitOf ((s.at t).get (P.CKS 0) F.CKS_LOCK_STAT_DLG_LOCK) g = true := hg
  show ∃ u, execDlgUnlock t g s = _ ∧ _
  unfold execDlgUnlock
  extract_lets s₁ p s₂ en s₃ s₄
  rw [if_neg (by simp [s₁, p, hl', hg'])]
  have hc₂ : s₂.Canon := (State.put_keeps (.refl _) _ _ _ _).canon hc
  have hk : Keeps s₂ s₄ := State.stampGap_keeps (State.recFlag_keeps (State.gapOpen_keeps (State.each_keeps (.refl _)
    fun _ h _ => State.inband_keeps (State.marker_keeps h ..) ..) ..) _) _
  have hw : s₄.watched = s₂.watched := by simp [s₄, s₃, State.each_watched]
  refine ⟨_, rfl, State.bitOf_raw_level (hk.canon hc₂).active p (by decide) true, fun k => ?_⟩
  rw [State.get_dlgLock_level hc₂ hk hw]
  exact State.bitOf_put_dlgLock hc.active g false k

end groups

/-- Settles O24: each command puts the group's bit of DLG_LOCK, and what it does to the streams leaves the clock page. -/
theorem groupDelayLines : Obligations.GroupDelayLines := by
  intro s t g hs now
  refine ⟨fun hl => ?_, fun hl => ?_, fun hl hg => ?_, fun h => ?_⟩
  · obtain ⟨u, hu, hbits⟩ := execDlgLock_locked t g hs hl
    refine ⟨u, hu, fun k _ => (hbits k).trans ?_⟩
    by_cases hk : k = g.val <;> simp [hk, now]
  · have hl' : (s.at t).spLocked 0 = false := hl
    show execDlgLock t g s = _
    simp [execDlgLock, hl']
  · obtain ⟨u, hu, hraw, hbits⟩ := execDlgUnlock_locked t g hs hl hg
    refine ⟨u, hu, hraw, fun k _ => (hbits k).trans ?_⟩
    by_cases hk : k = g.val <;> simp [hk, now]
  · have hnot : !(s.at t).spLocked 0 ∨ !bitOf ((s.at t).get (P.CKS 0) F.CKS_LOCK_STAT_DLG_LOCK) g := by
      refine h.imp (fun hl => ?_) fun hg => ?_
      · rw [show (s.at t).spLocked 0 = false from hl]; rfl
      · rw [show bitOf ((s.at t).get (P.CKS 0) F.CKS_LOCK_STAT_DLG_LOCK) g = false from hg]; rfl
    show execDlgUnlock t g s = _
    unfold execDlgUnlock
    exact if_pos hnot

end Sys2Proof.Machine
end

section
/-!
SUPPORT. What marking a stream, sending a token and raising a fault leave alone (R95, R259, R280, R409, R446): everything but the
registers of six pages and the working state behind them.
-/
namespace Sys2Proof.Machine
variable (s : State)

/-! ### The front -/

/-- The pages that items, tokens and faults write: thinning, action outputs, streams, ports, twin and safety. -/
def backPages : List Nat := [P.ACQT, P.ACT, P.RFQ, P.FLX, P.TWN, P.SAF]

/-- Keys of the registers of the other pages. -/
def frontKey (k : Nat) : Bool := !backPages.contains (k / 0x1000)

/-- The state without what items, tokens and faults change: the registers of `backPages`, what has been sent or waits to be, both
memories, streams, record, outputs, faults, ports and the flags of intervals. -/
def State.front : State :=
  { s with
    regs := { s.regs with active := s.regs.active.filter (fun e => frontKey e.1) }
    run := .standby, msix := State.reset.msix, out := [], scratch := [], deep := [], streams := [], acq := AcqState.empty, act := []
    saf := State.reset.saf, txSeq := [], flxs := [], ivs := [] }

theorem frontKey_rkey {p o : Nat} (ho : o < 0x1000) : frontKey (rkey p o) = !backPages.contains p := by
  unfold frontKey
  rw [rkey_div ho]

theorem State.setReg_front {p o : Nat} (hp : p ∈ backPages) (ho : o < 0x1000) (v : Nat) : (s.setReg p o v).front = s.front := by
  have hk : frontKey (rkey p o) = false := by rw [frontKey_rkey ho]; simpa using hp
  simp only [State.front, State.setReg, filter_sset hk]

/-- A register of another page reads alike in states with the same front. -/
theorem State.reg_of_front {s u : State} (h : u.front = s.front) {p o : Nat} (hp : p ∉ backPages) (ho : o < 0x1000) :
    u.reg p o = s.reg p o := by
  have hf (x : State) : x.reg p o = x.front.reg p o := by
    have := sget_filter_key (d := regReset) frontKey x.regs.active (rkey p o)
    rw [if_pos (by rw [frontKey_rkey ho]; simpa using hp)] at this
    exact congrArg BitVec.toNat this.symm
  rw [hf u, hf s, h]

theorem State.loops_of_front {s u : State} (h : u.front = s.front) : u.loops = s.loops := congrArg (·.loops) h
theorem State.cas_of_front {s u : State} (h : u.front = s.front) : u.cas = s.cas := congrArg (·.cas) h
theorem State.lastGood_of_front {s u : State} (h : u.front = s.front) : u.regs.lastGood = s.regs.lastGood := congrArg (·.regs.lastGood) h

/-! ### Registers -/

@[simp] theorem State.put_front {p i : Nat} {f : Fld} (hp : p ∈ backPages) (hi : i < 64) (hf : f.off + f.stride * 63 < 0x1000)
    (v : Nat) : (s.put p f v i).front = s.front := State.setReg_front s hp (Fld.at_lt hi hf) _

@[simp] theorem State.putB_front {p i : Nat} {f : Fld} (hp : p ∈ backPages) (hi : i < 64) (hf : f.off + f.stride * 63 < 0x1000)
    (b : Bool) : (s.putB p f b i).front = s.front := State.put_front s hp hi hf _

@[simp] theorem State.sat_front {p i : Nat} {f : Fld} (hp : p ∈ backPages) (hi : i < 64) (hf : f.off + f.stride * 63 < 0x1000)
    (n : Nat) : (s.sat p f n i).front = s.front := State.put_front s hp hi hf _

@[simp] theorem State.wrap_front {p i : Nat} {f : Fld} (hp : p ∈ backPages) (hi : i < 64) (hf : f.off + f.stride * 63 < 0x1000)
    (n : Nat) : (s.wrap p f n i).front = s.front := State.put_front s hp hi hf _

@[simp] theorem State.setBlockState_front {p : Nat} (hp : p ∈ backPages) (c : Nat) : (s.setBlockState p c).front = s.front :=
  State.setReg_front s hp (by decide) _

/-! ### Events -/

@[simp] theorem State.msixSend_front (v : Nat) : (s.msixSend v).front = s.front := by
  unfold State.msixSend
  split
  · split <;> rfl
  · rfl

@[simp] theorem State.irqRequest_front (p : Nat) : (s.irqRequest p).front = s.front := by
  unfold State.irqRequest
  extract_lets
  split
  · exact State.msixSend_front s _
  · rfl

@[simp] theorem State.latch_front {p : Nat} (hp : p ∈ backPages) (b : Nat) : (s.latch p b).front = s.front := by
  have hset (v : Nat) : (s.setReg p H.PEND v).front = s.front := State.setReg_front s hp (by decide) v
  unfold State.latch
  dsimp only
  split
  · rfl
  · split
    · rw [State.irqRequest_front, hset]
    · exact hset _

@[simp] theorem State.pulse_front {p : Nat} (hp : p ∈ backPages) (b : Nat) : (s.pulse p b).front = s.front := by
  unfold State.pulse
  split
  · exact State.latch_front s hp b
  · rfl

@[simp] theorem State.level_front {p : Nat} (hp : p ∈ backPages) (b : Nat) (v : Bool) : (s.level p b v).front = s.front := by
  have hset (v : Nat) : (s.setReg p H.RAW v).front = s.front := State.setReg_front s hp (by decide) v
  unfold State.level
  dsimp only
  split
  · rw [State.pulse_front _ hp, hset]
  · exact hset _

/-! ### Working state -/

/-- The parentheses keep simp from rewriting with these by definition. -/
@[simp] theorem State.emit_front (o) : (s.emit o).front = s.front := (rfl)
@[simp] theorem State.scrWrite_front (a bs) : (s.scrWrite a bs).front = s.front := (rfl)
@[simp] theorem State.dmWrite_front (a bs) : (s.dmWrite a bs).front = s.front := (rfl)
@[simp] theorem State.modStream_front (i f) : (s.modStream i f).front = s.front := (rfl)
@[simp] theorem State.modAcq_front (f) : (s.modAcq f).front = s.front := (rfl)
@[simp] theorem State.modFlx_front (p f) : (s.modFlx p f).front = s.front := (rfl)
@[simp] theorem State.modAct_front (n f) : (s.modAct n f).front = s.front := (rfl)
@[simp] theorem State.modSaf_front (f) : (s.modSaf f).front = s.front := (rfl)
@[simp] theorem State.bumpSeq_front (type) : (s.bumpSeq type).front = s.front := (rfl)

@[simp] theorem State.front_ite (c : Prop) [Decidable c] (x y : State) :
    (if c then x else y).front = if c then x.front else y.front := apply_ite ..

theorem State.each_front {α : Type} {l : List α} {f : State → α → State} (h : ∀ s, ∀ x ∈ l, (f s x).front = s.front) :
    (s.each l f).front = s.front := by
  induction l generalizing s with
  | nil => rfl
  | cons x r ih => exact (ih (f s x) fun s y hy => h s y (List.mem_cons_of_mem _ hy)).trans (h s x (List.mem_cons_self ..))

/-! ### Streams -/

@[simp] theorem State.refreshRfq_front {sid : Nat} (h : sid < 22) : (s.refreshRfq sid).front = s.front := by
  have h64 : sid < 64 := by omega
  simp +decide [State.refreshRfq, h64]

@[simp] theorem State.setStall_front (sid : Nat) (b : Bool) : (s.setStall sid b).front = s.front := by simp +decide [State.setStall]

@[simp] theorem State.ringWrite_front (sid : Nat) (c : Chunk) : (s.ringWrite sid c).1.front = s.front := by
  dsimp only [State.ringWrite]
  split <;> simp [State.each_front]

@[simp] theorem State.closeChunk_front {sid : Nat} (h : sid < 22) (flags : Nat) : (s.closeChunk sid flags).front = s.front := by
  have h64 : sid < 64 := by omega
  dsimp only [State.closeChunk]
  split
  · rfl
  · simp +decide [h, h64]

@[simp] theorem State.openChunk_front (sid slot : Nat) : (s.openChunk sid slot).front = s.front := by simp [State.openChunk]

@[simp] theorem State.note_front (kind slot unit : Nat) (val : Int) (extra : Nat) :
    (s.note kind slot unit val extra).front = s.front := by
  unfold State.note
  split <;> rfl

@[simp] theorem State.stageItem_front {sid : Nat} (h : sid < 22) (it : Item) : (s.stageItem sid it).front = s.front := by
  have h64 : sid - 8 < 64 := by omega
  simp +decide [State.stageItem, h, h64]

@[simp] theorem State.appendRaw_front {sid : Nat} (h : sid < 22) (it : Item) : (s.appendRaw sid it).front = s.front := by
  dsimp only [State.appendRaw]
  (repeat' split) <;> simp [h]

@[simp] theorem State.recFlag_front (b : Nat) : (s.recFlag b).front = s.front := by simp [State.recFlag]

/-! ### Tokens -/

@[simp] theorem State.sendPort_front (p : Port) (k : Token) : (s.sendPort p k).front = s.front := by
  have hp : p.idx < 64 := by cases p <;> decide
  simp +decide [State.sendPort, State.putToken, State.sendFlit, hp]

@[simp] theorem State.broadcast_front (type low w1 w2 w3 : Nat) : (s.broadcast type low w1 w2 w3).front = s.front := by
  simp [State.broadcast, State.sendRing]

@[simp] theorem State.sendSeam_front (kind low w1 w2 w3 : Nat) : (s.sendSeam kind low w1 w2 w3).front = s.front := by
  simp [State.sendSeam, State.sendTwin]

@[simp] theorem State.relay_front (p : Port) (k : Token) : (s.relay p k).front = s.front := by simp [State.relay]

/-! ### Faults -/

@[simp] theorem State.driveLands_front (slot : Nat) : (s.driveLands slot).front = s.front := State.each_front s fun _ _ _ => by simp

@[simp] theorem State.actState_front : s.actState.front = s.front := by simp +decide [State.actState]

@[simp] theorem State.endActivity_front (mask slot : Nat) : (s.endActivity mask slot).front = s.front :=
  State.each_front s fun _ _ _ => by simp +decide [State.setActive]

@[simp] theorem State.goAlone_front : s.goAlone.front = s.front := by
  have hthin (u : State) : (u.each (List.range 10) (fun s i => s.putB P.ACQT F.ACQ_THIN_STAT_FROM_TWIN false i)).front = u.front :=
    State.each_front u fun _ i hi => State.putB_front _ (by decide) (by have := List.mem_range.1 hi; omega) (by decide) _
  simp +decide [State.goAlone, State.setTwin, hthin]

@[simp] theorem State.tailMarker_front (sid code subject slot : Nat) (params : List Nat) :
    (s.tailMarker sid code subject slot params).front = s.front := by
  simp [State.tailMarker]

@[simp] theorem State.safeEntry_front (first : Nat) : (s.safeEntry first).front = s.front := by
  simp +decide [State.safeEntry, State.each_front]
  rfl

@[simp] theorem State.raiseFault_front (f : Nat) : (s.raiseFault f).front = s.front := by
  have hfirst (u : State) (v : Nat) : (u.setReg P.SAF F.SAF_FIRST.off v).front = u.front :=
    State.setReg_front u (by decide) (by decide) v
  simp +decide [State.raiseFault, hfirst]

@[simp] theorem State.faultLevel_front (f : Nat) (b : Bool) : (s.faultLevel f b).front = s.front := by
  simp +decide [State.faultLevel]

/-! ### Items, markers and angle map entries -/

@[simp] theorem State.appendItem_front {sid : Nat} (h : sid < 22) (it : Item) : (s.appendItem sid it).front = s.front := by
  simp [State.appendItem, h]

@[simp] theorem State.marker_front (code subject slot : Nat) (params : List Nat) (ply : Option Nat) :
    (s.marker code subject slot params ply).front = s.front := by
  simp [State.marker]

@[simp] theorem State.ivFlagLoop_front (n b : Nat) : (s.ivFlagLoop n b).front = s.front := State.each_front s fun _ _ _ => rfl

@[simp] theorem State.mapEntry_front (n kind tok at_ : Nat) (delta : Int) : (s.mapEntry n kind tok at_ delta).front = s.front := by
  simp [State.mapEntry]

end Sys2Proof.Machine
end

section
/-!
SUPPORT. One angle loop at a time (R70, R71, R96): what an operation on a loop shows in its page and in its working state, and that the
other loops and every other register of the front stay as they are.
-/
namespace Sys2Proof.Machine

/-! ### The working state of a loop -/

theorem State.loop_modLoop {s : State} {n : Nat} (hn : n < s.loops.length) (f : LoopState → LoopState) (m : Nat) :
    (s.modLoop n f).loop m = if m = n then f (s.loop n) else s.loop m := getD_lmod s.loops n m f _ hn

theorem State.loop_modLoop_self {s : State} {n : Nat} (hn : n < s.loops.length) (f : LoopState → LoopState) :
    (s.modLoop n f).loop n = f (s.loop n) := by
  rw [State.loop_modLoop hn, if_pos rfl]

theorem State.loop_congr {s u : State} (h : u.loops = s.loops) (m : Nat) : u.loop m = s.loop m := by
  unfold State.loop
  rw [h]

/-- From its own start on a new piece of the angle log is in force. -/
theorem LoopState.segAt_setSeg (l : LoopState) (a phase rate : Nat) :
    segAt (l.setSeg a phase rate).segs a = { slot := a, phase := phase, rate := rate } := by
  unfold LoopState.setSeg segsKept
  rw [List.take_succ_cons]
  cases (l.segs.filter (fun g => decide (g.slot < a))).take 255 with
  | nil => rfl
  | cons g r => exact if_pos (Nat.le_refl a)

@[simp] theorem LoopState.phaseAt_setSeg (l : LoopState) (a phase rate : Nat) : (l.setSeg a phase rate).phaseAt a = phase := by
  simp [LoopState.phaseAt, LoopState.segAt_setSeg, Seg.phaseAt]

@[simp] theorem LoopState.rateAt_setSeg (l : LoopState) (a phase rate : Nat) : (l.setSeg a phase rate).rateAt a = rate := by
  simp [LoopState.rateAt, LoopState.segAt_setSeg]

/-- Angle and rate rest on the log alone. -/
theorem LoopState.phaseAt_congr {l k : LoopState} (h : l.segs = k.segs) (t : Nat) : l.phaseAt t = k.phaseAt t := by
  unfold LoopState.phaseAt
  rw [h]

theorem LoopState.rateAt_congr {l k : LoopState} (h : l.segs = k.segs) (t : Nat) : l.rateAt t = k.rateAt t := by
  unfold LoopState.rateAt
  rw [h]

/-- The angle is continuous where the rate changes. -/
@[simp] theorem LoopState.phaseAt_setRate (l : LoopState) (a rate : Nat) : (l.setRate a rate).phaseAt a = l.phaseAt a :=
  LoopState.phaseAt_setSeg ..

@[simp] theorem LoopState.rateAt_setRate (l : LoopState) (a rate : Nat) : (l.setRate a rate).rateAt a = rate := LoopState.rateAt_setSeg ..

/-! ### What one loop's operation leaves alone -/

/-- Of the front's registers only those of the keys `ks` may differ, and of the loops' working state only that of loop `n`, of which
`view` is as before. -/
structure OnlyLoop (n : Nat) (ks : List Nat) {β : Type} (view : LoopState → β) (s u : State) : Prop where
  canon : u.Canon
  length : u.loops.length = s.loops.length
  reg : ∀ p o, p ∉ backPages → o < 0x1000 → rkey p o ∉ ks → u.reg p o = s.reg p o
  lastGood : u.regs.lastGood = s.regs.lastGood
  others : ∀ m, m ≠ n → u.loop m = s.loop m
  own : view (u.loop n) = view (s.loop n)

section steps
variable {n : Nat} {ks : List Nat} {β : Type} {view : LoopState → β} {s u w : State}

theorem OnlyLoop.refl (hs : s.Canon) : OnlyLoop n ks view s s := ⟨hs, rfl, fun _ _ _ _ _ => rfl, rfl, fun _ _ => rfl, rfl⟩

theorem OnlyLoop.trans (h : OnlyLoop n ks view s u) (h' : OnlyLoop n ks view u w) : OnlyLoop n ks view s w :=
  ⟨h'.canon, h'.length.trans h.length, fun p o hp ho hk => (h'.reg p o hp ho hk).trans (h.reg p o hp ho hk),
    h'.lastGood.trans h.lastGood, fun m hm => (h'.others m hm).trans (h.others m hm), h'.own.trans h.own⟩

theorem OnlyLoop.mono {ks' : List Nat} (h : OnlyLoop n ks view s u) (hk : ks ⊆ ks') : OnlyLoop n ks' view s u :=
  { h with reg := fun p o hp ho hn => h.reg p o hp ho (fun hm => hn (hk hm)) }

/-- An operation that leaves the front. -/
theorem OnlyLoop.quiet (h : OnlyLoop n ks view s u) (hk : Keeps u w) (hf : w.front = u.front) : OnlyLoop n ks view s w := by
  have hloops := State.loops_of_front hf
  exact h.trans ⟨hk.canon h.canon, congrArg List.length hloops, fun _ _ hp ho _ => State.reg_of_front hf hp ho,
    State.lastGood_of_front hf, fun m _ => State.loop_congr hloops m, by rw [State.loop_congr hloops]⟩

theorem OnlyLoop.setReg (h : OnlyLoop n ks view s u) (p o v : Nat) (hk : rkey p o ∈ ks) : OnlyLoop n ks view s (u.setReg p o v) :=
  h.trans ⟨(State.setReg_keeps (.refl u) p o v).canon h.canon, rfl,
    fun q i _ _ hn => by rw [State.reg_setReg h.canon.active, if_neg (fun e => hn (by rw [e]; exact hk))], rfl, fun _ _ => rfl, rfl⟩

theorem OnlyLoop.modLoop (h : OnlyLoop n ks view s u) (hn : n < u.loops.length) {f : LoopState → LoopState}
    (hf : ∀ l, view (f l) = view l) : OnlyLoop n ks view s (u.modLoop n f) :=
  h.trans ⟨h.canon, length_lmod _ _ _, fun _ _ _ _ _ => rfl, rfl, fun m hm => by rw [State.loop_modLoop hn, if_neg hm],
    by rw [State.loop_modLoop_self hn, hf]⟩

theorem OnlyLoop.ite {c : Prop} [Decidable c] (h : OnlyLoop n ks view s u) (h' : OnlyLoop n ks view s w) :
    OnlyLoop n ks view s (if c then u else w) := by
  split <;> assumption

theorem OnlyLoop.mapEntry (h : OnlyLoop n ks view s u) (m kind tok at_ : Nat) (d : Int) :
    OnlyLoop n ks view s (u.mapEntry m kind tok at_ d) :=
  h.quiet (State.mapEntry_keeps (.refl _) ..) (State.mapEntry_front ..)

end steps

/-! ### The page of a loop -/

/-- The keys of the registers of LTLn at the offsets listed. -/
def ltlKeys (n : Nat) (os : List Nat) : List Nat := os.map (rkey (P.LTL n))

theorem rkey_mem_ltlKeys {n o : Nat} {os : List Nat} : rkey (P.LTL n) o ∈ ltlKeys n os ↔ o ∈ os := by
  simp [ltlKeys, rkey]

theorem ltl_notMem_backPages {n : Nat} (hn : n < 4) : P.LTL n ∉ backPages := by
  unfold backPages P.LTL P.ACQT P.ACT P.RFQ P.FLX P.TWN P.SAF
  simp
  omega

section page
variable {n : Nat} {os : List Nat} {β : Type} {view : LoopState → β} {s u w : State}

/-- A register of LTLn that an operation leaves. -/
theorem OnlyLoop.ltl (h : OnlyLoop n (ltlKeys n os) view s u) (hn : n < 4) {o : Nat} (ho : o < 0x1000) (hos : o ∉ os) :
    u.reg (P.LTL n) o = s.reg (P.LTL n) o :=
  h.reg _ _ (ltl_notMem_backPages hn) ho (fun hm => hos (rkey_mem_ltlKeys.1 hm))

/-- A field of LTLn that an operation leaves. -/
theorem OnlyLoop.get (h : OnlyLoop n (ltlKeys n os) view s u) (hn : n < 4) (f : Fld) (ho : f.at 0 < 0x1000) (hos : f.at 0 ∉ os) :
    u.get (P.LTL n) f = s.get (P.LTL n) f :=
  State.get_congr (h.ltl hn ho hos)

theorem OnlyLoop.getB (h : OnlyLoop n (ltlKeys n os) view s u) (hn : n < 4) (f : Fld) (ho : f.at 0 < 0x1000) (hos : f.at 0 ∉ os) :
    u.getB (P.LTL n) f = s.getB (P.LTL n) f := by
  unfold State.getB
  rw [h.get hn f ho hos]

/-- A setting of LTLn that an operation leaves. -/
theorem OnlyLoop.useB (h : OnlyLoop n (ltlKeys n os) view s u) (hn : n < 4) (f : Fld) (ho : f.at 0 < 0x1000) (hos : f.at 0 ∉ os) :
    u.useB (P.LTL n) f = s.useB (P.LTL n) f := by
  unfold State.useB
  rw [State.use_congr h.lastGood (h.ltl hn ho hos)]

theorem OnlyLoop.put (h : OnlyLoop n (ltlKeys n os) view s u) (f : Fld) (v : Nat) (hf : f.at 0 ∈ os) :
    OnlyLoop n (ltlKeys n os) view s (u.put (P.LTL n) f v) := h.setReg _ _ _ (rkey_mem_ltlKeys.2 hf)

theorem OnlyLoop.putB (h : OnlyLoop n (ltlKeys n os) view s u) (f : Fld) (b : Bool) (hf : f.at 0 ∈ os) :
    OnlyLoop n (ltlKeys n os) view s (u.putB (P.LTL n) f b) := h.put f _ hf

theorem OnlyLoop.sat (h : OnlyLoop n (ltlKeys n os) view s u) (f : Fld) (hf : f.at 0 ∈ os) :
    OnlyLoop n (ltlKeys n os) view s (u.sat (P.LTL n) f) := h.put f _ hf

theorem OnlyLoop.pulse (h : OnlyLoop n (ltlKeys n os) view s u) (b : Nat) (hp : H.PEND ∈ os) :
    OnlyLoop n (ltlKeys n os) view s (u.pulse (P.LTL n) b) :=
  have hloops : (u.pulse (P.LTL n) b).loops = u.loops := by simp
  h.trans ⟨(State.pulse_keeps (.refl u) _ b).canon h.canon, congrArg List.length hloops,
    fun q i _ _ hk => State.pulse_reg h.canon.active _ b q i (fun e => hk (by rw [e]; exact rkey_mem_ltlKeys.2 hp)),
    u.pulse_lastGood _ b, fun m _ => State.loop_congr hloops m, by rw [State.loop_congr hloops]⟩

theorem OnlyLoop.level (h : OnlyLoop n (ltlKeys n os) view s u) (b : Nat) (v : Bool) (hp : H.PEND ∈ os) (hr : H.RAW ∈ os) :
    OnlyLoop n (ltlKeys n os) view s (u.level (P.LTL n) b v) := by
  have h' := h.setReg (P.LTL n) H.RAW (putBit (u.reg (P.LTL n) H.RAW) b v) (rkey_mem_ltlKeys.2 hr)
  unfold State.level
  dsimp only
  split
  · exact h'.pulse b hp
  · exact h'

end page

/-! ### Entering a state -/

/-- Whether a loop in a state coasts. -/
def coasts (st : Nat) : Bool := st == L.COAST || st == L.RETURN

/-- What PAGE_STAT.STATE and the top two bits of LTL_STAT show of a loop. -/
structure LoopShows (s : State) (n st : Nat) (coasting ran : Bool) : Prop where
  state : s.loopState n = st
  coasting : s.coasting n = coasting
  ran : s.loopRan n = ran

section shows
variable {s u : State} {n st : Nat} {coasting ran : Bool}

theorem LoopShows.congr (h : LoopShows s n st coasting ran) (hstat : u.reg (P.LTL n) H.STAT = s.reg (P.LTL n) H.STAT)
    (hflags : u.reg (P.LTL n) F.LTL_STAT.off = s.reg (P.LTL n) F.LTL_STAT.off) : LoopShows u n st coasting ran := by
  have hget (f : Fld) (hf : f.at 0 = F.LTL_STAT.off) : u.getB (P.LTL n) f = s.getB (P.LTL n) f := by
    have hreg : u.reg (P.LTL n) (f.at 0) = s.reg (P.LTL n) (f.at 0) := by rw [hf]; exact hflags
    unfold State.getB
    rw [State.get_congr hreg]
  exact ⟨(State.blockState_congr hstat).trans h.state, (hget _ rfl).trans h.coasting, (hget _ rfl).trans h.ran⟩

/-- An operation that leaves both registers. -/
theorem LoopShows.only {os : List Nat} {β : Type} {view : LoopState → β} (h : LoopShows s n st coasting ran) (hn : n < 4)
    (h' : OnlyLoop n (ltlKeys n os) view s u) (hstat : H.STAT ∉ os) (hflags : F.LTL_STAT.off ∉ os) : LoopShows u n st coasting ran :=
  h.congr (h'.ltl hn (by decide) hstat) (h'.ltl hn (by decide) hflags)

/-- A field of LTL_STAT below the two bits. -/
theorem LoopShows.put (h : LoopShows s n st coasting ran) (hs : s.ActiveWf) (f : Fld) (v : Nat) (hf : f.at 0 = F.LTL_STAT.off)
    (hlo : f.lo ≤ f.hi) (hhi : f.hi < 8) : LoopShows (s.put (P.LTL n) f v) n st coasting ran := by
  have hget (g : Fld) (hg : g.at 0 = F.LTL_STAT.off) (hd : 8 ≤ g.lo) : (s.put (P.LTL n) f v).getB (P.LTL n) g = s.getB (P.LTL n) g := by
    unfold State.getB
    rw [State.get_put_field hs _ _ _ _ _ _ (hg.trans hf.symm) hlo (by omega) (.inr (by omega))]
  have hstat : (s.put (P.LTL n) f v).reg (P.LTL n) H.STAT = s.reg (P.LTL n) H.STAT :=
    State.reg_put_ne hs _ _ _ _ _ _ (by rw [hf]; simp [rkey, F.LTL_STAT])
  exact ⟨(State.blockState_congr hstat).trans h.state, (hget _ rfl (by decide)).trans h.coasting, (hget _ rfl (by decide)).trans h.ran⟩

theorem LoopShows.ite {c : Prop} [Decidable c] (h : LoopShows s n st coasting ran) (h' : LoopShows u n st coasting ran) :
    LoopShows (if c then s else u) n st coasting ran := by
  split <;> assumption

end shows

/-- The registers of LTLn that a state entered writes. -/
def stateKeys (n : Nat) : List Nat := ltlKeys n [H.STAT, F.LTL_STAT.off, H.RAW, H.PEND]

/-- The operation takes loop `n` to a state, as its page shows; RAN stays. -/
structure Enters (n st : Nat) {β : Type} (view : LoopState → β) (s u : State) : Prop extends OnlyLoop n (stateKeys n) view s u where
  shows : LoopShows u n st (coasts st) (s.loopRan n)

section enters
variable {n st : Nat} {β : Type} {view : LoopState → β} {s u w : State}

theorem Enters.step {os : List Nat} (hn : n < 4) (h : Enters n st view s u) (h' : OnlyLoop n (ltlKeys n os) view u w)
    (hos : os ⊆ [H.RAW, H.PEND]) : Enters n st view s w :=
  ⟨h.toOnlyLoop.trans (h'.mono (List.map_subset _ (List.Subset.trans hos (by simp)))),
    h.shows.only hn h' (fun hm => absurd (hos hm) (by decide)) (fun hm => absurd (hos hm) (by decide))⟩

theorem Enters.level (hn : n < 4) (h : Enters n st view s u) (b : Nat) (v : Bool) : Enters n st view s (u.level (P.LTL n) b v) :=
  h.step hn ((OnlyLoop.refl h.canon).level b v (by simp) (by simp)) (List.Subset.refl _)

/-- A field of LTL_STAT below COASTING and RAN. -/
theorem Enters.put (h : Enters n st view s u) (f : Fld) (v : Nat) (hf : f.at 0 = F.LTL_STAT.off) (hlo : f.lo ≤ f.hi)
    (hhi : f.hi < 8) : Enters n st view s (u.put (P.LTL n) f v) :=
  ⟨h.toOnlyLoop.put f v (by simp [hf]), h.shows.put h.canon.active f _ hf hlo hhi⟩

theorem Enters.putB (h : Enters n st view s u) (f : Fld) (b : Bool) (hf : f.at 0 = F.LTL_STAT.off) (hlo : f.lo ≤ f.hi)
    (hhi : f.hi < 8) : Enters n st view s (u.putB (P.LTL n) f b) := h.put f _ hf hlo hhi

theorem Enters.ite {c : Prop} [Decidable c] (h : c → Enters n st view s u) (h' : ¬c → Enters n st view s w) :
    Enters n st view s (if c then u else w) := by
  split
  · exact h ‹_›
  · exact h' ‹_›

end enters

/-- COASTING put after PAGE_STAT.STATE. -/
theorem State.setBlockState_putB_enters {s : State} (hs : s.Canon) {n st : Nat} (hst : st < 16) {β : Type} {view : LoopState → β} :
    Enters n st view s ((s.setBlockState (P.LTL n) st).putB (P.LTL n) F.LTL_STAT_COASTING (coasts st)) := by
  have h₁ : OnlyLoop n (stateKeys n) view s (s.setBlockState (P.LTL n) st) :=
    (OnlyLoop.refl hs).setReg _ _ _ (rkey_mem_ltlKeys.2 (by simp))
  refine ⟨h₁.putB _ _ (by decide), ?_, State.getB_putB h₁.canon.active _ _ _ _ rfl (by decide), ?_⟩
  · refine (State.blockState_congr ?_).trans (State.blockState_setBlockState hs.active _ hst)
    exact State.reg_put_ne h₁.canon.active _ _ _ _ _ _ (by simp [rkey, Fld.at, F.LTL_STAT_COASTING])
  · refine (State.getB_putB_field h₁.canon.active _ F.LTL_STAT_COASTING F.LTL_STAT_RAN _ rfl rfl (by decide) (by decide)).trans
      (congrArg (· == 1) (State.get_congr ?_))
    exact (State.reg_setReg hs.active _ _ _ _ _).trans (if_neg (by simp [rkey, Fld.at, F.LTL_STAT_RAN]))

/-- A state entered writes PAGE_STAT, LTL_STAT and the events; of the working state it ends a coast's start unless the loop coasts. -/
theorem State.setLoopState_enters {s : State} (hs : s.Canon) {n st : Nat} (hn : n < 4) (hl : n < s.loops.length) (hst : st < 16)
    {β : Type} {view : LoopState → β} (hv : coasts st = true ∨ ∀ l, view { l with coastFrom := none } = view l) :
    Enters n st view s (s.setLoopState n st) := by
  unfold State.setLoopState
  extract_lets p s₁ coasting s₂ s₃ s₄ s₅
  have h₂ : Enters n st view s s₂ :=
    (State.setBlockState_putB_enters hs hst).putB F.LTL_STAT_LOCKED _ rfl (by decide) (by decide)
  have h₃ : Enters n st view s s₃ := .ite (fun _ => h₂) fun hc =>
    have hm := (OnlyLoop.refl (ks := ltlKeys n []) h₂.canon).modLoop (by rw [h₂.length]; exact hl) (hv.resolve_left hc)
    ((h₂.step hn hm (List.nil_subset _)).putB F.LTL_STAT_COAST_LONG false rfl (by decide) (by decide)).level hn 3 false
  exact ((h₃.level hn _ _).level hn _ _).level hn _ _

end Sys2Proof.Machine
end

section
/-!
SUPPORT. Reference events of a running loop (R74, R79, R80): the valid event's update of F_INT, and the event rejected. Divisions of the
update law and the phase error round toward minus infinity, as log entry 10 reads them.
-/
namespace Sys2Proof.Machine

/-! ### Counted events -/

/-- A 32-bit counter counts one and stops at its maximum; the pulse event that goes with it leaves it. -/
theorem State.get_sat_pulse {s : State} (h : s.ActiveWf) (p : Nat) {f : Fld} (b : Nat) (hlo : f.lo = 0) (hhi : f.hi = 31)
    (hpend : rkey p (f.at 0) ≠ rkey p H.PEND) :
    ((s.sat p f).pulse p b).get p f = Nat.min (s.get p f + 1) (2 ^ 32 - 1) := by
  have hwf : (s.sat p f).ActiveWf := State.put_wf h _ _ _ _
  rw [State.get_congr (State.pulse_reg hwf p b p _ hpend), State.get_sat h p f 1 0 (by omega) (by omega), hlo, hhi]
  unfold satU
  simp only [Nat.min_def]
  split <;> split <;> omega

/-- A counted event writes its counter and EVT_PEND. -/
theorem RegsBut.sat_pulse {s : State} (h : s.ActiveWf) (p : Nat) (f : Fld) (b : Nat) :
    RegsBut [rkey p (f.at 0), rkey p H.PEND] s ((s.sat p f).pulse p b) :=
  (RegsBut.setReg h p _ _ (by simp)).trans
    fun q o hk => State.pulse_reg (State.put_wf h _ _ _ _) p b q o (fun e => hk (by simp [e]))

/-- An event rejected is counted, and the loops stay (R79). -/
theorem State.rejectEvent_counts {s : State} (h : s.ActiveWf) (n : Nat) : (s.rejectEvent n).loops = s.loops ∧
    (s.rejectEvent n).get (P.LTL n) F.LTL_REJECT_CNT = Nat.min (s.get (P.LTL n) F.LTL_REJECT_CNT + 1) (2 ^ 32 - 1) ∧
    RegsBut [rkey (P.LTL n) F.LTL_REJECT_CNT.off, rkey (P.LTL n) H.PEND] s (s.rejectEvent n) :=
  ⟨by simp [State.rejectEvent], State.get_sat_pulse h _ _ rfl rfl (by simp [rkey, Fld.at, F.LTL_REJECT_CNT]),
    RegsBut.sat_pulse h (P.LTL n) F.LTL_REJECT_CNT 9⟩

/-! ### The valid event -/

/-- What a reference event sets of a loop. -/
def LoopState.timing (l : LoopState) : Nat × Option Nat × Option (Nat × Bool) := (l.fInt, l.lastEvent, l.crossing)

/-- A valid update up to the new rate: F_INT, the latest event and the phase error shown. -/
def State.eventTaken (s : State) (n t : Nat) (e : Int) (f : Nat) : State :=
  (s.modLoop n (fun l => { l with
    fInt := f, lastEvent := some t, lossBase := t,
    refSlot := t, refPhase := (l.phaseAt t : Int) + e * 2 ^ 32 })).put (P.LTL n) F.LTL_PHASE_ERR (unsx 24 e)

/-- The rest of a valid update, from the state the loop was in and its run of passes: whether it is locked (R82). -/
def State.lockJudged (s : State) (n st passRun : Nat) (e : Int) : State :=
  let p := P.LTL n
  if e.natAbs ≤ s.use p F.LTL_LOCK_CFG_LOCK_TOL then
    let run := passRun + 1
    let s := (s.modLoop n (fun l => { l with passRun := run })).put p F.LTL_STAT_PASS_RUN (Nat.min run 7)
    let s := if st = L.SLEW then s.setLoopState n L.TRACK else s
    if s.loopState n = L.TRACK ∧ Nat.max 1 (s.use p F.LTL_LOCK_CFG_LOCK_COUNT) ≤ run then
      ((s.sat p F.LTL_LOCK_CNT).putB p F.LTL_STAT_EVER_LOCKED true).setLoopState n L.LOCKED
    else s
  else
    let s := (s.modLoop n (fun l => { l with passRun := 0 })).put p F.LTL_STAT_PASS_RUN 0
    if st = L.LOCKED then s.setLoopState n L.TRACK else s

/-- The update law at a phase error, from the loop's F_INT, gains and latest event (R80). -/
def State.lawAt (s : State) (n t : Nat) (e : Int) : Nat × Nat :=
  updateLaw (s.loop n).fInt e (t - (s.loop n).lastEvent.getD 0) (s.use (P.LTL n) F.LTL_GAIN_KI_SHIFT)
    (s.use (P.LTL n) F.LTL_GAIN_KP_SHIFT) (if s.loopState n = L.SLEW then 20 else s.use (P.LTL n) F.LTL_GAIN_DEV_CAP)

theorem State.loopUpdate_eq (s : State) (n t : Nat) (e : Int) : s.loopUpdate n t e =
    ((s.eventTaken n t e (s.lawAt n t e).1).setLoopRate n (nextPly t) (s.lawAt n t e).2).lockJudged n (s.loopState n)
      (s.loop n).passRun e := rfl

section update
variable {s : State} (hs : s.Canon) {n : Nat} (hl : n < s.loops.length)
include hs hl

/-- A rate set writes a piece of the angle log and a map entry. -/
theorem State.setLoopRate_only {ks : List Nat} {β : Type} {view : LoopState → β} (a rate : Nat)
    (hv : ∀ l, view (l.setRate a rate) = view l) : OnlyLoop n ks view s (s.setLoopRate n a rate) :=
  .ite (.refl hs) (((OnlyLoop.refl hs).modLoop hl hv).mapEntry ..)

/-- The judgement of lock writes PASS_RUN, the loop's state and the count of locks. -/
theorem State.lockJudged_only (hn : n < 4) (st passRun : Nat) (e : Int) :
    OnlyLoop n (ltlKeys n [H.STAT, F.LTL_STAT.off, H.RAW, H.PEND, F.LTL_LOCK_CNT.off]) LoopState.timing s
      (s.lockJudged n st passRun e) := by
  have hrun (r v : Nat) : OnlyLoop n (ltlKeys n [H.STAT, F.LTL_STAT.off, H.RAW, H.PEND, F.LTL_LOCK_CNT.off]) LoopState.timing s
      ((s.modLoop n (fun l => { l with passRun := r })).put (P.LTL n) F.LTL_STAT_PASS_RUN v) :=
    ((OnlyLoop.refl hs).modLoop hl (by intro; rfl)).put _ _ (by decide)
  have henter {u : State} (h : OnlyLoop n (ltlKeys n [H.STAT, F.LTL_STAT.off, H.RAW, H.PEND, F.LTL_LOCK_CNT.off]) LoopState.timing s u)
      {x : Nat} (hx : x < 16) := h.trans ((State.setLoopState_enters h.canon hn (by rw [h.length]; exact hl) hx (.inr fun _ => rfl)).mono
        (List.map_subset _ (by simp)))
  unfold State.lockJudged
  extract_lets p run s₁ s₂ s₃
  have h₂ : OnlyLoop n (ltlKeys n [H.STAT, F.LTL_STAT.off, H.RAW, H.PEND, F.LTL_LOCK_CNT.off]) LoopState.timing s s₂ :=
    .ite (henter (hrun _ _) (by decide)) (hrun _ _)
  refine .ite (.ite (henter ?_ (by decide)) h₂) (.ite (henter (hrun _ _) (by decide)) (hrun _ _))
  exact (h₂.sat _ (by decide)).putB _ _ (by decide)

/-- A valid update sets F_INT by the update law and shows the phase error; the event is the latest valid one. -/
theorem State.loopUpdate_sets (hn : n < 4) (t : Nat) (e : Int) :
    ((s.loopUpdate n t e).loop n).timing = ((s.lawAt n t e).1, some t, (s.loop n).crossing) ∧
      (∀ m, m ≠ n → (s.loopUpdate n t e).loop m = s.loop m) ∧ (s.loopUpdate n t e).get (P.LTL n) F.LTL_PHASE_ERR = unsx 24 e := by
  have hlt : unsx 24 e < 2 ^ 24 := by unfold unsx; omega
  rw [State.loopUpdate_eq]
  generalize s.lawAt n t e = law
  generalize hx : s.eventTaken n t e law.1 = x
  have htaken : OnlyLoop n (ltlKeys n [F.LTL_PHASE_ERR.off]) (fun _ => ()) s x := by
    rw [← hx]
    exact ((OnlyLoop.refl hs).modLoop hl (by intro; rfl)).put _ _ (by decide)
  have hown : (x.loop n).timing = (law.1, some t, (s.loop n).crossing) := by
    rw [← hx]
    exact congrArg LoopState.timing (State.loop_modLoop_self hl _)
  have herr : x.get (P.LTL n) F.LTL_PHASE_ERR = unsx 24 e := by
    rw [← hx]
    exact (State.get_put (s := s.modLoop n _) hs.active _ _ _ _ (by decide) (by decide)).trans (Nat.mod_eq_of_lt hlt)
  have hrate : OnlyLoop n (ltlKeys n []) LoopState.timing x (x.setLoopRate n (nextPly t) law.2) :=
    State.setLoopRate_only htaken.canon (by rw [htaken.length]; exact hl) _ _ fun _ => rfl
  have hjudged := State.lockJudged_only hrate.canon (by rw [hrate.length, htaken.length]; exact hl) hn (s.loopState n)
    (s.loop n).passRun e
  have hrest := (hrate.mono (List.map_subset _ (List.nil_subset _))).trans hjudged
  exact ⟨hrest.own.trans hown, fun m hm => (hrest.others m hm).trans (htaken.others m hm),
    (hrest.get hn _ (by decide) (by decide)).trans herr⟩

end update

/-! ### The statement -/

theorem State.refEvent_running {s : State} {n : Nat} (he : s.enabled (P.LTL n) = true) (hsp : s.sp0Good = true)
    (hst : s.loopState n ∈ [L.TRACK, L.LOCKED, L.SLEW]) (t : Nat) (falling : Bool) : s.refEvent n t falling =
      if s.windowGood n (t - (s.loop n).lastEvent.getD 0) then s.loopUpdate n t (s.phaseErr n (s.refAngle n falling) t)
      else s.rejectEvent n := by
  simp only [List.mem_cons, List.not_mem_nil, or_false] at hst
  rcases hst with h | h | h <;> simp [State.refEvent, he, hsp, h]

/-- The crossing found is taken from the loop. -/
def State.crossingTaken (s : State) (n : Nat) : State := s.modLoop n (fun l => { l with crossing := none })

theorem execLoopReferenceEvent_some {s : State} {n : Fin 4} (hsrc : s.loopSrc n = S.DIGITAL) {c : Nat} {fall : Bool}
    (hc : (s.loop n).crossing = some (c, fall)) (t : Nat) :
    exec (.loopReferenceEvent t n) s = .next (((s.at t).crossingTaken n).refEvent n c fall) := by
  have hsrc' : (s.at t).loopSrc n = 2 := hsrc
  have hc' : ((s.at t).loop n).crossing = some (c, fall) := hc
  show execLoopReferenceEvent t n s = _
  simp only [execLoopReferenceEvent, hsrc', hc']
  rfl

theorem execLoopReferenceEvent_none {s : State} {n : Fin 4} (hsrc : s.loopSrc n = S.DIGITAL) (hc : (s.loop n).crossing = none)
    (t : Nat) : exec (.loopReferenceEvent t n) s = .next (s.at t) := by
  have hsrc' : (s.at t).loopSrc n = 2 := hsrc
  have hc' : ((s.at t).loop n).crossing = none := hc
  show execLoopReferenceEvent t n s = _
  simp only [execLoopReferenceEvent, hsrc', hc']

section taken
variable {s : State} {n : Nat} (hl : n < s.loops.length)
include hl

theorem State.loop_crossingTaken (m : Nat) :
    (s.crossingTaken n).loop m = if m = n then { s.loop n with crossing := none } else s.loop m := State.loop_modLoop hl _ m

theorem State.loop_crossingTaken_self : (s.crossingTaken n).loop n = { s.loop n with crossing := none } :=
  State.loop_modLoop_self hl _

/-- What a reference event is judged by does not rest on the crossing found. -/
theorem State.windowGood_crossingTaken (dt : Nat) : (s.crossingTaken n).windowGood n dt = s.windowGood n dt := by
  unfold State.windowGood
  rw [State.loop_crossingTaken_self hl]
  rfl

theorem State.refAngle_crossingTaken (falling : Bool) : (s.crossingTaken n).refAngle n falling = s.refAngle n falling := by
  unfold State.refAngle
  rw [State.loop_crossingTaken_self hl]
  rfl

theorem State.phaseErr_crossingTaken (ref : Int) (t : Nat) : (s.crossingTaken n).phaseErr n ref t = s.phaseErr n ref t := by
  unfold State.phaseErr
  rw [State.loop_crossingTaken_self hl]
  rfl

theorem State.lawAt_crossingTaken (t : Nat) (e : Int) : (s.crossingTaken n).lawAt n t e = s.lawAt n t e := by
  unfold State.lawAt
  rw [State.loop_crossingTaken_self hl]
  rfl

section running
variable (hs : s.Canon) (he : s.enabled (P.LTL n) = true) (hsp : s.sp0Good = true) (hst : s.loopState n ∈ [L.TRACK, L.LOCKED, L.SLEW])
  (c : Nat) (falling : Bool)
include hs he hsp hst

/-- The crossing of a running loop within the validity window. -/
theorem State.refEvent_valid (hn : n < 4) (hgood : s.windowGood n (c - (s.loop n).lastEvent.getD 0) = true) :
    let u := (s.crossingTaken n).refEvent n c falling
    let e := s.phaseErr n (s.refAngle n falling) c
    (u.loop n).timing = ((s.lawAt n c e).1, some c, none) ∧ (∀ m, m ≠ n → u.loop m = s.loop m) ∧
      u.get (P.LTL n) F.LTL_PHASE_ERR = unsx 24 e := by
  have hl' : n < (s.crossingTaken n).loops.length := (length_lmod _ _ _).symm ▸ hl
  have hupdate := State.loopUpdate_sets (s := s.crossingTaken n) hs hl' hn c (s.phaseErr n (s.refAngle n falling) c)
  rw [State.lawAt_crossingTaken hl, State.loop_crossingTaken_self hl] at hupdate
  obtain ⟨hown, hothers, herr⟩ := hupdate
  rw [State.refEvent_running (s := s.crossingTaken n) he hsp hst, State.windowGood_crossingTaken hl, State.refAngle_crossingTaken hl,
    State.phaseErr_crossingTaken hl, State.loop_crossingTaken_self hl, if_pos hgood]
  exact ⟨hown, fun m hm => (hothers m hm).trans ((State.loop_crossingTaken hl m).trans (if_neg hm)), herr⟩

/-- The crossing of a running loop outside the validity window. -/
theorem State.refEvent_invalid (hbad : s.windowGood n (c - (s.loop n).lastEvent.getD 0) = false) :
    let u := (s.crossingTaken n).refEvent n c falling
    u.loops = (s.crossingTaken n).loops ∧ u.get (P.LTL n) F.LTL_REJECT_CNT = Nat.min (s.get (P.LTL n) F.LTL_REJECT_CNT + 1) (2 ^ 32 - 1) ∧
      RegsBut [rkey (P.LTL n) F.LTL_REJECT_CNT.off, rkey (P.LTL n) H.PEND] s u := by
  rw [State.refEvent_running (s := s.crossingTaken n) he hsp hst, State.windowGood_crossingTaken hl, State.loop_crossingTaken_self hl,
    if_neg (by simp [hbad])]
  exact State.rejectEvent_counts (s := s.crossingTaken n) hs.active n

end running
end taken

/-- Settles O25: the crossing is taken, and the loop then makes the valid update or rejects the event. -/
theorem loopReferenceEvents : Obligations.LoopReferenceEvents := by
  intro s t n hs hlen he hsp hsrc hst
  refine ⟨fun c fall hc => ?_, fun hc => execLoopReferenceEvent_none hsrc hc t⟩
  intro e dt cap
  have hl : n.val < (s.at t).loops.length := Nat.lt_of_lt_of_eq n.isLt hlen.symm
  refine ⟨_, execLoopReferenceEvent_some hsrc hc t, ?_⟩
  by_cases hgood : s.windowGood n dt = true
  · obtain ⟨hown, hothers, herr⟩ := State.refEvent_valid hl hs he hsp hst c fall n.isLt hgood
    obtain ⟨hfInt, hlast, hcrossing⟩ : _ = _ ∧ _ = _ ∧ _ = _ := by simpa [LoopState.timing] using hown
    exact ⟨hcrossing, hothers, fun _ => ⟨hfInt, hlast, herr⟩, fun hbad => absurd hgood (by simp [hbad])⟩
  · obtain ⟨hloops, hcnt, hregs⟩ := State.refEvent_invalid hl hs he hsp hst c fall (Bool.eq_false_iff.2 hgood)
    have hloop (m : Nat) := (State.loop_congr hloops m).trans (State.loop_crossingTaken hl m)
    refine ⟨?_, fun m hm => (hloop m).trans (if_neg hm), fun h => absurd h hgood, fun _ => ⟨(hloop n).trans (if_pos rfl), hcnt, hregs⟩⟩
    rw [hloop, if_pos rfl]

end Sys2Proof.Machine
end

section
/-!
SUPPORT. Loss of reference and coast (R83, R84), and the end of a hold (R88).
-/
namespace Sys2Proof.Machine

/-! ### Level events -/

/-- A level event writes EVT_RAW and EVT_PEND. -/
theorem RegsBut.level {s : State} (h : s.ActiveWf) (p b : Nat) (v : Bool) : RegsBut [rkey p H.RAW, rkey p H.PEND] s (s.level p b v) :=
  fun q o hk => State.level_reg h p b v q o (fun e => hk (by simp [e])) (fun e => hk (by simp [e]))

theorem SameBlocks.pulse (s : State) (p b : Nat) : SameBlocks s (s.pulse p b) := by
  unfold State.pulse
  split
  · exact SameBlocks.latch s p b
  · rfl

theorem SameBlocks.level (s : State) (p b : Nat) (v : Bool) : SameBlocks s (s.level p b v) := by
  unfold State.level
  dsimp only
  split
  · exact (SameBlocks.setReg ..).trans (SameBlocks.pulse ..)
  · exact SameBlocks.setReg ..

/-! ### A long coast -/

/-- COAST_LONG and its level event. -/
def State.coastLong (s : State) (n : Nat) : State := (s.putB (P.LTL n) F.LTL_STAT_COAST_LONG true).level (P.LTL n) 3 true

section long
variable {s : State} (hs : s.Canon) {n : Nat} (hn : n < 4)
include hs

theorem State.coastLong_only : OnlyLoop n (ltlKeys n [F.LTL_STAT.off, H.RAW, H.PEND]) id s (s.coastLong n) :=
  ((OnlyLoop.refl hs).putB _ _ (by decide)).level _ _ (by simp) (by simp)

include hn

theorem State.coastLong_shows {st : Nat} {coasting ran : Bool} (h : LoopShows s n st coasting ran) :
    LoopShows (s.coastLong n) n st coasting ran :=
  have hput := (OnlyLoop.refl hs (view := id)).putB (n := n) (os := [F.LTL_STAT.off]) F.LTL_STAT_COAST_LONG true (by decide)
  (h.put hs.active F.LTL_STAT_COAST_LONG _ rfl (by decide) (by decide)).only hn
    ((OnlyLoop.refl hput.canon (view := id)).level (os := [H.RAW, H.PEND]) 3 true (by simp) (by simp)) (by decide) (by decide)

/-- A long coast shows its bit and its event, and changes nothing else. -/
theorem State.coastLong_spec : (s.coastLong n).getB (P.LTL n) F.LTL_STAT_COAST_LONG = true ∧
    bitOf ((s.coastLong n).reg (P.LTL n) H.RAW) 3 = true ∧
    RegsBut [rkey (P.LTL n) F.LTL_STAT.off, rkey (P.LTL n) H.RAW, rkey (P.LTL n) H.PEND] s (s.coastLong n) ∧
    SameBlocks s (s.coastLong n) := by
  have hput := (OnlyLoop.refl hs (view := id)).putB (n := n) (os := [F.LTL_STAT.off]) F.LTL_STAT_COAST_LONG true (by decide)
  have hlevel := (OnlyLoop.refl hput.canon (view := id)).level (n := n) (os := [H.RAW, H.PEND]) 3 true (by simp) (by simp)
  refine ⟨?_, State.bitOf_raw_level hput.canon.active _ (by decide) true, ?_, ?_⟩
  · exact (hlevel.getB hn _ (by decide) (by decide)).trans (State.getB_putB hs.active _ _ _ _ rfl (by decide))
  · have hraw := RegsBut.level hput.canon.active (P.LTL n) 3 true
    exact (RegsBut.setReg hs.active _ _ _ (by simp [Fld.at, F.LTL_STAT_COAST_LONG, F.LTL_STAT])).trans
      fun p o hk => hraw p o fun hm => hk (List.mem_cons_of_mem _ hm)
  · exact (SameBlocks.setReg ..).trans (SameBlocks.level ..)

end long

/-! ### The start of a coast -/

/-- What a coast makes of its loop from the ply start `a` on. -/
def LoopState.coasted (l : LoopState) (a : Nat) : LoopState :=
  { (l.setRate a l.fInt) with coastFrom := some a, hold := none, reverse := false, first := none, passRun := 0, lastCycle := none }

/-- The coast begun in the working state; the loop no longer turns backward. -/
def State.coastBegun (s : State) (n t : Nat) : State :=
  ((s.modLoop n (fun l => l.coasted (nextPly t))).putB (P.LTL n) F.LTL_STAT_REVERSE false).level (P.LTL n) 8 false

/-- The marks of a coast: marker, interval flags, map entry, and a coast long at once. -/
def State.coastMarked (s : State) (n t : Nat) : State :=
  let s := ((s.marker K.COAST_ON 19 (nextPly t) [n * 2 ^ 62]).ivFlagLoop n IF.COAST).mapEntry n K.COAST_ON AK.COAST_ON (nextPly t) 0
  if s.use (P.LTL n) F.LTL_COAST_CFG_COAST_LONG = 0 then s.coastLong n else s

theorem State.coastStart_eq {s : State} {n : Nat} (hst : s.loopState n ∈ [L.TRACK, L.LOCKED, L.SLEW, L.HOLD]) (t : Nat) :
    s.coastStart n t = ((((((s.coastBegun n t).setLoopState n L.COAST).put (P.LTL n) F.LTL_STAT_PASS_RUN 0).sat (P.LTL n)
      F.LTL_LOSS_CNT).pulse (P.LTL n) 1).coastMarked n t) := by
  have hrun : ¬(!(s.loopState n == L.TRACK || s.loopState n == L.LOCKED || s.loopState n == L.SLEW || s.loopState n == L.HOLD)) = true := by
    simp only [List.mem_cons, List.not_mem_nil, or_false] at hst
    rcases hst with h | h | h | h <;> simp [h]
  exact if_neg hrun

section start
variable {s : State} (hs : s.Canon) {n : Nat} (hn : n < 4)
include hs

theorem State.coastMarked_only (t : Nat) : OnlyLoop n (ltlKeys n [F.LTL_STAT.off, H.RAW, H.PEND]) id s (s.coastMarked n t) := by
  unfold State.coastMarked
  extract_lets s₁
  have h₁ : OnlyLoop n (ltlKeys n [F.LTL_STAT.off, H.RAW, H.PEND]) id s s₁ :=
    ((OnlyLoop.refl hs).quiet (State.ivFlagLoop_keeps (State.marker_keeps (.refl _) ..) ..) (by simp)).mapEntry ..
  exact .ite (h₁.trans (State.coastLong_only h₁.canon)) h₁

include hn

theorem State.coastMarked_shows {st : Nat} {coasting ran : Bool} (h : LoopShows s n st coasting ran) (t : Nat) :
    LoopShows (s.coastMarked n t) n st coasting ran := by
  unfold State.coastMarked
  extract_lets s₁
  have hk : OnlyLoop n (ltlKeys n []) id s s₁ :=
    ((OnlyLoop.refl hs).quiet (State.ivFlagLoop_keeps (State.marker_keeps (.refl _) ..) ..) (by simp)).mapEntry ..
  have h₁ := h.only hn hk (by simp) (by simp)
  exact .ite (State.coastLong_shows hk.canon hn h₁) h₁

/-- A running loop's coast: its state, its working state and the loss counted. -/
theorem State.coastStart_coasts (hl : n < s.loops.length) (hst : s.loopState n ∈ [L.TRACK, L.LOCKED, L.SLEW, L.HOLD]) (t : Nat) :
    (s.coastStart n t).loopState n = L.COAST ∧ (s.coastStart n t).coasting n = true ∧
      (s.coastStart n t).loop n = (s.loop n).coasted (nextPly t) ∧ (∀ m, m ≠ n → (s.coastStart n t).loop m = s.loop m) ∧
      (s.coastStart n t).get (P.LTL n) F.LTL_LOSS_CNT = Nat.min (s.get (P.LTL n) F.LTL_LOSS_CNT + 1) (2 ^ 32 - 1) := by
  have hbegun : OnlyLoop n (ltlKeys n [F.LTL_STAT.off, H.RAW, H.PEND]) (fun _ => ()) s (s.coastBegun n t) :=
    (((OnlyLoop.refl hs).modLoop hl (by intro; rfl)).putB _ _ (by decide)).level _ _ (by simp) (by simp)
  have hown : (s.coastBegun n t).loop n = (s.loop n).coasted (nextPly t) :=
    (State.loop_congr (s := s.modLoop n (fun l => l.coasted (nextPly t))) (by simp [State.coastBegun]) n).trans
      (State.loop_modLoop_self hl _)
  rw [State.coastStart_eq hst]
  generalize s.coastBegun n t = x at hbegun hown
  have henter : Enters n L.COAST id x ((x.setLoopState n L.COAST).put (P.LTL n) F.LTL_STAT_PASS_RUN 0) :=
    (State.setLoopState_enters hbegun.canon hn (by rw [hbegun.length]; exact hl) (by decide) (.inl rfl)).put _ _ rfl (by decide) (by decide)
  generalize (x.setLoopState n L.COAST).put (P.LTL n) F.LTL_STAT_PASS_RUN 0 = y at henter
  have hcounted : OnlyLoop n (ltlKeys n [F.LTL_LOSS_CNT.off, H.PEND]) id y ((y.sat (P.LTL n) F.LTL_LOSS_CNT).pulse (P.LTL n) 1) :=
    ((OnlyLoop.refl henter.canon).sat _ (by decide)).pulse _ (by simp)
  have hcnt := State.get_sat_pulse henter.canon.active (P.LTL n) (f := F.LTL_LOSS_CNT) 1 rfl rfl (by simp [rkey, Fld.at, F.LTL_LOSS_CNT])
  have hsame : y.get (P.LTL n) F.LTL_LOSS_CNT = s.get (P.LTL n) F.LTL_LOSS_CNT :=
    (henter.get hn _ (by decide) (by decide)).trans (hbegun.get hn _ (by decide) (by decide))
  generalize (y.sat (P.LTL n) F.LTL_LOSS_CNT).pulse (P.LTL n) 1 = z at hcounted hcnt
  have hmarked := State.coastMarked_only hcounted.canon (n := n) t
  have hshows := State.coastMarked_shows hcounted.canon hn (henter.shows.only hn hcounted (by decide) (by decide)) t
  exact ⟨hshows.state, hshows.coasting, hmarked.own.trans (hcounted.own.trans (henter.own.trans hown)),
    fun m hm => (hmarked.others m hm).trans ((hcounted.others m hm).trans ((henter.others m hm).trans (hbegun.others m hm))),
    (hmarked.get hn _ (by decide) (by decide)).trans (hcnt.trans (by rw [hsame]))⟩

end start

/-! ### The end of a hold -/

/-- A hold that ends at the ply start `t` goes on from the held angle. -/
def State.holdEnded (s : State) (n t h : Nat) : State :=
  ((s.modLoop n (fun l => { (l.setSeg t h l.fInt) with hold := none })).setLoopState n L.TRACK).mapEntry n 0 AK.HOLD_END t 0

theorem State.holdEnded_tracks {s : State} (hs : s.Canon) {n : Nat} (hn : n < 4) (hl : n < s.loops.length) (t h : Nat) :
    (s.holdEnded n t h).loopState n = L.TRACK ∧ ((s.holdEnded n t h).loop n).hold = none ∧
      ((s.holdEnded n t h).loop n).segs = ((s.loop n).setSeg t h (s.loop n).fInt).segs ∧
      (∀ m, m ≠ n → (s.holdEnded n t h).loop m = s.loop m) := by
  have hmod : OnlyLoop n (ltlKeys n []) (fun _ => ()) s (s.modLoop n (fun l => { (l.setSeg t h l.fInt) with hold := none })) :=
    (OnlyLoop.refl hs).modLoop hl fun _ => rfl
  have hown := State.loop_modLoop_self hl (fun l => { (l.setSeg t h l.fInt) with hold := none })
  unfold State.holdEnded
  generalize s.modLoop n (fun l => { (l.setSeg t h l.fInt) with hold := none }) = x at hmod hown
  have henter : Enters n L.TRACK (fun l => (l.hold, l.segs)) x (x.setLoopState n L.TRACK) :=
    State.setLoopState_enters hmod.canon hn (by rw [hmod.length]; exact hl) (by decide) (.inr fun _ => rfl)
  have hmap : OnlyLoop n (ltlKeys n []) id (x.setLoopState n L.TRACK) ((x.setLoopState n L.TRACK).mapEntry n 0 AK.HOLD_END t 0) :=
    (OnlyLoop.refl henter.canon).mapEntry ..
  have hloop := (congrArg (fun l => (l.hold, l.segs)) hmap.own).trans (henter.own.trans (congrArg (fun l => (l.hold, l.segs)) hown))
  exact ⟨(henter.shows.only hn hmap (by simp) (by simp)).state, congrArg Prod.fst hloop, congrArg Prod.snd hloop,
    fun m hm => (hmap.others m hm).trans ((henter.others m hm).trans (hmod.others m hm))⟩

/-! ### The statement -/

theorem execCoastOn_due {s : State} {t : Nat} {n : Fin 4} (he : s.enabled (P.LTL n) = true) (hr : (s.loop n).reverse = false)
    (hd : s.lossDue n t = true) : exec (.coastOn t n) s = .next ((s.at t).coastStart n t) := by
  have hif : (s.at t).enabled (P.LTL n) = true ∧ (!((s.at t).loop n).reverse) = true ∧ (s.at t).lossDue n t = true :=
    ⟨he, by rw [show ((s.at t).loop n).reverse = false from hr]; rfl, hd⟩
  exact congrArg Host.Outcome.next (if_pos hif)

theorem execCoastOn_early {s : State} {t : Nat} {n : Fin 4} (hd : s.lossDue n t = false) : exec (.coastOn t n) s = .next (s.at t) :=
  congrArg Host.Outcome.next (if_neg fun h => absurd h.2.2 (by rw [show (s.at t).lossDue n t = false from hd]; decide))

theorem execCoastLong_reached {s : State} {t : Nat} {n : Fin 4} (hc : s.coasting n = true)
    (hlong : s.use (P.LTL n) F.LTL_COAST_CFG_COAST_LONG ≤ s.coastCycles n t) :
    exec (.coastLong t n) s = .next ((s.at t).coastLong n) :=
  have hif : (s.at t).coasting n = true ∧ (s.at t).use (P.LTL n) F.LTL_COAST_CFG_COAST_LONG ≤ (s.at t).coastCycles n t := ⟨hc, hlong⟩
  congrArg Host.Outcome.next (if_pos hif)

theorem execCoastLong_idle {s : State} {t : Nat} {n : Fin 4} (hc : s.coasting n = false) :
    exec (.coastLong t n) s = .next (s.at t) :=
  congrArg Host.Outcome.next (if_neg fun h => absurd h.1 (by rw [show (s.at t).coasting n = false from hc]; decide))

section hold
variable {s : State} {t h : Nat} {n : Fin 4} (hh : (s.loop n).hold = some h) (he : s.enabled (P.LTL n) = true)
  (hst : s.loopState n = L.HOLD) (ht : t % 32 = 0)
include hh he hst ht

theorem execHoldEnd_eq : exec (.holdEnd t n) s =
    .next (if (h : Int) ≤ (s.loop n).projected t then (s.at t).holdEnded n t h else s.at t) := by
  have hh' : ((s.at t).loop n).hold = some h := hh
  have he' : (s.at t).enabled (P.LTL n) = true := he
  have hst' : (s.at t).loopState n = 7 := hst
  show execHoldEnd t n s = _
  simp only [execHoldEnd, hh', he', hst', ht, true_and]
  rfl

theorem execHoldEnd_reached (hle : (h : Int) ≤ (s.loop n).projected t) : exec (.holdEnd t n) s = .next ((s.at t).holdEnded n t h) := by
  rw [execHoldEnd_eq hh he hst ht, if_pos hle]

theorem execHoldEnd_early (hlt : (s.loop n).projected t < (h : Int)) : exec (.holdEnd t n) s = .next (s.at t) := by
  rw [execHoldEnd_eq hh he hst ht, if_neg (by omega)]

end hold

/-- Settles O26: the coast, its long mark and the end of a hold, each as the page and the angle log show it. -/
theorem lossAndCoast : Obligations.LossAndCoast := by
  intro s t n hs hlen he
  have hl : n.val < (s.at t).loops.length := Nat.lt_of_lt_of_eq n.isLt hlen.symm
  refine ⟨fun hst hr hd => ⟨_, execCoastOn_due he hr hd, ?_⟩, execCoastOn_early, fun hc hlong => ⟨_, execCoastLong_reached hc hlong, ?_⟩,
    execCoastLong_idle, fun h hh hst ht =>
    ⟨fun hle => ⟨_, execHoldEnd_reached hh he hst ht hle, ?_⟩, execHoldEnd_early hh he hst ht⟩⟩
  · obtain ⟨hstate, hcoast, hown, hothers, hcnt⟩ := State.coastStart_coasts (s := s.at t) hs n.isLt hl hst t
    rw [hown]
    exact ⟨hstate, hcoast, rfl, LoopState.phaseAt_setRate .., LoopState.rateAt_setRate .., hcnt, hothers⟩
  · obtain ⟨hbit, hraw, hregs, hsame⟩ := State.coastLong_spec (s := s.at t) hs n.isLt
    exact ⟨hbit, hraw, hregs, SameBlocks.trans (u := s.at t) rfl hsame⟩
  · obtain ⟨hstate, hhold, hsegs, hothers⟩ := State.holdEnded_tracks (s := s.at t) hs n.isLt hl t h
    exact ⟨hstate, hhold, (LoopState.phaseAt_congr hsegs t).trans (LoopState.phaseAt_setSeg ..),
      (LoopState.rateAt_congr hsegs t).trans (LoopState.rateAt_setSeg ..), hothers⟩

end Sys2Proof.Machine
end

section
/-!
SUPPORT. The quadrature decoder (R75, R76): which transition is forward is log entry 11's reading. One count forward or backward, both
lines at once, and the index.
-/
namespace Sys2Proof.Machine

/-! ### Transitions -/

theorem quad_lt (a b : Bool) : quad a b < 4 := by cases a <;> cases b <;> decide

theorem lmod_of_fixed {α : Type} {l : List α} {i : Nat} {f : α → α} {d : α} (h : f (l.getD i d) = l.getD i d) : lmod l i f = l := by
  induction l generalizing i with
  | nil => rfl
  | cons a r ih =>
    cases i with
    | zero => exact congrArg (· :: r) h
    | succ i => exact congrArg (a :: ·) (ih h)

/-- A change that leaves the loop as it is changes nothing. -/
theorem State.modLoop_of_fixed {s : State} {n : Nat} {f : LoopState → LoopState} (h : f (s.loop n) = s.loop n) : s.modLoop n f = s := by
  unfold State.modLoop
  rw [lmod_of_fixed h]

/-- The levels of both lines, as the decoder keeps them. -/
def State.linesRead (s : State) (n v : Nat) : State := s.modLoop n (fun l => { l with encAB := v })

section count
variable {s : State} {n : Fin 4} (he : s.enabled (P.LTL n) = true) (hsp : s.sp0Good = true) (hsrc : s.loopSrc n = S.ENCODER)
  {a b : Bool} (t : Nat)
include he hsp hsrc

theorem execEncoderCount_of_turn {turn : Nat} (hturn : (quad a b + 4 - (s.loop n).encAB) % 4 = turn) :
    exec (.encoderCount t n a b) s = .next (
      if turn = 0 then (s.at t).linesRead n (quad a b)
      else if turn = 2 then ((s.at t).linesRead n (quad a b)).rejectEvent n
      else ((s.at t).linesRead n (quad a b)).encStep n t ((turn == 1) != s.useB (P.LTL n) F.LTL_ENC_CFG_DIR_INV)) := by
  have hif : ¬((s.at t).loopSrc n ≠ S.ENCODER ∨ (!(s.at t).enabled (P.LTL n)) = true ∨ (!(s.at t).sp0Good) = true) := by
    have hsrc' : (s.at t).loopSrc n = S.ENCODER := hsrc
    have he' : (s.at t).enabled (P.LTL n) = true := he
    have hsp' : (s.at t).sp0Good = true := hsp
    simp [hsrc', he', hsp']
  have hturn' : (quad a b + 4 - ((s.at t).loop n).encAB) % 4 = turn := hturn
  have hlt : turn < 4 := by omega
  show execEncoderCount t n a b s = _
  unfold execEncoderCount
  dsimp only
  rw [if_neg hif, hturn']
  interval_cases turn <;> rfl

/-- Neither line has changed. -/
theorem execEncoderCount_still (h : (quad a b + 4 - (s.loop n).encAB) % 4 = 0) :
    exec (.encoderCount t n a b) s = .next ((s.at t).linesRead n (quad a b)) :=
  (execEncoderCount_of_turn he hsp hsrc t h).trans rfl

/-- Both lines have changed at once. -/
theorem execEncoderCount_both (h : (quad a b + 4 - (s.loop n).encAB) % 4 = 2) :
    exec (.encoderCount t n a b) s = .next (((s.at t).linesRead n (quad a b)).rejectEvent n) :=
  (execEncoderCount_of_turn he hsp hsrc t h).trans rfl

/-- One line has changed: a count, forward when A leads B and DIR_INV is 0, or neither. -/
theorem execEncoderCount_one {fwd : Bool} (h : (quad a b + 4 - (s.loop n).encAB) % 4 = 1 ∧
      s.useB (P.LTL n) F.LTL_ENC_CFG_DIR_INV = !fwd ∨
    (quad a b + 4 - (s.loop n).encAB) % 4 = 3 ∧ s.useB (P.LTL n) F.LTL_ENC_CFG_DIR_INV = fwd) :
    exec (.encoderCount t n a b) s = .next (((s.at t).linesRead n (quad a b)).encStep n t fwd) := by
  rcases h with ⟨hturn, hinv⟩ | ⟨hturn, hinv⟩
  · rw [execEncoderCount_of_turn he hsp hsrc t hturn, hinv]
    cases fwd <;> rfl
  · rw [execEncoderCount_of_turn he hsp hsrc t hturn, hinv]
    cases fwd <;> rfl

end count

/-! ### One count -/

theorem lmod_lmod {α : Type} (l : List α) (i : Nat) (f g : α → α) : lmod (lmod l i f) i g = lmod l i (fun x => g (f x)) := by
  induction l generalizing i with
  | nil => rfl
  | cons a r ih =>
    cases i with
    | zero => rfl
    | succ i => exact congrArg (f := List.cons a) (ih i)

theorem State.modLoop_modLoop (s : State) (n : Nat) (f g : LoopState → LoopState) :
    (s.modLoop n f).modLoop n g = s.modLoop n (fun l => g (f l)) := by
  unfold State.modLoop
  rw [lmod_lmod]

section step
variable {s : State} {n : Nat} (hr : (s.loop n).reverse = false)
include hr

/-- A forward count short of an update. -/
theorem State.encStep_forward (t : Nat) (hupd : (s.loop n).encUpd + 1 < 2 ^ s.use (P.LTL n) F.LTL_ENC_Z_UPDATE_EXP) :
    s.encStep n t true = s.modLoop n (fun l => { l with encPos := l.encPos + 1, encUpd := (s.loop n).encUpd + 1 }) := by
  unfold State.encStep
  extract_lets p l
  rw [if_neg (by simp), if_neg (by simp [l, hr])]
  exact (if_neg (Nat.not_le.2 hupd)).trans (State.modLoop_modLoop ..)

/-- A backward count of a running loop shows REVERSE and holds the angle from the next ply. -/
theorem State.encStep_backward (hs : s.Canon) (hn : n < 4) (hl : n < s.loops.length) (hran : s.loopRan n = true)
    (hst : s.loopState n ≠ L.OFF) (t : Nat) : ((s.encStep n t false).loop n).encPos = (s.loop n).encPos - 1 ∧
      ((s.encStep n t false).loop n).reverse = true ∧ (s.encStep n t false).getB (P.LTL n) F.LTL_STAT_REVERSE = true ∧
      ((s.encStep n t false).loop n).rateAt (nextPly t) = 0 := by
  have hl₁ {f : LoopState → LoopState} : n < (s.modLoop n f).loops.length := (length_lmod _ _ _).symm ▸ hl
  have hl₂ {f g : LoopState → LoopState} : n < ((s.modLoop n f).modLoop n g).loops.length := (length_lmod _ _ _).symm ▸ hl₁
  unfold State.encStep
  extract_lets p l running s₁ a s₂ s₃
  rw [if_pos (by simp [l, hr, running, hran, hst])]
  have hpos : (s₂.loop n).encPos = (s.loop n).encPos - 1 :=
    (congrArg LoopState.encPos (State.loop_modLoop_self hl₁ _)).trans (congrArg LoopState.encPos (State.loop_modLoop_self hl _))
  have hrev : (s₂.loop n).reverse = true := congrArg LoopState.reverse (State.loop_modLoop_self hl₁ _)
  have hput : OnlyLoop n (ltlKeys n [F.LTL_STAT.off]) id s₂ (s₂.putB p F.LTL_STAT_REVERSE true) :=
    (OnlyLoop.refl (s := s₂) hs).putB _ _ (by decide)
  have hlevel : OnlyLoop n (ltlKeys n [H.RAW, H.PEND]) id (s₂.putB p F.LTL_STAT_REVERSE true) s₃ :=
    (OnlyLoop.refl hput.canon).level _ _ (by simp) (by simp)
  have hbit : s₃.getB p F.LTL_STAT_REVERSE = true :=
    (hlevel.getB hn _ (by decide) (by decide)).trans (State.getB_putB (s := s₂) hs.active _ _ _ _ rfl (by decide))
  have hl₃ : n < s₃.loops.length := by rw [hlevel.length, hput.length]; exact hl₂
  have hheld := State.loop_modLoop_self hl₃ (fun l => l.setRate a 0)
  have hmarked : OnlyLoop n (ltlKeys n []) id (s₃.modLoop n (fun l => l.setRate a 0))
      (((s₃.modLoop n (fun l => l.setRate a 0)).ivFlagLoop n IF.HOLD).mapEntry n 0 AK.HOLD_START a 0) :=
    ((OnlyLoop.refl (s := s₃.modLoop n (fun l => l.setRate a 0)) hlevel.canon).quiet (State.ivFlagLoop_keeps (.refl _) ..)
      (State.ivFlagLoop_front ..)).mapEntry ..
  have hsame : s₃.loop n = s₂.loop n := hlevel.own.trans hput.own
  have hloop := hmarked.own.trans hheld
  rw [hsame] at hloop
  exact ⟨(congrArg LoopState.encPos hloop).trans hpos, (congrArg LoopState.reverse hloop).trans hrev,
    (hmarked.getB hn _ (by decide) (by decide)).trans hbit,
    (congrArg (LoopState.rateAt · a) hloop).trans (LoopState.rateAt_setRate ..)⟩

end step

/-! ### The index -/

/-- The count since the last index compared with the one set (R75). -/
def State.indexChecked (s : State) (n : Nat) : State :=
  let p := P.LTL n
  let l := s.loop n
  let want : Int := (Nat.max 1 (s.use p F.LTL_ENC_CFG_Z_EVERY) * s.use p F.LTL_ENC_CFG_COUNTS_PER_CYCLE : Nat)
  match l.encIdx with
  | some i => if l.encPos - i = want then s else (s.sat p F.LTL_ZERR_CNT).pulse p 7
  | none => s

section index
variable {s : State} {n : Nat}

theorem State.indexChecked_equal {i : Int} (hi : (s.loop n).encIdx = some i) (h : (s.loop n).encPos - i =
    (Nat.max 1 (s.use (P.LTL n) F.LTL_ENC_CFG_Z_EVERY) * s.use (P.LTL n) F.LTL_ENC_CFG_COUNTS_PER_CYCLE : Nat)) :
    s.indexChecked n = s := by
  unfold State.indexChecked
  simp only [hi, if_pos h]

theorem State.indexChecked_unequal {i : Int} (hi : (s.loop n).encIdx = some i) (h : (s.loop n).encPos - i ≠
    (Nat.max 1 (s.use (P.LTL n) F.LTL_ENC_CFG_Z_EVERY) * s.use (P.LTL n) F.LTL_ENC_CFG_COUNTS_PER_CYCLE : Nat)) :
    s.indexChecked n = (s.sat (P.LTL n) F.LTL_ZERR_CNT).pulse (P.LTL n) 7 := by
  unfold State.indexChecked
  simp only [hi, if_neg h]

theorem State.indexChecked_only (hs : s.Canon) : OnlyLoop n (ltlKeys n [F.LTL_ZERR_CNT.off, H.PEND]) id s (s.indexChecked n) := by
  unfold State.indexChecked
  extract_lets p l want
  split
  · exact .ite (.refl hs) (((OnlyLoop.refl hs).sat _ (by decide)).pulse _ (by simp))
  · exact .refl hs

end index

/-- The index noted at the present position. -/
def State.indexNoted (s : State) (n : Nat) : State :=
  (s.indexChecked n).modLoop n (fun l => { l with encIdx := some l.encPos })

theorem execEncoderIndex_unaligned {s : State} (hs : s.Canon) {n : Fin 4} (he : s.enabled (P.LTL n) = true) (hsp : s.sp0Good = true)
    (hsrc : s.loopSrc n = S.ENCODER) (hz : s.useB (P.LTL n) F.LTL_ENC_CFG_Z_EN = true)
    (ha : s.useB (P.LTL n) F.LTL_ENC_CFG_ALIGN_Z = false) (t : Nat) :
    exec (.encoderIndex t n) s = .next ((s.at t).indexNoted n) := by
  have hif : ¬((s.at t).loopSrc n ≠ S.ENCODER ∨ (!(s.at t).enabled (P.LTL n)) = true ∨ (!(s.at t).sp0Good) = true ∨
      (!(s.at t).useB (P.LTL n) F.LTL_ENC_CFG_Z_EN) = true) := by
    have hsrc' : (s.at t).loopSrc n = S.ENCODER := hsrc
    have he' : (s.at t).enabled (P.LTL n) = true := he
    have hsp' : (s.at t).sp0Good = true := hsp
    have hz' : (s.at t).useB (P.LTL n) F.LTL_ENC_CFG_Z_EN = true := hz
    simp [hsrc', he', hsp', hz']
  have halign : ((s.at t).indexNoted n).useB (P.LTL n) F.LTL_ENC_CFG_ALIGN_Z = false :=
    ((State.indexChecked_only (s := s.at t) hs).useB n.isLt _ (by decide) (by decide)).trans ha
  show execEncoderIndex t n s = _
  unfold execEncoderIndex
  extract_lets s₁ p l want s₂ s₃ z d st
  rw [if_neg hif]
  exact if_neg fun h => absurd h.1 (by rw [show s₃.useB p F.LTL_ENC_CFG_ALIGN_Z = false from halign]; decide)

/-! ### The statement -/

/-- Settles O27: each transition is read into the decoder and then counted, rejected or held; the index is noted after its check. -/
theorem encoderCounts : Obligations.EncoderCounts := by
  intro s t n a b hs hlen he hsp hsrc hab hr turn inv
  have hl : n.val < (s.at t).loops.length := Nat.lt_of_lt_of_eq n.isLt hlen.symm
  have hread : ((s.at t).linesRead n (quad a b)).loop n = { s.loop n with encAB := quad a b } := State.loop_modLoop_self hl _
  have hlread : n.val < ((s.at t).linesRead n (quad a b)).loops.length := (length_lmod _ _ _).symm ▸ hl
  have hothers {m : Nat} (hm : m ≠ n.val) : ((s.at t).linesRead n (quad a b)).loop m = s.loop m :=
    (State.loop_modLoop hl _ m).trans (if_neg hm)
  have hrread : (((s.at t).linesRead n (quad a b)).loop n).reverse = false := by rw [hread]; exact hr
  refine ⟨fun h0 => ?_, fun h2 => ⟨_, execEncoderCount_both he hsp hsrc t h2, ?_⟩,
    fun hf hupd => ⟨_, execEncoderCount_one (fwd := true) he hsp hsrc t hf, ?_⟩,
    fun hb hran hst => ⟨_, execEncoderCount_one (fwd := false) he hsp hsrc t hb, ?_⟩,
    fun hz ha => ⟨_, execEncoderIndex_unaligned hs he hsp hsrc hz ha t, ?_⟩⟩
  · have hquad : quad a b = (s.loop n).encAB := by
      have := quad_lt a b
      omega
    exact (execEncoderCount_still he hsp hsrc t h0).trans (congrArg Host.Outcome.next (State.modLoop_of_fixed (by rw [hquad]; rfl)))
  · obtain ⟨hloops, hcnt, -⟩ := State.rejectEvent_counts (s := (s.at t).linesRead n (quad a b)) hs.active n
    exact ⟨(State.loop_congr hloops n).trans hread, hcnt⟩
  · have hupd' : (((s.at t).linesRead n (quad a b)).loop n).encUpd + 1 <
        2 ^ ((s.at t).linesRead n (quad a b)).use (P.LTL n) F.LTL_ENC_Z_UPDATE_EXP := by rw [hread]; exact hupd
    rw [State.encStep_forward hrread t hupd']
    refine ⟨(State.loop_modLoop_self hlread _).trans ?_, fun m hm => ?_, rfl⟩
    · rw [hread]
    · exact (State.loop_modLoop hlread _ m).trans ((if_neg hm).trans (hothers hm))
  · have hback := State.encStep_backward hrread hs n.isLt hlread hran hst t
    rw [hread] at hback
    exact hback
  · have hchecked := State.indexChecked_only (s := s.at t) (n := n) hs
    have hlchecked : n.val < ((s.at t).indexChecked n).loops.length := by rw [hchecked.length]; exact hl
    refine ⟨(State.loop_modLoop_self hlchecked _).trans ?_, fun i hi => ⟨fun heq => ?_, fun hne => ?_⟩⟩
    · rw [show ((s.at t).indexChecked n).loop n = s.loop n from hchecked.own]
    · show ((s.at t).indexChecked n).get (P.LTL n) F.LTL_ZERR_CNT = _
      rw [State.indexChecked_equal (s := s.at t) hi heq]
      rfl
    · show ((s.at t).indexChecked n).get (P.LTL n) F.LTL_ZERR_CNT = _
      rw [State.indexChecked_unequal (s := s.at t) hi hne]
      exact State.get_sat_pulse (s := s.at t) hs.active _ _ rfl rfl (by simp [rkey, Fld.at, F.LTL_ZERR_CNT])

end Sys2Proof.Machine
end

section
/-!
SUPPORT. Angle events (R91, R92), cycles and their plausibility (R90), map points (R95, R97) and the first ANGLE token of a member's
loop (R416).
-/
namespace Sys2Proof.Machine

/-! ### Angle events -/

section fire
variable {s : State} {e : Fin 64} (he : s.useB P.ANG F.ANG_EVT_CFG_EN e = true)
  (hr : s.angleRuns (s.use P.ANG F.ANG_EVT_CFG_LOOP e) = true) {t : Nat}

include he hr in
theorem execAngleEventFire_crosses (hc : s.evtCrosses e t = true) : exec (.angleEventFire t e) s = .next ((s.at t).fireAngle e t false) :=
  congrArg Host.Outcome.next (if_pos (show (s.at t).useB P.ANG F.ANG_EVT_CFG_EN e = true ∧ _ ∧ _ from ⟨he, hr, hc⟩))

theorem execAngleEventFire_elsewhere (hc : s.evtCrosses e t = false) : exec (.angleEventFire t e) s = .next (s.at t) :=
  congrArg Host.Outcome.next (if_neg fun h => absurd h.2.2 (by rw [show (s.at t).evtCrosses e t = false from hc]; decide))

end fire

/-- The strobe on its slot. -/
def State.strobed (s : State) (e t : Nat) (late : Bool) : State := { s with angFired := lmod s.angFired e (fun _ => (t, late)) }

theorem State.fireAngle_once {s : State} {e : Nat} (hk : s.use P.ANG F.ANG_EVT_CFG_KIND e = 2) (t : Nat) (late : Bool) :
    s.fireAngle e t late = (s.strobed e t late).putB P.ANG F.ANG_EVT_CFG_EN false e := if_pos hk

theorem State.fireAngle_again {s : State} {e : Nat} (hk : s.use P.ANG F.ANG_EVT_CFG_KIND e ≠ 2) (t : Nat) (late : Bool) :
    s.fireAngle e t late = s.strobed e t late := if_neg hk

theorem State.angFired_fireAngle {s : State} {e : Nat} (hl : e < s.angFired.length) (t : Nat) (late : Bool) (k : Nat) :
    (s.fireAngle e t late).angFired.getD k (0, false) = if k = e then (t, late) else s.angFired.getD k (0, false) := by
  have hstrobed : (s.fireAngle e t late).angFired = lmod s.angFired e (fun _ => (t, late)) := by
    unfold State.fireAngle
    dsimp only
    split <;> rfl
  rw [hstrobed, getD_lmod _ _ _ _ _ hl]

/-- Of the registers firing writes the event's own alone, and but for the strobe nothing else changes. -/
theorem State.fireAngle_frame {s : State} (h : s.ActiveWf) (e t : Nat) (late : Bool) :
    RegsBut [rkey P.ANG (F.ANG_EVT_CFG.at e)] s (s.fireAngle e t late) ∧
      s.fireAngle e t late = { s with
        now := (s.fireAngle e t late).now
        angFired := (s.fireAngle e t late).angFired
        regs := { s.regs with active := (s.fireAngle e t late).regs.active } } := by
  unfold State.fireAngle
  extract_lets x
  split
  · exact ⟨RegsBut.setReg (s := x) h P.ANG _ _ (by simp [Fld.at, F.ANG_EVT_CFG, F.ANG_EVT_CFG_EN]), rfl⟩
  · exact ⟨.of_active rfl, rfl⟩

/-! ### Cycles -/

/-- What a cycle boundary notes of a loop. -/
def LoopState.cycle (l : LoopState) : Option Nat × Option Nat := (l.lastCycle, l.period)

/-- The boundary at a slot: its map point, and the length of the cycle that ends. -/
def State.cycleNoted (s : State) (n t : Nat) : State :=
  (s.mapEntry n 0 AK.POINT ((t + 31) / 32 * 32) 0).modLoop n (fun l =>
    { l with lastCycle := some t, period := (s.loop n).lastCycle.map (fun c => t - c) <|> l.period })

section cycle
variable {s : State} (hs : s.Canon) {n : Nat} (hl : n < s.loops.length)
include hs hl

/-- The boundary noted: its slot, and the length of the cycle since the last one. -/
theorem State.cycleNoted_notes (t : Nat) : (s.cycleNoted n t).Canon ∧ (s.cycleNoted n t).loops.length = s.loops.length ∧
    ((s.cycleNoted n t).loop n).lastCycle = some t ∧
    (∀ c, (s.loop n).lastCycle = some c → ((s.cycleNoted n t).loop n).period = some (t - c)) ∧
    (∀ m, m ≠ n → (s.cycleNoted n t).loop m = s.loop m) := by
  have hmap : OnlyLoop n [] id s (s.mapEntry n 0 AK.POINT ((t + 31) / 32 * 32) 0) := (OnlyLoop.refl hs).mapEntry ..
  have hl' : n < (s.mapEntry n 0 AK.POINT ((t + 31) / 32 * 32) 0).loops.length := by rw [hmap.length]; exact hl
  have hown := State.loop_modLoop_self hl' (fun l =>
    { l with lastCycle := some t, period := (s.loop n).lastCycle.map (fun c => t - c) <|> l.period })
  refine ⟨hmap.canon, (length_lmod _ _ _).trans hmap.length, congrArg LoopState.lastCycle hown, fun c hc => ?_, fun m hm => ?_⟩
  · refine (congrArg LoopState.period hown).trans ?_
    simp [hc]
  · exact (State.loop_modLoop hl' _ m).trans ((if_neg hm).trans (hmap.others m hm))

/-- Judging a cycle's length shows PLAUS_FAIL and may raise the ANGLE fault; what the boundary noted stays. -/
theorem State.plausibility_only (period : Nat) :
    OnlyLoop n (ltlKeys n [F.LTL_STAT.off, H.RAW, H.PEND]) LoopState.cycle s (s.plausibility n period) := by
  unfold State.plausibility
  extract_lets p src steady tp run s₁ run' s₂ s₃
  clear_value tp
  cases tp with
  | none => exact .refl hs
  | some tp =>
    have h₁ : OnlyLoop n (ltlKeys n [F.LTL_STAT.off, H.RAW, H.PEND]) LoopState.cycle s s₁ := (OnlyLoop.refl hs).modLoop hl fun _ => rfl
    have h₂ : OnlyLoop n (ltlKeys n [F.LTL_STAT.off, H.RAW, H.PEND]) LoopState.cycle s s₂ := (OnlyLoop.refl hs).modLoop hl fun _ => rfl
    have hfault {u : State} (h : OnlyLoop n (ltlKeys n [F.LTL_STAT.off, H.RAW, H.PEND]) LoopState.cycle s u) (b b' : Bool) :
        OnlyLoop n (ltlKeys n [F.LTL_STAT.off, H.RAW, H.PEND]) LoopState.cycle s
          (((u.putB (P.LTL n) F.LTL_STAT_PLAUS_FAIL b).level (P.LTL n) 6 b).faultLevel Q.ANGLE b') :=
      ((h.putB _ _ (by decide)).level _ _ (by simp) (by simp)).quiet (State.faultLevel_keeps (.refl _) ..) (State.faultLevel_front ..)
    exact .ite (.refl hs) (.ite (.ite (hfault h₁ _ _) h₁) (.ite (hfault h₂ _ _) h₂))

end cycle

section boundary
variable {s : State} {n : Fin 4} {t : Nat} (he : s.enabled (P.LTL n) = true) (hran : s.loopRan n = true) (ht : t ≠ 0)
  (hnew : (s.loop n).pipsAt t / 2 ^ 24 ≠ (s.loop n).pipsAt (t - 1) / 2 ^ 24)
include he hran ht hnew

/-- A boundary is noted, and the cycle that ends with it is judged. -/
theorem execLoopCycleBoundary_new (hs : s.Canon) (hl : n < s.loops.length) : ∃ u, exec (.loopCycleBoundary t n) s = .next u ∧
    OnlyLoop n (ltlKeys n [F.LTL_STAT.off, H.RAW, H.PEND]) LoopState.cycle ((s.at t).cycleNoted n t) u := by
  obtain ⟨hcanon, hlen, -⟩ := State.cycleNoted_notes (s := s.at t) hs hl t
  have hif : ¬((!(s.at t).enabled (P.LTL n)) = true ∨ (!(s.at t).loopRan n) = true ∨ t = 0 ∨
      ((s.at t).loop n).pipsAt t / 2 ^ 24 = ((s.at t).loop n).pipsAt (t - 1) / 2 ^ 24) := by
    have he' : (s.at t).enabled (P.LTL n) = true := he
    have hran' : (s.at t).loopRan n = true := hran
    have hnew' : ((s.at t).loop n).pipsAt t / 2 ^ 24 ≠ ((s.at t).loop n).pipsAt (t - 1) / 2 ^ 24 := hnew
    simpa [he', hran', ht] using hnew'
  refine ⟨_, if_neg hif, ?_⟩
  split
  · exact State.plausibility_only hcanon (by rw [hlen]; exact hl) _
  · exact .refl hcanon

end boundary

/-! ### Map points -/

/-- Outside a cascade a map point is an item of stream 19 when the map is on. -/
theorem State.mapEntry_solo {s : State} (hrole : s.role = C.SOLO) (hstep : s.cas.step ≠ 4) (n t : Nat) :
    s.mapEntry n 0 AK.POINT t 0 = if s.useB (P.LTL n) F.LTL_MAP_CFG_MAP_EN
      then s.appendItem 19 { slot := t, words := s.mapWords n 0 t 0, ply := none } else s := by
  unfold State.mapEntry
  extract_lets ws s₁ s₂ w
  have hfront : s₂.front = s.front := by simp [s₂, s₁]
  have hrole' : s₂.role = C.SOLO := (State.get_congr (State.reg_of_front hfront (by decide) (by decide))).trans hrole
  have hstep' : s₂.cas.step ≠ 4 := by rw [State.cas_of_front hfront]; exact hstep
  rw [if_neg (by simp [hrole', hstep'])]
  rfl

theorem execMapPeriodicPoint_grid {s : State} {n : Fin 4} {t : Nat} (he : s.enabled (P.LTL n) = true)
    (hexp : s.use (P.LTL n) F.LTL_MAP_CFG_MAP_EXP ≠ 0) (ht : t % (32 * 2 ^ s.use (P.LTL n) F.LTL_MAP_CFG_MAP_EXP) = 0) :
    exec (.mapPeriodicPoint t n) s = .next ((s.at t).mapEntry n 0 AK.POINT t 0) :=
  congrArg Host.Outcome.next (if_pos (show (s.at t).enabled (P.LTL n) = true ∧ _ ∧ _ from ⟨he, hexp, ht⟩))

theorem execMapPeriodicPoint_between {s : State} {n : Fin 4} {t : Nat}
    (ht : t % (32 * 2 ^ s.use (P.LTL n) F.LTL_MAP_CFG_MAP_EXP) ≠ 0) : exec (.mapPeriodicPoint t n) s = .next (s.at t) :=
  congrArg Host.Outcome.next (if_neg fun h => ht h.2.2)

/-! ### The first ANGLE token -/

/-- A module heard shows on the cascade page alone. -/
theorem State.casShow_reg {s : State} (h : s.ActiveWf) {q o : Nat} (hq : q ≠ P.CAS) (ho : o < 0x1000) :
    s.casShow.reg q o = s.reg q o := by
  have hne {x : Nat} (hx : x < 0x1000) : rkey q o ≠ rkey P.CAS x := fun e => hq ((rkey_inj ho hx).1 e).1
  have hlevel {u : State} (hu : u.ActiveWf) (b : Nat) (v : Bool) : (u.level P.CAS b v).reg q o = u.reg q o :=
    State.level_reg hu _ _ _ _ _ (hne (by decide)) (hne (by decide))
  unfold State.casShow
  extract_lets ready busy s₁ s₂
  have h₁ : s₁.ActiveWf := State.setReg_wf h _ _ _
  have h₂ : (s₁.level P.CAS 0 ready).ActiveWf := State.level_wf h₁ _ _ _
  rw [hlevel (State.level_wf h₂ _ _ _), hlevel h₂, hlevel h₁]
  exact (State.reg_setReg h _ _ _ _ _).trans (if_neg (hne (by decide)))

theorem State.hear_reg {s : State} (h : s.ActiveWf) (t : Nat) (p : Port) (k : Token) {q o : Nat} (hq : q ≠ P.CAS) (ho : o < 0x1000) :
    (s.hear t p k).reg q o = s.reg q o := by
  have hne {x : Nat} (hx : x < 0x1000) : rkey q o ≠ rkey P.CAS x := fun e => hq ((rkey_inj ho hx).1 e).1
  unfold State.hear
  extract_lets s₁
  have h₁ : s₁.ActiveWf := h
  split
  · rfl
  · split
    · rfl
    · unfold State.put64
      rw [State.casShow_reg (State.put_wf (State.put_wf h₁ _ _ _ _) _ _ _ _) hq ho,
        State.reg_put_ne (State.put_wf h₁ _ _ _ _) _ _ _ _ _ _ (hne (by decide)),
        State.reg_put_ne h₁ _ _ _ _ _ _ (hne (by decide))]
      rfl

theorem State.hear_loops (s : State) (t : Nat) (p : Port) (k : Token) : (s.hear t p k).loops = s.loops := by
  unfold State.hear
  extract_lets s₁
  split
  · rfl
  · split
    · rfl
    · simp [State.casShow, s₁]

/-- The angle a token gives at the ply start `a`, in units of 2^-32 pip. -/
def State.tokenPhase (s : State) (a : Nat) (k : Token) : Nat :=
  k.w1.toNat * 2 ^ 32 + bits k.w0.toNat 31 0 + bits k.w2.toNat 47 0 *
    ((s.aligned a / 32 % 2 ^ 32 + 2 ^ 32 - bits k.w3.toNat 63 32) % 2 ^ 32)

theorem State.takeAngle_first {s : State} (hs : s.Canon) {n : Nat} (hn : n < 4) (hl : n < s.loops.length) (hran : s.loopRan n = false)
    (hown : (s.loop n).ownLoss = false) (a : Nat) (k : Token) : (s.takeAngle n a k).Canon ∧ (s.takeAngle n a k).loopRan n = true ∧
      ((s.takeAngle n a k).loop n).phaseAt a = s.tokenPhase a k ∧ ((s.takeAngle n a k).loop n).rateAt a = bits k.w2.toNat 47 0 := by
  unfold State.takeAngle
  extract_lets w2 w3 kind f flags plies low l ran s₁ st e s₂ s₃ s₄
  rw [if_neg (by simp [l, hown]), if_pos (by simp [ran, hran])]
  have hst : st < 16 := by
    unfold st
    split_ifs <;> decide
  have h₁ : OnlyLoop n (ltlKeys n [F.LTL_STAT.off]) (fun _ => ()) s s₁ := (OnlyLoop.refl hs).modLoop hl (by intro; rfl)
  have h₂ : OnlyLoop n (ltlKeys n [F.LTL_STAT.off]) (fun _ => ()) s s₂ := h₁.modLoop (by rw [h₁.length]; exact hl) (by intro; rfl)
  have h₃ : OnlyLoop n (ltlKeys n [F.LTL_STAT.off]) (fun _ => ()) s s₃ := .ite (h₂.putB _ _ (by decide)) h₂
  have h₄ : OnlyLoop n (ltlKeys n [F.LTL_STAT.off]) (fun _ => ()) s s₄ := h₃.putB _ _ (by decide)
  have hran₄ : s₄.loopRan n = true := State.getB_putB h₃.canon.active _ _ _ _ rfl (by decide)
  have hl₄ : n < s₄.loops.length := by rw [h₄.length]; exact hl
  clear_value s₄
  have hplaced := State.loop_modLoop_self hl₄ (fun l => l.setSeg a low f)
  have hlx : n < (s₄.modLoop n (fun l => l.setSeg a low f)).loops.length := (length_lmod _ _ _).symm ▸ hl₄
  have hcx : (s₄.modLoop n (fun l => l.setSeg a low f)).Canon := h₄.canon
  have hranx : (s₄.modLoop n (fun l => l.setSeg a low f)).loopRan n = true := hran₄
  generalize s₄.modLoop n (fun l => l.setSeg a low f) = x at hplaced hlx hcx hranx
  have henter : Enters n st LoopState.segs x (x.setLoopState n st) := State.setLoopState_enters hcx hn hlx hst (.inr fun _ => rfl)
  have hmap : OnlyLoop n (ltlKeys n []) id (x.setLoopState n st) ((x.setLoopState n st).mapEntry n 0 AK.POINT a 0) :=
    (OnlyLoop.refl henter.canon).mapEntry ..
  have hsegs := (congrArg LoopState.segs hmap.own).trans (henter.own.trans (congrArg LoopState.segs hplaced))
  exact ⟨hmap.canon, (henter.shows.only hn hmap (by simp) (by simp)).ran.trans hranx,
    (LoopState.phaseAt_congr hsegs a).trans (LoopState.phaseAt_setSeg ..),
    (LoopState.rateAt_congr hsegs a).trans (LoopState.rateAt_setSeg ..)⟩

section token
variable {s : State} {n : Nat} {t : Nat} {p : Port} {k : Token}

theorem State.loopRan_relay (hn : n < 4) : (s.relay p k).loopRan n = s.loopRan n :=
  congrArg (· == 1) (State.get_congr (State.reg_of_front (State.relay_front s p k) (ltl_notMem_backPages hn) (by decide)))

theorem State.tokenPhase_relay (a : Nat) : (s.relay p k).tokenPhase a k = s.tokenPhase a k := by
  have hget (f : Fld) (hf : f.at 0 < 0x1000) : (s.relay p k).get P.TIME f = s.get P.TIME f :=
    State.get_congr (State.reg_of_front (State.relay_front s p k) (by decide) hf)
  unfold State.tokenPhase State.aligned State.alignOfs State.get64
  rw [hget _ (by decide), hget _ (by decide)]

/-- A member's CASCADE loop takes up the token of another module at the next ply start. -/
theorem State.angleTok_taken (hk : bits k.w2.toNat 60 59 = n) (hrole : s.role = C.MEMBER) (hsrc : s.loopSrc n = S.CASCADE)
    (he : s.enabled (P.LTL n) = true) (ho : k.origin ≠ s.casAddr) (hn : n < 4) :
    s.angleTok t p k = (s.relay p k).takeAngle n (nextPly t) k := by
  have hfront := State.relay_front s p k
  have hcas (f : Fld) (hf : f.at 0 < 0x1000) : (s.relay p k).get P.CAS f = s.get P.CAS f :=
    State.get_congr (State.reg_of_front hfront (by decide) hf)
  have hltl {o : Nat} (ho : o < 0x1000) := State.reg_of_front hfront (ltl_notMem_backPages hn) ho
  have hrole' : (s.relay p k).role = C.MEMBER := (hcas _ (by decide)).trans hrole
  have haddr : (s.relay p k).casAddr = s.casAddr := hcas _ (by decide)
  have hsrc' : (s.relay p k).loopSrc n = S.CASCADE := (State.use_congr (State.lastGood_of_front hfront) (hltl (by decide))).trans hsrc
  have he' : (s.relay p k).enabled (P.LTL n) = true := by
    unfold State.enabled
    rw [hltl (by decide)]
    exact he
  unfold State.angleTok
  rw [hk]
  exact if_pos ⟨hrole', hsrc', he', haddr ▸ ho⟩

end token

/-- The first token of a member's CASCADE loop places its angle (R416). -/
theorem execAngleToken_first {s : State} (hs : s.Canon) (hlen : s.loops.length = 4) (t : Nat) (n : Fin 4) (port : Port) (k : Token)
    (htype : k.type = TK.ANGLE) (hport : port ≠ .twin) (hcas : s.enabled P.CAS = true) (hrole : s.role = C.MEMBER)
    (hk : bits k.w2.toNat 60 59 = n.val) (hsrc : s.loopSrc n = S.CASCADE) (he : s.enabled (P.LTL n) = true)
    (ho : k.origin ≠ s.casAddr) (hran : s.loopRan n = false) (hown : (s.loop n).ownLoss = false) :
    ∃ u, exec (.angleToken t port k) s = .next u ∧ u.loopRan n = true ∧
      (u.loop n).phaseAt (nextPly t) = (s.at t).tokenPhase (nextPly t) k ∧
      (u.loop n).rateAt (nextPly t) = bits k.w2.toNat 47 0 := by
  have hfront := State.relay_front (s.at t) port k
  have hloops := State.loops_of_front hfront
  have hl : n.val < ((s.at t).relay port k).loops.length := by rw [hloops]; exact Nat.lt_of_lt_of_eq n.isLt hlen.symm
  obtain ⟨hcanon, hran', hphase, hrate⟩ := State.takeAngle_first ((State.relay_keeps (.refl (s.at t)) port k).canon hs) n.isLt hl
    ((State.loopRan_relay n.isLt).trans hran) (by rw [State.loop_congr hloops]; exact hown) (nextPly t) k
  rw [State.tokenPhase_relay] at hphase
  have hexec : exec (.angleToken t port k) s = .next (((s.at t).angleTok t port k).hear t port k) :=
    congrArg Host.Outcome.next (if_pos (show _ ∧ _ ∧ (s.at t).enabled P.CAS = true from ⟨htype, hport, hcas⟩))
  rw [State.angleTok_taken (s := s.at t) hk hrole hsrc he ho n.isLt] at hexec
  refine ⟨_, hexec, ?_⟩
  have hheard : (((((s.at t).relay port k).takeAngle n (nextPly t) k)).hear t port k).loopRan n = true := by
    refine Eq.trans (congrArg (· == 1) (State.get_congr ?_)) hran'
    exact State.hear_reg hcanon.active t port k (by simp [P.LTL, P.CAS]; omega) (by decide)
  rw [State.loop_congr (State.hear_loops ..)]
  exact ⟨hheard, hphase, hrate⟩

/-- Settles O28: the strobe, the cycle, the map point and the first token, each by the rule of its operation. -/
theorem angleEventsAndCycles : Obligations.AngleEventsAndCycles := by
  intro s t n e hs hlen hfired
  have hl : n.val < (s.at t).loops.length := Nat.lt_of_lt_of_eq n.isLt hlen.symm
  refine ⟨fun he hr => ⟨fun hc => ⟨_, execAngleEventFire_crosses he hr hc, ?_⟩, execAngleEventFire_elsewhere⟩,
    fun he hran ht hnew => ?_, fun he hrole hstep hexp => ⟨fun ht => ?_, execMapPeriodicPoint_between⟩,
    fun port k htype hport hcas hrole hk hsrc he ho hran hown =>
      execAngleToken_first hs hlen t n port k htype hport hcas hrole hk hsrc he ho hran hown⟩
  · have hstrobe := State.angFired_fireAngle (s := s.at t) (e := e) (Nat.lt_of_lt_of_eq e.isLt hfired.symm) t false
    obtain ⟨hregs, hframe⟩ := State.fireAngle_frame (s := s.at t) hs.active e t false
    refine ⟨(hstrobe e).trans (if_pos rfl), fun k hk => (hstrobe k).trans (if_neg hk), fun hkind => ?_, fun hkind => ?_, hregs, hframe⟩
    · rw [State.fireAngle_once (s := s.at t) hkind]
      exact State.getB_putB (s := (s.at t).strobed e t false) hs.active _ _ _ _ rfl (by decide)
    · rw [State.fireAngle_again (s := s.at t) hkind]
      rfl
  · obtain ⟨u, hu, honly⟩ := execLoopCycleBoundary_new he hran ht hnew hs hl
    obtain ⟨-, -, hlast, hperiod, hothers⟩ := State.cycleNoted_notes (s := s.at t) hs hl t
    exact ⟨u, hu, (congrArg Prod.fst honly.own).trans hlast, fun c hc => (congrArg Prod.snd honly.own).trans (hperiod c hc),
      fun m hm => (honly.others m hm).trans (hothers m hm)⟩
  · rw [execMapPeriodicPoint_grid he hexp ht, State.mapEntry_solo (s := s.at t) hrole hstep]
    rfl

end Sys2Proof.Machine
end

section
/-!
SUPPORT. One page of digital inputs at a time (R104, R114, R117): which fields of the page an operation leaves, and the working state of
its group.
-/
namespace Sys2Proof.Machine

/-! ### The working state of a group -/

theorem State.dig_modDig_self {s : State} {g : Nat} (hg : g < s.digs.length) (f : DigState → DigState) :
    (s.modDig g f).dig g = f (s.dig g) := (getD_lmod s.digs g g f _ hg).trans (if_pos rfl)

theorem State.dig_congr {s u : State} (h : u.digs = s.digs) (g : Nat) : u.dig g = s.dig g := by
  unfold State.dig
  rw [h]

theorem State.digs_of_front {s u : State} (h : u.front = s.front) : u.digs = s.digs := congrArg (·.digs) h

/-! ### The present slot is no part of what is read -/

section now
variable (s : State) (t p g : Nat)

@[simp] theorem State.enabled_at : (s.at t).enabled p = s.enabled p := rfl
@[simp] theorem State.use_at (f : Fld) (i : Nat) : (s.at t).use p f i = s.use p f i := rfl
@[simp] theorem State.useB_at (f : Fld) (i : Nat) : (s.at t).useB p f i = s.useB p f i := rfl
@[simp] theorem State.dig_at : (s.at t).dig g = s.dig g := rfl
@[simp] theorem State.digMode_at : (s.at t).digMode g = s.digMode g := rfl
@[simp] theorem State.groupValid_at : (s.at t).groupValid g = s.groupValid g := rfl
@[simp] theorem State.recording_at : (s.at t).recording g = s.recording g := rfl

end now

/-! ### Fields that share no bits -/

/-- Two fields, each with its instance, share no bits. -/
def bitsApart (x y : Fld × Nat) : Bool := x.1.at x.2 != y.1.at y.2 || decide (x.1.hi < y.1.lo) || decide (y.1.hi < x.1.lo)

theorem bitsApart_iff {x y : Fld × Nat} :
    bitsApart x y = true ↔ x.1.at x.2 ≠ y.1.at y.2 ∨ x.1.hi < y.1.lo ∨ y.1.hi < x.1.lo := by
  simp [bitsApart, or_assoc]

theorem State.get_put_apart {s : State} (h : s.ActiveWf) (p : Nat) {f k : Fld} {i j : Nat} (v : Nat) (hf : f.lo ≤ f.hi) (h32 : f.hi < 32)
    (ha : bitsApart (k, j) (f, i) = true) : (s.put p f v i).get p k j = s.get p k j := by
  by_cases hreg : k.at j = f.at i
  · exact State.get_put_field h p f v i k j hreg hf h32 ((bitsApart_iff.1 ha).resolve_left (fun hne => hne hreg))
  · exact State.get_put_ne h p f v i p k j (by simpa [rkey] using hreg)

/-- A field behind the page header (R32) that shares no bits with those listed. -/
def spared (ws : List (Fld × Nat)) (f : Fld) (i : Nat) : Bool :=
  decide (0x40 ≤ f.at i) && decide (f.at i < 0x1000) && ws.all (bitsApart (f, i))

theorem spared_iff {ws : List (Fld × Nat)} {f : Fld} {i : Nat} :
    spared ws f i = true ↔ 0x40 ≤ f.at i ∧ f.at i < 0x1000 ∧ ∀ w ∈ ws, bitsApart (f, i) w = true := by
  simp [spared, and_assoc]

/-! ### What an operation leaves of the page -/

/-- Behind the header every field of page DIGg that shares no bits with those listed reads as before. -/
structure DigBut (g : Nat) (ws : List (Fld × Nat)) (s u : State) : Prop where
  canon : u.Canon
  get : ∀ f i, spared ws f i = true → u.get (P.DIG g) f i = s.get (P.DIG g) f i

theorem dig_notMem_backPages {g : Nat} (hg : g < 8) : P.DIG g ∉ backPages := by
  unfold backPages P.DIG P.ACQT P.ACT P.RFQ P.FLX P.TWN P.SAF
  simp
  omega

section steps
variable {g : Nat} {ws ws' : List (Fld × Nat)} {s u w : State}

theorem DigBut.of_at {t : Nat} (h : DigBut g ws (s.at t) u) : DigBut g ws s u := ⟨h.canon, h.get⟩

theorem DigBut.getB (h : DigBut g ws s u) (f : Fld) (i : Nat) (ha : spared ws f i = true) :
    u.getB (P.DIG g) f i = s.getB (P.DIG g) f i := by
  unfold State.getB
  rw [h.get f i ha]

/-- Two operations one after the other write what either writes. -/
theorem DigBut.append (h : DigBut g ws s u) (h' : DigBut g ws' u w) : DigBut g (ws ++ ws') s w := by
  refine ⟨h'.canon, fun f i ha => ?_⟩
  obtain ⟨hlo, hhi, hall⟩ := spared_iff.1 ha
  rw [h'.get f i (spared_iff.2 ⟨hlo, hhi, fun x hx => hall x (List.mem_append_right _ hx)⟩),
    h.get f i (spared_iff.2 ⟨hlo, hhi, fun x hx => hall x (List.mem_append_left _ hx)⟩)]

theorem DigBut.put (hs : s.Canon) (f : Fld) (v i : Nat) (hf : f.lo ≤ f.hi ∧ f.hi < 32) :
    DigBut g [(f, i)] s (s.put (P.DIG g) f v i) := by
  refine ⟨(State.put_keeps (.refl s) ..).canon hs, fun k j ha => ?_⟩
  obtain ⟨-, -, hall⟩ := spared_iff.1 ha
  exact State.get_put_apart hs.active _ v hf.1 hf.2 (hall _ (List.mem_singleton_self _))

theorem DigBut.putB (hs : s.Canon) (f : Fld) (b : Bool) (i : Nat) (hf : f.lo ≤ f.hi ∧ f.hi < 32) :
    DigBut g [(f, i)] s (s.putB (P.DIG g) f b i) := .put hs f _ i hf

theorem DigBut.sat (hs : s.Canon) (f : Fld) (n i : Nat) (hf : f.lo ≤ f.hi ∧ f.hi < 32) :
    DigBut g [(f, i)] s (s.sat (P.DIG g) f n i) := .put hs f _ i hf

theorem DigBut.modDig (hs : s.Canon) (k : Nat) (f : DigState → DigState) : DigBut g [] s (s.modDig k f) := ⟨hs, fun _ _ _ => rfl⟩

/-- An operation that writes the page's header alone. -/
theorem DigBut.header (hs : s.Canon) (hk : Keeps s u) (hreg : ∀ o, 0x40 ≤ o → u.reg (P.DIG g) o = s.reg (P.DIG g) o) :
    DigBut g [] s u :=
  ⟨hk.canon hs, fun _ _ ha => State.get_congr (hreg _ (spared_iff.1 ha).1)⟩

theorem DigBut.level (hs : s.Canon) (b : Nat) (v : Bool) : DigBut g [] s (s.level (P.DIG g) b v) :=
  .header hs (State.level_keeps (.refl s) ..) fun o ho =>
    State.level_reg hs.active _ _ _ _ _ (by simp [rkey, H.PEND]; omega) (by simp [rkey, H.RAW]; omega)

theorem DigBut.setBlockState (hs : s.Canon) (c : Nat) : DigBut g [] s (s.setBlockState (P.DIG g) c) :=
  .header hs (State.setReg_keeps (.refl s) ..) fun o ho =>
    (State.reg_setReg hs.active _ _ _ _ _).trans (if_neg (by simp [rkey, H.STAT]; omega))

/-- An operation that leaves the front leaves the page. -/
theorem DigBut.quiet (hs : s.Canon) (hg : g < 8) (hk : Keeps s u) (hf : u.front = s.front) : DigBut g [] s u := by
  refine ⟨hk.canon hs, fun f i ha => ?_⟩
  obtain ⟨-, ho, -⟩ := spared_iff.1 ha
  exact State.get_congr (State.reg_of_front hf (dig_notMem_backPages hg) ho)

end steps

/-! ### Counters and masks -/

/-- A 32-bit counter counts one and stops at its maximum. -/
theorem State.get_sat_word {s : State} (h : s.ActiveWf) (p : Nat) {f : Fld} (i : Nat) (hlo : f.lo = 0) (hhi : f.hi = 31) :
    (s.sat p f 1 i).get p f i = Nat.min (s.get p f i + 1) (2 ^ 32 - 1) := by
  rw [State.get_sat h p f 1 i (by omega) (by omega), hlo, hhi]
  unfold satU
  simp only [Nat.min_def]
  split <;> split <;> omega

/-- A bit put into a mask reads back. -/
theorem State.bitOf_put_putBit {s : State} (h : s.ActiveWf) (p : Nat) {f : Fld} {b : Nat} (hb : b < 32) (v : Bool) (hlo : f.lo = 0)
    (hhi : f.hi = 31) : bitOf ((s.put p f (putBit (s.get p f) b v)).get p f) b = v := by
  have hget : s.get p f < 2 ^ (f.hi + 1 - f.lo) := bits_lt _ _ _
  rw [hlo, hhi] at hget
  rw [State.get_put h _ _ _ _ (by omega) (by omega), hlo, hhi, Nat.mod_eq_of_lt (putBit_lt _ hb hget), bitOf_putBit, if_pos rfl]

end Sys2Proof.Machine
end

section
/-!
SUPPORT. Over-range windows of a group (R114, R116): the entry of a channel, the opening of a window, the exit of a channel and the closing.
-/
namespace Sys2Proof.Machine

/-! ### The operations -/

/-- The bit of a channel's status for the side on which it left its range. -/
def sideFld (hi : Bool) : Fld := if hi then F.DIG_CH_STAT_OVR_HI else F.DIG_CH_STAT_OVR_LO

/-- A channel enters over-range: its bits, the group's and the count. -/
def State.overEntered (s : State) (g c : Nat) (hi : Bool) : State :=
  let p := P.DIG g
  let s := s.putB p (sideFld hi) true c
  let s := s.sat p F.DIG_OVR_CNT 1 c
  let s := s.put p F.DIG_OVR_MASK (putBit (s.get p F.DIG_OVR_MASK) c true)
  (s.putB p F.DIG_STAT_OVR true).level p 0 true

/-- The first entry opens the group's window. -/
def State.windowOpened (s : State) (g t c : Nat) : State :=
  let p := P.DIG g
  let s := (s.putB p F.DIG_STAT_WINDOW true).put p F.DIG_OVR_FIRST c
  let s := (s.sat p F.DIG_OVR_WIN_CNT).level p 1 true
  let s := s.note RN.WINDOW t g
  s.ovrMark g t true c

/-- A channel is no longer over-range on either side. -/
def State.overLeft (s : State) (g t c : Nat) : State :=
  let p := P.DIG g
  ((s.putB p F.DIG_CH_STAT_OVR_HI false c).putB p F.DIG_CH_STAT_OVR_LO false c).modDig g (fun q => { q with ovrExit := t })

/-- The group's bit follows its channels. -/
def State.overShown (s : State) (g : Nat) : State :=
  (s.putB (P.DIG g) F.DIG_STAT_OVR (s.overCount g != 0)).level (P.DIG g) 0 (s.overCount g != 0)

def State.windowClosed (s : State) (g t : Nat) : State :=
  let p := P.DIG g
  let s := (s.putB p F.DIG_STAT_WINDOW false).level p 1 false
  s.ovrMark g t false (s.get p F.DIG_OVR_FIRST)

@[simp] theorem State.ovrMark_front (s : State) (g slot : Nat) (opened : Bool) (first : Nat) :
    (s.ovrMark g slot opened first).front = s.front := by
  simp [State.ovrMark]

/-! ### What the commands answer -/

theorem execOverrangeEntry_enabled {s : State} {g : Fin 8} (he : s.enabled (P.DIG g) = true) (t : Nat) (c : Fin 32) (hi : Bool) :
    exec (.overrangeEntry t g c hi) s = .next (if ((s.at t).overEntered g c hi).getB (P.DIG g) F.DIG_STAT_WINDOW
      then (s.at t).overEntered g c hi else ((s.at t).overEntered g c hi).windowOpened g t c) := by
  rw [apply_ite Host.Outcome.next]
  exact if_neg (by simp [he])

theorem execOverrangeExit_enabled {s : State} {g : Fin 8} (he : s.enabled (P.DIG g) = true) (t : Nat) (c : Fin 32) :
    exec (.overrangeExit t g c) s = .next (((s.at t).overLeft g t c).overShown g) :=
  if_neg (by simp [he])

theorem execOvrWindowClose_due {s : State} {g : Fin 8} {t : Nat} (he : s.enabled (P.DIG g) = true)
    (hw : s.getB (P.DIG g) F.DIG_STAT_WINDOW = true) (hc : s.overCount g = 0) (ht : (s.dig g).ovrExit + 640 ≤ t) :
    exec (.ovrWindowClose t g) s = .next ((s.at t).windowClosed g t) :=
  congrArg Host.Outcome.next (if_pos (show (s.at t).enabled (P.DIG g) = true ∧ _ ∧ _ ∧ _ from ⟨he, hw, hc, ht⟩))

theorem execOvrWindowClose_early {s : State} {g : Fin 8} {t : Nat} (ht : t < (s.dig g).ovrExit + 640) :
    exec (.ovrWindowClose t g) s = .next (s.at t) :=
  congrArg Host.Outcome.next (if_neg fun ⟨_, _, _, h⟩ => Nat.not_le_of_lt ht h)

/-! ### An entry -/

/-- What an entry writes: its side's bit and the count of the channel, the mask and the group's bit. -/
def entryFlds (c : Nat) (hi : Bool) : List (Fld × Nat) :=
  [(sideFld hi, c), (F.DIG_OVR_CNT, c), (F.DIG_OVR_MASK, 0), (F.DIG_STAT_OVR, 0)]

/-- What the opening of a window writes. -/
def windowFlds : List (Fld × Nat) := [(F.DIG_STAT_WINDOW, 0), (F.DIG_OVR_FIRST, 0), (F.DIG_OVR_WIN_CNT, 0)]

theorem sideFld_bit (hi : Bool) : (sideFld hi).lo = (sideFld hi).hi ∧ (sideFld hi).hi < 32 := by cases hi <;> decide

theorem spared_sideFld (c : Fin 32) (hi : Bool) : spared (entryFlds c hi).tail (sideFld hi) c = true := by
  revert c hi
  decide

theorem spared_ovrCnt (c : Fin 32) (hi : Bool) :
    spared [(sideFld hi, c)] F.DIG_OVR_CNT c = true ∧ spared [(F.DIG_OVR_MASK, 0), (F.DIG_STAT_OVR, 0)] F.DIG_OVR_CNT c = true := by
  revert c hi
  decide

theorem spared_ovrCnt_other (hi : Bool) {c k : Nat} (hc : c < 32) (hk : k < 32) (hne : k ≠ c) :
    spared (entryFlds c hi) F.DIG_OVR_CNT k = true := by
  have hside : (sideFld hi).off = 0x200 ∧ (sideFld hi).stride = 4 := by cases hi <;> exact ⟨rfl, rfl⟩
  simp [spared_iff, bitsApart_iff, entryFlds, hside, Fld.at, F.DIG_OVR_CNT, F.DIG_OVR_MASK, F.DIG_STAT_OVR]
  omega

/-- The registers of an entry and those of a window share no bits. -/
theorem spared_entryFlds (c : Fin 32) (hi : Bool) : ∀ w ∈ windowFlds, spared (entryFlds c hi) w.1 w.2 = true := by
  revert c hi
  decide

theorem spared_windowFlds (c : Fin 32) (hi : Bool) : ∀ w ∈ entryFlds c hi, spared windowFlds w.1 w.2 = true := by
  revert c hi
  decide

/-- What an entry of channel `c` shows on the page. -/
structure EntryShown (g : Nat) (c : Fin 32) (hi : Bool) (s u : State) : Prop where
  side : u.getB (P.DIG g) (sideFld hi) c = true
  mask : bitOf (u.get (P.DIG g) F.DIG_OVR_MASK) c = true
  group : u.getB (P.DIG g) F.DIG_STAT_OVR = true
  count : u.get (P.DIG g) F.DIG_OVR_CNT c = Nat.min (s.get (P.DIG g) F.DIG_OVR_CNT c + 1) (2 ^ 32 - 1)
  others : ∀ k < 32, k ≠ c.val → u.get (P.DIG g) F.DIG_OVR_CNT k = s.get (P.DIG g) F.DIG_OVR_CNT k

theorem EntryShown.of_at {g : Nat} {c : Fin 32} {hi : Bool} {s u : State} {t : Nat} (h : EntryShown g c hi (s.at t) u) :
    EntryShown g c hi s u :=
  ⟨h.side, h.mask, h.group, h.count, h.others⟩

section entry
variable {s : State} (hs : s.Canon) {g : Nat} {c : Fin 32} {hi : Bool}

/-- The opening of the window leaves what the entry shows. -/
theorem EntryShown.window {u w : State} (h : EntryShown g c hi s u) (h' : DigBut g windowFlds u w) : EntryShown g c hi s w where
  side := (h'.getB _ _ (spared_windowFlds c hi (sideFld hi, c) (by simp [entryFlds]))).trans h.side
  mask := by rw [h'.get _ _ (by decide)]; exact h.mask
  group := (h'.getB _ _ (by decide)).trans h.group
  count := (h'.get _ _ (spared_windowFlds c hi (F.DIG_OVR_CNT, c) (by simp [entryFlds]))).trans h.count
  others k hk hne := (h'.get _ _ (spared_windowFlds ⟨k, hk⟩ hi (F.DIG_OVR_CNT, k) (by simp [entryFlds]))).trans (h.others k hk hne)

include hs

/-- An entry writes its fields, and shows what it should. -/
theorem State.overEntered_shows :
    DigBut g (entryFlds c hi) s (s.overEntered g c hi) ∧ EntryShown g c hi s (s.overEntered g c hi) := by
  obtain ⟨hbit, h32⟩ := sideFld_bit hi
  obtain ⟨hcnt, hcnt'⟩ := spared_ovrCnt c hi
  unfold State.overEntered
  extract_lets p s₁ s₂ s₃
  have h₁ : DigBut g [(sideFld hi, ↑c)] s s₁ := .putB hs _ _ _ ⟨hbit.le, h32⟩
  have h₂ : DigBut g [(F.DIG_OVR_CNT, ↑c)] s₁ s₂ := .sat h₁.canon _ _ _ (by decide)
  have h₃ : DigBut g [(F.DIG_OVR_MASK, 0)] s₂ s₃ := .put h₂.canon _ _ _ (by decide)
  have h₄ : DigBut g [(F.DIG_STAT_OVR, 0)] s₃ (s₃.putB p F.DIG_STAT_OVR true) := .putB h₃.canon _ _ _ (by decide)
  have h₅ := DigBut.level (g := g) h₄.canon 0 true
  have after₂ := h₃.append (h₄.append h₅)
  have after₁ := h₂.append after₂
  have hall : DigBut g (entryFlds c hi) s _ := h₁.append after₁
  refine ⟨hall, ?_, ?_, ?_, ?_, fun k hk hne => hall.get _ _ (spared_ovrCnt_other hi c.isLt hk hne)⟩
  · exact (after₁.getB _ _ (spared_sideFld c hi)).trans (State.getB_putB hs.active _ _ _ _ hbit h32)
  · rw [(h₄.append h₅).get _ _ (by decide)]
    exact State.bitOf_put_putBit h₂.canon.active _ c.isLt _ rfl rfl
  · exact (h₅.getB _ _ (by decide)).trans (State.getB_putB h₃.canon.active _ _ _ _ rfl (by decide))
  · rw [after₂.get _ _ hcnt', State.get_sat_word h₁.canon.active _ _ rfl rfl, h₁.get _ _ hcnt]

/-- The opening of a window shows it, names its first channel and counts it. -/
theorem State.windowOpened_shows (hg : g < 8) (t : Nat) : DigBut g windowFlds s (s.windowOpened g t c) ∧
    (s.windowOpened g t c).getB (P.DIG g) F.DIG_STAT_WINDOW = true ∧ (s.windowOpened g t c).get (P.DIG g) F.DIG_OVR_FIRST = c ∧
    (s.windowOpened g t c).get (P.DIG g) F.DIG_OVR_WIN_CNT = Nat.min (s.get (P.DIG g) F.DIG_OVR_WIN_CNT + 1) (2 ^ 32 - 1) := by
  unfold State.windowOpened
  extract_lets p s₂ s₃ s₄
  have h₁ : DigBut g [(F.DIG_STAT_WINDOW, 0)] s (s.putB p F.DIG_STAT_WINDOW true) := .putB hs _ _ _ (by decide)
  have h₂ : DigBut g [(F.DIG_OVR_FIRST, 0)] (s.putB p F.DIG_STAT_WINDOW true) s₂ := .put h₁.canon _ _ _ (by decide)
  have h₃ : DigBut g [(F.DIG_OVR_WIN_CNT, 0)] s₂ (s₂.sat p F.DIG_OVR_WIN_CNT) := .sat h₂.canon _ _ _ (by decide)
  have h₄ : DigBut g [] (s₂.sat p F.DIG_OVR_WIN_CNT) s₃ := .level h₃.canon _ _
  have hfront : (s₄.ovrMark g t true c).front = s₃.front := by simp [s₄]
  have h₅ := h₄.append (.quiet h₄.canon hg (State.ovrMark_keeps (State.note_keeps (.refl s₃) ..) ..) hfront)
  refine ⟨h₁.append (h₂.append (h₃.append h₅)), ?_, ?_, ?_⟩
  · exact ((h₂.append (h₃.append h₅)).getB _ _ (by decide)).trans (State.getB_putB hs.active _ _ _ _ rfl (by decide))
  · rw [(h₃.append h₅).get _ _ (by decide)]
    exact (State.get_put h₁.canon.active _ _ _ _ (by decide) (by decide)).trans (Nat.mod_eq_of_lt c.isLt)
  · rw [h₅.get _ _ (by decide), State.get_sat_word h₂.canon.active _ _ rfl rfl, (h₁.append h₂).get _ _ (by decide)]

end entry

/-- OVERRANGE_ENTRY on an enabled page. -/
theorem execOverrangeEntry_shows {s : State} (hs : s.Canon) {g : Fin 8} (he : s.enabled (P.DIG g) = true) (t : Nat) (c : Fin 32)
    (hi : Bool) : ∃ u, exec (.overrangeEntry t g c hi) s = .next u ∧ EntryShown g c hi s u ∧
      u.getB (P.DIG g) F.DIG_STAT_WINDOW = true ∧
      (s.getB (P.DIG g) F.DIG_STAT_WINDOW = false → u.get (P.DIG g) F.DIG_OVR_FIRST = c.val ∧
        u.get (P.DIG g) F.DIG_OVR_WIN_CNT = Nat.min (s.get (P.DIG g) F.DIG_OVR_WIN_CNT + 1) (2 ^ 32 - 1)) ∧
      (s.getB (P.DIG g) F.DIG_STAT_WINDOW = true → u.get (P.DIG g) F.DIG_OVR_FIRST = s.get (P.DIG g) F.DIG_OVR_FIRST ∧
        u.get (P.DIG g) F.DIG_OVR_WIN_CNT = s.get (P.DIG g) F.DIG_OVR_WIN_CNT) := by
  obtain ⟨hbut, hshown⟩ := State.overEntered_shows (s := s.at t) hs (g := g) (c := c) (hi := hi)
  have hwin : ((s.at t).overEntered g c hi).getB (P.DIG g) F.DIG_STAT_WINDOW = s.getB (P.DIG g) F.DIG_STAT_WINDOW :=
    hbut.getB _ _ (spared_entryFlds c hi (F.DIG_STAT_WINDOW, 0) (by decide))
  have hfirst : ((s.at t).overEntered g c hi).get (P.DIG g) F.DIG_OVR_FIRST = s.get (P.DIG g) F.DIG_OVR_FIRST :=
    hbut.get _ _ (spared_entryFlds c hi (F.DIG_OVR_FIRST, 0) (by decide))
  have hcnt : ((s.at t).overEntered g c hi).get (P.DIG g) F.DIG_OVR_WIN_CNT = s.get (P.DIG g) F.DIG_OVR_WIN_CNT :=
    hbut.get _ _ (spared_entryFlds c hi (F.DIG_OVR_WIN_CNT, 0) (by decide))
  refine ⟨_, execOverrangeEntry_enabled he t c hi, ?_⟩
  rw [hwin]
  cases hopen : s.getB (P.DIG g) F.DIG_STAT_WINDOW with
  | true => exact ⟨hshown.of_at, hwin.trans hopen, nofun, fun _ => ⟨hfirst, hcnt⟩⟩
  | false =>
    obtain ⟨hbut', hwin', hfirst', hcnt'⟩ := State.windowOpened_shows hbut.canon (g := g) (c := c) g.isLt t
    exact ⟨(hshown.window hbut').of_at, hwin', fun _ => ⟨hfirst', hcnt'.trans (by rw [hcnt])⟩, nofun⟩

/-! ### Exit and closing -/

theorem spared_chStatBits (c : Fin 32) : spared [(F.DIG_STAT_OVR, 0)] F.DIG_CH_STAT_OVR_HI c = true ∧
    spared [(F.DIG_STAT_OVR, 0)] F.DIG_CH_STAT_OVR_LO c = true := by
  revert c
  decide

theorem spared_chStat {c k : Nat} (hk : k < 32) (hne : k ≠ c) :
    spared [(F.DIG_CH_STAT_OVR_HI, c), (F.DIG_CH_STAT_OVR_LO, c), (F.DIG_STAT_OVR, 0)] F.DIG_CH_STAT k = true := by
  simp [spared_iff, bitsApart_iff, Fld.at, F.DIG_CH_STAT_OVR_HI, F.DIG_CH_STAT_OVR_LO, F.DIG_CH_STAT, F.DIG_STAT_OVR]
  omega

/-- The number of channels over-range does not rest on the group's bit. -/
theorem State.overCount_congr {s u : State} {g : Nat} (h : DigBut g [(F.DIG_STAT_OVR, 0)] s u) : u.overCount g = s.overCount g := by
  unfold State.overCount
  refine congrArg List.length (List.filter_congr fun c hc => ?_)
  obtain ⟨hhi, hlo⟩ := spared_chStatBits ⟨c, List.mem_range.1 hc⟩
  rw [h.getB _ _ hhi, h.getB _ _ hlo]

section exit
variable {s : State} (hs : s.Canon) {g : Nat}
include hs

/-- An exit clears both bits of the channel and notes its slot. -/
theorem State.overLeft_shows (hg : g < s.digs.length) (t : Nat) (c : Fin 32) :
    DigBut g [(F.DIG_CH_STAT_OVR_HI, c), (F.DIG_CH_STAT_OVR_LO, c)] s (s.overLeft g t c) ∧
      (s.overLeft g t c).getB (P.DIG g) F.DIG_CH_STAT_OVR_HI c = false ∧
      (s.overLeft g t c).getB (P.DIG g) F.DIG_CH_STAT_OVR_LO c = false ∧ ((s.overLeft g t c).dig g).ovrExit = t := by
  have hspared : spared [(F.DIG_CH_STAT_OVR_LO, ↑c)] F.DIG_CH_STAT_OVR_HI c = true := by
    revert c
    decide
  have h₁ := DigBut.putB (g := g) hs F.DIG_CH_STAT_OVR_HI false c (by decide)
  have h₂ := DigBut.putB (g := g) h₁.canon F.DIG_CH_STAT_OVR_LO false c (by decide)
  have h₃ := h₂.append (.modDig h₂.canon g (fun q => { q with ovrExit := t }))
  exact ⟨h₁.append h₃, (h₃.getB _ _ hspared).trans (State.getB_putB hs.active _ _ _ _ rfl (by decide)),
    State.getB_putB h₁.canon.active _ _ _ _ rfl (by decide), congrArg DigState.ovrExit (State.dig_modDig_self hg _)⟩

/-- The group's bit shows whether any channel is over-range. -/
theorem State.overShown_shows : DigBut g [(F.DIG_STAT_OVR, 0)] s (s.overShown g) ∧
    ((s.overShown g).getB (P.DIG g) F.DIG_STAT_OVR = true ↔ (s.overShown g).overCount g ≠ 0) ∧ (s.overShown g).digs = s.digs := by
  have h₁ := DigBut.putB (g := g) hs F.DIG_STAT_OVR (s.overCount g != 0) 0 (by decide)
  have h₂ : DigBut g [] _ (s.overShown g) := .level h₁.canon 0 (s.overCount g != 0)
  have hshown : (s.overShown g).getB (P.DIG g) F.DIG_STAT_OVR = (s.overCount g != 0) :=
    (h₂.getB _ _ (by decide)).trans (State.getB_putB hs.active _ _ _ _ rfl (by decide))
  refine ⟨h₁.append h₂, ?_, by simp [State.overShown]⟩
  rw [hshown, State.overCount_congr (h₁.append h₂), bne_iff_ne]

/-- The closing of a window shows on the page and in its event. -/
theorem State.windowClosed_shows (hg : g < 8) (t : Nat) : (s.windowClosed g t).getB (P.DIG g) F.DIG_STAT_WINDOW = false ∧
    bitOf ((s.windowClosed g t).reg (P.DIG g) H.RAW) 1 = false := by
  unfold State.windowClosed
  extract_lets p s₁
  have h₁ := DigBut.putB (g := g) hs F.DIG_STAT_WINDOW false 0 (by decide)
  have h₂ : DigBut g [] _ s₁ := .level h₁.canon 1 false
  have hfront := State.ovrMark_front s₁ g t false (s₁.get p F.DIG_OVR_FIRST)
  have h₃ := h₂.append (.quiet h₂.canon hg (State.ovrMark_keeps (.refl s₁) ..) hfront)
  refine ⟨(h₃.getB _ _ (by decide)).trans (State.getB_putB hs.active _ _ _ _ rfl (by decide)), ?_⟩
  rw [State.reg_of_front hfront (dig_notMem_backPages hg) (by decide)]
  exact State.bitOf_raw_level h₁.canon.active _ (by decide) _

end exit

/-- OVERRANGE_EXIT on an enabled page. -/
theorem execOverrangeExit_shows {s : State} (hs : s.Canon) {g : Fin 8} (hlen : s.digs.length = 8) (he : s.enabled (P.DIG g) = true)
    (t : Nat) (c : Fin 32) : ∃ u, exec (.overrangeExit t g c) s = .next u ∧ u.getB (P.DIG g) F.DIG_CH_STAT_OVR_HI c = false ∧
      u.getB (P.DIG g) F.DIG_CH_STAT_OVR_LO c = false ∧ (u.dig g).ovrExit = t ∧
      (u.getB (P.DIG g) F.DIG_STAT_OVR = true ↔ u.overCount g ≠ 0) ∧
      (∀ k < 32, k ≠ c.val → u.get (P.DIG g) F.DIG_CH_STAT k = s.get (P.DIG g) F.DIG_CH_STAT k) := by
  have hg : g.val < (s.at t).digs.length := Nat.lt_of_lt_of_eq g.isLt hlen.symm
  obtain ⟨hleft, hhi, hlo, hexit⟩ := State.overLeft_shows (s := s.at t) hs hg t c
  obtain ⟨hshown, hgroup, hdigs⟩ := State.overShown_shows hleft.canon (g := g)
  obtain ⟨hsparedHi, hsparedLo⟩ := spared_chStatBits c
  refine ⟨_, execOverrangeExit_enabled he t c, (hshown.getB _ _ hsparedHi).trans hhi, (hshown.getB _ _ hsparedLo).trans hlo, ?_,
    hgroup, fun k hk hne => (hleft.append hshown).get _ _ (spared_chStat hk hne)⟩
  rw [State.dig_congr hdigs]
  exact hexit

/-- Settles O29: entry, exit and closing each write the page as the rules of their operations say, and markers leave it. -/
theorem overRangeWindows : Obligations.OverRangeWindows := by
  intro s t g c hi hs hlen p
  refine ⟨fun he => ⟨?_, execOverrangeExit_shows hs hlen he t c, fun hw hc ht => ?_⟩, fun he => ⟨?_, ?_⟩,
    execOvrWindowClose_early⟩
  · obtain ⟨u, hu, hshown, hwin, hfirst, hopen⟩ := execOverrangeEntry_shows hs he t c hi
    exact ⟨u, hu, hshown.side, hshown.mask, hshown.group, hshown.count, hshown.others, hwin, hfirst, hopen⟩
  · exact ⟨_, execOvrWindowClose_due he hw hc ht, State.windowClosed_shows (s := s.at t) hs g.isLt t⟩
  · exact if_pos (by simp [p, he])
  · exact if_pos (by simp [p, he])

end Sys2Proof.Machine
end

section
/-!
SUPPORT. STATE mode of a group (R106 to R108, R112, R118): a clock edge taken or rejected, the clock absent, and the keep-alive entry. The
word a keep-alive repeats before the first entry is 0, as log entry 23 chooses.
-/
namespace Sys2Proof.Machine

/-! ### Taking a word -/

/-- What a clock edge sets of a group. -/
def DigState.clocking (q : DigState) : Option Nat × Nat := (q.lastEdge, q.samples)

/-- The operation leaves the registers of the front and, of the group's working state, its clocking. -/
structure WordTaken (g : Nat) (s u : State) : Prop where
  length : u.digs.length = s.digs.length
  reg : ∀ p o, p ∉ backPages → o < 0x1000 → u.reg p o = s.reg p o
  own : (u.dig g).clocking = (s.dig g).clocking

section taken
variable {g : Nat} {s u w : State}

theorem WordTaken.refl : WordTaken g s s := ⟨rfl, fun _ _ _ _ => rfl, rfl⟩

theorem WordTaken.trans (h : WordTaken g s u) (h' : WordTaken g u w) : WordTaken g s w :=
  ⟨h'.length.trans h.length, fun p o hp ho => (h'.reg p o hp ho).trans (h.reg p o hp ho), h'.own.trans h.own⟩

theorem WordTaken.ite {c : Prop} [Decidable c] (h : WordTaken g s u) (h' : WordTaken g s w) : WordTaken g s (if c then u else w) := by
  split <;> assumption

theorem WordTaken.appendItem {sid : Nat} (h : sid < 22) (it : Item) : WordTaken g s (s.appendItem sid it) := by
  have hfront := State.appendItem_front s h it
  have hdigs := State.digs_of_front hfront
  exact ⟨congrArg List.length hdigs, fun _ _ hp ho => State.reg_of_front hfront hp ho, by rw [State.dig_congr hdigs]⟩

theorem WordTaken.modDig (hg : g < s.digs.length) {f : DigState → DigState} (hf : ∀ q, (f q).clocking = q.clocking) :
    WordTaken g s (s.modDig g f) :=
  ⟨length_lmod _ _ _, fun _ _ _ _ => rfl, by rw [State.dig_modDig_self hg, hf]⟩

theorem WordTaken.seamAdd (sid slot a b : Nat) (c : Int) : WordTaken g s (s.seamAdd sid slot a b c) := by
  unfold State.seamAdd State.seamWith
  extract_lets e
  exact .ite .refl (.ite ⟨rfl, fun _ _ _ _ => rfl, rfl⟩ ⟨rfl, fun _ _ _ _ => rfl, rfl⟩)

theorem WordTaken.entry (hg : g < 22) (hl : g < s.digs.length) (slot word : Nat) : WordTaken g s (s.entry g slot word) := by
  unfold State.entry
  extract_lets d s₁
  have h₁ : WordTaken g s s₁ := .appendItem hg _
  exact h₁.trans (.modDig (by rw [h₁.length]; exact hl) fun _ => rfl)

theorem State.takeWord_taken (hg : g < 22) (hl : g < s.digs.length) (slot word : Nat) : WordTaken g s (s.takeWord g slot word) := by
  unfold State.takeWord
  extract_lets prev s₁ m m' full s₂
  have h₁ : WordTaken g s s₁ := .seamAdd ..
  have h₂ : WordTaken g s s₂ :=
    h₁.trans (.ite (.appendItem hg _) (.ite (.entry hg (by rw [h₁.length]; exact hl) _ _) .refl))
  exact .ite .refl (h₂.trans (.modDig (by rw [h₂.length]; exact hl) fun _ => rfl))

end taken

/-! ### The clock present and absent -/

theorem State.digMode_congr {s u : State} {g : Nat} (hg : u.regs.lastGood = s.regs.lastGood)
    (hctl : u.reg (P.DIG g) H.CTL = s.reg (P.DIG g) H.CTL)
    (hmode : u.reg (P.DIG g) F.DIG_MODE_MODE.off = s.reg (P.DIG g) F.DIG_MODE_MODE.off) : u.digMode g = s.digMode g := by
  unfold State.digMode State.enabled
  rw [hctl, State.use_congr hg hmode]

theorem SameBlocks.digs {s u : State} (h : SameBlocks s u) : u.digs = s.digs := congrArg (·.digs) h

/-- In STATE the page shows whether the clock is present (R117, R118). -/
theorem State.digState_state {s : State} {g : Nat} (hmode : s.digMode g = M.STATE) : s.digState g =
    (s.setBlockState (P.DIG g) (if s.getB (P.DIG g) F.DIG_STAT_STATE_CLK then M.STATE else 4)).level (P.DIG g) 2
      (!s.getB (P.DIG g) F.DIG_STAT_STATE_CLK) := by
  unfold State.digState
  dsimp only
  rw [hmode]
  cases s.getB (P.DIG g) F.DIG_STAT_STATE_CLK <;> simp

theorem State.digState_shows {s : State} (hs : s.Canon) {g : Nat} (hmode : s.digMode g = M.STATE) {b : Bool}
    (hclk : s.getB (P.DIG g) F.DIG_STAT_STATE_CLK = b) : DigBut g [] s (s.digState g) ∧ SameBlocks s (s.digState g) ∧
      (s.digState g).blockState (P.DIG g) = (if b then M.STATE else 4) ∧ bitOf ((s.digState g).reg (P.DIG g) H.RAW) 2 = !b := by
  have hcode : (if b then M.STATE else 4) < 16 := by cases b <;> decide
  rw [State.digState_state hmode, hclk]
  have h₁ := DigBut.setBlockState (g := g) hs (if b then M.STATE else 4)
  refine ⟨h₁.append (.level h₁.canon 2 _), (SameBlocks.setReg ..).trans (SameBlocks.level ..), ?_,
    State.bitOf_raw_level h₁.canon.active _ (by decide) _⟩
  refine (State.blockState_congr ?_).trans (State.blockState_setBlockState hs.active _ hcode)
  exact State.level_reg h₁.canon.active _ _ _ _ _ (by simp [rkey, H.STAT, H.PEND]) (by simp [rkey, H.STAT, H.RAW])

/-- A status field put leaves the group's mode. -/
theorem State.digMode_put {s : State} (hs : s.ActiveWf) (g : Nat) (f : Fld) (v : Nat) (hf : F.DIG_MODE_MODE.off < f.at 0) :
    (s.put (P.DIG g) f v).digMode g = s.digMode g :=
  State.digMode_congr rfl
    (State.reg_put_ne hs _ _ _ _ _ _ (by simp [rkey, H.CTL, F.DIG_MODE_MODE] at *; omega))
    (State.reg_put_ne hs _ _ _ _ _ _ (by simp [rkey, F.DIG_MODE_MODE] at *; omega))

/-! ### A clock edge -/

/-- The word of a clock edge: the levels at its slot, and the clock's own level after it when the group clocks itself. -/
def State.clockWord (s : State) (g : Nat) (rising : Bool) (word : Word) : Nat :=
  let cg := s.use (P.DIG g) F.DIG_STATE_CFG_CLK_GROUP
  let up := rising != s.useB (P.DIG cg) F.DIG_CH_CFG_INVERT 0
  let w := sampleWord (s.invMask g) (s.chanMask g) word.toNat
  if cg = g then putBit w 0 up else w

/-- A clock edge accepted, up to its word. -/
def State.edgeTaken (s : State) (g t : Nat) : State :=
  let p := P.DIG g
  let ofs := sx 4 (s.use p F.DIG_STATE_CFG_OFS)
  let n := (s.dig g).samples
  let s := s.modDig g (fun q => { q with lastEdge := some t, samples := n + 1, strobes := q.strobes ++ [((t : Int) + ofs).toNat] })
  ((s.wrap p F.DIG_STATE_EDGE_CNT).putB p F.DIG_STAT_STATE_CLK true).digState g

/-- Whether an edge has the slope the group wants (R106). -/
def State.slopeWanted (s : State) (g : Nat) (rising : Bool) : Prop :=
  let up := rising != s.useB (P.DIG (s.use (P.DIG g) F.DIG_STATE_CFG_CLK_GROUP)) F.DIG_CH_CFG_INVERT 0
  let e := s.use (P.DIG g) F.DIG_STATE_CFG_EDGE
  e = 2 ∨ e = 0 ∧ up = true ∨ e = 1 ∧ up = false

section edge
variable {s : State} {g : Fin 8} {t : Nat} {rising : Bool}

theorem State.slopeWanted.code (h : s.slopeWanted g rising) :
    let up := rising != s.useB (P.DIG (s.use (P.DIG g) F.DIG_STATE_CFG_CLK_GROUP)) F.DIG_CH_CFG_INVERT 0
    let e := s.use (P.DIG g) F.DIG_STATE_CFG_EDGE
    (e == 2 || (e == 0 && up) || (e == 1 && !up)) = true := by
  rcases h with he | ⟨he, hup⟩ | ⟨he, hup⟩
  · simp [he]
  · simp [he, hup]
  · simp [he, hup]

variable (w : Word) (hmode : s.digMode g = M.STATE) (hown : s.groupValid g = true)
  (hclk : s.groupValid (s.use (P.DIG g) F.DIG_STATE_CFG_CLK_GROUP) = true) (hslope : s.slopeWanted g rising)
include hmode hown hclk hslope

/-- An edge wanted is judged by its distance from the last one accepted. -/
theorem execStateClockEdge_far (hfar : ∀ l, (s.dig g).lastEdge = some l → l + 4 ≤ t) :
    exec (.stateClockEdge t g rising w) s = .next (
      if (s.dig g).samples % 2 ^ ((s.at t).edgeTaken g t).stepAt g t = 0
      then ((s.at t).edgeTaken g t).takeWord g t (s.clockWord g rising w) else (s.at t).edgeTaken g t) := by
  refine (if_neg ?_).trans (if_neg ?_)
  · simp [hmode, hown, hclk, hslope.code]
  · rw [State.dig_at]
    cases hl : (s.dig g).lastEdge with
    | none => simp
    | some l => simpa using hfar l hl

theorem execStateClockEdge_near {l : Nat} (hl : (s.dig g).lastEdge = some l) (hnear : t < l + 4) :
    exec (.stateClockEdge t g rising w) s = .next (((s.at t).sat (P.DIG g) F.DIG_STATE_REJ_CNT).pulse (P.DIG g) 3) := by
  refine (if_neg ?_).trans (if_pos ?_)
  · simp [hmode, hown, hclk, hslope.code]
  · rw [State.dig_at, hl]
    simpa using hnear

end edge

/-- An edge accepted is the latest, is counted, and shows the clock present. -/
theorem State.edgeTaken_shows {s : State} (hs : s.Canon) {g : Nat} (hg : g < s.digs.length) (hmode : s.digMode g = M.STATE) (t : Nat) :
    (s.edgeTaken g t).digs.length = s.digs.length ∧ ((s.edgeTaken g t).dig g).clocking = (some t, (s.dig g).samples + 1) ∧
      (s.edgeTaken g t).getB (P.DIG g) F.DIG_STAT_STATE_CLK = true ∧
      (s.edgeTaken g t).get (P.DIG g) F.DIG_STATE_EDGE_CNT = (s.get (P.DIG g) F.DIG_STATE_EDGE_CNT + 1) % 2 ^ 32 ∧
      (s.edgeTaken g t).blockState (P.DIG g) = M.STATE := by
  unfold State.edgeTaken
  extract_lets p ofs n s₁
  have h₁ : s₁.Canon := hs
  have h₂ : DigBut g [(F.DIG_STATE_EDGE_CNT, 0)] s₁ (s₁.wrap p F.DIG_STATE_EDGE_CNT) := .put h₁ _ _ _ (by decide)
  have h₃ : DigBut g [(F.DIG_STAT_STATE_CLK, 0)] _ ((s₁.wrap p F.DIG_STATE_EDGE_CNT).putB p F.DIG_STAT_STATE_CLK true) :=
    .putB h₂.canon _ _ _ (by decide)
  have hclk : ((s₁.wrap p F.DIG_STATE_EDGE_CNT).putB p F.DIG_STAT_STATE_CLK true).getB p F.DIG_STAT_STATE_CLK = true :=
    State.getB_putB h₂.canon.active _ _ _ _ rfl (by decide)
  have hmode' : ((s₁.wrap p F.DIG_STATE_EDGE_CNT).putB p F.DIG_STAT_STATE_CLK true).digMode g = M.STATE :=
    (State.digMode_put h₂.canon.active g _ _ (by decide)).trans ((State.digMode_put h₁.active g _ _ (by decide)).trans hmode)
  obtain ⟨h₄, hsame, hblock, -⟩ := State.digState_shows h₃.canon hmode' hclk
  have hdigs := hsame.digs
  refine ⟨(congrArg List.length hdigs).trans (length_lmod _ _ _), ?_, (h₄.getB _ _ (by decide)).trans hclk, ?_, hblock⟩
  · rw [State.dig_congr hdigs]
    exact congrArg DigState.clocking (State.dig_modDig_self hg _)
  · rw [(h₃.append h₄).get _ _ (by decide)]
    exact State.get_put h₁.active _ _ _ _ (by decide) (by decide)

/-- STATE_CLOCK_EDGE four slots or more after the last one accepted. -/
theorem execStateClockEdge_accepts {s : State} (hs : s.Canon) (hlen : s.digs.length = 8) {g : Fin 8} {t : Nat} {rising : Bool} (w : Word)
    (hmode : s.digMode g = M.STATE) (hown : s.groupValid g = true)
    (hclk : s.groupValid (s.use (P.DIG g) F.DIG_STATE_CFG_CLK_GROUP) = true) (hslope : s.slopeWanted g rising)
    (hfar : ∀ l, (s.dig g).lastEdge = some l → l + 4 ≤ t) : ∃ u, exec (.stateClockEdge t g rising w) s = .next u ∧
      (u.dig g).lastEdge = some t ∧ (u.dig g).samples = (s.dig g).samples + 1 ∧ u.getB (P.DIG g) F.DIG_STAT_STATE_CLK = true ∧
      u.get (P.DIG g) F.DIG_STATE_EDGE_CNT = (s.get (P.DIG g) F.DIG_STATE_EDGE_CNT + 1) % 2 ^ 32 ∧
      u.blockState (P.DIG g) = M.STATE := by
  have hg : g.val < (s.at t).digs.length := Nat.lt_of_lt_of_eq g.isLt hlen.symm
  obtain ⟨hlen', hown', hpresent, hcnt, hblock⟩ := State.edgeTaken_shows (s := s.at t) hs hg hmode t
  refine ⟨_, execStateClockEdge_far w hmode hown hclk hslope hfar, ?_⟩
  generalize hx : (s.at t).edgeTaken g t = x at *
  have htaken : WordTaken g x (if (s.dig g).samples % 2 ^ x.stepAt g t = 0 then x.takeWord g t (s.clockWord g rising w) else x) :=
    .ite (State.takeWord_taken (by omega) (by omega) _ _) .refl
  generalize (if (s.dig g).samples % 2 ^ x.stepAt g t = 0 then x.takeWord g t (s.clockWord g rising w) else x) = u at htaken ⊢
  have hreg {o : Nat} (ho : o < 0x1000) : u.reg (P.DIG g) o = x.reg (P.DIG g) o :=
    htaken.reg _ _ (dig_notMem_backPages g.isLt) ho
  obtain ⟨hlast, hsamples⟩ : _ = _ ∧ _ = _ := Prod.mk.inj (htaken.own.trans hown')
  refine ⟨hlast, hsamples, ?_, (State.get_congr (hreg (by decide))).trans hcnt,
    (State.blockState_congr (hreg (by decide))).trans hblock⟩
  exact (congrArg (· == 1) (State.get_congr (hreg (by decide)))).trans hpresent

/-! ### Time-out and keep-alive -/

/-- STATE_CLK_TIMEOUT shows the clock absent. -/
theorem execStateClkTimeout_absent {s : State} (hs : s.Canon) {g : Fin 8} {t : Nat} (hmode : s.digMode g = M.STATE)
    (hus : s.use (P.DIG g) F.DIG_STATE_CFG_TIMEOUT ≠ 0)
    (ht : usSlots (s.use (P.DIG g) F.DIG_STATE_CFG_TIMEOUT) ≤ t - (s.dig g).lastEdge.getD 0) :
    ∃ u, exec (.stateClkTimeout t g) s = .next u ∧ u.getB (P.DIG g) F.DIG_STAT_STATE_CLK = false ∧ u.blockState (P.DIG g) = 4 ∧
      bitOf (u.reg (P.DIG g) H.RAW) 2 = true ∧ SameBlocks s u := by
  have hc : (s.at t).Canon := hs
  have h₁ := DigBut.putB (g := g) hc F.DIG_STAT_STATE_CLK false 0 (by decide)
  have hclk : ((s.at t).putB (P.DIG g) F.DIG_STAT_STATE_CLK false).getB (P.DIG g) F.DIG_STAT_STATE_CLK = false :=
    State.getB_putB hc.active _ _ _ _ rfl (by decide)
  have hmode' : ((s.at t).putB (P.DIG g) F.DIG_STAT_STATE_CLK false).digMode g = M.STATE :=
    (State.digMode_put hc.active g _ _ (by decide)).trans hmode
  obtain ⟨h₂, hsame, hblock, hraw⟩ := State.digState_shows h₁.canon hmode' hclk
  have hput : SameBlocks s ((s.at t).putB (P.DIG g) F.DIG_STAT_STATE_CLK false) := rfl
  exact ⟨_, congrArg Host.Outcome.next (if_pos ⟨hmode, hus, ht⟩), (h₂.getB _ _ (by decide)).trans hclk, hblock, hraw,
    hput.trans hsame⟩

theorem execStateClkTimeout_off {s : State} {g : Fin 8} (t : Nat) (hus : s.use (P.DIG g) F.DIG_STATE_CFG_TIMEOUT = 0) :
    exec (.stateClkTimeout t g) s = .next (s.at t) :=
  congrArg Host.Outcome.next (if_neg fun ⟨_, hne, _⟩ => hne hus)

theorem execKeepAlive_due {s : State} {g : Fin 8} {t : Nat} (hmode : s.digMode g = M.STATE) (hrec : s.recording g = true)
    (ht : (s.dig g).lastEntry + 0xFFFFFFFF ≤ t) : exec (.keepAlive t g) s =
      let due := (s.dig g).lastEntry + 0xFFFFFFFF
      let words := [w64 ((s.dig g).lastWord.getD 0 * 2 ^ 32 + 0xFFFFFFFF)]
      .next (((s.at t).appendItem g { slot := due, words := words, ply := none }).modDig g (fun q => { q with lastEntry := due })) :=
  if_neg (by simpa [hmode, hrec] using ht)

theorem execKeepAlive_early {s : State} {g : Fin 8} {t : Nat} (ht : t < (s.dig g).lastEntry + 0xFFFFFFFF) :
    exec (.keepAlive t g) s = .next (s.at t) :=
  if_pos (.inr (.inr ht))

/-- Settles O30: an edge wanted is taken or rejected by its distance from the last; taking its word leaves what the edge shows. -/
theorem stateModeClocking : Obligations.StateModeClocking := by
  intro s t g rising w hs hlen hmode p cg up e
  refine ⟨fun hown hclk hslope => ⟨execStateClockEdge_accepts hs hlen w hmode hown hclk hslope, fun l hl hnear => ?_⟩,
    execStateClkTimeout_absent hs hmode, execStateClkTimeout_off t, execKeepAlive_due hmode, execKeepAlive_early⟩
  have hc : (s.at t).Canon := hs
  have hsat : SameBlocks s ((s.at t).sat p F.DIG_STATE_REJ_CNT) := rfl
  refine ⟨_, execStateClockEdge_near w hmode hown hclk hslope hl hnear, by simp, ?_, RegsBut.sat_pulse hc.active p F.DIG_STATE_REJ_CNT 3,
    hsat.trans (SameBlocks.pulse ..)⟩
  exact State.get_sat_pulse hc.active _ _ rfl rfl (by simp [rkey, Fld.at, F.DIG_STATE_REJ_CNT])

end Sys2Proof.Machine
end

section
/-!
SUPPORT. Operations that write only named registers, and lists of fields put one after the other (R32, R46).
-/
namespace Sys2Proof.Machine

/-! ### Operations that show something -/

/-- The keys of registers of one page. -/
def pageKeys (p : Nat) (os : List Nat) : List Nat := os.map (rkey p)

@[simp] theorem rkey_mem_pageKeys {p o : Nat} {os : List Nat} : rkey p o ∈ pageKeys p os ↔ o ∈ os := by
  simp [pageKeys, rkey]

/-- The operation writes no register but those of the listed keys and leaves every block's working state. -/
structure Shows (ks : List Nat) (s u : State) : Prop where
  canon : u.Canon
  regs : RegsBut ks s u
  blocks : SameBlocks s u

section shows
variable {ks : List Nat} {s u w : State}

theorem Shows.refl (hs : s.Canon) : Shows ks s s := ⟨hs, .refl _ _, .refl _⟩

theorem Shows.trans (h : Shows ks s u) (h' : Shows ks u w) : Shows ks s w :=
  ⟨h'.canon, h.regs.trans h'.regs, h.blocks.trans h'.blocks⟩

theorem Shows.mono {ks' : List Nat} (h : Shows ks s u) (hk : ks ⊆ ks') : Shows ks' s u :=
  ⟨h.canon, fun p o hn => h.regs p o fun hm => hn (hk hm), h.blocks⟩

theorem Shows.get (h : Shows ks s u) (p : Nat) (f : Fld) (i : Nat) (hk : rkey p (f.at i) ∉ ks) : u.get p f i = s.get p f i :=
  State.get_congr (h.regs _ _ hk)

theorem Shows.put (h : Shows ks s u) (p : Nat) (f : Fld) (v i : Nat) (hk : rkey p (f.at i) ∈ ks) : Shows ks s (u.put p f v i) :=
  h.trans ⟨(State.put_keeps (.refl u) ..).canon h.canon, .setReg h.canon.active _ _ _ hk, .setReg ..⟩

theorem Shows.pulse (h : Shows ks s u) (p b : Nat) (hk : rkey p H.PEND ∈ ks) : Shows ks s (u.pulse p b) :=
  h.trans ⟨(State.pulse_keeps (.refl u) ..).canon h.canon,
    fun q o hn => State.pulse_reg h.canon.active p b q o fun e => hn (by rw [e]; exact hk), SameBlocks.pulse u p b⟩

theorem Shows.level (h : Shows ks s u) (p b : Nat) (v : Bool) (hr : rkey p H.RAW ∈ ks) (hk : rkey p H.PEND ∈ ks) :
    Shows ks s (u.level p b v) :=
  h.trans ⟨(State.level_keeps (.refl u) ..).canon h.canon,
    fun q o hn => State.level_reg h.canon.active p b v q o (fun e => hn (by rw [e]; exact hk)) (fun e => hn (by rw [e]; exact hr)),
    SameBlocks.level u p b v⟩

theorem Shows.ite {c : Prop} [Decidable c] (h : Shows ks s u) (h' : Shows ks s w) : Shows ks s (if c then u else w) := by
  split <;> assumption

end shows

/-! ### Lists of fields -/

/-- Put a list of fields of one instance, each with its value. -/
def State.putAll (s : State) (p i : Nat) (ws : List (Fld × Nat)) : State := s.each ws (fun s w => s.put p w.1 w.2 i)

theorem State.putAll_cons (s : State) (p i : Nat) (w : Fld × Nat) (r : List (Fld × Nat)) :
    s.putAll p i (w :: r) = (s.put p w.1 w.2 i).putAll p i r := rfl

theorem State.putAll_shows {s : State} (hs : s.Canon) (p i : Nat) (ws : List (Fld × Nat)) :
    Shows (pageKeys p (ws.map (fun w => w.1.at i))) s (s.putAll p i ws) := by
  induction ws generalizing s with
  | nil => exact .refl hs
  | cons w r ih =>
    have hput : Shows (pageKeys p ((w :: r).map (fun w => w.1.at i))) s (s.put p w.1 w.2 i) := .put (.refl hs) _ _ _ _ (by simp)
    exact hput.trans ((ih hput.canon).mono (List.map_subset _ (List.subset_cons_self _ _)))

/-- Whole registers put one after the other, none twice, read back. -/
theorem State.putAll_get {s : State} (hs : s.Canon) (p i : Nat) {ws : List (Fld × Nat)} (hws : (ws.map (fun w => w.1.at i)).Nodup)
    (hf : ∀ f ∈ ws.map Prod.fst, f.lo = 0 ∧ f.hi = 31) : ∀ w ∈ ws, (s.putAll p i ws).get p w.1 i = w.2 % 2 ^ 32 := by
  induction ws generalizing s with
  | nil => exact fun w hw => nomatch hw
  | cons e r ih =>
    obtain ⟨hfresh, hr⟩ := List.nodup_cons.1 hws
    have hput : Shows [rkey p (e.1.at i)] s (s.put p e.1 e.2 i) := .put (.refl hs) _ _ _ _ (by simp)
    intro w hw
    rw [State.putAll_cons]
    rcases List.mem_cons.1 hw with rfl | hmem
    · obtain ⟨hlo, hhi⟩ := hf w.1 (by simp)
      rw [(State.putAll_shows hput.canon p i r).get p w.1 i (by simpa using hfresh),
        State.get_put hs.active _ _ _ _ (by omega) (by omega), hlo, hhi]
    · exact ih hput.canon hr (fun f hm => hf f (List.mem_cons_of_mem _ hm)) w hmem

end Sys2Proof.Machine
end

section
/-!
SUPPORT. Snapshots of the pairing units (R133), and the broadcast of threshold and hysteresis under staging (R117).
-/
namespace Sys2Proof.Machine

/-! ### Pairing units -/

theorem State.ip_modIp {s : State} {u : Nat} (hu : u < s.ips.length) (f : IpUnit → IpUnit) (n : Nat) :
    (s.modIp u f).ip n = if n = u then f (s.ip u) else s.ip n := getD_lmod s.ips u n f _ hu

theorem State.ip_congr {s u : State} (h : u.ips = s.ips) (n : Nat) : u.ip n = s.ip n := by
  unfold State.ip
  rw [h]

theorem unsx_lt (w : Nat) (i : Int) : unsx w i < 2 ^ w := by
  have := Nat.two_pow_pos w
  unfold unsx
  omega

theorem SameBlocks.ips {s u : State} (h : SameBlocks s u) : u.ips = s.ips := congrArg (·.ips) h

/-- The registers in which unit `k` of a page shows its state: IP_STAT, and the level event of both units. -/
def ipStatOffs (k : Nat) : List Nat := [F.IP_STAT.at k, H.RAW, H.PEND]

theorem State.ipShow_shows {s : State} (hs : s.Canon) (u : Nat) :
    Shows (pageKeys (P.STP (u / 2)) (ipStatOffs (u % 2))) s (s.ipShow u) := by
  refine .level (.put (.put (.refl hs) _ _ _ _ ?_) _ _ _ _ ?_) _ _ _ ?_ ?_ <;>
    simp [ipStatOffs, Fld.at, F.IP_STAT, F.IP_STAT_ARMED, F.IP_STAT_OVFL]

/-! ### One unit's snapshot -/

/-- The statistics registers of a unit with the running values a snapshot copies into them. -/
def IpUnit.statistics (q : IpUnit) : List (Fld × Nat) :=
  [(F.IP_CNT, q.cnt), (F.IP_MIN_LO, unsx 64 q.min), (F.IP_MIN_HI, unsx 64 q.min / 2 ^ 32), (F.IP_MAX_LO, unsx 64 q.max),
    (F.IP_MAX_HI, unsx 64 q.max / 2 ^ 32), (F.IP_SUM_LO, unsx 64 q.sum), (F.IP_SUM_HI, unsx 64 q.sum / 2 ^ 32),
    (F.IP_SUMSQ0, q.sumSq), (F.IP_SUMSQ1, q.sumSq / 2 ^ 32), (F.IP_SUMSQ2, q.sumSq / 2 ^ 64)]

/-- The registers of `IpUnit.statistics`. -/
def statisticsFlds : List Fld := IpUnit.empty.statistics.map Prod.fst

theorem statisticsFlds_words : ∀ f ∈ statisticsFlds, f.lo = 0 ∧ f.hi = 31 := by decide

theorem statisticsFlds_nodup : ∀ k < 2, (statisticsFlds.map (·.at k)).Nodup := by decide

theorem statisticsFlds_apart : ∀ k < 2, ∀ f ∈ statisticsFlds, f.at k ∉ ipStatOffs k := by decide

theorem mem_statisticsFlds {q : IpUnit} {w : Fld × Nat} (hw : w ∈ q.statistics) : w.1 ∈ statisticsFlds :=
  show w.1 ∈ q.statistics.map Prod.fst from List.mem_map_of_mem hw

/-- The running statistics restart; an armed start stays. -/
def IpUnit.restarted (q : IpUnit) : IpUnit := { q with cnt := 0, min := 0, max := 0, sum := 0, sumSq := 0, ovfl := false }

/-- A unit's statistics restart with SNAP_CLR. -/
def State.restartIf (s : State) (u : Nat) (clr : Bool) : State := if clr then s.modIp u IpUnit.restarted else s

theorem State.restartIf_spec {s : State} (hs : s.Canon) {u : Nat} (hu : u < s.ips.length) (clr : Bool) :
    (s.restartIf u clr).Canon ∧ (s.restartIf u clr).ips.length = s.ips.length ∧ (s.restartIf u clr).regs = s.regs ∧
      (s.restartIf u clr).ip u = (if clr then (s.ip u).restarted else s.ip u) ∧ ∀ n ≠ u, (s.restartIf u clr).ip n = s.ip n := by
  cases clr with
  | false => exact ⟨hs, rfl, rfl, rfl, fun _ _ => rfl⟩
  | true =>
    exact ⟨hs, length_lmod _ _ _, rfl, (State.ip_modIp hu _ u).trans (if_pos rfl),
      fun n hn => (State.ip_modIp hu _ n).trans (if_neg hn)⟩

/-- Unit `k` of a page is copied into its registers and, with SNAP_CLR, restarts. -/
def State.unitSnapped (s : State) (g k : Nat) (clr : Bool) : State :=
  ((s.putAll (P.STP g) k (s.ip (2 * g + k)).statistics).restartIf (2 * g + k) clr).ipShow (2 * g + k)

/-- The turn of unit `k` in a write of STP_IP_SNAP. -/
def State.snapTurn (s : State) (g v k : Nat) : State := if !bitOf v k then s else s.unitSnapped g k (bitOf v 2)

theorem execStpIpSnap_next (s : State) (g : Fin 8) (v : Word) :
    exec (.stpIpSnap g v) s = .next ((s.snapTurn g v.toNat 0).snapTurn g v.toNat 1) := rfl

/-- The registers a snapshot of unit `k` writes. -/
def snapOffs (k : Nat) : List Nat := statisticsFlds.map (·.at k) ++ ipStatOffs k

theorem snapOffs_lt : ∀ k < 2, ∀ o ∈ snapOffs k, o < 0x1000 := by decide

theorem statisticsFlds_other_unit : ∀ f ∈ statisticsFlds, f.at 0 ∉ snapOffs 1 := by decide

/-- What the turn of unit `k` in a snapshot write leaves, the unit named or not. -/
structure Snapped (g k : Nat) (named clr : Bool) (s u : State) : Prop where
  canon : u.Canon
  length : u.ips.length = s.ips.length
  regs : RegsBut (pageKeys (P.STP g) (snapOffs k)) s u
  statistics : named = true → ∀ w ∈ (s.ip (2 * g + k)).statistics, u.get (P.STP g) w.1 k = w.2 % 2 ^ 32
  own : named = true → u.ip (2 * g + k) = if clr then (s.ip (2 * g + k)).restarted else s.ip (2 * g + k)
  others : ∀ n, (named = true → n ≠ 2 * g + k) → u.ip n = s.ip n

theorem State.unitSnapped_snaps {s : State} (hs : s.Canon) {g k : Nat} (hk : k < 2) (hu : 2 * g + k < s.ips.length) (clr : Bool) :
    Snapped g k true clr s (s.unitSnapped g k clr) := by
  unfold State.unitSnapped
  have hput := State.putAll_shows hs (P.STP g) k (s.ip (2 * g + k)).statistics
  have hread := State.putAll_get hs (P.STP g) k (ws := (s.ip (2 * g + k)).statistics) (statisticsFlds_nodup k hk) statisticsFlds_words
  generalize s.putAll (P.STP g) k (s.ip (2 * g + k)).statistics = x at hput hread
  have hip (n : Nat) : x.ip n = s.ip n := State.ip_congr hput.blocks.ips n
  have hlen : x.ips.length = s.ips.length := congrArg List.length hput.blocks.ips
  obtain ⟨hy, hylen, hyregs, hyown, hyothers⟩ := State.restartIf_spec hput.canon (hlen ▸ hu) clr
  have hshow := State.ipShow_shows hy (2 * g + k)
  rw [show (2 * g + k) / 2 = g by omega, show (2 * g + k) % 2 = k by omega] at hshow
  generalize x.restartIf (2 * g + k) clr = y at *
  have hreg (p o : Nat) : y.reg p o = x.reg p o := State.reg_congr (congrArg Regs.active hyregs) p o
  have hships (n : Nat) := State.ip_congr hshow.blocks.ips n
  refine ⟨hshow.canon, (congrArg List.length hshow.blocks.ips).trans (hylen.trans hlen), fun p o hn => ?_, fun _ w hw => ?_, fun _ => ?_,
    fun n hn => ?_⟩
  · rw [pageKeys, snapOffs, List.map_append, List.mem_append, not_or] at hn
    exact (hshow.regs p o hn.2).trans ((hreg p o).trans (hput.regs p o hn.1))
  · have hapart : rkey (P.STP g) (w.1.at k) ∉ pageKeys (P.STP g) (ipStatOffs k) :=
      fun hm => statisticsFlds_apart k hk w.1 (mem_statisticsFlds hw) (rkey_mem_pageKeys.1 hm)
    exact (hshow.get _ _ _ hapart).trans ((State.get_congr (hreg _ _)).trans (hread w hw))
  · rw [hships, hyown, hip]
  · rw [hships, hyothers n (hn rfl), hip]

theorem State.snapTurn_snaps {s : State} (hs : s.Canon) {g k : Nat} (hk : k < 2) (hu : 2 * g + k < s.ips.length) (v : Nat) :
    Snapped g k (bitOf v k) (bitOf v 2) s (s.snapTurn g v k) := by
  unfold State.snapTurn
  cases bitOf v k with
  | true => exact State.unitSnapped_snaps hs hk hu _
  | false => exact ⟨hs, rfl, .refl _ _, nofun, nofun, fun _ _ => rfl⟩

/-- A snapshot write: what each unit named shows and keeps, and that nothing else of the units changes. -/
theorem execStpIpSnap_snaps {s : State} (hs : s.Canon) (hlen : s.ips.length = 16) (g : Fin 8) (v : Word) :
    ∃ u, exec (.stpIpSnap g v) s = .next u ∧
      (∀ k < 2, bitOf v.toNat k = true → (∀ w ∈ (s.ip (2 * g + k)).statistics, u.get (P.STP g) w.1 k = w.2 % 2 ^ 32) ∧
        u.ip (2 * g + k) = if bitOf v.toNat 2 then (s.ip (2 * g + k)).restarted else s.ip (2 * g + k)) ∧
      (∀ n, (∀ k < 2, bitOf v.toNat k = true → n ≠ 2 * g.val + k) → u.ip n = s.ip n) ∧ PagesBut [P.STP g] s u := by
  have h₀ := State.snapTurn_snaps hs (g := g) (k := 0) (by omega) (by omega) v.toNat
  have h₁ := State.snapTurn_snaps h₀.canon (g := g) (k := 1) (by omega) (by rw [h₀.length]; omega) v.toNat
  refine ⟨_, execStpIpSnap_next s g v, ?_⟩
  generalize s.snapTurn g v.toNat 0 = x at h₀ h₁
  generalize x.snapTurn g v.toNat 1 = u at h₁
  refine ⟨fun k hk hnamed => ?_, fun n hn => (h₁.others n (hn 1 (by omega))).trans (h₀.others n (hn 0 (by omega))),
    fun p o ho hp => ?_⟩
  · obtain rfl | rfl : k = 0 ∨ k = 1 := by omega
    · refine ⟨fun w hw => (State.get_congr (h₁.regs _ _ fun hm => ?_)).trans (h₀.statistics hnamed w hw),
        (h₁.others _ (by omega)).trans (h₀.own hnamed)⟩
      exact statisticsFlds_other_unit w.1 (mem_statisticsFlds hw) (rkey_mem_pageKeys.1 hm)
    · have hip : x.ip (2 * g + 1) = s.ip (2 * g + 1) := h₀.others _ (by omega)
      exact ⟨hip ▸ h₁.statistics hnamed, hip ▸ h₁.own hnamed⟩
  · have hkey {k : Nat} (hk : k < 2) : rkey p o ∉ pageKeys (P.STP g) (snapOffs k) := by
      intro hm
      obtain ⟨o', ho', e⟩ := List.mem_map.1 hm
      exact hp (by simp [((rkey_inj (snapOffs_lt k hk o' ho') ho).1 e).1])
    exact (h₁.regs p o (hkey (by omega))).trans (h₀.regs p o (hkey (by omega)))

/-! ### Fields stored under staging -/

/-- Store a list of fields of a page, each with its instance and value, under the page's staging mode. -/
def State.storeAll (s : State) (p : Nat) (ws : List (Fld × Nat × Nat)) : State := s.each ws (fun s w => s.storeField p w.1 w.2.2 w.2.1)

/-- The bits of a field in its register. -/
def Fld.mask (f : Fld) : Nat := (2 ^ (f.hi + 1 - f.lo) - 1) * 2 ^ f.lo

theorem State.storeField_staged {s : State} {p : Nat} (h : s.stagedMode p = true) (f : Fld) (v i : Nat) :
    s.storeField p f v i = s.setStaged p (f.at i) (mergeBits (s.stagedReg p (f.at i)) f.mask (v * 2 ^ f.lo)) := by
  unfold State.storeField State.storeRW
  rw [h]
  rfl

/-- On a staged page fields of different registers land in the staged copy, and nothing else changes. -/
theorem State.storeAll_staged {s : State} (hs : s.Canon) {p : Nat} (h : s.stagedMode p = true) {ws : List (Fld × Nat × Nat)}
    (hws : (ws.map (fun w => w.1.at w.2.1)).Nodup) (hv : ∀ w ∈ ws, w.2.2 * 2 ^ w.1.lo < 2 ^ 32) :
    (∀ w ∈ ws, (s.storeAll p ws).stagedReg p (w.1.at w.2.1) =
      mergeBits (s.stagedReg p (w.1.at w.2.1)) w.1.mask (w.2.2 * 2 ^ w.1.lo)) ∧
    (∀ q o, (∀ w ∈ ws, rkey q o ≠ rkey p (w.1.at w.2.1)) → (s.storeAll p ws).stagedReg q o = s.stagedReg q o) ∧
    s.storeAll p ws = { s with regs := { s.regs with staged := (s.storeAll p ws).regs.staged } } := by
  induction ws generalizing s with
  | nil => exact ⟨fun w hw => (nomatch hw), fun _ _ _ => rfl, rfl⟩
  | cons e r ih =>
    obtain ⟨hfresh, hr⟩ := List.nodup_cons.1 hws
    have hstep : s.storeAll p (e :: r) = (s.storeField p e.1 e.2.2 e.2.1).storeAll p r := rfl
    rw [hstep, State.storeField_staged h]
    generalize hm : mergeBits (s.stagedReg p (e.1.at e.2.1)) e.1.mask (e.2.2 * 2 ^ e.1.lo) = m
    have hlt : m < 2 ^ 32 := hm ▸ mergeBits_lt _ (s.stagedReg_lt _ _) (hv e (by simp))
    have hread (q o : Nat) := State.stagedReg_setStaged hs.staged p (e.1.at e.2.1) m q o
    obtain ⟨hin, hout, heq⟩ := ih (s := s.setStaged p (e.1.at e.2.1) m) ((State.setStaged_keeps (.refl s) ..).canon hs) h hr
      (fun w hw => hv w (List.mem_cons_of_mem _ hw))
    have hapart {w : Fld × Nat × Nat} (hw : w ∈ r) : rkey p (w.1.at w.2.1) ≠ rkey p (e.1.at e.2.1) := fun he =>
      hfresh (List.mem_map.2 ⟨w, hw, by simpa [rkey] using he⟩)
    refine ⟨fun w hw => ?_, fun q o hne => ?_, heq.trans rfl⟩
    · rcases List.mem_cons.1 hw with rfl | hmem
      · rw [hout _ _ (fun w' hw' => (hapart hw').symm), hread, if_pos rfl, Nat.mod_eq_of_lt hlt, hm]
      · rw [hin w hmem, hread, if_neg (hapart hmem)]
    · rw [hout q o (fun w hw => hne w (List.mem_cons_of_mem _ hw)), hread, if_neg (hne e (by simp))]

/-! ### The broadcast -/

/-- What a broadcast stores in one channel: threshold and hysteresis. -/
def bcastWrites (v c : Nat) : List (Fld × Nat × Nat) := [(F.DIG_THR_THR, c, bits v 27 16), (F.DIG_CH_CFG_HYST, c, bits v 1 0)]

/-- The channels DIG_BCAST_MASK names. -/
def State.bcastChannels (s : State) (g : Nat) : List Nat := (List.range 32).filter (bitOf (s.use (P.DIG g) F.DIG_BCAST_MASK))

theorem State.mem_bcastChannels {s : State} {g c : Nat} :
    c ∈ s.bcastChannels g ↔ c < 32 ∧ bitOf (s.use (P.DIG g) F.DIG_BCAST_MASK) c = true := by
  simp [State.bcastChannels]

theorem execDigBcast_next (s : State) (g : Fin 8) (v : Word) :
    exec (.digBcast g v) s = .next (s.storeAll (P.DIG g) ((s.bcastChannels g).flatMap (bcastWrites v.toNat))) := by
  unfold State.storeAll State.each
  rw [List.foldl_flatMap]
  rfl

/-- No two channels' thresholds and hystereses stand in one register. -/
theorem bcastWrites_nodup (v : Nat) {cs : List Nat} (hcs : cs.Sublist (List.range 32)) :
    ((cs.flatMap (bcastWrites v)).map (fun w => w.1.at w.2.1)).Nodup := by
  have hall : ((List.range 32).flatMap (fun c => [F.DIG_THR_THR.at c, F.DIG_CH_CFG_HYST.at c])).Nodup := by decide +kernel
  rw [List.map_flatMap]
  exact hall.sublist (hcs.flatMap fun c => [F.DIG_THR_THR.at c, F.DIG_CH_CFG_HYST.at c])

theorem bcastWrites_lt (v : Nat) {c : Nat} : ∀ w ∈ bcastWrites v c, w.2.2 * 2 ^ w.1.lo < 2 ^ 32 := by
  have hthr : bits v 27 16 < 2 ^ 12 := bits_lt _ _ _
  have hhyst : bits v 1 0 < 2 ^ 2 := bits_lt _ _ _
  simp only [bcastWrites, List.mem_cons, List.not_mem_nil, or_false, forall_eq_or_imp, forall_eq]
  exact ⟨by simp only [F.DIG_THR_THR]; omega, by simp only [F.DIG_CH_CFG_HYST]; omega⟩

theorem execDigBcast_stages {s : State} (hs : s.Canon) {g : Fin 8} (v : Word) (h : s.stagedMode (P.DIG g) = true) :
    ∃ u, exec (.digBcast g v) s = .next u ∧
      (∀ c < 32, bitOf (s.use (P.DIG g) F.DIG_BCAST_MASK) c = true →
        u.stagedReg (P.DIG g) (F.DIG_THR.at c) = mergeBits (s.stagedReg (P.DIG g) (F.DIG_THR.at c)) 0xFFF (bits v.toNat 27 16) ∧
        u.stagedReg (P.DIG g) (F.DIG_CH_CFG.at c) = mergeBits (s.stagedReg (P.DIG g) (F.DIG_CH_CFG.at c)) 3 (bits v.toNat 1 0)) ∧
      (∀ q o, (∀ c < 32, bitOf (s.use (P.DIG g) F.DIG_BCAST_MASK) c = true →
          rkey q o ≠ rkey (P.DIG g) (F.DIG_THR.at c) ∧ rkey q o ≠ rkey (P.DIG g) (F.DIG_CH_CFG.at c)) →
        u.stagedReg q o = s.stagedReg q o) ∧
      u = { s with regs := { s.regs with staged := u.regs.staged } } := by
  obtain ⟨hin, hout, heq⟩ := State.storeAll_staged hs h (ws := (s.bcastChannels g).flatMap (bcastWrites v.toNat))
    (bcastWrites_nodup _ List.filter_sublist) (fun w hw => by
      obtain ⟨c, -, hc⟩ := List.mem_flatMap.1 hw
      exact bcastWrites_lt _ w hc)
  refine ⟨_, execDigBcast_next s g v, fun c hc hm => ?_, fun q o hne => hout q o fun w hw => ?_, heq⟩
  · have hmem (w : Fld × Nat × Nat) (hw : w ∈ bcastWrites v.toNat c) :=
      hin w (List.mem_flatMap.2 ⟨c, State.mem_bcastChannels.2 ⟨hc, hm⟩, hw⟩)
    have hthr := hmem (F.DIG_THR_THR, c, bits v.toNat 27 16) (by simp [bcastWrites])
    have hhyst := hmem (F.DIG_CH_CFG_HYST, c, bits v.toNat 1 0) (by simp [bcastWrites])
    simp only [F.DIG_THR_THR, F.DIG_CH_CFG_HYST, Nat.pow_zero, Nat.mul_one] at hthr hhyst
    exact ⟨hthr, hhyst⟩
  · obtain ⟨c, hc, hw⟩ := List.mem_flatMap.1 hw
    obtain ⟨hthr, hhyst⟩ := hne c (State.mem_bcastChannels.1 hc).1 (State.mem_bcastChannels.1 hc).2
    simp only [bcastWrites, List.mem_cons, List.not_mem_nil, or_false] at hw
    rcases hw with rfl | rfl
    · exact hthr
    · exact hhyst

/-- Settles O19: the two units of a group snap one after the other, in registers of their own, and the masked channels are stored one by
one, in registers of their own. -/
theorem snapshotOfIntervalStatistics : Obligations.SnapshotOfIntervalStatistics := by
  intro s g v hs hlen
  obtain ⟨u, hu, hunits, hothers, hpages⟩ := execStpIpSnap_snaps hs hlen g v
  refine ⟨⟨u, hu, fun k hk hnamed => ?_, hothers, hpages⟩, execDigBcast_stages hs v⟩
  obtain ⟨hstat, hip⟩ := hunits k hk hnamed
  generalize hq : s.ip (2 * g + k) = q at *
  have hlo := hstat (F.IP_SUM_LO, unsx 64 q.sum) (by simp [IpUnit.statistics])
  have hhi := hstat (F.IP_SUM_HI, unsx 64 q.sum / 2 ^ 32) (by simp [IpUnit.statistics])
  refine ⟨hstat (F.IP_CNT, q.cnt) (by simp [IpUnit.statistics]), ?_, fun hclr => ?_, fun hclr => ?_⟩
  · have hsum := unsx_lt 64 q.sum
    rw [hlo, hhi]
    omega
  · rw [hip, if_pos hclr]
    exact ⟨rfl, rfl, rfl, rfl⟩
  · rw [hip, if_neg (by simp [hclr])]

end Sys2Proof.Machine
end

section
/-!
SUPPORT. A start that waits too long (R131), the end of a gate (R134, R140) and the delivery of its result (R137, R140). The anchor word of
a gate of fewer than two stamps is free (log entry 3), and its quotients round a tie up (log entry 25): both stand in `FuGate.result`.
-/
namespace Sys2Proof.Machine

theorem stp_notMem_backPages {g : Nat} (hg : g < 8) : P.STP g ∉ backPages := by
  unfold backPages P.STP P.ACQT P.ACT P.RFQ P.FLX P.TWN P.SAF
  simp
  omega

/-! ### Starts that wait -/

/-- A start is counted as unpaired, and the units stay. -/
theorem State.unpaired_counts {s : State} (hs : s.Canon) {u : Nat} (hu : u < 16) : (s.unpaired u 1).Canon ∧
    (s.unpaired u 1).ips = s.ips ∧ (s.unpaired u 1).get (P.STP (u / 2)) F.IP_UNPAIRED_CNT (u % 2) =
      Nat.min (s.get (P.STP (u / 2)) F.IP_UNPAIRED_CNT (u % 2) + 1) (2 ^ 32 - 1) := by
  have hfront : (s.unpaired u 1).front = (s.sat (P.STP (u / 2)) F.IP_UNPAIRED_CNT 1 (u % 2)).front := by simp [State.unpaired]
  have hat : F.IP_UNPAIRED_CNT.at (u % 2) < 0x1000 := by simp only [Fld.at, F.IP_UNPAIRED_CNT]; omega
  refine ⟨(State.unpaired_keeps (.refl s) u 1).canon hs, (congrArg (·.ips) hfront).trans (by simp [State.front]), ?_⟩
  rw [State.get_congr (State.reg_of_front hfront (stp_notMem_backPages (by omega)) hat)]
  exact State.get_sat_word hs.active _ _ rfl rfl

/-- The starts of a unit that are still within the span at stamp `x`. -/
def State.startsKept (s : State) (u x : Nat) : State :=
  s.modIp u (fun q => { q with starts := q.starts.filter (fun e => withinSpan (s.ipSpan u) (x - e.1)) })

theorem State.ipExpire_one {s : State} {u x : Nat} {e : Nat × Option Nat} (hmode : s.ipUse u F.IP_CFG_MODE = 0)
    (hstarts : (s.ip u).starts = [e]) (hlate : withinSpan (s.ipSpan u) (x - e.1) = false) :
    s.ipExpire u x = (s.startsKept u x).unpaired u 1 := by
  unfold State.ipExpire
  simp only [hstarts, List.filter_cons, hlate]
  exact if_pos hmode

theorem State.ipExpire_none {s : State} {u x : Nat} {e : Nat × Option Nat} (hstarts : (s.ip u).starts = [e])
    (hin : withinSpan (s.ipSpan u) (x - e.1) = true) : s.ipExpire u x = s := by
  unfold State.ipExpire
  simp [hstarts, hin]

theorem execIpSpanExpiry_on {s : State} {n : Fin 16} (hen : s.ipUse n F.IP_CFG_EN = 1) (hpage : s.enabled (P.STP (n / 2)) = true)
    (t : Nat) : exec (.ipSpanExpiry t n) s = .next (((s.at t).ipExpire n (t * 64)).ipShow n) :=
  congrArg Host.Outcome.next (if_pos ⟨hen, hpage⟩)

theorem execIpSpanExpiry_off {s : State} {n : Fin 16} (hen : s.ipUse n F.IP_CFG_EN = 0) (t : Nat) :
    exec (.ipSpanExpiry t n) s = .next (s.at t) :=
  congrArg Host.Outcome.next (if_neg fun h => absurd (hen.symm.trans h.1) (by decide))

/-- IP_STAT and its event leave a unit's count of unpaired starts. -/
theorem State.unpairedCnt_ipShow {s : State} (hs : s.Canon) (u : Nat) :
    (s.ipShow u).get (P.STP (u / 2)) F.IP_UNPAIRED_CNT (u % 2) = s.get (P.STP (u / 2)) F.IP_UNPAIRED_CNT (u % 2) :=
  (State.ipShow_shows hs u).get _ _ _ (by simp [ipStatOffs, Fld.at, F.IP_STAT, F.IP_UNPAIRED_CNT, H.RAW, H.PEND]; omega)

section expiry
variable {s : State} (hs : s.Canon) (hlen : s.ips.length = 16) {t x m : Nat} {n : Fin 16}
  (hen : s.ipUse n F.IP_CFG_EN = 1) (hpage : s.enabled (P.STP (n / 2)) = true) (hstarts : (s.ip n).starts = [(x, none)])
  (hspan : s.ipSpan n = some m)
include hs hen hpage hstarts hspan

include hlen in
theorem execIpSpanExpiry_late (hmode : s.ipUse n F.IP_CFG_MODE = 0) (hlate : m < t * 64 - x) :
    ∃ u, exec (.ipSpanExpiry t n) s = .next u ∧ (u.ip n).starts = [] ∧
      u.get (P.STP (n / 2)) F.IP_UNPAIRED_CNT (n % 2) = Nat.min (s.get (P.STP (n / 2)) F.IP_UNPAIRED_CNT (n % 2) + 1) (2 ^ 32 - 1) ∧
      (u.ip n).cnt = (s.ip n).cnt ∧ ∀ k, k ≠ n.val → u.ip k = s.ip k := by
  have hout : withinSpan ((s.at t).ipSpan n) (t * 64 - x) = false := by
    rw [show (s.at t).ipSpan n = some m from hspan]
    exact decide_eq_false (by omega)
  have hkept : ((s.at t).startsKept n (t * 64)).Canon := hs
  have hn : n.val < (s.at t).ips.length := Nat.lt_of_lt_of_eq n.isLt hlen.symm
  obtain ⟨hc, hips, hcnt⟩ := State.unpaired_counts hkept n.isLt
  have hip (k : Nat) := (State.ip_congr ((State.ipShow_shows hc n).blocks.ips.trans hips) k).trans (State.ip_modIp hn _ k)
  have hown := (hip n).trans (if_pos rfl)
  refine ⟨_, (execIpSpanExpiry_on hen hpage t).trans (by rw [State.ipExpire_one (s := s.at t) hmode hstarts hout]), ?_,
    (State.unpairedCnt_ipShow hc n).trans hcnt, ?_, fun k hk => (hip k).trans (if_neg hk)⟩
  · rw [hown]
    show (s.ip n).starts.filter (fun e => withinSpan ((s.at t).ipSpan n) (t * 64 - e.1)) = []
    simp [hstarts, hout]
  · rw [hown]
    rfl

theorem execIpSpanExpiry_within (hin : t * 64 - x ≤ m) : ∃ u, exec (.ipSpanExpiry t n) s = .next u ∧ u.ips = s.ips ∧
    u.get (P.STP (n / 2)) F.IP_UNPAIRED_CNT (n % 2) = s.get (P.STP (n / 2)) F.IP_UNPAIRED_CNT (n % 2) := by
  have hwithin : withinSpan ((s.at t).ipSpan n) (t * 64 - x) = true := by
    rw [show (s.at t).ipSpan n = some m from hspan]
    exact decide_eq_true hin
  exact ⟨_, (execIpSpanExpiry_on hen hpage t).trans (by rw [State.ipExpire_none (s := s.at t) hstarts hwithin]),
    (State.ipShow_shows (s := s.at t) hs n).blocks.ips, State.unpairedCnt_ipShow (s := s.at t) hs n⟩

end expiry

/-! ### Gates -/

theorem State.fu_modFu_self {s : State} {f : Nat} (hf : f < s.fus.length) (φ : FuUnit → FuUnit) : (s.modFu f φ).fu f = φ (s.fu f) :=
  (getD_lmod s.fus f f φ _ hf).trans (if_pos rfl)

/-- What starting a gate at tick `k` leaves of a unit: its results due stay; off, it has no gate; on, unaligned, its gate starts at `k`
with no stamp. -/
theorem State.gateStart_starts {s : State} {f : Nat} (hf : f < s.fus.length) (k : Nat) :
    ((s.gateStart f k).fu f).due = (s.fu f).due ∧
    (s.enabled P.FRQ = true → bitOf (s.useReg P.FRQ (F.FU_CFG.at f)) 31 = true → bitOf (s.useReg P.FRQ (F.FU_CFG.at f)) 29 = false →
      s.gateLen f ≠ 0 → ∃ g, ((s.gateStart f k).fu f).gate = some g ∧ g.start = k ∧ g.n = 0) ∧
    (s.enabled P.FRQ = false ∨ bitOf (s.useReg P.FRQ (F.FU_CFG.at f)) 31 = false → ((s.gateStart f k).fu f).gate = none) ∧
    s.gateStart f k = { s with fus := (s.gateStart f k).fus } := by
  unfold State.gateStart
  extract_lets cfg len start
  split
  case isTrue hoff =>
    rw [State.fu_modFu_self hf]
    refine ⟨rfl, fun hen hon _ hlen => ?_, fun _ => rfl, rfl⟩
    rcases hoff with h | h | h
    · simp [hen] at h
    · simp [cfg, hon] at h
    · exact absurd h hlen
  case isFalse hon =>
    rw [not_or, not_or] at hon
    obtain ⟨hen, hbit, -⟩ := hon
    rw [State.fu_modFu_self hf]
    refine ⟨rfl, fun _ _ halign _ => ⟨_, rfl, ?_, rfl⟩, fun h => ?_, rfl⟩
    · exact if_neg (by simp [cfg, halign])
    · rcases h with h | h
      · simp [h] at hen
      · simp [cfg, h] at hbit

/-- The state in which the result of a gate is due and its free word taken. -/
def State.resultDue (s : State) (f : Nat) (k : FuGate) : State :=
  State.modFu { s with freeCtr := s.freeCtr + 1 } f (fun q =>
    { q with due := q.due ++ [k.result (s.use P.FRQ F.FRQ_CTL_MIN_STAMPS) (Config.freeWord s.freeCtr).toNat] })

theorem execFreqGateEnd_reached {s : State} {t : Nat} {f : Fin 32} {k : FuGate} (hg : (s.fu f).gate = some k) (ht : k.finish ≤ t / 8) :
    exec (.freqGateEnd t f) s = .next (((s.at t).resultDue f k).gateStart f k.finish) := by
  have hend : (s.at t).gateEnd f = ((s.at t).resultDue f k).gateStart f k.finish := by
    unfold State.gateEnd
    rw [show ((s.at t).fu f).gate = some k from hg]
    rfl
  show Host.Outcome.next (State.gatesTo _ _ _ _) = _
  unfold State.gatesTo State.gatesTo
  rw [show ((s.at t).fu f).gate = some k from hg]
  dsimp only
  rw [if_pos ht, hend]

theorem execFreqGateEnd_early {s : State} {t : Nat} {f : Fin 32} {k : FuGate} (hg : (s.fu f).gate = some k) (ht : t / 8 < k.finish) :
    exec (.freqGateEnd t f) s = .next (s.at t) := by
  show Host.Outcome.next (State.gatesTo _ _ _ _) = _
  unfold State.gatesTo
  rw [show ((s.at t).fu f).gate = some k from hg]
  dsimp only
  rw [if_neg (by omega)]

theorem execFreqGateEnd_ends {s : State} (hlen : s.fus.length = 32) {t : Nat} {f : Fin 32} {k : FuGate} (hg : (s.fu f).gate = some k)
    (ht : k.finish ≤ t / 8) : ∃ u, exec (.freqGateEnd t f) s = .next u ∧ u.freeCtr = s.freeCtr + 1 ∧
      (u.fu f).due = (s.fu f).due ++ [k.result (s.use P.FRQ F.FRQ_CTL_MIN_STAMPS) (Config.freeWord s.freeCtr).toNat] ∧
      (s.enabled P.FRQ = true → bitOf (s.useReg P.FRQ (F.FU_CFG.at f)) 31 = true → bitOf (s.useReg P.FRQ (F.FU_CFG.at f)) 29 = false →
        s.gateLen f ≠ 0 → ∃ g, (u.fu f).gate = some g ∧ g.start = k.finish ∧ g.n = 0) ∧
      (s.enabled P.FRQ = false ∨ bitOf (s.useReg P.FRQ (F.FU_CFG.at f)) 31 = false → (u.fu f).gate = none) ∧
      u = { s with now := u.now, freeCtr := u.freeCtr, fus := u.fus } := by
  have hf : f.val < (s.at t).fus.length := Nat.lt_of_lt_of_eq f.isLt hlen.symm
  have hfdue : f.val < ((s.at t).resultDue f k).fus.length := Nat.lt_of_lt_of_eq hf (length_lmod _ _ _).symm
  obtain ⟨hdue, hon, hoff, hframe⟩ := State.gateStart_starts hfdue k.finish
  refine ⟨_, execFreqGateEnd_reached hg ht, congrArg (·.freeCtr) hframe, hdue.trans ?_, hon, hoff, ?_⟩
  · exact congrArg FuUnit.due (State.fu_modFu_self hf _)
  · rw [hframe]
    rfl

/-! ### Results -/

/-- The oldest result due becomes a unit's latest. -/
def State.resultTaken (s : State) (f : Nat) (r : FuResult) (rest : List FuResult) : State :=
  s.modFu f (fun q => { q with due := rest, results := (r :: q.results).take 64 })

/-- The masks and the event of a result. -/
def State.resultMasked (s : State) (f : Nat) (valid : Bool) : State :=
  let s := s.put P.FRQ F.FRQ_NEW (putBit (s.get P.FRQ F.FRQ_NEW) f true)
  let s := s.put P.FRQ F.FRQ_VALID (putBit (s.get P.FRQ F.FRQ_VALID) f valid)
  s.pulse P.FRQ 0

/-- What FRQ shows of a result: an invalid one is counted, and overflow has an event of its own. -/
def State.resultShown (s : State) (f : Nat) (r : FuResult) : State :=
  let s := s.resultMasked f (bitOf r.flags 0)
  let s := if bitOf r.flags 0 then s else (s.sat P.FRQ F.FRQ_INVALID_CNT).pulse P.FRQ 1
  if bitOf r.flags 4 then s.pulse P.FRQ 2 else s

/-- The hem and stream 20 take a result. -/
def State.resultSent (s : State) (f : Nat) (r : FuResult) : State :=
  let valid := bitOf r.flags 0
  let s := if bitOf r.cfg 27 then s.note RN.GATE (8 * r.finish) f (r.freq : Nat) (r.anchor * 2 + b2n valid) else s
  let ws := [w64 (f * 2 ^ 48 + r.finish % 2 ^ 48), w64 (r.flags * 2 ^ 56 + r.n % 2 ^ 40), w64 r.period, w64 r.freq, w64 r.anchor]
  if bitOf r.cfg 30 then s.appendItem 20 { slot := r.finish * 8, words := ws, ply := none } else s

theorem State.resultSent_front (s : State) (f : Nat) (r : FuResult) : (s.resultSent f r).front = s.front := by
  simp [State.resultSent]

theorem execFreqResult_next {s : State} {f : Fin 32} {r : FuResult} {rest : List FuResult} (h : (s.fu f).due = r :: rest) (t : Nat) :
    exec (.freqResult t f) s = .next ((((s.at t).resultTaken f r rest).resultShown f r).resultSent f r) := by
  show execFreqResult t f s = _
  unfold execFreqResult
  dsimp only
  rw [show ((s.at t).fu f).due = r :: rest from h]
  rfl

theorem execFreqResult_none {s : State} {f : Fin 32} (h : (s.fu f).due = []) (t : Nat) : exec (.freqResult t f) s = .next (s.at t) := by
  show execFreqResult t f s = _
  unfold execFreqResult
  dsimp only
  rw [show ((s.at t).fu f).due = [] from h]

theorem State.resultMasked_shows {s : State} (hs : s.Canon) (f : Fin 32) (valid : Bool) :
    Shows (pageKeys P.FRQ [F.FRQ_NEW.off, F.FRQ_VALID.off, H.PEND]) s (s.resultMasked f valid) ∧
      bitOf ((s.resultMasked f valid).get P.FRQ F.FRQ_NEW) f = true ∧
      bitOf ((s.resultMasked f valid).get P.FRQ F.FRQ_VALID) f = valid := by
  unfold State.resultMasked
  extract_lets x y
  have hx : Shows (pageKeys P.FRQ [F.FRQ_NEW.off]) s x := .put (.refl hs) _ _ _ _ (by simp [Fld.at])
  have hy : Shows (pageKeys P.FRQ [F.FRQ_VALID.off]) x y := .put (.refl hx.canon) _ _ _ _ (by simp [Fld.at])
  have hz : Shows (pageKeys P.FRQ [H.PEND]) y (y.pulse P.FRQ 0) := .pulse (.refl hy.canon) _ _ (by simp)
  refine ⟨(hx.mono ?_).trans ((hy.mono ?_).trans (hz.mono ?_)), ?_, ?_⟩
  · exact List.map_subset _ (by simp)
  · exact List.map_subset _ (by simp)
  · exact List.map_subset _ (by simp)
  · rw [hz.get _ _ _ (by simp [Fld.at, F.FRQ_NEW]), hy.get _ _ _ (by simp [Fld.at, F.FRQ_NEW, F.FRQ_VALID])]
    exact State.bitOf_put_putBit hs.active _ f.isLt true rfl rfl
  · rw [hz.get _ _ _ (by simp [Fld.at, F.FRQ_VALID])]
    exact State.bitOf_put_putBit hx.canon.active _ f.isLt valid rfl rfl

/-- What FRQ shows of a result. -/
theorem State.resultShown_shows {s : State} (hs : s.Canon) (f : Fin 32) (r : FuResult) :
    SameBlocks s (s.resultShown f r) ∧ bitOf ((s.resultShown f r).get P.FRQ F.FRQ_NEW) f = true ∧
      bitOf ((s.resultShown f r).get P.FRQ F.FRQ_VALID) f = bitOf r.flags 0 ∧
      (s.resultShown f r).get P.FRQ F.FRQ_INVALID_CNT = if bitOf r.flags 0 then s.get P.FRQ F.FRQ_INVALID_CNT
        else Nat.min (s.get P.FRQ F.FRQ_INVALID_CNT + 1) (2 ^ 32 - 1) := by
  unfold State.resultShown
  extract_lets x y
  obtain ⟨hx, hnew, hvalid⟩ := State.resultMasked_shows hs f (bitOf r.flags 0)
  have hcount : Shows (pageKeys P.FRQ [F.FRQ_INVALID_CNT.off, H.PEND]) x ((x.sat P.FRQ F.FRQ_INVALID_CNT).pulse P.FRQ 1) :=
    .pulse (.put (.refl hx.canon) _ _ _ _ (by simp [Fld.at])) _ _ (by simp)
  have hy : Shows (pageKeys P.FRQ [F.FRQ_INVALID_CNT.off, H.PEND]) x y := .ite (.refl hx.canon) hcount
  have hz : Shows (pageKeys P.FRQ [H.PEND]) y (if bitOf r.flags 4 then y.pulse P.FRQ 2 else y) :=
    .ite (.pulse (.refl hy.canon) _ _ (by simp)) (.refl hy.canon)
  refine ⟨hx.blocks.trans (hy.blocks.trans hz.blocks), ?_, ?_, ?_⟩
  · rwa [hz.get _ _ _ (by simp [Fld.at, F.FRQ_NEW]), hy.get _ _ _ (by simp [Fld.at, F.FRQ_NEW, F.FRQ_INVALID_CNT])]
  · rwa [hz.get _ _ _ (by simp [Fld.at, F.FRQ_VALID]), hy.get _ _ _ (by simp [Fld.at, F.FRQ_VALID, F.FRQ_INVALID_CNT])]
  · have hcnt : x.get P.FRQ F.FRQ_INVALID_CNT = s.get P.FRQ F.FRQ_INVALID_CNT :=
      hx.get _ _ _ (by simp [Fld.at, F.FRQ_NEW, F.FRQ_VALID, F.FRQ_INVALID_CNT])
    rw [hz.get _ _ _ (by simp [Fld.at, F.FRQ_INVALID_CNT]), ← hcnt]
    simp only [y]
    split
    · rfl
    · exact State.get_sat_pulse hx.canon.active _ _ rfl rfl (by simp [rkey, Fld.at, F.FRQ_INVALID_CNT])

theorem execFreqResult_delivers {s : State} (hs : s.Canon) (hlen : s.fus.length = 32) {f : Fin 32} {r : FuResult}
    {rest : List FuResult} (h : (s.fu f).due = r :: rest) (t : Nat) : ∃ u, exec (.freqResult t f) s = .next u ∧ (u.fu f).due = rest ∧
      (u.fu f).results.head? = some r ∧ bitOf (u.get P.FRQ F.FRQ_NEW) f = true ∧ bitOf (u.get P.FRQ F.FRQ_VALID) f = bitOf r.flags 0 ∧
      (bitOf r.flags 0 = false → u.get P.FRQ F.FRQ_INVALID_CNT = Nat.min (s.get P.FRQ F.FRQ_INVALID_CNT + 1) (2 ^ 32 - 1)) ∧
      (bitOf r.flags 0 = true → u.get P.FRQ F.FRQ_INVALID_CNT = s.get P.FRQ F.FRQ_INVALID_CNT) := by
  have hf : f.val < (s.at t).fus.length := Nat.lt_of_lt_of_eq f.isLt hlen.symm
  obtain ⟨hblocks, hnew, hvalid, hcnt⟩ := State.resultShown_shows (s := (s.at t).resultTaken f r rest) hs f r
  have hfront := State.resultSent_front (((s.at t).resultTaken f r rest).resultShown f r) f r
  refine ⟨_, execFreqResult_next h t, ?_⟩
  generalize ((s.at t).resultTaken f r rest).resultShown f r = x at *
  generalize x.resultSent f r = u at *
  have hfu : u.fu f = { s.fu f with due := rest, results := (r :: (s.fu f).results).take 64 } := by
    have hfus : u.fus = ((s.at t).resultTaken f r rest).fus := (congrArg (·.fus) hfront).trans (congrArg (·.fus) hblocks)
    exact (congrArg (·.getD f FuUnit.empty) hfus).trans (State.fu_modFu_self hf _)
  have hget (k : Fld) (hk : k.at 0 < 0x1000) : u.get P.FRQ k = x.get P.FRQ k :=
    State.get_congr (State.reg_of_front hfront (by decide) hk)
  rw [hfu, hget F.FRQ_NEW (by decide), hget F.FRQ_VALID (by decide), hget F.FRQ_INVALID_CNT (by decide), hcnt]
  exact ⟨rfl, rfl, hnew, hvalid, fun hv => if_neg (by simp [hv]), fun hv => if_pos hv⟩

/-- Settles O32: the expiry of a span, the end of a gate and the delivery of a result, each by the rule of its operation. -/
theorem pairingAndFrequencyUnits : Obligations.PairingAndFrequencyUnits := by
  intro s t n f hs hips hfus
  refine ⟨fun hen hpage hmode x m hstarts hspan => ⟨?_, ?_⟩, fun hen => execIpSpanExpiry_off hen t,
    fun k hg ht => execFreqGateEnd_ends hfus hg ht, fun k hg ht => execFreqGateEnd_early hg ht,
    fun r rest h => execFreqResult_delivers hs hfus h t, fun h => execFreqResult_none h t⟩
  · exact execIpSpanExpiry_late hs hips hen hpage hstarts hspan hmode
  · exact execIpSpanExpiry_within hs hen hpage hstarts hspan

end Sys2Proof.Machine
end

section
/-!
SUPPORT. The windows of the merge (R125): a window whose DROP entry waits (R127) since another WIN_EXP was in force is written with the
length of the present one, and so takes stamps of a window that has not ended.
-/
namespace Sys2Proof.Machine

/-- STP0 with WIN_EXP at its reset value 6, so with windows of 512 slots: a drop span of ticks 40 to 50 closed in the window that started
at slot 256 while WIN_EXP was 5, and the merge has taken a stamp of slot 600, which belongs to the window from slot 512 to 1,024. -/
def staleWindow : State :=
  { State.reset.setReg (P.STP 0) H.CTL 5 with
    stps := State.reset.stps.set 0 { StpState.empty with
      spans := [{ ch := 1, first := 40, last := 50, count := 2, window := some 256 }]
      taken := [{ ch := 0, at_ := 600 * 64, rising := true, wrapped := false, merged := false }] } }

theorem staleWindow_canon : staleWindow.Canon := by
  unfold State.Canon
  decide +kernel

/-- The merge has something for both windows. -/
theorem staleWindow_starts : ((staleWindow.at 1280).stpDrain 0 1280).windowStarts 0 = [256, 512] := by
  generalize hs : (staleWindow.at 1280).stpDrain 0 1280 = s
  have hall : (s.stp 0).entries.map Prod.fst ++ (s.stp 0).spans.filterMap (fun d => d.window) ++
      ((s.stp 0).taken ++ (s.stp 0).queued).map (fun x => s.windowOf 0 (x.at_ / 64)) = [256, 512] := by
    rw [← hs]
    decide +kernel
  unfold State.windowStarts
  dsimp only
  rw [hall, List.mergeSort_of_pairwise (by decide)]
  decide

/-- At slot 1,280 the stale window has ended 64 ticks before, and with it goes the stamp of slot 600. -/
theorem staleWindow_taken : ∃ u, exec (.mergeWindowClose 1280 0) staleWindow = .next u ∧ (u.stp 0).taken = [] := by
  refine ⟨_, congrArg Host.Outcome.next (if_pos (by decide +kernel)), ?_⟩
  unfold State.closeWindows
  simp only [show ((0 : Fin 8) : Nat) = 0 from rfl, staleWindow_starts]
  decide +kernel

/-- Refutes O31: in `staleWindow` the merge writes a stamp of a window that has not ended 64 ticks before. -/
theorem not_edgeStamps : ¬ Obligations.EdgeStamps := by
  unfold Obligations.EdgeStamps
  intro h
  obtain ⟨-, -, -, -, hclose, -⟩ := h staleWindow 0 1280 0 0 0 true staleWindow_canon (by decide +kernel) rfl
  obtain ⟨u, hu, htaken, -⟩ := hclose (by decide +kernel) (by decide +kernel)
  obtain ⟨w, hw, hnone⟩ := staleWindow_taken
  obtain rfl : w = u := Host.Outcome.next.inj (hw.symm.trans hu)
  exact absurd (hnone.symm.trans htaken) (by decide +kernel)

end Sys2Proof.Machine
end

section
/-!
SUPPORT. One converter at a time (R143 to R151): what a sample, a missed start and a dropped request show in page ADC, and that the other
converters and every other register stay as they are.
-/
namespace Sys2Proof.Machine

/-! ### The working state of a converter -/

theorem State.conv_modConv {s : State} {n : Nat} (hn : n < s.convs.length) (f : ConvState → ConvState) (k : Nat) :
    (s.modConv n f).conv k = if k = n then f (s.conv n) else s.conv k := getD_lmod s.convs n k f _ hn

theorem State.conv_modConv_self {s : State} {n : Nat} (hn : n < s.convs.length) (f : ConvState → ConvState) :
    (s.modConv n f).conv n = f (s.conv n) := (State.conv_modConv hn f n).trans (if_pos rfl)

theorem State.conv_modConv_ne {s : State} {n k : Nat} (hn : n < s.convs.length) (hk : k ≠ n) (f : ConvState → ConvState) :
    (s.modConv n f).conv k = s.conv k := (State.conv_modConv hn f k).trans (if_neg hk)

theorem State.conv_congr {s u : State} (h : u.convs = s.convs) (k : Nat) : u.conv k = s.conv k := by
  unfold State.conv
  rw [h]

theorem SameBlocks.convs {s u : State} (h : SameBlocks s u) : u.convs = s.convs := congrArg (·.convs) h
theorem SameBlocks.injDue {s u : State} (h : SameBlocks s u) : u.injDue = s.injDue := congrArg (·.injDue) h
theorem SameBlocks.pulseDue {s u : State} (h : SameBlocks s u) : u.pulseDue = s.pulseDue := congrArg (·.pulseDue) h

theorem Shows.emit {ks : List Nat} {s u : State} (h : Shows ks s u) (o : Output) : Shows ks s (u.emit o) :=
  h.trans ⟨(State.emit_keeps (.refl u) o).canon h.canon, fun _ _ _ => rfl, rfl⟩

theorem Shows.setReg {ks : List Nat} {s u : State} (h : Shows ks s u) (p o v : Nat) (hk : rkey p o ∈ ks) : Shows ks s (u.setReg p o v) :=
  h.trans ⟨(State.setReg_keeps (.refl u) ..).canon h.canon, .setReg h.canon.active _ _ _ hk, .setReg ..⟩

/-- What has been sent is sent still. -/
theorem Keeps.mem_out {s u : State} (h : Keeps s u) {o : Output} (ho : o ∈ s.out) : o ∈ u.out := h.2.1.subset ho

/-! ### A counter field below a whole register -/

theorem satU_succ_eq_min (w x : Nat) : satU w (x + 1) = Nat.min (x + 1) (2 ^ w - 1) := by
  have := Nat.two_pow_pos w
  unfold satU
  simp only [Nat.min_def]
  split <;> split <;> omega

/-- A field of 16 bits counts one and stops at its maximum. -/
theorem State.get_sat_half {s : State} (h : s.ActiveWf) (p : Nat) {f : Fld} (i : Nat) (hw : f.hi = f.lo + 15) (h32 : f.hi < 32) :
    (s.sat p f 1 i).get p f i = Nat.min (s.get p f i + 1) (2 ^ 16 - 1) := by
  rw [State.get_sat h p f 1 i (by omega) h32, satU_succ_eq_min, show f.hi + 1 - f.lo = 16 by omega]

/-! ### What a converter's operation leaves alone -/

/-- The registers of ADC that show the page's state. -/
def adcOffs : List Nat := [H.STAT, H.RAW, H.PEND, F.ADC_STAT.off]

/-- The registers of ADC that an operation on converter `n` may write: beside the page's state the latest dropped request with the count
of its cause, and the converter's own counters. -/
def convOffs (n : Nat) : List Nat :=
  adcOffs ++ F.ADC_INJ_LAST.off :: (List.range 4).map F.ADC_INJ_CAUSE_CNT.at ++ [F.ADC_CNT_A.at n, F.ADC_CNT_B.at n]

theorem adcOffs_subset_convOffs (n : Nat) : adcOffs ⊆ convOffs n := by simp [convOffs]

/-- Of the registers only those of `convOffs n` may differ, and of the converters only converter `n`. -/
structure OnlyConv (n : Nat) (s u : State) : Prop where
  canon : u.Canon
  length : u.convs.length = s.convs.length
  regs : RegsBut (pageKeys P.ADC (convOffs n)) s u
  others : ∀ k, k ≠ n → u.conv k = s.conv k

section steps
variable {n : Nat} {s u w : State}

theorem OnlyConv.refl (hs : s.Canon) : OnlyConv n s s := ⟨hs, rfl, .refl _ _, fun _ _ => rfl⟩

theorem OnlyConv.trans (h : OnlyConv n s u) (h' : OnlyConv n u w) : OnlyConv n s w :=
  ⟨h'.canon, h'.length.trans h.length, h.regs.trans h'.regs, fun k hk => (h'.others k hk).trans (h.others k hk)⟩

theorem OnlyConv.shows (h : OnlyConv n s u) {os : List Nat} (h' : Shows (pageKeys P.ADC os) u w) (hos : os ⊆ convOffs n) :
    OnlyConv n s w :=
  h.trans ⟨h'.canon, congrArg List.length h'.blocks.convs, (h'.mono (List.map_subset _ hos)).regs,
    fun k _ => State.conv_congr h'.blocks.convs k⟩

theorem OnlyConv.modConv (h : OnlyConv n s u) (hn : n < s.convs.length) (f : ConvState → ConvState) : OnlyConv n s (u.modConv n f) :=
  h.trans ⟨h.canon, length_lmod _ _ _, fun _ _ _ => rfl, fun _ hk => State.conv_modConv_ne (h.length ▸ hn) hk f⟩

/-- A field of ADC that an operation on a converter leaves. -/
theorem OnlyConv.get (h : OnlyConv n s u) (f : Fld) (i : Nat) (hf : f.at i ∉ convOffs n) : u.get P.ADC f i = s.get P.ADC f i :=
  State.get_congr (h.regs _ _ fun hm => hf (rkey_mem_pageKeys.1 hm))

theorem OnlyConv.quadCal (h : OnlyConv n s u) (hn : n < 16) (q : Nat) : u.quadCal q = s.quadCal q := by
  unfold State.quadCal
  rw [h.get F.ADC_CAL_STAT_QUAD 0]
  simp [convOffs, adcOffs, List.range_succ, Fld.at, F.ADC_STAT, F.ADC_INJ_LAST, F.ADC_CAL_STAT_QUAD, F.ADC_INJ_CAUSE_CNT, F.ADC_CNT_A,
    F.ADC_CNT_B]
  omega

end steps

/-! ### What the operations show -/

theorem State.adcShow_shows {s : State} (hs : s.Canon) : Shows (pageKeys P.ADC adcOffs) s s.adcShow :=
  .level (.setReg (.put (.put (.refl hs) _ _ _ _ (by simp [adcOffs, Fld.at, F.ADC_STAT, F.ADC_STAT_AWAKE])) _ _ _ _
    (by simp [adcOffs, Fld.at, F.ADC_STAT, F.ADC_STAT_BUSY])) _ _ _ (by simp [adcOffs])) _ _ _ (by simp [adcOffs]) (by simp [adcOffs])

theorem State.startMiss_shows {s : State} (hs : s.Canon) (n : Nat) : Shows (pageKeys P.ADC [F.ADC_CNT_A.at n, H.PEND]) s (s.startMiss n) :=
  .pulse (.put (.refl hs) _ _ _ _ (by simp [Fld.at, F.ADC_CNT_A, F.ADC_CNT_A_START_MISS])) _ _ (by simp)

theorem State.startMiss_counts {s : State} (hs : s.Canon) (n : Nat) : (s.startMiss n).get P.ADC F.ADC_CNT_A_START_MISS n =
    Nat.min (s.get P.ADC F.ADC_CNT_A_START_MISS n + 1) (2 ^ 16 - 1) := by
  have hwf : (s.sat P.ADC F.ADC_CNT_A_START_MISS 1 n).ActiveWf := State.put_wf hs.active _ _ _ _
  refine (State.get_congr (State.pulse_reg hwf _ _ _ _ ?_)).trans (State.get_sat_half hs.active _ n rfl (by decide))
  simp [rkey, Fld.at, F.ADC_CNT_A_START_MISS, H.PEND]
  omega

theorem State.startMiss_only {s : State} (hs : s.Canon) (n : Nat) : OnlyConv n s (s.startMiss n) :=
  (OnlyConv.refl hs).shows (State.startMiss_shows hs n) (by simp [convOffs, adcOffs])

/-- The registers a dropped request is shown in. -/
def dropOffs (n : Nat) : List Nat := H.PEND :: F.ADC_INJ_LAST.off :: (List.range 4).map F.ADC_INJ_CAUSE_CNT.at ++ [F.ADC_CNT_B.at n]

theorem State.injDrop_shows {s : State} (hs : s.Canon) (n : Nat) {cause : Nat} (hc : cause - 1 < 4) :
    Shows (pageKeys P.ADC (dropOffs n)) s (s.injDrop n cause) := by
  have hcause : F.ADC_INJ_CAUSE_CNT.at (cause - 1) ∈ dropOffs n := by
    simp only [dropOffs, List.mem_append, List.mem_cons, List.mem_map]
    exact .inl (.inr (.inr ⟨_, List.mem_range.2 hc, rfl⟩))
  exact .pulse (.put (.put (.put (.put (.refl hs) _ _ _ _ (by simp [dropOffs, Fld.at, F.ADC_CNT_B, F.ADC_CNT_B_INJ_DROP])) _ _ _ _
    (by simpa using hcause)) _ _ _ _ (by simp [dropOffs, Fld.at, F.ADC_INJ_LAST, F.ADC_INJ_LAST_CAUSE])) _ _ _ _
    (by simp [dropOffs, Fld.at, F.ADC_INJ_LAST, F.ADC_INJ_LAST_CONV])) _ _ (by simp [dropOffs])

theorem State.injDrop_only {s : State} (hs : s.Canon) (n : Nat) {cause : Nat} (hc : cause - 1 < 4) : OnlyConv n s (s.injDrop n cause) :=
  (OnlyConv.refl hs).shows (State.injDrop_shows hs n hc) (by
    intro o ho
    simp only [dropOffs, convOffs, adcOffs, List.mem_append, List.mem_cons, List.not_mem_nil, or_false] at ho ⊢
    tauto)

/-! ### A sample -/

/-- The conversion that a sample of a converter at a slot begins. -/
def State.sampleJob (s : State) (n slot : Nat) (late inj : Bool) (origin : Option Nat) : ConvJob :=
  { inst := slot, late := late, inj := inj, origin := origin, coef := s.useReg P.ADC (F.ADC_COEF.at n),
    disturbed := bitOf (s.get P.ADC F.ADC_OVR_DISTURBED) n, dead := false }

/-- A converter after it took the sample of a conversion. -/
def ConvState.sampled (q : ConvState) (j : ConvJob) : ConvState :=
  { q with last := some j.inst, jobs := q.jobs ++ [j], instants := (j.inst :: q.instants).take 300 }

/-- The disturbance count of a sample. -/
def State.countDisturb (s : State) (n : Nat) (dist : Bool) : State := if dist then s.sat P.ADC F.ADC_CNT_B_DISTURB 1 n else s

theorem State.countDisturb_shows {s : State} (hs : s.Canon) (n : Nat) (dist : Bool) :
    Shows (pageKeys P.ADC [F.ADC_CNT_B.at n]) s (s.countDisturb n dist) :=
  .ite (.put (.refl hs) _ _ _ _ (by simp [Fld.at, F.ADC_CNT_B, F.ADC_CNT_B_DISTURB])) (.refl hs)

theorem State.convert_eq (s : State) (n slot : Nat) (late inj : Bool) (origin : Option Nat) : s.convert n slot late inj origin =
    (((s.modConv n (·.sampled (s.sampleJob n slot late inj origin))).countDisturb n
      (bitOf (s.get P.ADC F.ADC_OVR_DISTURBED) n)).emit (.sample n slot)).adcShow := rfl

/-- What a sample of converter `n` at a slot leaves. -/
structure Samples (n slot : Nat) (late inj : Bool) (s u : State) : Prop extends OnlyConv n s u where
  last : (u.conv n).last = some slot
  sent : .sample n slot ∈ u.out
  job : ∃ j, (u.conv n).jobs = (s.conv n).jobs ++ [j] ∧ j.inst = slot ∧ j.late = late ∧ j.inj = inj
  injDue : u.injDue = s.injDue
  misses : u.reg P.ADC (F.ADC_CNT_A.at n) = s.reg P.ADC (F.ADC_CNT_A.at n)
  state : u.conv n = { s.conv n with last := some slot, jobs := (u.conv n).jobs, instants := (u.conv n).instants }

theorem State.convert_samples {s : State} (hs : s.Canon) {n : Nat} (hn : n < s.convs.length) (slot : Nat) (late inj : Bool)
    (origin : Option Nat) : Samples n slot late inj s (s.convert n slot late inj origin) := by
  rw [State.convert_eq]
  generalize hj : s.sampleJob n slot late inj origin = j
  have h₁ : OnlyConv n s (s.modConv n (·.sampled j)) := (OnlyConv.refl hs).modConv hn _
  have h₂ := State.countDisturb_shows h₁.canon n (bitOf (s.get P.ADC F.ADC_OVR_DISTURBED) n)
  have h₃ := h₂.emit (.sample n slot)
  have h₄ := State.adcShow_shows h₃.canon
  have hblocks := h₃.blocks.trans h₄.blocks
  generalize hx : (State.countDisturb (s.modConv n (·.sampled j)) n (bitOf (s.get P.ADC F.ADC_OVR_DISTURBED) n)).emit (.sample n slot) = x
    at *
  have hsent : Output.sample n slot ∈ x.out := hx ▸ List.mem_append_right _ (List.mem_singleton_self _)
  have hconv : x.adcShow.conv n = (s.conv n).sampled j :=
    (State.conv_congr hblocks.convs n).trans (State.conv_modConv_self hn _)
  have honly : OnlyConv n s x.adcShow :=
    (h₁.shows h₃ (by simp [convOffs])).shows h₄ (adcOffs_subset_convOffs n)
  subst hj
  refine ⟨honly, by rw [hconv]; rfl, (State.adcShow_keeps (.refl x)).mem_out hsent, ⟨_, by rw [hconv]; rfl, rfl, rfl, rfl⟩,
    hblocks.injDue, ?_, by rw [hconv]; rfl⟩
  rw [h₄.regs _ _ (by simp [adcOffs, Fld.at, F.ADC_CNT_A, F.ADC_STAT, H.STAT, H.RAW, H.PEND]; omega), h₃.regs _ _ (by
    simp [Fld.at, F.ADC_CNT_A, F.ADC_CNT_B])]
  rfl

end Sys2Proof.Machine
end

section
/-!
SUPPORT. Starts of a sample set (R143 to R148): each member in turn, and the starts that a PULSE source owes.
-/
namespace Sys2Proof.Machine

/-! ### A start reaches a converter -/

/-- The converter misses a start at a slot: its quad is under calibration, or it is awake and inside the 500 ns (R144, R157). -/
def State.missesStart (s : State) (n slot : Nat) : Prop :=
  s.quadCal (n / 4) = true ∨ (s.conv n).asleep = false ∧ (s.conv n).waking = false ∧ s.convBusy n slot = true

/-- The converter takes its sample at a slot. -/
def State.takesStart (s : State) (n slot : Nat) : Prop :=
  s.quadCal (n / 4) = false ∧ (s.conv n).asleep = false ∧ (s.conv n).waking = false ∧ s.convBusy n slot = false

theorem State.startConv_of_misses {s : State} {n slot : Nat} (h : s.missesStart n slot) (late : Bool) :
    s.startConv n slot late = s.startMiss n := by
  unfold State.startConv
  rcases h with hcal | ⟨hasleep, hwaking, hbusy⟩
  · simp [hcal]
  · simp [hasleep, hwaking, hbusy]

theorem State.startConv_of_takes {s : State} {n slot : Nat} (h : s.takesStart n slot) (late : Bool) :
    s.startConv n slot late = s.convert n slot late false none := by
  obtain ⟨hcal, hasleep, hwaking, hbusy⟩ := h
  unfold State.startConv
  simp [hcal, hasleep, hwaking, hbusy]

theorem State.startConv_only {s : State} (hs : s.Canon) {n : Nat} (hn : n < s.convs.length) (slot : Nat) (late : Bool) :
    OnlyConv n s (s.startConv n slot late) := by
  have hmiss := State.startMiss_only hs n
  have hdrop : OnlyConv n s (if (s.conv n).injWait.isSome then s.injDrop n D.SCHED else s) := by
    split
    · exact State.injDrop_only hs n (by decide)
    · exact .refl hs
  unfold State.startConv
  extract_lets q x
  split
  · exact hmiss
  · split
    · split
      · exact hmiss
      · exact ((hdrop.modConv hn _).shows (State.adcShow_shows (hdrop.modConv hn _).canon) (adcOffs_subset_convOffs n))
    · split
      · exact hmiss
      · exact (State.convert_samples hs hn _ _ _ _).toOnlyConv

/-! ### The members of a set in turn -/

/-- What the starts of other converters leave: converter `c` with its count of missed starts, and the quads under calibration. -/
structure ConvKept (c : Nat) (s u : State) : Prop where
  canon : u.Canon
  length : u.convs.length = s.convs.length
  conv : u.conv c = s.conv c
  cal : ∀ q, u.quadCal q = s.quadCal q
  misses : u.get P.ADC F.ADC_CNT_A_START_MISS c = s.get P.ADC F.ADC_CNT_A_START_MISS c
  sent : ∀ o ∈ s.out, o ∈ u.out

theorem ConvKept.refl {c : Nat} {s : State} (hs : s.Canon) : ConvKept c s s := ⟨hs, rfl, rfl, fun _ => rfl, rfl, fun _ ho => ho⟩

theorem ConvKept.trans {c : Nat} {s u w : State} (h : ConvKept c s u) (h' : ConvKept c u w) : ConvKept c s w :=
  ⟨h'.canon, h'.length.trans h.length, h'.conv.trans h.conv, fun q => (h'.cal q).trans (h.cal q), h'.misses.trans h.misses,
    fun o ho => h'.sent o (h.sent o ho)⟩

theorem OnlyConv.kept {k c : Nat} {s u : State} (h : OnlyConv k s u) (hkeeps : Keeps s u) (hk : k < 16) (hc : c < 16) (hne : c ≠ k) :
    ConvKept c s u := by
  refine ⟨h.canon, h.length, h.others c hne, h.quadCal hk, h.get _ _ ?_, fun o => hkeeps.mem_out⟩
  simp [convOffs, adcOffs, List.range_succ, Fld.at, F.ADC_STAT, F.ADC_INJ_LAST, F.ADC_INJ_CAUSE_CNT, F.ADC_CNT_A, F.ADC_CNT_B,
    F.ADC_CNT_A_START_MISS, H.STAT, H.RAW, H.PEND]
  omega

/-- The starts of a list of converters. -/
def State.startAll (s : State) (l : List Nat) (slot : Nat) (late : Bool) : State := s.each l (fun s c => s.startConv c slot late)

section starts
variable {s : State} (hs : s.Canon) (hlen : s.convs.length = 16) {l : List Nat} (hlt : ∀ c ∈ l, c < 16) (slot : Nat) (late : Bool)
include hs hlen hlt

theorem State.startAll_others (c : Nat) (hc : c ∉ l) : (s.startAll l slot late).conv c = s.conv c := by
  induction l generalizing s with
  | nil => rfl
  | cons k r ih =>
    have hk := State.startConv_only hs (hlen ▸ hlt k (by simp)) slot late
    rw [List.mem_cons, not_or] at hc
    exact (ih hk.canon (hk.length.trans hlen) (fun c hc => hlt c (List.mem_cons_of_mem _ hc)) hc.2).trans (hk.others c hc.1)

theorem State.startAll_kept {c : Nat} (hc : c < 16) (hout : c ∉ l) : ConvKept c s (s.startAll l slot late) := by
  induction l generalizing s with
  | nil => exact .refl hs
  | cons k r ih =>
    have hk := State.startConv_only hs (hlen ▸ hlt k (by simp)) slot late
    rw [List.mem_cons, not_or] at hout
    exact (hk.kept (State.startConv_keeps (.refl s) ..) (hlt k (by simp)) hc hout.1).trans
      (ih hk.canon (hk.length.trans hlen) (fun c hc => hlt c (List.mem_cons_of_mem _ hc)) hout.2)

/-- Each converter of a list without repetitions has one turn, which finds it as it was, and which the later turns leave. -/
theorem State.startAll_turn (hnodup : l.Nodup) {c : Nat} (hc : c ∈ l) :
    ∃ x, ConvKept c s x ∧ ConvKept c (x.startConv c slot late) (s.startAll l slot late) := by
  induction l generalizing s with
  | nil => exact nomatch hc
  | cons k r ih =>
    have hk := State.startConv_only hs (hlen ▸ hlt k (by simp)) slot late
    have hr : ∀ c ∈ r, c < 16 := fun c hc => hlt c (List.mem_cons_of_mem _ hc)
    obtain ⟨hfresh, hnodup⟩ := List.nodup_cons.1 hnodup
    rcases List.mem_cons.1 hc with rfl | hmem
    · exact ⟨s, .refl hs, State.startAll_kept hk.canon (hk.length.trans hlen) hr slot late (hlt c (by simp)) hfresh⟩
    · obtain ⟨x, hx, hturn⟩ := ih hk.canon (hk.length.trans hlen) hr hnodup hmem
      have hne : c ≠ k := fun e => hfresh (e ▸ hmem)
      exact ⟨x, (hk.kept (State.startConv_keeps (.refl s) ..) (hlt k (by simp)) (hr c hmem) hne).trans hx, hturn⟩

theorem State.startAll_takes (hnodup : l.Nodup) {c : Nat} (hc : c ∈ l) (h : s.takesStart c slot) :
    ((s.startAll l slot late).conv c).last = some slot ∧ .sample c slot ∈ (s.startAll l slot late).out ∧
      ∃ j, ((s.startAll l slot late).conv c).jobs = (s.conv c).jobs ++ [j] ∧ j.inst = slot ∧ j.late = late ∧ j.inj = false := by
  obtain ⟨x, hx, hturn⟩ := State.startAll_turn hs hlen hlt slot late hnodup hc
  have hxs : x.takesStart c slot := by
    unfold State.takesStart State.convBusy at *
    rwa [hx.conv, hx.cal]
  rw [State.startConv_of_takes hxs] at hturn
  have hsample := State.convert_samples hx.canon (hx.length.trans hlen ▸ hlt c hc) slot late false none
  rw [hturn.conv, ← hx.conv]
  exact ⟨hsample.last, hturn.sent _ hsample.sent, hsample.job⟩

theorem State.startAll_misses (hnodup : l.Nodup) {c : Nat} (hc : c ∈ l) (h : s.missesStart c slot) :
    (s.startAll l slot late).conv c = s.conv c ∧ (s.startAll l slot late).get P.ADC F.ADC_CNT_A_START_MISS c =
      Nat.min (s.get P.ADC F.ADC_CNT_A_START_MISS c + 1) (2 ^ 16 - 1) := by
  obtain ⟨x, hx, hturn⟩ := State.startAll_turn hs hlen hlt slot late hnodup hc
  have hxs : x.missesStart c slot := by
    unfold State.missesStart State.convBusy at *
    rwa [hx.conv, hx.cal]
  rw [State.startConv_of_misses hxs] at hturn
  refine ⟨hturn.conv.trans ((State.conv_congr (State.startMiss_shows hx.canon c).blocks.convs c).trans hx.conv), ?_⟩
  rw [hturn.misses, State.startMiss_counts hx.canon, hx.misses]

end starts

/-! ### CONVERSION_START -/

/-- The starts that a PULSE source owes at slot `t` or before it are no longer owed. -/
def State.pulsesTaken (s : State) (set t : Nat) : State :=
  { s with pulseDue := lmod s.pulseDue set (fun ds => ds.filter (fun d => match d with
      | .slot x => x != t
      | .angle l ph => decide ((s.loop l).phaseAt t < ph))) }

theorem execConversionStart_fires {s : State} {t : Nat} {i : Fin 8} (hen : s.enabled P.ADC = true)
    (hset : s.useB P.ADC F.ADC_SET_CFG_EN i = true) (hclk : s.adcClocked = true) {late : Bool} (hf : s.setFires i t = some late) :
    exec (.conversionStart t i) s = .next (((s.at t).pulsesTaken i t).startAll (s.members i) t late) := by
  show execConversionStart t i s = _
  unfold execConversionStart
  dsimp only
  rw [if_neg (by rw [State.enabled_at, State.useB_at, hen, hset, show (s.at t).adcClocked = true from hclk]; decide),
    show (s.at t).setFires i t = some late from hf]
  rfl

theorem execConversionStart_silent {s : State} {t : Nat} {i : Fin 8} (hf : s.setFires i t = none) :
    exec (.conversionStart t i) s = .next (s.at t) := by
  show execConversionStart t i s = _
  unfold execConversionStart
  dsimp only
  rw [show (s.at t).setFires i t = none from hf]
  exact ite_self _

theorem State.members_nodup (s : State) (i : Nat) : (s.members i).Nodup := List.nodup_range.filter _

theorem State.lt_of_mem_members {s : State} {i c : Nat} (h : c ∈ s.members i) : c < 16 := List.mem_range.1 (List.mem_filter.1 h).1

/-! ### PULSE_SOURCE_PULSE -/

/-- A converter of the set that naps begins its wake-up (R150). -/
def State.wakeIfAsleep (s : State) (c : Nat) : State :=
  if (s.conv c).asleep then s.modConv c (fun q => { q with waking := true }) else s

/-- A start is owed by a set's PULSE source. -/
def State.owePulse (s : State) (i : Nat) (due : PulseDue) : State := { s with pulseDue := lmod s.pulseDue i (fun ds => ds ++ [due]) }

theorem execPulseSourcePulse_outside {s : State} {t : Nat} {i : Fin 8} {width : Nat}
    (h : width < 8 * bits (s.useReg P.ADC (F.ADC_SET_P0.at i)) 15 0 ∨
      8 * bits (s.useReg P.ADC (F.ADC_SET_P0.at i)) 31 16 ≠ 0 ∧ 8 * bits (s.useReg P.ADC (F.ADC_SET_P0.at i)) 31 16 < width) :
    exec (.pulseSourcePulse t i width) s = .next (s.at t) := by
  refine if_pos (.inr (.inr (.inr (.inr ?_))))
  exact h.imp_right fun ⟨hne, hlt⟩ => ⟨fun h0 => hne (by rw [show bits (s.useReg P.ADC (F.ADC_SET_P0.at i)) 31 16 = 0 from h0]), hlt⟩

theorem execPulseSourcePulse_ticks {s : State} {t : Nat} {i : Fin 8} {width : Nat} (hen : s.enabled P.ADC = true)
    (hset : s.useB P.ADC F.ADC_SET_CFG_EN i = true) (hsrc : s.use P.ADC F.ADC_SET_CFG_SRC i = 3)
    (hmode : s.digMode (s.use P.ADC F.ADC_SET_CFG_CHANNEL i / 32) ≠ M.OFF)
    (hlo : 8 * bits (s.useReg P.ADC (F.ADC_SET_P0.at i)) 15 0 ≤ width)
    (hhi : 8 * bits (s.useReg P.ADC (F.ADC_SET_P0.at i)) 31 16 = 0 ∨ width ≤ 8 * bits (s.useReg P.ADC (F.ADC_SET_P0.at i)) 31 16)
    (hunit : s.use P.ADC F.ADC_SET_CFG_UNIT i = 1) : exec (.pulseSourcePulse t i width) s =
      .next ((((s.at t).owePulse i (.slot (t + 8 * s.useReg P.ADC (F.ADC_SET_P1.at i)))).each (s.members i)
        State.wakeIfAsleep).adcShow) := by
  have hwithin : ¬(width < 8 * bits (s.useReg P.ADC (F.ADC_SET_P0.at i)) 15 0 ∨
      bits (s.useReg P.ADC (F.ADC_SET_P0.at i)) 31 16 ≠ 0 ∧ 8 * bits (s.useReg P.ADC (F.ADC_SET_P0.at i)) 31 16 < width) := by omega
  show execPulseSourcePulse t i width s = _
  unfold execPulseSourcePulse
  dsimp only
  rw [if_neg, if_neg]
  · simp only [State.use_at, hunit]
    rfl
  · simp [hunit]
  · simp only [State.enabled_at, State.useB_at, State.use_at, State.digMode_at, hen, hset, hsrc, hmode, Bool.not_true, ne_eq,
      not_true_eq_false, false_or, Bool.false_eq_true]
    exact hwithin

theorem State.each_pulseDue {α : Type} {l : List α} {f : State → α → State} (h : ∀ s, ∀ x ∈ l, (f s x).pulseDue = s.pulseDue) (s : State) :
    (s.each l f).pulseDue = s.pulseDue := by
  induction l generalizing s with
  | nil => rfl
  | cons x r ih => exact (ih (fun s y hy => h s y (List.mem_cons_of_mem _ hy)) (f s x)).trans (h s x (by simp))

theorem State.wakeIfAsleep_pulseDue (s : State) (c : Nat) : (s.wakeIfAsleep c).pulseDue = s.pulseDue := by
  unfold State.wakeIfAsleep
  split <;> rfl

theorem State.wakeIfAsleep_keeps {s u : State} (h : Keeps s u) (c : Nat) : Keeps s (u.wakeIfAsleep c) := by
  unfold State.wakeIfAsleep
  split
  · exact State.modConv_keeps h _ _
  · exact h

/-- Settles O33: the members' turns one by one, the source that does not fire, and the pulse inside and outside its limits. -/
theorem conversionStarts : Obligations.ConversionStarts := by
  intro s t i width hs hlen hdue hen hset
  refine ⟨fun hclk late hf => ?_, execConversionStart_silent, fun hsrc hmode => ⟨fun hlo hhi hunit => ?_, execPulseSourcePulse_outside⟩⟩
  · have hs' : ((s.at t).pulsesTaken i t).Canon := hs
    have hlt : ∀ c ∈ s.members i, c < 16 := fun c => State.lt_of_mem_members
    refine ⟨_, execConversionStart_fires hen hset hclk hf, fun c hc hcal hasleep hwaking hbusy => ?_, fun c hc hmiss => ?_,
      State.startAll_others hs' hlen hlt t late⟩
    · exact State.startAll_takes hs' hlen hlt t late (s.members_nodup i) hc ⟨hcal, hasleep, hwaking, hbusy⟩
    · exact State.startAll_misses hs' hlen hlt t late (s.members_nodup i) hc hmiss
  · refine ⟨_, execPulseSourcePulse_ticks hen hset hsrc hmode hlo hhi hunit, ?_⟩
    generalize hx : (s.at t).owePulse i (.slot (t + 8 * s.useReg P.ADC (F.ADC_SET_P1.at i))) = x
    have hxs : x.Canon := hx ▸ hs
    have hwoken : (x.each (s.members i) State.wakeIfAsleep).Canon :=
      (State.each_keeps (.refl x) fun _ h c => State.wakeIfAsleep_keeps h c).canon hxs
    rw [(State.adcShow_shows hwoken).blocks.pulseDue, State.each_pulseDue fun s c _ => s.wakeIfAsleep_pulseDue c, ← hx]
    exact (getD_lmod s.pulseDue i i _ [] (by omega)).trans (if_pos rfl)

end Sys2Proof.Machine
end

section
/-!
SUPPORT. Wake-up and injected requests (R149 to R151).
-/
namespace Sys2Proof.Machine

/-! ### CONVERTER_WAKE_REQUEST -/

/-- Converter `n` begins its wake-up. -/
def State.wakes (s : State) (n : Nat) : State := (s.modConv n (fun q => { q with waking := true })).adcShow

theorem execConverterWakeRequest_near {s : State} {t : Nat} {n : Fin 16} {x : Nat} (hen : s.convEn n = true)
    (hasleep : (s.conv n).asleep = true) (hnext : s.nextStart (s.convSet n) t = some x) (hx : x ≤ t + s.wakeSlots n) :
    exec (.converterWakeRequest t n) s = .next ((s.at t).wakes n) := by
  show execConverterWakeRequest t n s = _
  unfold execConverterWakeRequest
  dsimp only
  rw [show (s.at t).nextStart ((s.at t).convSet n) t = some x from hnext, show (s.at t).convEn n = true from hen,
    show ((s.at t).conv n).asleep = true from hasleep]
  exact congrArg Host.Outcome.next (if_pos (decide_eq_true (p := x ≤ t + (s.at t).wakeSlots n) hx))

theorem execConverterWakeRequest_awake {s : State} {t : Nat} {n : Fin 16} (hasleep : (s.conv n).asleep = false) :
    exec (.converterWakeRequest t n) s = .next (s.at t) := by
  show execConverterWakeRequest t n s = _
  unfold execConverterWakeRequest
  dsimp only
  rw [show ((s.at t).conv n).asleep = false from hasleep, Bool.and_false, Bool.false_and]
  rfl

/-- An operation on a converter followed by the page's state. -/
theorem State.modConv_adcShow_only {s : State} (hs : s.Canon) {n : Nat} (hn : n < s.convs.length) (f : ConvState → ConvState) :
    OnlyConv n s (s.modConv n f).adcShow := by
  have h : OnlyConv n s (s.modConv n f) := (OnlyConv.refl hs).modConv hn f
  exact h.shows (State.adcShow_shows h.canon) (adcOffs_subset_convOffs n)

theorem State.modConv_adcShow_conv {s : State} (hs : s.Canon) {n : Nat} (hn : n < s.convs.length) (f : ConvState → ConvState) :
    (s.modConv n f).adcShow.conv n = f (s.conv n) :=
  (State.conv_congr (State.adcShow_shows ((OnlyConv.refl hs).modConv hn f).canon).blocks.convs n).trans (State.conv_modConv_self hn f)

/-! ### CONVERTER_READY -/

/-- A converter that is ready waits for nothing. -/
def ConvState.readied (q : ConvState) : ConvState := { q with asleep := false, waking := false, startWait := false, injWait := none }

/-- The late start of a converter counts (R150). -/
def State.lateStart (s : State) (n : Nat) : State := (s.sat P.ADC F.ADC_CNT_A_LATE_START 1 n).pulse P.ADC 0

theorem execConverterReady_not_waking {s : State} {t : Nat} {n : Fin 16} (hwaking : (s.conv n).waking = false) :
    exec (.converterReady t n) s = .next (s.at t) := by
  refine if_pos ?_
  rw [show ((s.at t).conv n).waking = false from hwaking]
  rfl

theorem State.lateStart_shows {s : State} (hs : s.Canon) (n : Nat) : Shows (pageKeys P.ADC [F.ADC_CNT_A.at n, H.PEND]) s (s.lateStart n) :=
  .pulse (.put (.refl hs) _ _ _ _ (by simp [Fld.at, F.ADC_CNT_A, F.ADC_CNT_A_LATE_START])) _ _ (by simp)

theorem State.lateStart_counts {s : State} (hs : s.Canon) (n : Nat) : (s.lateStart n).get P.ADC F.ADC_CNT_A_LATE_START n =
    Nat.min (s.get P.ADC F.ADC_CNT_A_LATE_START n + 1) (2 ^ 16 - 1) := by
  have hwf : (s.sat P.ADC F.ADC_CNT_A_LATE_START 1 n).ActiveWf := State.put_wf hs.active _ _ _ _
  refine (State.get_congr (State.pulse_reg hwf _ _ _ _ ?_)).trans (State.get_sat_half hs.active _ n rfl (by decide))
  simp [rkey, Fld.at, F.ADC_CNT_A_LATE_START, H.PEND]
  omega

theorem convOffs_lt {n : Nat} (hn : n < 16) : ∀ o ∈ convOffs n, o < 0x1000 := by
  simp [convOffs, adcOffs, List.range_succ, Fld.at, F.ADC_STAT, F.ADC_INJ_LAST, F.ADC_INJ_CAUSE_CNT, F.ADC_CNT_A, F.ADC_CNT_B,
    H.STAT, H.RAW, H.PEND]
  omega

/-- An operation on a converter leaves every register of another page. -/
theorem OnlyConv.reg_elsewhere {n : Nat} {s u : State} (h : OnlyConv n s u) (hn : n < 16) {p o : Nat} (hp : P.ADC ≠ p) (ho : o < 0x1000) :
    u.reg p o = s.reg p o := by
  refine h.regs p o fun hm => ?_
  obtain ⟨o', hmem, heq⟩ := List.mem_map.1 hm
  exact hp ((rkey_inj (convOffs_lt hn o' hmem) ho).1 heq).1

/-- The clock of the converters is read from the sampling planes' pages. -/
theorem OnlyConv.adcClocked {n : Nat} {s u : State} (h : OnlyConv n s u) (hn : n < 16) : u.adcClocked = s.adcClocked := by
  unfold State.adcClocked State.sp0Good State.getB
  rw [State.get_congr (h.reg_elsewhere hn (p := P.CKS 0) (by decide) (by decide)),
    State.get_congr (h.reg_elsewhere hn (p := P.CKS 1) (by decide) (by decide))]

theorem execConverterReady_late {s : State} (hs : s.Canon) (hlen : s.convs.length = 16) {t : Nat} {n : Fin 16}
    (hwaking : (s.conv n).waking = true) (hwait : (s.conv n).startWait = true) (hcal : s.quadCal (n / 4) = false)
    (hclk : s.adcClocked = true) :
    exec (.converterReady t n) s = .next (((((s.at t).modConv n (·.readied)).adcShow).lateStart n).convert n t true false none) := by
  have hready : OnlyConv n (s.at t) ((s.at t).modConv n (·.readied)).adcShow := 
    State.modConv_adcShow_only (s := s.at t) hs (show n.val < s.convs.length by omega) _
  have hcal' : ((s.at t).modConv n (·.readied)).adcShow.quadCal (n / 4) = false := (hready.quadCal n.isLt _).trans hcal
  have hclk' : ((s.at t).modConv n (·.readied)).adcShow.adcClocked = true := (hready.adcClocked n.isLt).trans hclk
  have hgo : ¬(((s.at t).modConv n (·.readied)).adcShow.quadCal (n / 4) || !((s.at t).modConv n (·.readied)).adcShow.adcClocked) =
    true := by
    rw [hcal', hclk']
    decide
  show execConverterReady t n s = _
  unfold execConverterReady
  dsimp only
  rw [if_neg (by rw [show ((s.at t).conv n).waking = true from hwaking]; decide),
    if_pos (show ((s.at t).conv n).startWait = true from hwait)]
  exact congrArg Host.Outcome.next (if_neg hgo)

/-- What the late start of converter `n` at slot `t` leaves. -/
theorem State.late_conversion {s : State} (hs : s.Canon) {n : Nat} (hn : n < s.convs.length) (t : Nat) :
    ∃ w, OnlyConv n s w ∧ w.conv n = (s.conv n).readied ∧ Samples n t true false w
      ((((s.modConv n (·.readied)).adcShow).lateStart n).convert n t true false none) ∧
      w.get P.ADC F.ADC_CNT_A_LATE_START n = Nat.min (s.get P.ADC F.ADC_CNT_A_LATE_START n + 1) (2 ^ 16 - 1) := by
  have hready := State.modConv_adcShow_only hs hn (·.readied)
  have hconv := State.modConv_adcShow_conv hs hn (·.readied)
  have hcount : (s.modConv n (·.readied)).adcShow.get P.ADC F.ADC_CNT_A_LATE_START n = s.get P.ADC F.ADC_CNT_A_LATE_START n :=
    (State.adcShow_shows ((OnlyConv.refl hs).modConv hn _).canon).get _ _ _ (by
      simp [adcOffs, Fld.at, F.ADC_STAT, F.ADC_CNT_A_LATE_START, H.STAT, H.RAW, H.PEND]; omega)
  generalize (s.modConv n (·.readied)).adcShow = x at *
  have hlate := State.lateStart_shows hready.canon n
  have honly := hready.shows hlate (by simp [convOffs, adcOffs])
  exact ⟨x.lateStart n, honly, (State.conv_congr hlate.blocks.convs n).trans hconv,
    State.convert_samples honly.canon (honly.length ▸ hn) _ _ _ _, by rw [State.lateStart_counts hready.canon, hcount]⟩

/-! ### INJECTED_REQUEST -/

section injected
variable {s : State} {t slot : Nat} {n : Fin 16} {r : InjReq}

/-- The request is on its way no more. -/
def State.takeRequest (s : State) (r : InjReq) : State := { s with injDue := s.injDue.erase r }

theorem execInjectedRequest_absent (hr : s.injDue.find? (fun r => r.conv == n.val && r.slot == slot) = none) :
    exec (.injectedRequest t n slot) s = .next (s.at t) := by
  show execInjectedRequest t n slot s = _
  unfold execInjectedRequest
  dsimp only
  rw [show (s.at t).injDue.find? (fun r => r.conv == n.val && r.slot == slot) = none from hr]

section arrived
variable (hr : s.injDue.find? (fun r => r.conv == n.val && r.slot == slot) = some r) (hen : s.convEn n = true) (hslot : slot ≤ t)
include hr hen hslot

/-- An arrived request of an enabled converter meets the causes of a drop in R151's order. -/
theorem execInjectedRequest_arrived : exec (.injectedRequest t n slot) s =
    if s.quadCal (n / 4) then .next (((s.at t).takeRequest r).injDrop n D.CAL)
    else if (s.conv n).hold.isSome then .next (((s.at t).takeRequest r).injDrop n D.HELD)
    else if s.convBusy n t || (s.conv n).injWait.isSome then .next (((s.at t).takeRequest r).injDrop n D.BUSY)
    else if (s.conv n).startWait then .next (((s.at t).takeRequest r).injDrop n D.SCHED)
    else if (s.conv n).asleep || (s.conv n).waking then
      .next (((s.at t).takeRequest r).modConv n
        (fun q => { q with injWait := some (if r.spec then some slot else none), waking := true })).adcShow
    else if s.schedDue n t || !s.adcClocked then .next (((s.at t).takeRequest r).injDrop n D.SCHED)
    else .next (((s.at t).takeRequest r).convert n t false true (if r.spec then some slot else none)) := by
  show execInjectedRequest t n slot s = _
  unfold execInjectedRequest
  dsimp only
  rw [show (s.at t).injDue.find? (fun r => r.conv == n.val && r.slot == slot) = some r from hr]
  have hdisabled : ¬(!s.convEn n) = true := by rw [hen]; decide
  exact (if_neg (not_or.2 ⟨hdisabled, Nat.not_lt.2 hslot⟩)).trans rfl

theorem execInjectedRequest_cal (hcal : s.quadCal (n / 4) = true) :
    exec (.injectedRequest t n slot) s = .next (((s.at t).takeRequest r).injDrop n D.CAL) := by
  rw [execInjectedRequest_arrived hr hen hslot, if_pos hcal]

theorem execInjectedRequest_held (hcal : s.quadCal (n / 4) = false) (hhold : (s.conv n).hold ≠ none) :
    exec (.injectedRequest t n slot) s = .next (((s.at t).takeRequest r).injDrop n D.HELD) := by
  rw [execInjectedRequest_arrived hr hen hslot, hcal, if_neg Bool.false_ne_true, if_pos (Option.isSome_iff_ne_none.2 hhold)]

theorem execInjectedRequest_busy (hcal : s.quadCal (n / 4) = false) (hhold : (s.conv n).hold = none) (hbusy : s.convBusy n t = true) :
    exec (.injectedRequest t n slot) s = .next (((s.at t).takeRequest r).injDrop n D.BUSY) := by
  rw [execInjectedRequest_arrived hr hen hslot, hcal, hhold, hbusy]
  rfl

theorem execInjectedRequest_free (hcal : s.quadCal (n / 4) = false) (hhold : (s.conv n).hold = none) (hbusy : s.convBusy n t = false)
    (hinj : (s.conv n).injWait = none) (hstart : (s.conv n).startWait = false) (hasleep : (s.conv n).asleep = false)
    (hwaking : (s.conv n).waking = false) (hsched : s.schedDue n t = false) (hclk : s.adcClocked = true) :
    exec (.injectedRequest t n slot) s =
      .next (((s.at t).takeRequest r).convert n t false true (if r.spec then some slot else none)) := by
  rw [execInjectedRequest_arrived hr hen hslot, hcal, hhold, hbusy, hinj, hstart, hasleep, hwaking, hsched, hclk]
  rfl

end arrived

/-- A dropped request is counted and its cause and converter shown; the converter stays as it is. -/
theorem State.injDrop_drops {s : State} (hs : s.Canon) {n : Nat} (hn : n < 16) {cause : Nat} (hc : cause - 1 < 4) (hcause : cause < 8) :
    (s.injDrop n cause).injDue = s.injDue ∧ (s.injDrop n cause).conv n = s.conv n ∧
      (s.injDrop n cause).get P.ADC F.ADC_CNT_B_INJ_DROP n = Nat.min (s.get P.ADC F.ADC_CNT_B_INJ_DROP n + 1) (2 ^ 16 - 1) ∧
      (s.injDrop n cause).get P.ADC F.ADC_INJ_LAST_CAUSE = cause ∧ (s.injDrop n cause).get P.ADC F.ADC_INJ_LAST_CONV = n := by
  have hblocks := (State.injDrop_shows hs n hc).blocks
  refine ⟨hblocks.injDue, State.conv_congr hblocks.convs n, ?_⟩
  unfold State.injDrop
  extract_lets x y z
  have hx : x.ActiveWf := State.put_wf hs.active _ _ _ _
  have hy : y.ActiveWf := State.put_wf hx _ _ _ _
  have hcausewf : (y.put P.ADC F.ADC_INJ_LAST_CAUSE cause).ActiveWf := State.put_wf hy _ _ _ _
  have hz : z.ActiveWf := State.put_wf hcausewf _ _ _ _
  have hpulse (f : Fld) (i : Nat) (hf : f.at i ≠ H.PEND) : (z.pulse P.ADC 2).get P.ADC f i = z.get P.ADC f i :=
    State.get_congr (State.pulse_reg hz _ _ _ _ (by simpa [rkey] using hf))
  have hcount : y.get P.ADC F.ADC_CNT_B_INJ_DROP n = x.get P.ADC F.ADC_CNT_B_INJ_DROP n :=
    State.get_put_ne hx _ _ _ _ _ _ _ (by simp [rkey, Fld.at, F.ADC_CNT_B_INJ_DROP, F.ADC_INJ_CAUSE_CNT]; omega)
  refine ⟨?_, ?_, ?_⟩
  · rw [hpulse _ _ (by simp [Fld.at, F.ADC_CNT_B_INJ_DROP, H.PEND]; omega), State.get_put_ne hcausewf, State.get_put_ne hy,
      hcount]
    · exact State.get_sat_half hs.active _ n rfl (by decide)
    all_goals simp [rkey, Fld.at, F.ADC_CNT_B_INJ_DROP, F.ADC_INJ_LAST_CAUSE, F.ADC_INJ_LAST_CONV]; omega
  · rw [hpulse _ _ (by decide), State.get_put_apart hcausewf _ _ (by decide) (by decide) (by decide),
      State.get_put hy _ _ _ _ (by decide) (by decide)]
    exact Nat.mod_eq_of_lt hcause
  · rw [hpulse _ _ (by decide), State.get_put hcausewf _ _ _ _ (by decide) (by decide)]
    exact Nat.mod_eq_of_lt hn

end injected

/-- Settles O34: the wake request, the late start, and an arrived request with each cause of a drop and without one. -/
theorem converterWakeAndInjection : Obligations.ConverterWakeAndInjection := by
  intro s t n slot hs hlen
  have hn : n.val < s.convs.length := by omega
  refine ⟨fun x hen hasleep hnext hx => ?_, execConverterWakeRequest_awake, fun hwaking hwait hcal hclk => ?_,
    execConverterReady_not_waking, fun r hr hen hslot => ?_, execInjectedRequest_absent⟩
  · exact ⟨_, execConverterWakeRequest_near hen hasleep hnext hx, State.modConv_adcShow_conv (s := s.at t) hs hn _,
      (State.modConv_adcShow_only (s := s.at t) hs hn _).others⟩
  · obtain ⟨w, -, hready, hsample, hcount⟩ := State.late_conversion (s := s.at t) hs hn t
    refine ⟨_, execConverterReady_late hs hlen hwaking hwait hcal hclk, ?_, ?_, ?_, hsample.last, hsample.sent,
      (State.get_congr (f := F.ADC_CNT_A_LATE_START) hsample.misses).trans hcount⟩ <;> rw [hsample.state, hready] <;> rfl
  · have hs' : ((s.at t).takeRequest r).Canon := hs
    refine ⟨fun hcal => ?_, fun hcal hhold => ?_, fun hcal hhold => ⟨fun hbusy => ?_,
      fun hbusy hinj hstart hasleep hwaking hsched hclk => ?_⟩⟩
    · exact ⟨_, execInjectedRequest_cal hr hen hslot hcal, State.injDrop_drops hs' n.isLt (by decide) (by decide)⟩
    · exact ⟨_, execInjectedRequest_held hr hen hslot hcal hhold, State.injDrop_drops hs' n.isLt (by decide) (by decide)⟩
    · exact ⟨_, execInjectedRequest_busy hr hen hslot hcal hhold hbusy, State.injDrop_drops hs' n.isLt (by decide) (by decide)⟩
    · have hsample := State.convert_samples hs' hn t false true (if r.spec then some slot else none)
      obtain ⟨j, hjobs, hinst, -, hj⟩ := hsample.job
      exact ⟨_, execInjectedRequest_free hr hen hslot hcal hhold hbusy hinj hstart hasleep hwaking hsched hclk, hsample.injDue,
        hsample.last, hsample.sent, j, hjobs, hinst, hj⟩

end Sys2Proof.Machine
end

section
/-!
SUPPORT. What recording an item, closing a gap and merging a record leave of the interval timers (R162, R257): all of them.
-/
namespace Sys2Proof.Machine
variable (s : State)

/-! ### How the timers pass through branches and repetitions -/

@[simp] theorem State.ivs_ite (c : Prop) [Decidable c] (x y : State) : (if c then x else y).ivs = if c then x.ivs else y.ivs := apply_ite ..

@[simp] theorem State.foldl_ivs {α : Type} (l : List α) (f : State → α → State) (h : ∀ s x u, f s x = u → u.ivs = s.ivs) :
    (l.foldl f s).ivs = s.ivs := by
  induction l generalizing s with
  | nil => rfl
  | cons x r ih => exact (ih _).trans (h s x _ rfl)

@[simp] theorem State.each_ivs {α : Type} (l : List α) (f : State → α → State) (h : ∀ s x u, f s x = u → u.ivs = s.ivs) :
    (s.each l f).ivs = s.ivs := State.foldl_ivs s l f h

/-! ### Streams -/

@[simp] theorem State.refreshRfq_ivs (sid) : (s.refreshRfq sid).ivs = s.ivs := by simp [State.refreshRfq]
@[simp] theorem State.setStall_ivs (sid b) : (s.setStall sid b).ivs = s.ivs := by simp [State.setStall]

@[simp] theorem State.ringWrite_ivs (sid c) : (s.ringWrite sid c).1.ivs = s.ivs := by
  dsimp only [State.ringWrite]
  split <;> simp

@[simp] theorem State.closeChunk_ivs (sid flags) : (s.closeChunk sid flags).ivs = s.ivs := by
  dsimp only [State.closeChunk]
  split <;> simp

@[simp] theorem State.openChunk_ivs (sid slot) : (s.openChunk sid slot).ivs = s.ivs := by simp [State.openChunk]
@[simp] theorem State.note_ivs (kind slot unit val extra) : (s.note kind slot unit val extra).ivs = s.ivs := by simp [State.note]
@[simp] theorem State.stageItem_ivs (sid it) : (s.stageItem sid it).ivs = s.ivs := by simp [State.stageItem]

@[simp] theorem State.appendRaw_ivs (sid it) : (s.appendRaw sid it).ivs = s.ivs := by
  dsimp only [State.appendRaw]
  (repeat' split) <;> simp

@[simp] theorem State.recFlag_ivs (b) : (s.recFlag b).ivs = s.ivs := by simp [State.recFlag]

/-! ### Tokens and faults -/

@[simp] theorem State.sendPort_ivs (p k) : (s.sendPort p k).ivs = s.ivs := by simp [State.sendPort, State.putToken, State.sendFlit]

@[simp] theorem State.sendSeam_ivs (kind low w1 w2 w3) : (s.sendSeam kind low w1 w2 w3).ivs = s.ivs := by
  simp [State.sendSeam, State.sendTwin]

@[simp] theorem State.driveLands_ivs (slot) : (s.driveLands slot).ivs = s.ivs := by simp [State.driveLands]
@[simp] theorem State.actState_ivs : s.actState.ivs = s.ivs := by simp [State.actState]
@[simp] theorem State.endActivity_ivs (mask slot) : (s.endActivity mask slot).ivs = s.ivs := by simp [State.endActivity, State.setActive]
@[simp] theorem State.goAlone_ivs : s.goAlone.ivs = s.ivs := by simp [State.goAlone, State.setTwin]

@[simp] theorem State.tailMarker_ivs (sid code subject slot params) : (s.tailMarker sid code subject slot params).ivs = s.ivs := by
  simp [State.tailMarker]

@[simp] theorem State.safeEntry_ivs (first) : (s.safeEntry first).ivs = s.ivs := by simp [State.safeEntry]
@[simp] theorem State.raiseFault_ivs (f) : (s.raiseFault f).ivs = s.ivs := by simp [State.raiseFault]
@[simp] theorem State.appendItem_ivs (sid it) : (s.appendItem sid it).ivs = s.ivs := by simp [State.appendItem]
@[simp] theorem State.marker_ivs (code subject slot params ply) : (s.marker code subject slot params ply).ivs = s.ivs := by
  simp [State.marker]

/-! ### Gaps and sums of a span -/

@[simp] theorem State.seamWith_ivs (sid slot f) : (s.seamWith sid slot f).ivs = s.ivs := by simp [State.seamWith]
@[simp] theorem State.seamAdd_ivs (sid slot a b c) : (s.seamAdd sid slot a b c).ivs = s.ivs := by simp [State.seamAdd]
@[simp] theorem State.seamSkip_ivs (sid slot) : (s.seamSkip sid slot).ivs = s.ivs := by simp [State.seamSkip]

@[simp] theorem State.inband_ivs (sid code subject slot params) : (s.inband sid code subject slot params).ivs = s.ivs := by
  simp [State.inband]

@[simp] theorem State.gapClose_ivs (sids resume cause whole) : (s.gapClose sids resume cause whole).ivs = s.ivs := by
  simp (disch := (rintro s x _ rfl; (repeat' split) <;> simp)) [State.gapClose]

/-! ### Records -/

@[simp] theorem State.emitRecord_ivs (sid ws finish) : (s.emitRecord sid ws finish).ivs = s.ivs := by simp [State.emitRecord]

@[simp] theorem State.closeMerge_ivs (sid key) : (s.closeMerge sid key).ivs = s.ivs := by
  unfold State.closeMerge
  split <;> simp

@[simp] theorem State.mergeRecord_ivs (sid ws finish) : (s.mergeRecord sid ws finish).ivs = s.ivs := by
  dsimp only [State.mergeRecord]
  (repeat' split) <;> simp

/-! ### Results -/

/-- A result that enters the sums of an interval leaves the timers. -/
theorem State.accumulate_ivs (c : Nat) (r : AdcRes) : (s.accumulate c r).ivs = s.ivs := by
  dsimp only [State.accumulate]
  (repeat' split) <;> simp (disch := (rintro s x _ rfl; (repeat' split) <;> simp))

end Sys2Proof.Machine
end

section
/-!
SUPPORT. The end of an interval and the begin of the next (R162 to R170): what the end leaves of page ACC's settings and of the timers, and
the boundary the next one gets.
-/
namespace Sys2Proof.Machine

/-! ### What the end of an interval leaves alone -/

/-- The registers of ACC that show the state of the intervals. -/
def accOffs : List Nat := [H.RAW, H.PEND, F.ACC_STAT_SAT.off]

/-- The timers and the settings of page ACC they run on are as before. -/
structure TimersKept (s u : State) : Prop where
  canon : u.Canon
  ivs : u.ivs = s.ivs
  lastGood : u.regs.lastGood = s.regs.lastGood
  regs : ∀ o, o < 0x1000 → o ∉ accOffs → u.reg P.ACC o = s.reg P.ACC o

section kept
variable {a s u : State} (h : TimersKept a s)
include h

theorem TimersKept.trans (h' : TimersKept s u) : TimersKept a u :=
  ⟨h'.canon, h'.ivs.trans h.ivs, h'.lastGood.trans h.lastGood, fun o ho hn => (h'.regs o ho hn).trans (h.regs o ho hn)⟩

theorem TimersKept.front (hk : Keeps s u) (hf : u.front = s.front) (hi : u.ivs = s.ivs) : TimersKept a u :=
  h.trans ⟨hk.canon h.canon, hi, State.lastGood_of_front hf, fun _ ho _ => State.reg_of_front hf (by decide) ho⟩

/-- A change of the working state behind the timers. -/
theorem TimersKept.quiet (hk : Keeps s u) (hr : u.regs = s.regs) (hi : u.ivs = s.ivs) : TimersKept a u :=
  h.trans ⟨hk.canon h.canon, hi, by rw [hr], fun o _ _ => State.reg_congr (by rw [hr]) P.ACC o⟩

theorem TimersKept.setReg {p o : Nat} (ho : o < 0x1000) (hp : p = P.ACC → o ∈ accOffs) (v : Nat) : TimersKept a (s.setReg p o v) := by
  refine h.trans ⟨(State.setReg_keeps (.refl s) ..).canon h.canon, rfl, rfl, fun q hq hn => ?_⟩
  rw [State.reg_setReg h.canon.active, if_neg]
  rw [rkey_inj hq ho]
  rintro ⟨rfl, rfl⟩
  exact hn (hp rfl)

theorem TimersKept.put {p i : Nat} {f : Fld} (ho : f.at i < 0x1000) (hp : p = P.ACC → f.at i ∈ accOffs) (v : Nat) :
    TimersKept a (s.put p f v i) := h.setReg ho hp _

theorem TimersKept.pulse (p b : Nat) : TimersKept a (s.pulse p b) := by
  refine h.trans ⟨(State.pulse_keeps (.refl s) ..).canon h.canon, by simp, State.pulse_lastGood .., fun q hq hn => ?_⟩
  refine State.pulse_reg h.canon.active _ _ _ _ fun he => hn ?_
  rw [((rkey_inj hq (by decide)).1 he).2]
  simp [accOffs]

theorem TimersKept.level (p b : Nat) (v : Bool) : TimersKept a (s.level p b v) := by
  unfold State.level
  extract_lets raw u
  have hu : TimersKept a u := h.setReg (by decide) (fun _ => by simp [accOffs]) _
  split
  · exact hu.pulse p b
  · exact hu

omit h in
theorem TimersKept.refl (hs : s.Canon) : TimersKept s s := ⟨hs, rfl, rfl, fun _ _ _ => rfl⟩

omit h in
theorem TimersKept.ite {c : Prop} [Decidable c] {w : State} (hu : TimersKept a u) (hw : TimersKept a w) :
    TimersKept a (if c then u else w) := by
  split <;> assumption

theorem TimersKept.each {α : Type} {l : List α} {f : State → α → State} (hf : ∀ s, TimersKept a s → ∀ x ∈ l, TimersKept a (f s x)) :
    TimersKept a (s.each l f) := by
  induction l generalizing s with
  | nil => exact h
  | cons x r ih => exact ih (hf s h x (by simp)) fun s hs y hy => hf s hs y (List.mem_cons_of_mem _ hy)

/-! ### Records -/

theorem TimersKept.appendItem {sid : Nat} (hsid : sid < 22) (it : Item) : TimersKept a (s.appendItem sid it) :=
  h.front (State.appendItem_keeps (.refl s) ..) (State.appendItem_front s hsid it) (by simp)

theorem TimersKept.marker (code subject slot : Nat) (params : List Nat) (ply : Option Nat) :
    TimersKept a (s.marker code subject slot params ply) := h.front (State.marker_keeps (.refl s) ..) (by simp) (by simp)

theorem TimersKept.seamWith (sid slot : Nat) (f : SeamSum → SeamSum) : TimersKept a (s.seamWith sid slot f) := by
  refine h.quiet (State.seamWith_keeps (.refl s) ..) ?_ (by simp)
  unfold State.seamWith
  split
  · rfl
  · dsimp only
    split <;> rfl

theorem TimersKept.inband (sid code subject slot : Nat) (params : List Nat) : TimersKept a (s.inband sid code subject slot params) := by
  unfold State.inband
  split
  · extract_lets
    exact .ite (h.quiet (State.modStp_keeps (.refl s) ..) rfl rfl) h
  · split
    · exact h
    · split
      · exact h.each fun u hu n _ => .ite (hu.appendItem (by decide) _) hu
      · exact h.front (State.tailMarker_keeps (.refl s) ..) (by simp) (by simp)

theorem TimersKept.gapClose (sids : List Nat) (resume cause : Nat) (whole : Bool) : TimersKept a (s.gapClose sids resume cause whole) := by
  unfold State.gapClose
  extract_lets hit first s₁ s₂ s₃
  have h₁ : TimersKept a s₁ := .ite (h.marker ..) h
  have h₂ : TimersKept a s₂ := h₁.each fun u hu i _ => by
    dsimp only
    split
    · exact hu
    · refine TimersKept.inband ?_ _ _ _ _ _
      have hskip (f : StreamQ → StreamQ) : TimersKept a ((u.modStream i f).seamSkip i resume) :=
        (hu.quiet (State.modStream_keeps (.refl u) i f) rfl rfl).seamWith i resume _
      exact .ite (hskip _) ((hskip _).marker ..)
  have h₃ : TimersKept a s₃ := h₂.front (State.recFlag_keeps (.refl _) _) (by simp [s₃]) (by simp [s₃])
  have hnote (u : State) (hu : TimersKept a u) (kind slot unit : Nat) : TimersKept a (u.note kind slot unit) :=
    hu.front (State.note_keeps (.refl _) _ _ _ _ _) (by simp) (by simp)
  exact .ite h₂ (.ite (hnote _ h₃ _ _ _) (h₃.each fun u hu i _ => hnote _ hu _ _ _))

theorem TimersKept.emitRecord {sid : Nat} (hsid : sid < 22) (ws : List Word64) (finish : Nat) : TimersKept a (s.emitRecord sid ws finish) :=
  (TimersKept.ite (h.gapClose ..) h).appendItem hsid _

theorem TimersKept.closeMerge {sid : Nat} (hsid : sid < 22) (key : Nat) : TimersKept a (s.closeMerge sid key) := by
  unfold State.closeMerge
  split
  · exact (h.quiet (State.modAcq_keeps (.refl s) _) rfl rfl).emitRecord hsid _ _
  · exact h

theorem TimersKept.mergeRecord {sid : Nat} (hsid : sid < 22) (ws : List Word64) (finish : Nat) :
    TimersKept a (s.mergeRecord sid ws finish) := by
  unfold State.mergeRecord
  split
  · exact h
  · extract_lets key e s₁ g early s₂
    have h₁ : TimersKept a s₁ := by
      dsimp only [s₁]
      split
      · exact .ite h (h.closeMerge hsid _)
      · exact h
    have h₂ : TimersKept a s₂ := h₁.quiet (State.modAcq_keeps (.refl _) _) rfl rfl
    exact .ite (h₂.closeMerge hsid _) h₂

theorem TimersKept.recorded {sid : Nat} (hsid : sid < 22) (slot x y : Nat) (z : Int) (ws : List Word64) (c : Prop) [Decidable c] :
    TimersKept a (if c then (s.seamAdd sid slot x y z).mergeRecord sid ws slot else s) :=
  .ite ((h.seamWith ..).mergeRecord hsid _ _) h

/-- A change of values kept for the ladder or the host. -/
theorem TimersKept.snapped (hp : u.pending = s.pending) (ho : u.out = s.out) (hc : u.freeCtr = s.freeCtr) (hm : u.scratch = s.scratch)
    (hd : u.deep = s.deep) (hr : u.regs = s.regs) (hi : u.ivs = s.ivs) : TimersKept a u :=
  h.quiet ((Keeps.refl s).same hp ho hc hm hd (by rw [hr]) (by rw [hr])) hr hi

theorem TimersKept.ivEnd (i slot : Nat) (v : IvState) : TimersKept a (s.ivEnd i slot v) := by
  unfold State.ivEnd
  extract_lets cs ps hs cw pw hw s₁ s₂ s₃ s₄ flag s₅ s₆ s₇ s₈ all s₉
  have h₁ : TimersKept a s₁ := h.snapped rfl rfl rfl rfl rfl rfl rfl
  have h₂ : TimersKept a s₂ := h₁.each fun u hu e _ => by
    extract_lets u₁ x
    have hu₁ : TimersKept a u₁ := hu.snapped rfl rfl rfl rfl rfl rfl rfl
    exact hu₁.recorded (by decide) ..
  have h₃ : TimersKept a s₃ := h₂.each fun u hu e _ => by
    extract_lets u₁
    have hu₁ : TimersKept a u₁ := hu.snapped rfl rfl rfl rfl rfl rfl rfl
    exact .ite (hu₁.mergeRecord (by decide) _ _) hu₁
  have h₄ : TimersKept a s₄ := h₃.each fun u hu e _ => by
    extract_lets x u₁ fl u₂ u₃ u₄
    have hu₁ : TimersKept a u₁ := hu.snapped rfl rfl rfl rfl rfl rfl rfl
    have hu₂ : TimersKept a u₂ := hu₁.pulse ..
    have hu₃ : TimersKept a u₃ := .ite ((hu₂.put (by decide) (by decide) _).pulse ..) hu₂
    have hu₄ : TimersKept a u₄ := hu₃.put (by decide) (by decide) _
    exact hu₄.recorded (by decide) ..
  have h₅ : TimersKept a s₅ := h₄.put (by decide) (by decide) _
  have h₆ : TimersKept a s₆ := h₅.level ..
  have h₇ : TimersKept a s₇ := h₆.put (by decide) (fun _ => by simp [accOffs, Fld.at]) _
  have h₈ : TimersKept a s₈ := h₇.pulse ..
  have h₉ : TimersKept a s₉ := .ite (h₈.pulse ..) h₈
  exact .ite (h₉.pulse ..) h₉

end kept
end Sys2Proof.Machine
end

section
/-!
SUPPORT. The boundary of an interval on the TIME basis (R162, R163).
-/
namespace Sys2Proof.Machine

theorem State.iv_congr {s u : State} (h : u.ivs = s.ivs) (i : Nat) : u.iv i = s.iv i := by
  unfold State.iv
  rw [h]

/-! ### The next interval -/

@[simp] theorem State.ivShow_ivs (s : State) : s.ivShow.ivs = s.ivs := by simp [State.ivShow]

/-- A timer that is off begins no interval. -/
theorem State.ivBegin_off {s : State} {i : Nat} (hi : i < s.ivs.length) (hoff : bitOf (s.useReg P.ACC (F.ACC_IV_CFG.at i)) 31 = false)
    (slot : Nat) (prev : Option IvState) (fresh : Bool) : (s.ivBegin i slot prev fresh).iv i = none := by
  have heq : s.ivBegin i slot prev fresh = ({ s with ivs := lmod s.ivs i (fun _ => none) } : State).ivShow :=
    if_pos (.inr (.inl (by rw [hoff]; rfl)))
  rw [heq, State.iv_congr (State.ivShow_ivs _)]
  exact (getD_lmod s.ivs i i _ none hi).trans (if_pos rfl)

/-- A TIME interval that ended at its boundary is followed by one of the same length, counted from that boundary. -/
theorem State.ivBegin_next {s : State} {i : Nat} {v : IvState} (hi : i < s.ivs.length) (hen : s.enabled P.ACC = true)
    (hcfg : s.useReg P.ACC (F.ACC_IV_CFG.at i) = v.cfg) (hon : bitOf v.cfg 31 = true) (htime : bitOf v.cfg 30 = false)
    (halign : bitOf v.cfg 29 = false) (hlen : s.ivLen i = v.len) (hpos : v.len ≠ 0) (hcut : v.cut = none) (slot : Nat) :
    ∃ v', (s.ivBegin i slot (some v) false).iv i = some v' ∧ v'.start = slot ∧ v'.target = v.target + 8 * v.len ∧ v'.cut = none := by
  unfold State.ivBegin
  extract_lets cfg len l angle align ran p on old target cutShort f₁ f₂ f₃ f₄ v' s₁ sums s₂
  have hangle : angle = false := by rw [← htime, ← hcfg]
  have halign' : align = false := by rw [← halign, ← hcfg]
  have hon' : on = true := by
    show (v.cfg == cfg && v.len == len && v.cut.isNone) = true
    rw [show cfg = v.cfg from hcfg, show len = v.len from hlen, hcut]
    simp
  rw [if_neg (by rw [hen, show cfg = v.cfg from hcfg, hon, show len = v.len from hlen]; simpa using hpos)]
  have hsums : s₂.ivs = s₁.ivs := State.each_ivs _ _ _ (by rintro s x _ rfl; rfl)
  refine ⟨v', ?_, rfl, ?_, rfl⟩
  · have hpairs : State.ivs _ = s₂.ivs := State.each_ivs s₂ (s₂.ivPairs i)
      (fun s p => { s with pairs := lmod s.pairs p fun _ => PairSum.empty })
      (by rintro s x _ rfl; rfl)
    have hivs := (State.ivShow_ivs _).trans (hpairs.trans hsums)
    exact (State.iv_congr hivs i).trans ((getD_lmod s.ivs i i _ none hi).trans (if_pos rfl))
  · show target = v.target + 8 * v.len
    simp only [target, hangle, halign', hon', Bool.false_eq_true, if_false, if_true]
    rw [show len = v.len from hlen]
    rfl

/-! ### INTERVAL_BOUNDARY -/

/-- The results that waited for the next interval of a timer enter it. -/
def State.takeLater (s : State) (i : Nat) : State :=
  State.each { s with accLater := s.accLater.filter (fun e => s.accIv e.1 != i) } (s.accLater.filter (fun e => s.accIv e.1 == i))
    (fun s e => s.accumulate e.1 e.2)

theorem State.takeLater_ivs (s : State) (i : Nat) : (s.takeLater i).ivs = s.ivs :=
  State.each_ivs _ _ _ fun s _ _ hu => hu ▸ State.accumulate_ivs s _ _

theorem execIntervalBoundary_early {s : State} {t : Nat} {iv : Fin 4} {slot : Nat} (h : s.iv iv = none ∨ t < slot) :
    exec (.intervalBoundary t iv slot) s = .next (s.at t) := by
  show execIntervalBoundary t iv slot s = _
  unfold execIntervalBoundary
  dsimp only
  cases hv : (s.at t).iv iv with
  | none => rfl
  | some v => exact if_pos (.inl (h.resolve_left fun hnone => Option.some_ne_none v (hv.symm.trans hnone)))

/-- The boundary of a settled TIME interval ends it and begins the next one. -/
theorem execIntervalBoundary_time {s : State} {t : Nat} {iv : Fin 4} {slot : Nat} {v : IvState} (hv : s.iv iv = some v)
    (hcut : v.cut = none) (htime : bitOf v.cfg 30 = false) (htarget : v.target = slot) (hle : slot ≤ t)
      (hset : s.ivSettled iv slot = true) :
    exec (.intervalBoundary t iv slot) s = .next ((((s.at t).ivEnd iv slot v).ivBegin iv slot (some v) false).takeLater iv) := by
  have hbound : (s.at t).ivBoundary v slot = true := by
    unfold State.ivBoundary
    rw [hcut, htime]
    simp [htarget]
  have hjump : (s.at t).ivJumped v slot = false := by
    unfold State.ivJumped
    rw [htime]
    rfl
  show execIntervalBoundary t iv slot s = _
  unfold execIntervalBoundary
  dsimp only
  rw [show (s.at t).iv iv = some v from hv]
  dsimp only
  rw [if_neg (by rw [hbound, show (s.at t).ivSettled iv slot = true from hset]; simpa using hle), hcut]
  simp only [Option.isSome_none, Bool.false_eq_true, if_false, hjump]
  rfl

theorem TimersKept.useReg {s u : State} (h : TimersKept s u) {o : Nat} (ho : o < 0x1000) (hn : o ∉ accOffs) :
    u.useReg P.ACC o = s.useReg P.ACC o := by
  unfold State.useReg
  rw [h.lastGood, h.regs o ho hn]

/-- The timer's own setting after the interval's end. -/
theorem TimersKept.ivCfg {s u : State} (h : TimersKept s u) (iv : Fin 4) :
    u.useReg P.ACC (F.ACC_IV_CFG.at iv) = s.useReg P.ACC (F.ACC_IV_CFG.at iv) := by
  refine h.useReg ?_ ?_ <;> simp [Fld.at, accOffs, H.RAW, H.PEND, F.ACC_IV_CFG, F.ACC_STAT_SAT] <;> omega

section boundary
variable {s : State} {iv : Fin 4} {slot : Nat} {v : IvState}

theorem State.boundary_next (hs : s.Canon) (hlen4 : s.ivs.length = 4) (hen : s.enabled P.ACC = true)
    (hcfg : s.useReg P.ACC (F.ACC_IV_CFG.at iv) = v.cfg) (hon : bitOf v.cfg 31 = true) (htime : bitOf v.cfg 30 = false)
    (halign : bitOf v.cfg 29 = false) (hlen : s.ivLen iv = v.len) (hpos : v.len ≠ 0) (hcut : v.cut = none) :
    ∃ v', (((s.ivEnd iv slot v).ivBegin iv slot (some v) false).takeLater iv).iv iv = some v' ∧ v'.start = slot ∧
      v'.target = v.target + 8 * v.len ∧ v'.cut = none := by
  have hkept := (TimersKept.refl hs).ivEnd iv slot v
  rw [State.iv_congr (State.takeLater_ivs ..)]
  refine State.ivBegin_next (by rw [hkept.ivs]; omega) ?_ ?_ hon htime halign ?_ hpos hcut slot
  · unfold State.enabled
    rwa [hkept.regs H.CTL (by decide) (by decide)]
  · exact (hkept.ivCfg iv).trans hcfg
  · refine Eq.trans ?_ hlen
    unfold State.ivLen State.use64 State.use
    rw [hkept.useReg, hkept.useReg] <;> simp [Fld.at, accOffs, H.RAW, H.PEND, F.ACC_IV_LEN_LO, F.ACC_IV_LEN_HI, F.ACC_STAT_SAT] <;> omega

end boundary
end Sys2Proof.Machine
end

section
/-!
SUPPORT. Results and overload (R144, R153, R155, R159): what a result that reaches its consumers leaves of the conversions under way, and
what the overload detectors show.
-/
namespace Sys2Proof.Machine

/-! ### The conversions under way -/

theorem map_lmod {α β : Type} (g : α → β) (f : α → α) (h : ∀ x, g (f x) = g x) (l : List α) (i : Nat) : (lmod l i f).map g = l.map g := by
  induction l generalizing i with
  | nil => rfl
  | cons x r ih => cases i with
    | zero => simp [lmod, h]
    | succ i => simp [lmod, ih]

/-- The conversions under way of every converter. -/
def State.underWay (s : State) : List (List ConvJob) := s.convs.map ConvState.jobs

theorem State.jobs_of_underWay {s u : State} (h : u.underWay = s.underWay) (n : Nat) : (u.conv n).jobs = (s.conv n).jobs := by
  have hjobs (x : State) : (x.conv n).jobs = x.underWay.getD n [] := (List.getD_map _ ConvState.empty ConvState.jobs).symm
  rw [hjobs u, hjobs s, h]

theorem State.underWay_of_convs {s u : State} (h : u.convs = s.convs) : u.underWay = s.underWay := congrArg (List.map ConvState.jobs) h

theorem State.each_underWay {α : Type} {l : List α} {f : State → α → State} (h : ∀ s x, (f s x).underWay = s.underWay) (s : State) :
    (s.each l f).underWay = s.underWay := by
  induction l generalizing s with
  | nil => rfl
  | cons x r ih => exact (ih (f s x)).trans (h s x)

theorem State.modConv_underWay (s : State) (n : Nat) {f : ConvState → ConvState} (h : ∀ q, (f q).jobs = q.jobs) :
    (s.modConv n f).underWay = s.underWay := map_lmod _ _ h _ _

theorem State.windowTakes_convs (s : State) (w : Nat) (r : AdcRes) : (s.windowTakes w r).convs = s.convs := by
  unfold State.windowTakes
  extract_lets
  split <;> simp [State.setWin]

theorem State.windowsTake_underWay (s : State) (n : Nat) (r : AdcRes) : (s.windowsTake n r).underWay = s.underWay := by
  unfold State.windowsTake
  split
  · rfl
  · exact State.each_underWay (fun s w => State.underWay_of_convs (s.windowTakes_convs w r)) s

theorem State.accumulate_underWay (s : State) (c : Nat) (r : AdcRes) : (s.accumulate c r).underWay = s.underWay := by
  unfold State.accumulate
  extract_lets i inAcc s₁ s₂ s₃ h l
  have h₁ : s₁.underWay = s.underWay := by
    dsimp only [s₁]
    split <;> rfl
  have h₂ : s₂.underWay = s₁.underWay := State.modConv_underWay _ _ fun _ => rfl
  have h₃ : s₃.underWay = s₂.underWay := State.each_underWay (fun s p => by
    extract_lets a o
    split
    · split <;> rfl
    · rfl) s₂
  have h₄ : s₃.underWay = s.underWay := h₃.trans (h₂.trans h₁)
  split
  · rfl
  · split
    · rfl
    · split
      · rfl
      · split
        · exact h₄
        · split <;> exact h₄

/-- A result that reaches its consumers ends no conversion. -/
theorem State.deliver_underWay (s : State) (c : Nat) (r : AdcRes) : (s.deliver c r).underWay = s.underWay := by
  unfold State.deliver
  extract_lets s₁ s₂
  have h₁ : s₁.underWay = s.underWay := by
    dsimp only [s₁]
    split
    · exact State.modConv_underWay _ _ fun _ => rfl
    · exact State.windowsTake_underWay s c r
  have h₂ : s₂.underWay = s₁.underWay := by
    dsimp only [s₂]
    split
    · exact State.accumulate_underWay s₁ c r
    · rfl
  refine (State.each_underWay (fun s n => ?_) s₂).trans (h₂.trans h₁)
  split <;> rfl

/-! ### CONVERSION_RESULT -/

/-- The result of a conversion with its raw code (R155). -/
def ConvJob.result (j : ConvJob) (raw : BitVec 18) : AdcRes :=
  { inst := j.inst, code := (calibrated j.coef (sx 18 raw.toNat)).1, clip := (calibrated j.coef (sx 18 raw.toNat)).2,
    disturbed := j.disturbed, late := j.late, inj := j.inj }

/-- A result is dropped, held behind an uncommitted INJECT, or reaches its consumers (R152, R153, R157). -/
def State.routeResult (s : State) (n : Nat) (j : ConvJob) (raw : BitVec 18) : State :=
  if j.dead || s.quadCal (n / 4) then s
  else match j.origin with
    | some o => s.modConv n (fun q => { q with hold := some (j.result raw, o) })
    | none => s.deliver n (j.result raw)

/-- A napping converter with nothing to do soon sleeps again (R149). -/
def State.napsAgain (s : State) (n t : Nat) : State :=
  let far := match s.nextStart (s.convSet n) t with | some x => decide (t + 2 * s.wakeSlots n < x) | none => true
  let q := s.conv n
  if s.convNap n && far && q.jobs.isEmpty && !q.startWait && q.injWait.isNone then s.modConv n (fun q => { q with asleep := true }) else s

section results
variable {s : State} {t : Nat} {n : Fin 16} {raw : BitVec 18} {j : ConvJob} {rest : List ConvJob}

theorem execConversionResult_early (hjobs : (s.conv n).jobs = j :: rest) (ht : t < j.inst + convDelay) :
    exec (.conversionResult t n raw) s = .next (s.at t) := by
  show execConversionResult t n raw s = _
  unfold execConversionResult
  dsimp only
  rw [show ((s.at t).conv n).jobs = j :: rest from hjobs]
  exact if_pos ht

theorem execConversionResult_due (hjobs : (s.conv n).jobs = j :: rest) (ht : j.inst + convDelay ≤ t) :
    exec (.conversionResult t n raw) s =
      .next (((((s.at t).modConv n (fun q => { q with jobs := rest })).routeResult n j raw).napsAgain n t).adcShow) := by
  show execConversionResult t n raw s = _
  unfold execConversionResult
  dsimp only
  rw [show ((s.at t).conv n).jobs = j :: rest from hjobs]
  exact if_neg (Nat.not_lt.2 ht)

end results

theorem State.routeResult_held {s : State} {n o : Nat} {j : ConvJob} {raw : BitVec 18} (ho : j.origin = some o) (hdead : j.dead = false)
    (hcal : s.quadCal (n / 4) = false) :
    s.routeResult n j raw = s.modConv n (fun q => { q with hold := some (j.result raw, o) }) := by
  unfold State.routeResult
  rw [ho, hdead, hcal]
  rfl

theorem State.routeResult_keeps {a s : State} (h : Keeps a s) (n : Nat) (j : ConvJob) (raw : BitVec 18) :
    Keeps a (s.routeResult n j raw) := by
  unfold State.routeResult
  split
  · exact h
  · split
    · exact State.modConv_keeps h _ _
    · exact State.deliver_keeps h _ _

theorem State.napsAgain_keeps {a s : State} (h : Keeps a s) (n t : Nat) : Keeps a (s.napsAgain n t) := by
  unfold State.napsAgain
  extract_lets far q
  split
  · exact State.modConv_keeps h _ _
  · exact h

theorem State.routeResult_underWay (s : State) (n : Nat) (j : ConvJob) (raw : BitVec 18) :
    (s.routeResult n j raw).underWay = s.underWay := by
  unfold State.routeResult
  split
  · rfl
  · split
    · exact State.modConv_underWay _ _ fun _ => rfl
    · exact State.deliver_underWay ..

theorem State.napsAgain_underWay (s : State) (n t : Nat) : (s.napsAgain n t).underWay = s.underWay := by
  unfold State.napsAgain
  extract_lets far q
  split
  · exact State.modConv_underWay _ _ fun _ => rfl
  · rfl

theorem State.napsAgain_only {s : State} (hs : s.Canon) {n : Nat} (hn : n < s.convs.length) (t : Nat) :
    OnlyConv n s (s.napsAgain n t) ∧ ((s.napsAgain n t).conv n).hold = (s.conv n).hold := by
  unfold State.napsAgain
  extract_lets far q
  split
  · exact ⟨(OnlyConv.refl hs).modConv hn _, by rw [State.conv_modConv_self hn]⟩
  · exact ⟨.refl hs, rfl⟩

/-! ### Overload -/

/-- The registers the overload detectors are shown in. -/
def ovrOffs : List Nat := [F.ADC_OVR.off, H.RAW, H.PEND]

theorem State.showOverload_shows {s : State} (hs : s.Canon) : Shows (pageKeys P.ADC ovrOffs) s s.showOverload :=
  .level (.level (.put (.refl hs) _ _ _ _ (by simp [ovrOffs, Fld.at, F.ADC_OVR, F.ADC_OVR_DISTURBED])) _ _ _ (by simp [ovrOffs])
    (by simp [ovrOffs])) _ _ _ (by simp [ovrOffs]) (by simp [ovrOffs])

/-- What is shown of the spans leaves the detectors. -/
theorem State.showOverload_clipped {s : State} (hs : s.Canon) :
    s.showOverload.get P.ADC F.ADC_OVR_CLIPPED = s.get P.ADC F.ADC_OVR_CLIPPED := by
  unfold State.showOverload
  extract_lets clipped spans dist u
  have hu : u.Canon := (State.put_keeps (.refl s) ..).canon hs
  have hlevel {x : State} (hx : x.ActiveWf) (b : Nat) (v : Bool) :
    (x.level P.ADC b v).get P.ADC F.ADC_OVR_CLIPPED = x.get P.ADC F.ADC_OVR_CLIPPED :=
    State.get_congr (State.level_reg hx _ _ _ _ _ (by decide) (by decide))
  rw [hlevel ((State.level_keeps (.refl u) ..).canon hu).active, hlevel hu.active]
  exact State.get_put_apart hs.active _ _ (by decide) (by decide) (by decide)

/-- The detector of a converter as it shows. -/
def State.putClipped (s : State) (n : Nat) (b : Bool) : State :=
  s.put P.ADC F.ADC_OVR_CLIPPED (putBit (s.get P.ADC F.ADC_OVR_CLIPPED) n b)

theorem State.putClipped_shows {s : State} (hs : s.Canon) (n : Nat) (b : Bool) : Shows (pageKeys P.ADC ovrOffs) s (s.putClipped n b) :=
  .put (.refl hs) _ _ _ _ (by simp [ovrOffs, Fld.at, F.ADC_OVR, F.ADC_OVR_CLIPPED])

theorem State.putClipped_clipped {s : State} (hs : s.Canon) {n : Nat} (hn : n < 16) (b : Bool) (k : Nat) :
    bitOf ((s.putClipped n b).get P.ADC F.ADC_OVR_CLIPPED) k = if k = n then b else bitOf (s.get P.ADC F.ADC_OVR_CLIPPED) k := by
  unfold State.putClipped
  rw [State.get_put hs.active _ _ _ _ (by decide) (by decide), Nat.mod_eq_of_lt, bitOf_putBit]
  exact putBit_lt _ hn (bits_lt _ _ _)

theorem execOverloadTrip_enabled {s : State} {t : Nat} {n : Fin 16} (hen : s.convEn n = true) :
    exec (.overloadTrip t n) s = .next ((s.at t).putClipped n true).showOverload := congrArg Host.Outcome.next (if_pos hen)

theorem execOverloadTrip_off {s : State} {t : Nat} {n : Fin 16} (hen : s.convEn n = false) :
    exec (.overloadTrip t n) s = .next (s.at t) :=
  congrArg Host.Outcome.next (if_neg (show ¬s.convEn n = true by rw [hen]; decide))

theorem execOverloadClear_clipped {s : State} {t : Nat} {n : Fin 16} (h : bitOf (s.get P.ADC F.ADC_OVR_CLIPPED) n = true) :
    exec (.overloadClear t n) s =
      .next (((s.at t).putClipped n false).modConv n (fun q => { q with tail := some t })).showOverload :=
        congrArg Host.Outcome.next (if_pos h)

/-! ### The end of a disturbance span -/

/-- A converter's last microsecond is over 1 µs after its detector cleared. -/
def ConvState.spanned (q : ConvState) (t : Nat) : ConvState :=
  match q.tail with
  | some x => if x + usSlots 1 ≤ t then { q with tail := none } else q
  | none => q

theorem ConvState.spanned_tail {q : ConvState} {x : Nat} (h : q.tail = some x) (t : Nat) :
    (x + usSlots 1 ≤ t → (q.spanned t).tail = none) ∧ (t < x + usSlots 1 → (q.spanned t).tail = some x) := by
  unfold ConvState.spanned
  rw [h]
  refine ⟨fun hle => ?_, fun hlt => ?_⟩
  · simp [hle]
  · simp [Nat.not_le.2 hlt, h]

theorem ConvState.spanned_spanned (q : ConvState) (t : Nat) : (q.spanned t).spanned t = q.spanned t := by
  cases hq : q.tail with
  | none => simp [ConvState.spanned, hq]
  | some x =>
    by_cases hx : x + usSlots 1 ≤ t
    · simp [ConvState.spanned, hq, hx]
    · simp [ConvState.spanned, hq, hx]

/-- The span of one converter at slot `t`. -/
def State.endSpan (s : State) (t c : Nat) : State :=
  match (s.conv c).tail with
  | some x => if x + usSlots 1 ≤ t then s.modConv c (fun q => { q with tail := none }) else s
  | none => s

theorem State.endSpan_conv {s : State} {c : Nat} (hc : c < s.convs.length) (t k : Nat) :
    (s.endSpan t c).conv k = if k = c then (s.conv c).spanned t else s.conv k := by
  unfold State.endSpan ConvState.spanned
  split
  · split
    · exact State.conv_modConv hc _ k
    · split
      · next he => rw [he]
      · rfl
  · split
    · next he => rw [he]
    · rfl

theorem State.endSpan_length (s : State) (t c : Nat) : (s.endSpan t c).convs.length = s.convs.length := by
  unfold State.endSpan
  split
  · split
    · exact length_lmod _ _ _
    · rfl
  · rfl

theorem State.endSpan_keeps {s u : State} (h : Keeps s u) (t c : Nat) : Keeps s (u.endSpan t c) := by
  unfold State.endSpan
  split
  · split
    · exact State.modConv_keeps h _ _
    · exact h
  · exact h

theorem State.endSpans_conv {s : State} {q : Nat} {l : List Nat} (hl : ∀ k ∈ l, 4 * q + k < s.convs.length) (t c : Nat) :
    (s.each l (fun s k => s.endSpan t (4 * q + k))).conv c =
      if ∃ k ∈ l, c = 4 * q + k then (s.conv c).spanned t else s.conv c := by
  induction l generalizing s with
  | nil => simp [State.each]
  | cons k r ih =>
    have hk := State.endSpan_conv (hl k (by simp)) t c
    have hrest := ih (s := s.endSpan t (4 * q + k)) fun j hj => by
      rw [State.endSpan_length]
      exact hl j (List.mem_cons_of_mem _ hj)
    refine hrest.trans ?_
    rw [hk]
    by_cases hc : c = 4 * q + k
    · subst hc
      simp [ConvState.spanned_spanned]
    · simp [hc]

theorem execDisturbSpanEnd_eq (s : State) (t : Nat) (q : Fin 4) : exec (.disturbSpanEnd t q) s =
    .next ((s.at t).each (List.range 4) (fun s k => s.endSpan t (4 * q + k))).showOverload := rfl

/-- What the end of a span leaves of the converters: those of the quad have their span's end looked at, the others are as before. -/
theorem State.quadSpans_conv {s : State} (hs : s.Canon) (hlen : s.convs.length = 16) (t : Nat) (q : Fin 4) (c : Nat) :
    ((s.each (List.range 4) (fun s k => s.endSpan t (4 * q + k))).showOverload).conv c =
      if c / 4 = q.val then (s.conv c).spanned t else s.conv c := by
  have hcanon : (s.each (List.range 4) (fun s k => s.endSpan t (4 * q + k))).Canon :=
    (State.each_keeps (.refl s) fun _ h k => State.endSpan_keeps h t _).canon hs
  have hquad : (∃ k ∈ List.range 4, c = 4 * q.val + k) ↔ c / 4 = q.val := by
    constructor
    · rintro ⟨k, hk, rfl⟩
      have := List.mem_range.1 hk
      omega
    · intro h
      exact ⟨c % 4, List.mem_range.2 (by omega), by omega⟩
  rw [State.conv_congr (State.showOverload_shows hcanon).blocks.convs, State.endSpans_conv, if_congr hquad rfl rfl]
  intro k hk
  have := List.mem_range.1 hk
  omega

/-! ### The obligation -/

section results
variable {s : State} {t : Nat} {n : Fin 16} {raw : BitVec 18} {j : ConvJob} {rest : List ConvJob}

/-- The jobs of a converter after its result, and the held result of one behind an uncommitted INJECT. -/
theorem conversionResult_spec (hs : s.Canon) (hlen : s.convs.length = 16) (hjobs : (s.conv n).jobs = j :: rest)
    (ht : j.inst + convDelay ≤ t) : ∃ u, exec (.conversionResult t n raw) s = .next u ∧ (u.conv n).jobs = rest ∧
      ∀ o, j.origin = some o → j.dead = false → s.quadCal (n / 4) = false → (u.conv n).hold = some (j.result raw, o) := by
  have hn : n.val < (s.at t).convs.length := by rw [show (s.at t).convs = s.convs from rfl]; omega
  have hmod : OnlyConv n (s.at t) ((s.at t).modConv n (fun q => { q with jobs := rest })) := (OnlyConv.refl (s := s.at t) hs).modConv hn _
  have hself : ((s.at t).modConv n (fun q => { q with jobs := rest })).conv n = { s.conv n with jobs := rest } :=
    State.conv_modConv_self hn _
  refine ⟨_, execConversionResult_due hjobs ht, ?_, fun o ho hdead hcal => ?_⟩ <;>
    generalize (s.at t).modConv n (fun q => { q with jobs := rest }) = x at *
  · have hcanon : ((x.routeResult n j raw).napsAgain n t).Canon :=
      (State.napsAgain_keeps (State.routeResult_keeps (.refl x) n j raw) n t).canon hmod.canon
    rw [State.conv_congr (State.adcShow_shows hcanon).blocks.convs,
      State.jobs_of_underWay ((State.napsAgain_underWay ..).trans (State.routeResult_underWay ..)), hself]
  · have hx : n.val < x.convs.length := by rw [hmod.length]; exact hn
    have hheld : OnlyConv n x (x.modConv n (fun q => { q with hold := some (j.result raw, o) })) := (OnlyConv.refl hmod.canon).modConv hx _
    have hnap := State.napsAgain_only hheld.canon (by rw [hheld.length]; exact hx) t
    rw [State.routeResult_held ho hdead ((hmod.quadCal n.isLt _).trans hcal),
      State.conv_congr (State.adcShow_shows hnap.1.canon).blocks.convs,
      hnap.2, State.conv_modConv_self hx]

end results

/-- Settles O35: the result, the detectors bit by bit, the span of one quad, and the boundary of a TIME interval. -/
theorem resultsOverloadAndIntervals : Obligations.ResultsOverloadAndIntervals := by
  intro s t n raw iv slot hs hlen hivs
  refine ⟨fun j rest hjobs => ⟨fun ht => ?_, execConversionResult_early hjobs⟩, fun hen => ?_, execOverloadTrip_off, fun hclip => ?_, ?_,
    fun v hv hcut htime htarget hle hset => ⟨fun hen hcfg hon halign hlen' hpos => ?_, fun hoff => ?_⟩, execIntervalBoundary_early⟩
  · obtain ⟨u, hu, hrest, hhold⟩ := conversionResult_spec (raw := raw) hs hlen hjobs ht
    exact ⟨u, hu, hrest, fun o ho hdead hcal => ⟨_, hhold o ho hdead hcal, rfl, rfl, rfl, rfl⟩⟩
  · have hput := State.putClipped_shows (s := s.at t) hs n true
    have hshow := hput.trans (State.showOverload_shows hput.canon)
    refine ⟨_, execOverloadTrip_enabled hen, fun k hk => ?_, hshow.blocks.convs, hshow.regs⟩
    rw [State.showOverload_clipped hput.canon, State.putClipped_clipped (s := s.at t) hs n.isLt,
      show (s.at t).get P.ADC F.ADC_OVR_CLIPPED = s.get P.ADC F.ADC_OVR_CLIPPED from rfl]
    by_cases hkn : k = n.val <;> simp [hkn]
  · have hput := State.putClipped_shows (s := s.at t) hs n false
    have hn' : n.val < ((s.at t).putClipped n false).convs.length := by
      rw [hput.blocks.convs, show (s.at t).convs = s.convs from rfl]
      omega
    have hmod : OnlyConv n _ (((s.at t).putClipped n false).modConv n (fun q => { q with tail := some t })) :=
      (OnlyConv.refl hput.canon).modConv hn' _
    have hconvs := (State.showOverload_shows hmod.canon).blocks.convs
    refine ⟨_, execOverloadClear_clipped hclip, fun k hk => ?_, ?_, fun c hc => ?_⟩
    · rw [State.showOverload_clipped hmod.canon]
      refine (State.putClipped_clipped (s := s.at t) hs n.isLt false k).trans ?_
      rw [show (s.at t).get P.ADC F.ADC_OVR_CLIPPED = s.get P.ADC F.ADC_OVR_CLIPPED from rfl]
      by_cases hkn : k = n.val <;> simp [hkn]
    · rw [State.conv_congr hconvs, State.conv_modConv_self hn', State.conv_congr hput.blocks.convs]
      rfl
    · rw [State.conv_congr hconvs, hmod.others c hc, State.conv_congr hput.blocks.convs]
      rfl
  · refine ⟨_, execDisturbSpanEnd_eq s t _, fun x hx => ?_, fun c hc => ?_⟩
    · rw [State.quadSpans_conv (s := s.at t) hs hlen, if_pos rfl]
      exact ConvState.spanned_tail hx t
    · rw [State.quadSpans_conv (s := s.at t) hs hlen, if_neg hc]
      rfl
  · obtain ⟨v', hv', hstart, htarget', hcut'⟩ := State.boundary_next (s := s.at t) (slot := slot) hs hivs hen hcfg hon htime halign hlen'
      hpos hcut
    exact ⟨_, execIntervalBoundary_time hv hcut htime htarget hle hset, v', hv', hstart, by rw [htarget', htarget], hcut'⟩
  · have hkept := (TimersKept.refl (s := s.at t) hs).ivEnd iv slot v
    refine ⟨_, execIntervalBoundary_time hv hcut htime htarget hle hset, ?_⟩
    rw [State.iv_congr (State.takeLater_ivs ..)]
    exact State.ivBegin_off (by rw [hkept.ivs, show (s.at t).ivs = s.ivs from rfl]; omega) (by rw [hkept.ivCfg]; exact hoff) ..

end Sys2Proof.Machine
end

section
/-!
SUPPORT. Registers read after writes, and the blocks that what a unit shows leaves alone, in a state of any form (R36): the statement on
stitched commands (R383) does not suppose the register copies canonical.
-/
namespace Sys2Proof.Machine

/-! ### Registers -/

theorem sget_serase_ne {α : Type} {d : Nat → α} (m : List (Nat × α)) {k j : Nat} (h : j ≠ k) : sget d (serase m k) j = sget d m j := by
  induction m with
  | nil => rfl
  | cons x r ih =>
    obtain ⟨a, v⟩ := x
    by_cases hak : a = k
    · simp [serase, sget, hak, Ne.symm h]
    · by_cases hlt : k < a
      · simp [serase, hak, hlt]
      · simp [serase, sget, hak, hlt, ih]

/-- Another register reads as before. -/
theorem State.reg_setReg_ne (s : State) {p o q u : Nat} (h : rkey q u ≠ rkey p o) (v : Nat) : (s.setReg p o v).reg q u = s.reg q u := by
  unfold State.reg State.setReg
  dsimp only
  unfold sset
  split
  · rw [sget_serase_ne _ h]
  · rw [sget_sinsert, if_neg h]

/-- A register that is given another value than its reset value reads that value. -/
theorem State.reg_setReg_self (s : State) {p o v : Nat} (hv : v < 2 ^ 32) (h : v ≠ (regReset (rkey p o)).toNat) :
    (s.setReg p o v).reg p o = v := by
  have hne : BitVec.ofNat 32 v ≠ regReset (rkey p o) := fun e => h (by rw [← e, BitVec.toNat_ofNat, Nat.mod_eq_of_lt hv])
  unfold State.reg State.setReg
  dsimp only
  unfold sset
  rw [if_neg hne, sget_sinsert, if_pos rfl, BitVec.toNat_ofNat, Nat.mod_eq_of_lt hv]

/-- A field that is put reads back, and the fields beside it read as before, where some field of the new value is not the reset value's. -/
theorem State.reg_put_self (s : State) {p i v : Nat} {f : Fld} (hf : f.lo ≤ f.hi) (h32 : f.hi < 32) (hi lo : Nat)
    (h : bits (putBits (s.reg p (f.at i)) f.hi f.lo v) hi lo ≠ bits (regReset (rkey p (f.at i))).toNat hi lo) :
    (s.put p f v i).reg p (f.at i) = putBits (s.reg p (f.at i)) f.hi f.lo v :=
  State.reg_setReg_self s (putBits_lt _ _ _ _ _ hf h32 (s.reg_lt p _)) fun e => h (by rw [e])

/-! ### Registers outside a list -/

section regsBut
variable {ks : List Nat} {s u : State} (h : RegsBut ks s u)
include h

theorem RegsBut.set {p o : Nat} (hk : rkey p o ∈ ks) (v : Nat) : RegsBut ks s (u.setReg p o v) :=
  h.trans fun _ _ hq => State.reg_setReg_ne u (fun e => hq (by rw [e]; exact hk)) v

theorem RegsBut.put {p i : Nat} {f : Fld} (hk : rkey p (f.at i) ∈ ks) (v : Nat) : RegsBut ks s (u.put p f v i) := h.set hk _

theorem RegsBut.pulsed {p : Nat} (hk : rkey p H.PEND ∈ ks) (b : Nat) : RegsBut ks s (u.pulse p b) := by
  unfold State.pulse State.latch
  extract_lets pend w
  have hset : RegsBut ks s w := h.set hk _
  have hirq : RegsBut ks s (w.irqRequest p) := hset.trans (.of_active (by simp))
  (repeat' split) <;> assumption

theorem RegsBut.levelled {p : Nat} (hk : rkey p H.PEND ∈ ks) (hr : rkey p H.RAW ∈ ks) (b : Nat) (v : Bool) :
    RegsBut ks s (u.level p b v) := by
  unfold State.level
  extract_lets raw w
  have hset : RegsBut ks s w := h.set hr _
  split
  · exact hset.pulsed hk b
  · exact hset

omit h in
theorem RegsBut.get {p i : Nat} {f : Fld} (h : RegsBut ks s u) (hk : rkey p (f.at i) ∉ ks) : u.get p f i = s.get p f i :=
  State.get_congr (h _ _ hk)

end regsBut

/-! ### The blocks -/

variable (s : State)

/-- Everything but time, registers, interrupt messages held and outputs. -/
def State.blocks : State := { s with now := 0, regs := State.reset.regs, msix := State.reset.msix, out := [] }

section projections
variable {s} {u : State} (h : u.blocks = s.blocks)
include h

theorem State.host_of_blocks : u.host = s.host := congrArg (·.host) h
theorem State.mar_of_blocks : u.mar = s.mar := congrArg (·.mar) h
theorem State.store_of_blocks : u.store = s.store := congrArg (·.store) h
theorem State.memory_of_blocks : SameMemory s u := ⟨congrArg (·.scratch) h, congrArg (·.deep) h⟩

end projections

theorem SameBlocks.blocks {s u : State} (h : SameBlocks s u) : u.blocks = s.blocks := by
  rw [h]
  rfl

@[simp] theorem State.setReg_blocks (p o v) : (s.setReg p o v).blocks = s.blocks := (rfl)
@[simp] theorem State.put_blocks (p f v i) : (s.put p f v i).blocks = s.blocks := State.setReg_blocks s ..
@[simp] theorem State.putB_blocks (p f b i) : (s.putB p f b i).blocks = s.blocks := State.put_blocks s ..
@[simp] theorem State.put64_blocks (p l f v i) : (s.put64 p l f v i).blocks = s.blocks := by simp [State.put64]
@[simp] theorem State.sat_blocks (p f n i) : (s.sat p f n i).blocks = s.blocks := State.put_blocks s ..
@[simp] theorem State.wrap_blocks (p f n i) : (s.wrap p f n i).blocks = s.blocks := State.put_blocks s ..
@[simp] theorem State.wrap64_blocks (p l f n) : (s.wrap64 p l f n).blocks = s.blocks := State.put64_blocks s ..
@[simp] theorem State.setBlockState_blocks (p c) : (s.setBlockState p c).blocks = s.blocks := State.setReg_blocks s ..
@[simp] theorem State.emit_blocks (o) : (s.emit o).blocks = s.blocks := (rfl)
@[simp] theorem State.pulse_blocks (p b) : (s.pulse p b).blocks = s.blocks := (SameBlocks.pulse s p b).blocks
@[simp] theorem State.level_blocks (p b v) : (s.level p b v).blocks = s.blocks := (SameBlocks.level s p b v).blocks

@[simp] theorem State.blocks_ite (c : Prop) [Decidable c] (x y : State) :
    (if c then x else y).blocks = if c then x.blocks else y.blocks := apply_ite ..

@[simp] theorem State.each_blocks {α : Type} (l : List α) (f : State → α → State) (h : ∀ s x u, f s x = u → u.blocks = s.blocks) :
    (s.each l f).blocks = s.blocks := by
  induction l generalizing s with
  | nil => rfl
  | cons x r ih => exact (ih _).trans (h s x _ rfl)

/-! ### What the units show -/

@[simp] theorem State.adcShow_blocks : s.adcShow.blocks = s.blocks := by simp [State.adcShow]
@[simp] theorem State.marShow_blocks : s.marShow.blocks = s.blocks := by simp [State.marShow]
@[simp] theorem State.cmpShow_blocks : s.cmpShow.blocks = s.blocks := by simp [State.cmpShow]
@[simp] theorem State.showLanes_blocks (l) : (s.showLanes l).blocks = s.blocks := by simp [State.showLanes]
@[simp] theorem State.storeShow_blocks : s.storeShow.blocks = s.blocks := by simp [State.storeShow]
@[simp] theorem State.judgeStore_blocks (l) : (s.judgeStore l).blocks = s.blocks := by simp [State.judgeStore]
@[simp] theorem State.dcpShow_blocks : s.dcpShow.blocks = s.blocks := by simp [State.dcpShow]
@[simp] theorem State.cmdShow_blocks : s.cmdShow.blocks = s.blocks := by simp [State.cmdShow]
@[simp] theorem State.issueTable_blocks (slot c) : (s.issueTable slot c).blocks = s.blocks := by simp [State.issueTable]

@[simp] theorem State.startTable_blocks : s.startTable.blocks = s.blocks := by
  unfold State.startTable
  (repeat' split) <;> simp

end Sys2Proof.Machine
end

section
/-!
SUPPORT. Commands of the host: what the unit of a command that ends leaves of the pool, that it ends with its status, and what the stitch of
a named command begins with (R375, R383, R384).
-/
namespace Sys2Proof.Machine
variable (s : State)

/-! ### What leaves the pool alone -/

@[simp] theorem State.host_ite (c : Prop) [Decidable c] (x y : State) : (if c then x else y).host = if c then x.host else y.host :=
    apply_ite ..

@[simp] theorem State.foldl_host {α : Type} (l : List α) (f : State → α → State) (h : ∀ s x u, f s x = u → u.host = s.host) :
    (l.foldl f s).host = s.host := by
  induction l generalizing s with
  | nil => rfl
  | cons x r ih => exact (ih _).trans (h s x _ rfl)

@[simp] theorem State.each_host {α : Type} (l : List α) (f : State → α → State) (h : ∀ s x u, f s x = u → u.host = s.host) :
    (s.each l f).host = s.host := State.foldl_host s l f h

@[simp] theorem State.adcShow_host : s.adcShow.host = s.host := State.host_of_blocks (by simp)
@[simp] theorem State.marShow_host : s.marShow.host = s.host := State.host_of_blocks (by simp)
@[simp] theorem State.showLanes_host (l) : (s.showLanes l).host = s.host := State.host_of_blocks (by simp)
@[simp] theorem State.storeShow_host : s.storeShow.host = s.host := State.host_of_blocks (by simp)
@[simp] theorem State.judgeStore_host (l) : (s.judgeStore l).host = s.host := State.host_of_blocks (by simp)
@[simp] theorem State.dcpShow_host : s.dcpShow.host = s.host := State.host_of_blocks (by simp)
@[simp] theorem State.cmdShow_host : s.cmdShow.host = s.host := State.host_of_blocks (by simp)
@[simp] theorem State.startTable_host : s.startTable.host = s.host := State.host_of_blocks (by simp)
@[simp] theorem State.tableWrite_host (e) : (s.tableWrite e).host = s.host := by simp [State.tableWrite]
@[simp] theorem State.fillTile_host (tile fill) : (s.fillTile tile fill).host = s.host := by simp [State.fillTile]
@[simp] theorem State.modThread_host (i f) : (s.modThread i f).host = s.host := by simp [State.modThread]

/-- What is tidied in the unit of a command leaves the pool. -/
theorem State.cleanUp_host (o : HostOp) : (s.cleanUp o).host = s.host := by
  dsimp only [State.cleanUp]
  (repeat' split) <;> simp

/-! ### Ends -/

/-- There is a command of a number, and every one of that number has ended with a status. -/
def State.AllEnded (s : State) (id st : Nat) : Prop :=
  (∃ x ∈ s.host.ops, x.id = id) ∧ ∀ x ∈ s.host.ops, x.id = id → x.phase = .ended st

variable {s}

theorem State.AllEnded.endedAs {id st : Nat} (h : s.AllEnded id st) : EndedAs s id st := by
  obtain ⟨⟨x, hx, hid⟩, hall⟩ := h
  exact ⟨x, hx, hid, hall x hx hid⟩

theorem State.AllEnded.congr {u : State} {id st : Nat} (h : s.AllEnded id st) (hops : u.host.ops = s.host.ops) : u.AllEnded id st := by
  unfold State.AllEnded
  rw [hops]
  exact h

theorem State.modOp_allEnded {id : Nat} (h : ∃ x ∈ s.host.ops, x.id = id) (st : Nat) :
    (s.modOp id (fun o => { o with phase := .ended st })).AllEnded id st := by
  obtain ⟨x, hx, hid⟩ := h
  refine ⟨⟨_, List.mem_map_of_mem hx, by simp [hid]⟩, fun y hy hyid => ?_⟩
  obtain ⟨z, -, rfl⟩ := List.mem_map.1 hy
  by_cases hz : z.id = id
  · simp [hz]
  · simp [hz] at hyid

/-- A command that starts was waiting, so it is none of those that have ended. -/
theorem State.AllEnded.start {id st : Nat} (h : s.AllEnded id st) {o : HostOp} (ho : o ∈ s.host.ops) (hw : o.phase = .waiting) :
    (s.modOp o.id (fun o => { o with phase := .running })).AllEnded id st := by
  obtain ⟨⟨x, hx, hid⟩, hall⟩ := h
  have hne : id ≠ o.id := fun e => by simpa [hw] using hall o ho e.symm
  refine ⟨⟨x, List.mem_map.2 ⟨x, hx, if_neg (hid ▸ hne)⟩, hid⟩, fun y hy hyid => ?_⟩
  obtain ⟨z, hz, rfl⟩ := List.mem_map.1 hy
  by_cases hzo : z.id = o.id
  · rw [if_pos hzo] at hyid
    exact absurd (hyid.symm.trans hzo) hne
  · rw [if_neg hzo] at hyid ⊢
    exact hall z hz hyid

theorem State.waiting_of_startable {o : HostOp} (h : s.startable o = true) : o.phase = .waiting := by
  simpa using (Bool.and_eq_true_iff.1 h).1

theorem State.promote_allEnded {id st : Nat} (n : Nat) (h : s.AllEnded id st) : (State.promote n s).AllEnded id st := by
  induction n generalizing s with
  | zero => exact h
  | succ n ih =>
    unfold State.promote
    split
    · exact h
    · extract_lets can first
      have hfirst : ∀ x, first = some x → x ∈ can := fun x hx => List.mem_of_find?_eq_some hx
      clear_value first
      split
      · exact h
      · next o ho =>
        have hcan : o ∈ can := by
          split at ho
          · next x => exact Option.some.inj ho ▸ hfirst x rfl
          · exact List.mem_of_mem_head? ho
        obtain ⟨hmem, hstart⟩ := List.mem_filter.1 hcan
        exact ih (h.start hmem (State.waiting_of_startable (of_decide_eq_true hstart).2))

/-- A command of the pool that is ended has ended with the status named. -/
theorem State.endOp_allEnded {id : Nat} (h : ∃ x ∈ s.host.ops, x.id = id) (st : Nat) : (s.endOp id st).AllEnded id st := by
  unfold State.endOp
  split
  · next ho =>
    obtain ⟨x, hx, hid⟩ := h
    exact absurd hid (by simpa using List.find?_eq_none.1 ho x hx)
  · next o ho =>
    extract_lets s₁ s₂ s₃
    have h₁ : s₁.host = s.host := by
      dsimp only [s₁]
      split
      · exact State.cleanUp_host s o
      · rfl
    have h₂ : s₂.AllEnded id st := State.modOp_allEnded (by rw [h₁]; exact h) st
    have h₃ : s₃.AllEnded id st := h₂.congr (by
      dsimp only [s₃]
      split
      · split <;> rfl
      · rfl)
    exact (State.promote_allEnded 64 h₃).congr (by simp)

theorem State.endOp_ended {id : Nat} (h : ∃ x ∈ s.host.ops, x.id = id) (st : Nat) : EndedAs (s.endOp id st) id st :=
  (State.endOp_allEnded h st).endedAs

/-- Another content of the command named: it is in the pool. -/
theorem State.mem_modOp {o p : HostOp} (h : o ∈ s.host.ops) (f : HostOp → HostOp) (hf : f o = p) : p ∈ (s.modOp o.id f).host.ops :=
  List.mem_map.2 ⟨o, h, by rw [if_pos rfl, hf]⟩

/-! ### The stitch of a named command -/

/-- Starting commands changes the pool alone. -/
theorem State.promote_rest (n : Nat) (s : State) : ∃ h, State.promote n s = { s with host := h } := by
  induction n generalizing s with
  | zero => exact ⟨s.host, rfl⟩
  | succ n ih =>
    unfold State.promote
    split
    · exact ⟨s.host, rfl⟩
    · extract_lets can first
      split
      · exact ⟨s.host, rfl⟩
      · next o ho =>
        obtain ⟨h, hh⟩ := ih (s.modOp o.id (fun o => { o with phase := .running }))
        exact ⟨h, hh⟩

/-- What the stitch of command `o` finds: the command runs, and beside the pool only the count of stitches differs. -/
structure Claimed (s v : State) (o : HostOp) : Prop where
  mem : o ∈ v.host.ops
  memory : SameMemory s v
  streams : v.streams = s.streams
  armed : v.isArmed = s.isArmed

theorem State.claim_claimed {s v : State} {t opcode : Nat} {r : OpRef} {o : HostOp} (h : s.claim t opcode r = some (v, o)) :
    Claimed s v o := by
  unfold State.claim at h
  obtain ⟨host, hhost⟩ := State.promote_rest 64 s
  rw [hhost] at h
  generalize hu : ({ s with host := host } : State) = u at h
  have hrest : u.scratch = s.scratch ∧ u.deep = s.deep ∧ u.streams = s.streams ∧ u.regs = s.regs := hu ▸ ⟨rfl, rfl, rfl, rfl⟩
  obtain ⟨hscratch, hdeep, hstreams, hregs⟩ := hrest
  have harmed : u.isArmed = s.isArmed := by
    unfold State.isArmed State.getB State.get State.reg
    rw [hregs]
  dsimp only at h
  split at h
  · exact nomatch h
  · next p hp =>
    have hmem : p ∈ u.host.ops := List.mem_of_find?_eq_some hp
    split at h
    · exact nomatch h
    · split at h
      · split at h
        · obtain ⟨rfl, rfl⟩ := Prod.mk.inj (Option.some.inj h)
          exact ⟨hmem, ⟨hscratch, hdeep⟩, hstreams, harmed⟩
        · exact nomatch h
      · split at h
        · exact nomatch h
        · obtain ⟨rfl, rfl⟩ := Prod.mk.inj (Option.some.inj h)
          refine ⟨hmem, ⟨hscratch, hdeep⟩, hstreams, Eq.trans ?_ harmed⟩
          unfold State.isArmed State.getB
          exact congrArg (· == 1) (State.get_congr (State.reg_setReg_ne (u.modHost _) (by decide) _))

theorem Claimed.exists {s v : State} {o : HostOp} (h : Claimed s v o) : ∃ x ∈ v.host.ops, x.id = o.id := ⟨o, h.mem, rfl⟩

theorem Claimed.ended {s v : State} {o : HostOp} (h : Claimed s v o) (st : Nat) : EndedAs (v.endOp o.id st) o.id st :=
  State.endOp_ended h.exists st

end Sys2Proof.Machine
end

section
/-!
SUPPORT. The next part of MARCH, CALIBRATE, COMPRESS_BUF and DECOMPRESS_BUF (R156, R314, R315, R333).
-/
namespace Sys2Proof.Machine

/-! ### MARCH -/

section march
variable {s v : State} {t : Nat} {r : OpRef} {o : HostOp}

/-- The tile MARCH borrows next. -/
def HostOp.marchTile (o : HostOp) : Borrow :=
  { tile := o.par 0 2 % 2 ^ 11 + o.pos, destructive := o.par 3 1 == 0, alg := o.par 2 1, fill := o.par 8 8, op := some o.id,
    release := false, failed := false }

variable (hclaim : (s.at t).claim t OP.MARCH r = some (v, o)) (hstop : o.stop = none) (hen : v.enabled P.MAR = true)
  (hheld : v.mar.held = none) (hothers : v.runningOps.any (fun p => p.opcode == OP.MARCH && decide (p.id < o.id)) = false)
include hclaim hstop hen hheld hothers

/-- A command of MARCH that nothing stops or holds up ends after its last tile, ends where the tile's flag does not permit the test, and
borrows the tile otherwise. -/
theorem execMarch_next (hretry : v.mar.retry = none) : exec (.march t r) s =
    if o.length ≤ o.pos then .next ((v.endOp o.id (if o.lost then ST.CHECK_FAIL else ST.OK)).marShow)
    else if !permits (v.lendFlag o.marchTile.tile) (o.par 3 1 == 0) then .next (v.endOp o.id ST.ABORTED)
    else .next (v.borrow o.marchTile) := by
  show execMarch t r s = _
  unfold execMarch
  dsimp only
  rw [hclaim]
  dsimp only
  rw [hstop, hheld, hothers, hen, hretry]
  exact if_neg (by decide)

end march

theorem State.borrow_mar (s : State) (b : Borrow) : (s.borrow b).mar.held = some b := by
  unfold State.borrow
  rw [State.mar_of_blocks (State.marShow_blocks _)]
  rfl

theorem State.borrow_memory (s : State) (b : Borrow) : SameMemory s (s.borrow b) :=
  State.memory_of_blocks (s := s.modMar _) (State.marShow_blocks _)

theorem EndedAs.congr {s u : State} {id st : Nat} (h : EndedAs s id st) (hhost : u.host = s.host) : EndedAs u id st := by
  unfold EndedAs
  rw [hhost]
  exact h

theorem SameMemory.trans {s u w : State} (h : SameMemory s u) (h' : SameMemory u w) : SameMemory s w :=
  ⟨h'.1.trans h.1, h'.2.trans h.2⟩

/-! ### CALIBRATE -/

/-- The registers of ADC that the page's state is shown in, whatever form the registers have. -/
theorem State.adcShow_regs (s : State) : RegsBut (pageKeys P.ADC adcOffs) s s.adcShow := by
  unfold State.adcShow
  extract_lets f s₁ s₂ any cal
  have h₁ : RegsBut (pageKeys P.ADC adcOffs) s s₁ := (RegsBut.refl _ _).put (by simp [adcOffs, Fld.at, F.ADC_STAT, F.ADC_STAT_AWAKE]) _
  have h₂ : RegsBut (pageKeys P.ADC adcOffs) s s₂ := h₁.put (by simp [adcOffs, Fld.at, F.ADC_STAT, F.ADC_STAT_BUSY]) _
  exact (h₂.set (by simp [adcOffs]) _).levelled (by simp [adcOffs]) (by simp [adcOffs]) _ _

/-- ADC_CAL_STAT of a state. -/
def State.calStat (s : State) : Nat := s.reg P.ADC F.ADC_CAL_STAT.off

theorem State.each_regs {α : Type} {l : List α} {f : State → α → State} (h : ∀ s x, (f s x).regs = s.regs) (s : State) :
    (s.each l f).regs = s.regs := by
  induction l generalizing s with
  | nil => rfl
  | cons x r ih => exact (ih (f s x)).trans (h s x)

/-- With no injected request pending in a quad its calibration begins: the page shows it. -/
theorem State.calBegin_calStat {s : State} {q : Nat} (hinj : ∀ k < 4, (s.conv (4 * q + k)).injWait = none) :
    (s.calBegin q).calStat =
      putBits (putBits s.calStat 31 31 1) 27 24 (putBit (s.get P.ADC F.ADC_CAL_STAT_QUAD) q true) := by
  have hfree : ¬((List.range 4).map (fun k => 4 * q + k)).any (fun c => (s.conv c).injWait.isSome) = true := by
    simp only [List.any_map, List.any_eq_true, List.mem_range, Function.comp_apply, not_exists, not_and]
    intro k hk
    rw [hinj k hk]
    decide
  have hbusy : (s.putB P.ADC F.ADC_CAL_STAT_BUSY true).calStat = putBits s.calStat 31 31 1 :=
    State.reg_put_self s (f := F.ADC_CAL_STAT_BUSY) (i := 0) (by decide) (by decide) 31 31 (by
      rw [show F.ADC_CAL_STAT_BUSY.hi = 31 from rfl, show F.ADC_CAL_STAT_BUSY.lo = 31 from rfl, bits_putBits_same _ _ _ _ (by omega)]
      decide)
  unfold State.calBegin
  extract_lets cs u
  rw [if_neg hfree]
  have hquad : u.calStat = putBits (putBits s.calStat 31 31 1) 27 24 (putBit (s.get P.ADC F.ADC_CAL_STAT_QUAD) q true) := by
    rw [← hbusy]
    refine State.reg_put_self _ (f := F.ADC_CAL_STAT_QUAD) (i := 0) (by decide) (by decide) 31 31 ?_
    rw [show F.ADC_CAL_STAT_QUAD.hi = 27 from rfl, show F.ADC_CAL_STAT_QUAD.lo = 24 from rfl,
      bits_putBits_above _ _ _ _ _ _ (by omega) (by omega)]
    show bits (State.calStat _) 31 31 ≠ _
    rw [hbusy, bits_putBits_same _ _ _ _ (by omega)]
    decide
  rw [← hquad]
  have hflags : (u.each cs (fun s c => s.convFlag c IF.CAL)).regs = u.regs :=
    State.each_regs (f := fun s c => s.convFlag c IF.CAL) (fun _ _ => rfl) u
  exact (State.adcShow_regs _ _ _ (by decide)).trans (State.reg_congr (congrArg (·.active) hflags) _ _)

theorem State.calBegin_shows {s : State} {q : Nat} (hq : q < 4) (hinj : ∀ k < 4, (s.conv (4 * q + k)).injWait = none) :
    bitOf ((s.calBegin q).get P.ADC F.ADC_CAL_STAT_QUAD) q = true ∧ (s.calBegin q).getB P.ADC F.ADC_CAL_STAT_BUSY = true := by
  have hstat := State.calBegin_calStat hinj
  constructor
  · show bitOf (bits (s.calBegin q).calStat 27 24) q = true
    rw [hstat, bits_putBits_same _ _ _ _ (by omega), Nat.mod_eq_of_lt (putBit_lt _ hq (bits_lt _ _ _)), bitOf_putBit, if_pos rfl]
  · show (bits (s.calBegin q).calStat 31 31 == 1) = true
    rw [hstat, bits_putBits_above _ _ _ _ _ _ (by omega) (by omega), bits_putBits_same _ _ _ _ (by omega)]
    rfl

section calibrate
variable {s v : State} {t : Nat} {r : OpRef} {o : HostOp} (hclaim : (s.at t).claim t OP.CALIBRATE r = some (v, o)) (hstop : o.stop = none)

/-- FAIL reads 0 from the first quad on. -/
def State.calClean (s : State) (o : HostOp) : State := if o.pos = 0 then s.put P.ADC F.ADC_CAL_STAT_FAIL 0 else s

/-- The failures of a command's converters. -/
def State.calFails (s : State) (o : HostOp) : Bool :=
  ((List.range 4).filter (bitOf (o.par 0 1))).any (fun q => (List.range 4).any (fun k =>
    bitOf (o.par 2 2) (4 * q + k) && bitOf (s.get P.ADC F.ADC_CAL_STAT_FAIL) (4 * q + k)))

theorem State.calFails_none {s : State} (h : s.get P.ADC F.ADC_CAL_STAT_FAIL = 0) (o : HostOp) : s.calFails o = false := by
  unfold State.calFails
  rw [h]
  simp [bitOf]

include hclaim hstop

theorem execCalibrate_begins {q : Nat} {means : List (Int × Int)} (hq : ((List.range 4).filter (bitOf (o.par 0 1)))[o.pos]? = some q)
    (hlost : o.lost = false) (hidle : bitOf (v.get P.ADC F.ADC_CAL_STAT_QUAD) q = false)
    (hbegun : bitOf (((v.calClean o).calBegin q).get P.ADC F.ADC_CAL_STAT_QUAD) q = true) :
    exec (.calibrate t r means) s = .next (((v.calClean o).calBegin q).modOp o.id (fun o => { o with lost := true })) := by
  show execCalibrate t r means s = _
  unfold execCalibrate
  dsimp only
  rw [hclaim]
  dsimp only
  rw [hstop, hq]
  dsimp only
  rw [hlost, hidle]
  exact congrArg Host.Outcome.next (if_pos hbegun)

theorem execCalibrate_done {means : List (Int × Int)} (hq : ((List.range 4).filter (bitOf (o.par 0 1)))[o.pos]? = none) :
    exec (.calibrate t r means) s = .next (State.endOp
      ((v.modOp o.id (fun o => { o with result := v.get P.ADC F.ADC_CAL_STAT_FAIL })).pulse P.ADC (if v.calFails o then 7 else 6)) o.id
      (if v.calFails o then ST.CHECK_FAIL else ST.OK)) := by
  show execCalibrate t r means s = _
  unfold execCalibrate
  dsimp only
  rw [hclaim]
  dsimp only
  rw [hstop, hq]
  rfl

end calibrate

/-! ### A free lane -/

theorem RegsBut.each {α : Type} {ks : List Nat} {s u : State} {l : List α} {f : State → α → State} (h : RegsBut ks s u)
    (hf : ∀ u, RegsBut ks s u → ∀ x ∈ l, RegsBut ks s (f u x)) : RegsBut ks s (u.each l f) := by
  induction l generalizing u with
  | nil => exact h
  | cons x r ih => exact ih (hf u h x (by simp)) fun u hu y hy => hf u hu y (List.mem_cons_of_mem _ hy)

/-- The registers of CMP in which the lanes are shown. -/
def laneOffs : List Nat := [H.STAT, H.RAW, H.PEND, F.CMP_STAT_STALL.off, F.CMP_NOLANE.off] ++ (List.range 4).map F.CMP_LANE_MAP.at

theorem State.cmpShow_regs (s : State) : RegsBut (pageKeys P.CMP laneOffs) s s.cmpShow := by
  unfold State.cmpShow
  extract_lets stall busy u
  have h : RegsBut (pageKeys P.CMP laneOffs) s u := ((RegsBut.refl _ s).put (by simp [laneOffs, Fld.at, F.CMP_STAT_STALL]) _).put
    (by simp [laneOffs, Fld.at, F.CMP_STAT_STALL, F.CMP_STAT_BUSY]) _
  exact (h.set (by simp [laneOffs]) _).levelled (by simp [laneOffs]) (by simp [laneOffs]) _ _

theorem State.showLanes_regs (s : State) (l : List Nat) : RegsBut (pageKeys P.CMP laneOffs) s (s.showLanes l) := by
  unfold State.showLanes
  extract_lets s₁ none_
  have h₁ : RegsBut (pageKeys P.CMP laneOffs) s s₁ := (RegsBut.refl _ s).each fun u hu j hj => hu.set (by
    rw [rkey_mem_pageKeys, laneOffs, List.mem_append]
    exact .inr (List.mem_map_of_mem hj)) _
  have h₂ : RegsBut (pageKeys P.CMP laneOffs) s (s₁.put P.CMP F.CMP_NOLANE none_) := h₁.put (by simp [laneOffs, Fld.at]) _
  exact (h₂.levelled (by simp [laneOffs]) (by simp [laneOffs]) _ _).trans (State.cmpShow_regs _)

/-- A lane taken for a command leaves the pool, both memories and whether the page runs. -/
theorem State.takeLane_rest {s u : State} {id : Nat} (h : s.takeLane id = some u) :
    u.host = s.host ∧ SameMemory s u ∧ u.enabled P.CMP = s.enabled P.CMP := by
  unfold State.takeLane at h
  split at h
  · obtain rfl := Option.some.inj h
    exact ⟨rfl, ⟨rfl, rfl⟩, rfl⟩
  · split at h
    · exact nomatch h
    · next i _ =>
      obtain rfl := Option.some.inj h
      have hmem : SameMemory s (s.modThread i (fun _ => { Lane.empty with host := some id })) := by
        unfold State.modThread
        split <;> exact ⟨rfl, rfl⟩
      refine ⟨by simp, hmem.trans (State.memory_of_blocks (by simp)), ?_⟩
      unfold State.enabled
      rw [State.showLanes_regs _ _ _ _ (by decide), State.reg_congr]
      unfold State.modThread
      split <;> rfl

/-! ### Data of a command -/

section data
variable {s : State}

@[simp] theorem State.yieldTile_host (s : State) (b : Borrow) (m : Nat) : (s.yieldTile b m).host = s.host := by simp [State.yieldTile]
@[simp] theorem State.refuseAccess_host (s : State) : s.refuseAccess.host = s.host := by simp [State.refuseAccess]

theorem State.meetTest_host (s : State) (m a : Nat) : (s.meetTest m a).1.host = s.host := by
  unfold State.meetTest
  (repeat' split) <;> simp

theorem State.opWrite_host (s : State) (space a : Nat) (bs : List Byte) : (s.opWrite space a bs).1.host = s.host := by
  have h := State.meetTest_host s 11 a
  unfold State.opWrite
  split
  · dsimp only
    split
    · exact h
    · exact h
  · rfl
  · rfl

theorem State.freeRange_host (s : State) (space a n : Nat) : (State.freeRange s space a n).host = s.host := by
  induction n with
  | zero => rfl
  | succ n ih => exact (State.opWrite_host ..).trans ih

/-- The host hands the bytes of a source in its memory. -/
theorem State.opRead_host {space a n : Nat} {bs : List Byte} (hspace : space = 0) (hn : bs.length ≤ n) :
    s.opRead space a n bs = (s, some bs) := by
  subst hspace
  exact congrArg (fun l => (s, some l)) (List.take_of_length_le hn)

theorem State.opWrite_host_memory {space : Nat} (hspace : space = 0) (a : Nat) (bs : List Byte) :
    s.opWrite space a bs = (s.emit (.hostWrite a bs), true) := by
  subst hspace
  rfl

end data

/-! ### COMPRESS_BUF -/

section compress
variable {s v x : State} {t : Nat} {r : OpRef} {o : HostOp} (hclaim : (s.at t).claim t OP.COMPRESS r = some (v, o)) (hstop : o.stop = none)
  (hlane : v.takeLane o.id = some x) (hen : x.enabled P.CMP = true)
include hclaim hstop hlane hen

theorem execCompressBuf_done (hpos : o.length ≤ o.pos) : exec (.compressBuf t r none) s =
    if o.length ≤ o.done_ then .next ((State.freeRange x o.dstSpace o.dst (o.par 4 4 / 8)).endOp o.id ST.NO_GAIN)
    else .next ((x.modOp o.id (fun o => { o with result := o.done_ })).endOp o.id ST.OK) := by
  show execCompressBuf t r none s = _
  unfold execCompressBuf
  dsimp only
  rw [hclaim]
  dsimp only
  rw [hstop, hlane]
  dsimp only
  rw [hen, if_neg (by decide), if_pos hpos]

theorem execCompressBuf_copies {bs : List Byte} {k : ReadChunk} (hpos : o.pos < o.length) (hsrc : o.srcSpace = 0) (hdst : o.dstSpace = 0)
    (hbs : bs.length ≤ o.length - o.pos) (hk : readChunk bs = some k) (hcomp : k.chunk.compressed = true)
    (hroom : o.done_ + k.raw.length ≤ o.par 4 4) : exec (.compressBuf t r (some bs)) s =
      .next ((x.emit (.hostWrite (o.dst + o.done_) k.raw)).modOp o.id (fun _ => { o with
        pos := o.pos + k.raw.length, done_ := o.done_ + k.raw.length, result := o.done_ + k.raw.length })) := by
  show execCompressBuf t r (some bs) s = _
  unfold execCompressBuf
  dsimp only
  rw [hclaim]
  dsimp only
  rw [hstop, hlane]
  dsimp only
  rw [hen, if_neg (by decide), if_neg (Nat.not_le.2 hpos), if_neg (by simp), Option.getD_some, State.opRead_host hsrc hbs]
  dsimp only
  rw [hk]
  dsimp only
  rw [hcomp]
  rw [if_pos rfl]
  dsimp only
  rw [if_neg (Nat.not_lt.2 hroom)]
  simp [State.opWrite_host_memory hdst]

end compress

end Sys2Proof.Machine
end

section
/-!
SUPPORT. The next part of DECOMPRESS_BUF, OFFLOAD, READ_RECORD, STORE_FORMAT and STORE_SCRUB (R315, R365, R366, R381).
-/
namespace Sys2Proof.Machine

/-! ### DECOMPRESS_BUF -/

/-- An uncompressed chunk whose data is good is delivered as it is. -/
theorem State.deliverTo_plain {s : State} {o : HostOp} {bs : List Byte} {k : ReadChunk} (hk : readChunk bs = some k)
    (hgood : k.dataGood = true) (hplain : k.chunk.compressed = false) : s.deliverTo o bs =
      ((s.wrap64 P.DCP F.DCP_IN_BYTES_LO F.DCP_IN_BYTES_HI bs.length).wrap64 P.DCP F.DCP_OUT_BYTES_LO F.DCP_OUT_BYTES_HI k.raw.length,
        k.raw, o) := by
  have hdecode : s.decodeChunk o.threads bs = (s, some k.raw, o.threads) := by
    unfold State.decodeChunk
    rw [hk]
    dsimp only
    rw [hgood, hplain]
    rfl
  unfold State.deliverTo
  rw [hdecode]
  simp

section decompress
variable {s v : State} {t : Nat} {r : OpRef} {o : HostOp} (hclaim : (s.at t).claim t OP.DECOMPRESS r = some (v, o)) (hstop : o.stop = none)
  (hdcp : v.hasDcp o = true)
include hclaim hstop hdcp

theorem execDecompressBuf_done (hpos : o.length ≤ o.pos) :
    exec (.decompressBuf t r none) s = .next (v.endOp o.id (if o.lost then ST.CHECK_FAIL else ST.OK)) := by
  show execDecompressBuf t r none s = _
  unfold execDecompressBuf
  dsimp only
  rw [hclaim]
  dsimp only
  rw [hstop]
  dsimp only
  rw [hdcp, if_neg (by decide), if_pos hpos]

/-- The state after a chunk of `raw` bytes has been decoded from `n` bytes and written to the host. -/
def State.chunkCopied (v : State) (o : HostOp) (n : Nat) (raw : List Byte) : State :=
  ((((v.wrap64 P.DCP F.DCP_IN_BYTES_LO F.DCP_IN_BYTES_HI n).wrap64 P.DCP F.DCP_OUT_BYTES_LO F.DCP_OUT_BYTES_HI raw.length).emit
    (.hostWrite (o.dst + o.done_) raw)).modOp o.id (fun _ => { o with
      pos := o.pos + n, done_ := o.done_ + raw.length, result := o.done_ + raw.length })).dcpShow

theorem execDecompressBuf_copies {bs : List Byte} {k : ReadChunk} (hpos : o.pos < o.length) (hsrc : o.srcSpace = 0) (hdst : o.dstSpace = 0)
    (hbs : bs.length ≤ o.length - o.pos) (hpocket : pocketGood (bs.take 8) = true) (hmin : 64 ≤ pocketLength bs)
    (hlen : pocketLength bs = bs.length) (hk : readChunk bs = some k) (hgood : k.dataGood = true) (hplain : k.chunk.compressed = false)
    (hraw : k.raw ≠ []) (hroom : o.done_ + k.raw.length ≤ o.par 4 4) :
    exec (.decompressBuf t r (some bs)) s = .next (v.chunkCopied o bs.length k.raw) := by
  have hn : (if pocketGood (bs.take 8) ∧ 64 ≤ pocketLength bs then Nat.min (pocketLength bs) bs.length else bs.length) = bs.length := by
    rw [if_pos ⟨hpocket, hmin⟩, hlen]
    exact Nat.min_self _
  have hnonempty : k.raw.isEmpty = false := by simpa using hraw
  show execDecompressBuf t r (some bs) s = _
  unfold execDecompressBuf
  dsimp only
  rw [hclaim]
  dsimp only
  rw [hstop]
  dsimp only
  rw [hdcp, if_neg (by decide), if_neg (Nat.not_le.2 hpos), if_neg (by simp), Option.getD_some, State.opRead_host hsrc hbs]
  dsimp only
  rw [hn, List.take_length, State.deliverTo_plain hk hgood hplain]
  dsimp only
  rw [if_neg (Nat.not_lt.2 hroom), hnonempty]
  simp [State.opWrite_host_memory hdst, State.chunkCopied]

end decompress

/-! ### OFFLOAD -/

section offload
variable {s v : State} {t : Nat} {r : OpRef} {o : HostOp} (hclaim : (s.at t).claim t OP.OFFLOAD r = some (v, o)) (hstop : o.stop = none)
  (hpos : o.pos = 0)

/-- The header of the record a command names. -/
def State.opHeader (v : State) (o : HostOp) : List Byte := v.dmRead (v.headerAt o.src) 256

/-- The streams OFFLOAD takes. -/
def State.offloadSids (v : State) (o : HostOp) : List Nat :=
  (List.range 22).filter (bitOf (if o.par 0 4 % 2 ^ 22 = 0 then headField (v.opHeader o) 0x64 4
    else o.par 0 4 % 2 ^ 22 &&& headField (v.opHeader o) 0x64 4))

/-- The job OFFLOAD gives STO. -/
def State.offloadJob (v : State) (o : HostOp) : StoJob :=
  { op := some o.id, record := headField (v.opHeader o) 0 4, segment := headField (v.opHeader o) 4 4, slot := v.freeSlot,
    allot := o.length * 256,
    charge := 0, finals := 0,
    streams := (v.offloadSids o).foldl (fun m sid =>
      if (v.recordChunks sid (v.opHeader o)).any (fun e => bitOf e.chunk.flags 2) then m + 2 ^ sid else m) 0,
    opened := false, closing := false, header := some (v.opHeader o), full := false, bytes := 0, broken := false, last := [] }

/-- The lanes and paths of the streams OFFLOAD takes. -/
def State.offloadPaths (s : State) (o : HostOp) (sids : List Nat) : State :=
  let s := if s.isArmed then s else s.each (List.range 16) (fun s i =>
    if ((s.thread i).stream.map (fun sid => (s.stream sid).pathOp.isNone && s.acq.readerFrom.isNone)).getD false
    then s.modThread i (fun _ => Lane.empty) else s)
  (s.dealLanes sids).each sids (fun s sid => s.modStream sid (fun q => { q with pathOp := some o.id }))

include hclaim hstop hpos

theorem execOffload_absent (hvalid : headerValid (v.opHeader o) = false) :
    exec (.offload t r) s = .next (v.endOp o.id ST.NOT_FOUND) := by
  show execOffload t r s = _
  unfold execOffload
  dsimp only
  rw [hclaim]
  dsimp only
  rw [hstop]
  dsimp only
  rw [if_pos hpos]
  have hinvalid : (!headerValid (v.opHeader o)) = true := by rw [hvalid]; rfl
  exact if_pos hinvalid

theorem execOffload_begins (hvalid : headerValid (v.opHeader o) = true) (harmed : v.isArmed = false)
    (hpath : ∀ sid < 22, (v.stream sid).pathOp = none) : exec (.offload t r) s =
      .next (((((v.modStore (fun q => { q with jobs := q.jobs ++ [v.offloadJob o] })).offloadPaths o (v.offloadSids o)).modOp o.id
        (fun p => { p with pos := 1, result := (v.offloadJob o).slot })).storeShow)) := by
  have hfree : ((v.offloadSids o).any (fun sid => (v.stream sid).pathOp.isSome ||
      (v.isArmed && bitOf (v.useReg P.ACQ F.ACQ_STREAM_EN.off) sid &&
        ((decide (8 ≤ sid) && !v.splitBanks sid) || v.acq.readerFrom.isSome)))) = false := by
    rw [List.any_eq_false]
    intro sid hsid
    rw [hpath sid (List.mem_range.1 (List.mem_filter.1 hsid).1), harmed]
    simp
  have hpresent : ¬(!headerValid (v.opHeader o)) = true := by rw [hvalid]; decide
  show execOffload t r s = _
  unfold execOffload State.offloadPaths State.offloadJob
  unfold State.offloadSids State.opHeader at *
  dsimp only
  rw [hclaim]
  dsimp only
  rw [hstop]
  dsimp only
  rw [if_pos hpos, if_neg hpresent, if_neg (Bool.eq_false_iff.1 hfree)]

end offload

/-! ### The jobs of STO -/

section jobs
variable (s : State)

@[simp] theorem State.store_ite (c : Prop) [Decidable c] (x y : State) : (if c then x else y).store = if c then x.store else y.store :=
    apply_ite ..

@[simp] theorem State.each_store {α : Type} (l : List α) (f : State → α → State) (h : ∀ s x u, f s x = u → u.store = s.store) :
    (s.each l f).store = s.store := by
  induction l generalizing s with
  | nil => rfl
  | cons x r ih => exact (ih _).trans (h s x _ rfl)

@[simp] theorem State.modThread_store (i f) : (s.modThread i f).store = s.store := by simp [State.modThread]
@[simp] theorem State.showLanes_store (l) : (s.showLanes l).store = s.store := State.store_of_blocks (by simp)
@[simp] theorem State.storeShow_store : s.storeShow.store = s.store := State.store_of_blocks (by simp)
@[simp] theorem State.dealLanes_store (l) : (s.dealLanes l).store = s.store := by simp [State.dealLanes, State.giveLanes]
@[simp] theorem State.offloadPaths_store (o sids) : (s.offloadPaths o sids).store = s.store := by simp [State.offloadPaths]

end jobs

/-! ### READ_RECORD -/

section readRecord
variable {s v : State} {t : Nat} {r : OpRef} {o : HostOp} (hclaim : (s.at t).claim t OP.READ_RECORD r = some (v, o)) (hstop : o.stop = none)
  (hplain : bitOf (o.par 1 1) 0 = false) (hsrc : o.srcSpace = 2) (hseq : o.blockSeq ≠ 0)
include hclaim hstop hplain hsrc hseq

omit hplain in
theorem execReadRecord_absent (hvalid : headerValid (v.opHeader o) = false) :
    exec (.readRecord t r none) s = .next (v.endOp o.id ST.NOT_FOUND) := by
  have hinvalid : (!headerValid (v.opHeader o)) = true := by rw [hvalid]; rfl
  show execReadRecord t r none s = _
  unfold execReadRecord
  unfold State.opHeader at hinvalid
  dsimp only
  rw [hclaim]
  dsimp only
  rw [hstop]
  dsimp only
  rw [if_neg hseq, hsrc, if_pos rfl, if_pos hinvalid]

/-- The bytes of a chunk of a record in deep memory. -/
def State.chunkBytes (v : State) (o : HostOp) (e : RingChunk) : List Byte :=
    v.dmRead (v.ringBase (o.par 0 1) e.chunk.segment + e.pos) e.chunk.length

theorem execReadRecord_copies {e : RingChunk} (hvalid : headerValid (v.opHeader o) = true)
    (hchunk : (v.recordChunks (o.par 0 1) (v.opHeader o)).find? (fun e => decide (o.pos ≤ e.chunk.seq)) = some e)
      (hlen : 0 < e.chunk.length)
    (hroom : o.done_ + e.chunk.length ≤ o.length) : exec (.readRecord t r none) s =
      .next (((v.emit (.hostWrite (o.dst + o.done_) (v.chunkBytes o e))).modOp o.id (fun _ => { o with
        pos := e.chunk.seq + 1, done_ := o.done_ + e.chunk.length,
        result := o.done_ + e.chunk.length + (e.chunk.seq + 1) * 2 ^ 32 })).dcpShow) := by
  have hpresent : ¬(!headerValid (v.opHeader o)) = true := by rw [hvalid]; decide
  have hbytes : (v.chunkBytes o e).length = e.chunk.length := by simp [State.chunkBytes, State.dmRead, Memory.readN]
  have hnonempty : (v.chunkBytes o e).isEmpty = false := by
    rw [List.isEmpty_eq_false_iff, ← List.length_pos_iff, hbytes]
    exact hlen
  show execReadRecord t r none s = _
  unfold execReadRecord
  unfold State.opHeader at hpresent hchunk
  dsimp only
  rw [hclaim]
  dsimp only
  rw [hstop]
  dsimp only
  rw [if_neg hseq, hsrc, if_pos rfl, if_neg hpresent, hplain, hchunk]
  rw [if_neg fun h => Bool.false_ne_true h.1, Option.map_some, if_pos rfl]
  unfold State.chunkBytes at *
  simp only [Bool.false_eq_true, if_false, hbytes, hnonempty, hstop, hsrc]
  exact if_neg (Nat.not_lt.2 hroom)

end readRecord

/-! ### STORE_FORMAT -/

/-- STO_STAT shows that a format runs and that the store is not ready. -/
def State.Formatting (s : State) : Prop := bits (s.reg P.STO F.STO_STAT.off) 31 31 = 0 ∧ bits (s.reg P.STO F.STO_STAT.off) 28 28 = 1

section formatting
variable {s : State} (h : s.Formatting)
include h

theorem State.Formatting.of_reg {u : State} (hr : u.reg P.STO F.STO_STAT.off = s.reg P.STO F.STO_STAT.off) : u.Formatting := by
  unfold State.Formatting
  rw [hr]
  exact h

theorem State.Formatting.setReg {p o : Nat} (hk : rkey P.STO F.STO_STAT.off ≠ rkey p o) (v : Nat) : (s.setReg p o v).Formatting :=
  h.of_reg (State.reg_setReg_ne s hk v)

theorem State.Formatting.put {p i : Nat} {f : Fld} (hk : rkey P.STO F.STO_STAT.off ≠ rkey p (f.at i)) (v : Nat) :
    (s.put p f v i).Formatting :=
  h.setReg hk _

theorem State.Formatting.writing (b : Bool) : (s.putB P.STO F.STO_STAT_WRITING b).Formatting := by
  have hfield : bits (putBits (s.reg P.STO F.STO_STAT.off) 30 30 (b2n b)) 28 28 = 1 := by
    rw [bits_putBits_below _ _ _ _ _ _ (by omega) (by omega)]
    exact h.2
  have hreg : (s.putB P.STO F.STO_STAT_WRITING b).reg P.STO F.STO_STAT.off = putBits (s.reg P.STO F.STO_STAT.off) 30 30 (b2n b) :=
    State.reg_put_self s (f := F.STO_STAT_WRITING) (i := 0) (by decide) (by decide) 28 28 (by
      refine ne_of_eq_of_ne hfield ?_
      decide)
  unfold State.Formatting
  rw [hreg]
  refine ⟨?_, hfield⟩
  rw [bits_putBits_above _ _ _ _ _ _ (by omega) (by omega)]
  exact h.1

theorem State.Formatting.each {α : Type} {l : List α} {f : State → α → State} (hf : ∀ s, s.Formatting → ∀ x, (f s x).Formatting) :
    (s.each l f).Formatting := by
  induction l generalizing s with
  | nil => exact h
  | cons x r ih => exact ih (hf s h x)

theorem State.Formatting.storeShow : s.storeShow.Formatting := by
  unfold State.storeShow
  extract_lets live s₁ s₂ s₃ s₄ s₅ s₆ job s₇ s₈ s₉ rec field s₁₀ s₁₁ s₁₂ ready
  have h₁ : s₁.Formatting := h.each fun u hu d => by
    extract_lets q u₁ u₂ u₃ n
    have hu₁ : u₁.Formatting := hu.put (by simp [rkey, Fld.at, F.STO_STAT, F.STO_DRIVE_STAT_LOST]; omega) _
    have hu₂ : u₂.Formatting := hu₁.put (by simp [rkey, Fld.at, F.STO_STAT, F.STO_DRIVE_STAT_FREE_EXT]; omega) _
    have hu₃ : u₃.Formatting := hu₂.put (by simp [rkey, Fld.at, F.STO_STAT, F.STO_DRIVE_MIB]; omega) _
    exact hu₃.put (by simp [rkey, Fld.at, P.STO, P.NVQ, F.STO_STAT, F.NVQ_INFLIGHT]; omega) _
  have h₂ : s₂.Formatting := h₁.put (by decide) _
  have h₃ : s₃.Formatting := h₂.put (by decide) _
  have h₄ : s₄.Formatting := h₃.put (by decide) _
  have h₅ : s₅.Formatting := h₄.put (by decide) _
  have h₆ : s₆.Formatting := h₅.writing _
  have h₇ : s₇.Formatting := h₆.put (by decide) _
  have h₈ : s₈.Formatting := h₇.put (by decide) _
  have h₉ : s₉.Formatting := h₈.put (by decide) _
  have h₁₀ : s₁₀.Formatting := h₉.put (by decide) _
  have h₁₁ : s₁₁.Formatting := (h₁₀.put (by decide) _).put (by decide) _
  have h₁₂ : s₁₂.Formatting := (h₁₁.put (by decide) _).put (by decide) _
  have h₁₃ : (s₁₂.setBlockState P.STO (if s₁₂.getB P.STO F.STO_STAT_FORMAT_BUSY then 2 else b2n ready)).Formatting :=
    h₁₂.setReg (by decide) _
  exact h₁₃.of_reg ((RegsBut.refl [rkey P.STO H.RAW, rkey P.STO H.PEND] _).levelled (by simp) (by simp) _ _ _ _ (by decide))

end formatting

/-- A format that begins shows it, and the store is not ready from then on. -/
theorem State.formatting_begins (s : State) : ((s.putB P.STO F.STO_STAT_FORMAT_BUSY true).putB P.STO F.STO_STAT_READY
    false).Formatting := by
  have hbusy : (s.putB P.STO F.STO_STAT_FORMAT_BUSY true).reg P.STO F.STO_STAT.off = putBits (s.reg P.STO F.STO_STAT.off) 28 28 1 :=
    State.reg_put_self s (f := F.STO_STAT_FORMAT_BUSY) (i := 0) (by decide) (by decide) 28 28 (by
      refine ne_of_eq_of_ne (bits_putBits_same _ 28 28 _ (by omega)) ?_
      decide)
  generalize s.putB P.STO F.STO_STAT_FORMAT_BUSY true = u at *
  have hfield : bits (putBits (u.reg P.STO F.STO_STAT.off) 31 31 0) 28 28 = 1 := by
    rw [bits_putBits_below _ _ _ _ _ _ (by omega) (by omega), hbusy, bits_putBits_same _ _ _ _ (by omega)]
    rfl
  have hready : (u.putB P.STO F.STO_STAT_READY false).reg P.STO F.STO_STAT.off = putBits (u.reg P.STO F.STO_STAT.off) 31 31 0 :=
    State.reg_put_self u (f := F.STO_STAT_READY) (i := 0) (by decide) (by decide) 28 28 (by
      refine ne_of_eq_of_ne hfield ?_
      decide)
  unfold State.Formatting
  rw [hready]
  exact ⟨bits_putBits_same _ _ _ _ (by omega), hfield⟩

/-- The registers, the record table and the extents are as before. -/
structure CatalogueKept (s u : State) : Prop where
  regs : u.regs = s.regs
  table : u.store.table = s.store.table
  exts : u.store.exts = s.store.exts

theorem CatalogueKept.trans {s u w : State} (h : CatalogueKept s u) (h' : CatalogueKept u w) : CatalogueKept s w :=
  ⟨h'.regs.trans h.regs, h'.table.trans h.table, h'.exts.trans h.exts⟩

theorem CatalogueKept.emit (s : State) (o : Output) : CatalogueKept s (s.emit o) := ⟨rfl, rfl, rfl⟩
theorem CatalogueKept.modOp (s : State) (id : Nat) (f : HostOp → HostOp) : CatalogueKept s (s.modOp id f) := ⟨rfl, rfl, rfl⟩
theorem CatalogueKept.modDrive (s : State) (d : Nat) (f : Drive → Drive) : CatalogueKept s (s.modDrive d f) := ⟨rfl, rfl, rfl⟩

section format
variable {s v : State} {t : Nat} {r : OpRef} {o : HostOp} {id : Word} (hclaim : (s.at t).claim t OP.FORMAT r = some (v, o))
    (hstop : o.stop = none)
include hclaim hstop

/-- The catalogue is dropped before the first drive. -/
def State.catalogueDropped (v : State) (o : HostOp) (id : Word) : State :=
  ((((v.modOp o.id (fun p => { p with
      done_ := v.store.drives.foldl (fun m d => match d.image.bind DriveImage.super with | some b => Nat.max m b.gen | none => m) 0 + 1
      blockSeq := id.toNat })).modStore (fun q => { q with table := [], exts := [], writes := [], jobs := [], tabs := [] })).putB P.STO
    F.STO_STAT_FORMAT_BUSY true).putB P.STO F.STO_STAT_READY false).storeShow

theorem execStoreFormat_begins (hpos : o.pos = 0) (harmed : v.isArmed = false)
    (hothers : v.runningOps.any (fun p => p.id != o.id && (p.opcode == OP.OFFLOAD || p.opcode == OP.READ_RECORD || p.opcode == OP.SCRUB))
      = false) :
    ∃ u, exec (.storeFormat t r id) s = .next u ∧ CatalogueKept (v.catalogueDropped o id) u := by
  show ∃ u, execStoreFormat t r id s = .next u ∧ _
  unfold execStoreFormat State.catalogueDropped
  dsimp only
  rw [hclaim]
  dsimp only
  rw [hstop, harmed, hothers, hpos]
  dsimp only
  rw [if_neg (by simp), if_neg (by simp), if_neg fun h : 0 ≠ 0 => h rfl]
  generalize State.storeShow _ = x
  split
  · exact ⟨_, rfl, .modOp ..⟩
  · exact ⟨_, rfl, ((((CatalogueKept.modOp ..).trans (.modDrive ..)).trans (.emit ..)).trans (.emit ..)).trans (.emit ..)⟩

theorem execStoreFormat_done (hpos : 4 ≤ o.pos) :
    exec (.storeFormat t r id) s = .next ((v.putB P.STO F.STO_STAT_TABLE_SINGLE false).endOp o.id ST.OK) := by
  have hne : o.pos ≠ 0 := by omega
  show execStoreFormat t r id s = _
  unfold execStoreFormat
  dsimp only
  rw [hclaim]
  dsimp only
  rw [hstop]
  dsimp only
  rw [if_neg fun h => hne h.1, if_pos hpos, if_pos hne]

end format

/-! ### STORE_SCRUB -/

/-- The registers of DCP a lost chunk and the commands that decode are shown in. -/
def dcpOffs : List Nat :=
  [H.STAT, H.RAW, H.PEND, F.DCP_STAT.off, F.DCP_POISON.off, F.DCP_ERR_LAST.off, F.DCP_ERR_SEQ.off, F.DCP_CHECK_FAIL_CNT.off,
    F.DCP_FORMAT_ERR_CNT.off, F.DCP_SEQ_GAP_CNT.off, F.DCP_POISON_CNT.off] ++ (List.range 4).map F.DCP_LANE_STAT.at

theorem State.dcpFail_regs (s : State) (cause sid thread seq : Nat) :
    RegsBut (pageKeys P.DCP dcpOffs) s (s.dcpFail cause sid thread seq) := by
  have hpend : rkey P.DCP H.PEND ∈ pageKeys P.DCP dcpOffs := by simp [dcpOffs]
  unfold State.dcpFail
  extract_lets u
  have h : RegsBut (pageKeys P.DCP dcpOffs) s u := ((RegsBut.refl _ s).set (by simp [dcpOffs]) _).put (by simp [dcpOffs, Fld.at]) _
  split
  · exact (h.put (by simp [dcpOffs, Fld.at]) _).pulsed hpend _
  · split
    · exact h.put (by simp [dcpOffs, Fld.at]) _
    · split
      · exact h.put (by simp [dcpOffs, Fld.at]) _
      · exact (h.put (by simp [dcpOffs, Fld.at]) _).pulsed hpend _

theorem State.dcpShow_regs (s : State) : RegsBut (pageKeys P.DCP dcpOffs) s s.dcpShow := by
  unfold State.dcpShow
  extract_lets ops s₁ s₂ m s₃
  have hlane (d : Nat) (hd : d ∈ List.range 4) : rkey P.DCP (F.DCP_LANE_STAT.at d) ∈ pageKeys P.DCP dcpOffs := by
    rw [rkey_mem_pageKeys, dcpOffs, List.mem_append]
    exact .inr (List.mem_map_of_mem hd)
  have h₁ : RegsBut (pageKeys P.DCP dcpOffs) s s₁ := (RegsBut.refl _ s).put (by simp [dcpOffs, Fld.at]) _
  have h₂ : RegsBut (pageKeys P.DCP dcpOffs) s s₂ := h₁.each fun u hu d hd => by
    extract_lets o u₁ th
    have hu₁ : RegsBut (pageKeys P.DCP dcpOffs) s u₁ := hu.put (f := F.DCP_LANE_STAT_BUSY) (hlane d hd) _
    exact (hu₁.put (f := F.DCP_LANE_STAT_STREAM) (hlane d hd) _).put (f := F.DCP_LANE_STAT_THREAD) (hlane d hd) _
  have h₃ : RegsBut (pageKeys P.DCP dcpOffs) s s₃ := (h₂.put (by simp [dcpOffs, Fld.at]) _).set (by simp [dcpOffs]) _
  exact h₃.levelled (by simp [dcpOffs]) (by simp [dcpOffs]) _ _

/-- A 32-bit counter counts one in registers of any form, where it reads 0 after a reset. -/
theorem State.get_sat_any (s : State) {p i : Nat} {f : Fld} (hlo : f.lo = 0) (hhi : f.hi = 31) (hreset : regReset (rkey p (f.at i)) = 0) :
    (s.sat p f 1 i).get p f i = Nat.min (s.get p f i + 1) (2 ^ 32 - 1) := by
  have hmin : satU 32 (s.get p f i + 1) = Nat.min (s.get p f i + 1) (2 ^ 32 - 1) := satU_succ_eq_min _ _
  have hlt : satU 32 (s.get p f i + 1) < 2 ^ 32 := by
    rw [hmin]
    exact Nat.lt_of_le_of_lt (Nat.min_le_right _ _) (by decide)
  have hpos : 0 < satU 32 (s.get p f i + 1) := by
    rw [hmin]
    exact Nat.lt_min.2 ⟨Nat.succ_pos _, by decide⟩
  have hreg : (s.sat p f 1 i).reg p (f.at i) = putBits (s.reg p (f.at i)) f.hi f.lo (satU (f.hi + 1 - f.lo) (s.get p f i + 1)) :=
    State.reg_put_self s (by omega) (by omega) 31 0 (by
      rw [hlo, hhi, bits_putBits_same _ _ _ _ (by omega), hreset, Nat.mod_eq_of_lt hlt]
      exact Nat.ne_of_gt hpos)
  refine Eq.trans ?_ hmin
  show bits ((s.sat p f 1 i).reg p (f.at i)) f.hi f.lo = _
  rw [hreg, hlo, hhi, bits_putBits_same _ _ _ _ (by omega), Nat.mod_eq_of_lt hlt]

section scrub
variable {s v : State} {t : Nat} {r : OpRef} {o : HostOp} (hclaim : (s.at t).claim t OP.SCRUB r = some (v, o)) (hstop : o.stop = none)
  (hall : bitOf (o.par 0 1) 0 = true) (hdcp : v.hasDcp o = true)
include hclaim hstop hall hdcp

theorem execStoreScrub_done : exec (.storeScrub t r none) s =
    .next ((v.putB P.STO F.STO_STAT_SCRUB_BUSY true).endOp o.id (if o.lost then ST.CHECK_FAIL else ST.OK)) := by
  show execStoreScrub t r none s = _
  unfold execStoreScrub
  dsimp only
  rw [hclaim]
  dsimp only
  rw [hstop, hall, hdcp]
  rfl

/-- A chunk that cannot be read is bad. -/
def State.chunkBad (v : State) (o : HostOp) (bs : List Byte) : State :=
  (((((v.putB P.STO F.STO_STAT_SCRUB_BUSY true).dcpFail DC.POCKET (fieldAt bs 5 1) 0 (fieldAt bs 0x10 4)).sat P.STO
    F.STO_SCRUB_BAD_CNT).pulse P.STO 5).modOp o.id (fun p => { p with
      threads := o.threads, lost := p.lost || true, result := p.result + 1 })).dcpShow

theorem execStoreScrub_bad {bs : List Byte} (hk : readChunk bs = none) : exec (.storeScrub t r (some bs)) s = .next (v.chunkBad o bs) := by
  have hdecode (x : State) : x.decodeChunk o.threads bs = (x.dcpFail DC.POCKET (fieldAt bs 5 1) 0 (fieldAt bs 0x10 4), none,
    o.threads) := by
    unfold State.decodeChunk
    rw [hk]
  show execStoreScrub t r (some bs) s = _
  unfold execStoreScrub
  dsimp only
  rw [hclaim]
  dsimp only
  rw [hstop, hall, hdcp]
  dsimp only
  rw [if_pos rfl, if_neg (by simp), if_neg (by decide), hdecode]
  rfl

end scrub

theorem State.chunkBad_counts (v : State) (o : HostOp) (bs : List Byte) : CountsBy v (v.chunkBad o bs) P.STO F.STO_SCRUB_BAD_CNT 0 1 := by
  unfold CountsBy State.chunkBad
  generalize hx : (v.putB P.STO F.STO_STAT_SCRUB_BUSY true).dcpFail DC.POCKET (fieldAt bs 5 1) 0 (fieldAt bs 0x10 4) = x
  have hbefore : x.get P.STO F.STO_SCRUB_BAD_CNT = v.get P.STO F.STO_SCRUB_BAD_CNT := by
    rw [← hx, (State.dcpFail_regs _ _ _ _ _).get (by decide)]
    exact State.get_congr (State.reg_setReg_ne _ (by decide) _)
  rw [(State.dcpShow_regs _).get (by decide), ← hbefore]
  refine Eq.trans ?_ (State.get_sat_any x (p := P.STO) (f := F.STO_SCRUB_BAD_CNT) (i := 0) rfl rfl (by decide))
  exact ((RegsBut.refl [rkey P.STO H.PEND] _).pulsed (by simp) 5).get (by decide)

end Sys2Proof.Machine
end

section
/-!
SUPPORT. Each stitched command's next part or end, as R383 and R384 name it, and the statement on all of them.
-/
namespace Sys2Proof.Machine

variable {s v : State} {t : Nat} {r : OpRef} {o : HostOp}

/-- A claimed command of a pool that is as the claim left it ends with its status. -/
theorem Claimed.endedFrom (hc : Claimed (s.at t) v o) {u : State} (hhost : u.host = v.host) (st : Nat) :
    EndedAs (u.endOp o.id st) o.id st :=
  State.endOp_ended (by rw [hhost]; exact hc.exists) st

theorem SameMemory.modOp {u : State} (h : SameMemory s u) (id : Nat) (f : HostOp → HostOp) : SameMemory s (u.modOp id f) := h

theorem SameMemory.dcpShow {u : State} (h : SameMemory s u) : SameMemory s u.dcpShow :=
  h.trans (State.memory_of_blocks (State.dcpShow_blocks u))

/-! ### MARCH and CALIBRATE -/

theorem march_advances (hstop : o.stop = none) (hclaim : (s.at t).claim t OP.MARCH r = some (v, o)) (hen : v.enabled P.MAR = true)
    (hheld : v.mar.held = none) (hretry : v.mar.retry = none)
    (hothers : v.runningOps.any (fun p => p.opcode == OP.MARCH && decide (p.id < o.id)) = false) :
    (o.pos < o.length → permits (v.lendFlag o.marchTile.tile) (o.par 3 1 == 0) = true → ∃ u b, exec (.march t r) s = .next u ∧
      u.mar.held = some b ∧ b.tile = o.marchTile.tile ∧ b.destructive = (o.par 3 1 == 0) ∧ b.fill = o.par 8 8 ∧ b.op = some o.id ∧
      SameMemory s u) ∧
    (o.pos < o.length → permits (v.lendFlag o.marchTile.tile) (o.par 3 1 == 0) = false → ∃ u, exec (.march t r) s = .next u ∧
      EndedAs u o.id ST.ABORTED) ∧
    (o.length ≤ o.pos → ∃ u, exec (.march t r) s = .next u ∧ EndedAs u o.id (if o.lost then ST.CHECK_FAIL else ST.OK)) := by
  have hc := State.claim_claimed hclaim
  have hnext := execMarch_next hclaim hstop hen hheld hothers hretry
  refine ⟨fun hpos hpermits => ?_, fun hpos hpermits => ?_, fun hpos => ?_⟩
  · refine ⟨_, _, hnext.trans (by rw [if_neg (Nat.not_le.2 hpos), hpermits]; rfl), State.borrow_mar v o.marchTile, rfl, rfl, rfl, rfl,
      hc.memory.trans (State.borrow_memory v _)⟩
  · exact ⟨_, hnext.trans (by rw [if_neg (Nat.not_le.2 hpos), hpermits]; rfl), hc.ended ST.ABORTED⟩
  · exact ⟨_, hnext.trans (if_pos hpos), (hc.ended _).congr (State.marShow_host _)⟩

theorem calibrate_begins (hstop : o.stop = none) (hclaim : (s.at t).claim t OP.CALIBRATE r = some (v, o)) {q : Nat}
    (means : List (Int × Int))
    (hq : ((List.range 4).filter (bitOf (o.par 0 1)))[o.pos]? = some q) (hlost : o.lost = false)
    (hidle : bitOf (v.get P.ADC F.ADC_CAL_STAT_QUAD) q = false) (hinj : ∀ k < 4, (v.conv (4 * q + k)).injWait = none) :
    ∃ u, exec (.calibrate t r means) s = .next u ∧ bitOf (u.get P.ADC F.ADC_CAL_STAT_QUAD) q = true ∧
      u.getB P.ADC F.ADC_CAL_STAT_BUSY = true := by
  have hq4 : q < 4 := List.mem_range.1 (List.mem_filter.1 (List.mem_of_getElem? hq)).1
  have hconvs : (v.calClean o).convs = v.convs := by
    unfold State.calClean
    split <;> rfl
  have hbegun := State.calBegin_shows (s := v.calClean o) hq4 fun k hk => by rw [State.conv_congr hconvs]; exact hinj k hk
  exact ⟨_, execCalibrate_begins hclaim hstop hq hlost hidle hbegun.1, hbegun⟩

theorem calibrate_ends (hstop : o.stop = none) (hclaim : (s.at t).claim t OP.CALIBRATE r = some (v, o)) (means : List (Int × Int))
    (hq : ((List.range 4).filter (bitOf (o.par 0 1)))[o.pos]? = none) :
    ∃ u st, exec (.calibrate t r means) s = .next u ∧ EndedAs u o.id st ∧ (st = ST.OK ∨ st = ST.CHECK_FAIL) ∧
      (v.get P.ADC F.ADC_CAL_STAT_FAIL = 0 → st = ST.OK) := by
  have hc := State.claim_claimed hclaim
  refine ⟨_, _, execCalibrate_done hclaim hstop hq, State.endOp_ended ?_ _, ?_, fun hfail => by rw [State.calFails_none hfail]; rfl⟩
  · have hhost (u : State) (b : Nat) : (u.pulse P.ADC b).host = u.host := by simp
    rw [hhost]
    exact ⟨_, State.mem_modOp hc.mem _ rfl, rfl⟩
  · cases v.calFails o
    · exact .inl rfl
    · exact .inr rfl

/-! ### COMPRESS_BUF and DECOMPRESS_BUF -/

theorem compress_ends (hstop : o.stop = none) (hclaim : (s.at t).claim t OP.COMPRESS r = some (v, o)) (hen : v.enabled P.CMP = true)
    {x : State} (hlane : v.takeLane o.id = some x) (hpos : o.length ≤ o.pos) :
    ∃ u, exec (.compressBuf t r none) s = .next u ∧ EndedAs u o.id (if o.length ≤ o.done_ then ST.NO_GAIN else ST.OK) := by
  have hc := State.claim_claimed hclaim
  obtain ⟨hhost, -, henx⟩ := State.takeLane_rest hlane
  have hdone := execCompressBuf_done hclaim hstop hlane (henx.trans hen) hpos
  by_cases hgain : o.length ≤ o.done_
  · rw [if_pos hgain] at hdone ⊢
    exact ⟨_, hdone, hc.endedFrom ((State.freeRange_host ..).trans hhost) _⟩
  · rw [if_neg hgain] at hdone ⊢
    refine ⟨_, hdone, State.endOp_ended ⟨_, State.mem_modOp (s := x) (by rw [hhost]; exact hc.mem) _ rfl, rfl⟩ _⟩

theorem compress_copies (hstop : o.stop = none) (hclaim : (s.at t).claim t OP.COMPRESS r = some (v, o)) (hen : v.enabled P.CMP = true)
    {x : State} (hlane : v.takeLane o.id = some x) {bs : List Byte} {k : ReadChunk} (hpos : o.pos < o.length) (hsrc : o.srcSpace = 0)
    (hdst : o.dstSpace = 0) (hbs : bs.length ≤ o.length - o.pos) (hk : readChunk bs = some k) (hcomp : k.chunk.compressed = true)
    (hroom : o.done_ + k.raw.length ≤ o.par 4 4) : ∃ u, exec (.compressBuf t r (some bs)) s = .next u ∧
      .hostWrite (o.dst + o.done_) k.raw ∈ u.out ∧ SameMemory s u ∧
      ∃ p ∈ u.host.ops, p.id = o.id ∧ p.pos = o.pos + k.raw.length ∧ p.done_ = o.done_ + k.raw.length := by
  have hc := State.claim_claimed hclaim
  obtain ⟨hhost, hmem, henx⟩ := State.takeLane_rest hlane
  refine ⟨_, execCompressBuf_copies hclaim hstop hlane (henx.trans hen) hpos hsrc hdst hbs hk hcomp hroom,
    List.mem_append_right _ (List.mem_singleton_self _), hc.memory.trans hmem, _, State.mem_modOp ?_ _ rfl, rfl, rfl, rfl⟩
  show o ∈ x.host.ops
  rw [hhost]
  exact hc.mem

theorem decompress_advances (hstop : o.stop = none) (hclaim : (s.at t).claim t OP.DECOMPRESS r = some (v, o)) (hdcp : v.hasDcp o = true)
    {bs : List Byte} {k : ReadChunk} (hpos : o.pos < o.length) (hsrc : o.srcSpace = 0) (hdst : o.dstSpace = 0)
    (hbs : bs.length ≤ o.length - o.pos) (hpocket : pocketGood (bs.take 8) = true) (hmin : 64 ≤ pocketLength bs)
    (hlen : pocketLength bs = bs.length) (hk : readChunk bs = some k) (hgood : k.dataGood = true) (hplain : k.chunk.compressed = false)
    (hraw : k.raw ≠ []) (hroom : o.done_ + k.raw.length ≤ o.par 4 4) : ∃ u, exec (.decompressBuf t r (some bs)) s = .next u ∧
      .hostWrite (o.dst + o.done_) k.raw ∈ u.out ∧ SameMemory s u ∧
      ∃ p ∈ u.host.ops, p.id = o.id ∧ p.pos = o.pos + bs.length ∧ p.done_ = o.done_ + k.raw.length ∧ p.lost = o.lost := by
  have hc := State.claim_claimed hclaim
  refine ⟨_, execDecompressBuf_copies hclaim hstop hdcp hpos hsrc hdst hbs hpocket hmin hlen hk hgood hplain hraw hroom, ?_, ?_,
    { o with pos := o.pos + bs.length, done_ := o.done_ + k.raw.length, result := o.done_ + k.raw.length }, ?_, rfl, rfl, rfl, rfl⟩
  · exact (State.dcpShow_keeps (.refl _)).mem_out (List.mem_append_right _ (List.mem_singleton_self _))
  · exact hc.memory.trans ((State.memory_of_blocks (by simp)).modOp _ _).dcpShow
  · unfold State.chunkCopied
    rw [State.dcpShow_host]
    refine State.mem_modOp ?_ _ rfl
    rw [State.host_of_blocks (s := v) (by simp)]
    exact hc.mem

/-! ### OFFLOAD and READ_RECORD -/

theorem offload_begins (hstop : o.stop = none) (hclaim : (s.at t).claim t OP.OFFLOAD r = some (v, o)) (hpos : o.pos = 0)
    (hvalid : headerValid (v.opHeader o) = true) (harmed : s.isArmed = false) (hpath : ∀ sid < 22, (s.stream sid).pathOp = none) :
    ∃ u, exec (.offload t r) s = .next u ∧ ∃ j ∈ u.store.jobs, j.op = some o.id ∧ j.record = headField (v.opHeader o) 0 4 ∧
      j.header = some (v.opHeader o) := by
  have hc := State.claim_claimed hclaim
  have hstreams (sid : Nat) : v.stream sid = s.stream sid := by
    unfold State.stream
    rw [hc.streams]
    rfl
  refine ⟨_, execOffload_begins hclaim hstop hpos hvalid (hc.armed.trans harmed) fun sid hsid => (congrArg _ (hstreams sid)).trans
    (hpath sid hsid),
    v.offloadJob o, ?_, rfl, rfl, rfl⟩
  have hstore (u : State) (f : HostOp → HostOp) : (u.modOp o.id f).store = u.store := rfl
  rw [State.storeShow_store, hstore, State.offloadPaths_store]
  exact List.mem_append_right _ (List.mem_singleton_self _)

theorem readRecord_copies (hstop : o.stop = none) (hclaim : (s.at t).claim t OP.READ_RECORD r = some (v, o))
    (hplain : bitOf (o.par 1 1) 0 = false) (hsrc : o.srcSpace = 2) (hseq : o.blockSeq ≠ 0) {e : RingChunk}
    (hvalid : headerValid (v.opHeader o) = true)
    (hchunk : (v.recordChunks (o.par 0 1) (v.opHeader o)).find? (fun e => decide (o.pos ≤ e.chunk.seq)) = some e)
      (hlen : 0 < e.chunk.length)
    (hroom : o.done_ + e.chunk.length ≤ o.length) : ∃ u, exec (.readRecord t r none) s = .next u ∧
      .hostWrite (o.dst + o.done_) (v.chunkBytes o e) ∈ u.out ∧ SameMemory s u ∧
      ∃ p ∈ u.host.ops, p.id = o.id ∧ p.pos = e.chunk.seq + 1 ∧ p.done_ = o.done_ + e.chunk.length := by
  have hc := State.claim_claimed hclaim
  refine ⟨_, execReadRecord_copies hclaim hstop hplain hsrc hseq hvalid hchunk hlen hroom, ?_, ?_, { o with
    pos := e.chunk.seq + 1, done_ := o.done_ + e.chunk.length, result := o.done_ + e.chunk.length + (e.chunk.seq + 1) * 2 ^ 32 },
    ?_, rfl, rfl, rfl⟩
  · exact (State.dcpShow_keeps (.refl _)).mem_out (List.mem_append_right _ (List.mem_singleton_self _))
  · exact hc.memory.trans ((State.memory_of_blocks (by simp)).modOp _ _).dcpShow
  · rw [State.dcpShow_host]
    exact State.mem_modOp (s := v.emit _) hc.mem _ rfl

/-! ### STORE_FORMAT and STORE_SCRUB -/

theorem format_begins (hstop : o.stop = none) {id : Word} (hclaim : (s.at t).claim t OP.FORMAT r = some (v, o)) (hpos : o.pos = 0)
    (harmed : s.isArmed = false)
    (hothers : v.runningOps.any (fun p => p.id != o.id && (p.opcode == OP.OFFLOAD || p.opcode == OP.READ_RECORD || p.opcode == OP.SCRUB))
      = false) :
    ∃ u, exec (.storeFormat t r id) s = .next u ∧ u.store.table = [] ∧ u.store.exts = [] ∧ u.getB P.STO F.STO_STAT_READY = false ∧
      u.getB P.STO F.STO_STAT_FORMAT_BUSY = true := by
  obtain ⟨u, hu, hkept⟩ := execStoreFormat_begins (id := id) hclaim hstop hpos ((State.claim_claimed hclaim).armed.trans harmed) hothers
  have hshown : (v.catalogueDropped o id).Formatting := (State.formatting_begins _).storeShow
  obtain ⟨hready, hbusy⟩ := hshown.of_reg (State.reg_congr (by rw [hkept.regs]) P.STO F.STO_STAT.off)
  refine ⟨u, hu, hkept.table.trans ?_, hkept.exts.trans ?_, ?_, ?_⟩
  · unfold State.catalogueDropped
    rw [State.storeShow_store]
    rfl
  · unfold State.catalogueDropped
    rw [State.storeShow_store]
    rfl
  · exact congrArg (· == 1) hready
  · exact congrArg (· == 1) hbusy

theorem scrub_counts (hstop : o.stop = none) (hclaim : (s.at t).claim t OP.SCRUB r = some (v, o)) (hall : bitOf (o.par 0 1) 0 = true)
    (hdcp : v.hasDcp o = true) {bs : List Byte} (hk : readChunk bs = none) : ∃ u, exec (.storeScrub t r (some bs)) s = .next u ∧
      CountsBy v u P.STO F.STO_SCRUB_BAD_CNT 0 1 ∧ ∃ p ∈ u.host.ops, p.id = o.id ∧ p.lost = true ∧ p.result = o.result + 1 := by
  have hc := State.claim_claimed hclaim
  refine ⟨_, execStoreScrub_bad hclaim hstop hall hdcp hk, State.chunkBad_counts v o bs,
    { o with lost := o.lost || true, result := o.result + 1 }, ?_, rfl, Bool.or_true _, rfl⟩
  unfold State.chunkBad
  rw [State.dcpShow_host]
  refine State.mem_modOp ?_ _ rfl
  simpa [State.dcpFail] using hc.mem

/-- Settles O48: each command's equation for the case named, and what its state shows. -/
theorem stitchedCommandsAdvance : Obligations.StitchedCommandsAdvance := by
  intro s t r v o hstop
  refine ⟨fun hclaim hen hheld hretry hothers => march_advances hstop hclaim hen hheld hretry hothers,
    fun hclaim => ⟨fun q means hq hlost hidle hinj => calibrate_begins hstop hclaim means hq hlost hidle hinj,
      fun means hq => calibrate_ends hstop hclaim means hq⟩,
    fun hclaim hen x hlane => ⟨compress_ends hstop hclaim hen hlane,
      fun bs k hpos hsrc hdst hbs hk hcomp hroom => compress_copies hstop hclaim hen hlane hpos hsrc hdst hbs hk hcomp hroom⟩,
    fun hclaim hdcp => ⟨fun hpos => ⟨_, execDecompressBuf_done hclaim hstop hdcp hpos, (State.claim_claimed hclaim).ended _⟩,
      fun bs k hpos hsrc hdst hbs hpocket hmin hlen hk hgood hplain hraw hroom =>
        decompress_advances hstop hclaim hdcp hpos hsrc hdst hbs hpocket hmin hlen hk hgood hplain hraw hroom⟩,
    fun hclaim hpos => ⟨fun hvalid => ⟨_, execOffload_absent hclaim hstop hpos hvalid, (State.claim_claimed hclaim).ended _⟩,
      fun hvalid harmed hpath => offload_begins hstop hclaim hpos hvalid harmed hpath⟩,
    fun hclaim hplain hsrc hseq => ⟨fun hvalid => ⟨_, execReadRecord_absent hclaim hstop hsrc hseq hvalid,
      (State.claim_claimed hclaim).ended _⟩,
      fun e hvalid hchunk hlen hroom => readRecord_copies hstop hclaim hplain hsrc hseq hvalid hchunk hlen hroom⟩,
    fun id hclaim => ⟨fun hpos harmed hothers => format_begins hstop hclaim hpos harmed hothers,
      fun hpos => ⟨_, execStoreFormat_done hclaim hstop hpos,
        (State.claim_claimed hclaim).endedFrom (State.host_of_blocks (State.putB_blocks ..)) _⟩⟩,
    fun hclaim hall hdcp => ⟨⟨_, execStoreScrub_done hclaim hstop hall hdcp,
      (State.claim_claimed hclaim).endedFrom (State.host_of_blocks (State.putB_blocks ..)) _⟩,
      fun bs hk => scrub_counts hstop hclaim hall hdcp hk⟩⟩

end Sys2Proof.Machine
end

section
/-!
SUPPORT. The clear registers of the ladder, action, gambit and acquisition pages (R210, R212, R232, R261, R263).
-/
namespace Sys2Proof.Machine

/-- Settles O7: each command clears a list of fields that share no bits. -/
theorem clearsOfTriggerAndRecord : Obligations.ClearsOfTriggerAndRecord := by
  intro s v hs
  obtain ⟨tld, tld'⟩ := clears_of_bit hs (r := exec (.tldClr v) s) rfl (by decide)
  obtain ⟨act, act'⟩ := clears_of_bit hs (r := exec (.actClr v) s) rfl (by decide)
  obtain ⟨gmb, gmb'⟩ := clears_of_bit hs (r := exec (.gmbClr v) s) rfl (by decide)
  obtain ⟨acq, acq'⟩ := clears_of_bit hs (r := exec (.acqClr v) s) rfl (by decide)
  obtain ⟨thin, thin'⟩ := clears_of_bit hs (r := exec (.acqThinClr v) s) rfl (by decide)
  exact ⟨tld, tld', act, act', gmb, gmb', acq, acq', thin, thin'⟩

end Sys2Proof.Machine
end

section
/-!
SUPPORT. Which registers an operation leaves as they are (R29, R36): a set of keys is watched, and an operation that writes none of them
leaves what they show. What enters streams, tails and tokens writes five pages, and the entry into SAFE the outputs' page besides.
-/
namespace Sys2Proof.Machine
variable (s : State) {K : Nat → Bool}

/-! ### Registers watched -/

/-- The active registers of the keys watched. -/
def State.shown (K : Nat → Bool) (s : State) : List (Nat × Word) := s.regs.active.filter (fun e => K e.1)

/-- No register of the page is watched. -/
def offPage (K : Nat → Bool) (p : Nat) : Prop := ∀ o < 0x1000, K (rkey p o) = false

/-- The keys of the pages not listed. -/
def pagesElse (ps : List Nat) (k : Nat) : Bool := !ps.contains (k / 0x1000)

/-- The keys listed. -/
def keysOf (ks : List Nat) (k : Nat) : Bool := ks.contains k

theorem State.reg_of_shown {s u : State} (h : u.shown K = s.shown K) {p o : Nat} (hk : K (rkey p o) = true) : u.reg p o = s.reg p o := by
  have hf (x : State) : x.reg p o = (sget regReset (x.shown K) (rkey p o)).toNat := by
    have := sget_filter_key (d := regReset) K x.regs.active (rkey p o)
    rw [if_pos hk] at this
    exact congrArg BitVec.toNat this.symm
  rw [hf u, hf s, h]

theorem pagesBut_of_shown {ps : List Nat} {s u : State} (h : u.shown (pagesElse ps) = s.shown (pagesElse ps)) : PagesBut ps s u :=
  fun p o ho hp => State.reg_of_shown h (by simpa [pagesElse, rkey_div ho] using hp)

theorem offPage_pagesElse {ps : List Nat} {p : Nat} (hp : p ∈ ps) : offPage (pagesElse ps) p :=
  fun o ho => by simpa [pagesElse, rkey_div ho] using hp

theorem offPage_keysOf {p : Nat} {os : List Nat} {q : Nat} (hos : ∀ o ∈ os, o < 0x1000) (hp : p ≠ q) :
    offPage (keysOf (pageKeys p os)) q := by
  intro o ho
  simp only [keysOf, List.contains_eq_mem, decide_eq_false_iff_not, pageKeys, List.mem_map, not_exists, not_and]
  intro w hw e
  exact hp ((rkey_inj (hos w hw) ho).1 e).1

theorem offPage.at {p : Nat} (h : offPage K p) {f : Fld} {i : Nat} (hi : i < 64) (hf : f.off + f.stride * 63 < 0x1000) :
    K (rkey p (f.at i)) = false := h _ (Fld.at_lt hi hf)

theorem offPage.header {p o : Nat} (h : offPage K p) (ho : o < 0x40) : K (rkey p o) = false := h o (by omega)

/-! ### Register writes and events -/

@[simp] theorem State.setReg_shown {p o : Nat} (h : K (rkey p o) = false) (v : Nat) : (s.setReg p o v).shown K = s.shown K :=
  filter_sset h ..

@[simp] theorem State.put_shown {p i : Nat} {f : Fld} (h : K (rkey p (f.at i)) = false) (v : Nat) :
    (s.put p f v i).shown K = s.shown K := State.setReg_shown s h _

@[simp] theorem State.putB_shown {p i : Nat} {f : Fld} (h : K (rkey p (f.at i)) = false) (b : Bool) :
    (s.putB p f b i).shown K = s.shown K := State.setReg_shown s h _

@[simp] theorem State.sat_shown {p i : Nat} {f : Fld} (h : K (rkey p (f.at i)) = false) (n : Nat) :
    (s.sat p f n i).shown K = s.shown K := State.setReg_shown s h _

@[simp] theorem State.wrap_shown {p i : Nat} {f : Fld} (h : K (rkey p (f.at i)) = false) (n : Nat) :
    (s.wrap p f n i).shown K = s.shown K := State.setReg_shown s h _

@[simp] theorem State.put64_shown {p i : Nat} {l f : Fld} (hl : K (rkey p (l.at i)) = false) (hf : K (rkey p (f.at i)) = false) (v : Nat) :
    (s.put64 p l f v i).shown K = s.shown K := by simp [State.put64, hl, hf]

@[simp] theorem State.setBlockState_shown {p : Nat} (h : K (rkey p H.STAT) = false) (c : Nat) :
    (s.setBlockState p c).shown K = s.shown K := State.setReg_shown s h _

theorem State.shown_of_regs {s u : State} (h : u.regs = s.regs) : u.shown K = s.shown K := by rw [State.shown, h, State.shown]

@[simp] theorem State.irqRequest_shown (p : Nat) : (s.irqRequest p).shown K = s.shown K := State.shown_of_regs (State.irqRequest_regs ..)

@[simp] theorem State.pulse_shown {p : Nat} (h : K (rkey p H.PEND) = false) (b : Nat) : (s.pulse p b).shown K = s.shown K := by
  unfold State.pulse State.latch
  dsimp only
  (repeat' split) <;> simp [h]

@[simp] theorem State.level_shown {p : Nat} (hr : K (rkey p H.RAW) = false) (hp : K (rkey p H.PEND) = false) (b : Nat) (v : Bool) :
    (s.level p b v).shown K = s.shown K := by
  unfold State.level
  dsimp only
  split <;> simp [hr, hp]

/-! ### Working state -/

/-- The parentheses keep simp from rewriting with these by definition. -/
@[simp] theorem State.emit_shown (o) : (s.emit o).shown K = s.shown K := (rfl)
@[simp] theorem State.scrWrite_shown (a bs) : (s.scrWrite a bs).shown K = s.shown K := (rfl)
@[simp] theorem State.dmWrite_shown (a bs) : (s.dmWrite a bs).shown K = s.shown K := (rfl)
@[simp] theorem State.modStream_shown (i f) : (s.modStream i f).shown K = s.shown K := (rfl)
@[simp] theorem State.modAcq_shown (f) : (s.modAcq f).shown K = s.shown K := (rfl)
@[simp] theorem State.modAct_shown (n f) : (s.modAct n f).shown K = s.shown K := (rfl)
@[simp] theorem State.modSaf_shown (f) : (s.modSaf f).shown K = s.shown K := (rfl)
@[simp] theorem State.modFlx_shown (p f) : (s.modFlx p f).shown K = s.shown K := (rfl)
@[simp] theorem State.bumpSeq_shown (type) : (s.bumpSeq type).shown K = s.shown K := (rfl)

@[simp] theorem State.shown_ite (c : Prop) [Decidable c] (x y : State) :
    (if c then x else y).shown K = if c then x.shown K else y.shown K := apply_ite ..

theorem State.each_shown {α : Type} {l : List α} {f : State → α → State} (h : ∀ s, ∀ x ∈ l, (f s x).shown K = s.shown K) :
    (s.each l f).shown K = s.shown K := by
  induction l generalizing s with
  | nil => rfl
  | cons x r ih => exact (ih (f s x) fun s y hy => h s y (List.mem_cons_of_mem _ hy)).trans (h s x (List.mem_cons_self ..))

/-! ### Streams -/

@[simp] theorem State.note_shown (kind slot unit : Nat) (val : Int) (extra : Nat) :
    (s.note kind slot unit val extra).shown K = s.shown K := by
  unfold State.note
  split <;> rfl

@[simp] theorem State.recFlag_shown (b : Nat) : (s.recFlag b).shown K = s.shown K := by simp [State.recFlag]

@[simp] theorem State.openChunk_shown (sid slot : Nat) : (s.openChunk sid slot).shown K = s.shown K := by simp [State.openChunk]

@[simp] theorem State.ringWrite_shown (sid : Nat) (c : Chunk) : (s.ringWrite sid c).1.shown K = s.shown K := by
  dsimp only [State.ringWrite]
  split <;> simp [State.each_shown]

@[simp] theorem State.tailMarker_shown (sid code subject slot : Nat) (params : List Nat) :
    (s.tailMarker sid code subject slot params).shown K = s.shown K := by simp [State.tailMarker]

theorem State.refreshRfq_shown (hK : offPage K P.RFQ) {sid : Nat} (h : sid < 22) : (s.refreshRfq sid).shown K = s.shown K := by
  have h64 : sid < 64 := by omega
  simp +decide [State.refreshRfq, hK.at, hK.header, h64]

theorem State.closeChunk_shown (hK : offPage K P.RFQ) {sid : Nat} (h : sid < 22) (flags : Nat) :
    (s.closeChunk sid flags).shown K = s.shown K := by
  have h64 : sid < 64 := by omega
  dsimp only [State.closeChunk]
  split
  · rfl
  · simp +decide [State.refreshRfq_shown, hK, hK.at, h, h64]

theorem State.stageItem_shown (hK : offPage K P.RFQ) (hT : offPage K P.ACQT) {sid : Nat} (h : sid < 22) (it : Item) :
    (s.stageItem sid it).shown K = s.shown K := by
  have h64 : sid - 8 < 64 := by omega
  simp +decide [State.stageItem, State.setStall, State.refreshRfq_shown, hK, hK.at, hT.at, hK.header, hT.header, h, h64]

theorem State.appendRaw_shown (hK : offPage K P.RFQ) (hT : offPage K P.ACQT) {sid : Nat} (h : sid < 22) (it : Item) :
    (s.appendRaw sid it).shown K = s.shown K := by
  dsimp only [State.appendRaw]
  (repeat' split) <;> simp [State.refreshRfq_shown, State.stageItem_shown, State.closeChunk_shown, hK, hT, h]

/-! ### Tokens and outputs -/

theorem State.sendSeam_shown (hK : offPage K P.FLX) (kind low w1 w2 w3 : Nat) : (s.sendSeam kind low w1 w2 w3).shown K = s.shown K := by
  have hp (p : Port) : p.idx < 64 := by cases p <;> decide
  simp +decide [State.sendSeam, State.sendTwin, State.sendPort, State.putToken, State.sendFlit, hK.at, hp]

theorem State.goAlone_shown (hK : offPage K P.TWN) (hT : offPage K P.ACQT) : s.goAlone.shown K = s.shown K := by
  have hthin (u : State) : (u.each (List.range 10) (fun s i => s.putB P.ACQT F.ACQ_THIN_STAT_FROM_TWIN false i)).shown K = u.shown K :=
    State.each_shown u fun _ i hi => State.putB_shown _ (hT.at (by have := List.mem_range.1 hi; omega) (by decide)) _
  simp +decide [State.goAlone, State.setTwin, hthin, hK.at, hK.header]

@[simp] theorem State.driveLands_shown (slot : Nat) : (s.driveLands slot).shown K = s.shown K := State.each_shown s fun _ _ _ => by simp

end Sys2Proof.Machine
end

section
/-!
SUPPORT. Action outputs (R204, R207, R446): the activity of one output, the readback of all of them, and what a fault that the
readback raises leaves of what it shows.
-/
namespace Sys2Proof.Machine

/-! ### Masks made bit by bit -/

/-- The mask of the bits below `n` that hold. -/
def maskBelow (f : Nat → Bool) (n : Nat) : Nat := (List.range n).foldl (fun m k => if f k then m + 2 ^ k else m) 0

theorem maskBelow_succ (f : Nat → Bool) (n : Nat) :
    maskBelow f (n + 1) = if f n then maskBelow f n + 2 ^ n else maskBelow f n := by
  simp [maskBelow, List.range_succ, List.foldl_append]

theorem maskBelow_lt (f : Nat → Bool) (n : Nat) : maskBelow f n < 2 ^ n := by
  induction n with
  | zero => simp [maskBelow]
  | succ n ih =>
    rw [maskBelow_succ, Nat.pow_succ]
    split <;> omega

theorem bitOf_maskBelow (f : Nat → Bool) {n k : Nat} (hk : k < n) : bitOf (maskBelow f n) k = f k := by
  induction n with
  | zero => omega
  | succ n ih =>
    rw [maskBelow_succ, bitOf_eq_testBit]
    rcases Nat.lt_succ_iff_lt_or_eq.1 hk with hlt | rfl
    · rw [← ih hlt, bitOf_eq_testBit]
      split
      · rw [Nat.add_comm, Nat.testBit_two_pow_add_gt hlt]
      · rfl
    · have hlow := Nat.testBit_lt_two_pow (maskBelow_lt f k)
      cases hf : f k
      · simpa using hlow
      · rw [if_pos rfl, Nat.add_comm, Nat.testBit_two_pow_add_eq, hlow]
        rfl

/-! ### The activity of an output -/

/-- The registers of ACT in which the commands and the readback are shown. -/
def outputOffs : List Nat := [F.ACT_STAT.off, F.ACT_RB_ERR.off]

def outputKey : Nat → Bool := keysOf (pageKeys P.ACT outputOffs)

theorem offPage_outputKey {p : Nat} (hp : p ≠ P.ACT) : offPage outputKey p := offPage_keysOf (by decide) hp.symm

/-- What `State.setActive` commands, before its event, state and lands follow. -/
def State.commanded (s : State) (n : Nat) (b : Bool) (stop : PulseStop) (slot : Nat) : State :=
  (s.put P.ACT F.ACT_STAT_CMD (putBit (s.get P.ACT F.ACT_STAT_CMD) n b)).modAct n (fun o => { o with stop := stop, since := slot })

theorem State.setActive_shown (s : State) (n : Nat) (b : Bool) (stop : PulseStop) (slot : Nat) :
    (s.setActive n b stop slot).shown outputKey = (s.commanded n b stop slot).shown outputKey := by
  simp +decide [State.setActive, State.actState, State.commanded]

theorem State.get_of_output {s u : State} (h : u.shown outputKey = s.shown outputKey) {f : Fld} (hf : f.at 0 ∈ outputOffs) :
    u.get P.ACT f = s.get P.ACT f :=
  State.get_congr (State.reg_of_shown h (by simpa [outputKey, keysOf] using hf))

theorem State.actActive_setActive {s : State} (hs : s.ActiveWf) {n : Nat} (hn : n < 16) (b : Bool) (stop : PulseStop) (slot k : Nat) :
    (s.setActive n b stop slot).actActive k = if k = n then b else s.actActive k := by
  have hcmd : (s.setActive n b stop slot).get P.ACT F.ACT_STAT_CMD = putBit (s.get P.ACT F.ACT_STAT_CMD) n b := by
    rw [State.get_of_output (State.setActive_shown s n b stop slot) (by decide)]
    show (s.put P.ACT F.ACT_STAT_CMD _).get P.ACT F.ACT_STAT_CMD = _
    rw [State.get_put hs _ _ _ _ (by decide) (by decide)]
    exact Nat.mod_eq_of_lt (putBit_lt b hn (bits_lt _ _ _))
  unfold State.actActive
  rw [hcmd, bitOf_putBit]

theorem State.setActive_pages (s : State) (n : Nat) (b : Bool) (stop : PulseStop) (slot : Nat) :
    PagesBut [P.ACT] s (s.setActive n b stop slot) :=
  pagesBut_of_shown (by simp +decide [State.setActive, State.actState])

/-- Whether ACT_PULSE_END ends a pulse: the page runs, the output is active and its width is complete. -/
def State.pulseEnds (s : State) (n t : Nat) : Prop := s.enabled P.ACT = true ∧ s.actActive n = true ∧ s.pulseDone n t = true

theorem execActPulseEnd_done {s : State} {t : Nat} {n : Fin 16} (h : s.pulseEnds n t) :
    exec (.actPulseEnd t n) s = .next ((s.at t).setActive n false .release t) := by
  have hif : (s.at t).pulseEnds n t := h
  exact congrArg Host.Outcome.next (if_pos hif)

theorem execActPulseEnd_none {s : State} {t : Nat} {n : Fin 16} (h : ¬s.pulseEnds n t) : exec (.actPulseEnd t n) s = .next (s.at t) := by
  have hif : ¬(s.at t).pulseEnds n t := h
  exact congrArg Host.Outcome.next (if_neg hif)

/-! ### A fault leaves the readback -/

/-- The lands read and the mismatches are shown as before. -/
structure ReadbackKept (s u : State) : Prop where
  canon : u.Canon
  lands : u.get P.ACT F.ACT_STAT_LANDS = s.get P.ACT F.ACT_STAT_LANDS
  err : u.get P.ACT F.ACT_RB_ERR = s.get P.ACT F.ACT_RB_ERR

theorem ReadbackKept.trans {s u w : State} (h : ReadbackKept s u) (h' : ReadbackKept u w) : ReadbackKept s w :=
  ⟨h'.canon, h'.lands.trans h.lands, h'.err.trans h.err⟩

theorem ReadbackKept.of_shown {s u : State} (hs : s.Canon) (hk : Keeps s u) (h : u.shown outputKey = s.shown outputKey) :
    ReadbackKept s u := ⟨hk.canon hs, State.get_of_output h (by decide), State.get_of_output h (by decide)⟩

theorem State.setActive_readback {s : State} (hs : s.Canon) (n : Nat) (b : Bool) (stop : PulseStop) (slot : Nat) :
    ReadbackKept s (s.setActive n b stop slot) := by
  have hshown := State.setActive_shown s n b stop slot
  refine ⟨(State.setActive_keeps (.refl s) ..).canon hs, ?_, ?_⟩
  · rw [State.get_of_output hshown (by decide)]
    exact State.get_put_field hs.active _ _ _ _ _ _ (by decide) (by decide) (by decide) (by decide)
  · rw [State.get_of_output hshown (by decide)]
    exact State.get_put_ne hs.active _ _ _ _ _ _ _ (by decide)

theorem State.endActivity_readback {s : State} (hs : s.Canon) (mask slot : Nat) : ReadbackKept s (s.endActivity mask slot) := by
  unfold State.endActivity
  induction (List.range 16).filter (bitOf mask) generalizing s with
  | nil => exact ⟨hs, rfl, rfl⟩
  | cons n r ih =>
    have hturn : ReadbackKept s (if s.actActive n then s.setActive n false .release slot else s) := by
      split
      · exact State.setActive_readback hs n false .release slot
      · exact ⟨hs, rfl, rfl⟩
    exact hturn.trans (ih hturn.canon)

/-- SAFE is the run state. -/
def State.safeNamed (s : State) : State :=
  { s.modSaf (fun q => { q with safeFault := true, exitAt := none, keyAt := none }) with run := .safe }

/-- SAFE begins: every output's activity has ended. -/
def State.safeBegun (s : State) : State := s.safeNamed.endActivity 0xFFFF (s.now + 1)

theorem State.safeEntry_shown (s : State) (first : Nat) : (s.safeEntry first).shown outputKey = s.safeBegun.shown outputKey := by
  have hpage {p : Nat} (hp : p ≠ P.ACT) : offPage outputKey p := offPage_outputKey hp
  simp +decide [State.safeEntry, State.safeBegun, State.safeNamed, State.actState, State.each_shown, State.appendRaw_shown, State.sendSeam_shown,
    State.goAlone_shown, hpage]

theorem State.safeEntry_readback {s : State} (hs : s.Canon) (first : Nat) : ReadbackKept s (s.safeEntry first) := by
  have hbegun : ReadbackKept s s.safeBegun :=
    ReadbackKept.trans (u := s.safeNamed) ⟨hs, rfl, rfl⟩ (State.endActivity_readback (s := s.safeNamed) hs ..)
  have hshown := State.safeEntry_shown s first
  exact ⟨(State.safeEntry_keeps (.refl s) first).canon hs, (State.get_of_output hshown (by decide)).trans hbegun.lands,
    (State.get_of_output hshown (by decide)).trans hbegun.err⟩

/-- A fault latched and named, before its reaction. -/
def State.faultLatched (s : State) (f : Nat) : State :=
  let s := if s.getB P.SAF F.SAF_FIRST_VALID then s else s.setReg P.SAF F.SAF_FIRST.off (2 ^ 31 + f)
  let s := s.put P.SAF F.SAF_FAULT_LATCH (putBit (s.get P.SAF F.SAF_FAULT_LATCH) f true)
  let s := s.pulse P.SAF 1
  let s := if f = Q.LADDER ∨ f = Q.CORES then (s.modSaf (fun q => { q with resetNeeded := true })).level P.SAF 3 true else s
  s.modSaf (fun q => { q with exitAt := none, keyAt := none })

theorem State.raiseFault_eq (s : State) (f : Nat) : s.raiseFault f =
    if (s.faultLatched f).reactSafe f && ((s.faultLatched f).run == .ready || (s.faultLatched f).run == .armed)
    then (s.faultLatched f).safeEntry f else s.faultLatched f := rfl

theorem State.faultLatched_keeps (s : State) (f : Nat) : Keeps s (s.faultLatched f) := by
  have hnamed := Keeps.ite (c := s.getB P.SAF F.SAF_FIRST_VALID = true) (Keeps.refl s)
    (State.setReg_keeps (.refl s) P.SAF F.SAF_FIRST.off (2 ^ 31 + f))
  have hlatch (v : Nat) := State.pulse_keeps (State.put_keeps hnamed P.SAF F.SAF_FAULT_LATCH v 0) P.SAF 1
  exact State.modSaf_keeps (Keeps.ite (State.level_keeps (State.modSaf_keeps (hlatch _) _) _ _ _) (hlatch _)) _

theorem State.raiseFault_readback {s : State} (hs : s.Canon) (f : Nat) : ReadbackKept s (s.raiseFault f) := by
  have hlatched : ReadbackKept s (s.faultLatched f) :=
    .of_shown hs (State.faultLatched_keeps s f) (by simp +decide [State.faultLatched])
  rw [State.raiseFault_eq]
  split
  · exact hlatched.trans (State.safeEntry_readback hlatched.canon f)
  · exact hlatched

theorem State.faultLevel_readback {s : State} (hs : s.Canon) (f : Nat) (b : Bool) : ReadbackKept s (s.faultLevel f b) := by
  have hput : ReadbackKept s (s.put P.SAF F.SAF_FAULT_RAW (putBit (s.get P.SAF F.SAF_FAULT_RAW) f b)) :=
    .of_shown hs (State.put_keeps (.refl s) ..) (by simp +decide)
  unfold State.faultLevel
  dsimp only
  split
  · exact hput.trans (State.raiseFault_readback hput.canon f)
  · exact hput

/-! ### The readback -/

/-- Whether an output's level is compared and is another than expected. -/
def State.readbackBad (s : State) (levels n : Nat) : Bool := match s.readbackLevel n with | some b => b != bitOf levels n | none => false

/-- The state in which the levels read are shown. -/
def State.landsRead (s : State) (t levels : Nat) : State := (s.at t).put P.ACT F.ACT_STAT_LANDS levels

/-- The state in which the mismatches are shown. -/
def State.mismatchShown (s : State) (bad : Nat) : State := (s.put P.ACT F.ACT_RB_ERR bad).level P.ACT 1 (bad != 0)

theorem execActReadback_next (s : State) (t : Nat) (levels : BitVec 16) : exec (.actReadback t levels) s =
    let u := s.landsRead t levels.toNat
    let bad := maskBelow (u.readbackBad levels.toNat) 16
    .next ((u.mismatchShown bad).faultLevel Q.ACT_PATH (bad != 0)) := by
  refine congrArg (fun bad => Host.Outcome.next (((s.landsRead t levels.toNat).mismatchShown bad).faultLevel Q.ACT_PATH (bad != 0))) ?_
  unfold maskBelow
  congr
  funext m n
  show _ = if (s.landsRead t levels.toNat).readbackBad levels.toNat n then m + 2 ^ n else m
  unfold State.readbackBad
  unfold State.landsRead
  cases ((s.at t).put P.ACT F.ACT_STAT_LANDS levels.toNat).readbackLevel n <;> rfl

theorem State.actActive_landsRead {s : State} (hs : s.Canon) (t levels n : Nat) : (s.landsRead t levels).actActive n = s.actActive n := by
  unfold State.actActive State.landsRead
  rw [State.get_put_field (s := s.at t) hs.active _ _ _ _ _ _ (by decide) (by decide) (by decide) (by decide)]
  rfl

/-- The levels expected are those of before the levels were shown. -/
theorem State.readbackLevel_landsRead {s : State} (hs : s.Canon) (t levels n : Nat) :
    (s.landsRead t levels).readbackLevel n = s.readbackLevel n := by
  have hreg {o : Nat} (ho : o ≠ F.ACT_STAT.off) : (s.landsRead t levels).reg P.ACT o = s.reg P.ACT o :=
    State.reg_setReg_ne (s.at t) (fun e => ho (by simpa [rkey, Fld.at, F.ACT_STAT_LANDS, F.ACT_STAT] using e)) _
  have huse (f : Fld) (i : Nat) (hf : f.at i ≠ F.ACT_STAT.off) : (s.landsRead t levels).use P.ACT f i = s.use P.ACT f i :=
    State.use_congr rfl (hreg hf)
  have hcfg (f : Fld) (hf : f.off = F.ACT_CFG.off) : (s.landsRead t levels).use P.ACT f n = s.use P.ACT f n :=
    huse f n (by simp only [Fld.at, hf, F.ACT_CFG, F.ACT_STAT]; omega)
  have hrun : (s.landsRead t levels).run = s.run := rfl
  have hcap : (s.landsRead t levels).vcapGood = s.vcapGood := rfl
  have hout : (s.landsRead t levels).actOut n = s.actOut n := rfl
  have hen : (s.landsRead t levels).enabled P.ACT = s.enabled P.ACT := congrArg (bitOf · 0) (hreg (by decide))
  simp only [State.readbackLevel, State.landLevel, State.useB, huse F.ACT_CTL_RB_EN 0 (by decide), hcfg F.ACT_CFG_EN rfl,
    hcfg F.ACT_CFG_DRIVE rfl, hcfg F.ACT_CFG_SAFE rfl, hcfg F.ACT_CFG_POL rfl, hcfg F.ACT_CFG_RB_OD rfl, hrun, hcap, hout, hen,
    State.actActive_landsRead hs]
  rfl

theorem State.mismatchShown_shown {s : State} (hs : s.Canon) (bad : Nat) : (s.mismatchShown bad).Canon ∧
    (s.mismatchShown bad).get P.ACT F.ACT_RB_ERR = bad % 2 ^ 16 ∧
    (s.mismatchShown bad).get P.ACT F.ACT_STAT_LANDS = s.get P.ACT F.ACT_STAT_LANDS := by
  have hlevel (x : State) : (x.level P.ACT 1 (bad != 0)).shown outputKey = x.shown outputKey := by simp +decide
  refine ⟨(State.level_keeps (State.put_keeps (.refl s) ..) ..).canon hs, ?_, ?_⟩
  · exact (State.get_of_output (hlevel _) (by decide)).trans (State.get_put hs.active _ _ _ _ (by decide) (by decide))
  · exact (State.get_of_output (hlevel _) (by decide)).trans (State.get_put_ne hs.active _ _ _ _ _ _ _ (by decide))

theorem execActReadback_shows {s : State} (hs : s.Canon) (t : Nat) (levels : BitVec 16) : ∃ u, exec (.actReadback t levels) s = .next u ∧
    u.get P.ACT F.ACT_STAT_LANDS = levels.toNat ∧ u.get P.ACT F.ACT_RB_ERR = maskBelow (s.readbackBad levels.toNat) 16 ∧
    bitOf (u.get P.SAF F.SAF_FAULT_RAW) 0 = (maskBelow (s.readbackBad levels.toNat) 16 != 0) := by
  have hbad : (s.landsRead t levels.toNat).readbackBad levels.toNat = s.readbackBad levels.toNat := by
    funext n
    simp only [State.readbackBad, State.readbackLevel_landsRead hs]
  have hread : (s.landsRead t levels.toNat).Canon := (State.put_keeps (.refl (s.at t)) ..).canon hs
  have hlands : (s.landsRead t levels.toNat).get P.ACT F.ACT_STAT_LANDS = levels.toNat :=
    (State.get_put (s := s.at t) hs.active _ _ _ _ (by decide) (by decide)).trans (Nat.mod_eq_of_lt levels.isLt)
  obtain ⟨hcanon, herr, hlands'⟩ := State.mismatchShown_shown hread (maskBelow (s.readbackBad levels.toNat) 16)
  have hkept := State.faultLevel_readback hcanon Q.ACT_PATH (maskBelow (s.readbackBad levels.toNat) 16 != 0)
  refine ⟨_, execActReadback_next s t levels, ?_⟩
  rw [hbad]
  exact ⟨hkept.lands.trans (hlands'.trans hlands), hkept.err.trans (herr.trans (Nat.mod_eq_of_lt (maskBelow_lt _ _))),
    State.faultLevel_raw hcanon.active (by decide) _⟩

/-- Settles O38: the end of a pulse is `State.setActive` on one output, and the readback shows its mask before its fault. -/
theorem actionOutputs : Obligations.ActionOutputs := by
  intro s t n levels hs _
  refine ⟨fun he ha hd => ⟨_, execActPulseEnd_done ⟨he, ha, hd⟩, ?_, fun k _ hk => ?_, ?_⟩, fun h => execActPulseEnd_none ?_, ?_⟩
  · rw [State.actActive_setActive (s := s.at t) hs.active n.isLt, if_pos rfl]
  · rw [State.actActive_setActive (s := s.at t) hs.active n.isLt, if_neg hk]
    rfl
  · exact fun p o ho hp => State.setActive_pages (s.at t) n false .release t p o ho hp
  · rintro ⟨he, ha, hd⟩
    simp [he, ha, hd] at h
  · obtain ⟨u, hu, hlands, herr, hraw⟩ := execActReadback_shows hs t levels
    refine ⟨u, hu, hlands, fun k hk => ?_, ?_⟩
    · rw [herr, bitOf_maskBelow _ hk]
      unfold State.readbackBad
      cases s.readbackLevel k <;> rfl
    · rw [hraw, herr]
      exact bne_iff_ne

end Sys2Proof.Machine
end

section
/-!
SUPPORT. What arming sets and later steps leave: the run state, the record's place in time, the ladder's state, and the registers
that show them (R201, R233).
-/
namespace Sys2Proof.Machine
variable (s : State)

/-! ### The working state that arming sets -/

/-- The run state, the arming's slots, and the ladder with its checkpoints. -/
def State.armPart (s : State) : RunState × Nat × Option Nat × GmbState := (s.run, s.acq.armSlot, s.acq.armAt, s.gmb)

theorem State.armPart_of_blocks {s u : State} (h : u.blocks = s.blocks) : u.armPart = s.armPart :=
  show u.blocks.armPart = s.blocks.armPart by rw [h]

@[simp] theorem State.setReg_armPart (p o v) : (s.setReg p o v).armPart = s.armPart := (rfl)
@[simp] theorem State.put_armPart (p f v i) : (s.put p f v i).armPart = s.armPart := (rfl)
@[simp] theorem State.putB_armPart (p f b i) : (s.putB p f b i).armPart = s.armPart := (rfl)
@[simp] theorem State.put64_armPart (p l f v i) : (s.put64 p l f v i).armPart = s.armPart := (rfl)
@[simp] theorem State.wrap_armPart (p f n i) : (s.wrap p f n i).armPart = s.armPart := (rfl)
@[simp] theorem State.setBlockState_armPart (p c) : (s.setBlockState p c).armPart = s.armPart := (rfl)
@[simp] theorem State.emit_armPart (o) : (s.emit o).armPart = s.armPart := (rfl)
@[simp] theorem State.dmWrite_armPart (a bs) : (s.dmWrite a bs).armPart = s.armPart := (rfl)
@[simp] theorem State.modStream_armPart (i f) : (s.modStream i f).armPart = s.armPart := (rfl)
@[simp] theorem State.modDig_armPart (g f) : (s.modDig g f).armPart = s.armPart := (rfl)
@[simp] theorem State.modAct_armPart (n f) : (s.modAct n f).armPart = s.armPart := (rfl)
@[simp] theorem State.modStore_armPart (f) : (s.modStore f).armPart = s.armPart := (rfl)
@[simp] theorem State.pulse_armPart (p b) : (s.pulse p b).armPart = s.armPart := State.armPart_of_blocks (by simp)
@[simp] theorem State.level_armPart (p b v) : (s.level p b v).armPart = s.armPart := State.armPart_of_blocks (by simp)

@[simp] theorem State.armPart_ite (c : Prop) [Decidable c] (x y : State) :
    (if c then x else y).armPart = if c then x.armPart else y.armPart := apply_ite ..

@[simp] theorem State.each_armPart {α : Type} (l : List α) (f : State → α → State) (h : ∀ s x u, f s x = u → u.armPart = s.armPart) :
    (s.each l f).armPart = s.armPart := by
  induction l generalizing s with
  | nil => rfl
  | cons x r ih => exact (ih _).trans (h s x _ rfl)

@[simp] theorem State.modThread_armPart (i f) : (s.modThread i f).armPart = s.armPart := by
  unfold State.modThread
  split <;> rfl

@[simp] theorem State.recFlag_armPart (b) : (s.recFlag b).armPart = s.armPart := by
  unfold State.recFlag
  split <;> rfl

@[simp] theorem State.note_armPart (kind slot unit val extra) : (s.note kind slot unit val extra).armPart = s.armPart := by
  unfold State.note
  split <;> rfl

@[simp] theorem State.unvalid_armPart (a) : (s.unvalid a).armPart = s.armPart := (rfl)
@[simp] theorem State.refreshRfq_armPart (sid) : (s.refreshRfq sid).armPart = s.armPart := by simp [State.refreshRfq]
@[simp] theorem State.gapOpen_armPart (sids slot cause) : (s.gapOpen sids slot cause).armPart = s.armPart := by simp [State.gapOpen]
@[simp] theorem State.gapsAtArm_armPart (slot) : (s.gapsAtArm slot).armPart = s.armPart := by simp [State.gapsAtArm]
@[simp] theorem State.endActivity_armPart (mask slot) : (s.endActivity mask slot).armPart = s.armPart := by
  simp [State.endActivity, State.setActive, State.actState, State.driveLands]
@[simp] theorem State.giveLanes_armPart (sid ls) : (s.giveLanes sid ls).armPart = s.armPart := by simp [State.giveLanes]
@[simp] theorem State.showLanes_armPart (l) : (s.showLanes l).armPart = s.armPart := State.armPart_of_blocks (by simp)
@[simp] theorem State.dealLanes_armPart (l) : (s.dealLanes l).armPart = s.armPart := by simp [State.dealLanes]
@[simp] theorem State.rfqState_armPart : s.rfqState.armPart = s.armPart := by simp [State.rfqState]
@[simp] theorem State.gmbShow_armPart : s.gmbShow.armPart = s.armPart := by simp [State.gmbShow]
@[simp] theorem State.acqShow_armPart : s.acqShow.armPart = s.armPart := by simp [State.acqShow]
@[simp] theorem State.storeShow_armPart : s.storeShow.armPart = s.armPart := State.armPart_of_blocks (by simp)
@[simp] theorem State.startTable_armPart : s.startTable.armPart = s.armPart := State.armPart_of_blocks (by simp)
@[simp] theorem State.tableWrite_armPart (e) : (s.tableWrite e).armPart = s.armPart := by simp [State.tableWrite]

@[simp] theorem State.dropRecordJob_armPart : s.dropRecordJob.armPart = s.armPart := by
  dsimp only [State.dropRecordJob]
  split <;> simp

/-! ### Registers watched -/

section shown
variable {K : Nat → Bool}

@[simp] theorem State.modDig_shown (g f) : (s.modDig g f).shown K = s.shown K := (rfl)
@[simp] theorem State.modStore_shown (f) : (s.modStore f).shown K = s.shown K := (rfl)
@[simp] theorem State.unvalid_shown (a) : (s.unvalid a).shown K = s.shown K := (rfl)

@[simp] theorem State.modThread_shown (i f) : (s.modThread i f).shown K = s.shown K := by
  unfold State.modThread
  split <;> rfl

@[simp] theorem State.gapOpen_shown (sids slot cause) : (s.gapOpen sids slot cause).shown K = s.shown K :=
  State.each_shown s fun _ _ _ => rfl

@[simp] theorem State.gapsAtArm_shown (slot) : (s.gapsAtArm slot).shown K = s.shown K := by
  simp [State.gapsAtArm, State.each_shown]

@[simp] theorem State.giveLanes_shown (sid ls) : (s.giveLanes sid ls).shown K = s.shown K :=
  State.each_shown s fun _ _ _ => by simp

theorem State.endActivity_shown (hK : offPage K P.ACT) (mask slot : Nat) : (s.endActivity mask slot).shown K = s.shown K :=
  State.each_shown s fun _ _ _ => by simp +decide [State.setActive, State.actState, hK.at, hK.header]

theorem State.showLanes_shown (hK : offPage K P.CMP) (l : List Nat) : (s.showLanes l).shown K = s.shown K := by
  have hlane : ∀ j ∈ List.range 4, j < 64 := by decide
  have hmap (u : State) (g : State → Nat → Nat) :
      (u.each (List.range 4) fun u j => u.setReg P.CMP (F.CMP_LANE_MAP.at j) (g u j)).shown K = u.shown K :=
    State.each_shown u fun u j hj => State.setReg_shown u (hK.at (hlane j hj) (by decide)) _
  simp +decide [State.showLanes, State.cmpShow, hmap, hK.at, hK.header]

theorem State.dealLanes_shown (hK : offPage K P.CMP) (l : List Nat) : (s.dealLanes l).shown K = s.shown K := by
  simp +decide [State.dealLanes, State.showLanes_shown, State.each_shown, hK]

theorem State.rfqState_shown (hK : offPage K P.RFQ) : s.rfqState.shown K = s.shown K := by
  simp +decide [State.rfqState, hK.header]

theorem State.gmbShow_shown (hG : offPage K P.GMB) (hT : offPage K P.TLD) : s.gmbShow.shown K = s.shown K := by
  simp +decide [State.gmbShow, hG.at, hG.header, hT.at, hT.header]

theorem State.storeShow_shown (hS : offPage K P.STO) (hN : offPage K P.NVQ) : s.storeShow.shown K = s.shown K := by
  have hdrive : ∀ d ∈ List.range 4, d < 64 := by decide
  simp +decide only [State.storeShow, State.level_shown, State.setBlockState_shown, State.put64_shown, State.put_shown,
    State.putB_shown, hS.at, hS.header]
  refine State.each_shown s fun u d hd => ?_
  simp +decide [hS.at (hdrive d hd), hN.at (hdrive d hd)]

end shown

end Sys2Proof.Machine
end

section
/-!
SUPPORT. Selects and window tables (R210, R211, R344, R346, R367): a select that writes one register, the catalogue shown of the
slot selected, and a staged write through a window, whose pointer then steps on.
-/
namespace Sys2Proof.Machine

/-! ### Selects -/

/-- A register written whole by its own block: the value it shows, and its frame. -/
theorem State.put_whole {s : State} (hs : s.ActiveWf) (p : Nat) {f : Fld} (hlo : f.lo = 0) (hhi : f.hi = 31) (v : Nat) :
    (s.put p f v).get p f = v % 2 ^ 32 ∧ RegsBut [rkey p (f.at 0)] s (s.put p f v) ∧ OnlyActive s (s.put p f v) := by
  refine ⟨?_, RegsBut.setReg hs _ _ _ (List.mem_singleton.2 rfl), rfl⟩
  rw [State.get_put hs _ _ _ _ (by omega) (by omega), hlo, hhi]

theorem bits_zero (v hi : Nat) : bits v hi 0 = v % 2 ^ (hi + 1) := by simp [bits]

theorem State.showBadRow_spec {s : State} (hs : s.ActiveWf) :
    s.showBadRow.get64 P.DMC F.DMC_BADROW_LO F.DMC_BADROW_HI = s.mar.badRows.getD s.mar.sel 0 % 2 ^ 38 ∧
      RegsBut [rkey P.DMC F.DMC_BADROW_LO.off, rkey P.DMC F.DMC_BADROW_HI.off] s s.showBadRow := by
  have hlow := State.put_wf hs P.DMC F.DMC_BADROW_LO (s.mar.badRows.getD s.mar.sel 0) 0
  refine ⟨?_, ((RegsBut.refl _ s).put (f := F.DMC_BADROW_LO) (by decide) _).put (by decide) _⟩
  unfold State.showBadRow State.put64 State.get64
  rw [State.get_put_ne hlow _ _ _ _ _ _ _ (by decide), State.get_put hs _ _ _ _ (by decide) (by decide),
    State.get_put hlow _ _ _ _ (by decide) (by decide)]
  simp only [F.DMC_BADROW_LO, F.DMC_BADROW_HI]
  omega

/-! ### The catalogue -/

/-- What STO shows of the slot selected, and its readiness: the end of `State.storeShow`. -/
def State.catalogueShown (s : State) : State :=
  let r := s.store.table.find? (fun e => e.slot = s.store.sel)
  let field (off n : Nat) : Nat := (r.map (fun e => fieldAt e.header off n)).getD 0
  let s := s.put P.STO F.STO_CAT_STAT_STATE ((r.map RecEntry.state).getD 0)
  let s := (s.put P.STO F.STO_CAT_REC (field 0 4)).put P.STO F.STO_CAT_SEG (field 4 4)
  let s := s.put64 P.STO F.STO_CAT_BYTES_LO F.STO_CAT_BYTES_HI ((r.map RecEntry.bytes).getD 0)
  let ready := s.getB P.STO F.STO_STAT_READY
  (s.setBlockState P.STO (if s.getB P.STO F.STO_STAT_FORMAT_BUSY then 2 else b2n ready)).level P.STO 0 ready

/-- Register writes have kept the state sound and its store as it was. -/
structure StoreKept (s u : State) : Prop where
  keeps : Keeps s u
  store : u.store = s.store

theorem StoreKept.put {s u : State} (h : StoreKept s u) (p : Nat) (f : Fld) (v i : Nat) : StoreKept s (u.put p f v i) :=
  ⟨State.put_keeps h.keeps .., h.store⟩

theorem State.storeShow_catalogue (s : State) : ∃ u, StoreKept s u ∧ s.storeShow = u.catalogueShown := by
  obtain ⟨v, hv⟩ : ∃ v, v = s.storeShow := ⟨_, rfl⟩
  rw [← hv]
  unfold State.storeShow at hv
  extract_lets -underBinder -merge +onlyGivenNames live x1 x2 x3 x4 x5 x6 job x7 x8 x9 at hv
  have hdrives : StoreKept s x1 := ⟨State.each_keeps (.refl s) fun _ h _ =>
    State.put_keeps (State.put_keeps (State.put_keeps (State.putB_keeps h ..) ..) ..) .., State.store_of_blocks (by simp [x1])⟩
  clear_value x1
  have hspace : StoreKept s x6 := ((((hdrives.put ..).put ..).put ..).put ..).put ..
  clear_value x6
  exact ⟨x9, ((hspace.put ..).put ..).put .., hv⟩

/-- The registers of STO that show the catalogue entry. -/
def catalogueKey : Nat → Bool := keysOf (pageKeys P.STO [F.STO_CAT_STAT.off, F.STO_CAT_REC.off, F.STO_CAT_SEG.off])

theorem State.catalogueShown_spec {s : State} (hs : s.ActiveWf) :
    let r := s.store.table.find? (fun e => e.slot = s.store.sel)
    s.catalogueShown.get P.STO F.STO_CAT_STAT_STATE = (r.map RecEntry.state).getD 0 % 2 ^ 4 ∧
      s.catalogueShown.get P.STO F.STO_CAT_REC = (r.map (fun e => fieldAt e.header 0 4)).getD 0 % 2 ^ 32 ∧
      s.catalogueShown.get P.STO F.STO_CAT_SEG = (r.map (fun e => fieldAt e.header 4 4)).getD 0 % 2 ^ 32 := by
  intro r
  obtain ⟨x, hx⟩ : ∃ x, x = s.put P.STO F.STO_CAT_STAT_STATE ((r.map RecEntry.state).getD 0) := ⟨_, rfl⟩
  obtain ⟨y, hy⟩ : ∃ y, y = x.put P.STO F.STO_CAT_REC ((r.map (fun e => fieldAt e.header 0 4)).getD 0) := ⟨_, rfl⟩
  have hxw : x.ActiveWf := hx ▸ State.put_wf hs ..
  have hyw : y.ActiveWf := hy ▸ State.put_wf hxw ..
  have hshown : s.catalogueShown.shown catalogueKey =
      (y.put P.STO F.STO_CAT_SEG ((r.map (fun e => fieldAt e.header 4 4)).getD 0)).shown catalogueKey := by
    simp +decide [State.catalogueShown, hx, hy, r]
  have hget {f : Fld} (hf : catalogueKey (rkey P.STO (f.at 0)) = true) := State.get_congr (f := f) (State.reg_of_shown hshown hf)
  refine ⟨?_, ?_, ?_⟩
  · rw [hget (by decide), State.get_put_ne hyw _ _ _ _ _ _ _ (by decide), hy, State.get_put_ne hxw _ _ _ _ _ _ _ (by decide), hx,
      State.get_put hs _ _ _ _ (by decide) (by decide)]
    rfl
  · rw [hget (by decide), State.get_put_ne hyw _ _ _ _ _ _ _ (by decide), hy, State.get_put hxw _ _ _ _ (by decide) (by decide)]
    rfl
  · rw [hget (by decide), State.get_put hyw _ _ _ _ (by decide) (by decide)]
    rfl

theorem State.storeShow_pages (s : State) : PagesBut [P.STO, P.NVQ] s s.storeShow :=
  pagesBut_of_shown (State.storeShow_shown s (offPage_pagesElse (by decide)) (offPage_pagesElse (by decide)))

/-! ### Window tables -/

/-- A window's pointer with INC steps on to the next entry. -/
def State.stepPtr (s : State) (p : Nat) (inc ptr : Fld) (next : Nat) : State := if s.getB p inc then s.put p ptr next else s

/-- One register written in staged mode: its RW bits go to the staged copy of the entry selected, and its window steps on. -/
theorem State.writeRW_staged_window {s : State} {t p q o v i : Nat} {d : RegDef} (hst : s.stagedMode p = true)
    (hreg : regAt p o = some (d, i)) (hrw : d.rw ≠ 0) (hq : s.copyPage p o = some q) :
    s.writeRW t p .plain [(o, v)] =
      (s.setStaged q o (mergeBits (s.stagedReg q o) (s.writeMask p o d.rw) v)).advanceWindow p o := by
  simp [State.writeRW, hst, hreg, hrw, hq, State.each, State.storeRW, WriteMode.apply]

theorem State.stagedReg_stepPtr (s : State) (p : Nat) (inc ptr : Fld) (next q o : Nat) :
    (s.stepPtr p inc ptr next).stagedReg q o = s.stagedReg q o := by
  unfold State.stepPtr
  split <;> rfl

theorem SameBlocks.stepPtr (s : State) (p : Nat) (inc ptr : Fld) (next : Nat) : SameBlocks s (s.stepPtr p inc ptr next) := by
  unfold State.stepPtr
  split <;> rfl

theorem RegsBut.stepPtr (s : State) (p : Nat) (inc ptr : Fld) (next : Nat) :
    RegsBut [rkey p (ptr.at 0)] s (s.stepPtr p inc ptr next) := by
  unfold State.stepPtr
  split
  · exact (RegsBut.refl _ s).put (List.mem_singleton.2 rfl) _
  · exact .refl _ s

/-- A value put in the staged copy of an entry, and the pointer stepped on: what is shown, and the frame. -/
theorem State.windowWrite_spec {s : State} (hs : s.Canon) (t q o : Nat) {x : Nat} (hx : x < 2 ^ 32) (p next : Nat) (inc : Fld)
    {ptr : Fld} (hlo : ptr.lo ≤ ptr.hi) (hhi : ptr.hi < 32) :
    let u := ((s.at t).setStaged q o x).stepPtr p inc ptr next
    u.stagedReg q o = x ∧ (∀ q' o', rkey q' o' ≠ rkey q o → u.stagedReg q' o' = s.stagedReg q' o') ∧
      (s.getB p inc = true → u.get p ptr = next % 2 ^ (ptr.hi + 1 - ptr.lo)) ∧ (s.getB p inc = false → u.get p ptr = s.get p ptr) ∧
      RegsBut [rkey p (ptr.at 0)] s u ∧ SameBlocks s u := by
  have hwf : swf regReset (s.at t).regs.staged = true := hs.staged
  have hact : ((s.at t).setStaged q o x).ActiveWf := hs.active
  refine ⟨?_, fun q' o' hne => ?_, fun h => ?_, fun h => ?_, RegsBut.stepPtr ((s.at t).setStaged q o x) p inc ptr next, ?_⟩
  · rw [State.stagedReg_stepPtr, State.stagedReg_setStaged hwf, if_pos rfl, Nat.mod_eq_of_lt hx]
  · rw [State.stagedReg_stepPtr, State.stagedReg_setStaged hwf, if_neg hne]
    rfl
  · have hstep : ((s.at t).setStaged q o x).stepPtr p inc ptr next = ((s.at t).setStaged q o x).put p ptr next := if_pos h
    rw [hstep, State.get_put hact _ _ _ _ hlo hhi]
  · have hstay : ((s.at t).setStaged q o x).stepPtr p inc ptr next = (s.at t).setStaged q o x := if_neg (h ▸ Bool.false_ne_true)
    rw [hstay]
    rfl
  · have hstep := SameBlocks.stepPtr ((s.at t).setStaged q o x) p inc ptr next
    unfold SameBlocks at hstep ⊢
    rw [hstep]
    rfl

theorem execTldPtCtlWrite_staged {s : State} {t : Nat} {v : Word} (hw : s.writable P.TLDP = true) (hst : s.stagedMode P.TLDP = true) :
    let e := s.get P.TLDP F.TLD_PT_PTR_ENTRY
    exec (.tldPtCtlWrite t v) s = .next (((s.at t).setStaged (P.PT e) F.TLD_PT_CTL.off
      (mergeBits (s.stagedReg (P.PT e) F.TLD_PT_CTL.off) 0xC000000F v.toNat)).stepPtr P.TLDP F.TLD_PT_PTR_INC F.TLD_PT_PTR_ENTRY (e + 1)) := by
  obtain ⟨d, i, hreg, hrw⟩ : ∃ d i, regAt P.TLDP F.TLD_PT_CTL.off = some (d, i) ∧ d.rw = 0xC000000F := ⟨_, _, by rfl, by rfl⟩
  have hq : (s.at t).copyPage P.TLDP F.TLD_PT_CTL.off = some (P.PT (s.get P.TLDP F.TLD_PT_PTR_ENTRY)) := rfl
  have hrun : exec (.tldPtCtlWrite t v) s = .next ((s.at t).writeRW t P.TLDP .plain [(F.TLD_PT_CTL.off, v.toNat)]) :=
    congrArg Host.Outcome.next (if_pos hw)
  rw [hrun, State.writeRW_staged_window (s := s.at t) hst hreg (by simp [hrw]) hq, hrw]
  simp +decide [State.advanceWindow, State.writeMask, State.stepPtr]
  rfl

theorem execScrLendDataWrite_staged {s : State} {t : Nat} {v : Word} (hw : s.writable P.SCR = true) (hst : s.stagedMode P.SCR = true)
    (hg : s.get P.SCR F.SCR_LEND_PTR_GROUP < 96) :
    let g := s.get P.SCR F.SCR_LEND_PTR_GROUP
    exec (.scrLendDataWrite t v) s = .next (((s.at t).setStaged (P.LEND g) F.SCR_LEND_DATA.off
      (mergeBits (s.stagedReg (P.LEND g) F.SCR_LEND_DATA.off) (if g < 8 then 0 else 0xFFFFFFFF) v.toNat)).stepPtr P.SCR
        F.SCR_LEND_PTR_INC F.SCR_LEND_PTR_GROUP ((g + 1) % 96)) := by
  obtain ⟨d, i, hreg, hrw⟩ : ∃ d i, regAt P.SCR F.SCR_LEND_DATA.off = some (d, i) ∧ d.rw = 0xFFFFFFFF := ⟨_, _, by rfl, by rfl⟩
  have hq : (s.at t).copyPage P.SCR F.SCR_LEND_DATA.off = some (P.LEND (s.get P.SCR F.SCR_LEND_PTR_GROUP)) := if_pos hg
  have hrun : exec (.scrLendDataWrite t v) s = .next ((s.at t).writeRW t P.SCR .plain [(F.SCR_LEND_DATA.off, v.toNat)]) :=
    congrArg Host.Outcome.next (if_pos hw)
  rw [hrun, State.writeRW_staged_window (s := s.at t) hst hreg (by simp [hrw]) hq, hrw]
  simp +decide [State.advanceWindow, State.writeMask, State.stepPtr]
  rfl

theorem mergeBits_none {old : Nat} (v : Nat) (ho : old < 2 ^ 32) : mergeBits old 0 v = old := by
  simp [mergeBits, Nat.and_two_pow_sub_one_of_lt_two_pow ho]

theorem mergeBits_all (old : Nat) {v : Nat} (hv : v < 2 ^ 32) : mergeBits old 0xFFFFFFFF v = v := by
  simp [mergeBits, Nat.and_two_pow_sub_one_of_lt_two_pow hv]

/-! ### The selects, one by one -/

/-- The ladder as software sees it: that of the oldest checkpoint, else the present one (R229). -/
def State.ladderShown (s : State) : LadderState := match s.gmb.ckpts with | c :: _ => c.ladder | [] => s.gmb.ladder

theorem State.ladderShown_cons {s : State} {c : Ckpt} {r : List Ckpt} (h : s.gmb.ckpts = c :: r) : s.ladderShown = c.ladder := by
  rw [State.ladderShown, h]

theorem State.ladderShown_nil {s : State} (h : s.gmb.ckpts = []) : s.ladderShown = s.gmb.ladder := by rw [State.ladderShown, h]

theorem execTldTcSnapSel_counter {s : State} {t : Nat} {v : Word} (h : bitOf v.toNat 4 = false) :
    exec (.tldTcSnapSel t v) s =
      .next ((s.at t).put P.TLDT F.TLD_TC_SNAP (sat32 (s.ladderShown.counters.getD (v.toNat % 16) 0))) := by
  simp only [exec, execTldTcSnapSel, h, bits_zero]
  rfl

theorem sat32_mod (v : Nat) : sat32 v % 2 ^ 32 = Nat.min v (2 ^ 32 - 1) := by
  change _ = min v _
  unfold sat32
  split <;> omega

theorem execDmcBadrowSel_next (v : Word) (s : State) :
    exec (.dmcBadrowSel v) s = .next (s.modMar (fun m => { m with sel := v.toNat % 64 })).showBadRow := by
  rw [show v.toNat % 64 = bits v.toNat 5 0 from (bits_zero v.toNat 5).symm]
  rfl

theorem execStoCatSel_next (v : Word) (s : State) :
    exec (.stoCatSel v) s = .next (s.modStore (fun q => { q with sel := v.toNat % 65536 })).storeShow := by
  rw [show v.toNat % 65536 = bits v.toNat 15 0 from (bits_zero v.toNat 15).symm]
  rfl

theorem State.storeShow_spec {s : State} (hs : s.Canon) :
    (s.store.table.find? (fun e => e.slot = s.store.sel) = none →
      s.storeShow.get P.STO F.STO_CAT_STAT_STATE = 0 ∧ s.storeShow.get P.STO F.STO_CAT_REC = 0) ∧
    (∀ e, s.store.table.find? (fun e => e.slot = s.store.sel) = some e →
      s.storeShow.get P.STO F.STO_CAT_REC = fieldAt e.header 0 4 % 2 ^ 32 ∧
      s.storeShow.get P.STO F.STO_CAT_SEG = fieldAt e.header 4 4 % 2 ^ 32) := by
  obtain ⟨u, hkept, hshow⟩ := s.storeShow_catalogue
  obtain ⟨hstate, hrec, hseg⟩ := State.catalogueShown_spec (hkept.keeps.canon hs).active
  rw [hkept.store] at hstate hrec hseg
  rw [hshow, hstate, hrec, hseg]
  refine ⟨fun h => ?_, fun e h => ?_⟩ <;> rw [h] <;> exact ⟨rfl, rfl⟩

/-- Settles O18: a select is one register put or `State.storeShow`, a window write a staged put and `State.stepPtr`. -/
theorem selectsAndWindowTableWrites : Obligations.SelectsAndWindowTableWrites := by
  refine ⟨fun s t v hs => ⟨fun h => ?_, ?_, ?_, ?_, ?_, ?_⟩, fun s t v hs => ⟨fun hw hst => ?_, fun hw hst hg => ?_⟩⟩
  · obtain ⟨hget, hframe⟩ := State.put_whole (s := s.at t) hs.active P.TLDT (f := F.TLD_TC_SNAP) rfl rfl
      (sat32 (s.ladderShown.counters.getD (v.toNat % 16) 0))
    rw [sat32_mod] at hget
    exact ⟨_, execTldTcSnapSel_counter h, fun c r hc => State.ladderShown_cons hc ▸ hget, fun hc => State.ladderShown_nil hc ▸ hget,
      hframe⟩
  · obtain ⟨hget, hframe⟩ := State.put_whole hs.active P.TLDP (f := F.TLD_PT_PTR) rfl rfl (bits v.toNat 9 0)
    exact ⟨_, rfl, hget.trans (by rw [bits_zero]; omega), hframe⟩
  · obtain ⟨hget, hframe⟩ := State.put_whole hs.active P.SCR (f := F.SCR_LEND_PTR) rfl rfl (bits v.toNat 7 0)
    exact ⟨_, rfl, hget.trans (by rw [bits_zero]; omega), hframe⟩
  · exact ⟨_, execDmcBadrowSel_next v s, rfl, State.showBadRow_spec (s := s.modMar (fun m => { m with sel := v.toNat % 64 })) hs.active⟩
  · obtain ⟨w, hw⟩ : ∃ w, w = s.modStore (fun q => { q with sel := v.toNat % 65536 }) := ⟨_, rfl⟩
    have hstore : w.store = { s.store with sel := v.toNat % 65536 } := by rw [hw]; rfl
    have hcanon : w.Canon := hw ▸ hs
    have hpages : PagesBut [P.STO, P.NVQ] s w.storeShow := fun p o ho hp => (w.storeShow_pages p o ho hp).trans (by rw [hw]; rfl)
    obtain ⟨hnone, hsome⟩ := State.storeShow_spec hcanon
    rw [hstore] at hnone hsome
    exact ⟨_, by rw [execStoCatSel_next, hw], w.storeShow_store.trans hstore, hnone, hsome, hpages⟩
  · rfl
  · obtain ⟨hval, hrest⟩ := State.windowWrite_spec hs t (P.PT (s.get P.TLDP F.TLD_PT_PTR_ENTRY)) F.TLD_PT_CTL.off
      (mergeBits_lt 0xC000000F (s.stagedReg_lt _ _) v.isLt) P.TLDP (s.get P.TLDP F.TLD_PT_PTR_ENTRY + 1) F.TLD_PT_PTR_INC
      (ptr := F.TLD_PT_PTR_ENTRY) (by decide) (by decide)
    exact ⟨_, execTldPtCtlWrite_staged hw hst, hval, hrest⟩
  · obtain ⟨hval, hothers, hinc, hrest⟩ := State.windowWrite_spec hs t (P.LEND (s.get P.SCR F.SCR_LEND_PTR_GROUP)) F.SCR_LEND_DATA.off
      (mergeBits_lt (if s.get P.SCR F.SCR_LEND_PTR_GROUP < 8 then 0 else 0xFFFFFFFF) (s.stagedReg_lt _ _) v.isLt) P.SCR
      ((s.get P.SCR F.SCR_LEND_PTR_GROUP + 1) % 96) F.SCR_LEND_PTR_INC (ptr := F.SCR_LEND_PTR_GROUP) (by decide) (by decide)
    have hwrap : (s.get P.SCR F.SCR_LEND_PTR_GROUP + 1) % 96 % 2 ^ 7 = (s.get P.SCR F.SCR_LEND_PTR_GROUP + 1) % 96 := by omega
    refine ⟨_, execScrLendDataWrite_staged hw hst hg, fun h8 => hval.trans ?_, fun h8 => hval.trans ?_, hothers,
      fun h => (hinc h).trans hwrap, hrest⟩
    · rw [if_neg (by omega), mergeBits_all _ v.isLt]
    · rw [if_pos h8, mergeBits_none _ (s.stagedReg_lt _ _)]

end Sys2Proof.Machine
end

section
/-!
SUPPORT. Arming (R201, R233): what an ARM that fails, passes or finds the module busy shows, and what the arming sets when it takes
effect.
-/
namespace Sys2Proof.Machine

/-- The registers of ACQ that show an arming: ARM_STATUS, ACQ_STAT and REC_NUM. -/
def armKey : Nat → Bool := keysOf (pageKeys P.ACQ [F.ACQ_ARM_STATUS.off, F.ACQ_STAT.off, F.ACQ_REC_NUM.off])

theorem offPage_armKey {p : Nat} (hp : p ≠ P.ACQ) : offPage armKey p := offPage_keysOf (by decide) hp.symm

theorem State.isArmed_of_shown {s u : State} (h : u.shown armKey = s.shown armKey) : u.isArmed = s.isArmed :=
  congrArg (· == 1) (State.get_congr (State.reg_of_shown h (by decide)))

theorem armPart_eq {s u : State} (h : u.armPart = s.armPart) :
    u.run = s.run ∧ u.acq.armSlot = s.acq.armSlot ∧ u.acq.armAt = s.acq.armAt ∧ u.gmb = s.gmb := by
  simpa only [State.armPart, Prod.mk.injEq] using h

/-! ### The arming takes effect -/

theorem State.beginRecord_armed {s : State} (hs : s.Canon) (slot segment : Nat) (old : AcqState) :
    (s.beginRecord slot segment old).isArmed = true ∧ (s.beginRecord slot segment old).armPart = (s.run, slot, none, s.gmb) := by
  obtain ⟨v, hv⟩ : ∃ v, v = s.beginRecord slot segment old := ⟨_, rfl⟩
  rw [← hv]
  unfold State.beginRecord at hv
  extract_lets -underBinder -merge +onlyGivenNames x1 kept fresh x2 x3 x4 x5 x6 x7 x8 at hv
  have hfresh : Keeps s x2 := State.modAcq_keeps (State.setReg_keeps (.refl s) ..) _
  have hpart : x2.armPart = (s.run, slot, none, s.gmb) := rfl
  clear_value x2
  have hgone : Keeps s x6 := State.put64_keeps (State.put64_keeps (State.put64_keeps (State.put64_keeps hfresh ..) ..) ..) ..
  have hpart6 : x6.armPart = x2.armPart := by simp [x6, x5, x4, x3]
  clear_value x6
  have hrings : Keeps s x7 := State.each_keeps hgone fun _ h _ => State.put_keeps (State.put_keeps h ..) ..
  have hpart8 : x8.armPart = x6.armPart := by simp [x8, x7]
  clear_value x7
  have hR := offPage_armKey (p := P.RFQ) (by decide)
  have hA := offPage_armKey (p := P.ACT) (by decide)
  have harmed : x8.isArmed = true := State.getB_putB (hrings.canon hs).active _ _ _ _ rfl (by decide)
  clear_value x8
  have hshown : v.shown armKey = x8.shown armKey := by
    rw [hv]
    refine (State.each_shown _ fun u i hi => State.refreshRfq_shown u hR (List.mem_range.1 hi)).trans ?_
    simp [State.endActivity_shown, State.each_shown, hA]
  have hkept : v.armPart = x8.armPart := by
    rw [hv]
    simp
  exact ⟨(State.isArmed_of_shown hshown).trans harmed, by rw [hkept, hpart8, hpart6, hpart]⟩

theorem State.ladderStart_shown (s : State) (slot : Nat) : (s.ladderStart slot).shown armKey = s.shown armKey := by
  have hG := offPage_armKey (p := P.GMB) (by decide)
  have hT := offPage_armKey (p := P.TLD) (by decide)
  have hgone (u : State) (f : GmbState → GmbState) : (u.modGmb f).shown armKey = u.shown armKey := rfl
  simp +decide [State.ladderStart, State.gmbShow_shown, hG, hT, hgone]
  rfl

/-- The run state and the record's slots stay, and the ladder runs on rung 0. -/
theorem State.ladderStart_spec (s : State) (slot : Nat) : let u := s.ladderStart slot
    u.gmb.running = true ∧ u.gmb.ladder.rung = 0 ∧ u.run = s.run ∧ u.acq.armSlot = s.acq.armSlot ∧ u.acq.armAt = s.acq.armAt := by
  obtain ⟨u, hu⟩ : ∃ u, u = s.ladderStart slot := ⟨_, rfl⟩
  rw [← hu]
  unfold State.ladderStart at hu
  extract_lets -underBinder -merge +onlyGivenNames x1 x2 x3 at hu
  have hpart : u.armPart = x3.armPart := by
    rw [hu]
    simp
  obtain ⟨hrun, hslot, hat, hgmb⟩ := armPart_eq hpart
  exact ⟨congrArg GmbState.running hgmb, congrArg (·.ladder.rung) hgmb, hrun, hslot, hat⟩

/-- Another bit of ACQ_STAT leaves ARMED as it is. -/
theorem State.isArmed_putB {s : State} (hs : s.ActiveWf) (f : Fld) (hat : F.ACQ_STAT_ARMED.at 0 = f.at 0) (hf : f.lo = f.hi)
    (hhi : f.hi < 31) (b : Bool) : (s.putB P.ACQ f b).isArmed = s.isArmed :=
  State.getB_putB_field hs P.ACQ f F.ACQ_STAT_ARMED b hat hf (by omega) (.inr hhi)

theorem State.acqShow_isArmed {s : State} (hs : s.ActiveWf) : s.acqShow.isArmed = s.isArmed := by
  obtain ⟨u, hu⟩ : ∃ u, u = s.acqShow := ⟨_, rfl⟩
  rw [← hu]
  unfold State.acqShow at hu
  extract_lets -underBinder -merge +onlyGivenNames a held st x1 x2 x3 x4 at hu
  have hw1 : x1.ActiveWf := State.setReg_wf hs ..
  have hheld : (x1.putB P.ACQ F.ACQ_STAT_FIRE_HELD held).ActiveWf := State.putB_wf hw1 ..
  have hw2 : x2.ActiveWf := State.putB_wf hheld ..
  have hw3 : x3.ActiveWf := State.putB_wf hw2 ..
  calc u.isArmed
    _ = x4.isArmed := State.isArmed_of_shown (by rw [hu]; simp +decide)
    _ = x3.isArmed := State.isArmed_putB hw3 F.ACQ_STAT_READER rfl rfl (by decide) _
    _ = x2.isArmed := State.isArmed_putB hw2 F.ACQ_STAT_COLLAR_FULL rfl rfl (by decide) _
    _ = (x1.putB P.ACQ F.ACQ_STAT_FIRE_HELD held).isArmed := State.isArmed_putB hheld F.ACQ_STAT_FIRED rfl rfl (by decide) _
    _ = x1.isArmed := State.isArmed_putB hw1 F.ACQ_STAT_FIRE_HELD rfl rfl (by decide) _
    _ = s.isArmed := State.isArmed_of_shown (State.setBlockState_shown s (by decide) _)

/-- READY becomes ARMED; another run state stays. -/
def State.armedFromReady (s : State) : State := if s.run = .ready then { s with run := .armed } else s

/-- The module in which the record of an arming begins: the streams are empty and READY has become ARMED. -/
def State.armReady (s : State) : State :=
  let s := State.armedFromReady { s.dropRecordJob with streams := List.replicate 22 StreamQ.empty }
  s.put P.RFQ F.RFQ_SPLIT s.splitMask

/-- What follows once the record has begun at `slot`. -/
def State.recordBegun (s : State) (slot : Nat) : State :=
  ((((s.dealLanes s.enabledStreams).rfqState).ladderStart slot).acqShow).storeShow

theorem State.armedFromReady_keeps {a s : State} (h : Keeps a s) : Keeps a s.armedFromReady :=
  Keeps.ite (.same h rfl rfl rfl rfl rfl rfl rfl) h

theorem State.armReady_keeps (s : State) : Keeps s s.armReady := by
  have hempty : Keeps s { s.dropRecordJob with streams := List.replicate 22 StreamQ.empty } :=
    .same (State.dropRecordJob_keeps (.refl s)) rfl rfl rfl rfl rfl rfl rfl
  exact State.put_keeps (State.armedFromReady_keeps hempty) ..

theorem State.armedFromReady_run (s : State) : s.armedFromReady.run = if s.run = .ready then .armed else s.run := by
  unfold State.armedFromReady
  split <;> rfl

theorem State.armReady_run (s : State) : s.armReady.run = if s.run = .ready then .armed else s.run := by
  obtain ⟨hrun, -⟩ := armPart_eq s.dropRecordJob_armPart
  rw [← hrun]
  exact State.armedFromReady_run { s.dropRecordJob with streams := List.replicate 22 StreamQ.empty }

theorem State.recordBegun_spec {s : State} (hs : s.Canon) (slot : Nat) : let u := s.recordBegun slot
    u.isArmed = s.isArmed ∧ u.gmb.running = true ∧ u.gmb.ladder.rung = 0 ∧ u.run = s.run ∧ u.acq.armSlot = s.acq.armSlot ∧
      u.acq.armAt = s.acq.armAt := by
  have hoff {p : Nat} (hp : p ≠ P.ACQ) := offPage_armKey hp
  obtain ⟨d, hd⟩ : ∃ d, d = (s.dealLanes s.enabledStreams).rfqState := ⟨_, rfl⟩
  have hdeal : d.armPart = s.armPart := by simp [hd]
  have hdealt : d.isArmed = s.isArmed := State.isArmed_of_shown (by
    rw [hd, State.rfqState_shown _ (hoff (by decide)), State.dealLanes_shown _ (hoff (by decide))])
  have hkeeps : Keeps s (d.ladderStart slot) :=
    State.ladderStart_keeps (hd ▸ State.rfqState_keeps (State.dealLanes_keeps (.refl s) _)) slot
  obtain ⟨hrunning, hrung, hrun, hslot, hat⟩ := d.ladderStart_spec slot
  have hbegun : s.recordBegun slot = (d.ladderStart slot).acqShow.storeShow := by rw [hd]; rfl
  have hshow : (s.recordBegun slot).armPart = (d.ladderStart slot).armPart := by simp [hbegun]
  obtain ⟨hrun', hslot', hat', -⟩ := armPart_eq hdeal
  obtain ⟨hrun'', hslot'', hat'', hgmb⟩ := armPart_eq hshow
  refine ⟨?_, by rw [hgmb, hrunning], by rw [hgmb, hrung], by rw [hrun'', hrun, hrun'], by rw [hslot'', hslot, hslot'],
    by rw [hat'', hat, hat']⟩
  calc (s.recordBegun slot).isArmed
    _ = (d.ladderStart slot).acqShow.isArmed :=
        State.isArmed_of_shown (by rw [hbegun, State.storeShow_shown _ (hoff (by decide)) (hoff (by decide))])
    _ = (d.ladderStart slot).isArmed := State.acqShow_isArmed (hkeeps.canon hs).active
    _ = d.isArmed := State.isArmed_of_shown (d.ladderStart_shown slot)
    _ = s.isArmed := hdealt

/-- Whether an arming for slot `a` waits at slot `t`: it is early, or a commit of the ladder or the outputs is pending. -/
def State.armWaits (s : State) (t a : Nat) : Prop :=
  t < a ∨ [P.TLD, P.TLDC, P.TLDP, P.TLDT, P.ACT].any (fun p => s.pendGroups p != 0) = true

theorem State.not_armWaits {s : State} {t a : Nat} (hat : a ≤ t)
    (hpend : ∀ p ∈ [P.TLD, P.TLDC, P.TLDP, P.TLDT, P.ACT], s.pendGroups p = 0) : ¬s.armWaits t a := by
  rintro (h | h)
  · omega
  · obtain ⟨p, hp, hne⟩ := List.any_eq_true.1 h
    exact bne_iff_ne.1 hne (hpend p hp)

theorem execArmingTakesEffect_due {s : State} {t a : Nat} (ha : s.acq.armAt = some a) (hdue : ¬s.armWaits t a) :
    exec (.armingTakesEffect t) s =
      .next (((s.at t).armReady.beginRecord (Nat.max a (plyStart t)) 0 (s.at t).armReady.acq).recordBegun (Nat.max a (plyStart t))) := by
  show execArmingTakesEffect t s = _
  unfold execArmingTakesEffect
  dsimp only
  rw [show (s.at t).acq.armAt = some a from ha]
  exact if_neg hdue

theorem execArmingTakesEffect_waits {s : State} {t a : Nat} (ha : s.acq.armAt = some a) (hwait : s.armWaits t a) :
    exec (.armingTakesEffect t) s = .next (s.at t) := by
  show execArmingTakesEffect t s = _
  unfold execArmingTakesEffect
  dsimp only
  rw [show (s.at t).acq.armAt = some a from ha]
  exact if_pos hwait

theorem execArmingTakesEffect_none {s : State} {t : Nat} (ha : s.acq.armAt = none) : exec (.armingTakesEffect t) s = .next (s.at t) := by
  show execArmingTakesEffect t s = _
  unfold execArmingTakesEffect
  dsimp only
  rw [show (s.at t).acq.armAt = none from ha]

/-- What the module shows and holds after ARMING_TAKES_EFFECT. -/
theorem State.armReady_begun {s : State} (hs : s.Canon) (slot : Nat) :
    let u := (s.armReady.beginRecord slot 0 s.armReady.acq).recordBegun slot
    u.isArmed = true ∧ u.acq.armSlot = slot ∧ u.acq.armAt = none ∧ u.gmb.running = true ∧ u.gmb.ladder.rung = 0 ∧
      u.run = if s.run = .ready then .armed else s.run := by
  obtain ⟨b, hb⟩ : ∃ b, b = s.armReady.beginRecord slot 0 s.armReady.acq := ⟨_, rfl⟩
  have hready := s.armReady_keeps.canon hs
  obtain ⟨harmed, hpart⟩ := State.beginRecord_armed hready slot 0 s.armReady.acq
  have hcanon : b.Canon := hb ▸ (State.beginRecord_keeps (.refl _) slot 0 s.armReady.acq).canon hready
  rw [← hb] at harmed hpart ⊢
  simp only [State.armPart, Prod.mk.injEq] at hpart
  obtain ⟨hrun, hslot, hat, -⟩ := hpart
  obtain ⟨harmed', hrunning, hrung, hrun', hslot', hat'⟩ := State.recordBegun_spec hcanon slot
  exact ⟨harmed'.trans harmed, hslot'.trans hslot, hat'.trans hat, hrunning, hrung, hrun'.trans (hrun.trans s.armReady_run)⟩

/-! ### The checks -/

section arm
variable {s : State} {t : Nat} {v : Word}

theorem execArm_unset (h : bitOf v.toNat 0 = false) : exec (.arm t v) s = .next (s.at t) := by
  show execArm t v s = _
  unfold execArm
  exact if_pos (.inl (by rw [h]; rfl))

/-- A module in no cascade and no pair arms for itself alone. -/
theorem execArm_alone (hset : bitOf v.toNat 0 = true) (hstop : bitOf v.toNat 1 = false) (hsolo : s.role = C.SOLO)
    (hdup : s.duplex = false) : exec (.arm t v) s =
      if s.isArmed = true ∨ s.acq.armAt.isSome = true then .next ((s.at t).put P.ACQ F.ACQ_ARM_STATUS_RESULT 5)
      else .next ((s.at t).tryArm (nextPly t)).1 := by
  have hopen : ¬(!bitOf v.toNat 0 ∨ bitOf v.toNat 1) := by simp [hset, hstop]
  have hrole : (s.at t).role = C.SOLO := hsolo
  have hpair : (s.at t).duplex = false := hdup
  have hmine : ¬(s.at t).armIgnored = true := by simp [State.armIgnored, State.secondary, hpair]
  show execArm t v s = _
  unfold execArm
  refine (if_neg hopen).trans ((if_neg hmine).trans (if_congr .rfl rfl ?_))
  simp [hrole, hpair]

theorem execArm_busy (hset : bitOf v.toNat 0 = true) (hstop : bitOf v.toNat 1 = false) (hsolo : s.role = C.SOLO)
    (hdup : s.duplex = false) (hbusy : s.isArmed = true ∨ s.acq.armAt ≠ none) :
    exec (.arm t v) s = .next ((s.at t).put P.ACQ F.ACQ_ARM_STATUS_RESULT 5) :=
  (execArm_alone hset hstop hsolo hdup).trans (if_pos (hbusy.imp_right Option.isSome_iff_ne_none.2))

theorem execArm_tries (hset : bitOf v.toNat 0 = true) (hstop : bitOf v.toNat 1 = false) (hsolo : s.role = C.SOLO)
    (hdup : s.duplex = false) (hidle : s.isArmed = false) (hnone : s.acq.armAt = none) :
    exec (.arm t v) s = .next ((s.at t).tryArm (nextPly t)).1 :=
  (execArm_alone hset hstop hsolo hdup).trans (if_neg (by simp [hidle, hnone]))

end arm

/-- A failing check is shown and raises its event; nothing else changes. -/
theorem State.tryArm_fails {s : State} (hs : s.ActiveWf) {c w : Nat} (h : s.armCheck = some (c, w)) (slot : Nat) :
    let u := (s.tryArm slot).1
    u.reg P.ACQ F.ACQ_ARM_STATUS.off = (4 * 2 ^ 24 + c * 2 ^ 16 + w * 2 ^ 8) % 2 ^ 32 ∧ u.acq = s.acq ∧
      RegsBut [rkey P.ACQ F.ACQ_ARM_STATUS.off, rkey P.ACQ H.PEND] s u := by
  have htry : (s.tryArm slot).1 = (s.armResult 4 c w false false).pulse P.ACQ 1 := by rw [State.tryArm, h]
  have hshown : ((s.armResult 4 c w false false).pulse P.ACQ 1).shown armKey = (s.armResult 4 c w false false).shown armKey := by
    simp +decide
  rw [htry]
  refine ⟨?_, ?_, ((RegsBut.refl _ s).set (by decide) _).pulsed (by decide) 1⟩
  · rw [State.reg_of_shown hshown (by decide), State.armResult, State.reg_setReg hs, if_pos rfl]
    rfl
  · simp [State.armResult]

theorem State.ringSizes_lt {s : State} {e : Nat × Nat} (he : e ∈ s.ringSizes) : e.1 < 22 := by
  obtain ⟨i, hi, rfl⟩ := List.mem_map.1 he
  exact List.mem_range.1 (List.mem_filter.1 hi).1

/-- The bases laid one after the other stand on page ACQX. -/
theorem layBases_shown {l : List (Nat × Nat)} (hl : ∀ e ∈ l, e.1 < 22) (q : State × Nat) :
    (l.foldl (fun (q : State × Nat) e => (q.1.setReg P.ACQX (F.ACQ_RING_BASE.at e.1) (2 ^ 31 + q.2), q.2 + e.2)) q).1.shown armKey =
      q.1.shown armKey := by
  have hX := offPage_armKey (p := P.ACQX) (by decide)
  induction l generalizing q with
  | nil => rfl
  | cons e r ih =>
    have he : e.1 < 64 := Nat.lt_trans (hl e (List.mem_cons_self ..)) (by decide)
    exact (ih (fun e he => hl e (List.mem_cons_of_mem _ he)) _).trans (State.setReg_shown q.1 (hX.at he (by decide)) _)

theorem State.layRings_shown (s : State) : s.layRings.shown armKey = s.shown armKey := by
  have hX := offPage_armKey (p := P.ACQX) (by decide)
  have hring : ∀ i ∈ List.range 22, i < 64 := by decide
  refine (layBases_shown (fun e he => State.ringSizes_lt he) _).trans (State.each_shown s fun u i hi => ?_)
  simp +decide [hX.at (hring i hi)]

theorem State.spanSlots_regs (s : State) (v : Nat) : (s.spanSlots v).2.regs = s.regs := by
  dsimp only [State.spanSlots]
  (repeat' split) <;> rfl

theorem State.grants_regs (s : State) : s.grants.2.regs = s.regs := by
  dsimp only [State.grants]
  (repeat' split) <;> simp [State.spanSlots_regs]

theorem State.armResult_pass {s : State} (hs : s.ActiveWf) (clip cut : Bool) :
    (s.armResult 0 0 0xFF clip cut).get P.ACQ F.ACQ_ARM_STATUS_RESULT = 0 := by
  show bits ((s.armResult 0 0 0xFF clip cut).reg P.ACQ F.ACQ_ARM_STATUS.off) 31 24 = 0
  rw [State.armResult, State.reg_setReg hs, if_pos rfl]
  cases clip <;> cases cut <;> rfl

/-- A pass is shown, the record is numbered, and the arming is to take effect at `slot`. -/
theorem State.armPass_spec {s : State} (hs : s.Canon) (slot : Nat) : let u := s.armPass slot
    u.get P.ACQ F.ACQ_ARM_STATUS_RESULT = 0 ∧ u.acq.armAt = some slot ∧
      u.get P.ACQ F.ACQ_REC_NUM = (s.get P.ACQ F.ACQ_REC_NUM + 1) % 2 ^ 32 ∧ u.isArmed = s.isArmed := by
  obtain ⟨u, hu⟩ : ∃ u, u = s.armPass slot := ⟨_, rfl⟩
  rw [← hu]
  rcases hg : s.grants with ⟨⟨lc, lu, cut, clip⟩, w⟩
  have hregs : w.regs = s.regs := by rw [← s.grants_regs, hg]
  have hw : w.ActiveWf := by rw [State.ActiveWf, hregs]; exact hs.active
  have hreg (p o : Nat) : w.reg p o = s.reg p o := State.reg_congr (congrArg _ hregs) p o
  unfold State.armPass at hu
  rw [hg] at hu
  dsimp only at hu
  obtain ⟨x, hx⟩ : ∃ x, x = w.armResult 0 0 0xFF clip cut := ⟨_, rfl⟩
  have hxw : x.ActiveWf := hx ▸ State.setReg_wf hw ..
  have hshown : u.shown armKey = (x.wrap P.ACQ F.ACQ_REC_NUM).shown armKey := by
    rw [hu, hx]
    simp +decide [State.layRings_shown, State.endActivity_shown, offPage_armKey]
  have hget {f : Fld} (hf : armKey (rkey P.ACQ (f.at 0)) = true) := State.get_congr (f := f) (State.reg_of_shown hshown hf)
  have hother {f : Fld} (hf : rkey P.ACQ (f.at 0) ≠ rkey P.ACQ F.ACQ_ARM_STATUS.off) : x.get P.ACQ f = s.get P.ACQ f :=
    State.get_congr (by rw [hx, State.armResult, State.reg_setReg hw, if_neg hf, hreg])
  refine ⟨?_, by rw [hu]; rfl, ?_, ?_⟩
  · rw [hget (by decide), State.wrap, State.get_put_ne hxw _ _ _ _ _ _ _ (by decide), hx, State.armResult_pass hw]
  · rw [hget (by decide), State.wrap, State.get_put hxw _ _ _ _ (by decide) (by decide), hother (by decide)]
    rfl
  · unfold State.isArmed State.getB
    rw [hget (by decide), State.wrap, State.get_put_ne hxw _ _ _ _ _ _ _ (by decide), hother (by decide)]

theorem OnlyActive.put (s : State) (p : Nat) (f : Fld) (v i : Nat) : OnlyActive s (s.put p f v i) := rfl

/-- Settles O39: `State.tryArm` for an ARM of a module alone, `State.armReady_begun` for the arming that takes effect. BUSY for an ARM
while an arming waits, and SAFE that stays, are log entry 30 (DEDUCED). -/
theorem armingAndItsChecks : Obligations.ArmingAndItsChecks := by
  intro s t v hs hsolo hdup
  refine ⟨fun hset hstop => ⟨fun hidle hnone => ⟨fun c w hcheck => ?_, fun hcheck => ?_⟩, fun hbusy => ?_⟩, execArm_unset,
    fun a ha => ⟨fun hat hpend => ?_, fun hat => execArmingTakesEffect_waits ha (.inl hat)⟩, execArmingTakesEffect_none⟩
  · obtain ⟨hshow, hacq, hregs⟩ := State.tryArm_fails (s := s.at t) hs.active hcheck (nextPly t)
    exact ⟨_, execArm_tries hset hstop hsolo hdup hidle hnone, hshow, hacq, hregs⟩
  · obtain ⟨hresult, hat, hnum, harmed⟩ := State.armPass_spec (s := s.at t) hs (nextPly t)
    have hpass : (s.at t).tryArm (nextPly t) = ((s.at t).armPass (nextPly t), none) := by rw [State.tryArm, hcheck]
    exact ⟨_, (execArm_tries hset hstop hsolo hdup hidle hnone).trans (by rw [hpass]), hresult, hat, hnum, harmed.trans hidle⟩
  · refine ⟨_, execArm_busy hset hstop hsolo hdup hbusy, ?_, ?_, OnlyActive.put (s.at t) P.ACQ F.ACQ_ARM_STATUS_RESULT 5 0⟩
    · exact (State.get_put (s := s.at t) hs.active P.ACQ F.ACQ_ARM_STATUS_RESULT 5 0 (by decide) (by decide)).trans rfl
    · exact (RegsBut.refl _ (s.at t)).put (f := F.ACQ_ARM_STATUS_RESULT) (by decide) _
  · obtain ⟨harmed, hslot, hnone, hrunning, hrung, hrun⟩ := State.armReady_begun (s := s.at t) hs (Nat.max a (plyStart t))
    exact ⟨_, execArmingTakesEffect_due ha (State.not_armWaits hat hpend), harmed, hslot, hnone, hrunning, hrung,
      fun h => hrun.trans (if_pos h), fun h => hrun.trans (if_neg h)⟩

end Sys2Proof.Machine
end

section
/-!
SUPPORT. What items, tokens, faults, window comparators, records being stored, the record's trigger and held effects leave of the gambit
(R221, R229, R232): its working state, and the count of overruns.
-/
namespace Sys2Proof.Machine
variable (s : State)

/-! ### What is watched -/

/-- The register that counts overruns. -/
def overrunKey : Nat → Bool := keysOf (pageKeys P.GMB [F.GMB_OVERRUN_CNT.off])

/-- The gambit's working state, and the count of its overruns. -/
def State.gambit (s : State) : GmbState × List (Nat × Word) := (s.gmb, s.shown overrunKey)

theorem offPage_overrunKey {p : Nat} (hp : p ≠ P.GMB) : offPage overrunKey p := offPage_keysOf (by decide) hp.symm

section projections
variable {s} {u : State}

theorem State.gambit_of_parts (hg : u.gmb = s.gmb) (hr : u.shown overrunKey = s.shown overrunKey) : u.gambit = s.gambit :=
  Prod.ext hg hr

theorem State.gambit_parts {g : GmbState} {r : List (Nat × Word)} (h : u.gambit = (g, r)) : u.gmb = g ∧ u.shown overrunKey = r :=
  Prod.mk.inj h

theorem State.gmb_of_gambit (h : u.gambit = s.gambit) : u.gmb = s.gmb := congrArg Prod.fst h
theorem State.shown_of_gambit (h : u.gambit = s.gambit) : u.shown overrunKey = s.shown overrunKey := congrArg Prod.snd h

theorem State.overruns_of_shown (h : u.shown overrunKey = s.shown overrunKey) :
    u.get P.GMB F.GMB_OVERRUN_CNT = s.get P.GMB F.GMB_OVERRUN_CNT :=
  State.get_congr (State.reg_of_shown h (by decide))

/-- The gambit and its page belong to the front. -/
theorem State.gambit_of_front (h : u.front = s.front) : u.gambit = s.gambit := by
  have himp (e : Nat × Word) : (overrunKey e.1 && frontKey e.1) = overrunKey e.1 := by
    cases hk : overrunKey e.1
    · rfl
    · have : e.1 = rkey P.GMB F.GMB_OVERRUN_CNT.off := by
        simpa [overrunKey, keysOf, pageKeys] using hk
      rw [this]
      decide
  have hcut (x : State) : x.shown overrunKey = x.front.shown overrunKey := by
    simp [State.shown, State.front, List.filter_filter, himp]
  exact State.gambit_of_parts (congrArg (·.gmb) h) (by rw [hcut u, hcut s, h])

end projections

/-! ### Registers and events -/

section registers
variable {p i : Nat} {f : Fld} (h : overrunKey (rkey p (f.at i)) = false)
include h

@[simp] theorem State.put_gambit (v) : (s.put p f v i).gambit = s.gambit := State.gambit_of_parts rfl (State.put_shown s h v)
@[simp] theorem State.putB_gambit (b) : (s.putB p f b i).gambit = s.gambit := State.gambit_of_parts rfl (State.putB_shown s h b)
@[simp] theorem State.sat_gambit (n) : (s.sat p f n i).gambit = s.gambit := State.gambit_of_parts rfl (State.sat_shown s h n)
@[simp] theorem State.wrap_gambit (n) : (s.wrap p f n i).gambit = s.gambit := State.gambit_of_parts rfl (State.wrap_shown s h n)

@[simp] theorem State.put64_gambit {l : Fld} (hl : overrunKey (rkey p (l.at i)) = false) (v) : (s.put64 p l f v i).gambit = s.gambit :=
  State.gambit_of_parts rfl (State.put64_shown s hl h v)

end registers

@[simp] theorem State.setBlockState_gambit {p : Nat} (h : overrunKey (rkey p H.STAT) = false) (c) :
    (s.setBlockState p c).gambit = s.gambit := State.gambit_of_parts rfl (State.setBlockState_shown s h c)

@[simp] theorem State.pulse_gambit {p : Nat} (h : overrunKey (rkey p H.PEND) = false) (b) : (s.pulse p b).gambit = s.gambit :=
  State.gambit_of_parts (by simp) (State.pulse_shown s h b)

@[simp] theorem State.level_gambit {p : Nat} (hr : overrunKey (rkey p H.RAW) = false) (hp : overrunKey (rkey p H.PEND) = false) (b v) :
    (s.level p b v).gambit = s.gambit := State.gambit_of_parts (by simp) (State.level_shown s hr hp b v)

/-! ### Working state of other blocks -/

/-- The parentheses keep simp from rewriting with these by definition. -/
@[simp] theorem State.emit_gambit (o) : (s.emit o).gambit = s.gambit := (rfl)
@[simp] theorem State.modStream_gambit (i f) : (s.modStream i f).gambit = s.gambit := (rfl)
@[simp] theorem State.modAcq_gambit (f) : (s.modAcq f).gambit = s.gambit := (rfl)
@[simp] theorem State.modConv_gambit (n f) : (s.modConv n f).gambit = s.gambit := (rfl)
@[simp] theorem State.modStore_gambit (f) : (s.modStore f).gambit = s.gambit := (rfl)
@[simp] theorem State.bumpSeq_gambit (type) : (s.bumpSeq type).gambit = s.gambit := (rfl)
@[simp] theorem State.run_gambit (r) : State.gambit { s with run := r } = s.gambit := (rfl)
@[simp] theorem State.wins_gambit (l) : State.gambit { s with wins := l } = s.gambit := (rfl)
@[simp] theorem State.injDue_gambit (l) : State.gambit { s with injDue := l } = s.gambit := (rfl)

@[simp] theorem State.gambit_ite (c : Prop) [Decidable c] (x y : State) :
    (if c then x else y).gambit = if c then x.gambit else y.gambit := apply_ite ..

theorem State.each_gambit_of_mem {α : Type} {l : List α} {f : State → α → State}
    (h : ∀ s, ∀ x ∈ l, (f s x).gambit = s.gambit) : (s.each l f).gambit = s.gambit := by
  induction l generalizing s with
  | nil => rfl
  | cons x r ih => exact (ih (f s x) fun s y hy => h s y (List.mem_cons_of_mem _ hy)).trans (h s x (List.mem_cons_self ..))

/-- The hypothesis names the state after a turn, so that the kernel compares two spellings of the turn itself. -/
@[simp] theorem State.each_gambit {α : Type} (l : List α) (f : State → α → State)
    (h : ∀ s x u, f s x = u → u.gambit = s.gambit) : (s.each l f).gambit = s.gambit := State.each_gambit_of_mem s fun s x _ => h s x _ rfl

/-! ### Items, tokens and outputs -/

@[simp] theorem State.recFlag_gambit (b) : (s.recFlag b).gambit = s.gambit := State.gambit_of_front (by simp)
@[simp] theorem State.note_gambit (kind slot unit val extra) : (s.note kind slot unit val extra).gambit = s.gambit :=
  State.gambit_of_front (by simp)
@[simp] theorem State.marker_gambit (code subject slot params ply) : (s.marker code subject slot params ply).gambit = s.gambit :=
  State.gambit_of_front (by simp)
@[simp] theorem State.sendPort_gambit (p k) : (s.sendPort p k).gambit = s.gambit := State.gambit_of_front (by simp)
@[simp] theorem State.sendRing_gambit (k) : (s.sendRing k).gambit = s.gambit := by simp [State.sendRing]
@[simp] theorem State.sendSeam_gambit (kind low w1 w2 w3) : (s.sendSeam kind low w1 w2 w3).gambit = s.gambit :=
  State.gambit_of_front (by simp)
@[simp] theorem State.setActive_gambit (n b stop slot) : (s.setActive n b stop slot).gambit = s.gambit :=
  State.gambit_of_front (by simp +decide [State.setActive])

/-! ### Window comparators and sums -/

@[simp] theorem State.setWin_gambit (w slot out) : (s.setWin w slot out).gambit = s.gambit := by simp +decide [State.setWin]
@[simp] theorem State.windowTakes_gambit (w r) : (s.windowTakes w r).gambit = s.gambit := by simp [State.windowTakes]
@[simp] theorem State.windowsTake_gambit (n r) : (s.windowsTake n r).gambit = s.gambit := by simp [State.windowsTake]

@[simp] theorem State.accumulate_gambit (c r) : (s.accumulate c r).gambit = s.gambit := by
  unfold State.accumulate
  extract_lets i inAcc summed recent paired h l
  have hsummed : summed.gambit = s.gambit := by
    dsimp only [summed]
    split <;> rfl
  have hpaired : paired.gambit = s.gambit := by
    refine (State.each_gambit recent _ _ fun s p u hu => ?_).trans hsummed
    subst hu
    extract_lets a o
    split
    · split <;> rfl
    · rfl
  split
  · rfl
  · split
    · rfl
    · split
      · rfl
      · split
        · exact hpaired
        · split <;> exact hpaired

@[simp] theorem State.resolveHold_gambit (n release) : (s.resolveHold n release).gambit = s.gambit := by
  dsimp only [State.resolveHold]
  split <;> simp

/-! ### Records being stored -/

@[simp] theorem State.modThread_gambit (i f) : (s.modThread i f).gambit = s.gambit :=
  State.gambit_of_parts (armPart_eq (s.modThread_armPart i f)).2.2.2 (s.modThread_shown i f)

@[simp] theorem State.storeShow_gambit : s.storeShow.gambit = s.gambit :=
  State.gambit_of_parts (armPart_eq s.storeShow_armPart).2.2.2
    (s.storeShow_shown (offPage_overrunKey (by decide)) (offPage_overrunKey (by decide)))

@[simp] theorem State.releaseExtents_gambit (sel) : (s.releaseExtents sel).gambit = s.gambit := by simp [State.releaseExtents]
@[simp] theorem State.modJob_gambit (op f) : (s.modJob op f).gambit = s.gambit := by simp [State.modJob]
@[simp] theorem State.issueTable_gambit (slot c) : (s.issueTable slot c).gambit = s.gambit := by simp [State.issueTable]

@[simp] theorem State.startTable_gambit : s.startTable.gambit = s.gambit := by
  dsimp only [State.startTable]
  (repeat' split) <;> simp

@[simp] theorem State.tableWrite_gambit (e) : (s.tableWrite e).gambit = s.gambit := by simp [State.tableWrite]

@[simp] theorem State.settleJob_gambit (j) : (s.settleJob j).gambit = s.gambit := by
  dsimp only [State.settleJob]
  (repeat' split) <;> simp

@[simp] theorem State.settleJobs_gambit : s.settleJobs.gambit = s.gambit := by simp [State.settleJobs]

@[simp] theorem State.discardSent_gambit : s.discardSent.gambit = s.gambit := by
  dsimp only [State.discardSent]
  split <;> simp

/-! ### The trigger of the record -/

theorem overrunKey_at {p i : Nat} {f : Fld} (hp : p ≠ P.GMB) (hi : i < 64) (hf : f.off + f.stride * 63 < 0x1000) :
    overrunKey (rkey p (f.at i)) = false := (offPage_overrunKey hp).at hi hf

@[simp] theorem State.acqShow_gambit : s.acqShow.gambit = s.gambit := by simp +decide [State.acqShow]
@[simp] theorem State.decideStep_gambit (i k slot) : (s.decideStep i k slot).gambit = s.gambit := by simp [State.decideStep]

@[simp] theorem State.protShow_gambit (on) : (s.protShow on).gambit = s.gambit := by
  refine (State.each_gambit_of_mem _ fun s i hi => ?_).trans (State.putB_gambit s (by decide) on)
  have := List.mem_range.1 hi
  exact State.putB_gambit s (overrunKey_at (by decide) (by omega) (by decide)) _

@[simp] theorem State.protOpen_gambit (slot fire) : (s.protOpen slot fire).gambit = s.gambit := by
  dsimp only [State.protOpen]
  split <;> simp

@[simp] theorem State.protWithdraw_gambit (slot now) : (s.protWithdraw slot now).gambit = s.gambit := by
  dsimp only [State.protWithdraw]
  split <;> simp

@[simp] theorem State.chooseTrigger_gambit : s.chooseTrigger.gambit = s.gambit := by
  dsimp only [State.chooseTrigger]
  (repeat' split) <;> simp +decide

@[simp] theorem State.dropAfter_gambit (slot) : (s.dropAfter slot).gambit = s.gambit := by simp [State.dropAfter]
@[simp] theorem State.collarHeld_gambit : s.collarHeld.gambit = s.gambit := by simp [State.collarHeld]
@[simp] theorem State.liveClipped_gambit (last) : (s.liveClipped last).gambit = s.gambit := by simp +decide [State.liveClipped]

/-- The first chunk of each enabled stream's ring is shown. -/
theorem State.ringFirsts_gambit (start : Nat) :
    (s.each s.enabledStreams (fun s i => s.put P.ACQX F.ACQ_RING_FIRST (s.ringFirst i start) i)).gambit = s.gambit := by
  refine State.each_gambit_of_mem s fun s i hi => ?_
  have := List.mem_range.1 (List.mem_filter.1 hi).1
  exact State.put_gambit s (overrunKey_at (by decide) (by omega) (by decide)) _

@[simp] theorem State.commitTrigger_gambit (p) : (s.commitTrigger p).gambit = s.gambit := by
  unfold State.commitTrigger
  extract_lets _ _ _ _ _ _ finish _ s1 s2 s3 s4 s5 s6 s7 s8 s9 s10 s11 s12 s13 _ s14 s15 s16 s17
  have hstart : s3.gambit = s.gambit := by simp +decide [s3, s2, s1]
  have hdrop : s4.gambit = s3.gambit := by
    clear_value finish
    dsimp only [s4]
    split <;> simp +decide
  have hmid : s11.gambit = s4.gambit := by simp +decide [s11, s10, s9, s8, s7, s6, s5]
  have hclip : s12.gambit = s11.gambit := by
    clear_value finish s11
    dsimp only [s12]
    split <;> simp
  have hlast : s17.gambit = s12.gambit := by simp +decide [s17, s16, s15, s14, s13, State.ringFirsts_gambit]
  simp +decide [hlast, hclip, hmid, hdrop, hstart]

@[simp] theorem State.settleTrigger_gambit : s.settleTrigger.gambit = s.gambit := by
  dsimp only [State.settleTrigger]
  (repeat' split) <;> simp

@[simp] theorem State.ownFireCommitted_gambit (slot commitPly) : (s.ownFireCommitted slot commitPly).gambit = s.gambit := by
  simp [State.ownFireCommitted]

@[simp] theorem State.ownFireWithdrawn_gambit : s.ownFireWithdrawn.gambit = s.gambit := by simp [State.ownFireWithdrawn]

/-! ### Effects -/

@[simp] theorem State.setPaused_gambit (b full) : (s.setPaused b full).gambit = s.gambit := by simp +decide [State.setPaused]
@[simp] theorem State.gmbShow_gambit : s.gmbShow.gambit = s.gambit := by simp +decide [State.gmbShow]
@[simp] theorem State.activate_gambit (n slot) : (s.activate n slot).gambit = s.gambit := by simp [State.activate]
@[simp] theorem State.activateMask_gambit (mask slot) : (s.activateMask mask slot).gambit = s.gambit := by simp [State.activateMask]
@[simp] theorem State.activateLate_gambit (mask) : (s.activateLate mask).gambit = s.gambit := by simp +decide [State.activateLate]
@[simp] theorem State.countEffect_gambit (e) : (s.countEffect e).gambit = s.gambit := by simp +decide [State.countEffect]

@[simp] theorem State.sendFire_gambit (e twin mark prov seq commit) : (s.sendFire e twin mark prov seq commit).gambit = s.gambit := by
  simp +decide [State.sendFire]

@[simp] theorem State.confirm_gambit (e commit) : (s.confirm e commit).gambit = s.gambit := by simp [State.confirm]
@[simp] theorem State.retractOuts_gambit (e) : (s.retractOuts e).gambit = s.gambit := by simp +decide [State.retractOuts]

@[simp] theorem State.withdrawInject_gambit (from_) : (s.withdrawInject from_).gambit = s.gambit := by
  simp +decide [State.withdrawInject]

@[simp] theorem State.releaseInjections_gambit : s.releaseInjections.gambit = s.gambit := by
  dsimp only [State.releaseInjections]
  simp (disch := (rintro s x _ rfl; split <;> simp))

end Sys2Proof.Machine
end

section
/-!
SUPPORT. Effects withdrawn (R223), the record left (R514), an overrun of the ladder (R227), the settle time-out (R514) and the end of
a replay (R224): what each leaves of the gambit.
-/
namespace Sys2Proof.Machine

/-! ### Effects withdrawn, and the record left -/

/-- The gambit once the record is left: it evaluates no ply, and nothing waits for the commit point. -/
def GmbState.stopped (g : GmbState) : GmbState := { g with running := false, ckpts := [], effects := [] }

/-- The effects held before slot `m` alone. -/
def GmbState.heldBefore (g : GmbState) (m : Nat) : GmbState := { g with effects := g.effects.filter (fun e => decide (e.slot < m)) }

/-- The token that takes back one of the tokens sent for a slot, counted. -/
def State.sendRetract (s : State) (e : Effect) (k : Bool × Bool × Nat) : State :=
  let r := s.mkToken TK.RETRACT 0 (!k.1) (b2n k.2.1 * 2 ^ 8 + k.2.2) (s.aligned e.slot * 64 % 2 ^ 57) 0 0
  let s := if k.1 then s.sendPort .twin r else s.sendRing r
  (s.bumpSeq TK.RETRACT).sat P.GMB F.GMB_TOKEN_RETRACT_CNT

theorem State.sendRetract_gambit (s : State) (e : Effect) (k) : (s.sendRetract e k).gambit = s.gambit := by
  unfold State.sendRetract
  extract_lets r sent
  have hsent : sent.gambit = s.gambit := by
    dsimp only [sent]
    split <;> simp
  exact (State.sat_gambit _ (by decide) _).trans ((sent.bumpSeq_gambit _).trans hsent)

theorem State.withdraw_gambit (s : State) (m : Nat) : (s.withdraw m).gambit = (s.gmb.heldBefore m, s.shown overrunKey) := by
  unfold State.withdraw
  extract_lets gone kept retracted unfired told drop marked
  have hkept : kept.gambit = (s.gmb.heldBefore m, s.shown overrunKey) := rfl
  have hunfired : unfired.gambit = kept.gambit := by simp [unfired, retracted]
  have hslot (u : State) (e : Effect) : (u.each e.tokens fun u k => u.sendRetract e k).gambit = u.gambit :=
    State.each_gambit_of_mem u fun u k _ => u.sendRetract_gambit e k
  have htold : told = unfired.each gone fun u e => u.each e.tokens fun u k => u.sendRetract e k := rfl
  clear_value told
  have hkeeps : told.gambit = unfired.gambit := htold ▸ State.each_gambit_of_mem unfired fun u e _ => hslot u e
  have hmarked : marked.gambit = told.gambit := State.modStream_gambit ..
  rw [State.withdrawInject_gambit, hmarked, hkeeps, hunfired, hkept]

theorem State.withdraw_gmb (s : State) (m : Nat) : (s.withdraw m).gmb = s.gmb.heldBefore m :=
  (State.gambit_parts (s.withdraw_gambit m)).1

theorem State.withdraw_shown (s : State) (m : Nat) : (s.withdraw m).shown overrunKey = s.shown overrunKey :=
  (State.gambit_parts (s.withdraw_gambit m)).2

theorem State.leaveArmed_gambit (s : State) : s.leaveArmed.gambit = (s.gmb.stopped, s.shown overrunKey) := by
  unfold State.leaveArmed
  extract_lets left disarmed ready stopped shown
  have hdisarmed : disarmed.gambit = s.gambit := State.putB_gambit left (by decide) false
  clear_value disarmed
  have hready : ready.gambit = s.gambit := by
    dsimp only [ready]
    split
    · exact (disarmed.run_gambit .ready).trans hdisarmed
    · exact hdisarmed
  clear_value ready
  have hstopped : stopped.gambit = (ready.gmb.stopped, ready.shown overrunKey) := State.setPaused_gambit ..
  clear_value stopped
  have hshown : shown.gambit = stopped.gambit := State.put_gambit stopped (by decide) 0
  clear_value shown
  rw [State.acqShow_gambit, State.gmbShow_gambit, State.putB_gambit _ (by decide), hshown, hstopped, State.gmb_of_gambit hready,
    State.shown_of_gambit hready]

/-- The record is left, or nothing changes. -/
theorem State.settleArmed_gambit (s : State) :
    s.settleArmed.gambit = s.gambit ∨ s.settleArmed.gambit = (s.gmb.stopped, s.shown overrunKey) := by
  unfold State.settleArmed
  split
  · split
    · exact .inr s.leaveArmed_gambit
    · exact .inl rfl
  · exact .inl rfl

theorem State.settleArmed_gmb (s : State) : s.settleArmed.gmb = s.gmb ∨ s.settleArmed.gmb = s.gmb.stopped :=
  s.settleArmed_gambit.imp State.gmb_of_gambit fun h => (State.gambit_parts h).1

theorem State.settleArmed_shown (s : State) : s.settleArmed.shown overrunKey = s.shown overrunKey := by
  rcases s.settleArmed_gambit with h | h
  · exact State.shown_of_gambit h
  · exact (State.gambit_parts h).2

/-! ### Everything withdrawn -/

/-- The ladder stands on rung 0 before ply `p`, with nothing evaluated that is not committed. -/
structure GmbState.RestartsAt (p : Nat) (g : GmbState) : Prop where
  ckpts : g.ckpts = []
  effects : g.effects = []
  hist : g.hist = []
  next : g.next = p
  rung : g.ladder.rung = 0

theorem GmbState.RestartsAt.stopped {p : Nat} {g : GmbState} (h : g.RestartsAt p) : g.stopped.RestartsAt p :=
  ⟨rfl, rfl, h.hist, h.next, h.rung⟩

theorem State.withdrawAll_spec (s : State) (restart : Nat) (gap : Bool) :
    (s.withdrawAll restart gap).gmb.RestartsAt restart ∧ (s.withdrawAll restart gap).shown overrunKey = s.shown overrunKey := by
  unfold State.withdrawAll
  extract_lets from_ withdrawn marked l restarted
  have hwithdrawn : withdrawn.shown overrunKey = s.shown overrunKey := s.withdraw_shown (32 * from_)
  clear_value withdrawn
  have hmarked : marked.shown overrunKey = s.shown overrunKey := by
    have hgap : marked.gambit = withdrawn.gambit := by
      dsimp only [marked]
      split <;> simp
    exact (State.shown_of_gambit hgap).trans hwithdrawn
  have hlast (u : State) (b full) : ((u.setPaused b full).putB P.GMB F.GMB_STAT_REPLAYING false).gambit = u.gambit := by
    simp +decide
  refine ⟨?_, (State.shown_of_gambit (hlast _ _ _)).trans hmarked⟩
  rw [State.gmb_of_gambit (hlast _ _ _)]
  exact ⟨rfl, rfl, rfl, rfl, rfl⟩

/-- What the commands that withdraw everything do in the end: show the gambit, and leave the record if it has settled. -/
theorem State.restart_spec {s : State} {p : Nat} (h : s.gmb.RestartsAt p) :
    (s.gmbShow.settleArmed).gmb.RestartsAt p ∧ (s.gmbShow.settleArmed).shown overrunKey = s.shown overrunKey := by
  have hgmb : s.gmbShow.gmb = s.gmb := State.gmb_of_gambit s.gmbShow_gambit
  refine ⟨?_, (State.settleArmed_shown _).trans (State.shown_of_gambit s.gmbShow_gambit)⟩
  rcases s.gmbShow.settleArmed_gmb with hsettle | hsettle
  · rwa [hsettle, hgmb]
  · rw [hsettle, hgmb]
    exact h.stopped

/-! ### LADDER_OVERRUN -/

theorem execLadderOverrun_eq (s : State) (t : Nat) : exec (.ladderOverrun t) s =
    .next (if s.histFull (s.gmb.hist.foldl (fun m h => Nat.max m (h.ply + 1)) (t / 32)) then
      (((s.at t).overrun (s.gmb.hist.foldl (fun m h => Nat.max m (h.ply + 1)) (t / 32))).gmbShow).settleArmed else s.at t) := rfl

theorem satU_eq_min (w v : Nat) : satU w v = Nat.min v (2 ^ w - 1) := by
  unfold satU
  have := Nat.two_pow_pos w
  show _ = min _ _
  split <;> omega

/-- An overrun restarts the ladder at ply `p` and counts. -/
theorem State.overrun_spec {s : State} (hs : s.Canon) (p : Nat) :
    let u := ((s.overrun p).gmbShow).settleArmed
    u.gmb.RestartsAt p ∧ u.get P.GMB F.GMB_OVERRUN_CNT = Nat.min (s.get P.GMB F.GMB_OVERRUN_CNT + 1) (2 ^ 32 - 1) := by
  obtain ⟨hrestart, hshown⟩ := s.withdrawAll_spec p true
  have hwf : (s.withdrawAll p true).ActiveWf := ((State.withdrawAll_keeps (.refl s) p true).canon hs).active
  have hgmb : (s.overrun p).gmb = (s.withdrawAll p true).gmb := by simp [State.overrun]
  have hcount : (s.overrun p).shown overrunKey = ((s.withdrawAll p true).sat P.GMB F.GMB_OVERRUN_CNT).shown overrunKey :=
    State.pulse_shown _ (by decide) 3
  obtain ⟨hrestarted, hkept⟩ := State.restart_spec (hgmb ▸ hrestart)
  refine ⟨hrestarted, ?_⟩
  rw [State.overruns_of_shown (hkept.trans hcount), State.get_sat hwf _ _ _ _ (by decide) (by decide), State.overruns_of_shown hshown,
    satU_eq_min]
  rfl

/-! ### SETTLE_TIMEOUT -/

/-- The slot from which a checkpoint may no longer be unresolved, when `l` is the first ply not evaluated. -/
def State.settleDue (s : State) (l : Nat) : Nat := 32 * (l + 64 * 2 ^ s.use P.GMB F.GMB_CTL_CKPT_EXP)

section settle
variable {s : State} {t l : Nat} (hlast : s.gmb.last = some l)
include hlast

theorem execSettleTimeout_eq : exec (.settleTimeout t) s =
    .next (if s.gmb.running ∧ !s.gmb.ckpts.isEmpty ∧ s.settleDue l ≤ t then
      (((s.at t).withdrawAll l false).gmbShow).settleArmed else s.at t) := by
  show execSettleTimeout t s = _
  unfold execSettleTimeout
  dsimp only
  rw [show (s.at t).gmb.last = some l from hlast]
  rfl

theorem execSettleTimeout_due (hrun : s.gmb.running = true) (hne : s.gmb.ckpts ≠ []) (hdue : s.settleDue l ≤ t) :
    exec (.settleTimeout t) s = .next (((s.at t).withdrawAll l false).gmbShow).settleArmed := by
  rw [execSettleTimeout_eq hlast, if_pos ⟨hrun, by simpa using hne, hdue⟩]

theorem execSettleTimeout_early (h : s.gmb.ckpts = [] ∨ t < s.settleDue l) : exec (.settleTimeout t) s = .next (s.at t) := by
  rw [execSettleTimeout_eq hlast, if_neg]
  rintro ⟨-, hne, hdue⟩
  rcases h with h | h
  · simp [h] at hne
  · omega

omit hlast in
theorem execSettleTimeout_none (hlast : s.gmb.last = none) : exec (.settleTimeout t) s = .next (s.at t) := by
  show execSettleTimeout t s = _
  unfold execSettleTimeout
  dsimp only
  rw [show (s.at t).gmb.last = none from hlast]

end settle

/-! ### REPLAY_CATCH_UP -/

/-- The register of GMB_STAT. -/
def gmbStatKey : Nat → Bool := keysOf (pageKeys P.GMB [F.GMB_STAT_REPLAYING.off])

/-- What is shown of the gambit leaves whether it replays. -/
theorem State.gmbShow_replaying {s : State} (hs : s.ActiveWf) :
    s.gmbShow.getB P.GMB F.GMB_STAT_REPLAYING = s.getB P.GMB F.GMB_STAT_REPLAYING := by
  have hoff {p : Nat} (hp : p ≠ P.GMB) : offPage gmbStatKey p := offPage_keysOf (by decide) hp.symm
  have hused := State.put_wf hs P.GMB F.GMB_STAT_CKPT_USED s.gmb.ckpts.length 0
  have hshown : s.gmbShow.shown gmbStatKey = ((s.put P.GMB F.GMB_STAT_CKPT_USED s.gmb.ckpts.length).putB P.GMB F.GMB_STAT_CKPT_FULL
      (s.gmb.ckpts.length == 64)).shown gmbStatKey := by
    simp +decide [State.gmbShow]
  refine congrArg (· == 1) ?_
  rw [State.get_congr (State.reg_of_shown hshown (by decide))]
  exact (State.get_put_field hused _ _ _ _ _ _ (by decide) (by decide) (by decide) (by decide)).trans
    (State.get_put_field hs _ _ _ _ _ _ (by decide) (by decide) (by decide) (by decide))

theorem execReplayCatchUp_done {s : State} {t : Nat} (hreplay : s.getB P.GMB F.GMB_STAT_REPLAYING = true)
    (hnone : s.gmb.nextPly = none) : exec (.replayCatchUp t) s = .next ((s.at t).putB P.GMB F.GMB_STAT_REPLAYING false).gmbShow := by
  have hif : (s.at t).getB P.GMB F.GMB_STAT_REPLAYING = true ∧ (s.at t).gmb.nextPly.isNone = true :=
    ⟨hreplay, Option.isNone_iff_eq_none.2 hnone⟩
  exact congrArg Host.Outcome.next (if_pos hif)

theorem execReplayCatchUp_left {s : State} {t : Nat} {h : HistPly} (hsome : s.gmb.nextPly = some h) :
    exec (.replayCatchUp t) s = .next (s.at t) := by
  have hif : ¬((s.at t).getB P.GMB F.GMB_STAT_REPLAYING = true ∧ (s.at t).gmb.nextPly.isNone = true) := by
    rw [show (s.at t).gmb.nextPly = some h from hsome]
    simp
  exact congrArg Host.Outcome.next (if_neg hif)

/-- A replay that ends changes what GMB and TLD show, and nothing of the gambit. -/
theorem State.replayEnded_spec {s : State} (hs : s.Canon) : let u := (s.putB P.GMB F.GMB_STAT_REPLAYING false).gmbShow
    u.getB P.GMB F.GMB_STAT_REPLAYING = false ∧ u.gmb = s.gmb ∧ PagesBut [P.GMB, P.TLD] s u := by
  have hput : (s.putB P.GMB F.GMB_STAT_REPLAYING false).ActiveWf := State.putB_wf hs.active ..
  have hpages : PagesBut [P.GMB, P.TLD] s (s.putB P.GMB F.GMB_STAT_REPLAYING false) :=
    pagesBut_of_shown (State.putB_shown s (by decide) false)
  have hoff : (s.putB P.GMB F.GMB_STAT_REPLAYING false).getB P.GMB F.GMB_STAT_REPLAYING = false :=
    congrArg (· == 1) (State.get_put hs.active _ _ _ _ (by decide) (by decide))
  have hgmb : (s.putB P.GMB F.GMB_STAT_REPLAYING false).gmb = s.gmb := by simp
  generalize s.putB P.GMB F.GMB_STAT_REPLAYING false = x at *
  have hshow : PagesBut [P.GMB, P.TLD] x x.gmbShow :=
    pagesBut_of_shown (x.gmbShow_shown (offPage_pagesElse (by decide)) (offPage_pagesElse (by decide)))
  exact ⟨(State.gmbShow_replaying hput).trans hoff, (State.gmb_of_gambit x.gmbShow_gambit).trans hgmb,
    fun p o ho hp => (hshow p o ho hp).trans (hpages p o ho hp)⟩

end Sys2Proof.Machine
end

section
/-!
SUPPORT. The bits that become known in a ply of the history (R214, R217), the rollback they may cause (R223), and the checkpoints that
resolve when the commit point advances (R221).
-/
namespace Sys2Proof.Machine

/-! ### Lanes -/

theorem lookup_putLane_self (m : List (Nat × Nat)) (u v : Nat) : ((putLane m u v).lookup u).getD 0 = v := by
  have hgone : (m.filter (fun e => e.1 != u)).lookup u = none := by
    rw [List.lookup_eq_none_iff]
    intro e he
    exact bne_iff_ne.2 (bne_iff_ne.1 (List.mem_filter.1 he).2).symm
  dsimp only [putLane]
  split
  · next hv => rw [hgone, hv]; rfl
  · rw [List.lookup_cons_self]; rfl

theorem lookup_filter_ne (m : List (Nat × Nat)) {u w : Nat} (h : w ≠ u) : (m.filter (fun e => e.1 != u)).lookup w = m.lookup w := by
  induction m with
  | nil => rfl
  | cons e r ih =>
    obtain ⟨a, b⟩ := e
    by_cases ha : a = u
    · simp [ha, ih, List.lookup_cons, beq_false_of_ne h]
    · simp [ha, ih, List.lookup_cons]

theorem lookup_putLane_ne (m : List (Nat × Nat)) {u w : Nat} (h : w ≠ u) (v : Nat) : (putLane m u v).lookup w = m.lookup w := by
  dsimp only [putLane]
  split
  · exact lookup_filter_ne m h
  · rw [List.lookup_cons, beq_false_of_ne h]
    exact lookup_filter_ne m h

/-! ### Bits newly known -/

/-- The bits of a unit that a ply's entry holds as known. -/
def HistPly.knownLane (h : HistPly) (u : Nat) : Nat := (h.known.lookup u).getD 0

/-- The entry with the bits of one unit that are known at slot `t`: one turn of `State.fillKnown`. -/
def State.fillUnit (s : State) (t : Nat) (h : HistPly) (u : Nat) : HistPly :=
  let m := s.newlyKnown h u t
  { h with
    known := putLane h.known u (h.knownLane u ||| m.1),
    lanes := putLane h.lanes u (((h.lanes.lookup u).getD 0) ||| m.2) }

variable (s : State) (t : Nat)

theorem State.fillKnown_eq (h : HistPly) : s.fillKnown h t = s.lateUnits.foldl (s.fillUnit t) h := rfl

theorem State.fillUnit_knownLane_self (h : HistPly) (u : Nat) :
    (s.fillUnit t h u).knownLane u = h.knownLane u ||| (s.newlyKnown h u t).1 := lookup_putLane_self ..

theorem State.fillUnit_knownLane_ne (h : HistPly) {u n : Nat} (hne : n ≠ u) : (s.fillUnit t h u).knownLane n = h.knownLane n :=
  congrArg (·.getD 0) (lookup_putLane_ne h.known hne _)

/-- What becomes known of a unit rests on the entry's ply and on what it holds of that unit. -/
theorem State.newlyKnown_congr {h k : HistPly} {n : Nat} (hply : k.ply = h.ply) (hlane : k.knownLane n = h.knownLane n) :
    s.newlyKnown k n t = s.newlyKnown h n t := by
  unfold HistPly.knownLane at hlane
  simp only [State.newlyKnown, hply, hlane]

theorem State.fillUnits_ply (us : List Nat) (h : HistPly) : (us.foldl (s.fillUnit t) h).ply = h.ply := by
  induction us generalizing h with
  | nil => rfl
  | cons u r ih => exact ih (s.fillUnit t h u)

theorem State.fillUnits_knownLane_other {us : List Nat} {n : Nat} (hn : n ∉ us) (h : HistPly) :
    (us.foldl (s.fillUnit t) h).knownLane n = h.knownLane n := by
  induction us generalizing h with
  | nil => rfl
  | cons u r ih =>
    rw [List.mem_cons, not_or] at hn
    exact (ih hn.2 (s.fillUnit t h u)).trans (s.fillUnit_knownLane_ne t h hn.1)

theorem State.fillUnits_knownLane {us : List Nat} {n : Nat} (hn : n ∈ us) (hus : us.Nodup) (h : HistPly) :
    (us.foldl (s.fillUnit t) h).knownLane n = h.knownLane n ||| (s.newlyKnown h n t).1 := by
  induction us generalizing h with
  | nil => cases hn
  | cons u r ih =>
    obtain ⟨hu, hr⟩ := List.nodup_cons.1 hus
    by_cases hnu : n = u
    · subst hnu
      exact (s.fillUnits_knownLane_other t hu _).trans (s.fillUnit_knownLane_self t h n)
    · have hlane := s.fillUnit_knownLane_ne t h hnu
      have hstep := ih ((List.mem_cons.1 hn).resolve_left hnu) hr (s.fillUnit t h u)
      rw [hlane, s.newlyKnown_congr t (k := s.fillUnit t h u) (h := h) rfl hlane] at hstep
      exact hstep

theorem State.fillKnown_ply (h : HistPly) : (s.fillKnown h t).ply = h.ply := by
  rw [State.fillKnown_eq, State.fillUnits_ply]

theorem State.fillKnown_knownLane {n : Nat} (hlate : isLate (s.cType n) = true) (hn : n < 8 * s.rungs) (h : HistPly) :
    (s.fillKnown h t).knownLane n = h.knownLane n ||| (s.newlyKnown h n t).1 := by
  rw [State.fillKnown_eq]
  exact s.fillUnits_knownLane t (List.mem_filter.2 ⟨List.mem_range.2 hn, hlate⟩) (List.nodup_range.filter _) h

/-! ### The history filled -/

theorem State.setHist_hist (h : HistPly) : (s.setHist h).gmb.hist = s.gmb.hist.map (fun x => if x.ply = h.ply then h else x) := by
  simp [State.setHist, State.histStore, State.modGmb]

/-- Each entry that a function of it changes replaces the entry of its ply, in turn. -/
theorem State.setHists_hist {f : HistPly → HistPly} (hf : ∀ h, (f h).ply = h.ply) {done rest : List HistPly} {s : State}
    (hs : s.gmb.hist = done ++ rest) (hnodup : ((done ++ rest).map HistPly.ply).Nodup) :
    ((rest.zip (rest.map f)).foldl (fun s e => if e.1 = e.2 then s else s.setHist e.2) s).gmb.hist = done ++ rest.map f := by
  induction rest generalizing done s with
  | nil => exact hs
  | cons h r ih =>
    have hturn : (if h = f h then s else s.setHist (f h)).gmb.hist = (done ++ [f h]) ++ r := by
      split
      · next heq => rw [← heq, hs, List.append_assoc]; rfl
      · have hother (x : HistPly) (hx : x ∈ done ∨ x ∈ r) : x.ply ≠ h.ply := by
          rw [List.map_append, List.map_cons, List.nodup_append, List.nodup_cons] at hnodup
          obtain ⟨-, ⟨hr, -⟩, hdone⟩ := hnodup
          rcases hx with hx | hx
          · exact hdone _ (List.mem_map_of_mem hx) _ (List.mem_cons_self ..)
          · exact fun e => hr (e ▸ List.mem_map_of_mem hx)
        have hkeep (l : List HistPly) (hl : ∀ x ∈ l, x ∈ done ∨ x ∈ r) : l.map (fun x => if x.ply = h.ply then f h else x) = l :=
          (List.map_congr_left fun x hx => if_neg (hother x (hl x hx))).trans (List.map_id' l)
        rw [State.setHist_hist, hf, hs, List.map_append, List.map_cons, if_pos rfl, hkeep done fun _ => .inl, hkeep r fun _ => .inr,
          List.append_assoc]
        rfl
    have hplies : ((done ++ [f h]) ++ r).map HistPly.ply = (done ++ h :: r).map HistPly.ply := by simp [hf]
    rw [List.map_cons, List.zip_cons_cons, List.foldl_cons, ih hturn (hplies ▸ hnodup), List.append_assoc]
    rfl

/-! ### Rollback -/

/-- The entry of a ply after a rollback to ply `p`: what its evaluation used is forgotten. -/
def HistPly.forgetFrom (p : Nat) (h : HistPly) : HistPly := if h.ply < p then h else { h with used := [], material := 0 }

theorem HistPly.forgetFrom_kept (p : Nat) (h : HistPly) :
    (h.forgetFrom p).ply = h.ply ∧ (h.forgetFrom p).knownLane = h.knownLane := by
  unfold HistPly.forgetFrom
  split <;> exact ⟨rfl, rfl⟩

theorem State.rollback_hist (m u : Nat) :
    (s.rollback m u).gmb.hist = s.gmb.hist ∨ ∃ p, (s.rollback m u).gmb.hist = s.gmb.hist.map (HistPly.forgetFrom p) := by
  unfold State.rollback
  extract_lets p kept
  split
  · exact .inl rfl
  · next live withdrawn _ c _ =>
    extract_lets dist rewound pulsed missed shown noted
    have hwithdrawn : withdrawn.gmb.hist = s.gmb.hist := by
      dsimp only [withdrawn]
      rw [State.withdraw_gmb]
      rfl
    clear_value withdrawn
    have hrewound : rewound.gmb.hist = withdrawn.gmb.hist.map (HistPly.forgetFrom c.ply) := rfl
    clear_value rewound
    have hshown : shown.gmb = rewound.gmb := by simp [shown, missed, pulsed]
    have hnoted : noted.gmb = shown.gmb := State.gmb_of_gambit (shown.note_gambit ..)
    have hlast : ((noted.setPaused false false).putB P.GMB F.GMB_STAT_REPLAYING true).gmb = noted.gmb := by
      simp [State.gmb_of_gambit (noted.setPaused_gambit false false)]
    exact .inr ⟨c.ply, by rw [hlast, hnoted, hshown, hrewound, hwithdrawn]⟩

/-- A rollback leaves the ply and the known bits of every entry of the history. -/
theorem State.rollback_known {m u : Nat} {k : HistPly} (hk : k ∈ (s.rollback m u).gmb.hist) :
    ∃ h ∈ s.gmb.hist, h.ply = k.ply ∧ h.knownLane = k.knownLane := by
  rcases s.rollback_hist m u with h | ⟨p, h⟩ <;> rw [h] at hk
  · exact ⟨k, hk, rfl, rfl⟩
  · obtain ⟨x, hx, rfl⟩ := List.mem_map.1 hk
    exact ⟨x, hx, (x.forgetFrom_kept p).1.symm, (x.forgetFrom_kept p).2.symm⟩

/-! ### What is learnt -/

/-- The history takes every bit known at slot `t`; a contradiction rolls back and leaves what is known. -/
theorem State.learn_hist (hnodup : (s.gmb.hist.map HistPly.ply).Nodup) {k : HistPly} (hk : k ∈ (s.learn t).gmb.hist) :
    ∃ h ∈ s.gmb.hist, h.ply = k.ply ∧ (s.fillKnown h t).knownLane = k.knownLane := by
  unfold State.learn at hk
  extract_lets old new pairs all idle hits first filled counted at hk
  have hfilled : filled.gmb.hist = s.gmb.hist.map (fun h => s.fillKnown h t) :=
    State.setHists_hist (done := []) (fun h => s.fillKnown_ply t h) rfl hnodup
  have hcounted : counted.gmb.hist = filled.gmb.hist := by
    dsimp only [counted]
    split <;> simp
  have hlearnt {x : HistPly} (hx : x ∈ counted.gmb.hist) :
      ∃ h ∈ s.gmb.hist, h.ply = x.ply ∧ (s.fillKnown h t).knownLane = x.knownLane := by
    rw [hcounted, hfilled] at hx
    obtain ⟨h, hh, rfl⟩ := List.mem_map.1 hx
    exact ⟨h, hh, (s.fillKnown_ply t h).symm, rfl⟩
  clear_value counted first
  split at hk
  · obtain ⟨x, hx, hply, hlane⟩ := State.rollback_known _ hk
    obtain ⟨h, hh, hply', hlane'⟩ := hlearnt hx
    exact ⟨h, hh, hply'.trans hply, hlane'.trans hlane⟩
  · exact hlearnt hk

/-! ### The commit point -/

/-- The first ply that is not committed. -/
def GmbState.commitPly (g : GmbState) : Nat := match g.ckpts with | c :: _ => c.ply | [] => g.next

/-- The gambit once the checkpoints that have resolved are gone. -/
def GmbState.resolved (g : GmbState) : GmbState := { g with ckpts := g.unresolved g.ckpts }

/-- The gambit once the commit point has advanced: the effects and the history before it are gone too. -/
def GmbState.advanced (g : GmbState) : GmbState :=
  { g.resolved with
    effects := g.resolved.effects.filter (fun e => !decide (e.slot < 32 * g.resolved.commitPly)),
    hist := g.resolved.hist.filter (fun h => decide (g.resolved.commitPly ≤ h.ply + 1)) }

/-- The commit point advances; after that the record may be left. -/
theorem State.advanceCommit_gmb : s.advanceCommit.gmb = s.gmb.advanced ∨ s.advanceCommit.gmb = s.gmb.advanced.stopped := by
  unfold State.advanceCommit
  extract_lets resolved p due trimmed confirmed
  have htrimmed : trimmed.gmb = s.gmb.advanced := rfl
  have hconfirmed : confirmed.gambit = trimmed.gambit := State.each_gambit_of_mem trimmed fun u e _ => u.confirm_gambit e p
  have hshown : confirmed.releaseInjections.gmbShow.gambit = confirmed.gambit :=
    (State.gmbShow_gambit _).trans confirmed.releaseInjections_gambit
  rw [← htrimmed, ← State.gmb_of_gambit hconfirmed, ← State.gmb_of_gambit hshown]
  exact State.settleArmed_gmb _

/-- The ply the span of a checkpoint ends before: that of the next checkpoint, or the next to be evaluated. -/
def GmbState.spanEnd (g : GmbState) (later : List Ckpt) : Nat := match later with | d :: _ => d.ply | [] => g.next

/-- The oldest checkpoint left covers no evaluated ply, or one with a predicted bit still unknown. -/
theorem GmbState.unresolved_oldest {g : GmbState} {l r : List Ckpt} {c : Ckpt} (h : g.unresolved l = c :: r) :
    g.spanEnd r ≤ c.ply ∨ g.settled c.ply (g.spanEnd r) = false := by
  induction l with
  | nil => cases h
  | cons d l ih =>
    unfold GmbState.unresolved at h
    extract_lets finish at h
    split at h
    · exact ih h
    · next hopen =>
      obtain ⟨rfl, rfl⟩ := List.cons.inj h
      rw [Bool.and_eq_true, decide_eq_true_eq, not_and_or, Nat.not_lt, Bool.not_eq_true] at hopen
      exact hopen

/-- What leaves the history lies before the span asked for. -/
theorem GmbState.settled_trim {g : GmbState} {p b : Nat} :
    GmbState.settled { g with hist := g.hist.filter (fun h => decide (p ≤ h.ply + 1)) } p b = g.settled p b := by
  simp only [GmbState.settled, List.all_filter]
  refine List.all_congr rfl fun h => ?_
  by_cases hp : p ≤ h.ply + 1
  · simp [hp]
  · simp [show h.ply < p by omega]

theorem GmbState.advanced_oldest {g : GmbState} {c : Ckpt} {r : List Ckpt} (h : g.advanced.ckpts = c :: r) :
    g.advanced.spanEnd r ≤ c.ply ∨ g.advanced.settled c.ply (g.advanced.spanEnd r) = false := by
  have hfirst : g.resolved.commitPly = c.ply := by
    unfold GmbState.commitPly
    rw [show g.resolved.ckpts = c :: r from h]
  have htrim : g.advanced.settled c.ply (g.spanEnd r) = g.settled c.ply (g.spanEnd r) := by
    rw [← GmbState.settled_trim (g := g), ← hfirst]
    rfl
  exact (GmbState.unresolved_oldest h).imp_right htrim.trans

/-! ### LATE_BIT_KNOWN -/

section late
variable {s t} {n : Fin 128} {p : Nat} {h : HistPly} (hfind : s.gmb.hist.find? (fun h => h.ply == p) = some h)
include hfind

theorem execLateBitKnown_eq : exec (.lateBitKnown t n p) s =
    .next (if s.gmb.running && ((s.newlyKnown h n t).1 != 0 && isLate (s.cType n) && decide (n.val < 8 * s.rungs))
      then ((s.at t).learn t).advanceCommit else s.at t) := by
  show execLateBitKnown t n p s = _
  unfold execLateBitKnown
  dsimp only
  rw [show (s.at t).gmb.hist.find? (fun h => h.ply == p) = some h from hfind]
  rfl

theorem execLateBitKnown_learns (hrun : s.gmb.running = true) (hlate : isLate (s.cType n) = true) (hn : n.val < 8 * s.rungs)
    (hnew : (s.newlyKnown h n t).1 ≠ 0) : exec (.lateBitKnown t n p) s = .next ((s.at t).learn t).advanceCommit := by
  rw [execLateBitKnown_eq hfind, if_pos (by simp [hrun, hlate, hn, hnew])]

theorem execLateBitKnown_nothing (hnew : (s.newlyKnown h n t).1 = 0) : exec (.lateBitKnown t n p) s = .next (s.at t) := by
  rw [execLateBitKnown_eq hfind, if_neg (by simp [hnew])]

omit hfind in
theorem execLateBitKnown_absent (hfind : s.gmb.hist.find? (fun h => h.ply == p) = none) :
    exec (.lateBitKnown t n p) s = .next (s.at t) := by
  show execLateBitKnown t n p s = _
  unfold execLateBitKnown
  dsimp only
  rw [show (s.at t).gmb.hist.find? (fun h => h.ply == p) = none from hfind]
  simp

/-- The entry of the ply named holds the bits newly known, wherever it is still kept. -/
theorem State.learn_knownLane (hnodup : (s.gmb.hist.map HistPly.ply).Nodup) (hlate : isLate (s.cType n) = true)
    (hn : n.val < 8 * s.rungs) {k : HistPly} (hk : k ∈ ((s.at t).learn t).advanceCommit.gmb.hist) (hply : k.ply = p) :
    k.knownLane n = h.knownLane n ||| (s.newlyKnown h n t).1 := by
  have hkept : k ∈ ((s.at t).learn t).gmb.hist := by
    rcases ((s.at t).learn t).advanceCommit_gmb with hg | hg <;> rw [hg] at hk <;> exact (List.mem_filter.1 hk).1
  obtain ⟨x, hx, hxply, hlane⟩ := (s.at t).learn_hist t hnodup hkept
  have hsame : x = h := by
    have hp : h.ply = p := by simpa using List.find?_some hfind
    exact List.inj_on_of_nodup_map hnodup hx (List.mem_of_find?_eq_some hfind) (by rw [hxply, hply, hp])
  rw [← hlane, hsame]
  exact (s.at t).fillKnown_knownLane t hlate hn h

end late

end Sys2Proof.Machine
end

section
/-!
SUPPORT. The statement on late bits, the commit point, overrun and settling (R214, R221, R224, R227, R514).
-/
namespace Sys2Proof.Machine

/-- The clauses on LATE_BIT_KNOWN with bits newly known. -/
theorem State.lateBits_spec {s : State} {t p : Nat} {n : Fin 128} {h : HistPly}
    (hfind : s.gmb.hist.find? (fun h => h.ply == p) = some h) (hlate : isLate (s.cType n) = true) (hn : n.val < 8 * s.rungs)
    (hnodup : (s.gmb.hist.map HistPly.ply).Nodup) : let u := ((s.at t).learn t).advanceCommit
    (∀ k ∈ u.gmb.hist, k.ply = p → k.knownLane n = h.knownLane n ||| (s.newlyKnown h n t).1) ∧
      ∀ c r, u.gmb.ckpts = c :: r → u.gmb.spanEnd r ≤ c.ply ∨ u.gmb.settled c.ply (u.gmb.spanEnd r) = false := by
  refine ⟨fun k hk hply => State.learn_knownLane hfind hnodup hlate hn hk hply, fun c r hc => ?_⟩
  rcases ((s.at t).learn t).advanceCommit_gmb with hg | hg <;> rw [hg] at hc ⊢
  · exact GmbState.advanced_oldest hc
  · cases hc

/-- Settles O37: `State.learn` and `State.advanceCommit` for late bits, `State.withdrawAll` for the overrun and the time-out. -/
theorem lateBitsCommitOverrunAndSettling : Obligations.LateBitsCommitOverrunAndSettling := by
  refine ⟨fun s t n p hs => ⟨fun h hfind => ⟨fun hrun hlate hn hnew hnodup => ?_, execLateBitKnown_nothing hfind⟩,
    execLateBitKnown_absent, fun hreplay => ⟨fun hnone => ?_, fun h => execReplayCatchUp_left⟩⟩, fun s t hs => ⟨fun hfull => ?_,
    fun hroom => ?_, fun l hlast hrun => ⟨fun hne hdue => ?_, execSettleTimeout_early hlast⟩, execSettleTimeout_none⟩⟩
  · exact ⟨_, execLateBitKnown_learns hfind hrun hlate hn hnew, State.lateBits_spec hfind hlate hn hnodup⟩
  · exact ⟨_, execReplayCatchUp_done hreplay hnone, State.replayEnded_spec (s := s.at t) hs⟩
  · obtain ⟨hrestart, hcount⟩ := State.overrun_spec (s := s.at t) hs (s.gmb.hist.foldl (fun m h => Nat.max m (h.ply + 1)) (t / 32))
    exact ⟨_, (execLadderOverrun_eq s t).trans (by rw [if_pos hfull]), hrestart.ckpts, hrestart.effects, hrestart.hist, hrestart.next,
      hrestart.rung, hcount⟩
  · exact (execLadderOverrun_eq s t).trans (by rw [hroom]; rfl)
  · obtain ⟨hrestart, hcount⟩ := (s.at t).withdrawAll_spec l false
    obtain ⟨hsettled, hkept⟩ := State.restart_spec hrestart
    exact ⟨_, execSettleTimeout_due hlast hrun hne hdue, hsettled.ckpts, hsettled.effects,
      State.overruns_of_shown (s := s.at t) (hkept.trans hcount)⟩

end Sys2Proof.Machine
end
